-- ==== Sys2Proof/Word.lean ====
section
/-! DEFINITION. The word types of the TZ5120: a register dword, a byte, a 4 KiB data block, and the
sorted association list in which every numbered family of units is held. -/

namespace Sys2Proof

/-- A management-window dword (R561). -/
abbrev Word := BitVec 32

/-- One byte. -/
abbrev Byte := BitVec 8

/-- The data of one LBA: its 4,096 user bytes, byte 0 in the least significant place (R12), and above them the 16 HOST_MD bytes
of its frame, unused ones 0 (R59, R160). -/
abbrev Block := BitVec 32896

/-- A numbered family of units or records: (number, contents) pairs with strictly rising numbers.
A number that is not listed holds the family's reset contents, and no listed number does. -/
abbrev Tbl (α : Type) := List (Nat × α)

end Sys2Proof
end

