-- ==== Sys2Proof/Syntax.lean ====
section
/-! DEFINITION. The commands of the TZ5120: one constructor of Instr for each row of spec/opcode_table.json, in the
table's order, and the operand types they carry. -/

namespace Sys2Proof

/-- The header every NVMe command carries: the controller it came in on (0-255 the PCIe controller of that tenant slot,
256 and above a fabric controller), its submission queue, its command identifier and its NSID. `mc` marks a command
that came through the NVMe-MI admin command tunnel with the management controller's rights (R314). `unsupported` marks one
whose fields select an option that the controller does not support (R58), `dspec` is the placement identifier of a write with a data placement
directive (R99). -/
structure Hdr where
  ctrl : Nat
  sqid : Nat
  cid : Nat
  nsid : Nat
  mc : Bool
  unsupported : Bool := false
  dspec : Option Nat := none
  deriving DecidableEq, Repr

/-- The two parties that reach the management window (R560). -/
inductive Party where
  | manager
  | mgmtController
  deriving DecidableEq, Repr

/-- Why a sensor reading is broken (R507, THM_READ.CAUSE). -/
inductive SensorFault where
  | none
  | openCircuit
  | short
  | rangeOrCheck
  deriving DecidableEq, Repr

/-- One conversion of the housekeeping ADC (R505): a temperature in 1/16 °C before OFFSET or a supply in mV, the fault
the conversion showed, the raw code of event 0x0202, and, for a self-check reference, whether it lay within ±1 % (R508). -/
structure HkSample where
  value : Int
  fault : SensorFault
  raw : Nat
  refOk : Bool
  deriving DecidableEq, Repr

/-- What the fast-sense ADC delivers for one loop period (R398): the measured value in the loop's units, the input power,
the mean and lowest bank voltage, the mean bank current, and the charge moved and voltage rise since the last estimate (R410). -/
structure LoopSample where
  value : Int
  inPowerMw : Nat
  bankMv : Nat
  bankLowMv : Nat
  bankMa : Nat
  chargeUc : Nat
  riseMv : Nat
  deriving DecidableEq, Repr

/-- A core that a level's collector watches by heartbeat (R47). -/
inductive CoreId where
  | pacer (cell : Nat)
  | marshal (block : Nat)
  | steward (region idx : Nat)
  deriving DecidableEq, Repr

/-- A fixed-function unit of *Single faults* (R523). -/
inductive FixedUnit where
  | decoder (block idx : Nat)
  | cipher (block : Nat)
  | parity (idx : Nat)
  | compress (region idx : Nat)
  deriving DecidableEq, Repr

/-- A unit whose handler's response can be overdue (R530). -/
inductive UnitId where
  | core (c : CoreId)
  | fixed (u : FixedUnit)
  deriving DecidableEq, Repr

/-- The operations that need a baton (R390, *Heavy operations*). -/
inductive HeavyOp where
  | program (lane die : Nat)
  | erase (lane die : Nat)
  | softDecode (ctx entry : Nat)
  | burst (ctx : Nat)
  | lane (lane : Nat)
  | dram (channel : Nat)
  deriving DecidableEq, Repr

/-- A flit as a lane port receives it (R107, R108): the 58 line bits before it, newest highest, and its blocks, each with its sync
header and its 64 scrambled bits, first bit lowest. -/
structure Flit where
  before : BitVec 58
  blocks : List (BitVec 2 × BitVec 64)
  deriving DecidableEq, Repr

/-- What the lane PHY and the bridge's TS blocks report at the end of a training attempt or a recalibration (*Full training*, R112,
R114): whether TS1 was answered, lock was won, and 8 identical TS2 came, the far end's VERSION byte, the MARGIN at the TZ5120's and at
the bridge's receiver after each trial, the bit errors of PRBS31 at the two receivers, and the time taken. -/
structure TrainResult where
  answered : Bool
  locked : Bool
  exchanged : Bool
  version : BitVec 8
  trials : List (Nat × Nat)
  prbsNear : Nat
  prbsFar : Nat
  timeUs : Nat
  deriving DecidableEq, Repr

/-- The RESULT byte of DONE (R125, *Upstream messages*). -/
inductive DoneResult where
  | ok
  | statusFail
  | timeout
  | aborted
  | suspended
  | resumed
  | badRequest
  | dieAbsent
  | lateReady
  | resetDone
  deriving DecidableEq, Repr

/-- How a granule decoded (R253, *Packed Read outcomes*). -/
inductive GranuleOutcome where
  | ok
  | gcrc
  | badLength
  | malformed
  deriving DecidableEq, Repr

/-- What an on-chip error strikes: a memory of *Memory out of service* (R463), with the sub-instance of the unit that owns other shared state
(R46); a fabric word in flight, its link and sender, and whether it is the repeat of a word that failed before (R39); or a fabric request: its
target, its requester, whether its address lies outside the requester's window, and its bytes (R461, R466). -/
inductive ChipMemory where
  | pacer (cell : Nat)
  | marshal (block : Nat)
  | steward (region idx : Nat)
  | starterPair (pair : Nat)
  | staging (block word : Nat) (partnerBad : Bool) (nsid zone lbaOff : Nat)
  | keyTable (block : Nat)
  | tenantState (tenant kind : Nat)
  | recorder
  | shared (source : BitVec 16) (sub : Nat)
  | fabricWord (link : Nat) (sender : BitVec 16) (again : Bool)
  | request (target requester : BitVec 16) (outside : Bool) (bytes : Nat)
  deriving DecidableEq, Repr

/-- A register write of a type 0x0001 configuration record: offset, mask, value (R484). -/
structure RegTriple where
  offset : Nat
  mask : BitVec 32
  value : BitVec 32
  deriving DecidableEq, Repr

/-- The floors and shares of *Tenant Share Set data*, LIMITS, and of the tenant floors record (R371, R372). -/
structure Limits where
  ctxFloor : Nat
  ctxShare : Nat
  rqpFloor : Nat
  rqpShare : Nat
  sqFloor : Nat
  sqShare : Nat
  zoneFloor : Nat
  zoneShare : Nat
  stgFloor : Nat
  stgShare : Nat
  keyFloor : Nat
  keyShare : Nat
  pdFloor : Nat
  pdShare : Nat
  winFloor : Nat
  winShare : Nat
  cacheFloor : Nat
  cacheShare : Nat
  dashFloor : Nat
  raFloor : Nat
  weightFloor : Nat
  weight : Nat
  kiopsMax : Nat
  bwMax : Nat
  schedWeight : Nat
  holdMs : Nat
  dashQidMax : Nat
  tempoQidMax : Nat
  deriving DecidableEq, Repr

/-- One Set Features write (*Offset entry*): feature address, 0 = unused, and P1-P4, P1 lowest. -/
structure FeatWrite where
  addr : Nat
  p : BitVec 32
  deriving DecidableEq, Repr

/-- An entry of a read-level offset table (*Offset entry*). -/
structure OffsetEntry where
  feat : List FeatWrite
  softDelta : Nat
  last : Bool
  deriving DecidableEq, Repr

/-- What a die model supplies for one thermal band (R163): the read-level offset table and the die feature record. -/
structure BandLevels where
  entries : List OffsetEntry
  record : List FeatWrite
  deriving DecidableEq, Repr

/-- A die model configuration record (R137, R144, R163, R198): the first 6 bytes of the ONFI ID, byte 0 lowest, the geometry, POLL where
it gives one, SUSP, the levels of bands 0-4, and where the factory marks stand: the page, and the byte in it. -/
structure DieModel where
  onfi : Nat
  pages : Nat
  blocks : Nat
  planes : Nat
  poll : Option Nat
  susp : Nat
  bands : List BandLevels
  markPage : Nat
  markByte : Nat
  deriving DecidableEq, Repr

/-- The payload of a configuration record (R484): a type 0x0001 list of register writes, or a record of a type its
chapter owns. -/
inductive RecordBody where
  | writes (ws : List RegTriple)
  | dieModel (m : DieModel)
  | diePopulation (perLane : List (Nat × BitVec 8))
  | tenantFloors (slot : Nat) (lim : Limits)
  | gains (loop set : Nat) (kp ki kd : Int)
  | other (type : Nat)
  deriving DecidableEq, Repr

/-- One configuration record (R484): CLASS (true = LIVE), schema VERSION, payload. -/
structure CfgRecord where
  live : Bool
  version : Nat
  body : RecordBody
  deriving DecidableEq, Repr

/-- One row of an image's compatibility table (R481). -/
structure CompatRow where
  step : Nat
  boot : Bool
  rollSrc : Bool
  starter : Nat
  steward : Nat
  marshal : Nat
  pacer : Nat
  schema : Nat
  deriving DecidableEq, Repr

/-- A firmware component of an image (*Component entry*): version and, per mailbox 1-6, least and greatest epoch. -/
structure Component where
  version : Nat
  epochs : List (Nat × Nat)
  deriving DecidableEq, Repr

/-- A Gwema image as staged (R479, R480): its header fields, components (starter, steward, marshal, pacer), compatibility
rows, records, and whether its length, offsets and four signatures stand the checks. -/
structure Image where
  length : Nat
  offsetsOk : Bool
  sigsOk : Bool
  svn : Nat
  strict : Bool
  svnCommit : Bool
  starter : Component
  steward : Component
  marshal : Component
  pacer : Component
  schema : Nat
  rows : List CompatRow
  records : List CfgRecord
  deriving DecidableEq, Repr

/-- A bundle of LIVE records with the outcome of its signature checks (R485). -/
structure Bundle where
  sigsOk : Bool
  records : List CfgRecord
  deriving DecidableEq, Repr

/-- The outcomes a Warm-up step brings with it from the silicon and the flash (R55): the self-test of step 5 (R462), with each
memory out of service, its macro and the rows that fail in it (R463), the known-answer tests of cipher engines and key-derivation
units and the self-test of parity engines (R291, R179), the entropy health test failed, 0 for none (R274), the DRAM training of
step 6 (R451), and the parameter pages and factory marks of step 8 (R144, R198), by lane × 8 + die: tR, tPROG and tBERS in µs, none when all
copies fail CRC, and the die-block positions that carry a mark; and the entries of the landing directory, from 0, whose frames the ladder did not
correct in the restore of step 10 (R184). -/
structure WarmupReport where
  macrosTested : Nat
  rowsRepaired : Nat
  minSpare : Nat
  macrosOut : List (ChipMemory × Nat × Nat)
  badCipher : List Nat
  badKdu : List Nat
  badParity : List Nat
  entropyTest : Nat
  dramOk0 : Bool
  dramOk1 : Bool
  raaimt : Nat
  raammt : Nat
  paramPages : List (Nat × Option (Nat × Nat × Nat))
  factoryBad : List (Nat × List Nat)
  restoreBad : List Nat
  deriving DecidableEq, Repr

/-- A frame that a re-arm read found other than the row was left: its row, member position, frame index, and its protected
content (R185). -/
structure SeenFrame where
  row : Nat
  pos : Nat
  frame : Nat
  content : BitVec 32896
  deriving DecidableEq, Repr

/-- A control block as a lane receives it (R108). -/
structure LaneBlock where
  lane : Nat
  block : BitVec 64
  deriving DecidableEq, Repr

/-- What a Report Zones asks for: the zone states, and whether the count is of the zones reported alone (R58). -/
structure ReportPick where
  states : Nat
  isPartial : Bool
  deriving DecidableEq, Repr

/-- A log page and the log specific identifier, an endurance group (R99). -/
structure LogPage where
  lid : Nat
  lsi : Nat
  deriving DecidableEq, Repr

/-- A unit as events name it: its source identifier and its sub-instance (R45, R46). -/
structure UnitName where
  source : BitVec 16
  sub : Nat
  deriving DecidableEq, Repr

/-- The create data of Namespace Management (R571, R364, R238). -/
structure NsSpec where
  zoned : Bool
  lbaf : Nat
  packed : Bool
  owner : Nat
  region : Nat
  lbas : Nat
  nonce : Nat
  deriving DecidableEq, Repr

/-- *Tenant Share Set data* (R372): the CREATE dword's fields, the limits, and the NQN as a number (0 = the default). -/
structure TenantData where
  compat : Bool
  laneset : Bool
  pin : Bool
  region : Nat
  setId : Nat
  lim : Limits
  dashRate : Nat
  raRate : Nat
  nqn : Nat
  deriving DecidableEq, Repr

/-- *Window Create data* (R350). -/
structure WindowData where
  zslba : Nat
  pd : Nat
  rnr : Bool
  preload : Bool
  cls : Nat
  faultUs : Nat
  preloadMs : Nat
  deriving DecidableEq, Repr

/-- Why an Ethernet port is declared down (R324). -/
inductive PortFault where
  | alignment
  | localFault
  | remoteFault
  deriving DecidableEq, Repr

/-- A received frame that is not RoCEv2 data (R323). -/
inductive EthFrame where
  | arp (forUs : Bool)
  | neighbour (forUs : Bool)
  | echo (forUs : Bool)
  | pause
  | badIcrc
  | bufferFull
  | other
  deriving DecidableEq, Repr

/-- A PCIe configuration request (R297, R301). -/
inductive CfgRequest where
  | read (offset : Nat)
  | setVfEnable (numVfs : Nat)
  | clearVfEnable
  | busMaster (on : Bool)
  deriving DecidableEq, Repr

/-- The media on which an MCTP message arrives (R319). -/
inductive MctpMedium where
  | management
  | vdm (port : Nat)
  deriving DecidableEq, Repr

/-- An MCTP message (R319, R321, R322): control, the NVMe-MI commands by kind, SPDM by request code. -/
inductive MctpMsg where
  | control
  | readDataStructure
  | subsystemHealth
  | controllerHealth
  | configuration
  | vpd
  | setPower (ps : Nat)
  | spdm (code : Nat)
  | unsupported
  deriving DecidableEq, Repr

/-- What a boot store program was for (R474-R478, R490, R495). -/
inductive ProgramKind where
  | imagePart (bank : Nat)
  | ledgerEntry
  | header
  | seed
  deriving DecidableEq, Repr

/-- The part of a maintenance wake's work that was due (R431). -/
inductive MaintWork where
  | zoneAge
  | patrol
  | interval
  deriving DecidableEq, Repr

/-- The commands of the TZ5120, one for each row of spec/opcode_table.json, in its order. -/
inductive Instr where
  | aonResetRelease (pfdMv : Nat)
  | vauxRemoval
  | chipResetRelease (dualPort : Bool)
  | chipRstNRequest
  | powerGoodDrop (pg : BitVec 4)
  | perstAssert (port : Nat)
  | pcieHotReset (port : Nat)
  | pcieLinkRetrain (port rate width : Nat) (flit : Bool)
  | functionLevelReset (slot : Nat)
  | ccDisable (ctrl : Nat)
  | ccEnable (ctrl depth : Nat)
  | doorbellWrite (ctrl qid : Nat) (isCq : Bool) (value : Nat)
  | pfdFall (pfdMv bankMv : Nat)
  | pfdRise
  | homestretchEnd (bankMv : Nat)
  | homestretchCutoff (byVmin : Bool) (bankMv : Nat)
  | hardComparatorTrip
  | securityAlarm (source : Nat)
  | alarmSeedEraseDone
  | drbgHealthFail (test : Nat)
  | warmupStepDone (step : Nat) (rep : WarmupReport)
  | boundSetComputeDone
  | lkgTimerExpiry
  | bootStoreEraseDone (sector : Nat) (ok : Bool)
  | quietPoint
  | registerWrite (offset : Nat) (be : BitVec 4) (value : BitVec 32)
  | padReleaseWrite (word : Nat) (mask : BitVec 32)
  | sprintGrantWrite (value : BitVec 32)
  | sprintLeaseExpiry
  | sprintGpioChange (high : Bool)
  | laneRecalWrite (lane : Nat)
  | dramThaw (channel : Nat)
  | dramPlannedRetrain (channel : Nat)
  | evrReleaseWrite (party : Party) (seq : Nat)
  | evrLgClearWrite (party : Party)
  | gustClearWrite (loop : Nat)
  | fabPdWrite (d : Nat) (value : BitVec 32)
  | fabAddrWrite (a dword : Nat) (value : BitVec 32)
  | mcRegisterRead (nmd0 nmd1 : BitVec 32)
  | mcRegisterWrite (nmd0 nmd1 : BitVec 32)
  | mctpMessage (medium : MctpMedium) (msg : MctpMsg)
  | hkChannelConvert (sample : HkSample)
  | hkRoundEnd
  | loopPeriod (loop : Nat) (sample : LoopSample)
  | ceilComparatorTrip (bankMv : Nat)
  | chargerFault (measuredMa : Nat)
  | budgetFloorAlarm (measuredMw : Nat)
  | batonWaitReport
  | batonRequest (op : HeavyOp)
  | batonGrant
  | batonReturn (op : HeavyOp)
  | coreHeartbeatMiss (core : CoreId)
  | coreRestartDone (core : CoreId)
  | starterMismatch
  | standbyPairReturn (pass : Bool)
  | fixedUnitError (u : FixedUnit)
  | fixedUnitDeadline (u : FixedUnit)
  | responseOverdue (u : UnitId)
  | bothPairsLostReset
  | flitReceived (lane : Nat) (flit : Flit)
  | replayTimerExpiry (lane : Nat)
  | creditStallTimeout (lane cls : Nat)
  | laneRecoveryEnd (lane : Nat) (ok : Bool)
  | laneFullTrainingEnd (lane : Nat) (res : TrainResult)
  | laneRecalEnd (lane : Nat) (res : TrainResult)
  | recalIntervalExpiry (lane : Nat)
  | lanePark (lane : Nat)
  | bridgeTs1Received (ts : LaneBlock)
  | bridgeDone (lane tag : Nat) (result : DoneResult) (status busy moved : Nat)
  | bridgeCfgData (lane tag die : Nat) (bad : Bool) (d0 d1 : BitVec 32)
  | bridgeAlert (lane die code detail : Nat)
  | bridgeSyncReport (lane die : Nat) (held : List (Nat × Nat)) (recent : List (Nat × Nat))
  | dieOpSelect (lane die : Nat)
  | suspendLate (lane die : Nat)
  | laneOpTimeout (lane tag : Nat)
  | decodeComplete (block job : Nat) (ok fcrcOk : Bool) (bits : Nat)
  | parityJobComplete (job : Nat)
  | cipherUnitComplete (block job : Nat)
  | stagingWritten (ctx : Nat)
  | hostDataArrival (ctx : Nat) (ok : Bool) (data : List Block)
  | compressGranuleDone (ctx streamLen : Nat) (mismatch : Bool)
  | decompressGranuleDone (ctx : Nat) (outcome : GranuleOutcome)
  | patrolReadStart (lane die : Nat)
  | retentionDue (nsid zone : Nat)
  | readDisturbThreshold (lane die block : Nat) (limit : Bool)
  | relocationComplete (lane die : Nat)
  | stripeRebuildComplete (set : Nat)
  | zoneRearmStart
  | zoneRearmDone (nsid zone : Nat) (failed : List (Nat × Nat)) (data parity : List SeenFrame)
  | gcStart (nsid : Nat)
  | gcVictimReclaimed (nsid : Nat)
  | oldBlockEraseStart (lane die block : Nat)
  | readCmd (h : Hdr) (slba nlb : Nat)
  | writeCmd (h : Hdr) (slba nlb : Nat)
  | writeZeroesCmd (h : Hdr) (slba nlb : Nat) (deac : Bool)
  | zoneAppendCmd (h : Hdr) (zslba nlb : Nat)
  | compareCmd (h : Hdr) (slba nlb : Nat) (data : List Block)
  | flushCmd (h : Hdr)
  | datasetMgmtCmd (h : Hdr) (deallocate : Bool) (ranges : List (Nat × Nat))
  | copyCmd (h : Hdr) (sdlba : Nat) (ranges : List (Nat × Nat))
  | zoneOpen (h : Hdr) (slba : Nat)
  | zoneClose (h : Hdr) (slba : Nat)
  | zoneFinish (h : Hdr) (slba : Nat)
  | zoneReset (h : Hdr) (slba : Nat)
  | zoneResetAll (h : Hdr)
  | zoneResetFenceClear (nsid zone : Nat)
  | zoneOffline (h : Hdr) (slba : Nat)
  | reportZones (h : Hdr) (slba : Nat) (pick : ReportPick) (maxZones : Nat)
  | zoneSetDescExt (h : Hdr) (slba : Nat)
  | zoneFzrTimeout (nsid zone : Nat)
  | zoneAeTimeout (nsid zone : Nat)
  | packedAppend (h : Hdr) (slba ng : Nat) (close : Bool)
  | packedRead (h : Hdr) (pga ng : Nat)
  | parcelHoldExpiry (nsid zone : Nat)
  | heldCommandRetry (tenant : Nat)
  | compatHoldExpiry (ctx : Nat)
  | createIoSq (h : Hdr) (qid depth qprio cqid : Nat)
  | createIoCq (h : Hdr) (qid depth vector : Nat)
  | deleteIoQueue (h : Hdr) (qid : Nat) (isCq : Bool)
  | identify (h : Hdr) (cns : Nat)
  | getLogPage (h : Hdr) (page : LogPage)
  | getFeatures (h : Hdr) (fid : Nat)
  | setFeaturesPower (h : Hdr) (ps : Nat)
  | setFeaturesApst (h : Hdr) (enable : Bool) (idleMs target : Nat)
  | setFeaturesTempThreshold (h : Hdr) (sensor : Nat) (under : Bool) (kelvin : Nat)
  | setFeaturesHostBehavior (h : Hdr) (acre : Bool)
  | abortCmd (h : Hdr) (sqid cid : Nat)
  | asyncEventRequest (h : Hdr)
  | apstIdleExpiry
  | entryStepDone
  | wakeEvent (bit : Nat)
  | exitStepDone (step : Nat) (ok : Bool)
  | maintTimerExpiry (work : MaintWork)
  | dramVisit
  | dramVisitIdleExpiry
  | formatNvm (h : Hdr) (ses nonce : Nat)
  | sanitizeCryptoErase (h : Hdr) (nonce : Nat)
  | sanitizeBlockErase (h : Hdr) (nonce : Nat)
  | sanitizeExitFailure (h : Hdr)
  | nsCreate (h : Hdr) (spec : NsSpec)
  | nsDelete (h : Hdr)
  | nsAttach (h : Hdr) (ctrls : List Nat) (attach : Bool)
  | virtMgmt (h : Hdr) (cntlid : Nat) (vectors : Bool) (count : Nat)
  | boundReport (h : Hdr) (selTenant : Bool) (tenant : Nat) (clear : Bool)
  | tenantCreate (h : Hdr) (slot : Nat) (data : TenantData)
  | tenantChangeShares (h : Hdr) (slot : Nat) (data : TenantData)
  | tenantDestroy (h : Hdr) (slot : Nat)
  | tenantReset (h : Hdr) (slot : Nat)
  | resetDrainDone (ctrl : Nat)
  | tenantShareGet (h : Hdr) (slot : Nat)
  | dirtyLogStart (h : Hdr) (slot : Nat)
  | dirtyLogStop (h : Hdr) (slot : Nat)
  | tenantQuiesce (h : Hdr) (slot : Nat)
  | quiesceDone (slot : Nat)
  | tenantResume (h : Hdr) (slot : Nat)
  | dirtyLogExport (h : Hdr) (slot numd ofst : Nat)
  | tenantStateExport (h : Hdr) (slot numd ofst : Nat)
  | tenantStateImport (h : Hdr) (dest source : Nat) (last : Bool) (exportSeq : Nat) (scrcOk : Bool)
  | ledgerRead (h : Hdr) (seq numd ofst : Nat)
  | ledgerReadCerts (h : Hdr) (numd ofst : Nat)
  | ledgerAcknowledge (h : Hdr) (seq : Nat)
  | imageStage (h : Hdr) (bank numd ofst : Nat) (last : Bool) (image : Image)
  | imageActivateLive (h : Hdr) (bank : Nat)
  | imageActivateAtReset (h : Hdr) (bank : Nat)
  | imageRevertAtReset (h : Hdr)
  | rollStepStart
  | rollStepDone (ok : Bool)
  | configRecordApply (h : Hdr) (numd ofst : Nat) (last : Bool) (bundle : Bundle)
  | recorderSnapshotHeld (h : Hdr) (seq numd ofst : Nat)
  | recorderSnapshotLastGasp (h : Hdr) (numd ofst : Nat)
  | recorderSnapshotFreeze (h : Hdr) (channel numd ofst : Nat)
  | recorderSnapshotKept (h : Hdr) (numd ofst : Nat)
  | windowCreate (h : Hdr) (data : WindowData)
  | windowDestroy (h : Hdr) (wid : Nat)
  | fabricsConnect (conn qid depth cid cntlid nqn : Nat)
  | rdmaCmRequest (addr port svcPort : Nat) (block : Bool) (sr : Bool) (rnrRead : Bool) (reorder mtu : Nat)
  | roceSendReceived (conn psn : Nat) (ce last : Bool)
  | roceAckReceived (conn psn : Nat) (sack : List Nat) (sampleUs : Option Nat)
  | roceNakReceived (conn psn : Nat)
  | cnpReceived (conn : Nat)
  | ethFrameReceived (port : Nat) (frame : EthFrame)
  | pfcFrameReceived (port prio : Nat) (xoff : Bool)
  | rdmaReadRequest (conn rkey va len : Nat) (write : Bool)
  | windowFetchDone (wid page : Nat) (ok : Bool)
  | windowFaultTimeout (read : Nat)
  | sackTimer (conn : Nat)
  | srResendTimer (conn : Nat)
  | ackTimeout (conn : Nat)
  | ethPortDown (port : Nat) (cause : PortFault)
  | ethPortUp (port : Nat)
  | flapHoldExpiry (port : Nat)
  | dramUncorrectableBurst (channel sub cls line : Nat) (source : BitVec 16) (conn : Nat)
  | dramResyncDone (channel : Nat) (ok : Bool)
  | dramRefreshTick (channel sub rank : Nat)
  | dramRaaThreshold (channel sub rank bank : Nat) (dashWaits : Bool)
  | onchipUncorrectable (mem : ChipMemory) (addr : Nat) (scrub : Bool)
  | rowCeLimit (unit : UnitName) (mac row : Nat)
  | scrubPassLate (kind passMs : Nat)
  | bufferGive (caller : BitVec 16) (handle : BitVec 32) (taker : BitVec 16)
  | bufferFree (caller : BitVec 16) (handle : BitVec 32)
  | bufferAudit
  | eventRecordArrival
  | lossOfBlockLock (lane : Nat)
  | pcieConfigRequest (port fn : Nat) (req : CfgRequest)
  | pcieLinkUp (port rate width : Nat) (flit : Bool)
  | rdmaCmDisconnect (conn : Nat)
  | lacpduReceived (port : Nat) (collecting : Bool)
  | rnrTimerExpiry (conn : Nat)
  | preloadTimeout (wid : Nat)
  | maintBucketFull
  | compatBucketRefill (tenant : Nat)
  | bootStoreProgramDone (kind : ProgramKind) (sector : Nat) (ok : Bool)
  | avsbusStepTimer (acked : Bool)
  | dramMr4Change (channel code : Nat)
  | managerRegisterRead (offset dwords : Nat)
  deriving DecidableEq, Repr

end Sys2Proof
end

