-- ==== Sys2Proof/Machine/Flags.lean ====
section
/-! DEFINITION. Bit fields of register words (R11), saturating counters, and two's complement fields. -/

namespace Sys2Proof.Machine

/-- Bits [hi:lo] of a word, as a number. -/
def bitsOf (w : Word) (hi lo : Nat) : Nat := w.toNat / 2 ^ lo % 2 ^ (hi - lo + 1)

/-- The word with ones in bits [hi:lo] only. -/
def maskOf (hi lo : Nat) : Word := BitVec.ofNat 32 ((2 ^ (hi - lo + 1) - 1) * 2 ^ lo)

/-- `w` with the bits of `m` taken from `v`. -/
def mergeWord (w m v : Word) : Word := (w &&& ~~~m) ||| (v &&& m)

/-- A field value at its place; a value wider than the field keeps its low bits. -/
def place (hi lo v : Nat) : Nat := v % 2 ^ (hi - lo + 1) * 2 ^ lo

/-- One bit at its place. -/
def placeBit (lo : Nat) (b : Bool) : Nat := if b then 2 ^ lo else 0

/-- A word put together from fields that do not overlap: (hi, lo, value). -/
def packWord : List (Nat × Nat × Nat) → Nat
  | [] => 0
  | (hi, lo, v) :: fs => place hi lo v + packWord fs

/-- A bit as a number. -/
def bit (b : Bool) : Nat := if b then 1 else 0

/-- A counter of `n` bits after `k` more events, saturating. -/
def satAdd (n a k : Nat) : Nat := min (a + k) (2 ^ n - 1)

/-- A value shown in an `n`-bit saturating field. -/
def satTo (n a : Nat) : Nat := min a (2 ^ n - 1)

/-- A signed number as an `n`-bit two's complement field. -/
def twosOf (n : Nat) (x : Int) : Nat := (x % (2 ^ n : Int)).toNat

/-- The signed number that an `n`-bit two's complement field holds. -/
def signedOf (n v : Nat) : Int := if v < 2 ^ (n - 1) then (v : Int) else (v : Int) - 2 ^ n

/-- Bit `i` of a word whose bits are numbered units. -/
def hasBit {n : Nat} (w : BitVec n) (i : Nat) : Bool := w.getLsbD i

/-- `w` with bit `i` set. -/
def setBit {n : Nat} (w : BitVec n) (i : Nat) : BitVec n := w ||| BitVec.ofNat n (2 ^ i)

/-- `w` with bit `i` cleared. -/
def clearBit {n : Nat} (w : BitVec n) (i : Nat) : BitVec n := w &&& ~~~(BitVec.ofNat n (2 ^ i))

/-- How many of the bits 0 to `k - 1` are set. -/
def countBits {n : Nat} (w : BitVec n) : Nat → Nat
  | 0 => 0
  | k + 1 => countBits w k + (if w.getLsbD k then 1 else 0)

/-- The quotient rounded up; 0 when the divisor is 0. -/
def ceilDiv (a b : Nat) : Nat := if b = 0 then 0 else (a + b - 1) / b

/-- `x` held between `lo` and `hi`; `hi` governs when they cross. -/
def clampInt (lo hi x : Int) : Int := min hi (max lo x)

end Sys2Proof.Machine
end

