-- ==== Sys2Proof/Machine/Sha.lean ====
section
/-! DEFINITION. SHA-384 and HMAC-SHA-384 (FIPS 180-4, FIPS 198-1), which the KDF of R272 is built on, on lists of byte values.
The round constants are computed from their definition: fractional parts of the roots of the first primes. -/

namespace Sys2Proof.Machine

/-- The first 80 primes. -/
def shaPrimes : List Nat :=
  [2, 3, 5, 7, 11, 13, 17, 19, 23, 29, 31, 37, 41, 43, 47, 53, 59, 61, 67, 71, 73, 79, 83, 89, 97, 101, 103, 107, 109, 113] ++
  [127, 131, 137, 139, 149, 151, 157, 163, 167, 173, 179, 181, 191, 193, 197, 199, 211, 223, 227, 229, 233, 239, 241, 251] ++
  [257, 263, 269, 271, 277, 281, 283, 293, 307, 311, 313, 317, 331, 337, 347, 349, 353, 359, 367, 373, 379, 383, 389, 397] ++
  [401, 409]

/-- The greatest r with r^e ≤ n, from bit k downward. -/
def rootBits (e : Nat) : Nat → Nat → Nat → Nat
  | 0, _, r => r
  | k + 1, n, r => rootBits e k n (if (r + 2 ^ k) ^ e ≤ n then r + 2 ^ k else r)

/-- Wrapping to 64 bits. -/
def w64 (x : Nat) : Nat := x % 2 ^ 64

/-- The 80 round constants: 64 bits of the fraction of each prime's cube root. -/
def shaK : List Nat := shaPrimes.map fun p => w64 (rootBits 3 68 (p * 2 ^ 192) 0)

/-- The initial hash of SHA-384: 64 bits of the fraction of the square roots of the 9th to 16th primes. -/
def shaInit : List Nat := ((shaPrimes.drop 8).take 8).map fun p => w64 (rootBits 2 70 (p * 2 ^ 128) 0)

/-- Rotation of a 64-bit word to the right. -/
def rotr (n x : Nat) : Nat := x / 2 ^ n + x % 2 ^ n * 2 ^ (64 - n)

/-- Message schedule of one block: the 16 words, newest first, extended to 80. -/
def shaSchedule : Nat → List Nat → List Nat
  | 0, w => w
  | n + 1, w =>
    let a := w.getD 14 0
    let b := w.getD 1 0
    let s0 := rotr 1 a ^^^ rotr 8 a ^^^ a / 2 ^ 7
    let s1 := rotr 19 b ^^^ rotr 61 b ^^^ b / 2 ^ 6
    shaSchedule n (w64 (w.getD 15 0 + s0 + w.getD 6 0 + s1) :: w)

/-- One round on the eight working words. -/
def shaRound (v : List Nat) (kw : Nat) : List Nat :=
  match v with
  | [a, b, c, d, e, f, g, h] =>
    let ch := (e &&& f) ^^^ ((2 ^ 64 - 1 - e) &&& g)
    let mj := (a &&& b) ^^^ (a &&& c) ^^^ (b &&& c)
    let t1 := h + (rotr 14 e ^^^ rotr 18 e ^^^ rotr 41 e) + ch + kw
    let t2 := (rotr 28 a ^^^ rotr 34 a ^^^ rotr 39 a) + mj
    [w64 (t1 + t2), a, b, c, w64 (d + t1), e, f, g]
  | v => v

/-- One block compressed into the hash. -/
def shaBlock (h : List Nat) (words : List Nat) : List Nat :=
  let w := (shaSchedule 64 words.reverse).reverse
  let v := (shaK.zip w).foldl (fun v p => shaRound v (p.1 + p.2)) h
  (h.zip v).map fun p => w64 (p.1 + p.2)

/-- A number from big-endian bytes. -/
def beNat (l : List Nat) : Nat := l.foldl (fun n b => 256 * n + b) 0

/-- The low `n` bytes of a number, most significant first. -/
def beBytes (n x : Nat) : List Nat := (List.range n).reverse.map fun i => x / 256 ^ i % 256

/-- A list cut into `k`-element pieces, at most `n` of them. -/
def pieces (k : Nat) : Nat → List Nat → List (List Nat)
  | 0, _ => []
  | n + 1, l => if l = [] then [] else l.take k :: pieces k n (l.drop k)

/-- The padded message of FIPS 180-4. -/
def shaPad (m : List Nat) : List Nat :=
  let n := m.length
  m ++ [0x80] ++ List.replicate ((256 - (n + 17) % 128 - 128) % 128) 0 ++ beBytes 16 (8 * n)

/-- SHA-384: 48 bytes. -/
def sha384 (m : List Nat) : List Nat :=
  let p := shaPad m
  (((pieces 128 (p.length / 128) p).foldl (fun h b => shaBlock h ((pieces 8 16 b).map beNat)) shaInit).flatMap (beBytes 8)).take 48

/-- HMAC-SHA-384 with a key of at most 128 bytes. -/
def hmac384 (key m : List Nat) : List Nat :=
  let k := key ++ List.replicate (128 - key.length) 0
  sha384 ((k.map fun b => b ^^^ 0x5C) ++ sha384 ((k.map fun b => b ^^^ 0x36) ++ m))

/-- The KDF of R272: counter mode, 32-bit counter and length, big-endian, `iters` iterations. -/
def kdf384 (key label context : List Nat) (bits iters : Nat) : List Nat :=
  (List.range iters).flatMap fun i => hmac384 key (beBytes 4 (i + 1) ++ label ++ [0] ++ context ++ beBytes 4 bits)

end Sys2Proof.Machine
end

