-- ==== Sys2Proof/Machine/Aes.lean ====
section
/-! DEFINITION. AES-256 (FIPS 197) and XTS (IEEE Std 1619) on 4 KiB data units (R265-R270). A 32-bit column holds its row-0
byte most significant; the round tables are computed from the field. -/

namespace Sys2Proof.Machine

/-- Multiplication by 2 modulo 0x11B. -/
def aesDouble (x : Nat) : Nat := if x < 128 then 2 * x else (2 * x) ^^^ 0x11B

/-- Multiplication modulo 0x11B over `n` bits of the second factor. -/
def aesMulBits : Nat → Nat → Nat → Nat
  | 0, _, _ => 0
  | n + 1, a, b => (if b % 2 = 1 then a else 0) ^^^ aesMulBits n (aesDouble a) (b / 2)

/-- Multiplication modulo 0x11B. -/
def aesMul (a b : Nat) : Nat := aesMulBits 8 a b

/-- The inverse modulo 0x11B: the 254th power. -/
def aesInv (x : Nat) : Nat :=
  let x2 := aesMul x x
  let x4 := aesMul x2 x2
  let x8 := aesMul x4 x4
  let x16 := aesMul x8 x8
  let x32 := aesMul x16 x16
  let x64 := aesMul x32 x32
  let x128 := aesMul x64 x64
  aesMul x2 (aesMul x4 (aesMul x8 (aesMul x16 (aesMul x32 (aesMul x64 x128)))))

/-- A byte rotated left. -/
def rotl8 (n x : Nat) : Nat := (x * 2 ^ n + x / 2 ^ (8 - n)) % 256

/-- The S-box of one byte. -/
def subByte (x : Nat) : Nat :=
  let i := aesInv x
  i ^^^ rotl8 1 i ^^^ rotl8 2 i ^^^ rotl8 3 i ^^^ rotl8 4 i ^^^ 0x63

/-- The S-box and its inverse. -/
def sboxTable : Array Nat := ((List.range 256).map subByte).toArray
def sboxInvTable : Array Nat :=
  (List.range 256).foldl (fun t x => t.setIfInBounds (subByte x) x) (Array.replicate 256 0)

/-- A column word from its four bytes. -/
def colOf (a b c d : Nat) : Nat := ((a * 256 + b) * 256 + c) * 256 + d

/-- Byte `i` of a column, row 0 first. -/
def rowByte (w i : Nat) : Nat := w / 2 ^ (24 - 8 * i) % 256

/-- A column rotated right by `n` bytes. -/
def rotCol (n w : Nat) : Nat := w / 2 ^ (8 * n) + w % 2 ^ (8 * n) * 2 ^ (32 - 8 * n)

/-- The column that a substituted byte in row 0 contributes through MixColumns. -/
def mixTable : Array Nat := ((List.range 256).map fun x =>
  let s := subByte x
  colOf (aesMul 2 s) s s (aesMul 3 s)).toArray

/-- The column that a byte in row 0 contributes through InvMixColumns. -/
def unmixColumn (s : Nat) : Nat := colOf (aesMul 14 s) (aesMul 9 s) (aesMul 13 s) (aesMul 11 s)
def unmixTable : Array Nat := ((List.range 256).map unmixColumn).toArray

/-- A table entry. -/
def tableAt (t : Array Nat) (x : Nat) : Nat := t.getD x 0

/-- The S-box on each byte of a column. -/
def subCol (t : Array Nat) (w : Nat) : Nat :=
  colOf (tableAt t (rowByte w 0)) (tableAt t (rowByte w 1)) (tableAt t (rowByte w 2)) (tableAt t (rowByte w 3))

/-- A column through a mixing table. -/
def mixCol (t : Array Nat) (w : Nat) : Nat :=
  tableAt t (rowByte w 0) ^^^ rotCol 1 (tableAt t (rowByte w 1)) ^^^ rotCol 2 (tableAt t (rowByte w 2)) ^^^
    rotCol 3 (tableAt t (rowByte w 3))

/-- Round keys of AES-256, newest first: `n` further words after the key's eight. -/
def expandKey : Nat → Nat → Nat → List Nat → List Nat
  | 0, _, _, w => w
  | n + 1, i, rcon, w =>
    let t := w.getD 0 0
    let t' := if i % 8 = 0 then subCol sboxTable (rotCol 3 t) ^^^ rcon * 2 ^ 24 else if i % 8 = 4 then subCol sboxTable t else t
    expandKey n (i + 1) (if i % 8 = 0 then aesDouble rcon else rcon) ((w.getD 7 0 ^^^ t') :: w)

/-- The 15 round keys, four columns each. -/
def roundKeys (key : List Nat) : List (List Nat) := pieces 4 15 (expandKey 52 8 1 (key.reverse)).reverse

/-- The state's columns. -/
structure Cols where
  a : Nat
  b : Nat
  c : Nat
  d : Nat
  deriving DecidableEq, Repr

/-- A round key added. -/
def addKey (s : Cols) (k : List Nat) : Cols :=
  match k with
  | [a, b, c, d] => ⟨s.a ^^^ a, s.b ^^^ b, s.c ^^^ c, s.d ^^^ d⟩
  | _ => s

/-- ShiftRows. -/
def shiftRows (s : Cols) : Cols :=
  let pick := fun w x y z => colOf (rowByte w 0) (rowByte x 1) (rowByte y 2) (rowByte z 3)
  ⟨pick s.a s.b s.c s.d, pick s.b s.c s.d s.a, pick s.c s.d s.a s.b, pick s.d s.a s.b s.c⟩

/-- InvShiftRows. -/
def unshiftRows (s : Cols) : Cols :=
  let pick := fun w x y z => colOf (rowByte w 0) (rowByte x 1) (rowByte y 2) (rowByte z 3)
  ⟨pick s.a s.d s.c s.b, pick s.b s.a s.d s.c, pick s.c s.b s.a s.d, pick s.d s.c s.b s.a⟩

/-- `f` on each column. -/
def Cols.map (f : Nat → Nat) (s : Cols) : Cols := ⟨f s.a, f s.b, f s.c, f s.d⟩

/-- The middle and last rounds of encryption. -/
def encRounds : List (List Nat) → Cols → Cols
  | [], s => s
  | [k], s => addKey ((shiftRows s).map (subCol sboxTable)) k
  | k :: ks, s => encRounds ks (addKey ((shiftRows s).map (mixCol mixTable)) k)

/-- The rounds of decryption, on round keys last first. -/
def decRounds : List (List Nat) → Cols → Cols
  | [], s => s
  | [k], s => addKey ((unshiftRows s).map (subCol sboxInvTable)) k
  | k :: ks, s => decRounds ks ((addKey ((unshiftRows s).map (subCol sboxInvTable)) k).map (mixCol unmixTable))

/-- One AES-256 block encrypted under its round keys. -/
def aesEncrypt (keys : List (List Nat)) (s : Cols) : Cols :=
  match keys with
  | [] => s
  | k :: ks => encRounds ks (addKey s k)

/-- One AES-256 block decrypted under its round keys. -/
def aesDecrypt (keys : List (List Nat)) (s : Cols) : Cols :=
  match keys.reverse with
  | [] => s
  | k :: ks => decRounds ks (addKey s k)

/-- The four bytes of a little-endian word as a column. -/
def byteSwap (w : Nat) : Nat := colOf (w % 256) (w / 256 % 256) (w / 65536 % 256) (w / 16777216 % 256)

/-- 16 bytes, held as a little-endian number, as columns and back. -/
def colsOf (x : Nat) : Cols :=
  ⟨byteSwap (x % 2 ^ 32), byteSwap (x / 2 ^ 32 % 2 ^ 32), byteSwap (x / 2 ^ 64 % 2 ^ 32), byteSwap (x / 2 ^ 96 % 2 ^ 32)⟩
def ofCols (s : Cols) : Nat := byteSwap s.a + 2 ^ 32 * byteSwap s.b + 2 ^ 64 * byteSwap s.c + 2 ^ 96 * byteSwap s.d

/-- The next tweak of XTS: multiplication by x modulo x^128 + x^7 + x^2 + x + 1. -/
def xtsNext (t : Nat) : Nat := if t < 2 ^ 127 then 2 * t else (2 * t - 2 ^ 128) ^^^ 0x87

/-- The AES blocks of a data unit, least significant first, under XTS with running tweak `t`. -/
def xtsBlocks (f : Cols → Cols) : Nat → Nat → Nat → List Nat
  | 0, _, _ => []
  | n + 1, t, x => (ofCols (f (colsOf (x % 2 ^ 128 ^^^ t))) ^^^ t) :: xtsBlocks f n (xtsNext t) (x / 2 ^ 128)

/-- A number from little-endian 128-bit digits. -/
def ofBlocks (l : List Nat) : Nat := l.foldr (fun d n => d + 2 ^ 128 * n) 0

/-- A key's 32 bytes as eight columns: `k` is little-endian. -/
def keyCols (k : Nat) : List Nat := (List.range 8).map fun i => byteSwap (k / 2 ^ (32 * i) % 2 ^ 32)

/-- A data unit of `n` AES blocks enciphered or deciphered under the 512-bit key (R270): K1 is bytes 0-31, K2 bytes 32-63,
`seq` the data unit sequence number. -/
def xtsUnit (encrypt : Bool) (key : BitVec 512) (seq n x : Nat) : Nat :=
  let k1 := roundKeys (keyCols (key.toNat % 2 ^ 256))
  let k2 := roundKeys (keyCols (key.toNat / 2 ^ 256))
  let t := ofCols (aesEncrypt k2 (colsOf seq))
  ofBlocks (xtsBlocks (if encrypt then aesEncrypt k1 else aesDecrypt k1) n t x)

/-- An LBA under a namespace key: the user unit of 256 AES blocks with MD = 0, and the HOST_MD unit of one AES block with MD = 1
(R270, *Tweak*). -/
def xtsFrame (encrypt : Bool) (key : BitVec 512) (lba : Nat) (b : Block) : Block :=
  let seq := lba % 2 ^ 64
  BitVec.ofNat 32896 (xtsUnit encrypt key seq 256 (b.toNat % 2 ^ 32768) +
    2 ^ 32768 * xtsUnit encrypt key (2 ^ 127 + seq) 1 (b.toNat / 2 ^ 32768))

end Sys2Proof.Machine
end

