-- ==== Sys2Proof/Config.lean ====
section
/-! DEFINITION. What the spec leaves to the part or states no value for: free values, on which nothing can be proved.
Each is applied to the model's own draw counter `work.draws` (or to the operands it depends on), so that it is a fresh value
each time (log entry 2). -/

namespace Sys2Proof.Config

/-- A value the spec does not state, one for each draw (log entry 2). -/
opaque freeValue : Nat → Nat

/-- The 4,096 bytes that an access returns where the spec states no contents, one for each draw (log entry 2). -/
opaque freeBlock : Nat → Block

/-- The raw DEFLATE stream that a compression engine makes of a granule: RFC 1951 leaves the choice of blocks and references to the
engine, and R245 states only that equal granules give equal streams (log entry 2). -/
opaque deflate : Block → Nat

/-- The map index of a zone or reclaim unit (R183, R192, R206): no rule says how it is assigned (log entry 2). -/
opaque mapIndex : Nat → Nat

/-- Spare rows that the self-test leaves a macro above the least of any macro (R462): the spec states the least only (log entry 2). -/
opaque spareRows : Nat → Nat

/-- The measurements, keys and signatures of the ledger entry that a boot or append of this SEQ makes, by the first byte of the field
(R489): the spec states what each covers, not the bytes (log entry 2). -/
opaque ledgerField : Nat → Nat → Nat

/-- Bytes of the body of an exported tenant state, and the body itself, by slot and EXPORT_SEQ (R386): opaque to the host (log entry 2). -/
opaque stateLength : Nat → Nat → Nat
opaque stateBody : Nat → Nat → Nat

/-- The byte of an ONFI command cycle, by its use, and the row address of a plane's block and page: the ONFI interface and the die
fix them, the spec states none (log entry 171). -/
opaque onfiByte : Nat → Nat
opaque onfiRow : Nat → Nat → Nat → Nat

/-- The LDPC parity of a frame, 480 bytes over its 4,128 bytes of data: R160 states the code rate, not the code (log entry 2). -/
opaque ldpcParity : Nat → Nat

/-- The fixed pad pattern of R80 and R156, and the bytes of the checkpoint journal: the spec states neither (log entry 2). -/
opaque padPattern : Block
opaque journalBytes : Nat → Nat

/-- What a read returns of an LBA that Finish Zone left below the write pointer with no data, by NSID and LBA: the spec states no contents
(R74, R80; log entry 2). -/
opaque padRead : Nat → Nat → Block

/-- The host of a controller has enabled Zone Descriptor Changed notices (R67): no command of the table carries the feature (log entry 180). -/
opaque zoneNotice : Nat → Bool

/-- The bytes of all copies of a die's parameter page: the die's own (log entry 171). -/
opaque paramPageBytes : Nat

end Sys2Proof.Config
end

