-- ==== Sys2Proof/Machine/State.lean ====
section
/-! DEFINITION. The state of the TZ5120, as plain data. Each field's note gives its width or kind, the rule that names it,
and its reset value: `spec <value>` where a register table or a rule states one, `DC <value>` where log entry 1 chooses it. -/

namespace Sys2Proof.Machine

/-- The modes of R422, and Off, the state after Homestretch (R423). -/
inductive Mode where
  | warmup
  | stride
  | sprint
  | lull
  | calm
  | homestretch
  | off
  deriving DecidableEq, Repr

/-- The lane states of R110. -/
inductive LaneSt where
  | parked
  | detect
  | lock
  | exchange
  | equalise
  | confirm
  | active
  | recovery
  | down
  | failed
  | held
  deriving DecidableEq, Repr

/-- The die states of R146. -/
inductive DieSt where
  | absent
  | idle
  | read
  | prog
  | erase
  | progSusp
  | eraseSusp
  | stalled
  | lost
  | landing
  | features
  deriving DecidableEq, Repr

/-- The zone states of R65. -/
inductive ZoneSt where
  | empty
  | implicitOpen
  | explicitOpen
  | closed
  | readOnly
  | full
  | offline
  deriving DecidableEq, Repr

/-- The tenant states of TNT_STATE.STATE. -/
inductive TenantSt where
  | free
  | active
  | resetting
  | quiesced
  deriving DecidableEq, Repr

/-- The DRAM channel states of DMC_STAT.STATE. -/
inductive ChanSt where
  | off
  | training
  | active
  | selfRefresh
  | frozen
  | retraining
  | resync
  | retired
  deriving DecidableEq, Repr

/-- The boot store bank states of BST_BANK.STATE. -/
inductive BankSt where
  | empty
  | staging
  | valid
  | invalid
  deriving DecidableEq, Repr

/-- The recorder modes of EVR_STAT.MODE. -/
inductive RecMode where
  | recording
  | full
  | lastGasp
  deriving DecidableEq, Repr

/-- The service classes (R207); `none` is an admin command or device work. -/
inductive Cls where
  | dash
  | tempo
  | distance
  | none
  deriving DecidableEq, Repr

/-- A field of returned data: `len` bytes from byte `off`, little-endian value `val`; bytes no field names are 0. -/
structure FieldVal where
  off : Nat
  len : Nat
  val : Nat
  deriving DecidableEq, Repr

/-- A completion posted to a host or to the management controller (R211, R317). -/
structure Completion where
  ctrl : Nat
  sqid : Nat
  cid : Nat
  mc : Bool := false
  sct : Nat := 0
  sc : Nat := 0
  dnr : Bool := false
  crd : Nat := 0
  dw0 : Nat := 0
  dw1 : Nat := 0
  data : List FieldVal := []
  deriving DecidableEq, Repr

/-- An asynchronous event sent to a tenant (R58, R67, R283, R455, R517, R540). -/
inductive Notice where
  | invalidDoorbell (ctrl : Nat)
  | persistentInternalError
  | zoneDescriptorChanged (nsid : Nat)
  | namespaceAttribute (nsid : Nat)
  | temperatureThreshold
  | securityAlarm
  | mediaReallocated (nsid : Nat)
  deriving DecidableEq, Repr

/-- The ONFI command cycles of a sequence (R127): a byte that a register gives, or a command of the ONFI interface by its use. -/
inductive OnfiCmd where
  | byte (b : Nat)
  | read
  | readNext
  | readEnd
  | column
  | columnEnd
  | program
  | programNext
  | programEnd
  | erase
  | eraseNext
  | eraseEnd
  | setFeatures
  | paramPage
  deriving DecidableEq, Repr

/-- The address cycles of a sequence (R127): none, a page of a plane's block from a column, a plane's block, a column of a plane's page
register, a feature address. -/
inductive OnfiAddr where
  | none
  | page (column plane block page : Nat)
  | block (plane block : Nat)
  | column (plane column : Nat)
  | feature (addr : Nat)
  deriving DecidableEq, Repr

/-- An ONFI_SEQ message (*Downstream messages*): PHASE 0 none, 1 data-in, 2 data-out. -/
structure OnfiSeq where
  die : Nat
  tag : Nat
  chain : Bool := false
  cmd1 : Option OnfiCmd := none
  addr : OnfiAddr := .none
  cmd2 : Option OnfiCmd := none
  phase : Nat := 0
  wait : Bool := false
  len : Nat := 0
  timer : Nat := 0
  deriving DecidableEq, Repr

/-- A message to a lane bridge (*Downstream messages*); `target` is the tag of the operation that SUSPEND, RESUME and ABORT name. -/
inductive Msg where
  | onfi (q : OnfiSeq)
  | suspend (die target : Nat) (erase : Bool)
  | resume (die target : Nat) (erase : Bool)
  | abort (die target : Nat)
  | cfgRead (tag addr count : Nat)
  | cfgWrite (tag addr value : Nat)
  | dieReset (die tag : Nat) (lun : Bool)
  | sync (tag : Nat)
  | park (tag : Nat)
  deriving DecidableEq, Repr

/-- What a flit carries (R120): nothing (NULL), message slots from slot 0 on, or 64 bytes for a die. -/
inductive Load where
  | null
  | msgs (ms : List Msg)
  | data (die : Nat) (bytes : BitVec 512)
  deriving DecidableEq, Repr

/-- A flit as it leaves the lane port, before its CRC and scrambling (*Flit header*). -/
structure TxFlit where
  load : Load
  seq : Nat := 0
  ack : Option Nat := none
  nak : Bool := false
  crdClass : Nat := 3
  crdCount : Nat := 0
  deriving DecidableEq, Repr

/-- What a lane port sends: a flit of 9 data blocks, or a control block (R107, R108). -/
inductive Down where
  | flit (f : TxFlit)
  | control (block : BitVec 64)
  deriving DecidableEq, Repr

/-- Where the bytes of a data-in phase come from (R128): the four pages of a word line on every plane, a landing unit, the parameters of
Set Features writes, or a part of the checkpoint. -/
inductive DataIn where
  | pass (zk pos line : Nat)
  | landing (zk row pos : Nat) (behind : Bool)
  | features (ws : List (BitVec 32))
  | journal
  deriving DecidableEq, Repr

/-- A packet or frame the fabric ports send (R326). -/
inductive Packet where
  | ack (conn psn : Nat)
  | nakSeq (conn psn : Nat)
  | nakInvalid (conn : Nat)
  | nakAccess (conn : Nat)
  | nakOperational (conn : Nat)
  | rnrNak (conn code : Nat)
  | sack (conn psn : Nat) (bitmap : List Nat)
  | resend (conn psn : Nat)
  | cnp (conn : Nat)
  | readResponse (conn len : Nat) (data : List FieldVal)
  | cmReply (conn : Nat) (sr rnrRead : Bool)
  | cmReject (port : Nat)
  | answer (port : Nat)
  deriving DecidableEq, Repr

/-- A response to the management controller (R319, R564). -/
inductive MiReply where
  | nak
  | refused
  | ok (data : List Word)
  | invalidParameter
  | invalidOpcode
  deriving DecidableEq, Repr

/-- Everything the block has sent out, oldest first. -/
structure Outputs where
  /-- NVMe completions | 06 R211 | DC empty -/
  completions : List Completion := []
  /-- asynchronous events, (tenant, notice) | 09 R306 | DC empty -/
  notices : List (Nat × Notice) := []
  /-- messages to bridges, (lane, message) | 03 R125 | DC empty -/
  down : List (Nat × Down) := []
  /-- packets sent on the fabric | 10 R326 | DC empty -/
  packets : List Packet := []
  /-- NVMe-MI and register-command responses | 19 R564 | DC empty -/
  mi : List MiReply := []
  /-- data of manager BAR2 reads | 19 R563 | DC empty -/
  reads : List (List Word) := []
  /-- configuration requests answered: none = Request Retry Status | 09 R297 | DC empty -/
  config : List (Option Word) := []
  deriving DecidableEq, Repr

/-- An event as a unit raises it (R533). -/
structure EvRec where
  code : BitVec 16
  source : BitVec 16
  p1 : Word
  p2 : Word
  p3 : Word
  p4 : Word
  deriving DecidableEq, Repr

/-- An event record with the SEQ and TIME the recorder gave it (R533). -/
structure Record where
  seq : Nat
  time : Nat
  ev : EvRec
  deriving DecidableEq, Repr

/-- The event recorder's chip-domain state. -/
structure Recorder where
  /-- arrival queue, 256 entries of which 32 for faults, with the beat of arrival | 17 R535 | DC empty -/
  queue : List (Nat × EvRec) := []
  /-- fault records held at their source | 17 R535 | DC empty -/
  atSource : List EvRec := []
  /-- records held in the recorder memory, oldest first | 17 R536 | DC empty -/
  held : List Record := []
  /-- EVR_STAT.MODE, 2 bits | 17 R541 | spec 0x0 -/
  mode : RecMode := .recording
  /-- records dropped since recording stopped | 17 R537 | DC 0 -/
  droppedWhileFull : Nat := 0
  deriving DecidableEq, Repr

/-- One housekeeping sensor's THM_READ (R507). -/
structure Sensor where
  /-- THM_READ.VALID | 16 R507 | spec 0 -/
  valid : Bool := false
  /-- THM_READ.BROKEN | 16 R507 | spec 0 -/
  broken : Bool := false
  /-- THM_READ.CAUSE, 2 bits | 16 R507 | spec 0x0 -/
  cause : SensorFault := .none
  /-- THM_READ.TEMP, signed 1/16 °C | 16 R507 | spec 0 -/
  temp : Int := 0
  /-- consecutive valid readings while broken | 16 R507 | DC 0 -/
  goodRun : Nat := 0
  /-- timestamp at which it broke, ns | 16 R520 | DC 0 -/
  brokenAt : Nat := 0
  deriving DecidableEq, Repr

/-- One supply monitor's CHIP_SUPPLY_MON (R558). -/
structure Supply where
  /-- VALID | 18 R558 | spec 0 -/
  valid : Bool := false
  /-- LOW | 18 R558 | spec 0 -/
  low : Bool := false
  /-- HIGH | 18 R558 | spec 0 -/
  high : Bool := false
  /-- MV, 16 bits | 18 R558 | spec 0 -/
  mv : Nat := 0
  deriving DecidableEq, Repr

/-- The AON domain: what survives chip domain reset (R569), the AON pins, and the wake collector. -/
structure Aon where
  /-- AON reset released | 18 R551 | DC false (VAUX not yet held) -/
  on : Bool := false
  /-- event timestamp, ns, 64 bits | 00 R19 | spec 0 -/
  timeNs : Nat := 0
  /-- EVR_HEAD, 32 bits | 17 R541 | spec 0x0000_0001 -/
  evrHead : Nat := 1
  /-- EVR_DROPPED, 32 bits saturating | 17 R541 | spec 0 -/
  evrDropped : Nat := 0
  /-- EVR_LG, up to 8 records | 17 R536 | spec empty -/
  lastGasp : List Record := []
  /-- THM_STAT.TRIP | 16 R516 | spec 0 -/
  trip : Bool := false
  /-- THM_TRIP.SOURCE, 8 bits | 16 R516 | spec 0x00 -/
  tripSource : Nat := 0
  /-- THM_STAT.BAND, 0-4 | 16 R510 | spec 0x4 -/
  band : Nat := 4
  /-- THM_STAT.BAND_TEMP, signed 1/16 °C, none = above every boundary | 16 R509 | spec 0 -/
  bandTemp : Option Int := some 0
  /-- THM_HEAD, signed m°C | 16 R513 | spec 0 -/
  headroom : Int := 0
  /-- THM_READ[0-55] | 16 R507 | spec 0 -/
  sensors : Tbl Sensor := []
  /-- CHIP_SUPPLY_MON[0-15] | 18 R558 | spec 0 -/
  supplies : Tbl Supply := []
  /-- HK_STAT.ROUNDS, 16 bits saturating | 16 R520 | spec 0 -/
  hkRounds : Nat := 0
  /-- HK_STAT.DISCARDED, 8 bits saturating | 16 R508 | spec 0 -/
  hkDiscarded : Nat := 0
  /-- HK_STAT.CHANNEL, 0-127 | 16 R505 | spec 0 -/
  hkChannel : Nat := 0
  /-- channel 127 of the round has been converted | 16 R505 | DC false -/
  hkComplete : Bool := false
  /-- a self-check reference of this round was out of tolerance: (channel, code) | 16 R508 | DC none -/
  hkBadRef : Option (Nat × Nat) := none
  /-- consecutive discarded rounds | 16 R508 | DC 0 -/
  hkDiscardRun : Nat := 0
  /-- the next round resolves the band without a previous one | 16 R511 | spec true -/
  hkFirstRound : Bool := true
  /-- PWR_HU_STAT.PFD_GOOD | 12 R418 | spec 0 -/
  pfdGood : Bool := false
  /-- CHIP_SUPPLY_STAT.PG, bits CORE LANE HOST MEM | 18 R552 | spec 0x0 -/
  pg : BitVec 4 := 0
  /-- CHIP_SUPPLY_STAT.PG_DROPS, 8 bits saturating | 18 R552 | spec 0 -/
  pgDrops : Nat := 0
  /-- PWR_DOMAIN_ON, 41 bits | 13 R428 | spec 0x3F -/
  domainOn : BitVec 64 := 0x3F
  /-- PWR_PAD_LATCHED, 41 bits | 13 R429 | spec 0 -/
  padLatched : BitVec 64 := 0
  /-- PWR_ISO_N low | 12 R409 | spec 1 -/
  isoLow : Bool := true
  /-- PWR_BFI_N low | 12 R411 | spec 0 -/
  bfiLow : Bool := false
  /-- PWR_HOLD high: bleed off | 12 R412 | spec 0 -/
  holdHigh : Bool := false
  /-- THERMTRIP_N low | 16 R517 | spec false -/
  thermtripLow : Bool := false
  /-- wake events latched: bit of *Wake sources* and source identifier | 13 R430 | DC empty -/
  wakePending : List (Nat × Nat) := []
  /-- maintenance timer, ns, none = not set | 13 R431 | DC none -/
  maintTimer : Option Nat := none
  /-- GPIO[0-15] input levels, 16 bits | 18 R557 | DC 0 -/
  gpioIn : BitVec 16 := 0
  /-- Homestretch energy figures kept in the AON domain: USED, PRED (mJ), dirty KiB flushed, cut off | 12 R417 | DC none -/
  hsFigures : Option (Nat × Nat × Nat × Bool) := none
  /-- VAUX power-on count | 15 R489 | DC 0 -/
  vauxOn : Nat := 0
  deriving DecidableEq, Repr

/-- A pending RWLIVE write (R567): the masked value waits for a quiet point; `bound` = it changes an input of the bound sets
and waits for their recomputation (R222). -/
structure LiveWrite where
  offset : Nat
  mask : Word
  value : Word
  bound : Bool
  deriving DecidableEq, Repr

/-- The management window's writable words and access counts. -/
structure Regs where
  /-- RW, RWL and RWLIVE words in force, by window offset; unlisted = the register's reset word | 19 R569 | spec per table -/
  cfg : Tbl (Option Word) := []
  /-- pending RWLIVE writes, oldest first | 19 R567 | spec empty -/
  live : List LiveWrite := []
  /-- CHIP_ACCESS_STAT.UNIMPL, 16 bits | 19 R565 | spec 0 -/
  unimpl : Nat := 0
  /-- CHIP_ACCESS_STAT.DENIED, 16 bits | 19 R565 | spec 0 -/
  denied : Nat := 0
  /-- CHIP_ACCESS_LAST.PARTY, 4 bits | 19 R565 | spec 0 -/
  lastParty : Nat := 0
  /-- CHIP_ACCESS_LAST.OFFSET, 28 bits | 19 R565 | spec 0 -/
  lastOffset : Nat := 0
  deriving DecidableEq, Repr

/-- The reasons a lane is out of service for training (R111, R114, R139, R499). -/
inductive Outage where
  | full
  | recal
  | wake
  | roll
  deriving DecidableEq, Repr

/-- What waits to be sent on a lane: a MSG flit with its message slots, or the data flits from `next` to `count` of a data-in phase for
a die (R120, R124, R128). -/
inductive LaneTx where
  | msgs (ms : List Msg)
  | wdata (die : Nat) (src : DataIn) (next count : Nat)
  deriving DecidableEq, Repr

/-- A flit in the retry buffer, with the times it has been replayed (R124). -/
structure Unacked where
  seq : Nat
  load : Load
  replays : Nat := 0
  deriving DecidableEq, Repr

/-- A request of the tags 0xF0 to 0xFE (R125, R126). -/
inductive Ctl where
  | sync
  | park
  | read (addr count : Nat)
  | write (addr value : Nat)
  deriving DecidableEq, Repr

/-- The TZ5120's end of one Bypor lane, and the bridge's registers as written or read over it. -/
structure Lane where
  /-- LANE_STAT.STATE | 03 R110 | spec PARKED -/
  st : LaneSt := .parked
  /-- LANE_STAT.NEAR_PRESET, 3 bits | 03 R112 | spec 0 -/
  near : Nat := 0
  /-- LANE_STAT.FAR_PRESET, 3 bits | 03 R112 | spec 0 -/
  far : Nat := 0
  /-- LANE_STAT.MARGIN, 8 bits | 03 R112 | spec 0 -/
  margin : Nat := 0
  /-- LANE_STAT.DIES, 8 bits | 03 R137 | spec 0 -/
  dies : BitVec 8 := 0
  /-- LANE_STAT.SPARE | 03 R141 | spec 0 -/
  spare : Bool := false
  /-- no cell serves the lane | 01 R34 | DC false -/
  unserved : Bool := false
  /-- LANE_ERRCNT.CRC_ERR, 16 bits | 03 R141 | spec 0 -/
  crcErr : Nat := 0
  /-- LANE_ERRCNT.EXHAUST, 8 bits | 03 R141 | spec 0 -/
  exhaust : Nat := 0
  /-- LANE_ERRCNT.DOWNS, 8 bits | 03 R141 | spec 0 -/
  downs : Nat := 0
  /-- next SEQ to send, 8 bits | 03 R118 | spec 0 (R134) -/
  txSeq : Nat := 0
  /-- next SEQ expected, 8 bits | 03 R124 | spec 0 (R134) -/
  rxSeq : Nat := 0
  /-- a flit has been accepted since SEQ started: ACK_SEQ is valid | 03 R118 | spec false (R134) -/
  rxSome : Bool := false
  /-- retry buffer: unacknowledged flits, oldest first, at most 128 | 03 R124 | spec empty -/
  retry : List Unacked := []
  /-- messages and data flits that wait for credits or for room in the retry buffer | 03 R121, R124 | DC empty -/
  outbox : List LaneTx := []
  /-- lane-downstream calendar: busy until, ps | 06 R212 | DC 0 -/
  downBusy : Nat := 0
  /-- flits sent since the last ALIGN block | 03 R108 | DC 0 -/
  run : Nat := 0
  /-- the last 64 sync headers received, newest lowest: 1 = invalid | 03 R107 | DC 0 -/
  badSync : BitVec 64 := 0
  /-- a NAK was sent and its flit has not come | 03 R124 | DC false -/
  nakSent : Bool := false
  /-- end of the last RECOVERY, ns | 03 R124 | DC none -/
  recoveredAt : Option Nat := none
  /-- credits held: MSG slots | 03 R121 | spec 0 (R122) -/
  crdMsg : Nat := 0
  /-- credits held: WDATA flits | 03 R121 | spec 0 (R122) -/
  crdWdata : Nat := 0
  /-- bridge allotments MSG, WDATA, retry flits | 03 R122 | spec minimum 16, 144, 64 -/
  allotMsg : Nat := 16
  allotWdata : Nat := 144
  allotRetry : Nat := 64
  /-- full training attempts made, and those that may still follow | 03 R111 | DC 0, 0 -/
  attempts : Nat := 0
  attemptsLeft : Nat := 0
  /-- minor version in force | 03 R109 | DC 0 -/
  minor : Nat := 0
  /-- band latched at the start of step 5 | 03 R113 | DC none -/
  trainBand : Option Nat := none
  /-- band whose presets the next recalibration applies | 03 R114 | DC none -/
  eqBand : Option Nat := none
  /-- TX in electrical idle; PHY powered | 03 R111, R138, R140 | spec true, false (PARKED) -/
  txIdle : Bool := true
  phyOn : Bool := false
  /-- TSR sent on a handoff, the bridge's not yet come | 03 R135 | DC false -/
  resuming : Bool := false
  /-- parked to save power and asked to wake | 03 R139 | DC false -/
  wakeWait : Bool := false
  /-- recalibration requested and waiting | 03 R115 | DC false -/
  recalWait : Bool := false
  /-- full training requested and waiting for its baton | 03 R115 | DC false -/
  trainWait : Bool := false
  /-- the outage running | 03 R115 | DC none -/
  outage : Option Outage := none
  /-- timestamp of the last state entry, ns | 03 R141 | DC 0 -/
  since : Nat := 0
  /-- trained but kept out of service: DIE_PRESENT disagrees | 03 R137 | DC false -/
  mismatch : Bool := false
  /-- bridge set-up of R137 done | 03 R137 | DC false -/
  setUp : Bool := false
  /-- control tags in use, with their requests | 03 R126 | DC empty -/
  ctl : Tbl (Option Ctl) := []
  /-- configuration requests that wait for a tag | 03 R126, R137 | DC empty -/
  ctlWait : List Ctl := []
  /-- LANE_BR_ID, LANE_BR_VER as read | 03 R136 | DC 0 -/
  brId : Word := 0
  brVer : Word := 0
  /-- LANE_BR_TXEQ, LANE_BR_POLL, LANE_BR_SUSP as written | 03 R136 | spec 0, 0x7806_4014, 0 -/
  brTxeq : Nat := 0
  brPoll : Word := 0x78064014
  brSusp : Word := 0
  /-- LANE_BR_TMR[0-3] as written, µs | 03 R136 | spec 3000 each -/
  brTmr : List Nat := [3000, 3000, 3000, 3000]
  /-- LANE_BR_CAPS and LANE_BR_CREDITS as read | 03 R136 | DC 0 -/
  brCaps : Word := 0
  brCredits : Word := 0
  /-- LANE_BR_ERRCNT and LANE_BR_TEMP as read | 03 R136 | DC 0 -/
  brErr : Word := 0
  brTemp : Word := 0
  /-- first and second ONFI ID dwords, and CE and LUN, of the dies | 03 R136 | DC empty -/
  onfi : Tbl Word := []
  onfi2 : Tbl Word := []
  ceLun : Tbl Word := []
  /-- SYNC sent, its DONE not yet come | 03 R134 | DC false -/
  syncing : Bool := false
  /-- dies that SYNC has reported, and the operations it has | 03 R134, R141 | DC empty, 0 -/
  synced : List Nat := []
  syncOps : Nat := 0
  /-- PARK sent, its DONE not yet come: the reason of event 0x0307 | 03 R138 | DC none -/
  parking : Option Nat := none
  /-- the reason of the last park | 03 R138 | DC 0 -/
  parkedFor : Nat := 0
  deriving DecidableEq, Repr

/-- Kinds of die queue entries and of operations in flight (R145, R158). -/
inductive OpKind where
  | read
  | coarse
  | fine
  | erase
  | features
  | slc
  | checkpoint
  | patrol
  | copyRead
  | gcRead
  | paramPage
  deriving DecidableEq, Repr

/-- Reads of a die array (patrol and copying reads among them), as against passes, erases and landing writes. -/
def OpKind.isRead : OpKind → Bool
  | .read | .patrol | .copyRead | .gcRead | .paramPage => true
  | .coarse | .fine | .erase | .features | .slc | .checkpoint => false

/-- An entry of a die queue (R145). `block` is the die block position; `page` the page index of a read or the word line of a
program pass; `zk`, `off` and `frames` the zone key, first zone offset and number of frames of a read; `pos` the member
position; `retry` the step of the read ladder (0 the first read, 1-15 the entry, 16 and 17 the soft reads); `rebuild` the
read-around that a source read belongs to; `tried` the last entry of step 2 that a soft step follows; `soft` the number of the soft step, whose
two reads are `retry` 16 and 17. -/
structure QEntry where
  id : Nat
  kind : OpKind
  cls : Cls
  ctx : Nat := 0
  zk : Nat := 0
  off : Nat := 0
  frames : Nat := 1
  pos : Nat := 0
  block : Nat := 0
  page : Nat := 0
  retry : Nat := 0
  tried : Nat := 0
  soft : Option Nat := none
  rebuild : Option Nat := none
  baton : Bool := false
  atNs : Nat := 0
  deriving DecidableEq, Repr

/-- An operation in flight on a lane, by its tag (R126): `merged` the other reads of its multi-plane chain (R148), `failed` a read
already reported failed, `abort` the event an ABORT was sent for. -/
structure Op where
  die : Nat
  entry : QEntry
  merged : List QEntry := []
  sentAt : Nat
  suspended : Bool := false
  timedOut : Bool := false
  busy : Nat := 0
  failed : Bool := false
  abort : Option Nat := none
  deriving DecidableEq, Repr

/-- The queue entries an operation serves. -/
def Op.entries (o : Op) : List QEntry := o.entry :: o.merged

/-- One booking on a die calendar: start and end in ps (R212). -/
structure Booking where
  start : Nat
  stop : Nat
  read : Bool
  entry : Nat
  deriving DecidableEq, Repr

/-- One die: its queue, its state and what the pacer and marshal keep of it. -/
structure Die where
  /-- LANE_DIE_STATE.STATE_d | 04 R146 | spec ABSENT -/
  st : DieSt := .absent
  /-- die queue, 48 entries, in admission order | 04 R145 | DC empty -/
  queue : List QEntry := []
  /-- tag of the program or erase held | 04 R146 | DC none -/
  heavy : Option Nat := none
  /-- tag of the read held | 04 R146 | DC none -/
  reading : Option Nat := none
  /-- suspensions used by the operation held | 04 R149 | DC 0 -/
  suspUsed : Nat := 0
  /-- reads served in the current suspension | 04 R147 | DC 0 -/
  readsServed : Nat := 0
  /-- SUSPEND sent and not answered: time sent, ns | 04 R153 | DC none -/
  suspendAt : Option Nat := none
  /-- the suspend is late | 04 R153 | DC false -/
  suspendLate : Bool := false
  /-- RESUME sent, RESUMED not yet reported | 04 R147 | DC false -/
  resuming : Bool := false
  /-- times of the last timeouts, ns | 04 R167 | DC empty -/
  timeouts : List Nat := []
  /-- band whose prefix is still to be applied | 04 R164 | DC none -/
  prefixBand : Option Nat := none
  /-- bad positions, marked or retired | 05 R197 | DC empty -/
  badPos : List Nat := []
  /-- factory marks read | 05 R198 | DC false -/
  scanned : Bool := false
  /-- position lost: never taken back | 05 R199 | DC false -/
  lost : Bool := false
  /-- die blocks waiting for erase | 05 R193 | DC empty -/
  eraseQueue : List Nat := []
  /-- next free die-block position never used | 05 R197 | DC 0 -/
  nextBlock : Nat := 0
  /-- erased die blocks to draw from before `nextBlock` | 05 R197 | DC empty -/
  erasedBlocks : List Nat := []
  /-- landing die block in use: false = A, true = B, next page | 05 R182 | DC A, 0 -/
  landB : Bool := false
  landPage : Nat := 0
  /-- landing die blocks programmed since their last erase, by B | 05 R182 | DC empty -/
  landDirty : List Bool := []
  /-- landing die blocks to retire at the next Warm-up: B, and the event code of their failure | 04 R167 | DC empty -/
  landBad : List (Bool × Nat) := []
  /-- landing die blocks that a retirement replaced: B, and the position in use | 04 R167 | DC empty -/
  landMoved : List (Bool × Nat) := []
  /-- die-block pages to patrol ahead of the pass: zone key, position, page | 05 R196 | DC empty -/
  early : List (Nat × Nat × Nat) := []
  /-- die calendar | 06 R212 | DC empty -/
  cal : List Booking := []
  /-- relocation of a member on this die: zone key, position, source block, target block, cause | 05 R193 | DC none -/
  reloc : Option (Nat × Nat × Nat × Nat × Nat) := none
  /-- relocations that wait for their start: zone key, position, cause | 05 R193 | DC empty -/
  relocWant : List (Nat × Nat × Nat) := []
  /-- relocation's copy: pages read into copy buffers, frames of the next page still to come, word lines whose coarse pass on the target
  is complete | 05 R193 | DC 0 -/
  copyPages : Nat := 0
  copyWait : Nat := 0
  copyCoarse : Nat := 0
  deriving DecidableEq, Repr

/-- LANE_DIE_CNT of one lane (R169). -/
structure DieCnt where
  /-- RETIRED, 16 bits | 04 R169 | spec 0 -/
  retired : Nat := 0
  /-- TIMEOUTS, 8 bits | 04 R169 | spec 0 -/
  timeouts : Nat := 0
  /-- STATUS_FAIL, 8 bits | 04 R169 | spec 0 -/
  statusFail : Nat := 0
  deriving DecidableEq, Repr

/-- One block's shared units. -/
structure Blk where
  /-- BLK_LANE_SWITCH.SPARE_LANE, 5 bits | 01 R34 | spec 0x1F -/
  spareLane : Nat := 0x1F
  /-- BLK_LANE_SWITCH.CELL_FAILED, 17 bits | 01 R34 | spec 0 -/
  cellFailed : BitVec 17 := 0
  /-- BLK_DEC_STAT.IN_SERVICE, 4 bits | 04 R162 | spec 0xF -/
  decIn : BitVec 4 := 0xF
  /-- local lane that the decoders' arbiter granted last | 01 R40 | DC 15 -/
  decLast : Nat := 15
  /-- marshal out of service | 17 R524 | DC false -/
  marshalOut : Bool := false
  /-- last marshal restart, ns | 17 R526 | DC none -/
  restartedAt : Option Nat := none
  /-- marshal failed at, ns; kept out until chip domain reset | 17 R526 | DC 0, false -/
  marshalAt : Nat := 0
  marshalKept : Bool := false
  /-- handoff running: lane, start ns | 17 R525 | DC none -/
  handoff : Option (Nat × Nat) := none
  /-- decode and cipher calendars: busy until, ps | 06 R212 | DC 0 -/
  decBusy : Nat := 0
  cipBusy : Nat := 0
  /-- suspended cipher jobs, (class, job) | 08 R267 | DC empty -/
  cipSusp : List (Cls × Nat) := []
  /-- cipher job running | 08 R266 | DC none -/
  cipRun : Option Nat := none
  /-- start of partner service of the engine, ns | 08 R291 | DC 0 -/
  cipPartnerAt : Nat := 0
  /-- staging rows withheld at self-test | 14 R463 | DC 0 -/
  withheld : Nat := 0
  deriving DecidableEq, Repr

/-- A frame decode at a block's decoders (R161): what it was read for is its queue entry; `decoder` the decoder granted to it
(BLK_DEC_STAT.SOFT shows the soft ones). -/
structure DecodeJob where
  block : Nat
  lane : Nat
  die : Nat
  entry : QEntry
  off : Nat
  soft : Bool := false
  decoder : Option Nat := none
  deriving DecidableEq, Repr

/-- A cipher job: the data units of one command on one block still to do, as (zone key, zone offset, LBA index of the
command) (R266). -/
structure CipherJob where
  block : Nat
  ctx : Nat
  cls : Cls
  encrypt : Bool
  units : List (Nat × Nat × Nat)
  deriving DecidableEq, Repr

/-- A read-around of one frame (R187): the positions whose source frames are still awaited, those found unavailable,
whether parity Q stands in, and the position rebuilt. -/
structure Rebuild where
  ctx : Nat
  cls : Cls
  zk : Nat
  off : Nat
  awaited : List Nat
  unavailable : List Nat
  usesQ : Bool
  pos : Nat := 0
  deriving DecidableEq, Repr

/-- A parity engine job (R178, R186, R180). -/
inductive ParityJob where
  | quarter (zk row part : Nat)
  | final (zk row : Nat)
  | rebuild (number : Nat) (cls : Cls)
  | topUp (zk row : Nat)
  deriving DecidableEq, Repr

/-- One region. -/
structure Rgn where
  /-- RGN_STAT.STEWARDS, 2 bits | 19 R562 | spec 0x3 -/
  stewards : BitVec 2 := 3
  /-- RGN_STAT.XBAR_OK | 19 R562 | spec 1 -/
  xbar : Bool := true
  /-- RGN_STAT.KDU_OK | 19 R562 | spec 1 -/
  kdu : Bool := true
  /-- last restart of steward 0, 1, ns | 17 R526 | DC none -/
  restart0 : Option Nat := none
  restart1 : Option Nat := none
  /-- steward 0, 1 failed at, ns; those kept out until chip domain reset, 2 bits | 17 R526 | DC 0, 0, 0 -/
  failed0 : Nat := 0
  failed1 : Nat := 0
  kept : BitVec 2 := 0
  /-- steward calendars, ps | 06 R212 | DC 0 -/
  busy0 : Nat := 0
  busy1 : Nat := 0
  /-- CMP_STAT.IN_SERVICE, 4 bits | 07 R261 | spec 0xF -/
  cmpIn : BitVec 4 := 0xF
  /-- CMP_STAT.PARTNER | 07 R261 | spec 0 -/
  cmpPartner : Bool := false
  /-- start of partner service, ns | 07 R264 | DC 0 -/
  cmpPartnerAt : Nat := 0
  /-- engine calendar, ps | 07 R262 | DC 0 -/
  cmpBusyUntil : Nat := 0
  /-- granules and slices compressed since reset, full counts behind CMP_GRAN, CMP_SLICE | 07 R264 | spec 0 -/
  granules : Nat := 0
  slices : Nat := 0
  /-- verify mismatches of engine i: times, ns | 07 R245 | DC empty -/
  mismatches : List (Nat × Nat) := []
  deriving DecidableEq, Repr

/-- A stripe set (R170-R173). -/
structure StripeSet where
  /-- members by position 0-17, lane × 8 + die, none = lost | 05 R172 | DC empty -/
  members : List (Option Nat) := []
  /-- dies that held each position last, by position | 05 R200 | DC empty -/
  was : List Nat := []
  /-- pool: 0 = shared, 1 + SET_ID = a dedicated lane set | 02 R95 | DC 0 -/
  pool : Nat := 0
  /-- rotations issued | 05 R173 | DC 0 -/
  rotations : Nat := 0
  /-- rebuild: position, spare, units left, start ns | 05 R201 | DC none -/
  rebuild : Option (Nat × Nat × Nat × Nat) := none
  deriving DecidableEq, Repr

/-- A reset or finish fence of a zone (R76, R80): whose command it is, none for an excursion (R86), whether of a Select All, the pending write pointer, the die
blocks and rotation taken by writes behind it, those writes in acceptance order, the reads held, and the deadline of the command. -/
structure Fence where
  finish : Bool
  hdr : Option Hdr
  all : Bool
  pendingWp : Nat
  newDblk : List Nat
  newRot : Nat
  behind : List Nat
  heldReads : List Nat
  due : Option Nat := none
  deriving DecidableEq, Repr

/-- A compressed granule: its 4,096 bytes, the length of its stream, and its slices, 4 when stored raw (R245). -/
structure Granule where
  plain : Block
  len : Nat
  slices : Nat
  deriving DecidableEq, Repr

/-- The open parcel of a packed zone (R248-R250): its granules, the commands that placed them with the first index and count of
each, the engine (region × 4 + engine) that holds it, and the time of the last placement. -/
structure Parcel where
  grans : List Granule
  ctxs : List (Nat × Nat × Nat)
  engine : Nat
  lastAt : Nat
  deriving DecidableEq, Repr

/-- A parcel closed in a zone, by the offset of its first LBA, its LBAs, its SEQ and its granules' slices (R241, R242). -/
structure ClosedParcel where
  first : Nat
  lbas : Nat
  seq : Nat
  sizes : List Nat
  deriving DecidableEq, Repr

/-- A member of a unit that is filled again from the other members, a stripe rebuild's on a spare or a replaced die block's after a
stall: its position, its die, the frames of its rows that stand in copy buffers or are staged, in ascending order, and
whether its spare is still no member of the set and has been filled (R168 step 4, R201). -/
structure Refill where
  pos : Nat
  die : Nat
  frames : Nat := 0
  spare : Bool := true
  filled : Bool := false
  deriving DecidableEq, Repr

/-- A zone, or a reclaim unit of a conventional namespace, with its map entry (R65, R192). -/
structure Zone where
  /-- zone state | 02 R65 | DC Empty -/
  st : ZoneSt := .empty
  /-- write pointer − ZSLBA | 02 R70 | DC 0 -/
  wp : Nat := 0
  /-- offset above which a finished zone holds the pad pattern | 02 R80 | DC none -/
  padFrom : Option Nat := none
  /-- reset or finish fence | 02 R76 | DC none -/
  fence : Option Fence := none
  /-- zone management commands that wait for the fence or for a Close | 02 R75 | DC empty -/
  waiting : List Nat := []
  /-- accepted write-type contexts not yet acknowledged | 02 R75 | DC empty -/
  writing : List Nat := []
  /-- Finish Zone Recommended | 02 R86 | DC false -/
  fzr : Bool := false
  /-- Zone Finished by Controller | 02 R86 | DC false -/
  zfc : Bool := false
  /-- timestamp of the last accepted write, ns | 02 R86 | DC 0 -/
  lastWrite : Nat := 0
  /-- hours carried over a power loss | 02 R87 | DC 0 -/
  ageHours : Nat := 0
  /-- map entry SET | 05 R192 | DC 0 -/
  set : Nat := 0
  /-- map entry ROT | 05 R192 | DC 0 -/
  rot : Nat := 0
  /-- map entry DBLK[0-17] | 05 R192 | DC empty -/
  dblk : List Nat := []
  /-- map entry FLAGS.VALID, RELOC, PACKED, RU, LOST_DATA | 05 R192 | DC false -/
  valid : Bool := false
  relocating : Bool := false
  packed : Bool := false
  ru : Bool := false
  lostData : Bool := false
  /-- Close Zone of a packed zone that waits for earlier Packed Appends | 07 R255 | DC none -/
  closing : Option Hdr := none
  closeDue : Option Nat := none
  /-- re-arm: 0 = not needed, 1 = waiting, 2 = running | 02 R88 | DC 0 -/
  rearm : Nat := 0
  /-- map entry RELOC_TGT, RELOC_WL | 05 R192 | DC none, 0 -/
  relocTgt : Option (Nat × Nat) := none
  /-- start of a running re-arm, ns | 02 R89 | DC 0 -/
  rearmAt : Nat := 0
  relocWl : Nat := 0
  /-- map entry DBLK[m].REPLACED: positions | 05 R192 | DC empty -/
  replaced : List Nat := []
  /-- members filled again from the stripe | 05 R201, 04 R168 | DC empty -/
  refills : List Refill := []
  /-- map entry EPOCH | 05 R192 | DC 0 -/
  epoch : Nat := 0
  /-- map entry T_FULL, ns | 05 R192 | DC 0 -/
  tFull : Nat := 0
  /-- LBA offset ranges marked lost, (first, count) | 05 R185 | DC empty -/
  lost : List (Nat × Nat) := []
  /-- open parcel | 07 R249 | DC none -/
  parcel : Option Parcel := none
  /-- next parcel SEQ | 07 R242 | DC 0 -/
  parcelSeq : Nat := 0
  /-- closed parcels | 07 R241 | DC empty -/
  parcels : List ClosedParcel := []
  /-- word lines whose coarse, fine pass is complete, by member position | 04 R154 | DC empty -/
  coarse : Tbl Nat := []
  fine : Tbl Nat := []
  /-- pages of each member patrolled in this pass, by position | 05 R195 | DC empty -/
  patrolled : Tbl Nat := []
  /-- activation order | 05 R201 | DC 0 -/
  activatedAt : Nat := 0
  /-- reverse map of a reclaim unit: frame to LBA + 1 | 05 R203 | DC empty -/
  rev : Tbl Nat := []
  /-- valid blocks of a reclaim unit | 05 R204 | DC 0 -/
  validBlocks : Nat := 0
  deriving DecidableEq, Repr

/-- The LBAs of a zone that hold written data: those below the write pointer, or below the pad of a finished zone (R80). -/
def Zone.filled (z : Zone) : Nat := z.padFrom.getD z.wp

/-- A stripe row still dirty in staging (R155, R178). -/
structure Row where
  /-- zone key and stripe row | 05 R178 | DC n/a -/
  zk : Nat
  row : Nat
  tenant : Nat
  /-- LBAs staged, by place in the row | 05 R178 | DC n/a -/
  staged : BitVec 256 := 0
  /-- running-parity updates done, 0-4 | 05 R178 | DC 0 -/
  quarters : Nat := 0
  /-- the quarter rows folded into P and Q | 05 R178 | DC empty -/
  folded : List Nat := []
  /-- positions whose fine pass of the row's word line completed with OK | 04 R155 | DC empty -/
  fineDone : List Nat := []
  /-- order in which rows were first staged | 12 R393 | DC 0 -/
  order : Nat := 0
  /-- row epoch | 05 R175 | DC 0 -/
  epoch : Nat := 0
  /-- the landing die block still covers it | 05 R184 | DC false -/
  covered : Bool := false
  /-- pad units complete the row (Finish) | 02 R80 | DC false -/
  padded : Bool := false
  deriving DecidableEq, Repr

/-- A namespace with its seed entry (R275) and, when conventional, its maps (R203). -/
structure Ns where
  /-- exists | 11 R364 | DC false -/
  present : Bool := false
  /-- owner tenant | 11 R364 | DC 0 -/
  tenant : Nat := 0
  /-- zoned or conventional | 02 R58 | DC true -/
  zoned : Bool := true
  /-- LBA format 0-2 | 02 R59 | DC 0 -/
  lbaf : Nat := 0
  /-- packed-zone attribute | 07 R238 | DC false -/
  packed : Bool := false
  /-- zones, or reclaim units held | 02 R571, R98 | DC 0 -/
  units : Nat := 0
  /-- capacity in LBAs | 02 R98 | DC 0 -/
  lbas : Nat := 0
  /-- pool its units lie in | 02 R93 | DC 0 -/
  pool : Nat := 0
  /-- home region | 02 R69 | DC 0 -/
  region : Nat := 0
  /-- key slot, generation, nonce of the seed entry | 08 R275 | DC 0 -/
  slot : Nat := 0
  gen : Nat := 0
  nonce : Nat := 0
  /-- seed entry flags: copy usable, REVOKED | 08 R275 | DC true, false -/
  seedOk : Bool := true
  revoked : Bool := false
  /-- attached without a key | 08 R276 | DC false -/
  noKey : Bool := false
  /-- Format or Sanitize in progress | 02 R90 | DC false -/
  fenced : Bool := false
  /-- LBAs mapped to frames, LBA to (unit × 2^20 + frame) | 05 R203 | DC empty -/
  fwd : Tbl Nat := []
  /-- open reclaim unit per placement handle, and the GC unit | 02 R99 | DC empty -/
  opened : Tbl Nat := []
  gcUnit : Option Nat := none
  /-- GC running: the victim | 05 R204 | DC none -/
  victim : Option Nat := none
  gcOn : Bool := false
  /-- frames of the victim moved | 05 R204 | DC 0 -/
  gcMoved : Nat := 0
  /-- controllers it is detached from | 11 R364 | DC empty -/
  detached : List Nat := []
  /-- Changed Zone List | 02 R58 | DC empty -/
  changed : List Nat := []
  deriving DecidableEq, Repr

/-- A tenant slot: its TNT block and what the timekeeper and front end keep for it. -/
structure Tenant where
  /-- TNT_STATE.STATE | 11 R361 | spec FREE -/
  st : TenantSt := .free
  /-- TNT_STATE COMPAT, PIN, REGION, LANESET, SET_ID | 11 R372 | spec 0 -/
  compat : Bool := false
  pin : Bool := false
  region : Nat := 0
  laneset : Bool := false
  setId : Nat := 0
  /-- TNT_STATE.RESETS, 8 bits | 11 R378 | spec 0 -/
  resets : Nat := 0
  /-- floors and shares of +0x04 to +0x2C, and the RWLIVE limits +0x2C to +0x38 in force | 11 R369 | spec 0; WEIGHT 1, SCHED_WEIGHT 1, HOLD_MS 0x1F4 -/
  lim : Limits := ⟨0, 0, 0, 0, 0, 0, 0, 0, 0, 0, 0, 0, 0, 0, 0, 0, 0, 0, 0, 0, 0, 1, 0, 0, 1, 500, 0, 0⟩
  /-- interrupt vector floor | 09 R308 | DC 0 -/
  viFloor : Nat := 0
  /-- created, not yet readied by a quiet point | 11 R372 | DC false -/
  creating : Bool := false
  /-- shares accepted and waiting for the quiet point | 11 R373 | DC none -/
  pending : Option Limits := none
  /-- CHIP_TNT_READY bit | 01 R56 | spec 0 -/
  ready : Bool := false
  /-- subsystem NQN, 0 = the default of R368 | 11 R368 | DC 0 -/
  nqn : Nat := 0
  /-- staging charge of open parcels, bytes | 07 R250 | DC 0 -/
  charge : Nat := 0
  /-- Dash token bucket, tokens | 06 R208 | DC 0 -/
  dashTokens : Nat := 0
  /-- TNT_RA_STAT.LEVEL, signed | 05 R189 | spec 0 -/
  raLevel : Int := 0
  /-- time up to which the read-around and Dash buckets have taken their tokens, ns | 05 R189, 06 R208 | DC 0 -/
  raAt : Nat := 0
  dashAt : Nat := 0
  /-- TNT_RA_STAT.OVER, 16 bits | 05 R189 | spec 0 -/
  raOver : Nat := 0
  /-- last event 0x0496, ns | 05 R189 | DC none -/
  raEventAt : Option Nat := none
  /-- compatibility buckets: commands, bytes | 11 R381 | DC 0 -/
  kiops : Nat := 0
  bw : Nat := 0
  /-- held commands, oldest first | 11 R380 | DC empty -/
  heldCmds : List Nat := []
  /-- last event 0x0B07, ns | 11 R382 | DC none -/
  holdEventAt : Option Nat := none
  /-- last event 0x0D06, ns | 06 R211 | DC none -/
  hostEventAt : Option Nat := none
  /-- excused, unexcused breaches, declines, worst lateness µs | 06 R228 | DC 0 -/
  excused : Nat := 0
  unexcused : Nat := 0
  declines : Nat := 0
  worstLate : Nat := 0
  /-- TNT_STATE.LOGGING | 11 R383 | spec 0 -/
  logging : Bool := false
  /-- dirty log, oldest first: page number and CQ bit | 11 R384 | DC empty -/
  log : List (Nat × Bool) := []
  /-- TNT_LOGSTAT.OVERFLOW | 11 R384 | spec 0 -/
  overflow : Bool := false
  /-- quiesce asked by this command, at this time | 11 R385 | DC none -/
  quiesce : Option (Hdr × Nat) := none
  /-- a reset or destruction by Tenant Share Set that waits for the tenant's controllers: command, destroy | 11 R374, R378 | DC none -/
  ending : Option (Hdr × Bool) := none
  /-- exports since creation | 11 R386 | DC 0 -/
  exports : Nat := 0
  deriving DecidableEq, Repr

/-- One NVMe controller. -/
structure Ctrl where
  /-- exists (a fabric controller is created by Connect) | 11 R362 | DC false -/
  present : Bool := false
  /-- tenant of a fabric controller | 10 R328 | DC 0 -/
  tenant : Nat := 0
  /-- CC.EN | 09 R301 | DC false -/
  en : Bool := false
  /-- CSTS.RDY | 01 R56 | DC false -/
  rdy : Bool := false
  /-- CSTS.CFS | 11 R377 | DC false -/
  cfs : Bool := false
  /-- drain and squash running since, ns | 11 R378 | DC none -/
  drain : Option Nat := none
  /-- a discovery controller | 10 R327 | DC false -/
  discovery : Bool := false
  /-- commands squashed, drained | 11 R389 | DC 0 -/
  squashed : Nat := 0
  drained : Nat := 0
  /-- fetch stopped (reset, quiesce, entry) | 11 R378 | DC false -/
  stopped : Bool := false
  /-- VF Enable of a physical function, NumVFs | 09 R301 | DC 0 -/
  numVfs : Nat := 0
  /-- bus mastering | 11 R388 | DC false -/
  busMaster : Bool := false
  /-- ACRE of Host Behavior Support | 09 R318 | DC false -/
  acre : Bool := false
  /-- asynchronous event requests held, by CID | 15 R494 | DC empty -/
  aers : List Nat := []
  /-- asynchronous events that wait for a request | 15 R494 | DC empty -/
  events : List Notice := []
  /-- DULBE of the Error Recovery feature | 02 R74 | DC false -/
  dulbe : Bool := false
  deriving DecidableEq, Repr

/-- A submission queue (R304, R366). -/
structure Sq where
  /-- class | 06 R207 | DC Distance -/
  cls : Cls := .distance
  /-- home region | 11 R366 | DC 0 -/
  region : Nat := 0
  /-- depth in entries, contexts committed | 06 R229 | DC 0 -/
  depth : Nat := 0
  /-- completion queue | 09 R304 | DC 0 -/
  cqid : Nat := 0
  /-- head and tail | 09 R305 | DC 0 -/
  head : Nat := 0
  tail : Nat := 0
  /-- connection that carries it, RDMA only | 10 R328 | DC none -/
  conn : Option Nat := none
  deriving DecidableEq, Repr

/-- A completion queue (R300). -/
structure Cq where
  depth : Nat := 0
  vector : Nat := 0
  head : Nat := 0
  deriving DecidableEq, Repr

/-- The actions of Zone Management Send (*Zone transitions*). -/
inductive ZoneAct where
  | openZone
  | close
  | finish
  | reset
  | resetAll
  | offline
  deriving DecidableEq, Repr

/-- What a command context is for. -/
inductive CtxKind where
  | read
  | write
  | append
  | writeZeroes
  | compare
  | packedAppend
  | packedRead
  | parcel
  | copy
  | flush
  | discard (ranges : List (Nat × Nat))
  | manage (act : ZoneAct)
  | report (filter most : Nat) (isPartial : Bool)
  deriving DecidableEq, Repr

/-- How far a command has come. -/
inductive Phase where
  | held
  | fetching
  | compressing
  | ciphering
  | staging
  | reading
  | waiting
  | done
  deriving DecidableEq, Repr

/-- A command context (R229, R230). LBA index i of the command is its i-th LBA. -/
structure Ctx where
  hdr : Hdr
  tenant : Nat
  kind : CtxKind
  cls : Cls
  phase : Phase
  nsid : Nat := 0
  slba : Nat := 0
  nlb : Nat := 0
  /-- zone of a write-type or packed command and the zone offset of its first LBA -/
  zk : Nat := 0
  off : Nat := 0
  /-- place of each LBA index of a read at admission, as (zone key, zone offset); none = not written or not mapped -/
  places : List (Option (Nat × Nat)) := []
  /-- LBA indexes whose good frame or staged unit has come -/
  got : List Nat := []
  /-- units delivered or staged -/
  finished : Nat := 0
  /-- deadline, ns: arrival plus bound -/
  deadline : Option Nat := none
  startNs : Nat := 0
  /-- sources of units that failed on its path since admission -/
  failedUnits : List Nat := []
  /-- plaintext by LBA index: ingress or egress buffer -/
  data : List (Nat × Block) := []
  /-- write zeroes: the data are zeros -/
  zeros : Bool := false
  /-- accepted behind a reset: its completion is held, and its stored blocks stand in `frozen` until the reset takes effect -/
  behind : Bool := false
  /-- Copy: the first destination LBA, the places taken for the copied LBAs, and the source LBA of each LBA index -/
  target : Nat := 0
  dest : List (Option (Nat × Nat)) := []
  lbas : List Nat := []
  /-- its response is discarded (connection error), it is squashed or aborted by its host -/
  discard : Bool := false
  /-- LBA indexes that wait for their LBA to be staged -/
  waits : List Nat := []
  /-- stored blocks kept for LBA indexes whose place has been written again behind a reset (R77) -/
  frozen : List (Nat × Block) := []
  /-- Compare: the host's data; Packed Read: the granules as they were packed -/
  expect : List Block := []
  /-- packed commands: CLOSE; granules asked for; granules compressed, or for a read decompressed; first granule index -/
  close : Bool := false
  granules : Nat := 0
  grans : List Granule := []
  first : Nat := 0
  /-- the compression engine at work for it, region × 4 + engine; its granules are all placed in a parcel -/
  engine : Option Nat := none
  placed : Bool := false
  /-- packed read: the parcel header's entries, as (first slice, slices) -/
  sizes : List (Nat × Nat) := []
  /-- a closed parcel's LBAs on their way to staging: the commands it acknowledges, with the index of the first granule and the
  count of granules of each (R249) -/
  group : List (Nat × Nat × Nat) := []
  /-- latest projected free time, ps, of a die that was reported busy to its steward (R150) -/
  busyUntil : Nat := 0
  /-- held in compatibility mode: the header checks passed and this is retried -/
  heldAt : Nat := 0
  deriving DecidableEq, Repr

/-- A baton held or waited for (R392, R393). `account` none is the device. -/
structure Baton where
  op : HeavyOp
  value : Nat
  account : Option Nat
  rank : Nat
  order : Nat
  atNs : Nat
  deriving DecidableEq, Repr

/-- The baton broker. -/
structure Broker where
  /-- BATON_STAT.BUDGET, units | 12 R397 | spec 0 -/
  budget : Nat := 0
  /-- batons granted and not returned (OUTSTANDING is their sum) | 12 R392 | spec empty -/
  out : List Baton := []
  /-- requests waiting, oldest first | 12 R393 | spec empty -/
  waiting : List Baton := []
  /-- deficit credit in rank 2 and in rank 4, by account: tenant + 1, the device 0 | 12 R393 | DC 0 -/
  credit2 : Tbl Nat := []
  credit4 : Tbl Nat := []
  /-- account whose turn it is in rank 2 and in rank 4 | 12 R393 | DC 0 -/
  turn2 : Nat := 0
  turn4 : Nat := 0
  /-- BATON_WAIT.WAIT, µs | 12 R396 | spec 0 -/
  wait : Nat := 0
  /-- the broker grants nothing (Homestretch, Lull, Calm, trip) | 12 R397 | DC true -/
  closed : Bool := true
  deriving DecidableEq, Repr

/-- One channel of the loop engine (R399-R404). Gains and limits are registers; these are the working values. -/
structure Loop where
  /-- running (EN, or started for loops 0-3) | 12 R403 | spec 0 -/
  running : Bool := false
  /-- integrator, in 1/65,536 of an output unit | 12 R399 | DC 0 -/
  integ : Int := 0
  /-- LOOP_MEAS | 12 R399 | spec 0 -/
  meas : Int := 0
  /-- LOOP_OUT | 12 R399 | spec 0 -/
  out : Int := 0
  /-- set-point that another loop delivers (loops 0 and 1) | 12 R403 | DC 0 -/
  feed : Int := 0
  /-- effective set-point | 12 R401 | spec 0; 5,000 for loop 3 (set when loops start) -/
  sp : Int := 0
  /-- LOOP_STAT.RAMPING | 12 R401 | spec 0 -/
  ramping : Bool := false
  /-- LOOP_SP written, ramp starts at the next measurement | 12 R401 | DC false -/
  rampStart : Bool := false
  /-- LOOP_STAT.GUST | 12 R402 | spec 0 -/
  gust : Bool := false
  /-- timestamp at which GUST was set last | 00 R23 | DC none -/
  gustAt : Option Nat := none
  /-- LOOP_STAT.HOLDING: periods left | 12 R402 | spec 0 -/
  holdLeft : Nat := 0
  /-- LOOP_STAT.GUSTS, 16 bits | 12 R402 | spec 0 -/
  gusts : Nat := 0
  /-- signs recorded, newest first, 0 = none | 12 R402 | DC empty -/
  signs : List Int := []
  /-- LOOP_STAT.INT_CLAMPED, OUT_CLAMPED | 12 R399 | spec 0 -/
  intClamped : Bool := false
  outClamped : Bool := false
  /-- LOOP_STAT.REGION, 0-4 | 12 R400 | spec 0 -/
  region : Nat := 0
  /-- reseed the integrator in the next period | 12 R402 | DC false -/
  reseed : Bool := false
  /-- periods spent with gain set 4 | 12 R421 | DC 0 -/
  fallback : Nat := 0
  deriving DecidableEq, Repr

/-- The hold-up bank (R407-R417). -/
structure Bank where
  /-- mean bank voltage, mV | 12 R398 | DC 0 -/
  mv : Nat := 0
  /-- PWR_HU_MEAS.VBANK, lowest of the last loop-2 period, mV | 12 R414 | spec 0 -/
  lowMv : Nat := 0
  /-- mean bank current, mA | 12 R415 | DC 0 -/
  ma : Nat := 0
  /-- PWR_HU_MEAS.C_EST, 10 µF, none before step 4 | 12 R410 | spec 0 -/
  cEst : Option Nat := none
  /-- PWR_HU_STAT.CHARGING | 12 R409 | spec 0 -/
  charging : Bool := false
  /-- PWR_HU_STAT.CHG_FAULT | 12 R409 | spec 0 -/
  fault : Bool := false
  /-- PWR_HU_STAT.CEIL_TRIP | 12 R408 | spec 0 -/
  ceilTrip : Bool := false
  /-- PWR_HU_STAT.C_LOW | 12 R410 | spec 0 -/
  cLow : Bool := false
  /-- PWR_HU_STAT.OVERCOMMIT, since ns | 12 R416 | spec 0 -/
  overSince : Option Nat := none
  /-- E_usable, nJ (PWR_HU_STAT.E_USABLE shows mJ) | 12 R414 | spec 0 -/
  eUsable : Nat := 0
  /-- PWR_HU_DMAX, KiB | 12 R414 | spec 0 -/
  dmax : Nat := 0
  /-- PWR_HU_LAST USED, PRED, mJ | 12 R417 | spec 0 -/
  used : Nat := 0
  pred : Nat := 0
  /-- charging began at, ns; bank reached its target | 12 R421 | DC none, false -/
  since : Option Nat := none
  atTarget : Bool := false
  /-- last event 0x0E03, ns | 12 R405 | DC none -/
  floorAt : Option Nat := none
  deriving DecidableEq, Repr

/-- A Lull or Calm entry in progress (R432). -/
structure Entry where
  target : Mode
  step : Nat
  abortPoints : Bool
  requester : Nat
  since : Nat
  deriving DecidableEq, Repr

/-- An exit in progress (R435, R436). -/
structure Exit where
  source : Mode
  done : List Nat
  cause : Nat
  since : Nat
  /-- when the lanes and the DRAM were both back, from which the restore is timed -/
  readyAt : Nat := 0
  deriving DecidableEq, Repr

/-- Why dirty data is being landed (R438, R432, R531, R553). -/
inductive LandCause where
  | homestretch
  | calm
  | chipReset
  | faultStop
  deriving DecidableEq, Repr

/-- A unit to land or landed (R181, R183). -/
structure LandUnit where
  zk : Nat
  row : Nat
  member : Nat
  kind : Nat
  incomplete : Bool
  die : Nat
  page : Nat
  blockB : Bool
  epoch : Nat := 0
  /-- data accepted behind an unfinished reset: discarded at the restore (R82) -/
  behind : Bool := false
  deriving DecidableEq, Repr

/-- A landing in progress (R438 steps 3 to 6). -/
structure Landing where
  cause : LandCause
  since : Nat
  eBank : Nat
  dirtyKib : Nat
  pred : Nat
  toppedUp : Bool
  waiting : List LandUnit
  toWrite : List LandUnit
  written : List LandUnit
  mode : Mode
  /-- dies that still write their copy of the checkpoint journal; none before the last landing write -/
  journal : Option (List Nat) := none
  deriving DecidableEq, Repr

/-- Modes, power states, Warm-up, and the Sprint grant. -/
structure Power where
  /-- PWR_MODE.MODE | 13 R422 | spec 0x0 Warm-up; DC off while the chip domain is held in reset -/
  mode : Mode := .warmup
  /-- PWR_MODE.RESUME | 13 R423 | spec 0x1 -/
  resume : Mode := .stride
  /-- PWR_MODE.PS, 0-4 | 13 R441 | spec 0x1 -/
  ps : Nat := 1
  /-- the last operational power state selected, to which a wake returns | 09 R313 | DC 1 -/
  lastPs : Nat := 1
  /-- chip domain reset asserted | 18 R551 | spec true before t0 -/
  inReset : Bool := true
  /-- CHIP_WARMUP.STEP_DONE, 13 bits | 01 R55 | spec 0 -/
  stepDone : BitVec 13 := 0
  /-- timestamp of chip domain reset release (t0), ns | 01 R55 | DC 0 -/
  t0 : Nat := 0
  /-- when Warm-up steps 6 and 8 were both complete, from which the restore of step 10 is timed, ns | 05 R184 | DC 0 -/
  readyAt : Nat := 0
  /-- Warm-up hold causes in force, by code | 01 R57 | spec none -/
  holds : List Nat := []
  /-- Lull or Calm entry | 13 R432 | spec none -/
  entry : Option Entry := none
  /-- exit in progress | 13 R435 | DC none -/
  exit : Option Exit := none
  /-- landing in progress | 13 R438 | DC none -/
  landing : Option Landing := none
  /-- PWR_SPRINT.GRANT, LEASE_MS | 13 R426 | spec 0, 0 -/
  grant : Bool := false
  leaseMs : Nat := 0
  /-- PWR_SPRINT.HELD | 13 R426 | spec 0 -/
  granted : Bool := false
  /-- limit of the cap ramp, mW | 12 R401 | DC none -/
  capRamp : Option Nat := none
  /-- PWR_ENTRY_CNT.REFUSED, ABORTED, 16 bits | 13 R434 | spec 0 -/
  refused : Nat := 0
  aborted : Nat := 0
  /-- PWR_EDGE_LOST, 32 bits | 13 R433 | spec 0 -/
  edgeLost : Nat := 0
  /-- PWR_REFUSE_RSN[1-7], 32 bits | 13 R434 | spec 0 -/
  refuseRsn : Tbl Nat := []
  /-- PWR_REFUSE_LAST SOURCE, REASON, TARGET | 13 R434 | spec 0 -/
  refuseLast : Nat × Nat × Nat := (0, 0, 0)
  /-- PWR_WAKE_STAT SOURCE, CAUSE | 13 R430 | spec 0 -/
  wakeStat : Nat × Nat := (0, 0)
  /-- APST enable, idle ms, target PS | 09 R312 | DC off -/
  apst : Bool × Nat × Nat := (false, 0, 0)
  /-- port mode strap, CHIP_PCIE_CFG.DUAL | 09 R295 | spec strap; DC false -/
  dual : Bool := false
  /-- maintenance work is running and the mode to re-enter | 13 R431 | DC none -/
  maint : Option (Mode × MaintWork) := none
  /-- AVSBus: CHIP_SUPPLY_STAT.VDDC_TARGET mV, AVS_OK, step in progress (wanted mV, retried) | 18 R550 | spec 0x320, 0 -/
  vddc : Nat := 800
  avsOk : Bool := false
  avsStep : Option (Nat × Bool) := none
  avsGoal : Nat := 800
  /-- THM_STAT.ADC_FAIL | 16 R508 | spec 0 -/
  adcFail : Bool := false
  /-- Temperature Threshold feature: (sensor × 2 + under) to kelvin | 16 R515 | DC empty -/
  thresholds : Tbl Nat := []
  deriving DecidableEq, Repr

/-- One entry of the Candielle ledger (R489); measurements are free values of Config. -/
structure LedgerEntry where
  seq : Nat
  time : Nat
  vauxOn : Nat
  reason : Nat
  bank : Nat
  missed : Nat
  stepSvn : Nat
  bootSeq : Nat
  bootTime : Nat
  deriving DecidableEq, Repr

/-- A boot store bank (R479, R495). -/
structure ImageBank where
  st : BankSt := .empty
  cause : Nat := 0
  image : Option Image := none
  deriving DecidableEq, Repr

/-- A live roll in progress (R497): the phase and the unit in it (a block, or region × 2 + steward); in phase 2 the local cell and whether its
lane moves to the spare (0), the cell loads (1) or the lane moves back (2), in phase 5 the steps of R502; `running` while the step under way has
not ended; `back` while the units rolled are rolled back. -/
structure Roll where
  bank : Nat
  hdr : Hdr
  phase : Nat
  unit : Nat
  cell : Nat
  stage : Nat
  inPlace : Bool
  running : Bool
  back : Bool
  cause : Nat
  reached : Nat
  since : Nat
  stepAt : Nat
  deriving DecidableEq, Repr

/-- A copy of the seed record: its current sector, the 64-byte cells programmed there as stored (inverted), the other sectors being erased, and
whether it has lost a sector that the pool could not replace (R476, R478). -/
structure SeedCopy where
  /-- current sector, 0-3 | 15 R478 | DC 0 -/
  sector : Nat := 0
  /-- cells programmed in it, in order | 15 R478 | DC empty -/
  cells : List (BitVec 512) := []
  /-- a sector lost with no replacement left | 15 R476 | DC false -/
  lost : Bool := false
  deriving DecidableEq, Repr

/-- The boot store and what runs from it: survives every reset and power loss, but for the running fields. -/
structure BootStore where
  /-- copies A and B of the seed record | 08 R275, 15 R478 | DC empty -/
  seedA : SeedCopy := {}
  seedB : SeedCopy := {}
  /-- a sector erase resumed last, and the last read of the store served, ns | 15 R475 | DC 0 -/
  eraseResumed : Nat := 0
  readServed : Nat := 0
  /-- banks 0, 1: BST_BANK, BST_BANK_SVN | 15 R495 | spec EMPTY -/
  bank0 : ImageBank := {}
  bank1 : ImageBank := {}
  /-- BST_STAT.PREFERRED | 15 R482 | spec 0 -/
  selector : Nat := 0
  /-- BST_STAT.BOOTED, and the image running | 15 R482 | spec 0 -/
  booted : Nat := 0
  running : Option Image := none
  /-- BST_STAT LKG_BANK, LKG_VALID, LKG_PAIR | 15 R483 | spec 0 -/
  lkgBank : Nat := 0
  lkgValid : Bool := false
  lkgPair : Nat := 0
  /-- fused SVN | 15 R483 | DC 0 -/
  fusedSvn : Nat := 0
  /-- BST_STAT.POOL_LEFT, remap table (sector, replacement) | 15 R476 | spec 0x76, empty -/
  poolLeft : Nat := 118
  remap : List (Nat × Nat) := []
  /-- header write count | 15 R477 | DC 0 -/
  headerWrites : Nat := 0
  /-- ledger entries held, oldest first | 15 R491 | DC empty -/
  ledger : List LedgerEntry := []
  /-- LDG_SEQ_NEW, LDG_SEQ_ACK, LDG_MISSED | 15 R504 | spec 0 -/
  seqNew : Nat := 0
  seqAck : Nat := 0
  missed : Nat := 0
  /-- first SEQ whose sector has not been erased | 15 R491 | DC 1 -/
  oldest : Nat := 1
  /-- an erased sector lies ahead of the newest entry | 15 R490 | DC true -/
  erasedAhead : Bool := true
  /-- entry signed and held in starter memory | 15 R490 | DC none -/
  heldEntry : Option LedgerEntry := none
  /-- boot entry of the alias keys: SEQ, TIME | 15 R489 | DC 0, 0 -/
  bootSeq : Nat := 0
  bootTime : Nat := 0
  /-- Image Stage parts waiting for their program: command, bank, LAST, image | 15 R495 | DC empty -/
  staging : List (Hdr × Nat × Bool × Image) := []
  /-- ledger sectors that left the ring | 15 R476 | DC 0 -/
  ledgerLost : Nat := 0
  /-- live roll | 15 R497 | spec idle -/
  roll : Option Roll := none
  /-- BST_ROLL.ROLLS, 16 bits | 15 R504 | spec 0 -/
  rolls : Nat := 0
  /-- bundles accepted and not yet applied, with their commands | 15 R485 | DC empty -/
  bundles : List (Hdr × Bundle) := []
  /-- bundle parts in progress | 15 R485 | DC false -/
  applying : Bool := false
  /-- seconds-run timer armed for last-known-good | 15 R483 | DC false -/
  lkgArmed : Bool := false
  deriving DecidableEq, Repr

/-- The checkpoint, the landing area and the configuration records' board description: they hold through power loss. -/
structure Store where
  /-- FDP events, oldest first: type, NSID, reclaim group and handle, ns | 02 R99 | DC empty -/
  fdpEvents : List (Nat × Nat × Nat × Nat) := []
  /-- landing directory | 05 R183 | DC empty -/
  directory : List LandUnit := []
  /-- rows the directory's units belong to | 05 R184 | DC empty -/
  landedRows : List Row := []
  /-- a Homestretch or power loss left an epoch with no directory | 13 R439 | DC false -/
  lostEpoch : Bool := false
  /-- records kept in the checkpoint journal | 17 R538 | DC empty -/
  keptRecords : List Record := []
  /-- Homestretch figures in the directory: USED, PRED, KiB | 12 R417 | DC none -/
  figures : Option (Nat × Nat × Nat) := none
  /-- checkpoint epoch | 05 R192 | DC 0 -/
  epoch : Nat := 0
  /-- die population of the records, by lane | 03 R137 | DC empty -/
  population : Tbl (BitVec 8) := []
  /-- die geometry of the records: pages per block, blocks per plane, planes | 05 R197 | DC the reference die -/
  pages : Nat := 2304
  blocks : Nat := 1700
  planes : Nat := 4
  /-- die models known | 04 R144, R163 | DC empty -/
  models : List DieModel := []
  /-- writable words of the tenants' registers as the checkpoint holds them, by window offset | 11 R361, R369 | DC empty -/
  tenantWords : Tbl (Option Word) := []
  /-- words of CHIP_LANESET_OWNER of the layout in force, by window offset | 02 R96 | DC empty -/
  layout : Tbl (Option Word) := []
  /-- Calm save image held in DRAM and good | 13 R436 | DC none -/
  calmImage : Option Bool := none
  /-- stripe sets formed | 05 R171 | DC false -/
  formed : Bool := false
  /-- spare dies, (pool, lane × 8 + die) | 05 R171 | DC empty -/
  spares : List (Nat × Nat) := []
  /-- activations made, the activation time of R201 | 05 R201 | DC 0 -/
  activations : Nat := 0
  /-- sanitize: 0 never, 1 done, 2 in progress, 3 failed; die blocks that it has to erase | 08 R289 | DC 0 -/
  sanitize : Nat := 0
  sanitizeTotal : Nat := 0
  /-- reads of die blocks since erase, by die × 2^11 + block | 05 R195 | DC 0 -/
  readCounts : Tbl Nat := []
  /-- patrol: CHIP_PATROL_STAT PASSES, PROGRESS, findings, pass start ns | 05 R196 | spec 0 -/
  patrolPasses : Nat := 0
  patrolProgress : Nat := 0
  patrolFindings : Nat := 0
  patrolSince : Nat := 0
  deriving DecidableEq, Repr

/-- One band's bound set, µs (R225, R228). -/
structure BoundSet where
  dashRdPcie : Nat
  dashRdRdma : Nat
  dashWrPcie : Nat
  dashWrRdma : Nat
  tempoPcie : Nat
  tempoRdma : Nat
  distPcie : Nat
  distRdma : Nat
  derate : Nat
  deriving DecidableEq, Repr

/-- The timekeeper. -/
structure Timekeeper where
  /-- TMK_STAT.IN_FORCE | 06 R210 | spec 0 -/
  inForce : Bool := false
  /-- TMK_STAT.BAND | 06 R222 | spec 0 -/
  band : Nat := 0
  /-- bound sets in force, bands 0-4: TMK_BOUND_A, TMK_BOUND_B | 06 R222 | spec empty (read 0) -/
  sets : List BoundSet := []
  /-- a recomputation is running | 06 R222 | DC false -/
  computing : Bool := false
  /-- computed sets waiting for a quiet point | 06 R222 | DC none -/
  next : Option (List BoundSet) := none
  /-- TMK_DECLINE[c], 32 bits | 06 R220 | spec 0 -/
  declines : Tbl Nat := []
  /-- TMK_BREACH[c] EXCUSED, UNEXCUSED, 16 bits | 06 R236 | spec 0 -/
  excused : Tbl Nat := []
  unexcused : Tbl Nat := []
  /-- last event 0x0D04, ns | 06 R236 | DC none -/
  breachAt : Option Nat := none
  /-- (tenant, failed unit) whose first excused breach was recorded | 06 R236 | DC empty -/
  excusedOf : List (Nat × Nat) := []
  /-- maintenance bucket, rebuilds | 05 R190 | DC 0 -/
  maintLevel : Int := 0
  maintFull : Bool := false
  /-- parity calendar, ps | 06 R212 | DC 0 -/
  parityBusy : Nat := 0
  /-- projected baton wait, µs | 12 R396 | DC 0 -/
  batonWait : Nat := 0
  deriving DecidableEq, Repr

/-- The cipher engines, key-derivation units and alarm. -/
structure Cipher where
  /-- CPH_STAT.ALARM, CPH_ALARM_STAT.LATCHED | 08 R283 | spec 0 -/
  alarm : Bool := false
  /-- CPH_ALARM_STAT.FIRED, 5 bits | 08 R283 | spec 0 -/
  fired : BitVec 5 := 0
  /-- CPH_ALARM_STAT.SEEDS_ERASED | 08 R283 | spec 0 -/
  seedsErased : Bool := false
  /-- seed record erase of alarm step 6 running | 08 R283 | DC false -/
  erasing : Bool := false
  /-- CPH_STAT.KEYS_READY | 08 R280 | spec 0 -/
  keysReady : Bool := false
  /-- CPH_STAT.DRBG_OK | 08 R274 | spec 0 -/
  drbgOk : Bool := false
  /-- CPH_ENG_STAT, 32 bits | 08 R268 | spec 0xFFFF_FFFF -/
  engines : BitVec 32 := 0xFFFFFFFF
  /-- CPH_ENG_PARTNER, 32 bits | 08 R268 | spec 0 -/
  partner : BitVec 32 := 0
  /-- media root key present in the units | 08 R271 | DC false -/
  mrk : Bool := false
  /-- the unique device secret fused in the die, 256 bits, which only the key-derivation units read | 08 R271 | DC 0 -/
  uds : BitVec 256 := 0
  /-- key tables, by slot (every engine holds the same) | 08 R280 | DC empty -/
  keys : Tbl (BitVec 512) := []
  /-- CPH_PAGE_OWNER TENANT + 1, by page, 0 = not given | 08 R277 | spec 0 -/
  pages : Tbl Nat := []
  /-- parity engines in service, 8 bits | 05 R179 | spec 0xFF -/
  parityIn : BitVec 8 := 0xFF
  deriving DecidableEq, Repr

/-- One PCIe port: CHIP_PCIE_STAT (R294). -/
structure PcieLink where
  /-- UP, RATE, WIDTH, FLIT, PWR | 09 R292 | spec 0 -/
  up : Bool := false
  rate : Nat := 0
  width : Nat := 0
  flit : Bool := false
  pwr : Nat := 0
  /-- RECOV, DOWNS, 8 bits | 09 R294 | spec 0 -/
  recov : Nat := 0
  downs : Nat := 0
  deriving DecidableEq, Repr

/-- One Ethernet port: FAB_PORT_STAT (R324). -/
structure EthPort where
  /-- UP, DISTRIBUTING, HOLD | 10 R324 | spec 0 -/
  up : Bool := false
  dist : Bool := false
  hold : Bool := false
  /-- DOWNS 8 bits, DROPS 16 bits | 10 R325 | spec 0 -/
  downs : Nat := 0
  drops : Nat := 0
  /-- FAB_FEC_CORR, FAB_FEC_UNCORR | 10 R323 | spec 0 -/
  fecCorr : Nat := 0
  fecUncorr : Nat := 0
  /-- PFC_PRIO paused by the partner | 10 R325 | DC false -/
  paused : Bool := false
  /-- time of the down declaration, ns | 10 R346 | DC 0 -/
  downAt : Nat := 0
  /-- left the aggregator: rejoins only through LACP | 10 R346 | DC false -/
  left : Bool := false
  deriving DecidableEq, Repr

/-- One connection context (R331). RTTs are in µs, times in ns. -/
structure Conn where
  /-- established | 10 R331 | DC false -/
  up : Bool := false
  /-- in the error state | 10 R348 | DC false -/
  error : Bool := false
  /-- tenant, PD, CM port of its listen pair | 10 R329 | DC 0 -/
  tenant : Nat := 0
  pd : Nat := 0
  port : Nat := 0
  /-- member carrying it now | 10 R344 | DC 0 -/
  carried : Nat := 0
  /-- frozen by a port loss | 10 R347 | DC false -/
  frozen : Bool := false
  /-- must return to its home member | 10 R346 | DC false -/
  returning : Bool := false
  /-- selective repeat, RNR_READ, peer REORDER, path MTU | 10 R333 | DC false, false, 64, 1024 -/
  sr : Bool := false
  rnrRead : Bool := false
  reorder : Nat := 64
  mtu : Nat := 1024
  /-- controller and queue it carries | 10 R328 | DC none -/
  ctrl : Option Nat := none
  qid : Nat := 0
  /-- pinned in the context cache | 10 R331 | DC false -/
  pinned : Bool := false
  /-- expected PSN, PSNs held out of order | 10 R335 | DC 0, empty -/
  epsn : Nat := 0
  ooo : List Nat := []
  /-- NAK sent for the gap; segments since the last SACK | 10 R332, R335 | DC false, 0 -/
  gapNak : Bool := false
  sinceSack : Nat := 0
  /-- next PSN to send, unacknowledged segments (PSN, first sent, last sent, resent) | 10 R336 | DC 0, empty -/
  npsn : Nat := 0
  unacked : List (Nat × Nat × Nat × Bool) := []
  /-- ACK timeouts in a row | 10 R337 | DC 0 -/
  retries : Nat := 0
  /-- PSN of the last resend from the timeout; older SACKs are discarded | 10 R337 | DC 0 -/
  sackFloor : Nat := 0
  /-- receive buffers posted | 10 R338 | DC 0 -/
  posted : Nat := 0
  /-- segments of responses handed to the connection and not sent yet | 10 R336 | DC 0 -/
  queued : Nat := 0
  /-- send rate, bit/s; smoothed RTT × 8; base-RTT bins; last decrease, increase; sample over target since | 10 R339-R341 | DC 0 -/
  rate : Nat := 0
  srtt8 : Nat := 0
  bins : List (Nat × Nat) := []
  lastDec : Nat := 0
  lastInc : Nat := 0
  overAt : Nat := 0
  /-- last CNP sent, ns | 10 R342 | DC none -/
  cnpAt : Option Nat := none
  deriving DecidableEq, Repr

/-- A zone window (R350, R351). -/
structure Window where
  /-- exists | 10 R350 | DC false -/
  up : Bool := false
  tenant : Nat := 0
  nsid : Nat := 0
  zone : Nat := 0
  pd : Nat := 0
  rnr : Bool := false
  cls : Cls := .distance
  faultUs : Nat := 0
  /-- preload: the command that waits | 10 R350 | DC none -/
  preload : Option Hdr := none
  deriving DecidableEq, Repr

/-- A page of the window cache (R353), least recently used first in its list. -/
structure Page where
  wid : Nat
  page : Nat
  tenant : Nat
  exempt : Bool
  channel : Nat
  deriving DecidableEq, Repr

/-- An RDMA READ waiting for its pages (R354-R356): `va`, `len` its range; `old` the bytes it is answered with once its zone was
reset or revoked after its arrival (R358). -/
structure WinRead where
  conn : Nat
  wid : Nat
  nsid : Nat
  zone : Nat
  tenant : Nat
  va : Nat
  len : Nat
  missing : List Nat
  since : Nat
  old : Option (List FieldVal) := none
  deriving DecidableEq, Repr

/-- An RDMA READ that arrived in Lull, an entry or an exit, as received (R359). -/
structure HeldRead where
  conn : Nat
  rkey : Nat
  va : Nat
  len : Nat
  write : Bool
  deriving DecidableEq, Repr

/-- The fabric side: connections, windows and their cache. -/
structure Fabric where
  /-- ports 0, 1 | 10 R324 | spec 0 -/
  ports : Tbl EthPort := []
  /-- connections, by QPN | 10 R331 | spec empty -/
  conns : Tbl Conn := []
  /-- next QPN | 10 R331 | DC 1 -/
  nextConn : Nat := 1
  /-- FAB_PD[d].TENANT + 1, 0 = not given | 10 R329 | spec 0 -/
  pdOwner : Tbl Nat := []
  /-- windows, by identifier | 10 R350 | spec empty -/
  windows : Tbl Window := []
  /-- creations of each identifier | 10 R351 | DC 0 -/
  gens : Tbl Nat := []
  /-- page cache, least recently used first | 10 R353 | spec empty -/
  cache : List Page := []
  /-- READs waiting, by number | 10 R354 | DC empty -/
  reads : Tbl (Option WinRead) := []
  nextRead : Nat := 1
  /-- page fetches running, (window, page) | 10 R354 | DC empty -/
  fetches : List (Nat × Nat) := []
  /-- READs that wait for the exit, oldest first | 10 R359 | DC empty -/
  ingress : List HeldRead := []
  /-- WIN_FAULTS, WIN_TIMEOUTS, 32 bits | 10 R359 | spec 0 -/
  faults : Nat := 0
  timeouts : Nat := 0
  /-- connections that still have to return after a rejoin: port, count, since | 10 R346 | DC none -/
  rejoin : Option (Nat × Nat × Nat) := none
  deriving DecidableEq, Repr

/-- One DRAM channel (R442-R459). -/
structure Chan where
  /-- DMC_STAT.STATE | 14 R455 | spec off -/
  st : ChanSt := .off
  /-- DMC_STAT.TREFI code | 14 R446 | spec 0 -/
  trefi : Nat := 0
  /-- interval asked by MR4, code | 14 R446 | DC 0 -/
  mr4 : Nat := 0
  /-- VISITS 8 bits, FRZ_CLASS 4 bits | 14 R454 | spec 0 -/
  visits : Nat := 0
  frzClass : Nat := 0
  /-- DMC_ERR CE 16, UE 8, FREEZES 8 bits | 14 R460 | spec 0 -/
  ce : Nat := 0
  ue : Nat := 0
  freezes : Nat := 0
  /-- DMC_FRZ_ADDR | 14 R456 | spec 0 -/
  frzLine : Nat := 0
  /-- DMC_RFM RAAMMT, RAAIMT, FORCED | 14 R447 | spec 0 -/
  raammt : Nat := 0
  raaimt : Nat := 0
  forced : Nat := 0
  /-- RAA counters by (sub × 2 + rank) × 32 + bank | 14 R447 | DC 0 -/
  raa : Tbl Nat := []
  /-- next bank of the REFsb cycle, by sub × 2 + rank | 14 R446 | DC 0 -/
  nextBank : Tbl Nat := []
  /-- commands issued, newest first, at most 128: DMC_FRZ_HIST when frozen | 14 R456 | spec empty -/
  hist : List (BitVec 64) := []
  /-- time of the newest command in the history, ns | 14 R456 | DC 0 -/
  histAt : Nat := 0
  /-- a freeze is held | 14 R456 | spec false -/
  frozen : Bool := false
  /-- retrain started at, ns; planned | 14 R457 | DC 0, false -/
  since : Nat := 0
  planned : Bool := false
  deriving DecidableEq, Repr

/-- A buffer (R468). -/
structure Buf where
  used : Bool := false
  gen : Nat := 0
  owner : Nat := 0
  tag : Nat := 0
  atNs : Nat := 0
  deriving DecidableEq, Repr

/-- The two DRAM channels, the on-chip memories and the buffer pools. -/
structure Memory where
  /-- channels 0, 1 | 14 R442 | spec off -/
  chans : Tbl Chan := []
  /-- DMC_CLASS[k], MiB, known after step 4 | 14 R449 | spec 0 -/
  classes : Tbl Nat := []
  /-- DRAM visit open in Lull since, ns | 14 R454 | DC none -/
  visit : Option Nat := none
  /-- ECC_STAT CE 16, UE 8, MOVES 8 bits | 14 R465 | spec 0 -/
  eccCe : Nat := 0
  eccUe : Nat := 0
  moves : Nat := 0
  /-- ECC_BIST DONE, FAIL, ROWS, MIN_SPARE, OUT | 14 R462 | spec 0 -/
  bistDone : Bool := false
  bistRows : Nat := 0
  bistSpare : Nat := 0
  bistOut : Nat := 0
  /-- spare rows used per macro in service | 14 R465 | DC 0 -/
  rowsMoved : Tbl Nat := []
  /-- buffers by pool × 2^20 + index | 14 R468 | spec all free -/
  bufs : Tbl Buf := []
  /-- BPM_STAT LEAKS 16, STALE 8, OTHER 8 bits | 14 R471 | spec 0 -/
  leaks : Nat := 0
  stale : Nat := 0
  other : Nat := 0
  /-- BPM_POOL[k].THROTTLES, 14 bits | 14 R472 | spec 0 -/
  throttles : Tbl Nat := []
  /-- last event 0x0701 of each pool, ns | 14 R472 | DC none -/
  throttleAt : Tbl (Option Nat) := []
  /-- BPM_MISUSE, (source, count), in order of first misuse, at most 32 | 14 R470 | spec empty -/
  misuse : List (Nat × Nat) := []
  /-- times of a core's recent misuses, (source, ns) | 14 R470 | DC empty -/
  misuseAt : List (Nat × Nat) := []
  deriving DecidableEq, Repr

/-- Fault containment at chip level. -/
structure Faults where
  /-- CHIP_FAULT.STATE = FAULT_STOP, STOP_CAUSE | 17 R531 | spec 0 -/
  stop : Nat := 0
  /-- a unit is out of service (STATE = degraded) | 17 R541 | spec 0 -/
  degraded : Bool := false
  /-- CHIP_FAULT.LAST_SRC | 17 R541 | spec 0 -/
  lastSrc : Nat := 0
  /-- CHIP_FAULT_CNT HANDOFFS, RESTARTS, TAKEOVERS, OTHER, 8 bits | 17 R541 | spec 0 -/
  handoffs : Nat := 0
  restarts : Nat := 0
  takeovers : Nat := 0
  other : Nat := 0
  /-- active starter pair; pairs in service; pairs that failed once | 01 R36 | spec pair 0; both; none -/
  activePair : Nat := 0
  pairsIn : BitVec 2 := 3
  pairsFailed : BitVec 2 := 0
  /-- pairs kept out until chip domain reset | 17 R528 | DC none -/
  pairsKept : BitVec 2 := 0
  /-- both pairs lost at, ns | 17 R531 | DC none -/
  bothLost : Option Nat := none
  /-- takeover in progress since, ns | 17 R527 | DC none -/
  takeover : Option Nat := none
  deriving DecidableEq, Repr

/-- A Format, sanitize or namespace deletion that waits for the commands accepted before its fence (R286, R288-R290): the namespaces,
whether their keys change, the nonce given to the first of them, the cause of event 0x0802, and what follows. -/
structure Erasure where
  hdr : Hdr
  nsids : List Nat
  crypto : Bool
  nonce : Nat
  cause : Nat
  delete : Bool := false
  blocks : Bool := false
  deriving DecidableEq, Repr

/-- In-flight work of the data path. -/
structure Work where
  /-- command contexts by number; next number | 06 R229 | spec none -/
  ctxs : Tbl (Option Ctx) := []
  nextCtx : Nat := 1
  /-- operations in flight by lane × 256 + tag | 03 R126 | DC none -/
  ops : Tbl (Option Op) := []
  /-- next queue entry number | 04 R145 | DC 1 -/
  nextEntry : Nat := 1
  /-- decode, cipher and parity jobs by number; next number | 04 R161, 08 R266, 05 R177 | DC none -/
  decodes : Tbl (Option DecodeJob) := []
  ciphers : Tbl (Option CipherJob) := []
  parities : Tbl (Option ParityJob) := []
  /-- read-arounds by number | 05 R187 | DC none -/
  rebuilds : Tbl (Option Rebuild) := []
  nextJob : Nat := 1
  /-- parity job granted to each engine | 05 R177, R179 | DC none -/
  parityRun : Tbl (Option Nat) := []
  /-- dirty rows, in order of first staging; next order number | 05 R178 | DC none -/
  rows : List Row := []
  nextRow : Nat := 0
  /-- zones moved to the head of the re-arm queue | 02 R89 | DC empty -/
  rearmHead : List Nat := []
  /-- Formats, sanitizes and deletions of fenced namespaces whose commands accepted before have not all ended | 08 R286 | DC empty -/
  erasures : List Erasure := []
  /-- Select All resets: the command, the zones not yet reset, the writes behind it whose completions wait | 02 R79 | DC empty -/
  selectAll : List (Hdr × List Nat × List Nat) := []
  /-- free-value draws made (the model's own counter; log entry 2) | model | DC 0 -/
  draws : Nat := 0
  deriving DecidableEq, Repr

/-- The parity of a stripe row and its epoch: while the row is in staging, the running parity (R175, R178). -/
structure RowParity where
  /-- checkpoint epoch at which the row's first unit was staged | 05 R175 | DC 0 -/
  epoch : Nat := 0
  /-- P and Q by frame index, plane × 4 + frame | 05 R174 | DC 0 -/
  p : Tbl Block := []
  q : Tbl Block := []
  deriving DecidableEq, Repr

/-- The whole block. -/
structure State where
  /-- commands waiting, first in first out | model (the block's command queue) | empty -/
  pending : List Instr := []
  /-- ordering variant, CHIP_CAPS[23:20] | 00 R1 | spec fused; DC 0x0 -/
  variant : Nat := 0
  /-- silicon stepping, CHIP_CAPS[31:24] | 00 R2 | spec fused; DC 0x11 (A1) -/
  step : Nat := 0x11
  out : Outputs := {}
  aon : Aon := {}
  evr : Recorder := {}
  regs : Regs := {}
  power : Power := {}
  bank : Bank := {}
  broker : Broker := {}
  /-- loops 0-7 | 12 R398 | spec stopped -/
  loops : Tbl Loop := []
  /-- lanes 0-511 | 03 R110 | spec PARKED -/
  lanes : Tbl Lane := []
  /-- dies by lane × 8 + die | 04 R146 | spec ABSENT -/
  dies : Tbl Die := []
  /-- LANE_DIE_CNT by lane | 04 R169 | spec 0 -/
  dieCnt : Tbl DieCnt := []
  /-- blocks 0-31 | 01 R32 | spec per register -/
  blks : Tbl Blk := []
  /-- regions 0-3 | 01 R32 | spec per register -/
  rgns : Tbl Rgn := []
  /-- stripe sets | 05 R170 | DC none formed -/
  sets : Tbl StripeSet := []
  /-- namespaces by NSID | 11 R364 | DC none -/
  nss : Tbl Ns := []
  /-- zones and reclaim units by NSID × 2^20 + index | 02 R65 | DC Empty -/
  zones : Tbl Zone := []
  /-- stored ciphertext of each written LBA by zone key × 2^20 + offset | 01 R49 | DC none written -/
  media : Tbl Block := []
  /-- parity and epoch of each stripe row by zone key × 2^20 + row | 05 R174, R175 | DC none written -/
  parity : Tbl RowParity := []
  /-- tenants by slot | 11 R361 | spec FREE -/
  tenants : Tbl Tenant := []
  /-- controllers: PCIe by tenant slot, fabric from 256 | 11 R362 | DC none enabled -/
  ctrls : Tbl Ctrl := []
  /-- submission queues by controller × 65,536 + QID | 09 R304 | DC none -/
  sqs : Tbl Sq := []
  /-- completion queues, same key | 09 R304 | DC none -/
  cqs : Tbl Cq := []
  /-- PCIe ports 0, 1 | 09 R292 | spec down -/
  links : Tbl PcieLink := []
  work : Work := {}
  tmk : Timekeeper := {}
  cph : Cipher := {}
  fab : Fabric := {}
  mem : Memory := {}
  flt : Faults := {}
  boot : BootStore := {}
  store : Store := {}
  deriving DecidableEq, Repr

/-- Why a step can stop with a fault. No command of the TZ5120 stops the machine: the block contains its own faults. -/
inductive Fault where
  /-- Never raised: no rule of the spec stops the device itself (a fault stop, R531, is a state). Safe. -/
  | unreachable
  deriving DecidableEq, Repr

/-- Why a command can be refused by the model. -/
inductive Refusal where
  /-- Raised by an arm of exec that has no meaning yet; names the command. Safe. -/
  | notModelled (mnemonic : String)
  deriving DecidableEq, Repr

/-- The machine with AON reset asserted, before any command: every register at the value its table gives for reset, the
boot store and the flash as a drive holds them before its first image is staged (log entry 1). -/
def State.reset : State := {}

end Sys2Proof.Machine
end

