-- ==== Sys2Proof/Machine/Operands.lean ====
section
/-! DEFINITION. How commands name the block's units: indices (R27), source identifiers (R28, R29, R45), functions and tenant
slots (R298), queues, and the keys under which State lists what it holds several of. -/

namespace Sys2Proof.Machine

/-- The block of a lane (*Indices*). -/
def blockOfLane (lane : Nat) : Nat := lane / 16

/-- The region of a block (*Indices*). -/
def regionOfBlock (b : Nat) : Nat := b / 8

/-- The region of a lane. -/
def regionOfLane (lane : Nat) : Nat := lane / 128

/-- The partner block that mirrors staging and lends its engine (R51). -/
def partnerBlock (b : Nat) : Nat := b ^^^ 16

/-- The partner region (R51, R261). -/
def partnerRegion (g : Nat) : Nat := g ^^^ 2

/-- The key of a die: lane × 8 + die. -/
def dieKey (lane die : Nat) : Nat := lane * 8 + die

/-- The key of an operation in flight: lane × 256 + tag (R126). -/
def opKey (lane tag : Nat) : Nat := lane * 256 + tag

/-- The key of a zone or reclaim unit: NSID × 2^20 + index. -/
def zoneKey (nsid zone : Nat) : Nat := nsid * 2 ^ 20 + zone

/-- The NSID of a zone key. -/
def nsOfKey (zk : Nat) : Nat := zk / 2 ^ 20

/-- The zone index of a zone key. -/
def zoneOfKey (zk : Nat) : Nat := zk % 2 ^ 20

/-- The key of one LBA's stored block: zone key × 2^20 + offset. -/
def mediaKey (zk off : Nat) : Nat := zk * 2 ^ 20 + off

/-- The key of a queue: controller × 65,536 + queue identifier. -/
def queueKey (ctrl qid : Nat) : Nat := ctrl * 65536 + qid

/-- Source identifier KIND, LEVEL, INDEX (R27, *Source identifier*). -/
def srcId (level kind index : Nat) : Nat := kind * 4096 + level * 1024 + index

/-- The source outside the device or not attributable (R29). -/
def srcOutside : Nat := 0xFFFF

/-- Units of *Unit kinds* (R45). -/
def srcPacer (cell : Nat) : Nat := srcId 0 0x0 cell
def srcLanePort (cell : Nat) : Nat := srcId 0 0x1 cell
def srcDieQueue (cell : Nat) : Nat := srcId 0 0x2 cell
def srcPacerMem (cell : Nat) : Nat := srcId 0 0x4 cell
def srcMarshal (b : Nat) : Nat := srcId 1 0x0 b
def srcDecoder (b : Nat) : Nat := srcId 1 0x1 b
def srcCipher (b : Nat) : Nat := srcId 1 0x2 b
def srcStaging (b : Nat) : Nat := srcId 1 0x3 b
def srcBlockCollector (b : Nat) : Nat := srcId 1 0x4 b
def srcLaneSwitch (b : Nat) : Nat := srcId 1 0x5 b
def srcLanePhy (b : Nat) : Nat := srcId 1 0x6 b
def srcSteward (g : Nat) : Nat := srcId 2 0x0 g
def srcCompress (g : Nat) : Nat := srcId 2 0x1 g
def srcKdu (g : Nat) : Nat := srcId 2 0x2 g
def srcRegionCollector (g : Nat) : Nat := srcId 2 0x4 g
def srcStarter (i : Nat) : Nat := srcId 3 0x0 i
def srcTimekeeper : Nat := srcId 3 0x1 0
def srcBroker : Nat := srcId 3 0x2 0
def srcLoopEngine : Nat := srcId 3 0x3 0
def srcParity (i : Nat) : Nat := srcId 3 0x4 i
def srcDram (c : Nat) : Nat := srcId 3 0x5 c
def srcFrontEnd (p : Nat) : Nat := srcId 3 0x6 p
def srcRdma : Nat := srcId 3 0x7 0
def srcEthPort (p : Nat) : Nat := srcId 3 0x8 p
def srcRecorder : Nat := srcId 3 0x9 0
def srcHkAdc : Nat := srcId 3 0xA 0
def srcBootStore : Nat := srcId 3 0xB 0
def srcScrubber : Nat := srcId 3 0xC 0
def srcAon : Nat := srcId 3 0xD 0
def srcChipCollector : Nat := srcId 3 0xE 0

/-- The first parameter of a record from a unit with sub-instances: the sub-instance in bits [31:24] (R46). -/
def subParam (sub p : Nat) : Nat := sub % 256 * 2 ^ 24 + p % 2 ^ 24

/-- The code of a mode (*Modes*, R422). -/
def Mode.code : Mode → Nat
  | .warmup => 0
  | .stride => 1
  | .sprint => 2
  | .lull => 3
  | .calm => 4
  | .homestretch => 5
  | .off => 0

/-- The code of a lane state (*Lane states*, R110). -/
def LaneSt.code : LaneSt → Nat
  | .parked => 0x0
  | .detect => 0x1
  | .lock => 0x2
  | .exchange => 0x3
  | .equalise => 0x4
  | .confirm => 0x5
  | .active => 0x6
  | .recovery => 0x7
  | .down => 0x8
  | .failed => 0x9
  | .held => 0xA

/-- The code of a die state (*Die states*, R146). -/
def DieSt.code : DieSt → Nat
  | .absent => 0x0
  | .idle => 0x1
  | .read => 0x2
  | .prog => 0x3
  | .erase => 0x4
  | .progSusp => 0x5
  | .eraseSusp => 0x6
  | .stalled => 0x7
  | .lost => 0x8
  | .landing => 0x9
  | .features => 0xA

/-- The rank of a class: Dash 0, Tempo 1, Distance and device work 2 (R40). -/
def Cls.rank : Cls → Nat
  | .dash => 0
  | .tempo => 1
  | .distance => 2
  | .none => 2

/-- The number of a class in records and registers. -/
def Cls.code : Cls → Nat
  | .dash => 0
  | .tempo => 1
  | .distance => 2
  | .none => 3

end Sys2Proof.Machine
end

