-- ==== Sys2Proof/Machine/RegTable.lean ====
section
/-! DEFINITION. The management window's registers (R561, R570): every register type with its place, and its writable
fields with access code (R22), reset value and the values its enumeration allows (R26). RO fields are not listed here: they
are read from the state (RegView.lean). -/

namespace Sys2Proof.Machine

/-- The register types of *Register index* (R570). A number after a name is the dword within a register of several dwords. -/
inductive Reg where
  | chipCaps
  | chipWarmup
  | chipAccessStat
  | chipAccessLast
  | chipTntReady
  | chipZonePolicy
  | chipZoneRearm
  | chipLanesetOwner
  | lanePop
  | laneLinkCfg
  | chipDieTread
  | chipDieTprog
  | chipDieTerase
  | chipDieTaux
  | chipDieSusp
  | chipDieRetry
  | chipDieOps
  | chipRaCfg
  | chipMediaCfg
  | chipPatrolStat
  | cmpCfg
  | cmpStat
  | cmpGran
  | cmpSlice
  | tntRa
  | tntRaStat
  | tmkStat
  | tmkWindow
  | tmkHostCfg
  | tmkWriteCfg
  | tmkBandCfg
  | tmkBoundA
  | tmkBoundB
  | tmkBreach
  | tmkDecline
  | tmkCtx
  | tntDash
  | cphStat
  | cphAlarmCfg
  | cphAlarmStat
  | cphEngStat
  | cphEngPartner
  | cphPageOwner
  | chipPcieCfg
  | chipPcieStat
  | chipMiCfg
  | fabMode
  | fabPortCfg
  | fabPortStat
  | fabFecCorr
  | fabFecUncorr
  | fabTransportCfg
  | fabCcCfg
  | fabCcRate
  | fabQosCfg
  | fabCtxStat
  | winCfg
  | winStat
  | winPages
  | winFaults
  | winTimeouts
  | batonCfg
  | batonValA
  | batonValB
  | batonStat
  | batonWait
  | pwrCap
  | pwrHuCap
  | pwrHuBank
  | pwrHuFlush
  | pwrHuEff
  | pwrPfdCfg
  | pwrHuStat
  | pwrHuDmax
  | pwrHuMeas
  | pwrHuLast
  | pwrFsScale
  | pwrMode
  | pwrEntryPolicy
  | pwrSprint
  | pwrWakeCfg
  | pwrWakeStat
  | pwrDomainOn
  | pwrPadLatched
  | pwrPadRelease
  | pwrRefuseLast
  | pwrEntryCnt
  | pwrEdgeLost
  | pwrRefuseRsn
  | dmcCfg
  | dmcClass
  | dmcCtrl
  | dmcStat
  | dmcErr
  | dmcFrzAddr
  | dmcRfm
  | eccCfg
  | eccStat
  | eccBist
  | bpmCfg
  | bpmStat
  | bpmPool
  | bpmMisuse
  | thmStat
  | thmTrip
  | thmHead
  | hkStat
  | thmSens
  | thmRead
  | fabPd
  | bstCfg
  | bstStat
  | bstBank
  | bstBankSvn
  | bstRoll
  | ldgStat
  | ldgSeqNew
  | ldgSeqAck
  | ldgMissed
  | chipFault
  | chipFaultCnt
  | evrHead
  | evrTail
  | evrStat
  | evrDropped
  | evrRelease
  | evrCfg
  | evrLgClear
  | chipGpioCfg
  | chipGpioData
  | chipSupplyStat
  | chipSupplyMon
  | tntState
  | tntCtx
  | tntRqp
  | tntSq
  | tntZone
  | tntStg
  | tntKeypg
  | tntPd
  | tntWin
  | tntCache
  | tntRfloor
  | tntBaton
  | tntCompat
  | tntHold
  | tntFabclass
  | tntLogstat
  | loopCfg
  | loopSp
  | loopRamp
  | loopOutLo
  | loopOutHi
  | loopIntLo
  | loopIntHi
  | loopS1
  | loopS2
  | loopS3
  | loopGust
  | loopStat
  | loopMeas
  | loopOut
  | loopSrc
  | rgnStat
  | blkLaneSwitch
  | blkDecStat
  | laneCtrl
  | laneStat
  | laneErrcnt
  | laneEq
  | laneDieState
  | laneDieCnt
  | loopGain (dword : Nat)
  | fabAddr (dword : Nat)
  | evrLg (dword : Nat)
  | evrRec (dword : Nat)
  | dmcFrzHist (channel dword : Nat)
  deriving DecidableEq, Repr

/-- The access codes of R22, RO apart. -/
inductive Access where
  | rw
  | rw1c
  | wo
  | rwl
  | rwlive
  deriving DecidableEq, Repr

/-- A writable field: bits [hi:lo], its access code and reset value; `legal` lists the ranges of values that its enumeration
allows, empty when every value is allowed (R26). -/
structure Fld where
  hi : Nat
  lo : Nat
  acc : Access
  reset : Nat
  legal : List (Nat × Nat)
  deriving DecidableEq, Repr

/-- An RW field with every value allowed. -/
def Fld.rw (hi lo reset : Nat) : Fld := ⟨hi, lo, .rw, reset, []⟩
/-- An RW1C field. -/
def Fld.rw1c (hi lo reset : Nat) : Fld := ⟨hi, lo, .rw1c, reset, []⟩
/-- A WO field. -/
def Fld.wo (hi lo reset : Nat) : Fld := ⟨hi, lo, .wo, reset, []⟩
/-- An RWL field with every value allowed. -/
def Fld.rwl (hi lo reset : Nat) : Fld := ⟨hi, lo, .rwl, reset, []⟩
/-- An RWLIVE field with every value allowed. -/
def Fld.rwlive (hi lo reset : Nat) : Fld := ⟨hi, lo, .rwlive, reset, []⟩
/-- A field whose enumeration allows only the listed ranges. -/
def Fld.among (acc : Access) (hi lo reset : Nat) (legal : List (Nat × Nat)) : Fld := ⟨hi, lo, acc, reset, legal⟩

/-- One row of the window: instance `first + i` lies at `base + stride * i`, for i below `count`. -/
structure RegRow where
  reg : Reg
  base : Nat
  stride : Nat
  count : Nat
  first : Nat
  fields : List Fld
  deriving DecidableEq, Repr

/-- Rows of the chip management space, part 1 (R570). -/
def regRows0 : List RegRow := [
  ⟨.chipCaps, 0x10, 4, 1, 0, []⟩,
  ⟨.chipWarmup, 0x20, 4, 1, 0, []⟩,
  ⟨.chipAccessStat, 0x30, 4, 1, 0, []⟩,
  ⟨.chipAccessLast, 0x34, 4, 1, 0, []⟩,
  ⟨.chipTntReady, 0x40, 4, 8, 0, []⟩,
  ⟨.chipZonePolicy, 0x200, 4, 1, 0, [.rwl 31 24 0x48, .rwl 23 16 0xA8]⟩,
  ⟨.chipZoneRearm, 0x208, 4, 1, 0, []⟩,
  ⟨.chipLanesetOwner, 0x240, 4, 28, 0, [.rwl 31 31 0x0, .rwl 15 8 0x0]⟩,
  ⟨.lanePop, 0x300, 4, 16, 0, [.rwl 31 0 0x0]⟩,
  ⟨.laneLinkCfg, 0x340, 4, 1, 0, [.rwlive 31 16 0x3C, .rwl 15 8 0x20]⟩,
  ⟨.chipDieTread, 0x400, 4, 1, 0, [.rwl 31 16 0x6E, .rwl 15 0 0x55]⟩,
  ⟨.chipDieTprog, 0x404, 4, 1, 0, [.rwl 31 16 0x12C0, .rwl 15 0 0x640]⟩,
  ⟨.chipDieTerase, 0x408, 4, 1, 0, [.rwl 31 16 0x2EE0, .rwl 15 0 0x15E]⟩,
  ⟨.chipDieTaux, 0x40C, 4, 1, 0, [.rwl 31 16 0x3E8, .rwl 15 8 0x28, .rwl 7 0 0x1]⟩,
  ⟨.chipDieSusp, 0x410, 4, 1, 0, [.rwl 31 24 0xC, .rwl 23 16 0x6, .rwl 15 12 0x4, .rwl 11 6 0x14, .rwl 5 0 0x28]⟩,
  ⟨.chipDieRetry, 0x414, 4, 1, 0, [.rwlive 31 24 0xA, .rwlive 23 20 0x7, .rwlive 19 16 0x3, .rwlive 15 15 0x1, .rwlive 14 14 0x1]⟩,
  ⟨.chipDieOps, 0x418, 4, 1, 0, [.rwl 31 24 0x0, .rwl 23 16 0x0, .rwl 15 8 0x0]⟩,
  ⟨.chipRaCfg, 0x500, 4, 1, 0, [.rwl 19 8 0x20]⟩,
  ⟨.chipMediaCfg, 0x508, 4, 1, 0, [.rwlive 31 24 0x7, .rwlive 23 16 0x3C, .rwlive 15 8 0x60, .rwlive 7 0 0x5A]⟩,
  ⟨.chipPatrolStat, 0x50C, 4, 1, 0, []⟩,
  ⟨.cmpCfg, 0x520, 4, 1, 0, [.rwlive 31 24 0x64, .rwl 23 20 0x3, .rwl 0 0 0x1]⟩,
  ⟨.cmpStat, 0x530, 4, 4, 0, []⟩,
  ⟨.cmpGran, 0x540, 4, 4, 0, []⟩,
  ⟨.cmpSlice, 0x550, 4, 4, 0, []⟩]

/-- Rows of the chip management space, part 2 (R570). -/
def regRows1 : List RegRow := [
  ⟨.tntRa, 0x600, 4, 256, 0, [.rwlive 31 16 0x0, .rwlive 15 0 0x0]⟩,
  ⟨.tntRaStat, 0xA00, 4, 256, 0, []⟩,
  ⟨.tmkStat, 0xE00, 4, 1, 0, []⟩,
  ⟨.tmkWindow, 0xE04, 4, 1, 0, [.rwlive 31 16 0xEB, .rwlive 15 0 0x1DA]⟩,
  ⟨.tmkHostCfg, 0xE08, 4, 1, 0, [.rwl 31 16 0x14, .rwl 15 0 0x14]⟩,
  ⟨.tmkWriteCfg, 0xE0C, 4, 1, 0, [.rwlive 23 16 0x5A, .rwlive 15 8 0x4B]⟩,
  ⟨.tmkBandCfg, 0xE10, 4, 4, 0, [.rwl 31 31 0x1, .rwl 4 0 0x0]⟩,
  ⟨.tmkBandCfg, 0xE20, 4, 1, 4, [.rwl 31 31 0x1, .rwl 4 0 0xA]⟩,
  ⟨.tmkBoundA, 0xE30, 4, 5, 0, []⟩,
  ⟨.tmkBoundB, 0xE50, 4, 5, 0, []⟩,
  ⟨.tmkBreach, 0xE70, 4, 3, 0, []⟩,
  ⟨.tmkDecline, 0xE80, 4, 3, 0, []⟩,
  ⟨.tmkCtx, 0xE90, 4, 1, 0, []⟩,
  ⟨.tntDash, 0x1000, 4, 256, 0, [.rwlive 31 16 0x0, .rwlive 15 0 0x0]⟩,
  ⟨.cphStat, 0x1400, 4, 1, 0, []⟩,
  ⟨.cphAlarmCfg, 0x1404, 4, 1, 0, [.rwl 20 16 0x4, .rwl 4 0 0xF]⟩,
  ⟨.cphAlarmStat, 0x1408, 4, 1, 0, []⟩,
  ⟨.cphEngStat, 0x140C, 4, 1, 0, []⟩,
  ⟨.cphEngPartner, 0x1410, 4, 1, 0, []⟩,
  ⟨.cphPageOwner, 0x1500, 4, 256, 0, []⟩,
  ⟨.chipPcieCfg, 0x1A00, 4, 1, 0, [.among .rwl 23 16 0x0 [(0, 254)], .among .rwl 11 8 0x6 [(1, 6)], .among .rwl 4 0 0x10 [(1, 2), (4, 4), (8, 8), (16, 16)]]⟩,
  ⟨.chipPcieStat, 0x1A04, 4, 2, 0, []⟩,
  ⟨.chipMiCfg, 0x1A10, 4, 1, 0, [.rwl 31 31 0x0, .rwl 30 30 0x0, .rwl 22 16 0x1D]⟩,
  ⟨.fabMode, 0x2000, 4, 1, 0, [.rwl 31 31 0x1, .rwlive 15 0 0x7D0]⟩]

/-- Rows of the chip management space, part 3 (R570). -/
def regRows2 : List RegRow := [
  ⟨.fabPortCfg, 0x2004, 4, 2, 0, [.rwl 31 31 0x1, .among .rwl 27 26 0x0 [(0, 2)], .rwl 23 12 0x0, .rwl 11 11 0x0]⟩,
  ⟨.fabPortStat, 0x200C, 4, 2, 0, []⟩,
  ⟨.fabFecCorr, 0x2014, 4, 2, 0, []⟩,
  ⟨.fabFecUncorr, 0x201C, 4, 2, 0, []⟩,
  ⟨.fabTransportCfg, 0x2024, 4, 1, 0, [.rwl 31 31 0x1, .rwl 30 30 0x1, .rwl 12 0 0x1000]⟩,
  ⟨.fabCcCfg, 0x2028, 4, 1, 0, [.rwl 31 31 0x1, .rwlive 23 16 0x14, .rwlive 15 8 0xCC, .rwlive 7 0 0x80]⟩,
  ⟨.fabCcRate, 0x202C, 4, 1, 0, [.rwlive 31 24 0xA, .rwlive 23 16 0x1, .rwlive 15 8 0x64, .rwlive 7 0 0x80]⟩,
  ⟨.fabQosCfg, 0x2030, 4, 1, 0, [.rwl 31 31 0x1, .rwl 30 30 0x1, .rwl 29 24 0x1A, .rwl 23 18 0x30, .rwl 17 15 0x3, .rwl 14 14 0x0, .rwlive 13 0 0x32]⟩,
  ⟨.fabCtxStat, 0x2034, 4, 1, 0, []⟩,
  ⟨.winCfg, 0x2040, 4, 1, 0, [.rwl 31 28 0x4]⟩,
  ⟨.winStat, 0x2044, 4, 1, 0, []⟩,
  ⟨.winPages, 0x2048, 4, 1, 0, []⟩,
  ⟨.winFaults, 0x204C, 4, 1, 0, []⟩,
  ⟨.winTimeouts, 0x2050, 4, 1, 0, []⟩,
  ⟨.batonCfg, 0x2400, 4, 1, 0, [.rwl 31 16 0x800, .rwl 15 0 0x140]⟩,
  ⟨.batonValA, 0x2404, 4, 1, 0, [.rwl 31 24 0x5, .rwl 23 16 0x4, .rwl 15 8 0x14, .rwl 7 0 0x2]⟩,
  ⟨.batonValB, 0x2408, 4, 1, 0, [.rwlive 31 24 0x10, .rwl 23 16 0x50, .rwl 9 0 0xF0]⟩,
  ⟨.batonStat, 0x240C, 4, 1, 0, []⟩,
  ⟨.batonWait, 0x2410, 4, 1, 0, []⟩,
  ⟨.pwrCap, 0x2A00, 4, 1, 0, [.rwl 29 20 0x1A4, .rwl 19 10 0x140, .rwl 9 0 0xC8]⟩,
  ⟨.pwrHuCap, 0x2A04, 4, 1, 0, [.rwl 31 16 0x4650, .rwl 15 0 0xC8]⟩,
  ⟨.pwrHuBank, 0x2A08, 4, 1, 0, [.rwl 31 16 0xFA0, .rwl 15 0 0x2710]⟩,
  ⟨.pwrHuFlush, 0x2A0C, 4, 1, 0, [.rwl 31 16 0x2328, .rwl 15 0 0x7D0]⟩,
  ⟨.pwrHuEff, 0x2A10, 4, 1, 0, [.rwl 31 24 0x5A, .rwl 23 16 0x50]⟩]

/-- Rows of the chip management space, part 4 (R570). -/
def regRows3 : List RegRow := [
  ⟨.pwrPfdCfg, 0x2A14, 4, 1, 0, [.rwl 31 20 0x395, .rwl 19 8 0x36B]⟩,
  ⟨.pwrHuStat, 0x2A18, 4, 1, 0, []⟩,
  ⟨.pwrHuDmax, 0x2A1C, 4, 1, 0, []⟩,
  ⟨.pwrHuMeas, 0x2A20, 4, 1, 0, []⟩,
  ⟨.pwrHuLast, 0x2A24, 4, 1, 0, []⟩,
  ⟨.pwrFsScale, 0x2A30, 4, 1, 0, [.rwl 31 16 0x3A98]⟩,
  ⟨.pwrFsScale, 0x2A34, 4, 1, 1, [.rwl 31 16 0x1F40]⟩,
  ⟨.pwrFsScale, 0x2A38, 4, 1, 2, [.rwl 31 16 0x9C40]⟩,
  ⟨.pwrFsScale, 0x2A3C, 4, 1, 3, [.rwl 31 16 0xBB8]⟩,
  ⟨.pwrMode, 0x2C00, 4, 1, 0, []⟩,
  ⟨.pwrEntryPolicy, 0x2C04, 4, 1, 0, [.rwlive 0 0 0x1]⟩,
  ⟨.pwrSprint, 0x2C08, 4, 1, 0, [.rw 31 31 0x0, .rwl 30 30 0x0, .rw 15 0 0x0]⟩,
  ⟨.pwrWakeCfg, 0x2C0C, 4, 1, 0, [.rwlive 23 8 0x18, .rwl 5 5 0x0, .rwl 4 4 0x0, .rwl 3 3 0x1]⟩,
  ⟨.pwrWakeStat, 0x2C10, 4, 1, 0, []⟩,
  ⟨.pwrDomainOn, 0x2C20, 4, 2, 0, []⟩,
  ⟨.pwrPadLatched, 0x2C28, 4, 2, 0, []⟩,
  ⟨.pwrPadRelease, 0x2C30, 4, 2, 0, [.wo 31 0 0x0]⟩,
  ⟨.pwrRefuseLast, 0x2C38, 4, 1, 0, []⟩,
  ⟨.pwrEntryCnt, 0x2C3C, 4, 1, 0, []⟩,
  ⟨.pwrEdgeLost, 0x2C40, 4, 1, 0, []⟩,
  ⟨.pwrRefuseRsn, 0x2C44, 4, 7, 0, []⟩,
  ⟨.dmcCfg, 0x3000, 4, 1, 0, [.among .rwl 31 30 0x2 [(1, 2)], .rwl 29 29 0x0, .rwl 28 28 0x0, .rwlive 23 16 0x18, .rwlive 15 8 0x4]⟩,
  ⟨.dmcClass, 0x3004, 4, 10, 0, []⟩,
  ⟨.dmcCtrl, 0x3040, 4, 2, 0, [.wo 31 31 0x0, .wo 30 30 0x0]⟩]

/-- Rows of the chip management space, part 5 (R570). -/
def regRows4 : List RegRow := [
  ⟨.dmcStat, 0x3048, 4, 2, 0, []⟩,
  ⟨.dmcErr, 0x3050, 4, 2, 0, []⟩,
  ⟨.dmcFrzAddr, 0x3058, 4, 2, 0, []⟩,
  ⟨.dmcRfm, 0x3060, 4, 2, 0, []⟩,
  ⟨.eccCfg, 0x3200, 4, 1, 0, [.rwlive 31 24 0x19, .rwlive 23 16 0x64, .rwlive 15 8 0x4]⟩,
  ⟨.eccStat, 0x3204, 4, 1, 0, []⟩,
  ⟨.eccBist, 0x3208, 4, 1, 0, []⟩,
  ⟨.bpmCfg, 0x3300, 4, 1, 0, [.rwlive 31 24 0xA, .rwl 23 16 0x4]⟩,
  ⟨.bpmStat, 0x3304, 4, 1, 0, []⟩,
  ⟨.bpmPool, 0x3314, 4, 7, 0, []⟩,
  ⟨.bpmMisuse, 0x3380, 4, 32, 0, []⟩,
  ⟨.thmStat, 0x3C00, 4, 1, 0, []⟩,
  ⟨.thmTrip, 0x3C04, 4, 1, 0, [.rwl 31 24 0x6E, .rwl 23 16 0x64]⟩,
  ⟨.thmHead, 0x3C08, 4, 1, 0, []⟩,
  ⟨.hkStat, 0x3C0C, 4, 1, 0, []⟩,
  ⟨.thmSens, 0x3D00, 4, 24, 0, [.rwl 31 31 0x0, .rwl 30 30 0x0, .rwl 29 29 0x0, .rwl 28 21 0x55, .rwl 20 12 0x0, .rwl 11 0 0x0]⟩,
  ⟨.thmSens, 0x3D60, 4, 32, 24, [.rwl 31 31 0x1, .rwl 30 30 0x1, .rwl 29 29 0x1, .rwl 28 21 0x64, .rwl 20 12 0x0]⟩,
  ⟨.thmRead, 0x3E00, 4, 56, 0, []⟩,
  ⟨.fabPd, 0x4000, 4, 4096, 0, [.rw 31 31 0x0, .rw 30 29 0x0, .rw 15 0 0x0]⟩,
  ⟨.bstCfg, 0x10000, 4, 1, 0, [.rwl 31 24 0x10, .rwl 23 16 0xA, .rwl 15 0 0x12C]⟩,
  ⟨.bstStat, 0x10004, 4, 1, 0, []⟩,
  ⟨.bstBank, 0x10008, 4, 2, 0, []⟩,
  ⟨.bstBankSvn, 0x10010, 4, 2, 0, []⟩,
  ⟨.bstRoll, 0x10018, 4, 1, 0, []⟩]

/-- Rows of the chip management space, part 6 (R570). -/
def regRows5 : List RegRow := [
  ⟨.ldgStat, 0x10100, 4, 1, 0, []⟩,
  ⟨.ldgSeqNew, 0x10104, 4, 1, 0, []⟩,
  ⟨.ldgSeqAck, 0x10108, 4, 1, 0, []⟩,
  ⟨.ldgMissed, 0x1010C, 4, 1, 0, []⟩,
  ⟨.chipFault, 0x10200, 4, 1, 0, []⟩,
  ⟨.chipFaultCnt, 0x10204, 4, 1, 0, []⟩,
  ⟨.evrHead, 0x10300, 4, 1, 0, []⟩,
  ⟨.evrTail, 0x10304, 4, 1, 0, []⟩,
  ⟨.evrStat, 0x10308, 4, 1, 0, []⟩,
  ⟨.evrDropped, 0x1030C, 4, 1, 0, []⟩,
  ⟨.evrRelease, 0x10310, 4, 1, 0, [.wo 31 0 0x0]⟩,
  ⟨.evrCfg, 0x10314, 4, 1, 0, [.among .rwl 31 30 0x1 [(0, 2)]]⟩,
  ⟨.evrLgClear, 0x10318, 4, 1, 0, [.wo 0 0 0x0]⟩,
  ⟨.chipGpioCfg, 0x10400, 4, 16, 0, [.among .rwl 7 4 0x0 [(0, 3)], .rwl 3 3 0x0]⟩,
  ⟨.chipGpioData, 0x10440, 4, 1, 0, [.rw 31 16 0x0]⟩,
  ⟨.chipSupplyStat, 0x10444, 4, 1, 0, []⟩,
  ⟨.chipSupplyMon, 0x10480, 4, 16, 0, []⟩]

/-- FAB_ADDR: four ADDRESS dwords and the fifth, VALID and GID, of each stride of 0x20 (*FAB_ADDR*, R329). -/
def regRowsFabAddr : List RegRow := (List.range 5).map fun j =>
  ⟨.fabAddr j, 0x8000 + 4 * j, 0x20, 512, 0, if j < 4 then [.rw 31 0 0] else [.rw 31 31 0]⟩

/-- The TNT block (*TNT block, tenant t*, R361). -/
def regRowsTenant : List RegRow := [
  ⟨.tntState, 0xC000, 0x40, 256, 0, []⟩,
  ⟨.tntCtx, 0xC004, 0x40, 256, 0, []⟩,
  ⟨.tntRqp, 0xC008, 0x40, 256, 0, []⟩,
  ⟨.tntSq, 0xC00C, 0x40, 256, 0, []⟩,
  ⟨.tntZone, 0xC010, 0x40, 256, 0, []⟩,
  ⟨.tntStg, 0xC014, 0x40, 256, 0, []⟩,
  ⟨.tntKeypg, 0xC018, 0x40, 256, 0, []⟩,
  ⟨.tntPd, 0xC01C, 0x40, 256, 0, []⟩,
  ⟨.tntWin, 0xC020, 0x40, 256, 0, []⟩,
  ⟨.tntCache, 0xC024, 0x40, 256, 0, []⟩,
  ⟨.tntRfloor, 0xC028, 0x40, 256, 0, []⟩,
  ⟨.tntBaton, 0xC02C, 0x40, 256, 0, [.rwlive 23 16 1]⟩,
  ⟨.tntCompat, 0xC030, 0x40, 256, 0, [.rwlive 31 16 0, .rwlive 15 8 0, .rwlive 7 0 1]⟩,
  ⟨.tntHold, 0xC034, 0x40, 256, 0, [.rwlive 15 0 0x1F4]⟩,
  ⟨.tntFabclass, 0xC038, 0x40, 256, 0, [.rwlive 31 16 0, .rwlive 15 0 0]⟩,
  ⟨.tntLogstat, 0xC03C, 0x40, 256, 0, []⟩]

/-- The block of loop k (*Loop block, loop k*). `fixed` is true for loops 0 to 3, whose SRC, DEST and SCHED are read-only;
`spLive` for the loops whose LOOP_SP can be written; `period`, `sp`, `ramp`, `lo` and `hi` are the reset values of *Fixed loops*
(the limits as 32-bit words). -/
def regRowsLoop (k : Nat) (fixed spLive : Bool) (period sp ramp lo hi : Nat) : List RegRow :=
  let b := 0x2600 + 0x80 * k
  [⟨.loopCfg, b, 4, 1, k,
      [.rwl 31 31 0, .rwlive 30 30 0] ++
      (if fixed then [] else [.rwl 29 27 0, .among .rwl 26 24 4 [(0, 5)], .rwl 23 22 0]) ++
      [.rwlive 21 18 4, .rwl 13 0 period]⟩,
   ⟨.loopSp, b + 0x04, 4, 1, k, if spLive then [.rwlive 31 0 sp] else []⟩,
   ⟨.loopRamp, b + 0x08, 4, 1, k, [.rwlive 31 0 ramp]⟩,
   ⟨.loopOutLo, b + 0x0C, 4, 1, k, [.rwlive 31 0 lo]⟩,
   ⟨.loopOutHi, b + 0x10, 4, 1, k, [.rwlive 31 0 hi]⟩,
   ⟨.loopIntLo, b + 0x14, 4, 1, k, [.rwlive 31 0 lo]⟩,
   ⟨.loopIntHi, b + 0x18, 4, 1, k, [.rwlive 31 0 hi]⟩,
   ⟨.loopS1, b + 0x1C, 4, 1, k, [.rwlive 31 0 0x7FFFFFFF]⟩,
   ⟨.loopS2, b + 0x20, 4, 1, k, [.rwlive 31 0 0x7FFFFFFF]⟩,
   ⟨.loopS3, b + 0x24, 4, 1, k, [.rwlive 31 0 0x7FFFFFFF]⟩,
   ⟨.loopGust, b + 0x28, 4, 1, k, [.rwlive 31 24 0x20, .rwlive 23 16 0x08, .rwlive 15 0 0x64]⟩,
   ⟨.loopStat, b + 0x2C, 4, 1, k, [.rw1c 31 31 0]⟩,
   ⟨.loopMeas, b + 0x30, 4, 1, k, []⟩,
   ⟨.loopOut, b + 0x34, 4, 1, k, []⟩,
   ⟨.loopSrc, b + 0x38, 4, 1, k, [.rwl 7 7 0, .among .rwl 5 0 0 [(0, 55)]]⟩] ++
  (List.range 15).map fun j => ⟨.loopGain j, b + 0x40 + 4 * j, 4, 1, k, [.rwlive 31 0 0]⟩

/-- The eight loop blocks with the reset values of *Fixed loops* and R404. -/
def regRowsLoops : List RegRow :=
  regRowsLoop 0 true false 100 0 50 400 20000 ++ regRowsLoop 1 true false 20 0 0 0 65535 ++
  regRowsLoop 2 true false 1000 0 0 0 400 ++ regRowsLoop 3 true true 10000 5000 0 10000 0x7FFFFFFF ++
  regRowsLoop 4 false true 1000 0 0 0 0 ++ regRowsLoop 5 false true 1000 0 0 0 0 ++
  regRowsLoop 6 false true 1000 0 0 0 0 ++ regRowsLoop 7 false true 1000 0 0 0 0

/-- Registers of several dwords: DMC_FRZ_HIST (R456), EVR_LG and the EVR_REC window (R536). -/
def regRowsWide : List RegRow :=
  (List.range 4).map (fun j => ⟨.dmcFrzHist (j / 2) (j % 2), 0x3400 + 0x400 * (j / 2) + 4 * (j % 2), 8, 128, 0, []⟩) ++
  (List.range 8).map (fun j => ⟨.evrLg j, 0x10500 + 4 * j, 32, 8, 0, []⟩) ++
  (List.range 8).map (fun j => ⟨.evrRec j, 0x200000 + 4 * j, 32, 65536, 0, []⟩)

/-- Every row of the chip management space. -/
def regRowsChip : List RegRow :=
  regRows0 ++ regRows1 ++ regRows2 ++ regRows3 ++ regRows4 ++ regRows5 ++ regRowsFabAddr ++ regRowsTenant ++ regRowsLoops ++ regRowsWide

/-- The writable fields of LANE_EQ[n]: the bridge and near presets of bands 4 to 0 (R112). -/
def laneEqFields : List Fld :=
  [.rwl 29 27 3, .rwl 26 24 3, .rwl 23 21 3, .rwl 20 18 3, .rwl 17 15 2, .rwl 14 12 2, .rwl 11 9 2, .rwl 8 6 2,
   .rwl 5 3 1, .rwl 2 0 1]

/-- What a window offset names. -/
inductive Loc where
  | reg (r : Reg) (i : Nat) (fields : List Fld)
  | hole
  | unimplemented
  deriving DecidableEq, Repr

/-- The row that holds chip-space offset `o`. -/
def findRow (o : Nat) : List RegRow → Loc
  | [] => .unimplemented
  | r :: rs =>
    if r.base ≤ o ∧ (o - r.base) % r.stride = 0 ∧ (o - r.base) / r.stride < r.count
    then .reg r.reg (r.first + (o - r.base) / r.stride) r.fields
    else findRow o rs

/-- The reserved dwords inside the strides of loop blocks and FAB_ADDR (R565). -/
def chipHole (o : Nat) : Bool :=
  (decide (0x2600 ≤ o ∧ o < 0x2A00) && (o % 0x80 == 0x3C || o % 0x80 == 0x7C)) ||
  (decide (0x8000 ≤ o ∧ o < 0xC000) && decide (0x14 ≤ o % 0x20))

/-- The register of block space `b` at inner offset `o` (R561). -/
def locateBlock (b o : Nat) : Loc :=
  if o = 0x100 then .reg .blkLaneSwitch b []
  else if o = 0x104 then .reg .blkDecStat b []
  else if 0x1000 ≤ o ∧ o < 0x1400 then
    let n := 16 * b + (o - 0x1000) / 0x40
    match (o - 0x1000) % 0x40 with
    | 0x00 => .reg .laneCtrl n [.wo 31 31 0]
    | 0x04 => .reg .laneStat n []
    | 0x08 => .reg .laneErrcnt n []
    | 0x0C => .reg .laneEq n laneEqFields
    | 0x10 => .reg .laneDieState n []
    | 0x14 => .reg .laneDieCnt n []
    | _ => .hole
  else .unimplemented

/-- What window offset `o`, a multiple of 4, names (R561, R565). -/
def locate (o : Nat) : Loc :=
  if o < 0x400000 then if chipHole o then .hole else findRow o regRowsChip
  else if 0x800000 ≤ o ∧ o < 0xC00000 then
    if o % 0x100000 = 0 then .reg .rgnStat ((o - 0x800000) / 0x100000) [] else .unimplemented
  else if 0x1000000 ≤ o ∧ o < 0x3000000 then locateBlock ((o - 0x1000000) / 0x100000) (o % 0x100000)
  else .unimplemented

/-- The window offset of instance `i` of `r` in a list of rows. -/
def offsetIn (r : Reg) (i : Nat) : List RegRow → Nat
  | [] => 0
  | w :: ws =>
    if w.reg = r ∧ w.first ≤ i ∧ i < w.first + w.count then w.base + w.stride * (i - w.first) else offsetIn r i ws

/-- The window offset of lane offset `o` of lane `n` (R561). -/
def laneOffset (n o : Nat) : Nat := 0x1000000 + 0x100000 * (n / 16) + 0x1000 + 0x40 * (n % 16) + o

/-- The window offset of a register instance (R561, R570). -/
def Reg.offset (r : Reg) (i : Nat) : Nat :=
  match r with
  | .rgnStat => 0x800000 + 0x100000 * i
  | .blkLaneSwitch => 0x1000000 + 0x100000 * i + 0x100
  | .blkDecStat => 0x1000000 + 0x100000 * i + 0x104
  | .laneCtrl => laneOffset i 0x00
  | .laneStat => laneOffset i 0x04
  | .laneErrcnt => laneOffset i 0x08
  | .laneEq => laneOffset i 0x0C
  | .laneDieState => laneOffset i 0x10
  | .laneDieCnt => laneOffset i 0x14
  | r => offsetIn r i regRowsChip

/-- The word the writable fields take at chip domain reset (R569). -/
def resetOf (fields : List Fld) : Nat :=
  match fields with
  | [] => 0
  | f :: fs => f.reset * 2 ^ f.lo + resetOf fs

/-- The reset word of the register at a window offset. -/
def resetWord (o : Nat) : Word :=
  match locate o with
  | .reg _ _ fs => BitVec.ofNat 32 (resetOf fs)
  | _ => 0

/-- The unit that a register belongs to and whose absence makes it read 0 and ignore writes (R4, R7, R8): the FAB_ and WIN_
rows go with the Ethernet ports, the CMP_ rows with the compression engines. -/
def Reg.isFabric (r : Reg) : Bool :=
  match r with
  | .fabMode | .fabPortCfg | .fabPortStat | .fabFecCorr | .fabFecUncorr | .fabTransportCfg | .fabCcCfg | .fabCcRate
  | .fabQosCfg | .fabCtxStat | .winCfg | .winStat | .winPages | .winFaults | .winTimeouts | .fabPd | .fabAddr _ => true
  | _ => false

/-- The CMP_ registers (R8). -/
def Reg.isCompression (r : Reg) : Bool :=
  match r with
  | .cmpCfg | .cmpStat | .cmpGran | .cmpSlice => true
  | _ => false

end Sys2Proof.Machine
end

