-- ==== Sys2Proof/Machine/Tbl.lean ====
section
/-! DEFINITION. The numbered tables that hold every repeated unit of the block: one look-up and one store, in one
canonical form (numbers strictly rising, no entry equal to the reset contents), so that equal contents are equal data. -/

namespace Sys2Proof

variable {α : Type}

/-- The contents of number `n`; an unlisted number holds the reset contents `d`. -/
def Tbl.look (d : α) : Tbl α → Nat → α
  | [], _ => d
  | (k, v) :: t, n => if k = n then v else Tbl.look d t n

/-- The table without number `n`. -/
def Tbl.drop : Tbl α → Nat → Tbl α
  | [], _ => []
  | (k, v) :: t, n => if k = n then Tbl.drop t n else (k, v) :: Tbl.drop t n

/-- `(n, v)` set before the first greater number. -/
def Tbl.insert : Tbl α → Nat → α → Tbl α
  | [], n, v => [(n, v)]
  | (k, w) :: t, n, v => if n < k then (n, v) :: (k, w) :: t else (k, w) :: Tbl.insert t n v

/-- Number `n` given contents `v`; storing the reset contents unlists the number. -/
def Tbl.put [DecidableEq α] (d : α) (t : Tbl α) (n : Nat) (v : α) : Tbl α :=
  if v = d then Tbl.drop t n else Tbl.insert (Tbl.drop t n) n v

/-- The canonical form: every number is above the one before it, and no contents equal `d`. -/
def Tbl.wfFrom [DecidableEq α] (d : α) : Nat → Tbl α → Bool
  | _, [] => true
  | lo, (k, v) :: t => decide (lo ≤ k) && decide (v ≠ d) && Tbl.wfFrom d (k + 1) t

/-- The canonical form of a whole table. -/
def Tbl.wf [DecidableEq α] (d : α) (t : Tbl α) : Bool := Tbl.wfFrom d 0 t

/-- The numbers whose listed contents satisfy `p`, ascending. -/
def Tbl.numbers (p : α → Bool) : Tbl α → List Nat
  | [] => []
  | (k, v) :: t => if p v then k :: Tbl.numbers p t else Tbl.numbers p t

/-- How many listed contents satisfy `p`. -/
def Tbl.count (p : α → Bool) (t : Tbl α) : Nat := (Tbl.numbers p t).length

/-- `f` applied to the contents of every listed number, dropping those that become `d`. -/
def Tbl.mapAll [DecidableEq α] (d : α) (f : Nat → α → α) : Tbl α → Tbl α
  | [] => []
  | (k, v) :: t => if f k v = d then Tbl.mapAll d f t else (k, f k v) :: Tbl.mapAll d f t

/-- The sum of `f` over the listed contents. -/
def Tbl.sum (f : α → Nat) : Tbl α → Nat
  | [] => 0
  | (_, v) :: t => f v + Tbl.sum f t

end Sys2Proof
end

