-- ==== Sys2Proof/Machine/Ops.lean ====
section
/-! DEFINITION. The named operations over State that every meaning is written with: reading and writing one numbered unit,
reading a configuration field in force, raising an event record (R533-R535), posting a completion, and the clock. -/

namespace Sys2Proof.Machine

/-- `f` applied to the state's `aon`. -/
def State.onAon (s : State) (f : Aon → Aon) : State := { s with aon := f s.aon }
/-- `f` applied to the state's `evr`. -/
def State.onEvr (s : State) (f : Recorder → Recorder) : State := { s with evr := f s.evr }
/-- `f` applied to the state's `regs`. -/
def State.onRegs (s : State) (f : Regs → Regs) : State := { s with regs := f s.regs }
/-- `f` applied to the state's `power`. -/
def State.onPower (s : State) (f : Power → Power) : State := { s with power := f s.power }
/-- `f` applied to the state's `bank`. -/
def State.onBank (s : State) (f : Bank → Bank) : State := { s with bank := f s.bank }
/-- `f` applied to the state's `broker`. -/
def State.onBroker (s : State) (f : Broker → Broker) : State := { s with broker := f s.broker }
/-- `f` applied to the state's `work`. -/
def State.onWork (s : State) (f : Work → Work) : State := { s with work := f s.work }
/-- `f` applied to the state's `tmk`. -/
def State.onTmk (s : State) (f : Timekeeper → Timekeeper) : State := { s with tmk := f s.tmk }
/-- `f` applied to the state's `cph`. -/
def State.onCph (s : State) (f : Cipher → Cipher) : State := { s with cph := f s.cph }
/-- `f` applied to the state's `fab`. -/
def State.onFab (s : State) (f : Fabric → Fabric) : State := { s with fab := f s.fab }
/-- `f` applied to the state's `mem`. -/
def State.onMem (s : State) (f : Memory → Memory) : State := { s with mem := f s.mem }
/-- `f` applied to the state's `flt`. -/
def State.onFlt (s : State) (f : Faults → Faults) : State := { s with flt := f s.flt }
/-- `f` applied to the state's `boot`. -/
def State.onBoot (s : State) (f : BootStore → BootStore) : State := { s with boot := f s.boot }
/-- `f` applied to the state's `store`. -/
def State.onStore (s : State) (f : Store → Store) : State := { s with store := f s.store }
/-- `f` applied to the state's `out`. -/
def State.onOut (s : State) (f : Outputs → Outputs) : State := { s with out := f s.out }

/-- Entry `n` of `loops`. -/
def State.loop (s : State) (n : Nat) : Loop := Tbl.look {} s.loops n
/-- Entry `n` of `loops` replaced by `v`. -/
def State.setLoop (s : State) (n : Nat) (v : Loop) : State := { s with loops := Tbl.put {} s.loops n v }
/-- `f` applied to entry `n` of `loops`. -/
def State.updLoop (s : State) (n : Nat) (f : Loop → Loop) : State := s.setLoop n (f (s.loop n))
/-- Entry `n` of `lanes`. -/
def State.lane (s : State) (n : Nat) : Lane := Tbl.look {} s.lanes n
/-- Entry `n` of `lanes` replaced by `v`. -/
def State.setLane (s : State) (n : Nat) (v : Lane) : State := { s with lanes := Tbl.put {} s.lanes n v }
/-- `f` applied to entry `n` of `lanes`. -/
def State.updLane (s : State) (n : Nat) (f : Lane → Lane) : State := s.setLane n (f (s.lane n))
/-- Entry `n` of `dies`. -/
def State.die (s : State) (n : Nat) : Die := Tbl.look {} s.dies n
/-- Entry `n` of `dies` replaced by `v`. -/
def State.setDie (s : State) (n : Nat) (v : Die) : State := { s with dies := Tbl.put {} s.dies n v }
/-- `f` applied to entry `n` of `dies`. -/
def State.updDie (s : State) (n : Nat) (f : Die → Die) : State := s.setDie n (f (s.die n))
/-- Entry `n` of `dieCnt`. -/
def State.cntOf (s : State) (n : Nat) : DieCnt := Tbl.look {} s.dieCnt n
/-- Entry `n` of `dieCnt` replaced by `v`. -/
def State.setCntOf (s : State) (n : Nat) (v : DieCnt) : State := { s with dieCnt := Tbl.put {} s.dieCnt n v }
/-- `f` applied to entry `n` of `dieCnt`. -/
def State.updCntOf (s : State) (n : Nat) (f : DieCnt → DieCnt) : State := s.setCntOf n (f (s.cntOf n))
/-- Entry `n` of `blks`. -/
def State.blk (s : State) (n : Nat) : Blk := Tbl.look {} s.blks n
/-- Entry `n` of `blks` replaced by `v`. -/
def State.setBlk (s : State) (n : Nat) (v : Blk) : State := { s with blks := Tbl.put {} s.blks n v }
/-- `f` applied to entry `n` of `blks`. -/
def State.updBlk (s : State) (n : Nat) (f : Blk → Blk) : State := s.setBlk n (f (s.blk n))
/-- Entry `n` of `rgns`. -/
def State.rgn (s : State) (n : Nat) : Rgn := Tbl.look {} s.rgns n
/-- Entry `n` of `rgns` replaced by `v`. -/
def State.setRgn (s : State) (n : Nat) (v : Rgn) : State := { s with rgns := Tbl.put {} s.rgns n v }
/-- `f` applied to entry `n` of `rgns`. -/
def State.updRgn (s : State) (n : Nat) (f : Rgn → Rgn) : State := s.setRgn n (f (s.rgn n))
/-- Entry `n` of `sets`. -/
def State.stripe (s : State) (n : Nat) : StripeSet := Tbl.look {} s.sets n
/-- Entry `n` of `sets` replaced by `v`. -/
def State.setStripe (s : State) (n : Nat) (v : StripeSet) : State := { s with sets := Tbl.put {} s.sets n v }
/-- `f` applied to entry `n` of `sets`. -/
def State.updStripe (s : State) (n : Nat) (f : StripeSet → StripeSet) : State := s.setStripe n (f (s.stripe n))
/-- Entry `n` of `nss`. -/
def State.ns (s : State) (n : Nat) : Ns := Tbl.look {} s.nss n
/-- Entry `n` of `nss` replaced by `v`. -/
def State.setNs (s : State) (n : Nat) (v : Ns) : State := { s with nss := Tbl.put {} s.nss n v }
/-- `f` applied to entry `n` of `nss`. -/
def State.updNs (s : State) (n : Nat) (f : Ns → Ns) : State := s.setNs n (f (s.ns n))
/-- Entry `n` of `zones`. -/
def State.zone (s : State) (n : Nat) : Zone := Tbl.look {} s.zones n
/-- Entry `n` of `zones` replaced by `v`. -/
def State.setZone (s : State) (n : Nat) (v : Zone) : State := { s with zones := Tbl.put {} s.zones n v }
/-- `f` applied to entry `n` of `zones`. -/
def State.updZone (s : State) (n : Nat) (f : Zone → Zone) : State := s.setZone n (f (s.zone n))
/-- Entry `n` of `tenants`. -/
def State.tenant (s : State) (n : Nat) : Tenant := Tbl.look {} s.tenants n
/-- Entry `n` of `tenants` replaced by `v`. -/
def State.setTenant (s : State) (n : Nat) (v : Tenant) : State := { s with tenants := Tbl.put {} s.tenants n v }
/-- `f` applied to entry `n` of `tenants`. -/
def State.updTenant (s : State) (n : Nat) (f : Tenant → Tenant) : State := s.setTenant n (f (s.tenant n))
/-- Entry `n` of `ctrls`. -/
def State.ctrl (s : State) (n : Nat) : Ctrl := Tbl.look {} s.ctrls n
/-- Entry `n` of `ctrls` replaced by `v`. -/
def State.setCtrl (s : State) (n : Nat) (v : Ctrl) : State := { s with ctrls := Tbl.put {} s.ctrls n v }
/-- `f` applied to entry `n` of `ctrls`. -/
def State.updCtrl (s : State) (n : Nat) (f : Ctrl → Ctrl) : State := s.setCtrl n (f (s.ctrl n))
/-- Entry `n` of `sqs`. -/
def State.sq (s : State) (n : Nat) : Sq := Tbl.look {} s.sqs n
/-- Entry `n` of `sqs` replaced by `v`. -/
def State.setSq (s : State) (n : Nat) (v : Sq) : State := { s with sqs := Tbl.put {} s.sqs n v }
/-- `f` applied to entry `n` of `sqs`. -/
def State.updSq (s : State) (n : Nat) (f : Sq → Sq) : State := s.setSq n (f (s.sq n))
/-- Entry `n` of `cqs`. -/
def State.cq (s : State) (n : Nat) : Cq := Tbl.look {} s.cqs n
/-- Entry `n` of `cqs` replaced by `v`. -/
def State.setCq (s : State) (n : Nat) (v : Cq) : State := { s with cqs := Tbl.put {} s.cqs n v }
/-- `f` applied to entry `n` of `cqs`. -/
def State.updCq (s : State) (n : Nat) (f : Cq → Cq) : State := s.setCq n (f (s.cq n))
/-- Entry `n` of `links`. -/
def State.link (s : State) (n : Nat) : PcieLink := Tbl.look {} s.links n
/-- Entry `n` of `links` replaced by `v`. -/
def State.setLink (s : State) (n : Nat) (v : PcieLink) : State := { s with links := Tbl.put {} s.links n v }
/-- `f` applied to entry `n` of `links`. -/
def State.updLink (s : State) (n : Nat) (f : PcieLink → PcieLink) : State := s.setLink n (f (s.link n))
/-- Entry `n` of `fab.conns`. -/
def State.conn (s : State) (n : Nat) : Conn := Tbl.look {} s.fab.conns n
/-- Entry `n` of `fab.conns` replaced by `v`. -/
def State.setConn (s : State) (n : Nat) (v : Conn) : State :=
  s.onFab fun x => { x with conns := Tbl.put {} x.conns n v }
/-- `f` applied to entry `n` of `fab.conns`. -/
def State.updConn (s : State) (n : Nat) (f : Conn → Conn) : State := s.setConn n (f (s.conn n))
/-- Entry `n` of `fab.windows`. -/
def State.window (s : State) (n : Nat) : Window := Tbl.look {} s.fab.windows n
/-- Entry `n` of `fab.windows` replaced by `v`. -/
def State.setWindow (s : State) (n : Nat) (v : Window) : State :=
  s.onFab fun x => { x with windows := Tbl.put {} x.windows n v }
/-- `f` applied to entry `n` of `fab.windows`. -/
def State.updWindow (s : State) (n : Nat) (f : Window → Window) : State := s.setWindow n (f (s.window n))
/-- Entry `n` of `fab.ports`. -/
def State.port (s : State) (n : Nat) : EthPort := Tbl.look {} s.fab.ports n
/-- Entry `n` of `fab.ports` replaced by `v`. -/
def State.setPort (s : State) (n : Nat) (v : EthPort) : State :=
  s.onFab fun x => { x with ports := Tbl.put {} x.ports n v }
/-- `f` applied to entry `n` of `fab.ports`. -/
def State.updPort (s : State) (n : Nat) (f : EthPort → EthPort) : State := s.setPort n (f (s.port n))
/-- Entry `n` of `mem.chans`. -/
def State.chan (s : State) (n : Nat) : Chan := Tbl.look {} s.mem.chans n
/-- Entry `n` of `mem.chans` replaced by `v`. -/
def State.setChan (s : State) (n : Nat) (v : Chan) : State :=
  s.onMem fun x => { x with chans := Tbl.put {} x.chans n v }
/-- `f` applied to entry `n` of `mem.chans`. -/
def State.updChan (s : State) (n : Nat) (f : Chan → Chan) : State := s.setChan n (f (s.chan n))
/-- Entry `n` of `mem.bufs`. -/
def State.buf (s : State) (n : Nat) : Buf := Tbl.look {} s.mem.bufs n
/-- Entry `n` of `mem.bufs` replaced by `v`. -/
def State.setBuf (s : State) (n : Nat) (v : Buf) : State :=
  s.onMem fun x => { x with bufs := Tbl.put {} x.bufs n v }
/-- `f` applied to entry `n` of `mem.bufs`. -/
def State.updBuf (s : State) (n : Nat) (f : Buf → Buf) : State := s.setBuf n (f (s.buf n))
/-- Entry `n` of `work.ctxs`, if one is held. -/
def State.ctxAt (s : State) (n : Nat) : Option Ctx := Tbl.look none s.work.ctxs n
/-- Entry `n` of `work.ctxs` set, or cleared by none. -/
def State.setCtx (s : State) (n : Nat) (v : Option Ctx) : State :=
  s.onWork fun x => { x with ctxs := Tbl.put none x.ctxs n v }
/-- Entry `n` of `work.ops`, if one is held. -/
def State.opAt (s : State) (n : Nat) : Option Op := Tbl.look none s.work.ops n
/-- Entry `n` of `work.ops` set, or cleared by none. -/
def State.setOp (s : State) (n : Nat) (v : Option Op) : State :=
  s.onWork fun x => { x with ops := Tbl.put none x.ops n v }
/-- Entry `n` of `work.decodes`, if one is held. -/
def State.decodeAt (s : State) (n : Nat) : Option DecodeJob := Tbl.look none s.work.decodes n
/-- Entry `n` of `work.decodes` set, or cleared by none. -/
def State.setDecode (s : State) (n : Nat) (v : Option DecodeJob) : State :=
  s.onWork fun x => { x with decodes := Tbl.put none x.decodes n v }
/-- Entry `n` of `work.ciphers`, if one is held. -/
def State.cipherJobAt (s : State) (n : Nat) : Option CipherJob := Tbl.look none s.work.ciphers n
/-- Entry `n` of `work.ciphers` set, or cleared by none. -/
def State.setCipherJob (s : State) (n : Nat) (v : Option CipherJob) : State :=
  s.onWork fun x => { x with ciphers := Tbl.put none x.ciphers n v }
/-- Entry `n` of `work.parities`, if one is held. -/
def State.parityJobAt (s : State) (n : Nat) : Option ParityJob := Tbl.look none s.work.parities n
/-- Entry `n` of `work.parities` set, or cleared by none. -/
def State.setParityJob (s : State) (n : Nat) (v : Option ParityJob) : State :=
  s.onWork fun x => { x with parities := Tbl.put none x.parities n v }
/-- Entry `n` of `work.rebuilds`, if one is held. -/
def State.rebuildAt (s : State) (n : Nat) : Option Rebuild := Tbl.look none s.work.rebuilds n
/-- Entry `n` of `work.rebuilds` set, or cleared by none. -/
def State.setRebuild (s : State) (n : Nat) (v : Option Rebuild) : State :=
  s.onWork fun x => { x with rebuilds := Tbl.put none x.rebuilds n v }
/-- Entry `n` of `fab.reads`, if one is held. -/
def State.winReadAt (s : State) (n : Nat) : Option WinRead := Tbl.look none s.fab.reads n
/-- Entry `n` of `fab.reads` set, or cleared by none. -/
def State.setWinRead (s : State) (n : Nat) (v : Option WinRead) : State :=
  s.onFab fun x => { x with reads := Tbl.put none x.reads n v }

/-- `f` applied to every listed entry of `dies`. -/
def State.mapDies (s : State) (f : Nat → Die → Die) : State := { s with dies := Tbl.mapAll {} f s.dies }
/-- `f` applied to every listed entry of `lanes`. -/
def State.mapLanes (s : State) (f : Nat → Lane → Lane) : State := { s with lanes := Tbl.mapAll {} f s.lanes }
/-- `f` applied to every listed entry of `zones`. -/
def State.mapZones (s : State) (f : Nat → Zone → Zone) : State := { s with zones := Tbl.mapAll {} f s.zones }
/-- `f` applied to every listed entry of `nss`. -/
def State.mapNss (s : State) (f : Nat → Ns → Ns) : State := { s with nss := Tbl.mapAll {} f s.nss }
/-- `f` applied to every listed entry of `tenants`. -/
def State.mapTenants (s : State) (f : Nat → Tenant → Tenant) : State := { s with tenants := Tbl.mapAll {} f s.tenants }
/-- `f` applied to every listed entry of `ctrls`. -/
def State.mapCtrls (s : State) (f : Nat → Ctrl → Ctrl) : State := { s with ctrls := Tbl.mapAll {} f s.ctrls }

/-- The stored block of a zone's LBA (R49: ciphertext). -/
def State.stored (s : State) (zk off : Nat) : Block := Tbl.look 0 s.media (mediaKey zk off)

/-- A block stored at a zone's LBA. -/
def State.storeBlock (s : State) (zk off : Nat) (b : Block) : State :=
  { s with media := Tbl.put 0 s.media (mediaKey zk off) b }

/-- Fold a state operation over a list of items, in order. -/
def State.each {α : Type} (s : State) (l : List α) (f : α → State → State) : State := l.foldl (fun a x => f x a) s

/-- The word in force of the writable fields of register `r`, instance `i`. -/
def State.cfgWord (s : State) (r : Reg) (i : Nat) : Word :=
  (Tbl.look none s.regs.cfg (r.offset i)).getD (resetWord (r.offset i))

/-- Bits [hi:lo] in force of register `r`, instance `i`. -/
def State.cfg (s : State) (r : Reg) (i hi lo : Nat) : Nat := bitsOf (s.cfgWord r i) hi lo

/-- One bit in force of register `r`, instance `i`. -/
def State.cfgBit (s : State) (r : Reg) (i b : Nat) : Bool := s.cfg r i b b == 1

/-- The word at a window offset replaced; a word equal to the reset word is not listed. -/
def State.setCfgAt (s : State) (o : Nat) (w : Word) : State :=
  s.onRegs fun r => { r with cfg := Tbl.put none r.cfg o (if w = resetWord o then none else some w) }

/-- The event timestamp, ns since AON reset release (R19). -/
def State.now (s : State) : Nat := s.aon.timeNs

/-- The chip domain is out of reset, powered or kept off in Calm. -/
def State.released (s : State) : Bool := s.aon.on && !s.power.inReset

/-- The chip domain is on and out of reset. -/
def State.running (s : State) : Bool := s.released && hasBit s.aon.domainOn 1

/-- The presence bits CHIP_CAPS[7:4] of the ordering variant (R1). -/
def State.units (s : State) : Nat :=
  if s.variant = 0 then 0xF else if s.variant = 1 then 0x8 else if s.variant = 2 then 0x7 else 0x0

/-- The compression engines are present (R1). -/
def State.hasCompression (s : State) : Bool := s.units / 8 % 2 == 1

/-- The Ethernet ports and the RDMA engine are present (R1). -/
def State.hasFabric (s : State) : Bool := s.units % 8 == 7

/-- The codes of *Fault records* (R535). -/
def isFaultCode (code : Nat) : Bool :=
  code / 256 == 0x0F ||
  [0x0108, 0x0204, 0x0302, 0x0304, 0x040B, 0x0411, 0x0484, 0x0488, 0x0495, 0x0504, 0x0507, 0x0508, 0x0602, 0x0604,
   0x0706, 0x0803, 0x0804, 0x0902, 0x0A02, 0x0A04, 0x0D04, 0x0E14, 0x0E17].contains code

/-- An arrival put into the queue: in order of arrival, and of SOURCE among those of one beat (R534). A beat is one value
of the event timestamp (log entry 5). -/
def enqueueArrival (q : List (Nat × EvRec)) (t : Nat) (e : EvRec) : List (Nat × EvRec) :=
  match q with
  | [] => [(t, e)]
  | (t', e') :: q => if t' = t ∧ e.source.toNat < e'.source.toNat then (t, e) :: (t', e') :: q
                     else (t', e') :: enqueueArrival q t e

/-- An event record raised: it enters the 256-entry queue, of which 32 entries are kept for fault records; without a free
entry a fault record is held at its source and any other is dropped and counted (R535). Classes 0x09 and 0x0A are never
recorded in the variants without their units (R7, R8). -/
def State.raise (s : State) (code source p1 p2 p3 p4 : Nat) : State :=
  let e : EvRec := ⟨BitVec.ofNat 16 code, BitVec.ofNat 16 source, BitVec.ofNat 32 p1, BitVec.ofNat 32 p2,
    BitVec.ofNat 32 p3, BitVec.ofNat 32 p4⟩
  if (code / 256 = 0x09 ∧ s.hasCompression = false) ∨ (code / 256 = 0x0A ∧ s.hasFabric = false) then s
  else if s.evr.queue.length < (if isFaultCode code then 256 else 224) then
    s.onEvr fun r => { r with queue := enqueueArrival r.queue s.now e }
  else if isFaultCode code then s.onEvr fun r => { r with atSource := r.atSource ++ [e] }
  else s.onAon fun a => { a with evrDropped := satAdd 32 a.evrDropped 1 }

/-- The completion statuses the block returns. SCT and SC are those the spec gives with each name; for a status whose
numbers the spec leaves to the NVMe base specification they are PRESUMED from it (log entry 6). -/
inductive Status where
  | success
  | invalidOpcode
  | invalidField
  | transferError
  | internalError
  | abortRequested
  | invalidNamespace
  | sequenceError
  | sanitizeFailed
  | sanitizeInProgress
  | sqDeleted
  | interrupted
  | lbaOutOfRange
  | notReady
  | cqInvalid
  | invalidQueueId
  | invalidQueueSize
  | aerLimit
  | invalidFirmwareImage
  | invalidVector
  | invalidQueueDeletion
  | featureNotChangeable
  | nsInsufficient
  | nsIdUnavailable
  | controllerListInvalid
  | invalidControllerId
  | invalidSecondaryState
  | invalidResourceNumber
  | connectInvalid
  | boundaryError
  | zoneFull
  | zoneReadOnly
  | zoneOffline
  | zoneInvalidWrite
  | tooManyActive
  | invalidTransition
  | unrecovered
  | compareFailure
  | unwritten
  | boundUnavailable
  | energyLow
  | laneSetDegraded
  | packedSpace
  | decodeLimit
  | keyUnavailable
  | windowTimeout
  deriving DecidableEq, Repr

/-- Status code type (R317 for 7h). -/
def Status.sct : Status → Nat
  | .success | .invalidOpcode | .invalidField | .transferError | .internalError | .abortRequested | .invalidNamespace
  | .sequenceError | .sanitizeFailed | .sanitizeInProgress | .sqDeleted | .interrupted | .lbaOutOfRange | .notReady => 0
  | .cqInvalid | .aerLimit | .invalidQueueId | .invalidQueueSize | .invalidFirmwareImage | .invalidVector | .invalidQueueDeletion
  | .featureNotChangeable | .nsInsufficient | .nsIdUnavailable | .controllerListInvalid | .invalidControllerId
  | .invalidSecondaryState | .invalidResourceNumber
  | .connectInvalid | .boundaryError | .zoneFull | .zoneReadOnly | .zoneOffline | .zoneInvalidWrite | .tooManyActive
  | .invalidTransition => 1
  | .unrecovered | .compareFailure | .unwritten => 2
  | .boundUnavailable | .energyLow | .laneSetDegraded | .packedSpace | .decodeLimit | .keyUnavailable | .windowTimeout => 7

/-- Status code. -/
def Status.sc : Status → Nat
  | .success => 0x00
  | .invalidOpcode => 0x01
  | .invalidField => 0x02
  | .transferError => 0x04
  | .internalError => 0x06
  | .abortRequested => 0x07
  | .invalidNamespace => 0x0B
  | .sequenceError => 0x0C
  | .sanitizeFailed => 0x1C
  | .sanitizeInProgress => 0x1D
  | .sqDeleted => 0x08
  | .interrupted => 0x21
  | .lbaOutOfRange => 0x80
  | .notReady => 0x82
  | .cqInvalid => 0x00
  | .invalidQueueId => 0x01
  | .invalidQueueSize => 0x02
  | .aerLimit => 0x05
  | .invalidFirmwareImage => 0x07
  | .invalidVector => 0x08
  | .invalidQueueDeletion => 0x0C
  | .featureNotChangeable => 0x0E
  | .nsInsufficient => 0x15
  | .nsIdUnavailable => 0x16
  | .controllerListInvalid => 0x1C
  | .invalidControllerId => 0x1F
  | .invalidSecondaryState => 0x20
  | .invalidResourceNumber => 0x21
  | .connectInvalid => 0x82
  | .boundaryError => 0xB8
  | .zoneFull => 0xB9
  | .zoneReadOnly => 0xBA
  | .zoneOffline => 0xBB
  | .zoneInvalidWrite => 0xBC
  | .tooManyActive => 0xBD
  | .invalidTransition => 0xBF
  | .unrecovered => 0x81
  | .compareFailure => 0x85
  | .unwritten => 0x87
  | .boundUnavailable => 0xC0
  | .energyLow => 0xC1
  | .laneSetDegraded => 0xC2
  | .packedSpace => 0xC3
  | .decodeLimit => 0xC4
  | .keyUnavailable => 0xC5
  | .windowTimeout => 0xC6

/-- The DNR flag of a vendor status (R317). The spec states no DNR for the others; the model leaves it clear (log entry 6). -/
def Status.dnr : Status → Bool
  | .packedSpace | .decodeLimit | .keyUnavailable => true
  | _ => false

/-- CRD of the two statuses that carry a try-after, and of Namespace Not Ready: 01b when the host has set ACRE, 00b otherwise (R90,
R317, R318). -/
def Status.crd (st : Status) (acre : Bool) : Nat :=
  match st with
  | .boundUnavailable | .energyLow | .notReady => if acre then 1 else 0
  | _ => 0

/-- A free value drawn (Config.freeValue; log entry 2): the value and the state with the draw counted. -/
def State.draw (s : State) : Nat × State :=
  (Config.freeValue s.work.draws, s.onWork fun w => { w with draws := w.draws + 1 })

/-- The active starter pair's source identifier: the first starter of the pair (R45; log entry 7). -/
def State.srcStarters (s : State) : Nat := srcStarter (2 * s.flt.activePair)

/-- The tenant that a controller serves: the slot of a PCIe controller, the stored tenant of a fabric one (R362). -/
def State.tenantOf (s : State) (ctrl : Nat) : Nat := if ctrl < 256 then ctrl else (s.ctrl ctrl).tenant

/-- Entries of a dirty log (R384). -/
def dirtyLogCapacity : Nat := 2097152

/-- `n` entries of a tenant's dirty log. The host pages that a transfer names come with no command here: free values (log entry 2). A
full log sets OVERFLOW, and entries stop (R384). -/
def State.logPages : Nat → State → Nat → Bool → State
  | 0, s, _, _ => s
  | n + 1, s, t, cq =>
    let x := s.tenant t
    if x.overflow then s
    else if dirtyLogCapacity ≤ x.log.length then
      (s.setTenant t { x with overflow := true }).raise 0x0B08 s.srcStarters t x.log.length 1 0
    else
      let (v, s) := s.draw
      State.logPages n (s.updTenant t fun x => { x with log := x.log ++ [(v % 2 ^ 52, cq)] }) t cq

/-- The bytes that returned data reach up to. -/
def dataExtent (data : List FieldVal) : Nat := data.foldl (fun n f => max n (f.off + f.len)) 0

/-- The host memory writes of a completion logged while the tenant's dirty log is on: its data pages, then the completion entry (R384). -/
def State.logWrites (s : State) (ctrl bytes : Nat) : State :=
  if ctrl < 256 ∧ (s.tenant ctrl).logging then (s.logPages (ceilDiv bytes 4096) ctrl false).logPages 1 ctrl true else s

/-- Segments that a connection may send now: none while it is frozen, in error, paused by PFC or behind a stalled RDMA READ, and with selective
repeat no more than the peer can hold out of order (R325, R336, R347, R355). -/
def State.connRoom (s : State) (c : Nat) : Nat :=
  let x := s.conn c
  if !x.up || x.error || x.frozen || (s.port x.carried).paused || s.fab.reads.any (fun r => r.2.any fun w => w.conn == c) then 0
  else if x.sr then x.reorder - x.unacked.length else x.queued

/-- What waits on a connection sent as far as it may be. -/
def State.pumpConn (s : State) (c : Nat) : State :=
  let x := s.conn c
  let k := min x.queued (s.connRoom c)
  if k = 0 then s
  else s.setConn c { x with queued := x.queued - k, npsn := (x.npsn + k) % 2 ^ 24,
                            unacked := x.unacked ++ (List.range k).map fun i => ((x.npsn + i) % 2 ^ 24, s.now, s.now, false) }

/-- The response of a command that came over a connection: RDMA WRITE segments of its data and one SEND, and its receive buffer posted again
(R326, R338). -/
def State.respond (s : State) (h : Hdr) (bytes : Nat) : State :=
  match (s.sq (queueKey h.ctrl h.sqid)).conn with
  | none => s
  | some c => (s.updConn c fun x => { x with queued := x.queued + ceilDiv bytes x.mtu + 1,
                                             posted := min (s.sq (queueKey h.ctrl h.sqid)).depth (x.posted + 1) }).pumpConn c

/-- A completion that is discarded: its controller drains (R378), its connection is in error, or its queue ended with its connection
(R348). -/
def State.muted (s : State) (h : Hdr) : Bool :=
  !h.mc && ((s.ctrl h.ctrl).drain.isSome || (decide (256 ≤ h.ctrl) &&
    match (s.sq (queueKey h.ctrl h.sqid)).conn with
    | none => true
    | some c => (s.conn c).error))

/-- A completion put among those the block has sent. -/
def State.postCompletion (s : State) (h : Hdr) (st : Status) (dw0 dw1 : Nat) (data : List FieldVal) : State :=
  s.onOut fun o => { o with completions := o.completions ++
    [{ ctrl := h.ctrl, sqid := h.sqid, cid := h.cid, mc := h.mc, sct := st.sct, sc := st.sc, dnr := st.dnr,
       crd := st.crd (s.ctrl h.ctrl).acre, dw0 := dw0, dw1 := dw1, data := data }] }

/-- A completion posted for command `h`, with what its transfer to the host brings. -/
def State.completeWith (s : State) (h : Hdr) (st : Status) (dw0 dw1 : Nat) (data : List FieldVal) : State :=
  if s.muted h then s
  else
    let s := s.postCompletion h st dw0 dw1 data
    if h.mc then s else (s.logWrites h.ctrl (dataExtent data)).respond h (dataExtent data)

/-- A completion with no data and DW0, DW1 clear. -/
def State.complete (s : State) (h : Hdr) (st : Status) : State := s.completeWith h st 0 0 []

/-- DW0 of an Asynchronous Event Request that a notice ends: type, information and log page, PRESUMED from the NVMe base specification (log
entry 6); what the spec only calls an event or a notice has the vendor specific type and a free value above it (log entry 2). -/
def Notice.dw0 (n : Notice) (free : Nat) : Nat :=
  match n with
  | .invalidDoorbell _ => 0x010100
  | .persistentInternalError => 0x010300
  | .temperatureThreshold => 0x020101
  | .namespaceAttribute _ => 0x040002
  | .zoneDescriptorChanged _ => 0xBFEF02
  | .securityAlarm | .mediaReallocated _ => 7 + 256 * (free % 65536)

/-- A notice at one controller: it ends the oldest Asynchronous Event Request held, or waits for one. -/
def State.tellCtrl (s : State) (c : Nat) (n : Notice) : State :=
  let k := s.ctrl c
  match k.aers with
  | [] => s.setCtrl c { k with events := k.events ++ [n] }
  | cid :: rest =>
    let (v, s) := s.draw
    (s.setCtrl c { k with aers := rest }).completeWith { ctrl := c, sqid := 0, cid := cid, nsid := 0, mc := false } .success (n.dw0 v) 0 []

/-- The controllers that a notice to a tenant reaches: its enabled ones; an invalid doorbell write concerns one only (R377), and a Zone Descriptor
Changed notice goes where the host has enabled it (R67). -/
def State.toldCtrls (s : State) (tenant : Nat) (n : Notice) : List Nat :=
  match n with
  | .invalidDoorbell c => [c]
  | .zoneDescriptorChanged _ => (Tbl.numbers (fun k => k.en) s.ctrls).filter fun c => s.tenantOf c == tenant && Config.zoneNotice c
  | _ => (Tbl.numbers (fun k => k.en) s.ctrls).filter fun c => s.tenantOf c == tenant

/-- An asynchronous event to a tenant (R306). -/
def State.notify (s : State) (tenant : Nat) (n : Notice) : State :=
  let s := s.onOut fun o => { o with notices := o.notices ++ [(tenant, n)] }
  s.each (s.toldCtrls tenant n) fun c s => s.tellCtrl c n

/-- A message to the bridge of a lane (R125). -/
def State.sendDown (s : State) (lane : Nat) (m : Down) : State :=
  s.onOut fun o => { o with down := o.down ++ [(lane, m)] }

/-- A packet sent on the fabric (R326). -/
def State.sendPacket (s : State) (p : Packet) : State :=
  s.onOut fun o => { o with packets := o.packets ++ [p] }

/-- A response to the management controller. -/
def State.reply (s : State) (r : MiReply) : State := s.onOut fun o => { o with mi := o.mi ++ [r] }

/-- The cell that serves a lane now (R33, R34). -/
def State.cellOf (s : State) (lane : Nat) : Nat :=
  17 * blockOfLane lane + (if (s.blk (blockOfLane lane)).spareLane = lane % 16 then 16 else lane % 16)

/-- A failed unit counted in CHIP_FAULT: LAST_SRC and the degraded state (R541). -/
def State.unitFailed (s : State) (source : Nat) : State :=
  s.onFlt fun f => { f with lastSrc := source, degraded := true }

/-- Microseconds between two event timestamps. -/
def usSince (now t : Nat) : Nat := (now - t) / 1000

end Sys2Proof.Machine
end

