-- ==== Sys2Proof/Machine/Gate.lean ====
section
/-! DEFINITION. What stands before every command from outside: whether the block takes commands at all, Warm-up holds
(R57), fault stop (R531), who may send which admin command (R314, R315), and the cut of returned data to a transfer (R316). -/

namespace Sys2Proof.Machine

/-- A Warm-up hold is in force (R57). -/
def State.inHold (s : State) : Bool := s.power.mode == .warmup && s.power.holds != []

/-- Warm-up step `k` is complete. -/
def State.stepComplete (s : State) (k : Nat) : Bool := s.power.stepDone.getLsbD (k - 1)

/-- A host port is there: a PCIe link or an Ethernet port up (*Minimum service set*). -/
def State.hostPortUp (s : State) : Bool := (s.link 0).up || (s.link 1).up || (s.port 0).up || (s.port 1).up

/-- Only the boot ROM admin subset is served: holds 0x02 and 0x03, hold 0x04 without a host port or step 7 (R57), and a
fault stop (R531). -/
def State.bootSubsetOnly (s : State) : Bool :=
  s.flt.stop != 0 ||
  (s.inHold && (s.power.holds.contains 2 || s.power.holds.contains 3 ||
    (s.power.holds.contains 4 && !(s.hostPortUp && s.stepComplete 7))))

/-- The block fetches commands of a controller: it is on, enabled, ready and not stopped by a reset, a quiesce, an entry, a
landing or a fault stop. In Lull and Calm nothing is fetched: the doorbell wakes the device first (R313, R430). -/
def State.fetches (s : State) (ctrl : Nat) : Bool :=
  s.running && (s.ctrl ctrl).en && (s.ctrl ctrl).rdy && !(s.ctrl ctrl).stopped &&
  (s.power.mode == .warmup || s.power.mode == .stride || s.power.mode == .sprint) &&
  s.power.entry.isNone && s.power.landing.isNone && (s.tenant (s.tenantOf ctrl)).st != .quiesced

/-- The management controller's commands are served: the chip domain is on, and with both starter pairs lost nothing is
(R531). -/
def State.servesMc (s : State) : Bool := s.running && s.flt.pairsIn != 0 &&
  s.power.mode != .homestretch && s.power.mode != .off && s.power.mode != .calm

/-- Who may send an admin command: the columns of *Vendor admin commands* (R314). -/
structure AdminRule where
  tenant0 : Bool
  others : Bool
  mc : Bool
  bootSubset : Bool
  nsidZero : Bool
  discovery : Bool
  deriving DecidableEq, Repr

/-- A standard admin command of any controller. -/
def ruleAny : AdminRule := ⟨true, true, true, false, false, false⟩

/-- Tenant 0 and the management controller, NSID 0. -/
def ruleManager : AdminRule := ⟨true, false, true, false, true, false⟩

/-- Tenant 0 only, NSID 0. -/
def ruleTenant0 : AdminRule := ⟨true, false, false, false, true, false⟩

/-- A command of the boot ROM admin subset among the manager's. -/
def ruleBoot : AdminRule := ⟨true, false, true, true, true, false⟩

/-- The command is permitted to its sender (R314). -/
def AdminRule.permits (r : AdminRule) (s : State) (h : Hdr) : Bool :=
  if h.mc then r.mc else if s.tenantOf h.ctrl = 0 then r.tenant0 else r.others

/-- A command fetched: the head of its submission queue moves on (R305). -/
def State.fetchOne (s : State) (h : Hdr) : State :=
  let q := s.sq (queueKey h.ctrl h.sqid)
  if h.mc ∨ q.depth = 0 then s else s.setSq (queueKey h.ctrl h.sqid) { q with head := (q.head + 1) % q.depth }

/-- An admin command before its own rules: not taken while the block takes none; Namespace Not Ready where a hold or fault
stop leaves it out (R57, R531); Invalid Command Opcode where its sender may not send it (R314); Invalid Field in
Command where the NSID must be 0 and is not (R315). -/
def State.admin (s : State) (r : AdminRule) (h : Hdr) (run : State → State) : State :=
  if !(if h.mc then s.servesMc else s.fetches h.ctrl) then s
  else
  let s := s.fetchOne h
  if s.bootSubsetOnly && !r.bootSubset then s.complete h .notReady
  else if !r.permits s h || (!h.mc && (s.ctrl h.ctrl).discovery && !r.discovery) then s.complete h .invalidOpcode
  else if r.nsidZero && h.nsid != 0 then s.complete h .invalidField
  else run s

/-- An I/O command before its own rules: Namespace Not Ready during a Warm-up hold (R57). -/
def State.io (s : State) (h : Hdr) (run : State → State) : State :=
  if !s.fetches h.ctrl || s.flt.stop != 0 then s
  else
    let s := s.fetchOne h
    if s.inHold then s.complete h .notReady else run s

/-- The part of a field that lies in bytes [a, b), moved to start at a. -/
def FieldVal.cut (a b : Nat) (f : FieldVal) : List FieldVal :=
  let lo := max a f.off
  let hi := min b (f.off + f.len)
  if lo < hi then [⟨lo - a, hi - lo, f.val / 256 ^ (lo - f.off) % 256 ^ (hi - lo)⟩] else []

/-- The bytes of returned data that a transfer of NUMD + 1 dwords from dword OFST takes (R316). -/
def transferOf (data : List FieldVal) (numd ofst : Nat) : List FieldVal :=
  data.flatMap (FieldVal.cut (4 * ofst) (4 * ofst + 4 * (numd + 1)))

/-- A transfer above MDTS (R316). -/
def overMdts (numd : Nat) : Bool := decide (262144 < numd + 1)

/-- An access counted as denied under R563, and kept as the last one (R565). -/
def State.countDenied (s : State) (party offset : Nat) : State :=
  s.onRegs fun r => { r with denied := satAdd 16 r.denied 1, lastParty := party, lastOffset := offset }

/-- An access to an unimplemented offset counted (R565). -/
def State.countUnimpl (s : State) (party offset : Nat) : State :=
  s.onRegs fun r => { r with unimpl := satAdd 16 r.unimpl 1, lastParty := party, lastOffset := offset }

/-- The code of a party in CHIP_ACCESS_LAST. -/
def Party.code : Party → Nat
  | .manager => 1
  | .mgmtController => 2

end Sys2Proof.Machine
end

