-- ==== Sys2Proof/Machine/Figures.lean ====
section
/-! DEFINITION. The spec's figures as functions of Nat: zone placement, rotation and parity, lane groups, occupancies and
timeouts, bound sums, functions and window places. Times are in picoseconds unless a name says otherwise, so that every sum
is exact and rounded once (R16). -/

namespace Sys2Proof.Machine

/-- The least whole number whose square times `d` is at least `n`, built from bit `k` downward: the largest below it, plus 1. -/
def sqrtBits : Nat → Nat → Nat → Nat → Nat
  | 0, _, _, r => r
  | k + 1, n, d, r => if (r + 2 ^ k) * (r + 2 ^ k) * d < n then sqrtBits k n d (r + 2 ^ k) else sqrtBits k n d r

/-- The square root of n / d, rounded up, for results below 2^64; 0 when n is 0 (R16, R415). -/
def ceilSqrtDiv (n d : Nat) : Nat := if n = 0 then 0 else sqrtBits 64 n d 0 + 1

/-- A beat at tBEAT(max), ps (R14). -/
def beatPs : Nat := 800

/-- Beats of a transfer of `n` fabric words over one link crossing `k` level boundaries (R38). -/
def transferBeats (n k : Nat) : Nat := 2 + 3 * k + n

/-- Fabric words of `b` bytes: 32 bytes each (R37). -/
def fabricWords (b : Nat) : Nat := ceilDiv b 32

/-- Zone size in LBAs (R63). -/
def zsze : Nat := 0x100000

/-- Stripe row of a zone offset (R64). -/
def rowOf (o : Nat) : Nat := o / 256

/-- Data member of a zone offset (R64). -/
def dataMemberOf (o : Nat) : Nat := o % 256 / 16

/-- Plane of a zone offset (R64). -/
def planeOf (o : Nat) : Nat := o % 16 / 4

/-- Frame within the page of a zone offset (R64). -/
def frameOf (o : Nat) : Nat := o % 4

/-- Member position of parity P for rotation `j` (R173). -/
def pPosition (j : Nat) : Nat := j

/-- Member position of parity Q for rotation `j` (R173). -/
def qPosition (j : Nat) : Nat := (j + 1) % 18

/-- The member positions that hold data under rotation `j`, ascending (R173). -/
def dataPositions (j : Nat) : List Nat := (List.range 18).filter fun m => m != pPosition j && m != qPosition j

/-- The member position of data member `i` under rotation `j` (R64, R173). -/
def positionOfData (j i : Nat) : Nat := (dataPositions j).getD i 0

/-- The data member at position `m` under rotation `j`, if it holds data. -/
def dataAt (j m : Nat) : Option Nat :=
  if m = pPosition j ∨ m = qPosition j then none else some ((dataPositions j).idxOf m)

/-- Zone capacity in LBAs: data dies × die block data area (R63). -/
def zoneCapacity (pages planes : Nat) : Nat := 16 * (planes * pages * 4)

/-- Zones that a stripe set provides (R62). -/
def zonesPerSet (blocks : Nat) : Nat := blocks - 34

/-- Zones of a Z-zone namespace that lie on the set of index `i` of S (R571). -/
def zonesOnSet (z s i : Nat) : Nat := if i < z then ceilDiv (z - i) s else 0

/-- The canonical lane number s of R94. -/
def canonicalOf (lane : Nat) : Nat := 32 * (lane % 16) + lane / 16

/-- The lane of canonical number `s` (R94). -/
def laneOfCanonical (s : Nat) : Nat := 16 * (s % 32) + s / 32

/-- The canonical lane group of a lane, none for s from 504 (R94). -/
def groupOfLane (lane : Nat) : Option Nat := if canonicalOf lane < 504 then some (canonicalOf lane / 18) else none

/-- The 18 lanes of group `q` (R94). -/
def lanesOfGroup (q : Nat) : List Nat := (List.range 18).map fun i => laneOfCanonical (18 * q + i)

/-- Reclaim units that a conventional namespace may hold: its capacity in whole units, × 9/8, rounded up (R98). -/
def reclaimUnits (lbas zcap : Nat) : Nat := ceilDiv (9 * ceilDiv lbas zcap) 8

/-- GF(2^8) multiplication by 2 modulo 0x11D (R174). -/
def gfDouble (x : Nat) : Nat := if x < 128 then 2 * x else (2 * x) ^^^ 0x11D

/-- GF(2^8) multiplication modulo 0x11D, over `n` bits of the second factor (R174). -/
def gfMulBits : Nat → Nat → Nat → Nat
  | 0, _, _ => 0
  | n + 1, a, b => (if b % 2 = 1 then a else 0) ^^^ gfMulBits n (gfDouble a) (b / 2)

/-- GF(2^8) multiplication (R174). -/
def gfMul (a b : Nat) : Nat := gfMulBits 8 a b

/-- The generator 2 to the power `n` (R174). -/
def gfPow : Nat → Nat
  | 0 => 1
  | n + 1 => gfDouble (gfPow n)

/-- Byte `i` of a block. -/
def blockByte (b : Block) (i : Nat) : Nat := b.toNat / 256 ^ i % 256

/-- One read cycle, send to terminal DONE, ps: `tr` µs, poll interval in 100 ns (R151). -/
def readCyclePs (trPs poll : Nat) : Nat := trPs + poll * 100000 + 7098500

/-- Lane share of one frame, 72 flits, ps (R214). -/
def laneSharePs : Nat := 5346000

/-- One flit time, ps: a lane share is 72 of them (R212). -/
def flitPs : Nat := 74250

/-- Die timing derated by `d` percent: µs to ps (R223). -/
def deratedPs (us d : Nat) : Nat := us * 10000 * (100 + d)

/-- One suspension with its reads, ps: k of R151. -/
def suspensionPs (tsusp poll suspReads trPart tresPen : Nat) : Nat :=
  tsusp * 1000000 + poll * 100000 + suspReads * readCyclePs (trPart * 1000000) poll + 616250 + tresPen * 1000000

/-- Worst-case occupancy of a pass or erase, µs (R151). -/
def occupancyUs (base suspMax tsusp poll suspReads trPart tresPen : Nat) : Nat :=
  ceilDiv (base * 1000000 + suspMax * suspensionPs tsusp poll suspReads trPart tresPen) 1000000

/-- 1.25 times a figure, rounded up (*Bridge timer use*, R152). -/
def quarterMore (x : Nat) : Nat := ceilDiv (5 * x) 4

/-- Lane-op timeout, µs: bridge timer + 100 µs + 148.5 ns for each data flit (R152). -/
def laneOpTimeoutUs (timer flits : Nat) : Nat := ceilDiv ((timer + 100) * 10000 + flits * 1485) 10000

/-- Ingress, admission, quiet-point hold and dispatch, ps, for ingress `inPs` (R226). -/
def frontPs (inPs : Nat) : Nat := inPs + 89600 + 160000 + 1027825

/-- PCIe payload rate as a fraction, bytes per ns = num / den, for a rate in tenths of GT/s (R224). -/
def pcieRate (rateX10 width : Nat) (flit : Bool) : Nat × Nat :=
  if flit then (rateX10 * width * 242, 80 * 256)
  else if 80 ≤ rateX10 then (rateX10 * width * 128, 80 * 130) else (rateX10 * width * 8, 80 * 10)

/-- The rate of a CHIP_PCIE_STAT.RATE code in tenths of GT/s (R292). -/
def rateOfCode (c : Nat) : Nat := [0, 25, 50, 80, 160, 320, 640].getD c 0

/-- A bound's sum as a fraction of a picosecond: a whole part and the egress transfer num / den. -/
structure SumPs where
  whole : Nat
  num : Nat
  den : Nat
  deriving DecidableEq, Repr

/-- The sum rounded up to `unit` µs and given in µs (R16, R224). -/
def SumPs.roundUpUs (x : SumPs) (unit : Nat) : Nat :=
  unit * ceilDiv (x.whole * x.den + x.num) (x.den * unit * 1000000)

/-- The transfer part of a PCIe egress of `bytes` bytes: num / den in ps (R224). -/
def egressPart (bytes : Nat) (link : Nat × Nat) : Nat × Nat := (bytes * link.2 * 1000, link.1)

/-- The fixed part of PCIe egress, ps: 15 beats, 64 ns and 2 core clocks (*Internal path beat counts*). -/
def pcieEgressFixedPs : Nat := 15 * beatPs + 64000 + 2000

/-- RDMA egress, ps (*Internal path beat counts*). -/
def rdmaEgressPs : Nat := 400000

/-- PCIe ingress, ps. -/
def pcieIngressPs : Nat := 100400

/-- RDMA ingress, ps. -/
def rdmaIngressPs : Nat := 480000

/-- The configured inputs of the bound sums (R222). -/
structure BoundInputs where
  trPart : Nat
  trFull : Nat
  poll : Nat
  retryTempo : Nat
  retryDist : Nat
  softTempo : Bool
  softDist : Bool
  tempoWin : Nat
  distWin : Nat
  pcieRd : Nat
  netRd : Nat
  link : Nat × Nat
  deriving DecidableEq, Repr

/-- Ladder budget of R165, ps, derated by `d` percent (R223). -/
def ladderPs (steps : Nat) (soft : Bool) (d : Nat) : Nat := deratedPs (110 * steps + if soft then 225 else 0) d

/-- The Dash start window, ps, with its derate (R214). -/
def dashWindowPs (trPart poll d : Nat) : Nat := readCyclePs (deratedPs trPart d) poll + laneSharePs

/-- A host path: ingress, fixed egress, and the egress transfer of `bytes` (R224). -/
def hostPath (i : BoundInputs) (rdma : Bool) (bytes : Nat) : Nat × Nat × Nat × Nat :=
  if rdma then (rdmaIngressPs, rdmaEgressPs, 0, 1)
  else (pcieIngressPs, pcieEgressFixedPs, (egressPart bytes i.link).1, (egressPart bytes i.link).2)

/-- The Dash read sum of R226. -/
def dashReadSum (i : BoundInputs) (rdma : Bool) (d : Nat) : SumPs :=
  let (ing, egr, n, m) := hostPath i rdma 4624
  let tr := deratedPs i.trPart d
  let own := 616250 + tr + i.poll * 100000 + 1000000 + 5346000 + 5346000 + 62000
  let back := 119200 + 9216000 + 1843200 + 104800 + 1536000 + 512000 + 108800
  ⟨frontPs ing + dashWindowPs i.trPart i.poll d + 87050 + own + back + egr, n, m⟩

/-- The Dash write sum of *Dash write, 4 KiB*. -/
def dashWriteSum (i : BoundInputs) (rdma : Bool) : SumPs :=
  let (ing, egr, n, m) := hostPath i rdma 528
  let fetch := if rdma then 900000 + i.netRd * 1000000 else 136800 + i.pcieRd * 1000000
  ⟨ing + 89600 + 160000 + 517600 + 520000 + 5600 + fetch + 108800 + 2048000 + 113600 + 9600 + 37600 + egr, n, m⟩

/-- The Tempo or Distance read sum of R227: start window, decoder, parity and cipher waits, and ladder of the class. -/
def slowReadSum (i : BoundInputs) (rdma : Bool) (d winPs decWait parWait cipWait ladder : Nat) : SumPs :=
  let (ing, egr, n, m) := hostPath i rdma 4624
  let own := 616250 + deratedPs i.trFull d + i.poll * 100000 + 4 * 1000000 + 16 * 2 * 5346000 + 62000
  let source := 616250 + deratedPs i.trPart d + i.poll * 100000 + 1000000 + 2 * 5346000 + 62000
  let decode := 119200 + decWait + 1843200
  ⟨frontPs ing + winPs + own + decode + (ladder + 1000000) + 59200 + winPs + source + decode +
    (109600 + parWait + 1977600) + (cipWait + 512000) + 108800 + egr, n, m⟩

/-- The Tempo read sum of R227. -/
def tempoReadSum (i : BoundInputs) (rdma : Bool) (d : Nat) : SumPs :=
  slowReadSum i rdma d (max 1 i.tempoWin * 1000000) 36864000 19712000 5120000 (ladderPs i.retryTempo i.softTempo d)

/-- The Distance read sum of R227. -/
def distReadSum (i : BoundInputs) (rdma : Bool) (d : Nat) : SumPs :=
  slowReadSum i rdma d (max 1 i.distWin * 100000000) 184320000 197120000 51200000 (ladderPs i.retryDist i.softDist d)

/-- The bound set of one band for derate `d`, µs (R224-R228). -/
def boundSetFor (i : BoundInputs) (d : Nat) : BoundSet :=
  { dashRdPcie := (dashReadSum i false d).roundUpUs 1
    dashRdRdma := (dashReadSum i true d).roundUpUs 1
    dashWrPcie := (dashWriteSum i false).roundUpUs 1
    dashWrRdma := (dashWriteSum i true).roundUpUs 1
    tempoPcie := (tempoReadSum i false d).roundUpUs 100
    tempoRdma := (tempoReadSum i true d).roundUpUs 100
    distPcie := (distReadSum i false d).roundUpUs 1000
    distRdma := (distReadSum i true d).roundUpUs 1000
    derate := d }

/-- The derate of band `b` for `k`: the largest of the bands from b - k to b + k that exist (R223). -/
def derateOver (derates : List Nat) (b k : Nat) : Nat :=
  (List.range 5).foldl (fun m i => if b ≤ i + k ∧ i ≤ b + k then max m (derates.getD i 0) else m) 0

/-- A command's bound in µs: v × B + (u - v) × E (R209). -/
def extendedBoundUs (b e u v : Nat) : Nat := v * b + (u - v) * e

/-- The tenant slot of virtual function `k` (1 and up) of physical function `pf` (*Functions*, R298); none where no such
function exists. -/
def slotOfVf (dual : Bool) (vfb pf k : Nat) : Option Nat :=
  if dual then
    if pf = 0 then (if 1 ≤ k ∧ k ≤ 254 - vfb then some (1 + k) else none)
    else if pf = 1 then (if 1 ≤ k ∧ k ≤ vfb then some (255 - vfb + k) else none) else none
  else if pf = 0 ∧ 1 ≤ k ∧ k ≤ 255 then some k else none

/-- The port a tenant slot's function lies on (R295, R298). -/
def portOfSlot (dual : Bool) (vfb slot : Nat) : Nat := if dual ∧ (slot = 1 ∨ 255 - vfb < slot) then 1 else 0

/-- SQ y's tail doorbell in BAR0 (*BAR0 layout*, R299). -/
def sqDoorbell (y : Nat) : Nat := 0x1000 + 8 * y

/-- CQ y's head doorbell in BAR0 (R299). -/
def cqDoorbell (y : Nat) : Nat := 0x1004 + 8 * y

/-- Row letters of the ball grid: 19 letters (R543). -/
def ballLetters : List Char :=
  ['A', 'B', 'C', 'D', 'E', 'F', 'G', 'H', 'J', 'K', 'L', 'M', 'N', 'P', 'T', 'U', 'V', 'W', 'Y']

/-- The name of ball row `r`, 1-64 (R543). -/
def ballRow (r : Nat) : List Char :=
  let c := ballLetters.getD ((r - 1) % 19) 'A'
  if r ≤ 19 then [c] else [ballLetters.getD ((r - 1) / 19 - 1) 'A', c]

/-- Grid row of a lane's pair: `rx` false for LTX, true for LRX (R545). -/
def lanePairRow (lane : Nat) (rx : Bool) : Nat :=
  let b := lane / 16
  let start := if b < 16 then 12 * (b / 8) + 1 else 41 + 12 * ((b - 16) / 8)
  start + 3 * (lane % 16 / 4) + (if rx then 1 else 0)

/-- Grid column of a lane's ball: `neg` for _N (R545). -/
def lanePairColumn (lane : Nat) (neg : Bool) : Nat := 8 * (lane / 16 % 8) + 1 + 2 * (lane % 4) + (if neg then 1 else 0)

end Sys2Proof.Machine
end

