-- ==== Sys2Proof/Machine/Recorder.lean ====
section
/-! DEFINITION. The event recorder: acceptance of records, the full recorder and the last-gasp bank, release, and
Recorder Snapshot (R533-R541). -/

namespace Sys2Proof.Machine

/-- Records the recorder memory holds (R536). -/
def recorderCapacity : Nat := 65536

/-- Records the last-gasp bank holds (R536). -/
def lastGaspCapacity : Nat := 8

/-- EVR_TAIL: SEQ of the oldest record held, or HEAD when none is (R541). -/
def State.evrTail (s : State) : Nat :=
  match s.evr.held with
  | [] => s.aon.evrHead
  | r :: _ => r.seq

/-- The record that an arrival becomes at acceptance: SEQ of the common counter, TIME of acceptance (R534). -/
def State.stamp (s : State) (e : EvRec) : Record := ⟨s.aon.evrHead, s.now, e⟩

/-- HEAD advances past a record that took a SEQ (R534). -/
def State.advanceHead (s : State) : State := s.onAon fun a => { a with evrHead := a.evrHead + 1 }

/-- A record written to the recorder memory; the 65,536th stops ordinary recording (R536). -/
def State.recordHeld (s : State) (e : EvRec) : State :=
  let r := s.stamp e
  (s.onEvr fun v =>
    { v with held := v.held ++ [r],
             mode := if v.held.length + 1 = recorderCapacity then .full else v.mode,
             droppedWhileFull := if v.held.length + 1 = recorderCapacity then 0 else v.droppedWhileFull }).advanceHead

/-- A record dropped and counted; a drop while full is counted for event 0x0F0A too (R535-R537). -/
def State.recordDropped (s : State) : State :=
  (s.onAon fun a => { a with evrDropped := satAdd 32 a.evrDropped 1 }).onEvr fun v =>
    { v with droppedWhileFull := if v.mode = .full then v.droppedWhileFull + 1 else v.droppedWhileFull }

/-- A fault record written to the last-gasp bank with the next SEQ; in a full recorder the eighth raises event 0x0F0B
(R536). -/
def State.recordLastGasp (s : State) (e : EvRec) : State :=
  let r := s.stamp e
  let s' := (s.onAon fun a => { a with lastGasp := a.lastGasp ++ [r] }).advanceHead
  if s.evr.mode = .full ∧ s.aon.lastGasp.length + 1 = lastGaspCapacity
  then s'.raise 0x0F0B srcRecorder r.seq 0 0 0 else s'

/-- The recorder takes one arrival that is in front of it (R536, R540). -/
def State.acceptRecord (s : State) (e : EvRec) : State :=
  match s.evr.mode with
  | .recording => s.recordHeld e
  | .full => if isFaultCode e.code.toNat then s.recordLastGasp e else s.recordDropped
  | .lastGasp =>
    if isFaultCode e.code.toNat && decide (s.aon.lastGasp.length < lastGaspCapacity) then s.recordLastGasp e
    else s.recordDropped

/-- An arrival waits: it is a fault record that finds both the memory and the last-gasp bank full (R536). -/
def State.recordWaits (s : State) (e : EvRec) : Bool :=
  s.evr.mode == .full && isFaultCode e.code.toNat && decide (lastGaspCapacity ≤ s.aon.lastGasp.length)

/-- The first arrival that need not wait, with the others in order. -/
def splitReady (waits : EvRec → Bool) : List (Nat × EvRec) → Option (EvRec × List (Nat × EvRec))
  | [] => none
  | (t, e) :: q =>
    if waits e then (splitReady waits q).map fun (x, rest) => (x, (t, e) :: rest) else some (e, q)

/-- Fault records held at their source take the entries that have freed, oldest first (R535). -/
def State.admitHeld (s : State) : State :=
  match s.evr.atSource with
  | [] => s
  | e :: rest =>
    if s.evr.queue.length < 256
    then s.onEvr fun v => { v with queue := enqueueArrival v.queue s.now e, atSource := rest }
    else s

/-- EVENT_RECORD_ARRIVAL: the recorder takes the next record of its arrival queue (R534-R537, R540). It runs while the chip domain
does. -/
def execEventRecordArrival (s : State) : Host.Outcome State Fault Refusal :=
  .next (match (if s.running then splitReady s.recordWaits s.evr.queue else none) with
    | none => s
    | some (e, rest) => ((s.onEvr fun v => { v with queue := rest }).acceptRecord e).admitHeld)

/-- The party may release records: EVR_CFG.RELEASER names it, or either (R537). -/
def State.mayRelease (s : State) (p : Party) : Bool :=
  match p with
  | .manager => s.cfg .evrCfg 0 31 30 == 0 || s.cfg .evrCfg 0 31 30 == 2
  | .mgmtController => s.cfg .evrCfg 0 31 30 == 1 || s.cfg .evrCfg 0 31 30 == 2

/-- EVR_RELEASE with value `n`: every held record with SEQ at or below it is released when it lies below EVR_HEAD. A release
that frees space in a full recorder resumes recording, with event 0x0F0A as its first record (R537). -/
def State.releaseRecords (s : State) (n : Nat) : State :=
  if n < s.aon.evrHead then
    let kept := s.evr.held.filter fun r => decide (n < r.seq)
    let s' := s.onEvr fun v => { v with held := kept }
    if s.evr.mode = .full ∧ kept.length < recorderCapacity then
      let dropped := s.evr.droppedWhileFull
      (s'.onEvr fun v => { v with mode := .recording, droppedWhileFull := 0 }).recordHeld
        ⟨0x0F0A, BitVec.ofNat 16 srcRecorder, BitVec.ofNat 32 dropped, BitVec.ofNat 32 s.aon.evrHead, 0, 0⟩
    else s'
  else s

/-- A write by a party to EVR_RELEASE or EVR_LG_CLEAR at offset `o`: it acts only from the releaser (R537). A manager's that is not is
denied (R563); the management controller is answered (R564). -/
def State.releaserWrite (s : State) (party : Party) (o : Nat) (act : State → State) : State :=
  match party, s.mayRelease party with
  | .manager, true => act s
  | .manager, false => s.countDenied 1 o
  | .mgmtController, true => (act s).reply (.ok [])
  | .mgmtController, false => s.reply .invalidParameter

/-- EVR_RELEASE_WRITE (R537). -/
def execEvrReleaseWrite (party : Party) (seq : Nat) (s : State) : Host.Outcome State Fault Refusal :=
  .next (if s.running then s.releaserWrite party (Reg.offset .evrRelease 0) fun s => s.releaseRecords seq else s)

/-- The last-gasp bank emptied (*EVR_LG_CLEAR*). -/
def State.clearLastGasp (s : State) : State := s.onAon fun a => { a with lastGasp := [] }

/-- EVR_LG_CLEAR_WRITE: a write of 1 by the releaser empties the last-gasp bank (R536). -/
def execEvrLgClearWrite (party : Party) (s : State) : Host.Outcome State Fault Refusal :=
  .next (if s.running then s.releaserWrite party (Reg.offset .evrLgClear 0) State.clearLastGasp else s)

/-- The 32 bytes of a record at byte `o` (*Event record*, R533). -/
def Record.bytes (r : Record) (o : Nat) : List FieldVal :=
  [⟨o, 4, r.seq % 2 ^ 32⟩, ⟨o + 4, 2, r.ev.code.toNat⟩, ⟨o + 6, 2, r.ev.source.toNat⟩, ⟨o + 8, 8, r.time % 2 ^ 64⟩,
   ⟨o + 16, 4, r.ev.p1.toNat⟩, ⟨o + 20, 4, r.ev.p2.toNat⟩, ⟨o + 24, 4, r.ev.p3.toNat⟩, ⟨o + 28, 4, r.ev.p4.toNat⟩]

/-- Dword `j` of a record, as EVR_LG and EVR_REC show it (R533). -/
def Record.dword (r : Record) (j : Nat) : Nat :=
  match j with
  | 0 => r.seq % 2 ^ 32
  | 1 => r.ev.code.toNat + 65536 * r.ev.source.toNat
  | 2 => r.time % 2 ^ 32
  | 3 => r.time / 2 ^ 32 % 2 ^ 32
  | 4 => r.ev.p1.toNat
  | 5 => r.ev.p2.toNat
  | 6 => r.ev.p3.toNat
  | 7 => r.ev.p4.toNat
  | _ => 0

/-- Records laid out from byte `o`, 32 bytes each, in the order given. -/
def recordBytes (o : Nat) : List Record → List FieldVal
  | [] => []
  | r :: rs => r.bytes o ++ recordBytes (o + 32) rs

/-- The code of EVR_STAT.MODE. -/
def RecMode.code : RecMode → Nat
  | .recording => 0
  | .full => 1
  | .lastGasp => 2

/-- EVR_STAT as it reads (R541). -/
def State.evrStat (s : State) : Nat :=
  packWord [(31, 30, s.evr.mode.code), (29, 26, s.aon.lastGasp.length), (16, 0, s.evr.held.length)]

/-- The 32-byte header of Recorder Snapshot (R539). -/
def State.snapshotHeader (s : State) : List FieldVal :=
  [⟨0, 4, s.aon.evrHead % 2 ^ 32⟩, ⟨4, 4, s.evrTail % 2 ^ 32⟩, ⟨8, 4, s.evrStat⟩, ⟨12, 4, s.aon.evrDropped⟩,
   ⟨16, 8, s.now % 2 ^ 64⟩]

/-- The records that a transfer of bytes [a, b) takes whole, the first lying at byte `o` (R539). -/
def wholeRecords (a b o : Nat) : List Record → List FieldVal
  | [] => []
  | r :: rs =>
    (if a ≤ o ∧ o + 32 ≤ b then (r.bytes o).flatMap (FieldVal.cut a b) else []) ++ wholeRecords a b (o + 32) rs

/-- A snapshot's data: the header, then the records that the transfer takes whole (R539, R316). -/
def State.snapshotData (s : State) (rs : List Record) (numd ofst : Nat) : List FieldVal :=
  s.snapshotHeader.flatMap (FieldVal.cut (4 * ofst) (4 * ofst + 4 * (numd + 1))) ++
  wholeRecords (4 * ofst) (4 * ofst + 4 * (numd + 1)) 32 rs

/-- Recorder Snapshot of a list of records (R539). -/
def State.snapshot (s : State) (h : Hdr) (rs : List Record) (numd ofst : Nat) : State :=
  s.admin ruleBoot h fun s =>
    if overMdts numd then s.complete h .invalidField
    else s.completeWith h .success 0 0 (s.snapshotData rs numd ofst)

/-- RECORDER_SNAPSHOT_HELD (SELECT 0x1): held records from SEQ upward; the header only after a memory failure (R539,
R540). -/
def execRecorderSnapshotHeld (h : Hdr) (seq numd ofst : Nat) (s : State) : Host.Outcome State Fault Refusal :=
  .next (s.snapshot h (if s.evr.mode = .lastGasp then [] else s.evr.held.filter fun r => decide (seq ≤ r.seq)) numd ofst)

/-- RECORDER_SNAPSHOT_LAST_GASP (SELECT 0x2): the last-gasp bank (R539). -/
def execRecorderSnapshotLastGasp (h : Hdr) (numd ofst : Nat) (s : State) : Host.Outcome State Fault Refusal :=
  .next (s.snapshot h s.aon.lastGasp numd ofst)

/-- RECORDER_SNAPSHOT_KEPT (SELECT 0x4): the records that R538 kept in the checkpoint journal (R539). -/
def execRecorderSnapshotKept (h : Hdr) (numd ofst : Nat) (s : State) : Host.Outcome State Fault Refusal :=
  .next (s.snapshot h s.store.keptRecords numd ofst)

/-- The recorder memory fails: event 0x0F09 goes to the last-gasp bank, ordinary recording stops until chip domain reset, and
tenant 0 is told (R540). `how` is 1 for an access and 2 for the self-test. -/
def State.recorderMemoryFault (s : State) (addr how : Nat) : State :=
  if s.evr.mode = .lastGasp then s
  else
    let e : EvRec := ⟨0x0F09, BitVec.ofNat 16 srcRecorder, BitVec.ofNat 32 addr,
      BitVec.ofNat 32 s.evr.held.length, BitVec.ofNat 32 how, 0⟩
    let s := (s.onEvr fun v => { v with mode := .lastGasp }).notify 0 .persistentInternalError
    if s.aon.lastGasp.length < lastGaspCapacity then s.recordLastGasp e else s.recordDropped

/-- The newest 256 held records go into the checkpoint journal (R538); none of a failed memory, which is not read again (R540). -/
def State.keepRecords (s : State) : State :=
  let held := if s.evr.mode = .lastGasp then [] else s.evr.held
  s.onStore fun t => { t with keptRecords := held.drop (held.length - 256) }

end Sys2Proof.Machine
end

