-- ==== Sys2Proof/Machine/Bank.lean ====
section
/-! DEFINITION. The hold-up bank and the dirty-byte limit (R406-R416): energies, charging, the isolation and hold outputs,
D_max and overcommit, the try-after of Energy Reserve Low. Energies are in nJ, voltages in mV, capacitance in 10 µF. -/

namespace Sys2Proof.Machine

/-- Dirty bytes of a row: its staged LBAs, and both parity units once the first quarter has written them (R50, R178). -/
def Row.dirtyBytes (r : Row) : Nat := 4096 * countBits r.staged 256 + if r.quarters = 0 then 0 else 131072

/-- Bytes of a write staged behind a reset that has not taken effect: dirty, but in no row of the zone yet (R76, step 2). -/
def Ctx.behindBytes (x : Ctx) : Nat := if x.behind && x.phase == .done then 4096 * x.places.length else 0

/-- The dirty bytes held (R50). -/
def State.dirtyBytes (s : State) : Nat :=
  s.work.rows.foldl (fun n r => n + r.dirtyBytes) (Tbl.sum (fun o => (o.map Ctx.behindBytes).getD 0) s.work.ctxs)

/-- The dirty bytes held by one tenant (R85). -/
def State.dirtyOf (s : State) (t : Nat) : Nat :=
  s.work.rows.foldl (fun n r => if r.tenant = t then n + r.dirtyBytes else n)
    (Tbl.sum (fun o => (o.map fun (x : Ctx) => if x.tenant = t then x.behindBytes else 0).getD 0) s.work.ctxs)

/-- Dirty bytes in whole KiB, rounded up. -/
def State.dirtyKib (s : State) : Nat := ceilDiv s.dirtyBytes 1024

/-- The energy ceiling, mJ; values above 60,000 act as 60,000 (R408). -/
def State.ceilMj (s : State) : Nat := min 60000 (s.cfg .pwrHuCap 0 31 16)

/-- Loop 2's target CEIL - MARGIN, mJ (R408). -/
def State.bankTargetMj (s : State) : Nat := s.ceilMj - s.cfg .pwrHuCap 0 15 0

/-- The configured capacitance C_cfg. -/
def State.cCfg (s : State) : Nat := s.cfg .pwrHuBank 0 31 16

/-- The effective capacitance: the lower of C_cfg and C_est (R407). -/
def State.cEff (s : State) : Nat := min s.cCfg (s.bank.cEst.getD s.cCfg)

/-- V_min, mV. -/
def State.vMin (s : State) : Nat := s.cfg .pwrHuBank 0 15 0

/-- What a fast-sense input reads: 0 voltage and 1 current at the input, 2 voltage and 3 current of the bank, in mV and mA, at most the full
scale of PWR_FS_SCALE (R398). -/
def State.fastSense (s : State) (k v : Nat) : Nat := min v (s.cfg .pwrFsScale k 31 16)

/-- The measurements of a period as the fast-sense ADC reads them (R398): a level below 0 reads as 0, one above full scale as full scale. -/
def State.readSample (s : State) (k : Nat) (x : LoopSample) : LoopSample :=
  let value := match s.cfg .loopCfg k 29 27 with
    | 1 => (s.fastSense 0 x.value.toNat : Int)
    | 2 => (s.fastSense 1 x.value.toNat : Int)
    | _ => x.value
  { x with value := value, inPowerMw := min x.inPowerMw (s.cfg .pwrFsScale 0 31 16 * s.cfg .pwrFsScale 1 31 16 / 1000),
           bankMv := s.fastSense 2 x.bankMv, bankLowMv := s.fastSense 2 x.bankLowMv, bankMa := s.fastSense 3 x.bankMa }

/-- E_bank at `v` mV (R407). -/
def State.eBankAt (s : State) (v : Nat) : Nat := s.cEff * v * v / 200

/-- E_usable at `v` mV with capacitance `c` (R407). -/
def usableAt (c eff vmin v : Nat) : Nat := eff * c * (v * v - vmin * vmin) / 20000

/-- E_usable at `v` mV in force. -/
def State.usable (s : State) (v : Nat) : Nat := usableAt s.cEff (s.cfg .pwrHuEff 0 31 24) s.vMin v

/-- E_fixed, nJ. -/
def State.eFixed (s : State) : Nat := s.cfg .pwrHuFlush 0 31 16 * 1000000

/-- e_flush, nJ per KiB. -/
def State.eFlush (s : State) : Nat := s.cfg .pwrHuFlush 0 15 0

/-- D_max for an E_usable, whole KiB; 0 when e_flush is 0 (R414). -/
def State.dmaxFor (s : State) (eUsable : Nat) : Nat := if s.eFlush = 0 then 0 else (eUsable - s.eFixed) / s.eFlush

/-- The energy that R414 predicts for `kib` of dirty data, nJ (R417). -/
def State.predicted (s : State) (kib : Nat) : Nat := s.eFixed + s.eFlush * kib

/-- The try-after of Energy Reserve Low for a write of `bytes`, µs, before the limits of R219 (R415). The square root is
taken exactly: the least whole number at or above it. -/
def State.energyTryAfter (s : State) (bytes : Nat) : Nat :=
  let period := min 10000 (max 2 (s.cfg .loopCfg 2 13 0))
  let den := s.cfg .pwrHuEff 0 31 24 * s.cEff
  if s.bank.ma = 0 ∨ den = 0 then 1000000
  else
    let eNeed := s.eFixed + ceilDiv (s.eFlush * bytes) 1024
    let num := s.vMin * s.vMin * den + 20000 * eNeed
    let a := 10 * s.cEff
    let need := ceilSqrtDiv (a * a * num) den
    ceilDiv (need - a * s.bank.lowMv) s.bank.ma + period

/-- Event 0x0E10-0x0E18 of the loop engine with sub-instance 2 (R421). -/
def State.raiseBank (s : State) (code p1 p2 p3 : Nat) : State := s.raise code srcLoopEngine (subParam 2 p1) p2 p3 0

/-- Restored rows that the bank covers from now on need their landing die blocks no more (R184). -/
def State.uncoverRows (s : State) : State :=
  if s.work.rows.any (·.covered) then s.onWork fun w => { w with rows := w.rows.map fun r => { r with covered := false } } else s

/-- The dirty bytes compared with D_max (R416): OVERCOMMIT with event 0x0E15 at the start and 0x0E16 at the end. -/
def State.compareDirty (s : State) : State :=
  if s.bank.dmax * 1024 < s.dirtyBytes then
    match s.bank.overSince with
    | some _ => s
    | none => (s.onBank fun b => { b with overSince := some s.now }).raiseBank 0x0E15 s.dirtyKib s.bank.dmax s.bank.lowMv
  else
    match s.bank.overSince with
    | none => s.uncoverRows
    | some t => ((s.onBank fun b => { b with overSince := none }).raiseBank 0x0E16 (usSince s.now t) 0 0).uncoverRows

/-- Dirty bytes are held above D_max. -/
def State.overcommit (s : State) : Bool := s.bank.overSince.isSome

/-- The conditions of R409 for charging; PWR_BFI_N low keeps the bank isolated until the next Warm-up (R411). -/
def State.mayCharge (s : State) : Bool :=
  s.running && s.aon.pfdGood && s.stepComplete 4 && !s.aon.trip && !s.bank.fault && !s.aon.bfiLow &&
  (s.power.mode == .warmup || s.power.mode == .stride || s.power.mode == .sprint || s.power.mode == .lull)

/-- The bleed released or started: PWR_HOLD goes low with event 0x0E18 and its cause (R412). -/
def State.releaseHold (s : State) (cause : Nat) : State :=
  if s.aon.holdHigh then
    (s.onAon fun a => { a with holdHigh := false }).raiseBank 0x0E18 s.bank.lowMv cause 0
  else s

/-- PWR_ISO_N follows charging and the ceiling comparator (R408, R409). -/
def State.driveIso (s : State) : State := s.onAon fun a => { a with isoLow := !s.bank.charging || s.bank.ceilTrip }

/-- Charging started or stopped as R409 directs: event 0x0E10 and PWR_HOLD high at the start (R412), loop 1 held at 0 and
PWR_ISO_N low when it stops. -/
def State.refreshCharging (s : State) : State :=
  if s.mayCharge = s.bank.charging then s
  else if s.mayCharge then
    (((s.onBank fun b => { b with charging := true, since := some s.now, atTarget := false }).onAon
      fun a => { a with holdHigh := true }).raiseBank 0x0E10 s.bank.mv s.cCfg 0).driveIso
  else
    ((s.onBank fun b => { b with charging := false, since := none }).updLoop 1
      fun l => { l with out := 0, integ := 0 }).driveIso

/-- The capacitance estimate of a charge interval: charge over rise when the rise is 0.5 V or more (R410). -/
def State.estimateC (s : State) (chargeUc riseMv : Nat) : State :=
  if s.bank.charging ∧ 500 ≤ riseMv then
    let c := satTo 16 (chargeUc * 100 / riseMv)
    let low := decide (c * 100 < s.cfg .pwrHuEff 0 23 16 * s.cCfg)
    let s' := s.onBank fun b => { b with cEst := some c, cLow := low }
    if low ∧ ¬s.bank.cLow then s'.raiseBank 0x0E13 c s.cCfg 0 else s'
  else s

/-- D_max recomputed from the lowest voltage of a completed loop-2 period (R414). -/
def State.recomputeDmax (s : State) (lowMv ma : Nat) : State :=
  let e := s.usable lowMv
  (s.onBank fun b => { b with lowMv := lowMv, ma := ma, eUsable := e, dmax := s.dmaxFor e }).compareDirty

/-- The bank measured at the end of a loop-2 period: the estimate, the ceiling comparator's end, the target reached, and
D_max (R408, R410, R414). -/
def State.measureBank (s : State) (x : LoopSample) : State :=
  let s := (s.onBank fun b => { b with mv := x.bankMv }).estimateC x.chargeUc x.riseMv
  let e := s.eBankAt x.bankMv / 1000000
  let s := if s.bank.ceilTrip ∧ e ≤ s.bankTargetMj then (s.onBank fun b => { b with ceilTrip := false }).driveIso else s
  let s := s.recomputeDmax x.bankLowMv x.bankMa
  match s.bank.charging, s.bank.atTarget, s.bank.since with
  | true, false, some t =>
    if s.bankTargetMj ≤ e then
      (s.onBank fun b => { b with atTarget := true }).raiseBank 0x0E11 ((s.now - t) / 1000000) (s.bank.cEst.getD s.cCfg)
        (s.bank.eUsable / 1000000)
    else s
  | _, _, _ => s

/-- CEIL_COMPARATOR_TRIP: bank voltage above sqrt(2 × 1.05 × CEIL ÷ C_cfg) drives PWR_ISO_N low until the energy has fallen to
CEIL - MARGIN (R408). -/
def execCeilComparatorTrip (bankMv : Nat) (s : State) : Host.Outcome State Fault Refusal :=
  .next (if s.running && !s.bank.ceilTrip && decide (420 * s.ceilMj * 1000000 < 2 * s.cCfg * bankMv * bankMv) then
      ((s.onBank fun b => { b with ceilTrip := true }).driveIso).raiseBank 0x0E12 bankMv s.ceilMj 0
    else s)

/-- The signs of a charger fault (R409): loop 1's output at OUT_HI, the bank current below half its set-point. -/
def State.chargerStuck (s : State) (measuredMa : Nat) : Bool :=
  decide ((s.loop 1).out = signedOf 32 (s.cfg .loopOutHi 1 31 0)) && decide (2 * (measuredMa : Int) < (s.loop 1).sp)

/-- CHARGER_FAULT: loop 1 at OUT_HI for 100 ms with the current below half its set-point latches the fault until chip domain
reset (R409). -/
def execChargerFault (measuredMa : Nat) (s : State) : Host.Outcome State Fault Refusal :=
  .next (if s.bank.charging && !s.bank.fault && s.chargerStuck measuredMa then
      ((s.onBank fun b => { b with fault := true }).raiseBank 0x0E14 (twosOf 24 (s.loop 1).sp) measuredMa 0).refreshCharging
    else s)

end Sys2Proof.Machine
end

