-- ==== Sys2Proof/Machine/Batons.lean ====
section
/-! DEFINITION. The baton broker (R390-R397): values, accounts and ranks of requests, grants by deficit round robin, returns,
and the projected wait. -/

namespace Sys2Proof.Machine

/-- The value of an operation's baton, units (*Heavy operations*). -/
def State.batonValue (s : State) (op : HeavyOp) : Nat :=
  match op with
  | .program _ _ => s.cfg .batonValA 0 31 24
  | .erase _ _ => s.cfg .batonValA 0 23 16
  | .softDecode _ _ => s.cfg .batonValA 0 15 8
  | .burst _ => s.cfg .batonValB 0 23 16
  | .lane _ => s.cfg .batonValA 0 7 0
  | .dram _ => s.cfg .batonValB 0 9 0

/-- The first program pass of a die queue that waits for its baton. -/
def Die.waitingPass (d : Die) : Option QEntry :=
  d.queue.find? fun e => (e.kind == .coarse || e.kind == .fine) && !e.baton

/-- The dirty row that holds the lowest stripe row of a word line, or a later one of it. -/
def State.rowOfPass (s : State) (e : QEntry) : Option Row :=
  s.work.rows.find? fun r => r.zk == e.zk && r.row / 4 == e.page

/-- A pass of a relocation, or of a member that is rebuilt (R193, R168, R201). -/
def State.devicePass (s : State) (e : QEntry) : Bool :=
  (s.zone e.zk).relocTgt == some (e.pos, e.block) || (s.zone e.zk).refills.any fun r => r.pos == e.pos && !r.filled

/-- The account an operation is charged to, none = the device (*Heavy operations*). -/
def State.batonAccount (s : State) (op : HeavyOp) : Option Nat :=
  match op with
  | .program lane die => match (s.die (dieKey lane die)).waitingPass with
    | none => none
    | some e => if s.devicePass e then none else some (s.ns (nsOfKey e.zk)).tenant
  | .softDecode c _ => (s.ctxAt c).map fun x => x.tenant
  | .burst c => (s.ctxAt c).map fun x => x.tenant
  | .erase _ _ | .lane _ | .dram _ => none

/-- The rank of a request when it is made: 1 soft decode, 2 a Tempo burst, 4 the rest (R393). -/
def State.batonRank (s : State) (op : HeavyOp) : Nat :=
  match op with
  | .softDecode _ _ => 1
  | .burst c => match s.ctxAt c with
    | some x => if x.cls = .tempo then 2 else 4
    | none => 4
  | _ => 4

/-- The order in which the row of a program pass was first staged (R393, rank 3); none when its rows hold no dirty bytes. -/
def State.batonRow (s : State) (op : HeavyOp) : Option Nat :=
  match op with
  | .program lane die => ((s.die (dieKey lane die)).waitingPass).bind fun e => (s.rowOfPass e).map (·.order)
  | _ => none

/-- OUTSTANDING (R392). -/
def Broker.outstanding (b : Broker) : Nat := b.out.foldl (fun n x => n + x.value) 0

/-- The operation holds a baton or waits for one. -/
def Broker.knows (b : Broker) (op : HeavyOp) : Bool := b.out.any (·.op == op) || b.waiting.any (·.op == op)

/-- The operation holds a baton. -/
def Broker.holds (b : Broker) (op : HeavyOp) : Bool := b.out.any (·.op == op)

/-- A request joins the waiting ones, unless the operation already holds or waits for its baton. A compression burst of the
TZ5120-K asks for none (R391). -/
def State.requestBaton (s : State) (op : HeavyOp) : State :=
  let absent := match op with
    | .burst _ => !s.hasCompression
    | _ => false
  if absent || s.broker.knows op then s
  else s.onBroker fun b => { b with waiting := b.waiting ++
    [{ op := op, value := s.batonValue op, account := s.batonAccount op, rank := s.batonRank op,
       order := (s.batonRow op).getD 0, atNs := s.now }] }

/-- The weight of an account (R393). -/
def State.accountWeight (s : State) (a : Option Nat) : Nat :=
  match a with
  | none => max 1 (s.cfg .batonValB 0 31 24)
  | some t => max 1 (s.cfg .tntBaton t 23 16)

/-- The place of an account in the round: the device 0, tenant t at t + 1. -/
def accountCode (a : Option Nat) : Nat :=
  match a with
  | none => 0
  | some t => t + 1

/-- The account of a place in the round. -/
def accountOfCode (c : Nat) : Option Nat := if c = 0 then none else some (c - 1)

/-- The oldest request of each account, in order of arrival. -/
def accountHeads : List Baton → List Baton
  | [] => []
  | b :: bs => b :: (accountHeads bs).filter fun x => x.account != b.account

/-- How many turns an account needs before its credit covers a value. -/
def turnsFor (credit perTurn value : Nat) : Nat := if value ≤ credit then 0 else ceilDiv (value - credit) perTurn

/-- Deficit round robin (R393): the turns each head still needs, with its distance round the 257 accounts from the account
whose turn it is. The account of the turn has had its credit; any other gets its first at its next turn. -/
def State.drrPlan (s : State) (credit : Tbl Nat) (turn : Nat) (heads : List Baton) : List (Nat × Nat × Baton) :=
  heads.map fun b =>
    let c := accountCode b.account
    let k := turnsFor (Tbl.look 0 credit c) (8 * s.accountWeight b.account) b.value
    let d := (c + 257 - turn) % 257
    if d = 0 then (k, if k = 0 then 0 else 257, b) else (max 1 k, d, b)

/-- The head that the round reaches first. -/
def drrFirst : List (Nat × Nat × Baton) → Option (Nat × Nat × Baton)
  | [] => none
  | x :: xs => match drrFirst xs with
    | none => some x
    | some y => if x.1 < y.1 ∨ (x.1 = y.1 ∧ x.2.1 ≤ y.2.1) then some x else some y

/-- The credits after the round reached `w`: each head has had the credit of the turns that passed. -/
def State.drrCredits (s : State) (plan : List (Nat × Nat × Baton)) (w : Nat × Nat × Baton) (credit : Tbl Nat) : Tbl Nat :=
  plan.foldl (fun t x =>
    let c := accountCode x.2.2.account
    let turns := if x.2.1 ≤ w.2.1 then w.1 else w.1 - 1
    Tbl.put 0 t c (Tbl.look 0 t c + turns * (8 * s.accountWeight x.2.2.account))) credit

/-- The next request of rank `rank` by deficit round robin, with the credits and the turn brought up to it. -/
def State.drrNext (s : State) (rank : Nat) : Option Baton × State :=
  let heads := accountHeads (s.broker.waiting.filter fun b => b.rank == rank)
  let (credit, turn) := if rank = 2 then (s.broker.credit2, s.broker.turn2) else (s.broker.credit4, s.broker.turn4)
  let plan := s.drrPlan credit turn heads
  match drrFirst plan with
  | none => (none, s)
  | some w =>
    let credit := s.drrCredits plan w credit
    let turn := accountCode w.2.2.account
    (some w.2.2, s.onBroker fun b => if rank = 2 then { b with credit2 := credit, turn2 := turn }
      else { b with credit4 := credit, turn4 := turn })

/-- The end that a held baton is projected to have, ns (R396): the booked end of a pass or erase, or the longest time its
operation can hold it. -/
def State.batonEnd (s : State) (op : HeavyOp) (grantNs : Nat) : Nat :=
  let booked := fun (lane die : Nat) (base susp : Nat) =>
    let stop := (s.die (dieKey lane die)).cal.foldl (fun m b => if b.read then m else max m b.stop) 0
    if grantNs < stop / 1000 then stop / 1000
    else grantNs + 1000 * occupancyUs base susp (s.cfg .chipDieSusp 0 5 0) (bitsOf (s.lane lane).brPoll 11 0)
      (max 1 (s.cfg .chipDieSusp 0 15 12)) (s.cfg .chipDieTread 0 15 0) (s.cfg .chipDieSusp 0 11 6)
  match op with
  | .program lane die => booked lane die (s.cfg .chipDieTprog 0 31 16) (s.cfg .chipDieSusp 0 23 16)
  | .erase lane die => booked lane die (s.cfg .chipDieTerase 0 31 16) (s.cfg .chipDieSusp 0 31 24)
  | .softDecode _ _ => grantNs + 225000
  | .lane n => grantNs + (match (s.lane n).outage with
    | some .recal => 800000
    | some .wake => 810000
    | _ => 46420000)
  | .dram _ => grantNs + 200000000
  | .burst c => match s.ctxAt c with
    | none => grantNs + 65536
    | some x => max grantNs ((s.rgn (s.ns x.nsid).region).cmpBusyUntil / 1000) + 1024 * x.granules

/-- The limit of R392 for a request. -/
def State.batonLimit (s : State) (b : Baton) : Nat :=
  if b.rank = 1 then s.broker.budget else s.broker.budget - s.cfg .batonCfg 0 15 0

/-- The earliest of a list of (end, value), and the rest. -/
def earliestEnd : List (Nat × Nat) → Option ((Nat × Nat) × List (Nat × Nat))
  | [] => none
  | x :: xs => match earliestEnd xs with
    | none => some (x, [])
    | some (y, ys) => if x.1 ≤ y.1 then some (x, xs) else some (y, x :: ys)

/-- Batons returned in order of their ends until `v` fits under `limit`: the time then, the sum then held, and what is still
held. None when it never fits. -/
def waitUntilFits : Nat → Nat → Nat → Nat → Nat → List (Nat × Nat) → Option (Nat × Nat × List (Nat × Nat))
  | 0, v, limit, t, held, ends => if held + v ≤ limit then some (t, held, ends) else none
  | n + 1, v, limit, t, held, ends =>
    if held + v ≤ limit then some (t, held, ends)
    else match earliestEnd ends with
      | none => none
      | some (e, rest) => waitUntilFits n v limit (max t e.1) (held - e.2) rest

/-- The time after which the last of a list of requests would be granted (R396). -/
def State.projectGrants (s : State) : List Baton → Nat → Nat → List (Nat × Nat) → Option Nat
  | [], t, _, _ => some t
  | b :: bs, t, held, ends =>
    match waitUntilFits ends.length b.value (s.batonLimit b) t held ends with
    | none => none
    | some (t, held, ends) => s.projectGrants bs t (held + b.value) ((s.batonEnd b.op t, b.value) :: ends)

/-- The wait reported when no grant can be projected, µs: the longest try-after (R219). -/
def longestWaitUs : Nat := 1000000

/-- The projected wait of a program pass queued now, µs: the requests ahead are the waiting ones in rank order (R396). -/
def State.projectedWait (s : State) : Nat :=
  if s.broker.closed then longestWaitUs
  else
    let byRank := fun k => s.broker.waiting.filter fun b => b.rank == k
    let own : Baton := { op := .program 512 0, value := s.batonValue (.program 0 0), account := none, rank := 4,
                         order := 0, atNs := s.now }
    match s.projectGrants (byRank 1 ++ byRank 2 ++ byRank 4 ++ [own]) s.now s.broker.outstanding
        (s.broker.out.map fun b => (max s.now (s.batonEnd b.op b.atNs), b.value)) with
    | none => longestWaitUs
    | some t => min longestWaitUs (ceilDiv (t - s.now) 1000)

/-- The projected wait reported to the timekeeper (R396). -/
def State.reportWait (s : State) : State :=
  let w := s.projectedWait
  (s.onBroker fun b => { b with wait := w }).onTmk fun k => { k with batonWait := w }

/-- The budget follows loop 0's output; until Warm-up step 8 it is never below WARMUP_BUDGET (R397). A change is reported
(R396) and recalls no baton (R395). -/
def State.setBudget (s : State) (out : Int) : State :=
  let b := if s.power.mode = .warmup ∧ s.stepComplete 8 = false then max out.toNat (s.cfg .batonCfg 0 31 16) else out.toNat
  if b = s.broker.budget then s else (s.onBroker fun k => { k with budget := b }).reportWait

/-- The broker grants nothing (Homestretch, Lull and Calm, R397; thermal trip, R517) or grants again. -/
def State.closeBroker (s : State) (closed : Bool) : State :=
  if s.broker.closed = closed then s else (s.onBroker fun b => { b with closed := closed }).reportWait

/-- A grant handed to the cell that asked: a pass or erase entry of the die queue may then start. -/
def State.markGranted (s : State) (op : HeavyOp) : State :=
  let mark := fun (k : Nat) (p : QEntry → Bool) =>
    let rec go : List QEntry → List QEntry
      | [] => []
      | e :: es => if p e then { e with baton := true } :: es else e :: go es
    s.updDie k fun d => { d with queue := go d.queue }
  match op with
  | .program lane die => mark (dieKey lane die) fun e => (e.kind == .coarse || e.kind == .fine) && !e.baton
  | .erase lane die => mark (dieKey lane die) fun e => e.kind == .erase && !e.baton
  | _ => s

/-- A baton granted: the request leaves the waiting ones and its value is outstanding (R392). -/
def State.grantBaton (s : State) (b : Baton) : State :=
  (s.onBroker fun k => { k with waiting := k.waiting.filter fun x => x.op != b.op,
                                out := k.out ++ [{ b with atNs := s.now }] }).markGranted b.op

/-- The baton spent from the account's credit of its rank; an account with nothing left waiting keeps no credit. -/
def State.spendCredit (s : State) (b : Baton) : State :=
  let c := accountCode b.account
  s.onBroker fun k =>
    let idle := !k.waiting.any fun x => x.rank == b.rank && x.account == b.account
    let spend := fun t => Tbl.put 0 t c (if idle then 0 else Tbl.look 0 t c - b.value)
    if b.rank = 2 then { k with credit2 := spend k.credit2 } else { k with credit4 := spend k.credit4 }

/-- A request of ranks 2 to 4 granted when it fits; otherwise it stops every grant after it (R393). -/
def State.grantIfFits (s : State) (b : Baton) (spend : Bool) : State :=
  if s.broker.outstanding + b.value ≤ s.batonLimit b then
    let s := s.grantBaton b
    if spend then s.spendCredit b else s
  else s

/-- The request of the row dirty longest, the oldest first within a row (R393, rank 3). -/
def State.dirtiestRequest (s : State) : Option Baton :=
  s.broker.waiting.foldl (fun best b =>
    match s.batonRow b.op with
    | none => best
    | some o => match best with
      | none => some { b with order := o }
      | some x => if o < x.order then some { b with order := o } else best) none

/-- One grant of ranks 2 to 4 (R393). -/
def State.grantRest (s : State) : State :=
  let (b2, s2) := s.drrNext 2
  match b2 with
  | some b => s2.grantIfFits b true
  | none =>
    match (if s.overcommit then s.dirtiestRequest else none) with
    | some b => s.grantIfFits b false
    | none =>
      let (b4, s4) := s.drrNext 4
      match b4 with
      | some b => s4.grantIfFits b true
      | none => s

/-- One grant in the order of R393: soft-decode steps on their own check, then Tempo bursts, then while the dirty bytes
exceed D_max the passes of dirty rows, then the rest. -/
def State.grantNext (s : State) : State :=
  if s.broker.closed then s
  else
    match s.broker.waiting.find? fun b => b.rank == 1 with
    | some b => if s.broker.outstanding + b.value ≤ s.broker.budget then s.grantBaton b else s.grantRest
    | none => s.grantRest

/-- A baton returned, or a waiting request withdrawn (R394). -/
def State.returnBaton (s : State) (op : HeavyOp) : State :=
  s.onBroker fun b => { b with out := b.out.filter fun x => x.op != op, waiting := b.waiting.filter fun x => x.op != op }

/-- BATON_REQUEST: a heavy operation asks for its baton (R392, R394). -/
def execBatonRequest (op : HeavyOp) (s : State) : Host.Outcome State Fault Refusal :=
  .next (if s.running then s.requestBaton op else s)

/-- A DRAM channel whose retraining has ended is resynced next; only the training held a baton (R457 steps 1 and 2). -/
def State.trainingEnded (s : State) (op : HeavyOp) : State :=
  match op with
  | .dram c => if (s.chan c).st = .retraining ∧ s.broker.holds op then s.updChan c fun x => { x with st := .resync } else s
  | .program _ _ | .erase _ _ | .softDecode _ _ | .burst _ | .lane _ => s

/-- BATON_RETURN: the operation has ended (R394). -/
def execBatonReturn (op : HeavyOp) (s : State) : Host.Outcome State Fault Refusal :=
  .next (if s.running then (s.trainingEnded op).returnBaton op else s)

/-- BATON_WAIT_REPORT (R396). -/
def execBatonWaitReport (s : State) : Host.Outcome State Fault Refusal :=
  .next (if s.running then s.reportWait else s)

end Sys2Proof.Machine
end

