-- ==== Sys2Proof/Machine/Loops.lean ====
section
/-! DEFINITION. The loop engine (R398-R405): one period of a loop, the soft-start and cap ramps, the gust detector, and what
the fixed loops drive. Working values are in 1/65,536 of an output unit; outputs are their whole parts (log entry 8). -/

namespace Sys2Proof.Machine

/-- The source of a loop: fixed for loops 0 to 3, LOOP_CFG.SRC for the others (*Fixed loops*, R404). -/
def State.loopSrc (s : State) (k : Nat) : Nat :=
  match k with
  | 0 => 0
  | 1 => 4
  | 2 => 5
  | 3 => 6
  | k => s.cfg .loopCfg k 29 27

/-- What a loop drives: fixed for loops 0 to 3, LOOP_CFG.DEST for the others. -/
def State.loopDest (s : State) (k : Nat) : Nat := if k < 4 then k else s.cfg .loopCfg k 26 24

/-- The scheduling variable of a loop: fixed for loops 0 to 3, LOOP_CFG.SCHED for the others. -/
def State.loopSched (s : State) (k : Nat) : Nat :=
  match k with
  | 0 => 1
  | 1 => 2
  | 2 => 0
  | 3 => 3
  | k => s.cfg .loopCfg k 23 22

/-- A signed 32-bit field of a loop block. -/
def State.loopWord (s : State) (r : Reg) (k : Nat) : Int := signedOf 32 (s.cfg r k 31 0)

/-- A loop's period, µs: LOOP_CFG.PERIOD from 2 to 10,000 (R398). -/
def State.loopPeriodUs (s : State) (k : Nat) : Nat := min 10000 (max 2 (s.cfg .loopCfg k 13 0))

/-- The cap of the mode, mW: Sprint, reduced in PS2, Stride otherwise (*Fixed loops*). -/
def State.modeCap (s : State) : Nat :=
  100 * (if s.power.ps = 2 then s.cfg .pwrCap 0 9 0
         else if s.power.mode = .sprint then s.cfg .pwrCap 0 29 20 else s.cfg .pwrCap 0 19 10)

/-- The cap in force: the ramping limit while a rise is ramped, the cap of the mode otherwise (R401). -/
def State.capLimit (s : State) : Nat :=
  match s.power.capRamp with
  | none => s.modeCap
  | some r => min r s.modeCap

/-- The cap of the mode has changed from `old` mW: a fall clamps loop 0's set-point and loop 3's output at once, a rise is
ramped from the measured input power (R401, R427). -/
def State.capChanged (s : State) (old : Nat) : State :=
  let new := s.modeCap
  if new = old then s
  else
    let s := s.onPower fun p => { p with capRamp :=
      if old < new ∧ (s.loop 0).running then some (min new (s.loop 0).meas.toNat) else none }
    let lim : Int := s.capLimit
    (s.updLoop 0 fun l => { l with sp := min l.sp lim }).updLoop 3 fun l => { l with out := min l.out lim }

/-- The cap ramp advanced by one loop 0 period: LOOP_RAMP of loop 0, 0 taking the new cap at once (R401). -/
def State.stepCapRamp (s : State) : State :=
  match s.power.capRamp with
  | none => s
  | some r =>
    let step := s.loopWord .loopRamp 0
    let r' := r + step.toNat
    s.onPower fun p => { p with capRamp := if step ≤ 0 ∨ s.modeCap ≤ r' then none else some r' }

/-- The value a loop measures in a period, none when its housekeeping source is broken or not valid (R398, R404). -/
def State.loopMeasure (s : State) (k : Nat) (x : LoopSample) : Option Int :=
  match s.loopSrc k with
  | 0 => some x.inPowerMw
  | 3 => some x.bankMv
  | 4 => some x.bankMa
  | 5 => some (s.eBankAt x.bankMv / 1000000 : Nat)
  | 6 => some s.aon.headroom
  | 7 =>
    let i := s.cfg .loopSrc k 5 0
    if s.cfgBit .loopSrc k 7 then
      let m := Tbl.look {} s.aon.supplies i
      if m.valid then some m.mv else none
    else
      let t := Tbl.look {} s.aon.sensors i
      if t.broken || !t.valid || s.power.adcFail then none else some (t.temp * 1000 / 16)
  | _ => some x.value

/-- The set-point that a loop works toward: what another loop delivers, CEIL - MARGIN, or LOOP_SP (*Fixed loops*). -/
def State.loopTarget (s : State) (k : Nat) : Int :=
  match k with
  | 0 => min (s.loop 0).feed s.capLimit
  | 1 => (s.loop 1).feed
  | 2 => s.bankTargetMj
  | k => s.loopWord .loopSp k

/-- The limits of a loop's output; loop 3's upper limit is the lower of OUT_HI and the cap (R403). -/
def State.loopLimits (s : State) (k : Nat) : Int × Int :=
  (s.loopWord .loopOutLo k,
   if k = 3 then min (s.loopWord .loopOutHi k) s.capLimit else s.loopWord .loopOutHi k)

/-- The effective set-point of a period (R401): a ramp starts at the measured value and moves by LOOP_RAMP in each period; a
RAMP of 0 applies the new value at once (log entry 9). -/
def rampStep (l : Loop) (y target step : Int) : Loop :=
  let l := if l.rampStart then { l with rampStart := false, ramping := true, sp := y } else l
  if l.ramping then
    if step ≤ 0 ∨ (target - l.sp).natAbs ≤ step.natAbs then { l with ramping := false, sp := target }
    else { l with sp := if l.sp < target then l.sp + step else l.sp - step }
  else { l with sp := target }

/-- The gain region of R400. -/
def State.loopRegion (s : State) (k : Nat) (l : Loop) (y : Int) (bankMv : Nat) : Nat :=
  let v : Int := match s.loopSched k with
    | 0 => y
    | 1 => l.sp
    | 2 => bankMv
    | _ => s.aon.band
  if v < s.loopWord .loopS1 k then 0 else if v < s.loopWord .loopS2 k then 1
  else if v < s.loopWord .loopS3 k then 2 else 3

/-- The sign record with a new period: 0 none, ±1 a sign recorded, ±2 a sign that differs from the one recorded before; kept
for WINDOW periods, or its last sign alone when that is older (R402). -/
def recordSign (signs : List Int) (window : Nat) (amp e : Int) : List Int :=
  let last : Int := ((signs.find? fun x => x != 0).getD 0).sign
  let x : Int := if (e.natAbs : Int) < amp then 0 else if last ≠ 0 ∧ last ≠ e.sign then 2 * e.sign else e.sign
  let l := (x :: signs).take window
  if l.all (· == 0) then (if last = 0 then [] else l ++ [last]) else l

/-- Sign changes within the window. -/
def signChanges (signs : List Int) (window : Nat) : Nat := ((signs.take window).filter fun x => x.natAbs == 2).length

/-- Gain `c` (0 kp, 1 ki, 2 kd) of set `g`. -/
def State.loopGain (s : State) (k g c : Nat) : Int := s.loopWord (.loopGain (3 * g + c)) k

/-- The output of a period that neither holds nor detects a gust (R399). `u` and `i` are in 1/65,536 units. -/
def State.loopCompute (s : State) (k : Nat) (l : Loop) (yPrev y : Int) : Loop :=
  let g := if l.gust then 4 else l.region
  let (lo, hi) := s.loopLimits k
  let e := l.sp - y
  let p := s.loopGain k g 0 * e
  let d := if s.cfgBit .loopCfg k 30 then s.loopGain k g 2 * (yPrev - y) else 0
  let di := s.loopGain k g 1 * e
  let intLo := 65536 * s.loopWord .loopIntLo k
  let intHi := 65536 * s.loopWord .loopIntHi k
  let i :=
    if l.reseed then 65536 * l.out - p - d
    else
      let u0 := p + l.integ + di + d
      if (65536 * hi < u0 ∧ 0 < di) ∨ (u0 < 65536 * lo ∧ di < 0) then l.integ else clampInt intLo intHi (l.integ + di)
  let raw := p + i + d
  let u := clampInt (65536 * lo) (65536 * hi) raw
  { l with integ := i, out := u / 65536, reseed := false,
           intClamped := decide (i ≤ intLo ∨ intHi ≤ i), outClamped := decide (u ≠ raw) }

/-- A gust detected: the output is held for 2^HOLD periods, the record of signs restarts, gain set 4 follows (R402). -/
def State.loopGust (s : State) (k : Nat) (l : Loop) (e : Int) (changes : Nat) : State :=
  (s.setLoop k { l with gust := true, gustAt := some s.now, holdLeft := 2 ^ s.cfg .loopCfg k 21 18 - 1, signs := [], reseed := true,
                        gusts := satAdd 16 l.gusts 1 }).raise
    0x0E01 srcLoopEngine (subParam k (twosOf 24 e)) changes (if l.gust then 4 else l.region) (twosOf 32 l.out)

/-- One period of a running loop with measured value `y` (R399-R402). -/
def State.loopRun (s : State) (k : Nat) (y : Int) (bankMv : Nat) : State :=
  let l0 := s.loop k
  let l := rampStep { l0 with meas := y } y (s.loopTarget k) (s.loopWord .loopRamp k)
  let l := if l.gust then { l with fallback := l.fallback + 1 } else l
  let e := l.sp - y
  if l.holdLeft ≠ 0 then s.setLoop k { l with holdLeft := l.holdLeft - 1 }
  else
    let amp : Int := s.cfg .loopGust k 15 0
    let window := max 8 (s.cfg .loopGust k 31 24)
    let signs := if amp = 0 then [] else recordSign l.signs window amp e
    if amp ≠ 0 ∧ max 1 (s.cfg .loopGust k 23 16) ≤ signChanges signs window then
      s.loopGust k l e (signChanges signs window)
    else
      let l := s.loopCompute k { l with signs := signs } l0.meas y
      s.setLoop k { l with region := s.loopRegion k l y bankMv }

/-- A loop's output applied to what it drives (R398, *Fixed loops*): the baton budget, or another loop's set-point. The
charger's duty and a GPIO's PWM are the output itself. -/
def State.applyLoop (s : State) (k : Nat) : State :=
  let u := (s.loop k).out
  match s.loopDest k with
  | 0 => s.setBudget u
  | 2 => s.updLoop 1 fun l => { l with feed := u }
  | 3 => s.updLoop 0 fun l => { l with feed := u }
  | _ => s

/-- LOOP_PERIOD: a loop's period ends (R398-R404). Loop 2's period also measures the bank and recomputes D_max (R414); while
charging does not run loop 1 is held at 0 (R409); a loop without a valid housekeeping value holds its output (R404). -/
def execLoopPeriod (loop : Nat) (sample : LoopSample) (s : State) : Host.Outcome State Fault Refusal :=
  .next (if !s.running || !(s.loop loop).running then s
    else
      let sample := s.readSample loop sample
      let s := if loop = 2 then s.measureBank sample else if loop = 0 then s.stepCapRamp else s
      match s.loopMeasure loop sample with
      | none => s
      | some y =>
        if loop = 1 ∧ s.bank.charging = false then
          s.updLoop 1 fun l => { l with meas := y, out := 0, integ := 0, holdLeft := 0 }
        else (s.loopRun loop y sample.bankMv).applyLoop loop)

/-- A loop started: its integrator and output begin at OUT_LO, loop 0's at WARMUP_BUDGET (R403, R404). -/
def State.startLoop (s : State) (k : Nat) : State :=
  let v : Int := if k = 0 then s.cfg .batonCfg 0 31 16 else s.loopWord .loopOutLo k
  s.updLoop k fun l => { l with running := true, integ := 65536 * v, out := v,
                                sp := if 3 ≤ k then s.loopWord .loopSp k else l.sp }

/-- Loops 0 to 3 start when Warm-up step 4 completes (R403). -/
def State.startFixedLoops (s : State) : State := (s.each [0, 1, 2, 3] fun k s => (s.startLoop k).applyLoop k)

/-- A write of 1 to LOOP_STAT.GUST: the scheduled gains resume in the next period with the integrator reseeded; event 0x0E02 (R402). -/
def State.clearGust (s : State) (k : Nat) : State :=
  if (s.loop k).gust && (s.loop k).gustAt != some s.now then
    (s.updLoop k fun l => { l with gust := false, reseed := true, fallback := 0 }).raise 0x0E02 srcLoopEngine
      (subParam k (s.loop k).fallback) 0 0 0
  else s

/-- GUST_CLEAR_WRITE (R402). -/
def execGustClearWrite (loop : Nat) (s : State) : Host.Outcome State Fault Refusal :=
  .next (if s.running && decide (loop < 8) then s.clearGust loop else s)

/-- BUDGET_FLOOR_ALARM: input power above set-point for 10 ms with loop 0 at OUT_LO; at most one event 0x0E03 per second
(R405). -/
def execBudgetFloorAlarm (measuredMw : Nat) (s : State) : Host.Outcome State Fault Refusal :=
  .next (
    let l := s.loop 0
    let due := match s.bank.floorAt with
      | none => true
      | some t => decide (t + 1000000000 ≤ s.now)
    if s.running && l.running && decide (l.out = s.loopWord .loopOutLo 0) && decide (l.sp < (measuredMw : Int)) && due then
      (s.onBank fun b => { b with floorAt := some s.now }).raise 0x0E03 srcLoopEngine (subParam 0 measuredMw)
        (twosOf 32 l.sp) s.broker.outstanding 0
    else s)

end Sys2Proof.Machine
end

