-- ==== Sys2Proof/Machine/Work.lean ====
section
/-! DEFINITION. Command contexts: opened, ended with their completion, measured against their bound (R211, R229, R233-R236),
and marked with the failures of units on their path. -/

namespace Sys2Proof.Machine

/-- The numbers of the open contexts that satisfy `p`, ascending. -/
def State.ctxIds (s : State) (p : Ctx → Bool) : List Nat :=
  Tbl.numbers (fun o => match o with
    | none => false
    | some x => p x) s.work.ctxs

/-- Buffers of each pool (*Buffer pools*, R468); the page cache's count follows CACHE_GIB (R353). -/
def State.poolSize (s : State) (pool : Nat) : Nat :=
  match pool with
  | 1 | 2 => 8192
  | 3 => 16384 - 16 * (s.blks.foldl (fun n b => n + b.2.withheld) 0)
  | 4 => 2048
  | 5 => 65536
  | 6 => 16 * Tbl.look 0 s.mem.classes 8
  | 7 => 65536
  | _ => 0

/-- The key of a buffer. -/
def bufKey (pool i : Nat) : Nat := pool * 1048576 + i

/-- Buffers of a pool held in the buffer table. -/
def State.bufsUsed (s : State) (pool : Nat) : Nat :=
  (s.mem.bufs.filter fun p => p.1 / 1048576 == pool && p.2.used).length

/-- COPY buffers that a die's relocation holds: the pages read whose coarse pass is not complete, and the page being read (R193, R468). -/
def Die.copyHeld (d : Die) : Nat :=
  if d.reloc.isSome then 16 * (d.copyPages - 4 * d.copyCoarse) + (if d.copyWait = 0 then 0 else 16) else 0

/-- COPY buffers that a refill holds: the frames rebuilt of rows that are not staged and whose coarse pass is not complete, and the frame
being rebuilt (R168, R201, R468). -/
def State.refillHeld (s : State) (zk : Nat) (z : Zone) (r : Refill) : Nat :=
  let line := Tbl.look 0 z.coarse r.pos
  let rows := (List.range (r.frames / 16 - 4 * line)).map fun i => 4 * line + i
  16 * (rows.filter fun x => !s.work.rows.any fun y => y.zk == zk && y.row == x).length + r.frames % 16 +
    (s.work.rebuilds.filter fun p => p.2.any fun x => x.ctx == 0 && x.zk == zk && x.pos == r.pos).length

/-- COPY buffers of a block in use (R468). -/
def State.copyUsed (s : State) (b : Nat) : Nat :=
  s.dies.foldl (fun n p => if blockOfLane (p.1 / 8) = b then n + p.2.copyHeld else n) 0 +
  s.zones.foldl (fun n p => p.2.refills.foldl (fun n r => if blockOfLane (r.die / 8) = b then n + s.refillHeld p.1 p.2 r else n) n) 0

/-- Buffers of a pool in use. INGRESS, EGRESS and BULK buffers stand in the buffer table; those of the other pools are counted by what they hold: staged
units, relocations and rebuilds, open parcels, cached pages. -/
def State.poolUsed (s : State) (pool : Nat) : Nat :=
  s.bufsUsed pool + match pool with
  | 3 => s.work.rows.foldl (fun n r => n + countBits r.staged 256) 0
  | 4 => (List.range 32).foldl (fun n b => n + s.copyUsed b) 0
  | 5 => (s.zones.filter fun p => p.2.parcel.isSome).length
  | 6 => s.fab.cache.length
  | _ => 0

/-- BPM_POOL.FREE. -/
def State.poolFree (s : State) (pool : Nat) : Nat := s.poolSize pool - s.poolUsed pool

/-- Buffers of INGRESS and EGRESS kept for Dash (R468). -/
def poolReserve : Nat := 1024

/-- The lowest free index of a pool, from `i` on. -/
def State.freeBuf (s : State) (pool : Nat) : Nat → Nat → Nat
  | 0, i => i
  | fuel + 1, i => if (s.buf (bufKey pool i)).used then s.freeBuf pool fuel (i + 1) else i

/-- `n` buffers of a pool given to an owner with a tag. -/
def State.takeBufs : Nat → State → Nat → Nat → Nat → State
  | 0, s, _, _, _ => s
  | n + 1, s, pool, owner, tag =>
    State.takeBufs n (s.updBuf (bufKey pool (s.freeBuf pool 8192 0)) fun b =>
      { b with used := true, owner := owner, tag := tag, atNs := s.now }) pool owner tag

/-- A pool that fell to its reserve or to empty: counted, with event 0x0701 at most once per second. The unit that the source names, the chip's
ingress or egress SRAM, has no kind in *Unit kinds*: a free value (log entry 2). -/
def State.noteThrottle (s : State) (pool before : Nat) : State :=
  if before ≤ poolReserve ∨ poolReserve < s.poolFree pool then s
  else
    let s := s.onMem fun m => { m with throttles := Tbl.put 0 m.throttles pool (satAdd 14 (Tbl.look 0 m.throttles pool) 1) }
    if (Tbl.look none s.mem.throttleAt pool).any fun t => decide (s.now - t < 1000000000) then s
    else
      let (v, s) := s.draw
      (s.onMem fun m => { m with throttleAt := Tbl.put none m.throttleAt pool (some s.now) }).raise 0x0701 v pool (s.poolFree pool) 0 0

/-- A buffer free again; the next owner's handle carries the next generation. -/
def Buf.free (b : Buf) : Buf := { gen := (b.gen + 1) % 256 }

/-- The buffers that a command holds, freed with its context. -/
def State.freeBufsOf (s : State) (tag : Nat) : State :=
  s.onMem fun m => { m with bufs := Tbl.mapAll {} (fun key b =>
    if b.used && b.tag == tag && (key / 1048576 == 1 || key / 1048576 == 2) then b.free else b) m.bufs }

/-- The pool and count of buffers that a command needs: ingress for host data, egress for each 4 KiB read (R468). -/
def Ctx.buffers (x : Ctx) : Nat × Nat :=
  match x.kind with
  | .write | .append | .copy => (1, x.nlb)
  | .packedAppend => (1, x.granules)
  | .read | .compare | .packedRead => (2, x.nlb)
  | .writeZeroes | .parcel | .flush | .discard _ | .manage _ | .report _ _ _ => (1, 0)

/-- The unit that owns a command's buffers: the front end, or the RDMA engine for a fabric controller (R468). -/
def Ctx.bufferOwner (x : Ctx) : Nat := if x.hdr.ctrl < 256 then srcFrontEnd 0 else srcRdma

/-- Fetch is stopped for a command: its pool has too few buffers, of which the reserve is kept for Dash (R468). -/
def State.fetchStopped (s : State) (x : Ctx) : Bool :=
  let (pool, n) := x.buffers
  decide (s.poolFree pool < n + (if x.cls = .dash ∨ n = 0 then 0 else poolReserve))

/-- A context opened with its buffers; its number and the state. -/
def State.openCtx (s : State) (x : Ctx) : Nat × State :=
  let c := s.work.nextCtx
  let (pool, n) := x.buffers
  let before := s.poolFree pool
  let s := (s.onWork fun w => { w with nextCtx := c + 1 }).setCtx c (some x)
  (c, if n = 0 then s else (State.takeBufs n s pool x.bufferOwner c).noteThrottle pool before)

/-- `f` applied to an open context. -/
def State.updCtx (s : State) (c : Nat) (f : Ctx → Ctx) : State :=
  match s.ctxAt c with
  | none => s
  | some x => s.setCtx c (some (f x))

/-- The soft reads of a command that still have an entry: queued, running, or at a decoder. -/
def State.softAlive (s : State) (c id : Nat) : Bool :=
  let mine := fun (e : QEntry) => e.ctx == c && e.soft == some id
  s.dies.any (fun p => p.2.queue.any mine) || s.work.ops.any (fun p => p.2.any fun o => mine o.entry) ||
  s.work.decodes.any (fun p => p.2.any fun j => mine j.entry)

/-- The batons of a command's soft reads that were withdrawn, returned (R394). -/
def State.pruneSoft (s : State) (c : Nat) : State :=
  let keep := fun (b : Baton) => match b.op with
    | .softDecode x id => x != c || s.softAlive c id
    | _ => true
  if s.broker.out.all keep && s.broker.waiting.all keep then s
  else s.onBroker fun b => { b with out := b.out.filter keep, waiting := b.waiting.filter keep }

/-- Read entries of a context that no die has started, withdrawn from the die queues (R165, R231). -/
def State.withdrawReads (s : State) (c : Nat) : State :=
  (s.mapDies fun _ d => { d with queue := d.queue.filter fun e => !(e.ctx == c && e.kind.isRead) }).pruneSoft c

/-- The contexts with a read queued or running on a lane. -/
def State.ctxsOnLane (s : State) (lane : Nat) : List Nat :=
  let queued := (List.range 8).flatMap fun d => (s.die (dieKey lane d)).queue.map (·.ctx)
  let running := (s.work.ops.filter fun p => p.1 / 256 == lane).flatMap fun p => (p.2.map fun o => o.entries.map (·.ctx)).getD []
  ((queued ++ running).filter (· != 0)).eraseDups

/-- The contexts with a read queued or running on a die. -/
def State.ctxsOnDie (s : State) (lane die : Nat) : List Nat :=
  let queued := (s.die (dieKey lane die)).queue.map (·.ctx)
  let running := s.work.ops.flatMap fun p =>
    (p.2.map fun o => if p.1 / 256 = lane ∧ o.die = die then o.entries.map (·.ctx) else []).getD []
  ((queued ++ running).filter (· != 0)).eraseDups

/-- The failure of unit `source` noted on the contexts whose path holds it (R234, R235); the first excused breach of each
tenant after it is recorded anew (R236). -/
def State.noteFailure (s : State) (source : Nat) (ctxs : List Nat) : State :=
  (s.each ctxs fun c s => s.updCtx c fun x =>
    if x.failedUnits.contains source then x else { x with failedUnits := x.failedUnits ++ [source] }).onTmk
    fun k => { k with excusedOf := k.excusedOf.filter fun p => p.2 != source }

/-- The single-fault interruption, µs (R234). -/
def singleFaultUs : Nat := 500

/-- A breach: parameters 1 and 4 of its events (R237). -/
def breachParams (x : Ctx) : Nat × Nat := (x.tenant % 256 + 256 * (x.cls.code % 4), x.hdr.sqid % 65536 * 65536 + x.hdr.cid % 65536)

/-- A bounded command ended `late` µs after its bound: counted, and recorded as R236 directs. -/
def State.breach (s : State) (x : Ctx) (late : Nat) : State :=
  let c := x.cls.code
  let (p1, p4) := breachParams x
  let s := s.updTenant x.tenant fun t => { t with worstLate := max t.worstLate late }
  match x.failedUnits, decide (late ≤ singleFaultUs) with
  | [u], true =>
    let s := (s.onTmk fun k => { k with excused := Tbl.put 0 k.excused c (satAdd 16 (Tbl.look 0 k.excused c) 1) }).updTenant
      x.tenant fun t => { t with excused := satAdd 32 t.excused 1 }
    if s.tmk.excusedOf.contains (x.tenant, u) then s
    else (s.onTmk fun k => { k with excusedOf := k.excusedOf ++ [(x.tenant, u)] }).raise 0x0D03 srcTimekeeper p1 late u p4
  | us, _ =>
    let s := (s.onTmk fun k => { k with unexcused := Tbl.put 0 k.unexcused c (satAdd 16 (Tbl.look 0 k.unexcused c) 1) }).updTenant
      x.tenant fun t => { t with unexcused := satAdd 32 t.unexcused 1 }
    let due := match s.tmk.breachAt with
      | none => true
      | some t => decide (t + 1000000 ≤ s.now)
    if due then
      (s.onTmk fun k => { k with breachAt := some s.now }).raise 0x0D04 srcTimekeeper p1 late (us.headD 0xFFFF) p4
    else s

/-- A command's end measured against its deadline (R211, R233). -/
def State.measure (s : State) (x : Ctx) : State :=
  match x.deadline with
  | none => s
  | some d => if d < s.now then s.breach x (ceilDiv (s.now - d) 1000) else s

/-- A context ended: its queued reads are withdrawn, its completion is posted unless its response is discarded, its time is
measured. -/
def State.finishWith (s : State) (c : Nat) (st : Status) (dw0 dw1 : Nat) (data : List FieldVal) : State :=
  match s.ctxAt c with
  | none => s
  | some x =>
    let s := ((s.setCtx c none).withdrawReads c).freeBufsOf c
    if x.discard then s else (s.measure x).completeWith x.hdr st dw0 dw1 data

/-- A context ended with no data. -/
def State.finish (s : State) (c : Nat) (st : Status) : State := s.finishWith c st 0 0 []

/-- A context ended without a completion: squashed, or aborted by its host (R378). -/
def State.squash (s : State) (c : Nat) : State :=
  match s.ctxAt c with
  | none => s
  | some _ => ((s.setCtx c none).withdrawReads c).freeBufsOf c

/-- A decline (R219, R220): Bound Unavailable with the try-after in DW0, counted for the class and the tenant. -/
def State.decline (s : State) (h : Hdr) (tenant : Nat) (cls : Cls) (tryUs : Nat) : State :=
  let c := cls.code
  ((s.onTmk fun k => { k with declines := Tbl.put 0 k.declines c (satAdd 32 (Tbl.look 0 k.declines c) 1) }).updTenant tenant
    fun t => { t with declines := satAdd 32 t.declines 1 }).completeWith h .boundUnavailable
      (min longestWaitUs (max 1 tryUs)) 0 []

/-- Commands in flight whose bounds are no longer measured: at Homestretch entry and at a thermal trip (R210, R517). -/
def State.unmeasure (s : State) (p : Ctx → Bool) : State :=
  s.onWork fun w => { w with ctxs := Tbl.mapAll none (fun _ o => o.map fun x =>
    if p x then { x with deadline := none } else x) w.ctxs }

/-- The lane is set in LANE_POP (R138). -/
def State.populated (s : State) (lane : Nat) : Bool := s.cfgBit .lanePop (lane / 32) (lane % 32)

/-- An event of a lane PHY: its block as source, the local lane and the lane number in parameter 1 (R141). -/
def State.raisePhy (s : State) (code lane p2 p3 p4 : Nat) : State :=
  s.raise code (srcLanePhy (blockOfLane lane)) (subParam (lane % 16) (lane % 512)) p2 p3 p4

/-- An event of a lane port: the cell that serves the lane, or the lane PHY when none does (R141). -/
def State.raisePort (s : State) (code lane p2 p3 p4 : Nat) : State :=
  if (s.lane lane).unserved then s.raisePhy code lane p2 p3 p4
  else s.raise code (srcLanePort (s.cellOf lane)) lane p2 p3 p4

/-- An event of a die queue (R169). -/
def State.raiseDie (s : State) (code lane die p2 p3 p4 : Nat) : State :=
  s.raise code (srcDieQueue (s.cellOf lane)) (subParam die (lane % 512)) p2 p3 p4

/-- The host metadata bytes of an LBA format (*Zoned LBA formats*). -/
def mdBytes (lbaf : Nat) : Nat := if lbaf = 1 then 8 else if lbaf = 2 then 16 else 0

/-- The LBAs of a read's data as returned bytes: 4,096 and the host metadata to each LBA index, as one extended LBA (R58, R59). -/
def blockFields (lbaf : Nat) (l : List (Nat × Block)) : List FieldVal :=
  let n := 4096 + mdBytes lbaf
  l.map fun p => ⟨n * p.1, n, p.2.toNat % 2 ^ (8 * n)⟩

/-- Domains powered on: their logic starts from reset, their pads stay latched until released (R428, R429). -/
def State.powerDomains (s : State) (w : BitVec 64) : State := s.onAon fun a => { a with domainOn := a.domainOn ||| w }

/-- The starter releases the pads of domains that are on (R429). -/
def State.releasePads (s : State) (w : BitVec 64) : State :=
  s.onAon fun a => { a with padLatched := a.padLatched &&& ~~~(w &&& a.domainOn) }

/-- Domains powered off: those that were on keep their pads latched (R429). -/
def State.dropDomains (s : State) (w : BitVec 64) : State :=
  s.onAon fun a => { a with domainOn := a.domainOn &&& ~~~w, padLatched := a.padLatched ||| (a.domainOn &&& w) }

/-- The word of one domain. -/
def domainBit (d : Nat) : BitVec 64 := BitVec.ofNat 64 (2 ^ d)

end Sys2Proof.Machine
end

