-- ==== Sys2Proof/Machine/Thermal.lean ====
section
/-! DEFINITION. The housekeeping round, the band temperature and bands, headroom, and the thermal trip (R505-R520), with the
supply monitors of R558. Temperatures are in 1/16 °C. -/

namespace Sys2Proof.Machine

/-- The sensor whose reading a channel completes (*Housekeeping channels*). -/
def sensorOfChannel (c : Nat) : Option Nat :=
  if c < 64 then (if c % 4 = 3 then some (c / 4) else none)
  else if c < 104 then some (c - 48) else none

/-- An on-die sensor. -/
def onDie (i : Nat) : Bool := decide (24 ≤ i)

/-- THM_SENS.EN, BAND and HEAD of a sensor. -/
def State.sensEn (s : State) (i : Nat) : Bool := s.cfgBit .thmSens i 31
def State.sensBand (s : State) (i : Nat) : Bool := s.cfgBit .thmSens i 30
def State.sensHead (s : State) (i : Nat) : Bool := s.cfgBit .thmSens i 29

/-- THM_READ of a sensor. -/
def State.sensor (s : State) (i : Nat) : Sensor := Tbl.look {} s.aon.sensors i

/-- A sensor takes part with its reading: read, not broken, and the ADC has not failed (R508, R509). -/
def State.sensorValid (s : State) (i : Nat) : Bool :=
  (s.sensor i).valid && !(s.sensor i).broken && !s.power.adcFail

/-- A sensor is broken, or treated as broken since the ADC failed (R508). -/
def State.sensorBroken (s : State) (i : Nat) : Bool := (s.sensor i).broken || s.power.adcFail

/-- *Recommended operating conditions* of a supply monitor, mV: minimum and maximum (R548, R558). -/
def supplyRange (i : Nat) : Nat × Nat :=
  match i with
  | 4 | 5 => (713, 787)
  | 6 => (1140, 1260)
  | 7 => (1067, 1133)
  | 8 => (1710, 1890)
  | 9 => (3135, 3465)
  | 10 => (1248, 1252)
  | _ => (600, 850)

/-- A supply monitor converted (R558). -/
def State.convertSupply (s : State) (i : Nat) (mv : Nat) : State :=
  if i < 11 then
    let (lo, hi) := supplyRange i
    let v : Supply := { valid := true, low := decide (mv < lo), high := decide (hi < mv), mv := satTo 16 mv }
    s.onAon fun a => { a with supplies := Tbl.put {} a.supplies i v }
  else s

/-- The fault a conversion shows: the sensor's own, or a reading outside -45 to 150 °C (R507). -/
def faultOf (f : SensorFault) (temp : Int) : SensorFault :=
  match f with
  | .none => if temp < -720 ∨ 2400 < temp then .rangeOrCheck else .none
  | f => f

/-- THM_READ.CAUSE. -/
def sensorFaultCode : SensorFault → Nat
  | .none => 0
  | .openCircuit => 1
  | .short => 2
  | .rangeOrCheck => 3

/-- A thermal trip latched (R140, R517). Every lane enters HELD, and 0x030D is raised for the populated ones: the spec does not say whether an unpopulated one has an
event (DESIGN CHOICE, log entry 189). THERMTRIP_N low, every lane HELD, charging stopped, the broker closed, bounds out of
force; commands in flight that need a lane end with Internal Error, and none is a breach. -/
def State.takeTrip (s : State) (source : Nat) (reading : Int) (threshold : Nat) : State :=
  if s.aon.trip then s
  else
    let src := if source = 0xFF then srcAon else srcHkAdc
    let s := if s.power.mode = .warmup ∧ s.released then s.onPower fun p => { p with holds := p.holds ++ [5] } else s
    let s := s.onAon fun a => { a with trip := true, tripSource := source, thermtripLow := true }
    let s := s.each (List.range 512) fun n s => s.updLane n fun l =>
      { l with st := .held, outage := none, recalWait := false, trainWait := false, wakeWait := false, resuming := false, txIdle := true,
               phyOn := false, since := s.now }
    let s := s.each ((List.range 512).filter fun n => s.populated n) fun n s => s.raisePhy 0x030D n 0 0 0
    let s := (s.refreshCharging.closeBroker true).onTmk fun k => { k with inForce := false }
    let needLane := ((s.dies.flatMap fun p => p.2.queue.map (·.ctx)) ++
      (s.work.ops.filterMap fun p => p.2.map (·.entry.ctx))).filter (· != 0)
    let s := (s.unmeasure fun _ => true).each (s.ctxIds fun x => x.phase == .reading) fun c s =>
      if needLane.contains c then s.finish c .internalError else s
    let told := ((s.ctrls.filter fun p => p.2.aers != []).map fun p => s.tenantOf p.1).eraseDups
    (s.each told fun t s => s.notify t .temperatureThreshold).raise 0x0204 src source (twosOf 32 reading) threshold
      s.power.mode.code

/-- The trip check of one converted sensor (R516): on-die readings whatever EN, the others only when enabled. -/
def State.checkTrip (s : State) (i : Nat) : State :=
  if s.sensorValid i && (onDie i || s.sensEn i) then
    let limit := if onDie i then min 115 (s.cfg .thmTrip 0 31 24) else s.cfg .thmTrip 0 23 16
    if (16 * limit : Int) ≤ (s.sensor i).temp then s.takeTrip i (s.sensor i).temp limit else s
  else s

/-- A sensor's reading updated (R507): broken at the first broken reading, valid again after 16 valid ones; events of on-die
and of enabled sensors only. -/
def State.convertSensor (s : State) (i : Nat) (x : HkSample) : State :=
  let temp := x.value + 2 * signedOf 9 (s.cfg .thmSens i 20 12)
  let fault := faultOf x.fault temp
  let old := s.sensor i
  let tells := onDie i || s.sensEn i
  let put := fun (s : State) (v : Sensor) => s.onAon fun a => { a with sensors := Tbl.put {} a.sensors i v }
  if fault = .none then
    if old.broken then
      if old.goodRun + 1 < 16 then put s { old with valid := true, temp := temp, goodRun := old.goodRun + 1 }
      else
        let s := put s { valid := true, temp := temp }
        let s := if tells then s.raise 0x0203 srcHkAdc i ((s.now - old.brokenAt) / 1000000) 0 0 else s
        s.checkTrip i
    else (put s { old with valid := true, temp := temp }).checkTrip i
  else if old.broken then put s { old with valid := false, cause := fault, temp := temp, goodRun := 0 }
  else
    let raw := if x.fault = .none then twosOf 32 temp else if x.fault = .rangeOrCheck then 0 else x.raw
    let s := put s { valid := false, broken := true, cause := fault, temp := temp, brokenAt := s.now }
    if tells then s.raise 0x0202 srcHkAdc i (sensorFaultCode fault) raw 0 else s

/-- The housekeeping ADC stands still: in Calm, until the exit's step 2 has ended (R436, R505). -/
def State.adcOff (s : State) : Bool := s.power.mode == .calm && !(s.power.exit.any fun e => e.done.contains 2)

/-- HK_CHANNEL_CONVERT: the next channel of the round converts (R505). The ADC runs in every mode but Calm. -/
def execHkChannelConvert (sample : HkSample) (s : State) : Host.Outcome State Fault Refusal :=
  .next (if !s.aon.on || s.adcOff then s
    else
      let c := s.aon.hkChannel
      let s := s.onAon fun a => { a with hkChannel := (c + 1) % 128, hkComplete := decide (c = 127) }
      match sensorOfChannel c with
      | some i => if s.power.adcFail then s else s.convertSensor i sample
      | none =>
        if 104 ≤ c ∧ c < 120 then s.convertSupply (c - 104) sample.value.toNat
        else if 120 ≤ c ∧ sample.refOk = false ∧ s.aon.hkBadRef = none then
          s.onAon fun a => { a with hkBadRef := some (c, sample.raw) }
        else s)

/-- The four upward boundaries, 1/16 °C (*Band boundaries*). -/
def bandUp : List Int := [160, 720, 1120, 1360]

/-- The band of a temperature from a previous band (R510), or of a first round (R511); none is above every boundary. -/
def bandFor (first : Bool) (band : Nat) (t : Option Int) : Nat :=
  match t with
  | none => 4
  | some t =>
    if first then (bandUp.filter fun u => decide (u - 48 ≤ t)).length
    else
      let up := (bandUp.filter fun u => decide (u ≤ t)).length
      let down := (bandUp.filter fun u => decide (u - 48 ≤ t)).length
      max up (min band down)

/-- The sensors that enter the band temperature. -/
def State.bandSensors (s : State) : List Nat := (List.range 56).filter fun i => s.sensEn i && s.sensBand i

/-- The band temperature and the sensor that set it (R509): none and the broken sensor when one is broken, none and no sensor
when none is valid. -/
def State.bandTemperature (s : State) : Option Int × Option Nat :=
  match s.bandSensors.find? fun i => s.sensorBroken i with
  | some i => (none, some i)
  | none =>
    (s.bandSensors.filter fun i => s.sensorValid i).foldl (fun best i =>
      match best.1 with
      | none => (some (s.sensor i).temp, some i)
      | some b => if b < (s.sensor i).temp then (some (s.sensor i).temp, some i) else best) (none, none)

/-- Thermal headroom, m°C: the least margin below LIMIT, rounded down; 0 without a valid sensor (R513). -/
def State.headroomNow (s : State) : Int :=
  let m := ((List.range 56).filter fun i => s.sensEn i && s.sensHead i && s.sensorValid i).map fun i =>
    (16 * (s.cfg .thmSens i 28 21 : Int) - (s.sensor i).temp) * 1000 / 16
  match m with
  | [] => 0
  | x :: xs => xs.foldl min x

/-- THM_STAT.BAND_TEMP as a field. -/
def bandTempField (t : Option Int) : Nat :=
  match t with
  | none => 0x7FFF
  | some t => twosOf 16 t

/-- The next change of VDDC toward its goal, at most 10 mV, unless one is under way (R550). -/
def State.avsNext (s : State) : State :=
  let p := s.power
  if p.avsStep.isSome || p.vddc == p.avsGoal then s
  else s.onPower fun p => { p with avsStep := some (if p.vddc < p.avsGoal then min p.avsGoal (p.vddc + 10) else max p.avsGoal (p.vddc - 10), false) }

/-- The VDDC target for the band and mode in force, from Warm-up step 1 on: 0.60 V in Calm, otherwise what the characterised table holds between
0.60 and 0.85 V, a free value (R550, log entry 2). -/
def State.avsRetarget (s : State) : State :=
  if !s.released || !s.stepComplete 1 then s
  else if s.power.mode = .calm then (s.onPower fun p => { p with avsGoal := 600 }).avsNext
  else
    let (v, s) := s.draw
    (s.onPower fun p => { p with avsGoal := 600 + v % 251 }).avsNext

/-- AVSBUS_STEP_TIMER (R550): an acknowledged change is in force and the next one goes out; one that is not acknowledged is repeated once, and then
AVS_OK clears and the target stays. -/
def execAvsbusStepTimer (acked : Bool) (s : State) : Host.Outcome State Fault Refusal :=
  .next (match s.power.avsStep with
    | none => s
    | some (mv, retried) =>
      if !s.released then s
      else if acked then (s.onPower fun p => { p with vddc := mv, avsOk := true, avsStep := none }).avsNext
      else if !retried then s.onPower fun p => { p with avsStep := some (mv, true) }
      else s.onPower fun p => { p with avsOk := false, avsStep := none, avsGoal := p.vddc })

/-- HARD_COMPARATOR_TRIP: the AON comparator finds part of the die at or above 115 °C, in every mode (R516). The reading it
acted on is not stated: a free value. -/
def execHardComparatorTrip (s : State) : Host.Outcome State Fault Refusal :=
  .next (if s.aon.on && !s.aon.trip then
      let (v, s) := s.draw
      s.takeTrip 0xFF (v : Int) 115
    else s)

end Sys2Proof.Machine
end

