-- ==== Sys2Proof/Machine/Wire.lean ====
section
/-! DEFINITION. The bits of a Bypor lane: the IEEE 802.3 CRC-32, the messages and flits to a bridge and the control blocks beside
them (R107, R108, R118-R120, R125, R127), and what a received flit holds. -/

namespace Sys2Proof.Machine

/-- The lowest `n` bytes of a number, byte 0 first. -/
def leBytes (n x : Nat) : List Nat := (List.range n).map fun i => x / 256 ^ i % 256

/-- `n` steps of the IEEE 802.3 CRC-32 register, reflected form. -/
def crcBits : Nat → Nat → Nat
  | 0, c => c
  | n + 1, c => crcBits n (if c % 2 = 1 then (c / 2) ^^^ 0xEDB88320 else c / 2)

/-- The IEEE 802.3 CRC-32 of a list of bytes. -/
def crc32 (bytes : List Nat) : Nat := (bytes.foldl (fun c b => crcBits 8 (c ^^^ b)) 0xFFFFFFFF) ^^^ 0xFFFFFFFF

/-- The ONFI commands by number, under which their bytes are free values (log entry 171). -/
def OnfiCmd.code : OnfiCmd → Nat
  | .byte b => b
  | .read => 256
  | .readNext => 257
  | .readEnd => 258
  | .column => 259
  | .columnEnd => 260
  | .program => 261
  | .programNext => 262
  | .programEnd => 263
  | .erase => 264
  | .eraseNext => 265
  | .eraseEnd => 266
  | .setFeatures => 267
  | .paramPage => 268

/-- The command byte of a cycle. -/
def OnfiCmd.toByte (c : OnfiCmd) : Nat :=
  match c with
  | .byte b => b % 256
  | c => Config.onfiByte c.code % 256

/-- The address bytes of a sequence, ADDR0 first: column bytes, then row bytes, whose layout is the die's (log entry 171). -/
def OnfiAddr.toBytes : OnfiAddr → List Nat
  | .none => []
  | .page c p b g => leBytes 2 c ++ leBytes 3 (Config.onfiRow p b g)
  | .block p b => leBytes 3 (Config.onfiRow p b 0)
  | .column p c => leBytes 2 c ++ leBytes 3 (Config.onfiRow p 0 0)
  | .feature a => [a % 256]

/-- Bytes to a number, byte 0 lowest. -/
def ofBytes : List Nat → Nat
  | [] => 0
  | b :: bs => b % 256 + 256 * ofBytes bs

/-- The first `n` of a list of bytes, zeros behind them. -/
def padTo (n : Nat) (bs : List Nat) : List Nat := (bs ++ List.replicate n 0).take n

/-- The 16 bytes of an ONFI_SEQ message (*Downstream messages*). -/
def OnfiSeq.toBytes (q : OnfiSeq) : List Nat :=
  let byte := fun (c : Option OnfiCmd) => (c.map OnfiCmd.toByte).getD 0
  [0x01, q.die % 8, q.tag % 256, bit q.chain, byte q.cmd1] ++ padTo 5 q.addr.toBytes ++
    [byte q.cmd2, 64 * (q.phase % 4) + 16 * bit q.wait + 8 * bit q.cmd1.isSome + 4 * bit q.cmd2.isSome,
     q.addr.toBytes.length % 256] ++ leBytes 2 q.len ++ [q.timer % 256]

/-- The 16 bytes of a message: its header and operands (*Message header*, *Downstream messages*). -/
def Msg.toBytes (m : Msg) : List Nat :=
  padTo 16 (match m with
  | .onfi q => q.toBytes
  | .suspend d t e => [0x03, d % 8, t % 256, bit e, t % 256]
  | .resume d t e => [0x04, d % 8, t % 256, bit e, t % 256]
  | .abort d t => [0x05, d % 8, t % 256, 0, t % 256]
  | .cfgRead t a n => [0x06, 0, t % 256, 0] ++ leBytes 2 a ++ [n % 256]
  | .cfgWrite t a v => [0x07, 0, t % 256, 0] ++ leBytes 2 a ++ [0x0F, 0] ++ leBytes 4 v
  | .dieReset d t lun => [0x08, d % 8, t % 256, bit lun]
  | .sync t => [0x09, 0, t % 256, 0]
  | .park t => [0x0A, 0, t % 256, 0])

/-- TYPE of a flit. -/
def Load.type : Load → Nat
  | .null => 0
  | .msgs _ => 1
  | .data _ _ => 2

/-- The 64 payload bytes of a flit: slots from 0 upward, or data (R120). -/
def Load.toBytes : Load → List Nat
  | .null => leBytes 64 0
  | .msgs ms => padTo 64 (ms.flatMap Msg.toBytes)
  | .data _ b => leBytes 64 b.toNat

/-- The header dword of a flit (*Flit header*). -/
def TxFlit.header (f : TxFlit) : Nat :=
  let die := match f.load with
    | .data d _ => d % 8
    | _ => 0
  f.load.type * 2 ^ 28 + f.seq % 256 * 2 ^ 20 + f.ack.getD 0 % 256 * 2 ^ 12 + bit f.ack.isSome * 2 ^ 11 + bit f.nak * 2 ^ 10 +
    die * 2 ^ 7 + f.crdClass % 4 * 2 ^ 5 + f.crdCount % 32

/-- The 72 bytes of a flit, with its CRC over the first 68 (*Flit layout*, R118). -/
def TxFlit.toBytes (f : TxFlit) : List Nat :=
  let body := leBytes 4 f.header ++ f.load.toBytes
  body ++ leBytes 4 (crc32 body)

/-- Control blocks of 8 bytes, byte 0 lowest (*Control block types*). -/
def blockIdle : BitVec 64 := 0x1E
def blockAlign : BitVec 64 := 0x4B
def blockEidle : BitVec 64 := 0x2D

/-- XOR of bytes. -/
def xorBytes (bs : List Nat) : Nat := bs.foldl (· ^^^ ·) 0

/-- A TS block (*TS block*): KIND 1 TS1, 2 TS2, 3 TSE, 4 TSR; `want` the preset requested of the far transmitter. -/
def tsBlock (kind : Nat) (want : Option Nat) (preset margin lane : Nat) : BitVec 64 :=
  let body := [kind, 0x10, (want.map fun p => 128 + 16 * (p % 8)).getD 0 + preset % 8, margin % 256] ++ leBytes 2 (lane % 512)
  BitVec.ofNat 64 (ofBytes ([0x78] ++ body ++ [xorBytes body]))

/-- Byte `i` of a block. -/
def wireByte (b : BitVec 64) (i : Nat) : Nat := b.toNat / 256 ^ i % 256

/-- A TS block whose CHECK is the XOR of its bytes 1 to 6 (*TS block*). -/
def tsSound (b : BitVec 64) : Bool := xorBytes ((List.range 6).map fun i => wireByte b (i + 1)) == wireByte b 7

/-- The first byte of a control block is one of *Control block types* (R108). -/
def controlKnown (b : BitVec 64) : Bool := [0x1E, 0x4B, 0x78, 0x2D].contains (wireByte b 0)

/-- A sync header that marks neither a data nor a control block (R107). -/
def syncBad (h : BitVec 2) : Bool := h == 0 || h == 3

end Sys2Proof.Machine

namespace Sys2Proof

open Machine

/-- The flit stands in 9 data blocks (R107, R108). -/
def Flit.whole (f : Flit) : Bool := f.blocks.length == 9 && f.blocks.all fun b => b.1 == 1

/-- The scrambled bits of the blocks, in the order of the line. -/
def Flit.line (f : Flit) : Nat := f.blocks.foldr (fun b n => b.2.toNat + 2 ^ 64 * n) 0

/-- The 576 bits of the flit after the self-synchronising descrambler 1 + x³⁹ + x⁵⁸ (R107). -/
def Flit.bits (f : Flit) : Nat :=
  let x := f.before.toNat + 2 ^ 58 * f.line
  ((x >>> 58) ^^^ (x >>> 19) ^^^ x) % 2 ^ 576

/-- The flit is whole and its CRC is good (R107, R118). -/
def Flit.crcOk (f : Flit) : Bool := f.whole && crc32 (leBytes 68 f.bits) == f.bits / 2 ^ 544

/-- The fields of a received flit's header (*Flit header*). -/
def Flit.field (f : Flit) (hi lo : Nat) : Nat := f.bits / 2 ^ lo % 2 ^ (hi - lo + 1)
def Flit.type (f : Flit) : Nat := f.field 31 28
def Flit.seq (f : Flit) : Nat := f.field 27 20
def Flit.ackSeq (f : Flit) : Nat := f.field 19 12
def Flit.ackValid (f : Flit) : Bool := f.field 11 11 == 1
def Flit.nak (f : Flit) : Bool := f.field 10 10 == 1
def Flit.die (f : Flit) : Nat := f.field 9 7
def Flit.crdClass (f : Flit) : Nat := f.field 6 5
def Flit.crdCount (f : Flit) : Nat := f.field 4 0

/-- The opcodes of the slots in use of a MSG flit (R120). -/
def Flit.msgs (f : Flit) : List Nat :=
  ((List.range 4).map fun i => f.bits / 2 ^ (32 + 128 * i) % 256).filter (· != 0)

/-- The sync headers of the last 64 blocks with a flit's own: 1 = invalid (R107). -/
def Flit.headers (f : Flit) (old : BitVec 64) : BitVec 64 :=
  f.blocks.foldl (fun h b => (h <<< 1) ||| (if syncBad b.1 then 1 else 0)) old

/-- The last margins measured, at the TZ5120's receiver and at the bridge's. -/
def TrainResult.margins (r : TrainResult) : Nat × Nat := (r.trials.getLast?).getD (0, 0)

/-- Neither receiver counted a bit error in PRBS31 (R111, step 6). -/
def TrainResult.clean (r : TrainResult) : Bool := r.prbsNear == 0 && r.prbsFar == 0

/-- A training attempt or recalibration passed. -/
def TrainResult.ok (r : TrainResult) : Bool := r.answered && r.locked && r.exchanged && r.trials != [] && r.clean

/-- The lane state in which a failed attempt ended, by its code in *Lane states* (R110, R111). -/
def TrainResult.lastState (r : TrainResult) : Nat :=
  if !r.answered then 1 else if !r.locked then 2 else if !r.exchanged then 3 else if r.trials = [] then 4 else 5

/-- The version of a bridge that has exchanged TS2 differs in its major part: event 0x030E, and the lane is FAILED (R109). -/
def TrainResult.wrongMajor (r : TrainResult) : Bool := r.answered && r.locked && r.exchanged && r.version.toNat / 16 != 1

end Sys2Proof
end

