-- ==== Sys2Proof/Machine/Cipher.lean ====
section
/-! DEFINITION. Keys and cipher engines: the media root key and namespace keys (R271-R273), the engine that serves a block
(R51, R268), and the order in which an engine takes, suspends and resumes jobs (R266, R267). -/

namespace Sys2Proof.Machine

/-- A number from little-endian bytes. -/
def leNat (l : List Nat) : Nat := l.foldr (fun b n => b + 256 * n) 0

/-- The media root key, 48 bytes: label "TZ MRK", empty context (R271). -/
def mediaRootKey (uds : BitVec 256) : List Nat := kdf384 (leBytes 32 uds.toNat) [0x54, 0x5A, 0x20, 0x4D, 0x52, 0x4B] [] 384 1

/-- The context of a namespace key (*Namespace key context*). -/
def keyContext (nsid slot gen nonce : Nat) : List Nat :=
  leBytes 4 nsid ++ leBytes 2 slot ++ [0, 0] ++ leBytes 4 gen ++ leBytes 32 nonce

/-- A namespace key: the first 64 of 96 bytes, label "TZ XTS" (R272). -/
def namespaceKey (uds : BitVec 256) (nsid slot gen nonce : Nat) : BitVec 512 :=
  BitVec.ofNat 512 (leNat ((kdf384 (mediaRootKey uds) [0x54, 0x5A, 0x20, 0x58, 0x54, 0x53] (keyContext nsid slot gen nonce) 512 2).take 64))

/-- K1 differs from K2 (R273). -/
def keyUsable (k : BitVec 512) : Bool := k.toNat % 2 ^ 256 != k.toNat / 2 ^ 256

/-- The key of a namespace in the engines' tables; 0 once a table is zeroed. -/
def State.nsKey (s : State) (nsid : Nat) : BitVec 512 := Tbl.look 0 s.cph.keys (s.ns nsid).slot

/-- A command that needs a namespace's key can have it: no alarm is latched and the namespace has a key (R276, R284). -/
def State.keyAvailable (s : State) (nsid : Nat) : Bool := !s.cph.alarm && !(s.ns nsid).noKey

/-- A namespace's key derived and written into every engine's table (R280). -/
def State.loadKey (s : State) (nsid : Nat) : State :=
  let n := s.ns nsid
  s.onCph fun c => { c with keys := Tbl.put 0 c.keys n.slot (namespaceKey c.uds nsid n.slot n.gen n.nonce) }

/-- The key slots bound to namespaces. -/
def State.slotsBound (s : State) : Nat := Tbl.count (fun n => n.present) s.nss

/-- The engine that serves a block's lanes: its own, its partner's, or with both out the lowest in service of the lane's
region, then of the device (R51, R268). -/
def State.engineOf (s : State) (b : Nat) : Option Nat :=
  let up := fun n => s.cph.engines.getLsbD n
  if up b then some b
  else if up (partnerBlock b) then some (partnerBlock b)
  else match ((List.range 8).map fun i => 8 * regionOfBlock b + i).find? up with
    | some n => some n
    | none => (List.range 32).find? up

/-- Both engines of a block's partner pair are out: commands that need its lanes are declined (R268). -/
def State.cipherShort (s : State) (b : Nat) : Bool :=
  !s.cph.engines.getLsbD b && !s.cph.engines.getLsbD (partnerBlock b)

/-- The cipher jobs that wait at an engine: neither running nor suspended, in order of arrival. -/
def State.cipherWaiting (s : State) (b : Nat) : List (Cls × Nat) :=
  s.work.ciphers.filterMap fun p => p.2.bind fun j =>
    if j.block = b ∧ (s.blk b).cipRun ≠ some p.1 ∧ ((s.blk b).cipSusp.all fun x => x.2 != p.1) then some (j.cls, p.1) else none

/-- The first job of the highest class: suspended ones go before waiting ones of their class (R267). -/
def firstByClass (l : List (Cls × Nat)) : Option Nat :=
  match l.find? fun x => x.1 == .dash, l.find? fun x => x.1 == .tempo, l with
  | some x, _, _ => some x.2
  | none, some x, _ => some x.2
  | none, none, x :: _ => some x.2
  | none, none, [] => none

/-- The engine takes its next job: the running one goes on, or is suspended by a unit of a higher class when no job of its
class is suspended already; a free engine takes the first by class (R266, R267). -/
def State.scheduleCipher (s : State) (b : Nat) : State :=
  let k := s.blk b
  match k.cipRun with
  | none =>
    match firstByClass (k.cipSusp ++ s.cipherWaiting b) with
    | none => s
    | some j => s.updBlk b fun k => { k with cipRun := some j, cipSusp := k.cipSusp.filter fun x => x.2 != j }
  | some r =>
    match s.cipherJobAt r with
    | none => s.updBlk b fun k => { k with cipRun := none }
    | some run =>
      match (s.cipherWaiting b).find? fun x => decide (x.1.rank < run.cls.rank) with
      | none => s
      | some w =>
        if run.cls = .dash ∨ k.cipSusp.any (fun x => x.1 == run.cls) then s
        else
          let j := (firstByClass (s.cipherWaiting b)).getD w.2
          s.updBlk b fun k => { k with cipRun := some j, cipSusp := k.cipSusp ++ [(run.cls, r)] }

/-- A cipher job given to the engine that serves a block; none when no engine of the device is in service. -/
def State.addCipherJob (s : State) (b ctx : Nat) (cls : Cls) (encrypt : Bool) (units : List (Nat × Nat × Nat)) : State :=
  match s.engineOf b with
  | none => s
  | some e =>
    ((s.onWork fun w => { w with nextJob := w.nextJob + 1 }).setCipherJob s.work.nextJob
      (some ⟨e, ctx, cls, encrypt, units⟩)).scheduleCipher e

/-- A cipher job taken out of the engine. -/
def State.dropCipherJob (s : State) (j : Nat) : State :=
  match s.cipherJobAt j with
  | none => s
  | some x =>
    ((s.setCipherJob j none).updBlk x.block fun k =>
      { k with cipRun := if k.cipRun = some j then none else k.cipRun, cipSusp := k.cipSusp.filter fun p => p.2 != j })
      |>.scheduleCipher x.block

/-- The jobs of an engine moved to the engine that serves its block now (R268). A unit in progress starts again. -/
def State.moveCipherJobs (s : State) (b : Nat) : State :=
  let s := s.updBlk b fun k => { k with cipRun := none, cipSusp := [] }
  match s.engineOf b with
  | none => s
  | some e =>
    (s.onWork fun w => { w with ciphers := Tbl.mapAll none (fun _ o => o.map fun j =>
      if j.block = b then { j with block := e } else j) w.ciphers }).scheduleCipher e

end Sys2Proof.Machine
end

