-- ==== Sys2Proof/Machine/Frames.lean ====
section
/-! DEFINITION. The frames of a stripe row: their content and metadata (R160), parity P and Q over them (R174, R175, R178), a frame
recovered from the others (R176, R187), and the bytes of a data-in phase (R128). -/

namespace Sys2Proof.Machine

/-- The byte 0x01 in every place of a block. -/
def onesBlock : Block := BitVec.ofNat 32896 ((2 ^ 32896 - 1) / 255)

/-- GF(2^8) multiplication by 2 of every byte of a block (R174). -/
def gfDoubleBlock (b : Block) : Block :=
  let low := onesBlock * 0x7F
  ((b &&& low) <<< 1) ^^^ (((b >>> 7) &&& onesBlock) * 0x1D)

/-- GF(2^8) multiplication of every byte of a block by a constant, over `n` bits of it. -/
def gfScaleBits : Nat → Nat → Block → Block
  | 0, _, _ => 0
  | n + 1, c, b => (if c % 2 = 1 then b else 0) ^^^ gfScaleBits n (c / 2) (gfDoubleBlock b)

/-- GF(2^8) multiplication of every byte of a block by a constant (R174). -/
def gfScale (c : Nat) (b : Block) : Block := gfScaleBits 8 c b

/-- `a` to the power `n` in GF(2^8). -/
def gfRaise (a : Nat) : Nat → Nat
  | 0 => 1
  | n + 1 => gfMul (gfRaise a n) a

/-- The inverse of a non-zero element: a^254. -/
def gfInverse (a : Nat) : Nat := gfRaise a 254

/-- The parity of a unit's stripe row. -/
def State.rowParity (s : State) (zk row : Nat) : RowParity := Tbl.look {} s.parity (mediaKey zk row)

/-- `f` applied to the parity of a stripe row. -/
def State.updParity (s : State) (zk row : Nat) (f : RowParity → RowParity) : State :=
  { s with parity := Tbl.put {} s.parity (mediaKey zk row) (f (s.rowParity zk row)) }

/-- The pad frame of a place: the fixed pad pattern of R80, whose bytes the spec does not state (log entry 2). -/
def padFrame : Block := Config.padPattern

/-- The protected content of data member `d`, frame `j` of a row, as it stands in the frame (R174): stored, or the pad pattern at and above
the write pointer (R80, R156). -/
def State.dataContent (s : State) (zk row d j : Nat) : Block :=
  let off := 256 * row + 16 * d + j
  if (s.zone zk).filled ≤ off then padFrame else s.stored zk off

/-- The protected content of the member at a position (R173-R175). The cell generates the pad pattern for every member of a row above the last
written one (R156). -/
def State.content (s : State) (zk row pos j : Nat) : Block :=
  match dataAt (s.zone zk).rot pos with
  | some d => s.dataContent zk row d j
  | none => if (s.zone zk).filled ≤ 256 * row then padFrame else if pos = pPosition (s.zone zk).rot then Tbl.look 0 (s.rowParity zk row).p j else Tbl.look 0 (s.rowParity zk row).q j

/-- P over data members `ds` whose protected content at one frame index `unit` gives (R174). -/
def parityP (ds : List Nat) (unit : Nat → Block) : Block := ds.foldl (fun b d => b ^^^ unit d) 0

/-- Q over data members `ds` (R174). -/
def parityQ (ds : List Nat) (unit : Nat → Block) : Block := ds.foldl (fun b d => b ^^^ gfScale (gfPow d) (unit d)) 0

/-- P and Q of a row written: those over the data members `ds`, `unit d j` the content of member `d` at frame index `j`. -/
def State.writeParity (s : State) (zk row : Nat) (ds : List Nat) (unit : Nat → Nat → Block) : State :=
  s.updParity zk row fun r =>
    { r with p := (List.range 16).foldl (fun t j => Tbl.put 0 t j (parityP ds fun d => unit d j)) []
             q := (List.range 16).foldl (fun t j => Tbl.put 0 t j (parityQ ds fun d => unit d j)) [] }

/-- The running parity of a row over the quarter rows folded into it (R178). -/
def State.parityOfQuarters (s : State) (zk row : Nat) (parts : List Nat) : State :=
  s.writeParity zk row ((List.range 16).filter fun d => parts.contains (d / 4)) (s.dataContent zk row)

/-- A data unit's frame of a row that is being staged, partly staged ones included (R180): a place neither staged nor padded counts as zeros. -/
def State.stagedUnit (s : State) (zk row : Nat) (staged : BitVec 256) (padded : Bool) (d j : Nat) : Block :=
  if hasBit staged (16 * d + j) || padded then s.dataContent zk row d j else 0

/-- The running parity of a row over the units staged for it (R180). -/
def State.parityOfStaged (s : State) (zk row : Nat) (staged : BitVec 256) (padded : Bool) : State :=
  s.writeParity zk row (List.range 16) (s.stagedUnit zk row staged padded)

/-- P over the data members but those left out. -/
def State.partialP (s : State) (zk row j : Nat) (out : List Nat) : Block :=
  parityP ((List.range 16).filter fun d => !out.contains d) fun d => s.dataContent zk row d j

/-- Q over the data members but those left out. -/
def State.partialQ (s : State) (zk row j : Nat) (out : List Nat) : Block :=
  parityQ ((List.range 16).filter fun d => !out.contains d) fun d => s.dataContent zk row d j

/-- Data member `d` from parity with one more data member unavailable, or none, and P or Q (R174, R187). -/
def State.recoverData (s : State) (zk row j d : Nat) (also : Option Nat) (noP : Bool) : Block :=
  let r := s.rowParity zk row
  let p := Tbl.look 0 r.p j
  let q := Tbl.look 0 r.q j
  match also with
  | some e =>
    let a := p ^^^ s.partialP zk row j [d, e]
    let b := q ^^^ s.partialQ zk row j [d, e]
    gfScale (gfInverse (gfPow d ^^^ gfPow e)) (b ^^^ gfScale (gfPow e) a)
  | none =>
    if noP then gfScale (gfInverse (gfPow d)) (q ^^^ s.partialQ zk row j [d]) else p ^^^ s.partialP zk row j [d]

/-- The protected content of the frame at a position rebuilt from the other members, `out` the positions that give nothing (R176, R187,
R201): parity is recomputed from the data units. -/
def State.rebuiltContent (s : State) (zk row pos j : Nat) (out : List Nat) : Block :=
  let rot := (s.zone zk).rot
  let missing := (out.filter (· != pos)).filterMap (dataAt rot)
  match dataAt rot pos with
  | some d => s.recoverData zk row j d missing.head? (out.contains (pPosition rot))
  | none =>
    let data := fun (d : Nat) => if missing.contains d then s.recoverData zk row j d none (pos == pPosition rot) else s.dataContent zk row d j
    if pos = pPosition rot then parityP (List.range 16) data else parityQ (List.range 16) data

/-- Content in the place of a member's frame: the stored unit of a data member, the parity of a row otherwise. -/
def State.placeContent (s : State) (zk row pos j : Nat) (b : Block) : State :=
  match dataAt (s.zone zk).rot pos with
  | some d => s.storeBlock zk (256 * row + 16 * d + j) b
  | none => s.updParity zk row fun r =>
      if pos = pPosition (s.zone zk).rot then { r with p := Tbl.put 0 r.p j b } else { r with q := Tbl.put 0 r.q j b }

/-- A rebuilt frame in its place (R168, R193, R201). -/
def State.placeRebuilt (s : State) (zk off pos : Nat) (out : List Nat) : State :=
  s.placeContent zk (rowOf off) pos (off % 16) (s.rebuiltContent zk (rowOf off) pos (off % 16) out)

/-- KIND of a frame (*Frame metadata*): host data, P, Q, pad, packed parcel. -/
def State.frameKind (s : State) (zk row pos j : Nat) : Nat :=
  let z := s.zone zk
  match dataAt z.rot pos with
  | some d => if z.filled ≤ 256 * row + 16 * d + j then 3 else if z.packed then 4 else 0
  | none => if z.filled ≤ 256 * row then 3 else if pos = pPosition z.rot then 1 else 2

/-- The LBA of a frame's host data: by the zone position, or by the reverse map of a reclaim unit (R64, R176, R203). -/
def State.frameLba (s : State) (zk off : Nat) : Nat :=
  if (s.zone zk).ru then Tbl.look 0 (s.zone zk).rev off - 1 else zoneOfKey zk * zsze + off

/-- ADDR_TAG: LBA[31:0], 0xFFFF_FFFF for parity and pad frames (*Frame metadata*). -/
def State.addrTag (s : State) (zk row pos j : Nat) : Nat :=
  match dataAt (s.zone zk).rot pos with
  | some d => if s.frameKind zk row pos j = 3 then 0xFFFFFFFF else s.frameLba zk (256 * row + 16 * d + j) % 2 ^ 32
  | none => 0xFFFFFFFF

/-- User bytes and metadata bytes 0-27 of a frame (*Frame metadata*): its content, ADDR_TAG, NS_TAG, KIND and the row epoch. -/
def State.frameBody (s : State) (zk row pos j : Nat) (content : Block) : Nat :=
  content.toNat + 256 ^ 4112 * s.addrTag zk row pos j + 256 ^ 4116 * (nsOfKey zk % 65536) + 256 ^ 4118 * s.frameKind zk row pos j +
    256 ^ 4120 * ((s.rowParity zk row).epoch % 2 ^ 32)

/-- The 4,608 bytes of a frame: user bytes, metadata with FCRC, LDPC parity (R160, R175, R176). -/
def State.frameBytes (s : State) (zk row pos j : Nat) : Nat :=
  let body := s.frameBody zk row pos j (s.content zk row pos j)
  let data := body + 256 ^ 4124 * crc32 (leBytes 4124 body)
  data + 256 ^ 4128 * (Config.ldpcParity data % 256 ^ 480)

/-- The stored block that a write behind an unfinished reset has staged for an offset of the zone (R76 step 2). -/
def State.behindBlock (s : State) (zk off : Nat) : Option Block :=
  (((s.zone zk).fence.map (·.behind)).getD []).findSome? fun c => (s.ctxAt c).bind fun x =>
    if x.phase = .done then (x.frozen.find? fun p => x.places.getD p.1 none == some (zk, off)).map (·.2) else none

/-- The protected content of a member of a row that writes behind an unfinished reset have staged (R76, R82). -/
def State.behindContent (s : State) (zk row pos j : Nat) : Block :=
  let rot := ((s.zone zk).fence.map (·.newRot)).getD 0
  let unit := fun (d : Nat) => (s.behindBlock zk (256 * row + 16 * d + j)).getD 0
  match dataAt rot pos with
  | some d => unit d
  | none => if pos = pPosition rot then parityP (List.range 16) unit else parityQ (List.range 16) unit

/-- The 64 bytes of data flit `i` of a data-in phase (R128, R154, R158): a pass goes page by page and plane by plane, each with its four frames of
4,096 bytes; feature parameters stand one write to a flit. What the checkpoint holds is not stated (log entry 2). -/
def State.dataIn (s : State) (src : DataIn) (i : Nat) : BitVec 512 :=
  match src with
  | .pass zk pos line =>
    (s.content zk (4 * line + i / 1024) pos (4 * (i % 1024 / 256) + i % 256 / 64)).extractLsb' (512 * (i % 64)) 512
  | .landing zk row pos behind =>
    (if behind then s.behindContent zk row pos (i / 64) else s.content zk row pos (i / 64)).extractLsb' (512 * (i % 64)) 512
  | .features ws => BitVec.ofNat 512 (ws.getD i 0).toNat
  | .journal => BitVec.ofNat 512 (Config.journalBytes i)

end Sys2Proof.Machine
end

