-- ==== Sys2Proof/Machine/Media.lean ====
section
/-! DEFINITION. Where a zone's frames lie, whether their dies can serve them, die calendars, entries of die queues, and
read-around (R64, R145-R151, R172, R173, R186-R190, R212, R214, R572). -/

namespace Sys2Proof.Machine

/-- The die of a member position: lane × 8 + die, none when the member is lost. -/
def State.memberDie (s : State) (z : Zone) (pos : Nat) : Option Nat := (s.stripe z.set).members.getD pos none

/-- The die of a member position, or the spare that a rebuild fills for it (R201). -/
def State.memberAt (s : State) (z : Zone) (pos : Nat) : Option Nat :=
  match s.memberDie z pos with
  | some k => some k
  | none => (z.refills.find? fun r => r.pos == pos && r.spare).map fun r => r.die

/-- The block that owns the lane of a member position, the lane of the member that was lost where no die holds it (R48, R51). -/
def State.blockOfMember (s : State) (z : Zone) (pos : Nat) : Nat :=
  match s.memberAt z pos with
  | some k => blockOfLane (k / 8)
  | none => blockOfLane ((s.stripe z.set).was.getD pos 0 / 8)

/-- A member's die block replaced in the map entry: REPLACED (R192). -/
def Zone.replace (z : Zone) (pos block : Nat) : Zone :=
  { z with dblk := z.dblk.set pos block, replaced := if z.replaced.contains pos then z.replaced else z.replaced ++ [pos] }

/-- The member position of a zone offset (R64, R173). -/
def posOfOffset (z : Zone) (off : Nat) : Nat := positionOfData z.rot (dataMemberOf off)

/-- The die block that holds a stripe row of a member: the relocation target for a word line already copied there (R193,
step 4), the map entry's otherwise. -/
def blockOfRow (z : Zone) (pos row : Nat) : Nat :=
  match z.relocTgt with
  | some (p, t) => if p = pos ∧ row / 4 < z.relocWl then t else z.dblk.getD pos 0
  | none => z.dblk.getD pos 0

/-- How a die can serve a read now: directly, or by read-around charged as *Read-around causes* lists (R186, R572). -/
inductive Service where
  | direct
  | maint
  | reactive
  | degraded
  deriving DecidableEq, Repr

/-- A live roll is reloading the marshal of a block (R500). -/
def State.reloading (s : State) (b : Nat) : Bool := s.boot.roll.any fun r => r.phase == 3 && r.unit == b && r.running

/-- The service of a member's die (R572). -/
def State.serviceOf (s : State) (m : Option Nat) : Service :=
  match m with
  | none => .degraded
  | some k =>
    let d := s.die k
    let l := s.lane (k / 8)
    let b := s.blk (blockOfLane (k / 8))
    if d.lost || d.st == .absent || d.st == .lost || l.mismatch || l.unserved || l.st == .failed then .degraded
    else if l.outage = some .recal ∨ l.outage = some .roll then .maint
    else if b.handoff.any (fun h => h.1 == k / 8) then .maint
    else if b.marshalOut then if s.reloading (blockOfLane (k / 8)) then .maint else .reactive
    else if l.st ≠ .active ∧ l.st ≠ .recovery then .reactive
    else if d.st = .stalled then .reactive
    else .direct

/-- The frames a word line's die holds of a member are programmed: its fine pass is complete (R154). -/
def Zone.programmed (z : Zone) (pos row : Nat) : Bool := decide (row / 4 < Tbl.look 0 z.fine pos)

/-- The service of a source of a rebuild: a member being filled again serves the word lines it holds (R168 step 5, R187, R201). -/
def State.sourceService (s : State) (z : Zone) (pos row : Nat) : Service :=
  if z.refills.any (fun r => r.pos == pos) && !z.programmed pos row then .degraded else s.serviceOf (s.memberAt z pos)

/-- The event timestamp in ps. -/
def State.nowPs (s : State) : Nat := s.now * 1000

/-- The derate of the bound set in force, percent (R223). -/
def State.derateNow (s : State) : Nat := ((s.tmk.sets.map BoundSet.derate).getD s.aon.band 0)

/-- The configured fields of the CHIP_DIE_ registers used here, µs. -/
def State.trPart (s : State) : Nat := s.cfg .chipDieTread 0 15 0
def State.trFull (s : State) : Nat := s.cfg .chipDieTread 0 31 16
def State.tsusp (s : State) : Nat := s.cfg .chipDieSusp 0 5 0
def State.suspReads (s : State) : Nat := max 1 (s.cfg .chipDieSusp 0 15 12)
def State.tresPen (s : State) : Nat := s.cfg .chipDieSusp 0 11 6
def State.suspMaxProg (s : State) : Nat := s.cfg .chipDieSusp 0 23 16
def State.suspMaxErase (s : State) : Nat := s.cfg .chipDieSusp 0 31 24

/-- POLL_INTERVAL of a lane, in 100 ns, as the TZ5120 wrote it (*LANE_BR_POLL*). -/
def State.pollOf (s : State) (lane : Nat) : Nat := bitsOf (s.lane lane).brPoll 11 0

/-- The booked occupancy of a read, ps: its cycle with the derate in force, and a lane share for each frame (R151, R212). -/
def State.readPs (s : State) (lane frames : Nat) : Nat :=
  readCyclePs (deratedPs (if frames = 1 then s.trPart else s.trFull) s.derateNow) (s.pollOf lane) + frames * laneSharePs

/-- The booked occupancy of a pass or erase, µs (R151). -/
def State.heavyUs (s : State) (lane : Nat) (kind : OpKind) : Nat :=
  let occ := fun base susp => occupancyUs base susp s.tsusp (s.pollOf lane) s.suspReads s.trPart s.tresPen
  match kind with
  | .coarse => occ (s.cfg .chipDieTprog 0 15 0) s.suspMaxProg
  | .fine => occ (s.cfg .chipDieTprog 0 31 16) s.suspMaxProg
  | .erase => occ (s.cfg .chipDieTerase 0 31 16) s.suspMaxErase
  | .slc | .checkpoint => s.cfg .chipDieTerase 0 15 0
  | _ => 0

/-- The operation a die holds as its program or erase. -/
def State.heavyOp (s : State) (k : Nat) : Option Op := (s.die k).heavy.bind fun t => s.opAt (opKey (k / 8) t)

/-- The largest POLL_INTERVAL among populated lanes; the reset value while no lane is (R222). -/
def State.largestPoll (s : State) : Nat :=
  let l := ((List.range 512).filter s.populated).map s.pollOf
  if l = [] then 0x14 else l.foldl max 0

/-- The start window of a class, ps (R214): the die budgets of Tempo and Distance too (R150). -/
def State.startWindow (s : State) (cls : Cls) : Nat :=
  match cls with
  | .dash => dashWindowPs s.trPart s.largestPoll s.derateNow
  | .tempo => max 1 (s.cfg .tmkWindow 0 15 0) * 1000000
  | .distance | .none => max 1 (s.cfg .tmkWindow 0 31 16) * 100000000

/-- Suspensions an operation may still take (R149); pSLC work takes none (R158). -/
def State.suspensionsLeft (s : State) (k : Nat) : Bool :=
  match s.heavyOp k with
  | none => true
  | some o => match o.entry.kind with
    | .erase => decide ((s.die k).suspUsed < s.suspMaxErase)
    | .coarse | .fine => decide ((s.die k).suspUsed < s.suspMaxProg)
    | _ => false

/-- The booked end of an entry on a die, ps from now; 0 where none stands. -/
def State.bookedLeft (s : State) (k entry : Nat) : Nat :=
  (s.die k).cal.foldl (fun m b => if b.entry = entry then max m (b.stop - s.nowPs) else m) 0

/-- A suspension made for a read, ps: SUSPEND on its way and worked, the die's latency, one poll (R214). -/
def State.suspendPs (s : State) (k : Nat) : Nat := s.tsusp * 1000000 + s.pollOf (k / 8) * 100000 + 500000

/-- The delay that the program or erase a die holds puts before a read, ps (R147, R149, R214). A Distance read waits for its end. A Dash
or Tempo read is served in the suspension that stands while its quota lasts; otherwise it waits for a suspension, after a resume where the die
is suspended, or for the end when no suspension is left. -/
def State.heavyDelayPs (s : State) (k : Nat) (cls : Cls) : Nat :=
  match s.heavyOp k with
  | none => 0
  | some o =>
    let d := s.die k
    if cls = .dash ∨ cls = .tempo then
      if o.suspended ∧ d.resuming = false ∧ d.readsServed < s.suspReads then 0
      else if s.suspensionsLeft k then s.suspendPs k + if o.suspended then 616250 else 0
      else s.bookedLeft k o.entry.id
    else s.bookedLeft k o.entry.id

/-- Program passes that wait at a die go before a Distance read (R147): the latest of their booked ends, ps from now. -/
def State.passDelayPs (s : State) (k : Nat) (cls : Cls) : Nat :=
  if cls = .dash ∨ cls = .tempo then 0
  else (s.die k).queue.foldl (fun m e => if e.kind = .coarse ∨ e.kind = .fine then max m (s.bookedLeft k e.id) else m) 0

/-- The first 6 bytes of a die's ONFI ID. -/
def Lane.onfiId (l : Lane) (d : Nat) : Nat := (Tbl.look 0 l.onfi d).toNat + 2 ^ 32 * ((Tbl.look 0 l.onfi2 d).toNat % 65536)

/-- The die model that the records know for a die (R144, R163). -/
def State.modelOf (s : State) (k : Nat) : Option DieModel :=
  s.store.models.find? fun m => m.onfi % 2 ^ 48 == (s.lane (k / 8)).onfiId (k % 8)

/-- The Set Features writes of a list that are used, of its first `n` (R164). -/
def usedWrites (n : Nat) (ws : List FeatWrite) : List FeatWrite := (ws.take n).filter fun w => w.addr % 256 != 0

/-- The levels of a die for a band. -/
def State.levels (s : State) (k band : Nat) : Option BandLevels := (s.modelOf k).bind fun m => m.bands[band]?

/-- The used writes of entry `i` of a die's offset table for a band, at most 4 (R164). -/
def State.entryWrites (s : State) (k band i : Nat) : List FeatWrite :=
  match s.levels k band with
  | none => []
  | some l => ((l.entries[i]?).map fun e => usedWrites 4 e.feat).getD []

/-- The writes of a band's prefix: the die feature record's, at most 8, then those of entry 0 (R164). -/
def State.prefixWrites (s : State) (k band : Nat) : List FeatWrite :=
  ((s.levels k band).map fun l => usedWrites 8 l.record).getD [] ++ s.entryWrites k band 0

/-- The prefix that a Distance read would carry puts its writes before the read, TFEAT each (R164, R214). -/
def State.prefixDelayPs (s : State) (k : Nat) (cls : Cls) : Nat :=
  match (s.die k).prefixBand with
  | some b => if cls = .dash ∨ cls = .tempo then 0 else (s.prefixWrites k b).length * s.cfg .chipDieTaux 0 7 0 * 1000000
  | none => 0

/-- The projected start delay of a read at a die, ps (R214). -/
def State.startDelayPs (s : State) (k : Nat) (cls : Cls) : Nat :=
  (s.die k).cal.foldl (fun m b => if b.read then max m (b.stop - s.nowPs) else m) (max (s.heavyDelayPs k cls) (s.passDelayPs k cls)) +
    s.prefixDelayPs k cls

/-- A die queue takes another entry: it holds 48 (R145). -/
def State.queueRoom (s : State) (k : Nat) : Bool := decide ((s.die k).queue.length < 48)

/-- A read booked on its die's calendar; intervals already past are dropped (R212). -/
def State.bookRead (s : State) (k : Nat) (cls : Cls) (frames entry : Nat) : State :=
  let start := s.nowPs + s.startDelayPs k cls
  s.updDie k fun d => { d with cal := (d.cal.filter fun b => decide (s.nowPs < b.stop)) ++
    [⟨start, start + s.readPs (k / 8) frames, true, entry⟩] }

/-- A pass or erase booked: after the other passes booked on the die and no earlier than the projected baton wait (R212). -/
def State.bookHeavy (s : State) (k : Nat) (kind : OpKind) (entry : Nat) : State :=
  let last := (s.die k).cal.foldl (fun m b => if b.read then m else max m b.stop) s.nowPs
  let start := max last (s.nowPs + s.tmk.batonWait * 1000000)
  s.updDie k fun d => { d with cal := (d.cal.filter fun b => decide (s.nowPs < b.stop)) ++
    [⟨start, start + s.heavyUs (k / 8) kind * 1000000, false, entry⟩] }

/-- The Set Features writes of a prefix sent on its own, booked: reads wait for their end (R164, R212). -/
def State.bookFeatures (s : State) (k writes entry : Nat) : State :=
  s.updDie k fun d => { d with cal := (d.cal.filter fun b => decide (s.nowPs < b.stop)) ++
    [⟨s.nowPs, s.nowPs + writes * s.cfg .chipDieTaux 0 7 0 * 1000000, true, entry⟩] }

/-- Time booked on the decoders of a block (R212). -/
def State.bookDecodePs (s : State) (b ps : Nat) : State := s.updBlk b fun k => { k with decBusy := max s.nowPs k.decBusy + ps }

/-- Frames booked on the decoders of a block, hard decodes of 1.8432 µs (R212). -/
def State.bookDecode (s : State) (b n : Nat) : State := s.bookDecodePs b (n * 1843200)

/-- Time booked on the parity pool, shared by the engines in service (R212). -/
def State.bookParityPs (s : State) (ps : Nat) : State :=
  let engines := max 1 (countBits s.cph.parityIn 8)
  s.onTmk fun k => { k with parityBusy := max s.nowPs k.parityBusy + ceilDiv ps engines }

/-- Rebuilds booked on the parity pool (R212). -/
def State.bookParity (s : State) (n : Nat) : State := s.bookParityPs (n * 1971200)

/-- A booking returned when its entry ends or is withdrawn. -/
def State.unbook (s : State) (k entry : Nat) : State :=
  s.updDie k fun d => { d with cal := d.cal.filter fun b => b.entry != entry }

/-- A read put into a die queue, booked (R145, R212). -/
def State.enqueueRead (s : State) (k : Nat) (e : QEntry) : State :=
  let e := { e with id := s.work.nextEntry, atNs := s.now }
  ((s.onWork fun w => { w with nextEntry := w.nextEntry + 1 }).bookRead k e.cls e.frames e.id).updDie k
    fun d => { d with queue := d.queue ++ [e] }

/-- A pass, erase or landing write put into a die queue, booked (R145, R212). -/
def State.enqueueHeavy (s : State) (k : Nat) (e : QEntry) : State :=
  let e := { e with id := s.work.nextEntry, atNs := s.now }
  ((s.onWork fun w => { w with nextEntry := w.nextEntry + 1 }).bookHeavy k e.kind e.id).updDie k
    fun d => { d with queue := d.queue ++ [e] }

/-- The tokens that a tenant's read-around bucket has by now, and the time up to which they are counted: RATE × 1/16 token per ms, up to
BURST (R189). -/
def State.raNow (s : State) (t : Nat) : Int × Nat :=
  let x := s.tenant t
  let rate := s.cfg .tntRa t 31 16
  let burst : Int := min 0x7FFF (s.cfg .tntRa t 15 0)
  let n := (s.now - x.raAt) * rate / 16000000
  if rate = 0 ∨ burst ≤ x.raLevel then (x.raLevel, s.now)
  else if n = 0 then (x.raLevel, x.raAt)
  else (min burst (x.raLevel + n), x.raAt + n * 16000000 / rate)

/-- The read-around bucket brought up to now (R189). -/
def State.accrueRa (s : State) (t : Nat) : State :=
  let x := s.tenant t
  s.setTenant t { x with raLevel := (s.raNow t).1, raAt := (s.raNow t).2 }

/-- One reactive rebuild charged to a tenant's bucket: down to -BURST, below it counted and recorded (R189). -/
def State.chargeReactive (s : State) (t : Nat) : State :=
  let s := s.accrueRa t
  let burst : Int := min 0x7FFF (s.cfg .tntRa t 15 0)
  let x := s.tenant t
  if -burst < x.raLevel then s.setTenant t { x with raLevel := x.raLevel - 1 }
  else
    let x := { x with raOver := satAdd 16 x.raOver 1 }
    let due := match x.raEventAt with
      | none => true
      | some a => decide (a + 1000000 ≤ s.now)
    if due then
      (s.setTenant t { x with raEventAt := some s.now }).raise 0x0496 s.srcStarters t (twosOf 32 x.raLevel) x.raOver 0
    else s.setTenant t x

/-- One rebuild charged as *Read-around causes* lists (R186, R190). -/
def State.chargeRebuild (s : State) (tenant : Nat) (v : Service) : State :=
  match v with
  | .maint => s.onTmk fun k => { k with maintLevel := k.maintLevel - 1, maintFull := false }
  | .reactive => s.chargeReactive tenant
  | .direct | .degraded => s

/-- The positions whose frames rebuild the frame of `pos`: the other data members and P, or for a parity position the 16 data
members (R187, R201). -/
def sourcesOf (rot pos : Nat) : List Nat :=
  if (dataPositions rot).contains pos then (dataPositions rot).filter (· != pos) ++ [pPosition rot] else dataPositions rot

/-- The event of a rebuild that cannot be made (R187). -/
def State.rebuildImpossible (s : State) (z : Zone) (zk : Nat) (unavailable : List Nat) : State :=
  s.raise 0x0489 s.srcStarters z.set (unavailable.foldl (fun n p => n + 2 ^ p) 0) (nsOfKey zk) 0

/-- A Dash read always meets its budget at an idle or reading die, at a suspended one with quota left, or at a program or erase with suspensions
left (R150). -/
def State.dashBusy (s : State) (k : Nat) : Bool :=
  let d := s.die k
  match d.st with
  | .idle | .read => false
  | .progSusp | .eraseSusp => decide (s.suspReads ≤ d.readsServed)
  | .prog | .erase => !s.suspensionsLeft k
  | _ => true

/-- The pacer's busy report (R150): a Dash read at a die in one of the cases that cannot meet its budget; a Tempo or Distance read whose
projected start delay is past its window. A full queue, never met in service (R145), counts as busy. -/
def State.readBusy (s : State) (k : Nat) (cls : Cls) : Bool :=
  !s.queueRoom k || match cls with
  | .dash => s.dashBusy k
  | c => decide (s.startWindow c < s.startDelayPs k c)

/-- The die's projected free time told to the home steward of a command with the report (R150). -/
def State.tellBusy (s : State) (k c : Nat) (cls : Cls) : State :=
  let free := s.nowPs + s.startDelayPs k cls
  s.updCtx c fun x => { x with busyUntil := max x.busyUntil free }

/-- A source read of a read-around: a partial-page read at the command's class (R187). -/
def State.enqueueSource (s : State) (n : Nat) (r : Rebuild) (pos : Nat) : State :=
  let z := s.zone r.zk
  match s.memberAt z pos with
  | none => s
  | some k =>
    let e : QEntry :=
      { id := 0, kind := .read, cls := r.cls, ctx := r.ctx, zk := r.zk, off := r.off, pos := pos,
        block := blockOfRow z pos (rowOf r.off), page := rowOf r.off, rebuild := some n }
    (s.bookDecode (blockOfLane (k / 8)) 1).enqueueRead k e

/-- A source that its die reports busy (R150, R187). A read for the device waits in its queue while that has room. -/
def State.sourceBusy (s : State) (r : Rebuild) (pos : Nat) : Bool :=
  match s.memberAt (s.zone r.zk) pos with
  | none => true
  | some k => !s.queueRoom k || (r.ctx != 0 && s.readBusy k r.cls)

/-- The sources a rebuild of a frame can use: the ones in service, with Q for one that is not; none when two members other than
the target are unavailable (R187). -/
def State.rebuildPlan (s : State) (z : Zone) (pos row : Nat) : Option (List Nat × Bool) × List Nat :=
  let src := sourcesOf z.rot pos
  let good := src.filter fun p => s.sourceService z p row == .direct
  let bad := src.filter fun p => s.sourceService z p row != .direct
  let q := qPosition z.rot
  match bad with
  | [] => (some (good, false), [])
  | [_] =>
    if q ≠ pos ∧ s.sourceService z q row = .direct then (some (good ++ [q], true), bad) else (none, bad ++ [q])
  | bad => (none, bad)

/-- A target read of a command is still queued, running or decoding for a zone offset. -/
def State.targetPending (s : State) (c zk off : Nat) : Bool :=
  let covers := fun (e : QEntry) => e.ctx == c && e.rebuild.isNone && e.zk == zk && decide (e.off ≤ off ∧ off < e.off + e.frames)
  s.dies.any (fun p => p.2.queue.any covers) ||
  s.work.ops.any (fun p => p.2.any fun o => o.entries.any covers && !o.failed) ||
  s.work.decodes.any (fun p => p.2.any fun j => covers j.entry && j.off == off)

/-- A rebuild of the frame is running for the command. -/
def State.rebuildPending (s : State) (c zk off : Nat) : Bool :=
  s.work.rebuilds.any fun p => p.2.any fun r => r.ctx == c && r.zk == zk && r.off == off

/-- A frame that neither a target read nor a rebuild can still deliver ends its command with Unrecovered Read Error. -/
def State.giveUpFrame (s : State) (c zk off : Nat) : State :=
  if c = 0 ∨ s.targetPending c zk off ∨ s.rebuildPending c zk off then s else s.finish c .unrecovered

/-- A source of a rebuild found unavailable: Q takes its place once; a second one ends the rebuild (R187). -/
def State.sourceFailed (s : State) (n pos : Nat) : State :=
  match s.rebuildAt n with
  | none => s
  | some r =>
    let z := s.zone r.zk
    let q := qPosition z.rot
    let r := { r with awaited := r.awaited.filter (· != pos), unavailable := r.unavailable ++ [pos] }
    if r.usesQ ∨ pos = q ∨ q = r.pos ∨ s.sourceService z q (rowOf r.off) ≠ .direct ∨ s.sourceBusy r q then
      ((s.setRebuild n none).rebuildImpossible z r.zk r.unavailable).giveUpFrame r.ctx r.zk r.off
    else
      let r := { r with usesQ := true, awaited := r.awaited ++ [q] }
      (s.setRebuild n (some r)).enqueueSource n r q

/-- A source of a rebuild sent to its pacer, or found unavailable because its die reports it busy (R187). -/
def State.offerSource (s : State) (n pos : Nat) : State :=
  match s.rebuildAt n with
  | none => s
  | some r => if s.sourceBusy r pos then s.sourceFailed n pos else s.enqueueSource n r pos

/-- A read-around started for one frame of a command (context 0 for device work), charged as given (R186, R187). -/
def State.startRebuild (s : State) (ctx : Nat) (cls : Cls) (tenant zk off pos : Nat) (charge : Service) : State :=
  let z := s.zone zk
  match s.rebuildPlan z pos (rowOf off) with
  | (none, bad) => s.rebuildImpossible z zk bad
  | (some (src, usesQ), bad) =>
    let r : Rebuild := ⟨ctx, cls, zk, off, src, bad, usesQ, pos⟩
    let n := s.work.nextJob
    let s := ((s.chargeRebuild tenant charge).onWork fun w => { w with nextJob := w.nextJob + 1 }).setRebuild n (some r)
    s.each src fun p s => s.offerSource n p

/-- The class at which a parity engine job runs (R177). -/
def ParityJob.cls : ParityJob → Cls
  | .rebuild _ c => c
  | .quarter _ _ _ | .final _ _ | .topUp _ _ => .distance

/-- The parity engines in service that hold no job, ascending (R179). -/
def State.freeParity (s : State) : List Nat :=
  (List.range 8).filter fun i => hasBit s.cph.parityIn i && (Tbl.look none s.work.parityRun i).isNone

/-- The parity jobs that wait for an engine, in order of arrival. -/
def State.parityWaiting (s : State) : List (Cls × Nat) :=
  s.work.parities.filterMap fun p => p.2.bind fun j => if s.work.parityRun.any fun r => r.2 == some p.1 then none else some (j.cls, p.1)

/-- Parity engines at work on Distance jobs. -/
def State.parityDistance (s : State) : Nat :=
  (s.work.parityRun.filter fun r => (r.2.bind s.parityJobAt).any fun j => j.cls == .distance).length

/-- The most engines that Distance parity work may hold: two fewer than are in service but at least one, and all of them in Homestretch and in
a fault stop (R216). -/
def State.parityLimit (s : State) : Nat :=
  let n := countBits s.cph.parityIn 8
  if s.power.mode = .homestretch ∨ s.flt.stop ≠ 0 then n else max 1 (n - 2)

/-- The waiting parity jobs that may have an engine now. -/
def State.parityReady (s : State) : List (Cls × Nat) :=
  s.parityWaiting.filter fun x => x.1 != .distance || decide (s.parityDistance < s.parityLimit)

/-- Free parity engines granted to waiting jobs in class order (R40, R216, *Parity engines*). -/
def State.grantParity : Nat → State → State
  | 0, s => s
  | n + 1, s =>
    match s.freeParity, firstByClass s.parityReady with
    | i :: _, some j => State.grantParity n (s.onWork fun w => { w with parityRun := Tbl.put none w.parityRun i (some j) })
    | _, _ => s

/-- A parity engine job opened (R177). -/
def State.addParityJob (s : State) (j : ParityJob) : State :=
  ((s.onWork fun w => { w with nextJob := w.nextJob + 1 }).setParityJob s.work.nextJob (some j)).grantParity 8

/-- Running or final parity work opened and booked: at most 16,384 beats on the pool (R178, R212; log entry 179). -/
def State.addParityWork (s : State) (j : ParityJob) : State := (s.bookParityPs 13107200).addParityJob j

/-- A parity job taken out: its engine is free for the next (R40). -/
def State.dropParityJob (s : State) (n : Nat) : State :=
  ((s.setParityJob n none).onWork fun w => { w with parityRun := Tbl.mapAll none (fun _ r => if r = some n then none else r) w.parityRun }).grantParity 8

/-- A good source frame: with the last one the rebuild goes to a parity engine (R187). -/
def State.sourceArrived (s : State) (n pos : Nat) : State :=
  match s.rebuildAt n with
  | none => s
  | some r =>
    let r := { r with awaited := r.awaited.filter (· != pos) }
    let s := s.setRebuild n (some r)
    if r.awaited = [] then s.addParityJob (.rebuild n r.cls) else s

/-- The LBA indexes of a command that lie at a zone offset and have not come yet. -/
def Ctx.indexesAt (x : Ctx) (zk off : Nat) : List Nat :=
  ((List.range x.places.length).filter fun i => x.places.getD i none == some (zk, off) && !x.got.contains i)

/-- A good frame for a command, from its target read or its rebuild, `content`, whichever is first (R188): it goes to the cipher engine
that serves the target lane's block (R52). The other is cancelled. -/
def State.deliverFrame (s : State) (c zk off block : Nat) (content : Option Block) : State :=
  match s.ctxAt c with
  | none => s
  | some x =>
    match x.indexesAt zk off with
    | [] => s
    | is =>
      let s := s.setCtx c (some { x with got := x.got ++ is,
                                         frozen := x.frozen ++ (content.toList.flatMap fun b => is.map fun i => (i, b)) })
      let s := s.onWork fun w => { w with rebuilds := Tbl.mapAll none (fun _ o => o.bind fun r =>
        if r.ctx = c ∧ r.zk = zk ∧ r.off = off then none else some r) w.rebuilds }
      let s := (s.mapDies fun _ d => { d with queue := d.queue.filter fun e =>
        !(e.ctx == c && e.zk == zk && e.off == off && e.frames == 1) }).pruneSoft c
      s.addCipherJob block c x.cls false (is.map fun i => (zk, off, i))

/-- A read of a command's frame that its die or lane cannot serve: a reactive or maintenance read-around of every frame that
has not come (R150, R186). -/
def State.aroundEntry (s : State) (e : QEntry) (charge : Service) : State :=
  match e.rebuild, s.ctxAt e.ctx with
  | some n, _ => s.sourceFailed n e.pos
  | none, none => s
  | none, some x =>
    s.each ((List.range e.frames).map fun i => e.off + i) fun o s =>
      if (x.indexesAt e.zk o).isEmpty || s.rebuildPending e.ctx e.zk o then s
      else (s.startRebuild e.ctx e.cls x.tenant e.zk o e.pos charge).giveUpFrame e.ctx e.zk o

/-- A target read sent to its pacer; one that is reported busy is served by read-around as well (R150, R188). -/
def State.sendRead (s : State) (k : Nat) (e : QEntry) : State :=
  if s.readBusy k e.cls then
    let s := s.tellBusy k e.ctx e.cls
    (if s.queueRoom k then s.enqueueRead k e else s).aroundEntry { e with id := 0 } .reactive
  else s.enqueueRead k e

end Sys2Proof.Machine
end

