-- ==== Sys2Proof/Machine/WinOps.lean ====
section
/-! DEFINITION. Zone windows as the zones see them: destroying one and revoking those of a zone (R357, R358). -/

namespace Sys2Proof.Machine

/-- An event of the RDMA engine (R360). -/
def State.raiseRdma (s : State) (code p1 p2 p3 p4 : Nat) : State := s.raise code srcRdma p1 p2 p3 p4

/-- A window destroyed: its rkey is void and its pages are dropped; READs that arrived before are still answered (R357). -/
def State.dropWindow (s : State) (wid : Nat) : State :=
  (s.setWindow wid {}).onFab fun f => { f with cache := f.cache.filter fun p => p.wid != wid }

/-- The data of an LBA that no write has filled: zeros, and below the write pointer of a finished zone what the spec does not state (R74, R80). -/
def State.unwritten (s : State) (nsid lba : Nat) : Block :=
  let z := s.zone (zoneKey nsid (lba / zsze))
  if (s.ns nsid).zoned && decide (z.filled ≤ lba % zsze ∧ lba % zsze < z.wp) then Config.padRead nsid lba else 0

/-- A block of a zone as a window returns it: deciphered, without host metadata, zeros where nothing is written (R351, R353). -/
def State.windowBlock (s : State) (nsid zone off : Nat) : Nat :=
  let zk := zoneKey nsid zone
  (if off < (s.zone zk).filled then xtsFrame false (s.nsKey nsid) (zone * zsze + off) (s.stored zk off)
   else s.unwritten nsid (zone * zsze + off)).toNat % 2 ^ 32768

/-- The bytes of a range of a window (R351). -/
def State.windowData (s : State) (nsid zone va len : Nat) : List FieldVal :=
  (List.range (if len = 0 then 0 else (va + len - 1) / 4096 - va / 4096 + 1)).flatMap fun i =>
    FieldVal.cut va (va + len) ⟨4096 * (va / 4096 + i), 4096, s.windowBlock nsid zone (va / 4096 + i)⟩

/-- READs of a zone that arrived before a revocation keep what it held (R77, R358). -/
def State.keepReads (s : State) (zk : Nat) : State :=
  s.onFab fun f => { f with reads := Tbl.mapAll none (fun _ r => r.map fun w =>
    if zoneKey w.nsid w.zone = zk ∧ w.old.isNone then { w with old := some (s.windowData w.nsid w.zone w.va w.len) } else w) f.reads }

/-- The windows of a zone. -/
def State.windowsOf (s : State) (zk : Nat) : List Nat :=
  Tbl.numbers (fun w => w.up && zoneKey w.nsid w.zone == zk) s.fab.windows

/-- A zone's windows revoked, with event 0x0A0A (R358). A Window Create that still preloads ends with its window. -/
def State.revokeWindows (s : State) (zk cause : Nat) : State :=
  let s := s.keepReads zk
  match s.windowsOf zk with
  | [] => s
  | ws =>
    let s := s.each ws fun w s =>
      let pre := (s.window w).preload
      let s := s.dropWindow w
      match pre with
      | some h => s.completeWith h .windowTimeout w 0 []
      | none => s
    s.raiseRdma 0x0A0A (nsOfKey zk) (zoneOfKey zk) ws.length cause

/-- The windows of every zone of a namespace revoked, zone by zone. -/
def State.revokeAll (s : State) (nsid cause : Nat) : State :=
  let zs := (((s.fab.windows.filter fun p => p.2.up && p.2.nsid == nsid).map fun p => zoneKey nsid p.2.zone) ++
    s.fab.reads.filterMap fun p => p.2.bind fun r => if r.nsid = nsid then some (zoneKey nsid r.zone) else none).eraseDups
  s.each (zs.mergeSort (· ≤ ·)) fun zk s => s.revokeWindows zk cause

end Sys2Proof.Machine
end

