-- ==== Sys2Proof/Machine/Stripes.lean ====
section
/-! DEFINITION. Stripe sets: formation, the zones that lie on a set, lost dies and spares, degraded sets, and die blocks taken
and retired (R91-R95, R170-R173, R192, R197-R202). -/

namespace Sys2Proof.Machine

/-- The stripe sets of a pool, ascending (R93). -/
def State.poolSets (s : State) (pool : Nat) : List Nat := Tbl.numbers (fun x => x.pool == pool && x.members != []) s.sets

/-- The stripe set a zone of a zoned namespace lies on: P[k mod S] (R93). -/
def State.placeSet (s : State) (nsid zone : Nat) : Nat :=
  let p := s.poolSets (s.ns nsid).pool
  if p = [] then 0 else p.getD (zone % p.length) 0

/-- The members of a stripe set that are lost. -/
def StripeSet.lostMembers (x : StripeSet) : Nat := (x.members.filter (·.isNone)).length

/-- A stripe set with a lost member not yet rebuilt (R91). -/
def StripeSet.degraded (x : StripeSet) : Bool := x.lostMembers != 0

/-- The zones of zoned namespaces that lie on a set, by key. -/
def State.zonesOnSet (s : State) (set : Nat) : List Nat :=
  s.nss.flatMap fun p =>
    if p.2.present && p.2.zoned then
      ((List.range p.2.units).filter fun k => s.placeSet p.1 k == set).map fun k => zoneKey p.1 k
    else []

/-- The units of a set that hold die blocks, by key. -/
def State.unitsOnSet (s : State) (set : Nat) : List Nat := Tbl.numbers (fun z => z.valid && z.set == set) s.zones

/-- A zone that holds an active slot (*Zone states*). -/
def Zone.active (z : Zone) : Bool := z.st == .implicitOpen || z.st == .explicitOpen || z.st == .closed

/-- A map entry changed: a checkpoint commit, whose epoch stands in the entry (R192; log entry 174). -/
def State.commitZone (s : State) (zk : Nat) (z : Zone) : State :=
  (s.onStore fun t => { t with epoch := t.epoch + 1 }).setZone zk { z with epoch := s.store.epoch + 1 }

/-- `f` applied to a map entry, with its checkpoint commit. -/
def State.commitMap (s : State) (zk : Nat) (f : Zone → Zone) : State := s.commitZone zk (f (s.zone zk))

/-- A die holds a copy of the metadata checkpoint: a member of stripe set 0 or 1 (R197). -/
def State.checkpointDie (s : State) (k : Nat) : Bool := (s.stripe 0).was.contains k || (s.stripe 1).was.contains k

/-- Positions of a die below its landing area and checkpoint copy (R197; log entry 175). -/
def State.diePositions (s : State) (k : Nat) : Nat := s.store.blocks - if s.checkpointDie k then 4 else 2

/-- A die's bad-block replacement allowance (R197). -/
def State.allowance (s : State) (k : Nat) : Nat := if s.checkpointDie k then 22 else 24

/-- Positions of a die never used and not bad. -/
def State.freshPositions (s : State) (k : Nat) : List Nat :=
  let d := s.die k
  (List.range (s.diePositions k - d.nextBlock)).filterMap fun i =>
    if d.badPos.contains (d.nextBlock + i) then none else some (d.nextBlock + i)

/-- Erased die blocks a die can give to activations and relocations: all but those that its replacement allowance still keeps (R78,
R197). -/
def State.freeBlocks (s : State) (k : Nat) : Nat :=
  (s.die k).erasedBlocks.length + (s.freshPositions k).length - (s.allowance k - (s.die k).badPos.length)

/-- An erased die block taken: one erased in service first, then the next position never used and not bad. -/
def State.takeBlock (s : State) (k : Nat) : Nat × State :=
  let d := s.die k
  match d.erasedBlocks with
  | b :: bs => (b, s.setDie k { d with erasedBlocks := bs })
  | [] =>
    let b := (s.freshPositions k).headD d.nextBlock
    (b, s.setDie k { d with nextBlock := b + 1 })

/-- Erased die blocks taken on each member of a set, by position; a lost position takes none until its rebuild. -/
def State.takeBlocks (s : State) : List (Option Nat) → List Nat × State
  | [] => ([], s)
  | none :: ms => let (bs, s) := s.takeBlocks ms; (0 :: bs, s)
  | some k :: ms =>
    let (b, s) := s.takeBlock k
    let (bs, s) := s.takeBlocks ms
    (b :: bs, s)

/-- A die block given to the erase queue of its die (R76, R193). Its erase is queued when its last read ends. -/
def State.releaseBlock (s : State) (k b : Nat) : State := s.updDie k fun d => { d with eraseQueue := d.eraseQueue ++ [b] }

/-- Every die block of a unit given to the erase queues (R76). -/
def State.releaseUnit (s : State) (zk : Nat) : State :=
  let z := s.zone zk
  let s := s.each (List.range z.dblk.length) fun p s =>
    match s.memberAt z p with
    | none => s
    | some k => s.releaseBlock k (z.dblk.getD p 0)
  match z.relocTgt with
  | none => s
  | some (p, t) => match s.memberDie z p with
    | none => s
    | some k => (s.releaseBlock k t).updDie k fun d => { d with reloc := none }

/-- The zone keeper of a zone: the steward of the namespace's home region that keeps even or odd zones (R69). -/
def State.keeperOf (s : State) (zk : Nat) : Nat := srcSteward (s.ns (nsOfKey zk)).region

/-- An event for a zone: its keeper as source, the keeper's sub-instance and the NSID in parameter 1 (R67, R206). -/
def State.raiseZone (s : State) (code zk p3 p4 : Nat) : State :=
  s.raise code (s.keeperOf zk) (subParam (zoneOfKey zk % 2) (nsOfKey zk)) (zoneOfKey zk) p3 p4

/-- A device-initiated transition reported: the Changed Zone List, and the notice to the owner (R67). -/
def State.zoneChanged (s : State) (zk : Nat) : State :=
  let n := nsOfKey zk
  (s.updNs n fun x => { x with changed := if x.changed.contains (zoneOfKey zk) then x.changed else x.changed ++ [zoneOfKey zk] }).notify
    (s.ns n).tenant (.zoneDescriptorChanged n)

/-- A second loss makes a zone Read Only, a third Offline (R92); an Offline zone holds no die blocks. -/
def State.degradeZone (s : State) (losses zk : Nat) : State :=
  let z := s.zone zk
  if z.st = .offline ∨ losses < 2 then s
  else if losses = 2 then
    if z.st = .readOnly then s
    else ((s.setZone zk { z with st := .readOnly }).zoneChanged zk).raiseZone 0x0481 zk z.set 0
  else
    let s := (s.revokeWindows zk 2).releaseUnit zk
    let s := (s.onWork fun w => { w with rows := w.rows.filter fun r => r.zk != zk }).compareDirty
    ((s.commitZone zk { z with st := .offline, valid := false, dblk := [], refills := [] }).zoneChanged zk).raiseZone 0x0482 zk z.set 0

/-- The spare for a lost position (R200): in the lost member's own block, then the lowest block, lane and die, never in a block
that holds another member. The spares of a pool are dies in service. -/
def State.chooseSpare (s : State) (x : StripeSet) (lostKey : Nat) : Option Nat :=
  let taken := x.members.filterMap fun m => m.map fun k => blockOfLane (k / 8)
  let ok := (s.store.spares.filter fun p => p.1 == x.pool && !taken.contains (blockOfLane (p.2 / 8)) && !(s.die p.2).lost).map (·.2)
  match ok.filter fun k => blockOfLane (k / 8) == blockOfLane (lostKey / 8) with
  | k :: ks => some (ks.foldl min k)
  | [] => match ok with
    | k :: ks => some (ks.foldl min k)
    | [] => none

/-- The rebuild of a degraded set started on a spare, or event 0x0487 (R200, R201). -/
def State.startStripeRebuild (s : State) (set pos lostKey : Nat) : State :=
  let x := s.stripe set
  match s.chooseSpare x lostKey with
  | none => s.raise 0x0487 s.srcStarters set pos 0 0
  | some k =>
    let n := (s.unitsOnSet set).length
    ((s.setStripe set { x with rebuild := some (pos, k, n, s.now) }).onStore fun t =>
      { t with spares := t.spares.filter fun p => p.2 != k }).raise 0x0485 s.srcStarters set pos k n

/-- A degraded set without a rebuild takes a spare that has become eligible (R200). -/
def State.retryRebuild (s : State) (set : Nat) : State :=
  let x := s.stripe set
  match x.rebuild, (List.range x.members.length).find? fun p => (x.members.getD p none).isNone with
  | none, some p => if (s.chooseSpare x (x.was.getD p 0)).isSome then s.startStripeRebuild set p (x.was.getD p 0) else s
  | _, _ => s

/-- A complete row is released when its word line's fine pass has completed with OK on every member of its set that is in
service (R155, R181). -/
def State.rowDone (s : State) (r : Row) : Bool :=
  r.quarters == 4 && (List.range 18).all fun p => r.fineDone.contains p || (s.memberAt (s.zone r.zk) p).isNone

/-- Rows whose staged copies may go are released, and the dirty bytes compared with D_max again (R155, R416). -/
def State.releaseRows (s : State) : State :=
  if s.work.rows.any s.rowDone then
    let keep := s.work.rows.filter fun r => !s.rowDone r
    (s.onWork fun w => { w with rows := keep }).compareDirty
  else s

/-- The operations a die holds end with it: its tags are freed, its batons returned, its reads left to read-around. -/
def State.dropDieOps (s : State) (k : Nat) (charge : Service) : State :=
  let mine := s.work.ops.filter fun p => p.1 / 256 == k / 8 && p.2.any fun o => o.die == k % 8
  let s := (s.returnBaton (.program (k / 8) (k % 8))).returnBaton (.erase (k / 8) (k % 8))
  let s := s.each mine fun p s => s.setOp p.1 none
  s.each mine fun p s => match p.2 with
    | none => s
    | some o => if o.failed || !o.entry.kind.isRead then s else s.each o.entries fun e s => s.aroundEntry e charge

/-- A set that loses the member at a position (R91, R92, R199). -/
def State.loseMember (s : State) (set k cause : Nat) : State :=
  let x := s.stripe set
  let pos := x.members.idxOf (some k)
  let x := { x with members := x.members.set pos none }
  let s := ((s.setStripe set x).releaseRows).raise 0x0484 s.srcStarters set pos cause k
  let s := s.each (s.zonesOnSet set) fun zk s => s.degradeZone x.lostMembers zk
  match x.rebuild with
  | some _ => s
  | none => s.startStripeRebuild set pos k

/-- An event of a stripe-set member: the marshal of its block as source, the unit's map index in parameter 1 (R206). -/
def State.raiseMember (s : State) (code k zk p2 p3 p4 : Nat) : State :=
  s.raise code (srcMarshal (blockOfLane (k / 8))) (Config.mapIndex zk % 2 ^ 18) p2 p3 p4

/-- A relocation of the member at a position started, or kept waiting while its die or its unit runs one or the die has no free
erased position (R193, step 1). -/
def State.startRelocation (s : State) (zk pos cause : Nat) : State :=
  let z := s.zone zk
  match s.memberDie z pos with
  | none => s
  | some k =>
    let d := s.die k
    if d.reloc.isSome || z.relocTgt.isSome || s.freeBlocks k == 0 then
      if d.relocWant.any (fun w => w.1 == zk && w.2.1 == pos) || d.reloc.any (fun r => r.1 == zk && r.2.1 == pos) then s
      else s.setDie k { d with relocWant := d.relocWant ++ [(zk, pos, cause)] }
    else
      let (tgt, s) := s.takeBlock k
      let s := s.updDie k fun d => { d with reloc := some (zk, pos, z.dblk.getD pos 0, tgt, cause), copyPages := 0, copyWait := 0,
                                            copyCoarse := 0 }
      (s.commitZone zk { z with relocating := true, relocTgt := some (pos, tgt), relocWl := 0 }).raiseMember
        0x048B k zk pos cause tgt

/-- The relocations that wait and can start now (R193). -/
def State.startWaiting (s : State) : State :=
  s.each (Tbl.numbers (fun d => d.relocWant != []) s.dies) fun k s =>
    match (s.die k).relocWant with
    | [] => s
    | (zk, pos, cause) :: rest =>
      if (s.zone zk).valid then (s.updDie k fun d => { d with relocWant := rest }).startRelocation zk pos cause
      else s.updDie k fun d => { d with relocWant := rest }

/-- The copy reads and copy passes that wait at a die leave its queue with their bookings, and their baton returns (R193, R394). -/
def State.dropCopies (s : State) (k tgt : Nat) : State :=
  let pass := fun (e : QEntry) => (e.kind == .coarse || e.kind == .fine) && e.block == tgt
  let gone := (s.die k).queue.filter fun e => e.kind == .copyRead || pass e
  let s := s.updDie k fun d => { d with queue := d.queue.filter fun e => !(e.kind == .copyRead || pass e) }
  let s := s.each gone fun e s => s.unbook k e.id
  if gone.any pass then s.returnBaton (.program (k / 8) (k % 8)) else s

/-- The relocation of a die ended early with its cause code; its target goes to the erase queue unless it was retired (R194). -/
def State.endRelocation (s : State) (k cause : Nat) (retired : Bool) : State :=
  match (s.die k).reloc with
  | none => s
  | some (zk, pos, _, tgt, _) =>
    let s := (s.dropCopies k tgt).updDie k fun d => { d with reloc := none }
    let s := s.commitMap zk fun z => { z with relocating := false, relocTgt := none, relocWl := 0 }
    (if retired then s else s.releaseBlock k tgt).raiseMember 0x048D k zk pos cause 0

/-- A relocation that starts again at its step 1 (R194). -/
def State.restartRelocation (s : State) (k cause : Nat) (retired : Bool) : State :=
  match (s.die k).reloc with
  | none => s
  | some (zk, pos, _, _, why) => (s.endRelocation k cause retired).startRelocation zk pos why

/-- A die lost for good (R199): every read waiting there is served by read-around, each set it belongs to loses the member. A
rebuild that was copying onto it starts again on another spare. -/
def State.loseDie (s : State) (k cause : Nat) : State :=
  let d := s.die k
  if d.lost then s
  else
    let waiting := d.queue.filter (·.kind.isRead)
    let s := s.setDie k { d with lost := true, st := .lost, queue := [], heavy := none, reading := none, cal := [],
                                 suspendAt := none, prefixBand := none }
    let s := if d.reloc.isSome then (s.updDie k fun x => { x with reloc := d.reloc }).endRelocation k 2 false else s
    let s := s.onStore fun t => { t with spares := t.spares.filter fun p => p.2 != k }
    let s := s.each (Tbl.numbers (fun x => x.members.contains (some k)) s.sets) fun n s => s.loseMember n k cause
    let s := (s.mapZones fun _ z => { z with refills := z.refills.filter fun r => r.die != k }).releaseRows
    let s := s.each (Tbl.numbers (fun x => x.rebuild.any fun r => r.2.1 == k) s.sets) fun n s =>
      match (s.stripe n).rebuild with
      | none => s
      | some (pos, _, _, _) => (s.updStripe n fun x => { x with rebuild := none }).startStripeRebuild n pos k
    (s.each waiting fun e s => s.aroundEntry e .degraded).dropDieOps k .degraded

/-- A die refused at Warm-up: lost, and shown as kept out of service (R144, R146, R199). -/
def State.refuseDie (s : State) (k cause : Nat) : State := (s.loseDie k cause).updDie k fun d => { d with st := .absent }

/-- The lowest stripe set that a die belongs to; above every set for a die in none. -/
def State.firstSetOf (s : State) (k : Nat) : Nat := (Tbl.numbers (fun (x : StripeSet) => x.members.contains (some k)) s.sets).headD 65536

/-- A lane retired: its dies are lost at the same beat, their sets take spares in ascending set number, and event 0x0488 is recorded (R202). -/
def State.retireLane (s : State) (lane cause : Nat) : State :=
  let dies := ((List.range 8).map fun d => dieKey lane d).filter fun k =>
    ((s.die k).st != .absent || hasBit (Tbl.look 0 s.store.population lane) (k % 8)) && !(s.die k).lost
  let sets := (Tbl.numbers (fun (x : StripeSet) => dies.any fun k => x.members.contains (some k)) s.sets).length
  (s.each (dies.mergeSort fun a b => s.firstSetOf a ≤ s.firstSetOf b) fun k s => s.loseDie k cause).raise 0x0488 s.srcStarters lane cause sets 0

/-- A die block retired and replaced (R167, R168, R197): counted against the allowance; with none left the die is lost. -/
def State.retireBlock (s : State) (k block cause : Nat) : Option Nat × State :=
  let d := s.die k
  let left := s.allowance k - d.badPos.length
  if left = 0 then (none, (s.raiseDie 0x040B (k / 8) (k % 8) 3 0 0).loseDie k 0x040B)
  else
    let s := s.setDie k { d with badPos := if d.badPos.contains block then d.badPos else d.badPos ++ [block] }
    let (r, s) := s.takeBlock k
    let s := s.updCntOf (k / 8) fun c => { c with retired := satAdd 16 c.retired 1 }
    let s := s.raise 0x040A (srcMarshal (blockOfLane (k / 8))) (subParam (k % 8) (k / 8)) block cause r
    (some r, if left = 5 then s.raise 0x0493 s.srcStarters k 4 0 0 else s)

/-- The position of a landing die block: the last two of the die, or its replacement (R167, R182, R197; log entry 175). -/
def State.landPosition (s : State) (d : Die) (b : Bool) : Nat :=
  match d.landMoved.find? fun p => p.1 == b with
  | some p => p.2
  | none => s.store.blocks - 2 + bit b

/-- The position holds a landing die block. -/
def State.isLandBlock (s : State) (d : Die) (block : Nat) : Bool := block == s.landPosition d false || block == s.landPosition d true

/-- Landing die block A or B of a die stands at another position. -/
def State.moveLand (s : State) (k : Nat) (b : Bool) (block : Nat) : State :=
  s.updDie k fun d => { d with landMoved := (d.landMoved.filter fun p => p.1 != b) ++ [(b, block)], landDirty := d.landDirty.filter (· != b) }

/-- The landing die blocks on which a landing write failed are retired at the next Warm-up (R167, *Die faults*). -/
def State.retireLandBlocks (s : State) (k : Nat) : State :=
  let s' := s.updDie k fun d => { d with landBad := [] }
  s'.each (s.die k).landBad fun p s =>
    if (s.die k).lost then s
    else match s.retireBlock k (s.landPosition (s.die k) p.1) p.2 with
      | (none, s) => s
      | (some r, s) => s.moveLand k p.1 r

/-- Unassigned dies of the shared pool, by key ascending: in service, in no dedicated lane, in no set and no spare. -/
def State.poolDies (s : State) : List Nat :=
  (Tbl.numbers (fun d => !d.lost && d.st != .absent && d.st != .lost) s.dies).filter fun k =>
    match groupOfLane (k / 8) with
    | none => true
    | some q => !s.cfgBit .chipLanesetOwner q 31

/-- The 18 blocks with the most unassigned dies, ties to the lower number, in ascending order; none when fewer hold any
(R171). -/
def busiestBlocks (dies : List Nat) : Option (List Nat) :=
  let count := fun b => (dies.filter fun k => blockOfLane (k / 8) == b).length
  let rank := fun b => ((List.range 32).filter fun c => count b < count c || (count c == count b && c < b)).length
  let pick := (List.range 32).filter fun b => decide (0 < count b ∧ rank b < 18)
  if pick.length = 18 then some pick else none

/-- The unassigned die of a block with the lowest die index, then the lowest lane (R171). -/
def firstDieOf (dies : List Nat) (b : Nat) : Option Nat :=
  (dies.filter fun k => blockOfLane (k / 8) == b).foldl (fun best k =>
    match best with
    | none => some k
    | some x => if k % 8 < x % 8 ∨ (k % 8 = x % 8 ∧ k < x) then some k else some x) none

/-- The shared pool's sets formed by the procedure of R171, for at most `n` more sets: members in ascending block number
(R172), and the dies left over. -/
def formSets : Nat → List Nat → List (List Nat) × List Nat
  | 0, dies => ([], dies)
  | n + 1, dies =>
    match busiestBlocks dies with
    | none => ([], dies)
    | some bs =>
      let ms := bs.filterMap (firstDieOf dies)
      let (sets, rest) := formSets n (dies.filter fun k => !ms.contains k)
      (ms :: sets, rest)

/-- The stripe sets of dedicated lane groups: group q and die index i give one set of the group's 18 lanes (R95, R170). Of a group whose lanes do
not carry the same number of dies, or have one missing, only the die indexes that all 18 lanes hold form a set: R95 requires equal counts and
states no consequence (DESIGN CHOICE, log entry 176). -/
def State.dedicatedSets (s : State) : List (Nat × List Nat) :=
  ((List.range 28).filter fun q => s.cfgBit .chipLanesetOwner q 31).flatMap fun q =>
    (List.range 8).filterMap fun i =>
      let ms := (lanesOfGroup q).map fun l => dieKey l i
      if ms.all fun k => !(s.die k).lost && (s.die k).st != .absent && (s.die k).st != .lost then
        some (1 + s.cfg .chipLanesetOwner q 15 8, ms)
      else none

end Sys2Proof.Machine
end

