-- ==== Sys2Proof/Machine/Lanes.lean ====
section
/-! DEFINITION. The TZ5120's end of a Bypor lane: training, recalibration and recovery, flits, credits and link-level retry,
the bridge's set-up, parking and wake (R103-R142). -/

namespace Sys2Proof.Machine

/-- The operations in flight on a lane, with their tags. -/
def State.laneOps (s : State) (n : Nat) : List (Nat × Op) :=
  s.work.ops.filterMap fun p => if p.1 / 256 = n then p.2.map fun o => (p.1 % 256, o) else none

/-- The read entries queued or running on a lane. -/
def State.laneReads (s : State) (n : Nat) : List QEntry :=
  (List.range 8).flatMap (fun d => (s.die (dieKey n d)).queue.filter (·.kind.isRead)) ++
  ((s.laneOps n).flatMap fun p => if p.2.entry.kind.isRead && !p.2.failed then p.2.entries else [])

/-- Every read waiting on a lane that goes out of service is served by read-around, charged as given (R186, R188). -/
def State.aroundLane (s : State) (n : Nat) (charge : Service) : State :=
  s.each (s.laneReads n) fun e s => s.aroundEntry e charge

/-- A lane carries a stripe-set member or runs in no outage: it is out of service while it is not ACTIVE, trains, or changes
its cell (R115). -/
def State.laneOut (s : State) (n : Nat) : Bool :=
  let l := s.lane n
  l.st != .active || l.outage.isSome || (s.blk (blockOfLane n)).handoff.any fun h => h.1 == n

/-- Another lane that carries a member of one of the lane's stripe sets is out of service (R115). -/
def State.neighbourOut (s : State) (n : Nat) : Bool :=
  s.sets.any fun p =>
    let on := p.2.members.filterMap fun m => m.map fun k => k / 8
    on.contains n && on.any fun m => m != n && s.laneOut m

/-- The acknowledgement that every flit carries: the SEQ of the last good flit, once there is one (*Flit header*, R119). -/
def Lane.ackNow (l : Lane) : Option Nat := if l.rxSome then some ((l.rxSeq + 255) % 256) else none

/-- A flit sent, after an ALIGN block once 4,096 flits have gone without one (R108, R119). -/
def State.sendFlit (s : State) (n : Nat) (f : TxFlit) : State :=
  let l := s.lane n
  if l.run < 4096 then (s.setLane n { l with run := l.run + 1 }).sendDown n (.flit f)
  else ((s.setLane n { l with run := 1 }).sendDown n (.control blockAlign)).sendDown n (.flit f)

/-- A NULL flit: an acknowledgement, a replay request or a credit return on its own (R119). -/
def State.sendNull (s : State) (n : Nat) (nak : Bool) (cls count : Nat) : State :=
  s.sendFlit n { load := .null, ack := (s.lane n).ackNow, nak := nak, crdClass := cls, crdCount := count }

/-- A stored flit sent, or sent again (R124). -/
def State.sendStored (s : State) (n : Nat) (u : Unacked) : State :=
  s.sendFlit n { load := u.load, seq := u.seq, ack := (s.lane n).ackNow }

/-- The next flit that credits and the retry buffer of 128 flits allow, and the lane without it in its outbox (R121, R124). -/
def State.nextTx (s : State) (l : Lane) : Option (Load × Lane) :=
  if 128 ≤ l.retry.length then none
  else match l.outbox with
    | [] => none
    | .msgs ms :: rest =>
      if ms.length ≤ l.crdMsg then some (.msgs ms, { l with outbox := rest, crdMsg := l.crdMsg - ms.length }) else none
    | .wdata d src i n :: rest =>
      if l.crdWdata = 0 then none
      else some (.data d (s.dataIn src i),
        { l with crdWdata := l.crdWdata - 1, outbox := if i + 1 < n then .wdata d src (i + 1) n :: rest else rest })

/-- What waits is sent in order until something has to wait; each flit takes a place of the retry buffer. -/
def State.pumpLane : Nat → State → Nat → State
  | 0, s, _ => s
  | fuel + 1, s, n =>
    if (s.lane n).st = .active ∧ (s.lane n).resuming = false then
      match s.nextTx (s.lane n) with
      | none => s
      | some (load, l) =>
        let u : Unacked := { seq := l.txSeq, load := load }
        State.pumpLane fuel ((s.setLane n { l with txSeq := (l.txSeq + 1) % 256, retry := l.retry ++ [u] }).sendStored n u) n
    else s

/-- The outbox of a lane pumped. -/
def State.pump (s : State) (n : Nat) : State := s.pumpLane 128 n

/-- Messages in flits of four slots each, filled from slot 0 upward (R120). -/
def slotFlits : Nat → List Msg → List LaneTx
  | 0, _ => []
  | _, [] => []
  | n + 1, ms => .msgs (ms.take 4) :: slotFlits n (ms.drop 4)

/-- Messages for a lane, and the data flits of their data-in phases on a die, to be sent (R120, R128). -/
def State.post (s : State) (n : Nat) (ms : List Msg) (die : Nat) (data : List (DataIn × Nat)) : State :=
  let flits := data.foldl (fun a d => a + d.2) 0
  (s.updLane n fun l =>
    { l with outbox := l.outbox ++ slotFlits ms.length ms ++ data.map fun d => .wdata die d.1 0 d.2,
             downBusy := if flits = 0 then l.downBusy else max s.nowPs l.downBusy + flits * flitPs }).pump n

/-- Messages without data posted. -/
def State.postMsgs (s : State) (n : Nat) (ms : List Msg) : State := s.post n ms 0 []

/-- A control request given a free tag of 0xF2 to 0xFE, SYNC and PARK their own, and sent (R126; log entry 17). -/
def State.pumpCtl : Nat → State → Nat → State
  | 0, s, _ => s
  | fuel + 1, s, n =>
    let l := s.lane n
    match l.ctlWait, (List.range 13).find? fun i => Tbl.look none l.ctl (242 + i) == none with
    | c :: rest, some i =>
      let tag := 242 + i
      let m : Msg := match c with
        | .read a k => .cfgRead tag a k
        | .write a v => .cfgWrite tag a v
        | .sync => .sync tag
        | .park => .park tag
      State.pumpCtl fuel ((s.setLane n { l with ctlWait := rest, ctl := Tbl.put none l.ctl tag (some c) }).postMsgs n [m]) n
    | _, _ => s

/-- Configuration requests made. -/
def State.requestCtl (s : State) (n : Nat) (cs : List Ctl) : State :=
  State.pumpCtl 13 (s.updLane n fun l => { l with ctlWait := l.ctlWait ++ cs }) n

/-- The bridge's presets and margins as event parameters: near in the upper byte, far in the lower (log entry 60). -/
def nearFar (near far : Nat) : Nat := near % 256 * 256 + far % 256

/-- A class's credits returned in NULL flits of at most 31 (R119, R122). -/
def State.returnCredits (s : State) (n cls count : Nat) : State :=
  let s := s.each (List.range (count / 31)) fun _ s => s.sendNull n false cls 31
  if count % 31 = 0 then s else s.sendNull n false cls (count % 31)

/-- Entry to ACTIVE from full training, recalibration or handoff: SEQ and retry buffers start again, the lane holds no credit until the
bridge's flits bring its allotment, the TZ5120 returns its own, and SYNC waits to be sent (R122, R134). -/
def State.enterActive (s : State) (n : Nat) : State :=
  let s := s.updLane n fun l =>
    { l with st := .active, txSeq := 0, rxSeq := 0, rxSome := false, retry := [], outbox := [], run := 0, badSync := 0, nakSent := false,
             crdMsg := 0, crdWdata := 0, recoveredAt := none, outage := none, since := s.now, trainBand := none, txIdle := false,
             phyOn := true, resuming := false, wakeWait := false, ctl := [(240, some .sync)], ctlWait := [], syncing := true, synced := [],
             syncOps := 0, parking := none, attempts := 0 }
  ((s.returnCredits n 0 32).returnCredits n 2 288).postMsgs n [.sync 240]

/-- The set-up's reads: ID and VER, CAPS and CREDITS, and each die's three dwords (R136, R137). -/
def setUpReads : List Ctl := [.read 0 2, .read 2 2] ++ (List.range 8).flatMap fun d => [.read (0x40 + 8 * d) 2, .read (0x42 + 8 * d) 1]

/-- The reads of the bridge set-up after the first ACTIVE of a Warm-up (R137). -/
def State.startSetUp (s : State) (n : Nat) : State := if (s.lane n).setUp then s else s.requestCtl n setUpReads

/-- A TS block of a lane's own: its preset and lane number (*TS block*). -/
def State.sendTs (s : State) (n kind : Nat) : State := s.sendDown n (.control (tsBlock kind none (s.lane n).near (s.lane n).margin n))

/-- A lane taken into full training from its electrical start, with the attempts that may follow a failed one: one more at Warm-up step 8,
none for a lane in DOWN (R111). The PHY is powered and TS1 is sent. -/
def State.startTraining (s : State) (n : Nat) : State :=
  (s.updLane n fun l =>
    { l with st := .detect, outage := some .full, trainWait := false, attempts := 0, attemptsLeft := if l.st = .parked then 1 else 0,
             trainBand := none, txIdle := false, phyOn := true, since := s.now }).sendTs n 1

/-- A lane that goes FAILED: its operations end, its TX goes to electrical idle and its PHY is powered down, which is its park (R138), and it is
retired with the event that failed it (R110, R199, R202). -/
def State.failLane (s : State) (n cause : Nat) : State :=
  (((s.updLane n fun l => { l with st := .failed, outage := none, trainWait := false, recalWait := false, outbox := [], txIdle := true, phyOn := false,
                                   resuming := false, retry := [], ctl := [], ctlWait := [], syncing := false, parking := none, parkedFor := 3,
                                   since := s.now }).returnBaton
    (.lane n)).retireLane n cause).raisePhy 0x0307 n 3 0 0

/-- A lane that goes DOWN: counted and recorded; its reads are served by read-around, and one attempt of full training is
requested (R123, R124, R132, R141, R186). -/
def State.laneDown (s : State) (n cause : Nat) : State :=
  let old := s.lane n
  let s := (s.setLane n { old with st := .down, downs := satAdd 8 old.downs 1, outage := none, recalWait := false, resuming := false,
                                   trainWait := true, outbox := [], ctl := [], ctlWait := [], syncing := false, parking := none, attempts := 0,
                                   trainBand := none, since := s.now }).returnBaton (.lane n)
  let s := (s.raisePort 0x0304 n cause old.st.code 0).noteFailure (srcLanePort (s.cellOf n)) (s.ctxsOnLane n)
  (s.aroundLane n .reactive).requestBaton (.lane n)

/-- A protocol error: recorded, and the lane goes DOWN (R108, R118, R123, R125, R132). -/
def State.protocolError (s : State) (n byte0 type opcode : Nat) : State :=
  (s.raisePort 0x0309 n byte0 type opcode).laneDown n 2

/-- RECOVERY from ACTIVE: SEQ numbers, retry buffers and credits are kept (R116). The TZ5120 sends TS1 (R117). -/
def State.enterRecovery (s : State) (n : Nat) : State :=
  ((s.updLane n fun l => { l with st := .recovery, badSync := 0, retry := l.retry.map fun u => { u with replays := 0 }, since := s.now }).noteFailure
    (srcLanePort (s.cellOf n)) (s.ctxsOnLane n)).sendTs n 1

/-- Every unacknowledged flit sent again, in order; when one has been replayed three times already, its replays are exhausted: RECOVERY,
or DOWN within 1 ms after one (R124). -/
def State.replay (s : State) (n : Nat) : State :=
  let l := s.lane n
  match l.retry.find? fun u => decide (3 ≤ u.replays) with
  | none =>
    let again := l.retry.map fun u => { u with replays := u.replays + 1 }
    (s.setLane n { l with retry := again }).each again fun u s => s.sendStored n u
  | some u =>
    let s := s.setLane n { l with exhaust := satAdd 8 l.exhaust 1 }
    if l.recoveredAt.any fun t => decide (s.now ≤ t + 1000000) then s.laneDown n 1
    else (s.raisePort 0x0303 n u.seq l.crcErr 0).enterRecovery n

/-- The lane's recalibration conditions: a full maintenance bucket, and no neighbour out of service (R115, R190). -/
def State.recalReady (s : State) (n : Nat) : Bool := s.tmk.maintFull && !s.neighbourOut n

/-- The lowest lane that waits for recalibration and meets both conditions asks for its baton, one lane at a time (R115). -/
def State.seekRecal (s : State) : State :=
  if s.lanes.any fun p => p.2.recalWait && s.broker.knows (.lane p.1) then s
  else match s.lanes.find? fun p => p.2.recalWait && p.2.st == .active && p.2.outage.isNone && s.recalReady p.1 with
    | none => s
    | some p => s.requestBaton (.lane p.1)

/-- A recalibration requested for an ACTIVE lane (R114). -/
def State.wantRecal (s : State) (n : Nat) : State :=
  if (s.lane n).st = .active then (s.updLane n fun l => { l with recalWait := true }).seekRecal else s

/-- The band has changed: every lane that carries the presets of another band waits for recalibration, in service or on its way back to it; a
lane that has yet to begin step 5 of its training takes the new band there (R113, R114). -/
def State.recalForBand (s : State) (band : Nat) : State :=
  (s.mapLanes fun _ l =>
    if l.st = .active ∨ l.st = .recovery ∨ l.st = .parked ∧ l.setUp = true ∨ l.outage = some .recal ∨ l.outage = some .wake ∨
      l.outage = some .full ∧ l.trainBand.isSome then { l with recalWait := true, eqBand := some band } else l).seekRecal

/-- A recalibration outage begins with the lock step (R114, R115). -/
def State.startRecal (s : State) (n : Nat) : State :=
  ((s.updLane n fun l => { l with st := .lock, outage := some .recal, recalWait := false, since := s.now }).aroundLane n .maint).sendTs n 1

/-- A lane leaves PARKED: it leaves electrical idle and sends TS1, and runs recalibration from what was stored when it parked (R139). -/
def State.wakeLane (s : State) (n : Nat) : State :=
  if (s.lane n).st = .parked ∧ s.populated n then
    (s.updLane n fun l => { l with st := .lock, outage := some .wake, txIdle := false, phyOn := true, wakeWait := false, since := s.now }).sendTs n 1
  else s

/-- Work waits for a lane that was parked to save power: it wakes under a baton, or without one while the broker grants nothing (R139). -/
def State.askWake (s : State) (n : Nat) : State :=
  let l := s.lane n
  if l.st = .parked ∧ l.setUp = true ∧ l.parkedFor = 4 ∧ l.wakeWait = false ∧ s.populated n ∧ s.aon.trip = false then
    if s.broker.closed then s.wakeLane n else (s.setLane n { l with wakeWait := true }).requestBaton (.lane n)
  else s

/-- A lane's baton has been granted: its training starts, or its wake, or its recalibration when both conditions still hold; otherwise the
baton is returned and the lane waits again (R115, R139). -/
def State.laneGranted (s : State) (n : Nat) : State :=
  let l := s.lane n
  if l.trainWait && (l.st == .down || l.st == .parked) then s.startTraining n
  else if l.wakeWait && l.st == .parked then s.wakeLane n
  else if l.recalWait && l.st == .active && l.outage.isNone && s.recalReady n then s.startRecal n
  else s.returnBaton (.lane n)

/-- Acknowledgement is cumulative: the flits up to ACK_SEQ leave the retry buffer (R124). -/
def ackRetry (retry : List Unacked) (ack : Nat) : List Unacked :=
  if retry.any (fun u => u.seq == ack) then (retry.dropWhile fun u => u.seq != ack).drop 1 else retry

/-- The bridge has advertised its allotments: LANE_BR_CREDITS, read with LANE_BR_CAPS, has come (R122, R137; log entry 170). -/
def Lane.advertised (l : Lane) : Bool := l.setUp || l.brCredits != 0

/-- The acknowledgement and credits that an accepted flit carries; none when a credit return passes the allotment (R123). -/
def Lane.takeReturns (l : Lane) (f : Flit) : Option Lane :=
  let l := { l with retry := if f.ackValid then ackRetry l.retry f.ackSeq else l.retry }
  match f.crdClass with
  | 0 => if l.advertised = false ∨ l.crdMsg + f.crdCount ≤ l.allotMsg then some { l with crdMsg := l.crdMsg + f.crdCount } else none
  | 1 => if l.advertised = false ∨ l.crdWdata + f.crdCount ≤ l.allotWdata then some { l with crdWdata := l.crdWdata + f.crdCount } else none
  | 2 => if f.crdCount = 0 then some l else none
  | _ => some l

/-- Byte 0 of a flit's header. -/
def flitByte0 (f : Flit) : Nat := f.bits % 256

/-- An upstream message opcode (*Upstream messages*). -/
def upstreamOpcode (o : Nat) : Bool := decide (0x81 ≤ o ∧ o ≤ 0x84)

/-- One NAK for a discarded flit, and no further one until the flit requested has come (R124): it names the last good flit, SEQ 255 before
the first. -/
def State.nakOnce (s : State) (n : Nat) : State :=
  let l := s.lane n
  if l.nakSent then s
  else (s.setLane n { l with nakSent := true }).sendFlit n { load := .null, ack := some ((l.rxSeq + 255) % 256), nak := true }

/-- What an accepted or NULL flit brings: acknowledgements, credits, a replay request, and room to send more. -/
def State.takeFlit (s : State) (n : Nat) (f : Flit) : State :=
  match (s.lane n).takeReturns f with
  | none => s.protocolError n (flitByte0 f) f.type 0
  | some l =>
    let s := s.setLane n l
    (if f.nak && f.ackValid then s.replay n else s).pump n

/-- A good flit of the expected SEQ: acknowledged, and its credits returned as its slots and data are consumed (R121, R124). -/
def State.acceptFlit (s : State) (n : Nat) (f : Flit) : State :=
  let l := s.lane n
  let s := (s.setLane n { l with rxSeq := (l.rxSeq + 1) % 256, rxSome := true, nakSent := false }).sendNull n false
    (if f.type = 1 then 0 else 2) (if f.type = 1 then f.msgs.length else 1)
  match (if f.type = 1 then f.msgs.find? fun o => !upstreamOpcode o else none) with
  | some o => s.protocolError n o f.type o
  | none => s.takeFlit n f

/-- A lane port carries flits: ACTIVE, and in a handoff the bridge has answered TSR (R110, R135). -/
def Lane.carries (l : Lane) : Bool := l.st == .active && !l.resuming

/-- FLIT_RECEIVED (R107, R118-R125): a flit with an invalid sync header or a bad CRC is counted and draws a NAK; 16 invalid headers within 64
blocks are loss of block lock. -/
def execFlitReceived (lane : Nat) (flit : Flit) (s : State) : Host.Outcome State Fault Refusal :=
  .next (
    if (s.lane lane).carries = false then s
    else if !flit.crcOk then
      let h := flit.headers (s.lane lane).badSync
      let s := s.updLane lane fun l => { l with crcErr := satAdd 16 l.crcErr 1, badSync := h }
      if 16 ≤ countBits h 64 then s.enterRecovery lane else s.nakOnce lane
    else
      let s := s.updLane lane fun l => { l with badSync := flit.headers l.badSync }
      if flit.type = 0 then s.takeFlit lane flit
      else if flit.type ≠ 1 ∧ flit.type ≠ 3 then s.protocolError lane (flitByte0 flit) flit.type 0
      else if flit.seq ≠ (s.lane lane).rxSeq then s.nakOnce lane
      else s.acceptFlit lane flit)

/-- REPLAY_TIMER_EXPIRY: the oldest flit has gone unacknowledged for 4 µs (R124). -/
def execReplayTimerExpiry (lane : Nat) (s : State) : Host.Outcome State Fault Refusal :=
  .next (if (s.lane lane).st = .active then s.replay lane else s)

/-- The lane holds traffic that waits for credits of a class: 0 = MSG, 1 = WDATA (R121, R123). -/
def Lane.waitsFor (l : Lane) (cls : Nat) : Bool :=
  l.outbox.any fun x => match x with
    | .msgs _ => cls == 0
    | .wdata _ _ _ _ => cls == 1

/-- CREDIT_STALL_TIMEOUT (R123). -/
def execCreditStallTimeout (lane cls : Nat) (s : State) : Host.Outcome State Fault Refusal :=
  .next (if (s.lane lane).st = .active ∧ (s.lane lane).waitsFor cls then (s.raisePort 0x030B lane cls 0 0).laneDown lane 3 else s)

/-- LANE_RECOVERY_END: ACTIVE, with replay at once, or DOWN (R116, R124); in a handoff the spare sends TSR now (R135). -/
def execLaneRecoveryEnd (lane : Nat) (ok : Bool) (s : State) : Host.Outcome State Fault Refusal :=
  let l := s.lane lane
  .next (
    if l.st ≠ .recovery then s
    else if ok then
      let s := s.setLane lane { l with st := .active, recoveredAt := some s.now, since := s.now }
      if l.resuming then s.sendTs lane 4 else (s.each l.retry fun u s => s.sendStored lane u).pump lane
    else s.laneDown lane 1)

/-- One direction's search for its preset (R112): the preset in use, those tried with their MARGIN, and whether it is settled. -/
structure EqSearch where
  preset : Nat
  tried : List (Nat × Nat) := []
  settled : Bool := false
  deriving DecidableEq, Repr

/-- The preset of the highest MARGIN, the first tried of equal ones (log entry 172). -/
def bestPreset (tried : List (Nat × Nat)) (start : Nat) : Nat :=
  ((tried.foldl (fun (b : Option (Nat × Nat)) x => match b with
    | none => some x
    | some y => if y.2 < x.2 then some x else b) none).map (·.1)).getD start

/-- After a trial: a direction at MARGIN_MIN or above keeps its preset; one below moves to the next untried preset in ascending order,
wrapping from P7 to P0, or keeps the best when all 8 are tried (R112). -/
def EqSearch.trial (least : Nat) (e : EqSearch) (margin : Nat) : EqSearch :=
  if e.settled then e
  else
    let tried := e.tried ++ [(e.preset, margin)]
    if least ≤ margin then { e with tried := tried, settled := true }
    else match ((List.range 8).map fun i => (e.preset + i) % 8).find? fun p => !tried.any fun t => t.1 == p with
      | some p => { preset := p, tried := tried }
      | none => { preset := bestPreset tried e.preset, tried := tried, settled := true }

/-- The preset that a direction ends with after its trials, at most 8. -/
def searchPreset (least start : Nat) (margins : List Nat) : Nat :=
  let e := (margins.take 8).foldl (EqSearch.trial least) { preset := start }
  if e.settled then e.preset else bestPreset e.tried start

/-- The presets of a band from LANE_EQ: near, far. -/
def State.bandPresets (s : State) (n band : Nat) : Nat × Nat :=
  (s.cfg .laneEq n (6 * band + 2) (6 * band), s.cfg .laneEq n (6 * band + 5) (6 * band + 3))

/-- The presets that the trials of a training settle, both directions searched in parallel from the band's: the near transmitter by the
MARGIN at the bridge, the far one by the MARGIN at the TZ5120 (R112). -/
def State.settledPresets (s : State) (n band : Nat) (trials : List (Nat × Nat)) : Nat × Nat :=
  let least := s.cfg .laneLinkCfg 0 15 8
  let start := s.bandPresets n band
  (searchPreset least start.1 (trials.map (·.2)), searchPreset least start.2 (trials.map (·.1)))

/-- The presets, the margin at the TZ5120's receiver and the minor version, the lower of both, that a training or recalibration settled
(R109, R112, LANE_STAT). The TZ5120's own minor version is 0. -/
def Lane.settle (l : Lane) (presets : Nat × Nat) (r : TrainResult) : Lane :=
  { l with near := presets.1 % 8, far := presets.2 % 8, margin := r.margins.1 % 256, minor := min 0 (r.version.toNat % 16) }

/-- The end of a full training attempt of a lane (R109, R111-R113): the band is the one in force at the start of step 5. -/
def State.trainingEnd (s : State) (n : Nat) (r : TrainResult) : State :=
  let l := s.lane n
  let band := l.trainBand.getD s.aon.band
  if r.wrongMajor then (s.raisePhy 0x030E n r.version.toNat 0 0).failLane n 0x030E
  else if r.ok then
    let p := s.settledPresets n band r.trials
    let s := (((s.setLane n (l.settle p r)).returnBaton (.lane n)).enterActive n).raisePhy 0x0301 n (nearFar (p.1 % 8) (p.2 % 8))
      (nearFar r.margins.1 r.margins.2) r.timeUs
    (s.startSetUp n).seekRecal
  else if l.attemptsLeft ≠ 0 then
    (s.setLane n { l with st := .detect, attempts := l.attempts + 1, attemptsLeft := l.attemptsLeft - 1, trainBand := none,
                          margin := r.margins.1 % 256, since := s.now }).sendTs n 1
  else
    ((s.setLane n { l with margin := r.margins.1 % 256 }).raisePhy 0x0302 n r.lastState (l.attempts + 1) r.margins.1).failLane n
      0x0302

/-- LANE_FULL_TRAINING_END (R111). -/
def execLaneFullTrainingEnd (lane : Nat) (res : TrainResult) (s : State) : Host.Outcome State Fault Refusal :=
  .next (if (s.lane lane).outage = some .full ∧ (s.lane lane).st ≠ .held then s.trainingEnd lane res else s)

/-- The end of a recalibration or of a wake's, one trial from the stored presets, or from those of a band that has come into force since
(R114, R139); with the presets of the bridge changed they are written to it. -/
def State.recalEnd (s : State) (n : Nat) (r : TrainResult) (wake : Bool) : State :=
  let l := s.lane n
  if r.wrongMajor then (s.raisePhy 0x030E n r.version.toNat 0 0).failLane n 0x030E
  else if r.ok then
    let p := if wake then (l.near, l.far) else (l.eqBand.map (s.bandPresets n)).getD (l.near, l.far)
    let s := ((s.setLane n { l.settle p r with eqBand := if wake then l.eqBand else none }).returnBaton (.lane n)).enterActive n
    (if wake then s.raisePhy 0x0308 n r.timeUs 0 0
     else s.raisePhy 0x0306 n (nearFar p.1 p.2) (nearFar r.margins.1 r.margins.2) s.aon.band).seekRecal
  else s.laneDown n 4

/-- LANE_RECAL_END (R114). -/
def execLaneRecalEnd (lane : Nat) (res : TrainResult) (s : State) : Host.Outcome State Fault Refusal :=
  let l := s.lane lane
  .next (
    if l.st = .held then s
    else if l.outage = some .recal then s.recalEnd lane res false
    else if l.outage = some .wake then s.recalEnd lane res true
    else s)

/-- A lane in training or recalibration goes on through LOCK, EXCHANGE, EQUALISE and CONFIRM, sending TS2 and TSE; the band is latched where
step 5 starts (R110, R111, R113, R114). -/
def State.walkTraining (s : State) (n : Nat) : State :=
  let l := s.lane n
  if l.outage = none ∨ l.outage = some .roll then s
  else match l.st with
    | .detect => s.setLane n { l with st := .lock }
    | .lock => (s.setLane n { l with st := .exchange }).sendTs n 2
    | .exchange =>
      let band := s.aon.band
      let near := if l.outage = some .full then (s.bandPresets n band).1 else ((l.eqBand.map (s.bandPresets n)).getD (l.near, l.far)).1
      (s.setLane n { l with st := .equalise, near := near, trainBand := if l.outage = some .full then some band else none }).sendTs n 3
    | .equalise => s.setLane n { l with st := .confirm }
    | _ => s

/-- RECAL_INTERVAL_EXPIRY: 0 asks for no routine recalibration (R114, LANE_LINK_CFG). -/
def execRecalIntervalExpiry (lane : Nat) (s : State) : Host.Outcome State Fault Refusal :=
  .next (if s.cfg .laneLinkCfg 0 31 16 = 0 then s else s.wantRecal lane)

/-- LANE_RECAL_WRITE: a write of 1 to LANE_CTRL.RECAL, ignored unless the lane is ACTIVE (R114). -/
def execLaneRecalWrite (lane : Nat) (s : State) : Host.Outcome State Fault Refusal := .next (s.wantRecal lane)

/-- The reason a lane is parked (R138). -/
def State.parkReason (s : State) (n : Nat) : Nat :=
  if !s.populated n then 1
  else if s.power.entry.isSome || s.power.mode == .lull || s.power.mode == .calm then 2 else 4

/-- Every populated lane of a block is parked or carries no link: its PHY domain goes off (R432 step 5). -/
def State.blockParked (s : State) (b : Nat) : Bool :=
  (List.range 16).all fun i =>
    let n := 16 * b + i
    !s.populated n || (s.lane n).st == .parked || (s.lane n).st == .failed || (s.lane n).st == .held

/-- A lane parked: four EIDLE blocks and electrical idle, event 0x0307 (R138). With the last lane that an entry parks its block lane-PHY domain
goes off. -/
def State.parked (s : State) (n reason : Nat) : State :=
  let s := s.updLane n fun l =>
    { l with st := .parked, parking := none, outage := none, trainWait := false, recalWait := l.eqBand.isSome, syncing := false, outbox := [],
             ctl := [], ctlWait := [], txIdle := true, parkedFor := reason, since := s.now }
  let s := (s.each (List.range 4) fun _ s => s.sendDown n (.control blockEidle)).raisePhy 0x0307 n reason 0 0
  if reason = 2 ∧ s.blockParked (blockOfLane n) then s.dropDomains (domainBit (6 + blockOfLane n)) else s

/-- PARK sent on a lane, for a reason (R138). -/
def State.sendPark (s : State) (n reason : Nat) : State :=
  (s.updLane n fun l => { l with parking := some reason, ctl := Tbl.put none l.ctl 241 (some .park) }).postMsgs n [.park 241]

/-- LANE_PARK (R138): PARK is sent on an ACTIVE lane that holds no operation; a FAILED lane is parked already; any lane not set in LANE_POP
goes to PARKED. -/
def execLanePark (lane : Nat) (s : State) : Host.Outcome State Fault Refusal :=
  let l := s.lane lane
  .next (
    if l.st = .failed ∨ l.st = .held ∨ l.st = .parked then s
    else if s.populated lane = false ∧ l.st ≠ .active then s.parked lane 1
    else if l.st = .active ∧ s.laneOps lane = [] ∧ l.parking = none then s.sendPark lane (s.parkReason lane)
    else s)

/-- BRIDGE_TS1_RECEIVED: a control block from the bridge. A TS block with a wrong CHECK is ignored. TS1 on an ACTIVE lane: the bridge has left
ACTIVE on its own, and the TZ5120 runs RECOVERY (R117). TSR answers a handoff's: the lane becomes ACTIVE (R135). A first byte that no control
block has is a protocol error (R108). -/
def execBridgeTs1Received (ts : LaneBlock) (s : State) : Host.Outcome State Fault Refusal :=
  let (lane, block) := (ts.lane, ts.block)
  let l := s.lane lane
  .next (
    if l.st ≠ .active then s
    else if controlKnown block = false then (if l.resuming then s else s.protocolError lane (wireByte block 0) 0 0)
    else if wireByte block 0 ≠ 0x78 ∨ tsSound block = false then s
    else if wireByte block 1 = 1 ∧ l.resuming = false then s.enterRecovery lane
    else if wireByte block 1 = 4 ∧ l.resuming then s.enterActive lane
    else s)

/-- LOSS_OF_BLOCK_LOCK: 16 invalid sync headers within 64 blocks (R107, R110). -/
def execLossOfBlockLock (lane : Nat) (s : State) : Host.Outcome State Fault Refusal :=
  .next (if (s.lane lane).st = .active then s.enterRecovery lane else s)

/-- TSR sent on the lane whose PHY has moved to another cell: its port waits for the bridge's (R135). -/
def State.resumeLane (s : State) (n : Nat) : State := (s.updLane n fun l => { l with resuming := true }).sendTs n 4

/-- The registers a CFG_DATA answer brings, one dword (*Bridge configuration map*). -/
def Lane.storeCfg (l : Lane) (addr : Nat) (w : Word) : Lane :=
  let b := fun hi lo => bitsOf w hi lo
  if addr = 0 then { l with brId := w }
  else if addr = 1 then { l with brVer := w }
  else if addr = 2 then { l with brCaps := w, dies := BitVec.ofNat 8 (b 23 16) }
  else if addr = 3 then
    { l with brCredits := w, allotMsg := b 15 8, allotWdata := b 31 16, allotRetry := 4 * b 7 0 }
  else if addr = 0xD then { l with brErr := w }
  else if addr = 0xE then { l with brTemp := w }
  else if 0x40 ≤ addr ∧ addr < 0x80 then
    let d := (addr - 0x40) / 8
    match addr % 8 with
    | 0 => { l with onfi := Tbl.put 0 l.onfi d w }
    | 1 => { l with onfi2 := Tbl.put 0 l.onfi2 d w }
    | 2 => { l with ceLun := Tbl.put 0 l.ceLun d w }
    | _ => l
  else l

/-- The die model of a lane's first present die, when the records know it (R137, R163). -/
def State.laneModel (s : State) (n : Nat) : Option DieModel :=
  ((List.range 8).find? fun d => hasBit (s.lane n).dies d).bind fun d => s.modelOf (dieKey n d)

/-- What the bridge reports of itself breaks the contract (*Bridge contract*, R136, R142): the event that fails its lane. -/
def Lane.brokenContract (l : Lane) : Option Nat :=
  if bitsOf l.brVer 31 24 ≠ 1 then some 0x030E
  else if l.allotRetry < 64 ∨ l.allotMsg < 16 ∨ l.allotWdata < 144 ∨ bitsOf l.brCaps 11 0 < 1200 ∨ 1 < bitsOf l.brCaps 15 12 ∨
    bitsOf l.brCaps 25 24 = 0 ∨ bitsOf l.brCaps 25 24 = 3 then some 0x0302
  else none

/-- A lane whose bridge breaks the contract: recorded, and FAILED (R142; log entry 173). -/
def State.failContract (s : State) (n event : Nat) : State :=
  let l := s.lane n
  (if event = 0x030E then s.raisePhy 0x030E n (bitsOf l.brVer 31 24 * 16 + bitsOf l.brVer 19 16) 0 0
   else s.raisePhy 0x0302 n l.st.code 1 l.margin).failLane n event

/-- The lowest operation tag of a lane that is not in use (R126). -/
def State.freeTag (s : State) (n : Nat) : Option Nat := (List.range 240).find? fun t => (s.opAt (opKey n t)).isNone

/-- The parameter page of a die read through the bridge (R144): timer 3; the length of its copies is the die's (log entry 171). -/
def State.readParamPage (s : State) (k : Nat) : State :=
  match s.freeTag (k / 8) with
  | none => s
  | some tag =>
    let e : QEntry := { id := s.work.nextEntry, kind := .paramPage, cls := .none, atNs := s.now }
    (((s.onWork fun w => { w with nextEntry := w.nextEntry + 1 }).setOp (opKey (k / 8) tag)
      (some { die := k % 8, entry := e, sentAt := s.now })).updDie k fun d => { d with reading := some tag, st := .read }).postMsgs (k / 8)
      [.onfi { die := k % 8, tag := tag, cmd1 := some .paramPage, addr := .feature 0, wait := true, phase := 2, len := Config.paramPageBytes, timer := 3 }]

/-- Bridge timers 0 to 3, µs (*Bridge timer use*, R152). -/
def State.bridgeTimers (s : State) (poll : Nat) : List Nat :=
  let occ := fun base susp => occupancyUs base susp s.tsusp poll s.suspReads s.trPart s.tresPen
  [quarterMore s.trFull, quarterMore (occ (s.cfg .chipDieTprog 0 31 16) s.suspMaxProg),
   quarterMore (occ (s.cfg .chipDieTerase 0 31 16) s.suspMaxErase), s.cfg .chipDieTaux 0 31 16]

/-- The population check and the register writes that end the set-up (R137, R152): the parameter pages of the dies that are there are read
(R144); a lane whose DIE_PRESENT disagrees with the records stays out of service and its dies are lost. -/
def State.finishSetUp (s : State) (n : Nat) : State :=
  let l := s.lane n
  let pop := Tbl.look 0 s.store.population n
  let m := s.laneModel n
  let poll := BitVec.ofNat 32 ((m.bind (·.poll)).getD 0x78064014)
  let susp := BitVec.ofNat 32 ((m.map (·.susp)).getD 0)
  let tmr := s.bridgeTimers (bitsOf poll 11 0)
  match l.brokenContract with
  | some event => s.failContract n event
  | none =>
    let s := s.setLane n { l with setUp := true, mismatch := decide (l.dies ≠ pop), brTxeq := l.far, brPoll := poll,
                                  brSusp := susp, brTmr := tmr }
    let s := s.requestCtl n ([.write 4 l.far, .write 5 poll.toNat, .write 0xC susp.toNat] ++
      (List.range 4).map fun i => .write (8 + i) (tmr.getD i 0))
    if l.dies = pop then
      s.each ((List.range 8).filter fun d => hasBit l.dies d) fun d s =>
        if (s.die (dieKey n d)).lost then s.updDie (dieKey n d) fun x => { x with st := .lost }
        else (s.updDie (dieKey n d) fun x => { x with st := .idle }).readParamPage (dieKey n d)
    else
      s.each ((List.range 8).filter fun d => hasBit l.dies d || hasBit pop d)
        (fun d s => s.refuseDie (dieKey n d) 0x0310) |>.raisePort 0x0310 n l.dies.toNat pop.toNat 0

/-- The request of a control tag has ended: the tag is free, and the next request that waits takes it (R126). -/
def State.ctlEnd (s : State) (n tag : Nat) : State := State.pumpCtl 13 (s.updLane n fun l => { l with ctl := Tbl.put none l.ctl tag none }) n

/-- A configuration read still stands. -/
def Lane.reading (l : Lane) : Bool :=
  l.ctl.any (fun p => match p.2 with
    | some (.read _ _) => true
    | _ => false) || l.ctlWait.any fun c => match c with
    | .read _ _ => true
    | _ => false

/-- BRIDGE_CFG_DATA (R126, R136, R137): the answer to the CFG_READ of its tag. A bridge that calls one of its fixed registers a bad address breaks the
contract and is treated as a failed lane (R142). The answer is its tag's, whatever die its header names (R125). -/
def execBridgeCfgData (lane tag die : Nat) (bad : Bool) (d0 d1 : BitVec 32) (s : State) : Host.Outcome State Fault Refusal :=
  let _ := die
  let l := s.lane lane
  .next (
    if l.st ≠ .active then s
    else match Tbl.look none l.ctl tag with
      | some (.read addr count) =>
        if bad then s.failContract lane 0x0302
        else
          let l := l.storeCfg addr d0
          let l := if count = 2 then l.storeCfg (addr + 1) d1 else l
          let s := (s.setLane lane l).ctlEnd lane tag
          if (s.lane lane).reading = false ∧ l.setUp = false then s.finishSetUp lane else s
      | _ => s)

/-- BRIDGE_ALERT: recorded; ALERT 0x03 for a die with a reset in progress says that the reset was not answered, and the die is
lost (R125, R131, R167). -/
def execBridgeAlert (lane die code detail : Nat) (s : State) : Host.Outcome State Fault Refusal :=
  .next (
    if (s.lane lane).st ≠ .active then s
    else
      let s := s.raisePort 0x030A lane code detail 0
      let k := dieKey lane die
      if code = 3 ∧ (s.die k).st = .stalled then (s.raiseDie 0x040B lane die 2 0 0).loseDie k 0x040B else s)

end Sys2Proof.Machine
end

