-- ==== Sys2Proof/Machine/Bands.lean ====
section
/-! DEFINITION. The end of a housekeeping round: the band and the headroom evaluated, and a new band taken by its consumers (R508-R513). -/

namespace Sys2Proof.Machine

/-- A new band taken by its consumers in one beat (R512): every die in service takes the prefix of R164, every lane
that carries the presets of another band asks for recalibration (R113-R115), and the timekeeper's set in force follows with event 0x0D02 once step 11 is complete
(R222). tREFI follows from the next REFsb (R446). -/
def State.applyBand (s : State) (old new : Nat) : State :=
  let s := (s.mapDies fun _ d => if d.st = .absent ∨ d.st = .lost then d else { d with prefixBand := some new }).recalForBand new
  if s.stepComplete 11 then
    (s.onTmk fun k => { k with band := new }).raise 0x0D02 srcTimekeeper old new
      ((s.tmk.sets.map BoundSet.dashRdPcie).getD new 0) 0
  else s

/-- The band and headroom evaluated at a round's end (R509-R513). -/
def State.evaluateBand (s : State) : State :=
  let (t, setter) := s.bandTemperature
  let old := s.aon.band
  let first := s.aon.hkFirstRound
  let new := bandFor first old t
  let s := s.onAon fun a => { a with band := new, bandTemp := t, headroom := s.headroomNow, hkFirstRound := false }
  if new = old then s
  else
    let (sensor, s) := match setter with
      | some i => (i, s)
      | none => s.draw
    let s := s.raise 0x0201 srcHkAdc old new (bandTempField t) sensor
    let s := if first = false ∧ (new + 2 ≤ old ∨ old + 2 ≤ new) then
        (s.raise 0x0207 srcHkAdc old new (bandTempField t) 0).noteFailure srcHkAdc (s.ctxIds fun x => x.deadline.isSome)
      else s
    (s.applyBand old new).avsRetarget

/-- HK_ROUND_END: a round with a reference out of tolerance is discarded, three in a row fail the ADC (R508); any other round
evaluates the band and the headroom (R510, R513). -/
def execHkRoundEnd (s : State) : Host.Outcome State Fault Refusal :=
  .next (if !s.aon.on || !s.aon.hkComplete || s.adcOff then s
    else
      let bad := s.aon.hkBadRef
      let s := s.onAon fun a => { a with hkComplete := false, hkBadRef := none, hkRounds := satAdd 16 a.hkRounds 1 }
      match bad, s.power.adcFail with
      | some (ch, code), false =>
        let n := s.aon.hkDiscardRun + 1
        let s := (s.onAon fun a => { a with hkDiscardRun := n, hkDiscarded := satAdd 8 a.hkDiscarded 1 }).raise
          0x0205 srcHkAdc ch code n 0
        if n = 3 then s.onPower fun p => { p with adcFail := true } else s
      | _, _ => (s.onAon fun a => { a with hkDiscardRun := 0 }).evaluateBand)

end Sys2Proof.Machine
end

