-- ==== Sys2Proof/Machine/Chains.lean ====
section
/-! DEFINITION. The ONFI_SEQ chains of the pacer's operations (R127, R128, R148, R154, R158, R164, R165): reads of one or more planes with their
data-out phases, Set Features writes, program passes, erases, pSLC writes, and the prefixes that open them. -/

namespace Sys2Proof.Machine

/-- Messages as one chain: every one but the last carries CHAIN (R127). -/
def chainUp : List OnfiSeq → List Msg
  | [] => []
  | [q] => [.onfi { q with chain := false }]
  | q :: qs => .onfi { q with chain := true } :: chainUp qs

/-- A sequence of a first command, an address and a second command, with no data. -/
def seqOf (die tag : Nat) (c1 : OnfiCmd) (a : OnfiAddr) (c2 : Option OnfiCmd) : OnfiSeq :=
  { die := die, tag := tag, cmd1 := some c1, addr := a, cmd2 := c2 }

/-- The parts of a read on each plane: plane, first frame of the page, frames (R64, R148). -/
def QEntry.spans (e : QEntry) : List (Nat × Nat × Nat) :=
  (List.range 4).filterMap fun p =>
    let lo := max (e.off % 16) (4 * p)
    let hi := min (e.off % 16 + e.frames) (4 * p + 4)
    if lo < hi then some (p, lo - 4 * p, hi - lo) else none

/-- One plane of a read. -/
structure PlaneRead where
  plane : Nat
  block : Nat
  page : Nat
  frame : Nat
  frames : Nat
  deriving DecidableEq, Repr

/-- The planes that the reads of one operation touch. -/
def planeReads (es : List QEntry) : List PlaneRead := es.flatMap fun e => e.spans.map fun p => ⟨p.1, e.block, e.page, p.2.1, p.2.2⟩

/-- The data-out of pages that stand in the page registers (R127, R134). -/
def columnSeqs (die tag : Nat) (ps : List PlaneRead) : List OnfiSeq :=
  ps.map fun p => { seqOf die tag .column (.column p.plane (4608 * p.frame)) (some .columnEnd) with phase := 2, len := 4608 * p.frames }

/-- The sequences of an array read (R127, R148): one for a read on one plane; otherwise one for each plane's address, then one data-out for
each plane. Frames of 4,608 bytes lie one after another in the page (R160). -/
def readSeqs (die tag : Nat) (ps : List PlaneRead) : List OnfiSeq :=
  match ps with
  | [p] => [{ seqOf die tag .read (.page (4608 * p.frame) p.plane p.block p.page) (some .readEnd) with
                phase := 2, wait := true, len := 4608 * p.frames }]
  | ps =>
    ((List.range ps.length).zip ps).map (fun q =>
      { seqOf die tag .read (.page 0 q.2.plane q.2.block q.2.page) (some (if q.1 + 1 < ps.length then .readNext else .readEnd)) with
          wait := true }) ++ columnSeqs die tag ps

/-- Set Features writes: the address, then P1 to P4 as data-in (R163, R164). -/
def featureSeqs (die tag : Nat) (ws : List FeatWrite) : List OnfiSeq :=
  ws.map fun w => { seqOf die tag .setFeatures (.feature w.addr) none with phase := 1, wait := true, len := 4, timer := 3 }

/-- The data-in phases of Set Features writes. -/
def featureData (ws : List FeatWrite) : List (DataIn × Nat) := if ws = [] then [] else [(.features (ws.map (·.p)), ws.length)]

/-- A command byte that a CHIP_DIE_OPS field asks for; none for 0x00 (*CHIP_DIE_OPS*). -/
def prefixSeqs (die tag b : Nat) : List OnfiSeq := if b = 0 then [] else [{ die := die, tag := tag, cmd1 := some (.byte b) }]

/-- The data-in of 16 KiB to each of the four planes of a page; `last` ends the program (R154, R158). -/
def pageSeqs (die tag block page : Nat) (last : Bool) : List OnfiSeq :=
  (List.range 4).map fun p =>
    { seqOf die tag .program (.page 0 p block page) (some (if last && p == 3 then .programEnd else .programNext)) with
        phase := 1, wait := true, len := 16384, timer := 1 }

/-- A pass: its opening byte, and the four pages of the word line on every plane, 256 KiB in all (R154). -/
def passSeqs (die tag block line open_ : Nat) : List OnfiSeq :=
  prefixSeqs die tag open_ ++ (List.range 4).flatMap fun i => pageSeqs die tag block (4 * line + i) (i == 3)

/-- An erase of a die block on its four planes. -/
def eraseSeqs (die tag block : Nat) : List OnfiSeq :=
  (List.range 4).map fun p =>
    { seqOf die tag .erase (.block p block) (some (if p = 3 then .eraseEnd else .eraseNext)) with wait := true, timer := 2 }

/-- Levels of a Set Features write moved by SOFT_DELTA: every parameter byte up or down (R163, R165; log entry 177). -/
def shiftWrite (delta : Nat) (up : Bool) (w : FeatWrite) : FeatWrite :=
  let byte := fun (i : Nat) => (w.p.toNat / 256 ^ i % 256 + (if up then delta % 256 else 256 - delta % 256)) % 256
  { w with p := BitVec.ofNat 32 (ofBytes [byte 0, byte 1, byte 2, byte 3]) }

/-- The writes that a ladder read sets before it: entry k of step 2, or the last entry tried moved up for the first soft read and down for the
second (R165). -/
def State.ladderWrites (s : State) (k : Nat) (e : QEntry) : List FeatWrite :=
  let band := s.aon.band
  if e.retry = 0 then []
  else if e.retry < 16 then s.entryWrites k band e.retry
  else
    let delta := ((s.levels k band).bind fun l => l.entries[e.tried]?).map (·.softDelta) |>.getD 0
    (s.entryWrites k band e.tried).map (shiftWrite delta (e.retry == 16))

/-- A ladder read restores entry 0 after it. -/
def State.restoreWrites (s : State) (k : Nat) (e : QEntry) : List FeatWrite := if e.retry = 0 then [] else s.entryWrites k s.aon.band 0

/-- Offset entries of a die's table for a band that follow entry 0: up to the end of table, 15 where no model is known (R163). -/
def State.lastEntry (s : State) (k band : Nat) : Nat :=
  match s.levels k band with
  | none => 15
  | some l => min 15 ((l.entries.findIdx? (·.last)).getD (l.entries.length - 1))

end Sys2Proof.Machine
end

