-- ==== Sys2Proof/Machine/Dies.lean ====
section
/-! DEFINITION. The pacer's work on a die: what it starts next, suspension and resume, program order, the results a bridge
reports, timeouts, stalls and SYNC (R143-R159, R164, R167-R169). -/

namespace Sys2Proof.Machine

/-- The number of word lines of a die block: 4 pages each (R154). -/
def State.wordLines (s : State) : Nat := s.store.pages / 4

/-- The word line after which a die block takes no pass: the last one, or the one that holds the last written row of a finished
zone (R154, R156). -/
def State.closingLine (s : State) (z : Zone) : Nat := if z.st = .full then rowOf (z.filled - 1) / 4 else s.wordLines - 1

/-- Row `r` of a unit is complete for a member: staged with its parity, or released already, for a member that is filled again with its
frames rebuilt; above the last written row of a finished zone the pad pattern stands in (R154, R156, R168, R201). -/
def State.rowComplete (s : State) (zk : Nat) (z : Zone) (pos r : Nat) : Bool :=
  if z.filled ≤ 256 * r then z.st == .full
  else match s.work.rows.find? fun x => x.zk == zk && x.row == r with
    | some x => x.quarters == 4
    | none => z.refills.all fun f => f.pos != pos || decide (16 * (r + 1) ≤ f.frames)

/-- The rows of a word line are complete for a member (R154). -/
def State.lineReady (s : State) (zk : Nat) (z : Zone) (pos w : Nat) : Bool :=
  (List.range 4).all fun i => s.rowComplete zk z pos (4 * w + i)

/-- The next pass of a member in the order of R154, when its rows are ready: coarse(w + 1) before fine(w), and the closing
word line's fine pass without one. -/
def State.nextPass (s : State) (zk : Nat) (z : Zone) (pos : Nat) : Option (OpKind × Nat) :=
  let c := Tbl.look 0 z.coarse pos
  let f := Tbl.look 0 z.fine pos
  let last := s.closingLine z
  if last < f ∨ z.filled = 0 then none
  else if f + 2 ≤ c then some (.fine, f)
  else if c = f + 1 ∧ f = last then some (.fine, f)
  else if s.lineReady zk z pos c then some (.coarse, c) else none

/-- A member's pass is queued or running. -/
def State.passPending (s : State) (k zk pos : Nat) : Bool :=
  let mine := fun (e : QEntry) => (e.kind == .coarse || e.kind == .fine) && e.zk == zk && e.pos == pos
  (s.die k).queue.any mine || (s.heavyOp k).any fun o => mine o.entry

/-- The baton of the first pass or erase that waits at a die requested (R157, R394). -/
def State.askBatons (s : State) (k : Nat) : State :=
  let d := s.die k
  let s := if d.waitingPass.isSome then s.requestBaton (.program (k / 8) (k % 8)) else s
  if d.queue.any fun e => e.kind == .erase && !e.baton then s.requestBaton (.erase (k / 8) (k % 8)) else s

/-- A member's next pass queued, unless one is pending, its die is lost or its queue full, or a relocation holds the member's passes (R145, R154,
R193). -/
def State.queuePass (s : State) (zk pos : Nat) : State :=
  let z := s.zone zk
  match s.memberAt z pos with
  | none => s
  | some k =>
    if s.passPending k zk pos || (s.die k).lost || !s.queueRoom k || z.relocTgt.any (fun t => t.1 == pos) || !z.valid then s
    else match s.nextPass zk z pos with
      | none => s
      | some (kind, w) =>
        (s.enqueueHeavy k { id := 0, kind := kind, cls := .none, zk := zk, pos := pos, block := z.dblk.getD pos 0,
                            page := w }).askBatons k

/-- The copy reads of a die's relocation that wait, run, decode or are rebuilt (R193 step 3). -/
def State.copyPending (s : State) (k zk pos : Nat) : Bool :=
  (s.die k).queue.any (fun e => e.kind == .copyRead) ||
  (s.work.ops.any fun p => p.1 / 256 == k / 8 && p.2.any fun o => o.die == k % 8 && o.entry.kind == .copyRead) ||
  (s.work.decodes.any fun p => p.2.any fun j => j.lane == k / 8 && j.die == k % 8 && j.entry.kind == .copyRead) ||
  s.work.rebuilds.any fun p => p.2.any fun r => r.ctx == 0 && r.zk == zk && r.pos == pos

/-- The next pass on the target of a relocation, in the order of R154: the copied word lines, then, for an active unit, the coarse pass
that the last fine one needs, from the staged rows. -/
def State.nextCopyPass (s : State) (k zk pos : Nat) : Option (OpKind × Nat) :=
  let z := s.zone zk
  let n := Tbl.look 0 z.fine pos
  let c := (s.die k).copyCoarse
  let f := z.relocWl
  if n ≤ f then none
  else if f + 2 ≤ c then some (.fine, f)
  else if c = f + 1 ∧ f = s.closingLine z then some (.fine, f)
  else if c < (s.die k).copyPages / 4 then some (.coarse, c)
  else if c = n ∧ s.lineReady zk z pos c then some (.coarse, c) else none

/-- A relocation goes on: the next page of the source is read, all 4 planes in one chain, and the next pass on the target is queued (R148, R193
step 3). It waits while another copy holds COPY buffers of its block, 64 of which take one word line (R468). -/
def State.continueCopy (s : State) (k : Nat) : State :=
  match (s.die k).reloc with
  | none => s
  | some (zk, pos, src, tgt, _) =>
    let z := s.zone zk
    let d := s.die k
    let s := if d.copyPages < 4 * Tbl.look 0 z.fine pos ∧ d.copyPages / 4 ≤ d.copyCoarse ∧ s.copyPending k zk pos = false ∧
        s.copyUsed (blockOfLane (k / 8)) = d.copyHeld ∧ s.queueRoom k then
        (s.updDie k fun d => { d with copyWait := 16 }).enqueueRead k
          { id := 0, kind := .copyRead, cls := .distance, zk := zk, off := 256 * d.copyPages + 16 * (dataAt z.rot pos).getD 0,
            frames := 16, pos := pos, block := src, page := d.copyPages }
      else s
    if s.passPending k zk pos ∨ s.queueRoom k = false then s
    else match s.nextCopyPass k zk pos with
      | none => s
      | some (kind, w) => (s.enqueueHeavy k { id := 0, kind := kind, cls := .none, zk := zk, pos := pos, block := tgt, page := w }).askBatons k

/-- A frame of the page being copied has come: with the last one the page is in its copy buffers (R193 step 3). -/
def State.copyFrame (s : State) (k zk pos row : Nat) : State :=
  let d := s.die k
  if d.reloc.any (fun r => r.1 == zk && r.2.1 == pos) ∧ row = d.copyPages ∧ 0 < d.copyWait then
    if d.copyWait = 1 then (s.setDie k { d with copyWait := 0, copyPages := d.copyPages + 1 }).continueCopy k
    else s.setDie k { d with copyWait := d.copyWait - 1 }
  else s

/-- A pass on the target of a relocation completed (R193 step 4): with its fine pass a word line is served there. -/
def State.copyPassDone (s : State) (k : Nat) (e : QEntry) : State :=
  let s := if e.kind = .coarse then s.updDie k fun d => { d with copyCoarse := e.page + 1 }
    else s.commitMap e.zk fun z => { z with relocWl := e.page + 1 }
  (s.continueCopy k).askBatons k

/-- `f` applied to the refill of a member. -/
def State.updRefill (s : State) (zk pos : Nat) (f : Refill → Refill) : State :=
  s.updZone zk fun z => { z with refills := z.refills.map fun r => if r.pos = pos then f r else r }

/-- The offset of the next frame that a refill rebuilds. -/
def Refill.offset (r : Refill) (z : Zone) : Nat := 256 * (r.frames / 16) + 16 * (dataAt z.rot r.pos).getD 0 + r.frames % 16

/-- The frames of the rows in staging need no rebuild: a refill goes on with the first row that was released (R168 step 4, R201). -/
def State.skipStaged (s : State) (zk : Nat) (z : Zone) (r : Refill) : Nat :=
  if r.frames % 16 ≠ 0 then r.frames
  else
    let rows := ceilDiv z.filled 256
    let staged := fun (x : Nat) => s.work.rows.any fun y => y.zk == zk && y.row == x
    match (List.range rows).find? fun x => decide (r.frames / 16 ≤ x) && !staged x with
    | some x => 16 * x
    | none => max r.frames (16 * rows)

/-- A refill goes on: its next frame is rebuilt from the other members as Distance work, one word line ahead of the passes at most
and while no other copy holds COPY buffers of its block (R468), and its next pass is queued; with nothing left to rebuild or to program it is filled, and a replaced die block's refill ends (R168, R201). -/
def State.continueRefill (s : State) (zk : Nat) (r : Refill) : State :=
  let z := s.zone zk
  let frames := s.skipStaged zk z r
  let s := s.updRefill zk r.pos fun x => { x with frames := frames }
  if frames < 16 * ceilDiv z.filled 256 then
    let off := Refill.offset { r with frames := frames } z
    let s := s.queuePass zk r.pos
    if frames / 64 ≤ Tbl.look 0 z.coarse r.pos ∧ s.rebuildPending 0 zk off = false ∧
      s.copyUsed (blockOfLane (r.die / 8)) = s.refillHeld zk z { r with frames := frames } ∧ (s.rebuildPlan z r.pos (rowOf off)).1.isSome then
      s.startRebuild 0 .distance 0 zk off r.pos .degraded
    else s
  else
    let s := s.queuePass zk r.pos
    if s.passPending r.die zk r.pos then s
    else if r.spare then (s.updRefill zk r.pos fun x => { x with filled := true }).updStripe z.set fun x =>
      { x with rebuild := x.rebuild.map fun b => (b.1, b.2.1, b.2.2.1 - 1, b.2.2.2) }
    else s.updZone zk fun z => { z with refills := z.refills.filter fun x => x.pos != r.pos }

/-- The units that a rebuild has still to begin, in its order: active ones by ascending activation, the others by ascending T_FULL
(R201). -/
def State.rebuildOrder (s : State) (set pos : Nat) : List Nat :=
  let us := s.zones.filter fun p => p.2.valid && p.2.set == set && !p.2.refills.any fun r => r.pos == pos
  let act := (us.filter fun p => p.2.active).mergeSort fun a b => a.2.activatedAt ≤ b.2.activatedAt
  let rest := (us.filter fun p => !p.2.active).mergeSort fun a b => a.2.tFull ≤ b.2.tFull
  (act ++ rest).map fun p => p.1

/-- A rebuild takes up a unit: a free position of the spare, with nothing programmed on it yet; its staged rows go there from staging
(R201 step 1). -/
def State.beginRefill (s : State) (zk pos k : Nat) : State :=
  let (b, s) := s.takeBlock k
  let s := s.onWork fun w => { w with rows := w.rows.map fun r =>
    if r.zk = zk then { r with fineDone := r.fineDone.filter (· != pos) } else r }
  s.commitMap zk fun z => { z.replace pos b with
                              coarse := Tbl.put 0 z.coarse pos 0, fine := Tbl.put 0 z.fine pos 0, refills := z.refills ++ [{ pos := pos, die := k }] }

/-- The refills on a die that are not filled yet. -/
def State.refillsOn (s : State) (k : Nat) : List (Nat × Refill) :=
  s.zones.flatMap fun p => (p.2.refills.filter fun r => r.die == k && !r.filled).map fun r => (p.1, r)

/-- The rebuilds onto a die go on: those under way, or the next unit of its stripe set (R168, R201). -/
def State.continueRefills (s : State) (k : Nat) : State :=
  let s := s.each (s.refillsOn k) fun p s => s.continueRefill p.1 p.2
  match s.sets.find? fun p => p.2.rebuild.any fun r => r.2.1 == k with
  | none => s
  | some (set, x) =>
    if (s.refillsOn k).any fun p => p.2.spare then s
    else match x.rebuild, s.rebuildOrder set ((x.rebuild.map fun r => r.1).getD 0) with
      | some (pos, _), zk :: _ => (s.beginRefill zk pos k).continueRefill zk { pos := pos, die := k }
      | _, _ => s

/-- A read or rebuild of a GC victim's frame on a die waits, runs or decodes (R204). -/
def State.gcPending (s : State) (k zk : Nat) : Bool :=
  (s.die k).queue.any (fun e => e.kind == .gcRead) ||
  (s.work.ops.any fun p => p.1 / 256 == k / 8 && p.2.any fun o => o.die == k % 8 && o.entry.kind == .gcRead) ||
  (s.work.decodes.any fun p => p.2.any fun j => j.lane == k / 8 && j.die == k % 8 && j.entry.kind == .gcRead) ||
  s.work.rebuilds.any fun p => p.2.any fun r => r.ctx == 0 && r.zk == zk

/-- The die that a frame of a unit is taken from: its member's, or for a lost member the first one of the set in service. -/
def State.gcDie (s : State) (z : Zone) (off : Nat) : Option Nat :=
  match s.memberDie z (posOfOffset z off) with
  | some k => some k
  | none => (s.stripe z.set).members.findSome? id

/-- Garbage collection goes on at a die: the next valid frame of a victim there is read as Distance work, or rebuilt when its member is lost
(R204). -/
def State.continueGc (s : State) (k : Nat) : State :=
  s.each (s.nss.filterMap fun p => p.2.victim) fun zk s =>
    let z := s.zone zk
    if s.gcPending k zk || !s.queueRoom k then s
    else match z.rev.find? fun p => p.2 != 0 && s.gcDie z p.1 == some k with
      | none => s
      | some (off, _) =>
        let pos := posOfOffset z off
        if (s.memberDie z pos).isNone then
          (if (s.rebuildPlan z pos (rowOf off)).1.isSome then s.startRebuild 0 .distance 0 zk off pos .degraded else s)
        else if z.programmed pos (rowOf off) then
          let e : QEntry :=
            { id := 0, kind := .gcRead, cls := .distance, zk := zk, off := off, pos := pos, block := blockOfRow z pos (rowOf off), page := rowOf off }
          s.enqueueRead k e
        else s

/-- A frame rebuilt for the device (R193, R201): it goes to the member that is being filled, or into the copy buffers of its
relocation. -/
def State.frameRebuilt (s : State) (zk off pos : Nat) : State :=
  let z := s.zone zk
  match z.refills.find? fun r => r.pos == pos && !r.filled with
  | some r => if r.offset z = off then
      let s := s.updRefill zk pos fun x => { x with frames := x.frames + 1 }
      s.continueRefill zk { r with frames := r.frames + 1 }
    else s
  | none => match s.memberDie z pos with
    | none => s
    | some k => s.copyFrame k zk pos (rowOf off)

/-- The passes of every member of a unit that can be queued now. -/
def State.queuePasses (s : State) (zk : Nat) : State := s.each (List.range 18) fun p s => s.queuePass zk p

/-- The passes of every member on a die that can be queued now: those that found its queue full wait for room (R145). -/
def State.offerPasses (s : State) (k : Nat) : State :=
  s.each (Tbl.numbers (fun z => z.valid) s.zones) fun zk s =>
    s.each ((List.range 18).filter fun p => s.memberAt (s.zone zk) p == some k) fun p s => s.queuePass zk p

/-- An erase of a die block queued while the die's queue has room (R145, R193, step 6). -/
def State.queueErase (s : State) (k block : Nat) : State :=
  if s.queueRoom k then (s.enqueueHeavy k { id := 0, kind := .erase, cls := .none, block := block }).askBatons k else s

/-- DIST_AGE, ns (CHIP_DIE_RETRY). -/
def State.distAgeNs (s : State) : Nat := max 1 (s.cfg .chipDieRetry 0 31 24) * 1000000

/-- The rank of a queue entry in *Selection order*; none where it cannot start. -/
def State.selectRank (s : State) (e : QEntry) (suspended : Bool) : Option Nat :=
  match e.kind with
  | .read | .patrol | .copyRead | .gcRead | .paramPage =>
    match e.cls with
    | .dash => some 1
    | .tempo => some 2
    | .distance | .none => if e.atNs + s.distAgeNs < s.now then some 3 else if suspended then none else some 6
  | .coarse | .fine => if suspended || !e.baton then none else some 5
  | .erase => if suspended || !e.baton then none else some 7
  | .features | .slc | .checkpoint => none

/-- The entry a die takes next: the lowest rank, the first admitted within one (R147). -/
def State.selectEntry (s : State) (k : Nat) (suspended : Bool) : Option QEntry :=
  ((s.die k).queue.foldl (fun (best : Option (Nat × QEntry)) e =>
    match s.selectRank e suspended, best with
    | none, b => b
    | some r, none => some (r, e)
    | some r, some b => if r < b.1 then some (r, e) else some b) none).map (·.2)

/-- The queued reads that join a read in one multi-plane chain: Tempo or Distance, same class, die and page index, each on a
plane of its own (R148). -/
def State.mergeable (s : State) (k : Nat) (e : QEntry) : List QEntry :=
  if (e.cls = .tempo ∨ e.cls = .distance) ∧ e.kind = .read ∧ e.rebuild = none ∧ e.retry = 0 then
    ((s.die k).queue.foldl (fun (acc : List QEntry) x =>
      if x.id ≠ e.id ∧ x.cls = e.cls ∧ x.kind = .read ∧ x.rebuild = none ∧ x.retry = 0 ∧ x.page = e.page ∧
        (e :: acc).all (fun y => planeOf y.off != planeOf x.off) then acc ++ [x] else acc) [])
  else []

/-- The band whose prefix a pass, an erase or a Distance read carries, started while the die holds no suspended operation (R164). -/
def State.prefixFor (s : State) (k : Nat) (e : QEntry) : Option Nat :=
  if e.cls = .dash ∨ e.cls = .tempo ∨ (s.die k).heavy.isSome then none else (s.die k).prefixBand

/-- The writes of that prefix. -/
def State.prefixOf (s : State) (k : Nat) (e : QEntry) : List FeatWrite := ((s.prefixFor k e).map (s.prefixWrites k)).getD []

/-- Reads counted against their die blocks (R195). -/
def State.countReads (s : State) (k : Nat) (es : List QEntry) : State :=
  s.each es fun e s => s.onStore fun t =>
    { t with readCounts := Tbl.put 0 t.readCounts (k * 2048 + e.block) (satAdd 32 (Tbl.look 0 t.readCounts (k * 2048 + e.block)) 1) }

/-- An operation entered under its tag and taken from the queue. -/
def State.launch (s : State) (k tag : Nat) (o : Op) : State :=
  let ids := o.entries.map (·.id)
  (s.setOp (opKey (k / 8) tag) (some o)).updDie k fun d => { d with queue := d.queue.filter fun e => !ids.contains e.id }

/-- A read started on an idle or suspended die, in one chain with a prefix before it, or with entry k set before it and entry 0 restored after it;
`before` goes ahead in the same MSG flit (R147-R149, R164, R165). -/
def State.startRead (s : State) (k tag : Nat) (e : QEntry) (before : List Msg) : State :=
  let merged := s.mergeable k e
  let first := s.prefixOf k e ++ s.ladderWrites k e
  let after := s.restoreWrites k e
  let seqs := featureSeqs (k % 8) tag first ++ readSeqs (k % 8) tag (planeReads (e :: merged)) ++ featureSeqs (k % 8) tag after
  let pre := s.prefixFor k e
  let s := s.launch k tag { die := k % 8, entry := e, merged := merged, sentAt := s.now }
  let s := s.updDie k fun d =>
    { d with reading := some tag, st := if d.st = .idle then .read else d.st,
             readsServed := d.readsServed + 1, prefixBand := if pre.isNone then d.prefixBand else none }
  (s.countReads k (e :: merged)).post (k / 8) (before ++ chainUp seqs) (k % 8) (featureData (first ++ after))

/-- The opening byte of a pass (*CHIP_DIE_OPS*). -/
def State.passPrefix (s : State) (kind : OpKind) : Nat := if kind = .fine then s.cfg .chipDieOps 0 15 8 else s.cfg .chipDieOps 0 23 16

/-- The byte that opens a pSLC operation (*CHIP_DIE_OPS*). -/
def State.slcPrefix (s : State) : Nat := s.cfg .chipDieOps 0 31 24

/-- A program pass or an erase started (R154, R157). A pass carries 256 KiB in 4,096 data flits. -/
def State.startHeavy (s : State) (k tag : Nat) (e : QEntry) : State :=
  let ws := s.prefixOf k e
  let pre := featureSeqs (k % 8) tag ws
  let s := s.launch k tag { die := k % 8, entry := e, sentAt := s.now }
  let s := s.updDie k fun d =>
    { d with heavy := some tag, st := if e.kind = .erase then .erase else .prog, suspUsed := 0, readsServed := 0,
             prefixBand := none }
  if e.kind = .erase then
    let slc := if s.isLandBlock (s.die k) e.block then prefixSeqs (k % 8) tag s.slcPrefix else []
    s.post (k / 8) (chainUp (pre ++ slc ++ eraseSeqs (k % 8) tag e.block)) (k % 8) (featureData ws)
  else
    s.post (k / 8) (chainUp (pre ++ passSeqs (k % 8) tag e.block e.page (s.passPrefix e.kind))) (k % 8)
      (featureData ws ++ [(.pass e.zk e.pos e.page, 4096)])

/-- The landing unit that a landing write programs. -/
def QEntry.landsUnit (e : QEntry) (u : LandUnit) : Bool :=
  u.zk == e.zk && u.row == e.off && u.member == e.pos && u.behind == (e.tried == 1)

/-- A landing or checkpoint write started on a die in LANDING: one page of 64 KiB on four planes, opened by SLC_PREFIX. Landing writes take
the pages of the block in order (R158). -/
def State.startSlc (s : State) (k tag : Nat) (e : QEntry) : State :=
  let d := s.die k
  let lands := e.kind == .slc
  let e := if lands then { e with page := d.landPage } else e
  let s := (s.launch k tag { die := k % 8, entry := e, sentAt := s.now }).updDie k fun d =>
    { d with heavy := some tag, landPage := if lands then d.landPage + 1 else d.landPage,
             landDirty := if lands ∧ !d.landDirty.contains d.landB then d.landDirty ++ [d.landB] else d.landDirty }
  let place := fun (u : LandUnit) => if lands && e.landsUnit u then { u with page := e.page } else u
  let s := s.onPower fun p => { p with landing := p.landing.map fun l => { l with toWrite := l.toWrite.map place } }
  s.post (k / 8) (chainUp (prefixSeqs (k % 8) tag s.slcPrefix ++ pageSeqs (k % 8) tag e.block e.page true)) (k % 8)
    [(if e.kind = .checkpoint then .journal else .landing e.zk e.off e.pos (e.tried == 1), 1024)]

/-- The prefix of a band sent on its own, once the die is idle (R164); a die whose model names no write needs none. -/
def State.startFeatures (s : State) (k tag band : Nat) : State :=
  let ws := s.prefixWrites k band
  if ws = [] then s.updDie k fun d => { d with prefixBand := none }
  else
    let e : QEntry := { id := s.work.nextEntry, kind := .features, cls := .none, atNs := s.now }
    let s := ((s.onWork fun w => { w with nextEntry := w.nextEntry + 1 }).setOp (opKey (k / 8) tag)
      (some { die := k % 8, entry := e, sentAt := s.now })).bookFeatures k ws.length e.id
    (s.updDie k fun d => { d with reading := some tag, st := .features, prefixBand := none }).post (k / 8)
      (chainUp (featureSeqs (k % 8) tag ws)) (k % 8) (featureData ws)

/-- The program or erase that a die holds is an erase. -/
def State.holdsErase (s : State) (k : Nat) : Bool := (s.heavyOp k).any fun o => o.entry.kind == .erase

/-- A Dash or Tempo read that waits at a running program or erase with suspensions left suspends it: SUSPEND and the read's
ONFI_SEQ go in one MSG flit (R149). -/
def State.suspendFor (s : State) (k tag : Nat) : State :=
  let d := s.die k
  match d.queue.find? fun e => e.kind.isRead && e.cls == .dash, d.queue.find? fun e => e.kind.isRead && e.cls == .tempo, d.heavy with
  | some e, _, some h | none, some e, some h =>
    if d.suspendAt.isNone && d.reading.isNone && !d.resuming && s.suspensionsLeft k then
      (s.startRead k tag e [.suspend (k % 8) h (s.holdsErase k)]).updDie k fun d => { d with suspendAt := some s.now, suspendLate := false, readsServed := 0 }
    else s
  | _, _, _ => s

/-- What a suspended die does when it can take an operation: reads of ranks 1 to 3 up to SUSP_READS, then the resume (R147). -/
def State.serveSuspended (s : State) (k tag : Nat) : State :=
  let d := s.die k
  match d.reading with
  | some _ => s
  | none =>
    if d.resuming then s
    else match (if d.readsServed < s.suspReads then s.selectEntry k true else none), d.heavy with
      | some e, _ => s.startRead k tag e []
      | none, some h => (s.updDie k fun d => { d with resuming := true }).postMsgs (k / 8) [.resume (k % 8) h (s.holdsErase k)]
      | none, none => s

/-- What an idle die does: the entry of the lowest rank, or a band prefix on its own (R147, R164). -/
def State.serveIdle (s : State) (k tag : Nat) : State :=
  match s.selectEntry k false with
  | some e => if e.kind.isRead then s.startRead k tag e [] else s.startHeavy k tag e
  | none => match (s.die k).prefixBand with
    | some b => s.startFeatures k tag b
    | none => s

/-- The pacer can send to a die: its lane is ACTIVE and in service, its cell is up and its marshal runs. -/
def State.pacerUp (s : State) (n : Nat) : Bool :=
  let b := s.blk (blockOfLane n)
  (s.lane n).st == .active && (s.lane n).outage.isNone && !(s.lane n).syncing && !(s.lane n).mismatch && !s.aon.trip &&
  !(b.handoff.any fun h => h.1 == n) && !(s.lane n).unserved

/-- The state a die shows from what it holds (R146). -/
def State.settleDie (s : State) (k : Nat) : State :=
  let d := s.die k
  let opOf := fun (t : Option Nat) => t.bind fun x => s.opAt (opKey (k / 8) x)
  let aborting := (opOf d.heavy).any (fun o => o.abort.isSome) || (opOf d.reading).any fun o => o.abort.isSome
  if d.lost ∨ d.st = .absent ∨ d.st = .lost then s
  else
    let st :=
      if aborting then DieSt.stalled
      else match opOf d.heavy, opOf d.reading with
        | some o, r =>
          if o.entry.kind = .erase then (if o.suspended then .eraseSusp else .erase)
          else if o.entry.kind = .slc ∨ o.entry.kind = .checkpoint then .landing
          else if o.suspended then .progSusp else if r.isSome ∧ d.st = .read then .read else .prog
        | none, some r => if r.entry.kind = .features then .features else .read
        | none, none => if s.power.landing.isSome then .landing else .idle
    s.setDie k { d with st := st }

/-- An operation that ends: its tag is free, its booking is returned. -/
def State.endOp (s : State) (k tag : Nat) (o : Op) : State :=
  let s := s.setOp (opKey (k / 8) tag) none
  let s := s.each o.entries fun e s => s.unbook k e.id
  s.updDie k fun d => { d with heavy := if d.heavy = some tag then none else d.heavy,
                               reading := if d.reading = some tag then none else d.reading }

/-- A program or erase that ends: a SUSPEND still unanswered is answered by it (R131, R153), and its baton returns (R394). -/
def State.endHeavy (s : State) (k tag : Nat) (o : Op) : State :=
  let d := s.die k
  let s := if d.suspendLate && d.suspendAt.isSome then s.raiseDie 0x040E (k / 8) (k % 8) tag 0xFFFFFFFF 0 else s
  let s := (s.updDie k fun d => { d with suspendAt := none, suspendLate := false, resuming := false, suspUsed := 0 }).endOp k tag o
  let s := match o.entry.kind with
    | .coarse | .fine => s.returnBaton (.program (k / 8) (k % 8))
    | .erase => s.returnBaton (.erase (k / 8) (k % 8))
    | _ => s
  (s.settleDie k).askBatons k

/-- The decoders of a block that are free, ascending (R161). -/
def State.freeDecoders (s : State) (b : Nat) : List Nat :=
  let used := s.work.decodes.filterMap fun p => p.2.bind fun j => if j.block = b then j.decoder else none
  (List.range 4).filter fun i => hasBit (s.blk b).decIn i && !used.contains i

/-- Soft decodes a block may run at once: 2, 1 with two decoders in service, none with one (R161, R162). -/
def State.softLimit (s : State) (b : Nat) : Nat :=
  match countBits (s.blk b).decIn 4 with
  | 0 | 1 => 0
  | 2 => 1
  | _ => 2

/-- Of requests (class, requester, number), the one granted next: the highest class, and within it the requester that follows `last`
round-robin among `m` (R40). -/
def nextInRound (m last : Nat) (l : List (Cls × Nat × Nat)) : Option (Nat × Nat) :=
  let top := l.foldl (fun r x => min r x.1.rank) 2
  let far := fun (x : Cls × Nat × Nat) => (x.2.1 + 2 * m - last - 1) % m
  ((l.filter fun x => x.1.rank == top).foldl (fun (b : Option (Cls × Nat × Nat)) x => match b with
    | none => some x
    | some y => if far x < far y then some x else b) none).map (·.2)

/-- The waiting decode that the next free decoder takes, with its lane: in class order, round-robin among the block's 16 lanes; a soft
decode that waits only for the soft limit blocks no other (R40, R161). -/
def State.nextDecode (s : State) (b : Nat) : Option (Nat × Nat) :=
  let soft := (s.work.decodes.filter fun p => p.2.any fun j => j.block == b && j.soft && j.decoder.isSome).length
  nextInRound 16 (s.blk b).decLast (s.work.decodes.filterMap fun p => p.2.bind fun j =>
    if j.block = b ∧ j.decoder = none ∧ (j.soft = false ∨ soft < s.softLimit b) then some (j.entry.cls, j.lane % 16, p.1) else none)

/-- Free decoders granted to waiting frames, the lowest decoder first (R161). -/
def State.grantDecoders : Nat → State → Nat → State
  | 0, s, _ => s
  | n + 1, s, b =>
    match s.freeDecoders b, s.nextDecode b with
    | d :: _, some (lane, j) =>
      match s.decodeAt j with
      | none => s
      | some x => State.grantDecoders n ((s.setDecode j (some { x with decoder := some d })).updBlk b fun k => { k with decLast := lane }) b
    | _, _ => s

/-- A frame given to its block's decoders. -/
def State.addDecode (s : State) (k : Nat) (e : QEntry) (off : Nat) (soft : Bool) : State :=
  let b := blockOfLane (k / 8)
  ((s.onWork fun w => { w with nextJob := w.nextJob + 1 }).setDecode s.work.nextJob
    (some { block := b, lane := k / 8, die := k % 8, entry := e, off := off, soft := soft })).grantDecoders 4 b

/-- A read ladder that ends uncorrectable (R166): recorded, served by read-around where a command waits and otherwise rebuilt from the stripe, and
its member relocated (R186, R196). Cause 1 = ladder exhausted, 2 = no baton, 3 = no soft decoder. -/
def State.ladderFailed (s : State) (k : Nat) (e : QEntry) (off cause : Nat) : State :=
  let s := s.raiseDie 0x0403 (k / 8) (k % 8) e.cls.code cause e.page
  let s := if e.ctx ≠ 0 then s.aroundEntry { e with off := off, frames := 1 } .reactive
    else if s.rebuildPending 0 e.zk off then s else s.startRebuild 0 .distance 0 e.zk off e.pos .direct
  (s.raiseMember 0x0490 k e.zk e.pos (rowOf off) 0).startRelocation e.zk e.pos 4

/-- Retry entries and soft decode that the ladder of a class allows, within the offset table of the die's band (R163, R165). -/
def State.ladderSteps (s : State) (k : Nat) (cls : Cls) : Nat × Bool :=
  let last := s.lastEntry k s.aon.band
  match cls with
  | .dash => (0, false)
  | .tempo => (min (s.cfg .chipDieRetry 0 19 16) last, s.cfgBit .chipDieRetry 0 15)
  | .distance | .none => (min (s.cfg .chipDieRetry 0 23 20) last, s.cfgBit .chipDieRetry 0 14)

/-- Step 3 of the ladder: the two soft reads at ±SOFT_DELTA are queued and their baton is requested (R165, R166); with one decoder in service
there is no soft decode (R162). -/
def State.softStep (s : State) (k : Nat) (e : QEntry) (off tried : Nat) : State :=
  if s.softLimit (blockOfLane (k / 8)) = 0 then s.ladderFailed k e off 3
  else
    let id := s.work.nextEntry
    let e := { e with off := off, frames := 1, tried := tried, soft := some id, baton := false }
    (((s.bookDecodePs (blockOfLane (k / 8)) 7680000).enqueueRead k { e with retry := 16 }).enqueueRead k { e with retry := 17 }).requestBaton
      (.softDecode e.ctx id)

/-- The ladder's next step after a decode of a frame failed (R165). -/
def State.ladderNext (s : State) (k : Nat) (e : QEntry) (off : Nat) : State :=
  let (steps, soft) := s.ladderSteps k e.cls
  if e.retry < steps then (s.bookDecode (blockOfLane (k / 8)) 1).enqueueRead k { e with off := off, frames := 1, retry := e.retry + 1, tried := e.retry + 1 }
  else if e.retry < 16 ∧ soft then s.softStep k e off e.tried
  else s.ladderFailed k e off 1

/-- A soft step that ends before its decode: its baton returns, what is left of it leaves the queue, and the ladder is uncorrectable (R162,
R166). -/
def State.softEnds (s : State) (k : Nat) (e : QEntry) (cause : Nat) : State :=
  let s := (s.returnBaton (.softDecode e.ctx (e.soft.getD 0))).updDie k fun d =>
    { d with queue := d.queue.filter fun x => e.soft.isNone || x.soft != e.soft }
  s.ladderFailed k e e.off cause

/-- A read whose data have come: each frame goes to a decoder. Of the soft reads of step 3 the second brings the frame to a soft decode, which
needs its baton by then (R166) and a decoder that may soft-decode (R162). -/
def State.readDone (s : State) (k : Nat) (e : QEntry) : State :=
  if e.retry = 16 then s
  else if e.retry = 17 then
    if s.softLimit (blockOfLane (k / 8)) = 0 then s.softEnds k e 3
    else if s.broker.holds (.softDecode e.ctx (e.soft.getD 0)) then s.addDecode k e e.off true
    else s.softEnds k e 2
  else s.each ((List.range e.frames).map fun i => e.off + i) fun o s => s.addDecode k e o false

/-- A read that ended with a failure or was dropped: served by read-around where a command waits (R150, R186); a soft step ends with it. -/
def State.readFailed (s : State) (k : Nat) (e : QEntry) : State :=
  if e.soft.isSome then s.softEnds k e 1 else s.aroundEntry e .reactive

/-- Every read queued at a die that cannot serve it is reported busy (R150, R168 step 1). -/
def State.aroundDie (s : State) (k : Nat) : State :=
  s.each ((s.die k).queue.filter (·.kind.isRead)) fun e s => (s.tellBusy k e.ctx e.cls).aroundEntry e .reactive

/-- A die block retired after a failed program or erase, and what follows on its member: it is filled again from word line 0 on the
replacement, or goes on at the relocation target; a relocation whose target failed starts again; replacements of other blocks join the
die's free positions (R168, R194). -/
def State.finishStall (s : State) (k : Nat) (e : QEntry) (code : Nat) : State :=
  match (s.updDie k fun d => { d with eraseQueue := d.eraseQueue.filter (· != e.block) }).retireBlock k e.block code with
  | (none, s) => s
  | (some b, s) =>
    if s.isLandBlock (s.die k) e.block then
      let isB := e.block == s.landPosition (s.die k) true
      (s.moveLand k isB b).onStore fun t => { t with directory := t.directory.filter fun u => !(u.die == k && u.blockB == isB) }
    else
    let free := fun (s : State) (b : Nat) => s.updDie k fun d => { d with erasedBlocks := d.erasedBlocks ++ [b] }
    if e.kind ≠ .coarse ∧ e.kind ≠ .fine then free s b
    else if (s.zone e.zk).relocTgt = some (e.pos, e.block) then (free s b).restartRelocation k 3 true
    else if (s.zone e.zk).dblk.getD e.pos 0 ≠ e.block then free s b
    else
      let s : State := match (s.zone e.zk).relocTgt with
        | some (p, _) => if p = e.pos then s.updDie k fun d => { d with queue := d.queue.filter fun x => x.kind != .copyRead } else s
        | none => s
      let z := s.zone e.zk
      let again := fun (frames : Nat) => (z.refills.filter fun r => r.pos != e.pos) ++
        [{ pos := e.pos, die := k, frames := frames, spare := (s.memberDie z e.pos).isNone }]
      match z.relocTgt.filter fun t => t.1 == e.pos with
      | some t =>
        let z := { z.replace e.pos t.2 with
                          relocTgt := none, relocating := false, relocWl := 0, coarse := Tbl.put 0 z.coarse e.pos (s.die k).copyCoarse, fine := Tbl.put 0 z.fine e.pos z.relocWl,
                          refills := again (64 * z.relocWl) }
        ((free (s.commitZone e.zk z) b).updDie k fun d => { d with reloc := none }).queuePass e.zk e.pos
      | none =>
        let z := { z.replace e.pos b with
                          coarse := Tbl.put 0 z.coarse e.pos 0, fine := Tbl.put 0 z.fine e.pos 0, refills := again 0 }
        let s := (s.commitZone e.zk z).onWork fun w => { w with rows := w.rows.map fun r =>
          if r.zk = e.zk then { r with fineDone := r.fineDone.filter (· != e.pos) } else r }
        s.queuePass e.zk e.pos

/-- A pass completed with OK (R154, R155): the member's next pass is queued, and rows whose word line is fine on every member in
service are released; the last one of a closed unit stamps T_FULL (R192). A pass on a relocation's target is the copy's; one on a die
block that has left the unit's map counts for nothing. -/
def State.passDone (s : State) (k : Nat) (e : QEntry) : State :=
  let z := s.zone e.zk
  if z.valid = false then s.askBatons k
  else if z.relocTgt = some (e.pos, e.block) then s.copyPassDone k e
  else if z.dblk.getD e.pos 0 ≠ e.block ∨ e.page ≠ Tbl.look 0 (if e.kind = .coarse then z.coarse else z.fine) e.pos then s.askBatons k
  else if e.kind = .coarse then (s.setZone e.zk { z with coarse := Tbl.put 0 z.coarse e.pos (e.page + 1) }).queuePass e.zk e.pos
  else
    let z := { z with fine := Tbl.put 0 z.fine e.pos (e.page + 1) }
    let closed := z.st == .full && z.tFull == 0 &&
      (List.range 18).all fun p => decide (s.closingLine z < Tbl.look 0 z.fine p) || (s.memberAt z p).isNone
    let s := if closed then s.commitZone e.zk { z with tFull := s.now } else s.setZone e.zk z
    let s := s.onWork fun w => { w with rows := w.rows.map fun r =>
      if r.zk = e.zk ∧ r.row / 4 = e.page ∧ !r.fineDone.contains e.pos then { r with fineDone := r.fineDone ++ [e.pos] } else r }
    (s.releaseRows.queuePass e.zk e.pos).askBatons k

/-- A landing die block erased: it holds no unit any more, and is the one in use when the other is not erased (R182). -/
def Die.landErased (d : Die) (b : Bool) : Die :=
  let dirty := d.landDirty.filter (· != b)
  { d with landDirty := dirty, landB := if dirty.contains d.landB then b else d.landB,
           landPage := if d.landB == b || dirty.contains d.landB then 0 else d.landPage }

/-- A die block erased: a free position, with its count of reads cleared (R193, R195), or a landing die block (R182). -/
def State.eraseDone (s : State) (k block : Nat) : State :=
  if s.diePositions k ≤ block ∨ s.isLandBlock (s.die k) block then
    let b := block == s.landPosition (s.die k) true
    let s := s.updDie k fun d => { d with eraseQueue := d.eraseQueue.filter (· != block) }
    if s.isLandBlock (s.die k) block then
      (s.updDie k fun d => d.landErased b).onStore fun t => { t with directory := t.directory.filter fun u => !(u.die == k && u.blockB == b) }
    else s
  else
    (s.updDie k fun d => { d with erasedBlocks := d.erasedBlocks ++ [block], eraseQueue := d.eraseQueue.filter (· != block) }).onStore fun t =>
      { t with readCounts := Tbl.put 0 t.readCounts (k * 2048 + block) 0 }

/-- A landing unit written: its directory entry is made (R183). -/
def State.landDone (s : State) (e : QEntry) : State :=
  s.onPower fun p => { p with landing := p.landing.map fun l =>
    { l with toWrite := l.toWrite.filter fun u => !e.landsUnit u, written := l.written ++ l.toWrite.filter e.landsUnit } }

/-- A landing unit written again on the next landing page of the same die (R158); the die block is retired at the next Warm-up, for the event
`code` (R167). -/
def State.landAgain (s : State) (k : Nat) (e : QEntry) (code : Nat) : State :=
  s.updDie k fun d =>
    { d with landBad := if d.landBad.any (fun p => p.1 == d.landB) then d.landBad else d.landBad ++ [(d.landB, code)],
             queue := e :: d.queue }

/-- A checkpoint write that failed is written again on the next page of the copy. -/
def State.journalAgain (s : State) (k : Nat) (e : QEntry) : State :=
  s.updDie k fun d => { d with queue := { e with page := e.page + 1 } :: d.queue }

/-- A copy of the checkpoint journal written (R438 step 6). -/
def State.journalDone (s : State) (k : Nat) : State :=
  s.onPower fun p => { p with landing := p.landing.map fun l => { l with journal := l.journal.map fun ks => ks.filter (· != k) } }

/-- Die blocks that a sanitize has still to erase on dies in service (R289). -/
def State.sanitizeLeft (s : State) : Nat := Tbl.sum (fun d => if d.lost then 0 else d.eraseQueue.length) s.dies

/-- A Block Erase sanitize ends with its last die block: the namespaces are ready again (R289). -/
def State.settleSanitize (s : State) : State :=
  if s.store.sanitize = 2 ∧ s.store.sanitizeTotal ≠ 0 ∧ s.sanitizeLeft = 0 then
    (s.onStore fun t => { t with sanitize := 1 }).mapNss fun _ n => { n with fenced := false }
  else s

/-- An operation that ended with OK. -/
def State.opOk (s : State) (k tag : Nat) (o : Op) : State :=
  match o.entry.kind with
  | .read | .patrol | .copyRead | .gcRead | .paramPage =>
    let s := (s.endOp k tag o).settleDie k
    if o.failed then s else s.each o.entries fun e s => s.readDone k e
  | .features => (s.endOp k tag o).settleDie k
  | .coarse | .fine => (s.endHeavy k tag o).passDone k o.entry
  | .erase => ((s.endHeavy k tag o).eraseDone k o.entry.block).settleSanitize
  | .slc => (s.endHeavy k tag o).landDone o.entry
  | .checkpoint => (s.endHeavy k tag o).journalDone k

/-- The pass number of the program events (*Die events*). -/
def OpKind.pass : OpKind → Nat
  | .coarse => 1
  | .fine => 2
  | _ => 3

/-- A program or erase that failed ends: retirement, or for a landing write the next landing page (R167, R168). -/
def State.heavyFailed (s : State) (k tag : Nat) (o : Op) (code : Nat) : State :=
  let s := s.endHeavy k tag o
  match o.entry.kind with
  | .coarse | .fine => (s.aroundDie k).finishStall k o.entry code
  | .erase => (s.finishStall k o.entry code).settleSanitize
  | .slc => s.landAgain k o.entry code
  | .checkpoint => s.journalAgain k o.entry
  | _ => s

/-- DONE(FAIL) (R167). -/
def State.opFail (s : State) (k tag : Nat) (o : Op) (status : Nat) : State :=
  let fail := fun (code p3 p4 : Nat) =>
    ((s.updCntOf (k / 8) fun c => { c with statusFail := satAdd 8 c.statusFail 1 }).raiseDie code (k / 8) (k % 8) status p3 p4).heavyFailed
      k tag o code
  match o.entry.kind with
  | .coarse | .fine | .slc | .checkpoint => fail 0x0408 o.entry.kind.pass o.entry.page
  | .erase => fail 0x0409 o.entry.block 0
  | .features => (s.endOp k tag o).settleDie k
  | .read | .patrol | .copyRead | .gcRead | .paramPage =>
    let s := (s.endOp k tag o).settleDie k
    if o.failed then s else s.each o.entries fun e s => s.readFailed k e

/-- ABORT sent for an operation, for the event it follows (R131, R167). -/
def State.abortOp (s : State) (k tag : Nat) (o : Op) (code : Nat) : State :=
  ((s.setOp (opKey (k / 8) tag) (some { o with abort := some code, timedOut := true, failed := o.failed || o.entry.kind.isRead })).postMsgs
    (k / 8) [.abort (k % 8) tag]).settleDie k

/-- ABORT sent in service: the die is STALLED, and the reads queued to it are reported busy (R167, R168 step 1). -/
def State.sendAbort (s : State) (k tag : Nat) (o : Op) (code : Nat) : State := (s.abortOp k tag o code).aroundDie k

/-- A timeout counted at a die; the third within 1 s loses it (R167, R169). -/
def State.countTimeout (s : State) (k : Nat) : State :=
  let recent := (s.die k).timeouts.filter fun t => decide (s.now ≤ t + 1000000000)
  let s := (s.updDie k fun d => { d with timeouts := recent ++ [s.now] }).updCntOf (k / 8) fun c =>
    { c with timeouts := satAdd 8 c.timeouts 1 }
  let s := s.noteFailure (srcDieQueue (s.cellOf (k / 8))) (s.ctxsOnDie (k / 8) (k % 8))
  if 2 ≤ recent.length then (s.raiseDie 0x040B (k / 8) (k % 8) 1 0 0).loseDie k 0x040B else s

/-- DONE(TIMEOUT), which ends nothing (R130, R167): a read is reported failed and its die waits for LATE_READY; a program or
erase is aborted. -/
def State.opTimeout (s : State) (k tag : Nat) (o : Op) (busy : Nat) : State :=
  let s := match o.entry.kind with
    | .read | .patrol | .copyRead | .gcRead | .paramPage =>
      let s := s.setOp (opKey (k / 8) tag) (some { o with timedOut := true, failed := true, busy := busy })
      if o.failed then s else s.each o.entries fun e s => s.readFailed k e
    | .coarse | .fine | .slc | .checkpoint =>
      (s.raiseDie 0x0406 (k / 8) (k % 8) tag o.entry.kind.pass o.entry.page).sendAbort k tag o 0x0406
    | .erase => (s.raiseDie 0x0407 (k / 8) (k % 8) tag o.entry.block 0).sendAbort k tag o 0x0407
    | .features => s.sendAbort k tag o 0
  s.countTimeout k

/-- DONE(ABORTED): the end of an aborted operation (R131, R167, R168). A Homestretch erase goes back to its erase queue (R159); a
suspended program that a die reset for a read ended is a program timeout. -/
def State.opAborted (s : State) (k tag : Nat) (o : Op) : State :=
  if o.entry.kind.isRead || o.entry.kind == .features then
    let s := (s.endOp k tag o).settleDie k
    if o.failed then s else s.each o.entries fun e s => s.readFailed k e
  else match o.abort with
    | some 0 => s.endHeavy k tag o
    | some code => s.heavyFailed k tag o code
    | none =>
      let s := if o.entry.kind = .erase then s.raiseDie 0x0407 (k / 8) (k % 8) tag o.entry.block 0
        else s.raiseDie 0x0406 (k / 8) (k % 8) tag o.entry.kind.pass o.entry.page
      s.heavyFailed k tag o (if o.entry.kind = .erase then 0x0407 else 0x0406)

/-- DONE(SUSPENDED) (R131, R149, R153). -/
def State.opSuspended (s : State) (k tag : Nat) (o : Op) : State :=
  let d := s.die k
  let s := if d.suspendLate then
    s.raiseDie 0x040E (k / 8) (k % 8) tag ((s.now - d.suspendAt.getD s.now - 616) / 100) 0 else s
  ((s.setOp (opKey (k / 8) tag) (some { o with suspended := true })).updDie k fun d =>
    { d with suspendAt := none, suspendLate := false, suspUsed := d.suspUsed + 1,
             readsServed := if d.reading.isSome then 1 else 0 }).settleDie k

/-- DONE(RESUMED) (R131). -/
def State.opResumed (s : State) (k tag : Nat) (o : Op) : State :=
  ((s.setOp (opKey (k / 8) tag) (some { o with suspended := false })).updDie k fun d =>
    { d with resuming := false, readsServed := 0 }).settleDie k

/-- DONE(LATE_READY): the end of an operation that timed out (R126, R130). The result is discarded: an upper mechanism has fired. -/
def State.opLate (s : State) (k tag : Nat) (o : Op) (busy : Nat) : State :=
  if o.entry.kind.isRead then ((s.raiseDie 0x0405 (k / 8) (k % 8) tag busy 1).endOp k tag o).settleDie k
  else s.opAborted k tag o

/-- DONE(bad request) or DONE(die absent): a protocol error, and the lane goes DOWN (R132). -/
def State.opRefused (s : State) (k tag : Nat) (o : Op) : State :=
  let s := if o.entry.kind.isRead then (s.endOp k tag o).settleDie k
    else (s.endHeavy k tag o).updDie k fun d => { d with queue := { o.entry with baton := false } :: d.queue }
  let s := if o.entry.kind.isRead && !o.failed then s.each o.entries fun e s => s.readFailed k e else s
  s.protocolError (k / 8) 0x81 1 0x81

/-- A DONE for an operation tag (*Upstream messages*, R126). -/
def State.opResult (s : State) (n tag : Nat) (r : DoneResult) (status busy : Nat) : State :=
  match s.opAt (opKey n tag) with
  | none => s
  | some o =>
    let k := dieKey n o.die
    match r with
    | .ok => s.opOk k tag o
    | .statusFail => s.opFail k tag o status
    | .timeout => s.opTimeout k tag o busy
    | .aborted => s.opAborted k tag o
    | .suspended => s.opSuspended k tag o
    | .resumed => s.opResumed k tag o
    | .badRequest | .dieAbsent => s.opRefused k tag o
    | .lateReady => s.opLate k tag o busy
    | .resetDone => s.opAborted k tag o

/-- An operation that never reached the bridge goes back to the head of its queue (R134). -/
def State.unsend (s : State) (k tag : Nat) (o : Op) : State :=
  let s := (s.endOp k tag o).updDie k fun d =>
    { d with queue := o.entries ++ d.queue, suspendAt := if d.heavy = some tag then none else d.suspendAt }
  s.settleDie k

/-- What SYNC says of an operation that the bridge does not hold and has not completed lately: it never reached the bridge and goes back to its
queue, or in a handoff stays held as without a terminal DONE (R134, R525). -/
def State.unknownOp (s : State) (n tag : Nat) (o : Op) : State :=
  if (s.blk (blockOfLane n)).handoff.any fun x => x.1 == n then s else s.unsend (dieKey n o.die) tag o

/-- SYNC answered: operations on dies that had no SYNC_REPORT are unknown to the bridge (R134). A relay handoff of the lane is complete when the
spare has reconciled (R135, R525 step 8); with the block's marshal out it is held until the restart (R529). -/
def State.syncDone (s : State) (n : Nat) : State :=
  let b := blockOfLane n
  let l := s.lane n
  let s := s.updLane n fun l => { l with syncing := false }
  let s := s.each ((s.laneOps n).filter fun p => !l.synced.contains p.2.die) fun p s => s.unknownOp n p.1 p.2
  match (s.blk b).handoff with
  | some (m, t0) =>
    if m ≠ n ∨ (s.blk b).marshalOut then s
    else
      let old := 17 * b + n % 16
      let new := 17 * b + 16
      let s := (s.updBlk b fun k => { k with handoff := none, spareLane := n % 16 }).updLane n fun l => { l with spare := true }
      let s := s.onFlt fun f => { f with handoffs := satAdd 8 f.handoffs 1 }
      (s.raisePort 0x030C n old new l.syncOps).raise 0x0F01 (srcBlockCollector b) n old new (usSince s.now t0)
  | none => s

/-- The result says that a request was malformed or named an absent die (R132). -/
def isRefusal : DoneResult → Bool
  | .badRequest | .dieAbsent => true
  | _ => false

/-- A DONE for a tag above those of die operations (R126, R132, R134, R138): 240 is SYNC's, 241 PARK's, and the rest are of configuration
writes, whose end frees the tag (log entry 17). A tag that is not in use is no request's. -/
def State.controlDone (s : State) (n tag : Nat) (r : DoneResult) : State :=
  match Tbl.look none (s.lane n).ctl tag with
  | none => s
  | some c =>
    if isRefusal r then (s.ctlEnd n tag).protocolError n 0x81 1 0x81
    else
      let s := s.ctlEnd n tag
      match c with
      | .sync => if (s.lane n).syncing then s.syncDone n else s
      | .park => match (s.lane n).parking with
        | some reason => s.parked n reason
        | none => s
      | .read _ _ | .write _ _ => s

/-- BRIDGE_DONE (R126). The bytes moved are the bridge's count and change nothing. -/
def execBridgeDone (lane tag : Nat) (result : DoneResult) (status busy moved : Nat) (s : State) :
    Host.Outcome State Fault Refusal :=
  let _ := moved
  .next (
    if (s.lane lane).st ≠ .active then s
    else if tag < 240 then s.opResult lane tag result status busy else s.controlDone lane tag result)

/-- The result a code of SYNC_REPORT stands for. -/
def resultOfCode (c : Nat) : DoneResult :=
  match c with
  | 0 => .ok
  | 1 => .statusFail
  | 3 => .aborted
  | 6 => .badRequest
  | 7 => .dieAbsent
  | 8 => .lateReady
  | _ => .resetDone

/-- The data of a cut data-out phase read from the page register again by a new sequence under a tag of its own; the old tag stays in use until its
terminal completion (R126, R134; log entry 178). -/
def State.readAgain (s : State) (n tag : Nat) (o : Op) : State :=
  match s.freeTag n with
  | none => s
  | some new =>
    let k := dieKey n o.die
    let s := (s.setOp (opKey n tag) (some { o with failed := true })).setOp (opKey n new) (some { o with sentAt := s.now })
    (s.updDie k fun d => { d with reading := some new }).postMsgs n (chainUp (columnSeqs o.die new (planeReads o.entries)))

/-- What SYNC_REPORT says of one operation in flight (R134, R135): held operations stay, with the state reported; a cut data-out
phase is read again from the page register; a completion that was lost with a retry buffer is taken now. -/
def State.reconcile (s : State) (n tag : Nat) (o : Op) (held recent : List (Nat × Nat)) : State :=
  let k := dieKey n o.die
  match held.find? fun h => h.1 == tag, recent.find? fun h => h.1 == tag with
  | some h, _ =>
    if h.2 = 4 then (if o.failed then s else s.readAgain n tag o)
    else if h.2 = 3 ∧ !o.suspended then s.opSuspended k tag o
    else if h.2 = 2 ∧ o.suspended ∧ (s.die k).resuming then s.opResumed k tag o
    else s
  | none, some h => s.opResult n tag (resultOfCode h.2) 0 0
  | none, none => s.unknownOp n tag o

/-- BRIDGE_SYNC_REPORT (R134). A held operation that no shadow entry knows is answered with ABORT (R525). -/
def execBridgeSyncReport (lane die : Nat) (held recent : List (Nat × Nat)) (s : State) : Host.Outcome State Fault Refusal :=
  .next (
    if (s.lane lane).st ≠ .active || !(s.lane lane).syncing then s
    else
      let s := s.updLane lane fun l => { l with synced := l.synced ++ [die], syncOps := l.syncOps + held.length }
      let known := fun (h : Nat × Nat) => (s.opAt (opKey lane h.1)).isSome
      let s := s.each ((s.laneOps lane).filter fun p => p.2.die == die) fun p s => s.reconcile lane p.1 p.2 held recent
      s.each (held.filter fun h => !known h) fun h s => s.postMsgs lane [.abort die h.1])

/-- SUSPEND_LATE: the die has not reported suspended in TSUSP + POLL_INTERVAL; its waiting Dash reads are busy (R153). -/
def execSuspendLate (lane die : Nat) (s : State) : Host.Outcome State Fault Refusal :=
  let k := dieKey lane die
  let d := s.die k
  .next (
    if d.suspendAt.isNone || d.suspendLate then s
    else
      let s := (s.setDie k { d with suspendLate := true }).noteFailure (srcDieQueue (s.cellOf lane)) (s.ctxsOnDie lane die)
      let held := (d.reading.bind fun t => s.opAt (opKey lane t)).map fun o => o.entries
      s.each ((held.getD [] ++ d.queue).filter fun e => e.kind.isRead && e.cls == .dash) fun e s =>
        (s.tellBusy k e.ctx .dash).aroundEntry e .reactive)

/-- The bridge timer an operation runs under (*Bridge timer use*). -/
def OpKind.timer : OpKind → Nat
  | .read | .patrol | .copyRead | .gcRead => 0
  | .coarse | .fine | .slc | .checkpoint => 1
  | .erase => 2
  | .features | .paramPage => 3

/-- LANE_OP_TIMEOUT: no terminal DONE by the lane-op timeout (R152, R167). A read is reported failed, and one that reported
TIMEOUT is aborted; programs and erases are held until SYNC shows their state, and their batons return (R394). -/
def execLaneOpTimeout (lane tag : Nat) (s : State) : Host.Outcome State Fault Refusal :=
  .next (
    match s.opAt (opKey lane tag) with
    | none => s
    | some o =>
      let k := dieKey lane o.die
      let s := (s.raiseDie 0x040C lane o.die tag 0x01 o.entry.kind.timer).noteFailure (srcDieQueue (s.cellOf lane))
        (s.ctxsOnDie lane o.die)
      if o.entry.kind.isRead then
        if o.timedOut then (s.raiseDie 0x0405 lane o.die tag o.busy 0).sendAbort k tag o 0x0405
        else
          let s := s.setOp (opKey lane tag) (some { o with failed := true })
          if o.failed then s else s.each o.entries fun e s => s.readFailed k e
      else match o.entry.kind with
        | .coarse | .fine => s.returnBaton (.program lane o.die)
        | .erase => s.returnBaton (.erase lane o.die)
        | _ => s)

end Sys2Proof.Machine
end

