-- ==== Sys2Proof/Machine/Admission.lean ====
section
/-! DEFINITION. The timekeeper's admission: bound sets and bounds, token buckets, the projected lacks of reads and writes, read-
around plans, bookings, and declines with their try-after (R207-R228, R371, R572). -/

namespace Sys2Proof.Machine

/-- A time in ps until something passes; none = no projected end (R219). -/
abbrev Lack := Option Nat

/-- Both must pass. -/
def Lack.both (a b : Lack) : Lack :=
  match a, b with
  | some x, some y => some (max x y)
  | _, _ => none

/-- Either may pass. -/
def Lack.either (a b : Lack) : Lack :=
  match a, b with
  | some x, some y => some (min x y)
  | some x, none | none, some x => some x
  | none, none => none

/-- It passes now. -/
def Lack.passes (a : Lack) : Bool := a == some 0

/-- The try-after of a lack: a whole µs, rounded up; 1,000,000 without a projected end (R219). -/
def Lack.tryUs (a : Lack) : Nat :=
  match a with
  | some x => ceilDiv x 1000000
  | none => longestWaitUs

/-- The payload rate that the bound sets take: the slowest PCIe link up; a x16 link at 64 GT/s in FLIT mode while none is (R224). -/
def State.boundLink (s : State) : Nat × Nat :=
  let rate := fun (l : PcieLink) => pcieRate (rateOfCode l.rate) l.width l.flit
  match [s.link 0, s.link 1].filter (·.up) with
  | [] => pcieRate 640 16 true
  | [l] => rate l
  | l :: m :: _ => if (rate l).1 * (rate m).2 ≤ (rate m).1 * (rate l).2 then rate l else rate m

/-- The configured inputs of the bound sets (R222). -/
def State.boundInputs (s : State) : BoundInputs :=
  { trPart := s.trPart, trFull := s.trFull, poll := s.largestPoll,
    retryTempo := s.cfg .chipDieRetry 0 19 16, retryDist := s.cfg .chipDieRetry 0 23 20,
    softTempo := s.cfgBit .chipDieRetry 0 15, softDist := s.cfgBit .chipDieRetry 0 14,
    tempoWin := s.cfg .tmkWindow 0 15 0, distWin := s.cfg .tmkWindow 0 31 16,
    pcieRd := s.cfg .tmkHostCfg 0 15 0, netRd := s.cfg .tmkHostCfg 0 31 16, link := s.boundLink }

/-- TMK_BAND_CFG.DERATE of the five bands, percent; values above 20 act as 20. -/
def State.derates (s : State) : List Nat := (List.range 5).map fun b => min 20 (s.cfg .tmkBandCfg b 4 0)

/-- The bound sets of the five bands (R222, R223). -/
def State.computeSets (s : State) : List BoundSet :=
  (List.range 5).map fun b => boundSetFor s.boundInputs (derateOver s.derates b 1)

/-- The bound set in force. -/
def State.boundSet (s : State) : Option BoundSet := if s.tmk.inForce then s.tmk.sets[s.tmk.band]? else none

/-- The configuration with every pending write that waits for the bound sets applied: the sets are computed for it (R222). -/
def State.withPendingBounds (s : State) : State :=
  s.each (s.regs.live.filter (·.bound)) fun w s =>
    s.setCfgAt w.offset (mergeWord ((Tbl.look none s.regs.cfg w.offset).getD (resetWord w.offset)) w.mask w.value)

/-- Event 0x0D01 (R222, R237). -/
def State.raiseComputed (s : State) (sets : List BoundSet) : State :=
  match sets[s.aon.band]? with
  | none => s
  | some b => s.raise 0x0D01 srcTimekeeper s.aon.band b.dashRdPcie b.tempoPcie b.distPcie

/-- An input of the bound sets changed: they are computed again (R222). -/
def State.recompute (s : State) : State :=
  if s.tmk.inForce then s.onTmk fun k => { k with computing := true, next := none } else s

/-- BOUND_SET_COMPUTE_DONE: the computation ends; its sets apply at the next quiet point (R222). -/
def execBoundSetComputeDone (s : State) : Host.Outcome State Fault Refusal :=
  .next (
    if s.running && s.tmk.computing then
      let sets := s.withPendingBounds.computeSets
      (s.onTmk fun k => { k with computing := false, next := some sets }).raiseComputed sets
    else s)

/-- Bounds are in force for a command of a tenant (R210). -/
def State.boundsHold (s : State) (tenant : Nat) : Bool :=
  (s.tenant tenant).ready && s.tmk.inForce &&
  (s.power.mode == .stride || s.power.mode == .sprint || s.power.mode == .warmup)

/-- The bound of a command in µs: u units touched, v of them on one die; twice the class bound plus 4 × E for a Packed Read, and
with 4 × E for a Packed Append (R209, R223, R225, R263). A Distance bound above 64 ms is computed again with the derates that its
length can see. -/
def State.boundUs (s : State) (x : BoundSet) (cls : Cls) (rdma write : Bool) (u v : Nat) : Nat :=
  match cls with
  | .dash => if write then (if rdma then x.dashWrRdma else x.dashWrPcie) else if rdma then x.dashRdRdma else x.dashRdPcie
  | .tempo => extendedBoundUs (if rdma then x.tempoRdma else x.tempoPcie) 100 u v
  | .distance =>
    let b := extendedBoundUs (if rdma then x.distRdma else x.distPcie) 1000 u v
    if b ≤ 64000 then b
    else extendedBoundUs ((distReadSum s.boundInputs rdma (derateOver s.derates s.tmk.band (ceilDiv b 64000))).roundUpUs 1000) 1000 u v
  | .none => 0

/-- The deadline of a command admitted now, ns: none while bounds are not in force for it. -/
def State.deadlineFor (s : State) (tenant : Nat) (cls : Cls) (rdma write : Bool) (u v : Nat) : Option Nat :=
  match s.boundSet, cls with
  | _, .none => none
  | none, _ => none
  | some x, c => if s.boundsHold tenant then some (s.now + 1000 * s.boundUs x c rdma write u v) else none

/-- The Dash bucket brought up to now: RATE tokens per ms, up to BURST (R208). -/
def State.accrueDash (s : State) (t : Nat) : State :=
  let x := s.tenant t
  let rate := s.cfg .tntDash t 31 16
  let burst := s.cfg .tntDash t 15 0
  let n := (s.now - x.dashAt) * rate / 1000000
  if rate = 0 ∨ burst ≤ x.dashTokens then s.setTenant t { x with dashAt := s.now }
  else if n = 0 then s
  else s.setTenant t { x with dashTokens := min burst (x.dashTokens + n), dashAt := x.dashAt + n * 1000000 / rate }

/-- The lack of read-around tokens for `need` frames: with RATE 0 none is planned (R189, R217, TNT_RA). -/
def State.tokenLack (s : State) (t need : Nat) : Lack :=
  let level := (s.raNow t).1
  let rate := s.cfg .tntRa t 31 16
  if rate = 0 then none
  else if (need : Int) ≤ level then some 0
  else some (max 1 (1000 * ((s.raNow t).2 + ceilDiv (((need : Int) - level).toNat * 16000000) rate - s.now)))

/-- Admission step 1 for a Dash command: DASH_EN of the band, and a token (R208, R213). -/
def State.dashLack (s : State) (t : Nat) : Lack :=
  let rate := s.cfg .tntDash t 31 16
  if s.cfgBit .tmkBandCfg s.aon.band 31 = false then none
  else if 0 < (s.tenant t).dashTokens then some 0
  else if rate = 0 then none
  else some (max 1 (1000 * ((s.tenant t).dashAt + ceilDiv 1000000 rate - s.now)))

/-- The window of a rebuild's sources, ps (R217). -/
def State.sourceWindow (s : State) (cls : Cls) : Nat := s.startWindow cls - if cls = .dash then 3953600 else 0

/-- *Wait allowances*, ps: decoder, cipher engine, parity engine. -/
def decoderAllowance : Cls → Nat
  | .dash => 9216000
  | .tempo => 36864000
  | .distance | .none => 184320000
def cipherAllowance : Cls → Nat
  | .dash => 1536000
  | .tempo => 5120000
  | .distance | .none => 51200000
def parityAllowance : Cls → Nat
  | .dash => 1971200
  | .tempo => 19712000
  | .distance | .none => 197120000

/-- The lack at a unit busy until `busy` against an allowance. -/
def State.busyLack (s : State) (busy allowance : Nat) : Lack := some (busy - s.nowPs - allowance)

/-- The lack at the cipher engine that serves a block; commands that need lanes whose engines are both out have no projected end
(R268). -/
def State.cipherLack (s : State) (b : Nat) (cls : Cls) : Lack :=
  if s.cipherShort b then none
  else match s.engineOf b with
    | none => none
    | some e => s.busyLack (s.blk e).cipBusy (cipherAllowance cls)

/-- Dash and Tempo reads are not admitted directly where fewer units are in service than the bound sets assume (R216). -/
def fastClass (cls : Cls) : Bool := cls == .dash || cls == .tempo

/-- The lack at a block's decoders (R215, R216). -/
def State.decoderLack (s : State) (b : Nat) (cls : Cls) : Lack :=
  if fastClass cls && countBits (s.blk b).decIn 4 < 3 then none else s.busyLack (s.blk b).decBusy (decoderAllowance cls)

/-- The lack of a place in a die queue of 48 entries: the first booked end of an entry (R145, R230). -/
def State.queueLack (s : State) (k : Nat) : Lack :=
  if s.queueRoom k then some 0
  else match (s.die k).cal.map (·.stop) with
    | [] => none
    | t :: ts => some (max 1 (ts.foldl min t - s.nowPs))

/-- The lack of a direct read of a die: steps 2 and 3 of *Admission*. -/
def State.directLack (s : State) (k : Nat) (cls : Cls) : Lack :=
  let b := blockOfLane (k / 8)
  ((Lack.both (some (s.startDelayPs k cls - s.startWindow cls)) (s.queueLack k)).both (s.decoderLack b cls)).both (s.cipherLack b cls)

/-- The lack of one source of a rebuild (R217, R572). -/
def State.sourceLack (s : State) (z : Zone) (pos row : Nat) (cls : Cls) : Lack :=
  match s.memberAt z pos with
  | none => none
  | some k => if s.sourceService z pos row = .direct then Lack.both (some (s.startDelayPs k cls - s.sourceWindow cls)) (s.queueLack k) else none

/-- The two largest of a list of lacks. -/
def worstTwo (l : List Lack) : Lack × Lack :=
  l.foldl (fun (w : Lack × Lack) x => (w.1.both x, w.2.both (w.1.either x))) (some 0, some 0)

/-- The lack of a read-around plan of a frame: of the other data members and P at most one projects a late start, and Q then does
not; parity and cipher calendars pass (R217). -/
def State.planLack (s : State) (z : Zone) (pos row block : Nat) (cls : Cls) : Lack :=
  let (w1, w2) := worstTwo ((sourcesOf z.rot pos).map fun p => s.sourceLack z p row cls)
  let q := qPosition z.rot
  let sources := w1.either (w2.both (if q = pos then none else s.sourceLack z q row cls))
  let parity := if fastClass cls && countBits s.cph.parityIn 8 < 3 then none
    else s.busyLack s.tmk.parityBusy (parityAllowance cls)
  (sources.both parity).both (s.cipherLack block cls)

/-- Row of a zone that is dirty in staging. -/
def State.stagedRow (s : State) (zk row : Nat) : Option Row := s.work.rows.find? fun r => r.zk == zk && r.row == row

/-- An LBA is staged (R188). -/
def State.isStaged (s : State) (zk off : Nat) : Bool :=
  (s.stagedRow zk (rowOf off)).any fun r => r.staged.getLsbD (off % 256)

/-- An accepted LBA that is on its way to staging. -/
def State.onItsWay (s : State) (zk off : Nat) : Bool :=
  (s.zone zk).writing.any fun c => (s.ctxAt c).any fun x => x.places.contains (some (zk, off)) && x.phase != .done

/-- How a frame that is not staged is served: its die directly, or a read-around (R168, R186, R201, R572). -/
def State.frameService (s : State) (zk off : Nat) : Service :=
  let z := s.zone zk
  let pos := posOfOffset z off
  match s.serviceOf (s.memberAt z pos) with
  | .direct => if z.programmed pos (rowOf off) then .direct
    else if (s.memberDie z pos).isNone then .degraded else .reactive
  | v => v

/-- The die queue entries of a read: one for each run of its frames on one page of one plane (R64, R148). -/
def readEntries (s : State) (c : Nat) (cls : Cls) (places : List (Nat × Nat)) : List QEntry :=
  (places.foldl (fun (acc : List QEntry) p =>
    let z := s.zone p.1
    let pos := posOfOffset z p.2
    let e : QEntry := { id := 0, kind := .read, cls := cls, ctx := c, zk := p.1, off := p.2, pos := pos,
                        block := blockOfRow z pos (rowOf p.2), page := rowOf p.2 }
    match acc with
    | x :: rest => if x.zk = p.1 ∧ x.off + x.frames = p.2 ∧ x.off / 4 = p.2 / 4 then { x with frames := x.frames + 1 } :: rest
                   else e :: acc
    | [] => [e]) []).reverse

/-- What admission decides for a read: the entries sent to dies, and the entries rebuilt with their charge and whether tenant
tokens were taken. -/
structure ReadPlan where
  direct : List QEntry := []
  around : List (QEntry × Service) := []
  tokens : Nat := 0
  lack : Lack := some 0
  deriving DecidableEq, Repr

/-- Steps 2 to 4 of *Admission* for one entry (R213, R217, R572). -/
def State.planEntry (s : State) (tenant : Nat) (p : ReadPlan) (e : QEntry) : ReadPlan :=
  let z := s.zone e.zk
  match s.frameService e.zk e.off, s.memberAt z e.pos with
  | .direct, some k =>
    let d := s.directLack k e.cls
    if d.passes then { p with direct := p.direct ++ [e] }
    else if fastClass e.cls then
      let a := (s.planLack z e.pos (rowOf e.off) (blockOfLane (k / 8)) e.cls).both (s.tokenLack tenant (p.tokens + e.frames))
      if a.passes then { p with around := p.around ++ [(e, .direct)], tokens := p.tokens + e.frames }
      else { p with lack := p.lack.both (d.either a) }
    else { p with lack := p.lack.both d }
  | v, _ =>
    let a := s.planLack z e.pos (rowOf e.off) (s.blockOfMember z e.pos) e.cls
    if a.passes then { p with around := p.around ++ [(e, v)] } else { p with lack := p.lack.both a }

/-- The plan of a read's entries. -/
def State.planRead (s : State) (tenant : Nat) (es : List QEntry) : ReadPlan := es.foldl (s.planEntry tenant) {}

/-- The steward that dispatches a queue: even queues steward 0, odd steward 1 of the home region; its partner when it is out (R35). -/
def State.stewardOf (s : State) (g i : Nat) : Nat := if hasBit (s.rgn g).stewards (i % 2) then i % 2 else 1 - i % 2

/-- The lack at a steward's calendar: 480 ns of queue (R215). -/
def State.stewardLack (s : State) (g i : Nat) : Lack :=
  s.busyLack (if s.stewardOf g i = 0 then (s.rgn g).busy0 else (s.rgn g).busy1) 480000

/-- 40 beats booked on a steward (R212). -/
def State.bookSteward (s : State) (g i : Nat) : State :=
  if s.stewardOf g i = 0 then s.updRgn g fun r => { r with busy0 := max s.nowPs r.busy0 + 32000 }
  else s.updRgn g fun r => { r with busy1 := max s.nowPs r.busy1 + 32000 }

/-- The home region and the steward index of a command's queue (R35, R366). -/
def State.homeOf (s : State) (h : Hdr) : Nat × Nat := ((s.sq (queueKey h.ctrl h.sqid)).region, h.sqid % 2)

/-- The command came over RDMA (R207, R224). -/
def State.overRdma (s : State) (h : Hdr) : Bool := (s.sq (queueKey h.ctrl h.sqid)).conn.isSome

/-- Units booked on the engine that serves a block (R212). -/
def State.bookCipher (s : State) (b n : Nat) : State :=
  match s.engineOf b with
  | none => s
  | some e => s.updBlk e fun k => { k with cipBusy := max s.nowPs k.cipBusy + n * 512000 }

/-- The entries of an admitted read sent: direct ones to their pacers, the others rebuilt, planned ones for the tokens taken and together with
their target read (R188, R189, R213 step 5, R572). -/
def State.dispatchRead (s : State) (tenant : Nat) (p : ReadPlan) : State :=
  let s := if p.tokens = 0 then s else (s.accrueRa tenant).updTenant tenant fun t => { t with raLevel := t.raLevel - p.tokens }
  let s := s.each p.direct fun e s =>
    let z := s.zone e.zk
    match s.memberAt z e.pos with
    | none => s
    | some k => ((s.bookDecode (blockOfLane (k / 8)) e.frames).bookCipher (blockOfLane (k / 8)) e.frames).sendRead k e
  s.each p.around fun w s =>
    let e := w.1
    let z := s.zone e.zk
    let s := (s.bookParity e.frames).bookCipher (s.blockOfMember z e.pos) e.frames
    let s := match w.2, s.memberAt z e.pos with
      | .direct, some k => if s.queueRoom k then (s.bookDecode (blockOfLane (k / 8)) e.frames).enqueueRead k e else s
      | _, _ => s
    s.each ((List.range e.frames).map fun i => e.off + i) fun o s =>
      (s.startRebuild e.ctx e.cls tenant e.zk o e.pos w.2).giveUpFrame e.ctx e.zk o

/-- The id of a fine pass queued or running for a member's word line. -/
def State.fineEntry (s : State) (k zk pos w : Nat) : Option Nat :=
  let mine := fun (e : QEntry) => e.kind == .fine && e.zk == zk && e.pos == pos && e.page == w
  match (s.die k).queue.find? mine with
  | some e => some e.id
  | none => (s.heavyOp k).bind fun o => if mine o.entry then some o.entry.id else none

/-- The booked end of an entry on a die, ps. -/
def State.bookedEnd (s : State) (k id : Nat) : Option Nat := ((s.die k).cal.find? fun b => b.entry == id).map (·.stop)

/-- The booked ends of a row's outstanding fine passes, by member position. -/
def State.fineEnds (s : State) (r : Row) : List (Option Nat) :=
  let z := s.zone r.zk
  (List.range 18).filterMap fun p =>
    match s.memberAt z p with
    | none => none
    | some k => if r.fineDone.contains p then none else some ((s.fineEntry k r.zk p (r.row / 4)).bind (s.bookedEnd k))

/-- The time at which the fine passes booked now release a row, ps (R155, R219). -/
def State.rowRelease (s : State) (r : Row) : Option Nat :=
  (s.fineEnds r).foldl (fun (a : Option Nat) x => match a, x with
    | some m, some t => some (max m t)
    | _, _ => none) (some 0)

/-- The time until booked fine passes release `need` of the rows' bytes, each row counted at `size`; the latest booked fine pass of
a staged row when they cannot; none when none is booked (R219). -/
def State.releaseLack (s : State) (size : Row → Nat) (need : Nat) : Lack :=
  if need = 0 then some 0
  else
    let rows := (s.work.rows.filterMap fun r => (s.rowRelease r).map fun t => (t, size r)).mergeSort fun a b => a.1 ≤ b.1
    let hit := rows.foldl (fun (w : Nat × Option Nat) x =>
      match w.2 with
      | some _ => w
      | none => if need ≤ w.1 + x.2 then (w.1 + x.2, some x.1) else (w.1 + x.2, none)) (0, none)
    match hit.2 with
    | some t => some (max 1 (t - s.nowPs))
    | none =>
      match (s.work.rows.flatMap s.fineEnds).filterMap fun x => x with
      | [] => none
      | ends => some (max 1 (ends.foldl max 0 - s.nowPs))

/-- Bytes of a row that lie in a block's staging slice: the units of members whose lanes the block owns (R51). -/
def State.rowInBlock (s : State) (b : Nat) (r : Row) : Nat :=
  let z := s.zone r.zk
  (List.range 18).foldl (fun n p =>
    if s.blockOfMember z p ≠ b then n
    else match dataAt z.rot p with
      | some i => n + 4096 * countBits (r.staged.extractLsb' (16 * i) 16) 16
      | none => if r.quarters = 0 then n else n + 65536) 0

/-- Bytes that an admitted write has booked in staging and not staged yet (R212): its LBAs, or NG + 2 LBAs for a Packed Append whose
granules no parcel holds yet (R250). -/
def Ctx.bookedBytes (x : Ctx) : Nat :=
  match x.kind, x.phase with
  | _, .held | _, .done => 0
  | .write, _ | .append, _ | .writeZeroes, _ | .parcel, _ => 4096 * x.places.length
  | .packedAppend, _ => if x.placed then 0 else 4096 * (x.granules + 1)
  | .copy, _ => 4096 * x.dest.length
  | _, _ => 0

/-- Bytes booked in staging by admitted writes, of one tenant or of all. -/
def State.bookedBytes (s : State) (p : Ctx → Bool) : Nat :=
  Tbl.sum (fun o => (o.map fun x => if p x then x.bookedBytes else 0).getD 0) s.work.ctxs

/-- Bytes booked in a block's slice by admitted writes whose LBAs have their place. -/
def State.bookedIn (s : State) (b : Nat) : Nat :=
  Tbl.sum (fun o => (o.map fun (x : Ctx) => if x.bookedBytes = 0 then 0
    else 4096 * ((x.places.filterMap fun p => p).filter fun p => s.blockOfMember (s.zone p.1) (posOfOffset (s.zone p.1) p.2) == b).length).getD 0)
    s.work.ctxs

/-- Bytes of a slice in use or booked: its own units and the mirror of its partner's (R51, R212). -/
def State.sliceUse (s : State) (b : Nat) : Nat :=
  s.work.rows.foldl (fun n r => n + s.rowInBlock b r + s.rowInBlock (partnerBlock b) r) (s.bookedIn b + s.bookedIn (partnerBlock b))

/-- Bytes of a slice: 2 MiB less the rows withheld at self-test, 16 buffers of 4 KiB to each (R463, R468). -/
def State.sliceSize (s : State) (b : Nat) : Nat := 2097152 - 65536 * (s.blk b).withheld

/-- The class limit of D_max, bytes (R218). -/
def State.dirtyLimit (s : State) (cls : Cls) : Nat :=
  let d := s.bank.dmax * 1024
  match cls with
  | .dash | .none => d
  | .tempo => d * min 100 (s.cfg .tmkWriteCfg 0 23 16) / 100
  | .distance => d * min 100 (s.cfg .tmkWriteCfg 0 15 8) / 100

/-- Dirty and booked bytes and open-parcel charges of a tenant (R371). -/
def State.stagingUse (s : State) (t : Nat) : Nat := s.dirtyOf t + s.bookedBytes (fun x => x.tenant == t) + (s.tenant t).charge

/-- The slots that hold a tenant. -/
def State.heldSlots (s : State) : List Nat := Tbl.numbers (fun t => t.st != .free || t.creating) s.tenants

/-- A tenant's guaranteed part of the staging, bytes: its floor, shrunk with D_max (R371). -/
def State.stagingOwn (s : State) (t : Nat) : Nat :=
  let fsum := s.heldSlots.foldl (fun n u => n + (s.tenant u).lim.stgFloor * 65536) 0
  let d := s.bank.dmax * 1024
  let f := (s.tenant t).lim.stgFloor * 65536
  if fsum ≤ d then f else f * d / fsum

/-- The bytes by which a write fails the staging-share test (R371). -/
def State.shareExcess (s : State) (t bytes : Nat) : Nat :=
  let l := (s.tenant t).lim
  let use := s.stagingUse t
  let fsum := s.heldSlots.foldl (fun n u => n + (s.tenant u).lim.stgFloor * 65536) 0
  let d := s.bank.dmax * 1024
  let own := s.stagingOwn t
  let excess := s.heldSlots.foldl (fun n u => n + (s.stagingUse u - s.stagingOwn u)) 0
  if (l.stgFloor + l.stgShare) * 65536 < use + bytes then use + bytes - (l.stgFloor + l.stgShare) * 65536
  else if use + bytes ≤ own then 0
  else excess + (use + bytes - max use own) - (d - min fsum d)

/-- The lack of a write's staging: both slices of each block it touches, the tenant's share, the class limit of D_max (R218,
R219). `need` lists blocks with the bytes they take. -/
def State.stagingLack (s : State) (t : Nat) (cls : Cls) (bytes : Nat) (need : List (Nat × Nat)) : Lack :=
  let room := need.foldl (fun (a : Lack) n =>
    [n.1, partnerBlock n.1].foldl (fun a b =>
      a.both (s.releaseLack (fun r => s.rowInBlock b r + s.rowInBlock (partnerBlock b) r)
        (s.sliceUse b + n.2 - s.sliceSize b))) a) (some 0)
  let share := s.releaseLack (fun r => if r.tenant = t then r.dirtyBytes else 0) (s.shareExcess t bytes)
  let dirty := s.releaseLack Row.dirtyBytes (s.dirtyBytes + s.bookedBytes (fun _ => true) + bytes - s.dirtyLimit cls)
  (room.both share).both dirty

/-- The booked end of the last read of a die block, ps. -/
def State.lastReadOf (s : State) (k block : Nat) : Nat :=
  let ops := s.work.ops.flatMap fun p => if p.1 / 256 = k / 8 then (p.2.map fun o => if o.die = k % 8 then o.entries else []).getD [] else []
  (((s.die k).queue ++ ops).filter fun e => e.kind.isRead && e.block == block).foldl (fun m e => max m (s.nowPs + s.bookedLeft k e.id)) s.nowPs

/-- The lack of an erased die block on a member: the projected end of its earliest erase, running, queued or waiting for the last
read of its die block (R78). -/
def State.eraseLack (s : State) (k : Nat) : Lack :=
  if 0 < s.freeBlocks k then some 0
  else
    let d := s.die k
    let ids := (d.queue.filter fun e => e.kind == .erase).map (·.id) ++
      ((s.heavyOp k).toList.filter fun o => o.entry.kind == .erase).map fun o => o.entry.id
    let booked := ids.filterMap (s.bookedEnd k)
    let waiting := d.eraseQueue.map fun b => s.lastReadOf k b + s.tmk.batonWait * 1000000 + s.heavyUs (k / 8) .erase * 1000000
    match booked ++ waiting with
    | [] => none
    | t :: ts => some (max 1 (ts.foldl min t - s.nowPs))

/-- The lack of die blocks on every member of a set for an activation (R78). -/
def State.activationLack (s : State) (set : Nat) : Lack :=
  (s.stripe set).members.foldl (fun (a : Lack) m => match m with
    | none => a
    | some k => a.both (s.eraseLack k)) (some 0)

/-- A command that fails admission is declined, or held in compatibility mode (R219, R380); its context then waits. -/
def State.declineOrHold (s : State) (x : Ctx) (lack : Lack) : State :=
  if (s.tenant x.tenant).compat then
    let (c, s) := s.openCtx { x with phase := .held, heldAt := s.now, deadline := none }
    s.updTenant x.tenant fun t => { t with heldCmds := t.heldCmds ++ [c] }
  else s.decline x.hdr x.tenant x.cls lack.tryUs

/-- *Bound Report data* (R228). -/
def State.boundReport (s : State) (t : Nat) : List FieldVal :=
  let x := s.tenant t
  let sets := (List.range 5).flatMap fun b =>
    match s.tmk.sets[b]? with
    | none => [⟨8 + 32 * b + 25, 1, bit (s.cfgBit .tmkBandCfg b 31)⟩]
    | some k =>
      let o := 8 + 32 * b
      [⟨o, 2, k.dashRdPcie⟩, ⟨o + 2, 2, k.dashRdRdma⟩, ⟨o + 4, 2, k.dashWrPcie⟩, ⟨o + 6, 2, k.dashWrRdma⟩,
       ⟨o + 8, 4, k.tempoPcie⟩, ⟨o + 12, 4, k.tempoRdma⟩, ⟨o + 16, 4, k.distPcie⟩, ⟨o + 20, 4, k.distRdma⟩,
       ⟨o + 24, 1, k.derate⟩, ⟨o + 25, 1, bit (s.cfgBit .tmkBandCfg b 31)⟩]
  [⟨0, 1, s.tmk.band⟩, ⟨1, 1, bit s.tmk.inForce + 2 * bit (s.cfgBit .tmkBandCfg s.tmk.band 31)⟩, ⟨2, 2, t⟩] ++ sets ++
  [⟨168, 4, x.excused⟩, ⟨172, 4, x.unexcused⟩, ⟨176, 4, x.declines⟩, ⟨180, 4, x.worstLate⟩]

/-- The admin gate of Bound Report: any tenant and the management controller, in every mode and during holds (R228, R314). -/
def ruleBoundReport : AdminRule := ⟨true, true, true, true, true, false⟩

/-- BOUND_REPORT (R228). -/
def execBoundReport (h : Hdr) (selTenant : Bool) (tenant : Nat) (clear : Bool) (s : State) : Host.Outcome State Fault Refusal :=
  .next (s.admin ruleBoundReport h fun s =>
    let own := if h.mc then 0 else s.tenantOf h.ctrl
    if (selTenant || clear) && !h.mc && own != 0 then s.complete h .invalidField
    else
      let t := if selTenant then tenant % 256 else own
      let data := s.boundReport t
      let s := if clear then s.updTenant t fun x => { x with excused := 0, unexcused := 0, declines := 0, worstLate := 0 } else s
      s.completeWith h .success 0 0 data)

end Sys2Proof.Machine
end

