-- ==== Sys2Proof/Machine/Seeds.lean ====
section
/-! DEFINITION. The seed record of the boot store: its entries, the two copies with their sectors, and what a Warm-up finds in them
(R275, R276, R285, R287, R476, R478). -/

namespace Sys2Proof.Machine

/-- The bytes 0 to 59 of a namespace's seed entry (*Seed entry*). -/
def seedBody (nsid : Nat) (n : Ns) : List Nat :=
  leBytes 4 nsid ++ leBytes 2 n.tenant ++ leBytes 2 n.slot ++ leBytes 4 n.gen ++ leBytes 4 1 ++ leBytes 32 n.nonce ++ leBytes 12 0

/-- A cell as the die stores it: every byte inverted (R478). -/
def inverted (w : BitVec 512) : BitVec 512 := ~~~w

/-- The seed entry of a namespace, VALID, with its ECRC (R275). -/
def seedEntry (nsid : Nat) (n : Ns) : BitVec 512 := BitVec.ofNat 512 (ofBytes (seedBody nsid n ++ leBytes 4 (crc32 (seedBody nsid n))))

/-- The field of `len` bytes at byte `off` of an entry. -/
def seedField (w : BitVec 512) (off len : Nat) : Nat := w.toNat / 256 ^ off % 256 ^ len

/-- The entry carries VALID and its ECRC holds. -/
def seedGood (w : BitVec 512) : Bool := seedField w 12 4 % 2 == 1 && crc32 (leBytes 60 w.toNat) == seedField w 60 4

/-- A spent entry: its 64 bytes are logical 0xFF (R478). -/
def seedSpent (w : BitVec 512) : Bool := w == BitVec.allOnes 512

/-- The entry carries REVOKED. -/
def seedRevoked (w : BitVec 512) : Bool := !seedSpent w && seedField w 12 4 / 2 % 2 == 1

/-- Entries of 64 bytes that a sector of 256 KiB holds. -/
def seedCells : Nat := 4096

/-- The entries of a copy in the order of their programming, as they read; a copy that lost a sector has none (R476). -/
def SeedCopy.entries (c : SeedCopy) : List (BitVec 512) := if c.lost then [] else c.cells.map inverted

/-- The live entries compacted into the next erased sector; the old sector is erased (R478). -/
def SeedCopy.compact (c : SeedCopy) : SeedCopy :=
  { c with sector := (c.sector + 1) % 4, cells := c.cells.filter fun x => !seedSpent (inverted x) }

/-- An entry programmed in the next cell of the current sector, which is compacted first when full. -/
def SeedCopy.append (c : SeedCopy) (w : BitVec 512) : SeedCopy :=
  let c := if seedCells ≤ c.cells.length then c.compact else c
  { c with cells := c.cells ++ [inverted w] }

/-- A program on top of the entries that satisfy `p`: it can only set logical bits (R478). -/
def SeedCopy.setBits (c : SeedCopy) (p : BitVec 512 → Bool) (bits : BitVec 512) : SeedCopy :=
  { c with cells := c.cells.map fun x => if p (inverted x) then inverted (inverted x ||| bits) else x }

/-- The entries that satisfy `p` spent. -/
def SeedCopy.spend (c : SeedCopy) (p : BitVec 512 → Bool) : SeedCopy := c.setBits p (BitVec.allOnes 512)

/-- FLAGS.REVOKED of an entry. -/
def revokedBit : BitVec 512 := BitVec.ofNat 512 (2 ^ 97)

/-- Both copies changed, copy A first. -/
def State.onSeeds (s : State) (f : SeedCopy → SeedCopy) : State := s.onBoot fun b => { b with seedA := f b.seedA, seedB := f b.seedB }

/-- A namespace's seed entry written to both copies; then the entry of an older generation is spent (R286 step 3). -/
def State.writeSeed (s : State) (nsid : Nat) : State :=
  let n := s.ns nsid
  s.onSeeds fun c =>
    (c.append (seedEntry nsid n)).spend fun w => !seedSpent w && seedField w 0 4 == nsid && w != seedEntry nsid n

/-- A deleted namespace's entries spent in both copies (R290). -/
def State.dropSeed (s : State) (nsid : Nat) : State := s.onSeeds fun c => c.spend fun w => seedField w 0 4 == nsid

/-- REVOKED programmed in every entry of both copies (R283 step 6). -/
def State.programRevoked (s : State) : State := s.onSeeds fun c => c.setBits (fun w => !seedSpent w) revokedBit

/-- The sectors of the seed record erased (R283 step 6). -/
def State.eraseSeeds (s : State) : State := s.onSeeds fun c => { c with cells := [] }

/-- The good entry of a namespace with the highest generation in a copy (R287). -/
def SeedCopy.newest (c : SeedCopy) (nsid : Nat) : Option (BitVec 512) :=
  (c.entries.filter fun w => seedGood w && seedField w 0 4 == nsid).foldl
    (fun best w => match best with
      | none => some w
      | some b => if seedField b 8 4 ≤ seedField w 8 4 then some w else some b) none

/-- The entry of a namespace that a Warm-up keeps, of those in both copies (R276, R287). -/
def State.keptSeed (s : State) (nsid : Nat) : Option (BitVec 512) :=
  match s.boot.seedA.newest nsid, s.boot.seedB.newest nsid with
  | some a, some b => if seedField a 8 4 < seedField b 8 4 then some b else some a
  | some a, none => some a
  | none, b => b

/-- An entry with REVOKED set stands in either copy (R285). -/
def State.seedRevokedAnywhere (s : State) : Bool := (s.boot.seedA.entries ++ s.boot.seedB.entries).any seedRevoked

/-- The seed record read at a Warm-up, before any key is derived: an entry that carries REVOKED voids the record and is erased (R285); a
namespace takes the entry of its highest generation, and the other is erased (R276, R287). -/
def State.readSeeds (s : State) : State :=
  let void := s.seedRevokedAnywhere
  let s := if void then s.onSeeds fun c => c.spend seedRevoked else s
  s.each (Tbl.numbers (fun n => n.present) s.nss) fun nsid s =>
    match s.keptSeed nsid with
    | none => s.updNs nsid fun n => { n with seedOk := false, revoked := n.revoked || void }
    | some w =>
      (s.updNs nsid fun n => { n with gen := seedField w 8 4, nonce := seedField w 16 32, seedOk := true, revoked := n.revoked || void }).onSeeds
        fun c => c.spend fun v => !seedSpent v && seedField v 0 4 == nsid && v != w

/-- A sector of a seed copy: 0 for A, 1 for B (*Boot store layout*). -/
def seedCopyOf (sector : Nat) : Option Nat :=
  if 386 ≤ sector ∧ sector < 390 then some 0 else if 390 ≤ sector ∧ sector < 394 then some 1 else none

/-- A seed copy that lost a sector with no replacement left: the other copy serves (R476). -/
def State.loseSeedCopy (s : State) (sector : Nat) : State :=
  s.onBoot fun b => match seedCopyOf sector with
    | some 0 => { b with seedA := { b.seedA with lost := true } }
    | some _ => { b with seedB := { b.seedB with lost := true } }
    | none => b

end Sys2Proof.Machine
end

