-- ==== Sys2Proof/Machine/Inflate.lean ====
section
/-! DEFINITION. The decoder of raw DEFLATE streams (RFC 1951) that the decompressors and the self-verify of a compression engine run (R243, R245,
R253). It stops at the granule's 4,096 bytes. -/

namespace Sys2Proof.Machine

/-- The decoder of a stream: the next bit's place, the bytes made so far, byte 0 lowest. -/
structure Inflater where
  pos : Nat
  len : Nat
  out : Nat
  deriving DecidableEq, Repr

/-- `n` bits of a stream from place `pos`. -/
def bitsAt (x pos n : Nat) : Nat := x / 2 ^ pos % 2 ^ n

/-- One byte more. -/
def Inflater.push (s : Inflater) (b : Nat) : Inflater := { s with len := s.len + 1, out := s.out + b % 256 * 256 ^ s.len }

/-- `n` bytes copied from `d` bytes back. -/
def Inflater.copyBack : Nat → Nat → Inflater → Inflater
  | 0, _, s => s
  | n + 1, d, s => Inflater.copyBack n d (s.push (s.out / 256 ^ (s.len - d)))

/-- The symbols of a canonical code by the length of their words, 1 to 15 bits. -/
def codeOf (lens : List Nat) : List (List Nat) :=
  (List.range 15).map fun l => (List.range lens.length).filter fun i => lens.getD i 0 == l + 1

/-- More words than a prefix code has. -/
def oversubscribed (lens : List Nat) : Bool :=
  decide (2 ^ 15 < lens.foldl (fun n l => if l = 0 then n else n + 2 ^ (15 - l)) 0)

/-- A symbol read: `code` and `first` are the bits read and the first word of their length. -/
def readSym (x : Nat) : List (List Nat) → Nat → Nat → Nat → Option (Nat × Nat)
  | [], _, _, _ => none
  | syms :: rest, code, first, pos =>
    let code := code + bitsAt x pos 1
    if code < first + syms.length then (syms[code - first]?).map fun v => (v, pos + 1)
    else readSym x rest (2 * code) (2 * (first + syms.length)) (pos + 1)

/-- Length base and extra bits of symbols 257 to 285. -/
def lengthCodes : List (Nat × Nat) :=
  [(3, 0), (4, 0), (5, 0), (6, 0), (7, 0), (8, 0), (9, 0), (10, 0), (11, 1), (13, 1), (15, 1), (17, 1), (19, 2), (23, 2), (27, 2), (31, 2), (35, 3),
   (43, 3), (51, 3), (59, 3), (67, 4), (83, 4), (99, 4), (115, 4), (131, 5), (163, 5), (195, 5), (227, 5), (258, 0)]

/-- Distance base and extra bits of symbols 0 to 29. -/
def distanceCode (s : Nat) : Nat × Nat := if s < 4 then (s + 1, 0) else ((2 + s % 2) * 2 ^ (s / 2 - 1) + 1, s / 2 - 1)

/-- The symbols of a block up to its end, or past the granule's 4,096 bytes. -/
def inflateSyms (x : Nat) (lit dist : List (List Nat)) : Nat → Inflater → Option Inflater
  | 0, _ => none
  | fuel + 1, s =>
    if 4096 < s.len then some s
    else match readSym x lit 0 0 s.pos with
      | none => none
      | some (v, pos) =>
        if v < 256 then inflateSyms x lit dist fuel ({ s with pos := pos }.push v)
        else if v = 256 then some { s with pos := pos }
        else match lengthCodes[v - 257]? with
          | none => none
          | some (base, extra) =>
            let n := base + bitsAt x pos extra
            match readSym x dist 0 0 (pos + extra) with
            | none => none
            | some (w, pos) =>
              let (far, more) := distanceCode w
              let d := far + bitsAt x pos more
              if 29 < w ∨ s.len < d ∨ 4096 < d then none
              else inflateSyms x lit dist fuel (Inflater.copyBack n d { s with pos := pos + more })

/-- The code lengths of the fixed block. -/
def fixedLengths : List Nat := List.replicate 144 8 ++ List.replicate 112 9 ++ List.replicate 24 7 ++ List.replicate 8 8

/-- The order of the code-length code's lengths. -/
def lengthOrder : List Nat := [16, 17, 18, 0, 8, 7, 9, 6, 10, 5, 11, 4, 12, 3, 13, 2, 14, 1, 15]

/-- The `n` code lengths of a dynamic block, those read so far in order. -/
def readLengths (x : Nat) (code : List (List Nat)) (n : Nat) : Nat → Nat → List Nat → Option (List Nat × Nat)
  | 0, _, _ => none
  | fuel + 1, pos, ls =>
    if n ≤ ls.length then (if ls.length = n then some (ls, pos) else none)
    else match readSym x code 0 0 pos with
      | none => none
      | some (v, pos) =>
        if v < 16 then readLengths x code n fuel pos (ls ++ [v])
        else if v = 16 then (if ls = [] then none
          else readLengths x code n fuel (pos + 2) (ls ++ List.replicate (3 + bitsAt x pos 2) (ls.getLastD 0)))
        else if v = 17 then readLengths x code n fuel (pos + 3) (ls ++ List.replicate (3 + bitsAt x pos 3) 0)
        else readLengths x code n fuel (pos + 7) (ls ++ List.replicate (11 + bitsAt x pos 7) 0)

/-- A dynamic block: its two codes, then its symbols. -/
def inflateDynamic (x fuel : Nat) (s : Inflater) : Option Inflater :=
  let hlit := 257 + bitsAt x s.pos 5
  let hdist := 1 + bitsAt x (s.pos + 5) 5
  let hclen := 4 + bitsAt x (s.pos + 10) 4
  let given := (List.range hclen).map fun i => bitsAt x (s.pos + 14 + 3 * i) 3
  let lens := (List.range 19).map fun v => given.getD ((lengthOrder.idxOf v)) 0
  if 286 < hlit ∨ oversubscribed lens then none
  else match readLengths x (codeOf lens) (hlit + hdist) 320 (s.pos + 14 + 3 * hclen) [] with
    | none => none
    | some (ls, pos) =>
      let (lit, dist) := (ls.take hlit, ls.drop hlit)
      if oversubscribed lit ∨ oversubscribed dist then none
      else inflateSyms x (codeOf lit) (codeOf dist) fuel { s with pos := pos }

/-- A stored block: LEN with its complement, then LEN bytes from a byte boundary. -/
def inflateStored (x : Nat) (s : Inflater) : Option Inflater :=
  let pos := (s.pos + 7) / 8 * 8
  let n := bitsAt x pos 16
  if bitsAt x (pos + 16) 16 + n ≠ 65535 then none
  else some { pos := pos + 32 + 8 * n, len := s.len + n, out := s.out + bitsAt x (pos + 32) (8 * n) * 256 ^ s.len }

/-- The blocks of a stream, up to the one with BFINAL or past the granule's 4,096 bytes. -/
def inflateBlocks (x nbits : Nat) : Nat → Inflater → Option Inflater
  | 0, _ => none
  | fuel + 1, s =>
    let body := { s with pos := s.pos + 3 }
    let done := match bitsAt x (s.pos + 1) 2 with
      | 0 => inflateStored x body
      | 1 => inflateSyms x (codeOf fixedLengths) (codeOf (List.replicate 30 5)) 4098 body
      | 2 => inflateDynamic x 4098 body
      | _ => none
    match done with
    | none => none
    | some t =>
      if nbits < t.pos then none
      else if bitsAt x s.pos 1 = 1 ∨ 4096 < t.len then some t else inflateBlocks x nbits fuel t

/-- A stream of at most `nbits` bits decoded: how many bytes it makes, past 4,096 of them no exact count, and the bytes; none when it is malformed. -/
def inflate (x nbits : Nat) : Option (Nat × Nat) := (inflateBlocks x nbits nbits ⟨0, 0, 0⟩).map fun s => (s.len, s.out)

end Sys2Proof.Machine
end

