-- ==== Sys2Proof/Machine/Landing.lean ====
section
/-! DEFINITION. Landing dirty data and restoring it (R159, R180-R184, R438 steps 3 to 6), and the pacer's choice of a die's next
operation, which in a landing starts landing writes alone (R147, R159). -/

namespace Sys2Proof.Machine

/-- The units of a dirty row that a flush writes (R181): of an incomplete row every staged data unit and both parity units, of a
complete one the units of members whose fine pass has not completed with OK. -/
def Row.units (r : Row) (rot : Nat) (behind : Bool) : List LandUnit :=
  let incomplete := r.quarters != 4
  (List.range 18).filterMap fun p =>
    let unit := fun (kind : Nat) => some (LandUnit.mk r.zk r.row p kind incomplete 0 0 false r.epoch behind)
    if !incomplete && r.fineDone.contains p then none
    else match dataAt rot p with
      | some i => if r.staged.extractLsb' (16 * i) 16 ≠ 0 ∨ r.padded then unit 0 else none
      | none => unit (if p = pPosition rot then 1 else 2)

/-- The units of a dirty row of a unit's present die blocks. -/
def State.rowUnits (s : State) (r : Row) : List LandUnit := r.units (s.zone r.zk).rot false

/-- The units of rows that writes behind an unfinished reset have staged: they are flushed, and discarded at the restore (R82). -/
def State.behindUnits (s : State) : List LandUnit :=
  s.zones.flatMap fun p => match p.2.fence with
    | none => []
    | some f =>
      let offs := f.behind.flatMap fun c => match s.ctxAt c with
        | none => []
        | some x => if x.phase = .done then x.places.filterMap fun q => q.map (·.2) else []
      ((offs.map rowOf).eraseDups).flatMap fun row =>
        Row.units { zk := p.1, row := row, tenant := 0, epoch := s.store.epoch,
                    staged := offs.foldl (fun w o => if rowOf o = row then setBit w (o % 256) else w) 0 } f.newRot true

/-- The same unit. -/
def LandUnit.same (u v : LandUnit) : Bool := u.zk == v.zk && u.row == v.row && u.member == v.member && u.behind == v.behind

/-- The dies of a pool: the members of its stripe sets and its spares (R182). -/
def State.landDies (s : State) (pool : Nat) : List Nat :=
  ((s.sets.flatMap fun p => if p.2.pool == pool then (p.2.members.filterMap fun x => x) ++
    (p.2.rebuild.map fun r => r.2.1).toList else []) ++
    (s.store.spares.filter fun p => p.1 == pool).map fun p => p.2).filter fun k => (s.die k).st == .landing

/-- The landing writes queued or running at a die. -/
def State.landLoad (s : State) (k : Nat) : Nat :=
  ((s.die k).queue.filter fun e => e.kind == .slc).length + (if (s.die k).heavy.isSome then 1 else 0)

/-- The die of a landing write: in LANDING, with the fewest landing writes queued, then the lower lane and die (R182). -/
def State.landDie (s : State) (pool : Nat) : Option Nat :=
  (s.landDies pool).foldl (fun (best : Option Nat) k =>
    match best with
    | none => some k
    | some b => if s.landLoad k < s.landLoad b ∨ (s.landLoad k = s.landLoad b ∧ k < b) then some k else some b) none

/-- `f` applied to the landing in progress. -/
def State.onLanding (s : State) (f : Landing → Landing) : State :=
  s.onPower fun p => { p with landing := p.landing.map f }

/-- A landing write given to its die, in the landing die block in use (R158, R182). -/
def State.landUnit (s : State) (u : LandUnit) : State :=
  match s.landDie (s.stripe (s.zone u.zk).set).pool with
  | none => s
  | some k =>
    let d := s.die k
    let v : LandUnit := { u with die := k, page := 0, blockB := d.landB }
    let s := s.enqueueHeavy k
      { id := 0, kind := .slc, cls := .none, zk := u.zk, off := u.row, pos := u.member, block := s.landPosition d d.landB,
        page := 0, tried := bit u.behind }
    s.onLanding fun l => { l with waiting := l.waiting.filter fun w => !w.same u, toWrite := l.toWrite ++ [v] }

/-- A unit waiting to be landed still has to be: its row is not released, and a complete row's member has not passed its fine pass (R159,
R181). -/
def State.stillDirty (s : State) (u : LandUnit) : Bool :=
  u.behind || s.work.rows.any fun r => r.zk == u.zk && r.row == u.row && (r.quarters != 4 || !r.fineDone.contains u.member)

/-- A landing write that is still queued at its die. -/
def State.landQueued (s : State) (u : LandUnit) : Bool := (s.die u.die).queue.any fun e => e.kind == .slc && e.landsUnit u

/-- Landing writes not started yet that nothing needs any more taken back: a pass that completed meanwhile released their row (R159, R181). -/
def State.dropLanded (s : State) (l : Landing) : State :=
  let idle := l.toWrite.filter fun u => !s.stillDirty u && s.landQueued u
  let s := s.each idle fun u s => s.updDie u.die fun d => { d with queue := d.queue.filter fun e => !(e.kind == .slc && e.landsUnit u) }
  s.onLanding fun l => { l with waiting := l.waiting.filter s.stillDirty, toWrite := l.toWrite.filter fun u => !idle.any u.same }

/-- A die in LANDING that takes a copy of the checkpoint journal: the first of stripe set `n` (R197, R438 step 6; log entry 184). -/
def State.journalDie (s : State) (n : Nat) : Option Nat :=
  ((s.stripe n).members.filterMap fun m => m).find? fun k => (s.die k).st == .landing

/-- The copy on stripe set `n` can be given to its die now, or no die of the set will come to LANDING. -/
def State.journalReady (s : State) (n : Nat) : Bool :=
  (s.journalDie n).isSome || !((s.stripe n).members.filterMap fun m => m).any fun k =>
    s.pacerUp (k / 8) && !(s.die k).lost && (s.die k).st != .absent && (s.die k).st != .lost

/-- The checkpoint written on flash once no landing write is left: a copy on stripe set 0 and one on set 1 (R183, R197, R438 step 6). -/
def State.writeJournal (s : State) : State :=
  match s.power.landing with
  | none => s
  | some l =>
    if l.journal.isSome || !l.toppedUp || l.waiting != [] || l.toWrite != [] || ([0, 1].all s.journalReady) == false then s
    else
      let ks := [0, 1].filterMap s.journalDie
      let s := s.each ks fun k s => s.enqueueHeavy k
        { id := 0, kind := .checkpoint, cls := .none, block := s.diePositions k }
      s.onLanding fun l => { l with journal := some ks }

/-- The waiting landing writes given to the dies that are in LANDING by now; those no longer needed are dropped; behind the last one goes
the checkpoint. -/
def State.assignLanding (s : State) : State :=
  match s.power.landing with
  | none => s
  | some l =>
    let s := s.dropLanded l
    (s.each (l.waiting.filter s.stillDirty) fun u s => s.landUnit u).writeJournal

/-- The units to land listed once the parity is up to date (R181): those that the directory or an earlier landing already covers are
named where they are. -/
def State.listLanding (s : State) : State :=
  match s.power.landing with
  | none => s
  | some l =>
    if l.toppedUp then s
    else
      let units := s.work.rows.flatMap s.rowUnits ++ s.behindUnits
      let covered := fun (u : LandUnit) => !u.behind && (s.work.rows.any fun r => r.zk == u.zk && r.row == u.row && r.covered) &&
        s.store.directory.any u.same
      let kept := s.store.directory.filter fun u => covered u && units.any u.same
      let fresh := units.filter fun u => !covered u && !l.written.any u.same
      (s.onLanding fun l => { l with toppedUp := true, waiting := fresh, written := l.written ++ kept }).assignLanding

/-- A die taken to LANDING (R159): an erase is aborted, everything else runs to its end. -/
def State.enterLanding (s : State) (k : Nat) : State :=
  let s := match (s.die k).heavy, s.heavyOp k with
    | some t, some o => if o.entry.kind = OpKind.erase ∧ o.abort.isNone then s.abortOp k t o 0 else s
    | _, _ => s
  s.settleDie k

/-- Rows whose parity is not up to date, oldest first (R180). -/
def State.incompleteRows (s : State) : List Row := s.work.rows.filter fun r => r.quarters != 4 && r.staged != 0

/-- The block lane-PHY domains that hold a populated lane in service, as bits of PWR_DOMAIN_ON (R428). -/
def State.laneDomains (s : State) : BitVec 64 :=
  (List.range 32).foldl (fun w b =>
    if (List.range 16).any fun i => s.populated (16 * b + i) && (s.lane (16 * b + i)).st != .failed then setBit w (6 + b) else w) 0

/-- A landing begun: the broker closes, dies go to LANDING, parked lanes wake, and the parity of incomplete rows is brought up to
the last unit staged (R159, R180, R438). What a Calm entry has already landed is not written again. -/
def State.startLanding (s : State) (cause : LandCause) (bankMv : Nat) : State :=
  let before := match s.power.landing with
    | some l => l.written
    | none => []
  let l : Landing := { cause := cause, since := s.now, eBank := s.eBankAt bankMv, dirtyKib := s.dirtyKib,
                       pred := ceilDiv (s.predicted s.dirtyKib) 1000000, toppedUp := false, waiting := [], toWrite := [],
                       written := before, mode := s.power.mode }
  let s := (s.onPower fun p => { p with landing := some l }).closeBroker true
  let s := s.each (s.dies.map (·.1)) fun k s => s.enterLanding k
  let s := if cause = .calm ∧ s.power.mode ≠ .lull then s else ((s.powerDomains s.laneDomains).releasePads s.laneDomains).each (s.lanes.map (·.1)) fun n s => s.wakeLane n
  let s := s.each s.incompleteRows fun r s => s.addParityWork (.topUp r.zk r.row)
  if s.incompleteRows = [] then s.listLanding else s

/-- The parity top-up ended: when no job of it is left the landing writes begin (R180, R438 step 5). -/
def State.toppedUp (s : State) : State :=
  if s.work.parities.any fun p => p.2.any fun j => match j with
    | .topUp _ _ => true
    | _ => false
  then s else s.listLanding

/-- Every landing write and the checkpoint have completed (R438 step 6). -/
def State.landingDone (s : State) : Bool :=
  s.power.landing.any fun l => l.toppedUp && l.waiting == [] && l.toWrite == [] && l.journal == some []

/-- Units of the landing not on flash yet. -/
def Landing.left (l : Landing) : Nat := l.waiting.length + l.toWrite.length

/-- The landing directory and what it restores written to the checkpoint, with the energy figures (R183, R417, R438 step 6). -/
def State.writeDirectory (s : State) (figures : Option (Nat × Nat × Nat)) : State :=
  match s.power.landing with
  | none => s
  | some l => s.onStore fun t => { t with directory := l.written, landedRows := s.work.rows, lostEpoch := false, figures := figures }

/-- The landing die blocks after a restore (R182): one that holds no unit to restore has been erased, and a die uses an erased one from its first
page. -/
def State.chooseLandBlocks (s : State) : State :=
  s.mapDies fun k d =>
    let dirty := d.landDirty.filter fun b => s.store.directory.any fun u => u.die == k && u.blockB == b
    { d with landDirty := dirty, landB := if dirty.contains d.landB && !dirty.contains (!d.landB) then !d.landB else d.landB, landPage := 0 }

/-- A die with neither landing die block erased: no write is admitted until one is (R182). -/
def State.landingFull (s : State) : Bool := s.dies.any fun p => !p.2.lost && p.2.landDirty.contains false && p.2.landDirty.contains true

/-- The units named in the directory back in mirrored staging as dirty bytes, their programs to go on from the last pass (R184).
What was written behind an unfinished reset is discarded (R82). -/
def State.restoreLanding (s : State) (startedNs : Nat) : State :=
  let rows := s.store.landedRows.map fun r => { r with covered := true }
  let units := s.store.directory.filter fun u => !u.behind && rows.any fun r => r.zk == u.zk && r.row == u.row
  let s := s.onWork fun w => { w with rows := w.rows ++ rows,
                                      nextRow := rows.foldl (fun n r => max n (r.order + 1)) w.nextRow }
  let s := s.chooseLandBlocks.compareDirty
  let s := s.raise 0x0498 s.srcStarters units.length rows.length (usSince s.now startedNs) 0
  s.each ((rows.map (·.zk)).eraseDups) fun zk s => s.queuePasses zk

/-- The rearm mark of every zone that holds an incomplete restored row (R88): waiting. -/
def State.markRearm (s : State) : State :=
  let zs := (s.work.rows.filter fun r => r.covered && r.quarters != 4).map (·.zk)
  s.mapZones fun zk z => if zs.contains zk && z.rearm == 0 then { z with rearm := 1 } else z

/-- A held die takes its resume in a landing: a suspended pass runs to completion after its read (R159). -/
def State.resumeHeld (s : State) (k : Nat) : State :=
  let d := s.die k
  match d.heavy, d.reading, s.heavyOp k with
  | some h, none, some o => if d.resuming || o.abort.isSome then s
    else (s.updDie k fun d => { d with resuming := true }).postMsgs (k / 8) [.resume (k % 8) h (s.holdsErase k)]
  | _, _, _ => s

/-- What a die does in a landing: its landing writes in page order, or the resume of what it holds suspended (R158, R159). -/
def State.serveLanding (s : State) (k : Nat) : State :=
  let s := (s.settleDie k).assignLanding
  match s.freeTag (k / 8), (s.die k).st with
  | some tag, .landing => match (s.die k).heavy, (s.die k).queue.find? fun e => e.kind == .slc || e.kind == .checkpoint with
    | none, some e => s.startSlc k tag e
    | _, _ => s
  | _, .progSusp => s.resumeHeld k
  | _, _ => s

/-- The passes, copies, refills and moves that wait for a die put into its queue; those of a block whose marshal is out wait (R524). -/
def State.offerWork (s : State) (k : Nat) : State :=
  if (s.blk (blockOfLane (k / 8))).marshalOut then s else (((s.offerPasses k).continueCopy k).continueRefills k).continueGc k

/-- What a die does in service (R147, R149, R164). -/
def State.serveDie (s : State) (k : Nat) : State :=
  let s := s.offerWork k
  match s.freeTag (k / 8), (s.die k).st with
  | some tag, .idle => if (s.blk (blockOfLane (k / 8))).marshalOut then s else s.serveIdle k tag
  | some tag, .progSusp | some tag, .eraseSusp => s.serveSuspended k tag
  | some tag, .prog | some tag, .erase => s.suspendFor k tag
  | _, _ => s

/-- No die operation starts: in Lull and Calm, and in an entry past its step 2 (R432). -/
def State.quietDies (s : State) : Bool :=
  s.power.mode == .lull || s.power.mode == .calm || s.power.entry.any fun e => decide (2 ≤ e.step)

/-- What a die does while no operation starts: a suspended pass goes on to its end (R432 step 3). -/
def State.serveQuiet (s : State) (k : Nat) : State := if (s.die k).st = .progSusp then s.resumeHeld k else s

/-- DIE_OP_SELECT: the pacer gives a die its next operation (R147, R149, R158, R159). -/
def execDieOpSelect (lane die : Nat) (s : State) : Host.Outcome State Fault Refusal :=
  .next (
    if !s.pacerUp lane then (if (s.die (dieKey lane die)).queue = [] then s else s.askWake lane)
    else if s.power.landing.isSome then s.serveLanding (dieKey lane die)
    else if s.quietDies then s.serveQuiet (dieKey lane die) else s.serveDie (dieKey lane die))

end Sys2Proof.Machine
end

