-- ==== Sys2Proof/Machine/Parcels.lean ====
section
/-! DEFINITION. Packed zones: the parcel layout and header (R241-R243), and the
compression engines that serve a region (R259, R261). -/

namespace Sys2Proof.Machine

/-- The 4,096 user bytes of a block, as a number. -/
def userBytes (b : Block) : Nat := b.toNat % 2 ^ 32768

/-- GCRC of a granule's uncompressed bytes (R242). -/
def granuleCrc (b : Block) : Nat := crc32 (leBytes 4096 (userBytes b))

/-- The slices of a granule whose stream has `len` bytes: raw in 4 above 3,072 bytes or after a verify mismatch (R245). -/
def granuleSlices (len : Nat) (mismatch : Bool) : Nat := if mismatch || decide (3072 < len) then 4 else max 1 (ceilDiv len 1024)

/-- What a granule's slices hold: its bytes unchanged when raw, its DEFLATE stream otherwise (R243). -/
def Granule.stream (g : Granule) : Nat :=
  if g.slices = 4 then userBytes g.plain else Config.deflate g.plain % 2 ^ (8 * g.len)

/-- The comparison of step 2: the engine's own output decompresses to the granule's bytes (R245). -/
def streamVerifies (plain : Block) (len : Nat) : Bool :=
  inflate (Config.deflate plain % 2 ^ (8 * len)) (8 * len) == some (4096, userBytes plain)

/-- SLICES of a parcel: the header and its granules' slices (R242). -/
def parcelSlices (gs : List Granule) : Nat := gs.foldl (fun n g => n + g.slices) 1

/-- The LBAs that a parcel occupies (R241). -/
def parcelLbas (gs : List Granule) : Nat := ceilDiv (parcelSlices gs) 4

/-- The SIZES field. -/
def parcelSizes : List Granule → Nat
  | [] => 0
  | g :: gs => g.slices - 1 + 4 * parcelSizes gs

/-- The GCRC field. -/
def parcelCrcs : List Granule → Nat
  | [] => 0
  | g :: gs => granuleCrc g.plain + 2 ^ 32 * parcelCrcs gs

/-- MAGIC of *Parcel header*. -/
def parcelMagic : Nat := 0x50434C31

/-- Bytes 0-1,019 of the header slice (*Parcel header*). -/
def headerBody (gs : List Granule) (seq : Nat) : Nat :=
  parcelMagic + 0x01 * 256 ^ 4 + gs.length * 256 ^ 5 + parcelSlices gs * 256 ^ 6 + seq % 2 ^ 64 * 256 ^ 8 +
    parcelSizes gs * 256 ^ 16 + parcelCrcs gs * 256 ^ 32 + 0x01 * 256 ^ 288

/-- The header slice with its HCRC. -/
def headerSlice (gs : List Granule) (seq : Nat) : Nat :=
  headerBody gs seq + crc32 (leBytes 1020 (headerBody gs seq)) * 256 ^ 1020

/-- The granules' streams from slice `k` on, each at its slices; pad is zero. -/
def sliceData : Nat → List Granule → Nat
  | _, [] => 0
  | k, g :: gs => g.stream * 2 ^ (8192 * k) + sliceData (k + g.slices) gs

/-- The LBAs of a parcel, before encryption (R241). -/
def parcelBlocks (gs : List Granule) (seq : Nat) : List Block :=
  let data := headerSlice gs seq + sliceData 1 gs
  (List.range (parcelLbas gs)).map fun i => BitVec.ofNat 32896 (data / 2 ^ (32768 * i) % 2 ^ 32768)

/-- A field of the header slice: `n` bytes from byte `o` of a block. -/
def headField (b : Block) (o n : Nat) : Nat := b.toNat / 256 ^ o % 256 ^ n

/-- What the check of a parcel header finds (R253). -/
inductive HeaderCheck where
  | wrong
  | badCrc
  | good (count : Nat) (sizes : List (Nat × Nat))
  deriving DecidableEq, Repr

/-- The slices of `n` granules from the SIZES field, the first at slice `k`: (first slice, slices). -/
def sizesFrom : Nat → Nat → Nat → List (Nat × Nat)
  | 0, _, _ => []
  | n + 1, k, f => (k, f % 4 + 1) :: sizesFrom n (k + f % 4 + 1) (f / 4)

/-- The check of the LBA that a PGA names (R253). -/
def checkHeader (b : Block) : HeaderCheck :=
  if headField b 0 4 ≠ parcelMagic then .wrong
  else if headField b 1020 4 ≠ crc32 (leBytes 1020 (headField b 0 1020)) then .badCrc
  else if headField b 4 1 ≠ 1 ∨ headField b 288 1 ≠ 1 then .wrong
  else .good (headField b 5 1) (sizesFrom (headField b 5 1) 1 (headField b 16 16))

/-- The region whose engines serve region `g`'s packed traffic: its own, its partner's when it has none and PARTNER_EN is set,
or none (R261). -/
def State.engineRegion (s : State) (g : Nat) : Option Nat :=
  if (s.rgn g).cmpIn ≠ 0 then some g
  else if s.cfgBit .cmpCfg 0 0 ∧ (s.rgn (partnerRegion g)).cmpIn ≠ 0 then some (partnerRegion g) else none

/-- The engines at work, as region × 4 + engine. -/
def State.enginesBusy (s : State) : List Nat :=
  s.work.ctxs.filterMap fun p => p.2.bind fun x => if x.phase = .compressing then x.engine else none

/-- CMP_STAT.BUSY of a region. -/
def State.cmpBusy (s : State) (g : Nat) : Nat :=
  (List.range 4).foldl (fun n i => if s.enginesBusy.contains (4 * g + i) then n + 2 ^ i else n) 0

/-- The lowest engine of a region that is in service and free. -/
def State.freeEngine (s : State) (g : Nat) : Option Nat :=
  ((List.range 4).find? fun i => hasBit (s.rgn g).cmpIn i && !s.enginesBusy.contains (4 * g + i)).map fun i => 4 * g + i

/-- A command waits for an engine: a Packed Read's granules, or a burst whose baton is granted (R260). -/
def State.wantsEngine (s : State) (c : Nat) (x : Ctx) : Bool :=
  x.phase == .compressing && x.engine.isNone && (x.kind == .packedRead || s.broker.holds (.burst c))

/-- An engine given to a waiting command of its region. -/
def State.giveEngine (s : State) (c : Nat) : State :=
  match s.ctxAt c with
  | none => s
  | some x =>
    match (s.engineRegion (s.homeOf x.hdr).1).bind s.freeEngine with
    | none => s
    | some e => s.setCtx c (some { x with engine := some e })

/-- Free engines given to waiting commands in class order (R259). -/
def State.assignEngines (s : State) : State :=
  let waiting := s.work.ctxs.filterMap fun p => p.2.bind fun x => if s.wantsEngine p.1 x then some (x.cls, p.1) else none
  let byRank := fun (k : Nat) => (waiting.filter fun w => w.1.rank == k).map (·.2)
  s.each (byRank 0 ++ byRank 1 ++ byRank 2) fun c s => s.giveEngine c

/-- An event of an engine (R264). -/
def State.raiseEngine (s : State) (code e p2 p3 p4 : Nat) : State :=
  s.raise code (srcCompress (e / 4)) (subParam (e % 4) 0) p2 p3 p4

/-- Packed namespaces have their engines (R8, R240): Packed Append and Packed Read are there. -/
def State.packedServed (s : State) (nsid : Nat) : Bool := s.hasCompression && (s.ns nsid).packed

end Sys2Proof.Machine
end

