-- ==== Sys2Proof/Machine/Units.lean ====
section
/-! DEFINITION. Units of media given to writes: activations of zones and reclaim units, and the frames of reclaim units (R61, R63, R99, R173, R192,
R205, R571). -/

namespace Sys2Proof.Machine

/-- Zone capacity of the drive's dies, LBAs (R63). -/
def State.zcap (s : State) : Nat := zoneCapacity s.store.pages s.store.planes

/-- The LBAs of a namespace: whole zones, or its capacity (R63, R98). -/
def Ns.limit (n : Ns) : Nat := if n.zoned then n.units * zsze else n.lbas

/-- The rotation that the next activation on a set takes (R173). -/
def State.nextRotation (s : State) (set : Nat) : Nat := (s.stripe set).rotations % 18

/-- A rotation issued: spent whatever becomes of the activation (R173). -/
def State.issueRotation (s : State) (set : Nat) : State := s.updStripe set fun x => { x with rotations := x.rotations + 1 }

/-- A zone or reclaim unit as its activation leaves it (R61, R76, R173, R192): die blocks taken on every member. -/
def State.activate (s : State) (zk set rot : Nat) (ru : Bool) (st : ZoneSt) : State :=
  let (blocks, s) := s.takeBlocks (s.stripe set).members
  let n := s.store.activations + 1
  (s.onStore fun t => { t with activations := n }).commitZone zk
    { st := st, lastWrite := s.now, set := set, rot := rot, dblk := blocks, valid := true, packed := (s.ns (nsOfKey zk)).packed, ru := ru,
      activatedAt := n, writing := (s.zone zk).writing, ageHours := 0 }

/-- Reclaim units that a conventional namespace holds. -/
def State.unitsHeld (s : State) (nsid : Nat) : List Nat :=
  Tbl.numbers (fun b => b) (s.zones.map fun p => (p.1, nsOfKey p.1 == nsid && p.2.valid))

/-- Free reclaim units of a namespace (R98, R204). -/
def State.freeUnits (s : State) (nsid : Nat) : Nat := (s.ns nsid).units - (s.unitsHeld nsid).length

/-- Free die-block positions of a stripe set: its zone count less the zones mapped there and the units placed there (R571). -/
def State.setRoom (s : State) (set : Nat) : Nat :=
  zonesPerSet s.store.blocks - (s.zonesOnSet set).length - (s.zones.filter fun p => p.2.ru && p.2.valid && p.2.set == set).length

/-- The stripe set of a namespace's next reclaim unit: the one R93 gives, or the next of P with a free position (R571). -/
def State.nextUnitSet (s : State) (nsid unit : Nat) : Option Nat :=
  let p := s.poolSets (s.ns nsid).pool
  ((List.range p.length).map fun i => p.getD ((unit + i) % p.length) 0).find? fun set => decide (0 < s.setRoom set)

/-- The handle number under which the GC reclaim unit is kept. -/
def gcHandle : Nat := 16

/-- A reclaim unit opened for a placement handle, on a set given or the one R93 chooses (R99, R173): its key; none when the namespace
has no free one, no set has room, or a member has no erased die block. R93's k of a reclaim unit is its number in the namespace, and the next one is the
lowest free number: the spec numbers no reclaim units (DESIGN CHOICE, log entry 182). -/
def State.openUnit (s : State) (nsid handle : Nat) (on : Option Nat) : Option Nat × State :=
  let n := s.ns nsid
  match (List.range n.units).find? fun u => !(s.zone (zoneKey nsid u)).valid with
  | none => (none, s)
  | some u =>
    match on.or (s.nextUnitSet nsid u) with
    | none => (none, s)
    | some set =>
      if (s.activationLack set).passes = false then (none, s)
      else
        let zk := zoneKey nsid u
        let s := (s.issueRotation set).activate zk set (s.nextRotation set) true .implicitOpen
        (some zk, s.updNs nsid fun n => { n with opened := Tbl.put 0 n.opened handle (u + 1) })

/-- Reclaim groups of the endurance group of a pool: its stripe sets (NRG, R99). -/
def State.nrg (s : State) (pool : Nat) : Nat := (s.poolSets pool).length

/-- Bits of a placement identifier that name the reclaim group: the fewest that hold NRG - 1 (RGIF, R99). -/
def State.rgif (s : State) (pool : Nat) : Nat := if s.nrg pool ≤ 1 then 0 else (s.nrg pool - 1).log2 + 1

/-- The placement that a write names, with the key its reclaim unit is kept under: without a directive handle 0 on the set R93 gives (R99). A placement
identifier has the reclaim group in its upper RGIF bits and the handle below them; one that names no group or handle counts as no directive (PRESUMED from the
NVMe base specification; log entry 186). -/
def State.placementOf (s : State) (nsid : Nat) (dspec : Option Nat) : Nat × Option Nat :=
  let pool := (s.ns nsid).pool
  match dspec with
  | none => (0, none)
  | some d =>
    let low := 2 ^ (16 - s.rgif pool)
    let (g, ph) := (d % 65536 / low, d % low)
    if s.nrg pool ≤ g ∨ 16 ≤ ph then (0, none) else (32 + 16 * g + ph, (s.poolSets pool)[g]?)

/-- A reclaim unit that can take more frames. -/
def State.unitOpen (s : State) (zk : Nat) : Bool := decide ((s.zone zk).wp < s.zcap) && (s.zone zk).st == .implicitOpen

/-- The reclaim unit kept under a key, if it can take more frames. -/
def State.unitAt (s : State) (nsid key : Nat) : Option Nat :=
  match Tbl.look 0 (s.ns nsid).opened key with
  | 0 => none
  | u + 1 => if s.unitOpen (zoneKey nsid u) then some (zoneKey nsid u) else none

/-- The open reclaim unit of a placement: handle 0 has one unit in a reclaim group, whether a directive names it or not. -/
def State.openedUnit (s : State) (nsid key : Nat) (on : Option Nat) : Option Nat :=
  (s.unitAt nsid key).or
    (if key % 16 = 0 ∧ key ≠ gcHandle then (s.unitAt nsid 0).filter fun zk => on == some (s.zone zk).set else none)

/-- An FDP event recorded (R99). The log keeps the newest 64 (log entry 186). -/
def State.fdpEvent (s : State) (type nsid placement : Nat) : State :=
  s.onStore fun t => { t with fdpEvents := (t.fdpEvents ++ [(type, nsid, placement, s.now)]).drop (t.fdpEvents.length - 63) }

/-- Reclaim Unit Not Fully Written: the unit kept under a key takes no more frames though it has room (R99). -/
def State.unitLeft (s : State) (nsid key : Nat) : State :=
  match Tbl.look 0 (s.ns nsid).opened key with
  | 0 => s
  | u + 1 =>
    let z := s.zone (zoneKey nsid u)
    if z.valid ∧ z.wp < s.zcap ∧ z.st ≠ .implicitOpen then s.fdpEvent 0 nsid key else s

/-- Frames taken for `n` LBAs of a placement handle, in order; fewer when no reclaim unit is left (R205). -/
def State.takeFrames : Nat → State → Nat → Nat → Option Nat → List (Nat × Nat) × State
  | 0, s, _, _, _ => ([], s)
  | n + 1, s, nsid, handle, on =>
    let (zk, s) := match s.openedUnit nsid handle on with
      | some zk => (some zk, s)
      | none => (s.unitLeft nsid handle).openUnit nsid handle on
    match zk with
    | none => ([], s)
    | some zk =>
      let wp := (s.zone zk).wp
      let s := s.updZone zk fun z => { z with wp := wp + 1, lastWrite := s.now, st := if wp + 1 = s.zcap then .full else .implicitOpen }
      let (rest, s) := State.takeFrames n s nsid handle on
      ((zk, wp) :: rest, s)

end Sys2Proof.Machine
end

