-- ==== Sys2Proof/Machine/DataPath.lean ====
section
/-! DEFINITION. The data path (R48-R52): frames through decoder, ladder, read-around and cipher engine to egress; host data through
cipher engine and mirrored staging to acknowledgement, running parity and program (R155, R161-R166, R174-R188, R196, R266-R278). -/

namespace Sys2Proof.Machine

/-- The block that owns the target lane of a zone offset (R48). -/
def State.frameBlock (s : State) (zk off : Nat) : Nat := s.blockOfMember (s.zone zk) (posOfOffset (s.zone zk) off)

/-- The same for a write behind a reset: the rotation is the one its activation took (R173). -/
def State.blockBehind (s : State) (zk off : Nat) : Nat :=
  let z := s.zone zk
  let z := match z.fence with
    | some f => { z with rot := f.newRot }
    | none => z
  s.blockOfMember z (posOfOffset z off)

/-- Data units of a command given to the cipher engines, one job for each block, in ascending LBA order (R266). -/
def State.addUnits (s : State) (c : Nat) (cls : Cls) (encrypt : Bool) (units : List (Nat × Nat × Nat)) : State :=
  let behind := (s.ctxAt c).any fun x => x.behind
  let block := fun (u : Nat × Nat × Nat) => if behind then s.blockBehind u.1 u.2.1 else s.frameBlock u.1 u.2.1
  s.each ((units.map block).eraseDups) fun b t => t.addCipherJob b c cls encrypt (units.filter fun u => block u == b)

/-- The units of LBA indexes of a command. -/
def Ctx.unitsOf (x : Ctx) (is : List Nat) : List (Nat × Nat × Nat) :=
  is.filterMap fun i => (x.places.getD i none).map fun p => (p.1, p.2, i)

/-- The LBA of an LBA index, the tweak of its data unit (R270). -/
def Ctx.lbaOf (x : Ctx) (i : Nat) : Nat := x.lbas.getD i (x.slba + i)

/-- The plaintext held for an LBA index; zeros where there is none. -/
def Ctx.dataAt (x : Ctx) (i : Nat) : Block := ((x.data.find? fun p => p.1 == i).map (·.2)).getD 0

/-- LBA indexes served from staging: their stored units go to the cipher engines (R188). -/
def State.serveStaged (s : State) (c : Nat) (is : List Nat) : State :=
  match s.ctxAt c with
  | none => s
  | some x =>
    if is = [] then s
    else (s.setCtx c (some { x with got := x.got ++ is, waits := x.waits.filter fun i => !is.contains i })).addUnits c x.cls false
      (x.unitsOf is)

/-- How the LBA indexes of a read are served: from staging now, from staging once they are there, or from flash. -/
def State.splitRead (s : State) (x : Ctx) (is : List Nat) : List Nat × List Nat × List (Nat × Nat) :=
  let at_ := fun i => x.places.getD i none
  (is.filter fun i => (at_ i).any fun p => s.isStaged p.1 p.2,
   is.filter fun i => (at_ i).any fun p => !s.isStaged p.1 p.2 && s.onItsWay p.1 p.2,
   (is.filterMap at_).filter fun p => !s.isStaged p.1 p.2 && !s.onItsWay p.1 p.2)

/-- A read begun as planned: units in staging go to the cipher engines, units on their way there are awaited, the others are
read from their dies or rebuilt. -/
def State.beginRead (s : State) (c : Nat) (is : List Nat) (plan : ReadPlan) : State :=
  match s.ctxAt c with
  | none => s
  | some x =>
    let (staged, waits, _) := s.splitRead x is
    ((s.setCtx c (some { x with waits := x.waits ++ waits })).serveStaged c staged).dispatchRead x.tenant plan

/-- The plan of reads that are not admitted again: each frame by its die, or as *Read-around causes* directs. -/
def State.forcedPlan (s : State) (es : List QEntry) : ReadPlan :=
  es.foldl (fun (p : ReadPlan) e => match s.frameService e.zk e.off with
    | .direct => { p with direct := p.direct ++ [e] }
    | v => { p with around := p.around ++ [(e, v)] }) {}

/-- LBA indexes of a command read without a new admission. -/
def State.readMore (s : State) (c : Nat) (is : List Nat) : State :=
  match s.ctxAt c with
  | none => s
  | some x => s.beginRead c is (s.forcedPlan (readEntries s c x.cls (s.splitRead x is).2.2))

/-- An event of a packed zone (R264): the zone keeper as source, its sub-instance and the NSID in parameter 1. -/
def State.raisePacked (s : State) (code zk p2 p3 p4 : Nat) : State :=
  s.raise code (s.keeperOf zk) (subParam (zoneOfKey zk % 2) (nsOfKey zk)) p2 p3 p4

/-- The LBAs of a Packed Read have come: its granules wait for a decompressor (R253). -/
def State.packedReady (s : State) (c : Nat) : State := (s.updCtx c fun x => { x with phase := .compressing }).assignEngines

/-- The header LBA of a Packed Read has come: it is checked, and the LBAs that hold the granules are read (R253). -/
def State.packedHeader (s : State) (c : Nat) (x : Ctx) : State :=
  match checkHeader (x.dataAt 0) with
  | .wrong => s.finish c .invalidField
  | .badCrc => (s.finish c .unrecovered).raisePacked 0x0906 x.zk (x.slba % 2 ^ 32) (zoneOfKey x.zk) 0
  | .good count sizes =>
    if count ≤ x.first then s.finish c .invalidField
    else
      let n := min x.granules (count - x.first)
      let want := (sizes.drop x.first).take n
      let lo := want.foldl (fun m g => min m (g.1 / 4)) 64
      let hi := want.foldl (fun m g => max m ((g.1 + g.2 - 1) / 4)) 0
      let wp := (s.zone x.zk).filled
      let need := (List.range (hi + 1)).filter fun i => decide (0 < i ∧ lo ≤ i ∧ x.off + i < wp)
      let places := (List.range (hi + 1)).map fun i => if i = 0 ∨ need.contains i then some (x.zk, x.off + i) else none
      let s := s.setCtx c (some { x with places := places, got := (List.range (hi + 1)).filter fun i => !need.contains i,
                                         finished := hi + 1 - need.length, granules := n, close := decide (n < x.granules),
                                         sizes := want })
      if need = [] then s.packedReady c else s.readMore c need

/-- The data of a write in the ingress buffer: they go to the cipher engines of the blocks they lie on (R48, step 3). -/
def State.cipherWrite (s : State) (c : Nat) : State :=
  match s.ctxAt c with
  | none => s
  | some x => (s.setCtx c (some { x with phase := .ciphering })).addUnits c x.cls true (x.unitsOf (List.range x.places.length))

/-- The LBAs of a read have all come: the completion leaves with the data, a Compare is decided, a Packed Read goes on (R48). -/
def State.readEnd (s : State) (c : Nat) : State :=
  match s.ctxAt c with
  | none => s
  | some x =>
    let lbaf := (s.ns x.nsid).lbaf
    let n := 8 * (4096 + mdBytes lbaf)
    match x.kind with
    | .compare =>
      let same := (List.range x.places.length).all fun i =>
        (x.dataAt i).toNat % 2 ^ n == (x.expect.getD i 0).toNat % 2 ^ n
      s.finish c (if same then .success else .compareFailure)
    | .copy => (s.setCtx c (some { x with kind := .write, slba := x.target, lbas := [], places := x.dest, finished := 0 })).cipherWrite c
    | .packedRead => if x.sizes = [] then s.packedHeader c x else s.packedReady c
    | _ => s.finishWith c .success 0 0 (blockFields lbaf x.data)

/-- The owner tenant of a namespace's key page matches the command's tenant (R278). -/
def State.keyOwned (s : State) (nsid tenant : Nat) : Bool :=
  Tbl.look 0 s.cph.pages ((s.ns nsid).slot / 16) == tenant + 1

/-- The stored block of an LBA that is about to be written again, kept for reads accepted before (R77). -/
def State.keepOld (s : State) (zk off : Nat) : State :=
  let old := s.stored zk off
  if old = 0 then s
  else s.onWork fun w => { w with ctxs := Tbl.mapAll none (fun _ o => o.map fun x =>
    let mine := (List.range x.places.length).filter fun i => x.places.getD i none == some (zk, off) &&
      !x.data.any (fun p => p.1 == i) && !x.frozen.any (fun p => p.1 == i)
    if x.phase = .reading then { x with frozen := x.frozen ++ mine.map fun i => (i, old) } else x) w.ctxs }

/-- One unit enciphered; behind a reset that has not taken effect it is kept with the command. It goes into both staging copies' place (R49, R270); with the last one the command waits for them to be written. -/
def State.encryptUnit (s : State) (c : Nat) (x : Ctx) (zk off i : Nat) : State :=
  let b := xtsFrame true (s.nsKey (nsOfKey zk)) (x.lbaOf i) (x.dataAt i)
  let s := if x.behind then s.updCtx c fun x => { x with frozen := x.frozen ++ [(i, b)] }
    else (s.keepOld zk off).storeBlock zk off b
  s.updCtx c fun x =>
    { x with finished := x.finished + 1, phase := if x.places.length ≤ x.finished + 1 then .staging else x.phase }

/-- One unit deciphered towards egress (R48, R270). -/
def State.decryptUnit (s : State) (c : Nat) (x : Ctx) (zk off i : Nat) : State :=
  let raw := ((x.frozen.find? fun p => p.1 == i).map (·.2)).getD (s.stored zk off)
  let plain := xtsFrame false (s.nsKey (nsOfKey zk)) (x.lbaOf i) raw
  let s := s.setCtx c (some { x with data := x.data ++ [(i, plain)], finished := x.finished + 1 })
  if x.places.length ≤ x.finished + 1 then s.readEnd c else s

/-- The jobs of a command taken out of the cipher engines. -/
def State.dropJobsOf (s : State) (c : Nat) : State :=
  s.each (Tbl.numbers (fun o => o.any fun (j : CipherJob) => j.ctx == c) s.work.ciphers) fun j s => s.dropCipherJob j

/-- The first unit of the job an engine runs ends (R266, R278): an owner mismatch stops the job and its command. -/
def State.cipherUnit (s : State) (b j : Nat) : State :=
  match (s.blk b).cipRun, s.cipherJobAt j with
  | some r, some job =>
    if r ≠ j then s
    else match s.ctxAt job.ctx, job.units with
      | none, _ | _, [] => s.dropCipherJob j
      | some x, (zk, off, i) :: rest =>
        let nsid := nsOfKey zk
        if s.keyOwned nsid x.tenant = false then
          let slot := (s.ns nsid).slot
          ((s.raise 0x0807 (srcCipher b) slot x.tenant (Tbl.look 0 s.cph.pages (slot / 16) - 1)
            (x.hdr.sqid % 65536 * 65536 + x.hdr.cid % 65536)).dropJobsOf job.ctx).finish job.ctx .internalError
        else
          let s := if rest = [] then s.dropCipherJob j else s.setCipherJob j (some { job with units := rest })
          let s := if job.encrypt then s.encryptUnit job.ctx x zk off i else s.decryptUnit job.ctx x zk off i
          s.scheduleCipher b
  | _, _ => s

/-- CIPHER_UNIT_COMPLETE (R266). An engine out of service completes nothing. -/
def execCipherUnitComplete (block job : Nat) (s : State) : Host.Outcome State Fault Refusal :=
  .next (if s.running && s.cph.engines.getLsbD block then s.cipherUnit block job else s)

/-- The complete quarters of a row: all four units of 16 LBAs staged (R178). -/
def Row.fullQuarters (r : Row) : List Nat := (List.range 4).filter fun k => r.staged.extractLsb' (64 * k) 64 == BitVec.allOnes 64

/-- A running-parity update of a quarter row waits or runs at the parity engines. -/
def State.quarterWaiting (s : State) (zk row part : Nat) : Bool :=
  s.work.parities.any fun p => p.2.any fun j => j == .quarter zk row part || j == .final zk row

/-- A running-parity update for every quarter row that has become complete (R178). -/
def State.startQuarters (s : State) (zk row : Nat) : State :=
  match s.stagedRow zk row with
  | none => s
  | some r => s.each (r.fullQuarters.filter fun k => !r.folded.contains k && !s.quarterWaiting zk row k) fun k s =>
      s.addParityWork (.quarter zk row k)

/-- `f` applied to a dirty row. -/
def State.updRow (s : State) (zk row : Nat) (f : Row → Row) : State :=
  s.onWork fun w => { w with rows := w.rows.map fun r => if r.zk = zk ∧ r.row = row then f r else r }

/-- An LBA marked staged in both copies; a row first staged enters the dirty rows (R51, R175). -/
def State.stageLba (s : State) (tenant zk off : Nat) : State :=
  let s := match s.stagedRow zk (rowOf off) with
    | some _ => s
    | none => (s.updParity zk (rowOf off) fun _ => { epoch := s.store.epoch }).onWork fun w => { w with nextRow := w.nextRow + 1, rows := w.rows ++
        [({ zk := zk, row := rowOf off, tenant := tenant, order := w.nextRow, epoch := s.store.epoch } : Row)] }
  s.updRow zk (rowOf off) fun r => { r with staged := setBit r.staged (off % 256) }

/-- A frame of a conventional namespace taken as the place of an LBA: the forward map and the units' valid blocks (R203). An entry
holds unit × 2^20 + frame + 1, one of a unit's reverse map LBA + 1; 0 = not mapped. -/
def State.mapFrame (s : State) (nsid lba : Nat) (frame : Nat) : State :=
  let old := Tbl.look 0 (s.ns nsid).fwd lba
  let s := if old = 0 then s
    else s.updZone (zoneKey nsid ((old - 1) / 2 ^ 20)) fun z =>
      { z with validBlocks := z.validBlocks - 1, rev := Tbl.put 0 z.rev ((old - 1) % 2 ^ 20) 0 }
  let s := if frame = 0 then s
    else s.updZone (zoneKey nsid ((frame - 1) / 2 ^ 20)) fun z =>
      { z with validBlocks := z.validBlocks + 1, rev := Tbl.put 0 z.rev ((frame - 1) % 2 ^ 20) (lba + 1) }
  s.updNs nsid fun n => { n with fwd := Tbl.put 0 n.fwd lba frame }

/-- A valid frame moved as it stands into the GC reclaim unit, staged like any write (R204). -/
def State.moveFrame (s : State) (nsid lba : Nat) (dest : Nat × Nat) : State :=
  let e := Tbl.look 0 (s.ns nsid).fwd lba - 1
  let b := s.stored (zoneKey nsid (e / 2 ^ 20)) (e % 2 ^ 20)
  let s := (((s.keepOld dest.1 dest.2).storeBlock dest.1 dest.2 b).stageLba (s.ns nsid).tenant dest.1 dest.2).mapFrame nsid lba
    (zoneOfKey dest.1 * 2 ^ 20 + dest.2 + 1)
  s.startQuarters dest.1 (rowOf dest.2)

/-- A frame of a GC victim has been read or rebuilt: while it is valid it moves into the GC reclaim unit of the same reclaim group; with no room
there it stays (R204). -/
def State.moveVictim (s : State) (zk off : Nat) : State :=
  let nsid := nsOfKey zk
  match (s.ns nsid).victim == some zk, Tbl.look 0 (s.zone zk).rev off with
  | true, lba + 1 =>
    match s.takeFrames 1 nsid gcHandle (some (s.zone zk).set) with
    | ([dest], s) => (s.moveFrame nsid lba dest).updNs nsid fun n =>
        { n with gcMoved := n.gcMoved + 1, gcUnit := some (zoneOfKey dest.1) }
    | _ => s
  | _, _ => s

/-- The frame that an entry reads is still wanted: device work, a rebuild's source, or a frame its command has not yet. -/
def State.stillWanted (s : State) (e : QEntry) (off : Nat) : Bool :=
  if e.rebuild.isSome || e.ctx == 0 then true
  else (s.ctxAt e.ctx).any fun x => !(x.indexesAt e.zk off).isEmpty

/-- A die block patrolled ahead of the pass: its programmed pages are listed for the pacer (R196). -/
def State.patrolBlock (s : State) (k zk pos count cause : Nat) : State :=
  let z := s.zone zk
  let rows := 4 * Tbl.look 0 z.fine pos
  (s.updDie k fun d => { d with early := d.early ++ (List.range rows).map fun r => (zk, pos, r) }).raiseMember 0x048F k zk pos count cause

/-- Reads of a die block since its last erase (R195). -/
def State.readCount (s : State) (k block : Nat) : Nat := Tbl.look 0 s.store.readCounts (k * 2048 + block)

/-- What a frame that decoded tells the media triggers (R196): a patrol finding relocates the member; a ladder that ended by retry or
soft decode after a Dash failure has the die block patrolled. -/
def State.mediaFinding (s : State) (k : Nat) (e : QEntry) (off bits : Nat) : State :=
  match e.kind with
  | .patrol =>
    if s.cfg .chipMediaCfg 0 15 8 ≤ bits ∨ e.retry ≠ 0 then
      ((s.onStore fun t => { t with patrolFindings := t.patrolFindings + 1 }).raiseMember 0x048E k e.zk e.pos bits (rowOf off)).startRelocation
        e.zk e.pos 1
    else s
  | .read => if e.ctx = 0 ∧ e.rebuild.isNone ∧ e.retry ≠ 0 then s.patrolBlock k e.zk e.pos (s.readCount k e.block) 2 else s
  | _ => s

/-- A frame decoded with FCRC good (R161, R165, R188). -/
def State.frameGood (s : State) (k : Nat) (e : QEntry) (off bits : Nat) : State :=
  let s := if e.retry = 17 then
      (s.returnBaton (.softDecode e.ctx (e.soft.getD 0))).raiseDie 0x0402 (k / 8) (k % 8) e.tried s.aon.band e.page
    else if e.retry ≠ 0 then s.raiseDie 0x0401 (k / 8) (k % 8) e.tried s.aon.band e.page else s
  match e.rebuild with
  | some n => s.sourceArrived n e.pos
  | none =>
    let s := s.mediaFinding k e off bits
    if e.kind = .copyRead then s.copyFrame k e.zk e.pos (rowOf off)
    else if e.kind = .gcRead then s.moveVictim e.zk off
    else if e.ctx = 0 then s else s.deliverFrame e.ctx e.zk off (blockOfLane (k / 8)) none

/-- A decode that failed (R165, R166, R186, R187): a source is unavailable at once; a frame being copied is rebuilt from the stripe (R193); a Dash target goes to read-around and to a Distance
ladder outside the command; any other takes the next step of its ladder. -/
def State.frameBad (s : State) (k : Nat) (e : QEntry) (off : Nat) : State :=
  match e.rebuild with
  | some n => s.sourceFailed n e.pos
  | none =>
    if e.kind = .copyRead then
      (s.raiseMember 0x0490 k e.zk e.pos (rowOf off) 0).startRebuild 0 .distance 0 e.zk off e.pos .direct
    else if e.retry = 17 then (s.returnBaton (.softDecode e.ctx (e.soft.getD 0))).ladderFailed k e off 1
    else if e.cls = .dash then
      let s := s.noteFailure (srcDieQueue (s.cellOf (k / 8))) [e.ctx]
      (s.aroundEntry { e with off := off, frames := 1 } .reactive).ladderNext k { e with ctx := 0, cls := .distance, frames := 1 } off
    else s.ladderNext k e off

/-- A decode of a frame ends (R161). A frame that its command no longer wants is discarded, and its ladder stops (R165). -/
def State.decodeEnd (s : State) (j : Nat) (x : DecodeJob) (ok fcrcOk : Bool) (bits : Nat) : State :=
  let k := dieKey x.lane x.die
  let s := s.setDecode j none
  let s := if ok && !fcrcOk then s.raiseDie 0x040F x.lane x.die (x.decoder.getD 0) x.entry.page 0 else s
  let s := if s.stillWanted x.entry x.off = false then
      (if x.entry.retry = 17 then s.returnBaton (.softDecode x.entry.ctx (x.entry.soft.getD 0)) else s)
    else if ok && fcrcOk then s.frameGood k x.entry x.off bits else s.frameBad k x.entry x.off
  s.grantDecoders 4 x.block

/-- DECODE_COMPLETE (R161): only a frame that holds a decoder can end. -/
def execDecodeComplete (block job : Nat) (ok fcrcOk : Bool) (bits : Nat) (s : State) : Host.Outcome State Fault Refusal :=
  .next (match s.decodeAt job with
    | none => s
    | some x => if x.block = block ∧ x.decoder.isSome then s.decodeEnd job x ok fcrcOk bits else s)

/-- Reads that wait for LBAs staged by now go on (R188). -/
def State.serveWaiting (s : State) : State :=
  s.each (s.ctxIds fun x => x.waits != []) fun c s =>
    match s.ctxAt c with
    | none => s
    | some x => s.serveStaged c (x.waits.filter fun i => (x.places.getD i none).any fun p => s.isStaged p.1 p.2)

/-- The class of a command (R207): management, Dataset Management and packed commands of a Dash queue are Tempo. -/
def State.classOf (s : State) (h : Hdr) (slow : Bool) : Cls :=
  let c := (s.sq (queueKey h.ctrl h.sqid)).cls
  if slow && c == .dash then .tempo else c

/-- The end of a zone management command measured against its deadline (R209, R211). -/
def State.measureDue (s : State) (h : Hdr) (due : Option Nat) : State :=
  match due with
  | none => s
  | some t => s.measure { hdr := h, tenant := s.tenantOf h.ctrl, kind := .flush, cls := s.classOf h true, phase := .done, deadline := some t }

/-- Success posted for a command, if there is one: an excursion has none (R86). -/
def State.answer (s : State) (h : Option Hdr) (due : Option Nat) : State :=
  match h with
  | some h => (s.measureDue h due).complete h .success
  | none => s

/-- A command leaves the accepted ones of its zone; Close of a packed zone completes once none is left (R255). -/
def State.leaveZone (s : State) (zk c : Nat) : State :=
  let s := s.updZone zk fun z => { z with writing := z.writing.filter (· != c) }
  match (s.zone zk).closing, (s.zone zk).writing with
  | some h, [] => (s.updZone zk fun z => { z with closing := none, closeDue := none, st := if z.active then .closed else z.st }).answer (some h)
      (s.zone zk).closeDue
  | _, _ => s

/-- The commands of a closed parcel acknowledged (R249, R251): each with the PGA of its first granule, or stopped for output space with
the granules consumed and the LBAs produced. -/
def State.ackParcel (s : State) (x : Ctx) : State :=
  s.each x.group fun g s =>
    match s.ctxAt g.1 with
    | none => s
    | some m =>
      let s := s.leaveZone x.zk g.1
      if g.2.2 < m.granules then s.finishWith g.1 .packedSpace g.2.2 (x.off + x.places.length) []
      else
        let pga := x.slba * 64 + g.2.1
        s.finishWith g.1 .success (pga % 2 ^ 32) (pga / 2 ^ 32) []

/-- An acknowledged write: the forward map of a conventional namespace, and the completion, an append's with its first LBA (R50,
R73, R203); behind an unfinished reset the completion is held (R76, step 2). -/
def State.ackWrite (s : State) (c : Nat) (x : Ctx) : State :=
  let s := if (s.ns x.nsid).zoned then s
    else s.each (List.range x.places.length) fun i s =>
      match x.places.getD i none with
      | none => s
      | some p => s.mapFrame x.nsid (x.slba + i) (zoneOfKey p.1 * 2 ^ 20 + p.2 + 1)
  if x.kind = .parcel then ((s.setCtx c none).leaveZone x.zk c).ackParcel x
  else if x.behind then s.setCtx c (some { x with phase := .done })
  else
    let s := s.each ((x.places.filterMap fun p => p.map (·.1)).eraseDups) fun zk s => s.leaveZone zk c
    if x.kind = .append then s.finishWith c .success (x.slba % 2 ^ 32) (x.slba / 2 ^ 32) [] else s.finish c .success

/-- Both staging copies of a write are written (R50): its LBAs are dirty, the write is acknowledged, and what waits for them goes on. -/
def State.staged (s : State) (c : Nat) (x : Ctx) : State :=
  let ps := x.places.filterMap fun p => p
  let s := if x.behind then s else s.each ps fun p s => s.stageLba x.tenant p.1 p.2
  let s := (s.ackWrite c x).compareDirty
  if x.behind then s
  else (s.each ((ps.map fun p => (p.1, rowOf p.2)).eraseDups) fun p s => s.startQuarters p.1 p.2).serveWaiting

/-- STAGING_WRITTEN (R50). -/
def execStagingWritten (ctx : Nat) (s : State) : Host.Outcome State Fault Refusal :=
  .next (match s.ctxAt ctx with
    | none => s
    | some x => if x.phase = .staging then s.staged ctx x else s)

/-- An update of a row's parity ended: quarter rows are folded into P and Q, and with the fourth the row is complete and its passes follow
(R154, R178). -/
def State.parityDone (s : State) (zk row : Nat) (parts : List Nat) : State :=
  match s.stagedRow zk row with
  | none => s
  | some r =>
    let folded := r.folded ++ parts.filter fun k => !r.folded.contains k
    let s := ((s.parityOfQuarters zk row folded).updRow zk row fun r => { r with folded := folded, quarters := min 4 folded.length }).compareDirty
    if 4 ≤ folded.length then s.queuePasses zk else s

/-- A Finish completes once its pad units and parity are staged (R80). -/
def State.finishPadded (s : State) (zk : Nat) : State :=
  match (s.zone zk).fence with
  | some f => if f.finish ∧ (s.zone zk).st = .full then
      (s.updZone zk fun z => { z with fence := none }).answer f.hdr f.due else s
  | none => s

/-- A parity engine job ends (R178, R180, R187). -/
def State.parityJob (s : State) (n : Nat) (j : ParityJob) : State :=
  let s := s.dropParityJob n
  match j with
  | .quarter zk row part => s.parityDone zk row [part]
  | .final zk row => (s.parityDone zk row [0, 1, 2, 3]).finishPadded zk
  | .topUp zk row => (match s.stagedRow zk row with
    | none => s
    | some r => s.parityOfStaged zk row r.staged r.padded : State).toppedUp
  | .rebuild r _ =>
    match s.rebuildAt r with
    | none => s
    | some x =>
      let out := x.pos :: x.unavailable
      if x.ctx = 0 then (((s.setRebuild r none).placeRebuilt x.zk x.off x.pos out).frameRebuilt x.zk x.off x.pos).moveVictim x.zk x.off
      else (s.setRebuild r none).deliverFrame x.ctx x.zk x.off (s.frameBlock x.zk x.off)
        (some (s.rebuiltContent x.zk (rowOf x.off) x.pos (x.off % 16) out))

/-- PARITY_JOB_COMPLETE (R178): only a job that an engine in service runs can end (R177, R179). -/
def execParityJobComplete (job : Nat) (s : State) : Host.Outcome State Fault Refusal :=
  .next (match s.parityJobAt job with
    | none => s
    | some j => if s.work.parityRun.any fun r => r.2 == some job then s.parityJob job j else s)

/-- A host read or RDMA READ beyond the allowance of TMK_HOST_CFG: its excess is no part of the command's time, and event 0x0D06 is
recorded at most once per ms for each tenant (R211). -/
def State.hostAllowance (s : State) (c : Nat) (x : Ctx) : State :=
  let rdma := s.overRdma x.hdr
  let allow := if rdma then s.cfg .tmkHostCfg 0 31 16 else s.cfg .tmkHostCfg 0 15 0
  let excess := s.now - x.startNs - allow * 1000
  if excess = 0 then s
  else
    let s := s.setCtx c (some { x with deadline := x.deadline.map (· + excess) })
    if (s.tenant x.tenant).hostEventAt.any fun t => decide (s.now < t + 1000000) then s
    else (s.updTenant x.tenant fun t => { t with hostEventAt := some s.now }).raise 0x0D06 srcTimekeeper x.tenant
      (ceilDiv excess 1000) (if rdma then 2 else 1) 0

/-- Free blocks for the LBAs of a write whose data never came: the spec states no contents (log entry 2). -/
def State.freeBlocksFor (s : State) (n : Nat) : List Block × State :=
  ((List.range n).map fun i => Config.freeBlock (s.work.draws + i), s.onWork fun w => { w with draws := w.draws + n })

end Sys2Proof.Machine
end

