-- ==== Sys2Proof/Machine/HostIo.lean ====
section
/-! DEFINITION. Host reads and writes: what comes before admission, places of LBAs, the zone keeper's checks, admission with its
decline or hold, and acceptance (R58, R66-R78, R83-R91, R98-R101, R173, R207-R220, R229-R230, R369, R380, R381). -/

namespace Sys2Proof.Machine

/-- What admission and the zone keeper say of a command: it ends with a status; the bank is too low for it (R218); it fails step 1 of
*Admission*; it fails a later step, which a compatibility tenant waits for (R380); or it goes. -/
inductive Verdict where
  | refuse (st : Status)
  | energy (us : Nat)
  | now (l : Lack)
  | later (l : Lack)
  | go
  deriving DecidableEq, Repr

/-- Why a command's namespace cannot take it: it is not the tenant's or not attached (R364), or it is not ready (R56, R90). -/
def State.nsRefusal (s : State) (h : Hdr) : Option Status :=
  let n := s.ns h.nsid
  let t := s.tenantOf h.ctrl
  if !n.present || n.tenant != t || n.detached.contains h.ctrl then some .invalidNamespace
  else if !(s.tenant t).ready || n.fenced then some .notReady else none

/-- A command context as its submission queue entry gives it. -/
def State.newCtx (s : State) (h : Hdr) (kind : CtxKind) (slba nlb : Nat) : Ctx :=
  { hdr := h, tenant := s.tenantOf h.ctrl, kind := kind, cls := s.classOf h (kind == .packedAppend || kind == .packedRead),
    phase := .reading, nsid := h.nsid, slba := slba, nlb := nlb, startNs := s.now }

/-- A Dataset Management or a deallocating Write Zeroes (R100). -/
def CtxKind.isDiscard : CtxKind → Bool
  | .discard _ => true
  | _ => false

/-- What is wrong with a command before admission: its namespace, its kind on this namespace (R58, R239, R240), a field that selects an
unsupported option (R58), the key it needs (R284), its size (R58, R208, R230; the limit of a Dash command holds for a Write Zeroes and a Copy too: DESIGN
CHOICE, log entry 93), its range; a Copy's ranges are checked with its
operands. Flush and Dataset Management need no key; Write Zeroes does, deallocating or not. -/
def State.precheck (s : State) (x : Ctx) : Option Status :=
  let n := s.ns x.nsid
  match s.nsRefusal x.hdr with
  | some st => some st
  | none =>
    let writes := x.kind == .write || x.kind == .writeZeroes || x.kind == .append || (x.kind.isDiscard && x.zeros)
    if n.packed && (writes || (!s.hasCompression && x.kind != .read)) then some .invalidOpcode
    else if x.kind = .append ∧ !n.zoned then some .invalidOpcode
    else if x.hdr.unsupported then some .invalidField
    else match x.kind with
      | .flush => none
      | .discard rs =>
        if x.zeros && !s.keyAvailable x.nsid then some .keyUnavailable
        else if rs.any fun r => decide (n.limit < r.1 + r.2) then some .lbaOutOfRange else none
      | _ =>
        if x.kind = .copy ∧ n.zoned then some .invalidField
        else if !s.keyAvailable x.nsid then some .keyUnavailable
        else if 256 < x.nlb ∨ (x.cls = .dash ∧ 1 < x.nlb) then some .invalidField
        else if x.kind = .append ∧ x.slba % zsze ≠ 0 then some .invalidField
        else if x.kind ≠ .copy ∧ n.limit < (if x.kind = .append then x.slba + 1 else x.slba + x.nlb) then some .lbaOutOfRange else none

/-- The stripe units that places touch, and the most of them on one die (R209). -/
def State.unitsTouched (s : State) (places : List (Option (Nat × Nat))) : Nat × Nat :=
  let us := (places.filterMap fun p => p.map fun q => (q.1, q.2 / 16)).eraseDups
  let dies := us.map fun u =>
    let z := s.zone u.1
    (z.set, posOfOffset z (16 * u.2))
  (us.length, dies.foldl (fun m d => max m ((dies.filter (· == d)).length)) 0)

/-- The zone or reclaim unit and offset of an LBA of a zoned namespace. -/
def zonePlace (nsid lba : Nat) : Nat × Nat := (zoneKey nsid (lba / zsze), lba % zsze)

/-- Where an LBA is read from: below the write pointer of its zone, or below the pad of a finished one (R74, R80), or where the forward map has it
(R203); none = no data. -/
def State.readPlace (s : State) (nsid lba : Nat) : Option (Nat × Nat) :=
  if (s.ns nsid).zoned then
    let p := zonePlace nsid lba
    if p.2 < (s.zone p.1).filled then some p else none
  else
    match Tbl.look 0 (s.ns nsid).fwd lba with
    | 0 => none
    | e + 1 => some (zoneKey nsid (e / 2 ^ 20), e % 2 ^ 20)

/-- The zones that a range of LBAs of a zoned namespace touches. -/
def zonesTouched (nsid slba nlb : Nat) : List Nat :=
  (List.range (if nlb = 0 then 0 else (slba + nlb - 1) / zsze - slba / zsze + 1)).map fun i => zoneKey nsid (slba / zsze + i)

/-- The LBA ranges of a Dataset Management. -/
def CtxKind.discarded : CtxKind → List (Nat × Nat)
  | .discard rs => rs
  | _ => []

/-- The zones whose state a command meets: those its LBAs lie in, or of a conventional namespace the units of its places. -/
def State.zonesOf (s : State) (x : Ctx) : List Nat :=
  if (s.ns x.nsid).zoned then (zonesTouched x.nsid x.slba x.nlb ++ x.kind.discarded.flatMap fun r => zonesTouched x.nsid r.1 r.2).eraseDups
  else (x.places.filterMap fun p => p.map (·.1)).eraseDups

/-- Zones being re-armed now (CHIP_ZONE_REARM.ACTIVE). -/
def State.rearmActive (s : State) : List Nat := Tbl.numbers (fun z => z.rearm == 2) s.zones

/-- The time until a zone's re-arm ends, ps: what is left of its own, or one running re-arm and its own (R89). -/
def State.rearmLeft (s : State) (zk : Nat) : Nat :=
  let left := fun (k : Nat) => 1200000000 - 1000 * (s.now - (s.zone k).rearmAt)
  if (s.zone zk).rearm = 2 then left zk
  else
    let ends := s.rearmActive.map left
    (if 64 ≤ ends.length then ends.foldl min 1200000000 else 0) + 1200000000

/-- A command of a tenant and class that addresses zones not yet re-armed is declined, and they go to the head of the re-arm queue (R89). -/
def State.declineUnarmed (s : State) (h : Hdr) (t : Nat) (cls : Cls) (zs : List Nat) : State :=
  let s := s.onWork fun w => { w with rearmHead := zs ++ w.rearmHead.filter fun z => !zs.contains z }
  s.decline h t cls ((zs.map s.rearmLeft).foldl (fun m t => max m (min 2400 (ceilDiv t 1000000))) 1)

/-- An I/O command that addresses zones not yet re-armed is declined (R89). -/
def State.declineRearm (s : State) (x : Ctx) (zs : List Nat) : State := s.declineUnarmed x.hdr x.tenant x.cls zs

/-- The open-zone slots a tenant's zones hold: active ones, and zones with writes accepted behind a reset (R76, R83). -/
def Zone.holdsSlot (z : Zone) : Bool := z.active || (z.fence.any fun f => !f.finish && f.behind != [])

/-- The zones of a tenant that hold an open-zone slot. -/
def State.slotsUsed (s : State) (t : Nat) : Nat :=
  (s.zones.filter fun p => p.2.holdsSlot && !p.2.ru && (s.ns (nsOfKey p.1)).tenant == t).length

/-- The floor-plus-share rule (R369): `n` more for a tenant whose floor, share and use are given; `excess` is what all tenants hold beyond
their floors and `floors` the sum of the floors. -/
def poolAllows (total floors excess floor share use n : Nat) : Bool :=
  decide (use + n ≤ floor + share) && decide (excess + (use + n - max use floor) + floors ≤ total)

/-- A pool's rule over the tenants that hold slots. -/
def State.poolFits (s : State) (total : Nat) (floor share : Limits → Nat) (use : Nat → Nat) (t n : Nat) : Bool :=
  let l := fun u => (s.tenant u).lim
  poolAllows total (s.heldSlots.foldl (fun a u => a + floor (l u)) 0)
    (s.heldSlots.foldl (fun a u => a + (use u - floor (l u))) 0) (floor (l t)) (share (l t)) (use t) n

/-- One more zone of a tenant may become active (R83, R84). -/
def State.mayActivate (s : State) (t : Nat) : Bool := s.poolFits 16384 (·.zoneFloor) (·.zoneShare) s.slotsUsed t 1

/-- The state and write pointer that the zone keeper checks writes against: past a fence, the pending ones (R75, R80). -/
def State.keeperView (s : State) (z : Zone) : ZoneSt × Nat :=
  if z.st = .offline ∨ z.st = .readOnly then (z.st, z.wp)
  else match z.fence with
    | some f => if f.finish then (.full, s.zcap)
      else (if f.pendingWp = s.zcap then .full else if f.behind = [] then .empty else .implicitOpen, f.pendingWp)
    | none => (z.st, z.wp)

/-- The zone keeper's check of a write-type command of `n` LBAs at offset `off`, none for one that names no place in the zone (R66,
R68, R91): the status it fails with. Behind an active zone's reset its slot is held still (R76). -/
def State.keeperCheck (s : State) (t zk : Nat) (off : Option Nat) (n : Nat) : Option Status :=
  let z := s.zone zk
  let (st, wp) := s.keeperView z
  if st = .offline then some .zoneOffline
  else if st = .readOnly then some .zoneReadOnly
  else if st = .full then some .zoneFull
  else if off.any fun o => o != wp then some .zoneInvalidWrite
  else if s.zcap < wp + n then some .boundaryError
  else if st = .empty then
    if (s.stripe (s.placeSet (nsOfKey zk) (zoneOfKey zk))).degraded then some .laneSetDegraded
    else if z.holdsSlot || s.mayActivate t then none else some .tooManyActive
  else none

/-- The blocks and bytes that places take, for a rotation. -/
def State.bytesByBlock (s : State) (z : Zone) (offs : List Nat) : List (Nat × Nat) :=
  let bs := offs.map fun o => s.blockOfMember z (posOfOffset z o)
  bs.eraseDups.map fun b => (b, 4096 * (bs.filter (· == b)).length)

/-- The lack at the cipher engines of a list of blocks. -/
def State.cipherLacks (s : State) (bs : List Nat) (cls : Cls) : Lack :=
  bs.foldl (fun a b => a.both (s.cipherLack b cls)) (some 0)

/-- The lack at the stewards of a write-type command: the dispatching one, and the zone keeper when it is another (R69, R215). -/
def State.writeStewards (s : State) (h : Hdr) (zk : Nat) : List (Nat × Nat) :=
  let home := s.homeOf h
  let keeper := ((s.ns (nsOfKey zk)).region, zoneOfKey zk % 2)
  if (home.1, s.stewardOf home.1 home.2) = (keeper.1, s.stewardOf keeper.1 keeper.2) then [home] else [home, keeper]

/-- The lack at a list of stewards. -/
def State.stewardLacks (s : State) (l : List (Nat × Nat)) : Lack := l.foldl (fun a p => a.both (s.stewardLack p.1 p.2)) (some 0)

/-- Step 1 of *Admission* for a command, its readiness and size apart: the Dash token. -/
def State.stepOne (s : State) (x : Ctx) : Lack := if x.cls = .dash then s.dashLack x.tenant else some 0

/-- A compatibility tenant's token buckets: empty ones keep a command held (R381). -/
def State.bucketsEmpty (s : State) (t : Nat) : Bool :=
  let x := s.tenant t
  x.compat && ((s.cfg .tntCompat t 31 16 != 0 && x.kiops == 0) || (s.cfg .tntCompat t 15 8 != 0 && x.bw == 0))

/-- What an admitted command takes from its tenant's buckets (R208, R213 step 5, R381). -/
def State.takeTokens (s : State) (x : Ctx) : State :=
  s.updTenant x.tenant fun t =>
    { t with dashTokens := if x.cls = .dash then t.dashTokens - 1 else t.dashTokens, kiops := t.kiops - 1, bw := t.bw - 4096 * x.nlb }

/-- The context of an admitted command, under the number a held one already has; a held command carries no bound (R380). -/
def State.placeCtx (s : State) (held : Option Nat) (x : Ctx) : Nat × State :=
  match held with
  | some c => (c, s.setCtx c (some { x with deadline := none }))
  | none => s.openCtx x

/-- The units that a command's LBAs lie in (R209): on a zoned namespace those of R64, whatever is written there; on a conventional one those of
the frames that the forward map has for them at admission, a Copy's source LBAs. -/
def State.touches (s : State) (x : Ctx) : List (Option (Nat × Nat)) :=
  let lbas := if x.lbas = [] then (List.range x.nlb).map fun i => x.slba + i else x.lbas
  lbas.map fun a => if (s.ns x.nsid).zoned then some (zonePlace x.nsid a) else s.readPlace x.nsid a

/-- The deadline of a command (R209): u units touched, v of them on one die. A command that touches no unit, of which the rule says nothing, has the
bound of its class, u = v = 1 (DESIGN CHOICE, log entry 181). -/
def State.withDeadline (s : State) (x : Ctx) (write : Bool) : Ctx :=
  let (u, v) := s.unitsTouched (s.touches x)
  { x with deadline := s.deadlineFor x.tenant x.cls (s.overRdma x.hdr) write (max 1 u) (max 1 v) }

/-- LBA indexes that have no place have no data to be read (R74, R80, R100). -/
def State.withUnwritten (s : State) (x : Ctx) : Ctx :=
  let zs := (List.range x.places.length).filter fun i => (x.places.getD i none).isNone
  { x with data := zs.map fun i => (i, s.unwritten x.nsid (x.lbaOf i)), got := zs, finished := zs.length }

/-- The places of a read as they stand now. -/
def State.readPlaces (s : State) (x : Ctx) : List (Option (Nat × Nat)) :=
  if x.lbas = [] then (List.range x.nlb).map fun i => s.readPlace x.nsid (x.slba + i)
  else x.lbas.map fun a => s.readPlace x.nsid a

/-- An LBA marked lost by a re-arm (R185). -/
def State.lostLba (s : State) (p : Nat × Nat) : Bool := (s.zone p.1).lost.any fun l => decide (l.1 ≤ p.2 ∧ p.2 < l.1 + l.2)

/-- Zones of a read that a reset fence holds it at (R77). -/
def State.fencedZones (s : State) (x : Ctx) : List Nat :=
  (s.zonesOf x).filter fun zk => (s.zone zk).fence.any fun f => !f.finish

/-- The status that a read ends with once its places are known: with DULBE, LBAs from the write pointer on or deallocated (R74, R100); lost ones
(R185). -/
def State.readStatus (s : State) (x : Ctx) : Option Status :=
  let above := fun (i : Nat) => (x.places.getD i none).isNone && !((s.ns x.nsid).zoned &&
    decide (x.lbaOf i % zsze < (s.zone (zoneKey x.nsid (x.lbaOf i / zsze))).wp))
  if (s.ctrl x.hdr.ctrl).dulbe && x.kind == .read && (List.range x.places.length).any above then some .unwritten
  else if x.places.any fun p => p.any s.lostLba then some .unrecovered else none

/-- A read served from the places it has: zeros, staging, dies and read-arounds. -/
def State.serveRead (s : State) (c : Nat) (plan : ReadPlan) : State :=
  match s.ctxAt c with
  | none => s
  | some x =>
    let x := s.withUnwritten x
    let s := s.setCtx c (some x)
    if x.places.length ≤ x.finished then s.readEnd c
    else s.beginRead c ((List.range x.places.length).filter fun i => (x.places.getD i none).isSome) plan

/-- The lack of a read: the start, decoder, cipher, parity and steward calendars, with read-around plans where they serve (R213-R217,
R572). -/
def State.readLack (s : State) (x : Ctx) (plan : ReadPlan) : Lack :=
  let home := s.homeOf x.hdr
  let staged := ((s.splitRead x (List.range x.places.length)).1.filterMap fun i => x.places.getD i none).map fun p => s.frameBlock p.1 p.2
  (plan.lack.both (s.stewardLack home.1 home.2)).both (s.cipherLacks staged.eraseDups x.cls)

/-- A read-type command tried: its verdict, and the state in which it is admitted (R213). -/
def State.tryRead (s : State) (held : Option Nat) (x : Ctx) : Verdict × State :=
  let x := { x with places := s.readPlaces x }
  let fenced := s.fencedZones x
  let plan := if fenced = [] then s.planRead x.tenant (readEntries s (held.getD s.work.nextCtx) x.cls (s.splitRead x (List.range x.places.length)).2.2) else {}
  let lack := if fenced = [] then s.readLack x plan else some 0
  if (s.zonesOf x).any fun zk => (s.zone zk).st == .offline then (.refuse .zoneOffline, s)
  else match (if fenced = [] then s.readStatus x else none) with
    | some st => (.refuse st, s)
    | none =>
      if (s.stepOne x).passes = false then (.now (s.stepOne x), s)
      else if lack.passes = false then (.later lack, s)
      else
        let home := s.homeOf x.hdr
        let (c, s) := ((s.takeTokens x).bookSteward home.1 home.2).placeCtx held (s.withDeadline { x with phase := .reading } false)
        match fenced with
        | [] => (.go, s.serveRead c plan)
        | zk :: _ => (.go, s.updZone zk fun z => { z with fence := z.fence.map fun f => { f with heldReads := f.heldReads ++ [c] } })

/-- The rest of a live roll's reload of a marshal, 1,000 µs, for a write with units on its block (R500). -/
def State.reloadLack (s : State) (bs : List Nat) : Lack :=
  match s.boot.roll with
  | none => some 0
  | some r => if bs.any s.reloading then some (1000000000 - (s.now - r.stepAt) * 1000) else some 0

/-- The bytes of a write and their lack in step 2 and 3 (R215, R218). -/
def State.writeLack (s : State) (x : Ctx) (zk : Nat) (need : List (Nat × Nat)) : Lack :=
  (((s.reloadLack (need.map (·.1))).both (s.stagingLack x.tenant x.cls (4096 * x.nlb) need)).both (s.cipherLacks (need.map (·.1)) x.cls)).both
    (s.stewardLacks (s.writeStewards x.hdr zk))

/-- No bank could take the write even with nothing dirty: Energy Reserve Low (R218). -/
def State.energyShort (s : State) (bytes : Nat) : Bool :=
  s.dirtyBytes == 0 && s.bookedBytes (fun _ => true) == 0 && decide (s.bank.dmax * 1024 < bytes)

/-- A write accepted: stewards and engines booked, its context opened, its data fetched, or for Write Zeroes zeros taken. -/
def State.acceptWrite (s : State) (held : Option Nat) (x : Ctx) (zk : Nat) (need : List (Nat × Nat)) : Nat × State :=
  let s := s.takeTokens x
  let s := s.each (s.writeStewards x.hdr zk) fun p s => s.bookSteward p.1 p.2
  let s := s.each need fun n s => s.bookCipher n.1 (n.2 / 4096)
  s.placeCtx held (s.withDeadline { x with phase := .fetching, zk := zk, off := ((x.places.headD none).map (·.2)).getD 0 } true)

/-- The data of an accepted write: Write Zeroes needs none from the host. -/
def State.startWrite (s : State) (c : Nat) : State :=
  match s.ctxAt c with
  | none => s
  | some x => if x.kind = .writeZeroes then (s.setCtx c (some { x with zeros := true })).cipherWrite c else s

/-- Acceptance at the zone keeper: the write pointer advances, and the state follows (R66, R70, R76). -/
def State.advanceZone (s : State) (zk c n : Nat) : State :=
  s.updZone zk fun z =>
    match z.fence with
    | some f => { z with fence := some { f with pendingWp := f.pendingWp + n, behind := f.behind ++ [c] }, lastWrite := s.now }
    | none =>
      let wp := z.wp + n
      { z with wp := wp, writing := z.writing ++ [c], lastWrite := s.now, fzr := false, ageHours := 0,
               st := if wp = s.zcap then .full else if z.st = .closed then .implicitOpen else z.st }

/-- A write-type command of a zoned namespace tried (R70, R78, R173, R218). -/
def State.tryZoned (s : State) (held : Option Nat) (x : Ctx) : Verdict × State :=
  let zk := (zonePlace x.nsid x.slba).1
  let z := s.zone zk
  let (st, wp) := s.keeperView z
  let off := if x.kind = .append then wp else x.slba % zsze
  let set := if st = .empty then s.placeSet x.nsid (zoneOfKey zk) else z.set
  let rot := if st = .empty then s.nextRotation set else match z.fence with
    | some f => if f.finish then z.rot else f.newRot
    | none => z.rot
  let view := { z with set := set, rot := rot }
  let offs := ((List.range x.nlb).map fun i => off + i).filter fun o => decide (o < s.zcap)
  let need := s.bytesByBlock view offs
  let check := s.keeperCheck x.tenant zk (if x.kind = .append then none else some off) x.nlb
  let lack := (s.writeLack x zk need).both (if st = .empty ∧ check = none then s.activationLack set else some 0)
  if (s.stepOne x).passes = false then (.now (s.stepOne x), s)
  else if s.energyShort (4096 * x.nlb) then (.energy (s.energyTryAfter (4096 * x.nlb)), s)
  else if s.landingFull then (.later none, s)
  else if lack.passes = false then (.later lack, s)
  else
    let s := if st = .empty then s.issueRotation set else s
    match check with
    | some e => (.refuse e, s)
    | none =>
      let behind := z.fence.isSome
      let s := if st ≠ .empty then s
        else if behind then
          let (blocks, s) := s.takeBlocks (s.stripe set).members
          s.updZone zk fun z => { z with fence := z.fence.map fun f => { f with newDblk := blocks, newRot := rot } }
        else s.activate zk set rot false .implicitOpen
      let x := { x with places := offs.map fun o => some (zk, o), slba := x.slba / zsze * zsze + off, behind := behind }
      let (c, s) := s.acceptWrite held x zk need
      (.go, (s.advanceZone zk c x.nlb).startWrite c)

/-- The blocks and bytes of frames taken in reclaim units. -/
def State.bytesOfFrames (s : State) (ps : List (Nat × Nat)) : List (Nat × Nat) :=
  let bs := ps.map fun p => s.frameBlock p.1 p.2
  bs.eraseDups.map fun b => (b, 4096 * (bs.filter (· == b)).length)

/-- The lack of a free reclaim unit (R205): the projected end of the victim in progress is a time the spec gives no formula for
(log entry 2); with no victim nothing is projected. -/
def State.unitLack (s : State) (nsid : Nat) : Lack × State :=
  if (s.ns nsid).victim.isSome then
    let (v, s) := s.draw
    (some (1000000 * (1 + v % 1000000)), s)
  else (none, s)

/-- A write to a conventional namespace tried: its placement directive names the reclaim group and handle (R99, R203, R205). -/
def State.tryConventional (s : State) (held : Option Nat) (x : Ctx) : Verdict × State :=
  let place := s.placementOf x.nsid x.hdr.dspec
  let (frames, t) := s.takeFrames x.nlb x.nsid place.1 place.2
  let need := t.bytesOfFrames frames
  let zk := (frames.headD (zoneKey x.nsid 0, 0)).1
  let lack := t.writeLack x zk need
  if (s.stepOne x).passes = false then (.now (s.stepOne x), s)
  else if s.energyShort (4096 * x.nlb) then (.energy (s.energyTryAfter (4096 * x.nlb)), s)
  else if s.landingFull then (.later none, s)
  else if frames.length < x.nlb then
    let (l, s) := s.unitLack x.nsid
    (.later l, s)
  else if lack.passes = false then (.later lack, s)
  else
    let x := { x with places := frames.map some }
    let (c, t) := t.acceptWrite held x zk need
    let t := t.each ((frames.map (·.1)).eraseDups) fun zk t => t.updZone zk fun z => { z with writing := z.writing ++ [c] }
    (.go, t.startWrite c)

/-- A Copy of a conventional namespace tried: read like a Read, with frames and staging for what it writes (R58, R203, R218). -/
def State.tryCopy (s : State) (held : Option Nat) (x : Ctx) : Verdict × State :=
  let place := s.placementOf x.nsid x.hdr.dspec
  let (frames, t) := s.takeFrames x.nlb x.nsid place.1 place.2
  let need := t.bytesOfFrames frames
  let zk := (frames.headD (zoneKey x.nsid 0, 0)).1
  let lack := t.writeLack x zk need
  if (s.stepOne x).passes = false then (.now (s.stepOne x), s)
  else if s.energyShort (4096 * x.nlb) then (.energy (s.energyTryAfter (4096 * x.nlb)), s)
  else if s.landingFull then (.later none, s)
  else if frames.length < x.nlb then
    let (l, s) := s.unitLack x.nsid
    (.later l, s)
  else if lack.passes = false then (.later lack, s)
  else
    let c := held.getD t.work.nextCtx
    let t := t.each need fun n t => t.bookCipher n.1 (n.2 / 4096)
    let t := t.each ((frames.map (·.1)).eraseDups) fun zk t => t.updZone zk fun z => { z with writing := z.writing ++ [c] }
    match t.tryRead held { x with dest := frames.map some } with
    | (.go, t) => (.go, t)
    | (v, _) => (v, s)

/-- LBAs of a conventional namespace deallocated (R100). -/
def State.deallocate (s : State) (nsid slba n : Nat) : State :=
  let keys := ((s.ns nsid).fwd.map (·.1)).filter fun a => decide (slba ≤ a ∧ a < slba + n)
  s.each keys fun a s => s.mapFrame nsid a 0

/-- A Flush, a Dataset Management or a deallocating Write Zeroes tried: its token and its steward's calendar (R208, R213, R215); nothing more
of it waits. On a zoned namespace no LBA is deallocated (R100, R101). -/
def State.tryLight (s : State) (held : Option Nat) (x : Ctx) : Verdict × State :=
  let home := s.homeOf x.hdr
  let lack := s.stewardLack home.1 home.2
  if (s.stepOne x).passes = false then (.now (s.stepOne x), s)
  else if lack.passes = false then (.later lack, s)
  else
    let s := (s.takeTokens x).bookSteward home.1 home.2
    let s := if (s.ns x.nsid).zoned then s else s.each x.kind.discarded fun r s => s.deallocate x.nsid r.1 r.2
    let s := match held with
      | some c => s.setCtx c none
      | none => s
    (.go, s.complete x.hdr .success)

/-- A command tried for admission; `held` is the number of one that waits in compatibility mode. -/
def State.tryIo (s : State) (held : Option Nat) (x : Ctx) : Verdict × State :=
  match x.kind with
  | .flush | .discard _ => s.tryLight held x
  | .read | .compare => s.tryRead held x
  | .copy => s.tryCopy held x
  | _ => if (s.ns x.nsid).zoned then s.tryZoned held x else s.tryConventional held x

/-- A command that its own queue's held ones stand before (R380). -/
def State.behindHeld (s : State) (x : Ctx) : Bool :=
  (s.tenant x.tenant).heldCmds.any fun c => (s.ctxAt c).any fun y => y.hdr.ctrl == x.hdr.ctrl && y.hdr.sqid == x.hdr.sqid

/-- What follows a verdict on a new command (R219, R317, R380). -/
def settleVerdict (x : Ctx) (r : Verdict × State) : State :=
  match r.1 with
  | .refuse st => r.2.complete x.hdr st
  | .energy us => r.2.completeWith x.hdr .energyLow (min longestWaitUs (max 1 us)) 0 []
  | .now l => r.2.decline x.hdr x.tenant x.cls l.tryUs
  | .later l => r.2.declineOrHold x l
  | .go => r.2

/-- The buckets of a tenant brought up to now. -/
def State.accrue (s : State) (x : Ctx) : State := if x.cls = .dash then (s.accrueRa x.tenant).accrueDash x.tenant else s.accrueRa x.tenant

/-- A read or write as it reaches admission. A latched trip declines it (R517); in compatibility mode it waits behind what its queue
already holds and for an empty bucket (R380, R381). -/
def State.submit (s : State) (x : Ctx) : State :=
  if s.fetchStopped x then s
  else match s.precheck x with
  | some st => s.complete x.hdr st
  | none =>
    if s.aon.trip then s.decline x.hdr x.tenant x.cls longestWaitUs
    else
      let zs := (s.zonesOf { x with places := s.readPlaces x }).filter fun zk => (s.zone zk).rearm != 0
      if zs ≠ [] then s.declineRearm x zs
      else
        let s := s.accrue x
        if (s.stepOne x).passes && (s.behindHeld x || s.bucketsEmpty x.tenant) then s.declineOrHold x none
        else settleVerdict x (s.tryIo none x)

/-- READ_CMD (R48, R74, R77, R213). -/
def execReadCmd (h : Hdr) (slba nlb : Nat) (s : State) : Host.Outcome State Fault Refusal :=
  .next (s.io h fun s => s.submit (s.newCtx h .read slba (nlb + 1)))

/-- COMPARE_CMD (R48, R284). -/
def execCompareCmd (h : Hdr) (slba nlb : Nat) (data : List Block) (s : State) : Host.Outcome State Fault Refusal :=
  .next (s.io h fun s => s.submit { s.newCtx h .compare slba (nlb + 1) with expect := data })

/-- WRITE_CMD (R70, R203). -/
def execWriteCmd (h : Hdr) (slba nlb : Nat) (s : State) : Host.Outcome State Fault Refusal :=
  .next (s.io h fun s => s.submit (s.newCtx h .write slba (nlb + 1)))

/-- WRITE_ZEROES_CMD: a write of zeros (R58); on a conventional namespace with DEAC the LBAs are deallocated (R100). -/
def execWriteZeroesCmd (h : Hdr) (slba nlb : Nat) (deac : Bool) (s : State) : Host.Outcome State Fault Refusal :=
  .next (s.io h fun s =>
    if deac && !(s.ns h.nsid).zoned then s.submit { s.newCtx h (.discard [(slba, nlb + 1)]) 0 0 with zeros := true }
    else s.submit (s.newCtx h .writeZeroes slba (nlb + 1)))

/-- ZONE_APPEND_CMD (R73): the spec has it on zoned namespaces alone. -/
def execZoneAppendCmd (h : Hdr) (zslba nlb : Nat) (s : State) : Host.Outcome State Fault Refusal :=
  .next (s.io h fun s => s.submit (s.newCtx h .append zslba (nlb + 1)))

/-- COPY_CMD: refused on zoned namespaces (R58); on a conventional one the ranges, (first LBA, LBAs), are read and written in order. -/
def execCopyCmd (h : Hdr) (sdlba : Nat) (ranges : List (Nat × Nat)) (s : State) : Host.Outcome State Fault Refusal :=
  .next (s.io h fun s =>
    let lbas := ranges.flatMap fun r => (List.range (min r.2 257)).map fun i => r.1 + i
    let x := { s.newCtx h .copy ((ranges.headD (0, 0)).1) lbas.length with lbas := lbas, target := sdlba }
    match s.precheck { x with slba := 0 } with
    | some st => s.complete h st
    | none =>
      if lbas = [] then s.complete h .success
      else if (s.ns h.nsid).lbas < sdlba + lbas.length ∨ lbas.any (fun a => decide ((s.ns h.nsid).lbas ≤ a)) then s.complete h .lbaOutOfRange
      else s.submit { x with slba := lbas.headD 0 })

/-- FLUSH_CMD: every acknowledged write is already energy-backed (R58, R239). -/
def execFlushCmd (h : Hdr) (s : State) : Host.Outcome State Fault Refusal :=
  .next (s.io h fun s => s.submit (s.newCtx h .flush 0 0))

/-- DATASET_MGMT_CMD (R100, R101, R207). Ranges are (first LBA, LBAs); without the deallocate attribute no LBA is. -/
def execDatasetMgmtCmd (h : Hdr) (deallocate : Bool) (ranges : List (Nat × Nat)) (s : State) : Host.Outcome State Fault Refusal :=
  .next (s.io h fun s =>
    let x := { s.newCtx h (.discard (if deallocate then ranges else [])) 0 0 with cls := s.classOf h true }
    match s.precheck { x with kind := .discard ranges } with
    | some st => s.complete h st
    | none => s.submit x)

end Sys2Proof.Machine
end

