-- ==== Sys2Proof/Machine/Packed.lean ====
section
/-! DEFINITION. Packed Append and Packed Read (R239-R264): compression bursts, placement in the open parcel, parcel closes, output
space, decompression, and engines out of service. -/

namespace Sys2Proof.Machine

/-- Parcel hold, µs: 0 closes a parcel at the end of each command (*CMP_CFG*). -/
def State.holdUs (s : State) : Nat := min 200 (s.cfg .cmpCfg 0 31 24)

/-- The staging that an open parcel reserves and charges, bytes (R250). -/
def parcelCharge : Nat := 266240

/-- The Packed Appends of a zone not placed yet, in acceptance order (R248). -/
def State.unplaced (s : State) (zk : Nat) : List Nat :=
  (s.zone zk).writing.filter fun c => (s.ctxAt c).any fun x => x.kind == .packedAppend && !x.placed

/-- The open parcel closed (R249, R250): the write pointer advances by its LBAs, which go to the cipher engines and to staging under a
context of their own. -/
def State.closeParcel (s : State) (zk : Nat) : State :=
  let z := s.zone zk
  match z.parcel with
  | none => s
  | some p =>
    let n := parcelLbas p.grans
    let lead := (p.ctxs.head?).bind fun g => s.ctxAt g.1
    let tenant := (s.ns (nsOfKey zk)).tenant
    let blocks := parcelBlocks p.grans z.parcelSeq
    let x : Ctx :=
      { hdr := (lead.map (·.hdr)).getD { ctrl := 0, sqid := 0, cid := 0, nsid := nsOfKey zk, mc := false }, tenant := tenant, kind := .parcel,
        cls := (lead.map (·.cls)).getD .distance, phase := .ciphering, nsid := nsOfKey zk, slba := zoneOfKey zk * zsze + z.wp, nlb := n,
        zk := zk, off := z.wp, places := (List.range n).map fun i => some (zk, z.wp + i),
        data := (List.range n).map fun i => (i, blocks.getD i 0), discard := true, group := p.ctxs, startNs := s.now }
    let (c, s) := s.openCtx x
    let s := s.setZone zk { z with parcel := none, wp := z.wp + n, parcelSeq := z.parcelSeq + 1, writing := c :: z.writing,
                                   st := if z.wp + n = s.zcap then .full else z.st,
                                   parcels := z.parcels ++ [⟨z.wp, n, z.parcelSeq, p.grans.map (·.slices)⟩] }
    (s.updTenant tenant fun t => { t with charge := t.charge - parcelCharge }).cipherWrite c

/-- The engine that a parcel's buffer lies in (R259): one in service of the namespace's home region, or of its partner's. -/
def State.parcelEngine (s : State) (nsid : Nat) : Nat :=
  let g := (s.ns nsid).region
  let r := (s.engineRegion g).getD g
  4 * r + (((List.range 4).find? fun i => hasBit (s.rgn r).cmpIn i).getD 0)

/-- An open parcel with no granule yet, charged to the tenant's staging share (R250). -/
def State.openParcel (s : State) (zk : Nat) : State :=
  let n := nsOfKey zk
  (s.updZone zk fun z => { z with parcel := some ⟨[], [], s.parcelEngine n, s.now⟩ }).updTenant (s.ns n).tenant
    fun t => { t with charge := t.charge + parcelCharge }

/-- How many of a command's granules fit before the end of the zone, after those already in the parcel (R251). -/
def granulesFit (zcap wp : Nat) (held : List Granule) : List Granule → Nat
  | [] => 0
  | g :: gs => if wp + parcelLbas (held ++ [g]) ≤ zcap then 1 + granulesFit zcap wp (held ++ [g]) gs else 0

/-- A command stopped for output space with none of its granules placed (R251). -/
def State.spaceStop (s : State) (zk c : Nat) : State :=
  let wp := (s.zone zk).wp
  (s.leaveZone zk c).finishWith c .packedSpace 0 wp []

/-- The compressed granules of a command placed in the open parcel, or in a new one when they do not fit its count (R248); those past
the end of the zone stop it (R251). The parcel closes when it is full, when CLOSE asks it, and with no hold (R249). -/
def State.placeCommand (s : State) (zk c : Nat) (x : Ctx) : State :=
  let s := if (s.zone zk).parcel.any fun p => decide (64 < p.grans.length + x.grans.length) then s.closeParcel zk else s
  let held := ((s.zone zk).parcel.map (·.grans)).getD []
  let k := granulesFit s.zcap (s.zone zk).wp held x.grans
  if k = 0 then (s.closeParcel zk).spaceStop zk c
  else
    let s := if (s.zone zk).parcel.isNone then s.openParcel zk else s
    let s := s.updZone zk fun z => { z with parcel := z.parcel.map fun p =>
      { p with grans := p.grans ++ x.grans.take k, ctxs := p.ctxs ++ [(c, p.grans.length, k)], lastAt := s.now } }
    let s := s.setCtx c (some { x with placed := true })
    if k < x.grans.length ∨ held.length + k = 64 ∨ x.close ∨ s.holdUs = 0 then s.closeParcel zk else s

/-- Close, Finish and Reset of a packed zone close its open parcel once every earlier Packed Append is placed (R255). -/
def State.settleParcel (s : State) (zk : Nat) : State :=
  let z := s.zone zk
  if (z.closing.isSome || z.fence.isSome) && s.unplaced zk == [] then s.closeParcel zk else s

/-- Packed Appends placed in acceptance order, as far as their granules are compressed (R248). -/
def State.placeNext : Nat → State → Nat → State
  | 0, s, zk => s.settleParcel zk
  | n + 1, s, zk =>
    match s.unplaced zk with
    | [] => s.settleParcel zk
    | c :: _ =>
      match s.ctxAt c with
      | none => s.settleParcel zk
      | some x => if x.grans.length = x.granules then State.placeNext n (s.placeCommand zk c x) zk else s.settleParcel zk

/-- The placements of a zone brought up to date. -/
def State.place (s : State) (zk : Nat) : State := s.placeNext (s.unplaced zk).length zk

/-- The lack at the engines of a region for a class (R261, R262). -/
def State.engineLack (s : State) (g : Nat) (cls : Cls) : Lack :=
  match s.engineRegion g with
  | none => none
  | some r => s.busyLack (s.rgn r).cmpBusyUntil (if fastClass cls then 262144000 else 2621440000)

/-- Granules booked on the engines of a region at `ps` each (R262). -/
def State.bookEngine (s : State) (g n ps : Nat) : State :=
  match s.engineRegion g with
  | none => s
  | some r => s.updRgn r fun k => { k with cmpBusyUntil := max s.nowPs k.cmpBusyUntil + n * ps }

/-- What is wrong with a packed command before admission (R58, R239, R240, R247, R284); an ordering variant without compression engines knows no
packed command (R5, R8). -/
def State.packedCheck (s : State) (h : Hdr) (lba : Nat) (append : Bool) : Option Status :=
  if !s.hasCompression then some .invalidOpcode
  else match s.nsRefusal h with
  | some st => some st
  | none =>
    if !s.packedServed h.nsid then some .invalidOpcode
    else if h.unsupported then some .invalidField
    else if !s.keyAvailable h.nsid then some .keyUnavailable
    else if append ∧ lba % zsze ≠ 0 then some .invalidField
    else if (s.ns h.nsid).limit ≤ lba then some (if append then .lbaOutOfRange else .invalidField) else none

/-- A Packed Append tried (R247, R250, R262, R263). -/
def State.tryAppend (s : State) (held : Option Nat) (x : Ctx) : Verdict × State :=
  let zk := (zonePlace x.nsid x.slba).1
  let z := s.zone zk
  let (st, wp) := s.keeperView z
  let set := if st = .empty then s.placeSet x.nsid (zoneOfKey zk) else z.set
  let rot := if st = .empty then s.nextRotation set else match z.fence with
    | some f => if f.finish then z.rot else f.newRot
    | none => z.rot
  let view := { z with set := set, rot := rot }
  let need := s.bytesByBlock view (((List.range (x.granules + 1)).map fun i => wp + i).filter fun o => decide (o < s.zcap))
  let check := s.keeperCheck x.tenant zk none 0
  let bytes := 4096 * (x.granules + 1)
  let home := s.homeOf x.hdr
  let lack := ((s.writeLack { x with nlb := x.granules + 1 } zk need).both (s.engineLack home.1 x.cls)).both
    (if st = .empty ∧ check = none then s.activationLack set else some 0)
  if s.energyShort bytes then (.energy (s.energyTryAfter bytes), s)
  else if s.landingFull then (.later none, s)
  else if lack.passes = false then (.later lack, s)
  else
    let s := if st = .empty then s.issueRotation set else s
    match check with
    | some e => (.refuse e, s)
    | none =>
      let s := if st ≠ .empty then s
        else if z.fence.isSome then
          let (blocks, s) := s.takeBlocks (s.stripe set).members
          s.updZone zk fun z => { z with fence := z.fence.map fun f => { f with newDblk := blocks, newRot := rot } }
        else s.activate zk set rot false .implicitOpen
      let s := s.takeTokens x
      let s := s.each (s.writeStewards x.hdr zk) fun p s => s.bookSteward p.1 p.2
      let s := (s.each need fun n s => s.bookCipher n.1 (n.2 / 4096)).bookEngine home.1 x.granules 1024000
      let (c, s) := s.placeCtx held { x with phase := .fetching, zk := zk, behind := z.fence.isSome,
                                             deadline := s.deadlineFor x.tenant x.cls (s.overRdma x.hdr) true 5 1 }
      (.go, s.advanceZone zk c 0)

/-- A Packed Read tried: its header LBA is read first (R253, R262, R263). -/
def State.tryUnpack (s : State) (held : Option Nat) (x : Ctx) : Verdict × State :=
  let (zk, off) := zonePlace x.nsid x.slba
  let z := s.zone zk
  let fenced := z.fence.any fun f => !f.finish
  let x := { x with zk := zk, off := off, places := [some (zk, off)] }
  let home := s.homeOf x.hdr
  let plan := if fenced then {} else s.planRead x.tenant (readEntries s (held.getD s.work.nextCtx) x.cls (s.splitRead x [0]).2.2)
  let lack := (if fenced then some 0 else s.readLack x plan : Lack).both (s.engineLack home.1 x.cls)
  if z.st = .offline then (.refuse .zoneOffline, s)
  else if !fenced && decide (z.filled ≤ off) then (.refuse .invalidField, s)
  else if !fenced && s.lostLba (zk, off) then (.refuse .unrecovered, s)
  else if lack.passes = false then (.later lack, s)
  else
    let s := ((s.takeTokens x).bookSteward home.1 home.2).bookEngine home.1 x.granules 512000
    let (c, s) := s.placeCtx held { x with deadline := s.deadlineFor x.tenant x.cls (s.overRdma x.hdr) false 6 2 }
    if fenced then (.go, s.updZone zk fun z => { z with fence := z.fence.map fun f => { f with heldReads := f.heldReads ++ [c] } })
    else (.go, s.serveRead c plan)

/-- A packed command tried for admission. -/
def State.tryPacked (s : State) (held : Option Nat) (x : Ctx) : Verdict × State :=
  if x.kind = .packedAppend then s.tryAppend held x else s.tryUnpack held x

/-- A packed command as it reaches admission. -/
def State.submitPacked (s : State) (x : Ctx) : State :=
  if s.fetchStopped x then s
  else match s.packedCheck x.hdr x.slba (x.kind == .packedAppend) with
  | some st => s.complete x.hdr st
  | none =>
    let zk := (zonePlace x.nsid x.slba).1
    if s.aon.trip then s.decline x.hdr x.tenant x.cls longestWaitUs
    else if (s.zone zk).rearm ≠ 0 then s.declineRearm x [zk]
    else
      let s := s.accrue x
      if s.behindHeld x || s.bucketsEmpty x.tenant then s.declineOrHold x none else settleVerdict x (s.tryPacked none x)

/-- PACKED_APPEND (R247). NG is granules - 1, 6 bits. -/
def execPackedAppend (h : Hdr) (slba ng : Nat) (close : Bool) (s : State) : Host.Outcome State Fault Refusal :=
  .next (s.io h fun s =>
    let n := ng % 64 + 1
    s.submitPacked { s.newCtx h .packedAppend slba n with granules := n, close := close })

/-- PACKED_READ (R253). -/
def execPackedRead (h : Hdr) (pga ng : Nat) (s : State) : Host.Outcome State Fault Refusal :=
  .next (s.io h fun s =>
    let n := ng % 64 + 1
    s.submitPacked { s.newCtx h .packedRead (pga / 64) n with granules := n, first := pga % 64 })

/-- HOST_DATA_ARRIVAL (R48, step 1). A fetch that failed completes with Data Transfer Error; the LBAs it was given were accepted, so
they are staged all the same. Data of a Packed Append wait for their burst's baton (R260). -/
def execHostDataArrival (ctx : Nat) (ok : Bool) (data : List Block) (s : State) : Host.Outcome State Fault Refusal :=
  .next (match s.ctxAt ctx with
    | none => s
    | some x =>
      if x.phase ≠ .fetching then s
      else
        let s := s.hostAllowance ctx x
        let packed := x.kind = .packedAppend
        let n := if packed then x.granules else x.places.length
        let width := 8 * (4096 + (if packed then 0 else mdBytes (s.ns x.nsid).lbaf))
        let mask := fun (b : Block) => BitVec.ofNat 32896 (b.toNat % 2 ^ width)
        if !ok && packed then ((s.leaveZone x.zk ctx).finish ctx .transferError).place x.zk
        else
          let (blocks, s) := if ok then ((List.range n).map fun i => mask (data.getD i 0), s)
            else let (bs, s) := s.freeBlocksFor n; (bs.map mask, s.complete x.hdr .transferError)
          let s := s.updCtx ctx fun x => { x with data := (List.range n).map fun i => (i, blocks.getD i 0), discard := x.discard || !ok }
          if packed then (s.updCtx ctx fun x => { x with phase := .compressing }).requestBaton (.burst ctx) else s.cipherWrite ctx)


/-- An engine of a region taken out of service (R245, R261): its bursts start again on another, its decompressions too, the parcels in
its buffer close; a region left without engines is served by its partner. Cause 1 = verify limit, 2 = collector. -/
def State.engineOut (s : State) (e cause : Nat) : State :=
  let g := e / 4
  if hasBit (s.rgn g).cmpIn (e % 4) = false then s
  else
    let s := s.updRgn g fun r => { r with cmpIn := clearBit r.cmpIn (e % 4) }
    let s := (s.raiseEngine 0x0902 e (countBits (s.rgn g).cmpIn 4) cause 0).unitFailed (srcCompress g)
    let s := if (s.rgn g).cmpIn = 0 ∧ s.engineRegion g = some (partnerRegion g) then
        (s.updRgn g fun r => { r with cmpPartner := true, cmpPartnerAt := s.now }).raiseEngine 0x0903 e (partnerRegion g) 0 0 else s
    let s := s.each (s.ctxIds fun x => x.engine == some e) fun c s => s.updCtx c fun x => { x with engine := none, grans := [] }
    let s := s.each (Tbl.numbers (fun z => z.parcel.any fun p => p.engine == e) s.zones) fun zk s => s.closeParcel zk
    s.assignEngines

/-- A verify mismatch of an engine: event 0x0901, and at VFY_LIMIT of them within 1 s the engine goes out of service (R245). -/
def State.verifyMismatch (s : State) (e i : Nat) (h : Hdr) : State :=
  let g := e / 4
  let recent := ((s.rgn g).mismatches.filter fun m => m.1 == e % 4 && decide (s.now < m.2 + 1000000000)).length + 1
  let s := s.updRgn g fun r => { r with mismatches := (r.mismatches.filter fun m => decide (s.now < m.2 + 1000000000)) ++ [(e % 4, s.now)] }
  let s := s.raiseEngine 0x0901 e (h.sqid % 65536 * 65536 + h.cid % 65536) i recent
  if max 1 (s.cfg .cmpCfg 0 23 20) ≤ recent then s.engineOut e 1 else s

/-- One granule of a burst compressed (R245); with the last one the burst ends and its baton returns (R260). Of a stream that is not stored raw for its length the
model runs the comparison itself; `fault` is a mismatch that the engine showed. -/
def State.granuleDone (s : State) (c : Nat) (x : Ctx) (e len : Nat) (fault : Bool) : State :=
  let i := x.grans.length
  let mismatch := fault || (decide (len ≤ 3072) && !streamVerifies (x.dataAt i) len)
  let n := granuleSlices len mismatch
  let x := { x with grans := x.grans ++ [⟨x.dataAt i, len, n⟩] }
  let s := s.updRgn (e / 4) fun r => { r with granules := r.granules + 1, slices := r.slices + n }
  let s := if i + 1 < x.granules then s.setCtx c (some x)
    else (((s.setCtx c (some { x with phase := .waiting, engine := none })).returnBaton (.burst c)).assignEngines).place x.zk
  if mismatch then s.verifyMismatch e i x.hdr else s

/-- COMPRESS_GRANULE_DONE (R245): only a burst that holds its baton and an engine compresses (R260). -/
def execCompressGranuleDone (ctx streamLen : Nat) (mismatch : Bool) (s : State) : Host.Outcome State Fault Refusal :=
  .next (match s.ctxAt ctx with
    | none => s
    | some x =>
      match x.kind, x.phase, x.engine with
      | .packedAppend, .compressing, some e =>
        if x.grans.length < x.granules ∧ s.broker.holds (.burst ctx) then s.granuleDone ctx x e streamLen mismatch else s
      | _, _, _ => s)

/-- The granules of a Packed Read as returned data. -/
def granuleFields (gs : List Granule) : List FieldVal :=
  (List.range gs.length).map fun i => ⟨4096 * i, 4096, userBytes ((gs.map (·.plain)).getD i 0)⟩

/-- `n` slices from slice `k` of a parcel, out of the LBAs read (R241). -/
def Ctx.slicesAt (x : Ctx) (k n : Nat) : Nat :=
  (List.range n).foldl (fun v j => v + userBytes (x.dataAt ((k + j) / 4)) / 2 ^ (8192 * ((k + j) % 4)) % 2 ^ 8192 * 2 ^ (8192 * j)) 0

/-- The bytes of a granule stored raw: four slices from slice `k` of the parcel (R243). -/
def Ctx.rawGranule (x : Ctx) (k : Nat) : Block := BitVec.ofNat 32896 (x.slicesAt k 4)

/-- The next granule of a Packed Read out of the LBAs read: decompressed unless it is raw, and checked against its GCRC (R253, R254). -/
def Ctx.nextGranule (x : Ctx) : GranuleOutcome × Block :=
  let i := x.grans.length
  let size := x.sizes.getD i (0, 1)
  let check := fun (b : Block) =>
    if granuleCrc b = headField (x.dataAt 0) (32 + 4 * (x.first + i)) 4 then (GranuleOutcome.ok, b) else (.gcrc, b)
  if size.2 = 4 then check (x.rawGranule size.1)
  else match inflate (x.slicesAt size.1 size.2) (8192 * size.2) with
    | none => (.malformed, 0)
    | some (n, v) => if n = 4096 then check (BitVec.ofNat 32896 v) else (.badLength, 0)

/-- One granule of a Packed Read decoded well (R253): the last one ends the command, with Decode Output Limit Exceeded where the parcel
held fewer than were asked for. -/
def State.granuleGood (s : State) (c : Nat) (x : Ctx) (plain : Block) : State :=
  let i := x.grans.length
  let x := { x with grans := x.grans ++ [⟨plain, 4096, (x.sizes.getD i (0, 1)).2⟩] }
  if i + 1 < x.granules then s.setCtx c (some x)
  else
    let s := if x.close then s.finishWith c .decodeLimit x.granules 0 (granuleFields x.grans)
      else s.finishWith c .success 0 0 (granuleFields x.grans)
    s.assignEngines

/-- Cause code of event 0x0905. -/
def granuleCause : GranuleOutcome → Nat
  | .ok => 0
  | .gcrc => 1
  | .badLength => 2
  | .malformed => 3

/-- DECOMPRESS_GRANULE_DONE (R253, R254): a damaged granule ends the command with those before it transferred. What the LBAs read hold decides; an outcome other
than good that the engine gives stands as well. -/
def execDecompressGranuleDone (ctx : Nat) (outcome : GranuleOutcome) (s : State) : Host.Outcome State Fault Refusal :=
  .next (match s.ctxAt ctx with
    | none => s
    | some x =>
      if x.kind ≠ .packedRead ∨ x.phase ≠ .compressing ∨ x.engine.isNone then s
      else
      let (found, plain) := x.nextGranule
      let outcome := if outcome = .ok then found else outcome
      if outcome = .ok then s.granuleGood ctx x plain
      else
        let s := s.raisePacked 0x0905 x.zk (x.slba % 2 ^ 32) (x.first + x.grans.length) (granuleCause outcome)
        (s.finishWith ctx .unrecovered 0 0 (granuleFields x.grans)).assignEngines)

/-- PARCEL_HOLD_EXPIRY (R249). -/
def execParcelHoldExpiry (nsid zone : Nat) (s : State) : Host.Outcome State Fault Refusal :=
  let zk := zoneKey nsid zone
  .next (if s.running && (s.zone zk).parcel.isSome && s.unplaced zk == [] then s.closeParcel zk else s)

end Sys2Proof.Machine
end

