-- ==== Sys2Proof/Machine/Zones.lean ====
section
/-! DEFINITION. Zone management (R65-R68, R75-R82, R86-R89, R185, R255): opening, closing, finishing, resetting and reporting zones,
fences and what waits behind them, ages, and re-arm. -/

namespace Sys2Proof.Machine

/-- A parity job of a unit's rows. -/
def ParityJob.ofUnit (zk : Nat) : ParityJob → Bool
  | .quarter z _ _ | .final z _ | .topUp z _ => z == zk
  | .rebuild _ _ => false

/-- The passes of a unit that no die has started leave the die queues, with the batons they hold or wait for (R394). -/
def State.dropPasses (s : State) (zk : Nat) : State :=
  let mine := fun (e : QEntry) => (e.kind == .coarse || e.kind == .fine) && e.zk == zk
  s.each ((s.dies.filter fun p => p.2.queue.any mine).map (·.1)) fun k s =>
    let ids := ((s.die k).queue.filter mine).map (·.id)
    let s := s.updDie k fun d => { d with queue := d.queue.filter fun e => !mine e }
    let s := s.each ids fun i s => s.unbook k i
    if (s.heavyOp k).any fun o => o.entry.kind == .coarse || o.entry.kind == .fine then s
    else (s.returnBaton (.program (k / 8) (k % 8))).askBatons k

/-- A relocation of a unit's member cancelled: reset or finish (R81, R194). -/
def State.cancelRelocation (s : State) (zk : Nat) : State :=
  let z := s.zone zk
  let s := match z.relocTgt with
    | none => s
    | some (p, _) => match s.memberDie z p with
      | none => s
      | some k => s.endRelocation k 1 false
  s.mapDies fun _ d => { d with relocWant := d.relocWant.filter fun w => w.1 != zk }

/-- A unit leaves its die blocks: its staged rows and parity are released, its passes and relocation end, its blocks go to the erase
queues (R76 steps 4 and 5, R81, R102). -/
def State.cutUnit (s : State) (zk : Nat) : State :=
  let s := s.onWork fun w => { w with rows := w.rows.filter fun r => r.zk != zk }
  let s := s.each (Tbl.numbers (fun o => o.any fun (j : ParityJob) => j.ofUnit zk) s.work.parities) fun n s => s.dropParityJob n
  (((s.dropPasses zk).cancelRelocation zk).releaseUnit zk).compareDirty

/-- A read that a fence held, served from the new state without a new admission; its time went on (R77). -/
def State.resumeRead (s : State) (c : Nat) : State :=
  match s.ctxAt c with
  | none => s
  | some x =>
    let x := { x with frozen := [] }
    let serve := fun (x : Ctx) (s : State) =>
      (s.setCtx c (some x)).serveRead c (s.forcedPlan (readEntries s c x.cls (s.splitRead x (List.range x.places.length)).2.2))
    if x.kind = .packedRead then
      if (s.zone x.zk).st = .offline then s.finish c .zoneOffline
      else if (s.zone x.zk).filled ≤ x.off then s.finish c .invalidField else serve x s
    else
      let x := { x with places := s.readPlaces x }
      if (s.zonesOf x).any fun zk => (s.zone zk).st == .offline then s.finish c .zoneOffline
      else match s.fencedZones x with
        | zk :: _ => s.updZone zk fun z => { z with fence := z.fence.map fun f => { f with heldReads := f.heldReads ++ [c] } }
        | [] => match s.readStatus x with
          | some st => s.finish c st
          | none => serve x s

/-- A write that waited behind a reset has its zone: its stored blocks take their places, where reads accepted before the reset keep what was there (R77),
and what is in both copies is dirty (R76). -/
def State.joinZone (s : State) (c : Nat) : State :=
  match s.ctxAt c with
  | none => s
  | some x =>
    let s := s.each x.frozen fun p s => match x.places.getD p.1 none with
      | none => s
      | some q => (s.keepOld q.1 q.2).storeBlock q.1 q.2 p.2
    let s := s.setCtx c (some { x with behind := false, frozen := [] })
    if x.phase = .done then
      let ps := x.places.filterMap fun p => p
      let s := s.each ps fun p s => s.stageLba x.tenant p.1 p.2
      s.each ((ps.map fun p => (p.1, rowOf p.2)).eraseDups) fun p s => s.startQuarters p.1 p.2
    else s

/-- The completions held behind a reset, in acceptance order (R76, step 7). -/
def State.postHeld (s : State) (cs : List Nat) : State :=
  s.each cs fun c s => match s.ctxAt c with
    | none => s
    | some x => if x.phase = .done then s.ackWrite c x else s

/-- One zone of a Select All reset done: with the last one the command completes, then what waited behind it (R79). -/
def State.selectAllStep (s : State) (h : Hdr) (due : Option Nat) (zk : Nat) (cs : List Nat) : State :=
  match s.work.selectAll.find? fun e => e.1 == h with
  | none => s.postHeld cs
  | some (_, zs, held) =>
    let zs := zs.filter (· != zk)
    let held := held ++ cs
    let rest := s.work.selectAll.filter fun e => e.1 != h
    if zs = [] then ((s.onWork fun w => { w with selectAll := rest }).answer (some h) due).postHeld held
    else s.onWork fun w => { w with selectAll := rest ++ [(h, zs, held)] }

/-- The completion of a zone's reset, and of what was held behind it. -/
def State.postReset (s : State) (zk : Nat) (f : Fence) : State :=
  match f.all, f.hdr with
  | true, some h => s.selectAllStep h f.due zk f.behind
  | _, h => (s.answer h f.due).postHeld f.behind

/-- A reset takes effect (R76, steps 4 to 7, R255). -/
def State.resetNow (s : State) (zk : Nat) (f : Fence) : State :=
  let s := s.cutUnit zk
  let z := s.zone zk
  let new : Zone := { waiting := z.waiting }
  let n := s.store.activations + 1
  let s := if f.behind = [] then s.commitZone zk new
    else (s.onStore fun t => { t with activations := n }).commitZone zk
      { new with st := if f.pendingWp = s.zcap then .full else .implicitOpen, wp := f.pendingWp, set := z.set, rot := f.newRot,
                 dblk := f.newDblk, valid := true, packed := z.packed, writing := f.behind, lastWrite := z.lastWrite, activatedAt := n }
  let s := (s.each f.behind fun c s => s.joinZone c).compareDirty
  let s := (s.postReset zk f).place zk
  (s.each f.heldReads fun c s => s.resumeRead c).serveWaiting

/-- Hours since the last accepted write of a zone (R86, R87). -/
def State.ageHours (s : State) (z : Zone) : Nat := z.ageHours + (s.now - z.lastWrite) / 3600000000000

/-- A finish takes effect: Full with the write pointer at ZCAP, the incomplete row padded and its final parity asked for (R80); an excursion is the
device's own (R67, R86). A finish of an Empty zone takes no die blocks: the spec does not say that it does (DESIGN CHOICE, log entry 183). -/
def State.finishNow (s : State) (zk : Nat) (f : Fence) : State :=
  let s := s.cancelRelocation zk
  let z := s.zone zk
  let s := s.setZone zk { z with st := .full, fzr := false, zfc := z.zfc || f.hdr.isNone, wp := s.zcap, padFrom := some z.wp }
  let s := if f.hdr.isSome then s
    else (s.zoneChanged zk).raiseZone 0x0483 zk (max (s.cfg .chipZonePolicy 0 23 16) (s.ageHours z)) 0
  let s := if z.wp % 256 ≠ 0 ∧ (s.stagedRow zk (rowOf z.wp)).isSome then
      (s.updRow zk (rowOf z.wp) fun r => { r with padded := true }).addParityWork (.final zk (rowOf z.wp))
    else s.finishPadded zk
  s.queuePasses zk

/-- A fence of a zone that has lost its stripe set: its command and what is behind it end with the zone's status, reads go on (R68). -/
def State.fenceFailed (s : State) (zk : Nat) (f : Fence) : State :=
  let z := s.zone zk
  let off := z.st = .offline
  let s := s.setZone zk { z with fence := none }
  let s := s.each (List.range f.newDblk.length) fun p s => match s.memberDie z p with
    | none => s
    | some k => s.releaseBlock k (f.newDblk.getD p 0)
  let s := match f.all, f.hdr with
    | true, some h => s.selectAllStep h f.due zk []
    | _, some h => (s.measureDue h f.due).complete h (if off then .zoneOffline else .invalidTransition)
    | _, none => s
  let s := s.each f.behind fun c s => s.finish c (if off then .zoneOffline else .zoneReadOnly)
  s.each f.heldReads fun c s => s.resumeRead c

/-- A fence passes once every write-type command accepted before it is acknowledged (R75, R76, R80). -/
def State.passFence (s : State) (zk : Nat) : State :=
  let z := s.zone zk
  match z.fence, z.writing with
  | some f, [] =>
    if z.st = .offline ∨ z.st = .readOnly then s.fenceFailed zk f
    else if f.finish then (if z.st = .full then s else s.finishNow zk f) else s.resetNow zk f
  | _, _ => s

/-- A reset or finish fence set for a command (R75, R80); a reset revokes the windows of the zone first (R358). -/
def State.setFence (s : State) (zk : Nat) (finish : Bool) (h : Option Hdr) (all : Bool) (due : Option Nat) : State :=
  let s := if finish then s else s.revokeWindows zk 1
  (s.updZone zk fun z => { z with fence := some ⟨finish, h, all, 0, [], 0, [], [], due⟩ }).place zk

/-- Open Zone (R66, R78, R91, R173). -/
def State.openZone (s : State) (h : Hdr) (zk : Nat) : Verdict × State :=
  let z := s.zone zk
  let ok := fun (st : ZoneSt) => (Verdict.go, (s.setZone zk { z with st := st }).complete h .success)
  match z.st with
  | .offline => (.refuse .zoneOffline, s)
  | .readOnly | .full => (.refuse .invalidTransition, s)
  | .explicitOpen => ok .explicitOpen
  | .implicitOpen | .closed => ok .explicitOpen
  | .empty =>
    let set := s.placeSet (nsOfKey zk) (zoneOfKey zk)
    let offs := { z with set := set, rot := s.nextRotation set }
    let lack := (s.activationLack set).both (s.cipherLacks ((s.bytesByBlock offs (List.range 256)).map (·.1)) (s.classOf h true))
    let refused := if (s.stripe set).degraded then some Status.laneSetDegraded
      else if s.mayActivate (s.ns (nsOfKey zk)).tenant then none else some .tooManyActive
    if refused = none ∧ lack.passes = false then (.later lack, s)
    else
      let rot := s.nextRotation set
      let s := s.issueRotation set
      match refused with
      | some st => (.refuse st, s)
      | none => (.go, (s.activate zk set rot false .explicitOpen).complete h .success)

/-- Close Zone (R66); of a packed zone it waits for the Packed Appends accepted before it (R255). -/
def State.closeZone (s : State) (h : Hdr) (due : Option Nat) (zk : Nat) : Verdict × State :=
  let z := s.zone zk
  match z.st with
  | .offline => (.refuse .zoneOffline, s)
  | .empty | .readOnly | .full => (.refuse .invalidTransition, s)
  | .closed => (.go, s.complete h .success)
  | .implicitOpen | .explicitOpen =>
    if z.packed && (z.writing != [] || z.parcel.isSome) then (.go, (s.setZone zk { z with closing := some h, closeDue := due }).place zk)
    else (.go, (s.setZone zk { z with st := .closed }).complete h .success)

/-- Finish Zone (R66, R80). -/
def State.finishZone (s : State) (h : Hdr) (due : Option Nat) (zk : Nat) : Verdict × State :=
  match (s.zone zk).st with
  | .offline => (.refuse .zoneOffline, s)
  | .readOnly => (.refuse .invalidTransition, s)
  | .full => (.go, s.complete h .success)
  | .empty | .implicitOpen | .explicitOpen | .closed => (.go, (s.setFence zk true (some h) false due).passFence zk)

/-- Reset Zone (R66, R75, R76 step 1). -/
def State.resetZone (s : State) (h : Hdr) (due : Option Nat) (zk : Nat) : Verdict × State :=
  match (s.zone zk).st with
  | .offline => (.refuse .zoneOffline, s)
  | .readOnly => (.refuse .invalidTransition, s)
  | .empty => (.go, s.complete h .success)
  | .implicitOpen | .explicitOpen | .closed | .full => (.go, s.setFence zk false (some h) false due)

/-- Offline Zone (R66): its die blocks go to the erase queues. -/
def State.offlineZone (s : State) (h : Hdr) (zk : Nat) : Verdict × State :=
  match (s.zone zk).st with
  | .offline => (.refuse .zoneOffline, s)
  | .readOnly => (.go, (((s.revokeWindows zk 2).cutUnit zk).commitMap zk fun z => { z with st := .offline, valid := false, dblk := [], refills := [] }).complete h .success)
  | .empty | .implicitOpen | .explicitOpen | .closed | .full => (.refuse .invalidTransition, s)

/-- The zones that a Select All reset affects: opened, closed and full ones (R66, R79). -/
def State.resettable (s : State) (nsid : Nat) : List Nat :=
  (Tbl.numbers (fun z => z.active || z.st == .full) s.zones).filter fun zk => nsOfKey zk == nsid

/-- Reset Zone with Select All (R79). -/
def State.resetAllZones (s : State) (h : Hdr) (due : Option Nat) : Verdict × State :=
  let zs := s.resettable h.nsid
  if zs = [] then (.go, s.complete h .success)
  else
    let s := s.onWork fun w => { w with selectAll := w.selectAll ++ [(h, zs, [])] }
    (.go, s.each zs fun zk s => s.setFence zk false (some h) true due)

/-- A zone management action (R66). -/
def State.zoneAct (s : State) (act : ZoneAct) (h : Hdr) (due : Option Nat) (zk : Nat) : Verdict × State :=
  match act with
  | .openZone => s.openZone h zk
  | .close => s.closeZone h due zk
  | .finish => s.finishZone h due zk
  | .reset => s.resetZone h due zk
  | .resetAll => s.resetAllZones h due
  | .offline => s.offlineZone h zk

/-- A zone whose fence or Close must end before it takes another management command. -/
def Zone.busy (z : Zone) : Bool := z.fence.isSome || z.closing.isSome

/-- The code of a zone state (R65). -/
def ZoneSt.code : ZoneSt → Nat
  | .empty => 0x1
  | .implicitOpen => 0x2
  | .explicitOpen => 0x3
  | .closed => 0x4
  | .readOnly => 0xD
  | .full => 0xE
  | .offline => 0xF

/-- The states that a reporting option selects: 0 all, then the states in the standard's order (PRESUMED; log entry 6). -/
def filterTakes (filter : Nat) (st : ZoneSt) : Bool :=
  filter == 0 || [0x1, 0x2, 0x3, 0x4, 0xE, 0xD, 0xF].getD (filter - 1) 0 == st.code

/-- A zone descriptor at byte `o` (R60, R65, R80). -/
def State.zoneDescriptor (s : State) (nsid k o : Nat) : List FieldVal :=
  let z := s.zone (zoneKey nsid k)
  let start := k * zsze
  [⟨o, 1, 2⟩, ⟨o + 1, 1, 16 * z.st.code⟩, ⟨o + 2, 1, bit z.zfc + 2 * bit z.fzr⟩, ⟨o + 8, 8, s.zcap⟩, ⟨o + 16, 8, start⟩,
   ⟨o + 24, 8, start + if z.st = .full then s.zcap else z.wp⟩]

/-- Report Zones from a zone on, as many descriptors as the buffer holds: a partial report counts those alone, another one every zone that matches
(R58, R89; log entry 6). -/
def State.report (s : State) (nsid first filter most : Nat) (isPartial : Bool) : List FieldVal :=
  let n := (s.ns nsid).units
  let zs := ((List.range (n - first)).map fun i => first + i).filter fun k => filterTakes filter (s.zone (zoneKey nsid k)).st
  ⟨0, 8, if isPartial then min most zs.length else zs.length⟩ :: ((zs.take most).zip (List.range most)).flatMap fun p => s.zoneDescriptor nsid p.1 (64 + 64 * p.2)

/-- A management command tried: the steward calendars of *Admission*, and a fence or Close in progress before it. It touches no stripe unit: its bound
is that of its class (R209, log entry 181), and a held one has none (R380). -/
def State.tryManage (s : State) (x : Ctx) : Verdict × State :=
  let zk := (zonePlace x.nsid x.slba).1
  let lack := s.stewardLacks (s.writeStewards x.hdr zk)
  let due := if x.heldAt ≠ 0 then none else match x.deadline with
    | some t => some t
    | none => s.deadlineFor x.tenant x.cls (s.overRdma x.hdr) false 1 1
  if lack.passes = false then (.later lack, s)
  else
    let s := s.each (s.writeStewards x.hdr zk) fun p s => s.bookSteward p.1 p.2
    match x.kind with
    | .report filter most part => (.go, s.completeWith x.hdr .success 0 0 (s.report x.nsid (x.slba / zsze) filter most part))
    | .manage act =>
      match (if act = .resetAll then s.resettable x.nsid else [zk]).find? fun zk => (s.zone zk).busy with
      | some zk =>
        let (c, s) := s.openCtx { x with phase := .waiting, zk := zk, deadline := due }
        (.go, s.updZone zk fun z => { z with waiting := z.waiting ++ [c] })
      | none => s.zoneAct act x.hdr due zk
    | _ => (.go, s)

/-- What is wrong with a zone management command before admission (R58, R239, R240); Extended Report Zones is an unsupported option (R58). -/
def State.manageCheck (s : State) (h : Hdr) (slba : Nat) (aligned : Bool) : Option Status :=
  let n := s.ns h.nsid
  match s.nsRefusal h with
  | some st => some st
  | none =>
    if !n.zoned || (n.packed && !s.hasCompression) then some .invalidOpcode
    else if h.unsupported then some .invalidField
    else if n.limit ≤ slba then some .lbaOutOfRange
    else if aligned && slba % zsze != 0 then some .invalidField else none

/-- A zone management command as it reaches admission. A report is served for zones not yet re-armed too (R89). -/
def State.submitManage (s : State) (h : Hdr) (slba : Nat) (kind : CtxKind) (aligned : Bool) : State :=
  match s.manageCheck h slba aligned with
  | some st => s.complete h st
  | none =>
    let x : Ctx := { hdr := h, tenant := s.tenantOf h.ctrl, kind := kind, cls := s.classOf h true, phase := .waiting, nsid := h.nsid,
                     slba := slba, startNs := s.now }
    let zs := match kind with
      | .report _ _ _ => []
      | .manage .resetAll => (s.resettable h.nsid).filter fun zk => (s.zone zk).rearm != 0
      | _ => [(zonePlace h.nsid slba).1].filter fun zk => (s.zone zk).rearm != 0
    if s.aon.trip then s.decline h x.tenant x.cls longestWaitUs
    else if zs ≠ [] then s.declineRearm x zs
    else if s.behindHeld x then s.declineOrHold x none
    else settleVerdict x (s.tryManage x)

/-- The management commands that wait at a zone go on, as long as it is not busy again. -/
def State.runWaiting : Nat → State → Nat → State
  | 0, s, _ => s
  | n + 1, s, zk =>
    let z := s.zone zk
    match z.waiting with
    | [] => s
    | c :: rest =>
      if z.busy then s
      else match s.ctxAt c with
        | none => State.runWaiting n (s.setZone zk { z with waiting := rest }) zk
        | some x =>
          let s := (s.setZone zk { z with waiting := rest }).setCtx c none
          State.runWaiting n (settleVerdict x (s.tryManage x)) zk

/-- ZONE_OPEN (R66). -/
def execZoneOpen (h : Hdr) (slba : Nat) (s : State) : Host.Outcome State Fault Refusal :=
  .next (s.io h fun s => s.submitManage h slba (.manage .openZone) true)

/-- ZONE_CLOSE (R66, R255). -/
def execZoneClose (h : Hdr) (slba : Nat) (s : State) : Host.Outcome State Fault Refusal :=
  .next (s.io h fun s => s.submitManage h slba (.manage .close) true)

/-- ZONE_FINISH (R80). -/
def execZoneFinish (h : Hdr) (slba : Nat) (s : State) : Host.Outcome State Fault Refusal :=
  .next (s.io h fun s => s.submitManage h slba (.manage .finish) true)

/-- ZONE_RESET (R75). -/
def execZoneReset (h : Hdr) (slba : Nat) (s : State) : Host.Outcome State Fault Refusal :=
  .next (s.io h fun s => s.submitManage h slba (.manage .reset) true)

/-- ZONE_RESET_ALL (R79). -/
def execZoneResetAll (h : Hdr) (s : State) : Host.Outcome State Fault Refusal :=
  .next (s.io h fun s => s.submitManage h 0 (.manage .resetAll) false)

/-- ZONE_OFFLINE (R66). -/
def execZoneOffline (h : Hdr) (slba : Nat) (s : State) : Host.Outcome State Fault Refusal :=
  .next (s.io h fun s => s.submitManage h slba (.manage .offline) true)

/-- REPORT_ZONES (R65, R89). -/
def execReportZones (h : Hdr) (slba : Nat) (pick : ReportPick) (maxZones : Nat) (s : State) : Host.Outcome State Fault Refusal :=
  .next (s.io h fun s => s.submitManage h slba (.report pick.states maxZones pick.isPartial) false)

/-- ZONE_SET_DESC_EXT: zone descriptor extensions are not supported (R58). -/
def execZoneSetDescExt (h : Hdr) (slba : Nat) (s : State) : Host.Outcome State Fault Refusal :=
  let _ := slba
  .next (s.io h fun s => match s.nsRefusal h with
    | some st => s.complete h st
    | none => s.complete h .invalidField)

/-- ZONE_RESET_FENCE_CLEAR (R76, R80): what waits behind the fence goes on. -/
def execZoneResetFenceClear (nsid zone : Nat) (s : State) : Host.Outcome State Fault Refusal :=
  let zk := zoneKey nsid zone
  .next (if s.running then
      let s := s.passFence zk
      s.runWaiting (s.zone zk).waiting.length zk
    else s)

/-- ZONE_FZR_TIMEOUT (R86): 0 hours disables it. -/
def execZoneFzrTimeout (nsid zone : Nat) (s : State) : Host.Outcome State Fault Refusal :=
  let zk := zoneKey nsid zone
  .next (if s.running && (s.zone zk).active && s.cfg .chipZonePolicy 0 31 24 != 0 then s.updZone zk fun z => { z with fzr := true } else s)

/-- ZONE_AE_TIMEOUT (R86): the device finishes the zone itself. -/
def execZoneAeTimeout (nsid zone : Nat) (s : State) : Host.Outcome State Fault Refusal :=
  let zk := zoneKey nsid zone
  .next (if s.running && (s.zone zk).active && !(s.zone zk).ru && (s.zone zk).fence.isNone && s.cfg .chipZonePolicy 0 23 16 != 0 then
      (s.setFence zk true none false none).passFence zk
    else s)

end Sys2Proof.Machine
end

