-- ==== Sys2Proof/Machine/Rearm.lean ====
section
/-! DEFINITION. Re-arm of the zones that a restore left with incomplete rows: parity recomputed over restored and read units, compared and
repaired (R88, R89, R185). -/

namespace Sys2Proof.Machine

/-- The next zone to re-arm (R88, R89): those that commands asked for, then ascending. -/
def State.nextRearm (s : State) : Option Nat :=
  match s.work.rearmHead.find? fun zk => (s.zone zk).rearm == 1 with
  | some zk => some zk
  | none => (Tbl.numbers (fun z => z.rearm == 1) s.zones).head?

/-- ZONE_REARM_START (R88): up to 64 at once, once tenant 0 is ready. -/
def execZoneRearmStart (s : State) : Host.Outcome State Fault Refusal :=
  .next (
    if !s.running || !(s.tenant 0).ready || decide (64 ≤ s.rearmActive.length) then s
    else match s.nextRearm with
      | none => s
      | some zk => (s.updZone zk fun z => { z with rearm := 2, rearmAt := s.now }).onWork fun w =>
          { w with rearmHead := w.rearmHead.filter (· != zk) })

/-- The data unit that the syndromes of a row point at: with P off by a, Q is off by 2^d times a in every frame of data member `d`
(R174, R185). -/
def pointedUnit (synP synQ : Nat → Block) : Option Nat :=
  (List.range 16).find? fun d => (List.range 16).all fun j => synQ j == gfScale (gfPow d) (synP j)

/-- What re-arm finds of a row (*Re-arm outcomes*): the outcome code, the member position, and which positions are lost, all 18 for a row with
no single unit to blame. -/
structure RearmFinding where
  code : Nat
  pos : Nat
  gone : List Nat
  deriving DecidableEq, Repr

/-- The data units of a row as re-arm has them: a place of an incomplete row that was never staged counts as zeros (R180, R185). -/
def State.rearmUnit (s : State) (r : Row) (d j : Nat) : Block := s.stagedUnit r.zk r.row r.staged (r.padded || r.quarters == 4) d j

/-- What re-arm finds of a row whose units at `failed` positions did not decode (R185). A unit that failed alone is corrected when the rest
agrees with the other parity. -/
def State.rearmFinding (s : State) (r : Row) (failed : List Nat) : RearmFinding :=
  let rot := (s.zone r.zk).rot
  let par := s.rowParity r.zk r.row
  let unit := s.rearmUnit r
  let synP := fun (j : Nat) => Tbl.look 0 par.p j ^^^ parityP (List.range 16) fun d => unit d j
  let synQ := fun (j : Nat) => Tbl.look 0 par.q j ^^^ parityQ (List.range 16) fun d => unit d j
  let goodP := (List.range 16).all fun j => synP j == 0
  let goodQ := (List.range 16).all fun j => synQ j == 0
  let agrees := fun (pos : Nat) => match dataAt rot pos with
    | some d => (List.range 16).all fun j => synQ j == gfScale (gfPow d) (synP j)
    | none => if pos = pPosition rot then goodQ else goodP
  match failed with
  | [] =>
    if goodP && goodQ then ⟨0, 0, []⟩
    else if goodQ then ⟨1, pPosition rot, []⟩
    else if goodP then ⟨2, qPosition rot, []⟩
    else match pointedUnit synP synQ with
      | some d => ⟨3, positionOfData rot d, []⟩
      | none => ⟨4, 18, List.range 18⟩
  | [pos] => if agrees pos then ⟨3, pos, []⟩ else ⟨4, pos, List.range 18⟩
  | pos :: _ => ⟨4, pos, failed⟩

/-- The repair of a row (*Re-arm outcomes*): a data unit is corrected from P, parity is computed again over the data, or the LBAs of the lost
units are marked lost. -/
def State.rearmRepair (s : State) (r : Row) (f : RearmFinding) : State :=
  let z := s.zone r.zk
  let unit := s.rearmUnit r
  let par := s.rowParity r.zk r.row
  let s := match f.code with
    | 1 | 2 => s.writeParity r.zk r.row (List.range 16) unit
    | 3 => match dataAt z.rot f.pos with
      | none => s.writeParity r.zk r.row (List.range 16) unit
      | some d => s.each (List.range 16) fun j s => s.storeBlock r.zk (256 * r.row + 16 * d + j)
          (unit d j ^^^ Tbl.look 0 par.p j ^^^ parityP (List.range 16) fun e => unit e j)
    | 4 =>
      let units := f.gone.filterMap fun p => (dataAt z.rot p).map fun d => (256 * r.row + 16 * d, 16)
      s.commitMap r.zk fun z => { z with lostData := true, lost := z.lost ++ units }
    | _ => s
  if f.code = 0 then s else s.raise 0x0491 s.srcStarters (Config.mapIndex r.zk % 2 ^ 18) f.code r.row f.pos

/-- A frame as it was read: its content takes its place (R185). -/
def State.seeFrame (s : State) (zk : Nat) (f : SeenFrame) : State := s.placeContent zk f.row f.pos f.frame f.content

/-- The member positions of a row whose units failed their decode, of all units that did: (row, position). -/
def Row.failedAt (r : Row) (failed : List (Nat × Nat)) : List Nat :=
  ((failed.filter fun f => f.1 == r.row && decide (f.2 < 18)).map (·.2)).eraseDups

/-- A restored row re-armed (R185). -/
def State.rearmRow (s : State) (r : Row) (failed : List (Nat × Nat)) (seen : List SeenFrame) : State :=
  let mine := seen.filter fun f => f.row == r.row && decide (f.pos < 18 ∧ f.frame < 16)
  let s := s.each mine fun f s => s.seeFrame r.zk f
  s.rearmRepair r (s.rearmFinding r (r.failedAt failed))

/-- ZONE_REARM_DONE: every restored row of the zone is compared and repaired, and the zone is ready (R88, R185). `failed` names the
units that failed their decode, `data` and `parity` the frames of data members and of P and Q that reading found other than they were left. -/
def execZoneRearmDone (nsid zone : Nat) (failed : List (Nat × Nat)) (data parity : List SeenFrame) (s : State) :
    Host.Outcome State Fault Refusal :=
  let zk := zoneKey nsid zone
  .next (
    if !s.running || (s.zone zk).rearm != 2 then s
    else
      let s := s.each (s.work.rows.filter fun r => r.zk == zk) fun r s => s.rearmRow r failed (data ++ parity)
      s.commitMap zk fun z => { z with rearm := 0 })

end Sys2Proof.Machine
end

