-- ==== Sys2Proof/Machine/Upkeep.lean ====
section
/-! DEFINITION. Background work on the media: patrol, retention, read disturb, relocation, stripe rebuild, garbage collection, the
erase of released die blocks, and the maintenance bucket (R76 step 8, R182, R190, R193-R206). -/

namespace Sys2Proof.Machine

/-- The units in the order of patrol: ascending T_FULL, active ones last (R195). -/
def State.patrolOrder (s : State) : List (Nat × Zone) :=
  let us := s.zones.filter fun p => p.2.valid
  (us.filter fun p => p.2.tFull != 0).mergeSort (fun a b => a.2.tFull ≤ b.2.tFull) ++ us.filter fun p => p.2.tFull == 0

/-- The programmed pages of a die, in the order of patrol: unit, position, page. -/
def State.patrolPages (s : State) (k : Nat) : List (Nat × Nat × Nat) :=
  s.patrolOrder.flatMap fun p => (List.range 18).flatMap fun pos =>
    if s.memberAt p.2 pos = some k then (List.range (4 * Tbl.look 0 p.2.fine pos)).map fun r => (p.1, pos, r) else []

/-- A page patrolled as Distance work: its 16 frames (R195). -/
def State.patrolPage (s : State) (k zk pos row : Nat) : State :=
  let z := s.zone zk
  s.enqueueRead k { id := 0, kind := .patrol, cls := .distance, zk := zk, off := 256 * row + 16 * (dataAt z.rot pos).getD 0,
                    frames := 16, pos := pos, block := blockOfRow z pos row, page := row }

/-- A page has been patrolled in this pass: the rows of a member are patrolled in order (R195). -/
def State.patrolled (s : State) (p : Nat × Nat × Nat) : Bool := decide (p.2.2 < Tbl.look 0 (s.zone p.1).patrolled p.2.1)

/-- The programmed pages of every die in service: those patrolled in this pass, and all. -/
def State.patrolShare (s : State) : Nat × Nat :=
  (s.dies.filter fun p => !p.2.lost).foldl (fun a p =>
    let l := s.patrolPages p.1
    (a.1 + (l.filter s.patrolled).length, a.2 + l.length)) (0, 0)

/-- The pass's progress, and its end: event 0x0497 and a new pass (R195). -/
def State.patrolProgress (s : State) : State :=
  let (done, all) := s.patrolShare
  if all = 0 then s
  else if done < all then s.onStore fun t => { t with patrolProgress := done * 65536 / all }
  else
    let t := s.store
    let s := s.raise 0x0497 s.srcStarters (t.patrolPasses + 1) ((s.now - t.patrolSince) / 1000000000) t.patrolFindings 0
    (s.mapZones fun _ z => { z with patrolled := [] }).onStore fun t =>
      { t with patrolPasses := satAdd 16 t.patrolPasses 1, patrolProgress := 0, patrolFindings := 0, patrolSince := s.now }

/-- PATROL_READ_START (R195, R196): pages asked for ahead of the pass first, then the next page of the die that the pass has not read; one patrol
read of a die at a time, while its queue has room (R145). -/
def execPatrolReadStart (lane die : Nat) (s : State) : Host.Outcome State Fault Refusal :=
  let k := dieKey lane die
  let d := s.die k
  .next (
    if !s.running || d.lost || d.st == .absent || d.queue.any (fun e => e.kind == .patrol) || !s.queueRoom k then s
    else match d.early with
      | (zk, pos, r) :: rest =>
        let s := s.setDie k { d with early := rest }
        if (s.zone zk).valid then s.patrolPage k zk pos r else s
      | [] => match (s.patrolPages k).find? fun p => !s.patrolled p with
        | none => s.patrolProgress
        | some (zk, pos, r) =>
          ((s.updZone zk fun z => { z with patrolled := Tbl.put 0 z.patrolled pos (r + 1) }).patrolPage k zk pos r).patrolProgress)

/-- RETENTION_DUE: every member is relocated in turn (R196); RET_DAYS = 0 is no trigger. -/
def execRetentionDue (nsid zone : Nat) (s : State) : Host.Outcome State Fault Refusal :=
  let zk := zoneKey nsid zone
  .next (if s.running && (s.zone zk).valid && (s.zone zk).tFull != 0 && s.cfg .chipMediaCfg 0 7 0 != 0 then
      s.each (List.range 18) fun p s => s.startRelocation zk p 3
    else s)

/-- The unit and position whose die block on a die is `block`. -/
def State.unitOfBlock (s : State) (k block : Nat) : Option (Nat × Nat) :=
  (s.zones.filter fun p => p.2.valid).findSome? fun p =>
    ((List.range 18).find? fun pos => s.memberDie p.2 pos == some k && p.2.dblk.getD pos 0 == block).map fun pos => (p.1, pos)

/-- READ_DISTURB_THRESHOLD: a scan of the die block at RD_SCAN thousand reads, its relocation at twice that (R196). -/
def execReadDisturbThreshold (lane die block : Nat) (limit : Bool) (s : State) : Host.Outcome State Fault Refusal :=
  let k := dieKey lane die
  let n := s.readCount k block
  let scan := 1000 * s.cfg .chipMediaCfg 0 23 16
  .next (
    if !s.running then s
    else match s.unitOfBlock k block with
      | none => s
      | some (zk, pos) =>
        if limit then (if 2 * scan ≤ n then s.startRelocation zk pos 2 else s)
        else if scan ≤ n then s.patrolBlock k zk pos n 1 else s)

/-- The FDP event of a moved reclaim-unit member (R99, R196). -/
def State.mediaMoved (s : State) (zk : Nat) : State :=
  if (s.zone zk).ru then (s.fdpEvent 0x80 (nsOfKey zk) 0).notify (s.ns (nsOfKey zk)).tenant (.mediaReallocated (nsOfKey zk)) else s

/-- RELOCATION_COMPLETE (R193 steps 5 and 6, R196). -/
def execRelocationComplete (lane die : Nat) (s : State) : Host.Outcome State Fault Refusal :=
  let k := dieKey lane die
  .next (match (s.die k).reloc with
    | none => s
    | some (zk, pos, src, tgt, _) =>
      let z := s.zone zk
      let aged := z.st = .full ∨ z.st = .readOnly
      let s := s.dropCopies k tgt
      let n := Tbl.look 0 z.fine pos
      let z := { z.replace pos tgt with
                     coarse := Tbl.put 0 z.coarse pos (if n = 0 ∨ s.closingLine z < n then n else n + 1)
                     relocTgt := none, relocating := false, relocWl := 0, tFull := if aged then s.now else z.tFull }
      let s := s.commitZone zk z
      let s := (s.updDie k fun d => { d with reloc := none }).raiseMember 0x048C k zk pos src tgt
      (((s.releaseBlock k src).mediaMoved zk).queuePass zk pos).startWaiting)

/-- A unit's member as the rebuild leaves it: a position of the spare, programmed as far as the other members (R201). -/
def State.rebuiltMember (s : State) (zk pos k : Nat) : State :=
  let s := if (s.zone zk).refills.any fun r => r.pos == pos then s else s.beginRefill zk pos k
  let z := s.zone zk
  let line := ((List.range 18).filter fun p => p != pos && (s.memberDie z p).isSome).foldl (fun m p => max m (Tbl.look 0 z.fine p)) 0
  let s := s.commitZone zk { z with refills := z.refills.filter fun r => r.pos != pos,
                                    coarse := Tbl.put 0 z.coarse pos (max line (Tbl.look 0 z.coarse pos)),
                                    fine := Tbl.put 0 z.fine pos (max line (Tbl.look 0 z.fine pos)) }
  let s := s.onWork fun w => { w with rows := w.rows.map fun r =>
    if r.zk = zk ∧ r.row / 4 < line ∧ !r.fineDone.contains pos then { r with fineDone := r.fineDone ++ [pos] } else r }
  (s.releaseRows.mediaMoved zk).queuePass zk pos

/-- STRIPE_REBUILD_COMPLETE: the spare takes the lost position (R91, R201). -/
def execStripeRebuildComplete (set : Nat) (s : State) : Host.Outcome State Fault Refusal :=
  .next (match (s.stripe set).rebuild with
    | none => s
    | some (pos, k, _, since) =>
      let units := s.unitsOnSet set
      let s := s.updStripe set fun x => { x with members := x.members.set pos (some k), was := x.was.set pos k, rebuild := none }
      let s := s.each units fun zk s => s.rebuiltMember zk pos k
      (s.raise 0x0486 s.srcStarters set pos k ((s.now - since) / 1000000000)).retryRebuild set)

/-- The next victim: the full reclaim unit with the fewest valid blocks, the oldest T_FULL among equals (R204). -/
def State.chooseVictim (s : State) (nsid : Nat) : Option Nat :=
  ((s.unitsHeld nsid).filter fun zk => (s.zone zk).st == .full).foldl (fun (best : Option Nat) zk =>
    match best with
    | none => some zk
    | some b =>
      let v := s.zone zk
      let w := s.zone b
      if v.validBlocks < w.validBlocks ∨ (v.validBlocks = w.validBlocks ∧ v.tFull < w.tFull) then some zk else some b) none

/-- GC_START (R204). -/
def execGcStart (nsid : Nat) (s : State) : Host.Outcome State Fault Refusal :=
  let n := s.ns nsid
  .next (
    if s.running && n.present && !n.zoned && n.victim.isNone && (decide (s.freeUnits nsid ≤ 2) || (n.gcOn && decide (s.freeUnits nsid < 4))) then
      match s.chooseVictim nsid with
      | none => s
      | some zk => s.setNs nsid { n with victim := some zk, gcOn := true, gcMoved := 0 }
    else s)

/-- The LBAs whose frames lie in a unit, by its reverse map (R203). -/
def State.mappedTo (s : State) (nsid unit : Nat) : List Nat :=
  ((s.zone (zoneKey nsid unit)).rev.filter fun p => p.2 != 0).map fun p => p.2 - 1

/-- GC_VICTIM_RECLAIMED (R204): once none of its frames is valid any more the victim goes to the erase queue. -/
def execGcVictimReclaimed (nsid : Nat) (s : State) : Host.Outcome State Fault Refusal :=
  let n := s.ns nsid
  .next (match n.victim with
    | none => s
    | some zk =>
      if s.mappedTo nsid (zoneOfKey zk) ≠ [] then s
      else
        let t := (s.cutUnit zk).commitZone zk {}
        let t := t.updNs nsid fun n => { n with victim := none, gcMoved := 0 }
        let t := t.raise 0x0494 t.srcStarters nsid (Config.mapIndex zk % 2 ^ 18) n.gcMoved 0
        if t.freeUnits nsid < 4 then t.updNs nsid fun n => { n with victim := t.chooseVictim nsid }
        else t.updNs nsid fun n => { n with gcOn := false })

/-- A read that references a die block waits or runs (R76, step 8). -/
def State.blockRead (s : State) (k block : Nat) : Bool :=
  (s.die k).queue.any (fun e => e.kind.isRead && e.block == block) ||
  s.work.ops.any fun p => p.2.any fun o => p.1 / 256 == k / 8 && o.die == k % 8 && o.entries.any fun e => e.kind.isRead && e.block == block

/-- A landing die block may be erased: programmed, no landing under way, with every unit restored from it covered by the bank or released
(R182). -/
def State.landErasable (s : State) (k block : Nat) : Bool :=
  (s.die k).landDirty.contains (block == s.landPosition (s.die k) true) && s.power.landing.isNone &&
  !s.store.directory.any fun u => u.die == k && s.landPosition (s.die k) u.blockB == block && s.work.rows.any fun r =>
    r.covered && r.zk == u.zk && r.row == u.row

/-- OLD_BLOCK_ERASE_START (R76 step 8, R182, R193 step 6): the erase of a released die block that no read references any more. -/
def execOldBlockEraseStart (lane die block : Nat) (s : State) : Host.Outcome State Fault Refusal :=
  let k := dieKey lane die
  let d := s.die k
  let landing := s.isLandBlock d block
  .next (
    if !s.running || d.lost || d.queue.any (fun e => e.kind == .erase && e.block == block) ||
      (s.heavyOp k).any (fun o => o.entry.kind == .erase && o.entry.block == block) || s.blockRead k block then s
    else if d.eraseQueue.contains block then s.queueErase k block
    else if landing then
      (if s.landErasable k block then s.queueErase k block else s)
    else s)

/-- MAINT_BUCKET_FULL: 10 ms of MAINT_RATE; a lane that waits for recalibration may go (R115, R190). -/
def execMaintBucketFull (s : State) : Host.Outcome State Fault Refusal :=
  .next (if s.running then
      (s.onTmk fun k => { k with maintLevel := 10 * (s.cfg .chipRaCfg 0 19 8 : Nat), maintFull := true }).seekRecal
    else s)

end Sys2Proof.Machine
end

