-- ==== Sys2Proof/Machine/Namespaces.lean ====
section
/-! DEFINITION. Namespaces and their keys: creation, deletion and attachment, Format and Sanitize, security alarms and the entropy source
(R97, R98, R238, R273-R290, R364, R365, R450, R571). -/

namespace Sys2Proof.Machine

/-- LBA indexes of an accepted write whose units are not enciphered yet: all of them while its data are fetched or read. -/
def State.unitsMissing (s : State) (c : Nat) (x : Ctx) : List Nat :=
  if x.phase = .ciphering then s.work.ciphers.flatMap fun p => (p.2.map fun j => if j.ctx = c then j.units.map fun u => u.2.2 else []).getD []
  else List.range x.places.length

/-- An accepted write given up: the LBAs it was given are staged all the same, since the write pointer has passed them; units not enciphered
yet take the blocks given, in ascending LBA order. Nothing more is posted for it. -/
def State.abandonWrite (s : State) (c : Nat) (blocks : List Block) : State :=
  match s.ctxAt c with
  | none => s
  | some x =>
    let missing := s.unitsMissing c x
    let s := s.dropJobsOf c
    let s := s.each (missing.zip blocks) fun p s => match x.places.getD p.1 none with
      | none => s
      | some q => if x.behind then s.updCtx c fun x => { x with frozen := x.frozen ++ [p] } else (s.keepOld q.1 q.2).storeBlock q.1 q.2 p.2
    s.updCtx c fun x => { x with phase := .staging, discard := true }

/-- A held command leaves its tenant's list. -/
def State.unhold (s : State) (x : Ctx) (c : Nat) : State :=
  s.updTenant x.tenant fun t => { t with heldCmds := t.heldCmds.filter (· != c) }

/-- A command that an alarm ends with Key Unavailable (R283 step 5, R284): it needs the key still, or is a packed one not acknowledged. -/
def Ctx.needsKey (x : Ctx) : Bool :=
  match x.kind with
  | .flush | .manage _ | .report _ _ _ => false
  | .discard _ => x.zeros
  | _ => x.phase != .staging && x.phase != .done

/-- The open parcel of a zone discarded, with its charge (R284). -/
def State.discardParcel (s : State) (zk : Nat) : State :=
  (s.updZone zk fun z => { z with parcel := none }).updTenant (s.ns (nsOfKey zk)).tenant fun t => { t with charge := t.charge - parcelCharge }

/-- One command ended by an alarm. Writes already given their LBAs leave free blocks there: the spec states no contents (log entry 2). -/
def State.alarmEnd (s : State) (c : Nat) : State :=
  match s.ctxAt c with
  | none => s
  | some x =>
    let give := fun (s : State) =>
      let (bs, s) := s.freeBlocksFor (s.unitsMissing c x).length
      s.abandonWrite c bs
    if x.phase = .held then (s.unhold x c).finish c .keyUnavailable
    else match x.kind with
      | .write | .append | .writeZeroes => give (if x.discard then s else s.complete x.hdr .keyUnavailable)
      | .packedAppend => ((s.leaveZone x.zk c).dropJobsOf c).finish c .keyUnavailable
      | .parcel =>
        let s := s.each x.group fun g s => (s.leaveZone x.zk g.1).finish g.1 .keyUnavailable
        give (s.updCtx c fun x => { x with group := [] })
      | _ => (s.dropJobsOf c).finish c .keyUnavailable

/-- Steps 2 to 5 of *Alarm response*: keys and derivation state are gone, jobs stop, commands that need a key end, open parcels go. -/
def State.alarmZero (s : State) : State :=
  let s := s.each (s.ctxIds Ctx.needsKey) fun c s => s.alarmEnd c
  let s := s.each (Tbl.numbers (fun z => z.parcel.isSome) s.zones) fun zk s => s.discardParcel zk
  let s := s.each (s.blks.map (·.1)) fun b s => s.updBlk b fun k => { k with cipRun := none, cipSusp := [] }
  (s.onWork fun w => { w with ciphers := [] }).onCph fun c => { c with mrk := false, keys := [], keysReady := false }

/-- Step 6 of *Alarm response*: REVOKED is programmed in every seed entry, and the seed record's erase begins. -/
def State.revokeSeeds (s : State) : State :=
  (s.programRevoked.mapNss fun _ n => { n with revoked := n.present }).onCph fun c => { c with erasing := true }

/-- SECURITY_ALARM (R282, R283): sources 2 and 3 are always enabled. Parameter 2 of event 0x0803 is 1 when the source's bit of ERASE_SEEDS is set: the spec does not say
what number it holds (DESIGN CHOICE, log entry 192). -/
def execSecurityAlarm (source : Nat) (s : State) : Host.Outcome State Fault Refusal :=
  .next (
    if !s.running || decide (4 < source) || !(source == 2 || source == 3 || s.cfgBit .cphAlarmCfg 0 source) then s
    else
      let erase := s.cfgBit .cphAlarmCfg 0 (16 + source)
      let s := s.onCph fun c => { c with alarm := true, fired := setBit c.fired source }
      let s := s.alarmZero
      let s := if erase then s.revokeSeeds else s
      (s.raise 0x0803 (if source = 4 then srcOutside else srcAon) s.cph.fired.toNat (bit erase) 0 0).notify 0 .securityAlarm)

/-- ALARM_SEED_ERASE_DONE (R283 step 6): neither copy holds a usable entry any more. -/
def execAlarmSeedEraseDone (s : State) : Host.Outcome State Fault Refusal :=
  .next (
    if s.running && s.cph.erasing then
      (s.eraseSeeds.mapNss fun _ n => { n with seedOk := false }).onCph fun c => { c with erasing := false, seedsErased := true }
    else s)

/-- DRBG_HEALTH_FAIL (R274): 1 = repetition count, 2 = adaptive proportion. -/
def execDrbgHealthFail (test : Nat) (s : State) : Host.Outcome State Fault Refusal :=
  .next (
    if s.running && s.cph.drbgOk then (s.onCph fun c => { c with drbgOk := false }).raise 0x0809 s.srcStarters test 0 0 0
    else s)

/-- The checked nonce of a namespace's seed entry (R273): one that gives K1 = K2 is replaced before the first write. Nothing is derived after
an alarm. All four units derive the key; event 0x080A names the unit of the namespace's home region (DESIGN CHOICE, log entry 191). -/
def State.checkNonce (s : State) (nsid : Nat) : State :=
  let n := s.ns nsid
  if s.cph.alarm || keyUsable (namespaceKey s.cph.uds nsid n.slot n.gen n.nonce) then s
  else
    let (v, s) := s.draw
    (s.updNs nsid fun n => { n with nonce := v % 2 ^ 256 }).raise 0x080A (srcKdu n.region) nsid n.slot n.gen 0

/-- A new key for a namespace: GEN + 1 with a new nonce, written to both copies, derived and loaded (R286 steps 3 and 4). -/
def State.newKey (s : State) (nsid nonce : Nat) : State :=
  let s := s.updNs nsid fun n => { n with gen := n.gen + 1, nonce := nonce % 2 ^ 256, seedOk := true, revoked := false, noKey := false }
  let s := (s.checkNonce nsid).writeSeed nsid
  if s.cph.alarm then s else s.loadKey nsid

/-- Every zone or reclaim unit of a namespace Empty, its staged data released, its die blocks in the erase queues, its maps cleared (R102, R286
steps 2 and 5). -/
def State.emptyNs (s : State) (nsid : Nat) : State :=
  let zs := (s.zones.map (·.1)).filter fun zk => nsOfKey zk == nsid
  let s := s.each zs fun zk s => (s.cutUnit zk).setZone zk {}
  s.updNs nsid fun n => { n with fwd := [], opened := [], gcUnit := none, victim := none, gcOn := false }

/-- Commands accepted to a namespace before its fence that have not ended: contexts at work, and fences of its zones (R286 step 1). -/
def State.nsBusy (s : State) (nsid : Nat) : Bool :=
  s.ctxIds (fun x => x.nsid == nsid && x.phase != .held) != [] ||
  s.zones.any fun p => nsOfKey p.1 == nsid && (p.2.fence.isSome || p.2.closing.isSome)

/-- A namespace crypto-erased, or emptied with its key kept (R286, R288). -/
def State.eraseNs (s : State) (nsid nonce cause : Nat) (crypto : Bool) : State :=
  let s := s.emptyNs nsid
  if !crypto then s
  else
    let s := s.newKey nsid nonce
    let n := s.ns nsid
    s.raise 0x0802 s.srcStarters nsid n.tenant n.gen cause

/-- A deleted namespace: its seed entry is erased in both copies and its slot released (R290). -/
def State.removeNs (s : State) (nsid : Nat) : State :=
  let slot := (s.ns nsid).slot
  ((s.emptyNs nsid).onCph fun c => { c with keys := Tbl.put 0 c.keys slot 0 }).dropSeed nsid |>.setNs nsid {}

/-- The die blocks that a Block Erase erases on a die: every position but the bad ones, the landing area among them (R289). -/
def State.sanitizeBlocks (s : State) (k : Nat) (d : Die) : List Nat :=
  d.eraseQueue ++ d.erasedBlocks ++ s.freshPositions k ++
    ((List.range (s.store.blocks - s.diePositions k)).map fun i => s.diePositions k + i).filter (fun b =>
      decide (b < s.store.blocks - 2) || s.isLandBlock d b) ++ d.landMoved.map fun p => p.2

/-- The block erase that follows the crypto erases of a sanitize: every die block of every die in service is queued for erase (R289). -/
def State.eraseEverything (s : State) : State :=
  let s := s.mapDies fun k d => if d.lost ∨ d.st = .absent then d
    else { d with eraseQueue := s.sanitizeBlocks k d, erasedBlocks := [], nextBlock := s.diePositions k }
  (s.onStore fun t => { t with sanitizeTotal := s.sanitizeLeft })

/-- A Format, sanitize or deletion carried out once the commands before its fence have ended (R286, R288-R290). -/
def State.runErasure (s : State) (e : Erasure) : State :=
  let s := s.each (e.nsids.zip (List.range e.nsids.length)) fun p s =>
    if e.delete then s.removeNs p.1
    else
      let (v, s) := if p.2 = 0 then (e.nonce, s) else s.draw
      s.eraseNs p.1 v e.cause e.crypto
  let unfence := fun (s : State) => s.each e.nsids fun n s => s.updNs n fun x => { x with fenced := false }
  if e.cause = 2 then
    let s := if e.blocks then s.eraseEverything else s
    if e.blocks ∧ s.store.sanitizeTotal ≠ 0 then s else (unfence s).onStore fun t => { t with sanitize := 1 }
  else ((if e.delete then s else unfence s)).complete e.hdr .success

/-- The erasures whose namespaces have become idle are carried out. -/
def State.runErasures (s : State) : State :=
  s.each (s.work.erasures.filter fun e => !e.nsids.any s.nsBusy) fun e s =>
    (s.onWork fun w => { w with erasures := w.erasures.filter (· != e) }).runErasure e

/-- An erasure begun: the namespaces are fenced, their windows revoked, and it runs once they are idle (R286 step 1, R358). -/
def State.beginErasure (s : State) (e : Erasure) : State :=
  let s := s.each e.nsids fun n s => (s.updNs n fun x => { x with fenced := true }).revokeAll n (if e.delete then 4 else 3)
  (s.onWork fun w => { w with erasures := w.erasures ++ [e] }).runErasures

/-- The namespaces of a tenant, or of all. -/
def State.nsOf (s : State) (p : Ns → Bool) : List Nat := Tbl.numbers (fun n => n.present && p n) s.nss

/-- FORMAT_NVM (R286, R288, R363): SES 1 and 2 are crypto erases. NSID FFFFFFFFh names every namespace of tenant 0. -/
def execFormatNvm (h : Hdr) (ses nonce : Nat) (s : State) : Host.Outcome State Fault Refusal :=
  .next (s.admin ruleAny h fun s =>
    let t := s.tenantOf h.ctrl
    let all := h.nsid = 0xFFFFFFFF
    let ns := if all then s.nsOf fun n => n.tenant == 0 else [h.nsid]
    if s.store.sanitize = 2 then s.complete h .sanitizeInProgress
    else if 2 < ses then s.complete h .invalidField
    else if all ∧ t ≠ 0 then s.complete h .invalidNamespace
    else if !all && (!(s.ns h.nsid).present || (s.ns h.nsid).tenant != t) then s.complete h .invalidNamespace
    else if ns.any fun n => (s.ns n).fenced then s.complete h .notReady
    else if ses ≠ 0 ∧ s.cph.drbgOk = false then s.complete h .internalError
    else s.beginErasure { hdr := h, nsids := ns, crypto := ses != 0, nonce := nonce, cause := 1 })

/-- A Sanitize that erases (R289): accepted on tenant 0 only; it runs on after its completion. -/
def State.startSanitize (s : State) (h : Hdr) (nonce : Nat) (blocks : Bool) : State :=
  if s.tenantOf h.ctrl ≠ 0 then s.complete h .invalidOpcode
  else if s.store.sanitize = 2 then s.complete h .sanitizeInProgress
  else if s.cph.drbgOk = false then s.complete h .internalError
  else
    let s := (s.onStore fun t => { t with sanitize := 2, sanitizeTotal := 0 }).complete h .success
    s.beginErasure { hdr := h, nsids := s.nsOf fun _ => true, crypto := true, nonce := nonce, cause := 2, blocks := blocks }

/-- SANITIZE_CRYPTO_ERASE (R289). -/
def execSanitizeCryptoErase (h : Hdr) (nonce : Nat) (s : State) : Host.Outcome State Fault Refusal :=
  .next (s.admin ruleAny h fun s => s.startSanitize h nonce false)

/-- SANITIZE_BLOCK_ERASE (R289). -/
def execSanitizeBlockErase (h : Hdr) (nonce : Nat) (s : State) : Host.Outcome State Fault Refusal :=
  .next (s.admin ruleAny h fun s => s.startSanitize h nonce true)

/-- SANITIZE_EXIT_FAILURE (R289): leaves a failed sanitize; otherwise it changes nothing. -/
def execSanitizeExitFailure (h : Hdr) (s : State) : Host.Outcome State Fault Refusal :=
  .next (s.admin ruleAny h fun s =>
    if s.tenantOf h.ctrl ≠ 0 then s.complete h .invalidOpcode
    else if s.store.sanitize = 2 then s.complete h .sanitizeInProgress
    else (if s.store.sanitize = 3 then s.onStore fun t => { t with sanitize := 0 } else s).complete h .success)

/-- The key pages that a tenant holds. -/
def State.pagesOf (s : State) (t : Nat) : List Nat := Tbl.numbers (fun o => o == t + 1) s.cph.pages

/-- The key pages of a tenant's floor given to it, the lowest free ones (R277, R369). -/
def State.givePages (s : State) (t : Nat) : State :=
  let n := (s.tenant t).lim.keyFloor - (s.pagesOf t).length
  s.each (((List.range 256).filter fun p => Tbl.look 0 s.cph.pages p == 0).take n) fun p s =>
    s.onCph fun c => { c with pages := Tbl.put 0 c.pages p (t + 1) }

/-- The slot bound to a namespace. -/
def State.slotBound (s : State) (slot : Nat) : Bool := s.nss.any fun p => p.2.present && p.2.slot == slot

/-- A key slot for a new namespace of a tenant (R277, R369): the lowest free one of its pages, else of a page taken from the pool. -/
def State.takeSlot (s : State) (t : Nat) : Option (Nat × State) :=
  match ((s.pagesOf t).flatMap fun p => (List.range 16).map fun i => 16 * p + i).find? fun k => !s.slotBound k with
  | some k => some (k, s)
  | none =>
    match (List.range 256).find? fun p => Tbl.look 0 s.cph.pages p == 0 with
    | none => none
    | some p =>
      if s.poolFits 256 (·.keyFloor) (·.keyShare) (fun u => (s.pagesOf u).length) t 1 then
        some (16 * p, s.onCph fun c => { c with pages := Tbl.put 0 c.pages p (t + 1) })
      else none

/-- The pool that a tenant's namespaces lie in: its dedicated lane set, or the shared pool (R365). -/
def Tenant.pool (t : Tenant) : Nat := if t.laneset then 1 + t.setId else 0

/-- Zones or reclaim units of a pool's namespaces of one kind. -/
def State.unitsIn (s : State) (pool : Nat) (zoned : Bool) : Nat :=
  Tbl.sum (fun n => if n.present && n.pool == pool && n.zoned == zoned then n.units else 0) s.nss

/-- Bytes of the CONV class that a conventional namespace needs (R450). -/
def State.convBytes (s : State) (n : Ns) : Nat := if n.present && !n.zoned then 5 * n.lbas + 4 * (n.units * s.zcap) else 0

/-- A new namespace fits its pool, the limits of conventional namespaces and the CONV memory class (R98, R450, R571). -/
def State.nsFits (s : State) (n : Ns) : Bool :=
  let p := (s.poolSets n.pool).length
  let per := zonesPerSet s.store.blocks
  let held := s.unitsIn n.pool true + s.unitsIn n.pool false + n.units
  if n.zoned then
    decide (held ≤ p * per) && (List.range p).all fun i =>
      decide (Tbl.sum (fun m => if m.present && m.zoned && m.pool == n.pool then Sys2Proof.Machine.zonesOnSet m.units p i else 0) s.nss + Sys2Proof.Machine.zonesOnSet n.units p i ≤ per)
  else
    decide (held ≤ p * per) && decide (2 * (s.unitsIn n.pool false + n.units) ≤ p * per) &&
    decide ((s.nsOf fun m => !m.zoned).length < 64) &&
    decide (Tbl.sum s.convBytes s.nss + s.convBytes n ≤ Tbl.look 0 s.mem.classes 2 * 2 ^ 20)

/-- The namespace that create data describe (R63, R98, R364). -/
def State.newNs (s : State) (spec : NsSpec) : Ns :=
  { present := true, tenant := spec.owner, zoned := spec.zoned, lbaf := spec.lbaf, packed := spec.packed, lbas := spec.lbas,
    units := if spec.zoned then ceilDiv spec.lbas zsze else reclaimUnits spec.lbas s.zcap, pool := (s.tenant spec.owner).pool,
    region := spec.region % 4, gen := 1, nonce := spec.nonce % 2 ^ 256 }

/-- Create data that no namespace can have: an LBA format that does not exist, the packed-zone attribute elsewhere than on a zoned
namespace of LBAF 0 or without compression engines (R8, R238), no LBAs, or an owner slot that holds no tenant (R364). -/
def State.specBad (s : State) (spec : NsSpec) : Bool :=
  decide (2 < spec.lbaf) || (spec.packed && !(spec.zoned && spec.lbaf == 0 && s.hasCompression)) || spec.lbas == 0 ||
  decide (255 < spec.owner) || (s.tenant spec.owner).st == .free

/-- A namespace created under the lowest free NSID, with its seed entry and key (R273, R277, R280). -/
def State.createNs (s : State) (h : Hdr) (spec : NsSpec) : State :=
  let n := s.newNs spec
  if s.nsFits n = false then s.complete h .nsInsufficient
  else match ((List.range 4096).map (· + 1)).find? (fun i => !(s.ns i).present), s.takeSlot spec.owner with
    | some id, some (slot, s) =>
      let s := ((s.setNs id { n with slot := slot }).checkNonce id).writeSeed id
      (if s.cph.alarm then s else s.loadKey id).completeWith h .success id 0 []
    | _, _ => s.complete h .nsIdUnavailable

/-- NS_CREATE (R274, R277, R364, R571): tenant 0 only (R363). -/
def execNsCreate (h : Hdr) (spec : NsSpec) (s : State) : Host.Outcome State Fault Refusal :=
  .next (s.admin ruleAny h fun s =>
    if s.tenantOf h.ctrl ≠ 0 then s.complete h .invalidOpcode
    else if h.nsid ≠ 0 ∨ s.specBad spec then s.complete h .invalidField
    else if s.store.sanitize = 2 then s.complete h .sanitizeInProgress
    else if s.cph.drbgOk = false then s.complete h .internalError
    else s.createNs h spec)

/-- NS_DELETE (R290): of any tenant's namespace, by tenant 0; NSID FFFFFFFFh names every one. -/
def execNsDelete (h : Hdr) (s : State) : Host.Outcome State Fault Refusal :=
  .next (s.admin ruleAny h fun s =>
    let ns := if h.nsid = 0xFFFFFFFF then s.nsOf fun _ => true else [h.nsid]
    if s.tenantOf h.ctrl ≠ 0 then s.complete h .invalidOpcode
    else if h.nsid ≠ 0xFFFFFFFF ∧ (s.ns h.nsid).present = false then s.complete h .invalidNamespace
    else if s.store.sanitize = 2 then s.complete h .sanitizeInProgress
    else if ns.any fun n => (s.ns n).fenced then s.complete h .notReady
    else s.beginErasure { hdr := h, nsids := ns, crypto := true, nonce := 0, cause := 1, delete := true })

/-- A controller that serves a tenant: the PCIe controller of its slot, or one of its fabric controllers (R362). -/
def State.servesTenant (s : State) (t c : Nat) : Bool := if c < 256 then c == t else (s.ctrl c).present && (s.ctrl c).tenant == t

/-- NS_ATTACH (R364): accepted only for controllers of the owning tenant. -/
def execNsAttach (h : Hdr) (ctrls : List Nat) (attach : Bool) (s : State) : Host.Outcome State Fault Refusal :=
  .next (s.admin ruleAny h fun s =>
    let n := s.ns h.nsid
    if s.tenantOf h.ctrl ≠ 0 then s.complete h .invalidOpcode
    else if n.present = false then s.complete h .invalidNamespace
    else if ctrls = [] ∨ ctrls.any (fun c => !s.servesTenant n.tenant c) then s.complete h .controllerListInvalid
    else (s.setNs h.nsid { n with detached := if attach then n.detached.filter fun c => !ctrls.contains c
                                              else n.detached ++ ctrls.filter fun c => !n.detached.contains c }).complete h .success)

end Sys2Proof.Machine
end

