-- ==== Sys2Proof/Machine/Drain.lean ====
section
/-! DEFINITION. Controller resets: drain and squash (R301, R377, R378), and which functions exist (R295, R298). -/

namespace Sys2Proof.Machine

/-- Virtual functions on PF1 in dual-port mode; values above 254 act as 254 (*CHIP_PCIE_CFG*). -/
def State.vfb (s : State) : Nat := min 254 (s.cfg .chipPcieCfg 0 23 16)

/-- The physical function's slot and the function index of a tenant slot, 0 the physical function itself (*Functions*). -/
def State.functionOf (s : State) (slot : Nat) : Nat × Nat :=
  if !s.power.dual then (0, slot)
  else if slot < 2 then (slot, 0)
  else if slot ≤ 255 - s.vfb then (0, slot - 1) else (1, slot - (255 - s.vfb))

/-- A tenant slot's function exists (R298). -/
def State.functionExists (s : State) (slot : Nat) : Bool :=
  let (pf, k) := s.functionOf slot
  decide (k ≤ (s.ctrl pf).numVfs)

/-- The slots whose functions a physical function holds, itself first. -/
def State.slotsOfPf (s : State) (pf : Nat) : List Nat :=
  (List.range 256).filter fun t => (s.functionOf t).1 == pf && s.functionExists t

/-- The front end as the source of a controller's events, or the RDMA engine (R389). -/
def State.ctrlSource (s : State) (c : Nat) : Nat := if c < 256 then srcFrontEnd (portOfSlot s.power.dual s.vfb c) else srcRdma

/-- An accepted command that drain and squash drains: write-type and packed ones from acceptance, zone management from its dispatch (R378
steps 5 and 6). -/
def Ctx.drains (x : Ctx) : Bool :=
  match x.kind with
  | .write | .append | .writeZeroes | .packedAppend | .parcel | .manage _ => x.phase != .held
  | _ => false

/-- A command squashed: no effect and no completion; what it took of its units' places is given back (R378 steps 3 and 4). -/
def State.squashCmd (s : State) (c : Nat) : State :=
  match s.ctxAt c with
  | none => s
  | some x =>
    let s := ((s.unhold x c).dropJobsOf c).squash c
    s.each (Tbl.numbers (fun z => z.writing.contains c) s.zones) fun zk s => s.leaveZone zk c

/-- LBAs or granules of a write whose data had not arrived. -/
def Ctx.unfetched (x : Ctx) : Nat := if x.phase = .fetching then (if x.kind = .packedAppend then x.granules else x.places.length) else 0

/-- A drained command goes on with its response discarded; data that had not arrived are zeros (R378 step 5). -/
def State.drainCmd (s : State) (c : Nat) : State :=
  match s.ctxAt c with
  | none => s
  | some x =>
    let s := s.setCtx c (some { x with discard := true, deadline := none, close := x.close || x.kind == .packedAppend })
    if x.phase ≠ .fetching then s
    else if x.kind = .packedAppend then
      (s.updCtx c fun x => { x with phase := .compressing, data := (List.range x.granules).map fun i => (i, 0) }).requestBaton (.burst c)
    else s.cipherWrite c

/-- The open parcels that hold granules of a controller's commands close at once (R255, R378 step 5). -/
def State.closeParcelsOf (s : State) (ctrl : Nat) : State :=
  let zs := Tbl.numbers (fun z => z.parcel.any fun p => p.ctxs.any fun g => (s.ctxAt g.1).any fun x => x.hdr.ctrl == ctrl) s.zones
  s.each zs fun zk s => s.closeParcel zk

/-- Steps 1 to 5 of *Drain and squash* for a controller. -/
def State.beginDrain (s : State) (ctrl : Nat) : State :=
  let k := s.ctrl ctrl
  if k.drain.isSome then s.setCtrl ctrl { k with en := false }
  else
    let mine := s.ctxIds fun x => x.hdr.ctrl == ctrl
    let drained := mine.filter fun c => (s.ctxAt c).any Ctx.drains
    let squashed := mine.filter fun c => !(s.ctxAt c).any Ctx.drains
    let zeros := (drained.filterMap fun c => (s.ctxAt c).map Ctx.unfetched).filter (· != 0)
    let t := s.tenantOf ctrl
    let s := s.setCtrl ctrl { k with en := false, stopped := true, drain := some s.now, squashed := squashed.length,
                                     drained := (drained.filter fun c => (s.ctxAt c).any fun x => x.kind != .parcel).length }
    let s := s.updTenant t fun x => { x with st := if x.st = .free then .free else .resetting }
    let s := s.each squashed fun c s => s.squashCmd c
    let s := (s.each drained fun c s => s.drainCmd c).closeParcelsOf ctrl
    if zeros = [] then s else s.raise 0x0B06 s.srcStarters t zeros.length (zeros.foldl (· + ·) 0) 0

/-- A command of a controller has not ended: a context, a fence, Close, Select All or erasure that it waits for. -/
def State.ctrlBusy (s : State) (ctrl : Nat) : Bool :=
  let mine := fun (h : Hdr) => h.ctrl == ctrl && !h.mc
  s.ctxIds (fun x => mine x.hdr) != [] || s.work.erasures.any (fun e => mine e.hdr) || s.work.selectAll.any (fun e => mine e.1) ||
  s.zones.any fun p => (p.2.fence.any fun f => f.hdr.any mine) || p.2.closing.any mine

/-- The queues of a controller deleted; a fabric controller keeps its admin queue while its connection lasts (R378 step 7). -/
def State.dropQueues (s : State) (ctrl : Nat) : State :=
  let keep := fun (k : Nat) => k / 65536 != ctrl || (decide (256 ≤ ctrl) && k == queueKey ctrl 0)
  { s with sqs := s.sqs.filter (fun p => keep p.1), cqs := s.cqs.filter fun p => keep p.1 }

/-- A controller as a completed reset leaves it: disabled, with its features at their defaults. -/
def Ctrl.afterReset (k : Ctrl) : Ctrl :=
  { present := k.present, tenant := k.tenant, numVfs := k.numVfs, busMaster := k.busMaster, discovery := k.discovery }

/-- The controllers of a tenant that drain. -/
def State.draining (s : State) (t : Nat) : List Nat := (Tbl.numbers (fun k => k.drain.isSome) s.ctrls).filter fun c => s.tenantOf c == t

/-- Steps 7 and 8 of *Drain and squash*: queues deleted, CSTS.RDY clear, event 0x0B05; the tenant leaves RESETTING with its last
controller. -/
def State.endDrain (s : State) (ctrl : Nat) : State :=
  let k := s.ctrl ctrl
  let t := s.tenantOf ctrl
  let since := k.drain.getD s.now
  let s := (s.dropQueues ctrl).setCtrl ctrl k.afterReset
  let s := s.updTenant t fun x => { x with resets := satAdd 8 x.resets 1 }
  let s := if s.draining t ≠ [] then s
    else
      let asked := (s.tenant t).quiesce
      let s := s.updTenant t fun x => { x with st := if x.st = .resetting then .active else x.st, quiesce := none }
      let s := s.mapCtrls fun c k => if s.tenantOf c = t then { k with stopped := false } else k
      match asked with
      | some (h, _) => s.completeWith h .invalidField 0x08 0 []
      | none => s
  s.raise 0x0B05 (s.ctrlSource ctrl) t k.squashed k.drained (usSince s.now since)

/-- A function reset, as FLR, PERST#, hot reset or the loss of the link resets it: its controller drains and bus mastering goes (R296,
R301). -/
def State.resetFunction (s : State) (slot : Nat) : State :=
  let s := s.updCtrl slot fun k => { k with busMaster := false }
  if (s.ctrl slot).en then s.beginDrain slot else s

/-- A physical function reset: VF Enable clears, and the tenants on its virtual functions are reset (R301). -/
def State.resetPf (s : State) (pf : Nat) : State :=
  let slots := s.slotsOfPf pf
  (s.each slots fun t s => s.resetFunction t).updCtrl pf fun k => { k with numVfs := 0 }

/-- The link of a port goes down: counted when it was up (CHIP_PCIE_STAT), and the bound sets follow the links that are left (R222). -/
def State.linkDown (s : State) (port : Nat) : State :=
  let l := s.link port
  let s := s.setLink port { up := false, rate := 0, width := 0, flit := false, pwr := 0, recov := l.recov,
                            downs := if l.up then satAdd 8 l.downs 1 else l.downs }
  if l.up then s.recompute else s

/-- Every function of a port reset (R296). -/
def State.resetPort (s : State) (port : Nat) : State := if port = 0 ∨ s.power.dual then s.resetPf port else s

/-- FUNCTION_LEVEL_RESET (R301). -/
def execFunctionLevelReset (slot : Nat) (s : State) : Host.Outcome State Fault Refusal :=
  .next (
    if !s.running || !s.functionExists slot then s
    else if slot = 0 ∨ (s.power.dual ∧ slot = 1) then s.resetPf slot else s.resetFunction slot)

/-- PCIE_HOT_RESET: a hot reset or link down of a port (R296). -/
def execPcieHotReset (port : Nat) (s : State) : Host.Outcome State Fault Refusal :=
  .next (if s.running then (s.resetPort port).linkDown port else s)

/-- CC_DISABLE: CC.EN goes from 1 to 0 (R378). -/
def execCcDisable (ctrl : Nat) (s : State) : Host.Outcome State Fault Refusal :=
  .next (if s.running && (s.ctrl ctrl).en then s.beginDrain ctrl else s)

end Sys2Proof.Machine
end

