-- ==== Sys2Proof/Machine/Fabric.lean ====
section
/-! DEFINITION. The Ethernet ports, RoCEv2 connections with their reliable delivery and congestion control, protection domains, and
Fabrics Connect (R323-R349, R367, R368). -/

namespace Sys2Proof.Machine

/-- The fabric side is served: the units are there, the chip domain runs, and its ports are powered (R7, R323). -/
def State.fabricOn (s : State) : Bool :=
  s.running && s.hasFabric && s.power.mode != .calm && s.power.mode != .homestretch && s.power.mode != .off

/-- FAB_MODE.BONDED (R344). -/
def State.bonded (s : State) : Bool := s.cfgBit .fabMode 0 31

/-- FAB_MODE.FLAP_HOLD, ns: values below 100 µs act as 100 µs. -/
def State.flapHoldNs (s : State) : Nat := 1000 * max 100 (s.cfg .fabMode 0 15 0)

/-- The port rate, bit/s; port 1 follows port 0 (FAB_PORT_CFG.RATE). -/
def State.portRate (s : State) : Nat := ([400, 200, 100].getD (s.cfg .fabPortCfg 0 27 26) 400) * 1000000000

/-- The least send rate, bit/s (FAB_CC_RATE.RATE_MIN). -/
def State.rateMin (s : State) : Nat := max 1 (s.cfg .fabCcRate 0 23 16) * 100000000

/-- A rate held between the least rate and the port rate (R339). -/
def State.clampRate (s : State) (r : Nat) : Nat := min s.portRate (max s.rateMin r)

/-- An Ethernet port's event (R360). -/
def State.raiseEth (s : State) (code port p2 p3 : Nat) : State := s.raise code (srcEthPort port) port p2 p3 0

/-- How many PSNs `b` lies after `a`, modulo 2^24. -/
def psnAfter (a b : Nat) : Nat := (b + 2 ^ 24 - a % 2 ^ 24) % 2 ^ 24

/-- `a` is before `b` in PSN order. -/
def psnBefore (a b : Nat) : Bool := decide (0 < psnAfter a b ∧ psnAfter a b < 2 ^ 23)

/-- The established connections that satisfy `p`, by QPN. -/
def State.connsWhere (s : State) (p : Conn → Bool) : List Nat := Tbl.numbers (fun c => c.up && p c) s.fab.conns

/-- The contexts of commands that came over a connection. -/
def State.ctxsOfConn (s : State) (c : Nat) : List Nat :=
  let x := s.conn c
  s.ctxIds fun y => x.ctrl == some y.hdr.ctrl && x.qid == y.hdr.sqid && !y.hdr.mc

/-- Commands accepted on a connection run to their end with their responses discarded (R348). -/
def State.discardConn (s : State) (c : Nat) : State :=
  s.each (s.ctxsOfConn c) fun i s => s.updCtx i fun x => { x with discard := true, deadline := none }

/-- A fabric controller that loses its admin connection is reset (R378). -/
def State.loseAdmin (s : State) (c : Nat) : State :=
  match (s.conn c).ctrl, (s.conn c).qid with
  | some k, 0 => s.beginDrain k
  | _, _ => s

/-- A connection enters the error state (R348): it is unpinned, sends nothing more, and its admin queue's controller is reset. -/
def State.connError (s : State) (c : Nat) : State :=
  if (s.conn c).up = false ∨ (s.conn c).error then s
  else
    let s := (s.discardConn c).updConn c fun x => { x with error := true, unacked := [], queued := 0, ooo := [], pinned := false, frozen := false }
    (s.onFab fun f => { f with reads := Tbl.mapAll none (fun _ r => r.filter fun w => w.conn != c) f.reads, ingress := f.ingress.filter fun r => r.conn != c }).loseAdmin c

/-- A connection ended: its command contexts, queue pair and pin return, and a controller whose admin connection it was is reset (R229, R331,
R378). -/
def State.closeConn (s : State) (c : Nat) : State :=
  let x := s.conn c
  if x.up = false then s
  else
    let s := (s.discardConn c).loseAdmin c
    let s := match x.ctrl with
      | some k => { s with sqs := s.sqs.filter fun p => !(p.1 == queueKey k x.qid && p.2.conn == some c) }
      | none => s
    (s.setConn c {}).onFab fun f => { f with reads := Tbl.mapAll none (fun _ r => r.filter fun w => w.conn != c) f.reads, ingress := f.ingress.filter fun r => r.conn != c }

/-- The port that a new connection takes: the one the request came in on, or in a bond the member up with fewer established connections,
port 0 on a tie (R344). -/
def State.homeMember (s : State) (port : Nat) : Nat :=
  if s.bonded = false then port
  else
    let n := fun p => (s.connsWhere fun c => c.port == p).length
    match (s.port 0).up, (s.port 1).up with
    | true, true => if n 1 < n 0 then 1 else 0
    | false, true => 1
    | _, _ => 0

/-- The protection domain of a listen pair (R329): a valid one of the tenant whose address it is, with that service port. -/
def State.listenPd (s : State) (addr svc : Nat) : Option Nat :=
  (Tbl.numbers (fun o => o == addr / 2 + 1) s.fab.pdOwner).find? fun d => s.cfgBit .fabPd d 31 && s.cfg .fabPd d 15 0 == svc

/-- An address answers on a port: VALID, and port 0's of a bond or the port's own (R329). -/
def State.addrOn (s : State) (addr port : Nat) : Bool :=
  s.cfgBit (.fabAddr 4) addr 31 && (if s.bonded then addr % 2 == 0 else addr % 2 == port)

/-- RDMA_CM_REQUEST (R326, R328, R333): `addr` is the FAB_ADDR entry it reaches; a request to no listen pair is rejected. -/
def execRdmaCmRequest (addr port svcPort : Nat) (block : Bool) (sr : Bool) (rnrRead : Bool) (reorder mtu : Nat) (s : State) :
    Host.Outcome State Fault Refusal :=
  .next (
    if !s.fabricOn || !(s.port port).up then s
    else match (if s.addrOn addr port then s.listenPd addr svcPort else none) with
      | none => s.sendPacket (.cmReject port)
      | some d =>
        if 65536 ≤ (s.connsWhere fun _ => true).length then s.sendPacket (.cmReject port)
        else
          let c := s.fab.nextConn
          let ok := s.cfgBit .fabTransportCfg 0 31 && block && sr && decide (64 ≤ reorder ∧ reorder ≤ 1024)
          let home := s.homeMember port
          let x : Conn :=
            { up := true, tenant := addr / 2, pd := d, port := home, carried := home, sr := ok,
              rnrRead := ok && rnrRead && s.cfgBit .fabTransportCfg 0 30, reorder := if ok then reorder else 64,
              mtu := if 4096 ≤ mtu then 4096 else if 2048 ≤ mtu then 2048 else 1024,
              rate := s.clampRate (s.cfg .fabCcRate 0 15 8 * 1000000000) }
          ((s.setConn c x).onFab fun f => { f with nextConn := f.nextConn + 1 }).sendPacket (.cmReply c x.sr x.rnrRead))

/-- RDMA_CM_DISCONNECT (R331). -/
def execRdmaCmDisconnect (conn : Nat) (s : State) : Host.Outcome State Fault Refusal :=
  .next (if s.fabricOn then s.closeConn conn else s)

/-- The class of an RDMA I/O queue (R367). -/
def State.fabricClass (s : State) (t qid : Nat) : Cls :=
  let dash := s.cfg .tntFabclass t 31 16
  if qid = 0 then .none
  else if qid ≤ dash then .dash
  else if qid ≤ max dash (s.cfg .tntFabclass t 15 0) then .tempo else .distance

/-- Command contexts that a tenant's queues commit (R229). -/
def State.contextsUsed (s : State) (t : Nat) : Nat := ((s.sqs.filter fun p => s.tenantOf (p.1 / 65536) == t).map fun p => p.2.depth).foldl (· + ·) 0

/-- Command contexts of the device (R229). -/
def contextTotal : Nat := 262144

/-- A queue of a depth can commit its contexts (R229, R369). -/
def State.contextsFit (s : State) (t depth : Nat) : Bool :=
  s.poolFits contextTotal (fun l => 16 * l.ctxFloor) (fun l => 16 * l.ctxShare) s.contextsUsed t depth

/-- Event 0x0D07 (R229, R237). -/
def State.raiseNoContexts (s : State) (t depth : Nat) : State :=
  let l := (s.tenant t).lim
  s.raise 0x0D07 srcTimekeeper t depth (contextTotal - s.heldSlots.foldl (fun n u => n + s.contextsUsed u) 0)
    (16 * (l.ctxFloor + l.ctxShare) - s.contextsUsed t)

/-- Queue pairs that a tenant's connections hold (R369). -/
def State.pairsUsed (s : State) (t : Nat) : Nat := (s.connsWhere fun c => c.tenant == t && c.ctrl.isSome).length

/-- The number that stands for the NQN of the discovery subsystem. -/
def discoveryNqn : Nat := 1

/-- Pinned contexts (FAB_CTX_STAT.PINNED). -/
def State.pinnedConns (s : State) : Nat := (s.connsWhere fun c => c.pinned).length

/-- FAB_TRANSPORT_CFG.PIN_MAX: values above 4,096 act as 4,096. -/
def State.pinMax (s : State) : Nat := min 4096 (s.cfg .fabTransportCfg 0 12 0)

/-- A Connect refused: Connect Invalid Parameters, and with a cause event 0x0A0B and the connection closed (R328, R331). -/
def State.refuseConnect (s : State) (c : Nat) (h : Hdr) (cause : Option Nat) : State :=
  let x := s.conn c
  let s := s.postCompletion h .connectInvalid 0 0 []
  match cause with
  | some k => (s.raiseRdma 0x0A0B x.tenant k x.pd 0).closeConn c
  | none => s

/-- The controller that a Connect names: a new dynamic one for an admin queue, an enabled one of the tenant for an I/O queue (R327, R362). -/
def State.connectCtrl (s : State) (t qid cntlid : Nat) : Option Nat :=
  if qid = 0 then ((List.range 65280).map (· + 256)).find? fun k => !(s.ctrl k).present
  else if 256 ≤ cntlid ∧ (s.ctrl cntlid).present ∧ (s.ctrl cntlid).tenant = t ∧ (s.ctrl cntlid).en ∧ !(s.ctrl cntlid).stopped ∧
    (s.sq (queueKey cntlid qid)).depth = 0 then some cntlid else none

/-- The depth limits of RDMA queues: MQES 4,095 for I/O queues and 31 for the admin queue, both 0's based (*Fabric controller values*). -/
def fabricDepthOk (qid depth : Nat) : Bool := decide (2 ≤ depth ∧ depth ≤ if qid = 0 then 32 else 4096)

/-- FABRICS_CONNECT (R327-R331, R338, R366-R369): `cntlid` names the controller of an I/O queue; DW0 returns it. -/
def execFabricsConnect (conn qid depth cid cntlid nqn : Nat) (s : State) : Host.Outcome State Fault Refusal :=
  .next (
    let x := s.conn conn
    let t := x.tenant
    if !s.fabricOn || !x.up || x.error || x.ctrl.isSome then s
    else
      let h : Hdr := { ctrl := 65535, sqid := qid, cid := cid, nsid := 0, mc := false }
      let cls := s.fabricClass t qid
      let discovery := nqn == discoveryNqn && qid == 0
      if nqn ≠ (s.tenant t).nqn ∧ !discovery then s.refuseConnect conn h (some 2)
      else match s.connectCtrl t qid cntlid, fabricDepthOk qid depth with
        | none, _ | _, false => s.refuseConnect conn h none
        | some k, true =>
          if s.contextsFit t depth = false then (s.raiseNoContexts t depth).refuseConnect conn h none
          else if s.poolFits 65536 (fun l => 4 * l.rqpFloor) (fun l => 4 * l.rqpShare) s.pairsUsed t 1 = false then s.refuseConnect conn h none
          else if cls = .dash ∧ s.pinMax ≤ s.pinnedConns then s.refuseConnect conn h (some 1)
          else
            let s := if qid = 0 then s.setCtrl k { present := true, tenant := t, discovery := discovery } else s
            let s := s.setSq (queueKey k qid) { cls := cls, region := s.cfg .fabPd x.pd 30 29, depth := depth, cqid := qid, conn := some conn }
            let s := s.updConn conn fun x => { x with ctrl := some k, qid := qid, posted := depth, pinned := cls == .dash }
            s.completeWith { h with ctrl := k } .success k 0 [])

/-- The smoothed RTT of a connection, µs. -/
def Conn.srtt (x : Conn) : Nat := x.srtt8 / 8

/-- Unacknowledged segments resent, oldest first: each is sent again now (R332, R336, R337). -/
def State.resend (s : State) (c : Nat) (psns : List Nat) : State :=
  let s := s.updConn c fun x => { x with unacked := x.unacked.map fun u => if psns.contains u.1 then (u.1, u.2.1, s.now, true) else u }
  s.each psns fun p s => s.sendPacket (.resend c p)

/-- Every unacknowledged segment resent. -/
def State.resendAll (s : State) (c : Nat) : State := s.resend c ((s.conn c).unacked.map (·.1))

/-- A connection carried elsewhere than its home returns at a message boundary with nothing unacknowledged; with the last one event 0x0A05
is recorded (R346). -/
def State.tryReturn (s : State) (c : Nat) : State :=
  let x := s.conn c
  if !x.returning || x.unacked != [] || x.queued != 0 then s
  else
    let s := s.setConn c { x with carried := x.port, returning := false }
    match s.fab.rejoin with
    | some (p, n, t) =>
      if (s.connsWhere fun y => y.returning && y.port == p) = [] then
        (s.onFab fun f => { f with rejoin := none }).raiseEth 0x0A05 p n (usSince s.now t)
      else s
    | none => s

/-- RTT samples of the last 1,000 ms in bins of 100 ms: the least of each (R340). -/
def binSample (bins : List (Nat × Nat)) (now sample : Nat) : List (Nat × Nat) :=
  let k := now / 100000000
  let live := bins.filter fun b => decide (k < b.1 + 10)
  if live.any fun b => b.1 == k then live.map fun b => if b.1 = k then (k, min b.2 sample) else b else live ++ [(k, sample)]

/-- The base RTT, µs (R340). -/
def baseRtt (bins : List (Nat × Nat)) : Nat := match bins with
  | [] => 0
  | b :: bs => bs.foldl (fun m x => min m x.2) b.2

/-- One RTT sample (R340, R341): smoothed and base RTT, at most one decrease and one increase per RTT. -/
def State.takeSample (s : State) (c us : Nat) : State :=
  let x := s.conn c
  let x := { x with srtt8 := if x.srtt8 = 0 then 8 * us else x.srtt8 - x.srtt8 / 8 + us, bins := binSample x.bins s.now us }
  let target := baseRtt x.bins + s.cfg .fabCcCfg 0 23 16
  let gap := 1000 * x.srtt
  let x := if target < us then { x with overAt := s.now } else x
  if s.cfgBit .fabCcCfg 0 31 = false then s.setConn c x
  else
    let beta := s.cfg .fabCcCfg 0 15 8
    let md := s.cfg .fabCcCfg 0 7 0
    let x := if target < us ∧ x.lastDec + gap ≤ s.now then
        { x with rate := max (x.rate * (256 * us - beta * (us - target)) / (256 * us)) (x.rate * (256 - md) / 256), lastDec := s.now } else x
    let x := if x.lastInc + gap ≤ s.now then
        { x with lastInc := s.now, rate := if (x.overAt = 0 ∨ x.overAt + gap < s.now) ∧ x.lastDec + gap ≤ s.now then
            x.rate + s.cfg .fabCcRate 0 31 24 * 100000000 else x.rate } else x
    s.setConn c { x with rate := s.clampRate x.rate }

/-- Segments acknowledged up to a PSN: they leave, the retry count starts again, and what waits is sent (R332, R334, R337). -/
def State.ackUpTo (s : State) (c psn : Nat) : State :=
  let x := s.conn c
  let rest := x.unacked.filter fun u => psnBefore psn u.1
  if rest.length = x.unacked.length then s
  else ((s.setConn c { x with unacked := rest, retries := 0 }).pumpConn c).tryReturn c

/-- The segments in gaps below the highest PSN that a SACK marks received (R334, R336): bit i of BITMAP stands for PSN + 2 + i; one resent
within the last smoothed RTT, or first sent 1,000 µs ago, is not resent. -/
def Conn.gaps (x : Conn) (psn now : Nat) (sack : List Nat) : List Nat :=
  let top := sack.foldl (fun m i => max m (i + 2)) 0
  (x.unacked.filter fun u =>
    let k := psnAfter psn u.1
    decide (0 < k ∧ k < top) && !sack.any (fun i => i + 2 == k) && !(u.2.2.2 && decide (now < u.2.2.1 + 1000 * x.srtt)) &&
    decide (now < u.2.1 + 1000000)).map (·.1)

/-- ROCE_ACK_RECEIVED: an ACK, or a SACK when `sack` lists the set bits of its BITMAP (R334, R336, R337, R340). -/
def execRoceAckReceived (conn psn : Nat) (sack : List Nat) (sampleUs : Option Nat) (s : State) : Host.Outcome State Fault Refusal :=
  .next (
    let x := s.conn conn
    if !s.fabricOn || !x.up || x.error || x.frozen then s
    else if sack != [] && x.retries != 0 && psnBefore psn x.sackFloor then s
    else
      let s := match sampleUs with
        | some us => s.takeSample conn us
        | none => s
      let s := s.ackUpTo conn psn
      if sack != [] && x.sr then s.resend conn ((s.conn conn).gaps psn s.now sack) else s)

/-- ROCE_NAK_RECEIVED: a NAK PSN Sequence Error acknowledges what comes before its PSN, and every segment from there on is resent (R332). -/
def execRoceNakReceived (conn psn : Nat) (s : State) : Host.Outcome State Fault Refusal :=
  .next (
    let x := s.conn conn
    if !s.fabricOn || !x.up || x.error || x.frozen then s
    else
      let s := s.ackUpTo conn ((psn + 2 ^ 24 - 1) % 2 ^ 24)
      s.resend conn (((s.conn conn).unacked.filter fun u => !psnBefore u.1 psn).map (·.1)))

/-- SR_RESEND_TIMER: the oldest unacknowledged segment of a selective-repeat connection is resent, up to 1,000 µs after its first send
(R336). -/
def execSrResendTimer (conn : Nat) (s : State) : Host.Outcome State Fault Refusal :=
  .next (
    let x := s.conn conn
    if !s.fabricOn || !x.up || x.error || x.frozen || !x.sr then s
    else match x.unacked with
      | u :: _ => if s.now < u.2.1 + 1000000 then s.resend conn [u.1] else s
      | [] => s)

/-- ACK_TIMEOUT: every unacknowledged segment is resent, seven times at most; then the connection enters the error state (R337). -/
def execAckTimeout (conn : Nat) (s : State) : Host.Outcome State Fault Refusal :=
  .next (
    let x := s.conn conn
    if !s.fabricOn || !x.up || x.error || x.frozen then s
    else match x.unacked with
      | [] => s
      | u :: _ =>
        if 7 ≤ x.retries then (s.raiseRdma 0x0A06 x.tenant conn u.1 0).connError conn
        else (s.setConn conn { x with retries := x.retries + 1, sackFloor := u.1 }).resendAll conn)

/-- RNR_TIMER_EXPIRY: the refused message is sent again, without limit (R337). -/
def execRnrTimerExpiry (conn : Nat) (s : State) : Host.Outcome State Fault Refusal :=
  .next (
    let x := s.conn conn
    if s.fabricOn && x.up && !x.error && !x.frozen then s.resendAll conn else s)

/-- CNP_RECEIVED: one decrease of factor 1 - cnp_md, once per RTT (R342). -/
def execCnpReceived (conn : Nat) (s : State) : Host.Outcome State Fault Refusal :=
  .next (
    let x := s.conn conn
    if !s.fabricOn || !x.up || x.error || !s.cfgBit .fabCcCfg 0 31 || decide (s.now < x.lastDec + 1000 * x.srtt) then s
    else s.setConn conn { x with rate := s.clampRate (x.rate * (256 - s.cfg .fabCcRate 0 7 0) / 256), lastDec := s.now })

/-- A CNP sent for a packet marked CE, at most one in each CNP_INTERVAL (R342). -/
def State.markCe (s : State) (c : Nat) : State :=
  let x := s.conn c
  if !s.cfgBit .fabQosCfg 0 30 || x.cnpAt.any (fun t => decide (s.now < t + 1000 * s.cfg .fabQosCfg 0 13 0)) then s
  else (s.setConn c { x with cnpAt := some s.now }).sendPacket (.cnp c)

/-- The segments that the device holds out of order: REORDER of its own block (R333, R335). -/
def deviceReorder : Nat := 256

/-- The BITMAP of a SACK: bit i for PSN expected + 1 + i (R334). -/
def Conn.bitmap (x : Conn) : List Nat := (x.ooo.map fun p => psnAfter x.epsn p - 1).filter fun i => decide (i < 128)

/-- A SACK sent: its PSN is the last one received in order (R334). -/
def State.sendSack (s : State) (c : Nat) : State :=
  let x := s.conn c
  (s.setConn c { x with sinceSack := 0 }).sendPacket (.sack c ((x.epsn + 2 ^ 24 - 1) % 2 ^ 24) x.bitmap)

/-- Held segments that have become the next ones expected. -/
def Conn.drainHeld : Nat → Conn → Conn
  | 0, x => x
  | n + 1, x => if x.ooo.contains x.epsn then
      Conn.drainHeld n { x with epsn := (x.epsn + 1) % 2 ^ 24, ooo := x.ooo.filter (· != x.epsn) } else x

/-- A segment received out of order (R332, R335). -/
def State.outOfOrder (s : State) (c psn : Nat) : State :=
  let x := s.conn c
  if x.sr then
    if deviceReorder < psnAfter x.epsn psn then s
    else
      let first := x.ooo = []
      let s := s.setConn c { x with ooo := if x.ooo.contains psn then x.ooo else x.ooo ++ [psn], sinceSack := x.sinceSack + 1 }
      if first ∨ 4 ≤ x.sinceSack + 1 then s.sendSack c else s
  else if x.gapNak then s
  else (s.setConn c { x with gapNak := true }).sendPacket (.nakSeq c x.epsn)

/-- The expected segment received: held ones follow, a closed gap or the end of a message is acknowledged (R332, R335). A message that finds
no receive buffer is a host error (R338). -/
def State.inOrder (s : State) (c : Nat) (last : Bool) : State :=
  let x := s.conn c
  if last ∧ x.posted = 0 then (s.sendPacket (.nakInvalid c)).connError c
  else
    let y := Conn.drainHeld x.ooo.length { x with epsn := (x.epsn + 1) % 2 ^ 24, gapNak := false,
                                                  posted := if last then x.posted - 1 else x.posted,
                                                  sinceSack := if x.ooo = [] then 0 else x.sinceSack + 1 }
    let s := s.setConn c y
    if y.ooo ≠ [] then (if 4 ≤ y.sinceSack then s.sendSack c else s)
    else if last ∨ x.ooo ≠ [] then s.sendPacket (.ack c ((y.epsn + 2 ^ 24 - 1) % 2 ^ 24)) else s

/-- SACK_TIMER: while gaps exist, a SACK at least every 8 µs (R335). -/
def execSackTimer (conn : Nat) (s : State) : Host.Outcome State Fault Refusal :=
  .next (
    let x := s.conn conn
    if s.fabricOn && x.up && !x.error && x.sr && x.ooo != [] then s.sendSack conn else s)

/-- A frame dropped and counted (FAB_PORT_STAT.DROPS). -/
def State.dropFrame (s : State) (port : Nat) : State := s.updPort port fun p => { p with drops := satAdd 16 p.drops 1 }

/-- ETH_FRAME_RECEIVED (R323, R325): ARP, Neighbour Discovery and echo for the device's addresses are answered, PAUSE frames discarded, others
discarded and counted. -/
def execEthFrameReceived (port : Nat) (frame : EthFrame) (s : State) : Host.Outcome State Fault Refusal :=
  .next (
    if !s.fabricOn || !(s.port port).up then s
    else match frame with
      | .arp mine | .neighbour mine | .echo mine => if mine then s.sendPacket (.answer port) else s
      | .pause => s
      | .badIcrc | .other => s.dropFrame port
      | .bufferFull => if s.cfgBit .fabQosCfg 0 14 then s else s.dropFrame port)

/-- PFC_FRAME_RECEIVED (R325): honoured for PFC_PRIO while PFC_EN = 1; after XON what waited is sent. -/
def execPfcFrameReceived (port prio : Nat) (xoff : Bool) (s : State) : Host.Outcome State Fault Refusal :=
  .next (
    if !s.fabricOn || !s.cfgBit .fabQosCfg 0 14 || prio != s.cfg .fabQosCfg 0 17 15 then s
    else
      let s := s.updPort port fun p => { p with paused := xoff }
      if xoff then s else s.each (s.connsWhere fun c => c.carried == port) fun c s => s.pumpConn c)

/-- Unacknowledged segments resent after a port loss: by R336, or from the oldest with go-back-N (R345, R347). -/
def State.resendMoved (s : State) (cs : List Nat) : State := s.each cs fun c s => (s.resendAll c).pumpConn c

/-- The connections that a lost member carried moved to the survivor of the bond (R345). The fault held for the 10 µs of R324. -/
def State.rehome (s : State) (port : Nat) : State :=
  let cs := s.connsWhere fun c => c.carried == port && !c.error
  let s := s.noteFailure (srcEthPort port) (cs.flatMap s.ctxsOfConn)
  let s := s.each cs fun c s => s.updConn c fun x => { x with carried := 1 - port, returning := false }
  (s.resendMoved cs).raiseEth 0x0A03 port cs.length 10

/-- ETH_PORT_DOWN (R324, R345, R347): 1 = alignment lock, 2 = Local Fault, 3 = Remote Fault. -/
def execEthPortDown (port : Nat) (cause : PortFault) (s : State) : Host.Outcome State Fault Refusal :=
  .next (
    let p := s.port port
    if !s.fabricOn || !p.up then s
    else
      let code := match cause with
        | .alignment => 1
        | .localFault => 2
        | .remoteFault => 3
      let s := s.setPort port { p with up := false, dist := false, hold := true, downs := satAdd 8 p.downs 1, downAt := s.now, paused := false }
      let s := s.raiseEth 0x0A02 port code 0
      if s.bonded && (s.port (1 - port)).up then s.rehome port
      else s.each (s.connsWhere fun c => c.carried == port && !c.error) fun c s => s.updConn c fun x => { x with frozen := true })

/-- Frozen connections go on over a port that is up again within its flap hold (R347). -/
def State.unfreeze (s : State) (port : Nat) : State :=
  let cs := s.connsWhere fun c => c.frozen && (c.carried == port || s.bonded)
  let s := s.each cs fun c s => s.updConn c fun x => { x with frozen := false, carried := port }
  s.resendMoved cs

/-- ETH_PORT_UP (R324, R346, R347): in independent mode the port carries connections at once; a bond's member distributes only after
LACP. -/
def execEthPortUp (port : Nat) (s : State) : Host.Outcome State Fault Refusal :=
  .next (
    let p := s.port port
    if !s.fabricOn || p.up || !s.cfgBit .fabPortCfg port 31 then s
    else
      let s := s.setPort port { p with up := true, hold := false, dist := !s.bonded }
      let s := s.raiseEth 0x0A01 port (s.cfg .fabPortCfg 0 27 26) 0
      if p.hold then s.unfreeze port else s)

/-- FLAP_HOLD_EXPIRY (R346, R347): a member of a bond leaves the aggregator; frozen connections of the port enter the error state. -/
def execFlapHoldExpiry (port : Nat) (s : State) : Host.Outcome State Fault Refusal :=
  .next (
    let p := s.port port
    if !s.fabricOn || !p.hold then s
    else
      let s := s.setPort port { p with hold := false, left := s.bonded }
      let cs := s.connsWhere fun c => c.frozen && c.carried == port
      if cs = [] then s else (s.each cs fun c s => s.connError c).raiseEth 0x0A04 port cs.length 0)

/-- LACPDU_RECEIVED: a member that the partner shows collecting distributes, and its moved connections return (R346). -/
def execLacpduReceived (port : Nat) (collecting : Bool) (s : State) : Host.Outcome State Fault Refusal :=
  .next (
    let p := s.port port
    if !s.fabricOn || !s.bonded || !p.up then s
    else if !collecting then s.setPort port { p with dist := false }
    else if p.dist then s
    else
      let s := s.setPort port { p with dist := true, left := false }
      let cs := s.connsWhere fun c => c.port == port && c.carried != port && !c.error
      if cs = [] then s
      else
        let s := s.each cs fun c s => s.updConn c fun x => { x with returning := true }
        let s := s.onFab fun f => { f with rejoin := some (port, cs.length, s.now) }
        s.each cs fun c s => s.tryReturn c)

/-- The PDs of a tenant, and how many of them are valid (R369). -/
def State.pdsOf (s : State) (t : Nat) : List Nat := Tbl.numbers (fun o => o == t + 1) s.fab.pdOwner
def State.pdsUsed (s : State) (t : Nat) : Nat := ((s.pdsOf t).filter fun d => s.cfgBit .fabPd d 31).length

/-- The protection domains that a tenant's floor and share allow given to it, the lowest free ones: the spec says that they come from the pool,
not when (R329, R369; DESIGN CHOICE, log entry 13). -/
def State.givePds (s : State) (t : Nat) : State :=
  let l := (s.tenant t).lim
  let n := (if s.hasFabric then l.pdFloor + l.pdShare else 0) - (s.pdsOf t).length
  s.each (((List.range 4096).filter fun d => Tbl.look 0 s.fab.pdOwner d == 0).take n) fun d s =>
    s.onFab fun f => { f with pdOwner := Tbl.put 0 f.pdOwner d (t + 1) }

/-- A PD holds a connection or a window (R330). -/
def State.pdInUse (s : State) (d : Nat) : Bool := s.connsWhere (fun c => c.pd == d) != [] || s.fab.windows.any fun w => w.2.up && w.2.pd == d

/-- The writable bits of FAB_PD: VALID, REGION, SVC_PORT. -/
def pdMask : Word := 0xE000FFFF

/-- A write to FAB_PD[d] (R329, R330, R369): not applied to one in use or with the service port of another valid PD of its tenant, with event
0x0A0C; nor does VALID take one that no tenant holds or that its floor and share do not allow. -/
def State.writePd (s : State) (d : Nat) (w : Word) : State :=
  let old := s.cfgWord .fabPd d
  let new := mergeWord old pdMask w
  match Tbl.look 0 s.fab.pdOwner d with
  | 0 => if hasBit new 31 then s else s.setCfgAt (Reg.offset .fabPd d) new
  | t + 1 =>
    if s.pdInUse d then s.raiseRdma 0x0A0C d t 1 0
    else if hasBit new 31 && (s.pdsOf t).any fun e => e != d && s.cfgBit .fabPd e 31 && s.cfg .fabPd e 15 0 == bitsOf new 15 0 then
      s.raiseRdma 0x0A0C d t 2 0
    else if hasBit new 31 && !hasBit old 31 && !s.poolFits 4096 (·.pdFloor) (·.pdShare) s.pdsUsed t 1 then s
    else s.setCfgAt (Reg.offset .fabPd d) new

/-- FAB_PD_WRITE (R330). -/
def execFabPdWrite (d : Nat) (value : BitVec 32) (s : State) : Host.Outcome State Fault Refusal :=
  .next (if s.running && s.hasFabric && decide (d < 4096) then s.writePd d value else s)

/-- A write to a dword of FAB_ADDR[a]: dwords 0-3 the address, dword 4 VALID (R329). ADDRESS takes writes only while VALID = 0; any other is
denied (R568). -/
def State.writeAddr (s : State) (a dword : Nat) (value : Word) : State :=
  let o := Reg.offset (.fabAddr dword) a
  if dword < 4 then (if s.cfgBit (.fabAddr 4) a 31 then s.countDenied 1 o else s.setCfgAt o value)
  else s.setCfgAt o (value &&& 0x80000000)

/-- FAB_ADDR_WRITE (R329). -/
def execFabAddrWrite (a dword : Nat) (value : BitVec 32) (s : State) : Host.Outcome State Fault Refusal :=
  .next (if s.running && s.hasFabric && decide (a < 512 ∧ dword < 5) then s.writeAddr a dword value else s)

end Sys2Proof.Machine
end

