-- ==== Sys2Proof/Machine/Reset.lean ====
section
/-! DEFINITION. Chip domain reset: what each part of the state holds after it (R569), and what a reset without a landing leaves of the
staged data (R424, R439, R552). -/

namespace Sys2Proof.Machine

/-- Window offsets of the writable words that belong to a tenant: TNT_RA, TNT_DASH and the TNT block. -/
def isTenantWord (o : Nat) : Bool := decide (0x600 ≤ o ∧ o < 0xA00 ∨ 0x1000 ≤ o ∧ o < 0x1400 ∨ 0xC000 ≤ o ∧ o < 0x10000)

/-- A die after a reset: what the flash and the checkpoint hold of it. -/
def Die.afterReset (d : Die) : Die :=
  { badPos := d.badPos, scanned := d.scanned, lost := d.lost, eraseQueue := d.eraseQueue, nextBlock := d.nextBlock,
    erasedBlocks := d.erasedBlocks, landB := d.landB, landDirty := d.landDirty, landBad := d.landBad,
    landMoved := d.landMoved, early := d.early, reloc := d.reloc, relocWant := d.relocWant }

/-- A zone after a reset: its map entry and keeper's state; a fence that has not taken effect is gone with it (R82), and the age counted so
far is carried (R87). -/
def Zone.afterReset (z : Zone) (now : Nat) : Zone :=
  { z with fence := none, waiting := [], writing := [], closing := none, closeDue := none, parcel := none, rearm := 0, rearmAt := 0, lastWrite := now,
           refills := z.refills.map fun r => if r.filled then r else { r with frames := min r.frames (64 * Tbl.look 0 z.fine r.pos) },
           ageHours := z.ageHours + (now - z.lastWrite) / 3600000000000 }

/-- A tenant after a reset: what its creation gave it (R361); one whose creation had completed is there. -/
def Tenant.afterReset (t : Tenant) : Tenant :=
  { st := if t.st = .free ∧ !t.creating then .free else .active, compat := t.compat, pin := t.pin, region := t.region, laneset := t.laneset,
    setId := t.setId, lim := t.lim, viFloor := t.viFloor, creating := false, nqn := t.nqn, exports := t.exports }

/-- A namespace after a reset: a Format, deletion or crypto erase that was under way is resolved by its seed entry (R287); only a sanitize
goes on. -/
def Ns.afterReset (n : Ns) (sanitizing : Bool) : Ns :=
  { n with fenced := n.fenced && sanitizing, noKey := false, gcOn := false, victim := none }

/-- The AON domain after chip domain reset: what R569 lists survives, with the pins; the isolation output is low, and the pads of no
domain are latched. -/
def Aon.afterReset (a : Aon) : Aon :=
  { a with domainOn := 0x3F, padLatched := 0, isoLow := true, wakePending := [], maintTimer := none }

/-- The boot store after a reset: an entry still held in starter memory is lost and counted in MISSED (R490); staging, rolls and bundles
are cut short, and a bank that was being staged is not valid (R485, R495, R503). -/
def BootStore.afterReset (b : BootStore) : BootStore :=
  let cut := fun (k : ImageBank) => if k.st = .staging then { k with st := .invalid } else k
  { b with bank0 := cut b.bank0, bank1 := cut b.bank1, running := none, heldEntry := none, missed := if b.heldEntry.isSome then b.missed + 1 else b.missed, staging := [],
           roll := none, rolls := 0, bundles := [], applying := false, lkgArmed := false }

/-- The die blocks that writes behind an unfinished reset of a zone had taken go to the erase queues (R82). -/
def State.dropFence (s : State) (zk : Nat) : State :=
  match (s.zone zk).fence with
  | none => s
  | some f => s.each (List.range f.newDblk.length) fun p s =>
      match s.memberDie (s.zone zk) p with
      | none => s
      | some k => s.releaseBlock k (f.newDblk.getD p 0)

/-- The lanes after a chip domain reset (R569): with a trip latched none leaves HELD, its PHY idle, before VAUX is removed (R140). -/
def State.lanesAfterReset (s : State) : Tbl Lane :=
  if s.aon.trip then (List.range 512).map fun n => (n, { st := .held, txIdle := true, phyOn := false }) else []

/-- Every register of the window at its reset value and every unit of the chip domain at its start (R569). -/
def State.clearChip (s : State) : State :=
  let s := s.each (Tbl.numbers (fun z => z.fence.isSome) s.zones) fun zk s => s.dropFence zk
  let sanitizing := s.store.sanitize == 2
  let s := (((s.mapDies fun _ d => d.afterReset).mapZones fun _ z => z.afterReset s.now).mapTenants fun _ t => t.afterReset).mapNss
    fun _ n => n.afterReset sanitizing
  { s with
    aon := s.aon.afterReset, evr := {}, regs := {},
    power := { dual := s.power.dual, mode := if s.power.mode = .homestretch then .off else .warmup }, bank := {}, broker := {},
    loops := [], lanes := s.lanesAfterReset, dieCnt := [], blks := [], rgns := [], ctrls := [], sqs := [], cqs := [], links := [],
    work := { draws := s.work.draws, erasures := s.work.erasures.filter fun e => e.cause == 2 }, tmk := {},
    cph := { uds := s.cph.uds, pages := s.cph.pages }, fab := { pdOwner := s.fab.pdOwner }, mem := {}, flt := {},
    boot := s.boot.afterReset }

/-- The tenants' writable words kept in the checkpoint, once Warm-up has restored them. -/
def State.keepTenantWords (s : State) : State :=
  if s.stepComplete 10 then s.onStore fun t => { t with tenantWords := s.regs.cfg.filter fun p => isTenantWord p.1 } else s

/-- A reset that has landed nothing: units that an earlier landing still covers are restored again (R184), the rest of the epoch is
treated as R439 directs. -/
def State.abandonStaging (s : State) : State :=
  let kept := s.work.rows.filter (·.covered)
  s.onStore fun t => { t with
    landedRows := kept, directory := t.directory.filter fun u => kept.any fun r => r.zk == u.zk && r.row == u.row,
    lostEpoch := t.lostEpoch || s.work.rows.any fun r => !r.covered }

/-- A landing directory already names everything that is staged: in Calm, and in a Calm entry past its step 4 (R432). -/
def State.landedAlready (s : State) : Bool :=
  s.power.mode == .calm || s.power.entry.any fun e => e.target == .calm && decide (4 ≤ e.step)

/-- Chip domain reset (R551-R553, R569). `landed` says that the staged data have just been landed. Before Warm-up step 10 is complete the
landing directory stands as it is (R424). PWR_HOLD goes low (R412); the event of a reset enters the new arrival queue. -/
def State.chipReset (s : State) (landed : Bool) : State :=
  let s := s.keepTenantWords
  let s := if landed || s.landedAlready || !s.stepComplete 10 then s else s.abandonStaging
  let (held, mv) := (s.aon.holdHigh, s.bank.lowMv)
  let s := (s.clearChip).onAon fun a => { a with holdHigh := false }
  if held then s.raise 0x0E18 srcLoopEngine (subParam 2 mv) 5 0 0 else s

/-- What follows the last landing write of a landing that no command of its own ends: the reset asked for (R553), or FAULT_STOP (R531). -/
def State.settleLanding (s : State) : State :=
  let s := s.assignLanding
  if s.landingDone = false then s
  else match s.power.landing with
    | none => s
    | some l => match l.cause with
      | .chipReset => (s.writeDirectory none).chipReset true
      | .faultStop =>
        let s := ((s.writeDirectory none).keepRecords).raise 0x0F07 srcChipCollector s.flt.stop l.dirtyKib ((s.now - l.since) / 1000000) 0
        s.onPower fun p => { p with landing := none }
      | .homestretch | .calm => s

/-- CHIP_RST_N_REQUEST (R553): with dirty bytes held the device lands them first; in Homestretch the request is ignored; a landing under
way already is followed by the reset. -/
def execChipRstNRequest (s : State) : Host.Outcome State Fault Refusal :=
  .next (
    if !s.released || s.power.mode == .homestretch then s
    else if s.power.mode == .calm || s.dirtyBytes = 0 then s.chipReset false
    else match s.power.landing with
      | some l => (s.onPower fun p => { p with landing := some { l with cause := .chipReset }, entry := none }).settleLanding
      | none => (s.startLanding .chipReset s.bank.lowMv).settleLanding)

/-- VAUX_REMOVAL (R551): AON reset is asserted; every latch clears, the timestamp stops, and the chip domain is reset with it. The drive
keeps what flash and boot store hold. -/
def execVauxRemoval (s : State) : Host.Outcome State Fault Refusal :=
  .next (if s.aon.on then
      let s := s.chipReset false
      { s with aon := { vauxOn := s.aon.vauxOn }, evr := {}, lanes := [] }
    else s)

/-- AON_RESET_RELEASE (R551): timestamps, the SEQ counter and housekeeping start, every pad latch is clear, the VAUX power-on is counted,
and the input is good only at or above RISE; a reading between FALL and RISE is recorded (R419). -/
def execAonResetRelease (pfdMv : Nat) (s : State) : Host.Outcome State Fault Refusal :=
  .next (if s.aon.on then s
    else
      let (rise, fall) := (s.cfg .pwrPfdCfg 0 31 20, s.cfg .pwrPfdCfg 0 19 8)
      let s := s.onAon fun a => { a with on := true, vauxOn := a.vauxOn + 1, pfdGood := decide (rise ≤ pfdMv) }
      if fall < pfdMv ∧ pfdMv < rise then s.raise 0x0E19 srcAon pfdMv rise fall 0 else s)

end Sys2Proof.Machine
end

