-- ==== Sys2Proof/Machine/Records.lean ====
section
/-! DEFINITION. Configuration records and pending RWLIVE values: what a record may write, the field checks of the owning chapters, and
how a record is applied or rejected (R22, R26, R484, R567). -/

namespace Sys2Proof.Machine

/-- The word in force at a window offset. -/
def State.cfgAt (s : State) (o : Nat) : Word := (Tbl.look none s.regs.cfg o).getD (resetWord o)

/-- Every pending RWLIVE value taken as applied: what the fields read as (R567). -/
def State.withPending (s : State) : State :=
  s.each s.regs.live fun w s => s.setCfgAt w.offset (mergeWord (s.cfgAt w.offset) w.mask w.value)

/-- Registers whose fields are inputs of the bound sets (R222). -/
def Reg.boundInput (r : Reg) : Bool :=
  match r with
  | .chipDieRetry | .tmkWindow | .tmkHostCfg | .tmkBandCfg => true
  | _ => false

/-- An RWLIVE value accepted: it waits for a quiet point, and where it changes an input of the bound sets for their computation too,
which begins anew (R222, R567). -/
def State.pend (s : State) (o : Nat) (m v : Word) : State :=
  let bound := match locate o with
    | .reg r _ _ => r.boundInput && s.tmk.inForce
    | _ => false
  let s := s.onRegs fun r => { r with live := r.live ++ [⟨o, m, v, bound⟩] }
  if bound then s.recompute else s

/-- The bits of a list of fields. -/
def fieldsMask (fs : List Fld) : Word := fs.foldl (fun m f => m ||| maskOf f.hi f.lo) 0

/-- A field's enumeration allows the value that a word gives it (R26). -/
def Fld.allows (f : Fld) (w : Word) : Bool :=
  f.legal == [] || f.legal.any fun r => decide (r.1 ≤ bitsOf w f.hi f.lo ∧ bitsOf w f.hi f.lo ≤ r.2)

/-- The cause for which one triple is refused, 0 for none: an unimplemented offset, a bit that is no field's, a field whose access is not
the class's, or a value the enumeration leaves reserved (R484). `w` is the word before it. -/
def tripleCause (live : Bool) (t : RegTriple) (w : Word) : Nat :=
  if t.offset % 4 ≠ 0 then 1
  else match locate t.offset with
    | .unimplemented => 1
    | .hole => if t.mask = 0 then 0 else 1
    | .reg _ _ fs =>
      let hit := fs.filter fun f => t.mask &&& maskOf f.hi f.lo != 0
      if t.mask &&& ~~~(fieldsMask fs) ≠ 0 then 1
      else if hit.any fun f => f.acc != (if live then Access.rwlive else Access.rwl) then 1
      else if hit.any fun f => !f.allows (mergeWord w t.mask t.value) then 2 else 0

/-- A register belongs to a unit that the ordering variant lacks: it reads 0 and ignores writes (R4, R7, R8). -/
def State.absent (s : State) (r : Reg) : Bool := (r.isFabric && !s.hasFabric) || (r.isCompression && !s.hasCompression)

/-- The register writes of a record that reach a unit the variant has (R4). -/
def State.presentWrites (s : State) (ws : List RegTriple) : List RegTriple :=
  ws.filter fun t => match locate t.offset with
    | .reg r _ _ => !s.absent r
    | _ => true

/-- The register writes of a record in force (R484). -/
def State.writeTriples (s : State) (ws : List RegTriple) : State :=
  s.each (s.presentWrites ws) fun t s => s.setCfgAt t.offset (mergeWord (s.cfgAt t.offset) t.mask t.value)

/-- The cause of event 0x0E1B for the hold-up configuration in force, 0 for none (R413, R418). -/
def State.holdUpBad (s : State) : Nat :=
  let c := s.cfg .pwrHuBank 0 31 16
  let eff := s.cfg .pwrHuEff 0 31 24
  if c = 0 ∨ s.vMin = 0 ∨ eff = 0 ∨ s.eFixed = 0 ∨ s.eFlush = 0 then 2
  else if s.cfg .pwrPfdCfg 0 31 20 ≤ s.cfg .pwrPfdCfg 0 19 8 then 3
  else
    let bank := (s.ceilMj - s.cfg .pwrHuCap 0 15 0) * 1000000
    let need := s.eFixed + s.eFlush * 1024
    if eff * (bank - c * s.vMin * s.vMin / 200) / 100 < need then 1 else 0

/-- A GPIO function enabled on a pin that is not set for it (R557). -/
def State.gpioBad (s : State) : Bool :=
  let func := fun i => s.cfg .chipGpioCfg i 7 4
  ((List.range 4).any fun j => s.cfg .loopCfg (4 + j) 26 24 == 5 && func (8 + j) != 3) ||
  (s.cfgBit .pwrWakeCfg 0 4 && func 13 != 0) || (s.cfgBit .pwrSprint 0 30 && func 14 != 0) ||
  (s.cfgBit .cphAlarmCfg 0 4 && (func 15 != 0 || s.cfgBit .chipGpioCfg 15 3))

/-- A loop's supply monitor that does not exist: LOOP_SRC.INDEX above 10 with KIND = 1 (R26, *Loop block*). -/
def State.loopSrcBad (s : State) : Bool := (List.range 8).any fun k => s.cfgBit .loopSrc k 7 && decide (10 < s.cfg .loopSrc k 5 0)

/-- A baton value of 0 (R391); without compression engines CMP is ignored (R8). -/
def State.batonValuesBad (s : State) : Bool :=
  ((List.range 4).any fun i => s.cfg .batonValA 0 (8 * i + 7) (8 * i) == 0) ||
  (s.hasCompression && s.cfg .batonValB 0 23 16 == 0) || s.cfg .batonValB 0 9 0 == 0

/-- Gain sets 0 and 4 of loops 0 to 3 that hold no gain, as (loop, set) (R403). -/
def State.gainsBad (s : State) : List (Nat × Nat) :=
  (List.range 4).flatMap fun k => [0, 4].filterMap fun g =>
    if s.cfgWord (.loopGain (3 * g)) k == 0 && s.cfgWord (.loopGain (3 * g + 1)) k == 0 then some (k, g) else none

/-- The lane set that a layout gives a lane, one above SET_ID; 0 is the shared pool (R95). -/
def assignedSet (cfg : Tbl (Option Word)) (lane : Nat) : Nat :=
  match groupOfLane lane with
  | none => 0
  | some q =>
    let w := (Tbl.look none cfg (Reg.chipLanesetOwner.offset q)).getD 0
    if w.getLsbD 31 then 1 + bitsOf w 15 8 else 0

/-- The words of CHIP_LANESET_OWNER in force. -/
def State.layoutWords (s : State) : Tbl (Option Word) := s.regs.cfg.filter fun p => decide (0x240 ≤ p.1 ∧ p.1 < 0x2B0)

/-- Lanes whose assignment the words in force would change (R96). -/
def State.lanesChanged (s : State) : List Nat :=
  (List.range 512).filter fun l => assignedSet s.layoutWords l != assignedSet s.store.layout l

/-- The stripe sets that hold a zone or reclaim unit of some namespace: of a zoned namespace every set that zone indexes fall on
(R93), whatever the zone's state. -/
def State.setsHeld (s : State) : List Nat :=
  (s.nss.filter fun p => p.2.present && p.2.zoned).flatMap (fun p =>
    let l := s.poolSets p.2.pool
    (List.range l.length).filterMap fun i => if Sys2Proof.Machine.zonesOnSet p.2.units l.length i = 0 then none else l[i]?) ++
  (s.zones.filter fun p => p.2.valid).map fun p => p.2.set

/-- The layout in force would move a lane that some namespace lies on (R96). -/
def State.layoutBad (s : State) : Bool :=
  let lanes := s.lanesChanged
  lanes != [] && s.setsHeld.any fun i => (s.stripe i).members.any fun m => m.any fun k => lanes.contains (k / 8)

/-- ZAE_HOURS not above FZR_HOURS (R86). -/
def State.zonePolicyBad (s : State) : Bool :=
  s.cfg .chipZonePolicy 0 23 16 != 0 && decide (s.cfg .chipZonePolicy 0 23 16 ≤ s.cfg .chipZonePolicy 0 31 24)

/-- The lane-set registers at the layout that the checkpoint holds (R96). -/
def State.restoreLayout (s : State) : State :=
  s.each (List.range 28) fun q s =>
    let o := Reg.chipLanesetOwner.offset q
    s.setCfgAt o ((Tbl.look none s.store.layout o).getD (resetWord o))

/-- The registers that a record's writes name. -/
def regsNamed (ws : List RegTriple) : List Reg :=
  ws.filterMap fun t => match locate t.offset with
    | .reg r _ _ => some r
    | _ => none

/-- A field check of an owning chapter fails for the state `t` that a record would make of `s` (R86, R96, R391, R403, R413, R557). Only
checks that the record's own writes bear on are made: one that failed before it and that it does not touch is not its fault. -/
def State.fieldCheckFails (s t : State) (ws : List RegTriple) : Bool :=
  let rs := regsNamed ws
  let named := fun (l : List Reg) => rs.any fun r => l.contains r
  (named [.chipZonePolicy] && t.zonePolicyBad) || (named [.batonValA, .batonValB] && t.batonValuesBad) ||
  (named [.pwrHuCap, .pwrHuBank, .pwrHuFlush, .pwrHuEff, .pwrPfdCfg] && t.holdUpBad != 0) ||
  (named [.loopCfg, .pwrWakeCfg, .pwrSprint, .cphAlarmCfg, .chipGpioCfg] && t.gpioBad && !s.gpioBad) ||
  (named [.chipLanesetOwner] && t.layoutBad) || (named [.loopSrc] && t.loopSrcBad && !s.loopSrcBad) ||
  t.gainsBad.any fun kg => ws.any fun w => [3 * kg.2, 3 * kg.2 + 1].any fun j => w.offset == (Reg.loopGain j).offset kg.1

/-- What keeps a list of register writes from being applied, 0 for nothing: the cause of event 0x0C06. -/
def State.writesCause (s : State) (live : Bool) (ws : List RegTriple) : Nat :=
  let base := if live then s.withPending else s
  let (after, causes) := ws.foldl (fun (p : State × List Nat) t =>
    let w := p.1.cfgAt t.offset
    (p.1.setCfgAt t.offset (mergeWord w t.mask t.value), tripleCause live t w :: p.2)) (base, [])
  if causes.contains 1 then 1
  else if causes.contains 2 || base.fieldCheckFails after ws then 2 else 0

/-- POLL_INTERVAL of a die model record outside 0x005 to 0x0C8 (R136). -/
def pollBad (poll : Option Nat) : Bool := poll.any fun w => decide (w % 4096 < 5 ∨ 200 < w % 4096)

/-- What keeps a record from being applied (R484): its access, a field check, or its schema version. -/
def State.recordCause (s : State) (schema : Nat) (r : CfgRecord) : Nat :=
  if r.version ≠ schema then 3
  else match r.body with
    | .writes ws => s.writesCause r.live ws
    | .dieModel m => if pollBad m.poll then 2 else 0
    | .gains k g kp ki _ => if k < 4 ∧ (g = 0 ∨ g = 4) ∧ kp = 0 ∧ ki = 0 then 2 else if 8 ≤ k ∨ 5 ≤ g then 2 else 0
    | .diePopulation _ | .tenantFloors _ _ | .other _ => 0

/-- TYPE of a record. The spec numbers the register writes only; the number of a record of another chapter's kind is a free value (log
entry 2). -/
def State.recordType (s : State) (b : RecordBody) : Nat × State :=
  match b with
  | .writes _ => (1, s)
  | .other n => (n, s)
  | .dieModel _ | .diePopulation _ | .tenantFloors _ _ | .gains _ _ _ _ _ =>
    let (v, s) := s.draw
    (v % 65536, s)

/-- The writes of a gain record: set `g` of loop `k` (*Loop block*). -/
def gainTriples (k g : Nat) (kp ki kd : Int) : List RegTriple :=
  [(0, kp), (1, ki), (2, kd)].map fun (c : Nat × Int) =>
    ⟨(Reg.loopGain (3 * g + c.1)).offset k, 0xFFFFFFFF, BitVec.ofNat 32 (twosOf 32 c.2)⟩

/-- A record that has passed its checks takes effect: LOAD writes at once, LIVE writes at the next quiet point (R484). The other types give the
die models, the population and tenant 0's and tenant 1's floors. -/
def State.applyRecord (s : State) (r : CfgRecord) : State :=
  let put := fun (s : State) (ws : List RegTriple) =>
    if r.live then s.each (s.presentWrites ws) fun t s => s.pend t.offset t.mask t.value else s.writeTriples ws
  match r.body with
  | .writes ws => put s ws
  | .gains k g kp ki kd => put s (gainTriples k g kp ki kd)
  | .dieModel m => s.onStore fun t =>
      { t with models := t.models ++ [m], pages := m.pages, blocks := m.blocks, planes := m.planes }
  | .diePopulation l => s.onStore fun t => { t with population := l.foldl (fun p x => Tbl.put 0 p x.1 x.2) t.population }
  | .tenantFloors t lim => if t < 2 ∧ (s.tenant t).st = .free then s.updTenant t fun x => { x with lim := lim } else s
  | .other _ => s

/-- A record whose fields are RWLIVE ones, pending from the moment its bundle is accepted (R567). -/
def isWrites (r : CfgRecord) : Bool :=
  match r.body with
  | .writes _ | .gains _ _ _ _ _ => true
  | _ => false

/-- Event 0x0C06, with 0x0E1B for a hold-up configuration (R413, R484). -/
def State.rejectRecord (s : State) (i : Nat) (r : CfgRecord) (cause : Nat) : State :=
  let (type, s) := s.recordType r.body
  let s := s.raise 0x0C06 s.srcStarters type (if r.live then 2 else 1) cause i
  match r.body with
  | .writes ws =>
    let s := if cause = 2 ∧ (regsNamed ws).any [Reg.pwrHuCap, .pwrHuBank, .pwrHuFlush, .pwrHuEff, .pwrPfdCfg].contains then
        let bad := (s.writeTriples ws).holdUpBad
        if bad = 0 then s else s.raise 0x0E1B s.srcStarters bad 0 0 0
      else s
    if !r.live && (regsNamed ws).contains .chipLanesetOwner then s.restoreLayout else s
  | _ => s

/-- One record of a list, with its index, applied or rejected as a whole (R484). -/
def State.takeRecord (s : State) (schema i : Nat) (r : CfgRecord) : State :=
  let cause := s.recordCause schema r
  if cause = 0 then s.applyRecord r else s.rejectRecord i r cause

/-- The records of an image taken in image order (R484). -/
def State.takeRecords (s : State) (schema : Nat) (rs : List CfgRecord) : State :=
  s.each (List.range rs.length) fun i s =>
    match rs[i]? with
    | none => s
    | some r => s.takeRecord schema i r

/-- Configuration records loaded at Warm-up step 4 (R484): the die models and the population are those of this image; a layout that no record
names stays that of the checkpoint (R96). -/
def State.loadRecords (s : State) (im : Image) : State :=
  let named := im.records.any fun r => match r.body with
    | .writes ws => !r.live && (regsNamed ws).contains .chipLanesetOwner
    | _ => false
  let s := s.onStore fun t => { t with models := [], population := [] }
  (if named then s else s.restoreLayout).takeRecords im.schema im.records

end Sys2Proof.Machine
end

