-- ==== Sys2Proof/Machine/Boot.lean ====
section
/-! DEFINITION. The boot store: banks, image checks and the choice of the bank to boot (R473-R483), the Candielle ledger (R489-R493), staging and
activating an image at the next reset (R494-R496), and bundles of LIVE records (R485). -/

namespace Sys2Proof.Machine

/-- Bank 0 or 1. -/
def BootStore.bank (b : BootStore) (k : Nat) : ImageBank := if k % 2 = 0 then b.bank0 else b.bank1

/-- A bank replaced. -/
def State.setBank (s : State) (k : Nat) (v : ImageBank) : State :=
  s.onBoot fun b => if k % 2 = 0 then { b with bank0 := v } else { b with bank1 := v }

/-- A header written: the copies take turns (R477). -/
def State.writeHeader (s : State) : State := s.onBoot fun b => { b with headerWrites := b.headerWrites + 1 }

/-- Two epoch ranges overlap (R481). -/
def epochsMeet (x y : Nat × Nat) : Bool := decide (max x.1 y.1 ≤ min x.2 y.2)

/-- A component's epoch range on mailbox `m`, 1 to 6. -/
def epochOf (c : Component) (m : Nat) : Nat × Nat := c.epochs.getD (m - 1) (0, 0)

/-- The two ends of mailboxes 1 to 5 in a set of components (R479). -/
def mailboxEnds (x y : Image) : List (Nat × Component × Component) :=
  [(1, x.pacer, y.marshal), (2, x.marshal, y.steward), (3, x.steward, y.steward), (4, x.steward, y.starter),
   (5, x.starter, y.starter)]

/-- The components of an image's own set interoperate (R481, R482). -/
def ownSetMeets (x : Image) : Bool :=
  (mailboxEnds x x).all fun e => epochsMeet (epochOf e.2.1 e.1) (epochOf e.2.2 e.1)

/-- A row's versions and schema are those of a set (R481). -/
def rowNames (r : CompatRow) (x : Image) : Bool :=
  r.starter == x.starter.version && r.steward == x.steward.version && r.marshal == x.marshal.version &&
  r.pacer == x.pacer.version && r.schema == x.schema

/-- The image's set is tested for boot on this stepping (R481). -/
def hasBootRow (x : Image) (step : Nat) : Bool := x.rows.any fun r => r.boot && r.step == step && rowNames r x

/-- The image may be taken at all: length and offsets (R479), the four signatures and the SVN (R480). -/
def imageSound (x : Image) (fusedSvn : Nat) : Bool :=
  decide (x.length ≤ 16777216) && x.offsetsOk && x.sigsOk && decide (fusedSvn ≤ x.svn)

/-- Why an image is rejected, coded as DW0 of *Activation causes*; 0 for none (R482). -/
def State.imageCause (s : State) (x : Image) : Nat :=
  if !imageSound x s.boot.fusedSvn then 1
  else if !hasBootRow x s.step then 3
  else if !ownSetMeets x then 5 else 0

/-- Event 0x0C02 and the cause kept in BST_BANK (R482). -/
def State.rejectBank (s : State) (k cause : Nat) : State :=
  (s.setBank k { s.boot.bank k with cause := cause }).raise 0x0C02 s.srcStarters k cause s.step 0

/-- The bank that boots, of those still to try: each rejection is recorded (R482). -/
def State.tryBanks (s : State) : List Nat → Option (Nat × Image) × State
  | [] => (none, s)
  | k :: ks =>
    match (s.boot.bank k).st, (s.boot.bank k).image with
    | .valid, some x =>
      let cause := s.imageCause x
      if cause = 0 then (some (k, x), s) else (s.rejectBank k cause).tryBanks ks
    | _, _ => s.tryBanks ks

/-- STRICT_LEDGER of the running image (R491). -/
def State.strictLedger (s : State) : Bool := s.boot.running.any (·.strict)

/-- Entries of 16 KiB that a sector holds (R489, R473). -/
def sectorEntries : Nat := 16

/-- Ledger capacity: 2,048 entries in 128 sectors, less the sectors that left the ring (R476, R491). -/
def BootStore.ledgerCapacity (b : BootStore) : Nat := 2048 - sectorEntries * b.ledgerLost

/-- Entries whose sector has not been erased. -/
def BootStore.ledgerHeld (b : BootStore) : Nat := b.seqNew + 1 - b.oldest

/-- Entries free: LDG_STAT.FREE. -/
def BootStore.ledgerFree (b : BootStore) : Nat := b.ledgerCapacity - b.ledgerHeld

/-- No entry is free: LDG_STAT.FULL (R491). -/
def BootStore.ledgerFull (b : BootStore) : Bool := b.ledgerFree == 0

/-- The sector ahead of the newest entry may be erased: the ring has not reached it, or all 16 of its entries are acknowledged (R491). -/
def BootStore.aheadErasable (b : BootStore) : Bool :=
  decide (b.ledgerHeld + sectorEntries ≤ b.ledgerCapacity) || decide (b.oldest + sectorEntries ≤ b.seqAck + 1)

/-- The ledger entry of a reason, with what it holds now (R489). A Warm-up entry begins a boot; the others copy the boot's. -/
def State.newEntry (s : State) (reason : Nat) : LedgerEntry :=
  let b := s.boot
  let seq := b.seqNew + 1
  { seq := seq, time := s.now, vauxOn := s.aon.vauxOn, reason := reason, bank := b.booted, missed := b.missed,
    stepSvn := s.step * 2 ^ 24 + b.fusedSvn % 2 ^ 24, bootSeq := if reason = 1 then seq else b.bootSeq,
    bootTime := if reason = 1 then s.now else b.bootTime }

/-- An entry programmed: its SEQ is the newest; a first entry of a sector leaves the sector behind it erased only on the ring's first lap (R490). -/
def State.storeEntry (s : State) (e : LedgerEntry) : State :=
  s.onBoot fun b => { b with
    ledger := b.ledger ++ [e], seqNew := max b.seqNew e.seq, missed := 0,
    erasedAhead := if e.seq % sectorEntries = 1 then decide (e.seq + sectorEntries ≤ b.ledgerCapacity) else b.erasedAhead,
    bootSeq := e.bootSeq, bootTime := e.bootTime }

/-- No entry free: MISSED grows, with event 0x0C03 (R491). -/
def State.missEntry (s : State) : State :=
  (s.onBoot fun b => { b with missed := b.missed + 1 }).writeHeader |> fun s =>
    s.raise 0x0C03 s.srcStarters s.boot.missed (bit s.strictLedger) 0 0

/-- An entry of a reason appended, or missed when none is free (R485, R491, R497). -/
def State.appendEntry (s : State) (reason : Nat) : State :=
  if s.boot.ledgerFull then s.missEntry else s.storeEntry (s.newEntry reason)

/-- Warm-up step 3: the boot's entry is appended; where a power loss has left no erased sector it is signed and held until the erase ends
(R490). -/
def State.appendBootEntry (s : State) : State :=
  if s.boot.ledgerFull then s.missEntry
  else if !s.boot.erasedAhead && s.boot.aheadErasable then s.onBoot fun b => { b with heldEntry := some (s.newEntry 1) }
  else s.storeEntry (s.newEntry 1)

/-- The bank that a sector belongs to, 0xFF for none: bits [31:24] of parameter 1 (R504). -/
def bankOfSector (n : Nat) : Nat := if 2 ≤ n ∧ n < 130 then 0 else if 130 ≤ n ∧ n < 258 then 1 else 0xFF

/-- A ledger sector (*Boot store layout*). -/
def isLedgerSector (n : Nat) : Bool := decide (258 ≤ n ∧ n < 386)

/-- A bank that lost a sector becomes INVALID (R476). -/
def State.spoilBank (s : State) (k : Nat) : State :=
  if k < 2 then s.setBank k { s.boot.bank k with st := .invalid } else s

/-- A bad sector: mapped onto the lowest free sector of the pool, recorded in both headers with event 0x0C0D, and 0x0C0E when 8 are left; with
none left its area handles the loss (R476). -/
def State.badSector (s : State) (n how : Nat) : State :=
  if s.boot.poolLeft = 0 then
    let s := s.spoilBank (bankOfSector n)
    if isLedgerSector n then s.onBoot fun b => { b with ledgerLost := b.ledgerLost + 1 } else s.loseSeedCopy n
  else
    let spare := 394 + (118 - s.boot.poolLeft)
    let s := (s.onBoot fun b => { b with poolLeft := b.poolLeft - 1, remap := b.remap ++ [(n, spare)],
                                         headerWrites := b.headerWrites + 2 }).raise 0x0C0D srcBootStore
      (subParam (bankOfSector n) n) spare how 0
    if s.boot.poolLeft = 8 then s.raise 0x0C0E srcBootStore (subParam 0xFF 8) 0 0 0 else s

/-- The oldest sector's entries, all acknowledged, are gone; a sector ahead is erased (R490, R491). -/
def State.sectorErased (s : State) : State :=
  s.onBoot fun b =>
    if b.ledgerHeld + sectorEntries ≤ b.ledgerCapacity then { b with erasedAhead := true }
    else { b with erasedAhead := true, oldest := b.oldest + sectorEntries,
                  ledger := b.ledger.filter fun e => decide (b.oldest + sectorEntries ≤ e.seq) }

/-- A ledger sector's erase ended: event 0x0C04 where step 3 started it; a hold of reason 0x02 clears with it (R490, R491). -/
def State.ledgerErased (s : State) (n : Nat) : State :=
  let s := s.sectorErased.onPower fun p => { p with holds := p.holds.filter (· != 2) }
  match s.boot.heldEntry with
  | none => s
  | some e => s.raise 0x0C04 s.srcStarters n ((s.now - e.time) / 1000000) 0 0

/-- The ledger erases a sector now: for a held entry, in a hold of reason 0x02, and after step 12 (R490, R491). -/
def State.ledgerErasing (s : State) : Bool :=
  !s.boot.erasedAhead && s.boot.aheadErasable &&
  (s.boot.heldEntry.isSome || s.power.holds.contains 2 || s.stepComplete 12)

/-- A sector erase is under way in the store: for the ledger, a bank being staged, or the seed record (R283, R490, R495). -/
def State.storeErasing (s : State) : Bool :=
  s.ledgerErasing || s.boot.bank0.st == .staging || s.boot.bank1.st == .staging || s.cph.erasing

/-- A read of `n` bytes of the store, 5 ns each: it suspends an erase 200 us after the erase last resumed at the earliest, within 30 us, is
served, and the erase resumes. Behind a program it waits 300 us at most. The time kept is the latest one (R473, R475). -/
def State.storeRead (s : State) (n : Nat) : State :=
  let start := max s.now s.boot.readServed + (if s.boot.staging != [] ∨ s.boot.heldEntry.isSome then 300000 else 0)
  if s.storeErasing then
    let served := max start (s.boot.eraseResumed + 200000) + 30000 + 5 * n
    s.onBoot fun b => { b with readServed := served, eraseResumed := served }
  else s.onBoot fun b => { b with readServed := start + 5 * n }

/-- Warm-up step 2 completed: the starter chooses the bank, the header's first; with none the sequence holds with cause 0x03 (R482). -/
def State.chooseBank (s : State) : State :=
  match s.tryBanks [s.boot.selector, 1 - s.boot.selector] with
  | (none, s) => s.onPower fun p => { p with holds := p.holds ++ [3] }
  | (some (k, x), s) =>
    ((s.storeRead x.length).onBoot fun b => { b with booted := k, running := some x }).raise 0x0C01 s.srcStarters k x.svn x.starter.version
      ((s.now - s.power.t0) / 1000000)

/-- BOOT_STORE_ERASE_DONE (R474, R490): a failed status check makes the sector bad (R476), and its replacement stands for it. -/
def execBootStoreEraseDone (sector : Nat) (ok : Bool) (s : State) : Host.Outcome State Fault Refusal :=
  .next (
    if !s.running then s
    else
      let replaced := ok || s.boot.poolLeft != 0
      let s := if ok then s else s.badSector sector 1
      if isLedgerSector sector && s.ledgerErasing && replaced then s.ledgerErased sector else s)

/-- The completion of an Image Stage with its cause (R495). -/
def State.stageFails (s : State) (h : Hdr) (cause : Nat) : State := s.completeWith h .invalidFirmwareImage cause 0 []

/-- The checks at LAST and their outcome (R495). -/
def State.stageLast (s : State) (h : Hdr) (k : Nat) (x : Image) : State :=
  let cause := s.imageCause x
  let s := s.setBank k { st := if cause = 0 then .valid else .invalid, cause := cause, image := some x }
  let s := s.raise 0x0C08 s.srcStarters k cause x.svn x.length
  if cause = 0 then s.complete h .success else s.stageFails h cause

/-- An image part is programmed: its command completes; the last one runs the checks (R495). A bank that lost a sector is INVALID. -/
def State.partDone (s : State) (k : Nat) : State :=
  match s.boot.staging.find? fun p => p.2.1 == k with
  | none => s
  | some (h, _, last, x) =>
    let s := s.onBoot fun b => { b with staging := b.staging.erase (h, k, last, x) }
    if (s.boot.bank k).st != .staging then s.stageFails h 6
    else if last then s.stageLast h k x else s.complete h .success

/-- BOOT_STORE_PROGRAM_DONE (R474): a failed status check makes the sector bad and the unit goes to its replacement (R476). A part of Image
Stage, a held ledger entry or a header or seed write is then in the store. -/
def execBootStoreProgramDone (kind : ProgramKind) (sector : Nat) (ok : Bool) (s : State) : Host.Outcome State Fault Refusal :=
  .next (
    if !s.running then s
    else
      let replaced := ok || s.boot.poolLeft != 0
      let s := if ok then s else s.badSector sector 2
      match kind with
      | .imagePart k => s.partDone (k % 2)
      | .ledgerEntry => match s.boot.heldEntry with
        | some e =>
          if !s.boot.erasedAhead then s
          else if replaced then (s.storeEntry e).onBoot fun b => { b with heldEntry := none }
          else s.onBoot fun b => { b with erasedAhead := false }
        | none => s
      | .header | .seed => s)

/-- LKG_TIMER_EXPIRY (R483): the bank that has run long enough and the active pair are marked last-known-good; an SVN_COMMIT image raises the fused
SVN. -/
def execLkgTimerExpiry (s : State) : Host.Outcome State Fault Refusal :=
  .next (match s.running && s.boot.lkgArmed, s.boot.running with
    | true, some x =>
      let svn := if x.svnCommit && decide (s.boot.fusedSvn < x.svn) then x.svn else 0
      let pair := s.flt.activePair
      (s.onBoot fun b => { b with lkgArmed := false, lkgBank := b.booted, lkgValid := true, lkgPair := pair,
                                  fusedSvn := max b.fusedSvn svn, headerWrites := b.headerWrites + 1 }).raise
        0x0C0F s.srcStarters s.boot.booted pair svn 0
    | _, _ => s)

/-- The bytes of a ledger entry that are fields of its own; keys and DeviceID signatures are those of the boot's entry (R489). -/
def LedgerEntry.fields (e : LedgerEntry) : List FieldVal :=
  let own := fun (o n : Nat) => (⟨o, n, Config.ledgerField e.seq o % 256 ^ n⟩ : FieldVal)
  let boot := fun (o n : Nat) => (⟨o, n, Config.ledgerField e.bootSeq o % 256 ^ n⟩ : FieldVal)
  ([⟨0, 4, 0x4C444731⟩, ⟨4, 4, e.seq⟩, ⟨8, 8, e.time⟩, ⟨16, 4, e.vauxOn⟩, ⟨20, 1, e.reason⟩, ⟨21, 1, e.bank⟩, ⟨22, 2, 9⟩,
   ⟨24, 4, e.missed⟩, ⟨28, 4, e.stepSvn⟩, own 32 48] : List FieldVal) ++ (List.range 9).map (fun i => own (80 + 48 * i) 48) ++
  ([⟨512, 4, e.bootSeq⟩, ⟨516, 8, e.bootTime⟩, boot 848 97, boot 945 1952, boot 2897 96, boot 2993 3309, own 6302 96, own 6398 3309] : List FieldVal)

/-- Byte `o` of a list of fields. -/
def byteAt (fs : List FieldVal) (o : Nat) : Nat :=
  match fs.find? fun f => decide (f.off ≤ o ∧ o < f.off + f.len) with
  | none => 0
  | some f => f.val / 256 ^ (o - f.off) % 256

/-- A whole entry of 16 KiB, with its ECRC, placed at byte `o` of the returned data (R489). -/
def LedgerEntry.bytes (e : LedgerEntry) (o : Nat) : List FieldVal :=
  let crc := crc32 ((List.range 16380).map (byteAt e.fields))
  (e.fields ++ [(⟨16380, 4, crc⟩ : FieldVal)]).map fun (f : FieldVal) => { f with off := o + f.off }

/-- A transfer that Ledger Read allows: whole entries from offset 0 (R492, R316). -/
def ledgerTransferBad (numd ofst : Nat) : Bool := overMdts numd || (numd + 1) % 4096 != 0 || ofst != 0

/-- The oldest SEQ held. -/
def BootStore.oldestHeld (b : BootStore) : Nat :=
  match b.ledger with
  | [] => 0
  | e :: _ => e.seq

/-- LEDGER_READ (R492): whole entries in SEQ order from the first held at or above the SEQ given; DW0 and DW1 the oldest and newest. -/
def execLedgerRead (h : Hdr) (seq numd ofst : Nat) (s : State) : Host.Outcome State Fault Refusal :=
  .next (s.admin ruleBoot h fun s =>
    if ledgerTransferBad numd ofst then s.complete h .invalidField
    else
      let es := (s.boot.ledger.filter fun e => decide (seq ≤ e.seq)).take ((numd + 1) / 4096)
      let s := s.storeRead (16384 * es.length)
      let data := (List.range es.length).flatMap fun i => match es[i]? with
        | none => []
        | some e => e.bytes (16384 * i)
      s.completeWith h .success s.boot.oldestHeld s.boot.seqNew data)

/-- LEDGER_READ_CERTS (R492): the DeviceID certificate chains of the header, whose bytes the spec does not state (log entry 2). -/
def execLedgerReadCerts (h : Hdr) (numd ofst : Nat) (s : State) : Host.Outcome State Fault Refusal :=
  .next (s.admin ruleBoot h fun s =>
    if ledgerTransferBad numd ofst then s.complete h .invalidField
    else
      let (v, s) := (s.storeRead (4 * (numd + 1))).draw
      s.completeWith h .success s.boot.oldestHeld s.boot.seqNew [⟨0, 4 * (numd + 1), v % 256 ^ (4 * (numd + 1))⟩])

/-- Entries that belong to sectors whose 16 entries are all acknowledged, below an acknowledged SEQ (R491, R504). -/
def BootStore.entriesFreed (b : BootStore) (ack : Nat) : Nat := (ack + 1 - b.oldest) / sectorEntries * sectorEntries

/-- LEDGER_ACKNOWLEDGE (R493): above the newest SEQ it is refused; at or below the acknowledged one it changes nothing. Sectors whose entries
are all acknowledged may then be erased (R491). -/
def execLedgerAcknowledge (h : Hdr) (seq : Nat) (s : State) : Host.Outcome State Fault Refusal :=
  .next (s.admin ruleBoot h fun s =>
    if s.boot.seqNew < seq then s.complete h .invalidField
    else
      let freed := s.boot.entriesFreed seq - s.boot.entriesFreed s.boot.seqAck
      let s := if seq ≤ s.boot.seqAck then s else (s.onBoot fun b => { b with seqAck := seq }).writeHeader
      (s.raise 0x0C05 s.srcStarters seq freed (if h.mc then 2 else 1) 0).complete h .success)

/-- A bank that a roll is using: the one it rolls to and the one that runs (R495). -/
def State.bankInUse (s : State) (k : Nat) : Bool :=
  (s.boot.running.isSome && s.boot.booted == k) || s.boot.roll.any fun r => r.bank == k

/-- IMAGE_STAGE (R495): a part at offset 0 starts a staging; each part completes when it is programmed. A part for a bank that is not being staged
is out of sequence (log entry 6). -/
def execImageStage (h : Hdr) (bank numd ofst : Nat) (last : Bool) (image : Image) (s : State) : Host.Outcome State Fault Refusal :=
  .next (s.admin ruleBoot h fun s =>
    let k := bank % 2
    if overMdts numd || s.bankInUse k then s.complete h .invalidField
    else if ofst ≠ 0 ∧ (s.boot.bank k).st ≠ .staging then s.complete h .sequenceError
    else
      let s := if ofst = 0 then s.setBank k { st := .staging } else s
      s.onBoot fun b => { b with staging := b.staging ++ [(h, k, last, image)] })

/-- A staging is under way in a bank, an Apply between its first part and its quiet point, or a roll (cause 0x10). -/
def State.storeBusy (s : State) : Bool :=
  s.boot.roll.isSome || s.boot.bank0.st == .staging || s.boot.bank1.st == .staging || s.boot.applying || s.boot.bundles != []

/-- A Format NVM or Sanitize is in progress (cause 0x12). -/
def State.erasing (s : State) : Bool := s.work.erasures != [] || s.store.sanitize == 2 || s.nss.any fun p => p.2.fenced

/-- A bank's cause for which no activation of it succeeds (*Activation causes*). -/
def State.bankCause (s : State) (k : Nat) : Nat :=
  match (s.boot.bank k).st, (s.boot.bank k).image with
  | .valid, some x => s.imageCause x
  | _, _ => 6

/-- An activation refused: the causes from 0x10 are Command Sequence Error, the others Invalid Firmware Image (R496). -/
def State.activateFails (s : State) (h : Hdr) (cause : Nat) : State :=
  s.completeWith h (if 0x10 ≤ cause then .sequenceError else .invalidFirmwareImage) cause 0 []

/-- The selector rewritten in a header (R496). -/
def State.selectBank (s : State) (k : Nat) : State := (s.onBoot fun b => { b with selector := k }).writeHeader

/-- Causes of R496 that do not depend on the image: Warm-up (but for ACTION 0x2 in a hold of reason 0x03), work in progress. -/
def State.activateBusy (s : State) (atReset : Bool) : Nat :=
  if s.power.mode == .warmup && !(atReset && s.power.holds.contains 3) then 0x13
  else if s.storeBusy then 0x10
  else if s.erasing then 0x12 else 0

/-- IMAGE_ACTIVATE_AT_RESET (ACTION 0x2, R496): the selector names the bank; in a hold of reason 0x03 the chip domain resets at once. -/
def execImageActivateAtReset (h : Hdr) (bank : Nat) (s : State) : Host.Outcome State Fault Refusal :=
  .next (s.admin ruleBoot h fun s =>
    let k := bank % 2
    let busy := s.activateBusy true
    let cause := if busy ≠ 0 then busy else s.bankCause k
    if cause ≠ 0 then s.activateFails h cause
    else
      let s := (s.selectBank k).complete h .success
      if s.power.holds.contains 3 then s.chipReset false else s)

/-- IMAGE_REVERT_AT_RESET (ACTION 0x3, R496): the selector names the bank that does not run. -/
def execImageRevertAtReset (h : Hdr) (s : State) : Host.Outcome State Fault Refusal :=
  .next (s.admin ruleBoot h fun s =>
    let k := 1 - s.boot.booted
    let busy := s.activateBusy false
    let cause := if busy ≠ 0 then busy else s.bankCause k
    if cause ≠ 0 then s.activateFails h cause else (s.selectBank k).complete h .success)

/-- The causes of the records of a bundle, with their indexes, that its checks find (R484, R485). -/
def State.bundleCauses (s : State) (b : Bundle) : List (Nat × CfgRecord × Nat) :=
  (List.range b.records.length).filterMap fun i => match b.records[i]?, s.boot.running with
    | some r, some x => if s.recordCause x.schema r = 0 then none else some (i, r, s.recordCause x.schema r)
    | _, _ => none

/-- CONFIG_RECORD_APPLY (R485): a part before LAST is placed and completes; at LAST the bundle is checked, and one that passes completes when a quiet
point has applied it. A record that fails its checks fails the bundle (R26). -/
def execConfigRecordApply (h : Hdr) (numd ofst : Nat) (last : Bool) (bundle : Bundle) (s : State) :
    Host.Outcome State Fault Refusal :=
  .next (s.admin ruleManager h fun s =>
    if overMdts numd then s.complete h .invalidField
    else if s.strictLedger && s.boot.ledgerFull then s.activateFails h 0x11
    else if ofst ≠ 0 ∧ s.boot.applying = false then s.complete h .sequenceError
    else if !last then (s.onBoot fun b => { b with applying := true }).complete h .success
    else
      let s := s.onBoot fun b => { b with applying := false }
      let bad := s.bundleCauses bundle
      if !bundle.sigsOk || bundle.records.any (fun r => !r.live) then s.complete h .invalidField
      else if bad != [] then (s.each bad fun x s => s.rejectRecord x.1 x.2.1 x.2.2).complete h .invalidField
      else
        let s := s.each (bundle.records.filter isWrites) fun r s => s.applyRecord r
        s.onBoot fun b => { b with bundles := b.bundles ++ [(h, bundle)] })

end Sys2Proof.Machine
end

