-- ==== Sys2Proof/Machine/Faults.lean ====
section
/-! DEFINITION. Fault containment (R521-R532): relay handoff, marshal and steward restart, starter takeover, fixed-function units, escalation,
the minimum service set and fault stop. -/

namespace Sys2Proof.Machine

/-- A fault stop (R531): CFS on every controller, and what is staged is landed on input power. Before Warm-up has restored the landing area
nothing is staged, and the directory stands (R424). -/
def State.faultStop (s : State) (cause : Nat) : State :=
  if s.flt.stop ≠ 0 ∨ s.power.mode = .homestretch ∨ s.running = false then s
  else
    let s := (s.onFlt fun f => { f with stop := cause }).mapCtrls fun _ c => { c with cfs := true }
    let s := s.onPower fun p => { p with entry := none }
    if !s.stepComplete 10 then s.raise 0x0F07 srcChipCollector cause 0 0 0
    else match s.power.landing with
      | some l => if l.cause = .chipReset then s
          else (s.onPower fun p => { p with landing := some { l with cause := .faultStop } }).settleLanding
      | none => (s.startLanding .faultStop s.bank.lowMv).settleLanding

/-- A lane carries a member of the minimum set: populated, served, not failed, its marshal not kept out, a steward in its region (R532). -/
def State.laneServes (s : State) (n : Nat) : Bool :=
  let l := s.lane n
  s.populated n && !l.unserved && l.st != .failed && !l.mismatch && !(s.blk (blockOfLane n)).marshalKept &&
  (s.rgn (regionOfLane n)).stewards != 0

/-- A stripe set is complete: 18 members on lanes that serve, on dies not lost (R532). -/
def State.setServes (s : State) (x : StripeSet) : Bool :=
  decide (18 ≤ x.members.length) && x.members.all fun m => m.any fun k => !(s.die k).lost && s.laneServes (k / 8)

/-- One complete stripe set is in service: the last row of *Minimum service set*. -/
def State.lanesServe (s : State) : Bool := s.sets.any fun p => s.setServes p.2

/-- The chip domain's units: at least 3 stripe parity engines, and a recorder (R532). -/
def State.unitsServe (s : State) : Bool := decide (3 ≤ countBits s.cph.parityIn 8)

/-- A DRAM channel is not retired (R532). -/
def State.dramServes (s : State) : Bool := (s.chan 0).st != .retired || (s.chan 1).st != .retired

/-- Event 0x0F08: an item of the minimum service set is missing, at a Warm-up step or in service (R541). -/
def State.raiseMissing (s : State) (item step : Nat) : State := s.raise 0x0F08 srcChipCollector item step 0 0

/-- The item of the minimum service set lost in service, 0 for none (R531, R532). A host port's link comes and goes with its host (R293, R302): it
is checked at Warm-up only (log entry 12). -/
def State.itemLost (s : State) : Nat :=
  if !s.stepComplete 12 || s.flt.stop != 0 || s.power.mode == .calm || s.power.mode == .homestretch || s.power.mode == .off then 0
  else if !s.unitsServe then 4
  else if !s.dramServes then 5
  else if !s.lanesServe then 7 else 0

/-- Loss in service of an item of the minimum service set stops the device (R531). -/
def State.checkService (s : State) : State :=
  if s.itemLost = 0 then s else (s.raiseMissing s.itemLost 0).faultStop 3

/-- A fault with a thermal trip latched is recorded only, and no response begins (R529). -/
def State.recordedOnly (s : State) (source : Nat) : State := s.unitFailed source

/-- A lane left without a cell: event 0x0F02, and the lane is retired with its dies (R34, R199, R529). -/
def State.unserve (s : State) (n cause : Nat) : State :=
  if (s.lane n).unserved then s
  else
    let b := blockOfLane n
    let s := (s.updBlk b fun k => { k with handoff := none }).updLane n fun l => { l with unserved := true, spare := false }
    (s.raise 0x0F02 (srcBlockCollector b) n cause 0 0).failLane n 0x0F02

/-- Steps 5 to 7 of *Relay handoff steps*: the PHY moves to the spare, which sends TSR, and SYNC once the bridge has answered; a PHY that has lost
lock runs RECOVERY first (R135). A lane whose training was under way runs full
training of one attempt instead (R529), and one that is not trained is served by the spare when it trains. -/
def State.moveToSpare (s : State) (n : Nat) : State :=
  let l := s.lane n
  if l.st = .active then s.resumeLane n
  else if l.st = .recovery then (s.updLane n fun l => { l with resuming := true }).sendTs n 1
  else if l.outage.isSome then (s.startTraining n).updLane n fun l => { l with attemptsLeft := 0, recalWait := false }
  else s.syncDone n

/-- A pacer declared failed: its cell is fenced, its reads go by read-around, and the spare takes the lane; a second cell of the block leaves
its lane unserved (R34, R525, R529). -/
def State.pacerFails (s : State) (cell : Nat) : State :=
  let b := cell / 17
  let k := cell % 17
  let x := s.blk b
  let n := if k = 16 then 16 * b + x.spareLane else 16 * b + k
  if hasBit x.cellFailed k then s
  else
    let s := (s.updBlk b fun y => { y with cellFailed := setBit y.cellFailed k }).unitFailed (srcPacer cell)
    if k = 16 then
      match x.handoff with
      | some (m, _) => s.unserve m 2
      | none => if x.spareLane = 0x1F then s else (s.noteFailure (srcPacer cell) (s.ctxsOnLane n)).unserve n 2
    else if s.populated n = false ∨ (s.lane n).st = .failed then s
    else
      let s := s.noteFailure (srcPacer cell) (s.ctxsOnLane n)
      if x.spareLane ≠ 0x1F ∨ x.handoff.isSome then s.unserve n 1
      else if hasBit x.cellFailed 16 then s.unserve n 2
      else
        let s := (s.updBlk b fun y => { y with handoff := some (n, s.now) }).aroundLane n .maint
        if x.marshalOut then s else s.moveToSpare n

/-- The lanes of a block. -/
def lanesOfBlock (b : Nat) : List Nat := (List.range 16).map fun i => 16 * b + i

/-- Seconds since a restart, when it lies within 60 s (R526). -/
def recentRestart (now : Nat) (t : Option Nat) : Option Nat :=
  match t with
  | some t => if now - t < 60000000000 then some ((now - t) / 1000000000) else none
  | none => none

/-- Event 0x0F06 (R526). -/
def State.keepOut (s : State) (collector source secs : Nat) : State := s.raise 0x0F06 collector source secs 0 0

/-- A marshal declared failed: the block's reads go by read-around until the restart; a second failure within 60 s keeps it out (R524,
R526). -/
def State.marshalFails (s : State) (b : Nat) : State :=
  let x := s.blk b
  if x.marshalOut then s
  else
    let again := recentRestart s.now x.restartedAt
    let s := (s.updBlk b fun y => { y with marshalOut := true, marshalAt := s.now, marshalKept := again.isSome }).unitFailed (srcMarshal b)
    let s := s.noteFailure (srcMarshal b) ((lanesOfBlock b).flatMap s.ctxsOnLane)
    let s := s.each (lanesOfBlock b) fun n s => s.aroundLane n .reactive
    match again with
    | some secs => s.keepOut (srcRegionCollector (regionOfBlock b)) (srcMarshal b) secs
    | none => s

/-- A region's I/O queues that a steward serves: even numbers steward 0, odd numbers steward 1 (R35). -/
def State.queuesOf (s : State) (g i : Nat) : Nat :=
  (s.sqs.filter fun p => p.1 % 65536 != 0 && p.2.region == g && p.1 % 2 == i).length

/-- A steward declared failed: its partner takes its queues and zones; without a partner the region is lost (R35, R526, R529). The time of the
takeover has no clock in the model: a free value (log entry 2). -/
def State.stewardFails (s : State) (g i : Nat) : State :=
  let x := s.rgn g
  if hasBit x.stewards i = false then s
  else
    let again := recentRestart s.now (if i = 0 then x.restart0 else x.restart1)
    let s := (s.updRgn g fun y => { y with
      stewards := clearBit y.stewards i, failed0 := if i = 0 then s.now else y.failed0, failed1 := if i = 0 then y.failed1 else s.now,
      kept := if again.isSome then setBit y.kept i else y.kept }).unitFailed (srcSteward g)
    let s := match again with
      | some secs => s.keepOut (srcRegionCollector g) (srcSteward g) secs
      | none => s
    if (s.rgn g).stewards = 0 then s.faultStop 1
    else
      let (v, s) := s.draw
      s.raise 0x0F03 (srcRegionCollector g) (subParam i g) v (s.queuesOf g i) 0

/-- A core declared failed (R47, R525, R526). -/
def State.coreFails (s : State) (c : CoreId) : State :=
  match c with
  | .pacer cell => if s.aon.trip then s.recordedOnly (srcPacer cell) else s.pacerFails cell
  | .marshal b => if s.aon.trip then s.recordedOnly (srcMarshal b) else s.marshalFails b
  | .steward g i => if s.aon.trip then s.recordedOnly (srcSteward g) else s.stewardFails g i

/-- CORE_HEARTBEAT_MISS (R47): cores run their firmware from Warm-up step 7 on. -/
def execCoreHeartbeatMiss (core : CoreId) (s : State) : Host.Outcome State Fault Refusal :=
  .next (if s.running && s.stepComplete 7 && s.power.mode != .calm then s.coreFails core else s)

/-- Event 0x0F04 and the count of restarts (R526, R541). -/
def State.restarted (s : State) (collector source since : Nat) : State :=
  (s.onFlt fun f => { f with restarts := satAdd 8 f.restarts 1 }).raise 0x0F04 collector source (usSince s.now since) 0 0

/-- CORE_RESTART_DONE (R526): a marshal takes back its block, and a handoff held for it goes on (R529); a steward takes back its queues. No restart
ends in Homestretch, none is made under a thermal trip, and a unit kept out stays out. -/
def execCoreRestartDone (core : CoreId) (s : State) : Host.Outcome State Fault Refusal :=
  .next (
    if !s.running || s.power.mode == .homestretch || s.aon.trip then s
    else match core with
      | .pacer _ => s
      | .marshal b =>
        let x := s.blk b
        if !x.marshalOut || x.marshalKept then s
        else
          let s := (s.updBlk b fun y => { y with marshalOut := false, restartedAt := some s.now }).restarted
            (srcRegionCollector (regionOfBlock b)) (srcMarshal b) x.marshalAt
          match x.handoff with
          | some (n, _) => s.moveToSpare n
          | none => s
      | .steward g i =>
        let x := s.rgn g
        if hasBit x.stewards i || hasBit x.kept i then s
        else
          (s.updRgn g fun y => { y with stewards := setBit y.stewards i, restart0 := if i = 0 then some s.now else y.restart0,
                                        restart1 := if i = 0 then y.restart1 else some s.now }).restarted
            (srcRegionCollector g) (srcSteward g) (if i = 0 then x.failed0 else x.failed1))

/-- Another unit counted as failed (R541: OTHER). -/
def State.otherFailed (s : State) (source : Nat) : State :=
  (s.unitFailed source).onFlt fun f => { f with other := satAdd 8 f.other 1 }

/-- Event 0x0D08: a block or the chip has fallen below the units that the bound sets assume; `kind` 1 decoders, 2 parity engines, 3 cipher engines
(R216). None returns to service before chip domain reset, so the shortfall ends with it. -/
def State.raiseShort (s : State) (unit left kind : Nat) : State := s.raise 0x0D08 srcTimekeeper unit left kind 0

/-- With one decoder left in a block no soft decode runs: those under way end their ladders with cause 0x3 (R162). -/
def State.endSoftDecodes (s : State) (b : Nat) : State :=
  s.each (s.work.decodes.filterMap fun p => p.2.bind fun j => if j.block = b ∧ j.soft then some (p.1, j) else none) fun p s =>
    (s.setDecode p.1 none).softEnds (dieKey p.2.lane p.2.die) { p.2.entry with off := p.2.off } 3

/-- A decoder out of service: the frame granted to it is decoded again on another (R162). -/
def State.decoderFails (s : State) (b i : Nat) : State :=
  if hasBit (s.blk b).decIn i = false then s
  else
    let s := (s.updBlk b fun y => { y with decIn := clearBit y.decIn i }).otherFailed (srcDecoder b)
    let left := countBits (s.blk b).decIn 4
    let s := s.raise 0x0411 (srcMarshal b) 0 i left 0
    let s := if left = 2 then s.raiseShort (srcBlockCollector b) left 1 else s
    let s := s.onWork fun w => { w with decodes := Tbl.mapAll none (fun _ o => o.map fun j =>
      if j.block = b ∧ j.decoder = some i then { j with decoder := none } else j) w.decodes }
    (if left ≤ 1 then s.endSoftDecodes b else s).grantDecoders 4 b

/-- The partner service of a block's cipher engine ends: event 0x0806 (R268, R291). -/
def State.endPartner (s : State) (b : Nat) : State :=
  if s.cph.partner.getLsbD b then
    (s.onCph fun c => { c with partner := clearBit c.partner b }).raise 0x0806 (srcCipher b) 0 (partnerBlock b)
      ((s.now - (s.blk b).cipPartnerAt) / 1000000) 0
  else s

/-- A cipher engine out of service: event 0x0804, and the partner engine serves its block where it can (R268). -/
def State.cipherFails (s : State) (b cause : Nat) : State :=
  if s.cph.engines.getLsbD b = false then s
  else
    let p := partnerBlock b
    let s := (s.onCph fun c => { c with engines := clearBit c.engines b }).otherFailed (srcCipher b)
    let s := (s.raise 0x0804 (srcCipher b) 0 cause 0 0).endPartner p
    let s := if s.cph.engines.getLsbD p then
        ((s.onCph fun c => { c with partner := setBit c.partner b }).updBlk b fun y => { y with cipPartnerAt := s.now }).raise
          0x0805 (srcCipher b) 0 p 0 0
      else s
    let s := if s.cipherShort b then (s.raiseShort (srcBlockCollector b) 0 3).raiseShort (srcBlockCollector p) 0 3 else s
    s.moveCipherJobs b

/-- A stripe parity engine out of service: its job starts again on another (R179). -/
def State.parityFails (s : State) (i : Nat) : State :=
  if hasBit s.cph.parityIn i = false then s
  else
    let s := (s.onCph fun c => { c with parityIn := clearBit c.parityIn i }).otherFailed (srcParity i)
    let left := countBits s.cph.parityIn 8
    let s := s.raise 0x0495 (srcParity i) i left 0 0
    let s := if left = 2 then s.raiseShort srcChipCollector left 2 else s
    ((s.onWork fun w => { w with parityRun := Tbl.put none w.parityRun i none }).grantParity 8).checkService

/-- A compression engine out of service by its collector (R261). -/
def State.compressFails (s : State) (g i : Nat) : State :=
  if hasBit (s.rgn g).cmpIn i then (s.engineOut (4 * g + i) 2).onFlt fun f => { f with other := satAdd 8 f.other 1 } else s

/-- A fixed-function unit declared failed (R523). -/
def State.fixedFails (s : State) (u : FixedUnit) : State :=
  match u with
  | .decoder b i => if s.aon.trip then s.recordedOnly (srcDecoder b) else s.decoderFails b i
  | .cipher b => if s.aon.trip then s.recordedOnly (srcCipher b) else s.cipherFails b 2
  | .parity i => if s.aon.trip then s.recordedOnly (srcParity i) else s.parityFails i
  | .compress g i => if !s.hasCompression then s
      else if s.aon.trip then s.recordedOnly (srcCompress g) else s.compressFails g i

/-- FIXED_UNIT_ERROR (R523): the error signal. -/
def execFixedUnitError (u : FixedUnit) (s : State) : Host.Outcome State Fault Refusal :=
  .next (if s.running then s.fixedFails u else s)

/-- FIXED_UNIT_DEADLINE (R523): a step missed its booked occupancy plus 2 µs. -/
def execFixedUnitDeadline (u : FixedUnit) (s : State) : Host.Outcome State Fault Refusal :=
  .next (if s.running then s.fixedFails u else s)

/-- RESPONSE_OVERDUE (R530): the collector above declares the unit failed and takes its own response. -/
def execResponseOverdue (u : UnitId) (s : State) : Host.Outcome State Fault Refusal :=
  .next (
    if !s.running then s
    else match u with
      | .core c => s.coreFails c
      | .fixed f => s.fixedFails f)

/-- Admin commands in progress at the starters. -/
def State.adminInProgress (s : State) : Nat :=
  s.boot.staging.length + s.boot.bundles.length + s.work.erasures.length + (if s.boot.roll.isSome then 1 else 0) +
  (Tbl.numbers (fun (t : Tenant) => t.quiesce.isSome || t.ending.isSome) s.tenants).length

/-- Both starter pairs are lost: nothing serves management, and the AON controller will reset the chip domain (R529, R531). -/
def State.losePairs (s : State) : State :=
  (s.onFlt fun f => { f with bothLost := some s.now }).faultStop 2

/-- The active pair's place taken by the standby, the failed one out of service; a pair that failed before stays out (R527, R528). -/
def State.takeOver (s : State) : State :=
  let old := s.flt.activePair
  let s := (s.onFlt fun f => { f with
    pairsIn := clearBit f.pairsIn old, pairsFailed := setBit f.pairsFailed old,
    pairsKept := if hasBit f.pairsFailed old then setBit f.pairsKept old else f.pairsKept }).unitFailed (srcStarter (2 * old))
  if hasBit s.flt.pairsIn (1 - old) = false then s.losePairs
  else
    let (v, s) := s.draw
    (s.onFlt fun f => { f with activePair := 1 - old, takeovers := satAdd 8 f.takeovers 1, takeover := some s.now }).raise
      0x0F05 srcChipCollector old (1 - old) v s.adminInProgress

/-- A takeover in the starter phase of a roll (R502): where the standby holds the new firmware its transfer and handover count as done, otherwise
the phase begins again when two pairs are in service. -/
def State.rollTakeover (s : State) : State :=
  match s.boot.roll with
  | none => s
  | some r =>
    if r.phase ≠ 5 then s
    else if r.stage = 1 then s.onBoot fun b => { b with roll := some { r with stage := 2 } }
    else s.onBoot fun b => { b with roll := some { r with stage := 0, running := false } }

/-- STARTER_MISMATCH (R527). -/
def execStarterMismatch (s : State) : Host.Outcome State Fault Refusal :=
  .next (
    if !s.running || s.flt.pairsIn == 0 then s
    else if s.aon.trip then s.recordedOnly s.srcStarters
    else s.takeOver.rollTakeover)

/-- STANDBY_PAIR_RETURN (R528): a pair that passes its self-test and loads the firmware is the standby again; one that fails, or failed a second
time, stays out. -/
def execStandbyPairReturn (pass : Bool) (s : State) : Host.Outcome State Fault Refusal :=
  .next (
    let p := 1 - s.flt.activePair
    if !s.running || s.flt.pairsIn == 0 || hasBit s.flt.pairsIn p || hasBit s.flt.pairsKept p then s
    else if pass then
      (s.onFlt fun f => { f with pairsIn := setBit f.pairsIn p }).raise 0x0F0C srcChipCollector p
        ((s.now - s.flt.takeover.getD s.now) / 1000000) 0 0
    else s.onFlt fun f => { f with pairsKept := setBit f.pairsKept p })

/-- BOTH_PAIRS_LOST_RESET (R531): what the stewards have landed by then is in the directory. -/
def execBothPairsLostReset (s : State) : Host.Outcome State Fault Refusal :=
  .next (if s.running && s.flt.bothLost.isSome then s.chipReset s.power.landing.isNone else s)

end Sys2Proof.Machine
end

