-- ==== Sys2Proof/Machine/Roll.lean ====
section
/-! DEFINITION. Live rolls (R496-R503): the checks before one, its phases and steps, and rolling back. -/

namespace Sys2Proof.Machine

/-- `f` applied to the roll in progress. -/
def State.onRoll (s : State) (f : Roll → Roll) : State := s.onBoot fun b => { b with roll := b.roll.map f }

/-- A handover's check (R498): its phase, mailbox, component class, the range met and the new component's. -/
structure Handover where
  phase : Nat
  mailbox : Nat
  cls : Nat
  met : Nat × Nat
  new : Nat × Nat
  deriving DecidableEq, Repr

/-- Every handover of a roll from set `x` to set `y`: each new component with the old components after it in roll order, with the new ones before it,
and on mailbox 6 with its own old version (R479, R498). -/
def handovers (x y : Image) : List Handover :=
  [⟨2, 1, 4, epochOf x.marshal 1, epochOf y.pacer 1⟩, ⟨2, 6, 4, epochOf x.pacer 6, epochOf y.pacer 6⟩,
   ⟨3, 1, 3, epochOf y.pacer 1, epochOf y.marshal 1⟩, ⟨3, 2, 3, epochOf x.steward 2, epochOf y.marshal 2⟩,
   ⟨3, 6, 3, epochOf x.marshal 6, epochOf y.marshal 6⟩, ⟨4, 2, 2, epochOf y.marshal 2, epochOf y.steward 2⟩,
   ⟨4, 3, 2, epochOf x.steward 3, epochOf y.steward 3⟩, ⟨4, 4, 2, epochOf x.starter 4, epochOf y.steward 4⟩,
   ⟨4, 6, 2, epochOf x.steward 6, epochOf y.steward 6⟩, ⟨5, 4, 1, epochOf y.steward 4, epochOf y.starter 4⟩,
   ⟨5, 5, 1, epochOf x.starter 5, epochOf y.starter 5⟩, ⟨5, 6, 1, epochOf x.starter 6, epochOf y.starter 6⟩]

/-- The first handover of a phase whose epochs do not meet. -/
def clashIn (x y : Image) (phase : Nat) : Option Handover :=
  (handovers x y).find? fun h => h.phase == phase && !epochsMeet h.met h.new

/-- No handover of a roll fails its check. -/
def handoversMeet (x y : Image) : Bool := (handovers x y).all fun h => epochsMeet h.met h.new

/-- The image that a roll goes to. -/
def State.rollTarget (s : State) (r : Roll) : Option Image := (s.boot.bank r.bank).image

/-- The causes of R496 for a live roll, 0 for none. -/
def State.liveCause (s : State) (k : Nat) : Nat :=
  let busy := s.activateBusy false
  if busy ≠ 0 then busy
  else if s.strictLedger && s.boot.ledgerFull then 0x11
  else if s.flt.pairsIn != 3 then 0x14
  else if s.bankCause k ≠ 0 then s.bankCause k
  else match s.boot.running, (s.boot.bank k).image with
    | some x, some y =>
      if !(y.rows.any fun r => r.rollSrc && r.step == s.step && rowNames r x) then 4
      else if !handoversMeet x y then 5 else 0
    | _, _ => 6

/-- IMAGE_ACTIVATE_LIVE (ACTION 0x1, R496): the handovers are checked and the roll starts with phase 1 and event 0x0C09; the command completes when the
roll does. -/
def execImageActivateLive (h : Hdr) (bank : Nat) (s : State) : Host.Outcome State Fault Refusal :=
  .next (s.admin ruleBoot h fun s =>
    let k := bank % 2
    let cause := s.liveCause k
    if cause ≠ 0 then s.activateFails h cause
    else match (s.boot.bank k).image with
      | none => s.activateFails h 6
      | some y =>
        let s := s.storeRead y.length
        (s.onBoot fun b => { b with roll := some { bank := k, hdr := h, phase := 1, unit := 0, cell := 0, stage := 0, inPlace := false, running := true,
                                                   back := false, cause := 0, reached := 1, since := s.now, stepAt := s.now } }).raise
          0x0C09 s.srcStarters k y.starter.version y.pacer.version 0)

/-- A lane taken out of direct service for a step of the roll (R497, R499). -/
def State.rollLaneOut (s : State) (n : Nat) : State :=
  if (s.lane n).st = .active then
    (s.updLane n fun l => { l with outage := some .roll }).aroundLane n .maint
  else s

/-- A lane back in direct service. -/
def State.rollLaneBack (s : State) (n : Nat) : State :=
  s.updLane n fun l => { l with outage := if l.outage = some .roll then none else l.outage }

/-- A lane moved to a cell by a planned handoff: the spare when `spare`, else its own (R34, R135, R499). -/
def State.rollMove (s : State) (n : Nat) (spare : Bool) : State :=
  let s := ((s.rollLaneBack n).updBlk (blockOfLane n) fun y => { y with spareLane := if spare then n % 16 else 0x1F }).updLane n
    fun l => { l with spare := spare }
  if (s.lane n).st = .active then s.resumeLane n else if (s.lane n).st = .recovery then s.updLane n fun l => { l with resuming := true } else s

/-- The block's spare serves a lane, or is lost: the rest of the block loads in place (R499, R529). -/
def State.spareTaken (s : State) (b : Nat) : Bool :=
  (s.blk b).spareLane != 0x1F || (s.blk b).handoff.isSome || hasBit (s.blk b).cellFailed 16

/-- Event 0x0C0A: local cell `k` of block `b` loads in place; the lane it serves is out (R499). -/
def State.loadInPlace (s : State) (b k n : Nat) : State :=
  ((s.onRoll fun r => { r with cell := k, stage := 1, inPlace := true, stepAt := s.now }).raise 0x0C0A s.srcStarters b k 0 0).rollLaneOut n

/-- The next phase or unit has ended: what comes after it, or before it when rolling back (R497, R498). -/
def rollNext (r : Roll) : Option (Nat × Nat) :=
  if r.back then
    match r.phase, r.unit with
    | 2, 0 | 1, _ | 0, _ => none
    | 3, 0 => some (2, 31)
    | 4, 0 => some (3, 31)
    | 5, _ => some (4, 7)
    | p + 6, _ => some (p + 5, 0)
    | p, u + 1 => some (p, u)
  else if r.phase = 1 then some (2, 0)
  else if r.phase = 2 then some (if r.unit < 31 then (2, r.unit + 1) else (3, 0))
  else if r.phase = 3 then some (if r.unit < 31 then (3, r.unit + 1) else (4, 0))
  else if r.phase = 4 then some (if r.unit < 7 then (4, r.unit + 1) else (5, 0))
  else if r.phase = 5 then some (6, 0)
  else none

/-- The roll is over: rolled back, with an entry of reason 0x4, or complete, with the selector at the new bank and an entry of reason 0x2 (R497, R498,
R503). -/
def State.endRoll (s : State) (r : Roll) : State :=
  let ms := (s.now - r.since) / 1000000
  let s := s.onBoot fun b => { b with roll := none }
  if r.back then
    ((s.appendEntry 4).raise 0x0C0B s.srcStarters 2 r.reached ms r.cause).activateFails r.hdr r.cause
  else
    let s := (s.onBoot fun b => { b with booted := r.bank, running := (s.boot.bank r.bank).image, rolls := satAdd 16 b.rolls 1,
                                         lkgArmed := true }).selectBank r.bank
    ((s.appendEntry 2).raise 0x0C0B s.srcStarters 1 6 ms 0).complete r.hdr .success

/-- The roll at its next phase or unit: phases 2 to 4 wait for ROLL_STEP_START, phase 5 for two pairs, phase 6 runs (R497, R528). -/
def State.advanceRoll (s : State) : State :=
  match s.boot.roll with
  | none => s
  | some r => match rollNext r with
    | none => s.endRoll r
    | some (p, u) =>
      let go := if p = 5 then s.flt.pairsIn == 3 else decide (p = 6)
      s.onRoll fun r => { r with phase := p, unit := u, cell := 0, stage := 0, inPlace := false, running := go, stepAt := s.now,
                                 reached := if r.back then r.reached else p }

/-- The first local cell of a block from `k` on that is in service to be loaded, at most 15 (R499). -/
def State.rollCellFrom (s : State) (b : Nat) : Nat → Nat → Option Nat
  | 0, _ => none
  | fuel + 1, k => if 16 ≤ k then none else if hasBit (s.blk b).cellFailed k then s.rollCellFrom b fuel (k + 1) else some k

/-- The pacer phase of a block at its next cell: a move to the spare first, or a load in place; the block ends after cell 15 (R499). -/
def State.rollCell (s : State) (b k : Nat) : State :=
  match s.rollCellFrom b 17 k with
  | none => s.advanceRoll
  | some k =>
    if s.boot.roll.any (·.inPlace) || s.spareTaken b then s.loadInPlace b k (16 * b + k)
    else (s.onRoll fun r => { r with cell := k, stage := 0, stepAt := s.now }).rollLaneOut (16 * b + k)

/-- The start of a step of phases 2 to 5 (R499-R502). A unit out of service is passed over. -/
def State.beginStep (s : State) (r : Roll) : State :=
  let s := s.onRoll fun r => { r with running := true, stepAt := s.now }
  match r.phase with
  | 2 =>
    if hasBit (s.blk r.unit).cellFailed 16 then (s.onRoll fun r => { r with inPlace := true }).rollCell r.unit 0
    else if s.spareTaken r.unit then s.loadInPlace r.unit 16 (16 * r.unit + (s.blk r.unit).spareLane)
    else s.onRoll fun r => { r with cell := 16, stage := 1 }
  | 3 =>
    if (s.blk r.unit).marshalOut then s.advanceRoll
    else s.each (lanesOfBlock r.unit) (fun n s => s.aroundLane n .maint) |>.updBlk r.unit fun y => { y with marshalOut := true }
  | 4 =>
    if hasBit (s.rgn (r.unit / 2)).stewards (r.unit % 2) then
      s.updRgn (r.unit / 2) fun y => { y with stewards := clearBit y.stewards (r.unit % 2) }
    else s.advanceRoll
  | _ => s

/-- A roll that stops: the units rolled are rolled back in reverse order (R498). In phase 1 none has been. -/
def State.stopRoll (s : State) (cause : Nat) : State :=
  match s.boot.roll with
  | none => s
  | some r =>
    if r.back then s.advanceRoll
    else
      let r := { r with back := true, cause := cause, running := false, stage := 0, inPlace := false, reached := r.phase }
      if r.phase = 1 then s.endRoll r else s.onBoot fun b => { b with roll := some r }

/-- A lane of another block than `b` is out of service, or its block's marshal is (R497). -/
def State.otherBlockOut (s : State) (b : Nat) : Bool :=
  (List.range 512).any (fun n => blockOfLane n != b && s.populated n && (s.lane n).st != .failed && !(s.lane n).unserved && s.laneOut n) ||
  (List.range 32).any fun c => c != b && (s.blk c).marshalOut

/-- The next step may start (R497, R528): no lane of another block out and the maintenance bucket full in phases 2 to 4; a partner steward in service in
phase 4; two pairs in service in phase 5. -/
def State.rollReady (s : State) (r : Roll) : Bool :=
  let b := if r.phase = 4 then 32 else r.unit
  if r.phase ≤ 4 then s.tmk.maintFull && !s.otherBlockOut b && (r.phase != 4 || hasBit (s.rgn (r.unit / 2)).stewards (1 - r.unit % 2))
  else s.flt.pairsIn == 3

/-- The device serves as a roll needs it: Stride or Sprint, no landing and no fault stop. -/
def State.rolling (s : State) : Bool :=
  s.running && (s.power.mode == .stride || s.power.mode == .sprint) && s.power.landing.isNone && s.flt.stop == 0

/-- ROLL_STEP_START (R497): the checks of R498 run again at the handover, and one that fails stops the roll with event 0x0C0C. -/
def execRollStepStart (s : State) : Host.Outcome State Fault Refusal :=
  .next (match s.boot.roll with
    | none => s
    | some r =>
      if !s.rolling || r.running || !s.rollReady r then s
      else match s.boot.running, s.rollTarget r with
        | some x, some y => match if r.back then none else clashIn x y r.phase with
          | some c => (s.raise 0x0C0C s.srcStarters c.mailbox c.cls (c.met.1 + 256 * c.met.2) (c.new.1 + 256 * c.new.2)).stopRoll 5
          | none => s.beginStep r
        | _, _ => s)

/-- A cell that failed in the pacer phase: fenced and counted; its lane stays on, or goes to, the spare, or is unserved, which stops the roll (R499,
R529). -/
def State.rollCellFails (s : State) (r : Roll) : State :=
  let b := r.unit
  let n := 16 * b + if r.cell = 16 then (s.blk b).spareLane else r.cell
  if r.inPlace then ((s.rollLaneBack n).pacerFails (17 * b + r.cell)).stopRoll 7
  else
    let s := s.onRoll fun r => { r with inPlace := true }
    if r.cell = 16 then (s.pacerFails (17 * b + 16)).rollCell b 0
    else if r.stage = 0 then ((s.rollLaneBack n).pacerFails (17 * b + r.cell)).rollCell b (r.cell + 1)
    else
      let s := (s.updBlk b fun y => { y with cellFailed := setBit y.cellFailed r.cell }).unitFailed (srcPacer (17 * b + r.cell))
      (s.rollLaneBack n).rollCell b (r.cell + 1)

/-- A step of the pacer phase ended well (R499). -/
def State.rollCellDone (s : State) (r : Roll) : State :=
  let b := r.unit
  let n := 16 * b + r.cell
  if r.cell = 16 then
    (if r.inPlace then s.rollLaneBack (16 * b + (s.blk b).spareLane) else s).rollCell b 0
  else if r.inPlace then (s.rollLaneBack n).rollCell b (r.cell + 1)
  else match r.stage with
    | 0 => (s.rollMove n true).onRoll fun r => { r with stage := 1, stepAt := s.now }
    | 1 => (s.onRoll fun r => { r with stage := 2, stepAt := s.now }).rollLaneOut n
    | _ => (s.rollMove n false).rollCell b (r.cell + 1)

/-- ROLL_STEP_DONE (R499-R502): a step ended, well or by a fault. -/
def execRollStepDone (ok : Bool) (s : State) : Host.Outcome State Fault Refusal :=
  .next (match s.boot.roll with
    | none => s
    | some r =>
      if !s.rolling || !r.running then s
      else match r.phase with
        | 1 => if ok then s.advanceRoll else s.stopRoll 7
        | 2 => if ok then s.rollCellDone r else s.rollCellFails r
        | 3 =>
          let s := s.updBlk r.unit fun y => { y with marshalOut := false }
          if ok then s.advanceRoll else (s.marshalFails r.unit).stopRoll 7
        | 4 =>
          let s := s.updRgn (r.unit / 2) fun y => { y with stewards := setBit y.stewards (r.unit % 2) }
          if ok then s.advanceRoll else (s.stewardFails (r.unit / 2) (r.unit % 2)).stopRoll 7
        | 5 =>
          if !ok then s.stopRoll 7
          else match r.stage with
            | 0 => s.onRoll fun r => { r with stage := 1, stepAt := s.now }
            | 1 => (s.onFlt fun f => { f with activePair := 1 - f.activePair }).onRoll fun r => { r with stage := 2, stepAt := s.now }
            | _ => s.advanceRoll
        | _ => if ok then s.advanceRoll else s.stopRoll 7)

end Sys2Proof.Machine
end

