-- ==== Sys2Proof/Machine/Memory.lean ====
section
/-! DEFINITION. The DRAM channels (R442-R460), on-chip memories (R461-R467), and buffer ownership (R468-R472). -/

namespace Sys2Proof.Machine

/-- Event of a DRAM controller: the subchannel in bits [31:24] of parameter 1 (R460). -/
def State.raiseDram (s : State) (code c sub p1 p2 p3 : Nat) : State := s.raise code (srcDram c) (subParam sub p1) p2 p3 0

/-- Ranks of a subchannel: two only with 16 Gb devices (R442). -/
def State.dramRanks (s : State) : Nat := if s.cfgBit .dmcCfg 0 28 && s.cfg .dmcCfg 0 31 30 == 1 then 2 else 1

/-- The (subchannel, rank) pairs of a channel. -/
def State.dramUnits (s : State) : List (Nat × Nat) :=
  if s.dramRanks = 2 then [(0, 0), (0, 1), (1, 0), (1, 1)] else [(0, 0), (1, 0)]

/-- A command issued on a channel: the newest entry of its history, with the clocks of 0.3125 ns since the last (R456, *DMC_FRZ_HIST*). The commands
the model issues serve no host command: CLASS 0x3. -/
def State.dramIssue (s : State) (c cmd sub rank bank : Nat) : State :=
  s.updChan c fun x =>
    let delta := satTo 18 ((s.now - x.histAt) * 16 / 5)
    let e := cmd * 2 ^ 60 + sub * 2 ^ 59 + rank * 2 ^ 58 + bank % 32 * 2 ^ 53 + 3 * 2 ^ 18 + delta
    { x with hist := (BitVec.ofNat 64 e :: x.hist).take 128, histAt := s.now }

/-- A command issued on every subchannel and rank of a channel. -/
def State.dramAll (s : State) (c cmd : Nat) : State := s.each s.dramUnits fun u s => s.dramIssue c cmd u.1 u.2 0

/-- Self-refresh entry of an ACTIVE channel: PREA, REFab and SRE; a Homestretch issues no REFab (R452). -/
def State.enterSelfRefresh (s : State) (c : Nat) (abandon : Bool) : State :=
  if (s.chan c).st ≠ .active then s
  else
    let s := s.dramAll c 5
    let s := if abandon then s else s.dramAll c 7
    (s.dramAll c 0xB).updChan c fun x => { x with st := .selfRefresh }

/-- Self-refresh exit: SRX and REFab, and the stored training (R452). -/
def State.exitSelfRefresh (s : State) (c : Nat) : State :=
  if (s.chan c).st ≠ .selfRefresh then s
  else ((s.dramAll c 0xC).dramAll c 7).updChan c fun x => { x with st := .active }

/-- The refresh interval in force: that of the band, or a shorter one that MR4 asks for (R446). -/
def State.trefiWanted (s : State) (c : Nat) : Nat := max (if 3 ≤ s.aon.band then 1 else 0) (s.chan c).mr4

/-- A change of the interval applies from the next REFsb, with event 0x0509 (R446). -/
def State.updateTrefi (s : State) (c : Nat) : State :=
  let t := s.trefiWanted c
  if t = (s.chan c).trefi then s
  else (s.updChan c fun x => { x with trefi := t }).raiseDram 0x0509 c 0 t s.aon.band (s.chan c).mr4

/-- The RAA counter key of a bank. -/
def raaKey (sub rank bank : Nat) : Nat := (sub * 2 + rank) * 32 + bank % 32

/-- A refresh of bank index `b` of every bank group subtracts RAAIMT from their counters, down to 0 (R447). -/
def Chan.refreshed (x : Chan) (sub rank b : Nat) : Chan :=
  { x with raa := (List.range 8).foldl (fun t g =>
      let k := raaKey sub rank (4 * g + b)
      Tbl.put 0 t k (Tbl.look 0 t k - x.raaimt)) x.raa }

/-- DRAM_REFRESH_TICK (R446): one REFsb, the bank index moving on. -/
def execDramRefreshTick (channel sub rank : Nat) (s : State) : Host.Outcome State Fault Refusal :=
  .next (
    if !s.running || (s.chan channel).st != .active then s
    else
      let s := s.updateTrefi channel
      let u := sub % 2 * 2 + rank % 2
      let b := Tbl.look 0 (s.chan channel).nextBank u
      (s.dramIssue channel 6 (sub % 2) (rank % 2) b).updChan channel fun x =>
        { x.refreshed (sub % 2) (rank % 2) b with nextBank := Tbl.put 0 x.nextBank u ((b + 1) % 4) })

/-- An RFMsb of a bank's index (R447). -/
def State.issueRfm (s : State) (c sub rank bank : Nat) : State :=
  (s.dramIssue c 8 sub rank bank).updChan c fun x => x.refreshed sub rank (bank % 4)

/-- DRAM_RAA_THRESHOLD (R447): at RAAIMT the RFMsb is issued unless a Dash access waits for the bank; at RAAIMT + 8 it is forced, counted and recorded. -/
def execDramRaaThreshold (channel sub rank bank : Nat) (dashWaits : Bool) (s : State) : Host.Outcome State Fault Refusal :=
  .next (
    let x := s.chan channel
    if !s.running || x.st != .active then s
    else
      let k := raaKey (sub % 2) (rank % 2) bank
      let again := decide (x.raaimt ≤ Tbl.look 0 x.raa k) && x.raaimt != 0
      let value := if again && dashWaits then x.raaimt + 8 else x.raaimt
      let s := s.updChan channel fun x => { x with raa := Tbl.put 0 x.raa k value }
      if !dashWaits then s.issueRfm channel (sub % 2) (rank % 2) bank
      else if again then
        ((s.updChan channel fun x => { x with forced := satAdd 14 x.forced 1 }).raiseDram 0x050B channel (sub % 2) bank rank value).issueRfm
          channel (sub % 2) (rank % 2) bank
      else s)

/-- DRAM_MR4_CHANGE (R446): the device's indication is read; a shorter interval applies from the next REFsb. -/
def execDramMr4Change (channel code : Nat) (s : State) : Host.Outcome State Fault Refusal :=
  .next (if s.running && (s.chan channel).st == .active then
      (s.dramIssue channel 9 0 0 0).updChan channel fun x => { x with mr4 := min 2 code }
    else s)

/-- DRAM_VISIT (R454): the channels leave self-refresh to serve an access; the mode stays Lull. -/
def execDramVisit (s : State) : Host.Outcome State Fault Refusal :=
  .next (
    if s.power.mode != .lull || s.mem.visit.isSome || s.power.exit.isSome || !s.running then s
    else
      let s := ((s.powerDomains (domainBit 40)).releasePads (domainBit 40)).onMem fun m => { m with visit := some s.now }
      s.each [0, 1] fun c s =>
        if (s.chan c).st = .selfRefresh then
          (s.exitSelfRefresh c).updChan c fun x => { x with visits := satAdd 8 x.visits 1 }
        else s)

/-- DRAM_VISIT_IDLE_EXPIRY (R454): 1 ms without an access; the channels enter self-refresh again, with event 0x050A. How many accesses the visit served
has no command here: a free value (log entry 2). -/
def execDramVisitIdleExpiry (s : State) : Host.Outcome State Fault Refusal :=
  .next (match s.mem.visit with
    | none => s
    | some t =>
      if s.power.mode != .lull then s
      else
        let s := s.each [0, 1] fun c s =>
          if (s.chan c).st = .active then
            let (v, s) := s.draw
            (s.enterSelfRefresh c false).raiseDram 0x050A c 0 (v % 2 ^ 24) (usSince s.now t) 0
          else s
        (s.onMem fun m => { m with visit := none }).dropDomains (domainBit 40))

/-- A mirrored class of *Memory classes*. -/
def mirroredClass (k : Nat) : Bool := decide (1 ≤ k ∧ k ≤ 6)

/-- MiB that a resync copies: every mirrored class (R457). -/
def State.mirroredMib (s : State) : Nat := (List.range 6).foldl (fun n i => n + Tbl.look 0 s.mem.classes (i + 1)) 0

/-- A tenant's dirty log loses a page: OVERFLOW, and entries stop (R384, R449). -/
def State.overflowLog (s : State) (t : Nat) : State :=
  let x := s.tenant t
  if x.logging && !x.overflow then
    (s.setTenant t { x with overflow := true }).raise 0x0B08 s.srcStarters t x.log.length 2 0
  else s

/-- An admin command whose data lay in BULK ends with Internal Error (R449): the Image Stage part or the bundle numbered `i`. -/
def State.dropBulk (s : State) (i : Nat) : State :=
  match s.boot.staging[i]?, s.boot.bundles[i - s.boot.staging.length]? with
  | some (h, k, last, x), _ =>
    (s.onBoot fun b => { b with staging := b.staging.erase (h, k, last, x) }).complete h .internalError
  | none, some (h, b) => (s.onBoot fun t => { t with bundles := t.bundles.erase (h, b) }).complete h .internalError
  | none, none => s

/-- Admin commands whose data lie in BULK. -/
def State.bulkHeld (s : State) : Nat := s.boot.staging.length + s.boot.bundles.length

/-- Every cached-class page of a channel dropped (R455 step 5): window pages, dirty log pages and admin command data. -/
def State.dropChannelPages (s : State) (c : Nat) : State :=
  let s := s.onFab fun f => { f with cache := f.cache.filter fun p => p.channel != c }
  let s := s.each (Tbl.numbers (fun (t : Tenant) => t.logging) s.tenants) fun t s => s.overflowLog t
  s.each (List.range s.bulkHeld) fun _ s => s.dropBulk 0

/-- One page of a cached class lost (R459). Which page the failing line belongs to has no rule: a free value (log entry 2). -/
def State.dropOnePage (s : State) (cls : Nat) : State :=
  let (v, s) := s.draw
  if cls = 8 then
    s.onFab fun f => { f with cache := if f.cache = [] then [] else f.cache.eraseIdx (v % f.cache.length) }
  else if cls = 9 then
    let ts := Tbl.numbers (fun (t : Tenant) => t.logging && !t.overflow) s.tenants
    match ts[v % max 1 ts.length]? with
    | some t => s.overflowLog t
    | none => s
  else if s.bulkHeld = 0 then s else s.dropBulk (v % s.bulkHeld)

/-- A channel frozen (R455): its history and address are kept, it goes to self-refresh, its cached pages are dropped, and tenant 0 is told. Commands in
flight are excused (R234). -/
def State.freezeChannel (s : State) (c sub cls line src : Nat) : State :=
  let s := s.updChan c fun x => { x with st := .frozen, frozen := true, freezes := satAdd 8 x.freezes 1, frzClass := cls, frzLine := line }
  let s := ((s.noteFailure (srcDram c) (s.ctxIds fun _ => true)).dropChannelPages c).unitFailed (srcDram c)
  (s.raiseDram 0x0504 c sub cls line src).notify 0 .persistentInternalError

/-- A mirrored-class read with no good copy (R459). A reset by the starter lands what is staged first, as R553 does. -/
def State.noGoodCopy (s : State) (c sub cls line conn : Nat) : State :=
  let act := if cls = 4 then 2 else if cls = 6 then 3 else 1
  let s := s.raiseDram 0x0508 c sub cls line act
  if act = 2 then s.connError conn
  else if act = 3 then s.onStore fun t => { t with calmImage := t.calmImage.map fun _ => false }
  else if s.dirtyBytes = 0 then s.chipReset false
  else match s.power.landing with
    | some l => (s.onPower fun p => { p with landing := some { l with cause := .chipReset }, entry := none }).settleLanding
    | none => ((s.onPower fun p => { p with entry := none }).startLanding .chipReset s.bank.lowMv).settleLanding

/-- A channel retired until reset: event 0x0507 (R457). -/
def State.retireChannel (s : State) (c cause : Nat) : State :=
  (((s.updChan c fun x => { x with st := .retired }).returnBaton (.dram c)).unitFailed (srcDram c)).raiseDram 0x0507 c 0 cause 0 0 |>.checkService

/-- DRAM_UNCORRECTABLE_BURST (R455, R457, R459): a channel that another one mirrors freezes; one in resync is retired; on the last channel in service a
mirrored class has no good copy and a cached one loses a page. -/
def execDramUncorrectableBurst (channel sub cls line : Nat) (source : BitVec 16) (conn : Nat) (s : State) :
    Host.Outcome State Fault Refusal :=
  .next (
    let st := (s.chan channel).st
    if !s.running || !(st == .active || st == .retraining || st == .resync) then s
    else
      let s := s.updChan channel fun x => { x with ue := satAdd 8 x.ue 1 }
      if st != .active then s.retireChannel channel 2
      else if (s.chan (1 - channel)).st = .active then s.freezeChannel channel sub cls line source.toNat
      else if mirroredClass cls then s.noGoodCopy channel sub cls line conn
      else s.dropOnePage cls)

/-- A channel taken out for retraining: event 0x0505, and the DRAM baton asked for (R457, R390). -/
def State.startRetrain (s : State) (c how : Nat) : State :=
  ((s.updChan c fun x => { x with st := .retraining, frozen := false, hist := [], frzLine := 0, since := s.now,
                                  planned := decide (how = 2) }).raiseDram 0x0505 c 0 how 0 0).requestBaton (.dram c)

/-- DRAM_THAW: a write of 1 to DMC_CTRL.THAW, ignored unless the channel is frozen (R457). -/
def State.thaw (s : State) (c : Nat) : State := if (s.chan c).st = .frozen then s.startRetrain c 1 else s

/-- A write of 1 to DMC_CTRL.RETRAIN: accepted for an ACTIVE channel while the other is ACTIVE (R457). Its cached classes start again empty. -/
def State.retrain (s : State) (c : Nat) : State :=
  if (s.chan c).st = .active ∧ (s.chan (1 - c)).st = .active then (s.dropChannelPages c).startRetrain c 2 else s

/-- DRAM_THAW (R457). -/
def execDramThaw (channel : Nat) (s : State) : Host.Outcome State Fault Refusal :=
  .next (if s.running then s.thaw channel else s)

/-- DRAM_PLANNED_RETRAIN (R457). -/
def execDramPlannedRetrain (channel : Nat) (s : State) : Host.Outcome State Fault Refusal :=
  .next (if s.running then s.retrain channel else s)

/-- DRAM_RESYNC_DONE (R457): the training held its baton, and gives it back here when no BATON_RETURN has (log entry 30); the channel is ACTIVE again with its mirrors whole, or is retired. -/
def execDramResyncDone (channel : Nat) (ok : Bool) (s : State) : Host.Outcome State Fault Refusal :=
  .next (
    let x := s.chan channel
    if !s.running || !((x.st == .retraining && s.broker.holds (.dram channel)) || x.st == .resync) then s
    else if ok then
      ((s.updChan channel fun x => { x with st := .active }).returnBaton (.dram channel)).raiseDram 0x0506 channel 0
        ((s.now - x.since) / 1000000) s.mirroredMib 0
    else s.retireChannel channel (if x.st = .resync then 2 else 1))

/-- A unit's memory in *Memory out of service*: its source, the row of the table and the sub-instance (R46, R463, R467). -/
def ChipMemory.place (s : State) (m : ChipMemory) : Nat × Nat × Nat :=
  match m with
  | .pacer cell => (srcPacerMem cell, 1, 0)
  | .marshal b => (srcMarshal b, 2, 0)
  | .steward g i => (srcSteward g, 3, i)
  | .starterPair p => (srcStarter (2 * (p % 2)), 4, 0)
  | .staging b _ _ _ _ _ => (srcStaging b, 5, 0)
  | .keyTable b => (srcCipher b, 7, 0)
  | .tenantState _ _ => (s.srcStarters, 8, 0)
  | .shared src sub => (src.toNat, 9, sub)
  | .recorder => (srcRecorder, 10, 0)
  | .fabricWord _ sender _ => (sender.toNat, 0, 0)
  | .request target _ _ _ => (target.toNat, 0, 0)

/-- The core whose source identifier this is; a region's two stewards share one, and `v` is the sub-instance (R46), a free value where the event gives
none (log entry 2). -/
def coreOfSource (src v : Nat) : Option CoreId :=
  if src / 4096 ≠ 0 then none
  else
    let i := src % 1024
    match src / 1024 % 4 with
    | 0 => if i < 544 then some (.pacer i) else none
    | 1 => if i < 32 then some (.marshal i) else none
    | 2 => if i < 4 then some (.steward i (v % 2)) else none
    | _ => none

/-- The starter pair whose source identifier this is. -/
def pairOfSource (src : Nat) : Option Nat :=
  if src = srcStarter 0 ∨ src = srcStarter 1 then some 0 else if src = srcStarter 2 ∨ src = srcStarter 3 then some 1 else none

/-- A starter pair failed: the active one is taken over from, the standby one goes out of service (R463, R527). -/
def State.pairFails (s : State) (p : Nat) : State :=
  if s.aon.trip then s.recordedOnly (srcStarter (2 * p))
  else if s.flt.activePair = p then s.takeOver.rollTakeover
  else if hasBit s.flt.pairsIn p then
    (s.onFlt fun f => { f with
      pairsIn := clearBit f.pairsIn p, pairsFailed := setBit f.pairsFailed p,
      pairsKept := if hasBit f.pairsFailed p then setBit f.pairsKept p else f.pairsKept, takeover := some s.now }).unitFailed (srcStarter (2 * p))
  else s

/-- The fixed-function unit of a source identifier, with the sub-instance `v` of a kind with several (R46). -/
def fixedOfSource (src v : Nat) : Option FixedUnit :=
  let i := src % 1024
  if src = srcDecoder i then some (.decoder i (v % 4))
  else if src = srcCipher i then some (.cipher i)
  else if src = srcCompress i then some (.compress i (v % 4))
  else if src = srcParity i then some (.parity i) else none

/-- The owning unit of other shared state fails (R463). -/
def State.sharedFails (s : State) (src sub : Nat) : State :=
  match coreOfSource src sub, pairOfSource src, fixedOfSource src sub with
  | _, some p, _ => s.pairFails p
  | some c, none, _ => s.coreFails c
  | none, none, some u => s.fixedFails u
  | none, none, none => s.otherFailed src

/-- An uncorrectable error in state of one tenant: CFS on its controllers, with event 0x0B0C (R377). -/
def State.tenantFault (s : State) (t kind : Nat) : State :=
  (s.mapCtrls fun c k => if k.en && s.tenantOf c == t then { k with cfs := true } else k).raise 0x0B0C s.srcStarters t
    (s.srcStarters) kind 0

/-- The unit of a source identifier is out of service (R471). -/
def State.sourceOut (s : State) (src : Nat) : Bool :=
  match coreOfSource src 0, pairOfSource src, fixedOfSource src 0 with
  | _, some p, _ => hasBit s.flt.pairsIn p == false
  | some (.pacer c), none, _ => hasBit (s.blk (c / 17)).cellFailed (c % 17)
  | some (.marshal b), none, _ => (s.blk b).marshalOut
  | some (.steward g _), none, _ => (s.rgn g).stewards == 0
  | none, none, some (.decoder b _) => (s.blk b).decIn == 0
  | none, none, some (.cipher b) => s.cph.engines.getLsbD b == false
  | none, none, some (.compress g _) => (s.rgn g).cmpIn == 0
  | none, none, some (.parity i) => hasBit s.cph.parityIn i == false
  | none, none, none => false

/-- The instances of a kind at a level (*Unit kinds*), 0 for a reserved kind or a unit that the variant lacks (R4, R46). -/
def State.unitCount (s : State) (level kind : Nat) : Nat :=
  match level with
  | 0 => if kind < 5 then 544 else 0
  | 1 => if kind < 7 then 32 else 0
  | 2 => if kind = 1 then (if s.hasCompression then 4 else 0) else if kind < 5 then 4 else 0
  | _ =>
    if kind = 7 then (if s.hasFabric then 1 else 0) else if kind = 8 then (if s.hasFabric then 2 else 0)
    else [4, 1, 1, 1, 8, 2, 2, 1, 2, 1, 1, 1, 1, 1, 1].getD kind 0

/-- Why a fabric request is refused, 0 when it is not (R461, R466): no target, a target out of service, an address outside the requester's
window, a write narrower than a staging word. -/
def State.busErrorCode (s : State) (target : Nat) (outside : Bool) (bytes : Nat) : Nat :=
  if s.unitCount (target / 1024 % 4) (target / 4096) ≤ target % 1024 then 1
  else if s.sourceOut target then 2
  else if outside then 3
  else if target = srcStaging (target % 1024) ∧ bytes < 32 then 4 else 0

/-- The effect of an uncorrectable error in an on-chip memory (*Memory out of service*). -/
def State.memoryFails (s : State) (m : ChipMemory) (addr : Nat) : State :=
  match m with
  | .pacer cell => s.coreFails (.pacer cell)
  | .marshal b => s.coreFails (.marshal b)
  | .steward g i => s.coreFails (.steward g i)
  | .starterPair p => s.pairFails (p % 2)
  | .staging b word partnerBad nsid zone off =>
    if partnerBad then s.commitMap (zoneKey nsid zone) fun z => { z with lost := z.lost ++ [(off, 1)], lostData := true }
    else s.raise 0x0605 (srcStaging b) (word % 2 ^ 24) (partnerBlock b) 0 0
  | .keyTable b => s.cipherFails b 2
  | .tenantState t kind => s.tenantFault t kind
  | .recorder => s.recorderMemoryFault addr 1
  | .shared src sub => s.sharedFails src.toNat sub
  | .fabricWord _ _ _ | .request _ _ _ _ => s

/-- A fabric word whose CRC failed (R39): the receiver does not acknowledge it and the sender repeats it once; a second failure fails the
transfer, which is event 0x0608. The source of the event is the sending unit (log entry 133). -/
def State.fabricCrc (s : State) (link sender : Nat) (again : Bool) : State :=
  if again then s.raise 0x0608 sender (link % 2 ^ 24) sender 0 0 else s

/-- A fabric request met by its target (R461, R466): refused, with event 0x0609 and nothing written, or served as its own command says. -/
def State.fabricRequest (s : State) (target requester : Nat) (outside : Bool) (bytes addr : Nat) : State :=
  match s.busErrorCode target outside bytes with
  | 0 => s
  | code => s.raise 0x0609 target code requester addr 0

/-- An uncorrectable error in a memory (R463): event 0x0604, then the effect its row gives. -/
def State.uncorrectable (s : State) (mem : ChipMemory) (addr : Nat) (scrub : Bool) : State :=
  let (src, row, inst) := ChipMemory.place s mem
  let s := s.onMem fun m => { m with eccUe := satAdd 8 m.eccUe 1 }
  (s.raise 0x0604 src (subParam inst addr) (if scrub then 2 else 1) row 0).memoryFails mem addr

/-- ONCHIP_UNCORRECTABLE (R39, R461, R463, R466): an error of a memory, of a fabric word, or a bus error. -/
def execOnchipUncorrectable (mem : ChipMemory) (addr : Nat) (scrub : Bool) (s : State) : Host.Outcome State Fault Refusal :=
  .next (
    if !s.running then s
    else match mem with
      | .fabricWord link sender again => s.fabricCrc link sender.toNat again
      | .request target requester outside bytes => s.fabricRequest target.toNat requester.toNat outside bytes addr
      | m => s.uncorrectable m addr scrub)

/-- Spare rows that the self-test left a macro: at least MIN_SPARE, of 8 (R462). -/
def State.sparesAtTest (s : State) (mac : Nat) : Nat :=
  s.mem.bistSpare + Config.spareRows mac % (9 - s.mem.bistSpare)

/-- ROW_CE_LIMIT (R465): the row moves onto a spare, or stays in use when none is left. The corrections that reached the limit are counted. -/
def execRowCeLimit (unit : UnitName) (mac row : Nat) (s : State) : Host.Outcome State Fault Refusal :=
  .next (
    if !s.running then s
    else
      let s := s.onMem fun m => { m with eccCe := satAdd 16 m.eccCe (max 1 (s.cfg .eccCfg 0 15 8)) }
      let used := Tbl.look 0 s.mem.rowsMoved mac
      if used < s.sparesAtTest mac then
        (s.onMem fun m => { m with moves := satAdd 8 m.moves 1, rowsMoved := Tbl.put 0 m.rowsMoved mac (used + 1) }).raise
          0x0606 unit.source.toNat (subParam unit.sub mac) row (s.sparesAtTest mac - used - 1) 0
      else s.raise 0x0607 unit.source.toNat (subParam unit.sub mac) row 0 0)

/-- SCRUB_PASS_LATE (R464). -/
def execScrubPassLate (kind passMs : Nat) (s : State) : Host.Outcome State Fault Refusal :=
  .next (if s.running then s.raise 0x060A srcScrubber (kind % 2 ^ 24) passMs 0 0 else s)

/-- The misuse entry of a source, or one opened in the first free place; sources beyond 32 count in OTHER (R469, *BPM_MISUSE*). -/
def Memory.countMisuse (m : Memory) (src : Nat) : Memory :=
  if m.misuse.any fun p => p.1 == src then
    { m with misuse := m.misuse.map fun p => if p.1 = src then (p.1, satAdd 16 p.2 1) else p }
  else if m.misuse.length < 32 then { m with misuse := m.misuse ++ [(src, 1)] }
  else { m with other := satAdd 8 m.other 1 }

/-- The offender's count; 0 when its misuses are counted in OTHER. -/
def Memory.misusesOf (m : Memory) (src : Nat) : Nat :=
  match m.misuse.find? fun p => p.1 == src with
  | some p => p.2
  | none => 0

/-- A core is failed for its misuses within 1 s: event 0x0706 (R470). -/
def State.misuseLimit (s : State) (src : Nat) : State :=
  let (v, s) := s.draw
  let core := coreOfSource src v
  let pair := pairOfSource src
  if core.isNone && pair.isNone then s
  else
    let s := s.onMem fun m => { m with misuseAt := (m.misuseAt.filter fun p => decide (s.now - p.2 < 1000000000)) ++ [(src, s.now)] }
    let n := (s.mem.misuseAt.filter fun p => p.1 == src).length
    if n < max 1 (s.cfg .bpmCfg 0 23 16) then s
    else
      let s := (s.raise 0x0706 src src n 0 0).onMem fun m => { m with misuseAt := m.misuseAt.filter fun p => p.1 != src }
      match pair, core with
      | some p, _ => s.pairFails p
      | none, some c => s.coreFails c
      | none, none => s

/-- A give or free by a unit (R469): refused as double, foreign or stale, or done by `run`. -/
def State.bufferOp (s : State) (caller handle : Nat) (give : Bool) (run : Nat → State → State) : State :=
  let key := bufKey (handle / 2 ^ 28) (handle / 2 ^ 8 % 2 ^ 20)
  let b := s.buf key
  if !b.used then
    let s := s.onMem fun m => m.countMisuse caller
    (s.raise 0x0702 caller handle 0 (s.mem.misusesOf caller) 0).misuseLimit caller
  else if b.owner ≠ caller then
    let s := s.onMem fun m => m.countMisuse caller
    (s.raise 0x0703 caller handle b.owner (s.mem.misusesOf caller) (if give then 2 else 1)).misuseLimit caller
  else if b.gen ≠ handle % 256 then s.onMem fun m => { m with stale := satAdd 8 m.stale 1 }
  else run key s

/-- BUFFER_GIVE (R469). -/
def execBufferGive (caller : BitVec 16) (handle : BitVec 32) (taker : BitVec 16) (s : State) : Host.Outcome State Fault Refusal :=
  .next (if s.running then
      s.bufferOp caller.toNat handle.toNat true fun key s => s.updBuf key fun b => { b with owner := taker.toNat }
    else s)

/-- BUFFER_FREE (R469). -/
def execBufferFree (caller : BitVec 16) (handle : BitVec 32) (s : State) : Host.Outcome State Fault Refusal :=
  .next (if s.running then s.bufferOp caller.toNat handle.toNat false fun key s => s.updBuf key Buf.free else s)

/-- The hold limit of a pool, ms; 0 for none (R471). -/
def holdLimitMs (pool : Nat) : Nat := if pool = 1 ∨ pool = 2 then 100 else if pool = 7 then 10000 else 0

/-- One buffer audited (R471): reclaimed where its owner is out or its tag released, or reported past its pool's hold limit; STAGE buffers stay. The
pool's memory unit has no kind in *Unit kinds*: its source is a free value (log entry 2). -/
def State.auditBuf (s : State) (key : Nat) (b : Buf) : State :=
  let pool := key / 1048576
  let handle := pool * 2 ^ 28 + key % 1048576 * 2 ^ 8 + b.gen
  let ms := (s.now - b.atNs) / 1000000
  let (v, s) := s.draw
  let cause := if s.sourceOut b.owner then 1 else if (s.ctxAt b.tag).isNone then 2 else 0
  if pool = 3 then s
  else if cause ≠ 0 then
    ((s.updBuf key Buf.free).onMem fun m => { m with leaks := satAdd 16 m.leaks 1 }).raise 0x0704 v handle b.owner cause ms
  else if holdLimitMs pool ≠ 0 ∧ holdLimitMs pool < ms then s.raise 0x0705 v handle b.owner b.tag ms
  else s

/-- BUFFER_AUDIT (R471): every allocated buffer, in order. -/
def execBufferAudit (s : State) : Host.Outcome State Fault Refusal :=
  .next (if s.running then s.each (s.mem.bufs.filter fun p => p.2.used) fun p s => s.auditBuf p.1 p.2 else s)

/-- RECORDER_SNAPSHOT_FREEZE (SELECT 0x3, R539, R456): the attachment of a frozen channel: its history; its mode registers, activate counts and training
values have no layout in the spec, and stand behind it as free values (log entry 2). A channel with no freeze held is Invalid Field. -/
def execRecorderSnapshotFreeze (h : Hdr) (channel numd ofst : Nat) (s : State) : Host.Outcome State Fault Refusal :=
  .next (s.admin ruleBoot h fun s =>
    let x := s.chan (channel % 2)
    if overMdts numd || !x.frozen then s.complete h .invalidField
    else
      let (v, s) := s.draw
      let hist := (List.range x.hist.length).map fun i => (⟨32 + 8 * i, 8, (x.hist.getD i 0).toNat⟩ : FieldVal)
      let rest := (List.range x.raa.length).map fun i => (⟨1056 + 4 * i, 4, (x.raa.getD i (0, 0)).2⟩ : FieldVal)
      let more : FieldVal := ⟨1056 + 4 * x.raa.length, 4, v % 2 ^ 32⟩
      s.completeWith h .success 0 0 (transferOf (s.snapshotHeader ++ hist ++ rest ++ [more]) numd ofst))

end Sys2Proof.Machine
end

