-- ==== Sys2Proof/Machine/Windows.lean ====
section
/-! DEFINITION. Zone windows: creation and destruction, the page cache, RDMA READs and their faults (R350-R359). -/

namespace Sys2Proof.Machine

/-- Bytes of a window page: one stripe unit of 16 LBAs (R64). -/
def windowPage : Nat := 65536

/-- The pages of a range. -/
def pagesOfRange (va len : Nat) : List Nat :=
  (List.range (if len = 0 then 0 else (va + len - 1) / windowPage - va / windowPage + 1)).map (· + va / windowPage)

/-- Pages of a whole window (R351). -/
def State.windowPages (s : State) : Nat := s.zcap / 16

/-- Pages the cache holds: the CACHE class of Warm-up step 4, halved with a DRAM channel retired (R353, R459). -/
def State.cachePages (s : State) : Nat :=
  let n := 16 * Tbl.look 0 s.mem.classes 8
  if (s.chan 0).st = .retired ∨ (s.chan 1).st = .retired then n / 2 else n

/-- Cached pages of a tenant (R369). -/
def State.pagesUsed (s : State) (t : Nat) : Nat := (s.fab.cache.filter fun p => p.tenant == t).length

/-- `n` more pages of a tenant fit into the cache (R353, R369; the floors and shares are in MiB). -/
def State.cacheFits (s : State) (t n : Nat) : Bool :=
  s.poolFits s.cachePages (fun l => 16 * l.cacheFloor) (fun l => 16 * l.cacheShare) s.pagesUsed t n

/-- Windows of a tenant (R369). -/
def State.windowsUsed (s : State) (t : Nat) : Nat := Tbl.count (fun w => w.up && w.tenant == t) s.fab.windows

/-- The rkey of a window: its identifier, and the creations of that identifier modulo 262,144 (R351). -/
def State.rkeyOf (s : State) (wid : Nat) : Nat := wid + Tbl.look 0 s.fab.gens wid % 262144 * 16384

/-- A page is in the cache. -/
def State.cached (s : State) (wid page : Nat) : Bool := s.fab.cache.any fun p => p.wid == wid && p.page == page

/-- A page is being fetched: for a READ, or for a Window Create that preloads. -/
def State.fetching (s : State) (wid page : Nat) : Bool :=
  s.fab.fetches.contains (wid, page) ||
  ((s.window wid).up && (s.window wid).preload.isSome && decide (page < s.windowPages) && !s.cached wid page)

/-- An identifier has nothing left of an earlier window: no window, READ or fetch. -/
def State.widFree (s : State) (wid : Nat) : Bool :=
  !(s.window wid).up && !(s.fab.reads.any fun r => r.2.any fun x => x.wid == wid) && !s.fab.fetches.any fun f => f.1 == wid

/-- The lowest free window identifier from `i` on. -/
def State.freeWid (s : State) : Nat → Nat → Option Nat
  | 0, _ => none
  | n + 1, i => if s.widFree i then some i else s.freeWid n (i + 1)

/-- The highest RDMA read bound of a class over the bands, µs (R350). -/
def State.highestBound (s : State) (cls : Cls) : Nat :=
  s.tmk.sets.foldl (fun m b => max m (if cls = .tempo then b.tempoRdma else b.distRdma)) 0

/-- FAULT_US in force: 0 is twice the class bound, less than one class bound acts as that bound (*Window Create data*). -/
def State.faultTimeout (s : State) (cls : Cls) (us : Nat) : Nat :=
  if us = 0 then 2 * s.highestBound cls else max us (s.highestBound cls)

/-- What is wrong with a Window Create (*Window Create status*). -/
def State.createRefusal (s : State) (h : Hdr) (d : WindowData) : Option Status :=
  let t := s.tenantOf h.ctrl
  let n := s.ns h.nsid
  let z := s.zone (zoneKey h.nsid (d.zslba / zsze))
  match s.nsRefusal h with
  | some st => some st
  | none =>
    if s.cachePages = 0 ∨ !n.zoned ∨ d.zslba % zsze ≠ 0 ∨ n.limit ≤ d.zslba ∨ (d.cls ≠ 1 ∧ d.cls ≠ 2) ∨
      Tbl.look 0 s.fab.pdOwner d.pd ≠ t + 1 ∨ s.freeWid 16384 0 = none ∨
      s.poolFits 16384 (·.winFloor) (·.winShare) s.windowsUsed t 1 = false ∨
      (d.preload = true ∧ s.cacheFits t s.windowPages = false) then some .invalidField
    else if z.st = .offline then some .zoneOffline
    else if z.st ≠ .full ∧ z.st ≠ .readOnly then some .invalidField
    else if !s.keyAvailable h.nsid then some .keyUnavailable else none

/-- The admin gate of the window commands: any tenant, not the management controller (R314). -/
def ruleWindow : AdminRule := ⟨true, true, false, false, false, false⟩

/-- WINDOW_CREATE (R350): declined on a zone not yet re-armed (R89). With PRELOAD the command waits for its pages. -/
def execWindowCreate (h : Hdr) (data : WindowData) (s : State) : Host.Outcome State Fault Refusal :=
  .next (s.admin ruleWindow h fun s =>
    if !s.hasFabric then s.complete h .invalidOpcode
    else match s.createRefusal h data, s.freeWid 16384 0 with
      | some st, _ => s.complete h st
      | none, none => s.complete h .invalidField
      | none, some wid =>
        let cls := if data.cls = 1 then Cls.tempo else .distance
        let zk := zoneKey h.nsid (data.zslba / zsze)
        if (s.zone zk).rearm ≠ 0 then s.declineUnarmed h (s.tenantOf h.ctrl) cls [zk] else
        let s := s.onFab fun f => { f with gens := Tbl.put 0 f.gens wid (Tbl.look 0 f.gens wid + 1) }
        let s := s.setWindow wid
          { up := true, tenant := s.tenantOf h.ctrl, nsid := h.nsid, zone := data.zslba / zsze, pd := data.pd, rnr := data.rnr, cls := cls,
            faultUs := s.faultTimeout cls data.faultUs, preload := if data.preload then some h else none }
        if data.preload then s else s.completeWith h .success wid (s.rkeyOf wid) [])

/-- A window destroyed by a command of its own; a Window Create that still preloads it ends with it. -/
def State.endWindow (s : State) (wid : Nat) : State :=
  let pre := (s.window wid).preload
  let s := s.dropWindow wid
  match pre with
  | some h => s.completeWith h .windowTimeout wid 0 []
  | none => s

/-- WINDOW_DESTROY (R357). -/
def execWindowDestroy (h : Hdr) (wid : Nat) (s : State) : Host.Outcome State Fault Refusal :=
  .next (s.admin ruleWindow h fun s =>
    let w := s.window wid
    if !s.hasFabric then s.complete h .invalidOpcode
    else if !w.up || w.tenant != s.tenantOf h.ctrl || w.nsid != h.nsid then s.complete h .invalidField
    else (s.endWindow wid).complete h .success)

/-- PRELOAD_TIMEOUT: not every page came by PRELOAD_MS; the window is destroyed (*Window Create status*). -/
def execPreloadTimeout (wid : Nat) (s : State) : Host.Outcome State Fault Refusal :=
  .next (if s.fabricOn && (s.window wid).up && (s.window wid).preload.isSome then s.endWindow wid else s)

/-- Why a READ is refused (R352, R360): 4 a WRITE, 1 the rkey, 2 the PD, 3 the range or length. -/
def State.readRefusal (s : State) (c rkey va len : Nat) (write : Bool) : Option Nat :=
  let wid := rkey % 16384
  let w := s.window wid
  if write then some 4
  else if !w.up || s.rkeyOf wid != rkey % 4294967296 then some 1
  else if (s.conn c).pd ≠ w.pd then some 2
  else if 1048576 < len ∨ 4096 * s.zcap < va + len then some 3 else none

/-- Event 0x0A09 with its counter (R356, *WIN_TIMEOUTS*). -/
def State.raiseFault (s : State) (tenant wid page cause : Nat) : State :=
  (s.onFab fun f => { f with timeouts := satAdd 32 f.timeouts 1 }).raiseRdma 0x0A09 tenant wid page cause

/-- The key of a window's namespace can serve its tenant (R278, R284, R353). -/
def State.windowKey (s : State) (nsid tenant : Nat) : Bool := s.keyAvailable nsid && s.keyOwned nsid tenant

/-- A page served: it is the most recently used, and a preloaded one is exempt no longer (R350, R353). -/
def State.touchPage (s : State) (wid page : Nat) : State :=
  s.onFab fun f => match f.cache.find? fun p => p.wid == wid && p.page == page with
    | none => f
    | some p => { f with cache := (f.cache.filter fun q => !(q.wid == wid && q.page == page)) ++ [{ p with exempt := false }] }

/-- A READ whose pages are there answered: a key that is gone or another tenant's gives NAK Remote Operational Error (R353, R356). -/
def State.answerRead (s : State) (r : WinRead) : State :=
  match r.old with
  | some d => if s.cph.alarm then (s.sendPacket (.nakOperational r.conn)).raiseFault r.tenant r.wid (r.va / windowPage) 3
    else s.sendPacket (.readResponse r.conn r.len d)
  | none =>
    if s.windowKey r.nsid r.tenant then
      (s.each (pagesOfRange r.va r.len) fun p s => s.touchPage r.wid p).sendPacket
        (.readResponse r.conn r.len (s.windowData r.nsid r.zone r.va r.len))
    else (s.sendPacket (.nakOperational r.conn)).raiseFault r.tenant r.wid (r.va / windowPage) 3

/-- The oldest READ that waits on a connection. -/
def State.firstRead (s : State) (c : Nat) : Option (Nat × WinRead) :=
  (s.fab.reads.filterMap fun p => p.2.bind fun r => if r.conn = c then some (p.1, r) else none).head?

/-- The READs of a connection answered in order, as far as their pages are there (R355); then the connection's other responses go on. -/
def State.serveConn : Nat → State → Nat → State
  | 0, s, c => s.pumpConn c
  | n + 1, s, c => match s.firstRead c with
    | none => s.pumpConn c
    | some (i, r) => if r.missing = [] then State.serveConn n ((s.setWinRead i none).answerRead r) c else s

/-- All READs of a connection that can be answered, answered. -/
def State.serveReadsOf (s : State) (c : Nat) : State := s.serveConn (s.fab.reads.length + 1) c

/-- A READ ended with NAK Remote Operational Error (R356). -/
def State.failRead (s : State) (i page cause : Nat) : State :=
  match s.winReadAt i with
  | none => s
  | some r => (((s.setWinRead i none).sendPacket (.nakOperational r.conn)).raiseFault r.tenant r.wid page cause).serveReadsOf r.conn

/-- The projected time of a page's fetch, ps: start delay of its die and the path of the worked example of R359; the class bound when its
die cannot serve it directly (R355). -/
def State.fetchPs (s : State) (w : Window) (page : Nat) : Nat :=
  let z := s.zone (zoneKey w.nsid w.zone)
  match s.memberAt z (posOfOffset z (16 * page)) with
  | none => s.highestBound w.cls * 1000000
  | some k =>
    if s.serviceOf (some k) = .direct then
      s.startDelayPs k w.cls + 89600 + 1027825 + 616250 + deratedPs s.trFull s.derateNow + s.pollOf (k / 8) * 100000 + 4000000 +
        16 * laneSharePs + 62000 + 119200 + 1843200 + 500000
    else s.highestBound w.cls * 1000000

/-- The RNR timer of the InfiniBand specification for codes 1 to 31, in 10 µs. -/
def rnrTimes : List Nat :=
  [1, 2, 3, 4, 6, 8, 12, 16, 24, 32, 48, 64, 96, 128, 192, 256, 384, 512, 768, 1024, 1536, 2048, 3072, 4096, 6144, 8192, 12288, 16384,
   24576, 32768, 49152]

/-- The smallest RNR timer code whose time is at least `ps`; the longest below code 0 when none is (R355). -/
def rnrCode (ps : Nat) : Nat :=
  match (List.range 31).find? fun i => decide (ps ≤ rnrTimes.getD i 0 * 10000000) with
  | some i => i + 1
  | none => 31

/-- The fetches of pages not under way started (R354). -/
def State.startFetches (s : State) (wid : Nat) (pages : List Nat) : State :=
  s.onFab fun f => { f with faults := satAdd 32 f.faults pages.length,
                            fetches := f.fetches ++ (pages.filter fun p => !s.fetching wid p).map fun p => (wid, p) }

/-- A READ, or WRITE, to a window (R352-R355). -/
def State.readNow (s : State) (c rkey va len : Nat) (write : Bool) : State :=
  let x := s.conn c
  if !x.up || x.error then s
  else match s.readRefusal c rkey va len write with
    | some cause => (s.sendPacket (.nakAccess c)).raiseRdma 0x0A08 x.tenant (rkey % 4294967296) c cause
    | none =>
      let wid := rkey % 16384
      let w := s.window wid
      let missing := (pagesOfRange va len).filter fun p => !s.cached wid p
      let s := s.startFetches wid missing
      if missing ≠ [] ∧ w.rnr ∧ x.rnrRead ∧ s.firstRead c = none then
        s.sendPacket (.rnrNak c (rnrCode (missing.foldl (fun m p => max m (s.fetchPs w p)) 0)))
      else
        let i := s.fab.nextRead
        let r : WinRead := { conn := c, wid := wid, nsid := w.nsid, zone := w.zone, tenant := w.tenant, va := va, len := len,
                             missing := missing, since := s.now }
        ((s.onFab fun f => { f with nextRead := i + 1 }).setWinRead i (some r)).serveReadsOf c

/-- The READs that waited for the exit served, oldest first: their fault time begins now (R359). -/
def State.serveReads (s : State) : State :=
  let l := s.fab.ingress
  (s.onFab fun f => { f with ingress := [] }).each l fun r s => s.readNow r.conn r.rkey r.va r.len r.write

/-- The least recently used page of a tenant that may be evicted. -/
def State.evictable (s : State) (t : Nat) : Option Page := s.fab.cache.find? fun p => p.tenant == t && !p.exempt

/-- A fetched page put into the cache of its window's tenant: beyond its share the tenant's least recently used page goes, and a page
that finds no room is not kept (R353). The channel that holds it is the model's choice (log entry 2). -/
def State.keepPage (s : State) (wid page : Nat) : State :=
  let w := s.window wid
  if !w.up || s.cached wid page then s
  else
    let add := fun (s : State) => s.onFab fun f => { f with cache := f.cache ++
      [{ wid := wid, page := page, tenant := w.tenant, exempt := w.preload.isSome,
         channel := if (s.chan 0).st = .retired then 1 else if (s.chan 1).st = .retired then 0 else (wid + page) % 2 }] }
    if s.cacheFits w.tenant 1 then add s
    else match s.evictable w.tenant with
      | some p => add (s.onFab fun f => { f with cache := f.cache.filter fun q => !(q.wid == p.wid && q.page == p.page) })
      | none => s

/-- A preload whose pages are all there completes its Window Create (R350). -/
def State.checkPreload (s : State) (wid : Nat) : State :=
  match (s.window wid).preload with
  | none => s
  | some h =>
    if (s.fab.cache.filter fun p => p.wid == wid).length < s.windowPages then s
    else (s.updWindow wid fun w => { w with preload := none }).completeWith h .success wid (s.rkeyOf wid) []

/-- The waiting READs that miss a page. -/
def State.readsMissing (s : State) (wid page : Nat) : List Nat :=
  Tbl.numbers (fun o => o.any fun (r : WinRead) => r.wid == wid && r.missing.contains page) s.fab.reads

/-- WINDOW_FETCH_DONE (R354, R356): the page goes to the cache and to the READs that miss it, or fails them. -/
def execWindowFetchDone (wid page : Nat) (ok : Bool) (s : State) : Host.Outcome State Fault Refusal :=
  .next (
    if !s.running || !s.fetching wid page then s
    else
      let is := s.readsMissing wid page
      let s := s.onFab fun f => { f with fetches := f.fetches.filter (· != (wid, page)) }
      if ok then
        let s := s.keepPage wid page
        let conns := (is.filterMap fun i => (s.winReadAt i).map (·.conn)).eraseDups
        let s := s.each is fun i s => s.setWinRead i ((s.winReadAt i).map fun r => { r with missing := r.missing.filter (· != page) })
        (s.each conns fun c s => s.serveReadsOf c).checkPreload wid
      else s.each is fun i s =>
        match s.winReadAt i with
        | none => s
        | some r => s.failRead i page (if s.windowKey r.nsid r.tenant then 2 else 3))

/-- WINDOW_FAULT_TIMEOUT (R356): none runs in Lull, an entry or an exit (R359). -/
def execWindowFaultTimeout (read : Nat) (s : State) : Host.Outcome State Fault Refusal :=
  .next (
    match s.winReadAt read with
    | none => s
    | some r => if !s.fabricOn || s.power.mode == .lull || s.power.exit.isSome then s
      else s.failRead read (r.missing.headD (r.va / windowPage)) 1)

end Sys2Proof.Machine
end

