-- ==== Sys2Proof/Machine/Modes.lean ====
section
/-! DEFINITION. Operating modes and power states: the Sprint grant, entry to Lull and Calm with its refusals and abort points, wake and
exit, maintenance wakes, and Homestretch (R309-R313, R422-R441, R552). -/

namespace Sys2Proof.Machine

/-- The mode in force changed: the cap follows (R401), event 0x0101, charging and the VDDC target follow (R409, R550). -/
def State.changeMode (s : State) (new : Mode) (cause us : Nat) : State :=
  let (old, cap) := (s.power.mode, s.modeCap)
  let s := (s.onPower fun p => { p with mode := new }).capChanged cap
  ((s.raise 0x0101 s.srcStarters old.code new.code cause us).refreshCharging).avsRetarget

/-- The Sprint grant as R426 defines it. -/
def State.grantHolds (s : State) : Bool := s.power.grant && (!s.cfgBit .pwrSprint 0 30 || hasBit s.aon.gpioIn 14)

/-- Stride and Sprint as the grant and the power state selected decide (R311, R423, R427). -/
def State.settleSprint (s : State) (cause : Nat) : State :=
  if s.power.mode = .stride ∧ s.power.ps = 0 ∧ s.power.granted then s.changeMode .sprint cause 0
  else if s.power.mode = .sprint ∧ (!s.power.granted ∨ s.power.ps = 1 ∨ s.power.ps = 2) then s.changeMode .stride cause 0
  else s

/-- The grant taken again after one of its inputs changed; a change is recorded with its cause (R426). -/
def State.updateGrant (s : State) (cause : Nat) : State :=
  let g := s.grantHolds
  if g = s.power.granted then s
  else ((s.onPower fun p => { p with granted := g }).raise 0x0102 s.srcStarters (bit g) cause 0 0).settleSprint 4

/-- PWR_SPRINT written by the management controller: GRANT and LEASE_MS (R426). -/
def State.writeSprint (s : State) (value : Word) : State :=
  (s.onPower fun p => { p with grant := hasBit value 31, leaseMs := bitsOf value 15 0 }).updateGrant 1

/-- SPRINT_GRANT_WRITE: the management controller writes PWR_SPRINT and is answered (R426, R564). -/
def execSprintGrantWrite (value : BitVec 32) (s : State) : Host.Outcome State Fault Refusal :=
  .next (if s.servesMc then (s.writeSprint value).reply (.ok []) else s)

/-- SPRINT_LEASE_EXPIRY: LEASE_MS passed without a write of 1 (R426). -/
def execSprintLeaseExpiry (s : State) : Host.Outcome State Fault Refusal :=
  .next (if s.running && s.power.grant && s.power.leaseMs != 0 then (s.onPower fun p => { p with grant := false }).updateGrant 2 else s)

/-- SPRINT_GPIO_CHANGE: the level of GPIO14 (R426). -/
def execSprintGpioChange (high : Bool) (s : State) : Host.Outcome State Fault Refusal :=
  .next (if s.aon.on then
      let s := s.onAon fun a => { a with gpioIn := if high then setBit a.gpioIn 14 else clearBit a.gpioIn 14 }
      if s.running then s.updateGrant 3 else s
    else s)

/-- The broker grants again, within loop 0's budget; a latched trip keeps it closed (R397, R517). -/
def State.reopenBroker (s : State) : State := if s.aon.trip then s else (s.closeBroker false).setBudget (s.loop 0).out

/-- An operational power state selected (R310, R311): its cap applies at once; in Lull it is in force at the exit. -/
def State.selectOperational (s : State) (v : Nat) : State :=
  let cap := s.modeCap
  ((s.onPower fun p => { p with ps := v, lastPs := v, maint := none }).capChanged cap).settleSprint 1

/-- An entry, exit or landing is running. -/
def State.changing (s : State) : Bool := s.power.entry.isSome || s.power.exit.isSome || s.power.landing.isSome

/-- Why an entry is refused, with the refuser (*Entry refusals*, R434). -/
def State.entryRefusal (s : State) (calm : Bool) : Option (Nat × Nat) :=
  let frozen := [0, 1].find? fun c => (s.chan c).st == .frozen
  if s.power.mode = .warmup then some (1, s.srcStarters)
  else if calm ∧ s.connsWhere (fun _ => true) ≠ [] then some (2, srcRdma)
  else if calm ∧ frozen.isSome then some (3, srcDram (frozen.getD 0))
  else if s.boot.roll.isSome ∨ s.boot.applying ∨ s.boot.bundles ≠ [] then some (4, s.srcStarters)
  else if s.work.erasures ≠ [] ∨ s.store.sanitize = 2 then some (5, s.srcStarters)
  else if calm ∧ s.overcommit then some (6, srcLoopEngine)
  else if !s.aon.pfdGood then some (7, srcAon)
  else none

/-- A refusal recorded and counted (R434). -/
def State.refuseEntry (s : State) (target : Mode) (requester reason src : Nat) : State :=
  (s.onPower fun p => { p with refused := satAdd 16 p.refused 1, refuseLast := (src, reason, target.code),
                               refuseRsn := Tbl.put 0 p.refuseRsn reason (satAdd 32 (Tbl.look 0 p.refuseRsn reason) 1) }).raise
    0x0103 src target.code reason requester 0

/-- Hours as ns. -/
def hoursNs (h : Nat) : Nat := h * 3600000000000

/-- When a zone's FZR_HOURS and ZAE_HOURS steps are due, ns (R86). -/
def State.zoneDue (s : State) (z : Zone) : List Nat :=
  let due := fun (h : Nat) => if h = 0 then [] else [z.lastWrite + hoursNs (h - z.ageHours)]
  if !z.active || z.ru then []
  else (if z.fzr then [] else due (s.cfg .chipZonePolicy 0 31 24)) ++ due (s.cfg .chipZonePolicy 0 23 16)

/-- When the next patrol share is due, ns: the pages of a pass spread over PATROL_DAYS (R195). -/
def State.patrolDue (s : State) : List Nat :=
  let (done, all) := s.patrolShare
  if all = 0 then [] else [s.store.patrolSince + hoursNs (24 * max 1 (s.cfg .chipMediaCfg 0 31 24)) * (done + 1) / all]

/-- The maintenance timer of an entry: the earliest of the times of R431. -/
def State.maintTime (s : State) : Option Nat :=
  let h := s.cfg .pwrWakeCfg 0 23 8
  match (s.zones.flatMap fun p => s.zoneDue p.2) ++ s.patrolDue ++ (if h = 0 then [] else [s.now + hoursNs h]) with
  | [] => none
  | t :: ts => some (ts.foldl min t)

/-- Open parcels for which no command waits close at the entry's step 2 (R249, R432). -/
def State.closeIdleParcels (s : State) : State :=
  s.each (Tbl.numbers (fun z => z.parcel.isSome) s.zones) fun zk s => if s.unplaced zk = [] then s.closeParcel zk else s

/-- GPIO13 is a wake source, and by its level (PWR_WAKE_CFG). -/
def State.gpioWakes (s : State) : Bool := s.cfgBit .pwrWakeCfg 0 4
def State.gpioLevel (s : State) : Bool := s.cfgBit .pwrWakeCfg 0 5

/-- The modes that a wake source wakes the device from (*Wake sources*). -/
def State.wakes (s : State) (b : Nat) (m : Mode) : Bool :=
  match m with
  | .lull => b == 0 || b == 1 || b == 3 || b == 6 || (b == 5 && s.gpioWakes)
  | .calm => b == 2 || b == 3 || b == 6 || (b == 4 && s.cfgBit .pwrWakeCfg 0 3) || (b == 5 && s.gpioWakes)
  | _ => false

/-- An edge-type source (*Wake sources*). -/
def State.edgeWake (s : State) (b : Nat) : Bool := b == 4 || (b == 5 && !s.gpioLevel)

/-- A Lull or Calm entry accepted (R431, R432 step 1): RESUME holds the operational mode it was requested from. -/
def State.acceptEntry (s : State) (target : Mode) (requester : Nat) : State :=
  let e : Entry := { target := target, step := 1, abortPoints := s.cfgBit .pwrEntryPolicy 0 0, requester := requester, since := s.now }
  let t := s.maintTime
  let low := s.gpioWakes && s.gpioLevel && !hasBit s.aon.gpioIn 13
  let s := s.onPower fun p => { p with entry := some e, ps := if target = .calm then 4 else 3,
                                       resume := if p.mode = .lull then p.resume else p.mode }
  (s.onAon fun a => { a with maintTimer := t, wakePending := if low then [(5, 0xFFFF)] else [] }).closeIdleParcels

/-- PS3 or PS4 requested by tenant 0 (1), APST (2) or the management controller (3): the reason of a refusal, 0 for one that nothing
records (R434). -/
def State.requestEntry (s : State) (target : Mode) (requester : Nat) : Option Nat × State :=
  if s.power.mode = target then (none, s)
  else if s.changing then (some 0, s)
  else match s.entryRefusal (target == .calm) with
    | some (r, src) => (some r, s.refuseEntry target requester r src)
    | none => (none, s.acceptEntry target requester)

/-- A power state selected, 0-4 (R310-R313, R423, R434). -/
def State.selectPs (s : State) (v requester : Nat) : Option Nat × State :=
  if v < 3 then (if s.changing then (some 0, s) else (none, s.selectOperational v))
  else s.requestEntry (if v = 3 then .lull else .calm) requester

/-- Self-refresh entry of both channels, and the DDR PHY domain off (R432 step 6, R452). -/
def State.restDram (s : State) (abandon : Bool) : State :=
  ((s.enterSelfRefresh 0 abandon).enterSelfRefresh 1 abandon).dropDomains (domainBit 40)

/-- The DDR PHY domain on, its pads released, and both channels out of self-refresh (R429, R435, R436, R452). -/
def State.wakeDram (s : State) : State :=
  let s := ((s.powerDomains (domainBit 40)).releasePads (domainBit 40)).onMem fun m => { m with visit := none }
  (s.exitSelfRefresh 0).exitSelfRefresh 1

/-- The block lane-PHY domains on, their pads released, and every parked lane woken (R139, R435). -/
def State.wakeLanes (s : State) : State :=
  let w := s.laneDomains
  ((s.powerDomains w).releasePads w).each (s.lanes.map (·.1)) fun n s => s.wakeLane n

/-- PARK on every lane that holds no operation; a lane that carries no link parks at once (R432 step 5, R138). -/
def State.parkLanes (s : State) : State :=
  s.each (Tbl.numbers (fun l => l.st != .parked && l.st != .failed && l.st != .held) s.lanes) fun n s =>
    let l := s.lane n
    if l.st ≠ .active then s.parked n 2
    else if s.laneOps n = [] ∧ l.parking = none then s.sendPark n 2
    else s

/-- Every lane is parked; `trailing` lets a lane finish the passes it holds (R432 step 5). -/
def State.lanesParked (s : State) (trailing : Bool) : Bool :=
  s.lanes.all fun p => p.2.st == .parked || p.2.st == .failed || p.2.st == .held || (trailing && p.2.st == .active && s.laneOps p.1 != [])

/-- Erases aborted and queued again, as at Homestretch (R159, R432 step 3). -/
def State.abortErases (s : State) : State :=
  s.each (s.dies.map (·.1)) fun k s =>
    match (s.die k).heavy, s.heavyOp k with
    | some t, some o => if o.entry.kind = OpKind.erase ∧ o.abort.isNone then s.abortOp k t o 0 else s
    | _, _ => s

/-- An erase is in flight on some die. -/
def State.eraseRuns (s : State) : Bool := s.work.ops.any fun p => p.2.any fun o => o.entry.kind == .erase

/-- The units a Calm entry landed discarded (R182, R433): the landing die blocks that hold them go to the erase queues, and a die takes
its other block for the next landing unless that one still covers restored units. -/
def State.discardLanding (s : State) : State :=
  match s.power.landing with
  | none => s
  | some l =>
    let fresh := fun (u : LandUnit) => u.blockB == (s.die u.die).landB
    let kept := l.written.filter fun u => !fresh u
    let dies := ((l.written ++ l.toWrite).filter fresh).map (·.die) |>.eraseDups
    let s := s.each dies fun k s =>
      let other := (s.die k).landDirty.contains (!(s.die k).landB)
      (s.releaseBlock k (s.landPosition (s.die k) (s.die k).landB)).updDie k fun d =>
        { d with landB := if other then d.landB else !d.landB, landPage := 0, queue := d.queue.filter fun e => e.kind != .slc }
    let s := s.onStore fun t => { t with directory := kept, landedRows := s.work.rows.filter (·.covered) }
    let s := s.onPower fun p => { p with landing := none }
    s.each (s.dies.map (·.1)) fun k s => s.settleDie k

/-- A wake started (R430, R435, R436): its source is kept in PWR_WAKE_STAT; with a trip latched a wake from Calm is a chip domain reset
instead (R518). -/
def State.startExit (s : State) (w : Nat × Nat) : State :=
  let s := (s.onAon fun a => { a with wakePending := [] }).onPower fun p =>
    { p with wakeStat := (w.2, w.1), exit := some { source := p.mode, done := [1], cause := w.1, since := s.now } }
  if s.power.mode = .calm then (if s.aon.trip then s.chipReset false else s) else s.wakeLanes

/-- An entry abandoned at an abort point (R433): what was done is undone in reverse order, and the device goes on in the mode in which
the request was accepted; from Lull the pending wake is served. -/
def State.abandonEntry (s : State) (e : Entry) (ap : Nat) (w : Nat × Nat) : State :=
  let s := if 4 ≤ ap then s.wakeDram else s
  let s := if 3 ≤ ap then s.wakeLanes else s
  let s := if s.power.landing.isSome then s.discardLanding else s
  let s := if 2 ≤ ap ∧ s.power.mode ≠ .lull then s.reopenBroker else s
  let s := s.onPower fun p => { p with entry := none, ps := if p.mode = .lull then 3 else p.lastPs, aborted := satAdd 16 p.aborted 1,
                                       refuseLast := (w.2, 0x80 + ap, e.target.code) }
  let s := s.raise 0x0104 w.2 e.target.code ap w.1 0
  if s.power.mode = .lull then s.startExit w
  else ((s.onAon fun a => { a with wakePending := [] }).onStore fun t => { t with calmImage := none }).serveReads

/-- Commit of an entry (R432 step 7). In Lull a link may enter L1 (R293); the model leaves it in L0 (DESIGN CHOICE, log entry 190). In Calm the staged rows stand in the landing area alone, the bank is bled and the chip powers off. -/
def State.commitEntry (s : State) (e : Entry) : State :=
  let s := s.onPower fun p => { p with entry := none }
  let s := if e.target = .calm then
      let s := (s.onWork fun w => { w with rows := [] }).compareDirty
      let s := s.onPower fun p => { p with landing := none }
      (s.each (s.dies.map (·.1)) fun k s => s.settleDie k).releaseHold 2
    else s
  let s := s.changeMode e.target (if e.requester = 2 then 2 else 1) (usSince s.now e.since)
  let s := if e.target = .calm then
      let s := s.onBank fun b => { b with mv := 0, lowMv := 0, ma := 0, eUsable := 0, dmax := 0 }
      let s := { s with links := Tbl.mapAll {} (fun _ l => { l with pwr := 3 }) s.links }
      let s := s.each [0, 1] fun p s => s.updPort p fun x => { x with up := false, dist := false, hold := false, paused := false }
      s.dropDomains (BitVec.ofNat 64 (0x3E + 2 ^ 38 + 2 ^ 39))
    else s
  match s.aon.wakePending with
  | w :: _ => s.startExit w
  | [] => s

/-- An abort point passed, or the entry abandoned there (R433). -/
def State.abortPoint (s : State) (e : Entry) (ap : Nat) (next : State → State) : State :=
  match e.abortPoints, s.aon.wakePending with
  | true, w :: _ => s.abandonEntry e ap w
  | _, _ => next s

/-- No admitted command is left: contexts but those held, open parcels, fences, Select All resets and window READs (R432 step 2). -/
def State.commandsDone (s : State) : Bool :=
  s.ctxIds (fun x => x.phase != .held) == [] && !s.zones.any (fun p => p.2.parcel.isSome || p.2.fence.any (fun f => f.hdr.isSome) || p.2.closing.isSome) &&
  s.work.selectAll == [] && !s.fab.reads.any (fun r => r.2.isSome)

/-- The step of the entry under way ends when its work is done; the abort point behind it is checked and the next step begins
(*Lull and Calm entry*). -/
def State.advanceEntry (s : State) (e : Entry) : State :=
  let stepTo := fun (n : Nat) (s : State) => s.onPower fun p => { p with entry := some { e with step := n } }
  let calm := e.target == .calm
  match e.step with
  | 1 =>
    let s := s.closeIdleParcels
    if s.commandsDone then (stepTo 2 s).abortPoint e 1 fun s => (s.closeBroker true).abortErases else s
  | 2 =>
    if calm then (if s.work.ops.any (fun p => p.2.isSome) then s else (stepTo 3 s).startLanding .calm s.bank.lowMv)
    else if s.eraseRuns then s else (stepTo 3 s).abortPoint e 2 State.parkLanes
  | 3 =>
    if calm then
      let s := s.assignLanding
      (if s.landingDone then ((stepTo 4 s).writeDirectory none).keepRecords.abortPoint e 2 State.parkLanes else s)
    else if s.lanesParked true then (stepTo 5 s).abortPoint e 3 fun s => s.restDram false else s
  | 4 =>
    if s.lanesParked false then
      (stepTo 5 s).abortPoint e 3 fun s => (s.onStore fun t => { t with calmImage := some true }).restDram false
    else s
  | 5 => (stepTo 6 s).abortPoint e 4 id
  | _ => s.commitEntry e

/-- ENTRY_STEP_DONE (R432, R433). -/
def execEntryStepDone (s : State) : Host.Outcome State Fault Refusal :=
  .next (match s.power.entry with
    | some e => if s.running then s.advanceEntry e else s
    | none => s)

/-- A wake event of a source (R430, R433): in Lull or Calm it starts the exit; in an entry it is latched, and in the commit window of
window mode an edge is lost. -/
def State.noteWake (s : State) (b src : Nat) : State :=
  match s.power.entry with
  | some e =>
    if !(s.wakes b e.target || s.wakes b s.power.mode) then s
    else if e.step = 6 ∧ !e.abortPoints ∧ s.edgeWake b then
      (s.onPower fun p => { p with edgeLost := satAdd 32 p.edgeLost 1 }).raise 0x0105 s.srcStarters b e.target.code 0 0
    else s.onAon fun a => { a with wakePending := if a.wakePending.any (fun w => w.1 == b) then a.wakePending else a.wakePending ++ [(b, src)] }
  | none => if s.wakes b s.power.mode && s.power.exit.isNone then s.startExit (b, src) else s

/-- The source identifier of a wake whose port nothing names (*Wake sources*). -/
def wakeSource (b : Nat) : Nat := if b = 0 then srcFrontEnd 0 else if b = 1 then srcRdma else if b = 6 then srcAon else 0xFFFF

/-- WAKE_EVENT (R430). -/
def execWakeEvent (bit : Nat) (s : State) : Host.Outcome State Fault Refusal :=
  .next (if s.aon.on then s.noteWake bit (wakeSource bit) else s)

/-- The last step of an exit (R435 step 4, R436 step 9): the mode of RESUME, Stride when Sprint's grant is gone; the power state returns to
the last operational one, but on a maintenance wake (R313, R431). -/
def State.endExit (s : State) (x : Exit) : State :=
  let m := if s.power.resume = .sprint ∧ !s.power.granted then .stride else s.power.resume
  let s := s.onPower fun p => { p with exit := none, ps := if p.maint.isSome then p.ps else p.lastPs }
  let s := s.changeMode m 3 (usSince s.now x.since)
  (s.reopenBroker.settleSprint 1).serveReads

/-- The steps an exit step waits for (*Lull exit*, *Calm exit*). -/
def exitNeeds (calm : Bool) (step : Nat) : List Nat :=
  if calm then ([[], [], [1], [2], [3], [4], [4], [2], [6, 7], [5, 8]].getD step [])
  else [[], [], [1], [1], [2, 3]].getD step []

/-- No lane is still on its way from PARKED (R139). -/
def State.lanesAwake (s : State) : Bool := s.lanes.all fun p => p.2.outage != some .wake

/-- The effect of an exit step that has ended (*Lull exit*, *Calm exit*). -/
def State.exitStep (s : State) (x : Exit) (step : Nat) (ok : Bool) : State :=
  match decide (x.source = .calm), step with
  | false, 2 => s.wakeDram
  | false, 3 => s
  | false, _ => s.endExit x
  | true, 2 => ((s.powerDomains 0x3E).releasePads 0x3E).onAon fun a =>
      { a with hkFirstRound := true, hkChannel := 0, hkComplete := false, hkBadRef := none }
  | true, 3 => s.wakeDram
  | true, 4 =>
    if ok && s.store.calmImage != some false then (s.onStore fun t => { t with calmImage := none }).wakeLanes
    else (s.chipReset false).raise 0x0109 (srcStarter 0) 0 0 0 0
  | true, 5 =>
    let w := domainBit 38 ||| (if s.hasFabric && (s.cfgBit .fabPortCfg 0 31 || s.cfgBit .fabPortCfg 1 31) then domainBit 39 else 0)
    let s := (s.powerDomains w).releasePads w
    { s with links := Tbl.mapAll {} (fun _ l => { l with pwr := 0 }) s.links }
  | true, 8 => (s.restoreLanding x.readyAt).markRearm
  | true, 9 => s.endExit x
  | true, _ => s

/-- An exit step can end: what it waits for is done, and so is its own work. -/
def State.exitStepReady (s : State) (x : Exit) (step : Nat) : Bool :=
  let calm := x.source == .calm
  decide (2 ≤ step ∧ step ≤ if calm then 9 else 4) && !x.done.contains step && (exitNeeds calm step).all (x.done.contains ·) &&
  (if step = (if calm then 6 else 3) then s.lanesAwake else true) && (if calm ∧ step = 7 then !s.aon.hkFirstRound else true)

/-- EXIT_STEP_DONE (R435-R437). -/
def execExitStepDone (step : Nat) (ok : Bool) (s : State) : Host.Outcome State Fault Refusal :=
  .next (match s.power.exit with
    | none => s
    | some x =>
      if !s.released || !s.exitStepReady x step then s
      else
        let ready := x.readyAt == 0 && (x.done.contains 6 || step == 6) && (x.done.contains 7 || step == 7)
        let y := { x with done := x.done ++ [step], readyAt := if ready then s.now else x.readyAt }
        (s.onPower fun p => { p with exit := some y }).exitStep y step ok)

/-- The code of maintenance work in event 0x010B. -/
def maintCode : MaintWork → Nat
  | .zoneAge => 1
  | .patrol => 2
  | .interval => 3

/-- MAINT_TIMER_EXPIRY (R431): the device wakes, does what is due, and enters the same mode again. -/
def execMaintTimerExpiry (work : MaintWork) (s : State) : Host.Outcome State Fault Refusal :=
  .next (
    let m := s.power.mode
    if !s.aon.on || !(m == .lull || m == .calm) || s.power.exit.isSome || s.power.entry.isSome || s.aon.maintTimer.isNone then s
    else
      let s := (s.onPower fun p => { p with maint := some (m, work) }).onAon fun a => { a with maintTimer := none }
      (s.raise 0x010B s.srcStarters (maintCode work) m.code 0 0).noteWake 6 srcAon)

/-- The work of a maintenance wake has ended: no command, no fence and no patrol read is left. -/
def State.maintDone (s : State) : Bool :=
  s.work.ctxs == [] && !s.zones.any (fun p => p.2.fence.isSome) && !s.dies.any (fun p => p.2.queue.any fun e => e.kind == .patrol) &&
  !s.work.ops.any fun p => p.2.any fun o => o.entry.kind == .patrol

/-- After a maintenance wake the device enters the mode it came from again (R431). -/
def State.reenter (s : State) : State :=
  match s.power.maint with
  | none => s
  | some (m, _) =>
    if (s.power.mode == .stride || s.power.mode == .sprint) && !s.changing && s.maintDone then
      ((s.onPower fun p => { p with maint := none }).requestEntry m 1).2
    else s

/-- APST_IDLE_EXPIRY (R312): no I/O command outstanding, no window transfer in progress. -/
def execApstIdleExpiry (s : State) : Host.Outcome State Fault Refusal :=
  .next (
    let (on, _, target) := s.power.apst
    if !s.running || !on || s.work.ctxs != [] || s.fab.reads.any (fun r => r.2.isSome) || s.changing ||
      !(s.power.mode == .stride || s.power.mode == .sprint || (s.power.mode == .lull && target == 4)) then s
    else (s.requestEntry (if target = 4 then .calm else .lull) 2).2)

/-- PERST_ASSERT: every function of the port is reset, the link goes down, and the device wakes (R296, R430). -/
def execPerstAssert (port : Nat) (s : State) : Host.Outcome State Fault Refusal :=
  .next (if s.released then ((s.resetPort port).linkDown port).noteWake 3 0xFFFF else s)

/-- Units that a landing begun now would write (R181, event 0x0106). -/
def State.unitsToLand (s : State) : Nat :=
  let landed := match s.power.landing with
    | some l => l.written
    | none => []
  let covered := fun (u : LandUnit) => (s.work.rows.any fun r => r.zk == u.zk && r.row == u.row && r.covered) && s.store.directory.any u.same
  ((s.work.rows.flatMap s.rowUnits).filter fun u => !covered u && !landed.any u.same).length

/-- What runs on commands and on the fabric stops at a power failure: no admission, no context, no open parcel, no window (R257, R359, R438
step 2). -/
def State.stopService (s : State) : State :=
  let s := s.each (Tbl.numbers (fun z => z.parcel.isSome) s.zones) fun zk s => s.discardParcel zk
  let s := s.each (s.blks.map (·.1)) fun b s => s.updBlk b fun k => { k with cipRun := none, cipSusp := [] }
  let s := s.onWork fun w => { w with ctxs := [], ciphers := [], rebuilds := [], decodes := [] }
  let s := s.onFab fun f => { f with conns := [], windows := [], cache := [], reads := [], fetches := [], ingress := [], rejoin := none }
  let s := s.each [0, 1] fun p s => s.updPort p fun x => { x with up := false, dist := false, hold := false, paused := false }
  { s with links := Tbl.mapAll {} (fun _ l => { l with up := false, rate := 0, width := 0, flit := false, pwr := 0 }) s.links }

/-- Homestretch begun (R438 steps 1 to 5): `mv` the PWR_PFD pin, `bankMv` the bank-voltage sample at detection. -/
def State.startHomestretch (s : State) (mv bankMv : Nat) : State :=
  let step := match s.power.entry with
    | some e => e.step
    | none => 0
  let (old, units, kib) := (s.power.mode, s.unitsToLand, s.dirtyKib)
  let s := s.raise 0x0E17 srcAon mv kib (s.bank.eUsable / 1000000) (ceilDiv (s.predicted kib) 1000000)
  let s := (s.stopService).restDram true
  let s := (s.dropDomains (domainBit 38 ||| domainBit 39)).onPower fun p => { p with entry := none, exit := none, maint := none }
  let s := (s.unmeasure fun _ => true).startLanding .homestretch (s.fastSense 2 bankMv)
  let s := s.changeMode .homestretch 6 0
  s.raise 0x0106 s.srcStarters old.code kib units step

/-- PFD_FALL (R411, R412, R418, R420, R423). -/
def execPfdFall (pfdMv bankMv : Nat) (s : State) : Host.Outcome State Fault Refusal :=
  .next (
    if !s.aon.on || !s.aon.pfdGood || decide (s.cfg .pwrPfdCfg 0 19 8 ≤ pfdMv) then s
    else
      let s := (s.onAon fun a => { a with pfdGood := false, bfiLow := true }).refreshCharging
      let s := s.onAon fun a => { a with isoLow := true }
      let m := s.power.mode
      let early := m == .warmup && !s.stepComplete 10
      let s := if early && s.released then s.onPower fun p => { p with holds := if p.holds.contains 1 then p.holds else p.holds ++ [1] } else s
      if s.aon.trip then s.releaseHold 3
      else if !s.running || early || m == .calm || m == .off || m == .homestretch then s
      else s.startHomestretch pfdMv bankMv)

/-- What is left of the device after Homestretch: only AON powered, the pads of the other domains latched (R423, R429, R438 step 7). -/
def State.powerOff (s : State) (pads : BitVec 64) : State :=
  s.onAon fun a => { a with domainOn := 1, padLatched := pads, bfiLow := true, isoLow := true }

/-- The pads latched when every domain but AON goes off. -/
def State.padsAtOff (s : State) : BitVec 64 := s.aon.padLatched ||| (s.aon.domainOn &&& ~~~1#64)

/-- Energy drawn since the landing began, whole mJ (R440). -/
def State.energyUsed (s : State) (l : Landing) (bankMv : Nat) : Nat := ceilDiv (l.eBank - s.eBankAt bankMv) 1000000

/-- HOMESTRETCH_END (R412, R417, R438 steps 6 and 7). -/
def execHomestretchEnd (bankMv : Nat) (s : State) : Host.Outcome State Fault Refusal :=
  .next (match s.power.landing with
    | none => s
    | some l =>
      let s := s.assignLanding
      if s.power.mode ≠ .homestretch ∨ s.landingDone = false then s
      else
        let bankMv := s.fastSense 2 bankMv
        let used := s.energyUsed l bankMv
        let s := (s.writeDirectory (some (used, l.pred, l.dirtyKib))).keepRecords
        let pads := s.padsAtOff
        let s := (s.onAon fun a => { a with holdHigh := false, hsFigures := some (used, l.pred, l.dirtyKib, false) }).chipReset true
        let s := (s.powerOff pads).raiseBank 0x0E18 bankMv 1 0
        s.raise 0x0107 (srcStarter 0) (usSince s.now l.since) l.written.length used l.pred)

/-- Homestretch cut off (R439): no directory is written for its epoch; `cause` 1 the 500 ms, 2 V_min. The directory of a Calm entry's step 4
that names everything staged stands (R438). -/
def State.cutOff (s : State) (l : Landing) (cause bankMv : Nat) : State :=
  let left := if l.toppedUp then l.left else s.unitsToLand
  let used := s.energyUsed l bankMv
  let pads := s.padsAtOff
  let whole := l.written != [] && s.store.directory == l.written && s.store.landedRows == s.work.rows
  let s := (s.onAon fun a => { a with holdHigh := false, hsFigures := some (used, l.pred, 64 * l.written.length, true) }).chipReset whole
  let s := (s.onStore fun t => { t with lostEpoch := t.lostEpoch || !whole, figures := none }).powerOff pads
  let s := s.raiseBank 0x0E18 bankMv (if cause = 2 then 4 else 1) 0
  s.raise 0x0108 (srcStarter 0) cause left (usSince s.now l.since) 0

/-- HOMESTRETCH_CUTOFF (R439). -/
def execHomestretchCutoff (byVmin : Bool) (bankMv : Nat) (s : State) : Host.Outcome State Fault Refusal :=
  .next (match s.power.landing with
    | none => s
    | some l => if s.power.mode = .homestretch then s.cutOff l (if byVmin then 2 else 1) (s.fastSense 2 bankMv) else s)

/-- POWER_GOOD_DROP: PG inputs low for 10 µs while the chip domain is powered (R552). -/
def execPowerGoodDrop (pg : BitVec 4) (s : State) : Host.Outcome State Fault Refusal :=
  .next (
    if !s.aon.on then s
    else
      let s := s.onAon fun a => { a with pg := pg }
      match s.running && pg != 0xF, s.power.landing with
      | false, _ => s
      | true, some l =>
        if s.power.mode = .homestretch then s.cutOff l 2 s.bank.lowMv
        else (s.chipReset false).onAon fun a => { a with pgDrops := satAdd 8 a.pgDrops 1, bfiLow := true, isoLow := true }
      | true, none =>
        (s.chipReset false).onAon fun a => { a with pgDrops := satAdd 8 a.pgDrops 1, bfiLow := true, isoLow := true })

end Sys2Proof.Machine
end

