-- ==== Sys2Proof/Machine/Arrivals.lean ====
section
/-! DEFINITION. What the fabric brings that can wake the device: capsules and RDMA READs (R332, R352, R359, R430, R432 step 1). -/

namespace Sys2Proof.Machine

/-- Fabric capsules and window READs are held in ingress: in Lull, an entry or an exit (R359, R432). -/
def State.holdsIngress (s : State) : Bool := s.power.mode == .lull || s.power.entry.isSome || s.power.exit.isSome

/-- A submission of a host during a maintenance wake keeps the device in its last operational state (R313, R431). -/
def State.hostArrives (s : State) : State :=
  if s.power.maint.isSome then s.onPower fun p => { p with maint := none, ps := p.lastPs } else s

/-- ROCE_SEND_RECEIVED: a segment of a SEND; `last` ends the capsule (R332, R335, R338, R342) and wakes the device (R430). A duplicate is acknowledged again. -/
def execRoceSendReceived (conn psn : Nat) (ce last : Bool) (s : State) : Host.Outcome State Fault Refusal :=
  .next (
    let x := s.conn conn
    if !s.fabricOn || !x.up || x.error || x.frozen then s
    else
      let s := if ce then s.markCe conn else s
      if psn = x.epsn then (if last then (s.inOrder conn last).hostArrives.noteWake 1 srcRdma else s.inOrder conn last)
      else if psnBefore x.epsn psn then s.outOfOrder conn psn
      else s.sendPacket (.ack conn ((x.epsn + 2 ^ 24 - 1) % 2 ^ 24)))

/-- RDMA_READ_REQUEST: an RDMA READ, or WRITE, that names an rkey (R352-R355, R359). -/
def execRdmaReadRequest (conn rkey va len : Nat) (write : Bool) (s : State) : Host.Outcome State Fault Refusal :=
  .next (
    let x := s.conn conn
    if !s.fabricOn || !x.up || x.error || x.frozen then s
    else if s.holdsIngress then
      (s.onFab fun f => { f with ingress := f.ingress ++ [⟨conn, rkey, va, len, write⟩] }).hostArrives.noteWake 1 srcRdma
    else s.hostArrives.readNow conn rkey va len write)

end Sys2Proof.Machine
end

