-- ==== Sys2Proof/Machine/Warmup.lean ====
section
/-! DEFINITION. Chip domain reset release and the Warm-up sequence: its conditions, its holds, and the effect of each step (R36, R55-R57,
R87, R96, R144, R170-R172, R184, R198-R202, R271-R287, R417, R439, R449-R451, R462, R463, R532, R551). -/

namespace Sys2Proof.Machine

/-- The step that an item of the minimum service set was found missing at (R532): hold 0x04 stops before it. -/
def State.shortStep (s : State) : Nat :=
  if !s.unitsServe then 5 else if !s.dramServes then 6 else if !s.stepComplete 8 then 8 else 11

/-- The step that a hold code stops before (*Warm-up holds*). -/
def State.holdStep (s : State) (code : Nat) : Nat :=
  if code = 2 ∨ code = 3 then 3 else if code = 5 then 8 else if code = 1 then 10 else s.shortStep

/-- The hold cause shown: of several the one that stops the sequence at the earlier step (R57). Of causes that stop before the same step the lower code is
shown: the spec orders by step only (DESIGN CHOICE, log entry 188). -/
def State.holdReason (s : State) : Nat :=
  s.power.holds.foldl (fun best c => if best = 0 ∨ s.holdStep c < s.holdStep best ∨ (s.holdStep c = s.holdStep best ∧ c < best)
    then c else best) 0

/-- The steps whose completion a step waits for (*Warm-up sequence*). -/
def warmupNeeds (k : Nat) : List Nat :=
  [[], [], [1], [2], [3], [4], [4], [5], [7], [], [6, 8], [9, 10], [11], [12]].getD k []

/-- No hold stops the step. Step 9 runs from AON reset release, before t0. Steps 5 and 6 run side by side: a shortfall found at one lets the
other end. -/
def State.heldAt (s : State) (k : Nat) : Bool :=
  k != 9 && s.power.holds.any fun c =>
    if c = 4 then (if k = 5 then !s.unitsServe else if k = 6 then !s.dramServes else true) else decide (s.holdStep c ≤ k)

/-- Each populated lane has ended its training and its bridge set-up, or has failed (R55 step 8). -/
def State.lanesTrained (s : State) : Bool :=
  (List.range 512).all fun n =>
    let l := s.lane n
    !s.populated n || l.st == .failed || (!l.trainWait && l.outage.isNone && l.st == .active && l.setUp)

/-- What the step itself waits for, beside the steps before it: the batons that training holds (R451), the parameter pages (R144), the first
housekeeping round (R511),
the ledger entry programmed and the keys loaded (R56, R280, R490). -/
def State.stepWorkDone (s : State) (k : Nat) : Bool :=
  match k with
  | 6 => s.broker.holds (.dram 0) && s.broker.holds (.dram 1)
  | 8 => s.lanesTrained && !s.work.ops.any fun p => p.2.any fun o => o.entry.kind == .paramPage
  | 9 => !s.aon.hkFirstRound
  | 12 => s.boot.heldEntry.isNone && (s.cph.keysReady || s.cph.alarm)
  | _ => true

/-- The step can complete now. -/
def State.stepReady (s : State) (k : Nat) : Bool :=
  s.running && s.power.mode == .warmup && decide (1 ≤ k ∧ k ≤ 13) && !s.stepComplete k && (warmupNeeds k).all s.stepComplete &&
  !s.heldAt k && s.stepWorkDone k && s.flt.stop == 0

/-- A step complete: its bit in CHIP_WARMUP, and the time from which the restore of step 10 is measured (R55, R184). -/
def State.markStep (s : State) (k : Nat) : State :=
  let s := s.onPower fun p => { p with stepDone := setBit p.stepDone (k - 1) }
  if (k = 6 ∨ k = 8) ∧ s.stepComplete 6 ∧ s.stepComplete 8 then s.onPower fun p => { p with readyAt := s.now } else s

/-- A hold cause in force (R57). -/
def State.addHold (s : State) (code : Nat) : State :=
  s.onPower fun p => { p with holds := if p.holds.contains code then p.holds else p.holds ++ [code] }

/-- A missing item of the minimum service set holds the sequence at the step (R532): the step is not complete. -/
def State.shortAt (s : State) (item step : Nat) : State := (s.raiseMissing item step).addHold 4

/-- Step 2: the bank is chosen, and a strict ledger without a free entry holds before step 3 (R482, R491). -/
def State.warmup2 (s : State) : State :=
  let s := (s.markStep 2).chooseBank
  if s.strictLedger && s.boot.ledgerFull then s.addHold 2 else s

/-- DRAM data capacity, MiB (*DRAM organisations*): 2 channels of 2 subchannels, each rank 4 x8 or 2 x16 devices. -/
def State.dramMib (s : State) : Nat :=
  4 * s.dramRanks * (if s.cfgBit .dmcCfg 0 29 then 2 else 4) * (if s.cfg .dmcCfg 0 31 30 = 1 then 2048 else 4096)

/-- The CONV class per copy with a page cache of `gib` (R450). -/
def State.convMib (s : State) (gib : Nat) : Nat := (s.dramMib - 1024 * gib - 128 - 256) / 2 - 304

/-- The page cache that leaves room for the conventional maps: the configured size, reduced until they fit (R450). -/
def State.cacheGib (s : State) (need : Nat) : Nat → Nat
  | 0 => 0
  | g + 1 => if need ≤ s.convMib (g + 1) then g + 1 else s.cacheGib need g

/-- The memory classes of step 4 (R449, R450). -/
def State.divideDram (s : State) : State :=
  let need := ceilDiv (Tbl.sum s.convBytes s.nss) (2 ^ 20)
  let want := min 8 (s.cfg .winCfg 0 31 28)
  let gib := s.cacheGib need want
  let sizes : List (Nat × Nat) :=
    [(1, 32), (2, s.convMib gib), (3, 64), (4, 16), (5, 64), (6, 128), (8, 1024 * gib), (9, 128), (10, 256)]
  let s := s.onMem fun m => { m with classes := sizes.foldl (fun t c => Tbl.put 0 t c.1 c.2) [] }
  if gib < want then s.raise 0x050C (srcDram 0) (subParam 0 gib) need 0 0 else s

/-- DRAM training begins (R428, R451): the DDR PHY domain on, and each channel asks for its baton. -/
def State.startDram (s : State) : State :=
  let s := (s.powerDomains (domainBit 40)).releasePads (domainBit 40)
  s.each [0, 1] fun c s => (s.updChan c fun x => { x with st := .training, since := s.now }).requestBaton (.dram c)

/-- The Ethernet PHY domain has a port to serve (R428). -/
def State.ethDomain (s : State) : BitVec 64 :=
  if s.hasFabric && (s.cfgBit .fabPortCfg 0 31 || s.cfgBit .fabPortCfg 1 31) then domainBit 39 else 0

/-- Step 4: the configuration records are loaded, loops 0 to 3 and charging start, DRAM is divided and its training starts (R403, R409, R449,
R484). -/
def State.warmup4 (s : State) : State :=
  let s := match s.boot.running with
    | some x => s.loadRecords x
    | none => s
  let s := ((s.markStep 4).startFixedLoops).divideDram
  let s := (s.powerDomains s.ethDomain).releasePads s.ethDomain
  s.startDram.refreshCharging

/-- A memory macro out of service at the self-test: event 0x0602 and the effect of its row (R462, R463). Staging rows beyond the 8 spares are
withheld; the recorder's memory failed its self-test (R540). -/
def State.macroOut (s : State) (m : ChipMemory × Nat × Nat) : State :=
  let (src, _, inst) := ChipMemory.place s m.1
  let s := s.raise 0x0602 src (subParam inst m.2.1) m.2.2 0 0
  match m.1 with
  | .staging b _ _ _ _ _ => s.updBlk b fun k => { k with withheld := k.withheld + (m.2.2 - 8) }
  | .recorder => s.recorderMemoryFault m.2.1 2
  | x => s.memoryFails x m.2.1

/-- A key-derivation unit that failed its known-answer test (R291). -/
def State.kduFails (s : State) (g : Nat) : State :=
  ((s.updRgn g fun r => { r with kdu := false }).otherFailed (srcKdu g)).raise 0x0804 (srcKdu g) 0 1 0 0

/-- Every engine in service has its key-derivation unit to load it (R280). -/
def State.kdusServe (s : State) : Bool :=
  (List.range 4).all fun g => (s.rgn g).kdu || (List.range 8).all fun i => s.cph.engines.getLsbD (8 * g + i) = false

/-- The seed record is void: one programmed REVOKED bit suffices, or no entry is usable (R285). -/
def State.seedsVoid (s : State) : Bool :=
  let ns := s.nss.filter fun p => p.2.present
  ns != [] && (ns.any (fun p => p.2.revoked) || ns.all fun p => !p.2.seedOk)

/-- Keys derived and loaded: every bound slot with a usable seed entry; a namespace whose entry is unusable is attached without a key (R276,
R280). A void record leaves that to step 10 (R285). -/
def State.loadKeys (s : State) : State :=
  if s.cph.alarm then s
  else if s.seedsVoid then s
  else
    let ns := s.nsOf fun _ => true
    let s := s.each ns fun n s =>
      if (s.ns n).seedOk then s.loadKey n
      else (s.updNs n fun x => { x with noKey := true }).raise 0x0808 s.srcStarters n (s.ns n).slot 1 0
    let k := (ns.filter fun n => (s.ns n).seedOk).length
    let s := s.each ((List.range 4).filter fun g => (s.rgn g).kdu) fun g s => s.raise 0x0801 (srcKdu g) k (8 * k) 0 0
    s.onCph fun c => { c with keysReady := ns == [] || s.kdusServe }

/-- Step 5: the self-test and the known-answer tests; the media root key and the namespace keys follow (R271, R274, R280, R291, R462). -/
def State.warmup5 (s : State) (r : WarmupReport) : State :=
  let s := s.onMem fun m => { m with bistDone := true, bistRows := r.rowsRepaired, bistSpare := min 8 r.minSpare, bistOut := r.macrosOut.length }
  let s := s.raise 0x0601 srcScrubber r.macrosTested r.rowsRepaired (min 8 r.minSpare) r.macrosOut.length
  let s := s.each r.macrosOut fun m s => s.macroOut m
  let s := s.each r.badCipher fun b s => s.cipherFails b 1
  let s := s.each r.badKdu fun g s => if (s.rgn g).kdu then s.kduFails (g % 4) else s
  let s := s.each r.badParity fun i s => s.parityFails i
  let s := s.onCph fun c => { c with drbgOk := r.entropyTest == 0, mrk := !c.alarm }
  let s := if r.entropyTest = 0 then s else s.raise 0x0809 s.srcStarters r.entropyTest 0 0 0
  if s.unitsServe then (s.readSeeds.loadKeys).markStep 5 else s.shortAt 4 5

/-- A channel's training ended (R447, R451). The step that a failed training reached is not stated: a free value. -/
def State.dramTrained (s : State) (c : Nat) (ok : Bool) (r : WarmupReport) : State :=
  let s := s.returnBaton (.dram c)
  if ok then
    (s.updChan c fun x => { x with st := .active, raaimt := r.raaimt, raammt := r.raammt }).raiseDram 0x0501 c 0 (usSince s.now (s.chan c).since)
      s.aon.band 0
  else
    let (v, s) := s.draw
    ((s.updChan c fun x => { x with st := .retired }).unitFailed (srcDram c)).raiseDram 0x0502 c 0 v 0 0

/-- Step 6: both channels (R451, R532). -/
def State.warmup6 (s : State) (r : WarmupReport) : State :=
  let s := (s.dramTrained 0 r.dramOk0 r).dramTrained 1 r.dramOk1 r
  if s.dramServes then s.markStep 6 else s.shortAt 5 6

/-- Block lane-PHY domains with a populated lane (R428). -/
def State.populatedDomains (s : State) : BitVec 64 :=
  ((List.range 32).filter fun b => (List.range 16).any fun i => s.populated (16 * b + i)).foldl (fun w b => w ||| domainBit (6 + b)) 0

/-- Step 7 ends, and every populated lane asks for its training (R55, R111, R428). -/
def State.warmup7 (s : State) : State :=
  let w := s.populatedDomains
  let s := (((s.markStep 7).powerDomains w).releasePads w)
  s.each ((List.range 512).filter s.populated) fun n s =>
    if (s.lane n).st = .parked then (s.updLane n fun l => { l with trainWait := true }).requestBaton (.lane n) else s

/-- The cause for which a die is refused at Warm-up, 0 for none (R144): every copy of its parameter page fails CRC, the page states more than a
configured maximum, or no record has its model. A page that the step's report does not name keeps the maxima. -/
def State.pageCause (s : State) (r : WarmupReport) (k : Nat) : Nat :=
  match (r.paramPages.find? fun p => p.1 == k).map (·.2) with
  | some none => 1
  | some (some (tr, tprog, tbers)) =>
    if s.trFull < tr ∨ s.cfg .chipDieTprog 0 31 16 < tprog ∨ s.cfg .chipDieTerase 0 31 16 < tbers then 2
    else if (s.modelOf k).isNone then 3 else 0
  | none => if (s.modelOf k).isNone then 3 else 0

/-- The positions of a die that carry a factory mark, from the step's report (R198). -/
def factoryMarks (r : WarmupReport) (k : Nat) : List Nat := (((r.factoryBad.find? fun p => p.1 == k).map (·.2)).getD []).eraseDups

/-- The factory marks of a die that has no entry in the bad-block table (R198). -/
def State.scanDie (s : State) (k : Nat) (marks : List Nat) : State :=
  let a := s.allowance k
  let bad := marks.length
  let s := (s.updDie k fun d => { d with scanned := true, badPos := marks }).raise 0x0492 s.srcStarters k bad a 0
  if a < bad ∧ !(s.die k).lost then s.refuseDie k 0x0492 else if a = bad + 4 then s.raise 0x0493 s.srcStarters k 4 0 0 else s

/-- The pool of a lane: its dedicated lane set, or the shared pool (R95). -/
def State.poolOfLane (s : State) (n : Nat) : Nat :=
  match groupOfLane n with
  | none => 0
  | some q => if s.cfgBit .chipLanesetOwner q 31 then 1 + s.cfg .chipLanesetOwner q 15 8 else 0

/-- A die that had lost its position and passes Warm-up is a spare of its pool; what it held is erased (R199, R202). -/
def State.returnDie (s : State) (k : Nat) : State :=
  (s.updDie k fun d => { d with lost := false, st := .idle, eraseQueue := (List.range d.nextBlock).filter fun b => !d.erasedBlocks.contains b && !s.isLandBlock d b }).onStore
    fun t => { t with spares := t.spares ++ [(s.poolOfLane (k / 8), k)] }

/-- A stripe set formed of 18 dies, members in block order (R171, R172), with no number yet. -/
def newSet (pool : Nat) (dies : List Nat) : Option Nat × StripeSet :=
  let ms := dies.mergeSort fun a b => a / 128 ≤ b / 128
  (none, { members := ms.map some, was := ms, pool := pool })

/-- The order of dedicated sets: group ascending, then die index (R170). -/
def dedicatedOrder (x : StripeSet) : Nat :=
  let k := x.was.headD 0
  8 * (groupOfLane (k / 8)).getD 0 + k % 8

/-- Stripe sets numbered in the order given (R170); the units on a set that had another number follow it. -/
def State.numberSets (s : State) (l : List (Option Nat × StripeSet)) : State :=
  let m := l.zip (List.range l.length)
  let new := fun (i : Nat) => ((m.find? fun p => p.1.1 == some i).map (·.2)).getD i
  let s := { s with sets := m.foldl (fun (t : Tbl StripeSet) (p : (Option Nat × StripeSet) × Nat) => Tbl.put {} t p.2 p.1.2) [] }
  s.mapZones fun _ z => if z.valid then { z with set := new z.set } else z

/-- Stripe sets formed when a layout takes effect, and kept in the checkpoint (R96, R170-R172). Sets none of whose lanes changes its assignment
stay as they are, under the numbers of R170; the spare that a rebuild is filling is not free. -/
def State.formStripes (s : State) : State :=
  let changed := s.lanesChanged
  if s.store.formed ∧ changed = [] then s
  else
    let kept := s.sets.filter fun p => s.store.formed && p.2.members != [] && !p.2.was.any fun k => changed.contains (k / 8)
    let held := kept.flatMap fun p => p.2.members.filterMap id ++ (p.2.rebuild.map fun r => r.2.1).toList
    let (shared, rest) := formSets 228 (s.poolDies.filter fun k => !held.contains k)
    let own := s.dedicatedSets.filter fun (d : Nat × List Nat) => !d.2.any held.contains
    let old := kept.map fun p => (some p.1, p.2)
    let l := (old.filter fun p => p.2.pool == 0) ++ shared.map (newSet 0) ++
      ((old.filter fun p => p.2.pool != 0) ++ own.map fun d => newSet d.1 d.2).mergeSort fun a b => dedicatedOrder a.2 ≤ dedicatedOrder b.2
    let s := s.numberSets l
    let spares := s.store.spares.filter fun p => p.1 != 0 && !changed.contains (p.2 / 8)
    s.onStore fun t => { t with formed := !(l == []), spares := (rest.map fun k => (0, k)) ++ spares, layout := s.layoutWords }

/-- Sets that no longer stand under the layout in force are dissolved before the new ones are formed (R96). -/
def State.dissolveStripes (s : State) : State :=
  let changed := s.lanesChanged
  if s.store.formed ∧ changed = [] then s
  else s.each (Tbl.numbers (fun (x : StripeSet) => !s.store.formed || x.was.any fun k => changed.contains (k / 8)) s.sets) fun i s => s.setStripe i {}

/-- The dies that Warm-up finds: on a lane set up with the population configured. -/
def State.diesThere (s : State) : List Nat :=
  (Tbl.numbers (fun (d : Die) => d.st != .absent || d.lost) s.dies).filter fun k =>
    let l := s.lane (k / 8)
    l.st == .active && l.setUp && !l.mismatch && hasBit l.dies (k % 8)

/-- A die refused for its parameter page or model (R144). -/
def State.refusePage (s : State) (k cause : Nat) : State :=
  (s.raiseDie 0x040D (k / 8) (k % 8) cause (Tbl.look 0 (s.lane (k / 8)).onfi (k % 8)).toNat 0).refuseDie k 0x040D

/-- Step 8: the parameter pages and factory marks are checked, the stripe sets stand, lost dies that pass return as spares, and one set has
to be complete (R144, R171, R198-R202, R532). The allowance of a die depends on its set: a die that fails on any set is refused before the sets are
formed, the others are judged after. -/
def State.warmup8 (s : State) (r : WarmupReport) : State :=
  let there := s.diesThere
  let good := there.filter fun k => s.pageCause r k == 0
  let s := s.each (there.filter fun k => !good.contains k && !(s.die k).lost) fun k s => s.refusePage k (s.pageCause r k)
  let scan := good.filter fun k => !(s.die k).scanned
  let s := s.each (scan.filter fun k => decide (24 < (factoryMarks r k).length)) fun k s => s.scanDie k (factoryMarks r k)
  let s := s.dissolveStripes.formStripes
  let s := s.each (scan.filter fun k => decide ((factoryMarks r k).length ≤ 24)) fun k s => s.scanDie k (factoryMarks r k)
  let s := s.each (good.filter fun k => (s.die k).lost && decide ((s.die k).badPos.length ≤ s.allowance k) && (s.die k).st != .absent) fun k s =>
    s.returnDie k
  let s := s.each (s.sets.map (·.1)) fun i s => s.retryRebuild i
  if s.lanesServe then (let s := s.markStep 8; s.setBudget (s.loop 0).out) else s.shortAt 7 8

/-- The LBAs of a zone that a lost epoch took: from the last row whose fine pass completed on every member in service up to the write pointer, but
for what a landing directory restored (R439), as ranges by row. -/
def State.lostRanges (s : State) (zk : Nat) : List (Nat × Nat) :=
  let z := s.zone zk
  let ps := (List.range 18).filter fun p => (s.memberDie z p).isSome
  let line := match ps.map fun p => Tbl.look 0 z.fine p with
    | [] => 0
    | l :: ls => ls.foldl min l
  (List.range (ceilDiv z.filled 256)).filterMap fun r =>
    if r < 4 * line then none
    else
      let got := match s.work.rows.find? fun x => x.zk == zk && x.row == r with
        | some x => countBits x.staged 256
        | none => 0
      let first := 256 * r + got
      let stop := min z.filled (256 * (r + 1))
      if first < stop then some (first, stop - first) else none

/-- The rows that hold lost LBAs taken up again as staged, so that the word lines after them can be programmed; their LBAs read as lost. -/
def State.fillRows (s : State) (zk : Nat) (lost : List (Nat × Nat)) : State :=
  let z := s.zone zk
  s.each lost fun p s =>
    let r := p.1 / 256
    let n := p.1 + p.2 - 256 * r
    let staged : BitVec 256 := BitVec.ofNat 256 (2 ^ n - 1)
    let done := (List.range 18).filter fun m => decide (r / 4 < Tbl.look 0 z.fine m)
    if s.work.rows.any fun x => x.zk == zk && x.row == r then
      s.onWork fun w => { w with rows := w.rows.map fun x => if x.zk = zk ∧ x.row = r then { x with staged := staged, quarters := n / 64 } else x }
    else s.onWork fun w => { w with nextRow := w.nextRow + 1, rows := w.rows ++
      [{ zk := zk, row := r, tenant := (s.ns (nsOfKey zk)).tenant, staged := staged, quarters := n / 64, fineDone := done, order := w.nextRow,
         epoch := s.store.epoch }] }

/-- The zones of an epoch that no landing directory covers: event 0x010A, and their LBAs marked lost as outcome 0x4 (R439). -/
def State.takeLosses (s : State) : State :=
  if !s.store.lostEpoch then s
  else
    let l := (s.zones.filter fun p => p.2.active && p.2.valid).map (fun p => (p.1, s.lostRanges p.1)) |>.filter fun p => p.2 != []
    let n := l.foldl (fun a p => p.2.foldl (fun b q => b + q.2) a) 0
    let s := s.each l fun p s =>
      (s.commitMap p.1 fun z => { z with lost := z.lost ++ p.2, lostData := true }).fillRows p.1 p.2
    ((s.onStore fun t => { t with lostEpoch := false }).raise 0x010A s.srcStarters l.length n 0 0).compareDirty

/-- The ages of zones restored as active (R87). -/
def State.restoreAges (s : State) : State :=
  let h := s.cfg .chipZonePolicy 0 31 24
  s.mapZones fun _ z => if z.active && !z.ru then { z with ageHours := max z.ageHours h, lastWrite := s.now } else z

/-- Every namespace restored as crypto-erased when the alarm voided the seed record (R285). -/
def State.restoreSeeds (s : State) : State :=
  if s.cph.alarm || !s.seedsVoid then s
  else
    let s := s.each (s.nsOf fun _ => true) fun n s =>
      let (v, s) := s.draw
      s.eraseNs n v 3 true
    s.onCph fun c => { c with keysReady := s.kdusServe }

/-- Tenant 0, and tenant 1 in dual-port mode, exist from the first Warm-up (R361). -/
def State.firstTenants (s : State) : State :=
  s.each (if s.power.dual then [0, 1] else [0]) fun t s =>
    if (s.tenant t).st ≠ .free then s else ((s.updTenant t fun x => { x with st := .active }).givePages t).givePds t

/-- The energy check of the last Homestretch: PWR_HU_LAST and event 0x0E1A (R417). -/
def State.reportEnergy (s : State) : State :=
  let report := fun (used pred code kib : Nat) (s : State) =>
    (s.onBank fun b => { b with used := used, pred := pred }).raise 0x0E1A srcLoopEngine used pred code kib
  let s' := match s.aon.hsFigures, s.store.figures with
    | some (used, pred, kib, cut), _ => report used pred (if cut then 3 else if pred < used then 2 else 1) kib s
    | none, some (used, pred, kib) => report used pred (if pred < used then 2 else 1) kib s
    | none, none => if s.store.lostEpoch then report 0 0 4 0 s else s
  (s'.onAon fun a => { a with hsFigures := none }).onStore fun t => { t with figures := none }

/-- Restored units whose frames the Distance ladder did not correct (R166, R184): recorded. Their zones are re-armed, which corrects one lost unit of a
row (R185; log entry 185). -/
def State.restoreFailures (s : State) (bad : List LandUnit) : State :=
  s.each bad fun u s => s.raiseDie 0x0403 (u.die / 8) (u.die % 8) Cls.distance.code 1 u.page

/-- Step 10: the checkpoint's tenants, zones and registers and the landing area restored (R87, R184, R285, R361, R417, R439); relocations start again with another target (R194). The patrol pass starts
again (R195). -/
def State.warmup10 (s : State) (r : WarmupReport) : State :=
  let s := s.firstTenants.reportEnergy
  let s := s.each s.heldSlots fun t s => (s.accrueRa t).accrueDash t
  let s := s.each s.store.tenantWords fun p s => s.setCfgAt p.1 (p.2.getD (resetWord p.1))
  let bad := r.restoreBad.filterMap fun i => s.store.directory[i]?
  let s := (s.restoreLanding s.power.readyAt).restoreFailures bad
  let s := (s.each (s.dies.map fun p => p.1) fun k s => s.retireLandBlocks k).takeLosses
  let s := s.each (Tbl.numbers (fun d => d.reloc.isSome) s.dies) fun k s => s.restartRelocation k 4 false
  let s := (s.restoreAges.restoreSeeds.markRearm).each bad fun u s => s.updZone u.zk fun z => { z with rearm := max 1 z.rearm }
  let s := (s.mapZones fun _ z => { z with patrolled := [] }).onStore fun t => { t with patrolSince := s.now, patrolPasses := 0, patrolProgress := 0, calmImage := none }
  s.markStep 10

/-- Step 11: a host port has to be there (R532); the bound sets are computed and in force (R210, R222). -/
def State.warmup11 (s : State) : State :=
  if !s.hostPortUp then s.shortAt 6 11
  else
    let sets := s.computeSets
    ((s.markStep 11).onTmk fun k => { k with sets := sets, inForce := !s.aon.trip, band := s.aon.band }).raiseComputed sets

/-- A tenant becomes ready: its bit, and CSTS.RDY of its enabled controllers (R56, R379). -/
def State.readyTenant (s : State) (t : Nat) : State :=
  (s.updTenant t fun x => { x with ready := true }).mapCtrls fun c k => if k.en && s.tenantOf c == t && k.drain.isNone then { k with rdy := true } else k

/-- Step 12: tenant 0 is ready and the device is in Stride (R423); the time to last-known-good starts (R483). -/
def State.warmup12 (s : State) : State :=
  let s := ((s.markStep 12).readyTenant 0).changeMode .stride 5 (usSince s.now s.power.t0)
  (s.settleSprint 1).onBoot fun b => { b with lkgArmed := true }

/-- Step 13: each further existing tenant is ready, in ascending slot order. -/
def State.warmup13 (s : State) : State :=
  s.markStep 13 |>.each ((Tbl.numbers (fun t => t.st != .free && !t.creating) s.tenants).filter (· != 0)) fun t s => s.readyTenant t

/-- Step 13 follows step 12 in Stride. -/
def State.lastReady (s : State) (k : Nat) : Bool :=
  k == 13 && s.running && s.stepComplete 12 && !s.stepComplete 13 && s.power.mode != .homestretch && s.flt.stop == 0

/-- The effect of a step that completes. -/
def State.warmupStep (s : State) (k : Nat) (r : WarmupReport) : State :=
  match k with
  | 1 => (s.markStep 1).avsRetarget
  | 2 => s.warmup2
  | 3 => (s.markStep 3).appendBootEntry
  | 4 => s.warmup4
  | 5 => s.warmup5 r
  | 6 => s.warmup6 r
  | 7 => s.warmup7
  | 8 => s.warmup8 r
  | 10 => s.warmup10 r
  | 11 => s.warmup11
  | 12 => s.warmup12
  | k => s.markStep k

/-- WARMUP_STEP_DONE (R55). -/
def execWarmupStepDone (step : Nat) (rep : WarmupReport) (s : State) : Host.Outcome State Fault Refusal :=
  .next (if s.lastReady step then s.warmup13 else if s.stepReady step then s.warmupStep step rep else s)

/-- Chip domain reset released: t0 (R36, R55, R295, R411, R428, R551, R554). The budget covers training until step 8 (R397); a latched trip or an
input that is not good holds the sequence (R57, R419, R518). -/
def State.releaseChip (s : State) (dual : Bool) : State :=
  let w : BitVec 64 := 0x3E ||| domainBit 38
  let s := (s.onAon fun a => { a with pg := 0xF, bfiLow := false })
  let s := (s.powerDomains w).releasePads w
  let s := s.onPower fun p => { p with dual := dual, t0 := s.now, inReset := false, mode := .warmup, holds := [] }
  let s := s.onFlt fun f => { f with activePair := if s.boot.lkgValid then s.boot.lkgPair else 0 }
  let s := if s.aon.hkFirstRound then s else s.markStep 9
  let s := if s.aon.pfdGood then s else s.addHold 1
  if s.aon.trip then s.addHold 5 else (s.closeBroker false).setBudget 0

/-- CHIP_RESET_RELEASE: the supplies are good and CHIP_RST_N is high (R551); after Homestretch only once the input is good again (R425). -/
def execChipResetRelease (dualPort : Bool) (s : State) : Host.Outcome State Fault Refusal :=
  .next (if s.aon.on && s.power.inReset && (s.power.mode != .off || s.aon.pfdGood) then s.releaseChip dualPort else s)

/-- PFD_RISE: the input has been at or above RISE for 1 ms (R418). Hold 0x01 clears (R57); after Homestretch the chip domain leaves reset
(R425). -/
def execPfdRise (s : State) : Host.Outcome State Fault Refusal :=
  .next (
    if !s.aon.on || s.aon.pfdGood then s
    else
      let s := s.onAon fun a => { a with pfdGood := true }
      if s.power.mode == .off && s.power.inReset then s.releaseChip s.power.dual
      else (s.onPower fun p => { p with holds := p.holds.filter (· != 1) }).refreshCharging)

end Sys2Proof.Machine
end

