-- ==== Sys2Proof/Machine/Tenants.lean ====
section
/-! DEFINITION. Tenants (R361-R389): creation, share changes, destruction and resets, quiesce, the dirty log, export and import of a tenant,
virtualization management (R308), and the commands that a compatibility tenant holds. -/

namespace Sys2Proof.Machine

/-- A pool of *Tenant pools*: its TNT block offset, the device total in the pool's unit, and the floor and share of a set of limits. -/
structure PoolRow where
  offset : Nat
  total : Nat
  floor : Nat
  share : Nat
  deriving DecidableEq, Repr

/-- The pools whose floors Tenant Share Set gives (R369), for limits `l`; those of the fabric are empty without it (R7). -/
def State.pools (s : State) (l : Limits) : List PoolRow :=
  let fab := fun n => if s.hasFabric then n else 0
  [⟨0x04, 16384, l.ctxFloor, l.ctxShare⟩, ⟨0x08, fab 16384, l.rqpFloor, l.rqpShare⟩, ⟨0x10, 16384, l.zoneFloor, l.zoneShare⟩,
   ⟨0x14, 512, l.stgFloor, l.stgShare⟩, ⟨0x18, 256, l.keyFloor, l.keyShare⟩, ⟨0x1C, fab 4096, l.pdFloor, l.pdShare⟩,
   ⟨0x20, fab 16384, l.winFloor, l.winShare⟩, ⟨0x24, fab (Tbl.look 0 s.mem.classes 8), l.cacheFloor, l.cacheShare⟩]

/-- The floors of every tenant in the pool at a block offset. -/
def State.floorsIn (s : State) (offset : Nat) : Nat :=
  s.heldSlots.foldl (fun n u => n + (((s.pools (s.tenant u).lim).find? fun r => r.offset == offset).map (·.floor)).getD 0) 0

/-- The block offset of a floor that does not fit the unreserved part of its pool (R372). -/
def State.floorMisfit (s : State) (l : Limits) : Option Nat :=
  ((s.pools l).find? fun r => decide (r.total < s.floorsIn r.offset + r.floor)).map (·.offset)

/-- The dies that the configuration records give the populated lanes. -/
def State.populatedDies (s : State) : Nat :=
  ((List.range 512).filter s.populated).foldl (fun n l => n + countBits (Tbl.look 0 s.store.population l) 8) 0

/-- DASH_CAP, tokens per ms (R370). -/
def State.dashCap (s : State) : Nat := 4 * s.populatedDies

/-- RA_CAP, rebuilds per ms (R191). -/
def State.raCap (s : State) : Nat := s.populatedDies / 8

/-- Dash rates of every tenant but one, and read-around rates with MAINT_RATE in 1/16 rebuild per ms (R191, R370). -/
def State.otherDash (s : State) (t : Nat) : Nat :=
  (s.heldSlots.filter (· != t)).foldl (fun n u => n + s.cfg .tntDash u 31 16) 0
def State.otherRa (s : State) (t : Nat) : Nat :=
  (s.heldSlots.filter (· != t)).foldl (fun n u => n + s.cfg .tntRa u 31 16) (16 * s.cfg .chipRaCfg 0 19 8)

/-- The Dash or read-around floors of all tenants and the new one pass their caps (R372, reason 0x07). -/
def State.rateFloorsFit (s : State) (l : Limits) : Bool :=
  let sum := fun (f : Limits → Nat) => s.heldSlots.foldl (fun n u => n + f (s.tenant u).lim) (f l)
  decide (sum (·.dashFloor) ≤ s.dashCap) && decide (sum (·.raFloor) + 16 * s.cfg .chipRaCfg 0 19 8 ≤ 16 * s.raCap)

/-- A lane set that may be given: some group is DEDICATED to it and no tenant holds it (R97, R372). -/
def State.lanesetFree (s : State) (id : Nat) : Bool :=
  (List.range 28).any (fun q => s.cfgBit .chipLanesetOwner q 31 && s.cfg .chipLanesetOwner q 15 8 == id) &&
  !s.heldSlots.any fun u => (s.tenant u).laneset && (s.tenant u).setId == id

/-- A subsystem NQN that no tenant has; 0 stands for the default, which names its slot (R368). -/
def State.nqnFree (s : State) (nqn : Nat) : Bool :=
  nqn == 0 || (nqn != discoveryNqn && !s.heldSlots.any fun u => (s.tenant u).nqn == nqn)

/-- Slot 0, or slot 1 in dual-port mode: tenants that are neither created nor destroyed (R361). -/
def State.fixedSlot (s : State) (t : Nat) : Bool := t == 0 || (s.power.dual && t == 1)

/-- A slot holds no tenant and none that is being created. -/
def State.slotFree (s : State) (t : Nat) : Bool := (s.tenant t).st == .free && !(s.tenant t).creating

/-- A tenant that is QUIESCED or RESETTING. -/
def State.slotBusy (s : State) (t : Nat) : Bool := (s.tenant t).st == .quiesced || (s.tenant t).st == .resetting

/-- A Tenant Share Set refused: reason and register offset (R375). -/
def State.refuseShare (s : State) (h : Hdr) (reason offset : Nat) : State := s.completeWith h .invalidField reason offset []

/-- The reason for which a creation is refused, with the offset of the failing field (R372, R375). -/
def State.createReason (s : State) (t : Nat) (d : TenantData) : Option (Nat × Nat) :=
  if s.fixedSlot t then some (5, 0)
  else if !s.slotFree t then some (1, 0)
  else match s.floorMisfit d.lim with
    | some o => some (2, o)
    | none =>
      if d.laneset && !s.lanesetFree d.setId then some (3, 0)
      else if !s.rateFloorsFit d.lim then some (7, 0x28)
      else if !s.nqnFree d.nqn then some (9, 0) else none

/-- The words of a tenant's RWLIVE fields as Tenant Share Set gives them: register, field mask, value (R373). -/
def tenantWrites (l : Limits) (dash ra : Nat) : List (Reg × Word × Nat) :=
  [(.tntBaton, maskOf 23 16, packWord [(23, 16, l.weight)]),
   (.tntCompat, maskOf 31 0, packWord [(31, 16, l.kiopsMax), (15, 8, l.bwMax), (7, 0, l.schedWeight)]),
   (.tntFabclass, maskOf 31 0, packWord [(31, 16, l.dashQidMax), (15, 0, l.tempoQidMax)]),
   (.tntDash, maskOf 31 16, packWord [(31, 16, dash)]), (.tntRa, maskOf 31 16, packWord [(31, 16, ra)])]

/-- A tenant's RWLIVE values accepted: they wait for the next quiet point (R373, R567). -/
def State.pendTenant (s : State) (t : Nat) (ws : List (Reg × Word × Nat)) : State :=
  s.each ws fun w s => s.pend (w.1.offset t) w.2.1 (BitVec.ofNat 32 w.2.2)

/-- The two rates and the baton weight of a created tenant stand at their floors, which are reserved at once, until its own values are
applied (R369, *TNT block, tenant t*; DEDUCED, log entry 35). -/
def State.startRates (s : State) (t : Nat) (l : Limits) : State :=
  s.each [(Reg.tntDash, maskOf 31 16, packWord [(31, 16, l.dashFloor)]), (.tntRa, maskOf 31 16, packWord [(31, 16, l.raFloor)]),
          (.tntBaton, maskOf 23 16, packWord [(23, 16, max 1 l.weightFloor)])] fun w s =>
    s.setCfgAt (w.1.offset t) (mergeWord (s.cfgWord w.1 t) w.2.1 (BitVec.ofNat 32 w.2.2))

/-- TENANT_CREATE (R372): the floors are reserved, the command completes, and the tenant becomes ACTIVE at the next quiet point. Its queue
floor is the one of Virtualization Management (R369). -/
def execTenantCreate (h : Hdr) (slot : Nat) (data : TenantData) (s : State) : Host.Outcome State Fault Refusal :=
  .next (s.admin ruleManager h fun s =>
    match s.createReason slot data with
    | some (reason, offset) => s.refuseShare h reason offset
    | none =>
      let x := s.tenant slot
      let lim := { data.lim with sqFloor := x.lim.sqFloor }
      let s := s.setTenant slot { x with creating := true, compat := data.compat, pin := data.pin, region := data.region % 4,
                                         laneset := data.laneset, setId := if data.laneset then data.setId else 0, lim := lim, nqn := data.nqn,
                                         raOver := 0 }
      let s := ((s.givePages slot).givePds slot).startRates slot lim
      let s := s.pendTenant slot (tenantWrites lim data.dashRate data.raRate ++ [(.tntHold, maskOf 15 0, packWord [(15, 0, lim.holdMs)])])
      (s.raise 0x0B01 s.srcStarters slot (bit data.compat) (if data.laneset then data.setId else 0xFF) 0).complete h .success)

/-- The block offset of a FLOOR field that differs from the current one (R373, reason 0x06). -/
def floorDiffers (l m : Limits) : Option Nat :=
  (([(0x04, l.ctxFloor, m.ctxFloor), (0x08, l.rqpFloor, m.rqpFloor), (0x0C, l.sqFloor, m.sqFloor), (0x10, l.zoneFloor, m.zoneFloor),
     (0x14, l.stgFloor, m.stgFloor), (0x18, l.keyFloor, m.keyFloor), (0x1C, l.pdFloor, m.pdFloor), (0x20, l.winFloor, m.winFloor),
     (0x24, l.cacheFloor, m.cacheFloor), (0x28, l.dashFloor, m.dashFloor), (0x28, l.raFloor, m.raFloor),
     (0x2C, l.weightFloor, m.weightFloor)] : List (Nat × Nat × Nat)).find? fun r => r.2.1 != r.2.2).map (·.1)

/-- TENANT_CHANGE_SHARES (R373): it completes at once, and its values apply at the next quiet point. -/
def execTenantChangeShares (h : Hdr) (slot : Nat) (data : TenantData) (s : State) : Host.Outcome State Fault Refusal :=
  .next (s.admin ruleManager h fun s =>
    if s.slotFree slot then s.refuseShare h 1 0
    else match floorDiffers data.lim (s.tenant slot).lim with
      | some o => s.refuseShare h 6 o
      | none =>
        if s.slotBusy slot then s.refuseShare h 8 0
        else
          let s := s.updTenant slot fun x => { x with pending := some data.lim }
          (s.pendTenant slot (tenantWrites data.lim data.dashRate data.raRate)).complete h .success)

/-- The controllers of a tenant that a reset of it resets: its enabled PCIe controller and its fabric controllers (R362, R378). -/
def State.ctrlsOf (s : State) (t : Nat) : List Nat :=
  (if (s.ctrl t).en then [t] else []) ++ (Tbl.numbers (fun k => k.present && k.tenant == t) s.ctrls).filter fun c => decide (256 ≤ c)

/-- A destroyed tenant (R374, steps 2 to 5): its connections, windows, PDs, key pages, lane set and floors go, and the slot is FREE. -/
def State.removeTenant (s : State) (t : Nat) : State :=
  let conns := s.connsWhere fun c => c.tenant == t
  let windows := Tbl.numbers (fun w => w.up && w.tenant == t) s.fab.windows
  let s := s.each conns fun c s => s.closeConn c
  let s := s.each windows fun w s => s.endWindow w
  let s := s.each (s.pdsOf t) fun d s =>
    (s.setCfgAt (Reg.offset .fabPd d) (s.cfgWord .fabPd d &&& 0x7FFFFFFF)).onFab fun f => { f with pdOwner := Tbl.put 0 f.pdOwner d 0 }
  let s := s.each (s.pagesOf t) fun p s => s.onCph fun c => { c with pages := Tbl.put 0 c.pages p 0 }
  let s := s.each [Reg.tntBaton, .tntCompat, .tntHold, .tntFabclass, .tntDash, .tntRa] fun r s =>
    (s.setCfgAt (r.offset t) (resetWord (r.offset t))).onRegs fun g => { g with live := g.live.filter fun w => w.offset != r.offset t }
  let s := (s.mapCtrls fun c k => if 256 ≤ c ∧ k.tenant = t then {} else k).setTenant t { raOver := (s.tenant t).raOver, resets := (s.tenant t).resets }
  s.raise 0x0B02 s.srcStarters t conns.length windows.length 0

/-- A reset or destruction whose controllers have all been reset completes (R374, R378). -/
def State.finishEnding (s : State) (t : Nat) : State :=
  match (s.tenant t).ending with
  | none => s
  | some (h, destroy) =>
    if s.draining t ≠ [] then s
    else
      let s := s.updTenant t fun x => { x with ending := none }
      (if destroy then s.removeTenant t else s).complete h .success

/-- A reset of every controller of a tenant begun for a command (R374, R378); its bit of CHIP_TNT_READY clears (*CHIP_TNT_READY*). -/
def State.beginEnding (s : State) (t : Nat) (h : Hdr) (destroy : Bool) : State :=
  let s := s.updTenant t fun x => { x with ending := some (h, destroy), ready := false }
  (s.each (s.ctrlsOf t) fun c s => s.beginDrain c).finishEnding t

/-- TENANT_DESTROY (R374). -/
def execTenantDestroy (h : Hdr) (slot : Nat) (s : State) : Host.Outcome State Fault Refusal :=
  .next (s.admin ruleManager h fun s =>
    if s.fixedSlot slot then s.refuseShare h 5 0
    else if s.slotFree slot then s.refuseShare h 1 0
    else if s.nsOf (fun n => n.tenant == slot) ≠ [] then s.refuseShare h 4 0
    else if s.slotBusy slot then s.refuseShare h 8 0
    else s.beginEnding slot h true)

/-- TENANT_RESET (ACTION 0x4, R378). -/
def execTenantReset (h : Hdr) (slot : Nat) (s : State) : Host.Outcome State Fault Refusal :=
  .next (s.admin ruleManager h fun s =>
    if s.slotFree slot then s.refuseShare h 1 0
    else if s.slotBusy slot then s.refuseShare h 8 0
    else s.beginEnding slot h false)

/-- RESET_DRAIN_DONE: steps 7 and 8 of *Drain and squash*, once everything accepted has ended (R378). A fabric controller whose admin
connection is gone ends with its reset. -/
def execResetDrainDone (ctrl : Nat) (s : State) : Host.Outcome State Fault Refusal :=
  .next (
    if !s.running || (s.ctrl ctrl).drain.isNone || s.ctrlBusy ctrl then s
    else
      let t := s.tenantOf ctrl
      let s := s.endDrain ctrl
      let s := if 256 ≤ ctrl ∧ (s.sq (queueKey ctrl 0)).conn = none then s.setCtrl ctrl {} else s
      s.finishEnding t)

/-- The TNT block of a tenant, dword by dword (*TNT block, tenant t*). -/
def State.tenantBlock (s : State) (t : Nat) : List Word :=
  let x := s.tenant t
  let l := x.lim
  let pair := fun (a b : Nat) => BitVec.ofNat 32 (packWord [(31, 16, a), (15, 0, b)])
  let st := match x.st with
    | .free => 0
    | .active => 1
    | .resetting => 2
    | .quiesced => 3
  if x.st = .free then
    [BitVec.ofNat 32 (x.resets % 256), 0, 0, 0, 0, 0, 0, 0, 0, 0, 0, s.cfgWord .tntBaton t, s.cfgWord .tntCompat t, s.cfgWord .tntHold t,
     s.cfgWord .tntFabclass t, 0]
  else
    [BitVec.ofNat 32 (packWord [(31, 29, st), (28, 28, bit x.compat), (27, 27, bit x.logging), (26, 26, bit x.pin), (25, 24, x.region),
        (23, 23, bit x.laneset), (15, 8, x.setId), (7, 0, x.resets)]),
     pair l.ctxFloor l.ctxShare, pair l.rqpFloor l.rqpShare, pair l.sqFloor l.sqShare, pair l.zoneFloor l.zoneShare,
     pair l.stgFloor l.stgShare, BitVec.ofNat 32 (packWord [(24, 16, l.keyFloor), (8, 0, l.keyShare)]), pair l.pdFloor l.pdShare,
     pair l.winFloor l.winShare, pair l.cacheFloor l.cacheShare, pair l.dashFloor l.raFloor,
     mergeWord (s.cfgWord .tntBaton t) (maskOf 31 24) (BitVec.ofNat 32 (packWord [(31, 24, l.weightFloor)])), s.cfgWord .tntCompat t,
     s.cfgWord .tntHold t, s.cfgWord .tntFabclass t,
     BitVec.ofNat 32 (packWord [(31, 31, bit x.overflow), (21, 0, x.log.length)])]

/-- PCIe I/O submission queues of a tenant (R304, R369). -/
def State.queuesUsed (s : State) (t : Nat) : Nat := (s.sqs.filter fun p => p.1 / 65536 == t && p.1 % 65536 != 0 && p.2.conn.isNone).length

/-- A tenant's current use of each pool, by block offset in the pool's unit (R376). -/
def State.tenantUse (s : State) (t : Nat) : List (Nat × Nat) :=
  [(0x04, ceilDiv (s.contextsUsed t) 16), (0x08, ceilDiv (s.pairsUsed t) 4), (0x0C, s.queuesUsed t), (0x10, s.slotsUsed t),
   (0x14, ceilDiv (s.stagingUse t) 65536), (0x18, (s.pagesOf t).length), (0x1C, s.pdsUsed t), (0x20, s.windowsUsed t),
   (0x24, ceilDiv (s.pagesUsed t) 16)]

/-- The text "nqn.2019-08.com.stameide:tz5120:" (R368). -/
def nqnPrefix : List Nat :=
  [110, 113, 110, 46, 50, 48, 49, 57, 45, 48, 56, 46, 99, 111, 109, 46, 115, 116, 97, 109, 101, 105, 100, 101, 58, 116, 122, 53, 49, 50, 48, 58]

/-- The number of a list of bytes, the first the least significant (R12). -/
def leNumber : List Nat → Nat
  | [] => 0
  | b :: bs => b % 256 + 256 * leNumber bs

/-- The 256 bytes of a tenant's NQN (R368): a given one is the number that its create data held; of the default the spec states the
beginning, and the serial number in it is a free value (log entry 2). -/
def State.nqnField (s : State) (t : Nat) : FieldVal × State :=
  if (s.tenant t).nqn ≠ 0 then (⟨128, 256, (s.tenant t).nqn⟩, s)
  else
    let (v, s) := s.draw
    (⟨128, 256, leNumber nqnPrefix + 256 ^ 32 * (v % 256 ^ 224)⟩, s)

/-- The admin gate of Tenant Share Get (R314). -/
def ruleShareGet : AdminRule := ⟨true, true, true, false, true, false⟩

/-- TENANT_SHARE_GET (R376): other tenants name their own slot; a FREE slot returns zeros. -/
def execTenantShareGet (h : Hdr) (slot : Nat) (s : State) : Host.Outcome State Fault Refusal :=
  .next (s.admin ruleShareGet h fun s =>
    let own := s.tenantOf h.ctrl
    if !h.mc && own != 0 && own != slot then s.complete h .invalidField
    else if s.slotFree slot then s.complete h .success
    else
      let (nqn, s) := s.nqnField slot
      let block := (s.tenantBlock slot).zip (List.range 16) |>.map fun p => (⟨4 * p.2, 4, p.1.toNat⟩ : FieldVal)
      let use := (s.tenantUse slot).map fun p => (⟨64 + p.1, 4, p.2⟩ : FieldVal)
      s.completeWith h .success 0 0 (block ++ use ++ [nqn]))

/-- The reason for which a Dirty Log Control is refused, 0 for none (R383): `fits` says that the action fits the tenant's state. -/
def State.logReason (s : State) (t : Nat) (fits : Bool) : Nat :=
  if (s.tenant t).st = .resetting then 0x08
  else if s.slotFree t || !s.functionExists t || !fits then 0x0A else 0

/-- A Dirty Log Control that is carried out or refused (R383); DW0 of its completion holds the entries in the log. -/
def State.logControl (s : State) (h : Hdr) (t : Nat) (fits : Bool) (run : State → State) : State :=
  let reason := s.logReason t fits
  if reason ≠ 0 then s.completeWith h .invalidField reason 0 [] else run s

/-- Tenants whose writes are logged. -/
def State.loggers (s : State) : Nat := Tbl.count (fun t => t.logging) s.tenants

/-- DIRTY_LOG_START (R383, R384). -/
def execDirtyLogStart (h : Hdr) (slot : Nat) (s : State) : Host.Outcome State Fault Refusal :=
  .next (s.admin ruleTenant0 h fun s => s.logControl h slot (!(s.tenant slot).logging && decide (s.loggers < 8)) fun s =>
    (s.updTenant slot fun x => { x with logging := true }).completeWith h .success (s.tenant slot).log.length 0 [])

/-- DIRTY_LOG_STOP (R383). -/
def execDirtyLogStop (h : Hdr) (slot : Nat) (s : State) : Host.Outcome State Fault Refusal :=
  .next (s.admin ruleTenant0 h fun s => s.logControl h slot (s.tenant slot).logging fun s =>
    (s.updTenant slot fun x => { x with logging := false }).completeWith h .success (s.tenant slot).log.length 0 [])

/-- TENANT_QUIESCE (R385): fetch stops on every controller of the tenant, and held commands end with Command Interrupted. -/
def execTenantQuiesce (h : Hdr) (slot : Nat) (s : State) : Host.Outcome State Fault Refusal :=
  .next (s.admin ruleTenant0 h fun s =>
    s.logControl h slot ((s.tenant slot).st == .active && (s.tenant slot).quiesce.isNone) fun s =>
      let s := s.mapCtrls fun c k => if s.tenantOf c = slot then { k with stopped := true } else k
      let s := s.each (s.tenant slot).heldCmds fun c s => match s.ctxAt c with
        | none => s
        | some x => (s.unhold x c).finish c .interrupted
      s.updTenant slot fun x => { x with quiesce := some (h, s.now) })

/-- A fetched command of a tenant has not completed: I/O and management ones, and window creations that preload. -/
def State.tenantBusy (s : State) (t : Nat) : Bool :=
  s.ctxIds (fun x => x.tenant == t && !x.hdr.mc) != [] || (t :: s.ctrlsOf t).any s.ctrlBusy ||
  s.fab.windows.any fun w => w.2.up && w.2.tenant == t && w.2.preload.isSome

/-- QUIESCE_DONE: every fetched command has completed, and the tenant is QUIESCED (R385). -/
def execQuiesceDone (slot : Nat) (s : State) : Host.Outcome State Fault Refusal :=
  .next (match (s.tenant slot).quiesce with
    | none => s
    | some (h, since) =>
      if !s.running || s.tenantBusy slot then s
      else
        let s := s.updTenant slot fun x => { x with st := .quiesced, quiesce := none }
        (s.raise 0x0B09 s.srcStarters slot (usSince s.now since) 0 0).completeWith h .success (s.tenant slot).log.length 0 [])

/-- TENANT_RESUME (R385). -/
def execTenantResume (h : Hdr) (slot : Nat) (s : State) : Host.Outcome State Fault Refusal :=
  .next (s.admin ruleTenant0 h fun s => s.logControl h slot ((s.tenant slot).st == .quiesced) fun s =>
    let s := s.mapCtrls fun c k => if s.tenantOf c = slot then { k with stopped := k.drain.isSome } else k
    (s.updTenant slot fun x => { x with st := .active }).completeWith h .success (s.tenant slot).log.length 0 [])

/-- A *Dirty log entry* at byte `o`. -/
def logEntry (e : Nat × Bool) (o : Nat) : FieldVal := ⟨o, 8, e.1 % 2 ^ 52 * 4096 + bit e.2⟩

/-- DIRTY_LOG_EXPORT (R386, SELECT 0x1): as many entries as fit leave the log, after a 16-byte header. -/
def execDirtyLogExport (h : Hdr) (slot numd ofst : Nat) (s : State) : Host.Outcome State Fault Refusal :=
  .next (s.admin ruleTenant0 h fun s =>
    if overMdts numd || ofst != 0 || s.slotFree slot then s.complete h .invalidField
    else
      let x := s.tenant slot
      let n := min x.log.length ((4 * (numd + 1) - 16) / 8)
      let head : List FieldVal := [⟨0, 4, n⟩, ⟨4, 4, bit x.overflow⟩, ⟨8, 8, s.now⟩]
      let entries := ((x.log.take n).zip (List.range n)).map fun p => logEntry p.1 (16 + 8 * p.2)
      (s.setTenant slot { x with log := x.log.drop n, overflow := false }).completeWith h .success 0 0 (transferOf (head ++ entries) numd 0))

/-- Bytes of an exported state, header included: at most 1 MiB (*State header*). -/
def stateBytes (slot seq : Nat) : Nat := 64 + Config.stateLength slot seq % (2 ^ 20 - 63)

/-- An exported tenant state (R386): its header, the opaque body, and SCRC over bytes 0-59 and the body. -/
def stateData (slot seq : Nat) : List FieldVal :=
  let n := stateBytes slot seq
  let fs : List FieldVal := [⟨0, 4, 0x54535431⟩, ⟨4, 4, n⟩, ⟨8, 1, slot⟩, ⟨12, 4, seq⟩, ⟨64, n - 64, Config.stateBody slot seq % 256 ^ (n - 64)⟩]
  fs ++ [⟨60, 4, crc32 (((List.range 60) ++ (List.range (n - 64)).map (· + 64)).map (byteAt fs))⟩]

/-- TENANT_STATE_EXPORT (R386, SELECT 0x2): only of a QUIESCED tenant; its first part begins an export. -/
def execTenantStateExport (h : Hdr) (slot numd ofst : Nat) (s : State) : Host.Outcome State Fault Refusal :=
  .next (s.admin ruleTenant0 h fun s =>
    if overMdts numd || (s.tenant slot).st != .quiesced then s.complete h .invalidField
    else
      let s := if ofst ≠ 0 then s
        else
          let s := s.updTenant slot fun x => { x with exports := x.exports + 1 }
          s.raise 0x0B0A s.srcStarters slot (s.tenant slot).exports (stateBytes slot (s.tenant slot).exports) 0
      s.completeWith h .success 0 0 (transferOf (stateData slot (s.tenant slot).exports) numd ofst))

/-- A check of an import at LAST fails (R387). -/
def State.importBad (s : State) (dest source seq : Nat) (scrcOk : Bool) : Bool :=
  (s.tenant source).st != .quiesced || !s.slotFree dest || (s.functionOf dest).2 == 0 || !s.functionExists dest || (s.ctrl dest).en ||
  !scrcOk || seq != (s.tenant source).exports || (s.tenant source).exports == 0 ||
  s.pdsUsed source != 0 || s.connsWhere (fun c => c.tenant == source) != [] || s.windowsUsed source != 0

/-- The keys of a controller's queues moved to another controller. -/
def moveQueues {α : Type} [DecidableEq α] (d : α) (t : Tbl α) (a b : Nat) : Tbl α :=
  t.foldl (fun t p => if p.1 / 65536 = a then Tbl.put d (Tbl.put d t p.1 d) (queueKey b (p.1 % 65536)) p.2 else t) t

/-- A tenant's writable words, and the values that wait for them, moved to another slot. -/
def State.moveWords (s : State) (a b : Nat) : State :=
  s.each [Reg.tntBaton, .tntCompat, .tntHold, .tntFabclass, .tntDash, .tntRa] fun r s =>
    let s := (s.setCfgAt (r.offset b) (s.cfgWord r a)).setCfgAt (r.offset a) (resetWord (r.offset a))
    s.onRegs fun g => { g with live := g.live.map fun w => if w.offset = r.offset a then { w with offset := r.offset b } else w }

/-- Everything of a tenant passed to another slot (R387). -/
def State.moveTenant (s : State) (a b : Nat) : State :=
  let x := s.tenant a
  let owner := fun (o : Nat) => if o = a + 1 then b + 1 else o
  let swap := fun (c : Nat) => if c = a then b else c
  let s := s.mapNss fun _ n => if n.present ∧ n.tenant = a then { n with tenant := b, detached := n.detached.map swap } else n
  let s := s.onCph fun c => { c with pages := Tbl.mapAll 0 (fun _ o => owner o) c.pages }
  let s := s.onFab fun f => { f with pdOwner := Tbl.mapAll 0 (fun _ o => owner o) f.pdOwner }
  let s := s.onWork fun w => { w with rows := w.rows.map fun r => if r.tenant = a then { r with tenant := b } else r }
  let s := (s.moveWords a b).setTenant b
    { x with st := .active, ready := true, quiesce := none, ending := none, logging := false, log := [], overflow := false,
             resets := (s.tenant b).resets, viFloor := x.viFloor }
  let s := s.setTenant a { resets := x.resets, raOver := x.raOver }
  let (ka, kb) := (s.ctrl a, s.ctrl b)
  let s := s.setCtrl b { kb with en := true, rdy := true, stopped := false, acre := ka.acre, dulbe := ka.dulbe, aers := ka.aers }
  let s := s.setCtrl a { present := ka.present, tenant := ka.tenant, numVfs := ka.numVfs, busMaster := ka.busMaster }
  { s with sqs := moveQueues {} s.sqs a b, cqs := moveQueues {} s.cqs a b }

/-- TENANT_STATE_IMPORT (R387): parts are placed; at LAST the checks are made, and the tenant passes to its new slot in one quiet point, which the
command itself takes (DEDUCED; log entry 14). -/
def execTenantStateImport (h : Hdr) (dest source : Nat) (last : Bool) (exportSeq : Nat) (scrcOk : Bool) (s : State) :
    Host.Outcome State Fault Refusal :=
  .next (s.admin ruleTenant0 h fun s =>
    if !last then s.complete h .success
    else if s.importBad dest source exportSeq scrcOk then s.completeWith h .invalidField 0x0B 0 []
    else ((s.moveTenant source dest).raise 0x0B0B s.srcStarters dest source exportSeq 0).complete h .success)

/-- Virtual queues or vectors that Virtualization Management may hand out: the pool less the private ones of the physical functions (R308). -/
def State.flexible (s : State) (vectors : Bool) : Nat :=
  let pfs := if s.power.dual then 2 else 1
  if vectors then 65536 - 2048 * pfs else 8192 - 64 * pfs

/-- VIRT_MGMT (R308): a secondary controller's queue or vector floor, set by its own physical function while it is offline. -/
def execVirtMgmt (h : Hdr) (cntlid : Nat) (vectors : Bool) (count : Nat) (s : State) : Host.Outcome State Fault Refusal :=
  .next (s.admin ruleAny h fun s =>
    let own := s.tenantOf h.ctrl
    let floor := fun (t : Nat) => if vectors then (s.tenant t).viFloor else (s.tenant t).lim.sqFloor
    let rest := ((s.tenants.map (·.1)).filter fun t => t != cntlid && (s.functionOf t).2 != 0).foldl (fun n t => n + floor t) 0
    if !(own == 0 || (s.power.dual && own == 1)) then s.complete h .invalidOpcode
    else if 255 < cntlid ∨ (s.functionOf cntlid).2 = 0 ∨ (s.functionOf cntlid).1 ≠ own then s.complete h .invalidControllerId
    else if (s.ctrl cntlid).en || (s.ctrl cntlid).drain.isSome then s.complete h .invalidSecondaryState
    else if (if vectors then 2048 else 4095) < count ∨ s.flexible vectors < rest + count then s.complete h .invalidResourceNumber
    else
      let s := s.updTenant cntlid fun x => if vectors then { x with viFloor := count } else { x with lim := { x.lim with sqFloor := count } }
      s.completeWith h .success count 0 [])

/-- The first command that each of a tenant's queues holds, in class order and then in order of arrival (R380, R381). -/
def State.heldFirst (s : State) (t : Nat) : List Nat :=
  let queue := fun (c : Nat) => (s.ctxAt c).map fun x => (x.hdr.ctrl, x.hdr.sqid)
  let firsts := (s.tenant t).heldCmds.foldl (fun (acc : List Nat) c => if acc.any fun d => queue d == queue c then acc else acc ++ [c]) []
  let rank := fun (c : Nat) => ((s.ctxAt c).map fun x => x.cls.rank).getD 3
  [0, 1, 2, 3].flatMap fun k => firsts.filter fun c => rank c == k

/-- What is wrong with a held command now: its namespace may have changed while it waited. -/
def State.heldCheck (s : State) (x : Ctx) : Option Status :=
  match x.kind with
  | .packedAppend | .packedRead => s.packedCheck x.hdr x.slba (x.kind == .packedAppend)
  | .manage act => s.manageCheck x.hdr x.slba (act != .resetAll)
  | .report _ _ _ => s.manageCheck x.hdr x.slba false
  | .copy => s.precheck { x with slba := 0 }
  | _ => s.precheck x

/-- A held command tried again (R213, R380). -/
def State.tryHeld (s : State) (c : Nat) (x : Ctx) : Verdict × State :=
  match x.kind with
  | .packedAppend | .packedRead => s.tryPacked (some c) { x with phase := .reading }
  | .manage _ | .report _ _ _ =>
    match s.tryManage { x with phase := .waiting } with
    | (.go, t) => (.go, t.setCtx c none)
    | r => r
  | _ => s.tryIo (some c) { x with phase := .reading }

/-- A retry of one held command: whether it left the list, and the state (R380). -/
def State.retryOne (s : State) (c : Nat) : Bool × State :=
  match s.ctxAt c with
  | none => (false, s)
  | some x =>
    match s.heldCheck x with
    | some st => (true, (s.unhold x c).finish c st)
    | none => match s.tryHeld c x with
      | (.go, t) => (true, t.unhold x c)
      | (.refuse st, t) => (true, (t.unhold x c).finish c st)
      | (.energy us, t) => (true, (t.unhold x c).finishWith c .energyLow (min longestWaitUs (max 1 us)) 0 [])
      | (.now l, t) => (true, ((t.unhold x c).squash c).decline x.hdr x.tenant x.cls l.tryUs)
      | (.later _, _) => (false, s)

/-- HELD_COMMAND_RETRY: one turn of a compatibility tenant; the first of its held commands that passes is admitted (R380, R381). -/
def execHeldCommandRetry (tenant : Nat) (s : State) : Host.Outcome State Fault Refusal :=
  .next (
    if !s.running || s.aon.trip || s.bucketsEmpty tenant then s
    else (s.heldFirst tenant).foldl (fun (a : Bool × State) c => if a.1 then a else s.retryOne c) (false, s) |>.2)

/-- COMPAT_HOLD_EXPIRY (R382): the held command ends with Command Interrupted; its event at most once in a second. -/
def execCompatHoldExpiry (ctx : Nat) (s : State) : Host.Outcome State Fault Refusal :=
  .next (match s.ctxAt ctx with
    | none => s
    | some x =>
      if x.phase ≠ .held then s
      else
        let s := (s.unhold x ctx).finish ctx .interrupted
        let t := s.tenant x.tenant
        if t.holdEventAt.any fun e => decide (s.now < e + 1000000000) then s
        else (s.setTenant x.tenant { t with holdEventAt := some s.now }).raise 0x0B07 s.srcStarters x.tenant 1
          (max 1 (s.cfg .tntHold x.tenant 15 0)) 0)

/-- A tenant's compatibility buckets full: 1 ms of KIOPS_MAX × 1,000 commands per second and of BW_MAX GB/s (R381). -/
def State.fillCompat (s : State) (t : Nat) : State :=
  s.updTenant t fun x => { x with kiops := s.cfg .tntCompat t 31 16, bw := s.cfg .tntCompat t 15 8 * 1000000 }

/-- COMPAT_BUCKET_REFILL (R381). -/
def execCompatBucketRefill (tenant : Nat) (s : State) : Host.Outcome State Fault Refusal :=
  .next (if s.running && (s.tenant tenant).compat then s.fillCompat tenant else s)

end Sys2Proof.Machine
end

