-- ==== Sys2Proof/Machine/Nvme.lean ====
section
/-! DEFINITION. The PCIe side and the standard admin commands (R292-R322, R494, R515): links, configuration requests, controllers and queues,
Identify, log pages, features, aborts and event requests, and the management endpoint. Data layouts are those of the NVMe base and
command set specifications, PRESUMED (log entry 6); a field whose value the spec does not state is a free value (log entry 2). -/

namespace Sys2Proof.Machine

/-- The CAP register of a PCIe controller by its fields (*Controller capabilities*); bit positions as in the NVMe base specification (PRESUMED; log entry 6). -/
structure Cap where
  mqes : Nat := 0xFFFF
  cqr : Nat := 1
  ams : Nat := 1
  timeout : Nat := 0x14
  dstrd : Nat := 0
  nssrs : Nat := 0
  css : Nat := 0x41
  bps : Nat := 0
  mpsMin : Nat := 0
  mpsMax : Nat := 4
  pmrs : Nat := 0
  cmbs : Nat := 0
  deriving DecidableEq, Repr

/-- The register's 64 bits. -/
def Cap.word (c : Cap) : BitVec 64 :=
  BitVec.ofNat 64 (c.mqes + 2 ^ 16 * c.cqr + 2 ^ 17 * c.ams + 2 ^ 24 * c.timeout + 2 ^ 32 * c.dstrd + 2 ^ 36 * c.nssrs + 2 ^ 37 * c.css + 2 ^ 45 * c.bps +
    2 ^ 48 * c.mpsMin + 2 ^ 52 * c.mpsMax + 2 ^ 56 * c.pmrs + 2 ^ 57 * c.cmbs)

/-- The CAP that a controller reports: every PCIe controller the values of R302, whatever its tenant; a fabric controller has no such register. -/
def State.capOf (s : State) (ctrl : Nat) : Option Cap := if ctrl < 256 ∧ s.functionExists ctrl then some {} else none

/-- The deepest I/O queue: MQES + 1 entries. -/
def maxDepth : Nat := ({} : Cap).mqes + 1

/-- A read of the CAP register of a function's controller, as its 64 bits (R302). -/
def State.readCap (s : State) (ctrl : Nat) : Option (BitVec 64) := (s.capOf ctrl).map Cap.word

/-- A port carries a physical function: port 1 only in dual-port mode (R295). -/
def State.portExists (s : State) (port : Nat) : Bool := port == 0 || s.power.dual

/-- The widest link a port trains (CHIP_PCIE_CFG.MAX_WIDTH). -/
def State.maxWidth (s : State) : Nat :=
  let w := s.cfg .chipPcieCfg 0 4 0
  if s.power.dual then min 8 w else w

/-- A link at a rate and width that the port trains (R292). -/
def State.linkAt (s : State) (l : PcieLink) (rate width : Nat) (flit : Bool) : PcieLink :=
  { l with up := true, rate := min rate (s.cfg .chipPcieCfg 0 11 8), width := min width s.maxWidth, flit := flit, pwr := 0 }

/-- The chip domain runs with its PCIe PHY powered: in every mode but Calm and after the start of Homestretch (R293, R438). -/
def State.pcieOn (s : State) : Bool :=
  s.running && s.power.mode != .calm && s.power.mode != .homestretch && s.power.mode != .off

/-- PCIE_LINK_UP (R292, R222). -/
def execPcieLinkUp (port rate width : Nat) (flit : Bool) (s : State) : Host.Outcome State Fault Refusal :=
  .next (if !s.pcieOn || !s.portExists port || (s.link port).up then s
    else (s.setLink port (s.linkAt (s.link port) rate width flit)).recompute)

/-- PCIE_LINK_RETRAIN (R294): RECOV counts it; another rate or width recomputes the bound sets. -/
def execPcieLinkRetrain (port rate width : Nat) (flit : Bool) (s : State) : Host.Outcome State Fault Refusal :=
  .next (
    let l := s.link port
    if !s.pcieOn || !l.up then s
    else
      let m := { s.linkAt l rate width flit with recov := satAdd 8 l.recov 1 }
      let s := s.setLink port m
      if m.rate = l.rate ∧ m.width = l.width ∧ m.flit = l.flit then s else s.recompute)

/-- The tenant slot of function `fn` of a port: 0 the physical function, k virtual function k (*Functions*). -/
def State.slotOf (s : State) (port fn : Nat) : Nat :=
  if !s.power.dual then fn
  else if fn = 0 then port % 2
  else if port = 0 then 1 + fn else 255 - s.vfb + fn

/-- TotalVFs of a port's physical function (*Functions*). -/
def State.totalVfs (s : State) (port : Nat) : Nat :=
  if !s.power.dual then 255 else if port = 0 then 254 - s.vfb else s.vfb

/-- Device ID of a function (*Functions*). -/
def deviceId (port fn : Nat) : Nat := if fn ≠ 0 then 0x5121 else if port = 0 then 0x5120 else 0x5122

/-- Configuration requests are answered: Warm-up step 4 is complete, or a hold stops the sequence and step 2 has ended (R297). -/
def State.configReady (s : State) : Bool := s.stepComplete 4 || (s.inHold && s.stepComplete 2)

/-- The answer of a configuration request; none is Request Retry Status. -/
def State.answerConfig (s : State) (w : Option Word) : State := s.onOut fun o => { o with config := o.config ++ [w] }

/-- A configuration read (R298): vendor, device and class are stated, the revision and every other dword are free values. -/
def State.configRead (s : State) (port fn offset : Nat) : State :=
  if offset / 4 = 0 then s.answerConfig (some (BitVec.ofNat 32 (deviceId port fn * 65536 + 0x1F3B)))
  else
    let (v, s) := s.draw
    s.answerConfig (some (BitVec.ofNat 32 (if offset / 4 = 2 then 0x010802 * 256 + v % 256 else v)))

/-- VF Enable cleared: the virtual functions are gone, and their tenants' controllers are reset (R301). -/
def State.clearVfs (s : State) (pf : Nat) : State :=
  let slots := (s.slotsOfPf pf).filter (· != pf)
  (s.each slots fun t s => s.resetFunction t).updCtrl pf fun k => { k with numVfs := 0 }

/-- PCIE_CONFIG_REQUEST (R297, R298, R301). -/
def execPcieConfigRequest (port fn : Nat) (req : CfgRequest) (s : State) : Host.Outcome State Fault Refusal :=
  .next (
    let slot := s.slotOf port fn
    let pf := s.slotOf port 0
    if !s.pcieOn || !s.portExists port || !(s.link port).up then s
    else if !s.configReady then s.answerConfig none
    else if s.totalVfs port < fn ∨ s.functionExists slot = false then s
    else match req with
      | .read o => s.configRead port fn o
      | .setVfEnable n =>
        if fn = 0 ∧ (s.ctrl pf).numVfs = 0 then (s.updCtrl pf fun k => { k with numVfs := min n (s.totalVfs port) }).answerConfig (some 0)
        else s.answerConfig (some 0)
      | .clearVfEnable => (if fn = 0 then s.clearVfs pf else s).answerConfig (some 0)
      | .busMaster on => (s.updCtrl slot fun k => { k with busMaster := on }).answerConfig (some 0))

/-- CSTS.RDY may be set: the tenant's bit of CHIP_TNT_READY, or tenant 0 in a Warm-up hold (R56, R303). -/
def State.mayBeReady (s : State) (t : Nat) : Bool := (s.tenant t).ready || (t == 0 && s.inHold)

/-- The admin queue of a PCIe controller can commit its contexts (R229, R304). Before the pools are restored in step 10, nothing is counted
(DEDUCED; log entry 15). -/
def State.adminQueueFits (s : State) (t depth : Nat) : Bool := !s.stepComplete 10 || s.contextsFit t depth

/-- CC_ENABLE: CC.EN goes from 0 to 1 (R56, R229, R303, R304, R379). -/
def execCcEnable (ctrl depth : Nat) (s : State) : Host.Outcome State Fault Refusal :=
  .next (
    let k := s.ctrl ctrl
    let t := s.tenantOf ctrl
    if !s.pcieOn || k.en || k.drain.isSome then s
    else if 256 ≤ ctrl then (if k.present then s.setCtrl ctrl { k with en := true, rdy := s.mayBeReady t } else s)
    else if s.functionExists ctrl = false ∨ depth < 2 ∨ 4096 < depth then s
    else if !s.adminQueueFits t depth then s.raiseNoContexts t depth
    else ((s.setCtrl ctrl { k with en := true, rdy := s.mayBeReady t }).setSq (queueKey ctrl 0)
      { cls := .none, depth := depth }).setCq (queueKey ctrl 0) { depth := depth })

/-- DOORBELL_WRITE (R313, R377, R378, R388, R430): ignored on a controller that is not enabled or is being reset; a doorbell of no queue, or
a value outside it, raises Invalid Doorbell Write on that controller only. -/
def execDoorbellWrite (ctrl qid : Nat) (isCq : Bool) (value : Nat) (s : State) : Host.Outcome State Fault Refusal :=
  .next (
    let k := s.ctrl ctrl
    let q := queueKey ctrl qid
    if !s.pcieOn || !k.en || k.drain.isSome || decide (256 ≤ ctrl) then s
    else
      let s := s.hostArrives.noteWake 0 (srcFrontEnd (portOfSlot s.power.dual s.vfb ctrl))
      if isCq then
        if value < (s.cq q).depth then s.updCq q fun c => { c with head := value } else s.notify (s.tenantOf ctrl) (.invalidDoorbell ctrl)
      else if value < (s.sq q).depth then s.updSq q fun c => { c with tail := value }
      else s.notify (s.tenantOf ctrl) (.invalidDoorbell ctrl))

/-- The queue floor of a tenant: a physical function has its 64 private queues (R308). -/
def State.queueFloor (s : State) (t : Nat) : Nat := if s.fixedSlot t then max 64 (s.tenant t).lim.sqFloor else (s.tenant t).lim.sqFloor

/-- One more PCIe I/O submission queue fits its tenant and the device (R304, R369). -/
def State.queueFits (s : State) (t : Nat) : Bool :=
  poolAllows 8192 (s.heldSlots.foldl (fun n u => n + s.queueFloor u) 0)
    (s.heldSlots.foldl (fun n u => n + (s.queuesUsed u - s.queueFloor u)) 0) (s.queueFloor t) (s.tenant t).lim.sqShare (s.queuesUsed t) 1

/-- The class that QPRIO gives a queue (R207). -/
def classOfPrio (p : Nat) : Cls := if p = 0 then .dash else if p = 1 then .tempo else .distance

/-- The home region of a PCIe I/O queue (R366). -/
def State.regionFor (s : State) (t qid : Nat) : Nat := if (s.tenant t).pin then (s.tenant t).region else (qid - 1) % 4

/-- A queue identifier that a creation may name: 1 to 4,095 and free (R304). -/
def newQid (qid depth : Nat) : Bool := decide (1 ≤ qid ∧ qid ≤ 4095) && depth == 0

/-- CREATE_IO_SQ (R207, R229, R304, R366). A fabric controller's queues come by Connect. -/
def execCreateIoSq (h : Hdr) (qid depth qprio cqid : Nat) (s : State) : Host.Outcome State Fault Refusal :=
  .next (s.admin ruleAny h fun s =>
    let t := s.tenantOf h.ctrl
    let q := queueKey h.ctrl qid
    if 256 ≤ h.ctrl then s.complete h .invalidOpcode
    else if (s.cq (queueKey h.ctrl cqid)).depth = 0 ∨ cqid = 0 then s.complete h .cqInvalid
    else if !newQid qid (s.sq q).depth then s.complete h .invalidQueueId
    else if depth < 2 ∨ maxDepth < depth then s.complete h .invalidQueueSize
    else if !s.queueFits t || !s.contextsFit t depth then (s.raiseNoContexts t depth).complete h .invalidQueueSize
    else (s.setSq q { cls := classOfPrio qprio, region := s.regionFor t qid, depth := depth, cqid := cqid }).complete h .success)

/-- Interrupt vectors of a PCIe function: 2,048 of a physical one, else what Virtualization Management gave it (R300, R308). -/
def State.vectors (s : State) (t : Nat) : Nat := if s.fixedSlot t then 2048 else (s.tenant t).viFloor

/-- CREATE_IO_CQ (R300, R304). -/
def execCreateIoCq (h : Hdr) (qid depth vector : Nat) (s : State) : Host.Outcome State Fault Refusal :=
  .next (s.admin ruleAny h fun s =>
    let q := queueKey h.ctrl qid
    if 256 ≤ h.ctrl then s.complete h .invalidOpcode
    else if !newQid qid (s.cq q).depth then s.complete h .invalidQueueId
    else if depth < 2 ∨ maxDepth < depth then s.complete h .invalidQueueSize
    else if s.vectors h.ctrl ≤ vector then s.complete h .invalidVector
    else (s.setCq q { depth := depth, vector := vector }).complete h .success)

/-- The commands of a submission queue that is deleted: those that may be squashed end, the others run on with their completions discarded
(PRESUMED from the NVMe base specification; log entry 6). -/
def State.endQueue (s : State) (ctrl qid : Nat) : State :=
  s.each (s.ctxIds fun x => x.hdr.ctrl == ctrl && x.hdr.sqid == qid && !x.hdr.mc) fun c s => match s.ctxAt c with
    | none => s
    | some x => if x.drains then s.setCtx c (some { x with discard := true, deadline := none })
      else ((s.unhold x c).dropJobsOf c).finish c .sqDeleted

/-- DELETE_IO_QUEUE (R229, R304): its contexts return. -/
def execDeleteIoQueue (h : Hdr) (qid : Nat) (isCq : Bool) (s : State) : Host.Outcome State Fault Refusal :=
  .next (s.admin ruleAny h fun s =>
    let q := queueKey h.ctrl qid
    if 256 ≤ h.ctrl then s.complete h .invalidOpcode
    else if qid = 0 ∨ (if isCq then (s.cq q).depth else (s.sq q).depth) = 0 then s.complete h .invalidQueueId
    else if isCq then
      if s.sqs.any fun p => p.1 / 65536 == h.ctrl && p.1 % 65536 != 0 && p.2.cqid == qid then s.complete h .invalidQueueDeletion
      else (s.setCq q {}).complete h .success
    else ((s.endQueue h.ctrl qid).setSq q {}).complete h .success)

/-- The manager's controller and, in dual-port mode, PF1 have the rights that *Tenant rights* gives them (R363). -/
def State.isPf1 (s : State) (t : Nat) : Bool := s.power.dual && t == 1

/-- The power state descriptor of PS `i` at its place in Identify Controller (R309): MP in 0.01 W, the caps of PS0 to PS2 in force. -/
def State.powerDescriptor (s : State) (i : Nat) : List FieldVal :=
  let o := 2048 + 32 * i
  let mp := match i with
    | 0 => 10 * s.cfg .pwrCap 0 29 20
    | 1 => 10 * s.cfg .pwrCap 0 19 10
    | 2 => 10 * s.cfg .pwrCap 0 9 0
    | 3 => 600
    | _ => 90
  let (nops, en, ex) := if i = 3 then (2, 2000, 5000) else if i = 4 then (2, 50000, 400000) else (0, 0, 0)
  let rl := if i < 3 then 0 else i
  [⟨o, 2, mp⟩, ⟨o + 3, 1, nops⟩, ⟨o + 4, 4, en⟩, ⟨o + 8, 4, ex⟩, ⟨o + 12, 1, i⟩, ⟨o + 13, 1, rl⟩, ⟨o + 14, 1, i⟩, ⟨o + 15, 1, rl⟩]

/-- OACS by tenant (*Identify Controller values*). -/
def State.oacs (s : State) (t : Nat) : Nat := if t = 0 then 0x00EA else if s.isPf1 t then 0x00A2 else 0x0022

/-- Endurance groups by identifier: 1 + pool; the shared pool and each dedicated lane set form one (R99). -/
def State.groupPools (s : State) : List Nat := (0 :: s.sets.map fun p => p.2.pool).eraseDups

/-- The highest endurance group identifier. -/
def State.lastGroup (s : State) : Nat := 1 + s.groupPools.foldl max 0

/-- Identify Controller (R306, R307, R309, R327). The serial and model numbers, firmware revision, IEEE OUI, subsystem IDs and capacity follow
from configuration records: free values. -/
def State.identifyController (s : State) (c : Nat) : List FieldVal × State :=
  let t := s.tenantOf c
  let (ssvid, s) := s.draw
  let (sn, s) := s.draw
  let (oui, s) := s.draw
  let (cap, s) := s.draw
  let (nqn, s) := s.nqnField t
  let fabric : List FieldVal := if c < 256 then [] else [⟨514, 2, 4096⟩, ⟨1792, 4, 260⟩, ⟨1796, 4, 1⟩, ⟨1800, 2, 0⟩, ⟨1803, 1, 1⟩]
  ([⟨0, 2, 0x1F3B⟩, ⟨2, 2, ssvid % 65536⟩, ⟨4, 68, sn % 256 ^ 68⟩, ⟨73, 3, oui % 2 ^ 24⟩, ⟨76, 1, if s.power.dual then 7 else 6⟩, ⟨77, 1, 8⟩,
    ⟨78, 2, c⟩, ⟨80, 4, 0x00020100⟩, ⟨84, 4, 2000000⟩, ⟨88, 4, 500000⟩, ⟨92, 4, 0x08000100⟩, ⟨96, 4, 0x00080011⟩,
    ⟨111, 1, if (s.ctrl c).discovery then 2 else 1⟩, ⟨256, 2, s.oacs t⟩, ⟨258, 1, 7⟩, ⟨259, 1, 15⟩, ⟨260, 1, 3⟩, ⟨262, 1, 63⟩, ⟨263, 1, 4⟩,
    ⟨265, 1, bit (t == 0)⟩, ⟨266, 2, 358⟩, ⟨268, 2, 383⟩, ⟨280, 16, cap % 2 ^ 128⟩, ⟨328, 4, if t = 0 then 3 else 0⟩, ⟨340, 2, s.lastGroup⟩, ⟨512, 1, 0x66⟩,
    ⟨513, 1, 0x44⟩, ⟨516, 4, 4096⟩, ⟨520, 2, 0x015D⟩, ⟨524, 1, 4⟩, ⟨536, 4, 1⟩, ⟨540, 4, 4096⟩, { nqn with off := 768 },
    ⟨3072, 1, t⟩, ⟨3073, 1, bit (t == 0) + 2 * bit (s.isPf1 t)⟩, ⟨3074, 1, s.units⟩] ++ fabric ++
   (List.range 5).flatMap s.powerDescriptor, s)

/-- The namespaces attached to a controller, ascending (R364). -/
def State.attached (s : State) (c : Nat) : List Nat := s.nsOf fun n => n.tenant == s.tenantOf c && !n.detached.contains c

/-- Identify Namespace: size, capacity, the three LBA formats and the packed-zone attribute (R59, R63, R98, R238); an inactive one is zeros. NUSE is a free value. -/
def State.identifyNs (s : State) (nsid : Nat) : List FieldVal × State :=
  let n := s.ns nsid
  let (v, s) := s.draw
  let formats : List FieldVal := (List.range 3).flatMap fun i => [⟨128 + 4 * i, 2, 8 * i⟩, ⟨130 + 4 * i, 1, 12⟩]
  ([⟨0, 8, n.limit⟩, ⟨8, 8, if n.zoned then n.units * s.zcap else n.lbas⟩, ⟨16, 8, v % 2 ^ 64⟩, ⟨25, 1, 2⟩,
    ⟨26, 1, n.lbaf + (if n.lbaf = 0 then 0 else 16)⟩, ⟨27, 1, 1⟩, ⟨33, 1, 0x09⟩, ⟨102, 2, 1 + n.pool⟩, ⟨3072, 1, bit n.packed⟩] ++ formats, s)

/-- Zoned Identify Namespace (R58-R60, R83): active excursions and reads across zone boundaries, MAR and MOR of the tenant's limit, FRL. A limit of 0 has no
limit minus 1: 0 is reported (DESIGN CHOICE, log entry 187). -/
def State.identifyZoned (s : State) (nsid : Nat) : List FieldVal :=
  let l := (s.tenant (s.ns nsid).tenant).lim
  let most := l.zoneFloor + l.zoneShare - 1
  [⟨0, 2, 2⟩, ⟨2, 2, 1⟩, ⟨4, 4, most⟩, ⟨8, 4, most⟩, ⟨16, 4, 3600 * s.cfg .chipZonePolicy 0 31 24⟩] ++ (List.range 3).map fun i => (⟨2816 + 16 * i, 8, zsze⟩ : FieldVal)

/-- A list of 4-byte identifiers. -/
def idList (l : List Nat) : List FieldVal := ((l.take 1024).zip (List.range 1024)).map fun p => ⟨4 * p.2, 4, p.1⟩

/-- A list of controllers: the count, then 2-byte identifiers. -/
def ctrlList (l : List Nat) : List FieldVal := ⟨0, 2, l.length⟩ :: ((l.take 2047).zip (List.range 2047)).map fun p => ⟨2 + 2 * p.2, 2, p.1⟩

/-- The controllers of the subsystem: PCIe ones of functions that exist, and fabric ones. -/
def State.allCtrls (s : State) : List Nat :=
  ((List.range 256).filter s.functionExists) ++ (Tbl.numbers (fun k => k.present) s.ctrls).filter fun c => decide (256 ≤ c)

/-- Primary Controller Capabilities (R308). -/
def State.primaryCaps (s : State) (pf : Nat) : List FieldVal :=
  [⟨0, 2, pf⟩, ⟨2, 2, pf⟩, ⟨4, 1, 3⟩, ⟨32, 4, s.flexible false⟩, ⟨42, 2, 64⟩, ⟨44, 2, 4095⟩, ⟨64, 4, s.flexible true⟩, ⟨74, 2, 2048⟩, ⟨76, 2, 2048⟩]

/-- Secondary Controller List: the virtual functions of a physical function with their floors (R308). -/
def State.secondaryList (s : State) (pf : Nat) : List FieldVal :=
  let l := ((List.range 256).filter fun t => (s.functionOf t).1 == pf && (s.functionOf t).2 != 0 &&
    decide ((s.functionOf t).2 ≤ s.totalVfs pf)).take 127
  ⟨0, 1, l.length⟩ :: (l.zip (List.range 127)).flatMap fun p =>
    let o := 32 + 32 * p.2
    [⟨o, 2, p.1⟩, ⟨o + 2, 2, pf⟩, ⟨o + 4, 1, bit (s.ctrl p.1).en⟩, ⟨o + 8, 2, (s.functionOf p.1).2⟩,
     ⟨o + 10, 2, (s.tenant p.1).lim.sqFloor⟩, ⟨o + 12, 2, (s.tenant p.1).viFloor⟩]

/-- `n` bytes that the spec does not state (log entry 2). -/
def State.freeData (s : State) (n : Nat) : List FieldVal × State :=
  let (v, s) := s.draw
  ([⟨0, n, v % 256 ^ n⟩], s)

/-- The admin gate of Identify: CNS 0x01 stays served in the boot ROM admin subset, and by discovery controllers (R327, R494). -/
def ruleIdentify (cns : Nat) : AdminRule := ⟨true, true, true, cns == 1, false, cns == 1⟩

/-- The data of an Identify, none for a CNS value that it does not take. -/
def State.identifyData (s : State) (h : Hdr) (cns : Nat) : Option (List FieldVal) × State :=
  let t := s.tenantOf h.ctrl
  let pf := t == 0 || s.isPf1 t
  match cns with
  | 0x00 => let (d, s) := s.identifyNs (if (s.attached h.ctrl).contains h.nsid then h.nsid else 0); (some d, s)
  | 0x01 => let (d, s) := s.identifyController h.ctrl; (some d, s)
  | 0x02 => (some (idList ((s.attached h.ctrl).filter fun n => decide (h.nsid < n))), s)
  | 0x05 => if (s.ns h.nsid).zoned && (s.attached h.ctrl).contains h.nsid then (some (s.identifyZoned h.nsid), s)
    else let (d, s) := s.freeData 4096; (some d, s)
  | 0x06 => (some [⟨0, 1, 8⟩], s)
  | 0x10 => if t = 0 then (some (idList ((s.nsOf fun _ => true).filter fun n => decide (h.nsid < n))), s) else (none, s)
  | 0x11 => if t = 0 then let (d, s) := s.identifyNs h.nsid; (some d, s) else (none, s)
  | 0x12 => if t = 0 then (some (ctrlList (s.allCtrls.filter fun c => (s.attached c).contains h.nsid)), s) else (none, s)
  | 0x13 => if t = 0 then (some (ctrlList s.allCtrls), s) else (none, s)
  | 0x14 => if pf then (some (s.primaryCaps t), s) else (none, s)
  | 0x15 => if pf then (some (s.secondaryList t), s) else (none, s)
  | 0x03 | 0x07 | 0x08 | 0x1C => let (d, s) := s.freeData 4096; (some d, s)
  | _ => (none, s)

/-- IDENTIFY (R306-R309, R327, R494). -/
def execIdentify (h : Hdr) (cns : Nat) (s : State) : Host.Outcome State Fault Refusal :=
  .next (s.admin (ruleIdentify cns) h fun s =>
    match s.identifyData h cns with
    | (none, s) => s.complete h .invalidField
    | (some d, s) =>
      if cns = 0 ∧ (h.nsid = 0 ∨ (4096 < h.nsid ∧ h.nsid ≠ 0xFFFFFFFF)) then s.complete h .invalidNamespace
      else s.completeWith h .success 0 0 d)

/-- The Changed Zone List: up to 511 identifiers, more are reported as FFFFh (R58). -/
def changedZones (l : List Nat) : List FieldVal :=
  if 511 < l.length then [⟨0, 2, 0xFFFF⟩]
  else ⟨0, 2, l.length⟩ :: (l.zip (List.range 511)).map fun p => ⟨8 + 8 * p.2, 8, p.1 * zsze⟩

/-- The highest valid reading of a range of sensors as whole kelvin, rounded up; 0 without one (R514). -/
def State.kelvin (s : State) (p : Nat → Bool) : Nat :=
  match ((List.range 56).filter fun i => p i && s.sensorValid i).map fun i => (s.sensor i).temp with
  | [] => 0
  | t :: ts => ((ts.foldl max t * 100 + 27315 * 16 + 1599) / 1600).toNat

/-- Composite temperature and temperature sensors 1 to 3 (R514). -/
def State.temperature (s : State) (k : Nat) : Nat :=
  match k with
  | 0 => s.kelvin fun i => s.sensEn i && s.sensBand i
  | 1 => s.kelvin onDie
  | 2 => s.kelvin fun i => decide (i < 16)
  | _ => s.kelvin fun i => decide (16 ≤ i ∧ i < 24)

/-- A threshold in force: until one is set, WCTEMP over the composite temperature and none elsewhere (PRESUMED; log entry 6). -/
def State.threshold (s : State) (sensor : Nat) (under : Bool) : Nat :=
  match Tbl.look 0 s.power.thresholds (2 * sensor + bit under) with
  | 0 => if under then 0 else if sensor = 0 then 358 else 0xFFFF
  | k + 1 => k

/-- Critical Warning bit 1 (R515). -/
def State.tempWarning (s : State) : Bool :=
  s.aon.trip || (List.range 4).any fun k =>
    s.temperature k != 0 && (decide (s.threshold k false ≤ s.temperature k) || decide (s.temperature k ≤ s.threshold k true))

/-- SMART / Health Information (R514, R515); its counters are free values. -/
def State.smartLog (s : State) : List FieldVal × State :=
  let (v, s) := s.draw
  let (w, s) := s.draw
  ([⟨0, 1, 2 * bit s.tempWarning⟩, ⟨1, 2, s.temperature 0⟩, ⟨3, 197, v % 256 ^ 197⟩, ⟨200, 2, s.temperature 1⟩, ⟨202, 2, s.temperature 2⟩,
    ⟨204, 2, s.temperature 3⟩, ⟨206, 306, w % 256 ^ 306⟩], s)

/-- Sanitize Status: progress in 1/65,536 of the die blocks erased, and how the last one ended (R289). -/
def State.sanitizeLog (s : State) : List FieldVal :=
  let n := s.store.sanitizeTotal
  let done := n - s.sanitizeLeft
  [⟨0, 2, if s.store.sanitize = 2 ∧ n ≠ 0 then min 65535 (65536 * done / n) else 65535⟩, ⟨2, 2, s.store.sanitize⟩]

/-- Admin opcodes that a controller supports, and I/O opcodes of the device (R58, R306, R314): the vendor commands with their rights. -/
def State.adminOpcodes (s : State) (t : Nat) : List Nat :=
  [0x00, 0x01, 0x02, 0x04, 0x05, 0x06, 0x08, 0x09, 0x0A, 0x0C, 0x19, 0x1A, 0x80, 0xC0, 0xC2] ++ (if s.hasFabric then [0xD0, 0xD1] else []) ++
  (if t = 0 then [0x0D, 0x15, 0x1C, 0x1D, 0x1E, 0x84, 0xC1, 0xC4, 0xC5, 0xC6, 0xC8, 0xC9, 0xCA, 0xCB, 0xCC, 0xCD] else []) ++
  if s.isPf1 t then [0x1C] else []
def State.ioOpcodes (s : State) : List Nat :=
  [0x00, 0x01, 0x02, 0x05, 0x08, 0x09, 0x19, 0x79, 0x7A, 0x7D] ++ if s.hasCompression then [0x81, 0x82] else []

/-- Commands Supported and Effects (R314): bit 0 of each supported command; its other effects are free values. -/
def State.effectsLog (s : State) (t : Nat) : List FieldVal × State :=
  let (v, s) := s.draw
  (((s.adminOpcodes t).map fun o => (⟨4 * o, 4, 1 + 2 * (v / 2 ^ o % 2 ^ 31)⟩ : FieldVal)) ++
    s.ioOpcodes.map fun o => (⟨1024 + 4 * o, 4, 1 + 2 * (v / 2 ^ (256 + o) % 2 ^ 31)⟩ : FieldVal), s)

/-- The FDP configuration of an endurance group (R99): one, of index 0, with 16 handles of type Initially Isolated. -/
def State.fdpConfig (s : State) (pool : Nat) : List FieldVal :=
  [⟨0, 2, 0⟩, ⟨4, 4, 144⟩, ⟨16, 2, 128⟩, ⟨18, 1, 128 + s.rgif pool⟩, ⟨20, 4, s.nrg pool⟩, ⟨24, 2, 16⟩, ⟨26, 2, 15⟩, ⟨32, 8, 4096 * s.zcap⟩] ++
  (List.range 16).map fun i => (⟨80 + 4 * i, 1, 1⟩ : FieldVal)

/-- Reclaim unit handle usage (R99): a host uses a handle through the conventional namespaces of the endurance group, each with up to 16. -/
def State.fdpUsage (s : State) (pool : Nat) : List FieldVal :=
  let used := s.nss.any fun p => p.2.present && !p.2.zoned && p.2.pool == pool
  ⟨0, 2, 16⟩ :: (List.range 16).map fun i => ⟨8 + 8 * i, 1, bit used⟩

/-- The FDP events of an endurance group (R99). -/
def State.fdpLog (s : State) (pool : Nat) : List FieldVal :=
  let es := s.store.fdpEvents.filter fun e => (s.ns e.2.1).pool == pool
  ⟨0, 4, es.length⟩ :: (es.zip (List.range es.length)).flatMap fun p =>
    [⟨64 + 64 * p.2, 1, p.1.1⟩, ⟨68 + 64 * p.2, 8, p.1.2.2.2⟩, ⟨76 + 64 * p.2, 4, p.1.2.1⟩]

/-- A log page of an endurance group: its information, FDP configurations, handle usage, statistics and events (R99). The counters of the first and the fourth
are free values; the layouts are PRESUMED (log entry 186). -/
def State.groupLog (s : State) (pool lid : Nat) : List FieldVal × State :=
  match lid with
  | 0x20 => (s.fdpConfig pool, s)
  | 0x21 => (s.fdpUsage pool, s)
  | 0x23 => (s.fdpLog pool, s)
  | _ => s.freeData (if lid = 0x09 then 512 else 64)

/-- The data of a log page with the state after it is read; none for a page that is not kept (R58, R289, R306, R314, R327, R494). -/
def State.logPage (s : State) (h : Hdr) (lid lsi : Nat) : Option (List FieldVal) × State :=
  let free := fun (n : Nat) => let (d, s) := s.freeData n; (some d, s)
  match lid with
  | 0x01 => free 4096
  | 0x02 => let (d, s) := s.smartLog; (some d, s)
  | 0x03 =>
    let (v, s) := s.draw
    (some [⟨0, 1, 1⟩, ⟨8, 8, v % 2 ^ 64⟩], s)
  | 0x05 => let (d, s) := s.effectsLog (s.tenantOf h.ctrl); (some d, s)
  | 0x00 | 0x04 => free 4096
  | 0x09 | 0x20 | 0x21 | 0x22 | 0x23 =>
    if lsi ≠ 0 ∧ s.groupPools.contains (lsi - 1) then let (d, s) := s.groupLog (lsi - 1) lid; (some d, s) else (none, s)
  | 0x70 => if (s.ctrl h.ctrl).discovery then free 4096 else (none, s)
  | 0x81 => if s.tenantOf h.ctrl = 0 then (some s.sanitizeLog, s) else (none, s)
  | 0xBF =>
    if (s.attached h.ctrl).contains h.nsid && (s.ns h.nsid).zoned then
      (some (changedZones (s.ns h.nsid).changed), s.updNs h.nsid fun n => { n with changed := [] })
    else (none, s)
  | _ => (none, s)

/-- The admin gate of Get Log Page: the Error Information and Firmware Slot logs are in the boot ROM admin subset (R494). -/
def ruleLogPage (lid : Nat) : AdminRule := ⟨true, true, true, lid == 1 || lid == 3, false, lid == 0x70⟩

/-- GET_LOG_PAGE. -/
def execGetLogPage (h : Hdr) (page : LogPage) (s : State) : Host.Outcome State Fault Refusal :=
  .next (s.admin (ruleLogPage page.lid) h fun s =>
    match s.logPage h page.lid page.lsi with
    | (none, s) => s.complete h .invalidField
    | (some d, s) => s.completeWith h .success 0 0 d)

/-- The admin gate of commands of the boot ROM admin subset that every tenant sends (R494). -/
def ruleSubset : AdminRule := ⟨true, true, true, true, false, true⟩

/-- The power state that Get Features reports: PS1 while PS0 waits for the Sprint grant (R311). -/
def State.reportedPs (s : State) : Nat := if s.power.ps = 0 ∧ s.power.mode ≠ .sprint then 1 else s.power.ps

/-- DW0 of Get Features (R310, R311, R318, R515): stated for the features that the device keeps; a free value for the standard ones that the
spec leaves to the host; none for identifiers that are no feature. -/
def State.featureDw0 (s : State) (h : Hdr) (fid : Nat) : Option (Nat × List FieldVal) × State :=
  match fid with
  | 0x02 => (some (s.reportedPs, []), s)
  | 0x04 => (some (s.threshold 0 false, []), s)
  | 0x05 => (some (65536 * bit (s.ctrl h.ctrl).dulbe, []), s)
  | 0x0C =>
    let (on, ms, target) := s.power.apst
    let word := 8 * target + 256 * (ms % 2 ^ 24)
    (some (bit on, (List.range 5).map fun i => ⟨8 * i, 8, if i < target then word else 0⟩), s)
  | 0x16 => (some (0, [⟨0, 1, bit (s.ctrl h.ctrl).acre⟩]), s)
  | 0x01 | 0x07 | 0x08 | 0x09 | 0x0A | 0x0B | 0x0E | 0x0F | 0x18 | 0x1D | 0x1E | 0x78 =>
    let (v, s) := s.draw
    (some (v % 2 ^ 32, []), s)
  | _ => (none, s)

/-- GET_FEATURES. -/
def execGetFeatures (h : Hdr) (fid : Nat) (s : State) : Host.Outcome State Fault Refusal :=
  .next (s.admin ruleSubset h fun s =>
    match s.featureDw0 h fid with
    | (none, s) => s.complete h .invalidField
    | (some (w, d), s) => s.completeWith h .success w 0 d)

/-- A Set Features that tenant 0 alone may send (R310, R515): elsewhere Feature Not Changeable. -/
def State.managerFeature (s : State) (h : Hdr) (run : State → State) : State :=
  if s.tenantOf h.ctrl ≠ 0 then s.complete h .featureNotChangeable else run s

/-- SET_FEATURES, Power Management (R310, R311, R423, R434). -/
def execSetFeaturesPower (h : Hdr) (ps : Nat) (s : State) : Host.Outcome State Fault Refusal :=
  .next (s.admin ruleAny h fun s => s.managerFeature h fun s =>
    if 4 < ps then s.complete h .invalidField
    else match s.selectPs ps (if h.mc then 3 else 1) with
      | (some reason, s) => s.completeWith h .sequenceError reason 0 []
      | (none, s) => s.complete h .success)

/-- SET_FEATURES, Autonomous Power State Transition (R310, R312): only PS3 and PS4 are targets. -/
def execSetFeaturesApst (h : Hdr) (enable : Bool) (idleMs target : Nat) (s : State) : Host.Outcome State Fault Refusal :=
  .next (s.admin ruleAny h fun s => s.managerFeature h fun s =>
    if enable ∧ target ≠ 3 ∧ target ≠ 4 then s.complete h .invalidField
    else (s.onPower fun p => { p with apst := (enable, idleMs, target) }).complete h .success)

/-- SET_FEATURES, Temperature Threshold (R515): composite temperature and sensors 1 to 3. -/
def execSetFeaturesTempThreshold (h : Hdr) (sensor : Nat) (under : Bool) (kelvin : Nat) (s : State) : Host.Outcome State Fault Refusal :=
  .next (s.admin ruleAny h fun s => s.managerFeature h fun s =>
    if 3 < sensor then s.complete h .invalidField
    else (s.onPower fun p => { p with thresholds := Tbl.put 0 p.thresholds (2 * sensor + bit under) (kelvin % 65536 + 1) }).complete h .success)

/-- SET_FEATURES, Host Behavior Support: ACRE of the controller (R318). -/
def execSetFeaturesHostBehavior (h : Hdr) (acre : Bool) (s : State) : Host.Outcome State Fault Refusal :=
  .next (s.admin ruleAny h fun s => (s.updCtrl h.ctrl fun k => { k with acre := acre }).complete h .success)

/-- The context of a command that an Abort names. -/
def State.ctxNamed (s : State) (ctrl sqid cid : Nat) : Option Nat :=
  (s.ctxIds fun x => x.hdr.ctrl == ctrl && x.hdr.sqid == sqid && x.hdr.cid == cid && !x.hdr.mc).head?

/-- ABORT: a command that has no effect yet, or an event request, ends with Command Abort Requested, and DW0 is 0; otherwise bit 0 of DW0 says
that nothing was aborted (PRESUMED from the NVMe base specification; log entry 6). -/
def execAbortCmd (h : Hdr) (sqid cid : Nat) (s : State) : Host.Outcome State Fault Refusal :=
  .next (s.admin ruleSubset h fun s =>
    let k := s.ctrl h.ctrl
    let miss := fun (s : State) => s.completeWith h .success 1 0 []
    if sqid = 0 then
      if k.aers.contains cid then
        ((s.setCtrl h.ctrl { k with aers := k.aers.filter (· != cid) }).complete { ctrl := h.ctrl, sqid := 0, cid := cid, nsid := 0, mc := false } .abortRequested).complete h .success
      else miss s
    else match s.ctxNamed h.ctrl sqid cid with
      | none => miss s
      | some c => match s.ctxAt c with
        | none => miss s
        | some x => if x.drains then miss s
          else (((s.unhold x c).dropJobsOf c).finish c .abortRequested).complete h .success)

/-- ASYNC_EVENT_REQUEST: held until an event; 16 may be outstanding (AERL 15). -/
def execAsyncEventRequest (h : Hdr) (s : State) : Host.Outcome State Fault Refusal :=
  .next (s.admin ruleSubset h fun s =>
    let k := s.ctrl h.ctrl
    if h.mc then s.complete h .invalidOpcode
    else if 16 ≤ k.aers.length then s.complete h .aerLimit
    else match k.events with
      | [] => s.setCtrl h.ctrl { k with aers := k.aers ++ [h.cid] }
      | n :: rest =>
        let (v, s) := s.draw
        (s.setCtrl h.ctrl { k with events := rest }).completeWith h .success (n.dw0 v) 0 [])

/-- A response to the management controller with data that the spec does not state (log entry 2). -/
def State.replyFree (s : State) : State :=
  let (v, s) := s.draw
  s.reply (.ok [BitVec.ofNat 32 v])

/-- A response whose data describe the device: free data, and the units of CHIP_CAPS.UNITS whose features they advertise, none of an absent one (R6; log entry 193). -/
def State.replyUnits (s : State) : State :=
  let (v, s) := s.draw
  let (u, s) := s.draw
  s.reply (.ok [BitVec.ofNat 32 v, BitVec.ofNat 32 (u &&& s.units)])

/-- The SPDM request codes of R322: GET_DIGESTS, GET_CERTIFICATE, CHALLENGE, GET_VERSION, GET_MEASUREMENTS, GET_CAPABILITIES and
NEGOTIATE_ALGORITHMS, with the codes of the SPDM specification (PRESUMED; log entry 6). -/
def spdmServed (code : Nat) : Bool := [0x81, 0x82, 0x83, 0x84, 0xE0, 0xE1, 0xE3].contains code

/-- An MCTP message served with the management controller's rights (R310, R319-R322). -/
def State.serveMctp (s : State) (msg : MctpMsg) : State :=
  match msg with
  | .readDataStructure | .configuration => s.replyUnits
  | .control | .subsystemHealth | .controllerHealth | .vpd => s.replyFree
  | .setPower ps =>
    if 4 < ps then s.reply .invalidParameter
    else match s.selectPs ps 3 with
      | (some _, s) => s.reply .refused
      | (none, s) => s.reply (.ok [])
  | .spdm code => if code = 0xE0 then s.replyUnits else if spdmServed code then s.replyFree else s.reply .invalidOpcode
  | .unsupported => s.reply .invalidOpcode

/-- MCTP_MESSAGE (R319-R322, R430): a VDM is refused while VDM_EN is 0; in Calm the matching packet is NAKed and wakes the device. -/
def execMctpMessage (medium : MctpMedium) (msg : MctpMsg) (s : State) : Host.Outcome State Fault Refusal :=
  .next (match medium with
    | .management =>
      if s.power.mode = .calm ∧ s.released then (s.reply .nak).noteWake 4 0xFFFF
      else if s.servesMc then s.serveMctp msg else s
    | .vdm port =>
      if !s.pcieOn || !(s.link port).up || !s.servesMc then s
      else if s.cfgBit .chipMiCfg 0 31 then s.serveMctp msg else s.reply .refused)

end Sys2Proof.Machine
end

