-- ==== Sys2Proof/Machine/RegView.lean ====
section
/-! DEFINITION. What each register of the management window reads as (R22, R561, R562, R570): its writable fields with the values in force or
pending, and its read-only fields from the state. -/

namespace Sys2Proof.Machine

/-- The code of DMC_STAT.STATE. -/
def ChanSt.code : ChanSt → Nat
  | .off => 0
  | .training => 1
  | .active => 2
  | .selfRefresh => 3
  | .frozen => 4
  | .retraining => 5
  | .resync => 6
  | .retired => 7

/-- The code of BST_BANK.STATE. -/
def BankSt.code : BankSt → Nat
  | .empty => 0
  | .staging => 1
  | .valid => 2
  | .invalid => 3

/-- A number whose bit `i` of the first `n` is what `f` says of `i`. -/
def bitsWhere (n : Nat) (f : Nat → Bool) : Nat := (List.range n).foldl (fun a i => if f i then a + 2 ^ i else a) 0

/-- The tenant that holds the lane set of lane group `q`: some group word is DEDICATED to a set, and a tenant holds that set (R95, R97). -/
def State.lanesetOwner (s : State) (q : Nat) : Option Nat :=
  if s.cfgBit .chipLanesetOwner q 31 then
    s.heldSlots.find? fun t => (s.tenant t).laneset && (s.tenant t).setId == s.cfg .chipLanesetOwner q 15 8
  else none

/-- Read-only fields of the registers of files 00 to 05. -/
def State.viewMedia (s : State) (r : Reg) (i : Nat) : List (Nat × Nat × Nat) :=
  match r with
  | .chipCaps => [(31, 24, s.step), (23, 20, s.variant), (7, 4, s.units)]
  | .chipWarmup => [(31, 31, bit s.inHold), (23, 16, if s.inHold then s.holdReason else 0), (12, 0, s.power.stepDone.toNat)]
  | .chipAccessStat => [(31, 16, s.regs.unimpl), (15, 0, s.regs.denied)]
  | .chipAccessLast => [(31, 28, s.regs.lastParty), (27, 0, s.regs.lastOffset)]
  | .chipTntReady => [(31, 0, bitsWhere 32 fun b => (s.tenant (32 * i + b)).ready)]
  | .chipZoneRearm =>
    let waiting := Tbl.count (fun z => z.rearm == 1) s.zones
    let active := Tbl.count (fun z => z.rearm == 2) s.zones
    [(31, 15, waiting), (14, 8, active), (0, 0, bit (s.stepComplete 12 && waiting + active == 0))]
  | .chipLanesetOwner =>
    let owner := s.lanesetOwner i
    [(30, 30, bit owner.isSome), (29, 29, bit (s.stepComplete 4 && (lanesOfGroup i).any fun l => !s.populated l)), (7, 0, owner.getD 0)]
  | .chipRaCfg => [(31, 20, s.raCap)]
  | .chipPatrolStat => [(31, 16, s.store.patrolPasses), (15, 0, s.store.patrolProgress)]
  | .cmpStat =>
    [(27, 24, (s.rgn i).cmpIn.toNat), (23, 20, s.cmpBusy i), (19, 19, bit (s.rgn i).cmpPartner),
     (14, 0, Tbl.count (fun z => z.parcel.any fun p => p.engine / 4 == i) s.zones)]
  | .cmpGran => [(31, 0, satTo 32 ((s.rgn i).granules / 1024))]
  | .cmpSlice => [(31, 0, satTo 32 ((s.rgn i).slices / 1024))]
  | .tntRaStat => [(31, 16, twosOf 16 (s.raNow i).1), (15, 0, (s.tenant i).raOver)]
  | _ => []

/-- Read-only fields of the registers of files 06 to 10. -/
def State.viewHost (s : State) (r : Reg) (i : Nat) : List (Nat × Nat × Nat) :=
  match r with
  | .tmkStat => [(31, 31, bit s.tmk.inForce), (26, 24, s.tmk.band)]
  | .tmkBoundA => (s.tmk.sets[i]?.map fun b => [(31, 16, b.dashRdPcie), (15, 0, b.dashWrPcie)]).getD []
  | .tmkBoundB => (s.tmk.sets[i]?.map fun b => [(31, 16, b.tempoPcie / 100), (15, 0, b.distPcie / 1000)]).getD []
  | .tmkBreach => [(31, 16, Tbl.look 0 s.tmk.unexcused i), (15, 0, Tbl.look 0 s.tmk.excused i)]
  | .tmkDecline => [(31, 0, Tbl.look 0 s.tmk.declines i)]
  | .tmkCtx => [(18, 0, s.sqs.foldl (fun n p => n + p.2.depth) 0)]
  | .cphStat => [(31, 31, bit s.cph.alarm), (30, 30, bit s.cph.keysReady), (29, 29, bit s.cph.drbgOk), (12, 0, s.slotsBound)]
  | .cphAlarmStat => [(31, 31, bit s.cph.alarm), (30, 30, bit s.cph.seedsErased), (4, 0, s.cph.fired.toNat)]
  | .cphEngStat => [(31, 0, s.cph.engines.toNat)]
  | .cphEngPartner => [(31, 0, s.cph.partner.toNat)]
  | .cphPageOwner =>
    let owner := if s.stepComplete 10 then Tbl.look 0 s.cph.pages i else 0
    if owner = 0 then [] else [(31, 31, 1), (23, 8, bitsWhere 16 fun k => s.slotBound (16 * i + k)), (7, 0, owner - 1)]
  | .chipPcieCfg => [(31, 31, bit s.power.dual)]
  | .chipPcieStat =>
    let l := s.link i
    [(31, 31, bit l.up), (30, 28, if l.up then l.rate else 0), (27, 23, l.width), (22, 22, bit l.flit), (21, 20, l.pwr), (15, 8, l.recov),
     (7, 0, l.downs)]
  | .fabPortStat =>
    let p := s.port i
    [(31, 31, bit p.up), (30, 30, bit p.dist), (29, 29, bit p.hold), (23, 16, p.downs), (15, 0, p.drops)]
  | .fabFecCorr => [(31, 0, (s.port i).fecCorr)]
  | .fabFecUncorr => [(31, 0, (s.port i).fecUncorr)]
  | .fabCtxStat => [(29, 17, s.pinnedConns), (16, 0, (s.connsWhere fun _ => true).length)]
  | .winStat => [(14, 0, Tbl.count (fun w => w.up) s.fab.windows)]
  | .winPages => [(17, 0, s.fab.cache.length)]
  | .winFaults => [(31, 0, s.fab.faults)]
  | .winTimeouts => [(31, 0, s.fab.timeouts)]
  | .fabPd => if s.stepComplete 10 then [(23, 16, Tbl.look 0 s.fab.pdOwner i - 1)] else []
  | _ => []

/-- Read-only fields of the registers of files 12 and 13. -/
def State.viewPower (s : State) (r : Reg) (i : Nat) : List (Nat × Nat × Nat) :=
  match r with
  | .batonStat => [(31, 16, s.broker.budget), (15, 0, s.broker.outstanding)]
  | .batonWait => [(31, 16, satTo 16 s.broker.wait), (15, 0, satTo 16 s.broker.waiting.length)]
  | .pwrHuStat =>
    [(31, 31, bit s.aon.pfdGood), (30, 30, bit s.bank.charging), (29, 29, bit s.aon.isoLow), (28, 28, bit s.aon.bfiLow),
     (27, 27, bit s.aon.holdHigh), (26, 26, bit s.bank.overSince.isSome), (25, 25, bit s.bank.ceilTrip), (24, 24, bit s.bank.cLow),
     (23, 23, bit s.bank.fault), (15, 0, satTo 16 (s.bank.eUsable / 1000000))]
  | .pwrHuDmax => [(23, 0, satTo 24 s.bank.dmax)]
  | .pwrHuMeas => [(31, 16, satTo 16 s.bank.lowMv), (15, 0, satTo 16 (s.bank.cEst.getD 0))]
  | .pwrHuLast => [(31, 16, satTo 16 s.bank.used), (15, 0, satTo 16 s.bank.pred)]
  | .pwrMode =>
    [(31, 28, s.power.mode.code), (27, 24, s.power.resume.code), (23, 23, bit s.power.entry.isSome),
     (22, 20, (s.power.entry.map (·.step)).getD 0), (18, 16, s.power.ps)]
  | .pwrSprint => [(31, 31, bit s.power.grant), (29, 29, bit s.power.granted), (15, 0, s.power.leaseMs)]
  | .pwrWakeStat => [(31, 16, s.power.wakeStat.1), (3, 0, s.power.wakeStat.2)]
  | .pwrDomainOn => [(31, 0, s.aon.domainOn.toNat / 2 ^ (32 * i))]
  | .pwrPadLatched => [(31, 0, s.aon.padLatched.toNat / 2 ^ (32 * i))]
  | .pwrRefuseLast => [(31, 16, s.power.refuseLast.1), (15, 8, s.power.refuseLast.2.1), (7, 4, s.power.refuseLast.2.2)]
  | .pwrEntryCnt => [(31, 16, s.power.refused), (15, 0, s.power.aborted)]
  | .pwrEdgeLost => [(31, 0, s.power.edgeLost)]
  | .pwrRefuseRsn => [(31, 0, Tbl.look 0 s.power.refuseRsn (i + 1))]
  | _ => []

/-- The RO fields of the block of loop `k` (*Loop block*): SRC, DEST, SCHED and the set-point in use of the loops that fix them. -/
def State.viewLoop (s : State) (r : Reg) (k : Nat) : List (Nat × Nat × Nat) :=
  let l := s.loop k
  match r with
  | .loopCfg => if k < 4 then [(31, 31, bit l.running), (29, 27, s.loopSrc k), (26, 24, s.loopDest k), (23, 22, s.loopSched k)] else []
  | .loopSp => if k < 3 then [(31, 0, twosOf 32 l.sp)] else []
  | .loopStat =>
    [(31, 31, bit l.gust), (30, 30, bit (l.holdLeft != 0)), (29, 29, bit l.intClamped), (28, 28, bit l.outClamped),
     (27, 27, bit l.ramping), (26, 24, if l.gust then 4 else l.region), (15, 0, l.gusts)]
  | .loopMeas => [(31, 0, twosOf 32 l.meas)]
  | .loopOut => [(31, 0, twosOf 32 l.out)]
  | _ => []

/-- Read-only fields of the registers of files 14 and 16. -/
def State.viewMemory (s : State) (r : Reg) (i : Nat) : List (Nat × Nat × Nat) :=
  match r with
  | .dmcClass => [(31, 0, Tbl.look 0 s.mem.classes (i + 1))]
  | .dmcStat =>
    let c := s.chan i
    [(31, 28, c.st.code), (27, 26, c.trefi), (23, 16, c.visits), (15, 12, c.frzClass)]
  | .dmcErr => [(31, 16, (s.chan i).ce), (15, 8, (s.chan i).ue), (7, 0, (s.chan i).freezes)]
  | .dmcFrzAddr => [(31, 0, (s.chan i).frzLine)]
  | .dmcRfm => [(31, 22, (s.chan i).raammt), (21, 14, (s.chan i).raaimt), (13, 0, (s.chan i).forced)]
  | .dmcFrzHist c j => if (s.chan c).frozen then [(31, 0, ((s.chan c).hist.getD i 0).toNat / 2 ^ (32 * j))] else []
  | .eccStat => [(31, 16, s.mem.eccCe), (15, 8, s.mem.eccUe), (7, 0, s.mem.moves)]
  | .eccBist =>
    [(31, 31, bit s.mem.bistDone), (30, 30, bit (s.mem.bistOut != 0)), (29, 16, s.mem.bistRows), (15, 8, s.mem.bistSpare),
     (7, 0, satTo 8 s.mem.bistOut)]
  | .bpmStat => [(31, 16, s.mem.leaks), (15, 8, s.mem.stale), (7, 0, s.mem.other)]
  | .bpmPool => [(31, 18, Tbl.look 0 s.mem.throttles (i + 1)), (17, 0, s.poolFree (i + 1))]
  | .bpmMisuse => let m := s.mem.misuse.getD i (0, 0); [(31, 16, m.1), (15, 0, m.2)]
  | .thmStat =>
    [(31, 31, bit s.aon.trip), (30, 28, s.aon.band), (27, 27, bit s.power.adcFail), (15, 0, bandTempField s.aon.bandTemp)]
  | .thmTrip => [(15, 8, s.aon.tripSource)]
  | .thmHead => [(31, 0, twosOf 32 s.aon.headroom)]
  | .hkStat => [(31, 16, s.aon.hkRounds), (15, 8, s.aon.hkDiscarded), (6, 0, s.aon.hkChannel)]
  | .thmRead =>
    let t := Tbl.look {} s.aon.sensors i
    [(31, 31, bit t.valid), (30, 30, bit t.broken), (29, 28, sensorFaultCode t.cause), (15, 0, twosOf 16 t.temp)]
  | _ => []

/-- Dword `j` of the record that an EVR_REC slot holds, 0 without one (R536). -/
def State.recordSlot (s : State) (slot j : Nat) : Nat :=
  ((s.evr.held.find? fun r => r.seq % recorderCapacity == slot).map fun r => r.dword j).getD 0

/-- The state of the roll as BST_ROLL shows it: the phase, 7 while rolling back; the block or region in it; the local cell. -/
def State.rollFields (s : State) : List (Nat × Nat × Nat) :=
  (15, 0, s.boot.rolls) ::
  match s.boot.roll with
  | none => []
  | some r =>
    let unit := if r.phase = 2 ∨ r.phase = 3 then r.unit else if r.phase = 4 then r.unit / 2 else 0
    [(31, 28, if r.back then 7 else r.phase), (26, 22, unit), (21, 17, if r.phase = 2 then r.cell else 0), (16, 16, bit r.inPlace)]

/-- Read-only fields of the registers of files 15, 17 and 18. -/
def State.viewBoot (s : State) (r : Reg) (i : Nat) : List (Nat × Nat × Nat) :=
  let b := s.boot
  match r with
  | .bstStat =>
    [(31, 31, b.booted), (30, 30, b.selector), (29, 29, b.lkgBank), (28, 28, bit b.lkgValid), (27, 27, b.lkgPair), (23, 16, b.poolLeft),
     (15, 8, satTo 8 b.remap.length)]
  | .bstBank => [(31, 30, (b.bank i).st.code), (27, 24, (b.bank i).cause)]
  | .bstBankSvn => [(31, 0, ((b.bank i).image.map (·.svn)).getD 0)]
  | .bstRoll => s.rollFields
  | .ldgStat =>
    [(31, 31, bit s.strictLedger), (30, 30, bit b.ledgerFull), (23, 12, if s.stepComplete 3 then b.ledgerFree else 0), (11, 0, b.seqNew - b.seqAck)]
  | .ldgSeqNew => [(31, 0, b.seqNew)]
  | .ldgSeqAck => [(31, 0, b.seqAck)]
  | .ldgMissed => [(31, 0, b.missed)]
  | .chipFault =>
    [(31, 30, if s.flt.stop ≠ 0 then 2 else bit s.flt.degraded), (29, 24, s.flt.stop), (15, 0, s.flt.lastSrc)]
  | .chipFaultCnt => [(31, 24, s.flt.handoffs), (23, 16, s.flt.restarts), (15, 8, s.flt.takeovers), (7, 0, s.flt.other)]
  | .evrHead => [(31, 0, s.aon.evrHead)]
  | .evrTail => [(31, 0, s.evrTail)]
  | .evrStat => [(31, 0, s.evrStat)]
  | .evrDropped => [(31, 0, s.aon.evrDropped)]
  | .evrLg j => [(31, 0, (s.aon.lastGasp[i]?.map fun r => r.dword j).getD 0)]
  | .evrRec j => [(31, 0, s.recordSlot i j)]
  | .chipGpioData => [(15, 0, s.aon.gpioIn.toNat)]
  | .chipSupplyStat => [(31, 28, s.aon.pg.toNat), (27, 27, bit s.power.avsOk), (23, 16, s.aon.pgDrops), (9, 0, s.power.vddc)]
  | .chipSupplyMon =>
    let m := Tbl.look {} s.aon.supplies i
    [(31, 31, bit m.valid), (30, 30, bit m.low), (29, 29, bit m.high), (15, 0, m.mv)]
  | _ => []

/-- The place of a TNT register in its block, as dword number. -/
def Reg.tenantDword (r : Reg) : Option Nat :=
  match r with
  | .tntState => some 0
  | .tntCtx => some 1
  | .tntRqp => some 2
  | .tntSq => some 3
  | .tntZone => some 4
  | .tntStg => some 5
  | .tntKeypg => some 6
  | .tntPd => some 7
  | .tntWin => some 8
  | .tntCache => some 9
  | .tntRfloor => some 10
  | .tntBaton => some 11
  | .tntCompat => some 12
  | .tntHold => some 13
  | .tntFabclass => some 14
  | .tntLogstat => some 15
  | _ => none

/-- Read-only fields of the registers of region and block spaces. -/
def State.viewUnits (s : State) (r : Reg) (i : Nat) : List (Nat × Nat × Nat) :=
  match r with
  | .rgnStat =>
    let g := s.rgn i
    [(31, 30, g.stewards.toNat), (29, 29, bit g.xbar), (28, 28, bit g.kdu),
     (16, 0, (s.sqs.filter fun p => p.1 % 65536 != 0 && p.2.region == i).length)]
  | .blkLaneSwitch => [(28, 24, (s.blk i).spareLane), (16, 0, (s.blk i).cellFailed.toNat)]
  | .blkDecStat =>
    let soft := fun d => s.work.decodes.any fun p => p.2.any fun j => j.block == i && j.soft && j.decoder == some d
    [(7, 4, bitsWhere 4 soft), (3, 0, (s.blk i).decIn.toNat)]
  | .laneStat =>
    let l := s.lane i
    [(31, 28, l.st.code), (27, 25, l.near), (24, 22, l.far), (21, 14, l.margin), (13, 6, l.dies.toNat), (5, 5, bit l.spare)]
  | .laneErrcnt => [(31, 16, (s.lane i).crcErr), (15, 8, (s.lane i).exhaust), (7, 0, (s.lane i).downs)]
  | .laneDieState => (List.range 8).map fun d => (4 * d + 3, 4 * d, (s.die (dieKey i d)).st.code)
  | .laneDieCnt => [(31, 16, (s.cntOf i).retired), (15, 8, (s.cntOf i).timeouts), (7, 0, (s.cntOf i).statusFail)]
  | _ => []

/-- The read-only fields of a register; a field that a register's group does not name reads 0. -/
def State.roFields (s : State) (r : Reg) (i : Nat) : List (Nat × Nat × Nat) :=
  s.viewMedia r i ++ s.viewHost r i ++ s.viewPower r i ++ s.viewLoop r i ++ s.viewMemory r i ++ s.viewBoot r i ++ s.viewUnits r i

/-- A register as it reads: the read-only fields, over the word of the writable ones in force. The TNT block shows its tenant once Warm-up
step 10 has restored the pools. -/
def State.regView (s : State) (r : Reg) (i : Nat) : Word :=
  match r.tenantDword with
  | some j => if s.stepComplete 10 then (s.tenantBlock i).getD j 0 else s.cfgWord r i
  | none => BitVec.ofNat 32 (packWord (s.roFields r i)) ||| s.cfgWord r i

/-- The dword at a window offset as it reads, pending RWLIVE values as written (R22, R565). -/
def State.readAt (s : State) (o : Nat) : Word :=
  match locate o with
  | .reg r i _ => if s.absent r then 0 else s.withPending.regView r i
  | .hole | .unimplemented => 0

end Sys2Proof.Machine
end

