-- ==== Sys2Proof/Machine/Registers.lean ====
section
/-! DEFINITION. Accesses to the management window (R560-R568): the manager's reads and writes through BAR2, the management controller's register
commands (R564), and the starter's release of latched pads (R429). -/

namespace Sys2Proof.Machine

/-- The window is served: the chip domain is on, Warm-up step 4 is complete, and the device is not in Calm, in Homestretch or off (R562). -/
def State.windowServed (s : State) : Bool :=
  s.running && s.stepComplete 4 && s.power.mode != .calm && s.power.mode != .homestretch && s.power.mode != .off

/-- One dword read by a party: an unimplemented offset reads 0 and is counted (R565). -/
def State.readDword (s : State) (party : Nat) (o : Nat) : Word × State :=
  (s.readAt o, match locate o with
    | .unimplemented => s.countUnimpl party o
    | .hole | .reg _ _ _ => s)

/-- `n` dwords read in ascending order of address (R563, R564). -/
def State.readDwords (s : State) (party : Nat) : Nat → Nat → List Word × State
  | _, 0 => ([], s)
  | o, n + 1 =>
    let (w, s) := s.readDword party o
    let (ws, s) := s.readDwords party (o + 4) n
    (w :: ws, s)

/-- The RWLIVE fields that a write of `v` may give a value. -/
def liveMask (fs : List Fld) (v : Word) : Word := fieldsMask (fs.filter fun f => f.acc == .rwlive && f.allows v)

/-- The fields of a register written by the manager (R22, R563, R567): those with an effect of their own have it at once, a field that names
another writer is denied, RWLIVE fields wait for a quiet point, and RO and RWL fields are left alone. -/
def State.writeReg (s : State) (r : Reg) (i : Nat) (fs : List Fld) (o : Nat) (v : Word) : State :=
  match r with
  | .fabPd => s.writePd i v
  | .fabAddr j => s.writeAddr i j v
  | .pwrSprint => (s.onPower fun p => { p with leaseMs := bitsOf v 15 0 }).countDenied 1 o
  | .pwrPadRelease => s.countDenied 1 o
  | .evrRelease => s.releaserWrite .manager o fun s => s.releaseRecords v.toNat
  | .evrLgClear => s.releaserWrite .manager o fun s => if hasBit v 0 then s.clearLastGasp else s
  | .laneCtrl => if hasBit v 31 then s.wantRecal i else s
  | .dmcCtrl =>
    let s := if hasBit v 31 then s.thaw i else s
    if hasBit v 30 then s.retrain i else s
  | .loopStat => if hasBit v 31 then s.clearGust i else s
  | .chipGpioData => s.setCfgAt o (mergeWord (s.cfgAt o) (maskOf 31 16) v)
  | _ => if liveMask fs v = 0 then s else s.pend o (liveMask fs v) v

/-- One dword written by the manager with its byte enables (R563, R565). -/
def State.writeDword (s : State) (o : Nat) (be : BitVec 4) (v : Word) : State :=
  match locate o with
  | .unimplemented => s.countUnimpl 1 o
  | .hole => s
  | .reg r i fs =>
    if s.absent r then s
    else if be ≠ 0xF then s.countDenied 1 o
    else s.writeReg r i fs o v

/-- A request of `n` dwords at `o` lies in the window and is aligned. -/
def inWindow (o n : Nat) : Bool := o % 4 == 0 && decide (1 ≤ n ∧ n ≤ 16 ∧ o + 4 * n ≤ 2 ^ 28)

/-- REGISTER_WRITE: the manager writes one dword through BAR2 (R563, R567). -/
def execRegisterWrite (offset : Nat) (be : BitVec 4) (value : BitVec 32) (s : State) : Host.Outcome State Fault Refusal :=
  .next (if s.windowServed && inWindow offset 1 then s.writeDword offset be value else s)

/-- MANAGER_REGISTER_READ: the manager reads 1 to 16 dwords through BAR2 (R563, R565). -/
def execManagerRegisterRead (offset dwords : Nat) (s : State) : Host.Outcome State Fault Refusal :=
  .next (
    if s.windowServed && inWindow offset dwords then
      let (ws, s) := s.readDwords 1 offset dwords
      s.onOut fun o => { o with reads := o.reads ++ [ws] }
    else s)

/-- PAD_RELEASE_WRITE: the starter releases the pads of domains that are on again; a bit of a domain that is off, or whose pads are not latched,
has no effect (R429). -/
def execPadReleaseWrite (word : Nat) (mask : BitVec 32) (s : State) : Host.Outcome State Fault Refusal :=
  .next (if s.running && decide (word < 2) then s.releasePads (BitVec.ofNat 64 (mask.toNat * 2 ^ (32 * word))) else s)

/-- MC_REGISTER_READ: NVMe-MI Register Read (R564). -/
def execMcRegisterRead (nmd0 nmd1 : BitVec 32) (s : State) : Host.Outcome State Fault Refusal :=
  .next (
    if !s.servesMc || !s.windowServed then s
    else
      let n := bitsOf nmd1 3 0 + 1
      if bitsOf nmd0 31 28 ≠ 0 ∨ bitsOf nmd1 31 4 ≠ 0 ∨ inWindow (bitsOf nmd0 27 0) n = false then s.reply .invalidParameter
      else
        let (ws, s) := s.readDwords 2 (bitsOf nmd0 27 0) n
        s.reply (.ok ws))

/-- MC_REGISTER_WRITE: NVMe-MI Register Write, which only PWR_SPRINT and, from the releaser, EVR_RELEASE and EVR_LG_CLEAR take (R564). -/
def execMcRegisterWrite (nmd0 nmd1 : BitVec 32) (s : State) : Host.Outcome State Fault Refusal :=
  .next (
    if !s.servesMc || !s.windowServed then s
    else if bitsOf nmd0 31 28 ≠ 0 ∨ inWindow (bitsOf nmd0 27 0) 1 = false then s.reply .invalidParameter
    else
      let o := bitsOf nmd0 27 0
      match locate o with
      | .reg .pwrSprint _ _ => (s.writeSprint nmd1).reply (.ok [])
      | .reg .evrRelease _ _ => s.releaserWrite .mgmtController o fun s => s.releaseRecords nmd1.toNat
      | .reg .evrLgClear _ _ => s.releaserWrite .mgmtController o fun s => if hasBit nmd1 0 then s.clearLastGasp else s
      | _ => s.reply .invalidParameter)

end Sys2Proof.Machine
end

