-- ==== Sys2Proof/Machine/Quiet.lean ====
section
/-! DEFINITION. The quiet point (R24, R222, R373, R486, R567): pending RWLIVE values, bundles, bound sets and share changes applied at once,
key pages given back, and tenants that become ready. -/

namespace Sys2Proof.Machine

/-- A quiet point is taken: in Warm-up after step 4, in Stride and in Sprint, by the active starter (R486). A bundle that waits behind the boot's
held ledger entry, which its own entry must follow, waits for it whole (R485, R490; DESIGN CHOICE, log entry 18). -/
def State.takesQuietPoint (s : State) : Bool :=
  (s.boot.heldEntry.isNone || s.boot.bundles == []) && s.running && s.stepComplete 4 && s.flt.pairsIn != 0 &&
  (s.power.mode == .warmup || s.power.mode == .stride || s.power.mode == .sprint)

/-- A pending value with the bits of `m` put in force. -/
def State.applyBits (s : State) (w : LiveWrite) (m : Word) : State :=
  s.setCfgAt w.offset (mergeWord (s.cfgAt w.offset) (w.mask &&& m) w.value)

/-- A read-around rate that its owning rules refuse: below the tenant's floor, or past RA_CAP with the others and MAINT_RATE (R191, R370). -/
def State.raRefused (s : State) (t rate : Nat) : Bool :=
  decide (rate < (s.tenant t).lim.raFloor) || decide (16 * s.raCap < s.otherRa t + rate)

/-- A Dash rate that is refused: below the floor, or past DASH_CAP with the others (R370). -/
def State.dashRefused (s : State) (t rate : Nat) : Bool :=
  decide (rate < (s.tenant t).lim.dashFloor) || decide (s.dashCap < s.otherDash t + rate)

/-- The block offset that event 0x0B04 gives for a rate: that of the register of the rate floors (log entry 16). -/
def rateOffset : Nat := 0x28

/-- A pending RWLIVE value put in force, but for a field whose owning rule refuses it (R567): a rate past its limits (R191, R370), a baton
weight below its floor (R369), a DIST_FRAC above TEMPO_FRAC (*TMK_WRITE_CFG*). A LOOP_SP value starts a soft-start ramp (R401). Buckets take their tokens at the old rate first. -/
def State.applyLive (s : State) (w : LiveWrite) : State :=
  let rate := bitsOf w.value 31 16
  let rates := w.mask &&& maskOf 31 16 != 0
  match locate w.offset with
  | .reg .tntRa t _ =>
    let s := s.accrueRa t
    if rates && s.raRefused t rate then
      ((s.applyBits w (maskOf 15 0)).raise 0x048A s.srcStarters t rate s.raCap 0).raise 0x0B04 s.srcStarters t rateOffset rate s.raCap
    else s.applyBits w (maskOf 31 0)
  | .reg .tntDash t _ =>
    let s := s.accrueDash t
    if rates && s.dashRefused t rate then (s.applyBits w (maskOf 15 0)).raise 0x0B04 s.srcStarters t rateOffset rate s.dashCap
    else s.applyBits w (maskOf 31 0)
  | .reg .tntBaton t _ => if max 1 (bitsOf w.value 23 16) < (s.tenant t).lim.weightFloor then s else s.applyBits w (maskOf 31 0)
  | .reg .tmkWriteCfg _ _ =>
    let after := mergeWord (s.cfgAt w.offset) w.mask w.value
    s.applyBits w (if bitsOf after 23 16 < bitsOf after 15 8 then ~~~(maskOf 15 8) else maskOf 31 0)
  | .reg .loopSp k _ => (s.applyBits w (maskOf 31 0)).updLoop k fun l => { l with rampStart := l.running }
  | _ => s.applyBits w (maskOf 31 0)

/-- The pending values applied in the order of their acceptance; those that wait for bound sets only with them (R222, R567). -/
def State.applyPending (s : State) : State :=
  let now := fun (w : LiveWrite) => !w.bound || s.tmk.next.isSome
  let todo := s.regs.live.filter now
  (s.onRegs fun r => { r with live := r.live.filter fun w => !now w }).each todo fun w s => s.applyLive w

/-- Computed bound sets put in force (R222). -/
def State.applySets (s : State) : State :=
  match s.tmk.next with
  | none => s
  | some sets => s.onTmk fun k => { k with sets := sets, next := none }

/-- Bundles applied whole: their records other than register writes, which stand among the pending values since their acceptance; a ledger
entry of reason 0x3 and event 0x0C07 for each, and its command completes (R485). -/
def State.applyBundles (s : State) : State :=
  let l := s.boot.bundles
  (s.onBoot fun b => { b with bundles := [] }).each l fun x s =>
    let s := s.each (x.2.records.filter fun r => !isWrites r) fun r s => s.applyRecord r
    ((s.appendEntry 3).raise 0x0C07 s.srcStarters x.2.records.length (s.now % 2 ^ 32) 0 0).complete x.1 .success

/-- The shares that differ between two sets of limits, as block offsets ÷ 4 (event 0x0B03). -/
def sharesChanged (l m : Limits) : List Nat :=
  (([(1, l.ctxShare, m.ctxShare), (2, l.rqpShare, m.rqpShare), (3, l.sqShare, m.sqShare), (4, l.zoneShare, m.zoneShare),
     (5, l.stgShare, m.stgShare), (6, l.keyShare, m.keyShare), (7, l.pdShare, m.pdShare), (8, l.winShare, m.winShare),
     (9, l.cacheShare, m.cacheShare)] : List (Nat × Nat × Nat)).filter fun x => x.2.1 != x.2.2).map (·.1)

/-- The TNT registers of RWLIVE fields whose words differ between two states, as block offsets ÷ 4; a rate shows at the place of its floor. -/
def State.wordsChanged (s old : State) (t : Nat) : List Nat :=
  (([(11, .tntBaton), (12, .tntCompat), (14, .tntFabclass), (10, .tntDash), (10, .tntRa)] : List (Nat × Reg)).filter fun x =>
    s.cfgWord x.2 t != old.cfgWord x.2 t).map (·.1)

/-- A tenant's new shares in force (R373): event 0x0B03, and a notice for each zoned namespace when its active limit changes (R83). `old` is
the state before the quiet point. -/
def State.applyShares (old : State) (t : Nat) (s : State) : State :=
  match (s.tenant t).pending with
  | none => s
  | some l =>
    let was := (s.tenant t).lim
    let places := sharesChanged l was ++ s.wordsChanged old t
    let s := (s.updTenant t fun x => { x with lim := { l with holdMs := was.holdMs }, pending := none }).givePds t
    let s := s.raise 0x0B03 s.srcStarters t (bitsWhere 16 fun b => places.contains b) 0 0
    if l.zoneShare = was.zoneShare then s
    else s.each (s.nsOf fun n => n.zoned && n.tenant == t) fun n s => s.notify t (.namespaceAttribute n)

/-- Pages with no bound slot that a tenant holds beyond its floor return to the pool (R369). -/
def State.returnPages (t : Nat) (s : State) : State :=
  let pages := s.pagesOf t
  let idle := pages.filter fun p => !(List.range 16).any fun k => s.slotBound (16 * p + k)
  s.each (idle.reverse.take (pages.length - (s.tenant t).lim.keyFloor)) fun p s =>
    s.onCph fun c => { c with pages := Tbl.put 0 c.pages p 0 }

/-- A created tenant becomes ACTIVE (R372), with its compatibility buckets full (R381). -/
def State.activateTenant (t : Nat) (s : State) : State :=
  if (s.tenant t).creating then (s.updTenant t fun x => { x with st := .active, creating := false }).fillCompat t else s

/-- Once Warm-up step 13 has gone through the tenants, an ACTIVE one whose bit is clear is ready at the quiet point (R56, R372). -/
def State.readyLate (t : Nat) (s : State) : State :=
  let x := s.tenant t
  if s.tmk.inForce && s.stepComplete 13 && x.st == .active && !x.ready && x.ending.isNone then s.readyTenant t else s

/-- A quiet point (R486). -/
def State.quietPoint (s : State) : State :=
  let old := s
  let s := s.applyPending.applySets.applyBundles
  let s := s.each s.heldSlots fun t s => State.applyShares old t s
  let s := s.each s.heldSlots State.returnPages
  let s := s.each s.heldSlots State.activateTenant
  s.each s.heldSlots State.readyLate

/-- QUIET_POINT (R486). -/
def execQuietPoint (s : State) : Host.Outcome State Fault Refusal :=
  .next (if s.takesQuietPoint then s.quietPoint else s)

end Sys2Proof.Machine
end

