-- ==== Sys2Proof/Machine/Grants.lean ====
section
/-! DEFINITION. Grants of batons handed to what asked (R394). -/

namespace Sys2Proof.Machine

/-- What starts with a grant: a lane's training or recalibration (R115), a compression burst on a free engine (R260). A pass or erase is
marked in its die queue and starts when the die selects it, a soft step when its read ends, a DRAM training in the channel itself. -/
def State.onGrant (s : State) (op : HeavyOp) : State :=
  match op with
  | .lane n => s.laneGranted n
  | .burst _ => s.assignEngines
  | .program _ _ | .erase _ _ | .softDecode _ _ | .dram _ => s

/-- BATON_GRANT: the broker grants the next request that R393 allows, if it fits, and the grant reaches what asked (R392, R394). -/
def execBatonGrant (s : State) : Host.Outcome State Fault Refusal :=
  .next (
    if s.running then
      let t := s.grantNext
      match t.broker.out[s.broker.out.length]? with
      | none => t
      | some b => t.onGrant b.op
    else s)

end Sys2Proof.Machine
end

