-- ==== Sys2Proof/Machine/Dispatch.lean ====
section
/-! DEFINITION. Every command to its meaning, in the order of spec/opcode_table.json. -/

namespace Sys2Proof.Machine

/-- The effect of a command on everything but the queue. -/
def exec (i : Instr) (s : State) : Host.Outcome State Fault Refusal :=
  match i with
  | .aonResetRelease pfdMv => Sys2Proof.Machine.execAonResetRelease pfdMv s
  | .vauxRemoval => Sys2Proof.Machine.execVauxRemoval s
  | .chipResetRelease dualPort => Sys2Proof.Machine.execChipResetRelease dualPort s
  | .chipRstNRequest => Sys2Proof.Machine.execChipRstNRequest s
  | .powerGoodDrop pg => Sys2Proof.Machine.execPowerGoodDrop pg s
  | .perstAssert port => Sys2Proof.Machine.execPerstAssert port s
  | .pcieHotReset port => Sys2Proof.Machine.execPcieHotReset port s
  | .pcieLinkRetrain port rate width flit => Sys2Proof.Machine.execPcieLinkRetrain port rate width flit s
  | .functionLevelReset slot => Sys2Proof.Machine.execFunctionLevelReset slot s
  | .ccDisable ctrl => Sys2Proof.Machine.execCcDisable ctrl s
  | .ccEnable ctrl depth => Sys2Proof.Machine.execCcEnable ctrl depth s
  | .doorbellWrite ctrl qid isCq value => Sys2Proof.Machine.execDoorbellWrite ctrl qid isCq value s
  | .pfdFall pfdMv bankMv => Sys2Proof.Machine.execPfdFall pfdMv bankMv s
  | .pfdRise => Sys2Proof.Machine.execPfdRise s
  | .homestretchEnd bankMv => Sys2Proof.Machine.execHomestretchEnd bankMv s
  | .homestretchCutoff byVmin bankMv => Sys2Proof.Machine.execHomestretchCutoff byVmin bankMv s
  | .hardComparatorTrip => Sys2Proof.Machine.execHardComparatorTrip s
  | .securityAlarm source => Sys2Proof.Machine.execSecurityAlarm source s
  | .alarmSeedEraseDone => Sys2Proof.Machine.execAlarmSeedEraseDone s
  | .drbgHealthFail test => Sys2Proof.Machine.execDrbgHealthFail test s
  | .warmupStepDone step rep => Sys2Proof.Machine.execWarmupStepDone step rep s
  | .boundSetComputeDone => Sys2Proof.Machine.execBoundSetComputeDone s
  | .lkgTimerExpiry => Sys2Proof.Machine.execLkgTimerExpiry s
  | .bootStoreEraseDone sector ok => Sys2Proof.Machine.execBootStoreEraseDone sector ok s
  | .quietPoint => Sys2Proof.Machine.execQuietPoint s
  | .registerWrite offset be value => Sys2Proof.Machine.execRegisterWrite offset be value s
  | .padReleaseWrite word mask => Sys2Proof.Machine.execPadReleaseWrite word mask s
  | .sprintGrantWrite value => Sys2Proof.Machine.execSprintGrantWrite value s
  | .sprintLeaseExpiry => Sys2Proof.Machine.execSprintLeaseExpiry s
  | .sprintGpioChange high => Sys2Proof.Machine.execSprintGpioChange high s
  | .laneRecalWrite lane => Sys2Proof.Machine.execLaneRecalWrite lane s
  | .dramThaw channel => Sys2Proof.Machine.execDramThaw channel s
  | .dramPlannedRetrain channel => Sys2Proof.Machine.execDramPlannedRetrain channel s
  | .evrReleaseWrite party seq => Sys2Proof.Machine.execEvrReleaseWrite party seq s
  | .evrLgClearWrite party => Sys2Proof.Machine.execEvrLgClearWrite party s
  | .gustClearWrite loop => Sys2Proof.Machine.execGustClearWrite loop s
  | .fabPdWrite d value => Sys2Proof.Machine.execFabPdWrite d value s
  | .fabAddrWrite a dword value => Sys2Proof.Machine.execFabAddrWrite a dword value s
  | .mcRegisterRead nmd0 nmd1 => Sys2Proof.Machine.execMcRegisterRead nmd0 nmd1 s
  | .mcRegisterWrite nmd0 nmd1 => Sys2Proof.Machine.execMcRegisterWrite nmd0 nmd1 s
  | .mctpMessage medium msg => Sys2Proof.Machine.execMctpMessage medium msg s
  | .hkChannelConvert sample => Sys2Proof.Machine.execHkChannelConvert sample s
  | .hkRoundEnd => Sys2Proof.Machine.execHkRoundEnd s
  | .loopPeriod loop sample => Sys2Proof.Machine.execLoopPeriod loop sample s
  | .ceilComparatorTrip bankMv => Sys2Proof.Machine.execCeilComparatorTrip bankMv s
  | .chargerFault measuredMa => Sys2Proof.Machine.execChargerFault measuredMa s
  | .budgetFloorAlarm measuredMw => Sys2Proof.Machine.execBudgetFloorAlarm measuredMw s
  | .batonWaitReport => Sys2Proof.Machine.execBatonWaitReport s
  | .batonRequest op => Sys2Proof.Machine.execBatonRequest op s
  | .batonGrant => Sys2Proof.Machine.execBatonGrant s
  | .batonReturn op => Sys2Proof.Machine.execBatonReturn op s
  | .coreHeartbeatMiss core => Sys2Proof.Machine.execCoreHeartbeatMiss core s
  | .coreRestartDone core => Sys2Proof.Machine.execCoreRestartDone core s
  | .starterMismatch => Sys2Proof.Machine.execStarterMismatch s
  | .standbyPairReturn pass => Sys2Proof.Machine.execStandbyPairReturn pass s
  | .fixedUnitError u => Sys2Proof.Machine.execFixedUnitError u s
  | .fixedUnitDeadline u => Sys2Proof.Machine.execFixedUnitDeadline u s
  | .responseOverdue u => Sys2Proof.Machine.execResponseOverdue u s
  | .bothPairsLostReset => Sys2Proof.Machine.execBothPairsLostReset s
  | .flitReceived lane flit => Sys2Proof.Machine.execFlitReceived lane flit s
  | .replayTimerExpiry lane => Sys2Proof.Machine.execReplayTimerExpiry lane s
  | .creditStallTimeout lane cls => Sys2Proof.Machine.execCreditStallTimeout lane cls s
  | .laneRecoveryEnd lane ok => Sys2Proof.Machine.execLaneRecoveryEnd lane ok s
  | .laneFullTrainingEnd lane res => Sys2Proof.Machine.execLaneFullTrainingEnd lane res s
  | .laneRecalEnd lane res => Sys2Proof.Machine.execLaneRecalEnd lane res s
  | .recalIntervalExpiry lane => Sys2Proof.Machine.execRecalIntervalExpiry lane s
  | .lanePark lane => Sys2Proof.Machine.execLanePark lane s
  | .bridgeTs1Received ts => Sys2Proof.Machine.execBridgeTs1Received ts s
  | .bridgeDone lane tag result status busy moved => Sys2Proof.Machine.execBridgeDone lane tag result status busy moved s
  | .bridgeCfgData lane tag die bad d0 d1 => Sys2Proof.Machine.execBridgeCfgData lane tag die bad d0 d1 s
  | .bridgeAlert lane die code detail => Sys2Proof.Machine.execBridgeAlert lane die code detail s
  | .bridgeSyncReport lane die held recent => Sys2Proof.Machine.execBridgeSyncReport lane die held recent s
  | .dieOpSelect lane die => Sys2Proof.Machine.execDieOpSelect lane die s
  | .suspendLate lane die => Sys2Proof.Machine.execSuspendLate lane die s
  | .laneOpTimeout lane tag => Sys2Proof.Machine.execLaneOpTimeout lane tag s
  | .decodeComplete block job ok fcrcOk bits => Sys2Proof.Machine.execDecodeComplete block job ok fcrcOk bits s
  | .parityJobComplete job => Sys2Proof.Machine.execParityJobComplete job s
  | .cipherUnitComplete block job => Sys2Proof.Machine.execCipherUnitComplete block job s
  | .stagingWritten ctx => Sys2Proof.Machine.execStagingWritten ctx s
  | .hostDataArrival ctx ok data => Sys2Proof.Machine.execHostDataArrival ctx ok data s
  | .compressGranuleDone ctx streamLen mismatch => Sys2Proof.Machine.execCompressGranuleDone ctx streamLen mismatch s
  | .decompressGranuleDone ctx outcome => Sys2Proof.Machine.execDecompressGranuleDone ctx outcome s
  | .patrolReadStart lane die => Sys2Proof.Machine.execPatrolReadStart lane die s
  | .retentionDue nsid zone => Sys2Proof.Machine.execRetentionDue nsid zone s
  | .readDisturbThreshold lane die block limit => Sys2Proof.Machine.execReadDisturbThreshold lane die block limit s
  | .relocationComplete lane die => Sys2Proof.Machine.execRelocationComplete lane die s
  | .stripeRebuildComplete set => Sys2Proof.Machine.execStripeRebuildComplete set s
  | .zoneRearmStart => Sys2Proof.Machine.execZoneRearmStart s
  | .zoneRearmDone nsid zone failed data parity => Sys2Proof.Machine.execZoneRearmDone nsid zone failed data parity s
  | .gcStart nsid => Sys2Proof.Machine.execGcStart nsid s
  | .gcVictimReclaimed nsid => Sys2Proof.Machine.execGcVictimReclaimed nsid s
  | .oldBlockEraseStart lane die block => Sys2Proof.Machine.execOldBlockEraseStart lane die block s
  | .readCmd h slba nlb => Sys2Proof.Machine.execReadCmd h slba nlb s
  | .writeCmd h slba nlb => Sys2Proof.Machine.execWriteCmd h slba nlb s
  | .writeZeroesCmd h slba nlb deac => Sys2Proof.Machine.execWriteZeroesCmd h slba nlb deac s
  | .zoneAppendCmd h zslba nlb => Sys2Proof.Machine.execZoneAppendCmd h zslba nlb s
  | .compareCmd h slba nlb data => Sys2Proof.Machine.execCompareCmd h slba nlb data s
  | .flushCmd h => Sys2Proof.Machine.execFlushCmd h s
  | .datasetMgmtCmd h deallocate ranges => Sys2Proof.Machine.execDatasetMgmtCmd h deallocate ranges s
  | .copyCmd h sdlba ranges => Sys2Proof.Machine.execCopyCmd h sdlba ranges s
  | .zoneOpen h slba => Sys2Proof.Machine.execZoneOpen h slba s
  | .zoneClose h slba => Sys2Proof.Machine.execZoneClose h slba s
  | .zoneFinish h slba => Sys2Proof.Machine.execZoneFinish h slba s
  | .zoneReset h slba => Sys2Proof.Machine.execZoneReset h slba s
  | .zoneResetAll h => Sys2Proof.Machine.execZoneResetAll h s
  | .zoneResetFenceClear nsid zone => Sys2Proof.Machine.execZoneResetFenceClear nsid zone s
  | .zoneOffline h slba => Sys2Proof.Machine.execZoneOffline h slba s
  | .reportZones h slba pick maxZones => Sys2Proof.Machine.execReportZones h slba pick maxZones s
  | .zoneSetDescExt h slba => Sys2Proof.Machine.execZoneSetDescExt h slba s
  | .zoneFzrTimeout nsid zone => Sys2Proof.Machine.execZoneFzrTimeout nsid zone s
  | .zoneAeTimeout nsid zone => Sys2Proof.Machine.execZoneAeTimeout nsid zone s
  | .packedAppend h slba ng close => Sys2Proof.Machine.execPackedAppend h slba ng close s
  | .packedRead h pga ng => Sys2Proof.Machine.execPackedRead h pga ng s
  | .parcelHoldExpiry nsid zone => Sys2Proof.Machine.execParcelHoldExpiry nsid zone s
  | .heldCommandRetry tenant => Sys2Proof.Machine.execHeldCommandRetry tenant s
  | .compatHoldExpiry ctx => Sys2Proof.Machine.execCompatHoldExpiry ctx s
  | .createIoSq h qid depth qprio cqid => Sys2Proof.Machine.execCreateIoSq h qid depth qprio cqid s
  | .createIoCq h qid depth vector => Sys2Proof.Machine.execCreateIoCq h qid depth vector s
  | .deleteIoQueue h qid isCq => Sys2Proof.Machine.execDeleteIoQueue h qid isCq s
  | .identify h cns => Sys2Proof.Machine.execIdentify h cns s
  | .getLogPage h page => Sys2Proof.Machine.execGetLogPage h page s
  | .getFeatures h fid => Sys2Proof.Machine.execGetFeatures h fid s
  | .setFeaturesPower h ps => Sys2Proof.Machine.execSetFeaturesPower h ps s
  | .setFeaturesApst h enable idleMs target => Sys2Proof.Machine.execSetFeaturesApst h enable idleMs target s
  | .setFeaturesTempThreshold h sensor under kelvin => Sys2Proof.Machine.execSetFeaturesTempThreshold h sensor under kelvin s
  | .setFeaturesHostBehavior h acre => Sys2Proof.Machine.execSetFeaturesHostBehavior h acre s
  | .abortCmd h sqid cid => Sys2Proof.Machine.execAbortCmd h sqid cid s
  | .asyncEventRequest h => Sys2Proof.Machine.execAsyncEventRequest h s
  | .apstIdleExpiry => Sys2Proof.Machine.execApstIdleExpiry s
  | .entryStepDone => Sys2Proof.Machine.execEntryStepDone s
  | .wakeEvent bit => Sys2Proof.Machine.execWakeEvent bit s
  | .exitStepDone step ok => Sys2Proof.Machine.execExitStepDone step ok s
  | .maintTimerExpiry work => Sys2Proof.Machine.execMaintTimerExpiry work s
  | .dramVisit => Sys2Proof.Machine.execDramVisit s
  | .dramVisitIdleExpiry => Sys2Proof.Machine.execDramVisitIdleExpiry s
  | .formatNvm h ses nonce => Sys2Proof.Machine.execFormatNvm h ses nonce s
  | .sanitizeCryptoErase h nonce => Sys2Proof.Machine.execSanitizeCryptoErase h nonce s
  | .sanitizeBlockErase h nonce => Sys2Proof.Machine.execSanitizeBlockErase h nonce s
  | .sanitizeExitFailure h => Sys2Proof.Machine.execSanitizeExitFailure h s
  | .nsCreate h spec => Sys2Proof.Machine.execNsCreate h spec s
  | .nsDelete h => Sys2Proof.Machine.execNsDelete h s
  | .nsAttach h ctrls attach => Sys2Proof.Machine.execNsAttach h ctrls attach s
  | .virtMgmt h cntlid vectors count => Sys2Proof.Machine.execVirtMgmt h cntlid vectors count s
  | .boundReport h selTenant tenant clear => Sys2Proof.Machine.execBoundReport h selTenant tenant clear s
  | .tenantCreate h slot data => Sys2Proof.Machine.execTenantCreate h slot data s
  | .tenantChangeShares h slot data => Sys2Proof.Machine.execTenantChangeShares h slot data s
  | .tenantDestroy h slot => Sys2Proof.Machine.execTenantDestroy h slot s
  | .tenantReset h slot => Sys2Proof.Machine.execTenantReset h slot s
  | .resetDrainDone ctrl => Sys2Proof.Machine.execResetDrainDone ctrl s
  | .tenantShareGet h slot => Sys2Proof.Machine.execTenantShareGet h slot s
  | .dirtyLogStart h slot => Sys2Proof.Machine.execDirtyLogStart h slot s
  | .dirtyLogStop h slot => Sys2Proof.Machine.execDirtyLogStop h slot s
  | .tenantQuiesce h slot => Sys2Proof.Machine.execTenantQuiesce h slot s
  | .quiesceDone slot => Sys2Proof.Machine.execQuiesceDone slot s
  | .tenantResume h slot => Sys2Proof.Machine.execTenantResume h slot s
  | .dirtyLogExport h slot numd ofst => Sys2Proof.Machine.execDirtyLogExport h slot numd ofst s
  | .tenantStateExport h slot numd ofst => Sys2Proof.Machine.execTenantStateExport h slot numd ofst s
  | .tenantStateImport h dest source last exportSeq scrcOk => Sys2Proof.Machine.execTenantStateImport h dest source last exportSeq scrcOk s
  | .ledgerRead h seq numd ofst => Sys2Proof.Machine.execLedgerRead h seq numd ofst s
  | .ledgerReadCerts h numd ofst => Sys2Proof.Machine.execLedgerReadCerts h numd ofst s
  | .ledgerAcknowledge h seq => Sys2Proof.Machine.execLedgerAcknowledge h seq s
  | .imageStage h bank numd ofst last image => Sys2Proof.Machine.execImageStage h bank numd ofst last image s
  | .imageActivateLive h bank => Sys2Proof.Machine.execImageActivateLive h bank s
  | .imageActivateAtReset h bank => Sys2Proof.Machine.execImageActivateAtReset h bank s
  | .imageRevertAtReset h => Sys2Proof.Machine.execImageRevertAtReset h s
  | .rollStepStart => Sys2Proof.Machine.execRollStepStart s
  | .rollStepDone ok => Sys2Proof.Machine.execRollStepDone ok s
  | .configRecordApply h numd ofst last bundle => Sys2Proof.Machine.execConfigRecordApply h numd ofst last bundle s
  | .recorderSnapshotHeld h seq numd ofst => Sys2Proof.Machine.execRecorderSnapshotHeld h seq numd ofst s
  | .recorderSnapshotLastGasp h numd ofst => Sys2Proof.Machine.execRecorderSnapshotLastGasp h numd ofst s
  | .recorderSnapshotFreeze h channel numd ofst => Sys2Proof.Machine.execRecorderSnapshotFreeze h channel numd ofst s
  | .recorderSnapshotKept h numd ofst => Sys2Proof.Machine.execRecorderSnapshotKept h numd ofst s
  | .windowCreate h data => Sys2Proof.Machine.execWindowCreate h data s
  | .windowDestroy h wid => Sys2Proof.Machine.execWindowDestroy h wid s
  | .fabricsConnect conn qid depth cid cntlid nqn => Sys2Proof.Machine.execFabricsConnect conn qid depth cid cntlid nqn s
  | .rdmaCmRequest addr port svcPort block sr rnrRead reorder mtu => Sys2Proof.Machine.execRdmaCmRequest addr port svcPort block sr rnrRead reorder mtu s
  | .roceSendReceived conn psn ce last => Sys2Proof.Machine.execRoceSendReceived conn psn ce last s
  | .roceAckReceived conn psn sack sampleUs => Sys2Proof.Machine.execRoceAckReceived conn psn sack sampleUs s
  | .roceNakReceived conn psn => Sys2Proof.Machine.execRoceNakReceived conn psn s
  | .cnpReceived conn => Sys2Proof.Machine.execCnpReceived conn s
  | .ethFrameReceived port frame => Sys2Proof.Machine.execEthFrameReceived port frame s
  | .pfcFrameReceived port prio xoff => Sys2Proof.Machine.execPfcFrameReceived port prio xoff s
  | .rdmaReadRequest conn rkey va len write => Sys2Proof.Machine.execRdmaReadRequest conn rkey va len write s
  | .windowFetchDone wid page ok => Sys2Proof.Machine.execWindowFetchDone wid page ok s
  | .windowFaultTimeout read => Sys2Proof.Machine.execWindowFaultTimeout read s
  | .sackTimer conn => Sys2Proof.Machine.execSackTimer conn s
  | .srResendTimer conn => Sys2Proof.Machine.execSrResendTimer conn s
  | .ackTimeout conn => Sys2Proof.Machine.execAckTimeout conn s
  | .ethPortDown port cause => Sys2Proof.Machine.execEthPortDown port cause s
  | .ethPortUp port => Sys2Proof.Machine.execEthPortUp port s
  | .flapHoldExpiry port => Sys2Proof.Machine.execFlapHoldExpiry port s
  | .dramUncorrectableBurst channel sub cls line source conn => Sys2Proof.Machine.execDramUncorrectableBurst channel sub cls line source conn s
  | .dramResyncDone channel ok => Sys2Proof.Machine.execDramResyncDone channel ok s
  | .dramRefreshTick channel sub rank => Sys2Proof.Machine.execDramRefreshTick channel sub rank s
  | .dramRaaThreshold channel sub rank bank dashWaits => Sys2Proof.Machine.execDramRaaThreshold channel sub rank bank dashWaits s
  | .onchipUncorrectable mem addr scrub => Sys2Proof.Machine.execOnchipUncorrectable mem addr scrub s
  | .rowCeLimit unit mac row => Sys2Proof.Machine.execRowCeLimit unit mac row s
  | .scrubPassLate kind passMs => Sys2Proof.Machine.execScrubPassLate kind passMs s
  | .bufferGive caller handle taker => Sys2Proof.Machine.execBufferGive caller handle taker s
  | .bufferFree caller handle => Sys2Proof.Machine.execBufferFree caller handle s
  | .bufferAudit => Sys2Proof.Machine.execBufferAudit s
  | .eventRecordArrival => Sys2Proof.Machine.execEventRecordArrival s
  | .lossOfBlockLock lane => Sys2Proof.Machine.execLossOfBlockLock lane s
  | .pcieConfigRequest port fn req => Sys2Proof.Machine.execPcieConfigRequest port fn req s
  | .pcieLinkUp port rate width flit => Sys2Proof.Machine.execPcieLinkUp port rate width flit s
  | .rdmaCmDisconnect conn => Sys2Proof.Machine.execRdmaCmDisconnect conn s
  | .lacpduReceived port collecting => Sys2Proof.Machine.execLacpduReceived port collecting s
  | .rnrTimerExpiry conn => Sys2Proof.Machine.execRnrTimerExpiry conn s
  | .preloadTimeout wid => Sys2Proof.Machine.execPreloadTimeout wid s
  | .maintBucketFull => Sys2Proof.Machine.execMaintBucketFull s
  | .compatBucketRefill tenant => Sys2Proof.Machine.execCompatBucketRefill tenant s
  | .bootStoreProgramDone kind sector ok => Sys2Proof.Machine.execBootStoreProgramDone kind sector ok s
  | .avsbusStepTimer acked => Sys2Proof.Machine.execAvsbusStepTimer acked s
  | .dramMr4Change channel code => Sys2Proof.Machine.execDramMr4Change channel code s
  | .managerRegisterRead offset dwords => Sys2Proof.Machine.execManagerRegisterRead offset dwords s

end Sys2Proof.Machine
end

