-- ==== Sys2Proof/Machine/Idle.lean ====
section
/-! DEFINITION. What the block does of its own when no command waits (log entry 4): a nanosecond passes, and what was only waiting for other
work to end is done. -/

namespace Sys2Proof.Machine

/-- The event timestamp after one idle nanosecond: it counts while the AON domain is out of reset (R19). -/
def State.tick (s : State) : State := if s.aon.on then s.onAon fun a => { a with timeNs := a.timeNs + 1 } else s

/-- What was waiting for other work to end: fenced erasures (R286), the end of a sanitize (R289), the end of a landing (R531, R553), the check of the
minimum service set (R531), the re-entry after a maintenance wake (R431). -/
def State.settle (s : State) : State := if s.running then s.runErasures.settleSanitize.settleLanding.checkService.reenter else s

/-- Lanes in training go on to their next state (R110, R111): each step takes one idle nanosecond (log entry 4). -/
def State.walkLanes (s : State) : State :=
  if s.running then s.each (Tbl.numbers (fun l => l.outage.isSome) s.lanes) fun n s => s.walkTraining n else s

/-- One idle nanosecond. -/
def State.idle (s : State) : State := s.tick.settle.walkLanes

end Sys2Proof.Machine
end

