-- ==== Sys2Proof/WellFormed.lean ====
section
/-! DEFINITION. Which commands name units and values that exist: the ranges of *Indices* (R27) and of the fields that
carry each operand. A host or a unit of the block sends only well-formed commands; exec is total all the same. -/

namespace Sys2Proof

/-- Lane 0-511 (R27). -/
def okLane (n : Nat) : Bool := decide (n < 512)
/-- Die 0-7 on a lane (R27). -/
def okDie (n : Nat) : Bool := decide (n < 8)
/-- Block 0-31 (R27). -/
def okBlock (n : Nat) : Bool := decide (n < 32)
/-- Tag 0x00-0xEF of an operation (R126). -/
def okTag (n : Nat) : Bool := decide (n < 240)
/-- Port 0-1 (PCIe, Ethernet) or DRAM channel 0-1. -/
def okPair (n : Nat) : Bool := decide (n < 2)
/-- Tenant slot 0-255 (R27). -/
def okSlot (n : Nat) : Bool := decide (n < 256)
/-- Loop 0-7 (R27). -/
def okLoop (n : Nat) : Bool := decide (n < 8)
/-- A window offset: 28 bits (R560). -/
def okOffset (n : Nat) : Bool := decide (n < 2 ^ 28)
/-- A 16-bit queue identifier. -/
def okQid (n : Nat) : Bool := decide (n < 65536)
/-- A zone index: 20 bits of a namespace of at most 2^20 zones. -/
def okZone (n : Nat) : Bool := decide (n < 2 ^ 20)
/-- A 32-bit value. -/
def ok32 (n : Nat) : Bool := decide (n < 2 ^ 32)
/-- Security alarm source 0-4 (R282). -/
def okAlarm (n : Nat) : Bool := decide (n < 5)
/-- Warm-up step 1-13 (R55). -/
def okStep (n : Nat) : Bool := decide (1 ≤ n ∧ n ≤ 13)

/-- The header of an NVMe command: 16-bit queue and command identifiers, a 32-bit NSID. -/
def Hdr.ok (h : Hdr) : Bool := okQid h.sqid && okQid h.cid && ok32 h.nsid

/-- A cell, block or region core that exists (R43). -/
def CoreId.ok : CoreId → Bool
  | .pacer c => decide (c < 544)
  | .marshal b => okBlock b
  | .steward g i => decide (g < 4 ∧ i < 2)

/-- A fixed-function unit that exists (R32). -/
def FixedUnit.ok : FixedUnit → Bool
  | .decoder b i => okBlock b && decide (i < 4)
  | .cipher b => okBlock b
  | .parity i => decide (i < 8)
  | .compress g i => decide (g < 4 ∧ i < 4)

/-- A heavy operation that names a lane, die or channel that exists (R392). -/
def HeavyOp.ok : HeavyOp → Bool
  | .program n d | .erase n d => okLane n && okDie d
  | .lane n => okLane n
  | .dram c => okPair c
  | .softDecode _ _ | .burst _ => true

/-- A unit that exists. -/
def UnitId.ok : UnitId → Bool
  | .core c => CoreId.ok c
  | .fixed u => FixedUnit.ok u

/-- A controller identifier: 16 bits (R362). -/
def okCtrl (n : Nat) : Bool := decide (n < 65536)
/-- A packet sequence number: 24 bits (R332). -/
def okPsn (n : Nat) : Bool := decide (n < 2 ^ 24)
/-- A window identifier 0-16,383 (R350). -/
def okWid (n : Nat) : Bool := decide (n < 16384)
/-- A sector of the boot store (R473). -/
def okSector (n : Nat) : Bool := decide (n < 512)
/-- An NSID as a unit of the block names it: 1 and above. -/
def okNsid (n : Nat) : Bool := decide (1 ≤ n ∧ n < 2 ^ 32)

/-- The command's operands lie in the ranges of the fields and units they name. -/
def Instr.wellFormed : Instr → Bool
  | .perstAssert p | .pcieHotReset p | .pcieLinkRetrain p _ _ _ | .pcieLinkUp p _ _ _ | .ethPortDown p _ | .ethPortUp p
  | .flapHoldExpiry p | .lacpduReceived p _ | .ethFrameReceived p _ | .pfcFrameReceived p _ _
  | .pcieConfigRequest p _ _ => okPair p
  | .dramThaw c | .dramPlannedRetrain c | .dramUncorrectableBurst c _ _ _ _ _ | .dramResyncDone c _ | .dramRefreshTick c _ _
  | .dramRaaThreshold c _ _ _ _ | .dramMr4Change c _ => okPair c
  | .laneRecalWrite n | .flitReceived n _ | .replayTimerExpiry n | .creditStallTimeout n _ | .laneRecoveryEnd n _
  | .laneFullTrainingEnd n _ | .laneRecalEnd n _ | .recalIntervalExpiry n | .lanePark n | .bridgeTs1Received ⟨n, _⟩
  | .lossOfBlockLock n => okLane n
  | .bridgeCfgData n t d _ _ _ => okLane n && decide (t < 256 ∧ d < 8)
  | .bridgeDone n t _ _ _ _ => okLane n && decide (t < 256)
  | .laneOpTimeout n t => okLane n && okTag t
  | .bridgeAlert n d _ _ | .bridgeSyncReport n d _ _ | .dieOpSelect n d | .suspendLate n d | .patrolReadStart n d
  | .readDisturbThreshold n d _ _ | .relocationComplete n d | .oldBlockEraseStart n d _ => okLane n && okDie d
  | .functionLevelReset t | .quiesceDone t | .heldCommandRetry t | .compatBucketRefill t => okSlot t
  | .tenantCreate h t _ | .tenantChangeShares h t _ => Hdr.ok h && okSlot t
  | .tenantDestroy h t | .tenantReset h t | .tenantShareGet h t | .dirtyLogStart h t | .dirtyLogStop h t
  | .tenantQuiesce h t | .tenantResume h t | .dirtyLogExport h t _ _ | .tenantStateExport h t _ _ => Hdr.ok h && okSlot t
  | .loopPeriod k _ | .gustClearWrite k => okLoop k
  | .registerWrite o _ _ | .managerRegisterRead o _ => okOffset o
  | .doorbellWrite _ q _ v => okQid q && okQid v
  | .decodeComplete b _ _ _ _ | .cipherUnitComplete b _ => okBlock b
  | .coreHeartbeatMiss c | .coreRestartDone c => CoreId.ok c
  | .fixedUnitError u | .fixedUnitDeadline u => FixedUnit.ok u
  | .securityAlarm i => okAlarm i
  | .warmupStepDone k _ => okStep k
  | .retentionDue _ z | .zoneFzrTimeout _ z | .zoneAeTimeout _ z | .parcelHoldExpiry _ z | .zoneResetFenceClear _ z
  | .zoneRearmDone _ z _ _ _ => okZone z
  | .readCmd h s _ | .writeCmd h s _ | .writeZeroesCmd h s _ _ | .zoneAppendCmd h s _ | .zoneOpen h s | .zoneClose h s
  | .zoneFinish h s | .zoneReset h s | .zoneOffline h s | .zoneSetDescExt h s => Hdr.ok h && decide (s < 2 ^ 64)
  | .compareCmd h s _ _ | .reportZones h s _ _ | .packedAppend h s _ _ | .copyCmd h s _ => Hdr.ok h && decide (s < 2 ^ 64)
  | .packedRead h pga _ => Hdr.ok h && decide (pga < 2 ^ 64)
  | .flushCmd h | .datasetMgmtCmd h _ _ | .zoneResetAll h | .identify h _ | .getLogPage h _ | .getFeatures h _
  | .setFeaturesPower h _ | .setFeaturesApst h _ _ _ | .setFeaturesTempThreshold h _ _ _ | .setFeaturesHostBehavior h _
  | .asyncEventRequest h | .formatNvm h _ _ | .sanitizeCryptoErase h _ | .sanitizeBlockErase h _ | .sanitizeExitFailure h
  | .nsCreate h _ | .nsDelete h | .nsAttach h _ _ | .boundReport h _ _ _ | .ledgerRead h _ _ _ | .ledgerReadCerts h _ _
  | .ledgerAcknowledge h _ | .imageStage h _ _ _ _ _ | .imageActivateLive h _ | .imageActivateAtReset h _ | .imageRevertAtReset h
  | .configRecordApply h _ _ _ _ | .recorderSnapshotHeld h _ _ _ | .recorderSnapshotLastGasp h _ _
  | .recorderSnapshotFreeze h _ _ _ | .recorderSnapshotKept h _ _ | .windowCreate h _ => Hdr.ok h
  | .createIoSq h q d _ c => Hdr.ok h && okQid q && decide (d ≤ 65536) && okQid c
  | .createIoCq h q d _ => Hdr.ok h && okQid q && decide (d ≤ 65536)
  | .deleteIoQueue h q _ => Hdr.ok h && okQid q
  | .abortCmd h q c => Hdr.ok h && okQid q && okQid c
  | .virtMgmt h c _ _ => Hdr.ok h && okCtrl c
  | .tenantStateImport h d s _ _ _ => Hdr.ok h && okSlot d && okSlot s
  | .windowDestroy h w => Hdr.ok h && okWid w
  | .ccDisable c | .ccEnable c _ | .resetDrainDone c => okCtrl c
  | .padReleaseWrite w _ => decide (w < 2)
  | .fabPdWrite d _ => decide (d < 4096)
  | .fabAddrWrite a i _ => decide (a < 512 ∧ i < 5)
  | .batonRequest o | .batonReturn o => HeavyOp.ok o
  | .responseOverdue u => UnitId.ok u
  | .gcStart n | .gcVictimReclaimed n => okNsid n
  | .wakeEvent b => decide (b < 7)
  | .exitStepDone k _ => okStep k
  | .fabricsConnect _ q _ c k _ => okQid q && okQid c && okCtrl k
  | .rdmaCmRequest a p s _ _ _ _ _ => decide (a < 512) && okPair p && decide (s < 65536)
  | .roceSendReceived _ n _ _ | .roceAckReceived _ n _ _ | .roceNakReceived _ n => okPsn n
  | .windowFetchDone w _ _ | .preloadTimeout w => okWid w
  | .bootStoreEraseDone n _ | .bootStoreProgramDone _ n _ => okSector n
  | .evrReleaseWrite _ n => ok32 n
  | .aonResetRelease _ | .vauxRemoval | .chipResetRelease _ | .chipRstNRequest | .powerGoodDrop _ | .pfdFall _ _ | .pfdRise
  | .homestretchEnd _ | .homestretchCutoff _ _ | .hardComparatorTrip | .alarmSeedEraseDone | .drbgHealthFail _
  | .boundSetComputeDone | .lkgTimerExpiry | .quietPoint | .sprintGrantWrite _ | .sprintLeaseExpiry | .sprintGpioChange _
  | .evrLgClearWrite _ | .mcRegisterRead _ _ | .mcRegisterWrite _ _ | .mctpMessage _ _ | .hkChannelConvert _ | .hkRoundEnd
  | .ceilComparatorTrip _ | .chargerFault _ | .budgetFloorAlarm _ | .batonWaitReport | .batonGrant | .starterMismatch
  | .standbyPairReturn _ | .bothPairsLostReset | .parityJobComplete _ | .stagingWritten _ | .hostDataArrival _ _ _
  | .compressGranuleDone _ _ _ | .decompressGranuleDone _ _ | .stripeRebuildComplete _ | .zoneRearmStart | .compatHoldExpiry _
  | .apstIdleExpiry | .entryStepDone | .maintTimerExpiry _ | .dramVisit | .dramVisitIdleExpiry | .rollStepStart | .rollStepDone _
  | .cnpReceived _ | .rdmaReadRequest _ _ _ _ _ | .windowFaultTimeout _ | .sackTimer _ | .srResendTimer _ | .ackTimeout _
  | .onchipUncorrectable _ _ _ | .rowCeLimit _ _ _ | .scrubPassLate _ _ | .bufferGive _ _ _ | .bufferFree _ _ | .bufferAudit
  | .eventRecordArrival | .rdmaCmDisconnect _ | .rnrTimerExpiry _ | .maintBucketFull | .avsbusStepTimer _ => true

end Sys2Proof
end

