-- ==== Sys2Proof/Safety.lean ====
section
/-! DEFINITION. The terms in which claims about the block are stated: a command taken at its gate, a completion posted, an event
recorded, and the invariants that every step keeps. -/

namespace Sys2Proof.Machine

/-- A host admin command of a PCIe controller that is fetched, permitted to its sender, and left out by no hold or fault stop
(R57, R314, R315, R531): its own rules run. -/
structure State.TakesAdmin (s : State) (r : AdminRule) (h : Hdr) : Prop where
  host : h.mc = false
  pcie : h.ctrl < 256
  fetched : s.fetches h.ctrl = true
  whole : s.bootSubsetOnly = false
  permitted : r.permits s h = true
  nvm : (s.ctrl h.ctrl).discovery = false
  nsid : r.nsidZero = true → h.nsid = 0
  quiet : (s.ctrl h.ctrl).drain = none

/-- An I/O command of a PCIe controller that is fetched outside a hold: its own rules run. -/
structure State.TakesIo (s : State) (h : Hdr) : Prop where
  host : h.mc = false
  pcie : h.ctrl < 256
  fetched : s.fetches h.ctrl = true
  noStop : s.flt.stop = 0
  noHold : s.inHold = false
  quiet : (s.ctrl h.ctrl).drain = none

/-- A read or write of a PCIe controller that reaches the admission check: context `x`, tried in state `u` (R213). Nothing before it stops the
command: its pool has room (R468), no trip is latched (R517), no zone waits for re-arm (R89), and of a compatibility tenant nothing held stands
before it and its buckets hold tokens (R380, R381). -/
structure State.AtAdmission (s : State) (h : Hdr) (x : Ctx) (u : State) : Prop where
  takes : s.TakesIo h
  tried : u = (s.fetchOne h).accrue x
  pool : (s.fetchOne h).fetchStopped x = false
  cool : s.aon.trip = false
  armed : ∀ zk, (s.zone zk).rearm = 0
  first : u.behindHeld x = false
  tokens : u.bucketsEmpty x.tenant = false

/-- A zone management command of a PCIe controller that reaches its action: nothing refuses it, it waits behind nothing, and its stewards'
calendars have room (R66, R213, R215). -/
structure State.AtManage (s : State) (h : Hdr) (slba : Nat) (aligned : Bool) : Prop where
  takes : s.TakesIo h
  clean : s.manageCheck h slba aligned = none
  cool : s.aon.trip = false
  armed : ∀ zk, (s.zone zk).rearm = 0
  first : (s.tenant (s.tenantOf h.ctrl)).heldCmds = []
  room : ((s.fetchOne h).stewardLacks ((s.fetchOne h).writeStewards h (zonePlace h.nsid slba).1)).passes = true

/-- The I/O commands that reach admission alike, each with the context its submission queue entry gives it in state `s` (R213). -/
def State.ioContexts (s : State) (h : Hdr) (slba nlb : Nat) (data : List Block) : List (Instr × Ctx) :=
  [(.readCmd h slba nlb, s.newCtx h .read slba (nlb + 1)), (.compareCmd h slba nlb data, { s.newCtx h .compare slba (nlb + 1) with expect := data }),
   (.writeCmd h slba nlb, s.newCtx h .write slba (nlb + 1)), (.writeZeroesCmd h slba nlb false, s.newCtx h .writeZeroes slba (nlb + 1)),
   (.zoneAppendCmd h slba nlb, s.newCtx h .append slba (nlb + 1)), (.flushCmd h, s.newCtx h .flush 0 0)]

/-- The packed commands, each with the context its submission queue entry gives it in state `s` (R247, R253). -/
def State.packedContexts (s : State) (h : Hdr) (a ng : Nat) (close : Bool) : List (Instr × Ctx) :=
  [(.packedAppend h a ng close, { s.newCtx h .packedAppend a (ng % 64 + 1) with granules := ng % 64 + 1, close := close }),
   (.packedRead h a ng, { s.newCtx h .packedRead (a / 64) (ng % 64 + 1) with granules := ng % 64 + 1, first := a % 64 })]

/-- The zone management commands that name one zone, each with its action (R66). -/
def zoneActions (h : Hdr) (slba : Nat) : List (Instr × ZoneAct) :=
  [(.zoneOpen h slba, .openZone), (.zoneClose h slba, .close), (.zoneFinish h slba, .finish), (.zoneReset h slba, .reset),
   (.zoneOffline h slba, .offline)]

/-- The admin commands, each with its header and the rule it stands under at its gate (R314, R315, R494). -/
def adminRuleOf : Instr → Option (AdminRule × Hdr)
  | .formatNvm h _ _ | .sanitizeCryptoErase h _ | .sanitizeBlockErase h _ | .sanitizeExitFailure h | .nsCreate h _ | .nsDelete h
  | .nsAttach h _ _ | .createIoSq h _ _ _ _ | .createIoCq h _ _ _ | .deleteIoQueue h _ _ | .virtMgmt h _ _ _ | .setFeaturesPower h _
  | .setFeaturesApst h _ _ _ | .setFeaturesTempThreshold h _ _ _ | .setFeaturesHostBehavior h _ => some (ruleAny, h)
  | .identify h cns => some (ruleIdentify cns, h)
  | .getLogPage h page => some (ruleLogPage page.lid, h)
  | .getFeatures h _ | .abortCmd h _ _ | .asyncEventRequest h => some (ruleSubset, h)
  | .ledgerRead h _ _ _ | .ledgerReadCerts h _ _ | .ledgerAcknowledge h _ | .imageStage h _ _ _ _ _ | .imageActivateAtReset h _
  | .imageRevertAtReset h | .imageActivateLive h _ | .recorderSnapshotFreeze h _ _ _ | .recorderSnapshotHeld h _ _ _
  | .recorderSnapshotLastGasp h _ _ | .recorderSnapshotKept h _ _ => some (ruleBoot, h)
  | .configRecordApply h _ _ _ _ | .tenantCreate h _ _ | .tenantChangeShares h _ _ | .tenantDestroy h _ | .tenantReset h _ =>
    some (ruleManager, h)
  | .dirtyLogStart h _ | .dirtyLogStop h _ | .dirtyLogExport h _ _ _ | .tenantQuiesce h _ | .tenantResume h _ | .tenantStateExport h _ _ _
  | .tenantStateImport h _ _ _ _ _ => some (ruleTenant0, h)
  | .boundReport h _ _ _ => some (ruleBoundReport, h)
  | .tenantShareGet h _ => some (ruleShareGet, h)
  | .windowCreate h _ | .windowDestroy h _ => some (ruleWindow, h)
  | _ => none

/-- Every command of an I/O submission queue (R229, R239). -/
def ioCommands (h : Hdr) (a n f : Nat) (b : Bool) (data : List Block) (rs : List (Nat × Nat)) : List Instr :=
  [.readCmd h a n, .compareCmd h a n data, .writeCmd h a n, .writeZeroesCmd h a n b, .zoneAppendCmd h a n, .copyCmd h a rs, .flushCmd h,
   .datasetMgmtCmd h b rs, .packedAppend h a n b, .packedRead h a n, .zoneOpen h a, .zoneClose h a, .zoneFinish h a, .zoneReset h a,
   .zoneResetAll h, .zoneOffline h a, .reportZones h a ⟨f, b⟩ n, .zoneSetDescExt h a]

/-- A command of the boot ROM admin subset that its rules are reached by, from tenant 0 or from the management controller (R314, R531). -/
def State.TakesBoot (s : State) (h : Hdr) : Prop :=
  s.TakesAdmin ruleBoot h ∨ (h.mc = true ∧ s.servesMc = true ∧ h.nsid = 0)

/-- From `s` to `t` the block posted exactly one completion: command `h`, this status, these dwords. -/
def Posted (s t : State) (h : Hdr) (st : Status) (dw0 dw1 : Nat) : Prop :=
  ∃ c : Completion, t.out.completions = s.out.completions ++ [c] ∧ c.ctrl = h.ctrl ∧ c.sqid = h.sqid ∧ c.cid = h.cid ∧
    c.sct = st.sct ∧ c.sc = st.sc ∧ c.dw0 = dw0 ∧ c.dw1 = dw1

/-- From `s` to `t` the lane ports sent just these flits and control blocks, in this order, ALIGN blocks between them left aside (R108). -/
def Sent (s t : State) (fs : List (Nat × Down)) : Prop :=
  t.out.down.take s.out.down.length = s.out.down ∧ (t.out.down.drop s.out.down.length).filter (fun x => x.2 != .control blockAlign) = fs

/-- The event stands in the arrival queue of `t`, raised at the timestamp of `s` (R535), with its source and four parameters. -/
def Recorded (s t : State) (code src p1 p2 p3 p4 : Nat) : Prop :=
  (s.now, (⟨BitVec.ofNat 16 code, BitVec.ofNat 16 src, BitVec.ofNat 32 p1, BitVec.ofNat 32 p2, BitVec.ofNat 32 p3,
    BitVec.ofNat 32 p4⟩ : EvRec)) ∈ t.evr.queue

/-- The arrival queue takes any record: fewer than 224 of its 256 entries are in use (R535). -/
def State.roomForEvents (s : State) : Prop := s.evr.queue.length < 224

/-- A chip domain reset took the block from `s` to `t` (R569): the chip domain is in reset with every register of the window and every unit of it at its
start, nothing in work, and the frames on flash are those of `s`. -/
def ChipWasReset (s t : State) : Prop :=
  t.power = { dual := s.power.dual, mode := if s.power.mode = .homestretch then .off else .warmup } ∧ t.regs = {} ∧ t.bank = {} ∧ t.broker = {} ∧
  t.loops = [] ∧ t.dieCnt = [] ∧ t.blks = [] ∧ t.rgns = [] ∧ t.tmk = {} ∧ t.mem = {} ∧ t.flt = {} ∧ t.ctrls = [] ∧ t.sqs = [] ∧ t.cqs = [] ∧
  t.links = [] ∧ t.work.ctxs = [] ∧ t.work.rows = [] ∧ t.work.ops = [] ∧ t.cph = { uds := s.cph.uds, pages := s.cph.pages } ∧
  t.boot.running = none ∧ t.media = s.media

/-- The invariant of the ledger: the acknowledged SEQ is at most the newest one, and no entry held is newer (R489, R493). -/
structure State.LedgerOrdered (s : State) : Prop where
  acked : s.boot.seqAck ≤ s.boot.seqNew
  entries : ∀ e ∈ s.boot.ledger, e.seq ≤ s.boot.seqNew

end Sys2Proof.Machine
end

