-- ==== Sys2Proof/Certificates/Slice0/Obligations.lean ====
section
/-! DEFINITION. The statements for the provers. Each says in its docstring which rules of the spec it rests on; a statement
holds for every state and operands that meet the hypotheses it names. `exec … = .next t` with no hypothesis on `t` says that the
command completes there. -/

open Sys2Proof Sys2Proof.Machine

/-- A step takes the command at the front of the queue: it is exec of that command on the state with the queue's rest; with no command waiting the block
idles. Every command completes in every state, on any operands: the spec gives no command a stop. The model's own rule of a block (log entry 4). -/
def Obligations.StepRunsFrontCommand : Prop :=
  (∀ (c : Instr) (rest : List Instr) (s : State), s.pending = c :: rest → step s = exec c { s with pending := rest }) ∧
  (∀ s : State, s.pending = [] → step s = .next s.idle) ∧
  (∀ (c : Instr) (s : State), ∃ t, exec c s = .next t)

/-- The five commands that reset a domain or release one from reset. AON_RESET_RELEASE (R19, R419, R551) with the AON domain in reset: the domain is on, the
VAUX power-on is counted, the input is good only at or above RISE, a reading between FALL and RISE records 0x0E19, and nothing else changes; with the
domain on already it changes nothing. VAUX_REMOVAL (R551): the chip domain is reset, and of the AON domain only the count of power-ons is left.
CHIP_RESET_RELEASE (R36, R55, R295, R551): the chip domain leaves reset in WARMUP with its port mode, its boot time, its active starter pair, step 9 complete
when a first housekeeping round has ended, and holds 0x05 and 0x01 for a latched trip and an input that is not good; released already, or after Homestretch
with the input not good (R425), it changes nothing. CHIP_RST_N_REQUEST (R553): without dirty bytes, or in Calm, the chip domain is reset; with dirty
bytes a landing for the reset is under way, or has ended with it; in reset and in Homestretch it is ignored. POWER_GOOD_DROP (R552): the domain is
reset with PWR_BFI_N and PWR_ISO_N low and the drop counted, in Homestretch the flush is cut off and the device is off (R439); all PG inputs high, or the
chip domain not running, only the pins change. -/
def Obligations.ResetsOfBothDomains : Prop :=
  (∀ (mv : Nat) (s : State), s.aon.on = false → ∃ t, exec (.aonResetRelease mv) s = .next t ∧
    t.aon.on = true ∧ t.aon.pfdGood = decide (s.cfg .pwrPfdCfg 0 31 20 ≤ mv) ∧ t.aon.vauxOn = s.aon.vauxOn + 1 ∧
    { t with aon := s.aon, evr := s.evr } = s ∧
    (s.cfg .pwrPfdCfg 0 19 8 < mv → mv < s.cfg .pwrPfdCfg 0 31 20 → s.roomForEvents →
      Recorded s t 0x0E19 srcAon mv (s.cfg .pwrPfdCfg 0 31 20) (s.cfg .pwrPfdCfg 0 19 8) 0)) ∧
  (∀ (mv : Nat) (s : State), s.aon.on = true → exec (.aonResetRelease mv) s = .next s) ∧
  (∀ s : State, s.aon.on = true → ∃ t, exec .vauxRemoval s = .next t ∧ t.aon = { vauxOn := s.aon.vauxOn } ∧ t.evr = {} ∧ t.lanes = [] ∧
    ChipWasReset s t) ∧
  (∀ (dual : Bool) (s : State), s.aon.on = true → s.power.inReset = true → (s.power.mode ≠ .off ∨ s.aon.pfdGood = true) →
    ∃ t, exec (.chipResetRelease dual) s = .next t ∧ t.power.inReset = false ∧ t.power.mode = .warmup ∧ t.power.dual = dual ∧
      t.power.t0 = s.now ∧ t.aon.bfiLow = false ∧ t.aon.pg = 0xF ∧ (s.aon.hkFirstRound = false → t.stepComplete 9 = true) ∧
      t.flt.activePair = (if s.boot.lkgValid then s.boot.lkgPair else 0) ∧ (5 ∈ t.power.holds ↔ s.aon.trip = true) ∧
      (1 ∈ t.power.holds ↔ s.aon.pfdGood = false)) ∧
  (∀ (dual : Bool) (s : State), (s.power.inReset = false ∨ (s.power.mode = .off ∧ s.aon.pfdGood = false)) →
    exec (.chipResetRelease dual) s = .next s) ∧
  (∀ s : State, s.released = true → s.power.mode ≠ .homestretch → (s.power.mode = .calm ∨ s.dirtyBytes = 0) → ∃ t,
    exec .chipRstNRequest s = .next t ∧ ChipWasReset s t ∧ t.aon.holdHigh = false) ∧
  (∀ s : State, s.released = true → s.power.mode ≠ .homestretch → s.power.mode ≠ .calm → s.dirtyBytes ≠ 0 → ∃ t,
    exec .chipRstNRequest s = .next t ∧ (t.power.inReset = true ∨ ∃ l, t.power.landing = some l ∧ l.cause = .chipReset)) ∧
  (∀ s : State, (s.released = false ∨ s.power.mode = .homestretch) → exec .chipRstNRequest s = .next s) ∧
  (∀ (pg : BitVec 4) (s : State), s.running = true → pg ≠ 0xF → (s.power.landing = none ∨ s.power.mode ≠ .homestretch) →
    ∃ t, exec (.powerGoodDrop pg) s = .next t ∧ ChipWasReset s t ∧ t.aon.bfiLow = true ∧ t.aon.isoLow = true ∧
      t.aon.pgDrops = satAdd 8 s.aon.pgDrops 1 ∧ t.aon.holdHigh = false) ∧
  (∀ (pg : BitVec 4) (l : Landing) (s : State), s.running = true → pg ≠ 0xF → s.power.landing = some l → s.power.mode = .homestretch →
    ∃ t, exec (.powerGoodDrop pg) s = .next t ∧ ChipWasReset s t ∧ t.power.mode = .off ∧ t.aon.domainOn = 1) ∧
  (∀ (pg : BitVec 4) (s : State), s.aon.on = true → (s.running = false ∨ pg = 0xF) →
    exec (.powerGoodDrop pg) s = .next (s.onAon fun a => { a with pg := pg }))

/-- The input supply and Homestretch. A fall of a good input below FALL makes it bad and drives PWR_BFI_N and PWR_ISO_N low in every mode (R411, R418): with a
trip latched, the chip domain not running, in Calm, off or in Homestretch, and in Warm-up before step 10, the mode stays (R519), before step 10 with hold 0x01
(R57, R424); in every other mode Homestretch begins with a landing of its own (R420, R423, R438). A rise makes a bad input good and clears hold 0x01
and no other (R57, R418); a device that Homestretch turned off leaves reset into Warm-up (R425). The end of Homestretch waits for its last landing write
(R438), and then only AON is powered, the pads of the other domains latched, and the mode is OFF (R412, R429); cut off, the same, with no figures in the
directory (R439). -/
def Obligations.InputSupplyAndHomestretch : Prop :=
  (∀ (mv bank : Nat) (s : State), s.aon.on = true → s.aon.pfdGood = true → mv < s.cfg .pwrPfdCfg 0 19 8 →
    (s.aon.trip = true ∨ s.running = false ∨ s.power.mode = .calm ∨ s.power.mode = .off ∨ s.power.mode = .homestretch ∨
      (s.power.mode = .warmup ∧ s.stepComplete 10 = false)) →
    ∃ t, exec (.pfdFall mv bank) s = .next t ∧ t.aon.pfdGood = false ∧ t.aon.bfiLow = true ∧ t.aon.isoLow = true ∧
      t.power.mode = s.power.mode ∧ (s.released = true → s.power.mode = .warmup → s.stepComplete 10 = false → 1 ∈ t.power.holds)) ∧
  (∀ (mv bank : Nat) (s : State), s.aon.on = true → s.aon.pfdGood = true → mv < s.cfg .pwrPfdCfg 0 19 8 → s.aon.trip = false →
    s.running = true → (s.power.mode = .stride ∨ s.power.mode = .sprint ∨ s.power.mode = .lull ∨
      (s.power.mode = .warmup ∧ s.stepComplete 10 = true)) →
    ∃ t l, exec (.pfdFall mv bank) s = .next t ∧ t.power.mode = .homestretch ∧ t.broker.closed = true ∧ t.power.landing = some l ∧
      l.cause = .homestretch ∧ t.aon.pfdGood = false ∧ t.aon.bfiLow = true ∧ t.aon.isoLow = true) ∧
  (∀ (mv bank : Nat) (s : State), (s.aon.on = false ∨ s.aon.pfdGood = false ∨ s.cfg .pwrPfdCfg 0 19 8 ≤ mv) →
    exec (.pfdFall mv bank) s = .next s) ∧
  (∀ s : State, s.aon.on = true → s.aon.pfdGood = false → (s.power.mode ≠ .off ∨ s.power.inReset = false) → ∃ t, exec .pfdRise s = .next t ∧
    t.aon.pfdGood = true ∧ (∀ h, h ∈ t.power.holds ↔ h ≠ 1 ∧ h ∈ s.power.holds) ∧ t.power.mode = s.power.mode) ∧
  (∀ s : State, s.aon.on = true → s.aon.pfdGood = false → s.power.mode = .off → s.power.inReset = true → ∃ t, exec .pfdRise s = .next t ∧
    t.aon.pfdGood = true ∧ t.power.inReset = false ∧ t.power.mode = .warmup ∧ t.power.t0 = s.now) ∧
  (∀ s : State, (s.aon.on = false ∨ s.aon.pfdGood = true) → exec .pfdRise s = .next s) ∧
  (∀ (mv : Nat) (l : Landing) (s : State), s.power.landing = some l → s.power.mode = .homestretch → s.assignLanding.landingDone = true →
    ∃ t, exec (.homestretchEnd mv) s = .next t ∧ t.aon.domainOn = 1 ∧ t.aon.bfiLow = true ∧ t.aon.isoLow = true ∧ t.power.mode = .off ∧
      t.power.inReset = true ∧ t.aon.padLatched = s.aon.padLatched ||| (s.aon.domainOn &&& ~~~1#64)) ∧
  (∀ (mv : Nat) (l : Landing) (s : State), s.power.landing = some l → s.assignLanding.landingDone = false →
    exec (.homestretchEnd mv) s = .next s.assignLanding) ∧
  (∀ (mv : Nat) (s : State), s.power.landing = none → exec (.homestretchEnd mv) s = .next s) ∧
  (∀ (v : Bool) (mv : Nat) (l : Landing) (s : State), s.power.landing = some l → s.power.mode = .homestretch →
    ∃ t, exec (.homestretchCutoff v mv) s = .next t ∧ t.aon.domainOn = 1 ∧ t.aon.bfiLow = true ∧ t.aon.isoLow = true ∧ t.power.mode = .off ∧
      t.power.inReset = true ∧ t.aon.padLatched = s.aon.padLatched ||| (s.aon.domainOn &&& ~~~1#64) ∧ t.store.figures = none) ∧
  (∀ (v : Bool) (mv : Nat) (s : State), (s.power.landing = none ∨ s.power.mode ≠ .homestretch) →
    exec (.homestretchCutoff v mv) s = .next s)

/-- The Sprint grant (R426). A write of PWR_SPRINT by the management controller gives GRANT and LEASE_MS; a lease that runs out clears GRANT, one that is 0 or no
longer held does not; the level of GPIO14 is taken while the AON domain is on. In each case the grant then is what GRANT, GPIO_EN and GPIO14 give, and
a change of it records event 0x0102 with its cause where the arrival queue has room. -/
def Obligations.SprintGrantFollowsItsInputs : Prop :=
  (∀ (w : BitVec 32) (s : State), s.servesMc = true → ∃ t, exec (.sprintGrantWrite w) s = .next t ∧
    t.power.grant = w.getLsbD 31 ∧ t.power.leaseMs = bitsOf w 15 0 ∧ t.power.granted = t.grantHolds ∧ t.regs = s.regs ∧
    t.out.mi = s.out.mi ++ [.ok []] ∧
    (t.power.granted ≠ s.power.granted → s.roomForEvents →
      Recorded s t 0x0102 s.srcStarters (bit t.power.granted) 1 0 0)) ∧
  (∀ (w : BitVec 32) (s : State), s.servesMc = false → exec (.sprintGrantWrite w) s = .next s) ∧
  (∀ s : State, s.running = true → s.power.grant = true → s.power.leaseMs ≠ 0 → ∃ t, exec .sprintLeaseExpiry s = .next t ∧
    t.power.grant = false ∧ t.power.granted = false ∧
    (s.power.granted = true → s.roomForEvents → Recorded s t 0x0102 s.srcStarters 0 2 0 0)) ∧
  (∀ s : State, (s.running = false ∨ s.power.grant = false ∨ s.power.leaseMs = 0) → exec .sprintLeaseExpiry s = .next s) ∧
  (∀ (high : Bool) (s : State), s.aon.on = true → ∃ t, exec (.sprintGpioChange high) s = .next t ∧
    t.aon.gpioIn.getLsbD 14 = high ∧ t.power.grant = s.power.grant ∧ (s.running = true → t.power.granted = t.grantHolds) ∧
    (s.running = true → t.power.granted ≠ s.power.granted → s.roomForEvents →
      Recorded s t 0x0102 s.srcStarters (bit t.power.granted) 3 0 0)) ∧
  (∀ (high : Bool) (s : State), s.aon.on = false → exec (.sprintGpioChange high) s = .next s)

/-- Entry (R432, R433). With no entry under way the command changes nothing. Step 1 waits until no admitted command is left, and then the broker is closed; step
2 of a Lull entry waits for the erases, step 2 of a Calm entry for every die operation; step 4 of a Calm entry waits for the lanes; from step 5 the
entry goes to its commit; the commit puts the target mode in force and keeps RESUME, and a wake that waits starts the exit from Lull. A wake that waits at an
abort point behind step 5 abandons the entry: in a mode other than Lull the device goes on in it, in Lull the exit starts; the abandonment is counted with its
source. Wakes (R430): a source of Lull, or without a trip of Calm, starts the exit and stands in PWR_WAKE_STAT; during an entry it waits, an edge in
the commit of window mode is lost and counted; a source that does not wake from the mode does nothing. Exit (R435, R436): a step that is not ready
changes nothing, one that is and is not the last joins the steps done in the same mode; the last one puts RESUME in force, Stride for Sprint when its grant is gone;
a restore that fails in step 4 of a Calm exit resets the chip domain. A maintenance timer that runs wakes the device for its work, with event 0x010B (R431). -/
def Obligations.LowPowerEntriesAndExits : Prop :=
  (∀ s : State, (s.power.entry = none ∨ s.running = false) → exec .entryStepDone s = .next s) ∧
  (∀ (e : Entry) (s : State), s.running = true → s.power.entry = some e → e.step = 1 → s.closeIdleParcels.commandsDone = false →
    exec .entryStepDone s = .next s.closeIdleParcels) ∧
  (∀ (e : Entry) (s : State), s.running = true → s.power.entry = some e → e.step = 1 → s.closeIdleParcels.commandsDone = true →
    (e.abortPoints = false ∨ s.closeIdleParcels.aon.wakePending = []) → ∃ t, exec .entryStepDone s = .next t ∧
      t.power.entry = some { e with step := 2 } ∧ t.broker.closed = true ∧ t.power.mode = s.power.mode) ∧
  (∀ (e : Entry) (s : State), s.running = true → s.power.entry = some e → e.step = 2 →
    (e.target = .calm ∧ (s.work.ops.any fun p => p.2.isSome) = true ∨ e.target ≠ .calm ∧ s.eraseRuns = true) →
    exec .entryStepDone s = .next s) ∧
  (∀ (e : Entry) (s : State), s.running = true → s.power.entry = some e → e.step = 2 → e.target = .lull → s.eraseRuns = false →
    (e.abortPoints = false ∨ s.aon.wakePending = []) → ∃ t, exec .entryStepDone s = .next t ∧
      t.power.entry = some { e with step := 3 } ∧ t.power.mode = s.power.mode) ∧
  (∀ (e : Entry) (s : State), s.running = true → s.power.entry = some e → e.step = 4 → s.lanesParked false = false →
    exec .entryStepDone s = .next s) ∧
  (∀ (e : Entry) (s : State), s.running = true → s.power.entry = some e → e.step = 5 →
    (e.abortPoints = false ∨ s.aon.wakePending = []) →
    exec .entryStepDone s = .next (s.onPower fun p => { p with entry := some { e with step := 6 } })) ∧
  (∀ (e : Entry) (s : State), s.running = true → s.power.entry = some e → 6 ≤ e.step → s.aon.wakePending = [] →
    (e.target = .lull ∨ e.target = .calm) → ∃ t, exec .entryStepDone s = .next t ∧
      t.power.mode = e.target ∧ t.power.entry = none ∧ t.power.resume = s.power.resume) ∧
  (∀ (e : Entry) (w : Nat × Nat) (ws : List (Nat × Nat)) (s : State), s.running = true → s.power.entry = some e → 6 ≤ e.step →
    s.aon.wakePending = w :: ws → e.target = .lull → ∃ t, exec .entryStepDone s = .next t ∧
      t.power.mode = .lull ∧ t.power.entry = none ∧ t.power.wakeStat = (w.2, w.1) ∧ t.aon.wakePending = [] ∧
      t.power.exit = some { source := .lull, done := [1], cause := w.1, since := s.now }) ∧
  (∀ (e : Entry) (w : Nat × Nat) (ws : List (Nat × Nat)) (s : State), s.running = true → s.power.entry = some e → e.step = 5 →
    e.abortPoints = true → s.aon.wakePending = w :: ws → s.power.mode ≠ .lull → ∃ t, exec .entryStepDone s = .next t ∧
      t.power.entry = none ∧ t.power.exit = s.power.exit ∧ t.power.mode = s.power.mode ∧ t.power.aborted = satAdd 16 s.power.aborted 1 ∧
      t.power.refuseLast = (w.2, 0x84, e.target.code) ∧ t.aon.wakePending = []) ∧
  (∀ (e : Entry) (w : Nat × Nat) (ws : List (Nat × Nat)) (s : State), s.running = true → s.power.entry = some e → e.step = 5 →
    e.abortPoints = true → s.aon.wakePending = w :: ws → s.power.mode = .lull → ∃ t, exec .entryStepDone s = .next t ∧
      t.power.entry = none ∧ t.power.exit = some { source := .lull, done := [1], cause := w.1, since := s.now } ∧
      t.power.mode = .lull ∧ t.power.aborted = satAdd 16 s.power.aborted 1 ∧ t.power.refuseLast = (w.2, 0x84, e.target.code)) ∧
  (∀ (b : Nat) (s : State), s.aon.on = true → (s.power.mode = .lull ∨ s.power.mode = .calm ∧ s.aon.trip = false) → s.power.entry = none →
    s.power.exit = none → s.wakes b s.power.mode = true → ∃ t, exec (.wakeEvent b) s = .next t ∧
      t.power.exit = some { source := s.power.mode, done := [1], cause := b, since := s.now } ∧ t.power.mode = s.power.mode ∧
      t.power.wakeStat = (wakeSource b, b) ∧ t.aon.wakePending = []) ∧
  (∀ (b : Nat) (e : Entry) (s : State), s.aon.on = true → s.power.entry = some e → (s.wakes b e.target = true ∨ s.wakes b s.power.mode = true) →
    (e.step ≠ 6 ∨ e.abortPoints = true ∨ s.edgeWake b = false) → (∀ w ∈ s.aon.wakePending, w.1 ≠ b) →
    exec (.wakeEvent b) s = .next (s.onAon fun a => { a with wakePending := s.aon.wakePending ++ [(b, wakeSource b)] })) ∧
  (∀ (b : Nat) (e : Entry) (s : State), s.aon.on = true → s.power.entry = some e → (s.wakes b e.target = true ∨ s.wakes b s.power.mode = true) →
    e.step = 6 → e.abortPoints = false → s.edgeWake b = true → ∃ t, exec (.wakeEvent b) s = .next t ∧
      t.power = { s.power with edgeLost := satAdd 32 s.power.edgeLost 1 } ∧ t.aon.wakePending = s.aon.wakePending ∧
      (s.roomForEvents → Recorded s t 0x0105 s.srcStarters b e.target.code 0 0)) ∧
  (∀ (b : Nat) (s : State), (s.aon.on = false ∨ s.power.entry = none ∧ s.wakes b s.power.mode = false) →
    exec (.wakeEvent b) s = .next s) ∧
  (∀ (n : Nat) (ok : Bool) (x : Exit) (s : State), s.released = true → s.power.exit = some x → s.exitStepReady x n = true →
    (x.source = .lull ∧ n ≠ 4 ∨ x.source = .calm ∧ n ≠ 4 ∧ n ≠ 9) → ∃ t y, exec (.exitStepDone n ok) s = .next t ∧
      t.power.exit = some y ∧ y.done = x.done ++ [n] ∧ y.source = x.source ∧ y.cause = x.cause ∧ t.power.mode = s.power.mode) ∧
  (∀ (n : Nat) (ok : Bool) (x : Exit) (s : State), s.released = true → s.power.exit = some x → s.exitStepReady x n = true →
    (x.source = .lull ∧ n = 4 ∨ x.source = .calm ∧ n = 9) → (s.power.resume = .stride ∨ s.power.resume = .sprint) → ∃ t,
    exec (.exitStepDone n ok) s = .next t ∧ t.power.exit = none ∧ (t.power.mode = .stride ∨ t.power.mode = .sprint) ∧
      (s.power.resume = .sprint → s.power.granted = false → t.power.mode = .stride)) ∧
  (∀ (ok : Bool) (x : Exit) (s : State), s.released = true → s.power.exit = some x → x.source = .calm → s.exitStepReady x 4 = true →
    (ok = false ∨ s.store.calmImage = some false) → ∃ t, exec (.exitStepDone 4 ok) s = .next t ∧ t.power.inReset = true ∧
      t.power.exit = none) ∧
  (∀ (x : Exit) (s : State), s.released = true → s.power.exit = some x → x.source = .calm → s.exitStepReady x 4 = true →
    s.store.calmImage ≠ some false → ∃ t y, exec (.exitStepDone 4 true) s = .next t ∧ t.power.exit = some y ∧ y.done = x.done ++ [4] ∧
      t.power.mode = s.power.mode ∧ t.store.calmImage = none) ∧
  (∀ (n : Nat) (ok : Bool) (s : State), (s.power.exit = none ∨ ∃ x, s.power.exit = some x ∧ s.exitStepReady x n = false) →
    exec (.exitStepDone n ok) s = .next s) ∧
  (∀ (w : MaintWork) (s : State), s.aon.on = true → (s.power.mode = .lull ∨ s.power.mode = .calm ∧ s.aon.trip = false) → s.power.exit = none →
    s.power.entry = none → s.aon.maintTimer.isSome = true → ∃ t, exec (.maintTimerExpiry w) s = .next t ∧
      t.power.maint = some (s.power.mode, w) ∧ t.aon.maintTimer = none ∧
      t.power.exit = some { source := s.power.mode, done := [1], cause := 6, since := s.now } ∧
      (s.roomForEvents → Recorded s t 0x010B s.srcStarters (maintCode w) s.power.mode.code 0 0)) ∧
  (∀ (w : MaintWork) (s : State), (s.aon.maintTimer = none ∨ s.power.mode = .stride ∨ s.power.mode = .sprint ∨ s.power.exit.isSome = true) →
    exec (.maintTimerExpiry w) s = .next s)

/-- Set Features from a PCIe controller, and the APST timer. Power Management (R310, R311, R423, R434): from a tenant other than 0 it is Feature Not Changeable;
a value above 4 is Invalid Field; during a change of mode it is Command Sequence Error with DW0 0; otherwise 0, 1 and 2 select that operational state, and 3
and 4 begin the entry to Lull and to Calm, or are Command Sequence Error with the reason in DW0, counted. APST (R310, R312): tenant 0 sets it, with PS3 and PS4 alone
as targets when it is enabled; its idle time, with no command and no window READ outstanding, requests the entry to its target, from Stride and Sprint, and to
Calm from Lull, and otherwise changes nothing. Temperature Threshold (R515): tenant 0 sets the Composite Temperature's and those of sensors 1 to 3, another selector is
Invalid Field. Host Behavior Support (R318): ACRE is set on the controller that sends it and on no other. -/
def Obligations.FeaturesOfTenantZeroAndOfControllers : Prop :=
  (∀ (h : Hdr) (v : Nat) (s : State), s.TakesAdmin ruleAny h → h.ctrl = 0 → v < 3 → s.changing = false → ∃ t,
    exec (.setFeaturesPower h v) s = .next t ∧ t.power.ps = v ∧ t.power.lastPs = v ∧ Posted s t h .success 0 0) ∧
  (∀ (h : Hdr) (v : Nat) (s : State), s.TakesAdmin ruleAny h → h.ctrl = 0 → v ≤ 4 → s.changing = true →
    (v < 3 ∨ v = 3 ∧ s.power.mode ≠ .lull ∨ v = 4 ∧ s.power.mode ≠ .calm) → ∃ t, exec (.setFeaturesPower h v) s = .next t ∧
    t.power = s.power ∧ Posted s t h .sequenceError 0 0) ∧
  (∀ (h : Hdr) (v : Nat) (s : State), s.TakesAdmin ruleAny h → h.ctrl = 0 → v = 3 ∨ v = 4 → s.changing = false →
    s.entryRefusal (v == 4) = none → ∃ t e, exec (.setFeaturesPower h v) s = .next t ∧ t.power.ps = v ∧ t.power.resume = s.power.mode ∧
    t.power.entry = some e ∧ e.target = (if v = 4 then .calm else .lull) ∧ e.step = 1 ∧ e.requester = 1 ∧ e.since = s.now ∧
    Posted s t h .success 0 0) ∧
  (∀ (h : Hdr) (v r src : Nat) (s : State), s.TakesAdmin ruleAny h → h.ctrl = 0 → v = 3 ∨ v = 4 → s.changing = false →
    s.entryRefusal (v == 4) = some (r, src) → ∃ t, exec (.setFeaturesPower h v) s = .next t ∧ t.power.entry = none ∧ t.power.ps = s.power.ps ∧
    t.power.refused = satAdd 16 s.power.refused 1 ∧ Posted s t h .sequenceError r 0) ∧
  (∀ (h : Hdr) (v : Nat) (s : State), s.TakesAdmin ruleAny h → h.ctrl ≠ 0 → ∃ t, exec (.setFeaturesPower h v) s = .next t ∧
    t.power = s.power ∧ Posted s t h .featureNotChangeable 0 0) ∧
  (∀ (h : Hdr) (v : Nat) (s : State), s.TakesAdmin ruleAny h → h.ctrl = 0 → 4 < v → ∃ t, exec (.setFeaturesPower h v) s = .next t ∧
    t.power = s.power ∧ Posted s t h .invalidField 0 0) ∧
  (∀ (h : Hdr) (on : Bool) (ms target : Nat) (s : State), s.TakesAdmin ruleAny h → h.ctrl = 0 →
    (on = true → target = 3 ∨ target = 4) → ∃ t, exec (.setFeaturesApst h on ms target) s = .next t ∧
    t.power = { s.power with apst := (on, ms, target) } ∧ Posted s t h .success 0 0) ∧
  (∀ (h : Hdr) (ms target : Nat) (s : State), s.TakesAdmin ruleAny h → h.ctrl = 0 → target ≠ 3 → target ≠ 4 → ∃ t,
    exec (.setFeaturesApst h true ms target) s = .next t ∧ t.power = s.power ∧ Posted s t h .invalidField 0 0) ∧
  (∀ (h : Hdr) (on : Bool) (ms target : Nat) (s : State), s.TakesAdmin ruleAny h → h.ctrl ≠ 0 → ∃ t,
    exec (.setFeaturesApst h on ms target) s = .next t ∧ t.power = s.power ∧ Posted s t h .featureNotChangeable 0 0) ∧
  (∀ (ms target : Nat) (s : State), s.running = true → s.power.apst = (true, ms, target) → s.work.ctxs = [] →
    (s.fab.reads.any fun r => r.2.isSome) = false → s.changing = false →
    (s.power.mode = .stride ∨ s.power.mode = .sprint ∨ s.power.mode = .lull ∧ target = 4) →
    s.entryRefusal (target == 4) = none → ∃ t e, exec .apstIdleExpiry s = .next t ∧ t.power.ps = (if target = 4 then 4 else 3) ∧
    t.power.resume = (if s.power.mode = .lull then s.power.resume else s.power.mode) ∧ t.power.entry = some e ∧
    e.target = (if target = 4 then .calm else .lull) ∧ e.step = 1 ∧ e.requester = 2) ∧
  (∀ (ms target r src : Nat) (s : State), s.running = true → s.power.apst = (true, ms, target) → s.work.ctxs = [] →
    (s.fab.reads.any fun r => r.2.isSome) = false → s.changing = false →
    (s.power.mode = .stride ∨ s.power.mode = .sprint ∨ s.power.mode = .lull ∧ target = 4) →
    s.entryRefusal (target == 4) = some (r, src) → ∃ t, exec .apstIdleExpiry s = .next t ∧ t.power.entry = none ∧
    t.power.refused = satAdd 16 s.power.refused 1 ∧ t.power.mode = s.power.mode) ∧
  (∀ (ms target : Nat) (on : Bool) (s : State), s.power.apst = (on, ms, target) →
    (on = false ∨ s.running = false ∨ s.work.ctxs ≠ [] ∨ (s.fab.reads.any fun r => r.2.isSome) = true ∨ s.changing = true ∨
      s.power.mode = .warmup ∨ s.power.mode = .calm) → exec .apstIdleExpiry s = .next s) ∧
  (∀ (h : Hdr) (i k : Nat) (u : Bool) (s : State), s.TakesAdmin ruleAny h → h.ctrl = 0 → i ≤ 3 → ∃ t,
    exec (.setFeaturesTempThreshold h i u k) s = .next t ∧ Posted s t h .success 0 0 ∧ t.aon.trip = s.aon.trip ∧
    Tbl.look 0 t.power.thresholds (2 * i + bit u) = k % 65536 + 1 ∧
    (∀ n, n ≠ 2 * i + bit u → Tbl.look 0 t.power.thresholds n = Tbl.look 0 s.power.thresholds n)) ∧
  (∀ (h : Hdr) (i k : Nat) (u : Bool) (s : State), s.TakesAdmin ruleAny h → h.ctrl = 0 → 3 < i → ∃ t,
    exec (.setFeaturesTempThreshold h i u k) s = .next t ∧ t.power = s.power ∧ Posted s t h .invalidField 0 0) ∧
  (∀ (h : Hdr) (i k : Nat) (u : Bool) (s : State), s.TakesAdmin ruleAny h → h.ctrl ≠ 0 → ∃ t,
    exec (.setFeaturesTempThreshold h i u k) s = .next t ∧ t.power = s.power ∧ Posted s t h .featureNotChangeable 0 0) ∧
  (∀ (h : Hdr) (a : Bool) (s : State), s.TakesAdmin ruleAny h → ∃ t, exec (.setFeaturesHostBehavior h a) s = .next t ∧
    (t.ctrl h.ctrl).acre = a ∧ (∀ c, c ≠ h.ctrl → t.ctrl c = s.ctrl c) ∧ Posted s t h .success 0 0)

/-- Housekeeping (R505, R507, R508, R511, R558). A conversion takes the next of the 128 channels, the round complete with the last; with the ADC standing or the AON domain
off it does nothing. A supply monitor's channel shows its reading and its limits; a sensor's channel shows a reading in range as valid, offset added, and a
broken one as broken; a channel that is none of these changes nothing else. A complete round ends counted: with a reference out of tolerance it is
discarded, and counted so, its band unchanged, and the third in a row fails the ADC; otherwise the band and the headroom are evaluated; a round that is not complete
does not end. Trip (R516, R517): an on-die reading at or above THM_TRIP.JUNCTION, and the hard comparator, latch the trip, close the broker, take
the bounds out of force and stop charging, and the comparator's holds every lane; a trip that is latched is not taken again. -/
def Obligations.HousekeepingRoundsAndTrip : Prop :=
  (∀ (x : HkSample) (s : State), s.aon.on = true → s.adcOff = false → ∃ t, exec (.hkChannelConvert x) s = .next t ∧
    t.aon.hkChannel = (s.aon.hkChannel + 1) % 128 ∧ t.aon.hkRounds = s.aon.hkRounds ∧ (t.aon.hkComplete = true ↔ s.aon.hkChannel = 127)) ∧
  (∀ (x : HkSample) (i : Nat) (s : State), s.aon.on = true → s.adcOff = false → i < 11 → s.aon.hkChannel = 104 + i → ∃ t,
    exec (.hkChannelConvert x) s = .next t ∧ (∃ v, Tbl.look {} t.aon.supplies i = v ∧ v.valid = true ∧ v.mv = satTo 16 x.value.toNat ∧
      v.low = decide (x.value.toNat < (supplyRange i).1) ∧ v.high = decide ((supplyRange i).2 < x.value.toNat)) ∧
    t.aon.sensors = s.aon.sensors) ∧
  (∀ (x : HkSample) (i : Nat) (s : State), s.aon.on = true → s.adcOff = false → s.power.adcFail = false → sensorOfChannel s.aon.hkChannel = some i →
    (s.sensor i).broken = false → faultOf x.fault (x.value + 2 * signedOf 9 (s.cfg .thmSens i 20 12)) = .none → ∃ t,
    exec (.hkChannelConvert x) s = .next t ∧ (t.sensor i).valid = true ∧ (t.sensor i).broken = false ∧
      (t.sensor i).temp = x.value + 2 * signedOf 9 (s.cfg .thmSens i 20 12) ∧
      (24 ≤ i → (16 * min 115 (s.cfg .thmTrip 0 31 24) : Int) ≤ (t.sensor i).temp → t.aon.trip = true ∧ t.broker.closed = true ∨ s.aon.trip = true)) ∧
  (∀ (x : HkSample) (i : Nat) (s : State), s.aon.on = true → s.adcOff = false → s.power.adcFail = false → sensorOfChannel s.aon.hkChannel = some i →
    (s.sensor i).broken = false → faultOf x.fault (x.value + 2 * signedOf 9 (s.cfg .thmSens i 20 12)) ≠ .none → ∃ t,
    exec (.hkChannelConvert x) s = .next t ∧ (t.sensor i).valid = false ∧ (t.sensor i).broken = true ∧ (t.sensor i).brokenAt = s.now ∧
      t.aon.trip = s.aon.trip) ∧
  (∀ (x : HkSample) (s : State), s.aon.on = true → s.adcOff = false → sensorOfChannel s.aon.hkChannel = none →
    (s.aon.hkChannel < 104 ∨ 115 ≤ s.aon.hkChannel ∧ (x.refOk = true ∨ s.aon.hkChannel < 120)) → exec (.hkChannelConvert x) s = .next (s.onAon fun a =>
      { a with hkChannel := (s.aon.hkChannel + 1) % 128, hkComplete := decide (s.aon.hkChannel = 127) })) ∧
  (∀ (x : HkSample) (s : State), (s.adcOff = true ∨ s.aon.on = false) → exec (.hkChannelConvert x) s = .next s) ∧
  (∀ (ch code : Nat) (s : State), s.aon.on = true → s.aon.hkComplete = true → s.adcOff = false → s.power.adcFail = false →
    s.aon.hkBadRef = some (ch, code) → ∃ t, exec .hkRoundEnd s = .next t ∧ t.aon.hkRounds = satAdd 16 s.aon.hkRounds 1 ∧
      t.aon.hkDiscarded = satAdd 8 s.aon.hkDiscarded 1 ∧ t.aon.hkDiscardRun = s.aon.hkDiscardRun + 1 ∧ t.aon.band = s.aon.band ∧
      t.aon.headroom = s.aon.headroom ∧ (t.power.adcFail = true ↔ s.aon.hkDiscardRun = 2) ∧ t.aon.hkComplete = false) ∧
  (∀ s : State, s.aon.on = true → s.aon.hkComplete = true → s.adcOff = false → (s.power.adcFail = true ∨ s.aon.hkBadRef = none) → ∃ t,
    exec .hkRoundEnd s = .next t ∧ t.aon.hkRounds = satAdd 16 s.aon.hkRounds 1 ∧ t.aon.hkDiscardRun = 0 ∧ t.aon.hkFirstRound = false ∧
      t.aon.band = bandFor s.aon.hkFirstRound s.aon.band s.bandTemperature.1 ∧ t.aon.headroom = s.headroomNow ∧
      t.aon.hkDiscarded = s.aon.hkDiscarded ∧ t.aon.hkComplete = false) ∧
  (∀ s : State, (s.aon.on = false ∨ s.aon.hkComplete = false ∨ s.adcOff = true) → exec .hkRoundEnd s = .next s) ∧
  (∀ s : State, s.aon.on = true → s.aon.trip = false → ∃ t, exec .hardComparatorTrip s = .next t ∧ t.aon.trip = true ∧
    t.aon.thermtripLow = true ∧ t.aon.tripSource = 0xFF ∧ t.broker.closed = true ∧ t.tmk.inForce = false ∧ t.bank.charging = false ∧
    (∀ n, n < 512 → (t.lane n).st = .held)) ∧
  (∀ s : State, (s.aon.trip = true ∨ s.aon.on = false) → exec .hardComparatorTrip s = .next s)

/-- AVSBus (R550). A change that is acknowledged is in force, and the next one toward the goal, of at most 10 mV, goes out unless the goal is reached; one that
is not is repeated once, and then AVS_OK clears and the target stays. With no change under way, or before reset is released, nothing happens. -/
def Obligations.AvsBusStepsAreConfirmed : Prop :=
  (∀ (mv : Nat) (r : Bool) (s : State), s.released = true → s.power.avsStep = some (mv, r) → ∃ t,
    exec (.avsbusStepTimer true) s = .next t ∧ t.power.vddc = mv ∧ t.power.avsOk = true ∧
    (s.power.avsGoal = mv ↔ t.power.avsStep = none) ∧
    (∀ n b, t.power.avsStep = some (n, b) → b = false ∧ n ≤ mv + 10 ∧ mv ≤ n + 10 ∧ n ≠ mv) ∧
    { t with power := s.power } = s) ∧
  (∀ (mv : Nat) (s : State), s.released = true → s.power.avsStep = some (mv, false) →
    exec (.avsbusStepTimer false) s = .next (s.onPower fun p => { p with avsStep := some (mv, true) })) ∧
  (∀ (mv : Nat) (s : State), s.released = true → s.power.avsStep = some (mv, true) →
    exec (.avsbusStepTimer false) s = .next (s.onPower fun p => { p with avsOk := false, avsStep := none, avsGoal := p.vddc })) ∧
  (∀ (a : Bool) (s : State), (s.power.avsStep = none ∨ s.released = false) → exec (.avsbusStepTimer a) s = .next s)

/-- PCIe links. Link up (R292, R295): a link that is down comes up at the rate and width that its port trains; it changes nothing on a port without a
physical function, a link that is up, or in Calm and Homestretch. Retrain (R294): an entry to Recovery is counted; of a link that is down it changes
nothing. Hot reset (R296): the link is down, a loss of an up link counted, and the physical function of the port is reset with VF Enable and bus mastering clear; the
bound sets in force are computed again when a link is lost, comes up or changes its rate (R222). PERST (R296, R430): the same, and from
Lull and Calm without a trip the exit starts. With the chip domain in reset neither has an effect. -/
def Obligations.PcieLinksComeAndGo : Prop :=
  (∀ (port rate width : Nat) (f : Bool) (s : State), s.pcieOn = true → s.portExists port = true → (s.link port).up = false → ∃ t,
    exec (.pcieLinkUp port rate width f) s = .next t ∧ (t.link port).up = true ∧ (t.link port).rate = min rate (s.cfg .chipPcieCfg 0 11 8) ∧
      (t.link port).width = min width s.maxWidth ∧ (t.link port).flit = f ∧ (t.link port).downs = (s.link port).downs ∧
      (∀ p, p ≠ port → t.link p = s.link p) ∧ (s.tmk.inForce = true → t.tmk.computing = true) ∧ { t with links := s.links, tmk := s.tmk } = s) ∧
  (∀ (port rate width : Nat) (f : Bool) (s : State), (s.pcieOn = false ∨ s.portExists port = false ∨ (s.link port).up = true) →
    exec (.pcieLinkUp port rate width f) s = .next s) ∧
  (∀ (port rate width : Nat) (f : Bool) (s : State), s.pcieOn = true → (s.link port).up = true → ∃ t,
    exec (.pcieLinkRetrain port rate width f) s = .next t ∧ (t.link port).recov = satAdd 8 (s.link port).recov 1 ∧
      (t.link port).up = true ∧ (t.link port).rate = min rate (s.cfg .chipPcieCfg 0 11 8) ∧ (t.link port).downs = (s.link port).downs ∧
      (∀ p, p ≠ port → t.link p = s.link p) ∧ { t with links := s.links, tmk := s.tmk } = s ∧
      ((t.link port).rate ≠ (s.link port).rate → s.tmk.inForce = true → t.tmk.computing = true)) ∧
  (∀ (port rate width : Nat) (f : Bool) (s : State), ((s.link port).up = false ∨ s.pcieOn = false) →
    exec (.pcieLinkRetrain port rate width f) s = .next s) ∧
  (∀ (port : Nat) (s : State), s.running = true → port < 2 → ∃ t, exec (.pcieHotReset port) s = .next t ∧ (t.link port).up = false ∧
      (t.link port).width = 0 ∧ (t.link port).recov = (s.link port).recov ∧ (∀ p, p ≠ port → t.link p = s.link p) ∧
      (t.link port).downs = (if (s.link port).up then satAdd 8 (s.link port).downs 1 else (s.link port).downs) ∧
      ((s.link port).up = true → s.tmk.inForce = true → t.tmk.computing = true) ∧
      (s.portExists port = true → (t.ctrl port).numVfs = 0 ∧ (t.ctrl port).busMaster = false ∧ (t.ctrl port).en = false)) ∧
  (∀ (port : Nat) (s : State), s.running = false → exec (.pcieHotReset port) s = .next s) ∧
  (∀ (port : Nat) (s : State), s.released = true → port < 2 → (s.power.mode ≠ .calm ∨ s.aon.trip = false) → ∃ t,
    exec (.perstAssert port) s = .next t ∧ (t.link port).up = false ∧
      (t.link port).downs = (if (s.link port).up then satAdd 8 (s.link port).downs 1 else (s.link port).downs) ∧
      (s.portExists port = true → (t.ctrl port).numVfs = 0 ∧ (t.ctrl port).busMaster = false ∧ (t.ctrl port).en = false) ∧
      ((s.power.mode = .lull ∨ s.power.mode = .calm) → s.power.entry = none → s.power.exit = none →
        t.power.exit = some { source := s.power.mode, done := [1], cause := 3, since := s.now })) ∧
  (∀ (port : Nat) (s : State), s.released = false → exec (.perstAssert port) s = .next s)

/-- Configuration requests of a port whose link is up (R297, R298, R301). Before Warm-up step 4, outside a hold behind step 2, each is answered with Request Retry
Status. Then a function that exists is answered: a read of dword 0 with vendor 0x1F3B and the device of its kind, of dword 2 with the class code 0x010802 above
a free revision, of any other dword with a free value; a write of VF Enable 1 on the physical function enables the VFs asked for, at most TotalVFs, and on
a function that has them, or on a virtual function, changes nothing; VF Enable 0 on the physical function takes them away; bus mastering is the function's
own. A function that does not exist is not answered, and no request is without a link. -/
def Obligations.ConfigurationRequestsAnswered : Prop :=
  (∀ (port fn : Nat) (r : CfgRequest) (s : State), s.pcieOn = true → s.portExists port = true → (s.link port).up = true →
    s.configReady = false → exec (.pcieConfigRequest port fn r) s = .next (s.onOut fun o => { o with config := o.config ++ [none] })) ∧
  (∀ (port fn b : Nat) (s : State), s.pcieOn = true → s.portExists port = true → (s.link port).up = true → s.configReady = true →
    fn ≤ s.totalVfs port → s.functionExists (s.slotOf port fn) = true → b < 4 →
    exec (.pcieConfigRequest port fn (.read b)) s = .next (s.onOut fun o => { o with config := o.config ++
      [some (if fn ≠ 0 then 0x51211F3B#32 else if port = 0 then 0x51201F3B#32 else 0x51221F3B#32)] })) ∧
  (∀ (port fn o : Nat) (s : State), s.pcieOn = true → s.portExists port = true → (s.link port).up = true → s.configReady = true →
    fn ≤ s.totalVfs port → s.functionExists (s.slotOf port fn) = true → 4 ≤ o → ∃ t w,
    exec (.pcieConfigRequest port fn (.read o)) s = .next t ∧ t.out.config = s.out.config ++ [some w] ∧
      (o / 4 = 2 → w.toNat / 256 = 0x010802) ∧ { t with out := s.out, work := s.work } = s) ∧
  (∀ (port n : Nat) (s : State), s.pcieOn = true → s.portExists port = true → (s.link port).up = true → s.configReady = true →
    (s.ctrl (s.slotOf port 0)).numVfs = 0 → s.functionExists (s.slotOf port 0) = true → ∃ t, exec (.pcieConfigRequest port 0 (.setVfEnable n)) s = .next t ∧
      (t.ctrl (s.slotOf port 0)).numVfs = min n (s.totalVfs port) ∧ (t.ctrl (s.slotOf port 0)).en = (s.ctrl (s.slotOf port 0)).en ∧
      (∀ c, c ≠ s.slotOf port 0 → t.ctrl c = s.ctrl c) ∧ t.links = s.links ∧ t.out.config = s.out.config ++ [some 0]) ∧
  (∀ (port fn n : Nat) (s : State), s.pcieOn = true → s.portExists port = true → (s.link port).up = true → s.configReady = true →
    fn ≤ s.totalVfs port → s.functionExists (s.slotOf port fn) = true → (fn ≠ 0 ∨ (s.ctrl (s.slotOf port 0)).numVfs ≠ 0) →
    exec (.pcieConfigRequest port fn (.setVfEnable n)) s = .next (s.onOut fun o => { o with config := o.config ++ [some 0] })) ∧
  (∀ (port fn : Nat) (on : Bool) (s : State), s.pcieOn = true → s.portExists port = true → (s.link port).up = true → s.configReady = true →
    fn ≤ s.totalVfs port → s.functionExists (s.slotOf port fn) = true → ∃ t, exec (.pcieConfigRequest port fn (.busMaster on)) s = .next t ∧
      (t.ctrl (s.slotOf port fn)).busMaster = on ∧ (∀ c, c ≠ s.slotOf port fn → t.ctrl c = s.ctrl c) ∧
      t.out.config = s.out.config ++ [some 0]) ∧
  (∀ (port : Nat) (s : State), s.pcieOn = true → s.portExists port = true → (s.link port).up = true → s.configReady = true →
    s.functionExists (s.slotOf port 0) = true → ∃ t, exec (.pcieConfigRequest port 0 .clearVfEnable) s = .next t ∧
      (t.ctrl (s.slotOf port 0)).numVfs = 0 ∧ t.out.config = s.out.config ++ [some 0]) ∧
  (∀ (port fn : Nat) (s : State), s.pcieOn = true → s.portExists port = true → (s.link port).up = true → s.configReady = true → fn ≠ 0 →
    fn ≤ s.totalVfs port → s.functionExists (s.slotOf port fn) = true →
    exec (.pcieConfigRequest port fn .clearVfEnable) s = .next (s.onOut fun o => { o with config := o.config ++ [some 0] })) ∧
  (∀ (port fn : Nat) (r : CfgRequest) (s : State), ((s.link port).up = false ∨ s.pcieOn = false ∨ s.portExists port = false ∨
    s.configReady = true ∧ (s.totalVfs port < fn ∨ s.functionExists (s.slotOf port fn) = false)) → exec (.pcieConfigRequest port fn r) s = .next s)

/-- Enable (R56, R229, R304): a PCIe controller of a function that exists is enabled with an admin queue of the depth given, and CSTS.RDY follows the tenant's ready
bit or a hold; a fabric controller that Connect made is enabled; a depth outside 2 to 4,096, a function that does not exist, or a controller that is
enabled or being reset changes nothing; contexts that do not fit leave it disabled. Disable (R378): fetch stops, the drain runs from now, and the tenant is
RESETTING; of a controller being reset already only CC.EN clears. FLR (R301): of a virtual function it resets its controller and ends its bus
mastering; of a physical function it clears VF Enable with it; of a function that does not exist it changes nothing. End of the drain (R378):
once nothing of the controller is left it is disabled, CSTS.RDY is clear, a PCIe controller's queues are deleted, and its tenant leaves RESETTING with its last
controller; before that it changes nothing. -/
def Obligations.ControllerEnableAndReset : Prop :=
  (∀ (c d : Nat) (s : State), s.pcieOn = true → (s.ctrl c).en = false → (s.ctrl c).drain = none → c < 256 → s.functionExists c = true →
    2 ≤ d → d ≤ 4096 → s.adminQueueFits c d = true → ∃ t, exec (.ccEnable c d) s = .next t ∧ (t.ctrl c).en = true ∧
      (t.ctrl c).rdy = ((s.tenant c).ready || (c == 0 && s.inHold)) ∧ (t.sq (queueKey c 0)).depth = d ∧ (t.cq (queueKey c 0)).depth = d ∧
      (∀ k, k ≠ c → t.ctrl k = s.ctrl k) ∧ (∀ q, q ≠ queueKey c 0 → t.sq q = s.sq q ∧ t.cq q = s.cq q) ∧
      { t with ctrls := s.ctrls, sqs := s.sqs, cqs := s.cqs } = s) ∧
  (∀ (c d : Nat) (s : State), s.pcieOn = true → (s.ctrl c).en = false → (s.ctrl c).drain = none → 256 ≤ c → (s.ctrl c).present = true →
    exec (.ccEnable c d) s = .next (s.setCtrl c { s.ctrl c with en := true, rdy := s.mayBeReady (s.tenantOf c) })) ∧
  (∀ (c d : Nat) (s : State), (s.pcieOn = false ∨ (s.ctrl c).en = true ∨ (s.ctrl c).drain.isSome = true ∨
    c < 256 ∧ (d < 2 ∨ 4096 < d ∨ s.functionExists c = false) ∨ 256 ≤ c ∧ (s.ctrl c).present = false) → exec (.ccEnable c d) s = .next s) ∧
  (∀ (c d : Nat) (s : State), s.pcieOn = true → (s.ctrl c).en = false → (s.ctrl c).drain = none → c < 256 → s.functionExists c = true →
    2 ≤ d → d ≤ 4096 → s.adminQueueFits c d = false → ∃ t, exec (.ccEnable c d) s = .next t ∧ t.ctrls = s.ctrls ∧ t.sqs = s.sqs ∧
      t.cqs = s.cqs) ∧
  (∀ (c : Nat) (s : State), s.running = true → (s.ctrl c).en = true → (s.ctrl c).drain = none → ∃ t, exec (.ccDisable c) s = .next t ∧
      (t.ctrl c).en = false ∧ (t.ctrl c).stopped = true ∧ (t.ctrl c).drain = some s.now ∧
      ((s.tenant (s.tenantOf c)).st ≠ .free → (t.tenant (s.tenantOf c)).st = .resetting) ∧
      (s.ctxIds (fun x => x.hdr.ctrl == c) = [] → (∀ k, k ≠ c → t.ctrl k = s.ctrl k) ∧ ∀ u, u ≠ s.tenantOf c → t.tenant u = s.tenant u)) ∧
  (∀ (c n : Nat) (s : State), s.running = true → (s.ctrl c).en = true → (s.ctrl c).drain = some n →
    exec (.ccDisable c) s = .next (s.setCtrl c { s.ctrl c with en := false })) ∧
  (∀ (c : Nat) (s : State), ((s.ctrl c).en = false ∨ s.running = false) → exec (.ccDisable c) s = .next s) ∧
  (∀ (k : Nat) (s : State), s.running = true → s.functionExists k = true → k ≠ 0 → (s.power.dual = true → k ≠ 1) → (s.ctrl k).en = true →
    (s.ctrl k).drain = none → ∃ t, exec (.functionLevelReset k) s = .next t ∧
      (t.ctrl k).en = false ∧ (t.ctrl k).busMaster = false ∧ (t.ctrl k).drain = some s.now) ∧
  (∀ (k : Nat) (s : State), s.running = true → s.functionExists k = true → k ≠ 0 → (s.power.dual = true → k ≠ 1) → (s.ctrl k).en = false →
    exec (.functionLevelReset k) s = .next (s.setCtrl k { s.ctrl k with busMaster := false })) ∧
  (∀ (k : Nat) (s : State), s.running = true → s.functionExists k = true → (k = 0 ∨ s.power.dual = true ∧ k = 1) → ∃ t,
    exec (.functionLevelReset k) s = .next t ∧ (t.ctrl k).numVfs = 0 ∧ (t.ctrl k).en = false ∧ (t.ctrl k).busMaster = false ∧ t.links = s.links) ∧
  (∀ (k : Nat) (s : State), (s.running = false ∨ s.functionExists k = false) → exec (.functionLevelReset k) s = .next s) ∧
  (∀ (c n : Nat) (s : State), s.running = true → c < 256 → (s.ctrl c).drain = some n → s.ctrlBusy c = false → ∃ t,
    exec (.resetDrainDone c) s = .next t ∧ (t.ctrl c).en = false ∧ (t.ctrl c).rdy = false ∧ (t.ctrl c).drain = none ∧
      (∀ q, (t.sq (queueKey c q)).depth = 0 ∨ 65536 ≤ q) ∧ t.media = s.media) ∧
  (∀ (c n : Nat) (s : State), s.running = true → (s.ctrl c).drain = some n → s.ctrlBusy c = false → (s.tenant (s.tenantOf c)).ending = none →
    (s.tenant (s.tenantOf c)).st = .resetting → ∃ t, exec (.resetDrainDone c) s = .next t ∧ (t.ctrl c).en = false ∧ (t.ctrl c).drain = none ∧
      (t.tenant (s.tenantOf c)).resets = satAdd 8 (s.tenant (s.tenantOf c)).resets 1 ∧
      ((t.tenant (s.tenantOf c)).st = .active ↔ ∀ k ∈ s.draining (s.tenantOf c), k = c)) ∧
  (∀ (c : Nat) (s : State), (s.ctrlBusy c = true ∨ (s.ctrl c).drain = none ∨ s.running = false) → exec (.resetDrainDone c) s = .next s)

/-- Doorbells of a PCIe controller (R313, R377, R378, R430). A tail or a head inside its queue is taken: the queue moves and no other queue does; one outside
it leaves every queue and raises Invalid Doorbell Write on that controller, which ends the oldest Asynchronous Event Request it holds or waits for one; in
Lull either one starts the exit. On a controller that is disabled, being reset or of the fabric, and while PCIe is off, nothing happens. -/
def Obligations.DoorbellsMoveTheirQueue : Prop :=
  (∀ (c q v : Nat) (s : State), s.pcieOn = true → c < 256 → (s.ctrl c).en = true → (s.ctrl c).drain = none →
    v < (s.sq (queueKey c q)).depth → ∃ t,
    exec (.doorbellWrite c q false v) s = .next t ∧ (t.sq (queueKey c q)).tail = v ∧ (t.sq (queueKey c q)).head = (s.sq (queueKey c q)).head ∧
      (∀ k, k ≠ queueKey c q → t.sq k = s.sq k) ∧ t.cqs = s.cqs ∧ t.out.completions = s.out.completions ∧ t.power.mode = s.power.mode ∧
      (s.power.mode = .lull → s.power.entry = none → s.power.exit = none →
        t.power.exit = some { source := .lull, done := [1], cause := 0, since := s.now })) ∧
  (∀ (c q v : Nat) (s : State), s.pcieOn = true → c < 256 → (s.ctrl c).en = true → (s.ctrl c).drain = none →
    v < (s.cq (queueKey c q)).depth → ∃ t,
    exec (.doorbellWrite c q true v) s = .next t ∧ (t.cq (queueKey c q)).head = v ∧ (∀ k, k ≠ queueKey c q → t.cq k = s.cq k) ∧
      t.sqs = s.sqs ∧ t.out.completions = s.out.completions ∧ t.power.mode = s.power.mode ∧
      (s.power.mode = .lull → s.power.entry = none → s.power.exit = none →
        t.power.exit = some { source := .lull, done := [1], cause := 0, since := s.now })) ∧
  (∀ (c q v : Nat) (cq : Bool) (s : State), s.pcieOn = true → c < 256 → (s.ctrl c).en = true → (s.ctrl c).drain = none →
    (if cq then (s.cq (queueKey c q)).depth else (s.sq (queueKey c q)).depth) ≤ v → (s.ctrl c).aers = [] → ∃ t,
    exec (.doorbellWrite c q cq v) s = .next t ∧ t.out.notices = s.out.notices ++ [(c, .invalidDoorbell c)] ∧ t.sqs = s.sqs ∧
      t.cqs = s.cqs ∧ (t.ctrl c).events = (s.ctrl c).events ++ [.invalidDoorbell c] ∧ (∀ k, k ≠ c → t.ctrl k = s.ctrl k)) ∧
  (∀ (c q v a : Nat) (as : List Nat) (cq : Bool) (s : State), s.pcieOn = true → c < 256 → (s.ctrl c).en = true → (s.ctrl c).drain = none →
    (if cq then (s.cq (queueKey c q)).depth else (s.sq (queueKey c q)).depth) ≤ v → (s.ctrl c).aers = a :: as → ∃ t,
    exec (.doorbellWrite c q cq v) s = .next t ∧ (t.ctrl c).aers = as ∧
      Posted s t { ctrl := c, sqid := 0, cid := a, nsid := 0, mc := false } .success 0x010100 0) ∧
  (∀ (c q v : Nat) (cq : Bool) (s : State), ((s.ctrl c).en = false ∨ (s.ctrl c).drain.isSome = true ∨ s.pcieOn = false ∨ 256 ≤ c) →
    exec (.doorbellWrite c q cq v) s = .next s)

/-- R4, whole: every register of an absent unit reads as zero, to the manager and to the management controller, alone or among the dwords of a longer
read; a write to it, by a register write of either party or by the fabric's own commands, has no effect and raises no bus error (the state of the block
is the same, so no event is raised). -/
def Obligations.AbsentUnitRegistersReadZero : Prop :=
  (∀ (o i : Nat) (r : Reg) (fs : List Fld) (s : State), s.windowServed = true → inWindow o 1 = true → locate o = .reg r i fs →
    s.absent r = true → exec (.managerRegisterRead o 1) s = .next (s.onOut fun x => { x with reads := x.reads ++ [[0]] })) ∧
  (∀ (o n k i : Nat) (r : Reg) (fs : List Fld) (s : State), s.windowServed = true → inWindow o n = true → k < n →
    locate (o + 4 * k) = .reg r i fs → s.absent r = true → ∃ t ws, exec (.managerRegisterRead o n) s = .next t ∧
      t.out.reads = s.out.reads ++ [ws] ∧ ws.length = n ∧ ws[k]? = some 0) ∧
  (∀ (a b : BitVec 32) (k i : Nat) (r : Reg) (fs : List Fld) (s : State), s.servesMc = true → s.windowServed = true →
    bitsOf a 31 28 = 0 → bitsOf b 31 4 = 0 → inWindow (bitsOf a 27 0) (bitsOf b 3 0 + 1) = true → k ≤ bitsOf b 3 0 →
    locate (bitsOf a 27 0 + 4 * k) = .reg r i fs → s.absent r = true → ∃ t ws, exec (.mcRegisterRead a b) s = .next t ∧
      t.out.mi = s.out.mi ++ [.ok ws] ∧ ws[k]? = some 0) ∧
  (∀ (o i : Nat) (r : Reg) (fs : List Fld) (be : BitVec 4) (v : BitVec 32) (s : State), s.windowServed = true → locate o = .reg r i fs →
    s.absent r = true → exec (.registerWrite o be v) s = .next s) ∧
  (∀ (a v : BitVec 32) (i : Nat) (r : Reg) (fs : List Fld) (s : State), s.servesMc = true → s.windowServed = true → bitsOf a 31 28 = 0 →
    inWindow (bitsOf a 27 0) 1 = true → locate (bitsOf a 27 0) = .reg r i fs → s.absent r = true →
    exec (.mcRegisterWrite a v) s = .next (s.onOut fun o => { o with mi := o.mi ++ [.invalidParameter] })) ∧
  (∀ (d k : Nat) (v : BitVec 32) (s : State), s.absent .fabPd = true →
    exec (.fabPdWrite d v) s = .next s ∧ exec (.fabAddrWrite d k v) s = .next s)

/-- The manager's accesses through BAR2 while the window is served (R22, R563, R565, R567). A read of 1 to 16 dwords inside the window, none of them
unimplemented, gives the dword of each offset and changes nothing else; an unimplemented offset reads 0, is not written, and is counted with its
party and offset; a write with a byte enable clear is denied and counted. A write to a register that has a command of its own is that command; to the GPIO levels it acts
at once; to the RWLIVE fields of any other register it waits for the quiet point, a word that gives none of them a legal value changing nothing; to PWR_SPRINT
it sets LEASE_MS, GRANT being denied; to PWR_PAD_RELEASE it is denied. Outside the window, and while it is not served, an access does nothing. -/
def Obligations.ManagerWindowAccesses : Prop :=
  (∀ (o n : Nat) (s : State), s.windowServed = true → inWindow o n = true → (∀ k, k < n → locate (o + 4 * k) ≠ .unimplemented) →
    exec (.managerRegisterRead o n) s = .next (s.onOut fun x => { x with reads := x.reads ++ [(List.range n).map fun k => s.readAt (o + 4 * k)] })) ∧
  (∀ (o : Nat) (s : State), s.windowServed = true → inWindow o 1 = true → locate o = .unimplemented → ∃ t,
    exec (.managerRegisterRead o 1) s = .next t ∧ t.out.reads = s.out.reads ++ [[0]] ∧ t.regs.unimpl = satAdd 16 s.regs.unimpl 1 ∧
      t.regs.denied = s.regs.denied ∧ t.regs.lastParty = 1 ∧ t.regs.lastOffset = o ∧ t.regs.cfg = s.regs.cfg) ∧
  (∀ (o n : Nat) (s : State), (s.windowServed = false ∨ inWindow o n = false) → exec (.managerRegisterRead o n) s = .next s) ∧
  (∀ (o i : Nat) (r : Reg) (fs : List Fld) (be : BitVec 4) (v : BitVec 32) (s : State), s.windowServed = true → inWindow o 1 = true →
    locate o = .reg r i fs → s.absent r = false → be ≠ 0xF → exec (.registerWrite o be v) s = .next (s.onRegs fun x =>
      { x with denied := satAdd 16 x.denied 1, lastParty := 1, lastOffset := o })) ∧
  (∀ (o : Nat) (be : BitVec 4) (v : BitVec 32) (s : State), s.windowServed = true → inWindow o 1 = true → locate o = .unimplemented →
    exec (.registerWrite o be v) s = .next (s.onRegs fun x =>
      { x with unimpl := satAdd 16 x.unimpl 1, lastParty := 1, lastOffset := o })) ∧
  (∀ (o i : Nat) (r : Reg) (fs : List Fld) (v : BitVec 32) (s : State), s.windowServed = true → inWindow o 1 = true →
    locate o = .reg r i fs → s.absent r = false →
    (r = .evrRelease → exec (.registerWrite o 0xF v) s = .next (s.releaserWrite .manager o fun u => u.releaseRecords v.toNat)) ∧
    (r = .evrLgClear → v.getLsbD 0 = true → exec (.registerWrite o 0xF v) s = .next (s.releaserWrite .manager o State.clearLastGasp)) ∧
    (r = .laneCtrl → v.getLsbD 31 = true → exec (.registerWrite o 0xF v) s = exec (.laneRecalWrite i) s) ∧
    (r = .dmcCtrl → v.getLsbD 31 = true → v.getLsbD 30 = false → exec (.registerWrite o 0xF v) s = exec (.dramThaw i) s) ∧
    (r = .loopStat → v.getLsbD 31 = true → i < 8 → exec (.registerWrite o 0xF v) s = exec (.gustClearWrite i) s) ∧
    (r = .fabPd → i < 4096 → exec (.registerWrite o 0xF v) s = exec (.fabPdWrite i v) s) ∧
    (r = .chipGpioData → exec (.registerWrite o 0xF v) s = .next (s.setCfgAt o (mergeWord (s.cfgAt o) (maskOf 31 16) v))) ∧
    (r = .pwrPadRelease → exec (.registerWrite o 0xF v) s = .next (s.onRegs fun x =>
      { x with denied := satAdd 16 x.denied 1, lastParty := 1, lastOffset := o }))) ∧
  (∀ (i : Nat) (r : Reg) (fs : List Fld) (o : Nat) (v : BitVec 32) (s : State), s.windowServed = true → inWindow o 1 = true →
    locate o = .reg r i fs → (∀ j, r ≠ .fabAddr j) → r ∉ [Reg.fabPd, .pwrSprint, .pwrPadRelease, .evrRelease, .evrLgClear, .laneCtrl, .dmcCtrl,
      .loopStat, .chipGpioData] → liveMask fs v = 0 → exec (.registerWrite o 0xF v) s = .next s) ∧
  (∀ (i : Nat) (r : Reg) (fs : List Fld) (o : Nat) (v : BitVec 32) (s : State), s.windowServed = true → inWindow o 1 = true →
    locate o = .reg r i fs → s.absent r = false → (∀ j, r ≠ .fabAddr j) → r ∉ [Reg.fabPd, .pwrSprint, .pwrPadRelease, .evrRelease, .evrLgClear,
      .laneCtrl, .dmcCtrl, .loopStat, .chipGpioData] → liveMask fs v ≠ 0 → ∃ t b, exec (.registerWrite o 0xF v) s = .next t ∧
      t.regs = { s.regs with live := s.regs.live ++ [⟨o, liveMask fs v, v, b⟩] } ∧ { t with regs := s.regs, tmk := s.tmk } = s) ∧
  (∀ (i : Nat) (fs : List Fld) (o : Nat) (v : BitVec 32) (s : State), s.windowServed = true → inWindow o 1 = true →
    locate o = .reg .pwrSprint i fs → ∃ t, exec (.registerWrite o 0xF v) s = .next t ∧ t.power = { s.power with leaseMs := bitsOf v 15 0 } ∧
      t.regs.denied = satAdd 16 s.regs.denied 1) ∧
  (∀ (o : Nat) (be : BitVec 4) (v : BitVec 32) (s : State), (s.windowServed = false ∨ inWindow o 1 = false) →
    exec (.registerWrite o be v) s = .next s)

/-- The management controller's register commands (R319, R564), while it and the window are served: a Register Read of a range inside the window succeeds and is
answered with as many dwords as it asks for, the first that of its offset, and each, where none is unimplemented, that of its own; a reserved bit, or an offset that is misaligned or
outside the window, is Invalid Parameter. A Register Write succeeds for PWR_SPRINT with GRANT and LEASE_MS, and from the releaser for EVR_RELEASE and EVR_LG_CLEAR; at
every other offset it is Invalid Parameter and changes nothing. Not served, neither has an effect. Pads (R429): a write of PWR_PAD_RELEASE by the
starter releases the pads of the domains named that are on; no other pad and no domain changes; there are two words of it. -/
def Obligations.ManagementControllerCommandsAndPads : Prop :=
  (∀ (a b : BitVec 32) (s : State), s.servesMc = true → s.windowServed = true → bitsOf a 31 28 = 0 → bitsOf b 31 4 = 0 →
    inWindow (bitsOf a 27 0) (bitsOf b 3 0 + 1) = true → ∃ t ws, exec (.mcRegisterRead a b) s = .next t ∧
      t.out.mi = s.out.mi ++ [.ok ws] ∧ ws.length = bitsOf b 3 0 + 1 ∧ ws.head? = some (s.readAt (bitsOf a 27 0)) ∧
      t.regs.cfg = s.regs.cfg ∧ t.power = s.power ∧ t.evr = s.evr) ∧
  (∀ (a b : BitVec 32) (s : State), s.servesMc = true → s.windowServed = true → bitsOf a 31 28 = 0 → bitsOf b 31 4 = 0 →
    inWindow (bitsOf a 27 0) (bitsOf b 3 0 + 1) = true → (∀ k, k ≤ bitsOf b 3 0 → locate (bitsOf a 27 0 + 4 * k) ≠ .unimplemented) →
    exec (.mcRegisterRead a b) s = .next (s.onOut fun o => { o with mi := o.mi ++
      [.ok ((List.range (bitsOf b 3 0 + 1)).map fun k => s.readAt (bitsOf a 27 0 + 4 * k))] })) ∧
  (∀ (a b : BitVec 32) (s : State), s.servesMc = true → s.windowServed = true →
    (bitsOf a 31 28 ≠ 0 ∨ bitsOf b 31 4 ≠ 0 ∨ inWindow (bitsOf a 27 0) (bitsOf b 3 0 + 1) = false) →
    exec (.mcRegisterRead a b) s = .next (s.onOut fun o => { o with mi := o.mi ++ [.invalidParameter] })) ∧
  (∀ (a b : BitVec 32) (s : State), (s.servesMc = false ∨ s.windowServed = false) →
    exec (.mcRegisterRead a b) s = .next s ∧ exec (.mcRegisterWrite a b) s = .next s) ∧
  (∀ (a v : BitVec 32) (s : State), s.servesMc = true → s.windowServed = true →
    (bitsOf a 31 28 ≠ 0 ∨ inWindow (bitsOf a 27 0) 1 = false) →
    exec (.mcRegisterWrite a v) s = .next (s.onOut fun o => { o with mi := o.mi ++ [.invalidParameter] })) ∧
  (∀ (a v : BitVec 32) (i : Nat) (fs : List Fld) (s : State), s.servesMc = true → s.windowServed = true → bitsOf a 31 28 = 0 →
    inWindow (bitsOf a 27 0) 1 = true → locate (bitsOf a 27 0) = .reg .pwrSprint i fs → ∃ t, exec (.mcRegisterWrite a v) s = .next t ∧
      t.power.grant = v.getLsbD 31 ∧ t.power.leaseMs = bitsOf v 15 0 ∧ t.out.mi = s.out.mi ++ [.ok []] ∧ t.regs = s.regs) ∧
  (∀ (a v : BitVec 32) (i : Nat) (fs : List Fld) (s : State), s.servesMc = true → s.windowServed = true → bitsOf a 31 28 = 0 →
    inWindow (bitsOf a 27 0) 1 = true → locate (bitsOf a 27 0) = .reg .evrRelease i fs →
    exec (.mcRegisterWrite a v) s = exec (.evrReleaseWrite .mgmtController v.toNat) s) ∧
  (∀ (a v : BitVec 32) (i : Nat) (fs : List Fld) (s : State), s.servesMc = true → s.windowServed = true → bitsOf a 31 28 = 0 →
    inWindow (bitsOf a 27 0) 1 = true → locate (bitsOf a 27 0) = .reg .evrLgClear i fs → v.getLsbD 0 = true →
    exec (.mcRegisterWrite a v) s = exec (.evrLgClearWrite .mgmtController) s) ∧
  (∀ (a v : BitVec 32) (s : State), s.servesMc = true → s.windowServed = true → bitsOf a 31 28 = 0 →
    inWindow (bitsOf a 27 0) 1 = true → (∀ i fs, locate (bitsOf a 27 0) ≠ .reg .pwrSprint i fs) →
    (∀ i fs, locate (bitsOf a 27 0) ≠ .reg .evrRelease i fs) → (∀ i fs, locate (bitsOf a 27 0) ≠ .reg .evrLgClear i fs) →
    exec (.mcRegisterWrite a v) s = .next (s.onOut fun o => { o with mi := o.mi ++ [.invalidParameter] })) ∧
  (∀ (w : Nat) (m : BitVec 32) (s : State), s.running = true → w < 2 → ∃ t, exec (.padReleaseWrite w m) s = .next t ∧
    (∀ d, d < 64 → t.aon.padLatched.getLsbD d =
      (s.aon.padLatched.getLsbD d && !(d / 32 == w && m.getLsbD (d % 32) && s.aon.domainOn.getLsbD d))) ∧
    { t with aon := s.aon } = s ∧ { t.aon with padLatched := s.aon.padLatched } = s.aon) ∧
  (∀ (w : Nat) (m : BitVec 32) (s : State), (2 ≤ w ∨ s.running = false) → exec (.padReleaseWrite w m) s = .next s)

/-- Arrivals (R534, R535, R536, R540): in ordinary recording one gets the next SEQ and the time of acceptance and is held, and the 65,536th fills the recorder; in a full
one, and behind a memory failure, a record that is no fault record is dropped and counted and a fault record goes to the last-gasp bank with the next SEQ; a
fault record that finds both full waits; behind a failure it is dropped with the bank full; a record held at its source takes the entry that has freed. Release (R537): by a releaser, below HEAD, every held record at or below
its value is released, and a full recorder then records again, beginning with event 0x0F0A; at or above HEAD nothing is released; from another party nothing is, a manager's being
counted. EVR_LG_CLEAR by a releaser empties the bank. Recorder Snapshot (R316, R539, R540): SELECT 1, 2 and 4 give the header and the records held from SEQ upward, in the
bank and kept, each that the transfer takes whole, and change no record; SELECT 3 is served for a channel whose freeze is held and is otherwise Invalid Field, as is a
transfer above MDTS. -/
def Obligations.RecorderTakesReleasesAndShows : Prop :=
  (∀ (t0 : Nat) (e : EvRec) (q : List (Nat × EvRec)) (s : State), s.running = true → s.evr.queue = (t0, e) :: q → s.evr.atSource = [] →
    s.evr.mode = .recording → ∃ t, exec .eventRecordArrival s = .next t ∧ t.evr.held = s.evr.held ++ [⟨s.aon.evrHead, s.now, e⟩] ∧
      t.aon = { s.aon with evrHead := s.aon.evrHead + 1 } ∧ t.evr.queue = q ∧
      t.evr.mode = (if s.evr.held.length + 1 = 65536 then .full else .recording) ∧ { t with aon := s.aon, evr := s.evr } = s) ∧
  (∀ (t0 : Nat) (e x : EvRec) (xs : List EvRec) (q : List (Nat × EvRec)) (s : State), s.running = true → s.evr.queue = (t0, e) :: q →
    s.evr.atSource = x :: xs → q.length < 256 → s.evr.mode = .recording → ∃ t, exec .eventRecordArrival s = .next t ∧
      t.evr.held = s.evr.held ++ [⟨s.aon.evrHead, s.now, e⟩] ∧ t.evr.queue = enqueueArrival q s.now x ∧ t.evr.atSource = xs) ∧
  (∀ (t0 : Nat) (e : EvRec) (q : List (Nat × EvRec)) (s : State), s.running = true → s.evr.queue = (t0, e) :: q → s.evr.atSource = [] →
    s.evr.mode ≠ .recording → isFaultCode e.code.toNat = false → ∃ t, exec .eventRecordArrival s = .next t ∧ t.evr.held = s.evr.held ∧
      t.aon = { s.aon with evrDropped := satAdd 32 s.aon.evrDropped 1 } ∧ t.evr.queue = q ∧ t.evr.mode = s.evr.mode) ∧
  (∀ (t0 : Nat) (e : EvRec) (q : List (Nat × EvRec)) (s : State), s.running = true → s.evr.queue = (t0, e) :: q → s.evr.atSource = [] →
    s.evr.mode ≠ .recording → isFaultCode e.code.toNat = true → s.aon.lastGasp.length < 7 → ∃ t, exec .eventRecordArrival s = .next t ∧
      t.aon = { s.aon with evrHead := s.aon.evrHead + 1, lastGasp := s.aon.lastGasp ++ [⟨s.aon.evrHead, s.now, e⟩] } ∧
      t.evr = { s.evr with queue := q }) ∧
  (∀ (t0 : Nat) (e : EvRec) (q : List (Nat × EvRec)) (s : State), s.running = true → s.evr.queue = (t0, e) :: q → s.evr.atSource = [] →
    s.evr.mode = .lastGasp → isFaultCode e.code.toNat = true → 8 ≤ s.aon.lastGasp.length → ∃ t, exec .eventRecordArrival s = .next t ∧
      t.aon = { s.aon with evrDropped := satAdd 32 s.aon.evrDropped 1 } ∧ t.evr.queue = q) ∧
  (∀ (t0 : Nat) (e : EvRec) (s : State), s.evr.queue = [(t0, e)] → s.evr.mode = .full → isFaultCode e.code.toNat = true →
    8 ≤ s.aon.lastGasp.length → exec .eventRecordArrival s = .next s) ∧
  (∀ s : State, (s.evr.queue = [] ∨ s.running = false) → exec .eventRecordArrival s = .next s) ∧
  (∀ (p : Party) (n : Nat) (s : State), s.running = true → s.mayRelease p = true → n < s.aon.evrHead → s.evr.mode ≠ .full → ∃ t,
    exec (.evrReleaseWrite p n) s = .next t ∧ t.evr = { s.evr with held := s.evr.held.filter fun r => decide (n < r.seq) } ∧ t.aon = s.aon ∧
      t.out.mi = s.out.mi ++ (if p = .manager then [] else [.ok []])) ∧
  (∀ (p : Party) (n : Nat) (r : Record) (rs : List Record) (s : State), s.running = true → s.mayRelease p = true → n < s.aon.evrHead →
    s.evr.mode = .full → s.evr.held = r :: rs → r.seq ≤ n → s.evr.held.length = 65536 → ∃ t, exec (.evrReleaseWrite p n) s = .next t ∧
      t.evr.held = (s.evr.held.filter fun r => decide (n < r.seq)) ++ [⟨s.aon.evrHead, s.now, ⟨0x0F0A, BitVec.ofNat 16 srcRecorder,
        BitVec.ofNat 32 s.evr.droppedWhileFull, BitVec.ofNat 32 s.aon.evrHead, 0, 0⟩⟩] ∧ t.aon.lastGasp = s.aon.lastGasp) ∧
  (∀ (p : Party) (n : Nat) (s : State), s.aon.evrHead ≤ n → ∃ t, exec (.evrReleaseWrite p n) s = .next t ∧ t.evr = s.evr ∧ t.aon = s.aon) ∧
  (∀ (p : Party) (n : Nat) (s : State), s.running = true → s.mayRelease p = false → ∃ t, exec (.evrReleaseWrite p n) s = .next t ∧
    t.evr = s.evr ∧ t.regs.denied = (if p = .manager then satAdd 16 s.regs.denied 1 else s.regs.denied)) ∧
  (∀ (p : Party) (s : State), s.running = true → s.mayRelease p = true → ∃ t, exec (.evrLgClearWrite p) s = .next t ∧
    t.aon = { s.aon with lastGasp := [] } ∧ t.evr = s.evr ∧ t.out.mi = s.out.mi ++ (if p = .manager then [] else [.ok []])) ∧
  (∀ (p : Party) (s : State), s.running = true → s.mayRelease p = false → ∃ t, exec (.evrLgClearWrite p) s = .next t ∧
    t.aon = s.aon ∧ t.evr = s.evr ∧ t.regs.denied = (if p = .manager then satAdd 16 s.regs.denied 1 else s.regs.denied)) ∧
  (∀ (h : Hdr) (seq n o : Nat) (s : State), s.TakesAdmin ruleBoot h → n < 262144 → ∃ t c, exec (.recorderSnapshotHeld h seq n o) s = .next t ∧
    Posted s t h .success 0 0 ∧ t.out.completions = s.out.completions ++ [c] ∧
    c.data = s.snapshotData (if s.evr.mode = .lastGasp then [] else s.evr.held.filter fun r => decide (seq ≤ r.seq)) n o ∧
    t.evr.held = s.evr.held ∧ t.aon.lastGasp = s.aon.lastGasp) ∧
  (∀ (h : Hdr) (seq : Nat) (s : State), s.TakesAdmin ruleBoot h → ∃ t c, exec (.recorderSnapshotHeld h seq 3 0) s = .next t ∧
    Posted s t h .success 0 0 ∧ t.out.completions = s.out.completions ++ [c] ∧ c.data = [⟨0, 4, s.aon.evrHead % 2 ^ 32⟩,
      ⟨4, 4, s.evrTail % 2 ^ 32⟩, ⟨8, 4, s.evrStat % 2 ^ 32⟩, ⟨12, 4, s.aon.evrDropped % 2 ^ 32⟩] ∧ t.evr.held = s.evr.held) ∧
  (∀ (h : Hdr) (n o : Nat) (s : State), s.TakesAdmin ruleBoot h → n < 262144 → ∃ t c, exec (.recorderSnapshotLastGasp h n o) s = .next t ∧
    Posted s t h .success 0 0 ∧ t.out.completions = s.out.completions ++ [c] ∧ c.data = s.snapshotData s.aon.lastGasp n o ∧
    t.aon.lastGasp = s.aon.lastGasp) ∧
  (∀ (h : Hdr) (n o : Nat) (s : State), s.TakesAdmin ruleBoot h → n < 262144 → ∃ t c, exec (.recorderSnapshotKept h n o) s = .next t ∧
    Posted s t h .success 0 0 ∧ t.out.completions = s.out.completions ++ [c] ∧ c.data = s.snapshotData s.store.keptRecords n o ∧
    t.store = s.store) ∧
  (∀ (h : Hdr) (seq ch n o : Nat) (s : State), s.TakesAdmin ruleBoot h → 262144 ≤ n →
    (∃ t, exec (.recorderSnapshotHeld h seq n o) s = .next t ∧ Posted s t h .invalidField 0 0) ∧
    (∃ t, exec (.recorderSnapshotLastGasp h n o) s = .next t ∧ Posted s t h .invalidField 0 0) ∧
    (∃ t, exec (.recorderSnapshotKept h n o) s = .next t ∧ Posted s t h .invalidField 0 0) ∧
    (∃ t, exec (.recorderSnapshotFreeze h ch n o) s = .next t ∧ Posted s t h .invalidField 0 0)) ∧
  (∀ (h : Hdr) (ch n o : Nat) (s : State), s.TakesAdmin ruleBoot h → n < 262144 → (s.chan (ch % 2)).frozen = true → ∃ t,
    exec (.recorderSnapshotFreeze h ch n o) s = .next t ∧ Posted s t h .success 0 0 ∧ t.mem = s.mem) ∧
  (∀ (h : Hdr) (ch n o : Nat) (s : State), s.TakesAdmin ruleBoot h → (s.chan (ch % 2)).frozen = false → ∃ t,
    exec (.recorderSnapshotFreeze h ch n o) s = .next t ∧ Posted s t h .invalidField 0 0 ∧ t.mem = s.mem)

/-- The loop engine (R398, R399, R403, R409). A period of a running loop, the charger's while charging does not run excepted, leaves an output that was within its
limits within them; the charger's is then held at 0; loop 0's output is the budget outside Warm-up; a loop that does not run does nothing. LOOP_STAT.GUST (R23,
R402): a write of 1 resumes the scheduled gains with the integrator reseeded and event 0x0E02, unless the bit was set in the same beat, and does nothing
to a loop without a gust. -/
def Obligations.LoopOutputsStayInLimits : Prop :=
  (∀ (k : Nat) (x : LoopSample) (s : State), s.running = true → (s.loop k).running = true → (k ≠ 1 ∨ s.bank.charging = true) →
    (s.loopLimits k).1 ≤ (s.loopLimits k).2 → (s.loopLimits k).1 ≤ (s.loop k).out → (s.loop k).out ≤ (s.loopLimits k).2 → ∃ t,
    exec (.loopPeriod k x) s = .next t ∧ (s.loopLimits k).1 ≤ (t.loop k).out ∧ (t.loop k).out ≤ (s.loopLimits k).2) ∧
  (∀ (x : LoopSample) (s : State), s.running = true → (s.loop 1).running = true → s.bank.charging = false → ∃ t,
    exec (.loopPeriod 1 x) s = .next t ∧ (t.loop 1).out = 0 ∧ (t.loop 1).meas = (min x.bankMa (s.cfg .pwrFsScale 3 31 16) : Nat) ∧ t.bank = s.bank ∧ t.broker = s.broker) ∧
  (∀ (x : LoopSample) (s : State), s.running = true → (s.loop 0).running = true → s.power.mode ≠ .warmup → ∃ t,
    exec (.loopPeriod 0 x) s = .next t ∧ t.broker.budget = (t.loop 0).out.toNat ∧ (t.loop 0).meas = (min x.inPowerMw (s.cfg .pwrFsScale 0 31 16 * s.cfg .pwrFsScale 1 31 16 / 1000) : Nat) ∧
      t.broker.out = s.broker.out) ∧
  (∀ (k : Nat) (x : LoopSample) (s : State), ((s.loop k).running = false ∨ s.running = false) → exec (.loopPeriod k x) s = .next s) ∧
  (∀ (k : Nat) (s : State), s.running = true → k < 8 → (s.loop k).gust = true → (s.loop k).gustAt ≠ some s.now → ∃ t,
    exec (.gustClearWrite k) s = .next t ∧ t.loop k = { s.loop k with gust := false, reseed := true, fallback := 0 } ∧
    (∀ j, j ≠ k → t.loop j = s.loop j) ∧ t.broker = s.broker ∧
    (s.roomForEvents → Recorded s t 0x0E02 srcLoopEngine (subParam k (s.loop k).fallback) 0 0 0)) ∧
  (∀ (k : Nat) (s : State), ((s.loop k).gust = false ∨ (s.loop k).gustAt = some s.now ∨ 8 ≤ k) → exec (.gustClearWrite k) s = .next s)

/-- The floor alarm (R405, whole): when input power has stayed above the set-point with loop 0's output at OUT_LO (the command is the end of the 10 ms), event
0x0E03 is recorded, at most once in a second. No further action follows: but for the alarm's time and the recorder the block is the same. -/
def Obligations.FloorAlarmIsRecorded : Prop :=
  (∀ (mw : Nat) (s : State), s.running = true → (s.loop 0).running = true → (s.loop 0).out = s.loopWord .loopOutLo 0 →
    (s.loop 0).sp < (mw : Int) → (∀ n, s.bank.floorAt = some n → n + 1000000000 ≤ s.now) → ∃ t, exec (.budgetFloorAlarm mw) s = .next t ∧
    t = { s with bank := { s.bank with floorAt := some s.now }, evr := t.evr, aon := t.aon } ∧
    (s.roomForEvents → t.aon = s.aon ∧
      Recorded s t 0x0E03 srcLoopEngine (subParam 0 mw) (twosOf 32 (s.loop 0).sp) s.broker.outstanding 0)) ∧
  (∀ (mw n : Nat) (s : State), s.bank.floorAt = some n → s.now < n + 1000000000 → exec (.budgetFloorAlarm mw) s = .next s) ∧
  (∀ (mw : Nat) (s : State), (s.running = false ∨ (s.loop 0).running = false ∨ (s.loop 0).out ≠ s.loopWord .loopOutLo 0 ∨
    (mw : Int) ≤ (s.loop 0).sp) → exec (.budgetFloorAlarm mw) s = .next s)

/-- The hold-up bank's guards (R408, R409): the ceiling comparator above its threshold latches, drives PWR_ISO_N low and records event 0x0E12, and at or below it, or latched
already, does nothing; a charger whose output stands at OUT_HI with the current below half its set-point is a fault that latches, stops charging, holds loop 1 at 0 and
records event 0x0E14, and otherwise nothing happens. -/
def Obligations.BankGuardsIsolateTheBank : Prop :=
  (∀ (mv : Nat) (s : State), s.running = true → s.bank.ceilTrip = false → 420 * s.ceilMj * 1000000 < 2 * s.cCfg * mv * mv → ∃ t,
    exec (.ceilComparatorTrip mv) s = .next t ∧ t.bank = { s.bank with ceilTrip := true } ∧ t.aon.isoLow = true ∧ t.power = s.power ∧
    (s.roomForEvents → Recorded s t 0x0E12 srcLoopEngine (subParam 2 mv) s.ceilMj 0 0)) ∧
  (∀ (mv : Nat) (s : State), (2 * s.cCfg * mv * mv ≤ 420 * s.ceilMj * 1000000 ∨ s.bank.ceilTrip = true ∨ s.running = false) →
    exec (.ceilComparatorTrip mv) s = .next s) ∧
  (∀ (ma : Nat) (s : State), s.bank.charging = true → s.bank.fault = false → (s.loop 1).out = s.loopWord .loopOutHi 1 →
    2 * (ma : Int) < (s.loop 1).sp → ∃ t, exec (.chargerFault ma) s = .next t ∧
    t.bank.fault = true ∧ t.bank.charging = false ∧ (t.loop 1).out = 0 ∧ t.aon.isoLow = true ∧
    (s.roomForEvents → Recorded s t 0x0E14 srcLoopEngine (subParam 2 (twosOf 24 (s.loop 1).sp)) ma 0 0)) ∧
  (∀ (ma : Nat) (s : State), (s.bank.charging = false ∨ s.bank.fault = true ∨ (s.loop 1).sp ≤ 2 * (ma : Int) ∨
    (s.loop 1).out ≠ s.loopWord .loopOutHi 1) → exec (.chargerFault ma) s = .next s)

/-- Batons (R391-R397). A request of an operation that neither holds nor waits for one waits with its value, rank and account; a second request changes nothing, nor
does a compression burst's where compression is absent. A return takes the operation from those held and waiting and no other. The projected
wait is reported to the timekeeper, and is 0 when nothing waits and a program pass would fit at once. With the broker closed, or nothing waiting, nothing is granted; a soft decode that fits
under BUDGET is granted before any other request; a pass, erase or DRAM training of rank 4 that waits alone, with dirty bytes within D_max, is granted when its value fits under BUDGET less
RESERVE, its value then outstanding, and waits when it does not. -/
def Obligations.BatonsAreAskedGrantedReturned : Prop :=
  (∀ (op : HeavyOp) (s : State), s.running = true → s.broker.knows op = false → (s.hasCompression = true ∨ ∀ c, op ≠ .burst c) → ∃ t b,
    exec (.batonRequest op) s = .next t ∧ t = { s with broker := { s.broker with waiting := s.broker.waiting ++ [b] } } ∧ b.op = op ∧
      b.value = s.batonValue op ∧ b.rank = s.batonRank op ∧ b.account = s.batonAccount op ∧ b.atNs = s.now) ∧
  (∀ (op : HeavyOp) (s : State), (s.broker.knows op = true ∨ s.running = false) → exec (.batonRequest op) s = .next s) ∧
  (∀ (c : Nat) (s : State), s.hasCompression = false → exec (.batonRequest (.burst c)) s = .next s) ∧
  (∀ (op : HeavyOp) (s : State), s.running = true → ∃ t, exec (.batonReturn op) s = .next t ∧ t.broker.knows op = false ∧
    (∀ b, b.op ≠ op → (b ∈ t.broker.out ↔ b ∈ s.broker.out) ∧ (b ∈ t.broker.waiting ↔ b ∈ s.broker.waiting)) ∧
    t.broker.budget = s.broker.budget ∧ t.power = s.power) ∧
  (∀ (op : HeavyOp) (s : State), s.running = false → exec (.batonReturn op) s = .next s ∧ exec .batonWaitReport s = .next s) ∧
  (∀ s : State, s.running = true → ∃ t, exec .batonWaitReport s = .next t ∧ t.tmk.batonWait = t.broker.wait ∧
    t.broker.out = s.broker.out ∧ t.broker.waiting = s.broker.waiting ∧
    (s.broker.closed = false → s.broker.waiting = [] →
      s.broker.outstanding + s.cfg .batonValA 0 31 24 ≤ s.broker.budget - s.cfg .batonCfg 0 15 0 → t.broker.wait = 0)) ∧
  (∀ s : State, (s.broker.closed = true ∨ s.broker.waiting = [] ∨ s.running = false) → exec .batonGrant s = .next s) ∧
  (∀ (b : Baton) (s : State), s.running = true → s.broker.closed = false → s.broker.waiting = [b] → b.rank = 4 → (∀ n, b.op ≠ .lane n) →
    (∀ c, b.op ≠ .burst c) → s.bank.overSince = none → s.broker.outstanding + b.value ≤ s.broker.budget - s.cfg .batonCfg 0 15 0 → ∃ t,
    exec .batonGrant s = .next t ∧ t.broker.out = s.broker.out ++ [{ b with atNs := s.now }] ∧ t.broker.waiting = [] ∧
      t.broker.outstanding = s.broker.outstanding + b.value ∧ t.broker.budget = s.broker.budget) ∧
  (∀ (b : Baton) (s : State), s.running = true → s.broker.closed = false → s.broker.waiting = [b] → b.rank = 4 →
    s.bank.overSince = none → s.broker.budget - s.cfg .batonCfg 0 15 0 < s.broker.outstanding + b.value → ∃ t,
    exec .batonGrant s = .next t ∧ t.broker.out = s.broker.out ∧ t.broker.waiting = [b] ∧ t.dies = s.dies) ∧
  (∀ (b : Baton) (c e : Nat) (s : State), s.running = true → s.broker.closed = false → s.broker.waiting.find? (fun x => x.rank == 1) = some b →
    b.op = .softDecode c e → s.broker.outstanding + b.value ≤ s.broker.budget → ∃ t, exec .batonGrant s = .next t ∧
      t.broker.out = s.broker.out ++ [{ b with atNs := s.now }] ∧ t.broker.waiting = s.broker.waiting.filter fun x => x.op != b.op)

/-- Flits received on a lane that carries them (R107, R118, R123-R125). One with a bad CRC or an invalid sync header is counted and draws one NAK of
the SEQ before the one expected, none while a NAK stands, and with 16 invalid headers within 64 blocks starts RECOVERY. A good MSG or data flit out of sequence draws one NAK and no
more. The one expected, each of its messages an upstream one, is accepted: SEQ advances, the NAK that stood is over, and with nothing waiting a NULL flit
acknowledges it and returns its slots or its data flit as credits; what it acknowledges leaves the retry buffer. A NULL flit acknowledges, and returns credits, which are held
within the allotment; a return beyond it, an unlisted flit type and an unlisted opcode are protocol errors, and the lane goes DOWN, counted, with training requested. A NAK sends
every unacknowledged flit again. On a lane that carries none a flit does nothing. -/
def Obligations.FlitsAcceptedOrNaked : Prop :=
  (∀ (n : Nat) (f : Flit) (s : State), (s.lane n).carries = true → f.crcOk = false → countBits (f.headers (s.lane n).badSync) 64 < 16 →
    (s.lane n).nakSent = false → ∃ t, exec (.flitReceived n f) s = .next t ∧ { t.lane n with run := (s.lane n).run } =
      { s.lane n with crcErr := satAdd 16 (s.lane n).crcErr 1, badSync := f.headers (s.lane n).badSync, nakSent := true } ∧
      Sent s t [(n, .flit { load := .null, ack := some (((s.lane n).rxSeq + 255) % 256), nak := true })] ∧ (∀ m, m ≠ n → t.lane m = s.lane m)) ∧
  (∀ (n : Nat) (f : Flit) (s : State), (s.lane n).carries = true → f.crcOk = false → countBits (f.headers (s.lane n).badSync) 64 < 16 →
    (s.lane n).nakSent = true → exec (.flitReceived n f) s = .next (s.setLane n
      { s.lane n with crcErr := satAdd 16 (s.lane n).crcErr 1, badSync := f.headers (s.lane n).badSync })) ∧
  (∀ (n : Nat) (f : Flit) (s : State), (s.lane n).carries = true → f.crcOk = false → 16 ≤ countBits (f.headers (s.lane n).badSync) 64 → ∃ t,
    exec (.flitReceived n f) s = .next t ∧ (t.lane n).st = .recovery ∧ (t.lane n).crcErr = satAdd 16 (s.lane n).crcErr 1 ∧ (t.lane n).badSync = 0) ∧
  (∀ (n : Nat) (f : Flit) (s : State), (s.lane n).carries = true → f.crcOk = true → (f.type = 1 ∨ f.type = 3) → f.seq ≠ (s.lane n).rxSeq →
    (s.lane n).nakSent = true → exec (.flitReceived n f) s = .next (s.setLane n { s.lane n with badSync := f.headers (s.lane n).badSync })) ∧
  (∀ (n : Nat) (f : Flit) (s : State), (s.lane n).carries = true → f.crcOk = true → (f.type = 1 ∨ f.type = 3) → f.seq ≠ (s.lane n).rxSeq →
    (s.lane n).nakSent = false → ∃ t, exec (.flitReceived n f) s = .next t ∧ { t.lane n with run := (s.lane n).run } =
      { s.lane n with badSync := f.headers (s.lane n).badSync, nakSent := true } ∧
      Sent s t [(n, .flit { load := .null, ack := some (((s.lane n).rxSeq + 255) % 256), nak := true })]) ∧
  (∀ (n : Nat) (f : Flit) (s : State), (s.lane n).carries = true → f.crcOk = true → f.type = 1 → f.seq = (s.lane n).rxSeq →
    (∀ o ∈ f.msgs, 0x81 ≤ o ∧ o ≤ 0x84) → f.nak = false → f.crdClass = 3 → (s.lane n).outbox = [] → ∃ t,
    exec (.flitReceived n f) s = .next t ∧ { t.lane n with run := (s.lane n).run } = { s.lane n with
      rxSeq := ((s.lane n).rxSeq + 1) % 256, rxSome := true, nakSent := false, badSync := f.headers (s.lane n).badSync,
      retry := if f.ackValid then ackRetry (s.lane n).retry f.ackSeq else (s.lane n).retry } ∧
      Sent s t [(n, .flit { load := .null, ack := some f.seq, crdClass := 0, crdCount := f.msgs.length })] ∧ t.evr = s.evr) ∧
  (∀ (n : Nat) (f : Flit) (s : State), (s.lane n).carries = true → f.crcOk = true → f.type = 3 → f.seq = (s.lane n).rxSeq →
    f.nak = false → f.crdClass = 3 → (s.lane n).outbox = [] → ∃ t, exec (.flitReceived n f) s = .next t ∧
      { t.lane n with run := (s.lane n).run } = { s.lane n with
        rxSeq := ((s.lane n).rxSeq + 1) % 256, rxSome := true, nakSent := false, badSync := f.headers (s.lane n).badSync,
        retry := if f.ackValid then ackRetry (s.lane n).retry f.ackSeq else (s.lane n).retry } ∧
      Sent s t [(n, .flit { load := .null, ack := some f.seq, crdClass := 2, crdCount := 1 })] ∧ t.evr = s.evr) ∧
  (∀ (n : Nat) (f : Flit) (s : State), (s.lane n).carries = true → f.crcOk = true → f.type = 0 → f.nak = false → f.crdClass = 3 →
    (s.lane n).outbox = [] → exec (.flitReceived n f) s = .next ((s.setLane n { s.lane n with badSync := f.headers (s.lane n).badSync }).setLane n
      { s.lane n with badSync := f.headers (s.lane n).badSync,
                      retry := if f.ackValid then ackRetry (s.lane n).retry f.ackSeq else (s.lane n).retry })) ∧
  (∀ (n : Nat) (f : Flit) (s : State), (s.lane n).carries = true → f.crcOk = true → f.type = 0 → f.nak = false → (s.lane n).outbox = [] →
    f.crdClass = 0 → (s.lane n).crdMsg + f.crdCount ≤ (s.lane n).allotMsg → ∃ t, exec (.flitReceived n f) s = .next t ∧
      (t.lane n).crdMsg = (s.lane n).crdMsg + f.crdCount ∧ (t.lane n).crdWdata = (s.lane n).crdWdata ∧ (t.lane n).st = .active ∧ t.out = s.out) ∧
  (∀ (n : Nat) (f : Flit) (s : State), (s.lane n).carries = true → f.crcOk = true → f.type = 0 → f.nak = false → (s.lane n).outbox = [] →
    f.crdClass = 1 → (s.lane n).crdWdata + f.crdCount ≤ (s.lane n).allotWdata → ∃ t, exec (.flitReceived n f) s = .next t ∧
      (t.lane n).crdWdata = (s.lane n).crdWdata + f.crdCount ∧ (t.lane n).crdMsg = (s.lane n).crdMsg ∧ (t.lane n).st = .active ∧ t.out = s.out) ∧
  (∀ (n : Nat) (f : Flit) (s : State), (s.lane n).carries = true → f.crcOk = true → f.type = 0 → (s.lane n).advertised = true →
    (f.crdClass = 0 ∧ (s.lane n).allotMsg < (s.lane n).crdMsg + f.crdCount ∨
      f.crdClass = 1 ∧ (s.lane n).allotWdata < (s.lane n).crdWdata + f.crdCount) → ∃ t, exec (.flitReceived n f) s = .next t ∧
      (t.lane n).st = .down ∧ (t.lane n).downs = satAdd 8 (s.lane n).downs 1 ∧ (t.lane n).trainWait = true) ∧
  (∀ (n : Nat) (f : Flit) (s : State), (s.lane n).carries = true → f.crcOk = true → f.type = 0 → f.nak = true → f.ackValid = true →
    f.crdClass = 3 → (s.lane n).outbox = [] → (∀ u ∈ ackRetry (s.lane n).retry f.ackSeq, u.replays < 3) → ∃ t, exec (.flitReceived n f) s = .next t ∧
      (t.lane n).retry = (ackRetry (s.lane n).retry f.ackSeq).map (fun u => { u with replays := u.replays + 1 }) ∧
      Sent s t ((ackRetry (s.lane n).retry f.ackSeq).map fun u => (n, .flit { load := u.load, seq := u.seq, ack := (s.lane n).ackNow }))) ∧
  (∀ (n : Nat) (f : Flit) (s : State), (s.lane n).carries = true → f.crcOk = true → f.type ≠ 0 → f.type ≠ 1 → f.type ≠ 3 → ∃ t,
    exec (.flitReceived n f) s = .next t ∧ (t.lane n).st = .down ∧ (t.lane n).downs = satAdd 8 (s.lane n).downs 1 ∧
      (t.lane n).trainWait = true) ∧
  (∀ (n : Nat) (f : Flit) (s : State), (s.lane n).carries = true → f.crcOk = true → f.type = 1 → f.seq = (s.lane n).rxSeq →
    (∃ o ∈ f.msgs, o < 0x81 ∨ 0x84 < o) → ∃ t, exec (.flitReceived n f) s = .next t ∧ (t.lane n).st = .down ∧
      (t.lane n).downs = satAdd 8 (s.lane n).downs 1 ∧ (t.lane n).trainWait = true) ∧
  (∀ (n : Nat) (f : Flit) (s : State), (s.lane n).carries = false → exec (.flitReceived n f) s = .next s)

/-- Replay, RECOVERY, control blocks and credit stall (R108, R116, R117, R123, R124, R135). The replay timer of an ACTIVE lane sends every unacknowledged flit again, in
order, each up to three times; then the exhaustion is counted and the lane goes to RECOVERY with TS1, or within 1 ms of one DOWN. Loss of block lock and the bridge's TS1
take an ACTIVE lane to RECOVERY with TS1, its SEQ numbers, credits and unacknowledged flits kept. An unknown control block takes it DOWN; an IDLE, ALIGN or
EIDLE block, a TS block with a wrong CHECK and one of another kind do nothing; in a handoff TSR makes the lane ACTIVE again from SEQ 0 and
nothing else counts. RECOVERY ends in ACTIVE with the unacknowledged flits sent again, in a handoff with TSR, or DOWN. A credit stall takes a lane with traffic of that class
DOWN, and one without does nothing. On a lane that is not ACTIVE, or for the end of RECOVERY not in it, nothing changes. -/
def Obligations.LaneRecoveryAndStall : Prop :=
  (∀ (n : Nat) (s : State), (s.lane n).st = .active → (∀ u ∈ (s.lane n).retry, u.replays < 3) → ∃ t, exec (.replayTimerExpiry n) s = .next t ∧
    { t.lane n with run := (s.lane n).run } = { s.lane n with retry := (s.lane n).retry.map fun u => { u with replays := u.replays + 1 } } ∧
    Sent s t ((s.lane n).retry.map fun u => (n, .flit { load := u.load, seq := u.seq, ack := (s.lane n).ackNow })) ∧
    (∀ m, m ≠ n → t.lane m = s.lane m)) ∧
  (∀ (n : Nat) (s : State), (s.lane n).st = .active → (∃ u ∈ (s.lane n).retry, 3 ≤ u.replays) →
    (∀ a, (s.lane n).recoveredAt = some a → a + 1000000 < s.now) → ∃ t, exec (.replayTimerExpiry n) s = .next t ∧
    t.lane n = { s.lane n with st := .recovery, exhaust := satAdd 8 (s.lane n).exhaust 1, badSync := 0,
                               retry := (s.lane n).retry.map fun u => { u with replays := 0 }, since := s.now } ∧
    Sent s t [(n, .control (tsBlock 1 none (s.lane n).near (s.lane n).margin n))]) ∧
  (∀ (n a : Nat) (s : State), (s.lane n).st = .active → (∃ u ∈ (s.lane n).retry, 3 ≤ u.replays) → (s.lane n).recoveredAt = some a →
    s.now ≤ a + 1000000 → ∃ t, exec (.replayTimerExpiry n) s = .next t ∧ (t.lane n).st = .down ∧
      (t.lane n).exhaust = satAdd 8 (s.lane n).exhaust 1 ∧ (t.lane n).downs = satAdd 8 (s.lane n).downs 1 ∧ (t.lane n).trainWait = true) ∧
  (∀ (n : Nat) (s : State), (s.lane n).st = .active → ∃ t, exec (.lossOfBlockLock n) s = .next t ∧
    t.lane n = { s.lane n with st := .recovery, badSync := 0, retry := (s.lane n).retry.map fun u => { u with replays := 0 }, since := s.now } ∧
    Sent s t [(n, .control (tsBlock 1 none (s.lane n).near (s.lane n).margin n))] ∧ (∀ m, m ≠ n → t.lane m = s.lane m)) ∧
  (∀ (n : Nat) (b : BitVec 64) (s : State), (s.lane n).st = .active → (s.lane n).resuming = false → wireByte b 0 = 0x78 → tsSound b = true →
    wireByte b 1 = 1 → ∃ t, exec (.bridgeTs1Received ⟨n, b⟩) s = .next t ∧
    t.lane n = { s.lane n with st := .recovery, badSync := 0, retry := (s.lane n).retry.map fun u => { u with replays := 0 }, since := s.now } ∧
    Sent s t [(n, .control (tsBlock 1 none (s.lane n).near (s.lane n).margin n))] ∧ (∀ m, m ≠ n → t.lane m = s.lane m)) ∧
  (∀ (n : Nat) (b : BitVec 64) (s : State), (s.lane n).st = .active → (s.lane n).resuming = true → wireByte b 0 = 0x78 → tsSound b = true →
    wireByte b 1 = 4 → ∃ t, exec (.bridgeTs1Received ⟨n, b⟩) s = .next t ∧ (t.lane n).st = .active ∧ (t.lane n).resuming = false ∧
      (t.lane n).txSeq = 0 ∧ (t.lane n).rxSeq = 0 ∧ (t.lane n).retry = [] ∧ (t.lane n).syncing = true) ∧
  (∀ (n : Nat) (b : BitVec 64) (s : State), (s.lane n).st = .active → (s.lane n).resuming = false → controlKnown b = false → ∃ t,
    exec (.bridgeTs1Received ⟨n, b⟩) s = .next t ∧ (t.lane n).st = .down ∧ (t.lane n).downs = satAdd 8 (s.lane n).downs 1 ∧
      (t.lane n).trainWait = true) ∧
  (∀ (n : Nat) (b : BitVec 64) (s : State), (s.lane n).st = .active → (s.lane n).resuming = false → controlKnown b = true →
    (wireByte b 0 ≠ 0x78 ∨ tsSound b = false ∨ wireByte b 1 ≠ 1) → exec (.bridgeTs1Received ⟨n, b⟩) s = .next s) ∧
  (∀ (n : Nat) (b : BitVec 64) (s : State), (s.lane n).resuming = true → (wireByte b 0 ≠ 0x78 ∨ tsSound b = false ∨ wireByte b 1 ≠ 4) →
    exec (.bridgeTs1Received ⟨n, b⟩) s = .next s) ∧
  (∀ (n : Nat) (b : BitVec 64) (s : State), (s.lane n).st ≠ .active → exec (.replayTimerExpiry n) s = .next s ∧
    exec (.lossOfBlockLock n) s = .next s ∧ exec (.bridgeTs1Received ⟨n, b⟩) s = .next s) ∧
  (∀ (n : Nat) (s : State), (s.lane n).st = .recovery → (s.lane n).resuming = false → (s.lane n).outbox = [] → ∃ t,
    exec (.laneRecoveryEnd n true) s = .next t ∧
      { t.lane n with run := (s.lane n).run } = { s.lane n with st := .active, recoveredAt := some s.now, since := s.now } ∧
      Sent s t ((s.lane n).retry.map fun u => (n, .flit { load := u.load, seq := u.seq, ack := (s.lane n).ackNow }))) ∧
  (∀ (n : Nat) (s : State), (s.lane n).st = .recovery → (s.lane n).resuming = true → ∃ t, exec (.laneRecoveryEnd n true) s = .next t ∧
    t.lane n = { s.lane n with st := .active, recoveredAt := some s.now, since := s.now } ∧
    Sent s t [(n, .control (tsBlock 4 none (s.lane n).near (s.lane n).margin n))]) ∧
  (∀ (n : Nat) (s : State), (s.lane n).st = .recovery → ∃ t, exec (.laneRecoveryEnd n false) s = .next t ∧
    (t.lane n).st = .down ∧ (t.lane n).downs = satAdd 8 (s.lane n).downs 1 ∧ (t.lane n).trainWait = true) ∧
  (∀ (n : Nat) (ok : Bool) (s : State), (s.lane n).st ≠ .recovery → exec (.laneRecoveryEnd n ok) s = .next s) ∧
  (∀ (n c : Nat) (s : State), (s.lane n).st = .active → (s.lane n).waitsFor c = true → ∃ t, exec (.creditStallTimeout n c) s = .next t ∧
    (t.lane n).st = .down ∧ (t.lane n).downs = satAdd 8 (s.lane n).downs 1 ∧ (t.lane n).trainWait = true ∧ (t.lane n).outbox = []) ∧
  (∀ (n c : Nat) (s : State), ((s.lane n).st ≠ .active ∨ (s.lane n).waitsFor c = false) → exec (.creditStallTimeout n c) s = .next s)

/-- Training and recalibration (R109, R111, R112, R114, R122, R134, R139). A full training that ends well leaves the lane ACTIVE with the presets that its trials settled from those of
the band, SEQ numbers at 0, no credit, the TZ5120's own credits of 32 slots and 288 data flits returned, and SYNC waiting first for the bridge's. A foreign major version fails the lane; a
training that ends badly starts again from DETECT with TS1 while an attempt is left, and fails the lane after that. A recalibration, or a wake's, ends in ACTIVE with the presets of the lane,
or for a recalibration those of a band that came into force since, DOWN when it ends badly, FAILED on a foreign version. Reports for an outage that does not run, or in HELD, change
nothing. A recalibration asked for by a write, or by the interval unless that is 0, waits on an ACTIVE lane; on another lane it is ignored. -/
def Obligations.LaneTrainingAndRecalibration : Prop :=
  (∀ (n : Nat) (r : TrainResult) (s : State), (s.lane n).outage = some .full → (s.lane n).st ≠ .held → r.wrongMajor = false →
    r.ok = true → ∃ t, exec (.laneFullTrainingEnd n r) s = .next t ∧ (t.lane n).st = .active ∧ (t.lane n).outage = none ∧
      (t.lane n).near = (s.settledPresets n ((s.lane n).trainBand.getD s.aon.band) r.trials).1 % 8 ∧
      (t.lane n).far = (s.settledPresets n ((s.lane n).trainBand.getD s.aon.band) r.trials).2 % 8 ∧ (t.lane n).rxSeq = 0 ∧
      (t.lane n).txSeq = 0 ∧ (t.lane n).syncing = true ∧ (t.lane n).crdMsg = 0 ∧ (t.lane n).crdWdata = 0 ∧
      (t.lane n).outbox.head? = some (.msgs [.sync 240]) ∧ (∀ m, m ≠ n → t.lane m = s.lane m) ∧
      Sent s t (([31, 1].map fun c => (n, .flit { load := .null, crdClass := 0, crdCount := c })) ++
        (List.replicate 9 31 ++ [9]).map fun c => (n, .flit { load := .null, crdClass := 2, crdCount := c }))) ∧
  (∀ (n : Nat) (r : TrainResult) (s : State), (s.lane n).outage = some .full → (s.lane n).st ≠ .held → r.wrongMajor = true → ∃ t,
    exec (.laneFullTrainingEnd n r) s = .next t ∧ (t.lane n).st = .failed ∧ (t.lane n).outage = none ∧ (t.lane n).phyOn = false) ∧
  (∀ (n : Nat) (r : TrainResult) (s : State), (s.lane n).outage = some .full → (s.lane n).st ≠ .held → r.wrongMajor = false →
    r.ok = false → (s.lane n).attemptsLeft ≠ 0 → ∃ t, exec (.laneFullTrainingEnd n r) s = .next t ∧ (t.lane n).st = .detect ∧
      (t.lane n).attempts = (s.lane n).attempts + 1 ∧ (t.lane n).attemptsLeft = (s.lane n).attemptsLeft - 1 ∧ (t.lane n).outage = some .full ∧
      Sent s t [(n, .control (tsBlock 1 none (s.lane n).near (r.margins.1 % 256) n))] ∧ t.evr = s.evr) ∧
  (∀ (n : Nat) (r : TrainResult) (s : State), (s.lane n).outage = some .full → (s.lane n).st ≠ .held → r.wrongMajor = false →
    r.ok = false → (s.lane n).attemptsLeft = 0 → ∃ t, exec (.laneFullTrainingEnd n r) s = .next t ∧ (t.lane n).st = .failed ∧
      (t.lane n).outage = none ∧ (t.lane n).phyOn = false) ∧
  (∀ (n : Nat) (r : TrainResult) (s : State), ((s.lane n).outage ≠ some .full ∨ (s.lane n).st = .held) →
    exec (.laneFullTrainingEnd n r) s = .next s) ∧
  (∀ (n : Nat) (r : TrainResult) (s : State), (s.lane n).outage = some .recal → (s.lane n).st ≠ .held → r.wrongMajor = false → r.ok = true → ∃ t,
    exec (.laneRecalEnd n r) s = .next t ∧ (t.lane n).st = .active ∧ (t.lane n).outage = none ∧ (t.lane n).eqBand = none ∧
      (t.lane n).near = (((s.lane n).eqBand.map (s.bandPresets n)).getD ((s.lane n).near, (s.lane n).far)).1 % 8 ∧
      (t.lane n).far = (((s.lane n).eqBand.map (s.bandPresets n)).getD ((s.lane n).near, (s.lane n).far)).2 % 8 ∧
      (t.lane n).rxSeq = 0 ∧ (t.lane n).txSeq = 0 ∧ (t.lane n).crdMsg = 0 ∧ (t.lane n).syncing = true ∧ (t.lane n).downs = (s.lane n).downs) ∧
  (∀ (n : Nat) (r : TrainResult) (s : State), (s.lane n).outage = some .wake → (s.lane n).st ≠ .held → r.wrongMajor = false → r.ok = true → ∃ t,
    exec (.laneRecalEnd n r) s = .next t ∧ (t.lane n).st = .active ∧ (t.lane n).outage = none ∧ (t.lane n).near = (s.lane n).near % 8 ∧
      (t.lane n).far = (s.lane n).far % 8 ∧ (t.lane n).rxSeq = 0 ∧ (t.lane n).txSeq = 0 ∧ (t.lane n).crdMsg = 0 ∧ (t.lane n).syncing = true) ∧
  (∀ (n : Nat) (r : TrainResult) (s : State), ((s.lane n).outage = some .recal ∨ (s.lane n).outage = some .wake) → (s.lane n).st ≠ .held →
    r.wrongMajor = true → ∃ t, exec (.laneRecalEnd n r) s = .next t ∧ (t.lane n).st = .failed ∧ (t.lane n).outage = none) ∧
  (∀ (n : Nat) (r : TrainResult) (s : State), ((s.lane n).outage = some .recal ∨ (s.lane n).outage = some .wake) → (s.lane n).st ≠ .held →
    r.wrongMajor = false → r.ok = false → ∃ t, exec (.laneRecalEnd n r) s = .next t ∧ (t.lane n).st = .down ∧
      (t.lane n).downs = satAdd 8 (s.lane n).downs 1 ∧ (t.lane n).trainWait = true) ∧
  (∀ (n : Nat) (r : TrainResult) (s : State), ((s.lane n).st = .held ∨ ((s.lane n).outage ≠ some .recal ∧ (s.lane n).outage ≠ some .wake)) →
    exec (.laneRecalEnd n r) s = .next s) ∧
  (∀ (n : Nat) (s : State), (s.lane n).st = .active → ∃ t, exec (.laneRecalWrite n) s = .next t ∧
    t.lane n = { s.lane n with recalWait := true } ∧ (∀ m, m ≠ n → t.lane m = s.lane m) ∧ { t with lanes := s.lanes, broker := s.broker } = s) ∧
  (∀ (n : Nat) (s : State), (s.lane n).st = .active → s.cfg .laneLinkCfg 0 31 16 ≠ 0 → ∃ t, exec (.recalIntervalExpiry n) s = .next t ∧
    t.lane n = { s.lane n with recalWait := true } ∧ (∀ m, m ≠ n → t.lane m = s.lane m) ∧ { t with lanes := s.lanes, broker := s.broker } = s) ∧
  (∀ (n : Nat) (s : State), (s.lane n).st ≠ .active → exec (.laneRecalWrite n) s = .next s ∧ exec (.recalIntervalExpiry n) s = .next s) ∧
  (∀ (n : Nat) (s : State), s.cfg .laneLinkCfg 0 31 16 = 0 → exec (.recalIntervalExpiry n) s = .next s)

/-- The bridge's registers and alerts, and parking (R125, R126, R131, R136-R138, R142). On an ACTIVE lane CFG_DATA answers the read under its tag: ID and VER, CAPS with the dies present and CREDITS
with the allotments, the first two dwords of a die and its third are kept. The last answer of the set-up ends it: with the contract kept the lane is set up, out of service
where its dies disagree with the records; with the contract broken it is FAILED, as it is when a register read is called a bad address. An answer to no
read does nothing. An alert is event 0x030A and changes no lane and no die, but that of a reset not answered loses a stalled die. PARK is sent on an
ACTIVE lane that holds no operation, once, or waits for its credit; a lane that is not populated and not ACTIVE is parked at once with four EIDLE blocks; a lane that is parked, failed or held, one
with operations or with PARK sent, and a populated one on its way to service stay as they are. -/
def Obligations.BridgeConfigurationAlertsParking : Prop :=
  (∀ (n tag die x a c : Nat) (d0 d1 : BitVec 32) (s : State), (s.lane n).st = .active →
    Tbl.look none (s.lane n).ctl tag = some (.read 0 2) → x ≠ tag → Tbl.look none (s.lane n).ctl x = some (.read a c) → ∃ t,
    exec (.bridgeCfgData n tag die false d0 d1) s = .next t ∧ (t.lane n).brId = d0 ∧ (t.lane n).brVer = d1 ∧ (t.lane n).st = .active ∧
      (∀ m, m ≠ n → t.lane m = s.lane m) ∧ t.dies = s.dies) ∧
  (∀ (n tag die x a c : Nat) (d0 d1 : BitVec 32) (s : State), (s.lane n).st = .active →
    Tbl.look none (s.lane n).ctl tag = some (.read 2 2) → x ≠ tag → Tbl.look none (s.lane n).ctl x = some (.read a c) → ∃ t,
    exec (.bridgeCfgData n tag die false d0 d1) s = .next t ∧ (t.lane n).brCaps = d0 ∧ (t.lane n).dies = BitVec.ofNat 8 (bitsOf d0 23 16) ∧
      (t.lane n).brCredits = d1 ∧ (t.lane n).allotMsg = bitsOf d1 15 8 ∧ (t.lane n).allotWdata = bitsOf d1 31 16 ∧
      (t.lane n).allotRetry = 4 * bitsOf d1 7 0 ∧ t.dies = s.dies) ∧
  (∀ (n tag die x a c d : Nat) (d0 d1 : BitVec 32) (s : State), (s.lane n).st = .active → d < 8 →
    Tbl.look none (s.lane n).ctl tag = some (.read (0x40 + 8 * d) 2) → x ≠ tag → Tbl.look none (s.lane n).ctl x = some (.read a c) → ∃ t,
    exec (.bridgeCfgData n tag die false d0 d1) s = .next t ∧ Tbl.look 0 (t.lane n).onfi d = d0 ∧ Tbl.look 0 (t.lane n).onfi2 d = d1 ∧
      t.dies = s.dies) ∧
  (∀ (n tag die x a c d : Nat) (d0 d1 : BitVec 32) (s : State), (s.lane n).st = .active → d < 8 →
    Tbl.look none (s.lane n).ctl tag = some (.read (0x42 + 8 * d) 1) → x ≠ tag → Tbl.look none (s.lane n).ctl x = some (.read a c) → ∃ t,
    exec (.bridgeCfgData n tag die false d0 d1) s = .next t ∧ Tbl.look 0 (t.lane n).ceLun d = d0 ∧ t.dies = s.dies) ∧
  (∀ (n tag die d : Nat) (d0 d1 : BitVec 32) (s : State), (s.lane n).st = .active → d < 8 → (s.lane n).setUp = false →
    (s.lane n).ctl = [(tag, some (.read (0x42 + 8 * d) 1))] → (s.lane n).ctlWait = [] → (s.lane n).brokenContract = none → ∃ t,
    exec (.bridgeCfgData n tag die false d0 d1) s = .next t ∧ (t.lane n).setUp = true ∧ (t.lane n).st = .active ∧
      (t.lane n).mismatch = decide ((s.lane n).dies ≠ Tbl.look 0 s.store.population n) ∧ (t.lane n).brTxeq = (s.lane n).far) ∧
  (∀ (n tag die d e : Nat) (d0 d1 : BitVec 32) (s : State), (s.lane n).st = .active → d < 8 → (s.lane n).setUp = false →
    (s.lane n).ctl = [(tag, some (.read (0x42 + 8 * d) 1))] → (s.lane n).ctlWait = [] → (s.lane n).brokenContract = some e → ∃ t,
    exec (.bridgeCfgData n tag die false d0 d1) s = .next t ∧ (t.lane n).st = .failed ∧ (t.lane n).phyOn = false) ∧
  (∀ (n tag die a c : Nat) (d0 d1 : BitVec 32) (s : State), (s.lane n).st = .active → Tbl.look none (s.lane n).ctl tag = some (.read a c) → ∃ t,
    exec (.bridgeCfgData n tag die true d0 d1) s = .next t ∧ (t.lane n).st = .failed ∧ (t.lane n).phyOn = false) ∧
  (∀ (n tag die : Nat) (bad : Bool) (d0 d1 : BitVec 32) (s : State),
    ((s.lane n).st ≠ .active ∨ ∀ a c, Tbl.look none (s.lane n).ctl tag ≠ some (.read a c)) →
    exec (.bridgeCfgData n tag die bad d0 d1) s = .next s) ∧
  (∀ (n d c x : Nat) (s : State), (s.lane n).st = .active → (c ≠ 3 ∨ (s.die (dieKey n d)).st ≠ .stalled) → ∃ t,
    exec (.bridgeAlert n d c x) s = .next t ∧ t.lanes = s.lanes ∧ t.dies = s.dies ∧
      ((s.lane n).unserved = false → s.roomForEvents → Recorded s t 0x030A (srcLanePort (s.cellOf n)) n c x 0)) ∧
  (∀ (n d x : Nat) (s : State), (s.lane n).st = .active → (s.die (dieKey n d)).st = .stalled → ∃ t,
    exec (.bridgeAlert n d 3 x) s = .next t ∧ (t.die (dieKey n d)).lost = true ∧ t.lanes = s.lanes) ∧
  (∀ (n d c x : Nat) (s : State), (s.lane n).st ≠ .active → exec (.bridgeAlert n d c x) s = .next s) ∧
  (∀ (n : Nat) (s : State), (s.lane n).st = .active → s.laneOps n = [] → (s.lane n).outbox = [] → (s.lane n).parking = none →
    (s.lane n).resuming = false → 0 < (s.lane n).crdMsg → (s.lane n).retry.length < 128 → ∃ t, exec (.lanePark n) s = .next t ∧
      (t.lane n).st = .active ∧ (t.lane n).parking = some (s.parkReason n) ∧ (t.lane n).crdMsg = (s.lane n).crdMsg - 1 ∧
      Sent s t [(n, .flit { load := .msgs [.park 241], seq := (s.lane n).txSeq, ack := (s.lane n).ackNow })]) ∧
  (∀ (n : Nat) (s : State), (s.lane n).st = .active → s.laneOps n = [] → (s.lane n).outbox = [] → (s.lane n).parking = none →
    (s.lane n).crdMsg = 0 → ∃ t, exec (.lanePark n) s = .next t ∧ (t.lane n).parking = some (s.parkReason n) ∧
      (t.lane n).outbox = [.msgs [.park 241]] ∧ t.out = s.out) ∧
  (∀ (n : Nat) (s : State), s.populated n = false → (s.lane n).st ≠ .active → (s.lane n).st ≠ .failed → (s.lane n).st ≠ .held →
    (s.lane n).st ≠ .parked → ∃ t, exec (.lanePark n) s = .next t ∧ (t.lane n).st = .parked ∧ (t.lane n).parkedFor = 1 ∧ (t.lane n).txIdle = true ∧
    t.out.down = s.out.down ++ List.replicate 4 (n, .control blockEidle)) ∧
  (∀ (n : Nat) (s : State), ((s.lane n).st = .parked ∨ (s.lane n).st = .failed ∨ (s.lane n).st = .held ∨
    ((s.lane n).st ≠ .active ∧ s.populated n = true) ∨ ((s.lane n).st = .active ∧ (s.laneOps n ≠ [] ∨ (s.lane n).parking ≠ none))) →
    exec (.lanePark n) s = .next s)

/-- The pacer's choice for a die (R126, R139, R146, R147, R149, R154, R159, R164, R193). Its waiting work is offered first (`offerWork`). Idle, it takes the entry of the lowest rank
under the lowest free tag: a read shows READ with the reads that join it, and a Dash read of one plane goes out in one flit; a pass or erase shows PROGRAM or ERASE; with no entry it sends a band's
prefix, and else nothing more happens. Suspended, it takes a read while reads are left, and then RESUME; one that reads or resumes waits. A die that programs or
erases is suspended for a Dash read, or else a Tempo read, that waits, while suspensions are left; else it runs on. No tag free, or any other state: nothing more. A die that relocates a member reads the next page of
the source, 16 frames. With the lane not up nothing happens to a die without work, and a lane parked to save power wakes or asks its baton. In a landing a die takes a landing write, and where nothing starts
a suspended pass takes its resume. -/
def Obligations.IdleDieStartsItsRead : Prop :=
  (∀ (n d tag : Nat) (e : QEntry) (s : State), d < 8 → s.pacerUp n = true → s.power.landing = none → s.quietDies = false →
    (s.blk (blockOfLane n)).marshalOut = false → (s.offerWork (dieKey n d)).freeTag n = some tag →
    ((s.offerWork (dieKey n d)).die (dieKey n d)).st = .idle → (s.offerWork (dieKey n d)).selectEntry (dieKey n d) false = some e →
    e.kind.isRead = true → ((s.offerWork (dieKey n d)).blk (blockOfLane n)).marshalOut = false → ∃ t, exec (.dieOpSelect n d) s = .next t ∧
      t.opAt (opKey n tag) = some (Op.mk d e ((s.offerWork (dieKey n d)).mergeable (dieKey n d) e) (s.offerWork (dieKey n d)).now false false 0 false none) ∧
      (t.die (dieKey n d)).st = .read ∧ (t.die (dieKey n d)).reading = some tag ∧ (∀ x ∈ (t.die (dieKey n d)).queue, x.id ≠ e.id)) ∧
  (∀ (n d tag : Nat) (e : QEntry) (p : Nat × Nat × Nat) (s : State), d < 8 → s.pacerUp n = true → s.power.landing = none → s.quietDies = false →
    (s.blk (blockOfLane n)).marshalOut = false → s.offerWork (dieKey n d) = s → s.freeTag n = some tag → (s.die (dieKey n d)).st = .idle →
    s.selectEntry (dieKey n d) false = some e → e.kind.isRead = true → e.cls = .dash → e.retry = 0 → e.spans = [p] → (s.lane n).outbox = [] →
    (s.lane n).resuming = false → 0 < (s.lane n).crdMsg → (s.lane n).retry.length < 128 → ∃ t, exec (.dieOpSelect n d) s = .next t ∧
      Sent s t [(n, .flit { load := .msgs (chainUp (readSeqs d tag [⟨p.1, e.block, e.page, p.2.1, p.2.2⟩])), seq := (s.lane n).txSeq,
                            ack := (s.lane n).ackNow })] ∧ (t.lane n).crdMsg = (s.lane n).crdMsg - 1) ∧
  (∀ (n d tag : Nat) (e : QEntry) (s : State), d < 8 → s.pacerUp n = true → s.power.landing = none → s.quietDies = false →
    (s.blk (blockOfLane n)).marshalOut = false → (s.offerWork (dieKey n d)).freeTag n = some tag →
    ((s.offerWork (dieKey n d)).die (dieKey n d)).st = .idle → (s.offerWork (dieKey n d)).selectEntry (dieKey n d) false = some e →
    e.kind.isRead = false → ((s.offerWork (dieKey n d)).blk (blockOfLane n)).marshalOut = false → ∃ t, exec (.dieOpSelect n d) s = .next t ∧
      t.opAt (opKey n tag) = some { die := d, entry := e, sentAt := (s.offerWork (dieKey n d)).now } ∧ (t.die (dieKey n d)).heavy = some tag ∧
      (t.die (dieKey n d)).st = (if e.kind = .erase then .erase else .prog) ∧ (∀ x ∈ (t.die (dieKey n d)).queue, x.id ≠ e.id)) ∧
  (∀ (n d tag b : Nat) (s : State), d < 8 → s.pacerUp n = true → s.power.landing = none → s.quietDies = false →
    (s.blk (blockOfLane n)).marshalOut = false → s.offerWork (dieKey n d) = s → s.freeTag n = some tag → (s.die (dieKey n d)).st = .idle →
    s.selectEntry (dieKey n d) false = none → (s.die (dieKey n d)).prefixBand = some b → ∃ t, exec (.dieOpSelect n d) s = .next t ∧
      (t.die (dieKey n d)).prefixBand = none ∧ (s.prefixWrites (dieKey n d) b = [] → t.work = s.work) ∧
      (s.prefixWrites (dieKey n d) b ≠ [] → (t.die (dieKey n d)).st = .features ∧ (t.die (dieKey n d)).reading = some tag)) ∧
  (∀ (n d : Nat) (s : State), d < 8 → s.pacerUp n = true → s.power.landing = none → s.quietDies = false →
    (((s.offerWork (dieKey n d)).die (dieKey n d)).st = .idle →
      ((s.offerWork (dieKey n d)).blk (blockOfLane n)).marshalOut = true ∨ ((s.offerWork (dieKey n d)).selectEntry (dieKey n d) false = none ∧
        ((s.offerWork (dieKey n d)).die (dieKey n d)).prefixBand = none)) →
    ((s.offerWork (dieKey n d)).freeTag n = none ∨ ((s.offerWork (dieKey n d)).die (dieKey n d)).st ∉
      [DieSt.progSusp, .eraseSusp, .prog, .erase]) → exec (.dieOpSelect n d) s = .next (s.offerWork (dieKey n d))) ∧
  (∀ (n d tag : Nat) (e : QEntry) (s : State), d < 8 → s.pacerUp n = true → s.power.landing = none → s.quietDies = false →
    s.offerWork (dieKey n d) = s → s.freeTag n = some tag → ((s.die (dieKey n d)).st = .progSusp ∨ (s.die (dieKey n d)).st = .eraseSusp) →
    (s.die (dieKey n d)).reading = none → (s.die (dieKey n d)).resuming = false → (s.die (dieKey n d)).readsServed < s.suspReads →
    s.selectEntry (dieKey n d) true = some e → ∃ t, exec (.dieOpSelect n d) s = .next t ∧ (t.die (dieKey n d)).reading = some tag ∧
      (t.die (dieKey n d)).st = (s.die (dieKey n d)).st ∧ (t.die (dieKey n d)).readsServed = (s.die (dieKey n d)).readsServed + 1 ∧
      t.opAt (opKey n tag) = some { die := d, entry := e, merged := s.mergeable (dieKey n d) e, sentAt := s.now }) ∧
  (∀ (n d tag h : Nat) (s : State), d < 8 → s.pacerUp n = true → s.power.landing = none → s.quietDies = false →
    s.offerWork (dieKey n d) = s → s.freeTag n = some tag → ((s.die (dieKey n d)).st = .progSusp ∨ (s.die (dieKey n d)).st = .eraseSusp) →
    (s.die (dieKey n d)).reading = none → (s.die (dieKey n d)).resuming = false → (s.die (dieKey n d)).heavy = some h →
    (s.suspReads ≤ (s.die (dieKey n d)).readsServed ∨ s.selectEntry (dieKey n d) true = none) → ∃ t, exec (.dieOpSelect n d) s = .next t ∧
      t.die (dieKey n d) = { s.die (dieKey n d) with resuming := true } ∧ t.work.ops = s.work.ops) ∧
  (∀ (n d : Nat) (s : State), d < 8 → s.pacerUp n = true → s.power.landing = none → s.quietDies = false →
    s.offerWork (dieKey n d) = s → ((s.die (dieKey n d)).st = .progSusp ∨ (s.die (dieKey n d)).st = .eraseSusp) →
    ((s.die (dieKey n d)).reading ≠ none ∨ (s.die (dieKey n d)).resuming = true) → exec (.dieOpSelect n d) s = .next s) ∧
  (∀ (n d tag h : Nat) (e : QEntry) (s : State), d < 8 → s.pacerUp n = true → s.power.landing = none → s.quietDies = false →
    s.offerWork (dieKey n d) = s → s.freeTag n = some tag → ((s.die (dieKey n d)).st = .prog ∨ (s.die (dieKey n d)).st = .erase) →
    ((s.die (dieKey n d)).queue.find? (fun x => x.kind.isRead && x.cls == .dash) = some e ∨
      ((s.die (dieKey n d)).queue.find? (fun x => x.kind.isRead && x.cls == .dash) = none ∧
        (s.die (dieKey n d)).queue.find? (fun x => x.kind.isRead && x.cls == .tempo) = some e)) → (s.die (dieKey n d)).heavy = some h →
    (s.die (dieKey n d)).suspendAt = none → (s.die (dieKey n d)).reading = none → (s.die (dieKey n d)).resuming = false →
    s.suspensionsLeft (dieKey n d) = true → ∃ t, exec (.dieOpSelect n d) s = .next t ∧ (t.die (dieKey n d)).suspendAt = some s.now ∧
      (t.die (dieKey n d)).reading = some tag ∧ (t.die (dieKey n d)).st = (s.die (dieKey n d)).st ∧
      t.opAt (opKey n tag) = some { die := d, entry := e, merged := s.mergeable (dieKey n d) e, sentAt := s.now }) ∧
  (∀ (n d : Nat) (s : State), d < 8 → s.pacerUp n = true → s.power.landing = none → s.quietDies = false →
    s.offerWork (dieKey n d) = s → ((s.die (dieKey n d)).st = .prog ∨ (s.die (dieKey n d)).st = .erase) →
    ((∀ e ∈ (s.die (dieKey n d)).queue, e.kind.isRead = true → e.cls ≠ .dash ∧ e.cls ≠ .tempo) ∨ (s.die (dieKey n d)).suspendAt ≠ none ∨
      (s.die (dieKey n d)).reading ≠ none ∨ (s.die (dieKey n d)).resuming = true ∨ s.suspensionsLeft (dieKey n d) = false) →
    exec (.dieOpSelect n d) s = .next s) ∧
  (∀ (n d tag zk pos src tgt c : Nat) (s : State), d < 8 → s.pacerUp n = true → s.power.landing = none → s.quietDies = false →
    s.freeTag n = some tag → (s.die (dieKey n d)).st = .idle → (s.blk (blockOfLane n)).marshalOut = false → s.offerPasses (dieKey n d) = s →
    (s.die (dieKey n d)).reloc = some (zk, pos, src, tgt, c) → s.refillsOn (dieKey n d) = [] → (∀ p ∈ s.nss, p.2.victim = none) →
    (∀ p ∈ s.sets, ∀ r, p.2.rebuild = some r → r.2.1 ≠ dieKey n d) → (s.die (dieKey n d)).queue = [] →
    (s.die (dieKey n d)).copyPages < 4 * Tbl.look 0 (s.zone zk).fine pos → (s.die (dieKey n d)).copyPages / 4 ≤ (s.die (dieKey n d)).copyCoarse →
    s.copyUsed (blockOfLane (dieKey n d / 8)) = (s.die (dieKey n d)).copyHeld →
    s.copyPending (dieKey n d) zk pos = false → s.nextCopyPass (dieKey n d) zk pos = none → ∃ t o, exec (.dieOpSelect n d) s = .next t ∧
      t.opAt (opKey n tag) = some o ∧ o.die = d ∧ o.entry.kind = .copyRead ∧ o.entry.frames = 16 ∧ o.entry.block = src ∧
      o.entry.page = (s.die (dieKey n d)).copyPages ∧ (t.die (dieKey n d)).reading = some tag ∧ (t.die (dieKey n d)).copyWait = 16 ∧
      t.zones = s.zones ∧ t.media = s.media) ∧
  (∀ (n d : Nat) (s : State), s.pacerUp n = false → (s.die (dieKey n d)).queue = [] → exec (.dieOpSelect n d) s = .next s) ∧
  (∀ (n d : Nat) (s : State), s.pacerUp n = false → (s.die (dieKey n d)).queue ≠ [] → (s.lane n).st = .parked → (s.lane n).setUp = true →
    (s.lane n).parkedFor = 4 → (s.lane n).wakeWait = false → s.populated n = true → s.aon.trip = false → ∃ t, exec (.dieOpSelect n d) s = .next t ∧
      (s.broker.closed = true → (t.lane n).st = .lock ∧ (t.lane n).outage = some .wake ∧
        Sent s t [(n, .control (tsBlock 1 none (s.lane n).near (s.lane n).margin n))]) ∧
      (s.broker.closed = false → (t.lane n).wakeWait = true ∧ t.broker.knows (.lane n) = true ∧ t.out = s.out)) ∧
  (∀ (n d : Nat) (s : State), s.pacerUp n = false → ((s.lane n).st ≠ .parked ∨ (s.lane n).setUp = false ∨ (s.lane n).parkedFor ≠ 4 ∨
    (s.lane n).wakeWait = true ∨ s.populated n = false ∨ s.aon.trip = true) → exec (.dieOpSelect n d) s = .next s) ∧
  (∀ (n d tag : Nat) (l : Landing) (e : QEntry) (s : State), d < 8 → s.pacerUp n = true → s.power.landing = some l →
    ((s.settleDie (dieKey n d)).assignLanding.freeTag n = some tag) →
    ((s.settleDie (dieKey n d)).assignLanding.die (dieKey n d)).st = .landing →
    ((s.settleDie (dieKey n d)).assignLanding.die (dieKey n d)).heavy = none →
    ((s.settleDie (dieKey n d)).assignLanding.die (dieKey n d)).queue.find? (fun x => x.kind == .slc || x.kind == .checkpoint) = some e → ∃ t o,
    exec (.dieOpSelect n d) s = .next t ∧ t.opAt (opKey n tag) = some o ∧ o.die = d ∧ o.entry.kind = e.kind ∧ o.entry.id = e.id ∧
      (t.die (dieKey n d)).heavy = some tag ∧ (e.kind = .slc → o.entry.page =
        ((s.settleDie (dieKey n d)).assignLanding.die (dieKey n d)).landPage)) ∧
  (∀ (n d : Nat) (l : Landing) (s : State), d < 8 → s.pacerUp n = true → s.power.landing = some l →
    ((s.settleDie (dieKey n d)).assignLanding.die (dieKey n d)).st ≠ .progSusp →
    (((s.settleDie (dieKey n d)).assignLanding.die (dieKey n d)).st = .landing →
      (s.settleDie (dieKey n d)).assignLanding.freeTag n = none ∨ ((s.settleDie (dieKey n d)).assignLanding.die (dieKey n d)).heavy ≠ none ∨
      ((s.settleDie (dieKey n d)).assignLanding.die (dieKey n d)).queue.find? (fun x => x.kind == .slc || x.kind == .checkpoint) = none) →
    exec (.dieOpSelect n d) s = .next (s.settleDie (dieKey n d)).assignLanding) ∧
  (∀ (n d h : Nat) (l : Landing) (o : Op) (s : State), d < 8 → s.pacerUp n = true → s.power.landing = some l →
    ((s.settleDie (dieKey n d)).assignLanding.die (dieKey n d)).st = .progSusp →
    ((s.settleDie (dieKey n d)).assignLanding.die (dieKey n d)).heavy = some h →
    (s.settleDie (dieKey n d)).assignLanding.opAt (opKey n h) = some o → o.abort = none →
    ((s.settleDie (dieKey n d)).assignLanding.die (dieKey n d)).reading = none →
    ((s.settleDie (dieKey n d)).assignLanding.die (dieKey n d)).resuming = false → ∃ t, exec (.dieOpSelect n d) s = .next t ∧
      t.die (dieKey n d) = { (s.settleDie (dieKey n d)).assignLanding.die (dieKey n d) with resuming := true }) ∧
  (∀ (n d : Nat) (s : State), d < 8 → s.pacerUp n = true → s.power.landing = none → s.quietDies = true → (s.die (dieKey n d)).st ≠ .progSusp →
    exec (.dieOpSelect n d) s = .next s) ∧
  (∀ (n d h : Nat) (o : Op) (s : State), d < 8 → s.pacerUp n = true → s.power.landing = none → s.quietDies = true →
    (s.die (dieKey n d)).st = .progSusp → (s.die (dieKey n d)).heavy = some h → s.opAt (opKey n h) = some o → o.abort = none →
    (s.die (dieKey n d)).reading = none → (s.die (dieKey n d)).resuming = false → ∃ t, exec (.dieOpSelect n d) s = .next t ∧
      t.die (dieKey n d) = { s.die (dieKey n d) with resuming := true } ∧ t.work.ops = s.work.ops)

/-- Results of die operations and requests of a bridge (R126, R130-R132, R134, R138, R153-R155, R158, R167, R169). On an ACTIVE lane OK, FAIL, ABORTED, LATE_READY, a reset and a refusal end the operation of
their tag, which is free then; TIMEOUT, SUSPENDED and RESUMED do not. OK gives the frame of a read to a decoder, makes an erased block a free position with no reads counted, advances the
member of a pass by a word line, and counts a landing unit as written. FAIL of a pass or an erase retires its die block while the allowance lasts and is counted; a pSLC write that
failed is queued again. TIMEOUT of a read fails it, of a pass or an erase sends ABORT; the third within 1 s loses the die. SUSPENDED and
RESUMED are kept with the operation and its die. A refusal takes the lane DOWN. The end of SYNC, with no operation in flight and no handoff, and of a register write frees its tag; that of PARK
parks the lane with four EIDLE blocks; a refusal of either takes the lane DOWN. A tag in no use, or a lane not ACTIVE: no change. -/
def Obligations.DieResultsEndTheirOperation : Prop :=
  (∀ (n tag st bu mv : Nat) (r : DoneResult) (o : Op) (s : State), (s.lane n).st = .active → tag < 240 → s.opAt (opKey n tag) = some o →
    o.die < 8 → r ≠ .timeout → r ≠ .suspended → r ≠ .resumed → ∃ t, exec (.bridgeDone n tag r st bu mv) s = .next t ∧
      t.opAt (opKey n tag) = none) ∧
  (∀ (n tag st bu mv : Nat) (o : Op) (s : State), (s.lane n).st = .active → tag < 240 → s.opAt (opKey n tag) = some o → o.die < 8 →
    o.entry.kind = .erase → (s.die (dieKey n o.die)).heavy = some tag → o.entry.block < s.diePositions (dieKey n o.die) →
    s.isLandBlock (s.die (dieKey n o.die)) o.entry.block = false → ∃ t,
    exec (.bridgeDone n tag .ok st bu mv) s = .next t ∧ t.opAt (opKey n tag) = none ∧ t.broker.holds (.erase n o.die) = false ∧
      (t.die (dieKey n o.die)).heavy = none ∧
      (t.die (dieKey n o.die)).erasedBlocks = (s.die (dieKey n o.die)).erasedBlocks ++ [o.entry.block] ∧
      Tbl.look 0 t.store.readCounts (dieKey n o.die * 2048 + o.entry.block) = 0 ∧ t.zones = s.zones ∧ t.media = s.media) ∧
  (∀ (n tag st bu mv : Nat) (o : Op) (s : State), (s.lane n).st = .active → tag < 240 → s.opAt (opKey n tag) = some o → o.die < 8 →
    o.entry.kind.isRead = true → o.failed = false → o.merged = [] → o.entry.frames = 1 → o.entry.retry < 16 → ∃ t x,
    exec (.bridgeDone n tag .ok st bu mv) s = .next t ∧ t.opAt (opKey n tag) = none ∧ t.decodeAt s.work.nextJob = some x ∧
      x.block = blockOfLane n ∧ x.lane = n ∧ x.die = o.die ∧ x.entry = o.entry ∧ x.off = o.entry.off ∧ x.soft = false ∧ t.media = s.media) ∧
  (∀ (n tag st bu mv : Nat) (o : Op) (s : State), (s.lane n).st = .active → tag < 240 → s.opAt (opKey n tag) = some o → o.die < 8 →
    o.entry.kind.isRead = true → o.failed = true → ∃ t, exec (.bridgeDone n tag .ok st bu mv) s = .next t ∧ t.opAt (opKey n tag) = none ∧
      t.work.decodes = s.work.decodes ∧ t.media = s.media) ∧
  (∀ (n tag st bu mv : Nat) (o : Op) (s : State), (s.lane n).st = .active → tag < 240 → s.opAt (opKey n tag) = some o → o.die < 8 →
    (o.entry.kind = .coarse ∨ o.entry.kind = .fine) → (s.zone o.entry.zk).valid = true → (s.zone o.entry.zk).relocTgt = none →
    (s.zone o.entry.zk).dblk.getD o.entry.pos 0 = o.entry.block →
    o.entry.page = Tbl.look 0 (if o.entry.kind = .coarse then (s.zone o.entry.zk).coarse else (s.zone o.entry.zk).fine) o.entry.pos → ∃ t,
    exec (.bridgeDone n tag .ok st bu mv) s = .next t ∧ t.broker.holds (.program n o.die) = false ∧
      Tbl.look 0 (if o.entry.kind = .coarse then (t.zone o.entry.zk).coarse else (t.zone o.entry.zk).fine) o.entry.pos = o.entry.page + 1) ∧
  (∀ (n tag st bu mv : Nat) (o : Op) (l : Landing) (s : State), (s.lane n).st = .active → tag < 240 → s.opAt (opKey n tag) = some o → o.die < 8 →
    o.entry.kind = .slc → s.power.landing = some l → ∃ t, exec (.bridgeDone n tag .ok st bu mv) s = .next t ∧
      t.power.landing = some { l with toWrite := l.toWrite.filter fun u => !o.entry.landsUnit u,
                                      written := l.written ++ l.toWrite.filter o.entry.landsUnit }) ∧
  (∀ (n tag st bu mv : Nat) (o : Op) (s : State), (s.lane n).st = .active → tag < 240 → s.opAt (opKey n tag) = some o → o.die < 8 →
    (o.entry.kind = .coarse ∨ o.entry.kind = .fine ∨ o.entry.kind = .erase) →
    (s.die (dieKey n o.die)).badPos.length < s.allowance (dieKey n o.die) → ∃ t, exec (.bridgeDone n tag .statusFail st bu mv) s = .next t ∧
      o.entry.block ∈ (t.die (dieKey n o.die)).badPos) ∧
  (∀ (n tag st bu mv : Nat) (o : Op) (s : State), (s.lane n).st = .active → tag < 240 → s.opAt (opKey n tag) = some o → o.die < 8 →
    o.entry.kind = .slc → ∃ t, exec (.bridgeDone n tag .statusFail st bu mv) s = .next t ∧
      (t.die (dieKey n o.die)).queue = o.entry :: (s.die (dieKey n o.die)).queue ∧
      (t.die (dieKey n o.die)).landBad.any (fun p => p.1 == (s.die (dieKey n o.die)).landB) = true) ∧
  (∀ (n tag st bu mv : Nat) (o : Op) (s : State), (s.lane n).st = .active → tag < 240 → s.opAt (opKey n tag) = some o → o.die < 8 →
    o.entry.kind.isRead = true → ((s.die (dieKey n o.die)).timeouts.filter fun x => decide (s.now ≤ x + 1000000000)).length < 2 → ∃ t,
    exec (.bridgeDone n tag .timeout st bu mv) s = .next t ∧ t.opAt (opKey n tag) = some { o with timedOut := true, failed := true, busy := bu } ∧
      (t.die (dieKey n o.die)).timeouts = ((s.die (dieKey n o.die)).timeouts.filter fun x => decide (s.now ≤ x + 1000000000)) ++ [s.now]) ∧
  (∀ (n tag st bu mv : Nat) (o : Op) (s : State), (s.lane n).st = .active → tag < 240 → s.opAt (opKey n tag) = some o → o.die < 8 →
    (o.entry.kind = .coarse ∨ o.entry.kind = .fine ∨ o.entry.kind = .erase) →
    ((s.die (dieKey n o.die)).timeouts.filter fun x => decide (s.now ≤ x + 1000000000)).length < 2 → ∃ t,
    exec (.bridgeDone n tag .timeout st bu mv) s = .next t ∧ t.opAt (opKey n tag) = some { o with
      abort := some (if o.entry.kind = .erase then 0x0407 else 0x0406), timedOut := true }) ∧
  (∀ (n tag st bu mv : Nat) (o : Op) (s : State), (s.lane n).st = .active → tag < 240 → s.opAt (opKey n tag) = some o → o.die < 8 →
    2 ≤ ((s.die (dieKey n o.die)).timeouts.filter fun x => decide (s.now ≤ x + 1000000000)).length → ∃ t,
    exec (.bridgeDone n tag .timeout st bu mv) s = .next t ∧ (t.die (dieKey n o.die)).lost = true) ∧
  (∀ (n tag st bu mv : Nat) (o : Op) (s : State), (s.lane n).st = .active → tag < 240 → s.opAt (opKey n tag) = some o → o.die < 8 → ∃ t,
    exec (.bridgeDone n tag .suspended st bu mv) s = .next t ∧ t.opAt (opKey n tag) = some { o with suspended := true } ∧
      (t.die (dieKey n o.die)).suspendAt = none ∧ (t.die (dieKey n o.die)).suspendLate = false ∧
      (t.die (dieKey n o.die)).suspUsed = (s.die (dieKey n o.die)).suspUsed + 1 ∧ t.media = s.media ∧ t.zones = s.zones) ∧
  (∀ (n tag st bu mv : Nat) (o : Op) (s : State), (s.lane n).st = .active → tag < 240 → s.opAt (opKey n tag) = some o → o.die < 8 → ∃ t,
    exec (.bridgeDone n tag .resumed st bu mv) s = .next t ∧ t.opAt (opKey n tag) = some { o with suspended := false } ∧
      (t.die (dieKey n o.die)).resuming = false ∧ (t.die (dieKey n o.die)).readsServed = 0 ∧ t.media = s.media ∧ t.zones = s.zones) ∧
  (∀ (n tag st bu mv : Nat) (r : DoneResult) (o : Op) (s : State), (s.lane n).st = .active → tag < 240 → s.opAt (opKey n tag) = some o →
    o.die < 8 → (r = .badRequest ∨ r = .dieAbsent) → ∃ t, exec (.bridgeDone n tag r st bu mv) s = .next t ∧ (t.lane n).st = .down ∧
      (t.lane n).downs = satAdd 8 (s.lane n).downs 1 ∧ (t.lane n).trainWait = true) ∧
  (∀ (n tag st bu mv : Nat) (r : DoneResult) (s : State), tag < 240 → s.opAt (opKey n tag) = none →
    exec (.bridgeDone n tag r st bu mv) s = .next s) ∧
  (∀ (n tag st bu mv : Nat) (r : DoneResult) (s : State), 240 ≤ tag → Tbl.look none (s.lane n).ctl tag = none →
    exec (.bridgeDone n tag r st bu mv) s = .next s) ∧
  (∀ (n tag st bu mv : Nat) (r : DoneResult) (s : State), (s.lane n).st ≠ .active → exec (.bridgeDone n tag r st bu mv) s = .next s) ∧
  (∀ (n tag st bu mv : Nat) (r : DoneResult) (s : State), (s.lane n).st = .active → 240 ≤ tag → Tbl.look none (s.lane n).ctl tag = some .sync →
    isRefusal r = false → (s.lane n).syncing = true → (s.lane n).ctlWait = [] → s.laneOps n = [] → (s.blk (blockOfLane n)).handoff = none → ∃ t,
    exec (.bridgeDone n tag r st bu mv) s = .next t ∧
      t.lane n = { s.lane n with syncing := false, ctl := Tbl.put none (s.lane n).ctl tag none } ∧ t.out = s.out ∧ t.dies = s.dies) ∧
  (∀ (n tag why st bu mv : Nat) (r : DoneResult) (s : State), (s.lane n).st = .active → 240 ≤ tag → Tbl.look none (s.lane n).ctl tag = some .park →
    isRefusal r = false → (s.lane n).ctlWait = [] → (s.lane n).parking = some why → ∃ t, exec (.bridgeDone n tag r st bu mv) s = .next t ∧
      (t.lane n).st = .parked ∧ (t.lane n).parking = none ∧ (t.lane n).parkedFor = why ∧ (t.lane n).txIdle = true ∧
      t.out.down = s.out.down ++ List.replicate 4 (n, .control blockEidle)) ∧
  (∀ (n tag a v st bu mv : Nat) (r : DoneResult) (s : State), (s.lane n).st = .active → 240 ≤ tag →
    Tbl.look none (s.lane n).ctl tag = some (.write a v) → isRefusal r = false → (s.lane n).ctlWait = [] → ∃ t,
    exec (.bridgeDone n tag r st bu mv) s = .next t ∧ t.lane n = { s.lane n with ctl := Tbl.put none (s.lane n).ctl tag none } ∧
      { t with lanes := s.lanes } = s) ∧
  (∀ (n tag st bu mv : Nat) (c : Ctl) (r : DoneResult) (s : State), (s.lane n).st = .active → 240 ≤ tag →
    Tbl.look none (s.lane n).ctl tag = some c → isRefusal r = true → ∃ t, exec (.bridgeDone n tag r st bu mv) s = .next t ∧
      (t.lane n).st = .down ∧ (t.lane n).downs = satAdd 8 (s.lane n).downs 1 ∧ (t.lane n).trainWait = true)

/-- SYNC, late suspends and the lane-op timeout (R134, R152, R153, R167, R394, R525). In a SYNC a report is kept, with the count of the operations that it holds. With no operation in flight on its die
that is all, but for an operation that nothing here knows, which is aborted. An operation in flight that the bridge neither holds nor has completed lately goes back to the head of its queue, and
outside a handoff only; one with a completion takes that result; one held as suspended is suspended; one whose data-out was cut is read again from the page register under
a new tag; one held otherwise stays. Out of a SYNC a report changes nothing. A suspend that has not come is late once, and its waiting Dash reads are served elsewhere. An operation without its terminal DONE
is event 0x040C: a program or an erase stays held and its baton returns, a landing write or a prefix stays held, a read is failed, and one that reported TIMEOUT already is
aborted. A tag that nothing uses changes nothing. -/
def Obligations.LateAndUnknownOperations : Prop :=
  (∀ (n d tag x : Nat) (rc : List (Nat × Nat)) (s : State), (s.lane n).st = .active → (s.lane n).syncing = true →
    (∀ p ∈ s.laneOps n, p.2.die ≠ d) → s.opAt (opKey n tag) = none → (s.lane n).resuming = false → (s.lane n).outbox = [] →
    0 < (s.lane n).crdMsg → (s.lane n).retry.length < 128 → ∃ t, exec (.bridgeSyncReport n d [(tag, x)] rc) s = .next t ∧
      Sent s t [(n, .flit { load := .msgs [.abort d tag], seq := (s.lane n).txSeq, ack := (s.lane n).ackNow })] ∧
      (t.lane n).synced = (s.lane n).synced ++ [d] ∧ (t.lane n).syncOps = (s.lane n).syncOps + 1 ∧ t.dies = s.dies ∧ t.work.ops = s.work.ops) ∧
  (∀ (n d : Nat) (hd rc : List (Nat × Nat)) (s : State), (s.lane n).st = .active → (s.lane n).syncing = true →
    (∀ p ∈ s.laneOps n, p.2.die ≠ d) → (∀ h ∈ hd, s.opAt (opKey n h.1) ≠ none) → exec (.bridgeSyncReport n d hd rc) s = .next
      (s.setLane n { s.lane n with synced := (s.lane n).synced ++ [d], syncOps := (s.lane n).syncOps + hd.length })) ∧
  (∀ (n d tag : Nat) (o : Op) (s : State), (s.lane n).st = .active → (s.lane n).syncing = true → d < 8 →
    (s.laneOps n).filter (fun p => p.2.die == d) = [(tag, o)] → (s.blk (blockOfLane n)).handoff = none → ∃ t,
    exec (.bridgeSyncReport n d [] []) s = .next t ∧ t.opAt (opKey n tag) = none ∧
      (t.die (dieKey n d)).queue = o.entries ++ (s.die (dieKey n d)).queue) ∧
  (∀ (n d tag c : Nat) (o : Op) (s : State), (s.lane n).st = .active → (s.lane n).syncing = true →
    (s.laneOps n).filter (fun p => p.2.die == d) = [(tag, o)] → exec (.bridgeSyncReport n d [] [(tag, c)]) s = .next
      ((s.setLane n { s.lane n with synced := (s.lane n).synced ++ [d] }).opResult n tag (resultOfCode c) 0 0)) ∧
  (∀ (n d tag : Nat) (o : Op) (s : State), (s.lane n).st = .active → (s.lane n).syncing = true → d < 8 →
    (s.laneOps n).filter (fun p => p.2.die == d) = [(tag, o)] → s.opAt (opKey n tag) = some o → o.suspended = false → ∃ t,
    exec (.bridgeSyncReport n d [(tag, 3)] []) s = .next t ∧ t.opAt (opKey n tag) = some { o with suspended := true } ∧
      (t.die (dieKey n d)).suspendAt = none ∧ t.out = s.out) ∧
  (∀ (n d tag new : Nat) (o : Op) (s : State), (s.lane n).st = .active → (s.lane n).syncing = true → d < 8 →
    (s.laneOps n).filter (fun p => p.2.die == d) = [(tag, o)] → s.opAt (opKey n tag) = some o → o.failed = false → s.freeTag n = some new → ∃ t,
    exec (.bridgeSyncReport n d [(tag, 4)] []) s = .next t ∧ t.opAt (opKey n tag) = some { o with failed := true } ∧
      t.opAt (opKey n new) = some { o with sentAt := s.now } ∧ (t.die (dieKey n d)).reading = some new) ∧
  (∀ (n d tag x : Nat) (o : Op) (s : State), (s.lane n).st = .active → (s.lane n).syncing = true →
    (s.laneOps n).filter (fun p => p.2.die == d) = [(tag, o)] → s.opAt (opKey n tag) = some o → x < 2 → ∃ t,
    exec (.bridgeSyncReport n d [(tag, x)] []) s = .next t ∧ t.work = s.work ∧ t.dies = s.dies ∧ t.out = s.out ∧
      (t.lane n).synced = (s.lane n).synced ++ [d]) ∧
  (∀ (n d : Nat) (hd rc : List (Nat × Nat)) (s : State), ((s.lane n).st ≠ .active ∨ (s.lane n).syncing = false) →
    exec (.bridgeSyncReport n d hd rc) s = .next s) ∧
  (∀ (n d t0 : Nat) (s : State), (s.die (dieKey n d)).suspendAt = some t0 → (s.die (dieKey n d)).suspendLate = false →
    (s.die (dieKey n d)).queue = [] → (s.die (dieKey n d)).reading = none → ∃ t, exec (.suspendLate n d) s = .next t ∧
      t.die (dieKey n d) = { s.die (dieKey n d) with suspendLate := true } ∧ (∀ k, k ≠ dieKey n d → t.die k = s.die k) ∧ t.evr = s.evr) ∧
  (∀ (n d t0 : Nat) (s : State), (s.die (dieKey n d)).suspendAt = some t0 → (s.die (dieKey n d)).suspendLate = false → ∃ t,
    exec (.suspendLate n d) s = .next t ∧ (t.die (dieKey n d)).suspendLate = true ∧ (t.die (dieKey n d)).suspendAt = some t0 ∧ t.lanes = s.lanes) ∧
  (∀ (n d : Nat) (s : State), ((s.die (dieKey n d)).suspendAt = none ∨ (s.die (dieKey n d)).suspendLate = true) →
    exec (.suspendLate n d) s = .next s) ∧
  (∀ (n tag : Nat) (o : Op) (s : State), s.opAt (opKey n tag) = some o → o.entry.kind.isRead = false → ∃ t,
    exec (.laneOpTimeout n tag) s = .next t ∧ t.opAt (opKey n tag) = some o ∧ t.dies = s.dies ∧
      (o.entry.kind = .erase → t.broker.knows (.erase n o.die) = false) ∧
      (o.entry.kind = .coarse ∨ o.entry.kind = .fine → t.broker.knows (.program n o.die) = false) ∧
      (s.roomForEvents → Recorded s t 0x040C (srcDieQueue (s.cellOf n)) (subParam o.die (n % 512)) tag 0x01 o.entry.kind.timer)) ∧
  (∀ (n tag : Nat) (o : Op) (s : State), s.opAt (opKey n tag) = some o → o.entry.kind.isRead = true → o.timedOut = false → ∃ t,
    exec (.laneOpTimeout n tag) s = .next t ∧ t.opAt (opKey n tag) = some { o with failed := true } ∧ t.lanes = s.lanes) ∧
  (∀ (n tag : Nat) (o : Op) (s : State), o.die < 8 → s.opAt (opKey n tag) = some o → o.entry.kind.isRead = true → o.timedOut = true →
    (s.lane n).outbox = [] → 0 < (s.lane n).crdMsg → (s.lane n).retry.length < 128 → (s.lane n).carries = true → ∃ t,
    exec (.laneOpTimeout n tag) s = .next t ∧ t.opAt (opKey n tag) = some { o with abort := some 0x0405, timedOut := true, failed := true } ∧
      Sent s t [(n, .flit { load := .msgs [.abort o.die tag], seq := (s.lane n).txSeq, ack := (s.lane n).ackNow })]) ∧
  (∀ (n tag : Nat) (s : State), s.opAt (opKey n tag) = none → exec (.laneOpTimeout n tag) s = .next s)

/-- A write's data on their way to staging (R48, R50, R51, R203, R249, R251, R260, R266, R270, R278). Fetched blocks go to the cipher engines; those of a Packed Append wait for their burst's baton. A fetch that failed
completes with Data Transfer Error, and its LBAs are staged all the same; of a Packed Append nothing is. The unit that an engine runs is stored enciphered under its namespace's key
and its LBA, or kept with the command behind a reset, or deciphered for it; a key page of another tenant stops the job with Internal Error and event 0x0807; a job whose command is gone is dropped; any other job, an engine out of service, a
device not running: no change. With its copies written the LBAs of a write are dirty and it is acknowledged, an append with its first LBA; a conventional write enters the forward map;
behind a reset the completion is held. A parcel's Packed Append is acknowledged with the PGA of its first granule, or stopped for output space with the granules consumed and the LBAs
produced. A command in another phase: no change. -/
def Obligations.WrittenDataReachStaging : Prop :=
  (∀ (c : Nat) (data : List Block) (x : Ctx) (s : State), s.ctxAt c = some x → x.phase = .fetching → x.kind ≠ .packedAppend →
    ∃ t y, exec (.hostDataArrival c true data) s = .next t ∧ t.ctxAt c = some y ∧ { y with deadline := x.deadline } = { x with
        phase := .ciphering
        data := (List.range x.places.length).map fun i =>
          (i, BitVec.ofNat 32896 ((data.getD i 0).toNat % 2 ^ (8 * (4096 + mdBytes (s.ns x.nsid).lbaf)))) } ∧
      t.media = s.media ∧ t.zones = s.zones ∧ t.nss = s.nss ∧ t.out = s.out ∧ t.power = s.power) ∧
  (∀ (c : Nat) (data : List Block) (x : Ctx) (s : State), s.ctxAt c = some x → x.phase = .fetching → x.kind ≠ .packedAppend →
    s.muted x.hdr = false → ∃ t y, exec (.hostDataArrival c false data) s = .next t ∧ Posted s t x.hdr .transferError 0 0 ∧
      t.ctxAt c = some y ∧ y.phase = .ciphering ∧ y.discard = true ∧ y.data.length = x.places.length ∧ t.media = s.media ∧ t.zones = s.zones) ∧
  (∀ (c : Nat) (data : List Block) (x : Ctx) (s : State), s.ctxAt c = some x → x.phase = .fetching → x.kind = .packedAppend →
    s.hasCompression = true → ∃ t y, exec (.hostDataArrival c true data) s = .next t ∧ t.ctxAt c = some y ∧ y.phase = .compressing ∧
      y.data = (List.range x.granules).map (fun i => (i, BitVec.ofNat 32896 ((data.getD i 0).toNat % 2 ^ 32768))) ∧
      t.broker.knows (.burst c) = true ∧ t.media = s.media ∧ t.zones = s.zones ∧ t.out = s.out) ∧
  (∀ (c : Nat) (data : List Block) (x : Ctx) (s : State), s.ctxAt c = some x → x.phase = .fetching → x.kind = .packedAppend → x.discard = false →
    s.muted x.hdr = false → (s.zone x.zk).writing = [c] → (s.zone x.zk).closing = none → (s.zone x.zk).fence = none → ∃ t,
    exec (.hostDataArrival c false data) s = .next t ∧ Posted s t x.hdr .transferError 0 0 ∧ t.ctxAt c = none ∧
      (t.zone x.zk).writing = [] ∧ (t.zone x.zk).wp = (s.zone x.zk).wp ∧ t.media = s.media) ∧
  (∀ (c : Nat) (ok : Bool) (data : List Block) (s : State), (∀ x, s.ctxAt c = some x → x.phase ≠ .fetching) →
    exec (.hostDataArrival c ok data) s = .next s) ∧
  (∀ (b j c zk off i : Nat) (cls : Cls) (x : Ctx) (s : State), s.running = true → s.cph.engines.getLsbD b = true → (s.blk b).cipRun = some j →
    s.cipherJobAt j = some ⟨b, c, cls, true, [(zk, off, i)]⟩ → s.ctxAt c = some x → s.keyOwned (nsOfKey zk) x.tenant = true → x.behind = false →
    ∃ t y, exec (.cipherUnitComplete b j) s = .next t ∧
      t.stored zk off = xtsFrame true (s.nsKey (nsOfKey zk)) (x.lbaOf i) (x.dataAt i) ∧
      (∀ k, k ≠ mediaKey zk off → Tbl.look 0 t.media k = Tbl.look 0 s.media k) ∧ t.cipherJobAt j = none ∧ t.ctxAt c = some y ∧
      y.finished = x.finished + 1 ∧ (x.places.length ≤ x.finished + 1 → y.phase = .staging) ∧ t.zones = s.zones ∧ t.out = s.out) ∧
  (∀ (b j c zk off i : Nat) (cls : Cls) (rest : List (Nat × Nat × Nat)) (x : Ctx) (s : State), s.running = true → s.cph.engines.getLsbD b = true →
    (s.blk b).cipRun = some j → s.cipherJobAt j = some ⟨b, c, cls, true, (zk, off, i) :: rest⟩ → s.ctxAt c = some x →
    s.keyOwned (nsOfKey zk) x.tenant = true → x.behind = true → ∃ t y, exec (.cipherUnitComplete b j) s = .next t ∧ t.ctxAt c = some y ∧
      y.frozen = x.frozen ++ [(i, xtsFrame true (s.nsKey (nsOfKey zk)) (x.lbaOf i) (x.dataAt i))] ∧ y.finished = x.finished + 1 ∧
      t.cipherJobAt j = (if rest = [] then none else some ⟨b, c, cls, true, rest⟩) ∧ t.media = s.media ∧ t.zones = s.zones ∧ t.out = s.out) ∧
  (∀ (b j c zk off i : Nat) (cls : Cls) (x : Ctx) (s : State), s.running = true → s.cph.engines.getLsbD b = true → (s.blk b).cipRun = some j →
    s.cipherJobAt j = some ⟨b, c, cls, false, [(zk, off, i)]⟩ → s.ctxAt c = some x → s.keyOwned (nsOfKey zk) x.tenant = true →
    x.frozen.find? (fun p => p.1 == i) = none → x.finished + 1 < x.places.length → ∃ t, exec (.cipherUnitComplete b j) s = .next t ∧
      t.ctxAt c = some { x with
        finished := x.finished + 1
        data := x.data ++ [(i, xtsFrame false (s.nsKey (nsOfKey zk)) (x.lbaOf i) (s.stored zk off))] } ∧
      t.cipherJobAt j = none ∧ t.media = s.media ∧ t.zones = s.zones ∧ t.out = s.out) ∧
  (∀ (b j c zk off i : Nat) (cls : Cls) (x : Ctx) (s : State), s.running = true → s.cph.engines.getLsbD b = true → (s.blk b).cipRun = some j →
    s.cipherJobAt j = some ⟨b, c, cls, false, [(zk, off, i)]⟩ → s.ctxAt c = some x → s.keyOwned (nsOfKey zk) x.tenant = true →
    x.kind = .read → x.places.length ≤ x.finished + 1 → x.discard = false → s.muted x.hdr = false → ∃ t, exec (.cipherUnitComplete b j) s = .next t ∧
      Posted s t x.hdr .success 0 0 ∧ t.ctxAt c = none ∧ t.cipherJobAt j = none ∧ t.media = s.media ∧ t.zones = s.zones) ∧
  (∀ (b j c zk off i : Nat) (cls : Cls) (enc : Bool) (x : Ctx) (s : State), s.running = true → s.cph.engines.getLsbD b = true →
    (s.blk b).cipRun = some j → s.cipherJobAt j = some ⟨b, c, cls, enc, [(zk, off, i)]⟩ → s.ctxAt c = some x →
    s.keyOwned (nsOfKey zk) x.tenant = false → x.discard = false → s.muted x.hdr = false → s.roomForEvents → ∃ t,
    exec (.cipherUnitComplete b j) s = .next t ∧ Posted s t x.hdr .internalError 0 0 ∧ t.ctxAt c = none ∧ t.cipherJobAt j = none ∧
      t.media = s.media ∧ Recorded s t 0x0807 (srcCipher b) (s.ns (nsOfKey zk)).slot x.tenant
        (Tbl.look 0 s.cph.pages ((s.ns (nsOfKey zk)).slot / 16) - 1) (x.hdr.sqid % 65536 * 65536 + x.hdr.cid % 65536)) ∧
  (∀ (b j : Nat) (k : CipherJob) (s : State), s.running = true → s.cph.engines.getLsbD b = true → (s.blk b).cipRun = some j →
    s.cipherJobAt j = some k → s.ctxAt k.ctx = none → ∃ t, exec (.cipherUnitComplete b j) s = .next t ∧ t.cipherJobAt j = none ∧
      t.media = s.media ∧ t.out = s.out) ∧
  (∀ (b j : Nat) (s : State), (s.running = false ∨ s.cph.engines.getLsbD b = false ∨ (s.blk b).cipRun ≠ some j ∨ s.cipherJobAt j = none) →
    exec (.cipherUnitComplete b j) s = .next s) ∧
  (∀ (c : Nat) (x : Ctx) (s : State), s.ctxAt c = some x → x.phase = .staging → (x.kind = .write ∨ x.kind = .writeZeroes) →
    (s.ns x.nsid).zoned = true → x.behind = false → x.discard = false → s.muted x.hdr = false → (∀ k, (s.zone k).closing = none) → ∃ t,
    exec (.stagingWritten c) s = .next t ∧ (∀ zk off, some (zk, off) ∈ x.places → t.isStaged zk off = true ∧ c ∉ (t.zone zk).writing) ∧
      Posted s t x.hdr .success 0 0 ∧ t.ctxAt c = none ∧ t.media = s.media) ∧
  (∀ (c : Nat) (x : Ctx) (s : State), s.ctxAt c = some x → x.phase = .staging → x.kind = .append →
    (s.ns x.nsid).zoned = true → x.behind = false → x.discard = false → s.muted x.hdr = false → (∀ k, (s.zone k).closing = none) → ∃ t,
    exec (.stagingWritten c) s = .next t ∧ (∀ zk off, some (zk, off) ∈ x.places → t.isStaged zk off = true) ∧
      Posted s t x.hdr .success (x.slba % 2 ^ 32) (x.slba / 2 ^ 32) ∧ t.ctxAt c = none ∧ t.media = s.media) ∧
  (∀ (c : Nat) (x : Ctx) (s : State), s.ctxAt c = some x → x.phase = .staging → (x.kind = .write ∨ x.kind = .writeZeroes) →
    (s.ns x.nsid).zoned = false → x.behind = false → x.discard = false → s.muted x.hdr = false → (∀ k, (s.zone k).closing = none) → ∃ t,
    exec (.stagingWritten c) s = .next t ∧ (∀ zk off, some (zk, off) ∈ x.places → t.isStaged zk off = true) ∧
      (∀ i p, x.places.getD i none = some p → Tbl.look 0 (t.ns x.nsid).fwd (x.slba + i) = zoneOfKey p.1 * 2 ^ 20 + p.2 + 1) ∧
      Posted s t x.hdr .success 0 0 ∧ t.ctxAt c = none ∧ t.media = s.media) ∧
  (∀ (c : Nat) (x : Ctx) (s : State), s.ctxAt c = some x → x.phase = .staging → x.kind ≠ .parcel → (s.ns x.nsid).zoned = true →
    x.behind = true → ∃ t, exec (.stagingWritten c) s = .next t ∧ t.ctxAt c = some { x with phase := .done } ∧
      t.out.completions = s.out.completions ∧ t.media = s.media ∧ t.zones = s.zones) ∧
  (∀ (c g i k : Nat) (x m : Ctx) (s : State), s.ctxAt c = some x → x.phase = .staging → x.kind = .parcel → (s.ns x.nsid).zoned = true → x.behind = false →
    x.group = [(g, i, k)] → c ≠ g → s.ctxAt g = some m → m.discard = false → s.muted m.hdr = false → (∀ z, (s.zone z).closing = none) → ∃ t,
    exec (.stagingWritten c) s = .next t ∧ (∀ zk off, some (zk, off) ∈ x.places → t.isStaged zk off = true) ∧ t.ctxAt c = none ∧ t.ctxAt g = none ∧
      (m.granules ≤ k → Posted s t m.hdr .success ((x.slba * 64 + i) % 2 ^ 32) ((x.slba * 64 + i) / 2 ^ 32)) ∧
      (k < m.granules → Posted s t m.hdr .packedSpace k (x.off + x.places.length))) ∧
  (∀ (c : Nat) (s : State), (∀ x, s.ctxAt c = some x → x.phase ≠ .staging) → exec (.stagingWritten c) s = .next s)

/-- Decodes and parity (R80, R161, R162, R165, R166, R178-R180, R187, R193, R196, R201). Only a frame that holds a decoder of its block ends. A clean patrol frame leaves nothing, one at the threshold is event 0x048E and counted. A frame
that a Tempo or Distance read still wants and cannot decode is read again under the next retry entry that its class allows; with none left and soft decode allowed both soft reads are
queued and their baton asked; with no step left it is event 0x0403. One that nothing wants any more is dropped. A copied frame that decodes counts towards its page, one that does not is event
0x0490. A running-parity update folds its quarter row, with the fourth the row is complete; a final update ends the Finish that waits for it; the last top-up begins the
landing; a rebuild for the device advances the refill that waits for it. A job that no engine runs, or whose rebuild is gone, changes nothing else. -/
def Obligations.DecodesAndParityJobsEnd : Prop :=
  (∀ (j d bits : Nat) (x : DecodeJob) (s : State), s.work.decodes = [(j, some x)] → x.decoder = some d → x.entry.ctx = 0 →
    x.entry.rebuild = none → x.entry.kind = .patrol → x.entry.retry = 0 → bits < s.cfg .chipMediaCfg 0 15 8 →
    exec (.decodeComplete x.block j true true bits) s = .next (s.setDecode j none)) ∧
  (∀ (j d bits : Nat) (x : DecodeJob) (s : State), s.decodeAt j = some x → x.decoder = some d → x.entry.ctx = 0 → x.entry.rebuild = none →
    x.entry.kind = .patrol → x.entry.retry = 0 → s.cfg .chipMediaCfg 0 15 8 ≤ bits → s.roomForEvents → ∃ t,
    exec (.decodeComplete x.block j true true bits) s = .next t ∧ t.store.patrolFindings = s.store.patrolFindings + 1 ∧
      Recorded s t 0x048E (srcMarshal (blockOfLane (dieKey x.lane x.die / 8))) (Config.mapIndex x.entry.zk % 2 ^ 18) x.entry.pos bits
        (rowOf x.off) ∧ t.media = s.media ∧ t.out = s.out) ∧
  (∀ (j d bits : Nat) (ok fcrc : Bool) (x : DecodeJob) (s : State), s.decodeAt j = some x → x.decoder = some d →
    s.stillWanted x.entry x.off = true → (ok && fcrc) = false → x.entry.rebuild = none → x.entry.cls ≠ .dash → x.entry.kind ≠ .copyRead →
    x.entry.retry < (s.ladderSteps (dieKey x.lane x.die) x.entry.cls).1 → x.entry.retry < 16 → ∃ t,
    exec (.decodeComplete x.block j ok fcrc bits) s = .next t ∧ (t.die (dieKey x.lane x.die)).queue =
      (s.die (dieKey x.lane x.die)).queue ++ [{ x.entry with
          off := x.off, frames := 1, retry := x.entry.retry + 1
          tried := x.entry.retry + 1, id := s.work.nextEntry, atNs := s.now }] ∧
      (∀ k, k ≠ dieKey x.lane x.die → t.die k = s.die k) ∧ t.media = s.media ∧ t.out = s.out ∧
      (ok = true → s.roomForEvents → Recorded s t 0x040F (srcDieQueue (s.cellOf x.lane)) (subParam x.die (x.lane % 512)) d x.entry.page 0)) ∧
  (∀ (j d bits : Nat) (ok fcrc : Bool) (x : DecodeJob) (s : State), s.decodeAt j = some x → x.decoder = some d →
    s.stillWanted x.entry x.off = true → (ok && fcrc) = false → x.entry.rebuild = none → x.entry.cls ≠ .dash → x.entry.kind ≠ .copyRead →
    x.entry.retry < 16 → (s.ladderSteps (dieKey x.lane x.die) x.entry.cls).1 ≤ x.entry.retry → (s.ladderSteps (dieKey x.lane x.die) x.entry.cls).2 = true →
    s.softLimit (blockOfLane (dieKey x.lane x.die / 8)) ≠ 0 → ∃ t a b, exec (.decodeComplete x.block j ok fcrc bits) s = .next t ∧
      (t.die (dieKey x.lane x.die)).queue = (s.die (dieKey x.lane x.die)).queue ++ [a, b] ∧ a.retry = 16 ∧ b.retry = 17 ∧
      a.kind = x.entry.kind ∧ b.kind = x.entry.kind ∧ a.off = x.off ∧ b.off = x.off ∧
      t.broker.knows (.softDecode x.entry.ctx s.work.nextEntry) = true ∧ t.media = s.media ∧ t.out = s.out) ∧
  (∀ (j d bits : Nat) (fcrc : Bool) (x : DecodeJob) (s : State), s.decodeAt j = some x → x.decoder = some d → s.stillWanted x.entry x.off = true →
    x.entry.rebuild = none → x.entry.cls ≠ .dash → x.entry.kind ≠ .copyRead → x.entry.retry < 16 → s.roomForEvents →
    (s.ladderSteps (dieKey x.lane x.die) x.entry.cls).1 ≤ x.entry.retry → (s.ladderSteps (dieKey x.lane x.die) x.entry.cls).2 = false → ∃ t,
    exec (.decodeComplete x.block j false fcrc bits) s = .next t ∧
      Recorded s t 0x0403 (srcDieQueue (s.cellOf (dieKey x.lane x.die / 8)))
        (subParam (dieKey x.lane x.die % 8) (dieKey x.lane x.die / 8 % 512)) x.entry.cls.code 1 x.entry.page) ∧
  (∀ (j d bits : Nat) (ok : Bool) (x : DecodeJob) (s : State), s.work.decodes = [(j, some x)] → x.decoder = some d →
    s.stillWanted x.entry x.off = false → x.entry.retry ≠ 17 → exec (.decodeComplete x.block j ok true bits) s = .next (s.setDecode j none)) ∧
  (∀ (j d bits src tgt c : Nat) (x : DecodeJob) (s : State), s.work.decodes = [(j, some x)] → x.decoder = some d → x.entry.ctx = 0 →
    x.entry.rebuild = none → x.entry.kind = .copyRead → x.entry.retry = 0 → rowOf x.off = (s.die (dieKey x.lane x.die)).copyPages →
    (s.die (dieKey x.lane x.die)).reloc = some (x.entry.zk, x.entry.pos, src, tgt, c) → 1 < (s.die (dieKey x.lane x.die)).copyWait → ∃ t,
    exec (.decodeComplete x.block j true true bits) s = .next t ∧
      t.die (dieKey x.lane x.die) = { s.die (dieKey x.lane x.die) with copyWait := (s.die (dieKey x.lane x.die)).copyWait - 1 } ∧
      t.zones = s.zones ∧ t.media = s.media ∧ t.out = s.out ∧ t.evr = s.evr) ∧
  (∀ (j d bits : Nat) (fcrc : Bool) (x : DecodeJob) (s : State), s.decodeAt j = some x → x.decoder = some d → x.entry.ctx = 0 →
    x.entry.rebuild = none → x.entry.kind = .copyRead → s.roomForEvents → ∃ t, exec (.decodeComplete x.block j false fcrc bits) s = .next t ∧
      Recorded s t 0x0490 (srcMarshal (blockOfLane (dieKey x.lane x.die / 8))) (Config.mapIndex x.entry.zk % 2 ^ 18) x.entry.pos (rowOf x.off) 0 ∧
      t.zones = s.zones ∧ t.media = s.media ∧ t.out = s.out) ∧
  (∀ (b j bits : Nat) (ok fcrc : Bool) (s : State), (∀ x, s.decodeAt j = some x → x.block ≠ b ∨ x.decoder = none) →
    exec (.decodeComplete b j ok fcrc bits) s = .next s) ∧
  (∀ (j n : Nat) (cls : Cls) (x : Rebuild) (r : Refill) (s : State), s.parityJobAt j = some (.rebuild n cls) →
    s.work.parityRun.any (fun p => p.2 == some j) = true → x.off < (s.zone x.zk).filled → (s.ns (nsOfKey x.zk)).victim ≠ some x.zk →
    s.rebuildAt n = some x → x.ctx = 0 → (s.zone x.zk).refills = [r] → r.pos = x.pos → r.filled = false →
    r.offset (s.zone x.zk) = x.off → r.frames % 16 < 15 → r.frames + 1 < 16 * ceilDiv (s.zone x.zk).filled 256 → ∃ t,
    exec (.parityJobComplete j) s = .next t ∧ (t.zone x.zk).refills = [{ r with frames := r.frames + 1 }] ∧
      t.content x.zk (rowOf x.off) x.pos (x.off % 16) = s.rebuiltContent x.zk (rowOf x.off) x.pos (x.off % 16) (x.pos :: x.unavailable) ∧
      t.out = s.out) ∧
  (∀ (j zk row part : Nat) (r : Row) (s : State), s.parityJobAt j = some (.quarter zk row part) →
    s.work.parityRun.any (fun p => p.2 == some j) = true → s.stagedRow zk row = some r → part ∉ r.folded → r.folded.length < 3 → ∃ t r',
    exec (.parityJobComplete j) s = .next t ∧ t.stagedRow zk row = some r' ∧ r'.folded = r.folded ++ [part] ∧
      r'.quarters = r.folded.length + 1 ∧ r'.staged = r.staged ∧ t.parityJobAt j = none ∧ t.media = s.media ∧ t.dies = s.dies ∧
      t.zones = s.zones ∧ t.out = s.out) ∧
  (∀ (j zk row part : Nat) (r : Row) (s : State), s.parityJobAt j = some (.quarter zk row part) →
    s.work.parityRun.any (fun p => p.2 == some j) = true → s.stagedRow zk row = some r → part ∉ r.folded → r.folded.length = 3 → ∃ t r',
    exec (.parityJobComplete j) s = .next t ∧ t.stagedRow zk row = some r' ∧ r'.quarters = 4 ∧ r'.staged = r.staged ∧
      t.parityJobAt j = none ∧ t.media = s.media ∧ t.zones = s.zones) ∧
  (∀ (j zk row : Nat) (r : Row) (f : Fence) (h : Hdr) (s : State), s.parityJobAt j = some (.final zk row) →
    s.work.parityRun.any (fun p => p.2 == some j) = true → s.stagedRow zk row = some r → (s.zone zk).fence = some f → f.finish = true →
    (s.zone zk).st = .full → f.hdr = some h → s.muted h = false → ∃ t r', exec (.parityJobComplete j) s = .next t ∧
      t.stagedRow zk row = some r' ∧ r'.quarters = 4 ∧ (t.zone zk).fence = none ∧ (t.zone zk).st = .full ∧ Posted s t h .success 0 0) ∧
  (∀ (j zk row : Nat) (l : Landing) (s : State), s.work.parities = [(j, some (.topUp zk row))] →
    s.work.parityRun.any (fun p => p.2 == some j) = true → s.power.landing = some l → ∃ t l', exec (.parityJobComplete j) s = .next t ∧
      t.parityJobAt j = none ∧ t.power.landing = some l' ∧ l'.toppedUp = true ∧ t.media = s.media ∧ t.zones = s.zones) ∧
  (∀ (j n : Nat) (cls : Cls) (s : State), s.parityJobAt j = some (.rebuild n cls) → s.work.parityRun.any (fun p => p.2 == some j) = true →
    s.rebuildAt n = none → exec (.parityJobComplete j) s = .next (s.dropParityJob j)) ∧
  (∀ (j : Nat) (s : State), (s.parityJobAt j = none ∨ s.work.parityRun.any (fun p => p.2 == some j) = false) →
    exec (.parityJobComplete j) s = .next s)

/-- Packed granules and parcels (R241, R245, R248-R254, R260). A granule compressed by a burst that holds its baton and an engine joins it in the slices of its stream, or unchanged in 4 when it is
longer than 3,072 bytes or the comparison shows a mismatch, which is event 0x0901; a burst with no baton, no engine or nothing left compresses nothing. A granule of a Packed Read that the engine reports good counts as the LBAs read give
it, four slices as they stand or decompressed, when its GCRC is right; the last one ends the command with success, or with Decode Output Limit Exceeded where the parcel held fewer than asked. A damaged one ends it with event
0x0905 and those before it. Without an engine nothing is decompressed. The hold of a parcel whose zone has placed every command closes it: the write pointer advances by its LBAs, and a context of
its own writes them. No parcel, a command not placed yet, or a device not running: no change. -/
def Obligations.PackedGranulesAndParcels : Prop :=
  (∀ (c len e : Nat) (x : Ctx) (s : State), s.ctxAt c = some x → x.kind = .packedAppend → x.phase = .compressing → x.engine = some e →
    x.grans.length + 1 < x.granules → s.broker.holds (.burst c) = true →
    (3072 < len ∨ streamVerifies (x.dataAt x.grans.length) len = true) → ∃ t, exec (.compressGranuleDone c len false) s = .next t ∧
      t.ctxAt c = some { x with grans := x.grans ++ [⟨x.dataAt x.grans.length, len, if 3072 < len then 4 else max 1 (ceilDiv len 1024)⟩] } ∧
      (t.rgn (e / 4)).granules = (s.rgn (e / 4)).granules + 1 ∧ (∀ g, g ≠ e / 4 → t.rgn g = s.rgn g) ∧
      t.media = s.media ∧ t.zones = s.zones ∧ t.out = s.out ∧ t.broker = s.broker) ∧
  (∀ (c len e : Nat) (m : Bool) (x : Ctx) (s : State), s.ctxAt c = some x → x.kind = .packedAppend → x.phase = .compressing → x.engine = some e →
    x.grans.length + 1 < x.granules → s.broker.holds (.burst c) = true → s.hasCompression = true → s.roomForEvents →
    (m = true ∨ (len ≤ 3072 ∧ streamVerifies (x.dataAt x.grans.length) len = false)) →
    (s.rgn (e / 4)).mismatches = [] → 1 < s.cfg .cmpCfg 0 23 20 → ∃ t, exec (.compressGranuleDone c len m) s = .next t ∧
      t.ctxAt c = some { x with grans := x.grans ++ [⟨x.dataAt x.grans.length, len, 4⟩] } ∧
      (t.rgn (e / 4)).slices = (s.rgn (e / 4)).slices + 4 ∧ Recorded s t 0x0901 (srcCompress (e / 4)) (subParam (e % 4) 0)
        (x.hdr.sqid % 65536 * 65536 + x.hdr.cid % 65536) x.grans.length 1 ∧ t.media = s.media ∧ t.out = s.out) ∧
  (∀ (c len : Nat) (m : Bool) (s : State), (∀ x, s.ctxAt c = some x → x.kind ≠ .packedAppend ∨ x.phase ≠ .compressing ∨ x.engine = none ∨
    x.granules ≤ x.grans.length ∨ s.broker.holds (.burst c) = false) → exec (.compressGranuleDone c len m) s = .next s) ∧
  (∀ (c e : Nat) (b : Block) (x : Ctx) (s : State), s.ctxAt c = some x → x.kind = .packedRead → x.phase = .compressing → x.engine = some e →
    x.grans.length + 1 < x.granules → x.nextGranule = (.ok, b) → exec (.decompressGranuleDone c .ok) s =
      .next (s.setCtx c (some { x with grans := x.grans ++ [⟨b, 4096, (x.sizes.getD x.grans.length (0, 1)).2⟩] }))) ∧
  (∀ (k : Nat) (x : Ctx), x.sizes.getD x.grans.length (0, 1) = (k, 4) →
    granuleCrc (x.rawGranule k) = headField (x.dataAt 0) (32 + 4 * (x.first + x.grans.length)) 4 → x.nextGranule = (.ok, x.rawGranule k)) ∧
  (∀ (c e : Nat) (b : Block) (x : Ctx) (s : State), s.ctxAt c = some x → x.kind = .packedRead → x.phase = .compressing → x.engine = some e →
    x.granules ≤ x.grans.length + 1 → x.nextGranule = (.ok, b) → x.discard = false → s.muted x.hdr = false → ∃ t,
    exec (.decompressGranuleDone c .ok) s = .next t ∧ t.ctxAt c = none ∧ (x.close = false → Posted s t x.hdr .success 0 0) ∧
      (x.close = true → Posted s t x.hdr .decodeLimit x.granules 0) ∧ t.media = s.media ∧ t.zones = s.zones) ∧
  (∀ (c e : Nat) (o : GranuleOutcome) (x : Ctx) (s : State), s.ctxAt c = some x → x.kind = .packedRead → x.phase = .compressing →
    x.engine = some e → o ≠ .ok → x.discard = false → x.deadline = none → s.muted x.hdr = false → s.hasCompression = true → s.roomForEvents → ∃ t,
    exec (.decompressGranuleDone c o) s = .next t ∧ Posted s t x.hdr .unrecovered 0 0 ∧ t.ctxAt c = none ∧
      Recorded s t 0x0905 (s.keeperOf x.zk) (subParam (zoneOfKey x.zk % 2) (nsOfKey x.zk)) (x.slba % 2 ^ 32) (x.first + x.grans.length)
        (granuleCause o) ∧ t.media = s.media ∧ t.zones = s.zones) ∧
  (∀ (c e : Nat) (x : Ctx) (s : State), s.ctxAt c = some x → x.kind = .packedRead → x.phase = .compressing →
    x.engine = some e → x.nextGranule.1 ≠ .ok → x.discard = false → s.muted x.hdr = false → ∃ t,
    exec (.decompressGranuleDone c .ok) s = .next t ∧ Posted s t x.hdr .unrecovered 0 0 ∧ t.ctxAt c = none ∧ t.media = s.media ∧
      t.zones = s.zones) ∧
  (∀ (c : Nat) (o : GranuleOutcome) (s : State), (∀ x, s.ctxAt c = some x → x.kind ≠ .packedRead ∨ x.phase ≠ .compressing ∨ x.engine = none) →
    exec (.decompressGranuleDone c o) s = .next s) ∧
  (∀ (n z : Nat) (p : Parcel) (s : State), s.running = true → (s.zone (zoneKey n z)).parcel = some p → s.unplaced (zoneKey n z) = [] →
    ∃ t y, exec (.parcelHoldExpiry n z) s = .next t ∧ (t.zone (zoneKey n z)).parcel = none ∧
      (t.zone (zoneKey n z)).wp = (s.zone (zoneKey n z)).wp + parcelLbas p.grans ∧
      (t.zone (zoneKey n z)).parcelSeq = (s.zone (zoneKey n z)).parcelSeq + 1 ∧ t.ctxAt s.work.nextCtx = some y ∧ y.kind = .parcel ∧
      y.group = p.ctxs ∧ y.places.length = parcelLbas p.grans ∧ t.media = s.media ∧ t.out = s.out ∧
      (∀ k, k ≠ zoneKey n z → t.zone k = s.zone k)) ∧
  (∀ (n z : Nat) (s : State), (s.running = false ∨ (s.zone (zoneKey n z)).parcel = none ∨ s.unplaced (zoneKey n z) ≠ []) →
    exec (.parcelHoldExpiry n z) s = .next s)

/-- Writes at the zone keeper (R66, R70, R73, R75, R76, R89, R98, R100, R203, R213, R247, R517). From the write pointer on, in the zone's order: it advances by the LBAs of a Write, Write Zeroes or
Zone Append at once, of a Packed Append only when its parcel closes; the first write of an Empty zone gives it die blocks on its stripe set; behind a reset the pending write pointer advances. A
conventional write takes frames of a reclaim unit. Write Zeroes with DEAC on a conventional namespace deallocates. Nothing is stored or completed yet. A latched trip declines every
I/O command with the longest try-after; zones not re-armed go to the head of the re-arm queue, with a try-after of at most 2,400 us. -/
def Obligations.WritesAdvanceTheirZone : Prop :=
  (∀ (h : Hdr) (slba nlb zk : Nat) (s u : State), zk = zoneKey h.nsid (slba / zsze) → s.AtAdmission h ((s.fetchOne h).newCtx h .write slba (nlb + 1)) u →
    (s.fetchOne h).precheck ((s.fetchOne h).newCtx h .write slba (nlb + 1)) = none → (s.ns h.nsid).zoned = true →
    (u.tryIo none ((s.fetchOne h).newCtx h .write slba (nlb + 1))).1 = .go → (s.zone zk).fence = none → (s.zone zk).active = true → ∃ t y,
    exec (.writeCmd h slba nlb) s = .next t ∧ (t.zone zk).wp = (s.zone zk).wp + (nlb + 1) ∧
      (t.zone zk).writing = (s.zone zk).writing ++ [s.work.nextCtx] ∧ t.ctxAt s.work.nextCtx = some y ∧ y.kind = .write ∧ y.phase = .fetching ∧
      y.places = (List.range (nlb + 1)).map (fun i => some (zk, slba % zsze + i)) ∧
      (∀ k, k ≠ zk → t.zone k = s.zone k) ∧ t.media = s.media ∧ t.out = s.out) ∧
  (∀ (h : Hdr) (slba nlb zk : Nat) (s u : State), zk = zoneKey h.nsid (slba / zsze) → s.AtAdmission h ((s.fetchOne h).newCtx h .append slba (nlb + 1)) u →
    (s.fetchOne h).precheck ((s.fetchOne h).newCtx h .append slba (nlb + 1)) = none → (s.ns h.nsid).zoned = true →
    (u.tryIo none ((s.fetchOne h).newCtx h .append slba (nlb + 1))).1 = .go → (s.zone zk).fence = none → (s.zone zk).active = true → ∃ t y,
    exec (.zoneAppendCmd h slba nlb) s = .next t ∧ (t.zone zk).wp = (s.zone zk).wp + (nlb + 1) ∧
      t.ctxAt s.work.nextCtx = some y ∧ y.kind = .append ∧ y.phase = .fetching ∧ y.slba = slba + (s.zone zk).wp ∧
      (∀ k, k ≠ zk → t.zone k = s.zone k) ∧ t.media = s.media ∧ t.out = s.out) ∧
  (∀ (h : Hdr) (slba nlb zk : Nat) (deac : Bool) (s u : State), zk = zoneKey h.nsid (slba / zsze) →
    s.AtAdmission h ((s.fetchOne h).newCtx h .writeZeroes slba (nlb + 1)) u →
    (s.fetchOne h).precheck ((s.fetchOne h).newCtx h .writeZeroes slba (nlb + 1)) = none → (s.ns h.nsid).zoned = true →
    (u.tryIo none ((s.fetchOne h).newCtx h .writeZeroes slba (nlb + 1))).1 = .go → (s.zone zk).fence = none → (s.zone zk).active = true → ∃ t y,
    exec (.writeZeroesCmd h slba nlb deac) s = .next t ∧ (t.zone zk).wp = (s.zone zk).wp + (nlb + 1) ∧
      t.ctxAt s.work.nextCtx = some y ∧ y.phase = .ciphering ∧ y.zeros = true ∧ y.data = [] ∧
      (∀ k, k ≠ zk → t.zone k = s.zone k) ∧ t.media = s.media ∧ t.out = s.out) ∧
  (∀ (h : Hdr) (slba nlb zk : Nat) (s u : State), zk = zoneKey h.nsid (slba / zsze) → s.AtAdmission h ((s.fetchOne h).newCtx h .write slba (nlb + 1)) u →
    (s.fetchOne h).precheck ((s.fetchOne h).newCtx h .write slba (nlb + 1)) = none → (s.ns h.nsid).zoned = true →
    (u.tryIo none ((s.fetchOne h).newCtx h .write slba (nlb + 1))).1 = .go → (s.zone zk).fence = none → (s.zone zk).st = .empty →
    (s.zone zk).wp = 0 → ∃ t, exec (.writeCmd h slba nlb) s = .next t ∧ (t.zone zk).valid = true ∧ (t.zone zk).wp = nlb + 1 ∧
      (t.zone zk).set = u.placeSet h.nsid (zoneOfKey zk) ∧ (t.zone zk).rot = u.nextRotation (u.placeSet h.nsid (zoneOfKey zk)) ∧
      (t.zone zk).dblk = (u.takeBlocks (u.stripe (u.placeSet h.nsid (zoneOfKey zk))).members).1 ∧
      (∀ k, k ≠ zk → t.zone k = s.zone k) ∧ t.media = s.media ∧ t.out = s.out) ∧
  (∀ (h : Hdr) (slba nlb zk : Nat) (f : Fence) (s u : State), zk = zoneKey h.nsid (slba / zsze) →
    s.AtAdmission h ((s.fetchOne h).newCtx h .write slba (nlb + 1)) u →
    (s.fetchOne h).precheck ((s.fetchOne h).newCtx h .write slba (nlb + 1)) = none → (s.ns h.nsid).zoned = true →
    (u.tryIo none ((s.fetchOne h).newCtx h .write slba (nlb + 1))).1 = .go → (s.zone zk).fence = some f → f.finish = false →
    ∃ t g y, exec (.writeCmd h slba nlb) s = .next t ∧ (t.zone zk).fence = some g ∧ g.pendingWp = f.pendingWp + (nlb + 1) ∧
      g.behind = f.behind ++ [s.work.nextCtx] ∧ g.hdr = f.hdr ∧ (t.zone zk).wp = (s.zone zk).wp ∧ (t.zone zk).st = (s.zone zk).st ∧
      (t.zone zk).writing = (s.zone zk).writing ∧ t.ctxAt s.work.nextCtx = some y ∧ y.behind = true ∧ y.phase = .fetching ∧
      (∀ k, k ≠ zk → t.zone k = s.zone k) ∧ t.media = s.media ∧ t.out = s.out) ∧
  (∀ (h : Hdr) (slba nlb : Nat) (s u : State), s.AtAdmission h ((s.fetchOne h).newCtx h .write slba (nlb + 1)) u →
    (s.fetchOne h).precheck ((s.fetchOne h).newCtx h .write slba (nlb + 1)) = none → (s.ns h.nsid).zoned = false →
    (u.tryIo none ((s.fetchOne h).newCtx h .write slba (nlb + 1))).1 = .go → ∃ t y, exec (.writeCmd h slba nlb) s = .next t ∧
      t.ctxAt s.work.nextCtx = some y ∧ y.kind = .write ∧ y.phase = .fetching ∧
      y.places = (u.takeFrames (nlb + 1) h.nsid (u.placementOf h.nsid h.dspec).1 (u.placementOf h.nsid h.dspec).2).1.map some ∧
      (t.ns h.nsid).fwd = (s.ns h.nsid).fwd ∧ (∀ n, n ≠ h.nsid → t.ns n = s.ns n) ∧ t.media = s.media ∧
      t.out.completions = s.out.completions) ∧
  (∀ (h : Hdr) (slba nlb : Nat) (x : Ctx) (s u : State),
    x = { (s.fetchOne h).newCtx h (.discard [(slba, nlb + 1)]) 0 0 with zeros := true } → s.AtAdmission h x u → (s.fetchOne h).precheck x = none →
    (u.tryIo none x).1 = .go → (s.ns h.nsid).zoned = false → ∃ t, exec (.writeZeroesCmd h slba nlb true) s = .next t ∧ Posted s t h .success 0 0 ∧
      (∀ a, slba ≤ a → a ≤ slba + nlb → Tbl.look 0 (t.ns h.nsid).fwd a = 0) ∧
      (∀ a, (a < slba ∨ slba + nlb < a) → Tbl.look 0 (t.ns h.nsid).fwd a = Tbl.look 0 (s.ns h.nsid).fwd a) ∧
      (∀ n, n ≠ h.nsid → t.ns n = s.ns n) ∧ t.media = s.media) ∧
  (∀ (h : Hdr) (slba ng zk : Nat) (close : Bool) (s u : State), zk = zoneKey h.nsid (slba / zsze) →
    s.AtAdmission h { (s.fetchOne h).newCtx h .packedAppend slba (ng % 64 + 1) with granules := ng % 64 + 1, close := close } u →
    (s.fetchOne h).packedCheck h slba true = none →
    (u.tryPacked none { (s.fetchOne h).newCtx h .packedAppend slba (ng % 64 + 1) with granules := ng % 64 + 1, close := close }).1 = .go →
    (s.zone zk).fence = none → (s.zone zk).active = true → ∃ t y,
    exec (.packedAppend h slba ng close) s = .next t ∧ (t.zone zk).wp = (s.zone zk).wp ∧
      (t.zone zk).writing = (s.zone zk).writing ++ [s.work.nextCtx] ∧
      t.ctxAt s.work.nextCtx = some y ∧ y.kind = .packedAppend ∧ y.phase = .fetching ∧ y.granules = ng % 64 + 1 ∧ y.close = close ∧
      (∀ k, k ≠ zk → t.zone k = s.zone k) ∧ t.media = s.media ∧ t.out = s.out) ∧
  (∀ (h : Hdr) (slba nlb : Nat) (data : List Block) (p : Instr × Ctx) (s : State), p ∈ (s.fetchOne h).ioContexts h slba nlb data → s.TakesIo h →
    (s.fetchOne h).fetchStopped p.2 = false → (s.fetchOne h).precheck p.2 = none → s.aon.trip = true → ∃ t,
    exec p.1 s = .next t ∧ Posted s t h .boundUnavailable 1000000 0 ∧ t.zones = s.zones ∧ t.media = s.media) ∧
  (∀ (h : Hdr) (slba nlb : Nat) (data : List Block) (p : Instr × Ctx) (zs : List Nat) (s : State), p ∈ (s.fetchOne h).ioContexts h slba nlb data →
    s.TakesIo h → (s.fetchOne h).fetchStopped p.2 = false → (s.fetchOne h).precheck p.2 = none → s.aon.trip = false →
    zs = (s.zonesOf { p.2 with places := s.readPlaces p.2 }).filter (fun zk => (s.zone zk).rearm != 0) → zs ≠ [] → ∃ t us,
    exec p.1 s = .next t ∧ 1 ≤ us ∧ us ≤ 2400 ∧ Posted s t h .boundUnavailable us 0 ∧ t.work.rearmHead.take zs.length = zs ∧
      t.zones = s.zones ∧ t.media = s.media) ∧
  (∀ (h : Hdr) (a ng : Nat) (close : Bool) (p : Instr × Ctx) (s : State), p ∈ (s.fetchOne h).packedContexts h a ng close → s.TakesIo h →
    (s.fetchOne h).fetchStopped p.2 = false → (s.fetchOne h).packedCheck h p.2.slba (p.2.kind == .packedAppend) = none →
    (s.aon.trip = true ∨ (s.zone (zoneKey h.nsid (p.2.slba / zsze))).rearm ≠ 0) → ∃ t us,
    exec p.1 s = .next t ∧ 1 ≤ us ∧ (s.aon.trip = true → us = 1000000) ∧
      (s.aon.trip = false → us ≤ 2400 ∧ t.work.rearmHead.head? = some (zoneKey h.nsid (p.2.slba / zsze))) ∧
      Posted s t h .boundUnavailable us 0 ∧ t.zones = s.zones ∧ t.media = s.media)

/-- Reads served (R48, R74, R77, R80, R188, R213, R253): an LBA without a place reads as zeros and the command completes with success, or with DULBE at or above the write pointer as
unwritten; a staged LBA comes from staging through the cipher engine; one on flash is read, and nothing completes until then; Compare of zeros succeeds against zeros and fails against anything else; a Packed Read of a place at or past
the written LBAs is Invalid Field in Command; of an Offline zone nothing is read; a read behind a reset fence waits at it. No read stores anything. -/
def Obligations.ReadsAreServed : Prop :=
  (∀ (h : Hdr) (slba nlb : Nat) (s u : State), s.AtAdmission h ((s.fetchOne h).newCtx h .read slba (nlb + 1)) u →
    (s.fetchOne h).precheck ((s.fetchOne h).newCtx h .read slba (nlb + 1)) = none →
    (u.tryIo none ((s.fetchOne h).newCtx h .read slba (nlb + 1))).1 = .go → (s.ctrl h.ctrl).dulbe = false →
    (∀ k, (s.zone k).fence = none) → (∀ i, i ≤ nlb → s.readPlace h.nsid (slba + i) = none) → ∃ t c,
    exec (.readCmd h slba nlb) s = .next t ∧ t.out.completions = s.out.completions ++ [c] ∧ c.ctrl = h.ctrl ∧ c.sqid = h.sqid ∧ c.cid = h.cid ∧
      c.sct = 0 ∧ c.sc = 0 ∧ c.data.length = nlb + 1 ∧ t.zones = s.zones ∧ t.media = s.media ∧
      ((∀ i, i ≤ nlb → (s.ns h.nsid).zoned = true → (s.zone (zoneKey h.nsid ((slba + i) / zsze))).wp ≤ (slba + i) % zsze) →
        ∀ f ∈ c.data, f.val = 0)) ∧
  (∀ (h : Hdr) (slba nlb i : Nat) (s u : State), s.AtAdmission h ((s.fetchOne h).newCtx h .read slba (nlb + 1)) u →
    (s.fetchOne h).precheck ((s.fetchOne h).newCtx h .read slba (nlb + 1)) = none → (s.ctrl h.ctrl).dulbe = true →
    (∀ k, (s.zone k).fence = none) → (∀ k, (s.zone k).st ≠ .offline) → i ≤ nlb → s.readPlace h.nsid (slba + i) = none →
    ((s.ns h.nsid).zoned = true → (s.zone (zoneKey h.nsid ((slba + i) / zsze))).wp ≤ (slba + i) % zsze) → ∃ t,
    exec (.readCmd h slba nlb) s = .next t ∧ Posted s t h .unwritten 0 0 ∧ t.zones = s.zones ∧ t.media = s.media) ∧
  (∀ (h : Hdr) (slba zk off : Nat) (s u : State), s.AtAdmission h ((s.fetchOne h).newCtx h .read slba 1) u →
    (s.fetchOne h).precheck ((s.fetchOne h).newCtx h .read slba 1) = none →
    (u.tryIo none ((s.fetchOne h).newCtx h .read slba 1)).1 = .go → (∀ k, (s.zone k).fence = none) →
    s.readPlace h.nsid slba = some (zk, off) → s.isStaged zk off = true → ∃ t y, exec (.readCmd h slba 0) s = .next t ∧
      t.ctxAt s.work.nextCtx = some y ∧ y.got = [0] ∧ y.places = [some (zk, off)] ∧ y.data = [] ∧ t.zones = s.zones ∧ t.media = s.media ∧
      t.out = s.out ∧ t.dies = s.dies) ∧
  (∀ (h : Hdr) (slba zk off : Nat) (s u : State), s.AtAdmission h ((s.fetchOne h).newCtx h .read slba 1) u →
    (s.fetchOne h).precheck ((s.fetchOne h).newCtx h .read slba 1) = none →
    (u.tryIo none ((s.fetchOne h).newCtx h .read slba 1)).1 = .go → (∀ k, (s.zone k).fence = none) →
    s.readPlace h.nsid slba = some (zk, off) → s.isStaged zk off = false → s.onItsWay zk off = true → ∃ t y, exec (.readCmd h slba 0) s = .next t ∧
      t.ctxAt s.work.nextCtx = some y ∧ y.waits = [0] ∧ y.got = [] ∧ y.places = [some (zk, off)] ∧ t.zones = s.zones ∧ t.media = s.media ∧
      t.out = s.out ∧ t.dies = s.dies) ∧
  (∀ (h : Hdr) (slba zk off k : Nat) (s u : State), s.AtAdmission h ((s.fetchOne h).newCtx h .read slba 1) u →
    (s.fetchOne h).precheck ((s.fetchOne h).newCtx h .read slba 1) = none →
    (u.tryIo none ((s.fetchOne h).newCtx h .read slba 1)).1 = .go → (∀ k, (s.zone k).fence = none) →
    s.readPlace h.nsid slba = some (zk, off) → s.isStaged zk off = false → s.onItsWay zk off = false →
    s.memberAt (s.zone zk) (posOfOffset (s.zone zk) off) = some k → u.frameService zk off = .direct →
    (u.directLack k (s.classOf h false)).passes = true → u.readBusy k (s.classOf h false) = false → ∃ t y e, exec (.readCmd h slba 0) s = .next t ∧
      t.ctxAt s.work.nextCtx = some y ∧ y.kind = .read ∧ y.phase = .reading ∧ y.places = [some (zk, off)] ∧ y.got = [] ∧ y.data = [] ∧
      (t.die k).queue = (s.die k).queue ++ [e] ∧ e.kind = .read ∧ e.ctx = s.work.nextCtx ∧ e.zk = zk ∧ e.off = off ∧ e.frames = 1 ∧
      e.page = rowOf off ∧ (∀ j, j ≠ k → t.die j = s.die j) ∧ t.zones = s.zones ∧ t.media = s.media ∧ t.out = s.out) ∧
  (∀ (h : Hdr) (slba nlb : Nat) (data : List Block) (s u : State),
    s.AtAdmission h { (s.fetchOne h).newCtx h .compare slba (nlb + 1) with expect := data } u →
    (s.fetchOne h).precheck { (s.fetchOne h).newCtx h .compare slba (nlb + 1) with expect := data } = none →
    (u.tryIo none { (s.fetchOne h).newCtx h .compare slba (nlb + 1) with expect := data }).1 = .go → (∀ k, (s.zone k).fence = none) →
    (∀ i, i ≤ nlb → s.readPlace h.nsid (slba + i) = none) →
    (∀ i, i ≤ nlb → (s.ns h.nsid).zoned = true → (s.zone (zoneKey h.nsid ((slba + i) / zsze))).wp ≤ (slba + i) % zsze) → ∃ t,
    exec (.compareCmd h slba nlb data) s = .next t ∧
      ((∀ i, i ≤ nlb → data.getD i 0 = 0) → Posted s t h .success 0 0) ∧
      ((∃ i, i ≤ nlb ∧ (data.getD i 0).toNat % 2 ^ 32768 ≠ 0) → Posted s t h .compareFailure 0 0) ∧ t.zones = s.zones ∧ t.media = s.media) ∧
  (∀ (h : Hdr) (pga ng zk : Nat) (s u : State), zk = zoneKey h.nsid (pga / 64 / zsze) →
    s.AtAdmission h { (s.fetchOne h).newCtx h .packedRead (pga / 64) (ng % 64 + 1) with granules := ng % 64 + 1, first := pga % 64 } u →
    (s.fetchOne h).packedCheck h (pga / 64) false = none →
    (u.tryPacked none { (s.fetchOne h).newCtx h .packedRead (pga / 64) (ng % 64 + 1) with granules := ng % 64 + 1, first := pga % 64 }).1 = .go →
    (s.zone zk).fence = none → s.isStaged zk (pga / 64 % zsze) = true → ∃ t y,
    exec (.packedRead h pga ng) s = .next t ∧ t.ctxAt s.work.nextCtx = some y ∧ y.kind = .packedRead ∧ y.granules = ng % 64 + 1 ∧
      y.first = pga % 64 ∧ y.got = [0] ∧ t.zones = s.zones ∧ t.media = s.media ∧ t.out = s.out ∧ t.dies = s.dies) ∧
  (∀ (h : Hdr) (pga ng zk : Nat) (s u : State), zk = zoneKey h.nsid (pga / 64 / zsze) →
    s.AtAdmission h { (s.fetchOne h).newCtx h .packedRead (pga / 64) (ng % 64 + 1) with granules := ng % 64 + 1, first := pga % 64 } u →
    (s.fetchOne h).packedCheck h (pga / 64) false = none → (s.zone zk).fence = none →
    (s.zone zk).st ≠ .offline → (s.zone zk).filled ≤ pga / 64 % zsze → ∃ t,
    exec (.packedRead h pga ng) s = .next t ∧ Posted s t h .invalidField 0 0 ∧ t.zones = s.zones ∧ t.media = s.media) ∧
  (∀ (h : Hdr) (slba nlb : Nat) (s u : State), s.AtAdmission h ((s.fetchOne h).newCtx h .read slba (nlb + 1)) u →
    (s.fetchOne h).precheck ((s.fetchOne h).newCtx h .read slba (nlb + 1)) = none → (s.ns h.nsid).zoned = true →
    (s.zone (zoneKey h.nsid (slba / zsze))).st = .offline → ∃ t,
    exec (.readCmd h slba nlb) s = .next t ∧ Posted s t h .zoneOffline 0 0 ∧ t.zones = s.zones ∧ t.media = s.media) ∧
  (∀ (h : Hdr) (pga ng : Nat) (s u : State),
    s.AtAdmission h { (s.fetchOne h).newCtx h .packedRead (pga / 64) (ng % 64 + 1) with granules := ng % 64 + 1, first := pga % 64 } u →
    (s.fetchOne h).packedCheck h (pga / 64) false = none → (s.zone (zoneKey h.nsid (pga / 64 / zsze))).st = .offline → ∃ t,
    exec (.packedRead h pga ng) s = .next t ∧ Posted s t h .zoneOffline 0 0 ∧ t.zones = s.zones ∧ t.media = s.media) ∧
  (∀ (h : Hdr) (slba zk : Nat) (f : Fence) (s u : State), zk = zoneKey h.nsid (slba / zsze) → s.AtAdmission h ((s.fetchOne h).newCtx h .read slba 1) u →
    (s.fetchOne h).precheck ((s.fetchOne h).newCtx h .read slba 1) = none → (s.ns h.nsid).zoned = true →
    (u.tryIo none ((s.fetchOne h).newCtx h .read slba 1)).1 = .go → (s.zone zk).fence = some f → f.finish = false → ∃ t y,
    exec (.readCmd h slba 0) s = .next t ∧ (t.zone zk).fence = some { f with heldReads := f.heldReads ++ [s.work.nextCtx] } ∧
      t.ctxAt s.work.nextCtx = some y ∧ y.phase = .reading ∧ (∀ k, k ≠ zk → t.zone k = s.zone k) ∧ t.media = s.media ∧ t.out = s.out)

/-- Flush, Dataset Management, Copy (R58, R100, R203, R207, R213): Flush completes with success and changes no data, since acknowledged writes are safe already; Dataset
Management with the deallocate attribute deallocates the LBAs of its ranges on a conventional namespace, and without it none; Copy is Invalid Field in Command on a zoned one, and on a conventional one
ends out of range with LBA Out of Range, of no LBA with success, and otherwise becomes a write of what it read: here of one LBA that has no data. -/
def Obligations.FlushDatasetAndCopy : Prop :=
  (∀ (h : Hdr) (s u : State), s.AtAdmission h ((s.fetchOne h).newCtx h .flush 0 0) u →
    (s.fetchOne h).precheck ((s.fetchOne h).newCtx h .flush 0 0) = none → (u.tryIo none ((s.fetchOne h).newCtx h .flush 0 0)).1 = .go → ∃ t,
    exec (.flushCmd h) s = .next t ∧ Posted s t h .success 0 0 ∧ t.zones = s.zones ∧ t.nss = s.nss ∧ t.media = s.media ∧ t.work.rows = s.work.rows) ∧
  (∀ (h : Hdr) (st : Status) (s : State), s.TakesIo h → (s.fetchOne h).fetchStopped ((s.fetchOne h).newCtx h .flush 0 0) = false →
    s.nsRefusal h = some st → ∃ t, exec (.flushCmd h) s = .next t ∧ Posted s t h st 0 0 ∧ t.zones = s.zones ∧ t.media = s.media) ∧
  (∀ (h : Hdr) (rs : List (Nat × Nat)) (x : Ctx) (s u : State),
    x = { (s.fetchOne h).newCtx h (.discard rs) 0 0 with cls := (s.fetchOne h).classOf h true } → s.AtAdmission h x u →
    (s.fetchOne h).precheck x = none → (u.tryIo none x).1 = .go → (s.ns h.nsid).zoned = false → ∃ t,
    exec (.datasetMgmtCmd h true rs) s = .next t ∧ Posted s t h .success 0 0 ∧
      (∀ a, (∃ r ∈ rs, r.1 ≤ a ∧ a < r.1 + r.2) → Tbl.look 0 (t.ns h.nsid).fwd a = 0) ∧
      (∀ a, (∀ r ∈ rs, a < r.1 ∨ r.1 + r.2 ≤ a) → Tbl.look 0 (t.ns h.nsid).fwd a = Tbl.look 0 (s.ns h.nsid).fwd a) ∧
      (∀ n, n ≠ h.nsid → t.ns n = s.ns n) ∧ t.media = s.media) ∧
  (∀ (h : Hdr) (rs : List (Nat × Nat)) (x : Ctx) (s u : State),
    x = { (s.fetchOne h).newCtx h (.discard []) 0 0 with cls := (s.fetchOne h).classOf h true } → s.AtAdmission h x u →
    (s.fetchOne h).precheck { x with kind := .discard rs } = none → (u.tryIo none x).1 = .go → ∃ t,
    exec (.datasetMgmtCmd h false rs) s = .next t ∧ Posted s t h .success 0 0 ∧ t.nss = s.nss ∧ t.zones = s.zones ∧ t.media = s.media) ∧
  (∀ (h : Hdr) (d : Bool) (rs : List (Nat × Nat)) (st : Status) (x : Ctx) (s : State),
    x = { (s.fetchOne h).newCtx h (.discard rs) 0 0 with cls := (s.fetchOne h).classOf h true } → s.TakesIo h →
    (s.fetchOne h).precheck x = some st → ∃ t,
    exec (.datasetMgmtCmd h d rs) s = .next t ∧ Posted s t h st 0 0 ∧ t.nss = s.nss ∧ t.zones = s.zones ∧ t.media = s.media) ∧
  (∀ (h : Hdr) (d : Nat) (rs : List (Nat × Nat)) (s : State), s.TakesIo h → s.nsRefusal h = none → (s.ns h.nsid).zoned = true →
    (s.ns h.nsid).packed = false → ∃ t, exec (.copyCmd h d rs) s = .next t ∧ Posted s t h .invalidField 0 0 ∧ t.zones = s.zones ∧
      t.media = s.media) ∧
  (∀ (h : Hdr) (d a n : Nat) (s : State), s.TakesIo h → s.nsRefusal h = none → (s.ns h.nsid).zoned = false → (s.ns h.nsid).packed = false →
    h.unsupported = false → s.keyAvailable h.nsid = true → n ≤ 1 →
    ∃ t, exec (.copyCmd h d [(a, n)]) s = .next t ∧ (n = 0 → Posted s t h .success 0 0) ∧
      (n = 1 → ((s.ns h.nsid).lbas ≤ a ∨ (s.ns h.nsid).lbas ≤ d) → Posted s t h .lbaOutOfRange 0 0) ∧ t.media = s.media) ∧
  (∀ (h : Hdr) (a d : Nat) (s u : State),
    s.AtAdmission h { (s.fetchOne h).newCtx h .copy a 1 with lbas := [a], target := d } u → (s.ns h.nsid).zoned = false →
    (s.fetchOne h).precheck { (s.fetchOne h).newCtx h .copy a 1 with lbas := [a], target := d } = none →
    (u.tryIo none { (s.fetchOne h).newCtx h .copy a 1 with lbas := [a], target := d }).1 = .go → a < (s.ns h.nsid).lbas →
    d < (s.ns h.nsid).lbas → Tbl.look 0 (s.ns h.nsid).fwd a = 0 → ∃ t y, exec (.copyCmd h d [(a, 1)]) s = .next t ∧
      t.ctxAt s.work.nextCtx = some y ∧ y.kind = .write ∧ y.phase = .ciphering ∧ y.slba = d ∧ y.data = [(0, 0)] ∧ t.media = s.media ∧
      t.out.completions = s.out.completions)

/-- Dataset Management on a zoned namespace (R101, whole), with the deallocate attribute or without: once admitted it completes successfully and changes nothing of the
zones, their data or the dies, and reads still return the written data: every LBA is read from the place it was read from, with the same stored block. -/
def Obligations.DiscardChangesNoZone : Prop :=
  ∀ (h : Hdr) (d : Bool) (rs : List (Nat × Nat)) (x : Ctx) (s u : State),
    x = { (s.fetchOne h).newCtx h (.discard (if d then rs else [])) 0 0 with cls := (s.fetchOne h).classOf h true } → s.AtAdmission h x u →
    (s.fetchOne h).precheck { x with kind := .discard rs } = none → (u.tryIo none x).1 = .go → (s.ns h.nsid).zoned = true → ∃ t,
    exec (.datasetMgmtCmd h d rs) s = .next t ∧ Posted s t h .success 0 0 ∧ t.zones = s.zones ∧ t.media = s.media ∧ t.nss = s.nss ∧
      t.dies = s.dies ∧ t.sets = s.sets ∧ t.store = s.store ∧ t.work.rows = s.work.rows ∧ t.mem = s.mem ∧
      (∀ nsid lba, t.readPlace nsid lba = s.readPlace nsid lba) ∧ (∀ zk off, t.stored zk off = s.stored zk off)

/-- Zone management (R58, R65, R66, R67, R84, R89, R209, R213, R255). Open makes an open or closed zone explicitly open and gives an Empty one die blocks; Close makes an open zone closed, of a packed
zone once its appends are done; a read-only zone goes Offline and gives up its die blocks; the other actions of a state end as its row says. A command that is wrong ends with its status; a latched trip or a zone not re-armed declines it; at a zone
with a fence or a Close in progress it waits; with no room at its stewards it is declined. A report shows the zones from the one named on and changes none, for zones not re-armed too; descriptor
extensions are refused with Invalid Field in Command. -/
def Obligations.ZoneActionsFollowTheirTable : Prop :=
  (∀ (h : Hdr) (slba zk : Nat) (s : State), zk = zoneKey h.nsid (slba / zsze) → s.AtManage h slba true → (s.zone zk).busy = false →
    (s.zone zk).active = true → ∃ t, exec (.zoneOpen h slba) s = .next t ∧ Posted s t h .success 0 0 ∧
      t.zone zk = { s.zone zk with st := .explicitOpen } ∧
      (∀ k, k ≠ zk → t.zone k = s.zone k) ∧ t.media = s.media ∧ t.dies = s.dies ∧ t.sets = s.sets) ∧
  (∀ (h : Hdr) (slba zk : Nat) (s : State), zk = zoneKey h.nsid (slba / zsze) → s.AtManage h slba true → (s.zone zk).busy = false →
    (s.zone zk).st = .empty → (s.stripe (s.placeSet (nsOfKey zk) (zoneOfKey zk))).degraded = false →
    s.mayActivate (s.ns (nsOfKey zk)).tenant = true → 
    (((s.fetchOne h).each ((s.fetchOne h).writeStewards h zk) fun p s => s.bookSteward p.1 p.2).openZone h zk).1 = .go →
    ∃ t, exec (.zoneOpen h slba) s = .next t ∧ Posted s t h .success 0 0 ∧ (t.zone zk).st = .explicitOpen ∧ (t.zone zk).valid = true ∧
      (t.zone zk).wp = 0 ∧ (t.zone zk).set = s.placeSet (nsOfKey zk) (zoneOfKey zk) ∧ (∀ k, k ≠ zk → t.zone k = s.zone k) ∧ t.media = s.media) ∧
  (∀ (h : Hdr) (slba zk : Nat) (s : State), zk = zoneKey h.nsid (slba / zsze) → s.AtManage h slba true → (s.zone zk).busy = false →
    (s.zone zk).st = .empty → ∃ t, exec (.zoneOpen h slba) s = .next t ∧
      ((s.stripe (s.placeSet (nsOfKey zk) (zoneOfKey zk))).degraded = true → Posted s t h .laneSetDegraded 0 0 ∧ t.zones = s.zones) ∧
      ((s.stripe (s.placeSet (nsOfKey zk) (zoneOfKey zk))).degraded = false → s.mayActivate (s.ns (nsOfKey zk)).tenant = false →
        Posted s t h .tooManyActive 0 0 ∧ t.zones = s.zones) ∧ t.media = s.media) ∧
  (∀ (h : Hdr) (slba zk : Nat) (s : State), zk = zoneKey h.nsid (slba / zsze) → s.AtManage h slba true → (s.zone zk).busy = false →
    ((s.zone zk).st = .implicitOpen ∨ (s.zone zk).st = .explicitOpen) →
    ((s.zone zk).packed = false ∨ ((s.zone zk).writing = [] ∧ (s.zone zk).parcel = none)) → ∃ t, exec (.zoneClose h slba) s = .next t ∧
      Posted s t h .success 0 0 ∧ t.zone zk = { s.zone zk with st := .closed } ∧ (∀ k, k ≠ zk → t.zone k = s.zone k) ∧ t.media = s.media ∧
      t.dies = s.dies) ∧
  (∀ (h : Hdr) (slba zk : Nat) (s : State), zk = zoneKey h.nsid (slba / zsze) → s.AtManage h slba true → (s.zone zk).busy = false →
    ((s.zone zk).st = .implicitOpen ∨ (s.zone zk).st = .explicitOpen) → (s.zone zk).packed = true → (s.zone zk).writing ≠ [] →
    (s.zone zk).parcel = none → ∃ t, exec (.zoneClose h slba) s = .next t ∧
      (t.zone zk).closing = some h ∧ (t.zone zk).st = (s.zone zk).st ∧ (∀ k, k ≠ zk → t.zone k = s.zone k) ∧ t.out = s.out ∧ t.media = s.media) ∧
  (∀ (h : Hdr) (slba zk : Nat) (s : State), zk = zoneKey h.nsid (slba / zsze) → s.AtManage h slba true → (s.zone zk).busy = false →
    (s.zone zk).st = .closed → ∃ t, exec (.zoneClose h slba) s = .next t ∧ Posted s t h .success 0 0 ∧ t.zones = s.zones ∧ t.media = s.media) ∧
  (∀ (h : Hdr) (slba zk : Nat) (s : State), zk = zoneKey h.nsid (slba / zsze) → s.AtManage h slba true → (s.zone zk).busy = false →
    (s.zone zk).st = .readOnly → ∃ t, exec (.zoneOffline h slba) s = .next t ∧ (s.windowsOf zk = [] → Posted s t h .success 0 0) ∧
      (t.zone zk).st = .offline ∧ (t.zone zk).valid = false ∧ (t.zone zk).dblk = [] ∧
      (∀ r ∈ t.work.rows, r.zk ≠ zk) ∧ t.windowsOf zk = [] ∧ t.media = s.media) ∧
  (∀ (h : Hdr) (slba zk : Nat) (p : Instr × ZoneAct) (s : State), zk = zoneKey h.nsid (slba / zsze) → p ∈ zoneActions h slba →
    s.AtManage h slba true → (s.zone zk).busy = false → (s.zone zk).st = .offline → ∃ t, exec p.1 s = .next t ∧
      Posted s t h .zoneOffline 0 0 ∧ t.zones = s.zones ∧ t.media = s.media) ∧
  (∀ (h : Hdr) (slba zk : Nat) (p : Instr × ZoneAct) (s : State), zk = zoneKey h.nsid (slba / zsze) → p ∈ zoneActions h slba →
    s.AtManage h slba true → (s.zone zk).busy = false →
    ((p.2 ≠ .offline ∧ (s.zone zk).st = .readOnly) ∨ ((p.2 = .openZone ∨ p.2 = .close ∨ p.2 = .offline) ∧ (s.zone zk).st = .full) ∨
      ((p.2 = .close ∨ p.2 = .offline) ∧ (s.zone zk).st = .empty) ∨ (p.2 = .offline ∧ (s.zone zk).active = true)) → ∃ t,
    exec p.1 s = .next t ∧ Posted s t h .invalidTransition 0 0 ∧ t.zones = s.zones ∧ t.media = s.media) ∧
  (∀ (h : Hdr) (slba : Nat) (p : Instr × ZoneAct) (st : Status) (s : State), p ∈ zoneActions h slba → s.TakesIo h →
    s.manageCheck h slba true = some st → ∃ t, exec p.1 s = .next t ∧ Posted s t h st 0 0 ∧ t.zones = s.zones ∧ t.media = s.media) ∧
  (∀ (h : Hdr) (slba f n : Nat) (b : Bool) (st : Status) (s : State), s.TakesIo h → s.manageCheck h slba false = some st → ∃ t,
    exec (.reportZones h slba ⟨f, b⟩ n) s = .next t ∧ Posted s t h st 0 0 ∧ t.zones = s.zones ∧ t.media = s.media) ∧
  (∀ (h : Hdr) (st : Status) (s : State), s.TakesIo h → s.manageCheck h 0 false = some st → ∃ t,
    exec (.zoneResetAll h) s = .next t ∧ Posted s t h st 0 0 ∧ t.zones = s.zones ∧ t.media = s.media) ∧
  (∀ (h : Hdr) (slba f n : Nat) (b : Bool) (c : Instr) (s : State), c ∈ [Instr.zoneResetAll h, .reportZones h slba ⟨f, b⟩ n] → s.TakesIo h →
    s.manageCheck h 0 false = none → s.manageCheck h slba false = none → s.aon.trip = true → ∃ t, exec c s = .next t ∧
      Posted s t h .boundUnavailable 1000000 0 ∧ t.zones = s.zones ∧ t.media = s.media) ∧
  (∀ (h : Hdr) (slba zk : Nat) (p : Instr × ZoneAct) (s : State), zk = zoneKey h.nsid (slba / zsze) → p ∈ zoneActions h slba → s.TakesIo h →
    s.manageCheck h slba true = none → (s.aon.trip = true ∨ (s.zone zk).rearm ≠ 0) → ∃ t us, exec p.1 s = .next t ∧ 1 ≤ us ∧
      (s.aon.trip = true → us = 1000000) ∧ (s.aon.trip = false → us ≤ 2400 ∧ t.work.rearmHead.head? = some zk) ∧
      Posted s t h .boundUnavailable us 0 ∧ t.zones = s.zones ∧ t.media = s.media) ∧
  (∀ (h : Hdr) (zs : List Nat) (s : State), s.TakesIo h → s.manageCheck h 0 false = none → s.aon.trip = false →
    zs = (s.resettable h.nsid).filter (fun zk => (s.zone zk).rearm != 0) → zs ≠ [] → ∃ t us, exec (.zoneResetAll h) s = .next t ∧ 1 ≤ us ∧
      us ≤ 2400 ∧ t.work.rearmHead.take zs.length = zs ∧ Posted s t h .boundUnavailable us 0 ∧ t.zones = s.zones ∧ t.media = s.media) ∧
  (∀ (h : Hdr) (slba zk : Nat) (p : Instr × ZoneAct) (s : State), zk = zoneKey h.nsid (slba / zsze) → p ∈ zoneActions h slba →
    s.AtManage h slba true → (s.zone zk).busy = true → ∃ t y, exec p.1 s = .next t ∧ t.ctxAt s.work.nextCtx = some y ∧ y.kind = .manage p.2 ∧
      y.phase = .waiting ∧ y.hdr = h ∧ t.zone zk = { s.zone zk with waiting := (s.zone zk).waiting ++ [s.work.nextCtx] } ∧
      (∀ k, k ≠ zk → t.zone k = s.zone k) ∧ t.out = s.out ∧ t.media = s.media) ∧
  (∀ (h : Hdr) (slba : Nat) (p : Instr × ZoneAct) (l : Lack) (s : State), p ∈ zoneActions h slba → s.TakesIo h → s.manageCheck h slba true = none →
    s.aon.trip = false → (∀ k, (s.zone k).rearm = 0) → (s.tenant (s.tenantOf h.ctrl)).heldCmds = [] →
    (s.tenant (s.tenantOf h.ctrl)).compat = false →
    l = (s.fetchOne h).stewardLacks ((s.fetchOne h).writeStewards h (zonePlace h.nsid slba).1) → l.passes = false → ∃ t,
    exec p.1 s = .next t ∧ Posted s t h .boundUnavailable (min 1000000 (max 1 l.tryUs)) 0 ∧ t.zones = s.zones ∧ t.media = s.media) ∧
  (∀ (h : Hdr) (slba f n : Nat) (b : Bool) (s : State), s.AtManage h slba false → ∃ t c, exec (.reportZones h slba ⟨f, b⟩ n) s = .next t ∧
    t.out.completions = s.out.completions ++ [c] ∧ c.cid = h.cid ∧ c.sct = 0 ∧ c.sc = 0 ∧ c.data = s.report h.nsid (slba / zsze) f n b ∧
    t.zones = s.zones ∧ t.media = s.media) ∧
  (∀ (h : Hdr) (slba : Nat) (s : State), s.TakesIo h → s.nsRefusal h = none → ∃ t, exec (.zoneSetDescExt h slba) s = .next t ∧
    Posted s t h .invalidField 0 0 ∧ t.zones = s.zones ∧ t.media = s.media) ∧
  (∀ (h : Hdr) (slba : Nat) (st : Status) (s : State), s.TakesIo h → s.nsRefusal h = some st → ∃ t, exec (.zoneSetDescExt h slba) s = .next t ∧
    Posted s t h st 0 0 ∧ t.zones = s.zones ∧ t.media = s.media)

/-- Finish and reset (R66, R68, R75, R76, R77, R79, R80, R358). A Finish of a zone with nothing accepted before it makes the zone Full with its write pointer at ZCAP and completes, once an incomplete last row is padded and its parity computed; with writes
before it, it waits behind its fence. A reset revokes the windows, sets its fence and completes when the fence clears, with the zone Empty and its write pointer at its start, or holding what was written behind it; Select All fences every zone that a
reset affects and completes with the last. Before the last write accepted ahead of it is acknowledged a fence does not clear; of a zone that lost its stripe set its command ends with the zone's status. That a
finished Empty zone takes no die blocks is the model's choice (log entry 183). -/
def Obligations.FinishAndResetFences : Prop :=
  (∀ (h : Hdr) (slba zk : Nat) (s : State), zk = zoneKey h.nsid (slba / zsze) → s.AtManage h slba true → (s.zone zk).busy = false →
    ((s.zone zk).active = true ∨ (s.zone zk).st = .empty) → (s.zone zk).writing = [] → (s.zone zk).parcel = none →
    ((s.zone zk).wp % 256 = 0 ∨ (s.stagedRow zk (rowOf (s.zone zk).wp)).isNone = true) → (s.zone zk).relocTgt = none → ∃ t,
    exec (.zoneFinish h slba) s = .next t ∧ Posted s t h .success 0 0 ∧
      t.zone zk = { s.zone zk with st := .full, fzr := false, wp := s.zcap, padFrom := some (s.zone zk).wp } ∧
      (∀ k, k ≠ zk → t.zone k = s.zone k) ∧ t.media = s.media) ∧
  (∀ (h : Hdr) (slba zk : Nat) (s : State), zk = zoneKey h.nsid (slba / zsze) → s.AtManage h slba true → (s.zone zk).busy = false →
    (s.zone zk).active = true → (s.zone zk).writing = [] → (s.zone zk).parcel = none → (s.zone zk).wp % 256 ≠ 0 →
    (s.stagedRow zk (rowOf (s.zone zk).wp)).isSome = true → (s.zone zk).relocTgt = none → ∃ t,
    exec (.zoneFinish h slba) s = .next t ∧ (t.zone zk).st = .full ∧ (t.zone zk).wp = s.zcap ∧ (t.zone zk).padFrom = some (s.zone zk).wp ∧
      (t.zone zk).fence.isSome = true ∧ Tbl.look none t.work.parities s.work.nextJob = some (.final zk (rowOf (s.zone zk).wp)) ∧
      t.out.completions = s.out.completions ∧ (∀ k, k ≠ zk → t.zone k = s.zone k) ∧ t.media = s.media) ∧
  (∀ (h : Hdr) (slba zk : Nat) (s : State), zk = zoneKey h.nsid (slba / zsze) → s.AtManage h slba true → (s.zone zk).busy = false →
    (s.zone zk).active = true → (s.zone zk).writing ≠ [] → (s.zone zk).parcel = none → s.unplaced zk = [] → ∃ t due,
    exec (.zoneFinish h slba) s = .next t ∧ t.zone zk = { s.zone zk with fence := some ⟨true, some h, false, 0, [], 0, [], [], due⟩ } ∧
      t.out = s.out ∧ (∀ k, k ≠ zk → t.zone k = s.zone k) ∧ t.media = s.media) ∧
  (∀ (h : Hdr) (slba zk : Nat) (s : State), zk = zoneKey h.nsid (slba / zsze) → s.AtManage h slba true → (s.zone zk).busy = false →
    (s.zone zk).st = .full → ∃ t, exec (.zoneFinish h slba) s = .next t ∧ Posted s t h .success 0 0 ∧
      t.zones = s.zones ∧ t.media = s.media) ∧
  (∀ (h : Hdr) (slba zk : Nat) (s : State), zk = zoneKey h.nsid (slba / zsze) → s.AtManage h slba true → (s.zone zk).busy = false →
    ((s.zone zk).active = true ∨ (s.zone zk).st = .full) → (s.zone zk).parcel = none → s.unplaced zk = [] → ∃ t due,
    exec (.zoneReset h slba) s = .next t ∧
      t.zone zk = { s.zone zk with fence := some ⟨false, some h, false, 0, [], 0, [], [], due⟩ } ∧ t.windowsOf zk = [] ∧
      (s.windowsOf zk = [] → t.out = s.out) ∧ (∀ k, k ≠ zk → t.zone k = s.zone k) ∧ t.media = s.media) ∧
  (∀ (h : Hdr) (slba zk : Nat) (s : State), zk = zoneKey h.nsid (slba / zsze) → s.AtManage h slba true → (s.zone zk).busy = false →
    (s.zone zk).st = .empty → ∃ t, exec (.zoneReset h slba) s = .next t ∧ Posted s t h .success 0 0 ∧
      t.zones = s.zones ∧ t.media = s.media) ∧
  (∀ (h : Hdr) (s : State), s.AtManage h 0 false → (∀ k, (s.zone k).busy = false) → (∀ k, (s.zone k).parcel = none) →
    (∀ k, s.unplaced k = []) → (∀ k, s.windowsOf k = []) → s.resettable h.nsid ≠ [] → ∃ t, exec (.zoneResetAll h) s = .next t ∧
      t.work.selectAll = s.work.selectAll ++ [(h, s.resettable h.nsid, [])] ∧ (∀ k ∈ s.resettable h.nsid, (t.zone k).fence.isSome = true) ∧
      (∀ k, k ∉ s.resettable h.nsid → t.zone k = s.zone k) ∧ t.out = s.out ∧ t.media = s.media) ∧
  (∀ (h : Hdr) (s : State), s.AtManage h 0 false → s.resettable h.nsid = [] → ∃ t, exec (.zoneResetAll h) s = .next t ∧
      Posted s t h .success 0 0 ∧ t.zones = s.zones ∧ t.media = s.media) ∧
  (∀ (h : Hdr) (n z w zk : Nat) (due : Option Nat) (s : State), zk = zoneKey n z → s.running = true →
    (s.zone zk).fence = some ⟨false, some h, false, w, [], 0, [], [], due⟩ → (s.zone zk).writing = [] →
    (s.zone zk).waiting = [] → (s.zone zk).st ≠ .offline → (s.zone zk).st ≠ .readOnly → s.muted h = false →
    ∃ t, exec (.zoneResetFenceClear n z) s = .next t ∧ Posted s t h .success 0 0 ∧ (t.zone zk).st = .empty ∧
      (t.zone zk).wp = 0 ∧ (t.zone zk).fence = none ∧ (t.zone zk).valid = false ∧
      (∀ r ∈ t.work.rows, r.zk ≠ zk) ∧ t.media = s.media) ∧
  (∀ (n z zk : Nat) (f : Fence) (s : State), zk = zoneKey n z → s.running = true → (s.zone zk).fence = some f → f.finish = false → f.behind ≠ [] →
    (s.zone zk).writing = [] → (s.zone zk).waiting = [] → (s.zone zk).packed = false → (s.zone zk).st ≠ .offline → (s.zone zk).st ≠ .readOnly → ∃ t,
    exec (.zoneResetFenceClear n z) s = .next t ∧ (t.zone zk).wp = f.pendingWp ∧ (t.zone zk).dblk = f.newDblk ∧ (t.zone zk).valid = true ∧
      (t.zone zk).fence = none ∧ (t.zone zk).st = (if f.pendingWp = s.zcap then .full else .implicitOpen) ∧ (t.zone zk).rot = f.newRot) ∧
  (∀ (h : Hdr) (n z w zk : Nat) (due : Option Nat) (s : State), zk = zoneKey n z → s.running = true →
    (s.zone zk).fence = some ⟨false, some h, true, w, [], 0, [], [], due⟩ → (s.zone zk).writing = [] →
    (s.zone zk).waiting = [] → (s.zone zk).st ≠ .offline → (s.zone zk).st ≠ .readOnly → s.muted h = false → s.work.selectAll = [(h, [zk], [])] →
    ∃ t, exec (.zoneResetFenceClear n z) s = .next t ∧ Posted s t h .success 0 0 ∧ (t.zone zk).st = .empty ∧ (t.zone zk).fence = none ∧
      t.work.selectAll = [] ∧ t.media = s.media) ∧
  (∀ (h : Hdr) (n z w zk k : Nat) (due : Option Nat) (s : State), zk = zoneKey n z → s.running = true →
    (s.zone zk).fence = some ⟨false, some h, true, w, [], 0, [], [], due⟩ → (s.zone zk).writing = [] →
    (s.zone zk).waiting = [] → (s.zone zk).st ≠ .offline → (s.zone zk).st ≠ .readOnly → k ≠ zk → s.work.selectAll = [(h, [zk, k], [])] →
    ∃ t, exec (.zoneResetFenceClear n z) s = .next t ∧ (t.zone zk).st = .empty ∧ (t.zone zk).fence = none ∧
      t.work.selectAll = [(h, [k], [])] ∧ t.out.completions = s.out.completions ∧ t.media = s.media) ∧
  (∀ (h : Hdr) (n z zk : Nat) (f : Fence) (s : State), zk = zoneKey n z → s.running = true → (s.zone zk).fence = some f → f.hdr = some h →
    f.all = false → f.behind = [] → f.heldReads = [] → f.newDblk = [] → (s.zone zk).writing = [] → (s.zone zk).waiting = [] → s.muted h = false →
    ((s.zone zk).st = .offline ∨ (s.zone zk).st = .readOnly) → ∃ t, exec (.zoneResetFenceClear n z) s = .next t ∧
      t.zone zk = { s.zone zk with fence := none } ∧ ((s.zone zk).st = .offline → Posted s t h .zoneOffline 0 0) ∧
      ((s.zone zk).st = .readOnly → Posted s t h .invalidTransition 0 0) ∧ (∀ k, k ≠ zk → t.zone k = s.zone k) ∧ t.media = s.media) ∧
  (∀ (n z zk : Nat) (s : State), zk = zoneKey n z →
    (s.running = false ∨ ((s.zone zk).waiting = [] ∧ ((s.zone zk).fence = none ∨ (s.zone zk).writing ≠ []))) →
    exec (.zoneResetFenceClear n z) s = .next s)

/-- Zone ages and re-arm (R67, R80, R86, R88, R89, R185, R192): an open or closed zone gets Finish Zone Recommended at its age limit; at the excursion limit the device finishes it,
marks it, and tells the owner; a limit of 0 hours, a zone that is not active, a reclaim unit or a fence: nothing. Re-arm runs zone by zone, at most 64 at once, once tenant 0 is ready; it compares every restored row with its
parity, repairs what it finds or marks the LBAs lost, with event 0x0491, and the zone is ready. -/
def Obligations.ZoneAgesAndRearm : Prop :=
  (∀ (n z zk : Nat) (s : State), zk = zoneKey n z → s.running = true → (s.zone zk).active = true → s.cfg .chipZonePolicy 0 31 24 ≠ 0 → ∃ t,
    exec (.zoneFzrTimeout n z) s = .next t ∧ t.zone zk = { s.zone zk with fzr := true } ∧
      (∀ k, k ≠ zk → t.zone k = s.zone k) ∧ t.out = s.out ∧ t.media = s.media) ∧
  (∀ (n z : Nat) (s : State), (s.running = false ∨ s.cfg .chipZonePolicy 0 31 24 = 0 ∨ (s.zone (zoneKey n z)).active = false) →
    exec (.zoneFzrTimeout n z) s = .next s) ∧
  (∀ (n z zk : Nat) (s : State), zk = zoneKey n z → s.running = true → (s.zone zk).active = true → (s.zone zk).ru = false →
    (s.zone zk).fence = none → s.cfg .chipZonePolicy 0 23 16 ≠ 0 → (s.zone zk).writing = [] →
    (s.zone zk).parcel = none → ((s.zone zk).wp % 256 = 0 ∨ (s.stagedRow zk (rowOf (s.zone zk).wp)).isNone = true) → (s.zone zk).relocTgt = none →
    (∀ u, (s.tenant u).logging = false) → s.roomForEvents → ∃ t, exec (.zoneAeTimeout n z) s = .next t ∧
      (t.zone zk).st = .full ∧ (t.zone zk).zfc = true ∧ (t.zone zk).fence = none ∧
      (t.zone zk).wp = s.zcap ∧ zoneOfKey zk ∈ (t.ns (nsOfKey zk)).changed ∧
      t.out.notices = s.out.notices ++ [((s.ns (nsOfKey zk)).tenant, .zoneDescriptorChanged (nsOfKey zk))] ∧
      Recorded s t 0x0483 (s.keeperOf zk) (subParam (zoneOfKey zk % 2) (nsOfKey zk))
        (zoneOfKey zk) (max (s.cfg .chipZonePolicy 0 23 16) (s.ageHours (s.zone zk))) 0 ∧ t.media = s.media) ∧
  (∀ (n z zk : Nat) (s : State), zk = zoneKey n z → s.running = true → (s.zone zk).active = true → (s.zone zk).ru = false →
    (s.zone zk).fence = none → s.cfg .chipZonePolicy 0 23 16 ≠ 0 → (s.zone zk).writing ≠ [] → (s.zone zk).parcel = none → s.unplaced zk = [] → ∃ t,
    exec (.zoneAeTimeout n z) s = .next t ∧ t.zone zk = { s.zone zk with fence := some ⟨true, none, false, 0, [], 0, [], [], none⟩ } ∧
      (∀ k, k ≠ zk → t.zone k = s.zone k) ∧ t.out = s.out ∧ t.media = s.media) ∧
  (∀ (n z zk : Nat) (s : State), zk = zoneKey n z → (s.running = false ∨ s.cfg .chipZonePolicy 0 23 16 = 0 ∨ (s.zone zk).active = false ∨
    (s.zone zk).ru = true ∨ (s.zone zk).fence.isSome = true) → exec (.zoneAeTimeout n z) s = .next s) ∧
  (∀ (zk : Nat) (s : State), s.running = true → (s.tenant 0).ready = true → s.rearmActive.length < 64 → s.nextRearm = some zk → ∃ t,
    exec .zoneRearmStart s = .next t ∧ t.zone zk = { s.zone zk with rearm := 2, rearmAt := s.now } ∧
      (∀ k, k ≠ zk → t.zone k = s.zone k) ∧ zk ∉ t.work.rearmHead ∧ t.media = s.media ∧ t.out = s.out) ∧
  (∀ (s : State), (s.running = false ∨ (s.tenant 0).ready = false ∨ 64 ≤ s.rearmActive.length ∨ s.nextRearm = none) →
    exec .zoneRearmStart s = .next s) ∧
  (∀ (n z zk : Nat) (failed : List (Nat × Nat)) (data parity : List SeenFrame) (s : State), zk = zoneKey n z → s.running = true → (s.zone zk).rearm = 2 →
    (∀ r ∈ s.work.rows, r.zk ≠ zk) → ∃ t,
    exec (.zoneRearmDone n z failed data parity) s = .next t ∧ t.zone zk = { s.zone zk with rearm := 0, epoch := s.store.epoch + 1 } ∧
      (∀ k, k ≠ zk → t.zone k = s.zone k) ∧ t.evr = s.evr ∧ t.media = s.media ∧ t.out = s.out) ∧
  (∀ (n z zk : Nat) (failed : List (Nat × Nat)) (data parity mine : List SeenFrame) (r : Row) (f : RearmFinding) (s u : State), zk = zoneKey n z → s.running = true →
    (s.zone zk).rearm = 2 → s.work.rows.filter (fun r => r.zk == zk) = [r] →
    mine = (data ++ parity).filter (fun x => x.row == r.row && decide (x.pos < 18 ∧ x.frame < 16)) → u = s.each mine (fun x s => s.seeFrame zk x) →
    f = u.rearmFinding r (r.failedAt failed) → s.roomForEvents → ∃ t,
    exec (.zoneRearmDone n z failed data parity) s = .next t ∧ (t.zone zk).rearm = 0 ∧ (∀ k, k ≠ zk → t.zone k = s.zone k) ∧ t.out = s.out ∧
      (f.code = 0 → t.evr = s.evr ∧ t.media = u.media ∧ t.parity = u.parity) ∧
      (f.code ≠ 0 → Recorded s t 0x0491 s.srcStarters (Config.mapIndex zk % 2 ^ 18) f.code r.row f.pos) ∧
      (f.code = 1 ∨ f.code = 2 → t.media = u.media ∧ ∀ j, j < 16 →
        Tbl.look 0 (t.rowParity zk r.row).p j = parityP (List.range 16) (fun d => u.rearmUnit r d j) ∧
        Tbl.look 0 (t.rowParity zk r.row).q j = parityQ (List.range 16) (fun d => u.rearmUnit r d j)) ∧
      (f.code = 4 → (t.zone zk).lostData = true ∧ t.media = u.media ∧ (t.zone zk).lost = (s.zone zk).lost ++
        f.gone.filterMap (fun p => (dataAt (s.zone zk).rot p).map fun d => (256 * r.row + 16 * d, 16))) ∧
      (f.code ≠ 4 → (t.zone zk).lost = (s.zone zk).lost ∧ (t.zone zk).lostData = (s.zone zk).lostData)) ∧
  (∀ (n z zk d : Nat) (failed : List (Nat × Nat)) (data parity mine : List SeenFrame) (r : Row) (f : RearmFinding) (s u : State), zk = zoneKey n z → s.running = true →
    (s.zone zk).rearm = 2 → s.work.rows.filter (fun r => r.zk == zk) = [r] →
    mine = (data ++ parity).filter (fun x => x.row == r.row && decide (x.pos < 18 ∧ x.frame < 16)) → u = s.each mine (fun x s => s.seeFrame zk x) →
    f = u.rearmFinding r (r.failedAt failed) → f.code = 3 → dataAt (s.zone zk).rot f.pos = some d → ∃ t,
    exec (.zoneRearmDone n z failed data parity) s = .next t ∧ (t.zone zk).rearm = 0 ∧ ∀ j, j < 16 → t.stored zk (256 * r.row + 16 * d + j) =
      u.rearmUnit r d j ^^^ Tbl.look 0 (u.rowParity zk r.row).p j ^^^ parityP (List.range 16) (fun e => u.rearmUnit r e j)) ∧
  (∀ (n z : Nat) (failed : List (Nat × Nat)) (data parity : List SeenFrame) (s : State), (s.running = false ∨ (s.zone (zoneKey n z)).rearm ≠ 2) →
    exec (.zoneRearmDone n z failed data parity) s = .next s)

/-- Care of the media (R76 step 8, R145, R182, R190, R192, R193, R195, R196, R199, R201, R204). A patrol read joins its die's queue, one at a time: pages asked for first, then the next page of the pass, whose end is event 0x0497; retention starts the relocation of
a member, read disturb a scan of its die block and at twice the count its relocation; a relocation's end swaps the die blocks and releases the old one; a rebuilt position is the spare's;
garbage collection takes a full unit when few are free, releases it once no frame of it is valid, and goes on while fewer than four are free; an old die block is erased once no read references it. With its condition not met each changes nothing. -/
def Obligations.MediaUpkeep : Prop :=
  (∀ (l d zk pos r : Nat) (rest : List (Nat × Nat × Nat)) (s : State), s.running = true → (s.die (dieKey l d)).lost = false →
    (s.die (dieKey l d)).st ≠ .absent → (∀ e ∈ (s.die (dieKey l d)).queue, e.kind ≠ .patrol) → s.queueRoom (dieKey l d) = true →
    (s.die (dieKey l d)).early = (zk, pos, r) :: rest → (s.zone zk).valid = true → ∃ t e, exec (.patrolReadStart l d) s = .next t ∧
      (t.die (dieKey l d)).queue = (s.die (dieKey l d)).queue ++ [e] ∧
      e.kind = .patrol ∧ e.cls = .distance ∧ e.zk = zk ∧ e.pos = pos ∧ e.page = r ∧ e.frames = 16 ∧ (t.die (dieKey l d)).early = rest ∧
      (∀ k, k ≠ dieKey l d → t.die k = s.die k) ∧ t.zones = s.zones ∧ t.media = s.media ∧ t.out = s.out) ∧
  (∀ (l d zk pos r : Nat) (rest : List (Nat × Nat × Nat)) (s : State), s.running = true → (s.die (dieKey l d)).lost = false →
    (s.die (dieKey l d)).st ≠ .absent → (∀ e ∈ (s.die (dieKey l d)).queue, e.kind ≠ .patrol) → s.queueRoom (dieKey l d) = true →
    (s.die (dieKey l d)).early = (zk, pos, r) :: rest → (s.zone zk).valid = false → ∃ t, exec (.patrolReadStart l d) s = .next t ∧
      t.die (dieKey l d) = { s.die (dieKey l d) with early := rest } ∧ (∀ k, k ≠ dieKey l d → t.die k = s.die k) ∧ { t with dies := s.dies } = s) ∧
  (∀ (l d : Nat) (p : Nat × Nat × Nat) (s : State), s.running = true → (s.die (dieKey l d)).lost = false →
    (s.die (dieKey l d)).st ≠ .absent → (∀ e ∈ (s.die (dieKey l d)).queue, e.kind ≠ .patrol) → s.queueRoom (dieKey l d) = true →
    (s.die (dieKey l d)).early = [] → (s.patrolPages (dieKey l d)).find? (fun p => !s.patrolled p) = some p → ∃ t e,
    exec (.patrolReadStart l d) s = .next t ∧ (t.die (dieKey l d)).queue = (s.die (dieKey l d)).queue ++ [e] ∧
      e.kind = .patrol ∧ e.cls = .distance ∧ e.zk = p.1 ∧ e.pos = p.2.1 ∧ e.page = p.2.2 ∧ e.frames = 16 ∧
      (∀ k, k ≠ dieKey l d → t.die k = s.die k) ∧ (∀ k, k ≠ p.1 → { t.zone k with patrolled := (s.zone k).patrolled } = s.zone k) ∧
      t.media = s.media ∧ t.out = s.out) ∧
  (∀ (l d n : Nat) (s : State), s.running = true → (s.die (dieKey l d)).lost = false →
    (s.die (dieKey l d)).st ≠ .absent → (∀ e ∈ (s.die (dieKey l d)).queue, e.kind ≠ .patrol) → s.queueRoom (dieKey l d) = true →
    (s.die (dieKey l d)).early = [] → (s.patrolPages (dieKey l d)).find? (fun p => !s.patrolled p) = none → s.patrolShare = (n, n) → n ≠ 0 →
    s.roomForEvents → ∃ t, exec (.patrolReadStart l d) s = .next t ∧ (∀ k, t.zone k = { s.zone k with patrolled := [] }) ∧
      t.store.patrolPasses = satAdd 16 s.store.patrolPasses 1 ∧ t.store.patrolProgress = 0 ∧ t.store.patrolFindings = 0 ∧
      t.store.patrolSince = s.now ∧ Recorded s t 0x0497 s.srcStarters (s.store.patrolPasses + 1)
        ((s.now - s.store.patrolSince) / 1000000000) s.store.patrolFindings 0 ∧ t.dies = s.dies ∧ t.media = s.media ∧ t.out = s.out) ∧
  (∀ (l d : Nat) (s : State), (s.running = false ∨ (s.die (dieKey l d)).lost = true ∨ (s.die (dieKey l d)).st = .absent ∨
    (∃ e ∈ (s.die (dieKey l d)).queue, e.kind = .patrol) ∨ s.queueRoom (dieKey l d) = false) → exec (.patrolReadStart l d) s = .next s) ∧
  (∀ (n z zk k : Nat) (s : State), zk = zoneKey n z → s.running = true → (s.zone zk).valid = true → (s.zone zk).tFull ≠ 0 →
    s.cfg .chipMediaCfg 0 7 0 ≠ 0 → (s.zone zk).relocTgt = none → s.memberDie (s.zone zk) 0 = some k →
    (∀ p, 0 < p → p < 18 → s.memberDie (s.zone zk) p ≠ some k) → (s.die k).reloc = none → s.freeBlocks k ≠ 0 → ∃ t,
    exec (.retentionDue n z) s = .next t ∧ (t.zone zk).relocTgt = some (0, (s.takeBlock k).1) ∧
      (t.die k).reloc = some (zk, 0, (s.zone zk).dblk.getD 0 0, (s.takeBlock k).1, 3) ∧
      (t.zone zk).dblk = (s.zone zk).dblk ∧ (∀ j, j ≠ zk → t.zone j = s.zone j) ∧ t.media = s.media ∧ t.out = s.out) ∧
  (∀ (n z : Nat) (s : State), (s.running = false ∨ (s.zone (zoneKey n z)).valid = false ∨ (s.zone (zoneKey n z)).tFull = 0 ∨
    s.cfg .chipMediaCfg 0 7 0 = 0) → exec (.retentionDue n z) s = .next s) ∧
  (∀ (l d b zk pos : Nat) (s : State), s.running = true → s.unitOfBlock (dieKey l d) b = some (zk, pos) →
    1000 * s.cfg .chipMediaCfg 0 23 16 ≤ s.readCount (dieKey l d) b → s.roomForEvents → ∃ t,
    exec (.readDisturbThreshold l d b false) s = .next t ∧ (t.die (dieKey l d)).early = (s.die (dieKey l d)).early ++
      (List.range (4 * Tbl.look 0 (s.zone zk).fine pos)).map (fun r => (zk, pos, r)) ∧
      Recorded s t 0x048F (srcMarshal (blockOfLane (dieKey l d / 8))) (Config.mapIndex zk % 2 ^ 18) pos (s.readCount (dieKey l d) b) 1 ∧
      t.zones = s.zones ∧ t.media = s.media) ∧
  (∀ (l d b zk pos k : Nat) (s : State), s.running = true → s.unitOfBlock (dieKey l d) b = some (zk, pos) →
    2 * (1000 * s.cfg .chipMediaCfg 0 23 16) ≤ s.readCount (dieKey l d) b → (s.zone zk).relocTgt = none → s.memberDie (s.zone zk) pos = some k →
    (s.die k).reloc = none → s.freeBlocks k ≠ 0 → s.roomForEvents → ∃ t, exec (.readDisturbThreshold l d b true) s = .next t ∧
      (t.zone zk).relocTgt = some (pos, (s.takeBlock k).1) ∧
      (t.die k).reloc = some (zk, pos, (s.zone zk).dblk.getD pos 0, (s.takeBlock k).1, 2) ∧
      Recorded s t 0x048B (srcMarshal (blockOfLane (k / 8))) (Config.mapIndex zk % 2 ^ 18) pos 2 (s.takeBlock k).1 ∧
      (∀ j, j ≠ zk → t.zone j = s.zone j) ∧ t.media = s.media) ∧
  (∀ (l d b : Nat) (limit : Bool) (s : State), (s.running = false ∨ s.unitOfBlock (dieKey l d) b = none ∨
    s.readCount (dieKey l d) b < 1000 * s.cfg .chipMediaCfg 0 23 16 * (if limit then 2 else 1)) →
    exec (.readDisturbThreshold l d b limit) s = .next s) ∧
  (∀ (l d zk pos src tgt c : Nat) (s : State), (s.die (dieKey l d)).reloc = some (zk, pos, src, tgt, c) → s.roomForEvents → ∃ t,
    exec (.relocationComplete l d) s = .next t ∧ (t.zone zk).dblk = (s.zone zk).dblk.set pos tgt ∧
      (t.die (dieKey l d)).eraseQueue = (s.die (dieKey l d)).eraseQueue ++ [src] ∧
      (((s.zone zk).st = .full ∨ (s.zone zk).st = .readOnly) → (t.zone zk).tFull = s.now) ∧ pos ∈ (t.zone zk).replaced ∧
      Recorded s t 0x048C (srcMarshal (blockOfLane (dieKey l d / 8))) (Config.mapIndex zk % 2 ^ 18) pos src tgt ∧ t.media = s.media) ∧
  (∀ (l d : Nat) (s : State), (s.die (dieKey l d)).reloc = none → exec (.relocationComplete l d) s = .next s) ∧
  (∀ (set pos k n since : Nat) (s : State), (s.stripe set).rebuild = some (pos, k, n, since) → s.unitsOnSet set = [] → s.roomForEvents → ∃ t,
    exec (.stripeRebuildComplete set) s = .next t ∧ (t.stripe set).members = (s.stripe set).members.set pos (some k) ∧
      (t.stripe set).was = (s.stripe set).was.set pos k ∧
      ((∀ p, p < (s.stripe set).members.length → p ≠ pos → ((s.stripe set).members.getD p none).isSome = true) → (t.stripe set).rebuild = none) ∧
      Recorded s t 0x0486 s.srcStarters set pos k ((s.now - since) / 1000000000) ∧
      (∀ q, q ≠ set → t.stripe q = s.stripe q) ∧ t.media = s.media) ∧
  (∀ (set pos k n since zk : Nat) (s : State), (s.stripe set).rebuild = some (pos, k, n, since) → zk ∈ s.unitsOnSet set → pos < 18 → ∃ t,
    exec (.stripeRebuildComplete set) s = .next t ∧ (t.stripe set).members = (s.stripe set).members.set pos (some k) ∧
      (∀ r ∈ (t.zone zk).refills, r.pos ≠ pos) ∧ (∀ p, p < 18 → p ≠ pos →
        (s.memberDie (s.zone zk) p).isSome = true → Tbl.look 0 (s.zone zk).fine p ≤ Tbl.look 0 (t.zone zk).fine pos)) ∧
  (∀ (set : Nat) (s : State), (s.stripe set).rebuild = none → exec (.stripeRebuildComplete set) s = .next s) ∧
  (∀ (n zk : Nat) (s : State), s.running = true → (s.ns n).present = true → (s.ns n).zoned = false → (s.ns n).victim = none →
    (s.freeUnits n ≤ 2 ∨ ((s.ns n).gcOn = true ∧ s.freeUnits n < 4)) → s.chooseVictim n = some zk → ∃ t, exec (.gcStart n) s = .next t ∧
      t.ns n = { s.ns n with victim := some zk, gcOn := true, gcMoved := 0 } ∧ (∀ m, m ≠ n → t.ns m = s.ns m) ∧ { t with nss := s.nss } = s) ∧
  (∀ (n : Nat) (s : State), (s.running = false ∨ (s.ns n).present = false ∨ (s.ns n).zoned = true ∨ (s.ns n).victim.isSome = true ∨
    4 ≤ s.freeUnits n ∨ (2 < s.freeUnits n ∧ (s.ns n).gcOn = false) ∨ s.chooseVictim n = none) → exec (.gcStart n) s = .next s) ∧
  (∀ (n zk : Nat) (s : State), (s.ns n).victim = some zk → s.mappedTo n (zoneOfKey zk) = [] → s.evr.queue.length < 200 → ∃ t,
    exec (.gcVictimReclaimed n) s = .next t ∧ (t.zone zk).valid = false ∧ (t.zone zk).st = .empty ∧ (t.zone zk).dblk = [] ∧
      (t.ns n).fwd = (s.ns n).fwd ∧ (4 ≤ t.freeUnits n → (t.ns n).victim = none ∧ (t.ns n).gcOn = false) ∧
      (t.freeUnits n < 4 → (t.ns n).victim = t.chooseVictim n ∧ (t.ns n).gcOn = (s.ns n).gcOn) ∧
      Recorded s t 0x0494 s.srcStarters n (Config.mapIndex zk % 2 ^ 18) (s.ns n).gcMoved 0 ∧ t.media = s.media ∧ t.out = s.out) ∧
  (∀ (n : Nat) (s : State), (∀ zk, (s.ns n).victim = some zk → s.mappedTo n (zoneOfKey zk) ≠ []) → exec (.gcVictimReclaimed n) s = .next s) ∧
  (∀ (l d b : Nat) (s : State), s.running = true → (s.die (dieKey l d)).lost = false →
    (∀ e ∈ (s.die (dieKey l d)).queue, e.kind = .erase → e.block ≠ b) → s.queueRoom (dieKey l d) = true →
    (∀ o, s.heavyOp (dieKey l d) = some o → o.entry.kind = .erase → o.entry.block ≠ b) → s.blockRead (dieKey l d) b = false →
    (b ∈ (s.die (dieKey l d)).eraseQueue ∨ (s.isLandBlock (s.die (dieKey l d)) b = true ∧ s.landErasable (dieKey l d) b = true)) → ∃ t e,
    exec (.oldBlockEraseStart l d b) s = .next t ∧ (t.die (dieKey l d)).queue = (s.die (dieKey l d)).queue ++ [e] ∧ e.kind = .erase ∧
      e.block = b ∧ (∀ k, k ≠ dieKey l d → t.die k = s.die k) ∧ t.zones = s.zones ∧ t.media = s.media ∧ t.out = s.out) ∧
  (∀ (l d b : Nat) (s : State), (s.running = false ∨ (s.die (dieKey l d)).lost = true ∨ s.blockRead (dieKey l d) b = true ∨
    (∃ e ∈ (s.die (dieKey l d)).queue, e.kind = .erase ∧ e.block = b) ∨
    (∃ o, s.heavyOp (dieKey l d) = some o ∧ o.entry.kind = .erase ∧ o.entry.block = b) ∨ s.queueRoom (dieKey l d) = false ∨
    (b ∉ (s.die (dieKey l d)).eraseQueue ∧ (s.isLandBlock (s.die (dieKey l d)) b = false ∨ s.landErasable (dieKey l d) b = false))) →
    exec (.oldBlockEraseStart l d b) s = .next s) ∧
  (∀ s : State, s.running = true → (∀ p ∈ s.lanes, p.2.recalWait = false) → ∃ t, exec .maintBucketFull s = .next t ∧
    t = { s with tmk := { s.tmk with maintLevel := 10 * (s.cfg .chipRaCfg 0 19 8 : Int), maintFull := true } }) ∧
  (∀ (n : Nat) (l : Lane) (s v : State), s.running = true →
    v = { s with tmk := { s.tmk with maintLevel := 10 * (s.cfg .chipRaCfg 0 19 8 : Int), maintFull := true } } → s.lanes = [(n, l)] →
    l.recalWait = true → l.st = .active → l.outage = none → s.broker.knows (.lane n) = false → v.recalReady n = true → ∃ t,
    exec .maintBucketFull s = .next t ∧ t = v.requestBaton (.lane n)) ∧
  (∀ s : State, s.running = false → exec .maintBucketFull s = .next s)

/-- Alarms and the entropy source (R274, R276, R282, R283): an enabled source latches the alarm, zeroes the media root key and every namespace key, empties the
engines, and with its seed-erase bit marks every seed entry REVOKED until the erase is done; tenant 0 hears of it, with event 0x0803. A source that is disabled or no source, an erase that is not under way, and a source of entropy already failed: no change.
What parameter 2 of the event holds is the model's choice (log entry 192). -/
def Obligations.AlarmsZeroTheKeys : Prop :=
  (∀ (x : Nat) (s : State), s.running = true → x ≤ 4 → (x = 2 ∨ x = 3 ∨ s.cfgBit .cphAlarmCfg 0 x = true) → ∃ t,
    exec (.securityAlarm x) s = .next t ∧ t.cph.alarm = true ∧ t.cph.fired = setBit s.cph.fired x ∧ t.cph.mrk = false ∧ t.cph.keys = [] ∧
      t.cph.keysReady = false ∧ t.work.ciphers = [] ∧ (∀ n, t.nsKey n = 0) ∧ (0, Notice.securityAlarm) ∈ t.out.notices) ∧
  (∀ (x : Nat) (s : State), s.running = true → x ≤ 4 → (x = 2 ∨ x = 3 ∨ s.cfgBit .cphAlarmCfg 0 x = true) → s.ctxIds Ctx.needsKey = [] →
    s.roomForEvents → ∃ t, exec (.securityAlarm x) s = .next t ∧ t.media = s.media ∧
      Recorded s t 0x0803 (if x = 4 then srcOutside else srcAon) (setBit s.cph.fired x).toNat (bit (s.cfgBit .cphAlarmCfg 0 (16 + x))) 0 0 ∧
      (s.cfgBit .cphAlarmCfg 0 (16 + x) = true → t.cph.erasing = true ∧
        ∀ n, (s.ns n).present = true → (t.ns n).revoked = true) ∧
      (s.cfgBit .cphAlarmCfg 0 (16 + x) = false → t.cph.erasing = s.cph.erasing ∧ t.nss = s.nss)) ∧
  (∀ (x : Nat) (s : State), (s.running = false ∨ 4 < x ∨ (x ≠ 2 ∧ x ≠ 3 ∧ s.cfgBit .cphAlarmCfg 0 x = false)) →
    exec (.securityAlarm x) s = .next s) ∧
  (∀ s : State, s.running = true → s.cph.erasing = true → ∃ t, exec .alarmSeedEraseDone s = .next t ∧ t.cph.erasing = false ∧
    t.cph.seedsErased = true ∧ (∀ n, (s.ns n).present = true → (t.ns n).seedOk = false) ∧ t.cph.alarm = s.cph.alarm ∧ t.media = s.media ∧ t.evr = s.evr) ∧
  (∀ s : State, (s.running = false ∨ s.cph.erasing = false) → exec .alarmSeedEraseDone s = .next s) ∧
  (∀ (x : Nat) (s : State), s.running = true → s.cph.drbgOk = true → s.roomForEvents → ∃ t, exec (.drbgHealthFail x) s = .next t ∧
    { t with cph := s.cph, evr := s.evr } = s ∧ t.cph = { s.cph with drbgOk := false } ∧ Recorded s t 0x0809 s.srcStarters x 0 0 0) ∧
  (∀ (x : Nat) (s : State), (s.running = false ∨ s.cph.drbgOk = false) → exec (.drbgHealthFail x) s = .next s)

/-- Format and Sanitize (R102, R274, R286, R288, R289, R363). With nothing at work on it, a formatted namespace has every zone Empty and its maps cleared, and with a crypto
erase a key of the next generation; with commands at work on it, it is fenced and the Format waits. A sanitize does the same to every namespace and completes at its start, a block erase also queues every die block; Exit Failure Mode
leaves a failed sanitize. What is refused: while a sanitize runs, a wrong SES or namespace, one fenced already, with the entropy source failed, and a sanitize of another tenant than 0. The stored blocks stay where they are. -/
def Obligations.FormatAndSanitizeErase : Prop :=
  (∀ (h : Hdr) (ses nonce : Nat) (s : State), s.TakesAdmin ruleAny h → h.nsid ≠ 0xFFFFFFFF → s.store.sanitize ≠ 2 → ses ≤ 2 →
    (s.ns h.nsid).present = true → (s.ns h.nsid).tenant = s.tenantOf h.ctrl → (s.ns h.nsid).fenced = false → (ses = 0 ∨ s.cph.drbgOk = true) →
    s.nsBusy h.nsid = false → s.fab.windows = [] → s.fab.reads = [] → s.work.erasures = [] → ∃ t,
    exec (.formatNvm h ses nonce) s = .next t ∧ Posted s t h .success 0 0 ∧ (∀ zk, nsOfKey zk = h.nsid → t.zone zk = {}) ∧
      (t.ns h.nsid).fwd = [] ∧ (t.ns h.nsid).fenced = false ∧ (t.ns h.nsid).slot = (s.ns h.nsid).slot ∧
      (t.ns h.nsid).gen = (s.ns h.nsid).gen + (if ses = 0 then 0 else 1) ∧ (ses = 0 → t.cph.keys = s.cph.keys) ∧ t.media = s.media) ∧
  (∀ (h : Hdr) (ses nonce : Nat) (s : State), s.TakesAdmin ruleAny h → h.nsid ≠ 0xFFFFFFFF → s.store.sanitize ≠ 2 → ses ≤ 2 →
    (s.ns h.nsid).present = true → (s.ns h.nsid).tenant = s.tenantOf h.ctrl → (s.ns h.nsid).fenced = false → (ses = 0 ∨ s.cph.drbgOk = true) →
    s.nsBusy h.nsid = true → s.fab.windows = [] → s.fab.reads = [] → s.work.erasures = [] → ∃ t,
    exec (.formatNvm h ses nonce) s = .next t ∧ t.ns h.nsid = { s.ns h.nsid with fenced := true } ∧ (∀ n, n ≠ h.nsid → t.ns n = s.ns n) ∧
      t.work.erasures = [{ hdr := h, nsids := [h.nsid], crypto := ses != 0, nonce := nonce, cause := 1 }] ∧ t.zones = s.zones ∧
      t.cph = s.cph ∧ t.media = s.media ∧ t.out = s.out) ∧
  (∀ (h : Hdr) (ses nonce : Nat) (s : State), s.TakesAdmin ruleAny h → s.tenantOf h.ctrl = 0 → h.nsid = 0xFFFFFFFF → s.store.sanitize ≠ 2 →
    ses ≤ 2 → s.nsOf (fun n => n.tenant == 0) = [] → (ses = 0 ∨ s.cph.drbgOk = true) → s.work.erasures = [] → ∃ t,
    exec (.formatNvm h ses nonce) s = .next t ∧ Posted s t h .success 0 0 ∧ t.nss = s.nss ∧ t.zones = s.zones ∧ t.media = s.media) ∧
  (∀ (h : Hdr) (ses nonce : Nat) (s : State), s.TakesAdmin ruleAny h → ∃ t, exec (.formatNvm h ses nonce) s = .next t ∧
    (s.store.sanitize = 2 → Posted s t h .sanitizeInProgress 0 0 ∧ t.nss = s.nss ∧ t.zones = s.zones) ∧
    (s.store.sanitize ≠ 2 → 2 < ses → Posted s t h .invalidField 0 0 ∧ t.nss = s.nss ∧ t.zones = s.zones) ∧
    (s.store.sanitize ≠ 2 → ses ≤ 2 → (if h.nsid = 0xFFFFFFFF then s.tenantOf h.ctrl ≠ 0 else
      (s.ns h.nsid).present = false ∨ (s.ns h.nsid).tenant ≠ s.tenantOf h.ctrl) → Posted s t h .invalidNamespace 0 0 ∧ t.nss = s.nss ∧ t.zones = s.zones) ∧
    (s.store.sanitize ≠ 2 → ses ≤ 2 → h.nsid ≠ 0xFFFFFFFF → (s.ns h.nsid).present = true → (s.ns h.nsid).tenant = s.tenantOf h.ctrl →
      (s.ns h.nsid).fenced = true → Posted s t h .notReady 0 0 ∧ t.nss = s.nss ∧ t.zones = s.zones) ∧
    (s.store.sanitize ≠ 2 → 1 ≤ ses → ses ≤ 2 → h.nsid ≠ 0xFFFFFFFF → (s.ns h.nsid).present = true → (s.ns h.nsid).tenant = s.tenantOf h.ctrl →
      (s.ns h.nsid).fenced = false → s.cph.drbgOk = false → Posted s t h .internalError 0 0 ∧ t.nss = s.nss ∧ t.zones = s.zones)) ∧
  (∀ (h : Hdr) (n nonce : Nat) (x : Ns) (s : State), s.TakesAdmin ruleAny h → s.tenantOf h.ctrl = 0 → s.store.sanitize ≠ 2 → s.cph.drbgOk = true →
    s.nss = [(n, x)] → x.present = true → s.nsBusy n = false → s.fab.windows = [] → s.fab.reads = [] → s.work.erasures = [] → ∃ t,
    exec (.sanitizeCryptoErase h nonce) s = .next t ∧ Posted s t h .success 0 0 ∧ t.store.sanitize = 1 ∧ (t.ns n).gen = x.gen + 1 ∧
      (t.ns n).fenced = false ∧ (∀ zk, nsOfKey zk = n → t.zone zk = {}) ∧ t.media = s.media) ∧
  (∀ (h : Hdr) (n nonce : Nat) (x : Ns) (s : State), s.TakesAdmin ruleAny h → s.tenantOf h.ctrl = 0 → s.store.sanitize ≠ 2 → s.cph.drbgOk = true →
    s.nss = [(n, x)] → x.present = true → s.nsBusy n = true → s.fab.windows = [] → s.fab.reads = [] → s.work.erasures = [] → ∃ t,
    exec (.sanitizeCryptoErase h nonce) s = .next t ∧ Posted s t h .success 0 0 ∧ t.store.sanitize = 2 ∧ (t.ns n).gen = x.gen ∧
      (t.ns n).fenced = true ∧ t.work.erasures.length = 1 ∧ t.zones = s.zones ∧ t.media = s.media) ∧
  (∀ (h : Hdr) (k nonce : Nat) (d : Die) (s : State), s.TakesAdmin ruleAny h → s.tenantOf h.ctrl = 0 → s.store.sanitize ≠ 2 → s.cph.drbgOk = true →
    s.nss = [] → s.work.erasures = [] → s.dies = [(k, d)] → d.lost = false → d.st ≠ .absent → s.sanitizeBlocks k d ≠ [] → ∃ t,
    exec (.sanitizeBlockErase h nonce) s = .next t ∧ Posted s t h .success 0 0 ∧ (t.die k).eraseQueue = s.sanitizeBlocks k d ∧
      (t.die k).erasedBlocks = [] ∧ t.store.sanitize = 2 ∧ t.media = s.media) ∧
  (∀ (h : Hdr) (nonce : Nat) (c : Instr) (s : State), c ∈ [Instr.sanitizeCryptoErase h nonce, .sanitizeBlockErase h nonce] → s.TakesAdmin ruleAny h →
    ∃ t, exec c s = .next t ∧
      (s.tenantOf h.ctrl ≠ 0 → Posted s t h .invalidOpcode 0 0 ∧ t.nss = s.nss ∧ t.store = s.store) ∧
      (s.tenantOf h.ctrl = 0 → s.store.sanitize = 2 → Posted s t h .sanitizeInProgress 0 0 ∧ t.nss = s.nss ∧ t.store = s.store) ∧
      (s.tenantOf h.ctrl = 0 → s.store.sanitize ≠ 2 → s.cph.drbgOk = false → Posted s t h .internalError 0 0 ∧ t.nss = s.nss ∧ t.store = s.store)) ∧
  (∀ (h : Hdr) (s : State), s.TakesAdmin ruleAny h → ∃ t, exec (.sanitizeExitFailure h) s = .next t ∧ t.nss = s.nss ∧ t.zones = s.zones ∧
    t.media = s.media ∧
    (s.tenantOf h.ctrl = 0 → s.store.sanitize ≠ 2 → Posted s t h .success 0 0 ∧
      t.store.sanitize = (if s.store.sanitize = 3 then 0 else s.store.sanitize)) ∧
    (s.tenantOf h.ctrl ≠ 0 → Posted s t h .invalidOpcode 0 0 ∧ t.store = s.store) ∧
    (s.tenantOf h.ctrl = 0 → s.store.sanitize = 2 → Posted s t h .sanitizeInProgress 0 0 ∧ t.store = s.store))

/-- Namespaces (R273, R274, R277, R290, R363, R364, R571): a new one takes the lowest free NSID and a key slot of its owner, and the NSID comes back in DW0; with
the entropy source failed none is made; a deleted one leaves no zone, no key and no entry, at once or when what is at work on it has ended; Attach and Detach name controllers of the owner. Each is tenant 0's,
and ends with its status where something is wrong. -/
def Obligations.NamespacesComeAndGo : Prop :=
  (∀ (h : Hdr) (spec : NsSpec) (id slot : Nat) (v : State) (s : State), s.TakesAdmin ruleAny h → s.tenantOf h.ctrl = 0 → h.nsid = 0 →
    s.specBad spec = false → s.store.sanitize ≠ 2 → s.cph.drbgOk = true → s.nsFits (s.newNs spec) = true →
    ((List.range 4096).map (· + 1)).find? (fun i => !(s.ns i).present) = some id → (s.fetchOne h).takeSlot spec.owner = some (slot, v) → ∃ t,
    exec (.nsCreate h spec) s = .next t ∧ Posted s t h .success id 0 ∧ (t.ns id).present = true ∧ (t.ns id).tenant = spec.owner ∧
      (t.ns id).slot = slot ∧ (t.ns id).zoned = spec.zoned ∧ (t.ns id).lbaf = spec.lbaf ∧ (t.ns id).packed = spec.packed ∧
      (t.ns id).gen = 1 ∧ (∀ n, n ≠ id → t.ns n = s.ns n) ∧ t.zones = s.zones ∧ t.media = s.media) ∧
  (∀ (h : Hdr) (spec : NsSpec) (s : State), s.TakesAdmin ruleAny h → ∃ t, exec (.nsCreate h spec) s = .next t ∧
    (s.tenantOf h.ctrl ≠ 0 → Posted s t h .invalidOpcode 0 0 ∧ t.nss = s.nss) ∧
    (s.tenantOf h.ctrl = 0 → (h.nsid ≠ 0 ∨ s.specBad spec = true) → Posted s t h .invalidField 0 0 ∧ t.nss = s.nss) ∧
    (s.tenantOf h.ctrl = 0 → h.nsid = 0 → s.specBad spec = false → s.store.sanitize = 2 → Posted s t h .sanitizeInProgress 0 0 ∧ t.nss = s.nss) ∧
    (s.tenantOf h.ctrl = 0 → h.nsid = 0 → s.specBad spec = false → s.store.sanitize ≠ 2 → s.cph.drbgOk = false →
      Posted s t h .internalError 0 0 ∧ t.nss = s.nss) ∧
    (s.tenantOf h.ctrl = 0 → h.nsid = 0 → s.specBad spec = false → s.store.sanitize ≠ 2 → s.cph.drbgOk = true → s.nsFits (s.newNs spec) = false →
      Posted s t h .nsInsufficient 0 0 ∧ t.nss = s.nss) ∧
    (s.tenantOf h.ctrl = 0 → h.nsid = 0 → s.specBad spec = false → s.store.sanitize ≠ 2 → s.cph.drbgOk = true → s.nsFits (s.newNs spec) = true →
      (s.fetchOne h).takeSlot spec.owner = none → Posted s t h .nsIdUnavailable 0 0 ∧ t.nss = s.nss)) ∧
  (∀ (h : Hdr) (s : State), s.TakesAdmin ruleAny h → s.tenantOf h.ctrl = 0 → h.nsid ≠ 0xFFFFFFFF → (s.ns h.nsid).present = true →
    (s.ns h.nsid).fenced = false → s.store.sanitize ≠ 2 → s.nsBusy h.nsid = false → s.fab.windows = [] → s.fab.reads = [] →
    s.work.erasures = [] → ∃ t, exec (.nsDelete h) s = .next t ∧ Posted s t h .success 0 0 ∧ t.ns h.nsid = {} ∧
      (∀ n, n ≠ h.nsid → t.ns n = s.ns n) ∧ (∀ zk, nsOfKey zk = h.nsid → t.zone zk = {}) ∧
      Tbl.look 0 t.cph.keys (s.ns h.nsid).slot = 0 ∧ t.media = s.media) ∧
  (∀ (h : Hdr) (s : State), s.TakesAdmin ruleAny h → s.tenantOf h.ctrl = 0 → h.nsid ≠ 0xFFFFFFFF → (s.ns h.nsid).present = true →
    (s.ns h.nsid).fenced = false → s.store.sanitize ≠ 2 → s.nsBusy h.nsid = true → s.fab.windows = [] → s.fab.reads = [] →
    s.work.erasures = [] → ∃ t, exec (.nsDelete h) s = .next t ∧ t.ns h.nsid = { s.ns h.nsid with fenced := true } ∧
      (∀ n, n ≠ h.nsid → t.ns n = s.ns n) ∧ t.work.erasures.length = 1 ∧ t.zones = s.zones ∧ t.cph = s.cph ∧ t.out = s.out) ∧
  (∀ (h : Hdr) (s : State), s.TakesAdmin ruleAny h → ∃ t, exec (.nsDelete h) s = .next t ∧
    (s.tenantOf h.ctrl ≠ 0 → Posted s t h .invalidOpcode 0 0 ∧ t.nss = s.nss ∧ t.zones = s.zones) ∧
    (s.tenantOf h.ctrl = 0 → h.nsid ≠ 0xFFFFFFFF → (s.ns h.nsid).present = false → Posted s t h .invalidNamespace 0 0 ∧ t.nss = s.nss ∧ t.zones = s.zones) ∧
    (s.tenantOf h.ctrl = 0 → (h.nsid = 0xFFFFFFFF ∨ (s.ns h.nsid).present = true) → s.store.sanitize = 2 →
      Posted s t h .sanitizeInProgress 0 0 ∧ t.nss = s.nss ∧ t.zones = s.zones) ∧
    (s.tenantOf h.ctrl = 0 → h.nsid ≠ 0xFFFFFFFF → (s.ns h.nsid).present = true → s.store.sanitize ≠ 2 → (s.ns h.nsid).fenced = true →
      Posted s t h .notReady 0 0 ∧ t.nss = s.nss ∧ t.zones = s.zones)) ∧
  (∀ (h : Hdr) (cs : List Nat) (s : State), s.TakesAdmin ruleAny h → s.tenantOf h.ctrl = 0 → (s.ns h.nsid).present = true → cs ≠ [] →
    (∀ c ∈ cs, s.servesTenant (s.ns h.nsid).tenant c = true) → ∃ t, exec (.nsAttach h cs false) s = .next t ∧
      Posted s t h .success 0 0 ∧ t.ns h.nsid = { s.ns h.nsid with
        detached := (s.ns h.nsid).detached ++ cs.filter fun c => !(s.ns h.nsid).detached.contains c } ∧
      (∀ n, n ≠ h.nsid → t.ns n = s.ns n) ∧ t.zones = s.zones) ∧
  (∀ (h : Hdr) (cs : List Nat) (s : State), s.TakesAdmin ruleAny h → s.tenantOf h.ctrl = 0 → (s.ns h.nsid).present = true → cs ≠ [] →
    (∀ c ∈ cs, s.servesTenant (s.ns h.nsid).tenant c = true) → ∃ t, exec (.nsAttach h cs true) s = .next t ∧ Posted s t h .success 0 0 ∧
      t.ns h.nsid = { s.ns h.nsid with detached := (s.ns h.nsid).detached.filter fun c => !cs.contains c } ∧
      (∀ n, n ≠ h.nsid → t.ns n = s.ns n) ∧ t.zones = s.zones) ∧
  (∀ (h : Hdr) (cs : List Nat) (b : Bool) (s : State), s.TakesAdmin ruleAny h → ∃ t, exec (.nsAttach h cs b) s = .next t ∧
    (s.tenantOf h.ctrl ≠ 0 → Posted s t h .invalidOpcode 0 0 ∧ t.nss = s.nss) ∧
    (s.tenantOf h.ctrl = 0 → (s.ns h.nsid).present = false → Posted s t h .invalidNamespace 0 0 ∧ t.nss = s.nss) ∧
    (s.tenantOf h.ctrl = 0 → (s.ns h.nsid).present = true → (cs = [] ∨ ∃ c ∈ cs, s.servesTenant (s.ns h.nsid).tenant c = false) →
      Posted s t h .controllerListInvalid 0 0 ∧ t.nss = s.nss))

/-- Queues and virtual resources (R207, R229, R300, R304, R308, R366): Create I/O Completion Queue and Submission Queue make the queue with its depth, vector,
class and home region where nothing stands against them; a submission queue needs its completion queue; Delete takes it away with its commands, the completion queue
last; Virtualization Management sets an offline secondary's queues or vectors and returns the count. What is wrong is refused with its status. How the commands of a deleted queue end is the model's reading (log entry 6). -/
def Obligations.QueuesAreMadeAndDeleted : Prop :=
  (∀ (h : Hdr) (q d v : Nat) (s : State), s.TakesAdmin ruleAny h → 1 ≤ q → q ≤ 4095 → (s.cq (queueKey h.ctrl q)).depth = 0 → 2 ≤ d → d ≤ 65536 →
    v < s.vectors h.ctrl → ∃ t, exec (.createIoCq h q d v) s = .next t ∧ Posted s t h .success 0 0 ∧
      t.cq (queueKey h.ctrl q) = { depth := d, vector := v } ∧ (∀ k, k ≠ queueKey h.ctrl q → t.cq k = s.cq k) ∧ t.ctrls = s.ctrls ∧
      t.zones = s.zones) ∧
  (∀ (h : Hdr) (q d v : Nat) (s : State), s.TakesAdmin ruleAny h → ∃ t, exec (.createIoCq h q d v) s = .next t ∧
    ((q = 0 ∨ 4095 < q ∨ (s.cq (queueKey h.ctrl q)).depth ≠ 0) → Posted s t h .invalidQueueId 0 0 ∧ t.cqs = s.cqs) ∧
    (1 ≤ q → q ≤ 4095 → (s.cq (queueKey h.ctrl q)).depth = 0 → (d < 2 ∨ 65536 < d) → Posted s t h .invalidQueueSize 0 0 ∧ t.cqs = s.cqs) ∧
    (1 ≤ q → q ≤ 4095 → (s.cq (queueKey h.ctrl q)).depth = 0 → 2 ≤ d → d ≤ 65536 → s.vectors h.ctrl ≤ v →
      Posted s t h .invalidVector 0 0 ∧ t.cqs = s.cqs)) ∧
  (∀ (h : Hdr) (q d p c : Nat) (s : State), s.TakesAdmin ruleAny h → (s.cq (queueKey h.ctrl c)).depth ≠ 0 → c ≠ 0 → 1 ≤ q → q ≤ 4095 →
    (s.sq (queueKey h.ctrl q)).depth = 0 → 2 ≤ d → d ≤ 65536 → (s.fetchOne h).queueFits (s.tenantOf h.ctrl) = true →
    (s.fetchOne h).contextsFit (s.tenantOf h.ctrl) d = true → ∃ t, exec (.createIoSq h q d p c) s = .next t ∧ Posted s t h .success 0 0 ∧
      t.sq (queueKey h.ctrl q) = { cls := classOfPrio p, region := s.regionFor (s.tenantOf h.ctrl) q, depth := d, cqid := c } ∧
      t.cqs = s.cqs ∧ t.ctrls = s.ctrls ∧ t.zones = s.zones) ∧
  (∀ (h : Hdr) (q d p c : Nat) (s : State), s.TakesAdmin ruleAny h → ∃ t, exec (.createIoSq h q d p c) s = .next t ∧ t.cqs = s.cqs ∧
    (((s.cq (queueKey h.ctrl c)).depth = 0 ∨ c = 0) → Posted s t h .cqInvalid 0 0) ∧
    ((s.cq (queueKey h.ctrl c)).depth ≠ 0 → c ≠ 0 → (q = 0 ∨ 4095 < q ∨ ((s.fetchOne h).sq (queueKey h.ctrl q)).depth ≠ 0) →
      Posted s t h .invalidQueueId 0 0) ∧
    ((s.cq (queueKey h.ctrl c)).depth ≠ 0 → c ≠ 0 → 1 ≤ q → q ≤ 4095 → ((s.fetchOne h).sq (queueKey h.ctrl q)).depth = 0 →
      (d < 2 ∨ 65536 < d ∨ (s.fetchOne h).queueFits (s.tenantOf h.ctrl) = false ∨ (s.fetchOne h).contextsFit (s.tenantOf h.ctrl) d = false) →
      Posted s t h .invalidQueueSize 0 0)) ∧
  (∀ (h : Hdr) (q : Nat) (s : State), s.TakesAdmin ruleAny h → q ≠ 0 → (s.sq (queueKey h.ctrl q)).depth ≠ 0 →
    s.ctxIds (fun x => x.hdr.ctrl == h.ctrl && x.hdr.sqid == q && !x.hdr.mc) = [] → ∃ t, exec (.deleteIoQueue h q false) s = .next t ∧
      Posted s t h .success 0 0 ∧ t.sq (queueKey h.ctrl q) = {} ∧ t.cqs = s.cqs ∧ t.ctrls = s.ctrls ∧ t.zones = s.zones) ∧
  (∀ (h : Hdr) (q c : Nat) (x : Ctx) (s : State), s.TakesAdmin ruleAny h → q ≠ 0 → h.sqid ≠ q → (s.sq (queueKey h.ctrl q)).depth ≠ 0 →
    s.ctxIds (fun x => x.hdr.ctrl == h.ctrl && x.hdr.sqid == q && !x.hdr.mc) = [c] → s.ctxAt c = some x → x.drains = true → ∃ t,
    exec (.deleteIoQueue h q false) s = .next t ∧ Posted s t h .success 0 0 ∧ t.ctxAt c = some { x with discard := true, deadline := none } ∧
      t.sq (queueKey h.ctrl q) = {} ∧ t.zones = s.zones ∧ t.media = s.media) ∧
  (∀ (h : Hdr) (q c : Nat) (x : Ctx) (s : State), s.TakesAdmin ruleAny h → q ≠ 0 → h.sqid ≠ q → (s.sq (queueKey h.ctrl q)).depth ≠ 0 →
    s.ctxIds (fun x => x.hdr.ctrl == h.ctrl && x.hdr.sqid == q && !x.hdr.mc) = [c] → s.ctxAt c = some x → x.drains = false → x.discard = false →
    ∃ t a b, exec (.deleteIoQueue h q false) s = .next t ∧ t.out.completions = s.out.completions ++ [a, b] ∧ a.sqid = q ∧ a.cid = x.hdr.cid ∧
      a.sct = (Status.sqDeleted).sct ∧ a.sc = (Status.sqDeleted).sc ∧ b.cid = h.cid ∧ b.sct = 0 ∧ b.sc = 0 ∧ t.ctxAt c = none ∧
      t.sq (queueKey h.ctrl q) = {} ∧ t.media = s.media) ∧
  (∀ (h : Hdr) (q : Nat) (s : State), s.TakesAdmin ruleAny h → q ≠ 0 → (s.cq (queueKey h.ctrl q)).depth ≠ 0 →
    (∀ p ∈ (s.fetchOne h).sqs, p.1 / 65536 = h.ctrl → p.1 % 65536 ≠ 0 → p.2.cqid ≠ q) → ∃ t, exec (.deleteIoQueue h q true) s = .next t ∧
      Posted s t h .success 0 0 ∧ t.cq (queueKey h.ctrl q) = {} ∧ (∀ k, k ≠ queueKey h.ctrl q → t.cq k = s.cq k) ∧ t.ctrls = s.ctrls) ∧
  (∀ (h : Hdr) (q : Nat) (p : Nat × Sq) (s : State), s.TakesAdmin ruleAny h → q ≠ 0 → (s.cq (queueKey h.ctrl q)).depth ≠ 0 →
    p ∈ (s.fetchOne h).sqs → p.1 / 65536 = h.ctrl → p.1 % 65536 ≠ 0 → p.2.cqid = q → ∃ t, exec (.deleteIoQueue h q true) s = .next t ∧
      Posted s t h .invalidQueueDeletion 0 0 ∧ t.cqs = s.cqs) ∧
  (∀ (h : Hdr) (q : Nat) (b : Bool) (s : State), s.TakesAdmin ruleAny h →
    (q = 0 ∨ (if b then (s.cq (queueKey h.ctrl q)).depth else ((s.fetchOne h).sq (queueKey h.ctrl q)).depth) = 0) → ∃ t,
    exec (.deleteIoQueue h q b) s = .next t ∧ Posted s t h .invalidQueueId 0 0 ∧ t.cqs = s.cqs) ∧
  (∀ (h : Hdr) (c n : Nat) (v : Bool) (s : State), s.TakesAdmin ruleAny h → s.tenantOf h.ctrl = 0 → s.power.dual = false → 1 ≤ c → c ≤ 255 →
    (s.ctrl c).en = false → (s.ctrl c).drain = none → (∀ u, (s.tenant u).viFloor = 0 ∧ (s.tenant u).lim.sqFloor = 0) →
    n ≤ (if v then 2048 else 4095) → ∃ t, exec (.virtMgmt h c v n) s = .next t ∧
      Posted s t h .success n 0 ∧ (v = true → (t.tenant c).viFloor = n ∧ (t.tenant c).lim = (s.tenant c).lim) ∧
      (v = false → (t.tenant c).lim = { (s.tenant c).lim with sqFloor := n } ∧ (t.tenant c).viFloor = (s.tenant c).viFloor) ∧ t.cqs = s.cqs ∧ t.ctrls = s.ctrls) ∧
  (∀ (h : Hdr) (c n : Nat) (v : Bool) (s : State), s.TakesAdmin ruleAny h → ∃ t, exec (.virtMgmt h c v n) s = .next t ∧ t.cqs = s.cqs ∧
    t.ctrls = s.ctrls ∧
    (s.tenantOf h.ctrl ≠ 0 → (s.power.dual = false ∨ s.tenantOf h.ctrl ≠ 1) → Posted s t h .invalidOpcode 0 0) ∧
    (s.tenantOf h.ctrl = 0 → (255 < c ∨ (s.functionOf c).2 = 0 ∨ (s.functionOf c).1 ≠ 0) → Posted s t h .invalidControllerId 0 0) ∧
    (s.tenantOf h.ctrl = 0 → c ≤ 255 → (s.functionOf c).2 ≠ 0 → (s.functionOf c).1 = 0 → (s.ctrl c).en = true →
      Posted s t h .invalidSecondaryState 0 0) ∧
    (s.tenantOf h.ctrl = 0 → c ≤ 255 → (s.functionOf c).2 ≠ 0 → (s.functionOf c).1 = 0 → (s.ctrl c).en = false → (s.ctrl c).drain = none →
      (if v then 2048 else 4095) < n → Posted s t h .invalidResourceNumber 0 0))

/-- Admin commands at their gate and the standard ones (R57, R58, R289, R306, R310, R311, R314, R315, R320, R322, R430, R531). Not fetched, an admin command does nothing; in a hold or fault stop that leaves it out it is Namespace Not Ready, from
a sender that may not send it Invalid Command Opcode, with an NSID that must be 0 Invalid Field. Identify, Get Log Page and Get Features answer what the model's data functions give, or Invalid Field; a Changed Zone List read clears it; Abort ends a command without effect yet, or an event request; an event request waits for an event;
an MCTP message is answered, and in Calm it is NAKed and wakes the device. Data layouts are the model's (log entry 6). -/
def Obligations.AdminCommandsAnswer : Prop :=
  (∀ (c : Instr) (r : AdminRule) (h : Hdr) (s : State), adminRuleOf c = some (r, h) →
    (if h.mc then s.servesMc else s.fetches h.ctrl) = false → exec c s = .next s) ∧
  (∀ (c : Instr) (r : AdminRule) (h : Hdr) (s : State), adminRuleOf c = some (r, h) →
    (if h.mc then s.servesMc else s.fetches h.ctrl) = true → s.muted h = false → ∃ t, exec c s = .next t ∧
      (s.bootSubsetOnly = true → r.bootSubset = false → Posted s t h .notReady 0 0 ∧ t.ctrls = s.ctrls ∧ t.nss = s.nss ∧ t.zones = s.zones) ∧
      ((s.bootSubsetOnly = false ∨ r.bootSubset = true) →
        (r.permits s h = false ∨ (h.mc = false ∧ (s.ctrl h.ctrl).discovery = true ∧ r.discovery = false)) →
        Posted s t h .invalidOpcode 0 0 ∧ t.ctrls = s.ctrls ∧ t.nss = s.nss ∧ t.zones = s.zones) ∧
      ((s.bootSubsetOnly = false ∨ r.bootSubset = true) → r.permits s h = true →
        (h.mc = true ∨ (s.ctrl h.ctrl).discovery = false ∨ r.discovery = true) → r.nsidZero = true → h.nsid ≠ 0 →
        Posted s t h .invalidField 0 0 ∧ t.ctrls = s.ctrls ∧ t.nss = s.nss ∧ t.zones = s.zones)) ∧
  (∀ (h : Hdr) (s : State), s.TakesAdmin (ruleIdentify 1) h → ∃ t c, exec (.identify h 1) s = .next t ∧ t.out.completions = s.out.completions ++ [c] ∧
    c.cid = h.cid ∧ c.sct = 0 ∧ c.sc = 0 ∧ (⟨0, 2, 0x1F3B⟩ : FieldVal) ∈ c.data ∧ (⟨78, 2, h.ctrl⟩ : FieldVal) ∈ c.data ∧ t.ctrls = s.ctrls ∧
    t.nss = s.nss) ∧
  (∀ (h : Hdr) (cns : Nat) (d : List FieldVal) (s v : State), s.TakesAdmin (ruleIdentify cns) h → (s.fetchOne h).identifyData h cns = (some d, v) →
    (cns ≠ 0 ∨ (h.nsid ≠ 0 ∧ (h.nsid ≤ 4096 ∨ h.nsid = 0xFFFFFFFF))) → ∃ t c, exec (.identify h cns) s = .next t ∧
      t.out.completions = s.out.completions ++ [c] ∧ c.ctrl = h.ctrl ∧ c.cid = h.cid ∧ c.sct = 0 ∧ c.sc = 0 ∧ c.data = d ∧ t.ctrls = s.ctrls ∧ t.nss = s.nss) ∧
  (∀ (h : Hdr) (cns : Nat) (v : State) (s : State), s.TakesAdmin (ruleIdentify cns) h → (s.fetchOne h).identifyData h cns = (none, v) → ∃ t,
    exec (.identify h cns) s = .next t ∧ Posted s t h .invalidField 0 0 ∧ t.ctrls = s.ctrls ∧ t.nss = s.nss) ∧
  (∀ (h : Hdr) (s : State), s.TakesAdmin (ruleIdentify 0) h → (h.nsid = 0 ∨ (4096 < h.nsid ∧ h.nsid ≠ 0xFFFFFFFF)) → ∃ t,
    exec (.identify h 0) s = .next t ∧ Posted s t h .invalidNamespace 0 0 ∧ t.ctrls = s.ctrls) ∧
  (∀ (h : Hdr) (s : State), s.TakesAdmin (ruleIdentify 0x13) h → s.tenantOf h.ctrl ≠ 0 → ∃ t, exec (.identify h 0x13) s = .next t ∧
    Posted s t h .invalidField 0 0 ∧ t.ctrls = s.ctrls) ∧
  (∀ (h : Hdr) (lsi : Nat) (s : State), s.TakesAdmin (ruleLogPage 0xBF) h → (s.attached h.ctrl).contains h.nsid = true → (s.ns h.nsid).zoned = true → ∃ t c,
    exec (.getLogPage h ⟨0xBF, lsi⟩) s = .next t ∧ t.out.completions = s.out.completions ++ [c] ∧ c.cid = h.cid ∧ c.sc = 0 ∧
      c.data = changedZones (s.ns h.nsid).changed ∧ t.ns h.nsid = { s.ns h.nsid with changed := [] } ∧ (∀ n, n ≠ h.nsid → t.ns n = s.ns n)) ∧
  (∀ (h : Hdr) (lsi : Nat) (s : State), s.TakesAdmin (ruleLogPage 0x81) h → s.tenantOf h.ctrl = 0 → ∃ t c, exec (.getLogPage h ⟨0x81, lsi⟩) s = .next t ∧
    t.out.completions = s.out.completions ++ [c] ∧ c.cid = h.cid ∧ c.sc = 0 ∧ c.data = s.sanitizeLog ∧ t.store = s.store) ∧
  (∀ (h : Hdr) (lid lsi : Nat) (d : List FieldVal) (s v : State), s.TakesAdmin (ruleLogPage lid) h → (s.fetchOne h).logPage h lid lsi = (some d, v) →
    ∃ t c, exec (.getLogPage h ⟨lid, lsi⟩) s = .next t ∧ t.out.completions = s.out.completions ++ [c] ∧ c.ctrl = h.ctrl ∧ c.cid = h.cid ∧ c.sct = 0 ∧
      c.sc = 0 ∧ c.data = d ∧ t.ctrls = s.ctrls ∧ (lid ≠ 0xBF → t.nss = s.nss)) ∧
  (∀ (h : Hdr) (lid lsi : Nat) (s v : State), s.TakesAdmin (ruleLogPage lid) h → (s.fetchOne h).logPage h lid lsi = (none, v) → ∃ t,
    exec (.getLogPage h ⟨lid, lsi⟩) s = .next t ∧ Posted s t h .invalidField 0 0 ∧ t.nss = s.nss ∧ t.ctrls = s.ctrls) ∧
  (∀ (h : Hdr) (s : State), s.TakesAdmin ruleSubset h → ∃ t, exec (.getFeatures h 2) s = .next t ∧ Posted s t h .success s.reportedPs 0 ∧
    t.power = s.power) ∧
  (∀ (h : Hdr) (fid w : Nat) (d : List FieldVal) (s v : State), s.TakesAdmin ruleSubset h → (s.fetchOne h).featureDw0 h fid = (some (w, d), v) → ∃ t,
    exec (.getFeatures h fid) s = .next t ∧ Posted s t h .success w 0 ∧ t.power = s.power ∧ t.ctrls = s.ctrls) ∧
  (∀ (h : Hdr) (fid : Nat) (s v : State), s.TakesAdmin ruleSubset h → (s.fetchOne h).featureDw0 h fid = (none, v) → ∃ t,
    exec (.getFeatures h fid) s = .next t ∧ Posted s t h .invalidField 0 0 ∧ t.power = s.power ∧ t.ctrls = s.ctrls) ∧
  (∀ (h : Hdr) (cid : Nat) (s : State), s.TakesAdmin ruleSubset h → cid ∈ (s.ctrl h.ctrl).aers → ∃ t a b, exec (.abortCmd h 0 cid) s = .next t ∧
    t.out.completions = s.out.completions ++ [a, b] ∧ a.cid = cid ∧ a.sct = 0 ∧ a.sc = 7 ∧ b.cid = h.cid ∧ b.sct = 0 ∧ b.sc = 0 ∧ b.dw0 = 0 ∧
    (t.ctrl h.ctrl).aers = (s.ctrl h.ctrl).aers.filter (· != cid) ∧ (∀ c, c ≠ h.ctrl → t.ctrl c = s.ctrl c)) ∧
  (∀ (h : Hdr) (q cid c : Nat) (x : Ctx) (s : State), s.TakesAdmin ruleSubset h → q ≠ 0 → s.ctxNamed h.ctrl q cid = some c → s.ctxAt c = some x →
    x.drains = false → x.discard = false → ∃ t a b,
    exec (.abortCmd h q cid) s = .next t ∧ t.out.completions = s.out.completions ++ [a, b] ∧ a.sqid = q ∧ a.cid = cid ∧ a.sc = 7 ∧ b.cid = h.cid ∧
      b.sc = 0 ∧ b.dw0 = 0 ∧ t.ctxAt c = none ∧ t.media = s.media) ∧
  (∀ (h : Hdr) (q cid c : Nat) (x : Ctx) (s : State), s.TakesAdmin ruleSubset h → q ≠ 0 → s.ctxNamed h.ctrl q cid = some c → s.ctxAt c = some x →
    x.drains = true → ∃ t, exec (.abortCmd h q cid) s = .next t ∧ Posted s t h .success 1 0 ∧ t.work.ctxs = s.work.ctxs) ∧
  (∀ (h : Hdr) (q cid : Nat) (s : State), s.TakesAdmin ruleSubset h → (if q = 0 then cid ∉ (s.ctrl h.ctrl).aers else s.ctxNamed h.ctrl q cid = none) →
    ∃ t, exec (.abortCmd h q cid) s = .next t ∧ Posted s t h .success 1 0 ∧ t.work.ctxs = s.work.ctxs ∧ t.ctrls = s.ctrls) ∧
  (∀ (h : Hdr) (s : State), s.TakesAdmin ruleSubset h → (s.ctrl h.ctrl).aers.length < 16 → (s.ctrl h.ctrl).events = [] → ∃ t,
    exec (.asyncEventRequest h) s = .next t ∧ t.ctrl h.ctrl = { s.ctrl h.ctrl with aers := (s.ctrl h.ctrl).aers ++ [h.cid] } ∧
      (∀ c, c ≠ h.ctrl → t.ctrl c = s.ctrl c) ∧ t.out = s.out) ∧
  (∀ (h : Hdr) (n : Notice) (rest : List Notice) (s : State), s.TakesAdmin ruleSubset h → (s.ctrl h.ctrl).aers.length < 16 →
    (s.ctrl h.ctrl).events = n :: rest → ∃ t w, exec (.asyncEventRequest h) s = .next t ∧ Posted s t h .success (n.dw0 w) 0 ∧
      t.ctrl h.ctrl = { s.ctrl h.ctrl with events := rest } ∧ (∀ c, c ≠ h.ctrl → t.ctrl c = s.ctrl c)) ∧
  (∀ (h : Hdr) (s : State), s.TakesAdmin ruleSubset h → 16 ≤ (s.ctrl h.ctrl).aers.length → ∃ t, exec (.asyncEventRequest h) s = .next t ∧
    Posted s t h .aerLimit 0 0 ∧ t.ctrls = s.ctrls) ∧
  (∀ (s : State), s.servesMc = true → exec (.mctpMessage .management .unsupported) s = .next (s.reply .invalidOpcode)) ∧
  (∀ (code : Nat) (s : State), s.servesMc = true → spdmServed code = false → exec (.mctpMessage .management (.spdm code)) s = .next (s.reply .invalidOpcode)) ∧
  (∀ (code : Nat) (s : State), s.servesMc = true → spdmServed code = true → ∃ t w, exec (.mctpMessage .management (.spdm code)) s = .next t ∧
    t.out.mi = s.out.mi ++ [.ok w] ∧ t.regs = s.regs ∧ t.power = s.power) ∧
  (∀ (ps : Nat) (s : State), s.servesMc = true → 4 < ps → exec (.mctpMessage .management (.setPower ps)) s = .next (s.reply .invalidParameter)) ∧
  (∀ (ps reason : Nat) (s v : State), s.servesMc = true → ps ≤ 4 → s.selectPs ps 3 = (some reason, v) →
    exec (.mctpMessage .management (.setPower ps)) s = .next (v.reply .refused)) ∧
  (∀ (ps : Nat) (s v : State), s.servesMc = true → ps ≤ 4 → s.selectPs ps 3 = (none, v) →
    exec (.mctpMessage .management (.setPower ps)) s = .next (v.reply (.ok []))) ∧
  (∀ (m : MctpMsg) (s : State), m ∈ [MctpMsg.control, .subsystemHealth, .controllerHealth, .vpd] → s.servesMc = true → ∃ t w,
    exec (.mctpMessage .management m) s = .next t ∧ t.out.mi = s.out.mi ++ [.ok [w]] ∧ t.regs = s.regs ∧ t.power = s.power) ∧
  (∀ (m : MctpMsg) (s : State), m ∈ [MctpMsg.readDataStructure, .configuration] → s.servesMc = true → ∃ t w u,
    exec (.mctpMessage .management m) s = .next t ∧ t.out.mi = s.out.mi ++ [.ok [w, BitVec.ofNat 32 (u &&& s.units)]] ∧ t.regs = s.regs ∧
      t.power = s.power) ∧
  (∀ (p : Nat) (m : MctpMsg) (s : State), s.pcieOn = true → (s.link p).up = true → s.servesMc = true → s.cfgBit .chipMiCfg 0 31 = false →
    exec (.mctpMessage (.vdm p) m) s = .next (s.reply .refused)) ∧
  (∀ (p : Nat) (m : MctpMsg) (s : State), s.pcieOn = true → (s.link p).up = true → s.servesMc = true → s.cfgBit .chipMiCfg 0 31 = true →
    exec (.mctpMessage (.vdm p) m) s = exec (.mctpMessage .management m) s) ∧
  (∀ (p : Nat) (m : MctpMsg) (s : State), (s.pcieOn = false ∨ (s.link p).up = false ∨ s.servesMc = false) →
    exec (.mctpMessage (.vdm p) m) s = .next s) ∧
  (∀ (m : MctpMsg) (s : State), s.power.mode = .calm → s.released = true → s.aon.trip = false → ∃ t, exec (.mctpMessage .management m) s = .next t ∧
    t.out.mi = s.out.mi ++ [.nak] ∧ t.regs = s.regs) ∧
  (∀ (m : MctpMsg) (s : State), s.power.mode ≠ .calm → s.servesMc = false → exec (.mctpMessage .management m) s = .next s)

/-- Bounds and commands that wait (R57, R213, R219, R222, R228, R380-R382). A bound computation ends with sets that apply at the next quiet point, and event 0x0D01; a bound report gives a tenant its
own counts, and another's, or a clear, only to tenant 0 and the management controller. An I/O command is not taken by a controller that does not fetch, is Namespace Not Ready in a Warm-up hold, waits in its queue for
pool room, and before admission is refused for what is wrong with it; at admission it is refused, declined with its try-after, or in compatibility mode held. Of the held commands the first that can go goes: refused, declined, or admitted without a bound; the others
wait on; one held too long ends with Command Interrupted, with an event at most once in a second; buckets fill at their tick. -/
def Obligations.BoundsAndHeldCommands : Prop :=
  (∀ s : State, s.running = true → s.tmk.computing = true → ∃ t, exec .boundSetComputeDone s = .next t ∧
    t.tmk = { s.tmk with computing := false, next := some s.withPendingBounds.computeSets } ∧ t.regs = s.regs ∧ t.tenants = s.tenants ∧
    t.out = s.out ∧ (∀ b, s.withPendingBounds.computeSets[s.aon.band]? = some b → s.roomForEvents →
      Recorded s t 0x0D01 srcTimekeeper s.aon.band b.dashRdPcie b.tempoPcie b.distPcie)) ∧
  (∀ s : State, (s.running = false ∨ s.tmk.computing = false) → exec .boundSetComputeDone s = .next s) ∧
  (∀ (h : Hdr) (u : Nat) (s : State), s.TakesAdmin ruleBoundReport h → ∃ t c, exec (.boundReport h false u false) s = .next t ∧
    t.out.completions = s.out.completions ++ [c] ∧ c.cid = h.cid ∧ c.sct = 0 ∧ c.sc = 0 ∧ c.data = s.boundReport (s.tenantOf h.ctrl) ∧
    t.tmk = s.tmk) ∧
  (∀ (h : Hdr) (sel clear : Bool) (u v : Nat) (s : State), ((s.TakesAdmin ruleBoundReport h ∧ s.tenantOf h.ctrl = 0) ∨
      (h.mc = true ∧ s.servesMc = true ∧ h.nsid = 0)) → v = (if sel then u % 256 else 0) → ∃ t c,
    exec (.boundReport h sel u clear) s = .next t ∧ t.out.completions = s.out.completions ++ [c] ∧ c.cid = h.cid ∧ c.sct = 0 ∧ c.sc = 0 ∧
    c.data = s.boundReport v ∧ (t.tenant v).excused = (if clear then 0 else (s.tenant v).excused) ∧
    (t.tenant v).unexcused = (if clear then 0 else (s.tenant v).unexcused) ∧ (t.tenant v).declines = (if clear then 0 else (s.tenant v).declines) ∧
    (t.tenant v).worstLate = (if clear then 0 else (s.tenant v).worstLate) ∧ (t.tenant v).lim = (s.tenant v).lim ∧ t.tmk = s.tmk) ∧
  (∀ (h : Hdr) (u : Nat) (sel c : Bool) (s : State), s.TakesAdmin ruleBoundReport h → s.tenantOf h.ctrl ≠ 0 → (sel || c) = true → ∃ t,
    exec (.boundReport h sel u c) s = .next t ∧ Posted s t h .invalidField 0 0 ∧ t.tmk = s.tmk) ∧
  (∀ (c : Instr) (h : Hdr) (a n f : Nat) (b : Bool) (data : List Block) (rs : List (Nat × Nat)) (s : State), c ∈ ioCommands h a n f b data rs →
    (s.fetches h.ctrl = false ∨ s.flt.stop ≠ 0) → exec c s = .next s) ∧
  (∀ (c : Instr) (h : Hdr) (a n f : Nat) (b : Bool) (data : List Block) (rs : List (Nat × Nat)) (s : State), c ∈ ioCommands h a n f b data rs →
    s.fetches h.ctrl = true → s.flt.stop = 0 → s.inHold = true → s.muted h = false → ∃ t, exec c s = .next t ∧ Posted s t h .notReady 0 0 ∧
      t.zones = s.zones ∧ t.media = s.media ∧ t.nss = s.nss) ∧
  (∀ (h : Hdr) (slba nlb : Nat) (data : List Block) (p : Instr × Ctx) (s : State), p ∈ (s.fetchOne h).ioContexts h slba nlb data → s.TakesIo h →
    (s.fetchOne h).fetchStopped p.2 = true → exec p.1 s = .next (s.fetchOne h)) ∧
  (∀ (h : Hdr) (a ng : Nat) (close : Bool) (p : Instr × Ctx) (s : State), p ∈ (s.fetchOne h).packedContexts h a ng close → s.TakesIo h →
    (s.fetchOne h).fetchStopped p.2 = true → exec p.1 s = .next (s.fetchOne h)) ∧
  (∀ (h : Hdr) (slba nlb : Nat) (data : List Block) (st : Status) (p : Instr × Ctx) (s : State), p ∈ (s.fetchOne h).ioContexts h slba nlb data →
    s.TakesIo h → (s.fetchOne h).fetchStopped p.2 = false → (s.fetchOne h).precheck p.2 = some st → ∃ t, exec p.1 s = .next t ∧
      Posted s t h st 0 0 ∧ t.zones = s.zones ∧ t.media = s.media ∧ t.nss = s.nss) ∧
  (∀ (h : Hdr) (a ng : Nat) (close : Bool) (st : Status) (p : Instr × Ctx) (s : State), p ∈ (s.fetchOne h).packedContexts h a ng close →
    s.TakesIo h → (s.fetchOne h).fetchStopped p.2 = false → (s.fetchOne h).packedCheck h p.2.slba (p.2.kind == .packedAppend) = some st → ∃ t,
      exec p.1 s = .next t ∧ Posted s t h st 0 0 ∧ t.zones = s.zones ∧ t.media = s.media ∧ t.nss = s.nss) ∧
  (∀ (h : Hdr) (slba nlb : Nat) (data : List Block) (st : Status) (p : Instr × Ctx) (s u : State), p ∈ (s.fetchOne h).ioContexts h slba nlb data →
    s.AtAdmission h p.2 u → (s.fetchOne h).precheck p.2 = none → (u.tryIo none p.2).1 = .refuse st → ∃ t, exec p.1 s = .next t ∧
      Posted s t h st 0 0 ∧ t.media = s.media ∧ t.nss = s.nss) ∧
  (∀ (h : Hdr) (slba nlb us : Nat) (data : List Block) (p : Instr × Ctx) (s u : State), p ∈ (s.fetchOne h).ioContexts h slba nlb data →
    s.AtAdmission h p.2 u → (s.fetchOne h).precheck p.2 = none → (u.tryIo none p.2).1 = .energy us → ∃ t, exec p.1 s = .next t ∧
      Posted s t h .energyLow (min 1000000 (max 1 us)) 0 ∧ t.zones = s.zones ∧ t.media = s.media ∧ t.nss = s.nss) ∧
  (∀ (h : Hdr) (slba nlb : Nat) (l : Lack) (data : List Block) (p : Instr × Ctx) (s u : State), p ∈ (s.fetchOne h).ioContexts h slba nlb data →
    s.AtAdmission h p.2 u → (s.fetchOne h).precheck p.2 = none →
    ((u.tryIo none p.2).1 = .now l ∨ ((u.tryIo none p.2).1 = .later l ∧ (s.tenant p.2.tenant).compat = false)) → ∃ t, exec p.1 s = .next t ∧
      Posted s t h .boundUnavailable (min 1000000 (max 1 l.tryUs)) 0 ∧ t.zones = s.zones ∧ t.media = s.media ∧ t.nss = s.nss) ∧
  (∀ (h : Hdr) (slba nlb : Nat) (data : List Block) (p : Instr × Ctx) (s u : State), p ∈ (s.fetchOne h).ioContexts h slba nlb data →
    s.TakesIo h → u = (s.fetchOne h).accrue p.2 → (s.fetchOne h).fetchStopped p.2 = false → (s.fetchOne h).precheck p.2 = none →
    s.aon.trip = false → (∀ zk, (s.zone zk).rearm = 0) → (s.tenant p.2.tenant).compat = true →
    (((u.stepOne p.2).passes = true ∧ (u.behindHeld p.2 = true ∨ u.bucketsEmpty p.2.tenant = true)) ∨
      (u.behindHeld p.2 = false ∧ u.bucketsEmpty p.2.tenant = false ∧ ∃ l, (u.tryIo none p.2).1 = .later l)) → ∃ t, exec p.1 s = .next t ∧
      t.ctxAt s.work.nextCtx = some { p.2 with phase := .held, heldAt := s.now, deadline := none } ∧
      (t.tenant p.2.tenant).heldCmds = (s.tenant p.2.tenant).heldCmds ++ [s.work.nextCtx] ∧ t.out = s.out ∧ t.zones = s.zones ∧
      t.media = s.media ∧ t.nss = s.nss) ∧
  (∀ (h : Hdr) (a ng : Nat) (close : Bool) (p : Instr × Ctx) (s u : State), p ∈ (s.fetchOne h).packedContexts h a ng close → s.TakesIo h →
    u = (s.fetchOne h).accrue p.2 → (s.fetchOne h).fetchStopped p.2 = false →
    (s.fetchOne h).packedCheck h p.2.slba (p.2.kind == .packedAppend) = none → s.aon.trip = false →
    (s.zone (zoneKey h.nsid (p.2.slba / zsze))).rearm = 0 → u.behindHeld p.2 = false → u.bucketsEmpty p.2.tenant = false → ∃ t,
    exec p.1 s = .next t ∧ t.media = s.media ∧ t.nss = s.nss ∧
      (∀ st, (u.tryPacked none p.2).1 = .refuse st → Posted s t h st 0 0) ∧
      (∀ us, (u.tryPacked none p.2).1 = .energy us → Posted s t h .energyLow (min 1000000 (max 1 us)) 0) ∧
      (∀ l, ((u.tryPacked none p.2).1 = .now l ∨ ((u.tryPacked none p.2).1 = .later l ∧ (s.tenant p.2.tenant).compat = false)) →
        Posted s t h .boundUnavailable (min 1000000 (max 1 l.tryUs)) 0) ∧
      (∀ l, (u.tryPacked none p.2).1 = .later l → (s.tenant p.2.tenant).compat = true →
        (t.tenant p.2.tenant).heldCmds = (s.tenant p.2.tenant).heldCmds ++ [s.work.nextCtx] ∧ t.out = s.out)) ∧
  (∀ (u c : Nat) (x : Ctx) (s : State), s.running = true → s.aon.trip = false → s.bucketsEmpty u = false → s.heldFirst u = [c] →
    s.ctxAt c = some x → x.kind = .write → s.precheck x = none → (s.ns x.nsid).zoned = true →
    (s.tryIo (some c) { x with phase := .reading }).1 = .go → (s.zone (zoneKey x.nsid (x.slba / zsze))).fence = none →
    (s.zone (zoneKey x.nsid (x.slba / zsze))).active = true → ∃ t y, exec (.heldCommandRetry u) s = .next t ∧ t.ctxAt c = some y ∧
      y.phase = .fetching ∧ y.deadline = none ∧ c ∉ (t.tenant x.tenant).heldCmds ∧
      (t.zone (zoneKey x.nsid (x.slba / zsze))).wp = (s.zone (zoneKey x.nsid (x.slba / zsze))).wp + x.nlb ∧ t.media = s.media ∧ t.out = s.out) ∧
  (∀ (u c : Nat) (cs rest : List Nat) (s v : State), s.running = true → s.aon.trip = false → s.bucketsEmpty u = false →
    s.heldFirst u = cs ++ c :: rest → (∀ d ∈ cs, (s.retryOne d).1 = false) → s.retryOne c = (true, v) → exec (.heldCommandRetry u) s = .next v) ∧
  (∀ (u : Nat) (s : State), (s.running = false ∨ s.aon.trip = true ∨ s.bucketsEmpty u = true ∨ (∀ c ∈ s.heldFirst u, (s.retryOne c).1 = false)) →
    exec (.heldCommandRetry u) s = .next s) ∧
  (∀ (u c : Nat) (x : Ctx) (s : State), s.running = true → s.aon.trip = false → s.bucketsEmpty u = false → s.heldFirst u = [c] → s.ctxAt c = some x →
    x.discard = false → x.deadline = none → s.muted x.hdr = false → ∃ t, exec (.heldCommandRetry u) s = .next t ∧
      (∀ st, s.heldCheck x = some st → Posted s t x.hdr st 0 0 ∧ t.ctxAt c = none ∧ c ∉ (t.tenant x.tenant).heldCmds ∧ t.zones = s.zones ∧
        t.media = s.media) ∧
      (∀ st, s.heldCheck x = none → (s.tryHeld c x).1 = .refuse st → Posted s t x.hdr st 0 0 ∧ t.ctxAt c = none ∧
        c ∉ (t.tenant x.tenant).heldCmds ∧ t.media = s.media) ∧
      (∀ us, s.heldCheck x = none → (s.tryHeld c x).1 = .energy us → Posted s t x.hdr .energyLow (min 1000000 (max 1 us)) 0 ∧ t.ctxAt c = none ∧
        c ∉ (t.tenant x.tenant).heldCmds ∧ t.media = s.media) ∧
      (∀ l, s.heldCheck x = none → (s.tryHeld c x).1 = .now l → Posted s t x.hdr .boundUnavailable (min 1000000 (max 1 l.tryUs)) 0 ∧
        t.ctxAt c = none ∧ c ∉ (t.tenant x.tenant).heldCmds ∧ t.media = s.media) ∧
      (∀ l, s.heldCheck x = none → (s.tryHeld c x).1 = .later l → t = s) ∧
      (∀ v, s.heldCheck x = none → s.tryHeld c x = (.go, v) → t = v.unhold x c)) ∧
  (∀ (c : Nat) (x : Ctx) (s : State), s.ctxAt c = some x → x.phase = .held → x.discard = false → x.deadline = none → s.muted x.hdr = false → ∃ t,
    exec (.compatHoldExpiry c) s = .next t ∧ Posted s t x.hdr .interrupted 0 0 ∧ t.ctxAt c = none ∧ c ∉ (t.tenant x.tenant).heldCmds ∧
      t.zones = s.zones ∧ t.media = s.media ∧
      (∀ e, (s.tenant x.tenant).holdEventAt = some e → s.now < e + 1000000000 → (t.tenant x.tenant).holdEventAt = some e) ∧
      ((∀ e, (s.tenant x.tenant).holdEventAt = some e → e + 1000000000 ≤ s.now) → (t.tenant x.tenant).holdEventAt = some s.now ∧
        ((∀ u, (s.tenant u).logging = false) → s.roomForEvents →
          Recorded s t 0x0B07 s.srcStarters x.tenant 1 (max 1 (s.cfg .tntHold x.tenant 15 0)) 0))) ∧
  (∀ (c : Nat) (s : State), (∀ x, s.ctxAt c = some x → x.phase ≠ .held) → exec (.compatHoldExpiry c) s = .next s) ∧
  (∀ (u : Nat) (s : State), s.running = true → (s.tenant u).compat = true → ∃ t, exec (.compatBucketRefill u) s = .next t ∧
    (t.tenant u).kiops = s.cfg .tntCompat u 31 16 ∧ (t.tenant u).bw = s.cfg .tntCompat u 15 8 * 1000000 ∧
    (∀ v, v ≠ u → t.tenant v = s.tenant v) ∧ t.work = s.work ∧ t.out = s.out) ∧
  (∀ (u : Nat) (s : State), (s.running = false ∨ (s.tenant u).compat = false) → exec (.compatBucketRefill u) s = .next s)

/-- Tenants (R361, R368, R372-R376, R378): a creation that nothing stands against reserves its limits and completes, with event 0x0B01; a change of shares waits for the
quiet point, and may not change a floor; a destruction frees the slot, at once or when the drain of its controllers has ended; a tenant reset stops its controllers and completes when
the drain has ended; Tenant Share Get shows a tenant its own block and pool use, a FREE slot no data. A refusal names its reason and field: 0x01 the slot, 0x04 namespaces left,
0x05 a fixed slot, 0x06 a floor, 0x08 a quiesced or resetting tenant, and of a creation the first of R372's tests that fails. -/
def Obligations.TenantsAreMadeAndChanged : Prop :=
  (∀ (h : Hdr) (u : Nat) (d : TenantData) (s : State), s.TakesAdmin ruleManager h → s.createReason u d = none → s.roomForEvents → ∃ t,
    exec (.tenantCreate h u d) s = .next t ∧ Posted s t h .success 0 0 ∧ (t.tenant u).creating = true ∧
      (t.tenant u).st = .free ∧ (t.tenant u).compat = d.compat ∧ (t.tenant u).pin = d.pin ∧
      (t.tenant u).region = d.region % 4 ∧ (t.tenant u).nqn = d.nqn ∧ (t.tenant u).lim = { d.lim with sqFloor := (s.tenant u).lim.sqFloor } ∧
      Recorded s t 0x0B01 s.srcStarters u (bit d.compat) (if d.laneset then d.setId else 0xFF) 0 ∧ t.nss = s.nss ∧ t.zones = s.zones) ∧
  (∀ (h : Hdr) (u reason field : Nat) (d : TenantData) (s : State), s.TakesAdmin ruleManager h → s.createReason u d = some (reason, field) → ∃ t,
    exec (.tenantCreate h u d) s = .next t ∧ Posted s t h .invalidField reason field ∧ (t.tenant u).creating = (s.tenant u).creating ∧
      (t.tenant u).lim = (s.tenant u).lim ∧ t.cph = s.cph ∧ t.fab.pdOwner = s.fab.pdOwner) ∧
  (∀ (u : Nat) (d : TenantData) (s : State), (s.fixedSlot u = true → s.createReason u d = some (5, 0)) ∧
    (s.fixedSlot u = false → s.slotFree u = false → s.createReason u d = some (1, 0)) ∧
    (s.fixedSlot u = false → s.slotFree u = true → ∀ o, s.floorMisfit d.lim = some o → s.createReason u d = some (2, o)) ∧
    (s.fixedSlot u = false → s.slotFree u = true → s.floorMisfit d.lim = none → d.laneset = true → s.lanesetFree d.setId = false →
      s.createReason u d = some (3, 0)) ∧
    (s.fixedSlot u = false → s.slotFree u = true → s.floorMisfit d.lim = none → (d.laneset = false ∨ s.lanesetFree d.setId = true) →
      s.rateFloorsFit d.lim = false → s.createReason u d = some (7, 0x28)) ∧
    (s.fixedSlot u = false → s.slotFree u = true → s.floorMisfit d.lim = none → (d.laneset = false ∨ s.lanesetFree d.setId = true) →
      s.rateFloorsFit d.lim = true → s.createReason u d = if s.nqnFree d.nqn then none else some (9, 0))) ∧
  (∀ (h : Hdr) (u : Nat) (d : TenantData) (s : State), s.TakesAdmin ruleManager h → s.slotFree u = false →
    floorDiffers d.lim (s.tenant u).lim = none → s.slotBusy u = false → ∃ t, exec (.tenantChangeShares h u d) s = .next t ∧
      Posted s t h .success 0 0 ∧ (t.tenant u).pending = some d.lim ∧ (t.tenant u).lim = (s.tenant u).lim ∧ t.regs.cfg = s.regs.cfg) ∧
  (∀ (h : Hdr) (u : Nat) (d : TenantData) (s : State), s.TakesAdmin ruleManager h → ∃ t, exec (.tenantChangeShares h u d) s = .next t ∧
    t.regs.cfg = s.regs.cfg ∧ (t.tenant u).lim = (s.tenant u).lim ∧ (s.slotFree u = true → Posted s t h .invalidField 1 0) ∧
    (∀ o, s.slotFree u = false → floorDiffers d.lim (s.tenant u).lim = some o → Posted s t h .invalidField 6 o) ∧
    (s.slotFree u = false → floorDiffers d.lim (s.tenant u).lim = none → s.slotBusy u = true → Posted s t h .invalidField 8 0)) ∧
  (∀ (h : Hdr) (u : Nat) (s : State), s.TakesAdmin ruleManager h → s.slotFree u = false → s.nsOf (fun n => n.tenant == u) = [] →
    s.fixedSlot u = false → s.slotBusy u = false → s.ctrlsOf u = [] → s.draining u = [] → s.connsWhere (fun c => c.tenant == u) = [] →
    s.fab.windows = [] → s.roomForEvents → ∃ t, exec (.tenantDestroy h u) s = .next t ∧ Posted s t h .success 0 0 ∧
      (t.tenant u).st = .free ∧ (t.tenant u).creating = false ∧ (t.tenant u).lim = ({} : Tenant).lim ∧ Recorded s t 0x0B02 s.srcStarters u 0 0 0 ∧
      t.nss = s.nss ∧ t.zones = s.zones) ∧
  (∀ (h : Hdr) (u : Nat) (s : State), s.TakesAdmin ruleManager h → s.nsOf (fun n => n.tenant == u) = [] →
    s.fixedSlot u = false → (s.tenant u).st = .active → u < 256 → s.ctrlsOf u = [u] → (s.ctrl u).drain = none →
    s.ctxIds (fun x => x.hdr.ctrl == u) = [] → ∃ t, exec (.tenantDestroy h u) s = .next t ∧
      (t.ctrl u).en = false ∧ (t.ctrl u).stopped = true ∧ (t.ctrl u).drain = some s.now ∧ (t.tenant u).st = .resetting ∧
      (t.tenant u).ready = false ∧ (t.tenant u).ending = some (h, true) ∧ t.out = s.out ∧ (∀ c, c ≠ u → t.ctrl c = s.ctrl c)) ∧
  (∀ (h : Hdr) (u : Nat) (s : State), s.TakesAdmin ruleManager h → ∃ t, exec (.tenantDestroy h u) s = .next t ∧
    (s.fixedSlot u = true → Posted s t h .invalidField 5 0 ∧ (t.tenant u).st = (s.tenant u).st ∧ t.ctrls = s.ctrls) ∧
    (s.fixedSlot u = false → s.slotFree u = true → Posted s t h .invalidField 1 0 ∧ (t.tenant u).st = (s.tenant u).st ∧ t.ctrls = s.ctrls) ∧
    (s.fixedSlot u = false → s.slotFree u = false → s.nsOf (fun n => n.tenant == u) ≠ [] → Posted s t h .invalidField 4 0 ∧
      (t.tenant u).st = (s.tenant u).st ∧ t.ctrls = s.ctrls) ∧
    (s.fixedSlot u = false → s.slotFree u = false → s.nsOf (fun n => n.tenant == u) = [] → s.slotBusy u = true →
      Posted s t h .invalidField 8 0 ∧ (t.tenant u).st = (s.tenant u).st ∧ t.ctrls = s.ctrls)) ∧
  (∀ (h : Hdr) (u : Nat) (s : State), s.TakesAdmin ruleManager h → u < 256 → (s.tenant u).st = .active → s.ctrlsOf u = [u] →
    (s.ctrl u).drain = none → s.ctxIds (fun x => x.hdr.ctrl == u) = [] → ∃ t, exec (.tenantReset h u) s = .next t ∧
      (t.ctrl u).en = false ∧ (t.ctrl u).stopped = true ∧ (t.ctrl u).drain = some s.now ∧ (t.tenant u).st = .resetting ∧
      (t.tenant u).ready = false ∧ (t.tenant u).ending = some (h, false) ∧ t.out = s.out ∧ (∀ c, c ≠ u → t.ctrl c = s.ctrl c)) ∧
  (∀ (h : Hdr) (u : Nat) (s : State), s.TakesAdmin ruleManager h → s.slotFree u = false → s.slotBusy u = false → s.ctrlsOf u = [] →
    s.draining u = [] → ∃ t, exec (.tenantReset h u) s = .next t ∧ Posted s t h .success 0 0 ∧ (t.tenant u).ending = none ∧
      (t.tenant u).st = (s.tenant u).st ∧ t.ctrls = s.ctrls ∧ t.nss = s.nss) ∧
  (∀ (h : Hdr) (u : Nat) (s : State), s.TakesAdmin ruleManager h → (s.slotFree u = true ∨ s.slotBusy u = true) → ∃ t,
    exec (.tenantReset h u) s = .next t ∧ Posted s t h .invalidField (if s.slotFree u then 1 else 8) 0 ∧ (t.tenant u).st = (s.tenant u).st ∧
      t.ctrls = s.ctrls) ∧
  (∀ (h : Hdr) (u : Nat) (s : State), s.TakesAdmin ruleShareGet h → (s.tenantOf h.ctrl = 0 ∨ s.tenantOf h.ctrl = u) → s.slotFree u = false → ∃ t c,
    exec (.tenantShareGet h u) s = .next t ∧ t.out.completions = s.out.completions ++ [c] ∧ c.cid = h.cid ∧ c.sct = 0 ∧
      c.sc = 0 ∧ (∀ i, i < 16 → (⟨4 * i, 4, ((s.tenantBlock u).getD i 0).toNat⟩ : FieldVal) ∈ c.data) ∧
      (∀ p ∈ s.tenantUse u, (⟨64 + p.1, 4, p.2⟩ : FieldVal) ∈ c.data) ∧
      ((s.tenant u).nqn ≠ 0 → (⟨128, 256, (s.tenant u).nqn⟩ : FieldVal) ∈ c.data) ∧ t.regs = s.regs) ∧
  (∀ (h : Hdr) (u : Nat) (s : State), s.TakesAdmin ruleShareGet h → (s.tenantOf h.ctrl = 0 ∨ s.tenantOf h.ctrl = u) → s.slotFree u = true → ∃ t c,
    exec (.tenantShareGet h u) s = .next t ∧ t.out.completions = s.out.completions ++ [c] ∧ c.cid = h.cid ∧ c.sct = 0 ∧ c.sc = 0 ∧ c.data = [] ∧
      t.regs = s.regs) ∧
  (∀ (h : Hdr) (u : Nat) (s : State), s.TakesAdmin ruleShareGet h → s.tenantOf h.ctrl ≠ 0 → s.tenantOf h.ctrl ≠ u → ∃ t,
    exec (.tenantShareGet h u) s = .next t ∧ Posted s t h .invalidField 0 0 ∧ t.regs = s.regs)

/-- Dirty log, quiesce, export and import (R361, R383-R387): start, stop, quiesce and resume answer with the entries in the log, or with the reason why the action does not fit; a quiesce stops the
tenant's controllers, ends its held commands with Command Interrupted, and completes only when nothing of it is at work; resume sets its controllers going; an export of the log hands out whole entries, oldest first; an export
of the state is served of a quiesced tenant alone, and counted at its first part; an import that passes every
check moves the tenant, its namespaces and its limits to the new slot; one that fails a check moves nothing. -/
def Obligations.QuiesceLogsAndMigration : Prop :=
  (∀ (h : Hdr) (u : Nat) (s : State), s.TakesAdmin ruleTenant0 h → s.logReason u true = 0 → (s.tenant u).logging = false → s.loggers < 8 → ∃ t,
    exec (.dirtyLogStart h u) s = .next t ∧ Posted s t h .success (s.tenant u).log.length 0 ∧ (t.tenant u).logging = true ∧
      (t.tenant u).st = (s.tenant u).st ∧ t.ctrls = s.ctrls) ∧
  (∀ (h : Hdr) (u : Nat) (s : State), s.TakesAdmin ruleTenant0 h → ∃ a b c d, exec (.dirtyLogStart h u) s = .next a ∧
    exec (.dirtyLogStop h u) s = .next b ∧ exec (.tenantQuiesce h u) s = .next c ∧ exec (.tenantResume h u) s = .next d ∧
    ((s.logReason u true ≠ 0 ∨ (s.tenant u).logging = true ∨ 8 ≤ s.loggers) → Posted s a h .invalidField (if (s.tenant u).st = .resetting then 8 else 0x0A) 0 ∧
      (a.tenant u).st = (s.tenant u).st ∧ (a.tenant u).logging = (s.tenant u).logging ∧ a.ctrls = s.ctrls) ∧
    ((s.logReason u true ≠ 0 ∨ (s.tenant u).logging = false) → Posted s b h .invalidField (if (s.tenant u).st = .resetting then 8 else 0x0A) 0 ∧
      (b.tenant u).st = (s.tenant u).st ∧ b.ctrls = s.ctrls) ∧
    ((s.logReason u true ≠ 0 ∨ (s.tenant u).st ≠ .active ∨ (s.tenant u).quiesce.isSome = true) →
      Posted s c h .invalidField (if (s.tenant u).st = .resetting then 8 else 0x0A) 0 ∧ (c.tenant u).st = (s.tenant u).st ∧ c.ctrls = s.ctrls) ∧
    ((s.logReason u true ≠ 0 ∨ (s.tenant u).st ≠ .quiesced) → Posted s d h .invalidField (if (s.tenant u).st = .resetting then 8 else 0x0A) 0 ∧
      (d.tenant u).st = (s.tenant u).st ∧ d.ctrls = s.ctrls)) ∧
  (∀ (h : Hdr) (u : Nat) (s : State), s.TakesAdmin ruleTenant0 h → s.logReason u true = 0 → (s.tenant u).logging = true → ∃ t,
    exec (.dirtyLogStop h u) s = .next t ∧ Posted s t h .success (s.tenant u).log.length 0 ∧ (t.tenant u).logging = false ∧
      (t.tenant u).st = (s.tenant u).st ∧ t.ctrls = s.ctrls) ∧
  (∀ (h : Hdr) (u : Nat) (s : State), s.TakesAdmin ruleTenant0 h → s.logReason u true = 0 → (s.tenant u).st = .active → (s.tenant u).quiesce = none →
    (s.tenant u).heldCmds = [] → ∃ t, exec (.tenantQuiesce h u) s = .next t ∧ (t.tenant u).quiesce = some (h, s.now) ∧
      (∀ c, s.tenantOf c = u → (s.ctrl c).en = true → (t.ctrl c).stopped = true) ∧ t.out = s.out ∧ t.work = s.work) ∧
  (∀ (h : Hdr) (u c : Nat) (x : Ctx) (s : State), s.TakesAdmin ruleTenant0 h → s.logReason u true = 0 → (s.tenant u).st = .active →
    (s.tenant u).quiesce = none → (s.tenant u).heldCmds = [c] → s.ctxAt c = some x → x.tenant = u → x.discard = false → x.deadline = none →
    s.muted x.hdr = false → ∃ t, exec (.tenantQuiesce h u) s = .next t ∧ Posted s t x.hdr .interrupted 0 0 ∧ (t.tenant u).quiesce = some (h, s.now) ∧
      (t.tenant u).heldCmds = [] ∧ t.ctxAt c = none ∧ t.media = s.media ∧ t.zones = s.zones) ∧
  (∀ (h : Hdr) (u since : Nat) (s : State), s.running = true → (s.tenant u).quiesce = some (h, since) → s.tenantBusy u = false →
    s.muted h = false → s.roomForEvents → ∃ t, exec (.quiesceDone u) s = .next t ∧ Posted s t h .success (s.tenant u).log.length 0 ∧
      (t.tenant u).st = .quiesced ∧ (t.tenant u).quiesce = none ∧ Recorded s t 0x0B09 s.srcStarters u (usSince s.now since) 0 0 ∧
      t.ctrls = s.ctrls) ∧
  (∀ (u : Nat) (s : State), ((s.tenant u).quiesce = none ∨ s.running = false ∨ s.tenantBusy u = true) → exec (.quiesceDone u) s = .next s) ∧
  (∀ (h : Hdr) (u : Nat) (s : State), s.TakesAdmin ruleTenant0 h → s.logReason u true = 0 → (s.tenant u).st = .quiesced → ∃ t,
    exec (.tenantResume h u) s = .next t ∧ Posted s t h .success (s.tenant u).log.length 0 ∧ (t.tenant u).st = .active ∧
      (∀ c, s.tenantOf c = u → (s.ctrl c).en = true → (t.ctrl c).stopped = (s.ctrl c).drain.isSome) ∧
      (∀ c, s.tenantOf c ≠ u → (t.ctrl c).stopped = (s.ctrl c).stopped)) ∧
  (∀ (h : Hdr) (u n : Nat) (s : State), s.TakesAdmin ruleTenant0 h → n < 262144 → s.slotFree u = false → (s.tenant u).logging = false → ∃ t c,
    exec (.dirtyLogExport h u n 0) s = .next t ∧ t.out.completions = s.out.completions ++ [c] ∧ c.cid = h.cid ∧ c.sct = 0 ∧ c.sc = 0 ∧
      ((⟨0, 4, min (s.tenant u).log.length ((4 * (n + 1) - 16) / 8)⟩ : FieldVal).cut 0 4 ⊆ c.data) ∧
      (t.tenant u).log = (s.tenant u).log.drop (min (s.tenant u).log.length ((4 * (n + 1) - 16) / 8)) ∧ (t.tenant u).overflow = false ∧
      t.ctrls = s.ctrls) ∧
  (∀ (h : Hdr) (u n o : Nat) (s : State), s.TakesAdmin ruleTenant0 h → (262144 ≤ n ∨ o ≠ 0 ∨ s.slotFree u = true) → ∃ t,
    exec (.dirtyLogExport h u n o) s = .next t ∧ Posted s t h .invalidField 0 0 ∧
      ((s.tenant u).logging = false → (t.tenant u).log = (s.tenant u).log ∧ (t.tenant u).overflow = (s.tenant u).overflow) ∧ t.ctrls = s.ctrls) ∧
  (∀ (h : Hdr) (u n : Nat) (s : State), s.TakesAdmin ruleTenant0 h → n < 262144 → (s.tenant u).st = .quiesced → s.roomForEvents → ∃ t c,
    exec (.tenantStateExport h u n 0) s = .next t ∧ t.out.completions = s.out.completions ++ [c] ∧ c.cid = h.cid ∧ c.sct = 0 ∧ c.sc = 0 ∧
      c.data = transferOf (stateData u ((s.tenant u).exports + 1)) n 0 ∧ (t.tenant u).exports = (s.tenant u).exports + 1 ∧
      Recorded s t 0x0B0A s.srcStarters u ((s.tenant u).exports + 1) (stateBytes u ((s.tenant u).exports + 1)) 0 ∧ t.ctrls = s.ctrls) ∧
  (∀ (h : Hdr) (u n o : Nat) (s : State), s.TakesAdmin ruleTenant0 h → n < 262144 → (s.tenant u).st = .quiesced → o ≠ 0 → ∃ t c,
    exec (.tenantStateExport h u n o) s = .next t ∧ t.out.completions = s.out.completions ++ [c] ∧ c.cid = h.cid ∧ c.sct = 0 ∧ c.sc = 0 ∧
      c.data = transferOf (stateData u (s.tenant u).exports) n o ∧ (t.tenant u).exports = (s.tenant u).exports ∧ t.ctrls = s.ctrls) ∧
  (∀ (h : Hdr) (u n o : Nat) (s : State), s.TakesAdmin ruleTenant0 h → (262144 ≤ n ∨ (s.tenant u).st ≠ .quiesced) → ∃ t,
    exec (.tenantStateExport h u n o) s = .next t ∧ Posted s t h .invalidField 0 0 ∧ (t.tenant u).exports = (s.tenant u).exports) ∧
  (∀ (h : Hdr) (d u n : Nat) (s : State), s.TakesAdmin ruleTenant0 h → s.importBad d u n true = false → s.roomForEvents → ∃ t,
    exec (.tenantStateImport h d u true n true) s = .next t ∧ Posted s t h .success 0 0 ∧ (t.tenant d).st = .active ∧
      (t.tenant d).lim = (s.tenant u).lim ∧ (t.tenant u).st = .free ∧ (t.ctrl d).en = true ∧ (t.ctrl u).en = false ∧
      (∀ m, (s.ns m).present = true → (s.ns m).tenant = u → (t.ns m).tenant = d) ∧
      Recorded s t 0x0B0B s.srcStarters d u n 0 ∧ t.zones = s.zones ∧ t.media = s.media) ∧
  (∀ (h : Hdr) (d u n : Nat) (ok : Bool) (s : State), s.TakesAdmin ruleTenant0 h → s.importBad d u n ok = true → ∃ t,
    exec (.tenantStateImport h d u true n ok) s = .next t ∧ Posted s t h .invalidField 0x0B 0 ∧ (t.tenant d).st = (s.tenant d).st ∧
      t.nss = s.nss ∧ t.ctrls = s.ctrls) ∧
  (∀ (h : Hdr) (d u n : Nat) (ok : Bool) (s : State), s.TakesAdmin ruleTenant0 h → ∃ t,
    exec (.tenantStateImport h d u false n ok) s = .next t ∧ Posted s t h .success 0 0 ∧ (t.tenant d).st = (s.tenant d).st ∧ t.nss = s.nss)

/-- Ledger Acknowledge (R493), from tenant 0 or the management controller: a SEQ above the newest is refused; one at or below the acknowledged SEQ changes nothing and
succeeds; any other becomes the acknowledged SEQ. The entries held stay the same, and event 0x0C05 is recorded. -/
def Obligations.LedgerAcknowledge : Prop :=
  (∀ (h : Hdr) (seq : Nat) (s : State), s.TakesBoot h → s.boot.seqNew < seq → ∃ t, exec (.ledgerAcknowledge h seq) s = .next t ∧
    Posted s t h .invalidField 0 0 ∧ t.boot = s.boot) ∧
  (∀ (h : Hdr) (seq : Nat) (s : State), s.TakesBoot h → seq ≤ s.boot.seqNew → seq ≤ s.boot.seqAck → s.roomForEvents → ∃ t,
    exec (.ledgerAcknowledge h seq) s = .next t ∧ Posted s t h .success 0 0 ∧ t.boot = s.boot ∧
      ∃ freed, Recorded s t 0x0C05 s.srcStarters seq freed (if h.mc then 2 else 1) 0) ∧
  (∀ (h : Hdr) (seq : Nat) (s : State), s.TakesBoot h → seq ≤ s.boot.seqNew → s.boot.seqAck < seq → s.roomForEvents → ∃ t,
    exec (.ledgerAcknowledge h seq) s = .next t ∧ Posted s t h .success 0 0 ∧ t.boot.seqAck = seq ∧ t.boot.ledger = s.boot.ledger ∧
      t.boot.oldest = s.boot.oldest ∧ t.boot.seqNew = s.boot.seqNew ∧
      ∃ freed, Recorded s t 0x0C05 s.srcStarters seq freed (if h.mc then 2 else 1) 0)

/-- The boot store (R473, R474, R476, R483, R490-R492, R495): an erased sector lies ahead again and a held entry's wait ends; a bad sector takes the lowest free
sector of the pool, recorded in both headers, or with none left its bank is INVALID, a ledger sector leaves the ring, or a seed copy is lost; a programmed part completes its command, and the last one
makes its bank VALID or INVALID; a held ledger entry is then in the store; a boot that ran long enough is marked last-known-good; Ledger Read returns whole entries in SEQ order from the SEQ
wanted. -/
def Obligations.BootStoreKeepsBanksAndLedger : Prop :=
  (∀ (n : Nat) (s : State), s.running = true → isLedgerSector n = true → s.ledgerErasing = true → s.roomForEvents → ∃ t,
    exec (.bootStoreEraseDone n true) s = .next t ∧ t.boot.erasedAhead = true ∧ 2 ∉ t.power.holds ∧ t.boot.seqNew = s.boot.seqNew ∧
      t.boot.seqAck = s.boot.seqAck ∧ t.boot.poolLeft = s.boot.poolLeft ∧
      (∀ e, s.boot.heldEntry = some e → Recorded s t 0x0C04 s.srcStarters n ((s.now - e.time) / 1000000) 0 0)) ∧
  (∀ (n : Nat) (s : State), s.running = true → (isLedgerSector n = false ∨ s.ledgerErasing = false) → exec (.bootStoreEraseDone n true) s = .next s) ∧
  (∀ (n : Nat) (s : State), s.running = true → s.boot.poolLeft ≠ 0 → s.roomForEvents → ∃ t,
    exec (.bootStoreEraseDone n false) s = .next t ∧ t.boot.poolLeft = s.boot.poolLeft - 1 ∧
      t.boot.remap = s.boot.remap ++ [(n, 394 + (118 - s.boot.poolLeft))] ∧
      Recorded s t 0x0C0D srcBootStore (subParam (bankOfSector n) n) (394 + (118 - s.boot.poolLeft)) 1 0 ∧
      (isLedgerSector n = true → s.ledgerErasing = true → t.boot.erasedAhead = true) ∧
      t.boot.bank0 = s.boot.bank0 ∧ t.boot.bank1 = s.boot.bank1) ∧
  (∀ (n how : Nat) (c : Instr) (s : State), (c, how) ∈ [(.bootStoreEraseDone n false, 1), (.bootStoreProgramDone .header n false, 2), (.bootStoreProgramDone .seed n false, 2)] →
    s.running = true → s.boot.poolLeft ≠ 0 → s.evr.queue.length < 223 → ∃ t, exec c s = .next t ∧ t.boot.poolLeft = s.boot.poolLeft - 1 ∧
      t.boot.remap = s.boot.remap ++ [(n, 394 + (118 - s.boot.poolLeft))] ∧ t.boot.headerWrites = s.boot.headerWrites + 2 ∧
      Recorded s t 0x0C0D srcBootStore (subParam (bankOfSector n) n) (394 + (118 - s.boot.poolLeft)) how 0 ∧
      (s.boot.poolLeft = 9 → Recorded s t 0x0C0E srcBootStore (subParam 0xFF 8) 0 0 0) ∧
      t.boot.bank0 = s.boot.bank0 ∧ t.boot.bank1 = s.boot.bank1 ∧ t.boot.ledgerLost = s.boot.ledgerLost ∧ t.boot.seedA = s.boot.seedA ∧
      t.boot.seedB = s.boot.seedB) ∧
  (∀ (n how : Nat) (c : Instr) (s : State), (c, how) ∈ [(.bootStoreEraseDone n false, 1), (.bootStoreProgramDone .header n false, 2), (.bootStoreProgramDone .seed n false, 2)] →
    s.running = true → s.boot.poolLeft = 0 → ∃ t, exec c s = .next t ∧ t.out = s.out ∧
      (2 ≤ n → n < 130 → t.boot.bank0.st = .invalid ∧ t.boot.bank1 = s.boot.bank1 ∧ t.boot.ledgerLost = s.boot.ledgerLost) ∧
      (130 ≤ n → n < 258 → t.boot.bank1.st = .invalid ∧ t.boot.bank0 = s.boot.bank0 ∧ t.boot.ledgerLost = s.boot.ledgerLost) ∧
      (isLedgerSector n = true → t.boot.ledgerLost = s.boot.ledgerLost + 1 ∧ t.boot.bank0 = s.boot.bank0 ∧ t.boot.bank1 = s.boot.bank1) ∧
      (386 ≤ n → n < 390 → t.boot = { s.boot with seedA := { s.boot.seedA with lost := true } }) ∧
      (390 ≤ n → n < 394 → t.boot = { s.boot with seedB := { s.boot.seedB with lost := true } }) ∧
      ((n < 2 ∨ 394 ≤ n) → t.boot = s.boot)) ∧
  (∀ (n : Nat) (ok : Bool) (k : ProgramKind) (s : State), s.running = false → exec (.bootStoreEraseDone n ok) s = .next s ∧
    exec (.bootStoreProgramDone k n ok) s = .next s) ∧
  (∀ (n : Nat) (e : LedgerEntry) (ok : Bool) (s : State), s.running = true → s.boot.heldEntry = some e → s.boot.erasedAhead = true →
    (ok = true ∨ s.boot.poolLeft ≠ 0) → ∃ t,
    exec (.bootStoreProgramDone .ledgerEntry n ok) s = .next t ∧ t.boot.ledger = s.boot.ledger ++ [e] ∧
      t.boot.seqNew = max s.boot.seqNew e.seq ∧
      t.boot.heldEntry = none ∧ t.boot.missed = 0 ∧ t.boot.seqAck = s.boot.seqAck ∧
      t.boot.poolLeft = (if ok then s.boot.poolLeft else s.boot.poolLeft - 1) ∧ t.out = s.out) ∧
  (∀ (n : Nat) (e : LedgerEntry) (s : State), s.running = true → s.boot.heldEntry = some e → s.boot.erasedAhead = true → s.boot.poolLeft = 0 → ∃ t,
    exec (.bootStoreProgramDone .ledgerEntry n false) s = .next t ∧ t.boot.ledger = s.boot.ledger ∧ t.boot.seqNew = s.boot.seqNew ∧
      t.boot.heldEntry = some e ∧ t.boot.erasedAhead = false ∧ t.out = s.out) ∧
  (∀ (n : Nat) (s : State), (s.boot.heldEntry = none ∨ s.boot.erasedAhead = false) → exec (.bootStoreProgramDone .ledgerEntry n true) s = .next s) ∧
  (∀ (n k : Nat) (h : Hdr) (last ok : Bool) (x : Image) (s : State), s.running = true → s.muted h = false → (ok = true ∨ s.boot.poolLeft ≠ 0) →
    s.boot.staging.find? (fun p => p.2.1 == k % 2) = some (h, k % 2, last, x) → (s.boot.bank k).st ≠ .staging → ∃ t,
    exec (.bootStoreProgramDone (.imagePart k) n ok) s = .next t ∧ Posted s t h .invalidFirmwareImage 6 0 ∧
      t.boot.bank0 = s.boot.bank0 ∧ t.boot.bank1 = s.boot.bank1) ∧
  (∀ (n k : Nat) (h : Hdr) (x : Image) (ok : Bool) (s : State), s.running = true → s.muted h = false → (ok = true ∨ s.boot.poolLeft ≠ 0) →
    s.boot.staging.find? (fun p => p.2.1 == k % 2) = some (h, k % 2, false, x) → (s.boot.bank k).st = .staging → ∃ t,
    exec (.bootStoreProgramDone (.imagePart k) n ok) s = .next t ∧ Posted s t h .success 0 0 ∧
      t.boot.staging = s.boot.staging.erase (h, k % 2, false, x) ∧ t.boot.bank0 = s.boot.bank0 ∧ t.boot.bank1 = s.boot.bank1 ∧
      (ok = true → t.boot = { s.boot with staging := s.boot.staging.erase (h, k % 2, false, x) })) ∧
  (∀ (n k : Nat) (h : Hdr) (x : Image) (ok : Bool) (s : State), s.running = true → s.muted h = false → s.evr.queue.length < 222 → (ok = true ∨ s.boot.poolLeft ≠ 0) →
    s.boot.staging.find? (fun p => p.2.1 == k % 2) = some (h, k % 2, true, x) → (s.boot.bank k).st = .staging → ∃ t,
    exec (.bootStoreProgramDone (.imagePart k) n ok) s = .next t ∧
      (t.boot.bank k).st = (if s.imageCause x = 0 then .valid else .invalid) ∧ (t.boot.bank k).image = some x ∧
      (t.boot.bank k).cause = s.imageCause x ∧ Recorded s t 0x0C08 s.srcStarters (k % 2) (s.imageCause x) x.svn x.length ∧
      Posted s t h (if s.imageCause x = 0 then .success else .invalidFirmwareImage) (s.imageCause x) 0) ∧
  (∀ (n k : Nat) (h : Hdr) (last : Bool) (x : Image) (s : State), s.running = true → s.muted h = false → s.boot.poolLeft = 0 →
    bankOfSector n = k % 2 → s.boot.staging.find? (fun p => p.2.1 == k % 2) = some (h, k % 2, last, x) → ∃ t,
    exec (.bootStoreProgramDone (.imagePart k) n false) s = .next t ∧ Posted s t h .invalidFirmwareImage 6 0 ∧ (t.boot.bank k).st = .invalid ∧
      t.boot.bank (k + 1) = s.boot.bank (k + 1)) ∧
  (∀ (n k : Nat) (s : State), s.boot.staging.find? (fun p => p.2.1 == k % 2) = none → exec (.bootStoreProgramDone (.imagePart k) n true) s = .next s) ∧
  (∀ (n : Nat) (s : State), exec (.bootStoreProgramDone .header n true) s = .next s ∧ exec (.bootStoreProgramDone .seed n true) s = .next s) ∧
  (∀ (x : Image) (s : State), s.running = true → s.boot.lkgArmed = true → s.boot.running = some x → s.roomForEvents → ∃ t,
    exec .lkgTimerExpiry s = .next t ∧ t.boot.lkgArmed = false ∧ t.boot.lkgBank = s.boot.booted ∧ t.boot.lkgValid = true ∧
      t.boot.lkgPair = s.flt.activePair ∧ t.boot.fusedSvn = (if x.svnCommit then max s.boot.fusedSvn x.svn else s.boot.fusedSvn) ∧
      Recorded s t 0x0C0F s.srcStarters s.boot.booted s.flt.activePair
        (if x.svnCommit ∧ s.boot.fusedSvn < x.svn then x.svn else 0) 0 ∧ t.boot.bank0 = s.boot.bank0 ∧ t.boot.bank1 = s.boot.bank1) ∧
  (∀ (s : State), (s.running = false ∨ s.boot.lkgArmed = false ∨ s.boot.running = none) → exec .lkgTimerExpiry s = .next s) ∧
  (∀ (h : Hdr) (seq numd ofst : Nat) (s : State), s.TakesBoot h → ledgerTransferBad numd ofst = true → ∃ t u,
    exec (.ledgerRead h seq numd ofst) s = .next t ∧ Posted s t h .invalidField 0 0 ∧ t.boot = s.boot ∧
    exec (.ledgerReadCerts h numd ofst) s = .next u ∧ Posted s u h .invalidField 0 0 ∧ u.boot = s.boot) ∧
  (∀ (h : Hdr) (seq numd : Nat) (es : List LedgerEntry) (s : State), s.TakesBoot h → ledgerTransferBad numd 0 = false →
    es = (s.boot.ledger.filter (fun x => decide (seq ≤ x.seq))).take ((numd + 1) / 4096) → ∃ t c, exec (.ledgerRead h seq numd 0) s = .next t ∧
      t.out.completions = s.out.completions ++ [c] ∧ c.cid = h.cid ∧ c.sct = 0 ∧ c.sc = 0 ∧ c.dw0 = s.boot.oldestHeld ∧
      c.dw1 = s.boot.seqNew ∧ (∀ (i : Nat) (e : LedgerEntry), es[i]? = some e → ∀ f ∈ e.bytes (16384 * i), f ∈ c.data) ∧ (es = [] → c.data = []) ∧
      s.now + 81920 * es.length ≤ t.boot.readServed ∧
      { t.boot with
        readServed := s.boot.readServed
        eraseResumed := s.boot.eraseResumed } = s.boot) ∧
  (∀ (h : Hdr) (numd : Nat) (s : State), s.TakesBoot h → ledgerTransferBad numd 0 = false → ∃ t,
    exec (.ledgerReadCerts h numd 0) s = .next t ∧ Posted s t h .success s.boot.oldestHeld s.boot.seqNew ∧
      { t.boot with
        readServed := s.boot.readServed
        eraseResumed := s.boot.eraseResumed } = s.boot)

/-- Staging and activation of images, and bundles (R484, R485, R495, R496): Image Stage refuses the running bank and a roll's; a part at offset 0 starts a staging
and waits for its program; activation at the next reset rewrites the selector, or is refused with its cause; a bundle's records that pass wait for
a quiet point, and one that fails any check is refused whole. -/
def Obligations.ImagesAreStagedAndActivated : Prop :=
  (∀ (h : Hdr) (bank numd ofst : Nat) (last : Bool) (x : Image) (s : State), s.TakesBoot h →
    (overMdts numd = true ∨ s.bankInUse (bank % 2) = true) → ∃ t, exec (.imageStage h bank numd ofst last x) s = .next t ∧
      Posted s t h .invalidField 0 0 ∧ t.boot = s.boot) ∧
  (∀ (h : Hdr) (bank numd : Nat) (last : Bool) (x : Image) (s : State), s.TakesBoot h → overMdts numd = false →
    s.bankInUse (bank % 2) = false → ∃ t, exec (.imageStage h bank numd 0 last x) s = .next t ∧
      (t.boot.bank bank).st = .staging ∧ t.boot.bank (bank + 1) = s.boot.bank (bank + 1) ∧
      t.boot.staging = s.boot.staging ++ [(h, bank % 2, last, x)] ∧ t.boot.selector = s.boot.selector ∧ t.out = s.out) ∧
  (∀ (h : Hdr) (bank numd ofst : Nat) (last : Bool) (x : Image) (s : State), s.TakesBoot h → overMdts numd = false →
    s.bankInUse (bank % 2) = false → ofst ≠ 0 → (s.boot.bank bank).st = .staging → ∃ t, exec (.imageStage h bank numd ofst last x) s = .next t ∧
      t.boot = { s.boot with staging := s.boot.staging ++ [(h, bank % 2, last, x)] } ∧ t.out = s.out) ∧
  (∀ (h : Hdr) (bank numd ofst : Nat) (last : Bool) (x : Image) (s : State), s.TakesBoot h → overMdts numd = false →
    s.bankInUse (bank % 2) = false → ofst ≠ 0 → (s.boot.bank bank).st ≠ .staging → ∃ t,
      exec (.imageStage h bank numd ofst last x) s = .next t ∧ Posted s t h .sequenceError 0 0 ∧ t.boot = s.boot) ∧
  (∀ (h : Hdr) (bank : Nat) (s : State), s.TakesBoot h → s.activateBusy true = 0 → s.bankCause (bank % 2) = 0 →
    s.power.holds.contains 3 = false → ∃ t, exec (.imageActivateAtReset h bank) s = .next t ∧ Posted s t h .success 0 0 ∧
      t.boot = { s.boot with
        selector := bank % 2
        headerWrites := s.boot.headerWrites + 1 } ∧ t.power = s.power) ∧
  (∀ (h : Hdr) (bank : Nat) (s : State), s.TakesBoot h → s.activateBusy true = 0 → s.bankCause (bank % 2) = 0 →
    s.power.holds.contains 3 = true → ∃ t, exec (.imageActivateAtReset h bank) s = .next t ∧ t.boot.selector = bank % 2 ∧
      t.boot.headerWrites = s.boot.headerWrites + 1 ∧ t.power.inReset = true ∧ t.boot.running = none ∧ t.regs = {} ∧ Posted s t h .success 0 0) ∧
  (∀ (h : Hdr) (bank : Nat) (s : State), s.TakesBoot h → s.activateBusy true ≠ 0 → ∃ t, exec (.imageActivateAtReset h bank) s = .next t ∧
    Posted s t h .sequenceError (s.activateBusy true) 0 ∧ t.boot = s.boot) ∧
  (∀ (h : Hdr) (bank : Nat) (s : State), s.TakesBoot h → s.activateBusy true = 0 → s.bankCause (bank % 2) ≠ 0 → ∃ t,
    exec (.imageActivateAtReset h bank) s = .next t ∧ Posted s t h .invalidFirmwareImage (s.bankCause (bank % 2)) 0 ∧ t.boot = s.boot) ∧
  (∀ (h : Hdr) (s : State), s.TakesBoot h → s.activateBusy false = 0 → s.bankCause (1 - s.boot.booted) = 0 → ∃ t,
    exec (.imageRevertAtReset h) s = .next t ∧ Posted s t h .success 0 0 ∧
      t.boot = { s.boot with
        selector := 1 - s.boot.booted
        headerWrites := s.boot.headerWrites + 1 } ∧ t.power = s.power) ∧
  (∀ (h : Hdr) (s : State), s.TakesBoot h → s.activateBusy false ≠ 0 → ∃ t, exec (.imageRevertAtReset h) s = .next t ∧
    Posted s t h .sequenceError (s.activateBusy false) 0 ∧ t.boot = s.boot) ∧
  (∀ (h : Hdr) (s : State), s.TakesBoot h → s.activateBusy false = 0 → s.bankCause (1 - s.boot.booted) ≠ 0 → ∃ t,
    exec (.imageRevertAtReset h) s = .next t ∧ Posted s t h .invalidFirmwareImage (s.bankCause (1 - s.boot.booted)) 0 ∧ t.boot = s.boot) ∧
  (∀ (h : Hdr) (numd ofst : Nat) (last : Bool) (b : Bundle) (s : State), s.TakesAdmin ruleManager h → overMdts numd = true → ∃ t,
    exec (.configRecordApply h numd ofst last b) s = .next t ∧ Posted s t h .invalidField 0 0 ∧ t.boot = s.boot ∧ t.regs = s.regs) ∧
  (∀ (h : Hdr) (numd ofst : Nat) (last : Bool) (b : Bundle) (s : State), s.TakesAdmin ruleManager h → overMdts numd = false →
    s.strictLedger = true → s.boot.ledgerFull = true → ∃ t, exec (.configRecordApply h numd ofst last b) s = .next t ∧
      Posted s t h .sequenceError 0x11 0 ∧ t.boot = s.boot ∧ t.regs = s.regs) ∧
  (∀ (h : Hdr) (numd ofst : Nat) (last : Bool) (b : Bundle) (s : State), s.TakesAdmin ruleManager h → overMdts numd = false →
    (s.strictLedger = false ∨ s.boot.ledgerFull = false) → ofst ≠ 0 → s.boot.applying = false → ∃ t,
    exec (.configRecordApply h numd ofst last b) s = .next t ∧ Posted s t h .sequenceError 0 0 ∧ t.boot = s.boot ∧ t.regs = s.regs) ∧
  (∀ (h : Hdr) (numd ofst : Nat) (b : Bundle) (s : State), s.TakesAdmin ruleManager h → overMdts numd = false →
    (s.strictLedger = false ∨ s.boot.ledgerFull = false) → (ofst = 0 ∨ s.boot.applying = true) → ∃ t,
    exec (.configRecordApply h numd ofst false b) s = .next t ∧ Posted s t h .success 0 0 ∧ t.boot = { s.boot with applying := true } ∧
      t.regs = s.regs) ∧
  (∀ (h : Hdr) (numd ofst : Nat) (b : Bundle) (s : State), s.TakesAdmin ruleManager h → overMdts numd = false →
    (s.strictLedger = false ∨ s.boot.ledgerFull = false) → (ofst = 0 ∨ s.boot.applying = true) →
    (b.sigsOk = false ∨ b.records.any (fun r => !r.live) = true) → ∃ t, exec (.configRecordApply h numd ofst true b) s = .next t ∧
      Posted s t h .invalidField 0 0 ∧ t.boot = { s.boot with applying := false } ∧ t.regs = s.regs) ∧
  (∀ (h : Hdr) (numd ofst : Nat) (b : Bundle) (r : CfgRecord) (x : Image) (s u : State), s.TakesAdmin ruleManager h → overMdts numd = false →
    (s.strictLedger = false ∨ s.boot.ledgerFull = false) → (ofst = 0 ∨ s.boot.applying = true) → b.sigsOk = true →
    b.records.any (fun r => !r.live) = false → u = (s.fetchOne h).onBoot (fun b => { b with applying := false }) → b.records = [r] →
    s.boot.running = some x → u.recordCause x.schema r ≠ 0 → s.roomForEvents → ∃ t type, exec (.configRecordApply h numd ofst true b) s = .next t ∧
      Posted s t h .invalidField 0 0 ∧ t.boot = { s.boot with applying := false } ∧ t.regs.cfg = s.regs.cfg ∧ t.regs.live = s.regs.live ∧
      Recorded s t 0x0C06 s.srcStarters type 2 (u.recordCause x.schema r) 0 ∧ (∀ ws, r.body = .writes ws → type = 1)) ∧
  (∀ (h : Hdr) (numd ofst : Nat) (b : Bundle) (s : State), s.TakesAdmin ruleManager h → overMdts numd = false →
    (s.strictLedger = false ∨ s.boot.ledgerFull = false) → (ofst = 0 ∨ s.boot.applying = true) →
    b.sigsOk = true → b.records.any (fun r => !r.live) = false →
    ((s.fetchOne h).onBoot fun b => { b with applying := false }).bundleCauses b = [] → ∃ t,
      exec (.configRecordApply h numd ofst true b) s = .next t ∧ t.boot.bundles = s.boot.bundles ++ [(h, b)] ∧ t.boot.applying = false ∧
      t.regs.cfg = s.regs.cfg ∧ t.out = s.out)

/-- Live rolls (R34, R496-R503, R528, R529): a roll whose checks find nothing starts with phase 1 and event 0x0C09, and its command waits; a handover that no longer meets stops
it with event 0x0C0C; each step takes its unit out, and gives it back when it ends; a unit out of service is passed over; pacers move to the spare first, or load in place, with event 0x0C0A; a fault turns the roll back, phase by phase; the roll that
ends sets the selector, appends an entry of reason 0x2 and completes; one that has been rolled back appends an entry of reason 0x4 and completes with its cause. -/
def Obligations.LiveRollsRunTheirPhases : Prop :=
  (∀ (h : Hdr) (bank : Nat) (y : Image) (s : State), s.TakesBoot h → (s.fetchOne h).liveCause (bank % 2) = 0 →
    (s.boot.bank bank).image = some y → s.roomForEvents → ∃ t r, exec (.imageActivateLive h bank) s = .next t ∧ t.boot.roll = some r ∧
      r.bank = bank % 2 ∧ r.hdr = h ∧ r.phase = 1 ∧ r.running = true ∧ r.back = false ∧ t.boot.selector = s.boot.selector ∧
      t.boot.running = s.boot.running ∧ Recorded s t 0x0C09 s.srcStarters (bank % 2) y.starter.version y.pacer.version 0 ∧
      t.out = s.out) ∧
  (∀ (h : Hdr) (bank : Nat) (s : State), s.TakesBoot h → (s.fetchOne h).liveCause (bank % 2) ≠ 0 → ∃ t,
    exec (.imageActivateLive h bank) s = .next t ∧
      Posted s t h (if 0x10 ≤ (s.fetchOne h).liveCause (bank % 2) then .sequenceError else .invalidFirmwareImage)
        ((s.fetchOne h).liveCause (bank % 2)) 0 ∧ t.boot = s.boot) ∧
  (∀ (ok : Bool) (s : State), s.boot.roll = none → exec .rollStepStart s = .next s ∧ exec (.rollStepDone ok) s = .next s) ∧
  (∀ (r : Roll) (s : State), s.boot.roll = some r → (s.rolling = false ∨ r.running = true ∨ s.rollReady r = false ∨ s.boot.running = none ∨
    s.rollTarget r = none) → exec .rollStepStart s = .next s) ∧
  (∀ (r : Roll) (ok : Bool) (s : State), s.boot.roll = some r → (s.rolling = false ∨ r.running = false) →
    exec (.rollStepDone ok) s = .next s) ∧
  (∀ (r : Roll) (x y : Image) (c : Handover) (s : State), s.boot.roll = some r → s.rolling = true → r.running = false → s.rollReady r = true →
    r.back = false → r.phase ≠ 1 → s.boot.running = some x → s.rollTarget r = some y → clashIn x y r.phase = some c → s.roomForEvents → ∃ t q,
    exec .rollStepStart s = .next t ∧ t.boot.roll = some q ∧ q.back = true ∧ q.cause = 5 ∧ q.running = false ∧ q.unit = r.unit ∧
      Recorded s t 0x0C0C s.srcStarters c.mailbox c.cls (c.met.1 + 256 * c.met.2) (c.new.1 + 256 * c.new.2) ∧ t.blks = s.blks ∧
      t.rgns = s.rgns) ∧
  (∀ (r : Roll) (x y : Image) (s : State), s.boot.roll = some r → s.rolling = true → r.running = false → s.rollReady r = true →
    s.boot.running = some x → s.rollTarget r = some y → (r.back = true ∨ clashIn x y r.phase = none) → ∃ t, exec .rollStepStart s = .next t ∧
      (r.phase = 3 → (s.blk r.unit).marshalOut = false → (t.blk r.unit).marshalOut = true ∧ t.boot.roll = some { r with
        running := true
        stepAt := s.now }) ∧
      (r.phase = 4 → hasBit (s.rgn (r.unit / 2)).stewards (r.unit % 2) = true →
        (t.rgn (r.unit / 2)).stewards = clearBit (s.rgn (r.unit / 2)).stewards (r.unit % 2) ∧ t.blks = s.blks ∧ t.boot.roll = some { r with
        running := true
        stepAt := s.now }) ∧
      (5 ≤ r.phase → t.blks = s.blks ∧ t.rgns = s.rgns ∧ t.flt = s.flt ∧ t.boot.roll = some { r with
        running := true
        stepAt := s.now }) ∧
      (∀ p u, rollNext r = some (p, u) → (r.phase = 3 ∧ (s.blk r.unit).marshalOut = true) ∨
        (r.phase = 4 ∧ hasBit (s.rgn (r.unit / 2)).stewards (r.unit % 2) = false) → t.blks = s.blks ∧ t.rgns = s.rgns ∧ t.boot.roll = some { r with
        phase := p
        unit := u
        cell := 0
        stage := 0
        inPlace := false
        running := if p = 5 then s.flt.pairsIn == 3 else decide (p = 6)
        stepAt := s.now
        reached := if r.back then r.reached else p })) ∧
  (∀ (r : Roll) (x y : Image) (s : State), s.boot.roll = some r → s.rolling = true → r.running = false → s.rollReady r = true →
    s.boot.running = some x → s.rollTarget r = some y → (r.back = true ∨ clashIn x y r.phase = none) → r.phase = 2 →
    hasBit (s.blk r.unit).cellFailed 16 = false → s.spareTaken r.unit = false → ∃ t,
    exec .rollStepStart s = .next t ∧ t.boot.roll = some { r with
      running := true
      stepAt := s.now
      cell := 16
      stage := 1 } ∧ t.blks = s.blks ∧ t.lanes = s.lanes) ∧
  (∀ (r : Roll) (x y : Image) (s : State), s.boot.roll = some r → s.rolling = true → r.running = false → s.rollReady r = true →
    s.boot.running = some x → s.rollTarget r = some y → (r.back = true ∨ clashIn x y r.phase = none) → r.phase = 2 → s.roomForEvents → ∃ t,
    exec .rollStepStart s = .next t ∧
      (hasBit (s.blk r.unit).cellFailed 16 = false → s.spareTaken r.unit = true → Recorded s t 0x0C0A s.srcStarters r.unit 16 0 0 ∧
        t.boot.roll = some { r with
          running := true
          stepAt := s.now
          cell := 16
          stage := 1
          inPlace := true }) ∧
      (∀ k, hasBit (s.blk r.unit).cellFailed 16 = true → s.rollCellFrom r.unit 17 0 = some k →
        Recorded s t 0x0C0A s.srcStarters r.unit k 0 0 ∧ ((s.lane (16 * r.unit + k)).st = .active → (t.lane (16 * r.unit + k)).outage = some .roll) ∧
        t.boot.roll = some { r with
          running := true
          stepAt := s.now
          cell := k
          stage := 1
          inPlace := true })) ∧
  (∀ (r : Roll) (s : State), s.boot.roll = some r → s.rolling = true → r.running = true → r.back = false → r.phase = 1 → ∃ t,
    exec (.rollStepDone true) s = .next t ∧ t.boot.roll = some { r with
      phase := 2
      unit := 0
      cell := 0
      stage := 0
      inPlace := false
      running := false
      stepAt := s.now
      reached := 2 } ∧ t.out = s.out) ∧
  (∀ (r : Roll) (s : State), s.boot.roll = some r → s.rolling = true → r.running = true → r.back = false → r.phase = 1 →
    s.muted r.hdr = false → s.boot.ledgerFull = false → s.roomForEvents → ∃ t,
    exec (.rollStepDone false) s = .next t ∧ t.boot.roll = none ∧ t.boot.seqNew = s.boot.seqNew + 1 ∧ t.boot.selector = s.boot.selector ∧
      Recorded s t 0x0C0B s.srcStarters 2 1 ((s.now - r.since) / 1000000) 7 ∧ Posted s t r.hdr .invalidFirmwareImage 7 0) ∧
  (∀ (r : Roll) (s : State), s.boot.roll = some r → s.rolling = true → r.running = true → r.phase = 2 → r.inPlace = false → ∃ t,
    exec (.rollStepDone true) s = .next t ∧
      (∀ k, r.cell = 16 → s.spareTaken r.unit = false → s.rollCellFrom r.unit 17 0 = some k →
        ((s.lane (16 * r.unit + k)).st = .active → (t.lane (16 * r.unit + k)).outage = some .roll) ∧ t.boot.roll = some { r with
          cell := k
          stage := 0
          stepAt := s.now }) ∧
      (r.cell < 16 → r.stage = 0 → (t.blk r.unit).spareLane = r.cell ∧ (t.lane (16 * r.unit + r.cell)).spare = true ∧
        (t.lane (16 * r.unit + r.cell)).outage ≠ some .roll ∧ t.boot.roll = some { r with
          stage := 1
          stepAt := s.now }) ∧
      (r.cell < 16 → r.stage = 1 →
        ((s.lane (16 * r.unit + r.cell)).st = .active → (t.lane (16 * r.unit + r.cell)).outage = some .roll) ∧ t.boot.roll = some { r with
          stage := 2
          stepAt := s.now }) ∧
      (∀ k, r.cell < 16 → 2 ≤ r.stage → (s.blk r.unit).handoff = none → hasBit (s.blk r.unit).cellFailed 16 = false →
        s.rollCellFrom r.unit 17 (r.cell + 1) = some k → (t.blk r.unit).spareLane = 0x1F ∧ (t.lane (16 * r.unit + r.cell)).spare = false ∧
        t.boot.roll = some { r with
          cell := k
          stage := 0
          stepAt := s.now }) ∧
      (∀ p u, r.cell < 16 → 2 ≤ r.stage → s.rollCellFrom r.unit 17 (r.cell + 1) = none → rollNext r = some (p, u) →
        (t.blk r.unit).spareLane = 0x1F ∧ ∃ q, t.boot.roll = some q ∧ q.phase = p ∧ q.unit = u ∧ q.running = false ∧ q.stage = 0)) ∧
  (∀ (r : Roll) (s : State), s.boot.roll = some r → s.rolling = true → r.running = true → r.phase = 2 → r.inPlace = true → r.cell < 16 →
    s.roomForEvents → ∃ t, exec (.rollStepDone true) s = .next t ∧
      (∀ k, s.rollCellFrom r.unit 17 (r.cell + 1) = some k → Recorded s t 0x0C0A s.srcStarters r.unit k 0 0 ∧
        (t.lane (16 * r.unit + r.cell)).outage ≠ some .roll ∧ t.boot.roll = some { r with
          cell := k
          stage := 1
          stepAt := s.now }) ∧
      (∀ p u, s.rollCellFrom r.unit 17 (r.cell + 1) = none → rollNext r = some (p, u) → (t.lane (16 * r.unit + r.cell)).outage ≠ some .roll ∧
        ∃ q, t.boot.roll = some q ∧ q.phase = p ∧ q.unit = u ∧ q.running = false ∧ q.inPlace = false)) ∧
  (∀ (r : Roll) (s : State), s.boot.roll = some r → s.rolling = true → r.running = true → r.back = false → r.phase = 2 → r.cell ≤ 16 →
    hasBit (s.blk r.unit).cellFailed r.cell = false → ∃ t q, exec (.rollStepDone false) s = .next t ∧ t.boot.roll = some q ∧
      hasBit (t.blk r.unit).cellFailed r.cell = true ∧ t.flt.lastSrc = srcPacer (17 * r.unit + r.cell) ∧
      (r.inPlace = true → q.back = true ∧ q.cause = 7 ∧ q.running = false ∧ q.unit = r.unit) ∧
      (r.inPlace = false → q.back = false ∧ ∀ k, s.rollCellFrom r.unit 17 (if r.cell = 16 then 0 else r.cell + 1) = some k →
        q.inPlace = true ∧ q.cell = k ∧ q.stage = 1 ∧ q.unit = r.unit)) ∧
  (∀ (r : Roll) (s : State), s.boot.roll = some r → s.rolling = true → r.running = true → r.back = false → r.phase = 3 → r.unit < 31 → ∃ t q,
    exec (.rollStepDone true) s = .next t ∧ t.boot.roll = some q ∧ q.phase = 3 ∧ q.unit = r.unit + 1 ∧ q.running = false ∧
      (t.blk r.unit).marshalOut = false) ∧
  (∀ (r : Roll) (s : State), s.boot.roll = some r → s.rolling = true → r.running = true → r.back = false → r.phase = 4 → r.unit < 7 → ∃ t q,
    exec (.rollStepDone true) s = .next t ∧ t.boot.roll = some q ∧ q.phase = 4 ∧ q.unit = r.unit + 1 ∧
      hasBit (t.rgn (r.unit / 2)).stewards (r.unit % 2) = true) ∧
  (∀ (r : Roll) (p u : Nat) (ok : Bool) (s : State), s.boot.roll = some r → s.rolling = true → r.running = true →
    (r.phase = 3 ∨ r.phase = 4 ∨ (r.phase = 5 ∧ (2 ≤ r.stage ∨ ok = false)) ∨ (r.phase = 6 ∧ r.back = true)) → (ok = true ∨ r.back = true) →
    rollNext r = some (p, u) → ∃ t q, exec (.rollStepDone ok) s = .next t ∧ t.boot.roll = some q ∧ q.phase = p ∧ q.unit = u ∧ q.cell = 0 ∧
      q.stage = 0 ∧ q.back = r.back ∧ q.cause = r.cause ∧ (ok = true → q.running = (if p = 5 then s.flt.pairsIn == 3 else decide (p = 6))) ∧
      (r.phase = 3 → ok = true → (t.blk r.unit).marshalOut = false) ∧
      (r.phase = 4 → ok = true → (t.rgn (r.unit / 2)).stewards = setBit (s.rgn (r.unit / 2)).stewards (r.unit % 2))) ∧
  (∀ (r : Roll) (s : State), s.boot.roll = some r → s.rolling = true → r.running = true → r.back = false → 3 ≤ r.phase → ∃ t q,
    exec (.rollStepDone false) s = .next t ∧ t.boot.roll = some q ∧ q.back = true ∧ q.cause = 7 ∧ q.running = false ∧ q.phase = r.phase ∧
      q.unit = r.unit ∧ q.reached = r.phase ∧ (r.phase = 3 → (t.blk r.unit).marshalOut = true ∧ t.flt.lastSrc = srcMarshal r.unit) ∧
      (r.phase = 4 → hasBit (t.rgn (r.unit / 2)).stewards (r.unit % 2) = false ∧ t.flt.lastSrc = srcSteward (r.unit / 2))) ∧
  (∀ (r : Roll) (s : State), s.boot.roll = some r → s.rolling = true → r.running = true → r.phase = 5 → r.stage = 0 → ∃ t,
    exec (.rollStepDone true) s = .next t ∧ t.flt = s.flt ∧ t.out = s.out ∧ t.boot.roll = some { r with
      stage := 1
      stepAt := s.now }) ∧
  (∀ (r : Roll) (s : State), s.boot.roll = some r → s.rolling = true → r.running = true → r.phase = 5 → r.stage = 1 → ∃ t q,
    exec (.rollStepDone true) s = .next t ∧ t.flt.activePair = 1 - s.flt.activePair ∧ t.boot.roll = some q ∧ q.stage = 2 ∧ t.out = s.out) ∧
  (∀ (r : Roll) (s : State), s.boot.roll = some r → s.rolling = true → r.running = true → r.back = false → r.phase = 5 → ∃ t q,
    exec (.rollStepDone false) s = .next t ∧ t.boot.roll = some q ∧ q.back = true ∧ q.cause = 7 ∧ q.running = false ∧
      t.flt = s.flt ∧ t.out = s.out) ∧
  (∀ (r : Roll) (s : State), s.boot.roll = some r → s.rolling = true → r.running = true → r.back = true → r.phase = 2 → r.unit = 0 →
    r.inPlace = false → r.cell = 15 → 2 ≤ r.stage → s.muted r.hdr = false → s.boot.ledgerFull = false → s.roomForEvents → ∃ t,
    exec (.rollStepDone true) s = .next t ∧ t.boot.roll = none ∧ t.boot.seqNew = s.boot.seqNew + 1 ∧ t.boot.selector = s.boot.selector ∧
      t.boot.running = s.boot.running ∧ Recorded s t 0x0C0B s.srcStarters 2 r.reached ((s.now - r.since) / 1000000) r.cause ∧
      Posted s t r.hdr (if 0x10 ≤ r.cause then .sequenceError else .invalidFirmwareImage) r.cause 0) ∧
  (∀ (r : Roll) (s : State), s.boot.roll = some r → s.rolling = true → r.running = true → r.back = false → r.phase = 6 →
    s.muted r.hdr = false → s.boot.ledgerFull = false → s.roomForEvents → ∃ t, exec (.rollStepDone true) s = .next t ∧
      t.boot.roll = none ∧ t.boot.booted = r.bank ∧ t.boot.selector = r.bank ∧ t.boot.running = (s.boot.bank r.bank).image ∧
      t.boot.lkgArmed = true ∧ t.boot.seqNew = s.boot.seqNew + 1 ∧
      Recorded s t 0x0C0B s.srcStarters 1 6 ((s.now - r.since) / 1000000) 0 ∧ Posted s t r.hdr .success 0 0)

/-- Zone windows (R89, R313, R350-R359): a creation gives the window its identifier and rkey, is refused with its status, or declined on a zone not re-armed; a destroyed window has no pages; a preload
completes with its last page, and one that does not end destroys its window; a READ whose pages are there is answered, in order on its connection, with its key gone with NAK Remote Operational Error; one that misses starts fetches and stalls or is answered with
RNR NAK, a bad one with NAK Remote Access Error and event 0x0A08; a page fetched goes to the READs that wait for it, and into the cache where it finds room; a fetch that fails or
takes too long ends them with NAK Remote Operational Error and event 0x0A09. -/
def Obligations.WindowsServeTheirZones : Prop :=
  (∀ (h : Hdr) (d : WindowData) (wid : Nat) (s : State), s.TakesAdmin ruleWindow h → s.hasFabric = true →
    (s.fetchOne h).createRefusal h d = none → (s.fetchOne h).freeWid 16384 0 = some wid →
    (s.zone (zoneKey h.nsid (d.zslba / zsze))).rearm = 0 → d.preload = false → ∃ t,
    exec (.windowCreate h d) s = .next t ∧ Posted s t h .success wid (t.rkeyOf wid) ∧ (t.window wid).up = true ∧
      (t.window wid).tenant = s.tenantOf h.ctrl ∧ (t.window wid).nsid = h.nsid ∧ (t.window wid).zone = d.zslba / zsze ∧
      (t.window wid).pd = d.pd ∧ (t.window wid).preload = none ∧ Tbl.look 0 t.fab.gens wid = Tbl.look 0 s.fab.gens wid + 1 ∧
      t.zones = s.zones ∧ t.fab.cache = s.fab.cache) ∧
  (∀ (h : Hdr) (d : WindowData) (wid : Nat) (s : State), s.TakesAdmin ruleWindow h → s.hasFabric = true →
    (s.fetchOne h).createRefusal h d = none → (s.fetchOne h).freeWid 16384 0 = some wid →
    (s.zone (zoneKey h.nsid (d.zslba / zsze))).rearm = 0 → d.preload = true → ∃ t,
    exec (.windowCreate h d) s = .next t ∧ (t.window wid).up = true ∧ (t.window wid).preload = some h ∧ t.out = s.out) ∧
  (∀ (h : Hdr) (d : WindowData) (wid : Nat) (s : State), s.TakesAdmin ruleWindow h → s.hasFabric = true →
    (s.fetchOne h).createRefusal h d = none → (s.fetchOne h).freeWid 16384 0 = some wid →
    (s.zone (zoneKey h.nsid (d.zslba / zsze))).rearm ≠ 0 → ∃ t us, exec (.windowCreate h d) s = .next t ∧ 1 ≤ us ∧ us ≤ 2400 ∧
      Posted s t h .boundUnavailable us 0 ∧ t.work.rearmHead.head? = some (zoneKey h.nsid (d.zslba / zsze)) ∧ t.fab.windows = s.fab.windows) ∧
  (∀ (h : Hdr) (d : WindowData) (st : Status) (s : State), s.TakesAdmin ruleWindow h → s.hasFabric = true →
    (s.fetchOne h).createRefusal h d = some st → ∃ t, exec (.windowCreate h d) s = .next t ∧ Posted s t h st 0 0 ∧
      t.fab.windows = s.fab.windows ∧ t.fab.gens = s.fab.gens) ∧
  (∀ (h : Hdr) (d : WindowData) (w : Nat) (s : State), s.TakesAdmin ruleWindow h → s.hasFabric = false → ∃ t u,
    exec (.windowCreate h d) s = .next t ∧ Posted s t h .invalidOpcode 0 0 ∧ t.fab.windows = s.fab.windows ∧
    exec (.windowDestroy h w) s = .next u ∧ Posted s u h .invalidOpcode 0 0 ∧ u.fab.windows = s.fab.windows) ∧
  (∀ (h : Hdr) (wid : Nat) (s : State), s.TakesAdmin ruleWindow h → s.hasFabric = true → (s.window wid).up = true →
    (s.window wid).tenant = s.tenantOf h.ctrl → (s.window wid).nsid = h.nsid → (s.window wid).preload = none → ∃ t,
    exec (.windowDestroy h wid) s = .next t ∧ Posted s t h .success 0 0 ∧ (t.window wid).up = false ∧ (∀ p ∈ t.fab.cache, p.wid ≠ wid) ∧
      (∀ w, w ≠ wid → t.window w = s.window w) ∧ t.fab.reads = s.fab.reads ∧ t.zones = s.zones) ∧
  (∀ (h g : Hdr) (wid : Nat) (s : State), s.TakesAdmin ruleWindow h → s.hasFabric = true → (s.window wid).up = true →
    (s.window wid).tenant = s.tenantOf h.ctrl → (s.window wid).nsid = h.nsid → (s.window wid).preload = some g → s.muted g = false → ∃ t a b,
    exec (.windowDestroy h wid) s = .next t ∧ t.out.completions = s.out.completions ++ [a, b] ∧ a.cid = g.cid ∧ a.dw0 = wid ∧
      a.sct = (Status.windowTimeout).sct ∧ a.sc = (Status.windowTimeout).sc ∧ b.cid = h.cid ∧ b.sct = 0 ∧ b.sc = 0 ∧ (t.window wid).up = false) ∧
  (∀ (h : Hdr) (wid : Nat) (s : State), s.TakesAdmin ruleWindow h → s.hasFabric = true →
    ((s.window wid).up = false ∨ (s.window wid).tenant ≠ s.tenantOf h.ctrl ∨ (s.window wid).nsid ≠ h.nsid) → ∃ t,
    exec (.windowDestroy h wid) s = .next t ∧ Posted s t h .invalidField 0 0 ∧ t.fab.windows = s.fab.windows ∧ t.fab.cache = s.fab.cache) ∧
  (∀ (h : Hdr) (wid : Nat) (s : State), s.fabricOn = true → (s.window wid).up = true → (s.window wid).preload = some h → s.muted h = false → ∃ t,
    exec (.preloadTimeout wid) s = .next t ∧ Posted s t h .windowTimeout wid 0 ∧ (t.window wid).up = false ∧ (∀ p ∈ t.fab.cache, p.wid ≠ wid)) ∧
  (∀ (wid : Nat) (s : State), (s.fabricOn = false ∨ (s.window wid).up = false ∨ (s.window wid).preload = none) →
    exec (.preloadTimeout wid) s = .next s) ∧
  (∀ (c rkey va len : Nat) (w : Bool) (s : State), (s.fabricOn = false ∨ (s.conn c).up = false ∨ (s.conn c).error = true ∨ (s.conn c).frozen = true) →
    exec (.rdmaReadRequest c rkey va len w) s = .next s) ∧
  (∀ (c rkey va len : Nat) (w : Bool) (s : State), s.fabricOn = true → (s.conn c).up = true → (s.conn c).error = false →
    (s.conn c).frozen = false → s.holdsIngress = false → s.power.maint ≠ none → ∃ t, exec (.rdmaReadRequest c rkey va len w) s = .next t ∧
      t.power = { s.power with
        maint := none
        ps := s.power.lastPs }) ∧
  (∀ (c rkey va len i : Nat) (q : WinRead) (s : State), s.fabricOn = true → (s.conn c).up = true → (s.conn c).error = false →
    (s.conn c).frozen = false → s.holdsIngress = false → s.readRefusal c rkey va len false = none → s.firstRead c = some (i, q) →
    q.missing ≠ [] → i < s.fab.nextRead → ∃ t r, exec (.rdmaReadRequest c rkey va len false) s = .next t ∧
      t.winReadAt s.fab.nextRead = some r ∧ r.conn = c ∧ r.va = va ∧ r.len = len ∧ t.winReadAt i = s.winReadAt i ∧ t.out.packets = s.out.packets) ∧
  (∀ (c rkey va len : Nat) (s : State), s.fabricOn = true → (s.conn c).up = true → (s.conn c).error = false →
    (s.conn c).frozen = false → s.holdsIngress = false → s.power.maint = none → s.readRefusal c rkey va len false = none →
    (∀ p ∈ pagesOfRange va len, s.cached (rkey % 16384) p = true) → s.fab.reads = [] → (s.conn c).queued = 0 →
    s.windowKey (s.window (rkey % 16384)).nsid (s.window (rkey % 16384)).tenant = false → s.hasFabric = true → s.roomForEvents → ∃ t,
    exec (.rdmaReadRequest c rkey va len false) s = .next t ∧ t.out.packets = s.out.packets ++ [.nakOperational c] ∧
      Recorded s t 0x0A09 srcRdma (s.window (rkey % 16384)).tenant (rkey % 16384) (va / windowPage) 3) ∧
  (∀ (c rkey va len cause : Nat) (w : Bool) (s : State), s.fabricOn = true → (s.conn c).up = true → (s.conn c).error = false →
    (s.conn c).frozen = false → s.holdsIngress = false → s.power.maint = none → s.readRefusal c rkey va len w = some cause →
    s.roomForEvents → ∃ t, exec (.rdmaReadRequest c rkey va len w) s = .next t ∧ t.out.packets = s.out.packets ++ [.nakAccess c] ∧
      Recorded s t 0x0A08 srcRdma (s.conn c).tenant (rkey % 4294967296) c cause ∧ t.fab = s.fab) ∧
  (∀ (c rkey va len : Nat) (s : State), s.fabricOn = true → (s.conn c).up = true → (s.conn c).error = false →
    (s.conn c).frozen = false → s.holdsIngress = false → s.power.maint = none → s.readRefusal c rkey va len false = none →
    (pagesOfRange va len).filter (fun p => !s.cached (rkey % 16384) p) ≠ [] → (s.window (rkey % 16384)).rnr = false → s.fab.reads = [] → ∃ t,
    exec (.rdmaReadRequest c rkey va len false) s = .next t ∧ t.out.packets = s.out.packets ∧
      (∃ r, t.winReadAt s.fab.nextRead = some r ∧ r.conn = c ∧ r.va = va ∧ r.len = len ∧ r.since = s.now) ∧
      (∀ p ∈ pagesOfRange va len, s.cached (rkey % 16384) p = false → t.fetching (rkey % 16384) p = true)) ∧
  (∀ (c rkey va len : Nat) (s : State), s.fabricOn = true → (s.conn c).up = true → (s.conn c).error = false →
    (s.conn c).frozen = false → s.holdsIngress = false → s.power.maint = none → s.readRefusal c rkey va len false = none →
    (pagesOfRange va len).filter (fun p => !s.cached (rkey % 16384) p) ≠ [] → (s.window (rkey % 16384)).rnr = true → (s.conn c).rnrRead = true →
    s.fab.reads = [] → ∃ t code, exec (.rdmaReadRequest c rkey va len false) s = .next t ∧
      t.out.packets = s.out.packets ++ [.rnrNak c code] ∧ t.fab.reads = []) ∧
  (∀ (c rkey va len : Nat) (s : State), s.fabricOn = true → (s.conn c).up = true → (s.conn c).error = false →
    (s.conn c).frozen = false → s.holdsIngress = false → s.power.maint = none → s.readRefusal c rkey va len false = none →
    (∀ p ∈ pagesOfRange va len, s.cached (rkey % 16384) p = true) → s.fab.reads = [] → s.cph.alarm = false →
    s.windowKey (s.window (rkey % 16384)).nsid (s.window (rkey % 16384)).tenant = true → ∃ t,
    exec (.rdmaReadRequest c rkey va len false) s = .next t ∧ t.out.packets = s.out.packets ++ [.readResponse c len
      (s.windowData (s.window (rkey % 16384)).nsid (s.window (rkey % 16384)).zone va len)]) ∧
  (∀ (c rkey va len : Nat) (w : Bool) (s : State), s.fabricOn = true → (s.conn c).up = true → (s.conn c).error = false →
    (s.conn c).frozen = false → s.holdsIngress = true → ∃ t, exec (.rdmaReadRequest c rkey va len w) s = .next t ∧
      t.fab.ingress = s.fab.ingress ++ [⟨c, rkey, va, len, w⟩] ∧ t.out.packets = s.out.packets) ∧
  (∀ (wid page : Nat) (ok : Bool) (s : State), (s.running = false ∨ s.fetching wid page = false) → exec (.windowFetchDone wid page ok) s = .next s) ∧
  (∀ (wid page : Nat) (s : State), s.running = true → s.fetching wid page = true → (s.window wid).up = true → s.cached wid page = false →
    s.cacheFits (s.window wid).tenant 1 = true → s.fab.reads = [] → ∃ t, exec (.windowFetchDone wid page true) s = .next t ∧
      t.cached wid page = true ∧ t.fab.cache.length = s.fab.cache.length + 1) ∧
  (∀ (wid page : Nat) (s : State), s.running = true → s.fetching wid page = true → (s.window wid).up = true → s.cached wid page = false →
    s.cacheFits (s.window wid).tenant 1 = false → s.fab.reads = [] → ∃ t, exec (.windowFetchDone wid page true) s = .next t ∧
      (s.evictable (s.window wid).tenant = none → t.fab.cache = s.fab.cache) ∧
      (∀ p, s.evictable (s.window wid).tenant = some p → t.cached wid page = true ∧ (p.wid ≠ wid ∨ p.page ≠ page → t.cached p.wid p.page = false))) ∧
  (∀ (h : Hdr) (wid page : Nat) (s : State), s.running = true → s.fetching wid page = true → (s.window wid).up = true →
    (s.window wid).preload = some h → s.muted h = false → s.cached wid page = false → s.cacheFits (s.window wid).tenant 1 = true → s.fab.reads = [] →
    s.windowPages ≤ (s.fab.cache.filter fun p => p.wid == wid).length + 1 → ∃ t, exec (.windowFetchDone wid page true) s = .next t ∧
      Posted s t h .success wid (s.rkeyOf wid) ∧ (t.window wid).preload = none ∧ (t.window wid).up = true ∧ t.cached wid page = true) ∧
  (∀ (wid page i : Nat) (r : WinRead) (s : State), s.running = true → s.fetching wid page = true → s.fab.reads = [(i, some r)] → r.wid = wid →
    r.missing = [page] → r.old = none → s.windowKey r.nsid r.tenant = true → ∃ t, exec (.windowFetchDone wid page true) s = .next t ∧
      .readResponse r.conn r.len (s.windowData r.nsid r.zone r.va r.len) ∈ t.out.packets ∧ t.winReadAt i = none) ∧
  (∀ (wid page i : Nat) (r : WinRead) (s : State), s.running = true → s.hasFabric = true → s.fetching wid page = true →
    s.fab.reads = [(i, some r)] → r.wid = wid → r.missing = [page] → s.roomForEvents → ∃ t,
    exec (.windowFetchDone wid page false) s = .next t ∧ .nakOperational r.conn ∈ t.out.packets ∧ t.winReadAt i = none ∧
      Recorded s t 0x0A09 srcRdma r.tenant wid page (if s.windowKey r.nsid r.tenant then 2 else 3)) ∧
  (∀ (i : Nat) (r : WinRead) (s : State), s.winReadAt i = some r → s.fabricOn = true → s.power.mode ≠ .lull → s.power.exit = none →
    s.roomForEvents → ∃ t, exec (.windowFaultTimeout i) s = .next t ∧ .nakOperational r.conn ∈ t.out.packets ∧
      Recorded s t 0x0A09 srcRdma r.tenant r.wid (r.missing.headD (r.va / windowPage)) 1) ∧
  (∀ (i : Nat) (s : State), (s.winReadAt i = none ∨ s.fabricOn = false ∨ s.power.mode = .lull ∨ s.power.exit ≠ none) →
    exec (.windowFaultTimeout i) s = .next s)

/-- Fabric connections (R326, R328-R331, R338, R344, R348, R366-R369): an RDMA CM request to a listen pair makes a connection of its protection domain, any other is rejected; a
disconnect ends the connection; a Connect makes the queue with its class, home region and controller, or is refused: for another subsystem or a full pin
table with event 0x0A0B and the connection closed, for want of contexts with event 0x0D07. A protection domain in use, or with another's service port, or beyond its
tenant's share, is not rewritten, nor an address while it is valid. -/
def Obligations.FabricConnectionsAndDomains : Prop :=
  (∀ (addr port svc reorder mtu d : Nat) (block sr rnr : Bool) (s : State), s.fabricOn = true → (s.port port).up = true →
    s.addrOn addr port = true → s.listenPd addr svc = some d → (s.connsWhere fun _ => true).length < 65536 → ∃ t,
    exec (.rdmaCmRequest addr port svc block sr rnr reorder mtu) s = .next t ∧ t.fab.nextConn = s.fab.nextConn + 1 ∧
      (t.conn s.fab.nextConn).up = true ∧ (t.conn s.fab.nextConn).pd = d ∧ (t.conn s.fab.nextConn).tenant = addr / 2 ∧
      (t.conn s.fab.nextConn).port = s.homeMember port ∧ (t.conn s.fab.nextConn).ctrl = none ∧
      (t.conn s.fab.nextConn).sr = (s.cfgBit .fabTransportCfg 0 31 && block && sr && decide (64 ≤ reorder ∧ reorder ≤ 1024)) ∧
      (∀ c, c ≠ s.fab.nextConn → t.conn c = s.conn c) ∧
      t.out.packets = s.out.packets ++ [.cmReply s.fab.nextConn (t.conn s.fab.nextConn).sr (t.conn s.fab.nextConn).rnrRead]) ∧
  (∀ (addr port svc reorder mtu : Nat) (block sr rnr : Bool) (s : State), s.fabricOn = true → (s.port port).up = true →
    (s.addrOn addr port = false ∨ s.listenPd addr svc = none ∨ 65536 ≤ (s.connsWhere fun _ => true).length) → ∃ t,
    exec (.rdmaCmRequest addr port svc block sr rnr reorder mtu) s = .next t ∧ t.fab = s.fab ∧
      t.out.packets = s.out.packets ++ [.cmReject port]) ∧
  (∀ (addr port svc reorder mtu : Nat) (block sr rnr : Bool) (s : State), (s.fabricOn = false ∨ (s.port port).up = false) →
    exec (.rdmaCmRequest addr port svc block sr rnr reorder mtu) s = .next s) ∧
  (∀ (c : Nat) (s : State), s.fabricOn = true → (s.conn c).up = true → ((s.conn c).ctrl = none ∨ (s.conn c).qid ≠ 0) → ∃ t,
    exec (.rdmaCmDisconnect c) s = .next t ∧ t.conn c = {} ∧ (∀ d, d ≠ c → t.conn d = s.conn d) ∧ t.ctrls = s.ctrls ∧ t.out = s.out ∧
      (∀ k, (s.conn c).ctrl = some k → ∀ p ∈ t.sqs, p.1 = queueKey k (s.conn c).qid → p.2.conn ≠ some c)) ∧
  (∀ (c k : Nat) (s : State), s.fabricOn = true → (s.conn c).up = true → (s.conn c).ctrl = some k → (s.conn c).qid = 0 → (s.ctrl k).drain = none →
    s.ctxIds (fun x => x.hdr.ctrl == k) = [] → ∃ t, exec (.rdmaCmDisconnect c) s = .next t ∧ t.conn c = {} ∧ (t.ctrl k).en = false ∧
      (t.ctrl k).drain = some s.now ∧ (∀ d, d ≠ c → t.conn d = s.conn d)) ∧
  (∀ (c : Nat) (s : State), (s.fabricOn = false ∨ (s.conn c).up = false) → exec (.rdmaCmDisconnect c) s = .next s) ∧
  (∀ (c qid depth cid cntlid k : Nat) (s : State), s.fabricOn = true → (s.conn c).up = true → (s.conn c).error = false → (s.conn c).ctrl = none →
    s.connectCtrl (s.conn c).tenant qid cntlid = some k → fabricDepthOk qid depth = true → s.contextsFit (s.conn c).tenant depth = true →
    s.poolFits 65536 (fun l => 4 * l.rqpFloor) (fun l => 4 * l.rqpShare) s.pairsUsed (s.conn c).tenant 1 = true →
    (s.fabricClass (s.conn c).tenant qid ≠ .dash ∨ s.pinnedConns < s.pinMax) → (s.ctrl k).drain = none → ∃ t,
    exec (.fabricsConnect c qid depth cid cntlid (s.tenant (s.conn c).tenant).nqn) s = .next t ∧
      Posted s t ⟨k, qid, cid, 0, false, false, none⟩ .success k 0 ∧ (t.conn c).ctrl = some k ∧ (t.conn c).qid = qid ∧
      ((t.conn c).pinned = true ↔ s.fabricClass (s.conn c).tenant qid = .dash) ∧ (t.sq (queueKey k qid)).depth = depth ∧
      (t.sq (queueKey k qid)).cls = s.fabricClass (s.conn c).tenant qid ∧ (t.sq (queueKey k qid)).region = s.cfg .fabPd (s.conn c).pd 30 29 ∧
      (qid = 0 → (t.ctrl k).present = true ∧ (t.ctrl k).tenant = (s.conn c).tenant)) ∧
  (∀ (c qid depth cid cntlid nqn : Nat) (s : State), s.fabricOn = true → (s.conn c).up = true → (s.conn c).error = false → (s.conn c).ctrl = none →
    nqn ≠ (s.tenant (s.conn c).tenant).nqn → (nqn ≠ discoveryNqn ∨ qid ≠ 0) → s.roomForEvents → ∃ t,
    exec (.fabricsConnect c qid depth cid cntlid nqn) s = .next t ∧ Posted s t ⟨65535, qid, cid, 0, false, false, none⟩ .connectInvalid 0 0 ∧
      (t.conn c).up = false ∧ Recorded s t 0x0A0B srcRdma (s.conn c).tenant 2 (s.conn c).pd 0 ∧ t.sqs = s.sqs ∧ t.ctrls = s.ctrls) ∧
  (∀ (c qid depth cid cntlid k : Nat) (s : State), s.fabricOn = true → (s.conn c).up = true → (s.conn c).error = false → (s.conn c).ctrl = none →
    s.connectCtrl (s.conn c).tenant qid cntlid = some k → fabricDepthOk qid depth = true → s.contextsFit (s.conn c).tenant depth = true →
    s.poolFits 65536 (fun l => 4 * l.rqpFloor) (fun l => 4 * l.rqpShare) s.pairsUsed (s.conn c).tenant 1 = true →
    s.fabricClass (s.conn c).tenant qid = .dash → s.pinMax ≤ s.pinnedConns → s.roomForEvents → ∃ t,
    exec (.fabricsConnect c qid depth cid cntlid (s.tenant (s.conn c).tenant).nqn) s = .next t ∧
      Posted s t ⟨65535, qid, cid, 0, false, false, none⟩ .connectInvalid 0 0 ∧ (t.conn c).up = false ∧
      Recorded s t 0x0A0B srcRdma (s.conn c).tenant 1 (s.conn c).pd 0 ∧ t.sqs = s.sqs ∧ t.ctrls = s.ctrls) ∧
  (∀ (c qid depth cid cntlid k : Nat) (s : State), s.fabricOn = true → (s.conn c).up = true → (s.conn c).error = false → (s.conn c).ctrl = none →
    s.connectCtrl (s.conn c).tenant qid cntlid = some k → fabricDepthOk qid depth = true → s.contextsFit (s.conn c).tenant depth = false →
    s.roomForEvents → ∃ t p3 p4,
    exec (.fabricsConnect c qid depth cid cntlid (s.tenant (s.conn c).tenant).nqn) s = .next t ∧
      Posted s t ⟨65535, qid, cid, 0, false, false, none⟩ .connectInvalid 0 0 ∧ t.fab = s.fab ∧ t.sqs = s.sqs ∧
      Recorded s t 0x0D07 srcTimekeeper (s.conn c).tenant depth p3 p4) ∧
  (∀ (c depth cid cntlid k : Nat) (s : State), s.fabricOn = true → (s.conn c).up = true → (s.conn c).error = false → (s.conn c).ctrl = none →
    s.connectCtrl (s.conn c).tenant 0 cntlid = some k → fabricDepthOk 0 depth = true → s.contextsFit (s.conn c).tenant depth = true →
    s.poolFits 65536 (fun l => 4 * l.rqpFloor) (fun l => 4 * l.rqpShare) s.pairsUsed (s.conn c).tenant 1 = true → (s.ctrl k).drain = none → ∃ t,
    exec (.fabricsConnect c 0 depth cid cntlid discoveryNqn) s = .next t ∧ Posted s t ⟨k, 0, cid, 0, false, false, none⟩ .success k 0 ∧
      (t.conn c).ctrl = some k ∧ (t.ctrl k).present = true ∧ (t.ctrl k).discovery = true) ∧
  (∀ (c qid depth cid cntlid : Nat) (s : State), s.fabricOn = true → (s.conn c).up = true → (s.conn c).error = false → (s.conn c).ctrl = none →
    (s.connectCtrl (s.conn c).tenant qid cntlid = none ∨ fabricDepthOk qid depth = false ∨ (s.contextsFit (s.conn c).tenant depth = true ∧
      s.poolFits 65536 (fun l => 4 * l.rqpFloor) (fun l => 4 * l.rqpShare) s.pairsUsed (s.conn c).tenant 1 = false)) → ∃ t,
    exec (.fabricsConnect c qid depth cid cntlid (s.tenant (s.conn c).tenant).nqn) s = .next t ∧
      Posted s t ⟨65535, qid, cid, 0, false, false, none⟩ .connectInvalid 0 0 ∧ t.fab = s.fab ∧ t.sqs = s.sqs ∧ t.ctrls = s.ctrls) ∧
  (∀ (c qid depth cid cntlid nqn : Nat) (s : State), (s.fabricOn = false ∨ (s.conn c).up = false ∨ (s.conn c).error = true ∨ (s.conn c).ctrl ≠ none) →
    exec (.fabricsConnect c qid depth cid cntlid nqn) s = .next s) ∧
  (∀ (d u : Nat) (v : BitVec 32) (s : State), s.running = true → s.hasFabric = true → d < 4096 → Tbl.look 0 s.fab.pdOwner d = u + 1 →
    s.pdInUse d = false → hasBit (mergeWord (s.cfgWord .fabPd d) pdMask v) 31 = true →
    (∀ e ∈ s.pdsOf u, e ≠ d → s.cfgBit .fabPd e 31 = true → s.cfg .fabPd e 15 0 ≠ bitsOf (mergeWord (s.cfgWord .fabPd d) pdMask v) 15 0) →
    ∃ t, exec (.fabPdWrite d v) s = .next t ∧ t.fab = s.fab ∧
      ((hasBit (s.cfgWord .fabPd d) 31 = true ∨ s.poolFits 4096 (·.pdFloor) (·.pdShare) s.pdsUsed u 1 = true) →
        t.cfgWord .fabPd d = mergeWord (s.cfgWord .fabPd d) pdMask v) ∧
      (hasBit (s.cfgWord .fabPd d) 31 = false → s.poolFits 4096 (·.pdFloor) (·.pdShare) s.pdsUsed u 1 = false → t = s)) ∧
  (∀ (d : Nat) (v : BitVec 32) (s : State), s.running = true → s.hasFabric = true → d < 4096 → Tbl.look 0 s.fab.pdOwner d = 0 → ∃ t,
    exec (.fabPdWrite d v) s = .next t ∧ t.fab = s.fab ∧ t.evr = s.evr ∧
      t.cfgWord .fabPd d = if hasBit (mergeWord (s.cfgWord .fabPd d) pdMask v) 31 then s.cfgWord .fabPd d else mergeWord (s.cfgWord .fabPd d) pdMask v) ∧
  (∀ (d a i : Nat) (v : BitVec 32) (s : State), ((s.running = false ∨ s.hasFabric = false ∨ 4096 ≤ d) → exec (.fabPdWrite d v) s = .next s) ∧
    ((s.running = false ∨ s.hasFabric = false ∨ 512 ≤ a ∨ 5 ≤ i) → exec (.fabAddrWrite a i v) s = .next s)) ∧
  (∀ (d u : Nat) (v : BitVec 32) (s : State), s.running = true → s.hasFabric = true → d < 4096 → Tbl.look 0 s.fab.pdOwner d = u + 1 →
    s.pdInUse d = true → s.roomForEvents → ∃ t, exec (.fabPdWrite d v) s = .next t ∧ t.regs = s.regs ∧ t.fab = s.fab ∧
      Recorded s t 0x0A0C srcRdma d u 1 0) ∧
  (∀ (d u e : Nat) (v : BitVec 32) (s : State), s.running = true → s.hasFabric = true → d < 4096 → Tbl.look 0 s.fab.pdOwner d = u + 1 →
    s.pdInUse d = false → hasBit (mergeWord (s.cfgWord .fabPd d) pdMask v) 31 = true → e ∈ s.pdsOf u → e ≠ d → s.cfgBit .fabPd e 31 = true →
    s.cfg .fabPd e 15 0 = bitsOf (mergeWord (s.cfgWord .fabPd d) pdMask v) 15 0 → s.roomForEvents → ∃ t, exec (.fabPdWrite d v) s = .next t ∧
      t.regs = s.regs ∧ Recorded s t 0x0A0C srcRdma d u 2 0) ∧
  (∀ (d u : Nat) (v : BitVec 32) (s : State), s.running = true → s.hasFabric = true → d < 4096 → Tbl.look 0 s.fab.pdOwner d = u + 1 →
    s.pdInUse d = false → hasBit (mergeWord (s.cfgWord .fabPd d) pdMask v) 31 = false → ∃ t, exec (.fabPdWrite d v) s = .next t ∧
      t.cfgWord .fabPd d = mergeWord (s.cfgWord .fabPd d) pdMask v ∧ t.fab = s.fab ∧ t.out = s.out) ∧
  (∀ (a : Nat) (v : BitVec 32) (s : State), s.running = true → s.hasFabric = true → a < 512 → ∃ t, exec (.fabAddrWrite a 4 v) s = .next t ∧
    t.cfgWord (.fabAddr 4) a = v &&& 0x80000000 ∧ t.fab = s.fab) ∧
  (∀ (a i : Nat) (v : BitVec 32) (s : State), s.running = true → s.hasFabric = true → a < 512 → i < 4 → s.cfgBit (.fabAddr 4) a 31 = false → ∃ t,
    exec (.fabAddrWrite a i v) s = .next t ∧ t.cfgWord (.fabAddr i) a = v ∧ t.fab = s.fab) ∧
  (∀ (a i : Nat) (v : BitVec 32) (s : State), s.running = true → s.hasFabric = true → a < 512 → i < 4 → s.cfgBit (.fabAddr 4) a 31 = true → ∃ t,
    exec (.fabAddrWrite a i v) s = .next t ∧ t.regs.cfg = s.regs.cfg ∧ t.regs.denied = satAdd 16 s.regs.denied 1)

/-- Ethernet ports (R323-R325, R344-R347): a port declared down is held, its connections move to the other member of the bond, with event 0x0A03, or are frozen; one that is up
again within its flap hold goes on; at the end of the hold the frozen ones are in error, with event 0x0A04; a member distributes once its partner
collects, and moved connections return to it; frames of no connection are answered or counted; PFC pauses a port. -/
def Obligations.EthernetPortsFailAndReturn : Prop :=
  (∀ (p : Nat) (f : PortFault) (s : State), s.fabricOn = true → (s.port p).up = true → s.bonded = true → (s.port (1 - p)).up = true → p < 2 →
    s.evr.queue.length < 223 → ∃ t, exec (.ethPortDown p f) s = .next t ∧ (t.port p).up = false ∧ (t.port p).hold = true ∧
      (t.port p).downs = satAdd 8 (s.port p).downs 1 ∧
      Recorded s t 0x0A02 (srcEthPort p) p (match f with | .alignment => 1 | .localFault => 2 | .remoteFault => 3) 0 0 ∧
      Recorded s t 0x0A03 (srcEthPort p) p (s.connsWhere fun c => c.carried == p && !c.error).length 10 0 ∧
      (∀ c, (s.conn c).up = true → (s.conn c).carried = p → (s.conn c).error = false → (t.conn c).carried = 1 - p)) ∧
  (∀ (p : Nat) (f : PortFault) (s : State), s.fabricOn = true → (s.port p).up = true → (s.bonded = false ∨ (s.port (1 - p)).up = false) →
    s.roomForEvents → ∃ t, exec (.ethPortDown p f) s = .next t ∧ (t.port p).up = false ∧ (t.port p).hold = true ∧
      Recorded s t 0x0A02 (srcEthPort p) p (match f with | .alignment => 1 | .localFault => 2 | .remoteFault => 3) 0 0 ∧
      (∀ c, (s.conn c).up = true → (s.conn c).carried = p → (s.conn c).error = false → (t.conn c).frozen = true) ∧ t.out = s.out) ∧
  (∀ (p : Nat) (f : PortFault) (s : State), (s.fabricOn = false ∨ (s.port p).up = false) → exec (.ethPortDown p f) s = .next s) ∧
  (∀ (p : Nat) (s : State), s.fabricOn = true → (s.port p).up = false → s.cfgBit .fabPortCfg p 31 = true → s.roomForEvents → ∃ t,
    exec (.ethPortUp p) s = .next t ∧ (t.port p).up = true ∧ (t.port p).hold = false ∧ (t.port p).dist = !s.bonded ∧
      Recorded s t 0x0A01 (srcEthPort p) p (s.cfg .fabPortCfg 0 27 26) 0 0 ∧
      (∀ c, (s.port p).hold = true → (s.conn c).up = true → (s.conn c).frozen = true → (s.conn c).carried = p → (t.conn c).frozen = false)) ∧
  (∀ (p : Nat) (s : State), (s.fabricOn = false ∨ (s.port p).up = true ∨ s.cfgBit .fabPortCfg p 31 = false) → exec (.ethPortUp p) s = .next s) ∧
  (∀ (p : Nat) (s : State), s.fabricOn = true → (s.port p).hold = true → (s.connsWhere fun c => c.frozen && c.carried == p) ≠ [] →
    (∀ c, (s.conn c).up = true → (s.conn c).qid ≠ 0) → s.roomForEvents → ∃ t, exec (.flapHoldExpiry p) s = .next t ∧ (t.port p).hold = false ∧
      (t.port p).left = s.bonded ∧ Recorded s t 0x0A04 (srcEthPort p) p (s.connsWhere fun c => c.frozen && c.carried == p).length 0 0 ∧
      (∀ c, (s.conn c).up = true → (s.conn c).frozen = true → (s.conn c).carried = p → (t.conn c).error = true) ∧ t.ctrls = s.ctrls) ∧
  (∀ (p : Nat) (s : State), s.fabricOn = true → (s.port p).hold = true → (s.connsWhere fun c => c.frozen && c.carried == p) = [] → ∃ t,
    exec (.flapHoldExpiry p) s = .next t ∧ (t.port p).hold = false ∧ (t.port p).left = s.bonded ∧ t.fab.conns = s.fab.conns ∧ t.evr = s.evr) ∧
  (∀ (p : Nat) (s : State), (s.fabricOn = false ∨ (s.port p).hold = false) → exec (.flapHoldExpiry p) s = .next s) ∧
  (∀ (p : Nat) (b : Bool) (s : State), (s.fabricOn = false ∨ s.bonded = false ∨ (s.port p).up = false ∨ (b = true ∧ (s.port p).dist = true)) →
    exec (.lacpduReceived p b) s = .next s) ∧
  (∀ (p c : Nat) (s : State), s.fabricOn = true → s.bonded = true → (s.port p).up = true → (s.port p).dist = false →
    (s.connsWhere fun c => c.port == p && c.carried != p && !c.error) = [c] → (s.conn c).up = true → (s.conn c).port = p →
    ((s.conn c).unacked ≠ [] ∨ (s.conn c).queued ≠ 0) → ∃ t, exec (.lacpduReceived p true) s = .next t ∧ (t.port p).dist = true ∧
      (t.conn c).carried = (s.conn c).carried ∧ (t.conn c).returning = true ∧ t.fab.rejoin = some (p, 1, s.now) ∧ t.evr = s.evr) ∧
  (∀ (p : Nat) (f : EthFrame) (s : State), (s.fabricOn = false ∨ (s.port p).up = false) → exec (.ethFrameReceived p f) s = .next s) ∧
  (∀ (p : Nat) (s : State), s.cfgBit .fabQosCfg 0 14 = true → exec (.ethFrameReceived p .bufferFull) s = .next s) ∧
  (∀ (p : Nat) (s : State), s.fabricOn = true → s.bonded = true → (s.port p).up = true → ∃ t, exec (.lacpduReceived p false) s = .next t ∧
    (t.port p).dist = false ∧ (t.port p).up = true ∧ t.fab.conns = s.fab.conns) ∧
  (∀ (p : Nat) (s : State), s.fabricOn = true → s.bonded = true → (s.port p).up = true → (s.port p).dist = false →
    (s.connsWhere fun c => c.port == p && c.carried != p && !c.error) = [] → ∃ t, exec (.lacpduReceived p true) s = .next t ∧
    (t.port p).dist = true ∧ (t.port p).left = false ∧ t.fab.conns = s.fab.conns ∧ t.evr = s.evr) ∧
  (∀ (p c : Nat) (s : State), s.fabricOn = true → s.bonded = true → (s.port p).up = true → (s.port p).dist = false →
    (s.connsWhere fun c => c.port == p && c.carried != p && !c.error) = [c] → (s.connsWhere fun c => c.returning) = [] →
    (s.conn c).up = true → (s.conn c).port = p → (s.conn c).unacked = [] → (s.conn c).queued = 0 → s.roomForEvents → ∃ t,
    exec (.lacpduReceived p true) s = .next t ∧ (t.port p).dist = true ∧ (t.conn c).carried = p ∧ (t.conn c).returning = false ∧
      Recorded s t 0x0A05 (srcEthPort p) p 1 0 0) ∧
  (∀ (p : Nat) (b : Bool) (s : State), (s.bonded = false ∨ (s.port p).up = false) → exec (.lacpduReceived p b) s = .next s) ∧
  (∀ (p : Nat) (s : State), s.fabricOn = true → (s.port p).up = true → ∃ t, exec (.ethFrameReceived p (.arp true)) s = .next t ∧
    exec (.ethFrameReceived p (.neighbour true)) s = .next t ∧ exec (.ethFrameReceived p (.echo true)) s = .next t ∧
    exec (.ethFrameReceived p .pause) s = .next s ∧ exec (.ethFrameReceived p (.arp false)) s = .next s ∧
    exec (.ethFrameReceived p (.neighbour false)) s = .next s ∧ exec (.ethFrameReceived p (.echo false)) s = .next s ∧
    t.out.packets = s.out.packets ++ [.answer p] ∧ t.fab = s.fab) ∧
  (∀ (p : Nat) (s : State), s.fabricOn = true → (s.port p).up = true → ∃ t, exec (.ethFrameReceived p .other) s = .next t ∧
    exec (.ethFrameReceived p .badIcrc) s = .next t ∧ (t.port p).drops = satAdd 16 (s.port p).drops 1 ∧ (t.port p).up = true ∧
    t.fab.conns = s.fab.conns ∧ t.out = s.out ∧ (s.cfgBit .fabQosCfg 0 14 = false → exec (.ethFrameReceived p .bufferFull) s = .next t)) ∧
  (∀ (p : Nat) (s : State), s.fabricOn = true → s.cfgBit .fabQosCfg 0 14 = true → ∃ t u,
    exec (.pfcFrameReceived p (s.cfg .fabQosCfg 0 17 15) true) s = .next t ∧ (t.port p).paused = true ∧ t.fab.conns = s.fab.conns ∧ t.out = s.out ∧
    exec (.pfcFrameReceived p (s.cfg .fabQosCfg 0 17 15) false) s = .next u ∧ (u.port p).paused = false ∧ u.out = s.out) ∧
  (∀ (p n : Nat) (b : Bool) (s : State), (s.fabricOn = false ∨ s.cfgBit .fabQosCfg 0 14 = false ∨ n ≠ s.cfg .fabQosCfg 0 17 15) →
    exec (.pfcFrameReceived p n b) s = .next s)

/-- RoCEv2 transport (R332, R334-R338, R340, R342): the segment expected is taken in order, and the end of a message acknowledged; one out of order is held, or refused with one NAK PSN
Sequence Error for each gap; a capsule that finds no receive buffer is a host error; acknowledged segments leave; NAK, SACK and the timers send the
missing ones again, a SACK of the gaps it shows; RTT samples are smoothed; the eighth ACK timeout puts the connection in error with event 0x0A06; a CNP lowers the rate at most once per RTT, and a marked packet
is answered with one at most in each interval. -/
def Obligations.TransportIsReliable : Prop :=
  (∀ (c : Nat) (s : State), s.fabricOn = true → (s.conn c).up = true → (s.conn c).error = false → (s.conn c).frozen = false →
    (s.conn c).ooo = [] → s.power.entry = none → s.power.exit = none → s.power.maint = none → s.power.mode ≠ .lull →
    (s.conn c).posted ≠ 0 → ∃ t, exec (.roceSendReceived c (s.conn c).epsn false true) s = .next t ∧
      (t.conn c).epsn = ((s.conn c).epsn + 1) % 2 ^ 24 ∧ (t.conn c).posted = (s.conn c).posted - 1 ∧
      t.out.packets = s.out.packets ++ [.ack c ((((s.conn c).epsn + 1) % 2 ^ 24 + 2 ^ 24 - 1) % 2 ^ 24)]) ∧
  (∀ (c : Nat) (s : State), s.fabricOn = true → (s.conn c).up = true → (s.conn c).error = false → (s.conn c).frozen = false →
    (s.conn c).ooo = [] → ∃ t, exec (.roceSendReceived c (s.conn c).epsn false false) s = .next t ∧
      (t.conn c).epsn = ((s.conn c).epsn + 1) % 2 ^ 24 ∧ (t.conn c).posted = (s.conn c).posted ∧ t.out = s.out) ∧
  (∀ (c : Nat) (s : State), s.fabricOn = true → (s.conn c).up = true → (s.conn c).error = false → (s.conn c).frozen = false →
    (s.conn c).posted = 0 → (s.conn c).qid ≠ 0 → ∃ t, exec (.roceSendReceived c (s.conn c).epsn false true) s = .next t ∧
      (t.conn c).error = true ∧ .nakInvalid c ∈ t.out.packets) ∧
  (∀ (c psn : Nat) (b : Bool) (s : State), s.fabricOn = true → (s.conn c).up = true → (s.conn c).error = false → (s.conn c).frozen = false →
    psn ≠ (s.conn c).epsn → psnBefore (s.conn c).epsn psn = true → (s.conn c).sr = false → (s.conn c).gapNak = false → ∃ t,
    exec (.roceSendReceived c psn false b) s = .next t ∧ (t.conn c).gapNak = true ∧ (t.conn c).epsn = (s.conn c).epsn ∧
      t.out.packets = s.out.packets ++ [.nakSeq c (s.conn c).epsn]) ∧
  (∀ (c psn : Nat) (b : Bool) (s : State), s.fabricOn = true → (s.conn c).up = true → (s.conn c).error = false → (s.conn c).frozen = false →
    psn ≠ (s.conn c).epsn → psnBefore (s.conn c).epsn psn = true → (s.conn c).sr = true → psnAfter (s.conn c).epsn psn ≤ deviceReorder →
    (s.conn c).ooo = [] → ∃ t m, exec (.roceSendReceived c psn false b) s = .next t ∧ (t.conn c).ooo = [psn] ∧
      (t.conn c).epsn = (s.conn c).epsn ∧ (t.conn c).sinceSack = 0 ∧
      t.out.packets = s.out.packets ++ [.sack c (((s.conn c).epsn + 2 ^ 24 - 1) % 2 ^ 24) m]) ∧
  (∀ (c : Nat) (psn : Nat) (b : Bool) (s : State), s.fabricOn = true → (s.conn c).up = true → (s.conn c).error = false →
    (s.conn c).frozen = false → psn ≠ (s.conn c).epsn → psnBefore (s.conn c).epsn psn = false → ∃ t,
    exec (.roceSendReceived c psn false b) s = .next t ∧ t.fab = s.fab ∧
      t.out.packets = s.out.packets ++ [.ack c (((s.conn c).epsn + 2 ^ 24 - 1) % 2 ^ 24)]) ∧
  (∀ (c : Nat) (s : State), s.fabricOn = true → (s.conn c).up = true → (s.conn c).error = false → (s.conn c).sr = true → (s.conn c).ooo ≠ [] → ∃ t,
    exec (.sackTimer c) s = .next t ∧ (t.conn c).sinceSack = 0 ∧ (t.conn c).ooo = (s.conn c).ooo ∧
      t.out.packets = s.out.packets ++ [.sack c (((s.conn c).epsn + 2 ^ 24 - 1) % 2 ^ 24) (s.conn c).bitmap]) ∧
  (∀ (c : Nat) (s : State), (s.fabricOn = false ∨ (s.conn c).up = false ∨ (s.conn c).error = true ∨ (s.conn c).sr = false ∨ (s.conn c).ooo = []) →
    exec (.sackTimer c) s = .next s) ∧
  (∀ (c psn n : Nat) (b : Bool) (s : State), s.fabricOn = true → (s.conn c).up = true → (s.conn c).error = false → (s.conn c).frozen = false →
    psn ≠ (s.conn c).epsn → psnBefore (s.conn c).epsn psn = true → (s.conn c).sr = true → psnAfter (s.conn c).epsn psn ≤ deviceReorder →
    (s.conn c).ooo ≠ [] → (s.conn c).sinceSack = n → ∃ t, exec (.roceSendReceived c psn false b) s = .next t ∧
      (∀ p ∈ (s.conn c).ooo, p ∈ (t.conn c).ooo) ∧ psn ∈ (t.conn c).ooo ∧ (t.conn c).epsn = (s.conn c).epsn ∧
      (n < 3 → (t.conn c).sinceSack = n + 1 ∧ t.out = s.out) ∧
      (3 ≤ n → (t.conn c).sinceSack = 0 ∧ ∃ m, t.out.packets = s.out.packets ++ [.sack c (((s.conn c).epsn + 2 ^ 24 - 1) % 2 ^ 24) m])) ∧
  (∀ (c psn : Nat) (b : Bool) (s : State), s.fabricOn = true → (s.conn c).up = true → (s.conn c).error = false → (s.conn c).frozen = false →
    psn ≠ (s.conn c).epsn → psnBefore (s.conn c).epsn psn = true →
    ((s.conn c).sr = true ∧ deviceReorder < psnAfter (s.conn c).epsn psn ∨ (s.conn c).sr = false ∧ (s.conn c).gapNak = true) →
    exec (.roceSendReceived c psn false b) s = .next s) ∧
  (∀ (c : Nat) (last : Bool) (s : State), s.fabricOn = true → (s.conn c).up = true → (s.conn c).error = false → (s.conn c).frozen = false →
    s.power.entry = none → s.power.exit = none → s.power.maint = none → s.power.mode ≠ .lull → (s.conn c).posted ≠ 0 →
    (s.conn c).ooo = [((s.conn c).epsn + 1) % 2 ^ 24] → ∃ t, exec (.roceSendReceived c (s.conn c).epsn false last) s = .next t ∧
      (t.conn c).epsn = ((s.conn c).epsn + 2) % 2 ^ 24 ∧ (t.conn c).ooo = [] ∧
      t.out.packets = s.out.packets ++ [.ack c ((((s.conn c).epsn + 2) % 2 ^ 24 + 2 ^ 24 - 1) % 2 ^ 24)]) ∧
  (∀ (c : Nat) (s : State), s.fabricOn = true → (s.conn c).up = true → (s.conn c).error = false → (s.conn c).frozen = false → (s.conn c).ooo = [] →
    s.cfgBit .fabQosCfg 0 30 = true → (∀ t0, (s.conn c).cnpAt = some t0 → t0 + 1000 * s.cfg .fabQosCfg 0 13 0 ≤ s.now) → ∃ t,
    exec (.roceSendReceived c (s.conn c).epsn true false) s = .next t ∧ (t.conn c).cnpAt = some s.now ∧ t.out.packets = s.out.packets ++ [.cnp c]) ∧
  (∀ (c psn us : Nat) (s : State), s.fabricOn = true → (s.conn c).up = true → (s.conn c).error = false → (s.conn c).frozen = false →
    (s.conn c).unacked = [] → ∃ t, exec (.roceAckReceived c psn [] (some us)) s = .next t ∧
      (t.conn c).srtt8 = (if (s.conn c).srtt8 = 0 then 8 * us else (s.conn c).srtt8 - (s.conn c).srtt8 / 8 + us) ∧
      (t.conn c).bins = binSample (s.conn c).bins s.now us ∧ (s.cfgBit .fabCcCfg 0 31 = false → (t.conn c).rate = (s.conn c).rate) ∧ t.out = s.out) ∧
  (∀ (c psn i : Nat) (sack : List Nat) (s : State), s.fabricOn = true → (s.conn c).up = true → (s.conn c).error = false → (s.conn c).frozen = false →
    (s.conn c).sr = true → i ∈ sack → (∀ u ∈ (s.conn c).unacked, psnBefore psn u.1 = true) → (s.conn c).retries = 0 → ∃ t,
    exec (.roceAckReceived c psn sack none) s = .next t ∧
      t.out.packets = s.out.packets ++ ((s.conn c).gaps psn s.now sack).map fun p => .resend c p) ∧
  (∀ (c psn i : Nat) (sack : List Nat) (o : Option Nat) (s : State), i ∈ sack → (s.conn c).retries ≠ 0 → psnBefore psn (s.conn c).sackFloor = true →
    exec (.roceAckReceived c psn sack o) s = .next s) ∧
  (∀ (c psn : Nat) (s : State), s.fabricOn = true → (s.conn c).up = true → (s.conn c).error = false → (s.conn c).frozen = false → ∃ t,
    exec (.roceAckReceived c psn [] none) s = .next t ∧ (∀ u ∈ (s.conn c).unacked, psnBefore psn u.1 = true → u ∈ (t.conn c).unacked) ∧
      ((s.conn c).queued = 0 → ∀ u ∈ (t.conn c).unacked, u ∈ (s.conn c).unacked ∧
        (psnBefore psn u.1 = true ∨ ((s.conn c).unacked.filter fun v => psnBefore psn v.1).length = (s.conn c).unacked.length)) ∧
      t.out = s.out) ∧
  (∀ (c psn : Nat) (s : State), s.fabricOn = true → (s.conn c).up = true → (s.conn c).error = false → (s.conn c).frozen = false →
    (s.conn c).queued = 0 → (s.conn c).returning = false → (∀ u ∈ (s.conn c).unacked, psnBefore ((psn + 2 ^ 24 - 1) % 2 ^ 24) u.1 = true) →
    ((s.conn c).unacked.filter fun u => !psnBefore u.1 psn) = (s.conn c).unacked → ∃ t, exec (.roceNakReceived c psn) s = .next t ∧
      t.out.packets = s.out.packets ++ (s.conn c).unacked.map fun u => .resend c u.1) ∧
  (∀ (c : Nat) (u : Nat × Nat × Nat × Bool) (us : List (Nat × Nat × Nat × Bool)) (s : State), s.fabricOn = true → (s.conn c).up = true →
    (s.conn c).error = false → (s.conn c).frozen = false → (s.conn c).sr = true → (s.conn c).unacked = u :: us → s.now < u.2.1 + 1000000 → ∃ t,
    exec (.srResendTimer c) s = .next t ∧ t.out.packets = s.out.packets ++ [.resend c u.1]) ∧
  (∀ (c : Nat) (s : State), ((s.conn c).sr = false ∨ (s.conn c).unacked = [] ∨ (∀ u ∈ (s.conn c).unacked, u.2.1 + 1000000 ≤ s.now)) →
    exec (.srResendTimer c) s = .next s) ∧
  (∀ (c : Nat) (u : Nat × Nat × Nat × Bool) (us : List (Nat × Nat × Nat × Bool)) (s : State), s.fabricOn = true → (s.conn c).up = true →
    (s.conn c).error = false → (s.conn c).frozen = false → (s.conn c).unacked = u :: us → (s.conn c).retries < 7 → ∃ t,
    exec (.ackTimeout c) s = .next t ∧ (t.conn c).retries = (s.conn c).retries + 1 ∧ (t.conn c).error = false ∧
      t.out.packets = s.out.packets ++ (u :: us).map fun u => .resend c u.1) ∧
  (∀ (c : Nat) (u : Nat × Nat × Nat × Bool) (us : List (Nat × Nat × Nat × Bool)) (s : State), s.fabricOn = true → (s.conn c).up = true →
    (s.conn c).error = false → (s.conn c).frozen = false → (s.conn c).unacked = u :: us → 7 ≤ (s.conn c).retries → (s.conn c).qid ≠ 0 →
    s.roomForEvents → ∃ t, exec (.ackTimeout c) s = .next t ∧ (t.conn c).error = true ∧ (t.conn c).unacked = [] ∧ t.out = s.out ∧
      Recorded s t 0x0A06 srcRdma (s.conn c).tenant c u.1 0) ∧
  (∀ (c : Nat) (s : State), (s.conn c).unacked = [] → exec (.ackTimeout c) s = .next s) ∧
  (∀ (c : Nat) (s : State), s.fabricOn = true → (s.conn c).up = true → (s.conn c).error = false → (s.conn c).frozen = false → ∃ t,
    exec (.rnrTimerExpiry c) s = .next t ∧ t.out.packets = s.out.packets ++ (s.conn c).unacked.map fun u => .resend c u.1) ∧
  (∀ (c : Nat) (s : State), s.fabricOn = true → (s.conn c).up = true → (s.conn c).error = false → s.cfgBit .fabCcCfg 0 31 = true →
    (s.conn c).lastDec + 1000 * (s.conn c).srtt ≤ s.now → ∃ t, exec (.cnpReceived c) s = .next t ∧
      (t.conn c).rate = s.clampRate ((s.conn c).rate * (256 - s.cfg .fabCcRate 0 7 0) / 256) ∧ (t.conn c).lastDec = s.now ∧ t.out = s.out) ∧
  (∀ (c : Nat) (s : State), (s.fabricOn = false ∨ (s.conn c).up = false ∨ (s.conn c).error = true ∨ s.cfgBit .fabCcCfg 0 31 = false ∨
    s.now < (s.conn c).lastDec + 1000 * (s.conn c).srtt) → exec (.cnpReceived c) s = .next s) ∧
  (∀ (c psn i : Nat) (b d : Bool) (l : List Nat) (o : Option Nat) (s : State), (s.fabricOn = false ∨ (s.conn c).up = false ∨ (s.conn c).error = true ∨ (s.conn c).frozen = true) →
    exec (.srResendTimer c) s = .next s ∧ exec (.ackTimeout c) s = .next s ∧ exec (.roceSendReceived c psn b d) s = .next s ∧ exec (.roceAckReceived c psn l o) s = .next s ∧ exec (.roceNakReceived c psn) s = .next s ∧
    exec (.rnrTimerExpiry c) s = .next s ∧ exec (.rdmaReadRequest c psn i i b) s = .next s)

/-- DRAM channels (R446, R447, R452-R459): refresh ticks and RFM cycle the banks and lower their counters; a visit in Lull wakes the channels and ends in self-refresh; an
uncorrectable burst freezes a mirrored channel, which drops its cached data, retires one that trains, and on the last one is handled by its class: the
chip resets, the connection ends, the Calm image is lost, or one page is; a thaw or a planned retrain
starts training, which ends ACTIVE with event 0x0506 or RETIRED with event 0x0507. -/
def Obligations.DramChannelsRefreshFreezeAndRetrain : Prop :=
  (∀ (c sub rank : Nat) (s : State), s.running = true → (s.chan c).st = .active → s.trefiWanted c = (s.chan c).trefi → s.roomForEvents →
    Tbl.look 0 (s.chan c).nextBank (sub % 2 * 2 + rank % 2) < 4 → ∃ t, exec (.dramRefreshTick c sub rank) s = .next t ∧
      Tbl.look 0 (t.chan c).nextBank (sub % 2 * 2 + rank % 2) = (Tbl.look 0 (s.chan c).nextBank (sub % 2 * 2 + rank % 2) + 1) % 4 ∧
      (∀ g, g < 8 → Tbl.look 0 (t.chan c).raa (raaKey (sub % 2) (rank % 2) (4 * g + Tbl.look 0 (s.chan c).nextBank (sub % 2 * 2 + rank % 2))) =
        Tbl.look 0 (s.chan c).raa (raaKey (sub % 2) (rank % 2) (4 * g + Tbl.look 0 (s.chan c).nextBank (sub % 2 * 2 + rank % 2))) -
          (s.chan c).raaimt) ∧ (t.chan c).st = .active ∧ (∀ d, d ≠ c → t.chan d = s.chan d) ∧ t.evr = s.evr ∧ t.out = s.out) ∧
  (∀ (c sub rank : Nat) (s : State), s.running = true → (s.chan c).st = .active → s.trefiWanted c ≠ (s.chan c).trefi → s.roomForEvents → ∃ t,
    exec (.dramRefreshTick c sub rank) s = .next t ∧ (t.chan c).trefi = s.trefiWanted c ∧
      Recorded s t 0x0509 (srcDram c) (subParam 0 (s.trefiWanted c)) s.aon.band (s.chan c).mr4 0) ∧
  (∀ (c sub rank bank : Nat) (s : State), s.running = true → (s.chan c).st = .active → bank < 32 → ∃ t,
    exec (.dramRaaThreshold c sub rank bank false) s = .next t ∧ Tbl.look 0 (t.chan c).raa (raaKey (sub % 2) (rank % 2) bank) = 0 ∧
      (t.chan c).forced = (s.chan c).forced ∧ t.evr = s.evr) ∧
  (∀ (c sub rank bank : Nat) (s : State), s.running = true → (s.chan c).st = .active → (s.chan c).raaimt ≠ 0 →
    (s.chan c).raaimt ≤ Tbl.look 0 (s.chan c).raa (raaKey (sub % 2) (rank % 2) bank) → s.roomForEvents → ∃ t,
    exec (.dramRaaThreshold c sub rank bank true) s = .next t ∧ (t.chan c).forced = satAdd 14 (s.chan c).forced 1 ∧
      Recorded s t 0x050B (srcDram c) (subParam (sub % 2) bank) rank ((s.chan c).raaimt + 8) 0) ∧
  (∀ (c sub rank bank : Nat) (s : State), s.running = true → (s.chan c).st = .active →
    (Tbl.look 0 (s.chan c).raa (raaKey (sub % 2) (rank % 2) bank) < (s.chan c).raaimt ∨ (s.chan c).raaimt = 0) → ∃ t,
    exec (.dramRaaThreshold c sub rank bank true) s = .next t ∧
      Tbl.look 0 (t.chan c).raa (raaKey (sub % 2) (rank % 2) bank) = (s.chan c).raaimt ∧ (t.chan c).forced = (s.chan c).forced ∧
      (t.chan c).hist = (s.chan c).hist ∧ t.evr = s.evr) ∧
  (∀ (c code : Nat) (s : State), s.running = true → (s.chan c).st = .active → ∃ t, exec (.dramMr4Change c code) s = .next t ∧
    (t.chan c).mr4 = min 2 code ∧ (t.chan c).trefi = (s.chan c).trefi ∧ t.evr = s.evr) ∧
  (∀ (c sub rank bank : Nat) (b : Bool) (s : State), (s.running = false ∨ (s.chan c).st ≠ .active) → exec (.dramRefreshTick c sub rank) s = .next s ∧
    exec (.dramRaaThreshold c sub rank bank b) s = .next s ∧ exec (.dramMr4Change c bank) s = .next s) ∧
  (∀ s : State, s.running = true → s.power.mode = .lull → s.power.exit = none → s.mem.visit = none → ∃ t, exec .dramVisit s = .next t ∧
    t.mem.visit = some s.now ∧ t.power = s.power ∧ (∀ c, c < 2 → (s.chan c).st = .selfRefresh → (t.chan c).st = .active ∧
      (t.chan c).visits = satAdd 8 (s.chan c).visits 1)) ∧
  (∀ s : State, (s.running = false ∨ s.power.mode ≠ .lull ∨ s.mem.visit ≠ none ∨ s.power.exit ≠ none) → exec .dramVisit s = .next s) ∧
  (∀ (v : Nat) (s : State), s.mem.visit = some v → s.power.mode = .lull → s.evr.queue.length < 223 → ∃ t, exec .dramVisitIdleExpiry s = .next t ∧
    t.mem.visit = none ∧ t.power = s.power ∧ (∀ c, c < 2 → (s.chan c).st = .active → (t.chan c).st = .selfRefresh ∧
      ∃ n, Recorded s t 0x050A (srcDram c) n (usSince s.now v) 0 0)) ∧
  (∀ s : State, (s.mem.visit = none ∨ s.power.mode ≠ .lull) → exec .dramVisitIdleExpiry s = .next s) ∧
  (∀ (c sub cls line conn : Nat) (src : BitVec 16) (s : State), (s.running = false ∨ (s.chan c).st = .frozen ∨ (s.chan c).st = .retired ∨
    (s.chan c).st = .selfRefresh) → exec (.dramUncorrectableBurst c sub cls line src conn) s = .next s) ∧
  (∀ (c sub cls line conn k : Nat) (h : Hdr) (last : Bool) (x : Image) (src : BitVec 16) (s : State), s.running = true → (s.chan c).st = .active →
    (s.chan (1 - c)).st = .active → (∀ u, (s.tenant u).logging = false) → s.boot.staging = [(h, k, last, x)] → s.boot.bundles = [] → c < 2 →
    s.muted h = false → (s.ctrl 0).aers = [] → ∃ t, exec (.dramUncorrectableBurst c sub cls line src conn) s = .next t ∧ (t.chan c).st = .frozen ∧
      t.boot.staging = [] ∧ Posted s t h .internalError 0 0) ∧
  (∀ (c sub line cls conn : Nat) (src : BitVec 16) (s : State), s.running = true → (s.chan c).st = .active → (s.chan (1 - c)).st ≠ .active → c < 2 →
    cls ∈ [1, 2, 3, 5] → ∃ t, exec (.dramUncorrectableBurst c sub cls line src conn) s = .next t ∧ (s.dirtyBytes = 0 → ChipWasReset s t) ∧
      (s.dirtyBytes ≠ 0 → t.power.inReset = true ∨ ∃ l, t.power.landing = some l ∧ l.cause = .chipReset)) ∧
  (∀ (c sub line conn : Nat) (src : BitVec 16) (s : State), s.running = true → (s.chan c).st = .active → (s.chan (1 - c)).st ≠ .active → c < 2 →
    s.roomForEvents → ∃ t, exec (.dramUncorrectableBurst c sub 6 line src conn) s = .next t ∧ (t.chan c).st = .active ∧
      t.store.calmImage = s.store.calmImage.map (fun _ => false) ∧ Recorded s t 0x0508 (srcDram c) (subParam sub 6) line 3 0 ∧ t.out = s.out) ∧
  (∀ (c sub line conn u : Nat) (src : BitVec 16) (s : State), s.running = true → (s.chan c).st = .active → (s.chan (1 - c)).st ≠ .active → c < 2 →
    Tbl.numbers (fun (t : Tenant) => t.logging && !t.overflow) s.tenants = [u] → s.roomForEvents → ∃ t,
    exec (.dramUncorrectableBurst c sub 9 line src conn) s = .next t ∧ (t.chan c).st = .active ∧ (t.tenant u).overflow = true ∧
      Recorded s t 0x0B08 s.srcStarters u (s.tenant u).log.length 2 0) ∧
  (∀ (c sub cls line conn : Nat) (src : BitVec 16) (s : State), s.running = true → (s.chan c).st = .active → (s.chan (1 - c)).st = .active →
    (∀ u, (s.tenant u).logging = false) → s.bulkHeld = 0 → s.roomForEvents → c < 2 → ∃ t,
    exec (.dramUncorrectableBurst c sub cls line src conn) s = .next t ∧ (t.chan c).st = .frozen ∧ (t.chan c).frozen = true ∧
      (t.chan c).frzLine = line ∧ (t.chan c).ue = satAdd 8 (s.chan c).ue 1 ∧ (t.chan c).freezes = satAdd 8 (s.chan c).freezes 1 ∧
      t.chan (1 - c) = s.chan (1 - c) ∧ (∀ p ∈ t.fab.cache, p.channel ≠ c) ∧ t.flt.degraded = true ∧
      Recorded s t 0x0504 (srcDram c) (subParam sub cls) line src.toNat 0) ∧
  (∀ (c sub cls line conn : Nat) (src : BitVec 16) (s : State), s.running = true →
    ((s.chan c).st = .retraining ∨ (s.chan c).st = .resync) → c < 2 → (s.chan (1 - c)).st ≠ .retired → s.unitsServe = true → s.lanesServe = true →
    s.roomForEvents → ∃ t,
    exec (.dramUncorrectableBurst c sub cls line src conn) s = .next t ∧ (t.chan c).st = .retired ∧
      Recorded s t 0x0507 (srcDram c) (subParam 0 2) 0 0 0) ∧
  (∀ (c sub line conn : Nat) (src : BitVec 16) (s : State), s.running = true → (s.chan c).st = .active → (s.chan (1 - c)).st ≠ .active → c < 2 →
    (s.conn conn).up = true → (s.conn conn).error = false → (s.conn conn).qid ≠ 0 → s.roomForEvents → ∃ t,
    exec (.dramUncorrectableBurst c sub 4 line src conn) s = .next t ∧ (t.chan c).st = .active ∧ (t.conn conn).error = true ∧
      Recorded s t 0x0508 (srcDram c) (subParam sub 4) line 2 0) ∧
  (∀ (c sub line conn : Nat) (src : BitVec 16) (s : State), s.running = true → (s.chan c).st = .active → (s.chan (1 - c)).st ≠ .active → c < 2 →
    ∃ t, exec (.dramUncorrectableBurst c sub 8 line src conn) s = .next t ∧ (t.chan c).st = .active ∧
      t.fab.cache.length = s.fab.cache.length - 1 ∧ t.evr = s.evr ∧ t.out = s.out) ∧
  (∀ (c : Nat) (s : State), s.running = true → (s.chan c).st = .frozen → s.roomForEvents → ∃ t, exec (.dramThaw c) s = .next t ∧
    (t.chan c).st = .retraining ∧ (t.chan c).frozen = false ∧ (t.chan c).planned = false ∧ t.broker.knows (.dram c) = true ∧
      Recorded s t 0x0505 (srcDram c) (subParam 0 1) 0 0 0) ∧
  (∀ (c : Nat) (s : State), (s.running = false ∨ (s.chan c).st ≠ .frozen) → exec (.dramThaw c) s = .next s) ∧
  (∀ (c : Nat) (s : State), s.running = true → (s.chan c).st = .active → (s.chan (1 - c)).st = .active → c < 2 →
    (∀ u, (s.tenant u).logging = false) → s.bulkHeld = 0 → s.roomForEvents → ∃ t, exec (.dramPlannedRetrain c) s = .next t ∧
    (t.chan c).st = .retraining ∧ (t.chan c).planned = true ∧ (∀ p ∈ t.fab.cache, p.channel ≠ c) ∧
      Recorded s t 0x0505 (srcDram c) (subParam 0 2) 0 0 0) ∧
  (∀ (c : Nat) (s : State), (s.running = false ∨ (s.chan c).st ≠ .active ∨ (s.chan (1 - c)).st ≠ .active) →
    exec (.dramPlannedRetrain c) s = .next s) ∧
  (∀ (c : Nat) (s : State), s.running = true → (s.chan c).st = .retraining → s.broker.holds (.dram c) = true → s.roomForEvents → ∃ t,
    exec (.dramResyncDone c true) s = .next t ∧ (t.chan c).st = .active ∧ t.broker.holds (.dram c) = false ∧
      Recorded s t 0x0506 (srcDram c) (subParam 0 ((s.now - (s.chan c).since) / 1000000)) s.mirroredMib 0 0) ∧
  (∀ (c : Nat) (s : State), s.running = true → (s.chan c).st = .retraining → s.broker.holds (.dram c) = true → c < 2 →
    (s.chan (1 - c)).st ≠ .retired → s.unitsServe = true → s.lanesServe = true → s.roomForEvents → ∃ t, exec (.dramResyncDone c false) s = .next t ∧ (t.chan c).st = .retired ∧ Recorded s t 0x0507 (srcDram c) (subParam 0 1) 0 0 0) ∧
  (∀ (c : Nat) (s : State), s.running = true → (s.chan c).st = .retraining → s.broker.holds (.dram c) = true → ∃ t,
    exec (.batonReturn (.dram c)) s = .next t ∧ (t.chan c).st = .resync ∧ t.broker.holds (.dram c) = false ∧ t.evr = s.evr) ∧
  (∀ (c : Nat) (s : State), s.running = true → (s.chan c).st = .resync → s.roomForEvents → ∃ t, exec (.dramResyncDone c true) s = .next t ∧
    (t.chan c).st = .active ∧ Recorded s t 0x0506 (srcDram c) (subParam 0 ((s.now - (s.chan c).since) / 1000000)) s.mirroredMib 0 0) ∧
  (∀ (c : Nat) (s : State), s.running = true → (s.chan c).st = .resync → c < 2 → (s.chan (1 - c)).st ≠ .retired → s.unitsServe = true →
    s.lanesServe = true → s.roomForEvents → ∃ t, exec (.dramResyncDone c false) s = .next t ∧ (t.chan c).st = .retired ∧
      Recorded s t 0x0507 (srcDram c) (subParam 0 2) 0 0 0) ∧
  (∀ (c : Nat) (s : State), s.running = true → (s.chan c).st = .resync → c < 2 → (s.chan (1 - c)).st = .retired → s.unitsServe = true →
    s.lanesServe = true → s.flt.stop = 0 → s.power.mode = .stride → s.stepComplete 12 = true → ∃ t,
    exec (.dramResyncDone c false) s = .next t ∧ (t.chan c).st = .retired ∧ t.flt.stop = 3) ∧
  (∀ (c : Nat) (ok : Bool) (s : State), (s.running = false ∨ ((s.chan c).st ≠ .resync ∧
    ((s.chan c).st ≠ .retraining ∨ s.broker.holds (.dram c) = false))) → exec (.dramResyncDone c ok) s = .next s)

/-- On-chip memories and buffers (R39, R46, R461, R463-R466, R469-R471): an uncorrectable word is counted, recorded and handled as its row says; a fabric word that fails its
CRC is repeated, and failing again fails its transfer with event 0x0608; a request without a target, to one out of service, outside its window or narrower than a staging word is
a bus error with event 0x0609, and writes nothing; a worn row moves to a spare while one is
left; only its owner, with the generation in force, gives or frees a buffer, and any other attempt is refused and counted, until its core is failed; the audit frees a buffer whose
owner is out of service or whose tag is released, and reports one held too long. -/
def Obligations.OnChipMemoriesAndBuffers : Prop :=
  (∀ (u kind a : Nat) (b : Bool) (s : State), s.running = true → s.evr.queue.length < 223 → ∃ t,
    exec (.onchipUncorrectable (.tenantState u kind) a b) s = .next t ∧ t.mem.eccUe = satAdd 8 s.mem.eccUe 1 ∧
      (∀ c, (s.ctrl c).en = true → s.tenantOf c = u → (t.ctrl c).cfs = true) ∧
      Recorded s t 0x0604 s.srcStarters (a % 2 ^ 24) (if b then 2 else 1) 8 0 ∧ Recorded s t 0x0B0C s.srcStarters u s.srcStarters kind 0) ∧
  (∀ (k w n z o a : Nat) (b : Bool) (s : State), s.running = true → s.roomForEvents → ∃ t,
    exec (.onchipUncorrectable (.staging k w true n z o) a b) s = .next t ∧ (o, 1) ∈ (t.zone (zoneKey n z)).lost ∧
      (t.zone (zoneKey n z)).lostData = true ∧ t.mem.eccUe = satAdd 8 s.mem.eccUe 1 ∧
      Recorded s t 0x0604 (srcStaging k) (a % 2 ^ 24) (if b then 2 else 1) 5 0) ∧
  (∀ (k w n z o a : Nat) (b : Bool) (s : State), s.running = true → s.evr.queue.length < 223 → ∃ t,
    exec (.onchipUncorrectable (.staging k w false n z o) a b) s = .next t ∧ t.zones = s.zones ∧
      Recorded s t 0x0604 (srcStaging k) (a % 2 ^ 24) (if b then 2 else 1) 5 0 ∧
      Recorded s t 0x0605 (srcStaging k) (w % 2 ^ 24) (partnerBlock k) 0 0) ∧
  (∀ (src : BitVec 16) (sub mac row : Nat) (s : State), s.running = true → Tbl.look 0 s.mem.rowsMoved mac < s.sparesAtTest mac → s.roomForEvents → ∃ t,
    exec (.rowCeLimit ⟨src, sub⟩ mac row) s = .next t ∧ Tbl.look 0 t.mem.rowsMoved mac = Tbl.look 0 s.mem.rowsMoved mac + 1 ∧
      t.mem.moves = satAdd 8 s.mem.moves 1 ∧
      t.mem.eccCe = satAdd 16 s.mem.eccCe (max 1 (s.cfg .eccCfg 0 15 8)) ∧
      Recorded s t 0x0606 src.toNat (subParam sub mac) row (s.sparesAtTest mac - Tbl.look 0 s.mem.rowsMoved mac - 1) 0) ∧
  (∀ (src : BitVec 16) (sub mac row : Nat) (s : State), s.running = true → s.sparesAtTest mac ≤ Tbl.look 0 s.mem.rowsMoved mac → s.roomForEvents → ∃ t,
    exec (.rowCeLimit ⟨src, sub⟩ mac row) s = .next t ∧ t.mem.rowsMoved = s.mem.rowsMoved ∧ t.mem.moves = s.mem.moves ∧
      Recorded s t 0x0607 src.toNat (subParam sub mac) row 0 0) ∧
  (∀ (m : ChipMemory) (a : Nat) (b : Bool) (s : State), s.running = true → s.roomForEvents → (∀ l g r, m ≠ .fabricWord l g r) →
    (∀ x y o n, m ≠ .request x y o n) → ∃ t, exec (.onchipUncorrectable m a b) s = .next t ∧
      t.mem.eccUe = satAdd 8 s.mem.eccUe 1 ∧ Recorded s t 0x0604 (ChipMemory.place s m).1 (subParam (ChipMemory.place s m).2.2 a) (if b then 2 else 1) (ChipMemory.place s m).2.1 0) ∧
  (∀ (a n : Nat) (b : Bool) (s : State), s.running = true → s.aon.trip = false → ∃ t u v w,
    exec (.onchipUncorrectable (.marshal n) a b) s = .next t ∧ (t.blk n).marshalOut = true ∧
    exec (.onchipUncorrectable (.keyTable n) a b) s = .next u ∧ u.cph.engines.getLsbD n = false ∧
    exec (.onchipUncorrectable (.pacer n) a b) s = .next v ∧ hasBit (v.blk (n / 17)).cellFailed (n % 17) = true ∧
    exec (.onchipUncorrectable (.steward (n / 2) (n % 2)) a b) s = .next w ∧ hasBit (w.rgn (n / 2)).stewards (n % 2) = false) ∧
  (∀ (a p : Nat) (b : Bool) (s : State), s.running = true → s.aon.trip = false → p < 2 → s.boot.roll = none →
    (p = s.flt.activePair → hasBit s.flt.pairsIn (1 - p) = true) → ∃ t, exec (.onchipUncorrectable (.starterPair p) a b) s = .next t ∧
      hasBit t.flt.pairsIn p = false ∧ (s.flt.activePair = p → t.flt.activePair = 1 - p) ∧ (s.flt.activePair ≠ p → t.flt.activePair = s.flt.activePair)) ∧
  (∀ (a : Nat) (b : Bool) (s : State), s.running = true → s.evr.mode ≠ .lastGasp → ∃ t, exec (.onchipUncorrectable .recorder a b) s = .next t ∧
    t.evr.mode = .lastGasp) ∧
  (∀ (a sub : Nat) (b : Bool) (src : BitVec 16) (s : State), s.running = true → s.aon.trip = false → coreOfSource src.toNat sub = none →
    pairOfSource src.toNat = none → fixedOfSource src.toNat sub = none → ∃ t, exec (.onchipUncorrectable (.shared src sub) a b) s = .next t ∧
      t.flt.other = satAdd 8 s.flt.other 1 ∧ t.flt.lastSrc = src.toNat) ∧
  (∀ (a n : Nat) (b : Bool) (s : State), s.running = true → s.aon.trip = false → ∃ t u,
    (n < 32 → exec (.onchipUncorrectable (.shared (BitVec.ofNat 16 (srcMarshal n)) 0) a b) s = .next t ∧ (t.blk n).marshalOut = true) ∧
    (n < 8 → exec (.onchipUncorrectable (.shared (BitVec.ofNat 16 (srcParity n)) 0) a b) s = .next u ∧ hasBit u.cph.parityIn n = false)) ∧
  (∀ (l a : Nat) (sender : BitVec 16) (b : Bool) (s : State), exec (.onchipUncorrectable (.fabricWord l sender false) a b) s = .next s) ∧
  (∀ (l a : Nat) (sender : BitVec 16) (b : Bool) (s : State), s.running = true → s.roomForEvents → ∃ t,
    exec (.onchipUncorrectable (.fabricWord l sender true) a b) s = .next t ∧ Recorded s t 0x0608 sender.toNat (l % 2 ^ 24) sender.toNat 0 0 ∧
      t.mem = s.mem ∧ t.out = s.out) ∧
  (∀ (target req : BitVec 16) (outside b : Bool) (n a : Nat) (s : State), s.running = true → s.roomForEvents → ∃ t,
    exec (.onchipUncorrectable (.request target req outside n) a b) s = .next t ∧ t.mem = s.mem ∧ t.zones = s.zones ∧ t.work = s.work ∧
      (s.busErrorCode target.toNat outside n = 0 → t = s) ∧
      (s.busErrorCode target.toNat outside n ≠ 0 →
        Recorded s t 0x0609 target.toNat (s.busErrorCode target.toNat outside n) req.toNat a 0)) ∧
  (∀ (i : Nat) (outside : Bool) (n : Nat) (s : State), i < 32 → s.sourceOut (srcStaging i) = false → outside = false →
    (s.busErrorCode (srcStaging i) outside n = if n < 32 then 4 else 0)) ∧
  (∀ (kind ms : Nat) (s : State), s.running = true → s.roomForEvents → ∃ t, exec (.scrubPassLate kind ms) s = .next t ∧
    Recorded s t 0x060A srcScrubber (kind % 2 ^ 24) ms 0 0 ∧ t.mem = s.mem ∧ t.out = s.out) ∧
  (∀ (c : BitVec 16) (h : BitVec 32) (taker : BitVec 16) (s : State), s.running = true →
    (s.buf (bufKey (h.toNat / 2 ^ 28) (h.toNat / 2 ^ 8 % 2 ^ 20))).used = true →
    (s.buf (bufKey (h.toNat / 2 ^ 28) (h.toNat / 2 ^ 8 % 2 ^ 20))).owner = c.toNat →
    (s.buf (bufKey (h.toNat / 2 ^ 28) (h.toNat / 2 ^ 8 % 2 ^ 20))).gen = h.toNat % 256 → ∃ t u,
    exec (.bufferGive c h taker) s = .next t ∧ t.buf (bufKey (h.toNat / 2 ^ 28) (h.toNat / 2 ^ 8 % 2 ^ 20)) =
      { s.buf (bufKey (h.toNat / 2 ^ 28) (h.toNat / 2 ^ 8 % 2 ^ 20)) with owner := taker.toNat } ∧ t.evr = s.evr ∧
    exec (.bufferFree c h) s = .next u ∧ (u.buf (bufKey (h.toNat / 2 ^ 28) (h.toNat / 2 ^ 8 % 2 ^ 20))).used = false ∧
      (u.buf (bufKey (h.toNat / 2 ^ 28) (h.toNat / 2 ^ 8 % 2 ^ 20))).gen = (h.toNat % 256 + 1) % 256 ∧ u.evr = s.evr) ∧
  (∀ (c : BitVec 16) (h : BitVec 32) (taker : BitVec 16) (s : State), s.running = true →
    (s.buf (bufKey (h.toNat / 2 ^ 28) (h.toNat / 2 ^ 8 % 2 ^ 20))).used = true →
    (s.buf (bufKey (h.toNat / 2 ^ 28) (h.toNat / 2 ^ 8 % 2 ^ 20))).owner = c.toNat →
    (s.buf (bufKey (h.toNat / 2 ^ 28) (h.toNat / 2 ^ 8 % 2 ^ 20))).gen ≠ h.toNat % 256 → ∃ t,
    exec (.bufferGive c h taker) s = .next t ∧ exec (.bufferFree c h) s = .next t ∧ t.mem.stale = satAdd 8 s.mem.stale 1 ∧
      t.mem.bufs = s.mem.bufs ∧ t.evr = s.evr) ∧
  (∀ (c : BitVec 16) (h : BitVec 32) (taker : BitVec 16) (s : State), s.running = true → s.roomForEvents →
    coreOfSource c.toNat (Config.freeValue s.work.draws) = none → pairOfSource c.toNat = none →
    (s.buf (bufKey (h.toNat / 2 ^ 28) (h.toNat / 2 ^ 8 % 2 ^ 20))).used = true →
    (s.buf (bufKey (h.toNat / 2 ^ 28) (h.toNat / 2 ^ 8 % 2 ^ 20))).owner ≠ c.toNat → ∃ t u n,
    exec (.bufferGive c h taker) s = .next t ∧ t.mem.bufs = s.mem.bufs ∧
      Recorded s t 0x0703 c.toNat h.toNat (s.buf (bufKey (h.toNat / 2 ^ 28) (h.toNat / 2 ^ 8 % 2 ^ 20))).owner n 2 ∧
    exec (.bufferFree c h) s = .next u ∧ u.mem.bufs = s.mem.bufs ∧
      Recorded s u 0x0703 c.toNat h.toNat (s.buf (bufKey (h.toNat / 2 ^ 28) (h.toNat / 2 ^ 8 % 2 ^ 20))).owner n 1) ∧
  (∀ (c : BitVec 16) (h : BitVec 32) (s : State), s.running = true → s.roomForEvents →
    coreOfSource c.toNat (Config.freeValue s.work.draws) = none → pairOfSource c.toNat = none →
    (s.buf (bufKey (h.toNat / 2 ^ 28) (h.toNat / 2 ^ 8 % 2 ^ 20))).used = false → ∃ t n,
    exec (.bufferFree c h) s = .next t ∧ t.mem.bufs = s.mem.bufs ∧ Recorded s t 0x0702 c.toNat h.toNat 0 n 0 ∧
    exec (.bufferGive c h c) s = .next t) ∧
  (∀ (b : Nat) (h : BitVec 32) (s : State), s.running = true → s.aon.trip = false → b < 32 → s.evr.queue.length < 223 →
    (s.buf (bufKey (h.toNat / 2 ^ 28) (h.toNat / 2 ^ 8 % 2 ^ 20))).used = false → s.mem.misuseAt = [] → s.cfg .bpmCfg 0 23 16 ≤ 1 → ∃ t,
    exec (.bufferFree (BitVec.ofNat 16 (srcMarshal b)) h) s = .next t ∧ Recorded s t 0x0706 (srcMarshal b) (srcMarshal b) 1 0 0 ∧
      (t.blk b).marshalOut = true) ∧
  (∀ (key : Nat) (b : Buf) (s : State), s.running = true → s.mem.bufs = [(key, b)] → b.used = true → key / 1048576 ≠ 3 → s.sourceOut b.owner = true →
    s.roomForEvents → ∃ t src ms, exec .bufferAudit s = .next t ∧ t.buf key = b.free ∧ t.mem.leaks = satAdd 16 s.mem.leaks 1 ∧
      Recorded s t 0x0704 src (key / 1048576 * 2 ^ 28 + key % 1048576 * 2 ^ 8 + b.gen) b.owner 1 ms) ∧
  (∀ (key : Nat) (b : Buf) (s : State), s.running = true → s.mem.bufs = [(key, b)] → b.used = true → key / 1048576 ≠ 3 → s.sourceOut b.owner = false →
    s.roomForEvents → ∃ t src, exec .bufferAudit s = .next t ∧
      (s.ctxAt b.tag = none → t.buf key = b.free ∧ t.mem.leaks = satAdd 16 s.mem.leaks 1 ∧
        Recorded s t 0x0704 src (key / 1048576 * 2 ^ 28 + key % 1048576 * 2 ^ 8 + b.gen) b.owner 2 ((s.now - b.atNs) / 1000000)) ∧
      (s.ctxAt b.tag ≠ none → t.mem = s.mem ∧ (holdLimitMs (key / 1048576) ≠ 0 → holdLimitMs (key / 1048576) < (s.now - b.atNs) / 1000000 →
        Recorded s t 0x0705 src (key / 1048576 * 2 ^ 28 + key % 1048576 * 2 ^ 8 + b.gen) b.owner b.tag ((s.now - b.atNs) / 1000000)))) ∧
  (∀ s : State, (∀ p ∈ s.mem.bufs, p.2.used = false) → exec .bufferAudit s = .next s) ∧
  (∀ (key : Nat) (b : Buf) (s : State), s.running = true → s.mem.bufs = [(key, b)] → b.used = true → key / 1048576 = 3 → ∃ t,
    exec .bufferAudit s = .next t ∧ t.mem = s.mem ∧ t.evr = s.evr) ∧
  (∀ (m : ChipMemory) (src : BitVec 16) (h : BitVec 32) (a n r : Nat) (b : Bool) (s : State), s.running = false →
    exec (.onchipUncorrectable m a b) s = .next s ∧ exec (.rowCeLimit ⟨src, n⟩ a r) s = .next s ∧ exec (.scrubPassLate n r) s = .next s ∧ exec (.bufferGive src h src) s = .next s ∧
    exec (.bufferFree src h) s = .next s ∧ exec .bufferAudit s = .next s)

/-- Warm-up and quiet points (R55-R57, R184, R198, R222, R451, R482, R485, R486, R490, R532): a step completes only when the steps it waits for have, no hold
stops it and its own work is done; step 2 takes the bank that the header names, or holds with cause 0x03; step 3 appends the boot's entry, held where no
sector is erased; step 4 starts loops 0 to 3 and DRAM training; step 5 reports the self-test and completes while the units serve; step 6 takes the
channels' verdicts, and holds with cause 0x04 without one; step 7 asks for the lanes' training; step 8 completes exactly when a stripe set serves; step 10
restores tenant 0 and the figures; step 11 needs a host port and puts the bound sets in force; step 12 makes tenant 0 ready in Stride, step 13 the
others; a quiet point puts computed bounds, bundles, new shares and created tenants in force, and readies an active tenant. -/
def Obligations.WarmupAndQuietPoints : Prop :=
  (∀ (k : Nat) (r : WarmupReport) (s : State), s.lastReady k = false → s.stepReady k = false → exec (.warmupStepDone k r) s = .next s) ∧
  (∀ (k : Nat) (r : WarmupReport) (s : State), (k = 1 ∨ k = 9) → s.stepReady k = true → ∃ t, exec (.warmupStepDone k r) s = .next t ∧
    t.stepComplete k = true ∧ t.power.mode = .warmup ∧ t.out = s.out ∧ t.boot = s.boot) ∧
  (∀ (r : WarmupReport) (x : Image) (s : State), s.stepReady 2 = true → (s.boot.bank s.boot.selector).st = .valid →
    (s.boot.bank s.boot.selector).image = some x → s.imageCause x = 0 → s.roomForEvents → ∃ t, exec (.warmupStepDone 2 r) s = .next t ∧
    t.stepComplete 2 = true ∧ t.boot.running = some x ∧ t.boot.booted = s.boot.selector ∧
      (2 ∈ t.power.holds ↔ 2 ∈ s.power.holds ∨ (x.strict = true ∧ s.boot.ledgerFull = true)) ∧
      Recorded s t 0x0C01 s.srcStarters s.boot.selector x.svn x.starter.version ((s.now - s.power.t0) / 1000000)) ∧
  (∀ (r : WarmupReport) (s : State), s.stepReady 2 = true → s.boot.bank0.st ≠ .valid → s.boot.bank1.st ≠ .valid → s.boot.running = none → ∃ t,
    exec (.warmupStepDone 2 r) s = .next t ∧ 3 ∈ t.power.holds ∧ t.boot = s.boot ∧ t.evr = s.evr) ∧
  (∀ (r : WarmupReport) (s : State), s.stepReady 3 = true → s.boot.ledgerFull = false → s.boot.erasedAhead = true → ∃ t,
    exec (.warmupStepDone 3 r) s = .next t ∧ t.stepComplete 3 = true ∧ t.boot.seqNew = s.boot.seqNew + 1 ∧
      (∃ e, t.boot.ledger = s.boot.ledger ++ [e] ∧ e.seq = s.boot.seqNew + 1 ∧ e.reason = 1 ∧ e.bootSeq = e.seq) ∧
      t.boot.heldEntry = s.boot.heldEntry) ∧
  (∀ (r : WarmupReport) (s : State), s.stepReady 3 = true → s.boot.ledgerFull = false → s.boot.erasedAhead = false → s.boot.aheadErasable = true → ∃ t,
    exec (.warmupStepDone 3 r) s = .next t ∧ t.stepComplete 3 = true ∧ t.boot.ledger = s.boot.ledger ∧
      ∃ e, t.boot.heldEntry = some e ∧ e.seq = s.boot.seqNew + 1) ∧
  (∀ (r : WarmupReport) (s : State), s.stepReady 11 = true → s.hostPortUp = false → s.roomForEvents → ∃ t,
    exec (.warmupStepDone 11 r) s = .next t ∧ t.stepComplete 11 = false ∧ 4 ∈ t.power.holds ∧ Recorded s t 0x0F08 srcChipCollector 6 11 0 0) ∧
  (∀ (r : WarmupReport) (s : State), s.stepReady 11 = true → s.hostPortUp = true → ∃ t, exec (.warmupStepDone 11 r) s = .next t ∧
    t.stepComplete 11 = true ∧ t.tmk.sets = s.computeSets ∧ t.tmk.inForce = !s.aon.trip) ∧
  (∀ (r : WarmupReport) (s : State), s.stepReady 12 = true → s.lastReady 12 = false → ∃ t, exec (.warmupStepDone 12 r) s = .next t ∧
    t.stepComplete 12 = true ∧ (t.power.mode = .stride ∨ t.power.mode = .sprint) ∧ (t.tenant 0).ready = true ∧ t.boot.lkgArmed = true) ∧
  (∀ (r : WarmupReport) (u : Nat) (s : State), s.lastReady 13 = true → u ≠ 0 → (s.tenant u).st ≠ .free → (s.tenant u).creating = false → ∃ t,
    exec (.warmupStepDone 13 r) s = .next t ∧ t.stepComplete 13 = true ∧ (t.tenant u).ready = true) ∧
  (∀ (r : WarmupReport) (s : State), s.stepReady 4 = true → s.hasFabric = false → ∃ t, exec (.warmupStepDone 4 r) s = .next t ∧
    t.stepComplete 4 = true ∧ (t.chan 0).st = .training ∧ (t.chan 1).st = .training ∧ t.broker.knows (.dram 0) = true ∧
      t.broker.knows (.dram 1) = true ∧ (∀ k, k < 4 → (t.loop k).running = true)) ∧
  (∀ (r : WarmupReport) (s : State), s.stepReady 5 = true → s.unitsServe = true → r.macrosOut = [] → r.badCipher = [] → r.badKdu = [] → r.badParity = [] →
    s.roomForEvents → ∃ t, exec (.warmupStepDone 5 r) s = .next t ∧ t.stepComplete 5 = true ∧ t.mem.bistDone = true ∧ t.mem.bistRows = r.rowsRepaired ∧
      t.cph.drbgOk = (r.entropyTest == 0) ∧ t.cph.mrk = !s.cph.alarm ∧ Recorded s t 0x0601 srcScrubber r.macrosTested r.rowsRepaired (min 8 r.minSpare) 0) ∧
  (∀ (r : WarmupReport) (s : State), s.stepReady 5 = true → s.unitsServe = false → r.macrosOut = [] → r.badCipher = [] → r.badKdu = [] → r.badParity = [] →
    r.entropyTest = 0 → s.evr.queue.length < 223 → ∃ t, exec (.warmupStepDone 5 r) s = .next t ∧ t.stepComplete 5 = false ∧ 4 ∈ t.power.holds ∧
      Recorded s t 0x0F08 srcChipCollector 4 5 0 0) ∧
  (∀ (r : WarmupReport) (s : State), s.stepReady 6 = true → r.dramOk0 = true → r.dramOk1 = true → s.roomForEvents → ∃ t,
    exec (.warmupStepDone 6 r) s = .next t ∧ t.stepComplete 6 = true ∧ (t.chan 0).st = .active ∧ (t.chan 1).st = .active ∧
      (t.chan 0).raaimt = r.raaimt ∧ t.broker.holds (.dram 0) = false ∧
      Recorded s t 0x0501 (srcDram 0) (subParam 0 (usSince s.now (s.chan 0).since)) s.aon.band 0 0) ∧
  (∀ (r : WarmupReport) (s : State), s.stepReady 6 = true → r.dramOk0 = false → r.dramOk1 = true → ∃ t,
    exec (.warmupStepDone 6 r) s = .next t ∧ t.stepComplete 6 = true ∧ (t.chan 0).st = .retired ∧ (t.chan 1).st = .active) ∧
  (∀ (r : WarmupReport) (s : State), s.stepReady 6 = true → r.dramOk0 = false → r.dramOk1 = false → ∃ t,
    exec (.warmupStepDone 6 r) s = .next t ∧ t.stepComplete 6 = false ∧ 4 ∈ t.power.holds ∧ (t.chan 0).st = .retired ∧ (t.chan 1).st = .retired) ∧
  (∀ (r : WarmupReport) (s : State), s.stepReady 7 = true → ∃ t, exec (.warmupStepDone 7 r) s = .next t ∧ t.stepComplete 7 = true ∧
    (∀ n, n < 512 → s.populated n = true → (s.lane n).st = .parked → (t.lane n).trainWait = true ∧ t.broker.knows (.lane n) = true)) ∧
  (∀ (r : WarmupReport) (s : State), s.stepReady 8 = true → ∃ t, exec (.warmupStepDone 8 r) s = .next t ∧ t.power.mode = .warmup ∧
    (t.stepComplete 8 = t.lanesServe) ∧ (t.lanesServe = false → 4 ∈ t.power.holds)) ∧
  (∀ (r : WarmupReport) (s : State), s.stepReady 10 = true → ∃ t, exec (.warmupStepDone 10 r) s = .next t ∧ t.stepComplete 10 = true ∧
    (t.tenant 0).st ≠ .free ∧ t.aon.hsFigures = none ∧ t.store.figures = none ∧ t.store.patrolPasses = 0) ∧
  (∀ (r : WarmupReport) (s : State), s.stepReady 3 = true → s.boot.ledgerFull = true → ∃ t,
    exec (.warmupStepDone 3 r) s = .next t ∧ t.stepComplete 3 = true ∧ t.boot.ledger = s.boot.ledger ∧ t.boot.heldEntry = s.boot.heldEntry) ∧
  (∀ s : State, s.takesQuietPoint = false → exec .quietPoint s = .next s) ∧
  (∀ (h : Hdr) (b : Bundle) (s : State), s.takesQuietPoint = true → s.boot.bundles = [(h, b)] → b.records = [] → s.regs.live = [] → s.evr.queue.length < 200 → ∃ t,
    exec .quietPoint s = .next t ∧ t.boot.bundles = [] ∧ Recorded s t 0x0C07 s.srcStarters 0 (s.now % 2 ^ 32) 0 0) ∧
  (∀ (u : Nat) (s : State), s.takesQuietPoint = true → s.tmk.inForce = true → s.stepComplete 13 = true → (s.tenant u).st = .active →
    (s.tenant u).ending = none → s.boot.bundles = [] → ∃ t, exec .quietPoint s = .next t ∧ (t.tenant u).ready = true) ∧
  (∀ (x : List BoundSet) (s : State), s.takesQuietPoint = true → s.tmk.next = some x → s.regs.live = [] → s.boot.bundles = [] → ∃ t,
    exec .quietPoint s = .next t ∧ t.tmk.sets = x ∧ t.tmk.next = none) ∧
  (∀ (u : Nat) (s : State), s.takesQuietPoint = true → (s.tenant u).creating = true → ∃ t, exec .quietPoint s = .next t ∧
    (t.tenant u).st = .active ∧ (t.tenant u).creating = false) ∧
  (∀ (u : Nat) (l : Limits) (s : State), s.takesQuietPoint = true → (s.tenant u).st ≠ .free → (s.tenant u).pending = some l → s.boot.bundles = [] → ∃ t,
    exec .quietPoint s = .next t ∧ (t.tenant u).pending = none ∧ (t.tenant u).lim = { l with holdMs := (s.tenant u).lim.holdMs })

/-- Faults (R34-R36, R47, R268, R523-R531): the response to a core, a pair or a fixed-function unit that fails is the next one's: the spare takes the lane, the partner steward the
queues, the standby pair the device, the partner engine the block; a restart gives the unit back with event 0x0F04, a second failure within 60 s keeps it out;
under a thermal trip a fault is recorded only; with both pairs lost the device stops and is reset. -/
def Obligations.FaultsAreContained : Prop :=
  (∀ (b k : Nat) (s : State), s.running = true → s.stepComplete 7 = true → s.power.mode ≠ .calm → s.aon.trip = false → k < 16 →
    hasBit (s.blk b).cellFailed k = false → hasBit (s.blk b).cellFailed 16 = false → (s.blk b).spareLane = 0x1F → (s.blk b).handoff = none →
    (s.blk b).marshalOut = false → s.populated (16 * b + k) = true → (s.lane (16 * b + k)).st = .active → ∃ t,
    exec (.coreHeartbeatMiss (.pacer (17 * b + k))) s = .next t ∧ hasBit (t.blk b).cellFailed k = true ∧
      (t.blk b).handoff = some (16 * b + k, s.now) ∧ t.flt.degraded = true) ∧
  (∀ (b : Nat) (s : State), s.running = true → s.stepComplete 7 = true → s.power.mode ≠ .calm → s.aon.trip = false →
    (s.blk b).marshalOut = false → (s.blk b).restartedAt = none → ∃ t, exec (.coreHeartbeatMiss (.marshal b)) s = .next t ∧
      (t.blk b).marshalOut = true ∧ (t.blk b).marshalAt = s.now ∧ (t.blk b).marshalKept = false ∧ t.flt.degraded = true) ∧
  (∀ (g i : Nat) (s : State), s.running = true → s.stepComplete 7 = true → s.power.mode ≠ .calm → s.aon.trip = false → i < 2 →
    (s.rgn g).stewards = 3 → (s.rgn g).restart0 = none → (s.rgn g).restart1 = none → s.roomForEvents → ∃ t v,
    exec (.coreHeartbeatMiss (.steward g i)) s = .next t ∧ hasBit (t.rgn g).stewards i = false ∧ hasBit (t.rgn g).stewards (1 - i) = true ∧
      t.flt.stop = s.flt.stop ∧ Recorded s t 0x0F03 (srcRegionCollector g) (subParam i g) v (s.queuesOf g i) 0) ∧
  (∀ (c : CoreId) (s : State), s.running = true → s.stepComplete 7 = true → s.power.mode ≠ .calm → s.aon.trip = true → ∃ t,
    exec (.coreHeartbeatMiss c) s = .next t ∧ t.flt.degraded = true ∧ t.blks = s.blks ∧ t.rgns = s.rgns ∧ t.out = s.out) ∧
  (∀ (c : CoreId) (s : State), (s.running = false ∨ s.stepComplete 7 = false ∨ s.power.mode = .calm) → exec (.coreHeartbeatMiss c) s = .next s) ∧
  (∀ (b g i k : Nat) (s : State), s.aon.trip = false →
    ((s.blk b).marshalOut = true → exec (.coreHeartbeatMiss (.marshal b)) s = .next s) ∧
    (hasBit (s.rgn g).stewards i = false → exec (.coreHeartbeatMiss (.steward g i)) s = .next s) ∧
    (k < 17 → hasBit (s.blk b).cellFailed k = true → exec (.coreHeartbeatMiss (.pacer (17 * b + k))) s = .next s)) ∧
  (∀ (b k : Nat) (s : State), s.running = true → s.stepComplete 7 = true → s.power.mode ≠ .calm → s.aon.trip = false → k < 16 →
    hasBit (s.blk b).cellFailed k = false → s.populated (16 * b + k) = true → (s.lane (16 * b + k)).st ≠ .failed → (s.lane (16 * b + k)).unserved = false →
    ((s.blk b).spareLane ≠ 0x1F ∨ (s.blk b).handoff.isSome = true ∨ hasBit (s.blk b).cellFailed 16 = true) → s.roomForEvents → ∃ t,
    exec (.coreHeartbeatMiss (.pacer (17 * b + k))) s = .next t ∧ hasBit (t.blk b).cellFailed k = true ∧ (t.lane (16 * b + k)).unserved = true ∧
      (t.lane (16 * b + k)).st = .failed ∧ Recorded s t 0x0F02 (srcBlockCollector b) (16 * b + k)
        (if (s.blk b).spareLane ≠ 0x1F ∨ (s.blk b).handoff.isSome then 1 else 2) 0 0) ∧
  (∀ (b : Nat) (s : State), s.running = true → s.stepComplete 7 = true → s.power.mode ≠ .calm → s.aon.trip = false →
    hasBit (s.blk b).cellFailed 16 = false → (s.blk b).handoff = none → (s.blk b).spareLane = 0x1F → ∃ t,
    exec (.coreHeartbeatMiss (.pacer (17 * b + 16))) s = .next t ∧ hasBit (t.blk b).cellFailed 16 = true ∧ t.flt.degraded = true ∧
      t.lanes = s.lanes) ∧
  (∀ (b n : Nat) (s : State), s.running = true → s.stepComplete 7 = true → s.power.mode ≠ .calm → s.aon.trip = false →
    (s.blk b).marshalOut = false → (s.blk b).restartedAt = some n → s.now - n < 60000000000 → s.roomForEvents → ∃ t,
    exec (.coreHeartbeatMiss (.marshal b)) s = .next t ∧ (t.blk b).marshalOut = true ∧ (t.blk b).marshalKept = true ∧
      Recorded s t 0x0F06 (srcRegionCollector (regionOfBlock b)) (srcMarshal b) ((s.now - n) / 1000000000) 0 0) ∧
  (∀ (g i : Nat) (s : State), s.running = true → s.stepComplete 7 = true → s.stepComplete 10 = true → s.power.mode = .stride → s.aon.trip = false → i < 2 →
    hasBit (s.rgn g).stewards i = true → clearBit (s.rgn g).stewards i = 0 → s.flt.stop = 0 → ∃ t,
    exec (.coreHeartbeatMiss (.steward g i)) s = .next t ∧ (t.rgn g).stewards = 0 ∧ t.flt.stop = 1) ∧
  (∀ (b : Nat) (s : State), s.running = true → s.power.mode ≠ .homestretch → s.aon.trip = false → (s.blk b).marshalOut = true →
    (s.blk b).marshalKept = false → (s.blk b).handoff = none → s.roomForEvents → ∃ t, exec (.coreRestartDone (.marshal b)) s = .next t ∧
      (t.blk b).marshalOut = false ∧ (t.blk b).restartedAt = some s.now ∧ t.flt.restarts = satAdd 8 s.flt.restarts 1 ∧
      Recorded s t 0x0F04 (srcRegionCollector (regionOfBlock b)) (srcMarshal b) (usSince s.now (s.blk b).marshalAt) 0 0) ∧
  (∀ (g : Nat) (s : State), s.running = true → s.power.mode ≠ .homestretch → s.aon.trip = false → hasBit (s.rgn g).stewards 1 = false →
    hasBit (s.rgn g).kept 1 = false → s.roomForEvents → ∃ t, exec (.coreRestartDone (.steward g 1)) s = .next t ∧
      hasBit (t.rgn g).stewards 1 = true ∧ (t.rgn g).restart1 = some s.now ∧ (t.rgn g).restart0 = (s.rgn g).restart0 ∧
      Recorded s t 0x0F04 (srcRegionCollector g) (srcSteward g) (usSince s.now (s.rgn g).failed1) 0 0) ∧
  (∀ (b : Nat) (s : State), ((s.blk b).marshalOut = false ∨ (s.blk b).marshalKept = true) → exec (.coreRestartDone (.marshal b)) s = .next s) ∧
  (∀ (g i : Nat) (c : CoreId) (s : State), (hasBit (s.rgn g).stewards i = true ∨ hasBit (s.rgn g).kept i = true →
      exec (.coreRestartDone (.steward g i)) s = .next s) ∧
    (s.running = false ∨ s.power.mode = .homestretch ∨ s.aon.trip = true → exec (.coreRestartDone c) s = .next s)) ∧
  (∀ (g : Nat) (s : State), s.running = true → s.power.mode ≠ .homestretch → s.aon.trip = false → hasBit (s.rgn g).stewards 0 = false →
    hasBit (s.rgn g).kept 0 = false → s.roomForEvents → ∃ t, exec (.coreRestartDone (.steward g 0)) s = .next t ∧
      hasBit (t.rgn g).stewards 0 = true ∧ (t.rgn g).restart0 = some s.now ∧ (t.rgn g).restart1 = (s.rgn g).restart1 ∧
      Recorded s t 0x0F04 (srcRegionCollector g) (srcSteward g) (usSince s.now (s.rgn g).failed0) 0 0) ∧
  (∀ (b n a : Nat) (s : State), s.running = true → s.power.mode ≠ .homestretch → s.aon.trip = false → (s.blk b).marshalOut = true →
    (s.blk b).marshalKept = false → (s.blk b).handoff = some (n, a) → (s.lane n).st = .active → ∃ t, exec (.coreRestartDone (.marshal b)) s = .next t ∧
      (t.blk b).marshalOut = false ∧ (t.lane n).resuming = true) ∧
  (∀ (c : Nat) (s : State), exec (.coreRestartDone (.pacer c)) s = .next s) ∧
  (∀ s : State, s.running = true → s.aon.trip = false → s.flt.activePair < 2 → hasBit s.flt.pairsIn (1 - s.flt.activePair) = true →
    s.boot.roll = none → s.roomForEvents → ∃ t v, exec .starterMismatch s = .next t ∧ t.flt.activePair = 1 - s.flt.activePair ∧
      hasBit t.flt.pairsIn s.flt.activePair = false ∧ t.flt.takeovers = satAdd 8 s.flt.takeovers 1 ∧ t.flt.takeover = some s.now ∧
      Recorded s t 0x0F05 srcChipCollector s.flt.activePair (1 - s.flt.activePair) v s.adminInProgress) ∧
  (∀ s : State, s.running = true → s.aon.trip = false → s.flt.activePair < 2 → s.flt.pairsIn ≠ 0 →
    hasBit s.flt.pairsIn (1 - s.flt.activePair) = false → s.boot.roll = none → ∃ t, exec .starterMismatch s = .next t ∧
      t.flt.bothLost = some s.now ∧ t.flt.activePair = s.flt.activePair ∧ t.flt.takeovers = s.flt.takeovers) ∧
  (∀ s : State, s.running = true → s.aon.trip = false → s.flt.activePair < 2 → s.flt.pairsIn ≠ 0 → s.power.mode = .stride → s.stepComplete 10 = true →
    hasBit s.flt.pairsIn (1 - s.flt.activePair) = false → s.flt.stop = 0 → s.boot.roll = none → ∃ t, exec .starterMismatch s = .next t ∧ t.flt.stop = 2) ∧
  (∀ s : State, s.running = true → s.flt.pairsIn ≠ 0 → s.aon.trip = true → ∃ t, exec .starterMismatch s = .next t ∧
    t.flt = { s.flt with
      lastSrc := s.srcStarters
      degraded := true } ∧ t.boot = s.boot ∧ t.out = s.out) ∧
  (∀ (r : Roll) (s : State), s.running = true → s.aon.trip = false → s.flt.activePair < 2 → hasBit s.flt.pairsIn (1 - s.flt.activePair) = true →
    s.boot.roll = some r → r.phase = 5 → ∃ t, exec .starterMismatch s = .next t ∧ t.flt.activePair = 1 - s.flt.activePair ∧
      (r.stage = 1 → t.boot.roll = some { r with stage := 2 }) ∧
      (r.stage ≠ 1 → t.boot.roll = some { r with
        stage := 0
        running := false })) ∧
  (∀ s : State, (s.running = false ∨ s.flt.pairsIn = 0) → exec .starterMismatch s = .next s) ∧
  (∀ s : State, s.running = true → s.flt.activePair < 2 → s.flt.pairsIn ≠ 0 → hasBit s.flt.pairsIn (1 - s.flt.activePair) = false →
    hasBit s.flt.pairsKept (1 - s.flt.activePair) = false → s.roomForEvents → ∃ t u, exec (.standbyPairReturn true) s = .next t ∧
      hasBit t.flt.pairsIn (1 - s.flt.activePair) = true ∧ t.flt.activePair = s.flt.activePair ∧
      Recorded s t 0x0F0C srcChipCollector (1 - s.flt.activePair) ((s.now - s.flt.takeover.getD s.now) / 1000000) 0 0 ∧
    exec (.standbyPairReturn false) s = .next u ∧ hasBit u.flt.pairsKept (1 - s.flt.activePair) = true ∧ u.flt.pairsIn = s.flt.pairsIn) ∧
  (∀ (b : Bool) (s : State), (s.running = false ∨ s.flt.pairsIn = 0 ∨ hasBit s.flt.pairsIn (1 - s.flt.activePair) = true ∨ hasBit s.flt.pairsKept (1 - s.flt.activePair) = true) →
    exec (.standbyPairReturn b) s = .next s) ∧
  (∀ (b : Nat) (s : State), s.running = true → s.aon.trip = false → s.cph.engines.getLsbD b = true → s.roomForEvents → ∃ t,
    exec (.fixedUnitError (.cipher b)) s = .next t ∧ exec (.fixedUnitDeadline (.cipher b)) s = .next t ∧
    exec (.responseOverdue (.fixed (.cipher b))) s = .next t ∧ t.cph.engines.getLsbD b = false ∧
      (s.cph.engines.getLsbD (partnerBlock b) = true → t.cph.partner.getLsbD b = true) ∧ Recorded s t 0x0804 (srcCipher b) 0 2 0 0) ∧
  (∀ (b i : Nat) (s : State), s.running = true → s.aon.trip = false → hasBit (s.blk b).decIn i = true → s.roomForEvents → ∃ t n,
    exec (.fixedUnitError (.decoder b i)) s = .next t ∧ exec (.fixedUnitDeadline (.decoder b i)) s = .next t ∧
      exec (.responseOverdue (.fixed (.decoder b i))) s = .next t ∧
      hasBit (t.blk b).decIn i = false ∧ Recorded s t 0x0411 (srcMarshal b) 0 i n 0) ∧
  (∀ (i : Nat) (s : State), s.running = true → s.aon.trip = false → i < 8 → hasBit s.cph.parityIn i = true → s.roomForEvents → ∃ t,
    exec (.fixedUnitError (.parity i)) s = .next t ∧ exec (.fixedUnitDeadline (.parity i)) s = .next t ∧
      exec (.responseOverdue (.fixed (.parity i))) s = .next t ∧ hasBit t.cph.parityIn i = false ∧ t.flt.other = satAdd 8 s.flt.other 1 ∧
      Recorded s t 0x0495 (srcParity i) i (countBits (clearBit s.cph.parityIn i) 8) 0 0) ∧
  (∀ (g i : Nat) (s : State), s.running = true → s.hasCompression = true → s.aon.trip = false → g < 4 → i < 4 → hasBit (s.rgn g).cmpIn i = true →
    s.roomForEvents → ∃ t, exec (.fixedUnitError (.compress g i)) s = .next t ∧ exec (.fixedUnitDeadline (.compress g i)) s = .next t ∧
      exec (.responseOverdue (.fixed (.compress g i))) s = .next t ∧ hasBit (t.rgn g).cmpIn i = false ∧
      Recorded s t 0x0902 (srcCompress g) (subParam i 0) (countBits (clearBit (s.rgn g).cmpIn i) 4) 2 0) ∧
  (∀ (b i g : Nat) (u : FixedUnit) (s : State), s.aon.trip = false → (u = .decoder b i ∧ hasBit (s.blk b).decIn i = false ∨
      u = .cipher b ∧ s.cph.engines.getLsbD b = false ∨ u = .parity i ∧ hasBit s.cph.parityIn i = false ∨
      u = .compress g i ∧ (s.hasCompression = false ∨ hasBit (s.rgn g).cmpIn i = false)) →
    exec (.fixedUnitError u) s = .next s ∧ exec (.fixedUnitDeadline u) s = .next s ∧ exec (.responseOverdue (.fixed u)) s = .next s) ∧
  (∀ (b g : Nat) (s : State), s.running = true → s.aon.trip = false → ∃ t v w, exec (.responseOverdue (.core (.marshal b))) s = .next t ∧
    (t.blk b).marshalOut = true ∧ exec (.responseOverdue (.core (.steward g 1))) s = .next v ∧ hasBit (v.rgn g).stewards 1 = false ∧
    exec (.responseOverdue (.core (.pacer (17 * b + 3)))) s = .next w ∧ hasBit (w.blk b).cellFailed 3 = true) ∧
  (∀ (g i : Nat) (s : State), s.running = true → s.hasCompression = true → s.aon.trip = true → ∃ t,
    exec (.fixedUnitError (.compress g i)) s = .next t ∧ exec (.fixedUnitDeadline (.compress g i)) s = .next t ∧
      exec (.responseOverdue (.fixed (.compress g i))) s = .next t ∧ t.flt.degraded = true ∧ t.rgns = s.rgns ∧ t.out = s.out) ∧
  (∀ (u : FixedUnit) (c : CoreId) (s : State), s.running = true → (∀ g i, u ≠ .compress g i) → s.aon.trip = true → ∃ t,
    exec (.fixedUnitError u) s = .next t ∧ exec (.fixedUnitDeadline u) s = .next t ∧ exec (.responseOverdue (.fixed u)) s = .next t ∧
    t.flt.degraded = true ∧ t.cph = s.cph ∧ t.blks = s.blks ∧ t.out = s.out ∧ ∃ v, exec (.responseOverdue (.core c)) s = .next v ∧ v.rgns = s.rgns) ∧
  (∀ (u : FixedUnit) (i : UnitId) (s : State), s.running = false → exec (.fixedUnitError u) s = .next s ∧ exec (.fixedUnitDeadline u) s = .next s ∧
    exec (.responseOverdue i) s = .next s ∧ exec .bothPairsLostReset s = .next s) ∧
  (∀ (n : Nat) (s : State), s.running = true → s.flt.bothLost = some n → ∃ t, exec .bothPairsLostReset s = .next t ∧ t.power.inReset = true ∧
    t.regs = {} ∧ t.flt = {} ∧ t.boot.running = none) ∧
  (∀ s : State, s.flt.bothLost = none → exec .bothPairsLostReset s = .next s)

/-- The ledger's numbers stay in order (R489, R491, R493): in every state in which the acknowledged SEQ is at most the newest SEQ and no entry held is newer than the
newest, every step answers a state in which it is so again. -/
def Obligations.LedgerOrderIsKept : Prop :=
  ∀ s t : State, s.LedgerOrdered → step s = .next t → t.LedgerOrdered

/-- At reset no entry is held, and the acknowledged and the newest SEQ are 0. -/
def Obligations.LedgerOrderAtReset : Prop := State.reset.LedgerOrdered ∧ State.reset.boot.seqNew = 0
end

