-- ==== Sys2Proof/Laws/Tbl.lean ====
section
/-! SUPPORT. The laws of the numbered tables: a look-up after a store, and that every operation keeps the canonical form. -/

namespace Sys2Proof

variable {α : Type}

theorem Tbl.look_drop_ne (d : α) (t : Tbl α) {n m : Nat} (h : m ≠ n) :
    Tbl.look d (Tbl.drop t n) m = Tbl.look d t m := by
  induction t with
  | nil => rfl
  | cons p t ih =>
    obtain ⟨k, v⟩ := p
    by_cases hk : k = n
    · subst hk; simp [Tbl.drop, Tbl.look, ih, Ne.symm h]
    · simp [Tbl.drop, hk, Tbl.look, ih]

@[simp] theorem Tbl.look_drop_same (d : α) (t : Tbl α) (n : Nat) :
    Tbl.look d (Tbl.drop t n) n = d := by
  induction t with
  | nil => rfl
  | cons p t ih =>
    obtain ⟨k, v⟩ := p
    by_cases hk : k = n <;> simp [Tbl.drop, hk, Tbl.look, ih]

theorem Tbl.look_insert_ne (d : α) (t : Tbl α) {n m : Nat} (v : α) (h : m ≠ n) :
    Tbl.look d (Tbl.insert t n v) m = Tbl.look d t m := by
  induction t with
  | nil => simp [Tbl.insert, Tbl.look, Ne.symm h]
  | cons p t ih =>
    obtain ⟨k, w⟩ := p
    by_cases hk : n < k
    · simp [Tbl.insert, hk, Tbl.look, Ne.symm h]
    · simp [Tbl.insert, hk, Tbl.look, ih]

theorem Tbl.look_insert_drop (d : α) (t : Tbl α) (n : Nat) (v : α) :
    Tbl.look d (Tbl.insert (Tbl.drop t n) n v) n = v := by
  induction t with
  | nil => simp [Tbl.insert, Tbl.drop, Tbl.look]
  | cons p t ih =>
    obtain ⟨k, w⟩ := p
    by_cases hk : k = n
    · simp [Tbl.drop, hk, ih]
    · by_cases hl : n < k <;> simp [Tbl.drop, hk, Tbl.insert, hl, Tbl.look, ih]

/-- A look-up of the number just stored gives what was stored. -/
@[simp] theorem Tbl.look_put_same [DecidableEq α] (d : α) (t : Tbl α) (n : Nat) (v : α) :
    Tbl.look d (Tbl.put d t n v) n = v := by
  unfold Tbl.put
  split
  · simp [*]
  · exact Tbl.look_insert_drop d t n v

/-- A store leaves every other number alone. -/
theorem Tbl.look_put_ne [DecidableEq α] (d : α) (t : Tbl α) {n m : Nat} (v : α) (h : m ≠ n) :
    Tbl.look d (Tbl.put d t n v) m = Tbl.look d t m := by
  unfold Tbl.put
  split
  · exact Tbl.look_drop_ne d t h
  · rw [Tbl.look_insert_ne d _ v h, Tbl.look_drop_ne d t h]

theorem Tbl.look_put [DecidableEq α] (d : α) (t : Tbl α) (n m : Nat) (v : α) :
    Tbl.look d (Tbl.put d t n v) m = if m = n then v else Tbl.look d t m := by
  split
  · subst m; simp
  · exact Tbl.look_put_ne d t v ‹_›

theorem Tbl.wfFrom_mono [DecidableEq α] (d : α) {lo hi : Nat} (t : Tbl α) (h : lo ≤ hi)
    (w : Tbl.wfFrom d hi t = true) : Tbl.wfFrom d lo t = true := by
  cases t with
  | nil => rfl
  | cons p t =>
    obtain ⟨k, v⟩ := p
    simp [Tbl.wfFrom] at w ⊢
    exact ⟨⟨by omega, w.1.2⟩, w.2⟩

theorem Tbl.wfFrom_drop [DecidableEq α] (d : α) (t : Tbl α) (n : Nat) :
    ∀ lo, Tbl.wfFrom d lo t = true → Tbl.wfFrom d lo (Tbl.drop t n) = true := by
  induction t with
  | nil => intro _ _; rfl
  | cons p t ih =>
    obtain ⟨k, v⟩ := p
    intro lo w
    simp [Tbl.wfFrom] at w
    by_cases hk : k = n
    · simp [Tbl.drop, hk]
      exact ih lo (Tbl.wfFrom_mono d t (by omega) w.2)
    · simp [Tbl.drop, hk, Tbl.wfFrom]
      exact ⟨w.1, ih _ w.2⟩

theorem Tbl.wfFrom_insert [DecidableEq α] (d : α) (t : Tbl α) (n : Nat) (v : α) (hv : v ≠ d) :
    ∀ lo, lo ≤ n → Tbl.wfFrom d lo (Tbl.drop t n) = true →
      Tbl.wfFrom d lo (Tbl.insert (Tbl.drop t n) n v) = true := by
  induction t with
  | nil => intro lo h _; simp [Tbl.drop, Tbl.insert, Tbl.wfFrom, h, hv]
  | cons p t ih =>
    obtain ⟨k, w⟩ := p
    intro lo h hw
    by_cases hk : k = n
    · simp [Tbl.drop, hk] at hw ⊢; exact ih lo h hw
    · simp only [Tbl.drop, hk, if_false] at hw ⊢
      by_cases hl : n < k
      · simp [Tbl.insert, hl, Tbl.wfFrom] at hw ⊢
        have : n + 1 ≤ k := hl
        simp_all
      · simp [Tbl.insert, hl, Tbl.wfFrom] at hw ⊢
        exact ⟨hw.1, ih (k + 1) (by omega) hw.2⟩

/-- A store keeps the canonical form. -/
theorem Tbl.wf_put [DecidableEq α] (d : α) (t : Tbl α) (n : Nat) (v : α) (w : Tbl.wf d t = true) :
    Tbl.wf d (Tbl.put d t n v) = true := by
  unfold Tbl.put
  split
  · exact Tbl.wfFrom_drop d t n 0 w
  · exact Tbl.wfFrom_insert d t n v ‹_› 0 (by omega) (Tbl.wfFrom_drop d t n 0 w)

theorem Tbl.wfFrom_mapAll [DecidableEq α] (d : α) (f : Nat → α → α) (t : Tbl α) :
    ∀ lo, Tbl.wfFrom d lo t = true → Tbl.wfFrom d lo (Tbl.mapAll d f t) = true := by
  induction t with
  | nil => intro _ _; rfl
  | cons p t ih =>
    obtain ⟨k, v⟩ := p
    intro lo w
    simp [Tbl.wfFrom] at w
    by_cases hk : f k v = d
    · simp [Tbl.mapAll, hk]
      exact Tbl.wfFrom_mono d _ (by omega) (ih _ w.2)
    · simp [Tbl.mapAll, hk, Tbl.wfFrom]
      exact ⟨w.1.1, ih _ w.2⟩

/-- A map over every entry keeps the canonical form. -/
theorem Tbl.wf_mapAll [DecidableEq α] (d : α) (f : Nat → α → α) (t : Tbl α) (w : Tbl.wf d t = true) :
    Tbl.wf d (Tbl.mapAll d f t) = true := Tbl.wfFrom_mapAll d f t 0 w

end Sys2Proof
end

