-- ==== Sys2Proof/Laws/State.lean ====
section
/-! SUPPORT. One law per update of State: the field it writes, and that it leaves every other field alone; and, for each
table, that a look-up after a store gives what was stored. All true by rfl or by the laws of Tbl. -/

namespace Sys2Proof.Machine

@[simp] theorem State.onAon_fields (s : State) (f : Aon → Aon) :
    (s.onAon f).pending = s.pending ∧ (s.onAon f).variant = s.variant ∧ (s.onAon f).step = s.step ∧
    (s.onAon f).out = s.out ∧ (s.onAon f).aon = f s.aon ∧ (s.onAon f).evr = s.evr ∧ (s.onAon f).regs = s.regs ∧
    (s.onAon f).power = s.power ∧ (s.onAon f).bank = s.bank ∧ (s.onAon f).broker = s.broker ∧
    (s.onAon f).loops = s.loops ∧ (s.onAon f).lanes = s.lanes ∧ (s.onAon f).dies = s.dies ∧
    (s.onAon f).dieCnt = s.dieCnt ∧ (s.onAon f).blks = s.blks ∧ (s.onAon f).rgns = s.rgns ∧
    (s.onAon f).sets = s.sets ∧ (s.onAon f).nss = s.nss ∧ (s.onAon f).zones = s.zones ∧ (s.onAon f).media = s.media ∧ (s.onAon f).parity = s.parity ∧
    (s.onAon f).tenants = s.tenants ∧ (s.onAon f).ctrls = s.ctrls ∧ (s.onAon f).sqs = s.sqs ∧
    (s.onAon f).cqs = s.cqs ∧ (s.onAon f).links = s.links ∧ (s.onAon f).work = s.work ∧ (s.onAon f).tmk = s.tmk ∧
    (s.onAon f).cph = s.cph ∧ (s.onAon f).fab = s.fab ∧ (s.onAon f).mem = s.mem ∧ (s.onAon f).flt = s.flt ∧
    (s.onAon f).boot = s.boot ∧ (s.onAon f).store = s.store :=
  ⟨rfl, rfl, rfl, rfl, rfl, rfl, rfl, rfl, rfl, rfl, rfl, rfl, rfl, rfl, rfl, rfl, rfl, rfl, rfl, rfl, rfl, rfl, rfl, rfl, rfl, rfl, rfl, rfl, rfl, rfl, rfl, rfl, rfl, rfl⟩

@[simp] theorem State.onEvr_fields (s : State) (f : Recorder → Recorder) :
    (s.onEvr f).pending = s.pending ∧ (s.onEvr f).variant = s.variant ∧ (s.onEvr f).step = s.step ∧
    (s.onEvr f).out = s.out ∧ (s.onEvr f).aon = s.aon ∧ (s.onEvr f).evr = f s.evr ∧ (s.onEvr f).regs = s.regs ∧
    (s.onEvr f).power = s.power ∧ (s.onEvr f).bank = s.bank ∧ (s.onEvr f).broker = s.broker ∧
    (s.onEvr f).loops = s.loops ∧ (s.onEvr f).lanes = s.lanes ∧ (s.onEvr f).dies = s.dies ∧
    (s.onEvr f).dieCnt = s.dieCnt ∧ (s.onEvr f).blks = s.blks ∧ (s.onEvr f).rgns = s.rgns ∧
    (s.onEvr f).sets = s.sets ∧ (s.onEvr f).nss = s.nss ∧ (s.onEvr f).zones = s.zones ∧ (s.onEvr f).media = s.media ∧ (s.onEvr f).parity = s.parity ∧
    (s.onEvr f).tenants = s.tenants ∧ (s.onEvr f).ctrls = s.ctrls ∧ (s.onEvr f).sqs = s.sqs ∧
    (s.onEvr f).cqs = s.cqs ∧ (s.onEvr f).links = s.links ∧ (s.onEvr f).work = s.work ∧ (s.onEvr f).tmk = s.tmk ∧
    (s.onEvr f).cph = s.cph ∧ (s.onEvr f).fab = s.fab ∧ (s.onEvr f).mem = s.mem ∧ (s.onEvr f).flt = s.flt ∧
    (s.onEvr f).boot = s.boot ∧ (s.onEvr f).store = s.store :=
  ⟨rfl, rfl, rfl, rfl, rfl, rfl, rfl, rfl, rfl, rfl, rfl, rfl, rfl, rfl, rfl, rfl, rfl, rfl, rfl, rfl, rfl, rfl, rfl, rfl, rfl, rfl, rfl, rfl, rfl, rfl, rfl, rfl, rfl, rfl⟩

@[simp] theorem State.onRegs_fields (s : State) (f : Regs → Regs) :
    (s.onRegs f).pending = s.pending ∧ (s.onRegs f).variant = s.variant ∧ (s.onRegs f).step = s.step ∧
    (s.onRegs f).out = s.out ∧ (s.onRegs f).aon = s.aon ∧ (s.onRegs f).evr = s.evr ∧ (s.onRegs f).regs = f s.regs ∧
    (s.onRegs f).power = s.power ∧ (s.onRegs f).bank = s.bank ∧ (s.onRegs f).broker = s.broker ∧
    (s.onRegs f).loops = s.loops ∧ (s.onRegs f).lanes = s.lanes ∧ (s.onRegs f).dies = s.dies ∧
    (s.onRegs f).dieCnt = s.dieCnt ∧ (s.onRegs f).blks = s.blks ∧ (s.onRegs f).rgns = s.rgns ∧
    (s.onRegs f).sets = s.sets ∧ (s.onRegs f).nss = s.nss ∧ (s.onRegs f).zones = s.zones ∧
    (s.onRegs f).media = s.media ∧ (s.onRegs f).parity = s.parity ∧ (s.onRegs f).tenants = s.tenants ∧ (s.onRegs f).ctrls = s.ctrls ∧
    (s.onRegs f).sqs = s.sqs ∧ (s.onRegs f).cqs = s.cqs ∧ (s.onRegs f).links = s.links ∧ (s.onRegs f).work = s.work ∧
    (s.onRegs f).tmk = s.tmk ∧ (s.onRegs f).cph = s.cph ∧ (s.onRegs f).fab = s.fab ∧ (s.onRegs f).mem = s.mem ∧
    (s.onRegs f).flt = s.flt ∧ (s.onRegs f).boot = s.boot ∧ (s.onRegs f).store = s.store :=
  ⟨rfl, rfl, rfl, rfl, rfl, rfl, rfl, rfl, rfl, rfl, rfl, rfl, rfl, rfl, rfl, rfl, rfl, rfl, rfl, rfl, rfl, rfl, rfl, rfl, rfl, rfl, rfl, rfl, rfl, rfl, rfl, rfl, rfl, rfl⟩

@[simp] theorem State.onPower_fields (s : State) (f : Power → Power) :
    (s.onPower f).pending = s.pending ∧ (s.onPower f).variant = s.variant ∧ (s.onPower f).step = s.step ∧
    (s.onPower f).out = s.out ∧ (s.onPower f).aon = s.aon ∧ (s.onPower f).evr = s.evr ∧ (s.onPower f).regs = s.regs ∧
    (s.onPower f).power = f s.power ∧ (s.onPower f).bank = s.bank ∧ (s.onPower f).broker = s.broker ∧
    (s.onPower f).loops = s.loops ∧ (s.onPower f).lanes = s.lanes ∧ (s.onPower f).dies = s.dies ∧
    (s.onPower f).dieCnt = s.dieCnt ∧ (s.onPower f).blks = s.blks ∧ (s.onPower f).rgns = s.rgns ∧
    (s.onPower f).sets = s.sets ∧ (s.onPower f).nss = s.nss ∧ (s.onPower f).zones = s.zones ∧
    (s.onPower f).media = s.media ∧ (s.onPower f).parity = s.parity ∧ (s.onPower f).tenants = s.tenants ∧ (s.onPower f).ctrls = s.ctrls ∧
    (s.onPower f).sqs = s.sqs ∧ (s.onPower f).cqs = s.cqs ∧ (s.onPower f).links = s.links ∧
    (s.onPower f).work = s.work ∧ (s.onPower f).tmk = s.tmk ∧ (s.onPower f).cph = s.cph ∧ (s.onPower f).fab = s.fab ∧
    (s.onPower f).mem = s.mem ∧ (s.onPower f).flt = s.flt ∧ (s.onPower f).boot = s.boot ∧
    (s.onPower f).store = s.store :=
  ⟨rfl, rfl, rfl, rfl, rfl, rfl, rfl, rfl, rfl, rfl, rfl, rfl, rfl, rfl, rfl, rfl, rfl, rfl, rfl, rfl, rfl, rfl, rfl, rfl, rfl, rfl, rfl, rfl, rfl, rfl, rfl, rfl, rfl, rfl⟩

@[simp] theorem State.onBank_fields (s : State) (f : Bank → Bank) :
    (s.onBank f).pending = s.pending ∧ (s.onBank f).variant = s.variant ∧ (s.onBank f).step = s.step ∧
    (s.onBank f).out = s.out ∧ (s.onBank f).aon = s.aon ∧ (s.onBank f).evr = s.evr ∧ (s.onBank f).regs = s.regs ∧
    (s.onBank f).power = s.power ∧ (s.onBank f).bank = f s.bank ∧ (s.onBank f).broker = s.broker ∧
    (s.onBank f).loops = s.loops ∧ (s.onBank f).lanes = s.lanes ∧ (s.onBank f).dies = s.dies ∧
    (s.onBank f).dieCnt = s.dieCnt ∧ (s.onBank f).blks = s.blks ∧ (s.onBank f).rgns = s.rgns ∧
    (s.onBank f).sets = s.sets ∧ (s.onBank f).nss = s.nss ∧ (s.onBank f).zones = s.zones ∧
    (s.onBank f).media = s.media ∧ (s.onBank f).parity = s.parity ∧ (s.onBank f).tenants = s.tenants ∧ (s.onBank f).ctrls = s.ctrls ∧
    (s.onBank f).sqs = s.sqs ∧ (s.onBank f).cqs = s.cqs ∧ (s.onBank f).links = s.links ∧ (s.onBank f).work = s.work ∧
    (s.onBank f).tmk = s.tmk ∧ (s.onBank f).cph = s.cph ∧ (s.onBank f).fab = s.fab ∧ (s.onBank f).mem = s.mem ∧
    (s.onBank f).flt = s.flt ∧ (s.onBank f).boot = s.boot ∧ (s.onBank f).store = s.store :=
  ⟨rfl, rfl, rfl, rfl, rfl, rfl, rfl, rfl, rfl, rfl, rfl, rfl, rfl, rfl, rfl, rfl, rfl, rfl, rfl, rfl, rfl, rfl, rfl, rfl, rfl, rfl, rfl, rfl, rfl, rfl, rfl, rfl, rfl, rfl⟩

@[simp] theorem State.onBroker_fields (s : State) (f : Broker → Broker) :
    (s.onBroker f).pending = s.pending ∧ (s.onBroker f).variant = s.variant ∧ (s.onBroker f).step = s.step ∧
    (s.onBroker f).out = s.out ∧ (s.onBroker f).aon = s.aon ∧ (s.onBroker f).evr = s.evr ∧
    (s.onBroker f).regs = s.regs ∧ (s.onBroker f).power = s.power ∧ (s.onBroker f).bank = s.bank ∧
    (s.onBroker f).broker = f s.broker ∧ (s.onBroker f).loops = s.loops ∧ (s.onBroker f).lanes = s.lanes ∧
    (s.onBroker f).dies = s.dies ∧ (s.onBroker f).dieCnt = s.dieCnt ∧ (s.onBroker f).blks = s.blks ∧
    (s.onBroker f).rgns = s.rgns ∧ (s.onBroker f).sets = s.sets ∧ (s.onBroker f).nss = s.nss ∧
    (s.onBroker f).zones = s.zones ∧ (s.onBroker f).media = s.media ∧ (s.onBroker f).parity = s.parity ∧ (s.onBroker f).tenants = s.tenants ∧
    (s.onBroker f).ctrls = s.ctrls ∧ (s.onBroker f).sqs = s.sqs ∧ (s.onBroker f).cqs = s.cqs ∧
    (s.onBroker f).links = s.links ∧ (s.onBroker f).work = s.work ∧ (s.onBroker f).tmk = s.tmk ∧
    (s.onBroker f).cph = s.cph ∧ (s.onBroker f).fab = s.fab ∧ (s.onBroker f).mem = s.mem ∧
    (s.onBroker f).flt = s.flt ∧ (s.onBroker f).boot = s.boot ∧ (s.onBroker f).store = s.store :=
  ⟨rfl, rfl, rfl, rfl, rfl, rfl, rfl, rfl, rfl, rfl, rfl, rfl, rfl, rfl, rfl, rfl, rfl, rfl, rfl, rfl, rfl, rfl, rfl, rfl, rfl, rfl, rfl, rfl, rfl, rfl, rfl, rfl, rfl, rfl⟩

@[simp] theorem State.onWork_fields (s : State) (f : Work → Work) :
    (s.onWork f).pending = s.pending ∧ (s.onWork f).variant = s.variant ∧ (s.onWork f).step = s.step ∧
    (s.onWork f).out = s.out ∧ (s.onWork f).aon = s.aon ∧ (s.onWork f).evr = s.evr ∧ (s.onWork f).regs = s.regs ∧
    (s.onWork f).power = s.power ∧ (s.onWork f).bank = s.bank ∧ (s.onWork f).broker = s.broker ∧
    (s.onWork f).loops = s.loops ∧ (s.onWork f).lanes = s.lanes ∧ (s.onWork f).dies = s.dies ∧
    (s.onWork f).dieCnt = s.dieCnt ∧ (s.onWork f).blks = s.blks ∧ (s.onWork f).rgns = s.rgns ∧
    (s.onWork f).sets = s.sets ∧ (s.onWork f).nss = s.nss ∧ (s.onWork f).zones = s.zones ∧
    (s.onWork f).media = s.media ∧ (s.onWork f).parity = s.parity ∧ (s.onWork f).tenants = s.tenants ∧ (s.onWork f).ctrls = s.ctrls ∧
    (s.onWork f).sqs = s.sqs ∧ (s.onWork f).cqs = s.cqs ∧ (s.onWork f).links = s.links ∧
    (s.onWork f).work = f s.work ∧ (s.onWork f).tmk = s.tmk ∧ (s.onWork f).cph = s.cph ∧ (s.onWork f).fab = s.fab ∧
    (s.onWork f).mem = s.mem ∧ (s.onWork f).flt = s.flt ∧ (s.onWork f).boot = s.boot ∧ (s.onWork f).store = s.store :=
  ⟨rfl, rfl, rfl, rfl, rfl, rfl, rfl, rfl, rfl, rfl, rfl, rfl, rfl, rfl, rfl, rfl, rfl, rfl, rfl, rfl, rfl, rfl, rfl, rfl, rfl, rfl, rfl, rfl, rfl, rfl, rfl, rfl, rfl, rfl⟩

@[simp] theorem State.onTmk_fields (s : State) (f : Timekeeper → Timekeeper) :
    (s.onTmk f).pending = s.pending ∧ (s.onTmk f).variant = s.variant ∧ (s.onTmk f).step = s.step ∧
    (s.onTmk f).out = s.out ∧ (s.onTmk f).aon = s.aon ∧ (s.onTmk f).evr = s.evr ∧ (s.onTmk f).regs = s.regs ∧
    (s.onTmk f).power = s.power ∧ (s.onTmk f).bank = s.bank ∧ (s.onTmk f).broker = s.broker ∧
    (s.onTmk f).loops = s.loops ∧ (s.onTmk f).lanes = s.lanes ∧ (s.onTmk f).dies = s.dies ∧
    (s.onTmk f).dieCnt = s.dieCnt ∧ (s.onTmk f).blks = s.blks ∧ (s.onTmk f).rgns = s.rgns ∧
    (s.onTmk f).sets = s.sets ∧ (s.onTmk f).nss = s.nss ∧ (s.onTmk f).zones = s.zones ∧ (s.onTmk f).media = s.media ∧ (s.onTmk f).parity = s.parity ∧
    (s.onTmk f).tenants = s.tenants ∧ (s.onTmk f).ctrls = s.ctrls ∧ (s.onTmk f).sqs = s.sqs ∧
    (s.onTmk f).cqs = s.cqs ∧ (s.onTmk f).links = s.links ∧ (s.onTmk f).work = s.work ∧ (s.onTmk f).tmk = f s.tmk ∧
    (s.onTmk f).cph = s.cph ∧ (s.onTmk f).fab = s.fab ∧ (s.onTmk f).mem = s.mem ∧ (s.onTmk f).flt = s.flt ∧
    (s.onTmk f).boot = s.boot ∧ (s.onTmk f).store = s.store :=
  ⟨rfl, rfl, rfl, rfl, rfl, rfl, rfl, rfl, rfl, rfl, rfl, rfl, rfl, rfl, rfl, rfl, rfl, rfl, rfl, rfl, rfl, rfl, rfl, rfl, rfl, rfl, rfl, rfl, rfl, rfl, rfl, rfl, rfl, rfl⟩

@[simp] theorem State.onCph_fields (s : State) (f : Cipher → Cipher) :
    (s.onCph f).pending = s.pending ∧ (s.onCph f).variant = s.variant ∧ (s.onCph f).step = s.step ∧
    (s.onCph f).out = s.out ∧ (s.onCph f).aon = s.aon ∧ (s.onCph f).evr = s.evr ∧ (s.onCph f).regs = s.regs ∧
    (s.onCph f).power = s.power ∧ (s.onCph f).bank = s.bank ∧ (s.onCph f).broker = s.broker ∧
    (s.onCph f).loops = s.loops ∧ (s.onCph f).lanes = s.lanes ∧ (s.onCph f).dies = s.dies ∧
    (s.onCph f).dieCnt = s.dieCnt ∧ (s.onCph f).blks = s.blks ∧ (s.onCph f).rgns = s.rgns ∧
    (s.onCph f).sets = s.sets ∧ (s.onCph f).nss = s.nss ∧ (s.onCph f).zones = s.zones ∧ (s.onCph f).media = s.media ∧ (s.onCph f).parity = s.parity ∧
    (s.onCph f).tenants = s.tenants ∧ (s.onCph f).ctrls = s.ctrls ∧ (s.onCph f).sqs = s.sqs ∧
    (s.onCph f).cqs = s.cqs ∧ (s.onCph f).links = s.links ∧ (s.onCph f).work = s.work ∧ (s.onCph f).tmk = s.tmk ∧
    (s.onCph f).cph = f s.cph ∧ (s.onCph f).fab = s.fab ∧ (s.onCph f).mem = s.mem ∧ (s.onCph f).flt = s.flt ∧
    (s.onCph f).boot = s.boot ∧ (s.onCph f).store = s.store :=
  ⟨rfl, rfl, rfl, rfl, rfl, rfl, rfl, rfl, rfl, rfl, rfl, rfl, rfl, rfl, rfl, rfl, rfl, rfl, rfl, rfl, rfl, rfl, rfl, rfl, rfl, rfl, rfl, rfl, rfl, rfl, rfl, rfl, rfl, rfl⟩

@[simp] theorem State.onFab_fields (s : State) (f : Fabric → Fabric) :
    (s.onFab f).pending = s.pending ∧ (s.onFab f).variant = s.variant ∧ (s.onFab f).step = s.step ∧
    (s.onFab f).out = s.out ∧ (s.onFab f).aon = s.aon ∧ (s.onFab f).evr = s.evr ∧ (s.onFab f).regs = s.regs ∧
    (s.onFab f).power = s.power ∧ (s.onFab f).bank = s.bank ∧ (s.onFab f).broker = s.broker ∧
    (s.onFab f).loops = s.loops ∧ (s.onFab f).lanes = s.lanes ∧ (s.onFab f).dies = s.dies ∧
    (s.onFab f).dieCnt = s.dieCnt ∧ (s.onFab f).blks = s.blks ∧ (s.onFab f).rgns = s.rgns ∧
    (s.onFab f).sets = s.sets ∧ (s.onFab f).nss = s.nss ∧ (s.onFab f).zones = s.zones ∧ (s.onFab f).media = s.media ∧ (s.onFab f).parity = s.parity ∧
    (s.onFab f).tenants = s.tenants ∧ (s.onFab f).ctrls = s.ctrls ∧ (s.onFab f).sqs = s.sqs ∧
    (s.onFab f).cqs = s.cqs ∧ (s.onFab f).links = s.links ∧ (s.onFab f).work = s.work ∧ (s.onFab f).tmk = s.tmk ∧
    (s.onFab f).cph = s.cph ∧ (s.onFab f).fab = f s.fab ∧ (s.onFab f).mem = s.mem ∧ (s.onFab f).flt = s.flt ∧
    (s.onFab f).boot = s.boot ∧ (s.onFab f).store = s.store :=
  ⟨rfl, rfl, rfl, rfl, rfl, rfl, rfl, rfl, rfl, rfl, rfl, rfl, rfl, rfl, rfl, rfl, rfl, rfl, rfl, rfl, rfl, rfl, rfl, rfl, rfl, rfl, rfl, rfl, rfl, rfl, rfl, rfl, rfl, rfl⟩

@[simp] theorem State.onMem_fields (s : State) (f : Memory → Memory) :
    (s.onMem f).pending = s.pending ∧ (s.onMem f).variant = s.variant ∧ (s.onMem f).step = s.step ∧
    (s.onMem f).out = s.out ∧ (s.onMem f).aon = s.aon ∧ (s.onMem f).evr = s.evr ∧ (s.onMem f).regs = s.regs ∧
    (s.onMem f).power = s.power ∧ (s.onMem f).bank = s.bank ∧ (s.onMem f).broker = s.broker ∧
    (s.onMem f).loops = s.loops ∧ (s.onMem f).lanes = s.lanes ∧ (s.onMem f).dies = s.dies ∧
    (s.onMem f).dieCnt = s.dieCnt ∧ (s.onMem f).blks = s.blks ∧ (s.onMem f).rgns = s.rgns ∧
    (s.onMem f).sets = s.sets ∧ (s.onMem f).nss = s.nss ∧ (s.onMem f).zones = s.zones ∧ (s.onMem f).media = s.media ∧ (s.onMem f).parity = s.parity ∧
    (s.onMem f).tenants = s.tenants ∧ (s.onMem f).ctrls = s.ctrls ∧ (s.onMem f).sqs = s.sqs ∧
    (s.onMem f).cqs = s.cqs ∧ (s.onMem f).links = s.links ∧ (s.onMem f).work = s.work ∧ (s.onMem f).tmk = s.tmk ∧
    (s.onMem f).cph = s.cph ∧ (s.onMem f).fab = s.fab ∧ (s.onMem f).mem = f s.mem ∧ (s.onMem f).flt = s.flt ∧
    (s.onMem f).boot = s.boot ∧ (s.onMem f).store = s.store :=
  ⟨rfl, rfl, rfl, rfl, rfl, rfl, rfl, rfl, rfl, rfl, rfl, rfl, rfl, rfl, rfl, rfl, rfl, rfl, rfl, rfl, rfl, rfl, rfl, rfl, rfl, rfl, rfl, rfl, rfl, rfl, rfl, rfl, rfl, rfl⟩

@[simp] theorem State.onFlt_fields (s : State) (f : Faults → Faults) :
    (s.onFlt f).pending = s.pending ∧ (s.onFlt f).variant = s.variant ∧ (s.onFlt f).step = s.step ∧
    (s.onFlt f).out = s.out ∧ (s.onFlt f).aon = s.aon ∧ (s.onFlt f).evr = s.evr ∧ (s.onFlt f).regs = s.regs ∧
    (s.onFlt f).power = s.power ∧ (s.onFlt f).bank = s.bank ∧ (s.onFlt f).broker = s.broker ∧
    (s.onFlt f).loops = s.loops ∧ (s.onFlt f).lanes = s.lanes ∧ (s.onFlt f).dies = s.dies ∧
    (s.onFlt f).dieCnt = s.dieCnt ∧ (s.onFlt f).blks = s.blks ∧ (s.onFlt f).rgns = s.rgns ∧
    (s.onFlt f).sets = s.sets ∧ (s.onFlt f).nss = s.nss ∧ (s.onFlt f).zones = s.zones ∧ (s.onFlt f).media = s.media ∧ (s.onFlt f).parity = s.parity ∧
    (s.onFlt f).tenants = s.tenants ∧ (s.onFlt f).ctrls = s.ctrls ∧ (s.onFlt f).sqs = s.sqs ∧
    (s.onFlt f).cqs = s.cqs ∧ (s.onFlt f).links = s.links ∧ (s.onFlt f).work = s.work ∧ (s.onFlt f).tmk = s.tmk ∧
    (s.onFlt f).cph = s.cph ∧ (s.onFlt f).fab = s.fab ∧ (s.onFlt f).mem = s.mem ∧ (s.onFlt f).flt = f s.flt ∧
    (s.onFlt f).boot = s.boot ∧ (s.onFlt f).store = s.store :=
  ⟨rfl, rfl, rfl, rfl, rfl, rfl, rfl, rfl, rfl, rfl, rfl, rfl, rfl, rfl, rfl, rfl, rfl, rfl, rfl, rfl, rfl, rfl, rfl, rfl, rfl, rfl, rfl, rfl, rfl, rfl, rfl, rfl, rfl, rfl⟩

@[simp] theorem State.onBoot_fields (s : State) (f : BootStore → BootStore) :
    (s.onBoot f).pending = s.pending ∧ (s.onBoot f).variant = s.variant ∧ (s.onBoot f).step = s.step ∧
    (s.onBoot f).out = s.out ∧ (s.onBoot f).aon = s.aon ∧ (s.onBoot f).evr = s.evr ∧ (s.onBoot f).regs = s.regs ∧
    (s.onBoot f).power = s.power ∧ (s.onBoot f).bank = s.bank ∧ (s.onBoot f).broker = s.broker ∧
    (s.onBoot f).loops = s.loops ∧ (s.onBoot f).lanes = s.lanes ∧ (s.onBoot f).dies = s.dies ∧
    (s.onBoot f).dieCnt = s.dieCnt ∧ (s.onBoot f).blks = s.blks ∧ (s.onBoot f).rgns = s.rgns ∧
    (s.onBoot f).sets = s.sets ∧ (s.onBoot f).nss = s.nss ∧ (s.onBoot f).zones = s.zones ∧
    (s.onBoot f).media = s.media ∧ (s.onBoot f).parity = s.parity ∧ (s.onBoot f).tenants = s.tenants ∧ (s.onBoot f).ctrls = s.ctrls ∧
    (s.onBoot f).sqs = s.sqs ∧ (s.onBoot f).cqs = s.cqs ∧ (s.onBoot f).links = s.links ∧ (s.onBoot f).work = s.work ∧
    (s.onBoot f).tmk = s.tmk ∧ (s.onBoot f).cph = s.cph ∧ (s.onBoot f).fab = s.fab ∧ (s.onBoot f).mem = s.mem ∧
    (s.onBoot f).flt = s.flt ∧ (s.onBoot f).boot = f s.boot ∧ (s.onBoot f).store = s.store :=
  ⟨rfl, rfl, rfl, rfl, rfl, rfl, rfl, rfl, rfl, rfl, rfl, rfl, rfl, rfl, rfl, rfl, rfl, rfl, rfl, rfl, rfl, rfl, rfl, rfl, rfl, rfl, rfl, rfl, rfl, rfl, rfl, rfl, rfl, rfl⟩

@[simp] theorem State.onStore_fields (s : State) (f : Store → Store) :
    (s.onStore f).pending = s.pending ∧ (s.onStore f).variant = s.variant ∧ (s.onStore f).step = s.step ∧
    (s.onStore f).out = s.out ∧ (s.onStore f).aon = s.aon ∧ (s.onStore f).evr = s.evr ∧ (s.onStore f).regs = s.regs ∧
    (s.onStore f).power = s.power ∧ (s.onStore f).bank = s.bank ∧ (s.onStore f).broker = s.broker ∧
    (s.onStore f).loops = s.loops ∧ (s.onStore f).lanes = s.lanes ∧ (s.onStore f).dies = s.dies ∧
    (s.onStore f).dieCnt = s.dieCnt ∧ (s.onStore f).blks = s.blks ∧ (s.onStore f).rgns = s.rgns ∧
    (s.onStore f).sets = s.sets ∧ (s.onStore f).nss = s.nss ∧ (s.onStore f).zones = s.zones ∧
    (s.onStore f).media = s.media ∧ (s.onStore f).parity = s.parity ∧ (s.onStore f).tenants = s.tenants ∧ (s.onStore f).ctrls = s.ctrls ∧
    (s.onStore f).sqs = s.sqs ∧ (s.onStore f).cqs = s.cqs ∧ (s.onStore f).links = s.links ∧
    (s.onStore f).work = s.work ∧ (s.onStore f).tmk = s.tmk ∧ (s.onStore f).cph = s.cph ∧ (s.onStore f).fab = s.fab ∧
    (s.onStore f).mem = s.mem ∧ (s.onStore f).flt = s.flt ∧ (s.onStore f).boot = s.boot ∧
    (s.onStore f).store = f s.store :=
  ⟨rfl, rfl, rfl, rfl, rfl, rfl, rfl, rfl, rfl, rfl, rfl, rfl, rfl, rfl, rfl, rfl, rfl, rfl, rfl, rfl, rfl, rfl, rfl, rfl, rfl, rfl, rfl, rfl, rfl, rfl, rfl, rfl, rfl, rfl⟩

@[simp] theorem State.onOut_fields (s : State) (f : Outputs → Outputs) :
    (s.onOut f).pending = s.pending ∧ (s.onOut f).variant = s.variant ∧ (s.onOut f).step = s.step ∧
    (s.onOut f).out = f s.out ∧ (s.onOut f).aon = s.aon ∧ (s.onOut f).evr = s.evr ∧ (s.onOut f).regs = s.regs ∧
    (s.onOut f).power = s.power ∧ (s.onOut f).bank = s.bank ∧ (s.onOut f).broker = s.broker ∧
    (s.onOut f).loops = s.loops ∧ (s.onOut f).lanes = s.lanes ∧ (s.onOut f).dies = s.dies ∧
    (s.onOut f).dieCnt = s.dieCnt ∧ (s.onOut f).blks = s.blks ∧ (s.onOut f).rgns = s.rgns ∧
    (s.onOut f).sets = s.sets ∧ (s.onOut f).nss = s.nss ∧ (s.onOut f).zones = s.zones ∧ (s.onOut f).media = s.media ∧ (s.onOut f).parity = s.parity ∧
    (s.onOut f).tenants = s.tenants ∧ (s.onOut f).ctrls = s.ctrls ∧ (s.onOut f).sqs = s.sqs ∧
    (s.onOut f).cqs = s.cqs ∧ (s.onOut f).links = s.links ∧ (s.onOut f).work = s.work ∧ (s.onOut f).tmk = s.tmk ∧
    (s.onOut f).cph = s.cph ∧ (s.onOut f).fab = s.fab ∧ (s.onOut f).mem = s.mem ∧ (s.onOut f).flt = s.flt ∧
    (s.onOut f).boot = s.boot ∧ (s.onOut f).store = s.store :=
  ⟨rfl, rfl, rfl, rfl, rfl, rfl, rfl, rfl, rfl, rfl, rfl, rfl, rfl, rfl, rfl, rfl, rfl, rfl, rfl, rfl, rfl, rfl, rfl, rfl, rfl, rfl, rfl, rfl, rfl, rfl, rfl, rfl, rfl, rfl⟩

@[simp] theorem State.setLoop_fields (s : State) (n : Nat) (v : Loop) :
    (s.setLoop n v).pending = s.pending ∧ (s.setLoop n v).variant = s.variant ∧ (s.setLoop n v).step = s.step ∧
    (s.setLoop n v).out = s.out ∧ (s.setLoop n v).aon = s.aon ∧ (s.setLoop n v).evr = s.evr ∧
    (s.setLoop n v).regs = s.regs ∧ (s.setLoop n v).power = s.power ∧ (s.setLoop n v).bank = s.bank ∧
    (s.setLoop n v).broker = s.broker ∧ (s.setLoop n v).loops = Tbl.put {} s.loops n v ∧
    (s.setLoop n v).lanes = s.lanes ∧ (s.setLoop n v).dies = s.dies ∧ (s.setLoop n v).dieCnt = s.dieCnt ∧
    (s.setLoop n v).blks = s.blks ∧ (s.setLoop n v).rgns = s.rgns ∧ (s.setLoop n v).sets = s.sets ∧
    (s.setLoop n v).nss = s.nss ∧ (s.setLoop n v).zones = s.zones ∧ (s.setLoop n v).media = s.media ∧ (s.setLoop n v).parity = s.parity ∧
    (s.setLoop n v).tenants = s.tenants ∧ (s.setLoop n v).ctrls = s.ctrls ∧ (s.setLoop n v).sqs = s.sqs ∧
    (s.setLoop n v).cqs = s.cqs ∧ (s.setLoop n v).links = s.links ∧ (s.setLoop n v).work = s.work ∧
    (s.setLoop n v).tmk = s.tmk ∧ (s.setLoop n v).cph = s.cph ∧ (s.setLoop n v).fab = s.fab ∧
    (s.setLoop n v).mem = s.mem ∧ (s.setLoop n v).flt = s.flt ∧ (s.setLoop n v).boot = s.boot ∧
    (s.setLoop n v).store = s.store :=
  ⟨rfl, rfl, rfl, rfl, rfl, rfl, rfl, rfl, rfl, rfl, rfl, rfl, rfl, rfl, rfl, rfl, rfl, rfl, rfl, rfl, rfl, rfl, rfl, rfl, rfl, rfl, rfl, rfl, rfl, rfl, rfl, rfl, rfl, rfl⟩

@[simp] theorem State.loop_setLoop (s : State) (n m : Nat) (v : Loop) :
    (s.setLoop n v).loop m = if m = n then v else s.loop m := Tbl.look_put _ _ _ _ _

theorem State.updLoop_eq (s : State) (n : Nat) (f : Loop → Loop) : s.updLoop n f = s.setLoop n (f (s.loop n)) := rfl

@[simp] theorem State.setLane_fields (s : State) (n : Nat) (v : Lane) :
    (s.setLane n v).pending = s.pending ∧ (s.setLane n v).variant = s.variant ∧ (s.setLane n v).step = s.step ∧
    (s.setLane n v).out = s.out ∧ (s.setLane n v).aon = s.aon ∧ (s.setLane n v).evr = s.evr ∧
    (s.setLane n v).regs = s.regs ∧ (s.setLane n v).power = s.power ∧ (s.setLane n v).bank = s.bank ∧
    (s.setLane n v).broker = s.broker ∧ (s.setLane n v).loops = s.loops ∧
    (s.setLane n v).lanes = Tbl.put {} s.lanes n v ∧ (s.setLane n v).dies = s.dies ∧
    (s.setLane n v).dieCnt = s.dieCnt ∧ (s.setLane n v).blks = s.blks ∧ (s.setLane n v).rgns = s.rgns ∧
    (s.setLane n v).sets = s.sets ∧ (s.setLane n v).nss = s.nss ∧ (s.setLane n v).zones = s.zones ∧
    (s.setLane n v).media = s.media ∧ (s.setLane n v).parity = s.parity ∧ (s.setLane n v).tenants = s.tenants ∧ (s.setLane n v).ctrls = s.ctrls ∧
    (s.setLane n v).sqs = s.sqs ∧ (s.setLane n v).cqs = s.cqs ∧ (s.setLane n v).links = s.links ∧
    (s.setLane n v).work = s.work ∧ (s.setLane n v).tmk = s.tmk ∧ (s.setLane n v).cph = s.cph ∧
    (s.setLane n v).fab = s.fab ∧ (s.setLane n v).mem = s.mem ∧ (s.setLane n v).flt = s.flt ∧
    (s.setLane n v).boot = s.boot ∧ (s.setLane n v).store = s.store :=
  ⟨rfl, rfl, rfl, rfl, rfl, rfl, rfl, rfl, rfl, rfl, rfl, rfl, rfl, rfl, rfl, rfl, rfl, rfl, rfl, rfl, rfl, rfl, rfl, rfl, rfl, rfl, rfl, rfl, rfl, rfl, rfl, rfl, rfl, rfl⟩

@[simp] theorem State.lane_setLane (s : State) (n m : Nat) (v : Lane) :
    (s.setLane n v).lane m = if m = n then v else s.lane m := Tbl.look_put _ _ _ _ _

theorem State.updLane_eq (s : State) (n : Nat) (f : Lane → Lane) : s.updLane n f = s.setLane n (f (s.lane n)) := rfl

@[simp] theorem State.setDie_fields (s : State) (n : Nat) (v : Die) :
    (s.setDie n v).pending = s.pending ∧ (s.setDie n v).variant = s.variant ∧ (s.setDie n v).step = s.step ∧
    (s.setDie n v).out = s.out ∧ (s.setDie n v).aon = s.aon ∧ (s.setDie n v).evr = s.evr ∧
    (s.setDie n v).regs = s.regs ∧ (s.setDie n v).power = s.power ∧ (s.setDie n v).bank = s.bank ∧
    (s.setDie n v).broker = s.broker ∧ (s.setDie n v).loops = s.loops ∧ (s.setDie n v).lanes = s.lanes ∧
    (s.setDie n v).dies = Tbl.put {} s.dies n v ∧ (s.setDie n v).dieCnt = s.dieCnt ∧ (s.setDie n v).blks = s.blks ∧
    (s.setDie n v).rgns = s.rgns ∧ (s.setDie n v).sets = s.sets ∧ (s.setDie n v).nss = s.nss ∧
    (s.setDie n v).zones = s.zones ∧ (s.setDie n v).media = s.media ∧ (s.setDie n v).parity = s.parity ∧ (s.setDie n v).tenants = s.tenants ∧
    (s.setDie n v).ctrls = s.ctrls ∧ (s.setDie n v).sqs = s.sqs ∧ (s.setDie n v).cqs = s.cqs ∧
    (s.setDie n v).links = s.links ∧ (s.setDie n v).work = s.work ∧ (s.setDie n v).tmk = s.tmk ∧
    (s.setDie n v).cph = s.cph ∧ (s.setDie n v).fab = s.fab ∧ (s.setDie n v).mem = s.mem ∧
    (s.setDie n v).flt = s.flt ∧ (s.setDie n v).boot = s.boot ∧ (s.setDie n v).store = s.store :=
  ⟨rfl, rfl, rfl, rfl, rfl, rfl, rfl, rfl, rfl, rfl, rfl, rfl, rfl, rfl, rfl, rfl, rfl, rfl, rfl, rfl, rfl, rfl, rfl, rfl, rfl, rfl, rfl, rfl, rfl, rfl, rfl, rfl, rfl, rfl⟩

@[simp] theorem State.die_setDie (s : State) (n m : Nat) (v : Die) :
    (s.setDie n v).die m = if m = n then v else s.die m := Tbl.look_put _ _ _ _ _

theorem State.updDie_eq (s : State) (n : Nat) (f : Die → Die) : s.updDie n f = s.setDie n (f (s.die n)) := rfl

@[simp] theorem State.setCntOf_fields (s : State) (n : Nat) (v : DieCnt) :
    (s.setCntOf n v).pending = s.pending ∧ (s.setCntOf n v).variant = s.variant ∧ (s.setCntOf n v).step = s.step ∧
    (s.setCntOf n v).out = s.out ∧ (s.setCntOf n v).aon = s.aon ∧ (s.setCntOf n v).evr = s.evr ∧
    (s.setCntOf n v).regs = s.regs ∧ (s.setCntOf n v).power = s.power ∧ (s.setCntOf n v).bank = s.bank ∧
    (s.setCntOf n v).broker = s.broker ∧ (s.setCntOf n v).loops = s.loops ∧ (s.setCntOf n v).lanes = s.lanes ∧
    (s.setCntOf n v).dies = s.dies ∧ (s.setCntOf n v).dieCnt = Tbl.put {} s.dieCnt n v ∧
    (s.setCntOf n v).blks = s.blks ∧ (s.setCntOf n v).rgns = s.rgns ∧ (s.setCntOf n v).sets = s.sets ∧
    (s.setCntOf n v).nss = s.nss ∧ (s.setCntOf n v).zones = s.zones ∧ (s.setCntOf n v).media = s.media ∧ (s.setCntOf n v).parity = s.parity ∧
    (s.setCntOf n v).tenants = s.tenants ∧ (s.setCntOf n v).ctrls = s.ctrls ∧ (s.setCntOf n v).sqs = s.sqs ∧
    (s.setCntOf n v).cqs = s.cqs ∧ (s.setCntOf n v).links = s.links ∧ (s.setCntOf n v).work = s.work ∧
    (s.setCntOf n v).tmk = s.tmk ∧ (s.setCntOf n v).cph = s.cph ∧ (s.setCntOf n v).fab = s.fab ∧
    (s.setCntOf n v).mem = s.mem ∧ (s.setCntOf n v).flt = s.flt ∧ (s.setCntOf n v).boot = s.boot ∧
    (s.setCntOf n v).store = s.store :=
  ⟨rfl, rfl, rfl, rfl, rfl, rfl, rfl, rfl, rfl, rfl, rfl, rfl, rfl, rfl, rfl, rfl, rfl, rfl, rfl, rfl, rfl, rfl, rfl, rfl, rfl, rfl, rfl, rfl, rfl, rfl, rfl, rfl, rfl, rfl⟩

@[simp] theorem State.cntOf_setCntOf (s : State) (n m : Nat) (v : DieCnt) :
    (s.setCntOf n v).cntOf m = if m = n then v else s.cntOf m := Tbl.look_put _ _ _ _ _

theorem State.updCntOf_eq (s : State) (n : Nat) (f : DieCnt → DieCnt) : s.updCntOf n f = s.setCntOf n (f (s.cntOf n)) := rfl

@[simp] theorem State.setBlk_fields (s : State) (n : Nat) (v : Blk) :
    (s.setBlk n v).pending = s.pending ∧ (s.setBlk n v).variant = s.variant ∧ (s.setBlk n v).step = s.step ∧
    (s.setBlk n v).out = s.out ∧ (s.setBlk n v).aon = s.aon ∧ (s.setBlk n v).evr = s.evr ∧
    (s.setBlk n v).regs = s.regs ∧ (s.setBlk n v).power = s.power ∧ (s.setBlk n v).bank = s.bank ∧
    (s.setBlk n v).broker = s.broker ∧ (s.setBlk n v).loops = s.loops ∧ (s.setBlk n v).lanes = s.lanes ∧
    (s.setBlk n v).dies = s.dies ∧ (s.setBlk n v).dieCnt = s.dieCnt ∧ (s.setBlk n v).blks = Tbl.put {} s.blks n v ∧
    (s.setBlk n v).rgns = s.rgns ∧ (s.setBlk n v).sets = s.sets ∧ (s.setBlk n v).nss = s.nss ∧
    (s.setBlk n v).zones = s.zones ∧ (s.setBlk n v).media = s.media ∧ (s.setBlk n v).parity = s.parity ∧ (s.setBlk n v).tenants = s.tenants ∧
    (s.setBlk n v).ctrls = s.ctrls ∧ (s.setBlk n v).sqs = s.sqs ∧ (s.setBlk n v).cqs = s.cqs ∧
    (s.setBlk n v).links = s.links ∧ (s.setBlk n v).work = s.work ∧ (s.setBlk n v).tmk = s.tmk ∧
    (s.setBlk n v).cph = s.cph ∧ (s.setBlk n v).fab = s.fab ∧ (s.setBlk n v).mem = s.mem ∧
    (s.setBlk n v).flt = s.flt ∧ (s.setBlk n v).boot = s.boot ∧ (s.setBlk n v).store = s.store :=
  ⟨rfl, rfl, rfl, rfl, rfl, rfl, rfl, rfl, rfl, rfl, rfl, rfl, rfl, rfl, rfl, rfl, rfl, rfl, rfl, rfl, rfl, rfl, rfl, rfl, rfl, rfl, rfl, rfl, rfl, rfl, rfl, rfl, rfl, rfl⟩

@[simp] theorem State.blk_setBlk (s : State) (n m : Nat) (v : Blk) :
    (s.setBlk n v).blk m = if m = n then v else s.blk m := Tbl.look_put _ _ _ _ _

theorem State.updBlk_eq (s : State) (n : Nat) (f : Blk → Blk) : s.updBlk n f = s.setBlk n (f (s.blk n)) := rfl

@[simp] theorem State.setRgn_fields (s : State) (n : Nat) (v : Rgn) :
    (s.setRgn n v).pending = s.pending ∧ (s.setRgn n v).variant = s.variant ∧ (s.setRgn n v).step = s.step ∧
    (s.setRgn n v).out = s.out ∧ (s.setRgn n v).aon = s.aon ∧ (s.setRgn n v).evr = s.evr ∧
    (s.setRgn n v).regs = s.regs ∧ (s.setRgn n v).power = s.power ∧ (s.setRgn n v).bank = s.bank ∧
    (s.setRgn n v).broker = s.broker ∧ (s.setRgn n v).loops = s.loops ∧ (s.setRgn n v).lanes = s.lanes ∧
    (s.setRgn n v).dies = s.dies ∧ (s.setRgn n v).dieCnt = s.dieCnt ∧ (s.setRgn n v).blks = s.blks ∧
    (s.setRgn n v).rgns = Tbl.put {} s.rgns n v ∧ (s.setRgn n v).sets = s.sets ∧ (s.setRgn n v).nss = s.nss ∧
    (s.setRgn n v).zones = s.zones ∧ (s.setRgn n v).media = s.media ∧ (s.setRgn n v).parity = s.parity ∧ (s.setRgn n v).tenants = s.tenants ∧
    (s.setRgn n v).ctrls = s.ctrls ∧ (s.setRgn n v).sqs = s.sqs ∧ (s.setRgn n v).cqs = s.cqs ∧
    (s.setRgn n v).links = s.links ∧ (s.setRgn n v).work = s.work ∧ (s.setRgn n v).tmk = s.tmk ∧
    (s.setRgn n v).cph = s.cph ∧ (s.setRgn n v).fab = s.fab ∧ (s.setRgn n v).mem = s.mem ∧
    (s.setRgn n v).flt = s.flt ∧ (s.setRgn n v).boot = s.boot ∧ (s.setRgn n v).store = s.store :=
  ⟨rfl, rfl, rfl, rfl, rfl, rfl, rfl, rfl, rfl, rfl, rfl, rfl, rfl, rfl, rfl, rfl, rfl, rfl, rfl, rfl, rfl, rfl, rfl, rfl, rfl, rfl, rfl, rfl, rfl, rfl, rfl, rfl, rfl, rfl⟩

@[simp] theorem State.rgn_setRgn (s : State) (n m : Nat) (v : Rgn) :
    (s.setRgn n v).rgn m = if m = n then v else s.rgn m := Tbl.look_put _ _ _ _ _

theorem State.updRgn_eq (s : State) (n : Nat) (f : Rgn → Rgn) : s.updRgn n f = s.setRgn n (f (s.rgn n)) := rfl

@[simp] theorem State.setStripe_fields (s : State) (n : Nat) (v : StripeSet) :
    (s.setStripe n v).pending = s.pending ∧ (s.setStripe n v).variant = s.variant ∧ (s.setStripe n v).step = s.step ∧
    (s.setStripe n v).out = s.out ∧ (s.setStripe n v).aon = s.aon ∧ (s.setStripe n v).evr = s.evr ∧
    (s.setStripe n v).regs = s.regs ∧ (s.setStripe n v).power = s.power ∧ (s.setStripe n v).bank = s.bank ∧
    (s.setStripe n v).broker = s.broker ∧ (s.setStripe n v).loops = s.loops ∧ (s.setStripe n v).lanes = s.lanes ∧
    (s.setStripe n v).dies = s.dies ∧ (s.setStripe n v).dieCnt = s.dieCnt ∧ (s.setStripe n v).blks = s.blks ∧
    (s.setStripe n v).rgns = s.rgns ∧ (s.setStripe n v).sets = Tbl.put {} s.sets n v ∧
    (s.setStripe n v).nss = s.nss ∧ (s.setStripe n v).zones = s.zones ∧ (s.setStripe n v).media = s.media ∧ (s.setStripe n v).parity = s.parity ∧
    (s.setStripe n v).tenants = s.tenants ∧ (s.setStripe n v).ctrls = s.ctrls ∧ (s.setStripe n v).sqs = s.sqs ∧
    (s.setStripe n v).cqs = s.cqs ∧ (s.setStripe n v).links = s.links ∧ (s.setStripe n v).work = s.work ∧
    (s.setStripe n v).tmk = s.tmk ∧ (s.setStripe n v).cph = s.cph ∧ (s.setStripe n v).fab = s.fab ∧
    (s.setStripe n v).mem = s.mem ∧ (s.setStripe n v).flt = s.flt ∧ (s.setStripe n v).boot = s.boot ∧
    (s.setStripe n v).store = s.store :=
  ⟨rfl, rfl, rfl, rfl, rfl, rfl, rfl, rfl, rfl, rfl, rfl, rfl, rfl, rfl, rfl, rfl, rfl, rfl, rfl, rfl, rfl, rfl, rfl, rfl, rfl, rfl, rfl, rfl, rfl, rfl, rfl, rfl, rfl, rfl⟩

@[simp] theorem State.stripe_setStripe (s : State) (n m : Nat) (v : StripeSet) :
    (s.setStripe n v).stripe m = if m = n then v else s.stripe m := Tbl.look_put _ _ _ _ _

theorem State.updStripe_eq (s : State) (n : Nat) (f : StripeSet → StripeSet) : s.updStripe n f = s.setStripe n (f (s.stripe n)) := rfl

@[simp] theorem State.setNs_fields (s : State) (n : Nat) (v : Ns) :
    (s.setNs n v).pending = s.pending ∧ (s.setNs n v).variant = s.variant ∧ (s.setNs n v).step = s.step ∧
    (s.setNs n v).out = s.out ∧ (s.setNs n v).aon = s.aon ∧ (s.setNs n v).evr = s.evr ∧ (s.setNs n v).regs = s.regs ∧
    (s.setNs n v).power = s.power ∧ (s.setNs n v).bank = s.bank ∧ (s.setNs n v).broker = s.broker ∧
    (s.setNs n v).loops = s.loops ∧ (s.setNs n v).lanes = s.lanes ∧ (s.setNs n v).dies = s.dies ∧
    (s.setNs n v).dieCnt = s.dieCnt ∧ (s.setNs n v).blks = s.blks ∧ (s.setNs n v).rgns = s.rgns ∧
    (s.setNs n v).sets = s.sets ∧ (s.setNs n v).nss = Tbl.put {} s.nss n v ∧ (s.setNs n v).zones = s.zones ∧
    (s.setNs n v).media = s.media ∧ (s.setNs n v).parity = s.parity ∧ (s.setNs n v).tenants = s.tenants ∧ (s.setNs n v).ctrls = s.ctrls ∧
    (s.setNs n v).sqs = s.sqs ∧ (s.setNs n v).cqs = s.cqs ∧ (s.setNs n v).links = s.links ∧
    (s.setNs n v).work = s.work ∧ (s.setNs n v).tmk = s.tmk ∧ (s.setNs n v).cph = s.cph ∧ (s.setNs n v).fab = s.fab ∧
    (s.setNs n v).mem = s.mem ∧ (s.setNs n v).flt = s.flt ∧ (s.setNs n v).boot = s.boot ∧
    (s.setNs n v).store = s.store :=
  ⟨rfl, rfl, rfl, rfl, rfl, rfl, rfl, rfl, rfl, rfl, rfl, rfl, rfl, rfl, rfl, rfl, rfl, rfl, rfl, rfl, rfl, rfl, rfl, rfl, rfl, rfl, rfl, rfl, rfl, rfl, rfl, rfl, rfl, rfl⟩

@[simp] theorem State.ns_setNs (s : State) (n m : Nat) (v : Ns) :
    (s.setNs n v).ns m = if m = n then v else s.ns m := Tbl.look_put _ _ _ _ _

theorem State.updNs_eq (s : State) (n : Nat) (f : Ns → Ns) : s.updNs n f = s.setNs n (f (s.ns n)) := rfl

@[simp] theorem State.setZone_fields (s : State) (n : Nat) (v : Zone) :
    (s.setZone n v).pending = s.pending ∧ (s.setZone n v).variant = s.variant ∧ (s.setZone n v).step = s.step ∧
    (s.setZone n v).out = s.out ∧ (s.setZone n v).aon = s.aon ∧ (s.setZone n v).evr = s.evr ∧
    (s.setZone n v).regs = s.regs ∧ (s.setZone n v).power = s.power ∧ (s.setZone n v).bank = s.bank ∧
    (s.setZone n v).broker = s.broker ∧ (s.setZone n v).loops = s.loops ∧ (s.setZone n v).lanes = s.lanes ∧
    (s.setZone n v).dies = s.dies ∧ (s.setZone n v).dieCnt = s.dieCnt ∧ (s.setZone n v).blks = s.blks ∧
    (s.setZone n v).rgns = s.rgns ∧ (s.setZone n v).sets = s.sets ∧ (s.setZone n v).nss = s.nss ∧
    (s.setZone n v).zones = Tbl.put {} s.zones n v ∧ (s.setZone n v).media = s.media ∧ (s.setZone n v).parity = s.parity ∧
    (s.setZone n v).tenants = s.tenants ∧ (s.setZone n v).ctrls = s.ctrls ∧ (s.setZone n v).sqs = s.sqs ∧
    (s.setZone n v).cqs = s.cqs ∧ (s.setZone n v).links = s.links ∧ (s.setZone n v).work = s.work ∧
    (s.setZone n v).tmk = s.tmk ∧ (s.setZone n v).cph = s.cph ∧ (s.setZone n v).fab = s.fab ∧
    (s.setZone n v).mem = s.mem ∧ (s.setZone n v).flt = s.flt ∧ (s.setZone n v).boot = s.boot ∧
    (s.setZone n v).store = s.store :=
  ⟨rfl, rfl, rfl, rfl, rfl, rfl, rfl, rfl, rfl, rfl, rfl, rfl, rfl, rfl, rfl, rfl, rfl, rfl, rfl, rfl, rfl, rfl, rfl, rfl, rfl, rfl, rfl, rfl, rfl, rfl, rfl, rfl, rfl, rfl⟩

@[simp] theorem State.zone_setZone (s : State) (n m : Nat) (v : Zone) :
    (s.setZone n v).zone m = if m = n then v else s.zone m := Tbl.look_put _ _ _ _ _

theorem State.updZone_eq (s : State) (n : Nat) (f : Zone → Zone) : s.updZone n f = s.setZone n (f (s.zone n)) := rfl

@[simp] theorem State.setTenant_fields (s : State) (n : Nat) (v : Tenant) :
    (s.setTenant n v).pending = s.pending ∧ (s.setTenant n v).variant = s.variant ∧ (s.setTenant n v).step = s.step ∧
    (s.setTenant n v).out = s.out ∧ (s.setTenant n v).aon = s.aon ∧ (s.setTenant n v).evr = s.evr ∧
    (s.setTenant n v).regs = s.regs ∧ (s.setTenant n v).power = s.power ∧ (s.setTenant n v).bank = s.bank ∧
    (s.setTenant n v).broker = s.broker ∧ (s.setTenant n v).loops = s.loops ∧ (s.setTenant n v).lanes = s.lanes ∧
    (s.setTenant n v).dies = s.dies ∧ (s.setTenant n v).dieCnt = s.dieCnt ∧ (s.setTenant n v).blks = s.blks ∧
    (s.setTenant n v).rgns = s.rgns ∧ (s.setTenant n v).sets = s.sets ∧ (s.setTenant n v).nss = s.nss ∧
    (s.setTenant n v).zones = s.zones ∧ (s.setTenant n v).media = s.media ∧ (s.setTenant n v).parity = s.parity ∧
    (s.setTenant n v).tenants = Tbl.put {} s.tenants n v ∧ (s.setTenant n v).ctrls = s.ctrls ∧
    (s.setTenant n v).sqs = s.sqs ∧ (s.setTenant n v).cqs = s.cqs ∧ (s.setTenant n v).links = s.links ∧
    (s.setTenant n v).work = s.work ∧ (s.setTenant n v).tmk = s.tmk ∧ (s.setTenant n v).cph = s.cph ∧
    (s.setTenant n v).fab = s.fab ∧ (s.setTenant n v).mem = s.mem ∧ (s.setTenant n v).flt = s.flt ∧
    (s.setTenant n v).boot = s.boot ∧ (s.setTenant n v).store = s.store :=
  ⟨rfl, rfl, rfl, rfl, rfl, rfl, rfl, rfl, rfl, rfl, rfl, rfl, rfl, rfl, rfl, rfl, rfl, rfl, rfl, rfl, rfl, rfl, rfl, rfl, rfl, rfl, rfl, rfl, rfl, rfl, rfl, rfl, rfl, rfl⟩

@[simp] theorem State.tenant_setTenant (s : State) (n m : Nat) (v : Tenant) :
    (s.setTenant n v).tenant m = if m = n then v else s.tenant m := Tbl.look_put _ _ _ _ _

theorem State.updTenant_eq (s : State) (n : Nat) (f : Tenant → Tenant) : s.updTenant n f = s.setTenant n (f (s.tenant n)) := rfl

@[simp] theorem State.setCtrl_fields (s : State) (n : Nat) (v : Ctrl) :
    (s.setCtrl n v).pending = s.pending ∧ (s.setCtrl n v).variant = s.variant ∧ (s.setCtrl n v).step = s.step ∧
    (s.setCtrl n v).out = s.out ∧ (s.setCtrl n v).aon = s.aon ∧ (s.setCtrl n v).evr = s.evr ∧
    (s.setCtrl n v).regs = s.regs ∧ (s.setCtrl n v).power = s.power ∧ (s.setCtrl n v).bank = s.bank ∧
    (s.setCtrl n v).broker = s.broker ∧ (s.setCtrl n v).loops = s.loops ∧ (s.setCtrl n v).lanes = s.lanes ∧
    (s.setCtrl n v).dies = s.dies ∧ (s.setCtrl n v).dieCnt = s.dieCnt ∧ (s.setCtrl n v).blks = s.blks ∧
    (s.setCtrl n v).rgns = s.rgns ∧ (s.setCtrl n v).sets = s.sets ∧ (s.setCtrl n v).nss = s.nss ∧
    (s.setCtrl n v).zones = s.zones ∧ (s.setCtrl n v).media = s.media ∧ (s.setCtrl n v).parity = s.parity ∧ (s.setCtrl n v).tenants = s.tenants ∧
    (s.setCtrl n v).ctrls = Tbl.put {} s.ctrls n v ∧ (s.setCtrl n v).sqs = s.sqs ∧ (s.setCtrl n v).cqs = s.cqs ∧
    (s.setCtrl n v).links = s.links ∧ (s.setCtrl n v).work = s.work ∧ (s.setCtrl n v).tmk = s.tmk ∧
    (s.setCtrl n v).cph = s.cph ∧ (s.setCtrl n v).fab = s.fab ∧ (s.setCtrl n v).mem = s.mem ∧
    (s.setCtrl n v).flt = s.flt ∧ (s.setCtrl n v).boot = s.boot ∧ (s.setCtrl n v).store = s.store :=
  ⟨rfl, rfl, rfl, rfl, rfl, rfl, rfl, rfl, rfl, rfl, rfl, rfl, rfl, rfl, rfl, rfl, rfl, rfl, rfl, rfl, rfl, rfl, rfl, rfl, rfl, rfl, rfl, rfl, rfl, rfl, rfl, rfl, rfl, rfl⟩

@[simp] theorem State.ctrl_setCtrl (s : State) (n m : Nat) (v : Ctrl) :
    (s.setCtrl n v).ctrl m = if m = n then v else s.ctrl m := Tbl.look_put _ _ _ _ _

theorem State.updCtrl_eq (s : State) (n : Nat) (f : Ctrl → Ctrl) : s.updCtrl n f = s.setCtrl n (f (s.ctrl n)) := rfl

@[simp] theorem State.setSq_fields (s : State) (n : Nat) (v : Sq) :
    (s.setSq n v).pending = s.pending ∧ (s.setSq n v).variant = s.variant ∧ (s.setSq n v).step = s.step ∧
    (s.setSq n v).out = s.out ∧ (s.setSq n v).aon = s.aon ∧ (s.setSq n v).evr = s.evr ∧ (s.setSq n v).regs = s.regs ∧
    (s.setSq n v).power = s.power ∧ (s.setSq n v).bank = s.bank ∧ (s.setSq n v).broker = s.broker ∧
    (s.setSq n v).loops = s.loops ∧ (s.setSq n v).lanes = s.lanes ∧ (s.setSq n v).dies = s.dies ∧
    (s.setSq n v).dieCnt = s.dieCnt ∧ (s.setSq n v).blks = s.blks ∧ (s.setSq n v).rgns = s.rgns ∧
    (s.setSq n v).sets = s.sets ∧ (s.setSq n v).nss = s.nss ∧ (s.setSq n v).zones = s.zones ∧
    (s.setSq n v).media = s.media ∧ (s.setSq n v).parity = s.parity ∧ (s.setSq n v).tenants = s.tenants ∧ (s.setSq n v).ctrls = s.ctrls ∧
    (s.setSq n v).sqs = Tbl.put {} s.sqs n v ∧ (s.setSq n v).cqs = s.cqs ∧ (s.setSq n v).links = s.links ∧
    (s.setSq n v).work = s.work ∧ (s.setSq n v).tmk = s.tmk ∧ (s.setSq n v).cph = s.cph ∧ (s.setSq n v).fab = s.fab ∧
    (s.setSq n v).mem = s.mem ∧ (s.setSq n v).flt = s.flt ∧ (s.setSq n v).boot = s.boot ∧
    (s.setSq n v).store = s.store :=
  ⟨rfl, rfl, rfl, rfl, rfl, rfl, rfl, rfl, rfl, rfl, rfl, rfl, rfl, rfl, rfl, rfl, rfl, rfl, rfl, rfl, rfl, rfl, rfl, rfl, rfl, rfl, rfl, rfl, rfl, rfl, rfl, rfl, rfl, rfl⟩

@[simp] theorem State.sq_setSq (s : State) (n m : Nat) (v : Sq) :
    (s.setSq n v).sq m = if m = n then v else s.sq m := Tbl.look_put _ _ _ _ _

theorem State.updSq_eq (s : State) (n : Nat) (f : Sq → Sq) : s.updSq n f = s.setSq n (f (s.sq n)) := rfl

@[simp] theorem State.setCq_fields (s : State) (n : Nat) (v : Cq) :
    (s.setCq n v).pending = s.pending ∧ (s.setCq n v).variant = s.variant ∧ (s.setCq n v).step = s.step ∧
    (s.setCq n v).out = s.out ∧ (s.setCq n v).aon = s.aon ∧ (s.setCq n v).evr = s.evr ∧ (s.setCq n v).regs = s.regs ∧
    (s.setCq n v).power = s.power ∧ (s.setCq n v).bank = s.bank ∧ (s.setCq n v).broker = s.broker ∧
    (s.setCq n v).loops = s.loops ∧ (s.setCq n v).lanes = s.lanes ∧ (s.setCq n v).dies = s.dies ∧
    (s.setCq n v).dieCnt = s.dieCnt ∧ (s.setCq n v).blks = s.blks ∧ (s.setCq n v).rgns = s.rgns ∧
    (s.setCq n v).sets = s.sets ∧ (s.setCq n v).nss = s.nss ∧ (s.setCq n v).zones = s.zones ∧
    (s.setCq n v).media = s.media ∧ (s.setCq n v).parity = s.parity ∧ (s.setCq n v).tenants = s.tenants ∧ (s.setCq n v).ctrls = s.ctrls ∧
    (s.setCq n v).sqs = s.sqs ∧ (s.setCq n v).cqs = Tbl.put {} s.cqs n v ∧ (s.setCq n v).links = s.links ∧
    (s.setCq n v).work = s.work ∧ (s.setCq n v).tmk = s.tmk ∧ (s.setCq n v).cph = s.cph ∧ (s.setCq n v).fab = s.fab ∧
    (s.setCq n v).mem = s.mem ∧ (s.setCq n v).flt = s.flt ∧ (s.setCq n v).boot = s.boot ∧
    (s.setCq n v).store = s.store :=
  ⟨rfl, rfl, rfl, rfl, rfl, rfl, rfl, rfl, rfl, rfl, rfl, rfl, rfl, rfl, rfl, rfl, rfl, rfl, rfl, rfl, rfl, rfl, rfl, rfl, rfl, rfl, rfl, rfl, rfl, rfl, rfl, rfl, rfl, rfl⟩

@[simp] theorem State.cq_setCq (s : State) (n m : Nat) (v : Cq) :
    (s.setCq n v).cq m = if m = n then v else s.cq m := Tbl.look_put _ _ _ _ _

theorem State.updCq_eq (s : State) (n : Nat) (f : Cq → Cq) : s.updCq n f = s.setCq n (f (s.cq n)) := rfl

@[simp] theorem State.setLink_fields (s : State) (n : Nat) (v : PcieLink) :
    (s.setLink n v).pending = s.pending ∧ (s.setLink n v).variant = s.variant ∧ (s.setLink n v).step = s.step ∧
    (s.setLink n v).out = s.out ∧ (s.setLink n v).aon = s.aon ∧ (s.setLink n v).evr = s.evr ∧
    (s.setLink n v).regs = s.regs ∧ (s.setLink n v).power = s.power ∧ (s.setLink n v).bank = s.bank ∧
    (s.setLink n v).broker = s.broker ∧ (s.setLink n v).loops = s.loops ∧ (s.setLink n v).lanes = s.lanes ∧
    (s.setLink n v).dies = s.dies ∧ (s.setLink n v).dieCnt = s.dieCnt ∧ (s.setLink n v).blks = s.blks ∧
    (s.setLink n v).rgns = s.rgns ∧ (s.setLink n v).sets = s.sets ∧ (s.setLink n v).nss = s.nss ∧
    (s.setLink n v).zones = s.zones ∧ (s.setLink n v).media = s.media ∧ (s.setLink n v).parity = s.parity ∧ (s.setLink n v).tenants = s.tenants ∧
    (s.setLink n v).ctrls = s.ctrls ∧ (s.setLink n v).sqs = s.sqs ∧ (s.setLink n v).cqs = s.cqs ∧
    (s.setLink n v).links = Tbl.put {} s.links n v ∧ (s.setLink n v).work = s.work ∧ (s.setLink n v).tmk = s.tmk ∧
    (s.setLink n v).cph = s.cph ∧ (s.setLink n v).fab = s.fab ∧ (s.setLink n v).mem = s.mem ∧
    (s.setLink n v).flt = s.flt ∧ (s.setLink n v).boot = s.boot ∧ (s.setLink n v).store = s.store :=
  ⟨rfl, rfl, rfl, rfl, rfl, rfl, rfl, rfl, rfl, rfl, rfl, rfl, rfl, rfl, rfl, rfl, rfl, rfl, rfl, rfl, rfl, rfl, rfl, rfl, rfl, rfl, rfl, rfl, rfl, rfl, rfl, rfl, rfl, rfl⟩

@[simp] theorem State.link_setLink (s : State) (n m : Nat) (v : PcieLink) :
    (s.setLink n v).link m = if m = n then v else s.link m := Tbl.look_put _ _ _ _ _

theorem State.updLink_eq (s : State) (n : Nat) (f : PcieLink → PcieLink) : s.updLink n f = s.setLink n (f (s.link n)) := rfl

@[simp] theorem State.setConn_fields (s : State) (n : Nat) (v : Conn) :
    (s.setConn n v).pending = s.pending ∧ (s.setConn n v).variant = s.variant ∧ (s.setConn n v).step = s.step ∧
    (s.setConn n v).out = s.out ∧ (s.setConn n v).aon = s.aon ∧ (s.setConn n v).evr = s.evr ∧
    (s.setConn n v).regs = s.regs ∧ (s.setConn n v).power = s.power ∧ (s.setConn n v).bank = s.bank ∧
    (s.setConn n v).broker = s.broker ∧ (s.setConn n v).loops = s.loops ∧ (s.setConn n v).lanes = s.lanes ∧
    (s.setConn n v).dies = s.dies ∧ (s.setConn n v).dieCnt = s.dieCnt ∧ (s.setConn n v).blks = s.blks ∧
    (s.setConn n v).rgns = s.rgns ∧ (s.setConn n v).sets = s.sets ∧ (s.setConn n v).nss = s.nss ∧
    (s.setConn n v).zones = s.zones ∧ (s.setConn n v).media = s.media ∧ (s.setConn n v).parity = s.parity ∧ (s.setConn n v).tenants = s.tenants ∧
    (s.setConn n v).ctrls = s.ctrls ∧ (s.setConn n v).sqs = s.sqs ∧ (s.setConn n v).cqs = s.cqs ∧
    (s.setConn n v).links = s.links ∧ (s.setConn n v).work = s.work ∧ (s.setConn n v).tmk = s.tmk ∧
    (s.setConn n v).cph = s.cph ∧ (s.setConn n v).fab = { s.fab with conns := Tbl.put {} s.fab.conns n v } ∧
    (s.setConn n v).mem = s.mem ∧ (s.setConn n v).flt = s.flt ∧ (s.setConn n v).boot = s.boot ∧
    (s.setConn n v).store = s.store :=
  ⟨rfl, rfl, rfl, rfl, rfl, rfl, rfl, rfl, rfl, rfl, rfl, rfl, rfl, rfl, rfl, rfl, rfl, rfl, rfl, rfl, rfl, rfl, rfl, rfl, rfl, rfl, rfl, rfl, rfl, rfl, rfl, rfl, rfl, rfl⟩

@[simp] theorem State.conn_setConn (s : State) (n m : Nat) (v : Conn) :
    (s.setConn n v).conn m = if m = n then v else s.conn m := Tbl.look_put _ _ _ _ _

theorem State.updConn_eq (s : State) (n : Nat) (f : Conn → Conn) : s.updConn n f = s.setConn n (f (s.conn n)) := rfl

@[simp] theorem State.setWindow_fields (s : State) (n : Nat) (v : Window) :
    (s.setWindow n v).pending = s.pending ∧ (s.setWindow n v).variant = s.variant ∧ (s.setWindow n v).step = s.step ∧
    (s.setWindow n v).out = s.out ∧ (s.setWindow n v).aon = s.aon ∧ (s.setWindow n v).evr = s.evr ∧
    (s.setWindow n v).regs = s.regs ∧ (s.setWindow n v).power = s.power ∧ (s.setWindow n v).bank = s.bank ∧
    (s.setWindow n v).broker = s.broker ∧ (s.setWindow n v).loops = s.loops ∧ (s.setWindow n v).lanes = s.lanes ∧
    (s.setWindow n v).dies = s.dies ∧ (s.setWindow n v).dieCnt = s.dieCnt ∧ (s.setWindow n v).blks = s.blks ∧
    (s.setWindow n v).rgns = s.rgns ∧ (s.setWindow n v).sets = s.sets ∧ (s.setWindow n v).nss = s.nss ∧
    (s.setWindow n v).zones = s.zones ∧ (s.setWindow n v).media = s.media ∧ (s.setWindow n v).parity = s.parity ∧ (s.setWindow n v).tenants = s.tenants ∧
    (s.setWindow n v).ctrls = s.ctrls ∧ (s.setWindow n v).sqs = s.sqs ∧ (s.setWindow n v).cqs = s.cqs ∧
    (s.setWindow n v).links = s.links ∧ (s.setWindow n v).work = s.work ∧ (s.setWindow n v).tmk = s.tmk ∧
    (s.setWindow n v).cph = s.cph ∧ (s.setWindow n v).fab = { s.fab with windows := Tbl.put {} s.fab.windows n v } ∧
    (s.setWindow n v).mem = s.mem ∧ (s.setWindow n v).flt = s.flt ∧ (s.setWindow n v).boot = s.boot ∧
    (s.setWindow n v).store = s.store :=
  ⟨rfl, rfl, rfl, rfl, rfl, rfl, rfl, rfl, rfl, rfl, rfl, rfl, rfl, rfl, rfl, rfl, rfl, rfl, rfl, rfl, rfl, rfl, rfl, rfl, rfl, rfl, rfl, rfl, rfl, rfl, rfl, rfl, rfl, rfl⟩

@[simp] theorem State.window_setWindow (s : State) (n m : Nat) (v : Window) :
    (s.setWindow n v).window m = if m = n then v else s.window m := Tbl.look_put _ _ _ _ _

theorem State.updWindow_eq (s : State) (n : Nat) (f : Window → Window) : s.updWindow n f = s.setWindow n (f (s.window n)) := rfl

@[simp] theorem State.setPort_fields (s : State) (n : Nat) (v : EthPort) :
    (s.setPort n v).pending = s.pending ∧ (s.setPort n v).variant = s.variant ∧ (s.setPort n v).step = s.step ∧
    (s.setPort n v).out = s.out ∧ (s.setPort n v).aon = s.aon ∧ (s.setPort n v).evr = s.evr ∧
    (s.setPort n v).regs = s.regs ∧ (s.setPort n v).power = s.power ∧ (s.setPort n v).bank = s.bank ∧
    (s.setPort n v).broker = s.broker ∧ (s.setPort n v).loops = s.loops ∧ (s.setPort n v).lanes = s.lanes ∧
    (s.setPort n v).dies = s.dies ∧ (s.setPort n v).dieCnt = s.dieCnt ∧ (s.setPort n v).blks = s.blks ∧
    (s.setPort n v).rgns = s.rgns ∧ (s.setPort n v).sets = s.sets ∧ (s.setPort n v).nss = s.nss ∧
    (s.setPort n v).zones = s.zones ∧ (s.setPort n v).media = s.media ∧ (s.setPort n v).parity = s.parity ∧ (s.setPort n v).tenants = s.tenants ∧
    (s.setPort n v).ctrls = s.ctrls ∧ (s.setPort n v).sqs = s.sqs ∧ (s.setPort n v).cqs = s.cqs ∧
    (s.setPort n v).links = s.links ∧ (s.setPort n v).work = s.work ∧ (s.setPort n v).tmk = s.tmk ∧
    (s.setPort n v).cph = s.cph ∧ (s.setPort n v).fab = { s.fab with ports := Tbl.put {} s.fab.ports n v } ∧
    (s.setPort n v).mem = s.mem ∧ (s.setPort n v).flt = s.flt ∧ (s.setPort n v).boot = s.boot ∧
    (s.setPort n v).store = s.store :=
  ⟨rfl, rfl, rfl, rfl, rfl, rfl, rfl, rfl, rfl, rfl, rfl, rfl, rfl, rfl, rfl, rfl, rfl, rfl, rfl, rfl, rfl, rfl, rfl, rfl, rfl, rfl, rfl, rfl, rfl, rfl, rfl, rfl, rfl, rfl⟩

@[simp] theorem State.port_setPort (s : State) (n m : Nat) (v : EthPort) :
    (s.setPort n v).port m = if m = n then v else s.port m := Tbl.look_put _ _ _ _ _

theorem State.updPort_eq (s : State) (n : Nat) (f : EthPort → EthPort) : s.updPort n f = s.setPort n (f (s.port n)) := rfl

@[simp] theorem State.setChan_fields (s : State) (n : Nat) (v : Chan) :
    (s.setChan n v).pending = s.pending ∧ (s.setChan n v).variant = s.variant ∧ (s.setChan n v).step = s.step ∧
    (s.setChan n v).out = s.out ∧ (s.setChan n v).aon = s.aon ∧ (s.setChan n v).evr = s.evr ∧
    (s.setChan n v).regs = s.regs ∧ (s.setChan n v).power = s.power ∧ (s.setChan n v).bank = s.bank ∧
    (s.setChan n v).broker = s.broker ∧ (s.setChan n v).loops = s.loops ∧ (s.setChan n v).lanes = s.lanes ∧
    (s.setChan n v).dies = s.dies ∧ (s.setChan n v).dieCnt = s.dieCnt ∧ (s.setChan n v).blks = s.blks ∧
    (s.setChan n v).rgns = s.rgns ∧ (s.setChan n v).sets = s.sets ∧ (s.setChan n v).nss = s.nss ∧
    (s.setChan n v).zones = s.zones ∧ (s.setChan n v).media = s.media ∧ (s.setChan n v).parity = s.parity ∧ (s.setChan n v).tenants = s.tenants ∧
    (s.setChan n v).ctrls = s.ctrls ∧ (s.setChan n v).sqs = s.sqs ∧ (s.setChan n v).cqs = s.cqs ∧
    (s.setChan n v).links = s.links ∧ (s.setChan n v).work = s.work ∧ (s.setChan n v).tmk = s.tmk ∧
    (s.setChan n v).cph = s.cph ∧ (s.setChan n v).fab = s.fab ∧
    (s.setChan n v).mem = { s.mem with chans := Tbl.put {} s.mem.chans n v } ∧ (s.setChan n v).flt = s.flt ∧
    (s.setChan n v).boot = s.boot ∧ (s.setChan n v).store = s.store :=
  ⟨rfl, rfl, rfl, rfl, rfl, rfl, rfl, rfl, rfl, rfl, rfl, rfl, rfl, rfl, rfl, rfl, rfl, rfl, rfl, rfl, rfl, rfl, rfl, rfl, rfl, rfl, rfl, rfl, rfl, rfl, rfl, rfl, rfl, rfl⟩

@[simp] theorem State.chan_setChan (s : State) (n m : Nat) (v : Chan) :
    (s.setChan n v).chan m = if m = n then v else s.chan m := Tbl.look_put _ _ _ _ _

theorem State.updChan_eq (s : State) (n : Nat) (f : Chan → Chan) : s.updChan n f = s.setChan n (f (s.chan n)) := rfl

@[simp] theorem State.setBuf_fields (s : State) (n : Nat) (v : Buf) :
    (s.setBuf n v).pending = s.pending ∧ (s.setBuf n v).variant = s.variant ∧ (s.setBuf n v).step = s.step ∧
    (s.setBuf n v).out = s.out ∧ (s.setBuf n v).aon = s.aon ∧ (s.setBuf n v).evr = s.evr ∧
    (s.setBuf n v).regs = s.regs ∧ (s.setBuf n v).power = s.power ∧ (s.setBuf n v).bank = s.bank ∧
    (s.setBuf n v).broker = s.broker ∧ (s.setBuf n v).loops = s.loops ∧ (s.setBuf n v).lanes = s.lanes ∧
    (s.setBuf n v).dies = s.dies ∧ (s.setBuf n v).dieCnt = s.dieCnt ∧ (s.setBuf n v).blks = s.blks ∧
    (s.setBuf n v).rgns = s.rgns ∧ (s.setBuf n v).sets = s.sets ∧ (s.setBuf n v).nss = s.nss ∧
    (s.setBuf n v).zones = s.zones ∧ (s.setBuf n v).media = s.media ∧ (s.setBuf n v).parity = s.parity ∧ (s.setBuf n v).tenants = s.tenants ∧
    (s.setBuf n v).ctrls = s.ctrls ∧ (s.setBuf n v).sqs = s.sqs ∧ (s.setBuf n v).cqs = s.cqs ∧
    (s.setBuf n v).links = s.links ∧ (s.setBuf n v).work = s.work ∧ (s.setBuf n v).tmk = s.tmk ∧
    (s.setBuf n v).cph = s.cph ∧ (s.setBuf n v).fab = s.fab ∧
    (s.setBuf n v).mem = { s.mem with bufs := Tbl.put {} s.mem.bufs n v } ∧ (s.setBuf n v).flt = s.flt ∧
    (s.setBuf n v).boot = s.boot ∧ (s.setBuf n v).store = s.store :=
  ⟨rfl, rfl, rfl, rfl, rfl, rfl, rfl, rfl, rfl, rfl, rfl, rfl, rfl, rfl, rfl, rfl, rfl, rfl, rfl, rfl, rfl, rfl, rfl, rfl, rfl, rfl, rfl, rfl, rfl, rfl, rfl, rfl, rfl, rfl⟩

@[simp] theorem State.buf_setBuf (s : State) (n m : Nat) (v : Buf) :
    (s.setBuf n v).buf m = if m = n then v else s.buf m := Tbl.look_put _ _ _ _ _

theorem State.updBuf_eq (s : State) (n : Nat) (f : Buf → Buf) : s.updBuf n f = s.setBuf n (f (s.buf n)) := rfl

@[simp] theorem State.setCtx_fields (s : State) (n : Nat) (v : Option Ctx) :
    (s.setCtx n v).pending = s.pending ∧ (s.setCtx n v).variant = s.variant ∧ (s.setCtx n v).step = s.step ∧
    (s.setCtx n v).out = s.out ∧ (s.setCtx n v).aon = s.aon ∧ (s.setCtx n v).evr = s.evr ∧
    (s.setCtx n v).regs = s.regs ∧ (s.setCtx n v).power = s.power ∧ (s.setCtx n v).bank = s.bank ∧
    (s.setCtx n v).broker = s.broker ∧ (s.setCtx n v).loops = s.loops ∧ (s.setCtx n v).lanes = s.lanes ∧
    (s.setCtx n v).dies = s.dies ∧ (s.setCtx n v).dieCnt = s.dieCnt ∧ (s.setCtx n v).blks = s.blks ∧
    (s.setCtx n v).rgns = s.rgns ∧ (s.setCtx n v).sets = s.sets ∧ (s.setCtx n v).nss = s.nss ∧
    (s.setCtx n v).zones = s.zones ∧ (s.setCtx n v).media = s.media ∧ (s.setCtx n v).parity = s.parity ∧ (s.setCtx n v).tenants = s.tenants ∧
    (s.setCtx n v).ctrls = s.ctrls ∧ (s.setCtx n v).sqs = s.sqs ∧ (s.setCtx n v).cqs = s.cqs ∧
    (s.setCtx n v).links = s.links ∧ (s.setCtx n v).work = { s.work with ctxs := Tbl.put none s.work.ctxs n v } ∧
    (s.setCtx n v).tmk = s.tmk ∧ (s.setCtx n v).cph = s.cph ∧ (s.setCtx n v).fab = s.fab ∧
    (s.setCtx n v).mem = s.mem ∧ (s.setCtx n v).flt = s.flt ∧ (s.setCtx n v).boot = s.boot ∧
    (s.setCtx n v).store = s.store :=
  ⟨rfl, rfl, rfl, rfl, rfl, rfl, rfl, rfl, rfl, rfl, rfl, rfl, rfl, rfl, rfl, rfl, rfl, rfl, rfl, rfl, rfl, rfl, rfl, rfl, rfl, rfl, rfl, rfl, rfl, rfl, rfl, rfl, rfl, rfl⟩

@[simp] theorem State.ctxAt_setCtx (s : State) (n m : Nat) (v : Option Ctx) :
    (s.setCtx n v).ctxAt m = if m = n then v else s.ctxAt m := Tbl.look_put _ _ _ _ _

@[simp] theorem State.setOp_fields (s : State) (n : Nat) (v : Option Op) :
    (s.setOp n v).pending = s.pending ∧ (s.setOp n v).variant = s.variant ∧ (s.setOp n v).step = s.step ∧
    (s.setOp n v).out = s.out ∧ (s.setOp n v).aon = s.aon ∧ (s.setOp n v).evr = s.evr ∧ (s.setOp n v).regs = s.regs ∧
    (s.setOp n v).power = s.power ∧ (s.setOp n v).bank = s.bank ∧ (s.setOp n v).broker = s.broker ∧
    (s.setOp n v).loops = s.loops ∧ (s.setOp n v).lanes = s.lanes ∧ (s.setOp n v).dies = s.dies ∧
    (s.setOp n v).dieCnt = s.dieCnt ∧ (s.setOp n v).blks = s.blks ∧ (s.setOp n v).rgns = s.rgns ∧
    (s.setOp n v).sets = s.sets ∧ (s.setOp n v).nss = s.nss ∧ (s.setOp n v).zones = s.zones ∧
    (s.setOp n v).media = s.media ∧ (s.setOp n v).parity = s.parity ∧ (s.setOp n v).tenants = s.tenants ∧ (s.setOp n v).ctrls = s.ctrls ∧
    (s.setOp n v).sqs = s.sqs ∧ (s.setOp n v).cqs = s.cqs ∧ (s.setOp n v).links = s.links ∧
    (s.setOp n v).work = { s.work with ops := Tbl.put none s.work.ops n v } ∧ (s.setOp n v).tmk = s.tmk ∧
    (s.setOp n v).cph = s.cph ∧ (s.setOp n v).fab = s.fab ∧ (s.setOp n v).mem = s.mem ∧ (s.setOp n v).flt = s.flt ∧
    (s.setOp n v).boot = s.boot ∧ (s.setOp n v).store = s.store :=
  ⟨rfl, rfl, rfl, rfl, rfl, rfl, rfl, rfl, rfl, rfl, rfl, rfl, rfl, rfl, rfl, rfl, rfl, rfl, rfl, rfl, rfl, rfl, rfl, rfl, rfl, rfl, rfl, rfl, rfl, rfl, rfl, rfl, rfl, rfl⟩

@[simp] theorem State.opAt_setOp (s : State) (n m : Nat) (v : Option Op) :
    (s.setOp n v).opAt m = if m = n then v else s.opAt m := Tbl.look_put _ _ _ _ _

@[simp] theorem State.setDecode_fields (s : State) (n : Nat) (v : Option DecodeJob) :
    (s.setDecode n v).pending = s.pending ∧ (s.setDecode n v).variant = s.variant ∧ (s.setDecode n v).step = s.step ∧
    (s.setDecode n v).out = s.out ∧ (s.setDecode n v).aon = s.aon ∧ (s.setDecode n v).evr = s.evr ∧
    (s.setDecode n v).regs = s.regs ∧ (s.setDecode n v).power = s.power ∧ (s.setDecode n v).bank = s.bank ∧
    (s.setDecode n v).broker = s.broker ∧ (s.setDecode n v).loops = s.loops ∧ (s.setDecode n v).lanes = s.lanes ∧
    (s.setDecode n v).dies = s.dies ∧ (s.setDecode n v).dieCnt = s.dieCnt ∧ (s.setDecode n v).blks = s.blks ∧
    (s.setDecode n v).rgns = s.rgns ∧ (s.setDecode n v).sets = s.sets ∧ (s.setDecode n v).nss = s.nss ∧
    (s.setDecode n v).zones = s.zones ∧ (s.setDecode n v).media = s.media ∧ (s.setDecode n v).parity = s.parity ∧ (s.setDecode n v).tenants = s.tenants ∧
    (s.setDecode n v).ctrls = s.ctrls ∧ (s.setDecode n v).sqs = s.sqs ∧ (s.setDecode n v).cqs = s.cqs ∧
    (s.setDecode n v).links = s.links ∧
    (s.setDecode n v).work = { s.work with decodes := Tbl.put none s.work.decodes n v } ∧
    (s.setDecode n v).tmk = s.tmk ∧ (s.setDecode n v).cph = s.cph ∧ (s.setDecode n v).fab = s.fab ∧
    (s.setDecode n v).mem = s.mem ∧ (s.setDecode n v).flt = s.flt ∧ (s.setDecode n v).boot = s.boot ∧
    (s.setDecode n v).store = s.store :=
  ⟨rfl, rfl, rfl, rfl, rfl, rfl, rfl, rfl, rfl, rfl, rfl, rfl, rfl, rfl, rfl, rfl, rfl, rfl, rfl, rfl, rfl, rfl, rfl, rfl, rfl, rfl, rfl, rfl, rfl, rfl, rfl, rfl, rfl, rfl⟩

@[simp] theorem State.decodeAt_setDecode (s : State) (n m : Nat) (v : Option DecodeJob) :
    (s.setDecode n v).decodeAt m = if m = n then v else s.decodeAt m := Tbl.look_put _ _ _ _ _

@[simp] theorem State.setCipherJob_fields (s : State) (n : Nat) (v : Option CipherJob) :
    (s.setCipherJob n v).pending = s.pending ∧ (s.setCipherJob n v).variant = s.variant ∧
    (s.setCipherJob n v).step = s.step ∧ (s.setCipherJob n v).out = s.out ∧ (s.setCipherJob n v).aon = s.aon ∧
    (s.setCipherJob n v).evr = s.evr ∧ (s.setCipherJob n v).regs = s.regs ∧ (s.setCipherJob n v).power = s.power ∧
    (s.setCipherJob n v).bank = s.bank ∧ (s.setCipherJob n v).broker = s.broker ∧
    (s.setCipherJob n v).loops = s.loops ∧ (s.setCipherJob n v).lanes = s.lanes ∧
    (s.setCipherJob n v).dies = s.dies ∧ (s.setCipherJob n v).dieCnt = s.dieCnt ∧
    (s.setCipherJob n v).blks = s.blks ∧ (s.setCipherJob n v).rgns = s.rgns ∧ (s.setCipherJob n v).sets = s.sets ∧
    (s.setCipherJob n v).nss = s.nss ∧ (s.setCipherJob n v).zones = s.zones ∧ (s.setCipherJob n v).media = s.media ∧ (s.setCipherJob n v).parity = s.parity ∧
    (s.setCipherJob n v).tenants = s.tenants ∧ (s.setCipherJob n v).ctrls = s.ctrls ∧
    (s.setCipherJob n v).sqs = s.sqs ∧ (s.setCipherJob n v).cqs = s.cqs ∧ (s.setCipherJob n v).links = s.links ∧
    (s.setCipherJob n v).work = { s.work with ciphers := Tbl.put none s.work.ciphers n v } ∧
    (s.setCipherJob n v).tmk = s.tmk ∧ (s.setCipherJob n v).cph = s.cph ∧ (s.setCipherJob n v).fab = s.fab ∧
    (s.setCipherJob n v).mem = s.mem ∧ (s.setCipherJob n v).flt = s.flt ∧ (s.setCipherJob n v).boot = s.boot ∧
    (s.setCipherJob n v).store = s.store :=
  ⟨rfl, rfl, rfl, rfl, rfl, rfl, rfl, rfl, rfl, rfl, rfl, rfl, rfl, rfl, rfl, rfl, rfl, rfl, rfl, rfl, rfl, rfl, rfl, rfl, rfl, rfl, rfl, rfl, rfl, rfl, rfl, rfl, rfl, rfl⟩

@[simp] theorem State.cipherJobAt_setCipherJob (s : State) (n m : Nat) (v : Option CipherJob) :
    (s.setCipherJob n v).cipherJobAt m = if m = n then v else s.cipherJobAt m := Tbl.look_put _ _ _ _ _

@[simp] theorem State.setParityJob_fields (s : State) (n : Nat) (v : Option ParityJob) :
    (s.setParityJob n v).pending = s.pending ∧ (s.setParityJob n v).variant = s.variant ∧
    (s.setParityJob n v).step = s.step ∧ (s.setParityJob n v).out = s.out ∧ (s.setParityJob n v).aon = s.aon ∧
    (s.setParityJob n v).evr = s.evr ∧ (s.setParityJob n v).regs = s.regs ∧ (s.setParityJob n v).power = s.power ∧
    (s.setParityJob n v).bank = s.bank ∧ (s.setParityJob n v).broker = s.broker ∧
    (s.setParityJob n v).loops = s.loops ∧ (s.setParityJob n v).lanes = s.lanes ∧
    (s.setParityJob n v).dies = s.dies ∧ (s.setParityJob n v).dieCnt = s.dieCnt ∧
    (s.setParityJob n v).blks = s.blks ∧ (s.setParityJob n v).rgns = s.rgns ∧ (s.setParityJob n v).sets = s.sets ∧
    (s.setParityJob n v).nss = s.nss ∧ (s.setParityJob n v).zones = s.zones ∧ (s.setParityJob n v).media = s.media ∧ (s.setParityJob n v).parity = s.parity ∧
    (s.setParityJob n v).tenants = s.tenants ∧ (s.setParityJob n v).ctrls = s.ctrls ∧
    (s.setParityJob n v).sqs = s.sqs ∧ (s.setParityJob n v).cqs = s.cqs ∧ (s.setParityJob n v).links = s.links ∧
    (s.setParityJob n v).work = { s.work with parities := Tbl.put none s.work.parities n v } ∧
    (s.setParityJob n v).tmk = s.tmk ∧ (s.setParityJob n v).cph = s.cph ∧ (s.setParityJob n v).fab = s.fab ∧
    (s.setParityJob n v).mem = s.mem ∧ (s.setParityJob n v).flt = s.flt ∧ (s.setParityJob n v).boot = s.boot ∧
    (s.setParityJob n v).store = s.store :=
  ⟨rfl, rfl, rfl, rfl, rfl, rfl, rfl, rfl, rfl, rfl, rfl, rfl, rfl, rfl, rfl, rfl, rfl, rfl, rfl, rfl, rfl, rfl, rfl, rfl, rfl, rfl, rfl, rfl, rfl, rfl, rfl, rfl, rfl, rfl⟩

@[simp] theorem State.parityJobAt_setParityJob (s : State) (n m : Nat) (v : Option ParityJob) :
    (s.setParityJob n v).parityJobAt m = if m = n then v else s.parityJobAt m := Tbl.look_put _ _ _ _ _

@[simp] theorem State.setRebuild_fields (s : State) (n : Nat) (v : Option Rebuild) :
    (s.setRebuild n v).pending = s.pending ∧ (s.setRebuild n v).variant = s.variant ∧
    (s.setRebuild n v).step = s.step ∧ (s.setRebuild n v).out = s.out ∧ (s.setRebuild n v).aon = s.aon ∧
    (s.setRebuild n v).evr = s.evr ∧ (s.setRebuild n v).regs = s.regs ∧ (s.setRebuild n v).power = s.power ∧
    (s.setRebuild n v).bank = s.bank ∧ (s.setRebuild n v).broker = s.broker ∧ (s.setRebuild n v).loops = s.loops ∧
    (s.setRebuild n v).lanes = s.lanes ∧ (s.setRebuild n v).dies = s.dies ∧ (s.setRebuild n v).dieCnt = s.dieCnt ∧
    (s.setRebuild n v).blks = s.blks ∧ (s.setRebuild n v).rgns = s.rgns ∧ (s.setRebuild n v).sets = s.sets ∧
    (s.setRebuild n v).nss = s.nss ∧ (s.setRebuild n v).zones = s.zones ∧ (s.setRebuild n v).media = s.media ∧ (s.setRebuild n v).parity = s.parity ∧
    (s.setRebuild n v).tenants = s.tenants ∧ (s.setRebuild n v).ctrls = s.ctrls ∧ (s.setRebuild n v).sqs = s.sqs ∧
    (s.setRebuild n v).cqs = s.cqs ∧ (s.setRebuild n v).links = s.links ∧
    (s.setRebuild n v).work = { s.work with rebuilds := Tbl.put none s.work.rebuilds n v } ∧
    (s.setRebuild n v).tmk = s.tmk ∧ (s.setRebuild n v).cph = s.cph ∧ (s.setRebuild n v).fab = s.fab ∧
    (s.setRebuild n v).mem = s.mem ∧ (s.setRebuild n v).flt = s.flt ∧ (s.setRebuild n v).boot = s.boot ∧
    (s.setRebuild n v).store = s.store :=
  ⟨rfl, rfl, rfl, rfl, rfl, rfl, rfl, rfl, rfl, rfl, rfl, rfl, rfl, rfl, rfl, rfl, rfl, rfl, rfl, rfl, rfl, rfl, rfl, rfl, rfl, rfl, rfl, rfl, rfl, rfl, rfl, rfl, rfl, rfl⟩

@[simp] theorem State.rebuildAt_setRebuild (s : State) (n m : Nat) (v : Option Rebuild) :
    (s.setRebuild n v).rebuildAt m = if m = n then v else s.rebuildAt m := Tbl.look_put _ _ _ _ _

@[simp] theorem State.setWinRead_fields (s : State) (n : Nat) (v : Option WinRead) :
    (s.setWinRead n v).pending = s.pending ∧ (s.setWinRead n v).variant = s.variant ∧
    (s.setWinRead n v).step = s.step ∧ (s.setWinRead n v).out = s.out ∧ (s.setWinRead n v).aon = s.aon ∧
    (s.setWinRead n v).evr = s.evr ∧ (s.setWinRead n v).regs = s.regs ∧ (s.setWinRead n v).power = s.power ∧
    (s.setWinRead n v).bank = s.bank ∧ (s.setWinRead n v).broker = s.broker ∧ (s.setWinRead n v).loops = s.loops ∧
    (s.setWinRead n v).lanes = s.lanes ∧ (s.setWinRead n v).dies = s.dies ∧ (s.setWinRead n v).dieCnt = s.dieCnt ∧
    (s.setWinRead n v).blks = s.blks ∧ (s.setWinRead n v).rgns = s.rgns ∧ (s.setWinRead n v).sets = s.sets ∧
    (s.setWinRead n v).nss = s.nss ∧ (s.setWinRead n v).zones = s.zones ∧ (s.setWinRead n v).media = s.media ∧ (s.setWinRead n v).parity = s.parity ∧
    (s.setWinRead n v).tenants = s.tenants ∧ (s.setWinRead n v).ctrls = s.ctrls ∧ (s.setWinRead n v).sqs = s.sqs ∧
    (s.setWinRead n v).cqs = s.cqs ∧ (s.setWinRead n v).links = s.links ∧ (s.setWinRead n v).work = s.work ∧
    (s.setWinRead n v).tmk = s.tmk ∧ (s.setWinRead n v).cph = s.cph ∧
    (s.setWinRead n v).fab = { s.fab with reads := Tbl.put none s.fab.reads n v } ∧ (s.setWinRead n v).mem = s.mem ∧
    (s.setWinRead n v).flt = s.flt ∧ (s.setWinRead n v).boot = s.boot ∧ (s.setWinRead n v).store = s.store :=
  ⟨rfl, rfl, rfl, rfl, rfl, rfl, rfl, rfl, rfl, rfl, rfl, rfl, rfl, rfl, rfl, rfl, rfl, rfl, rfl, rfl, rfl, rfl, rfl, rfl, rfl, rfl, rfl, rfl, rfl, rfl, rfl, rfl, rfl, rfl⟩

@[simp] theorem State.winReadAt_setWinRead (s : State) (n m : Nat) (v : Option WinRead) :
    (s.setWinRead n v).winReadAt m = if m = n then v else s.winReadAt m := Tbl.look_put _ _ _ _ _

end Sys2Proof.Machine
end

