-- ==== Sys2Proof/Laws/Frames.lean ====
section
/-! SUPPORT. The laws of the parity of stripe rows (R174, R178) and of the seed record (R478): what their updates write, and that they leave
every other field alone. -/

namespace Sys2Proof.Machine

/-- The parity of a row written: nothing else of the state changes. -/
@[simp] theorem State.updParity_fields (s : State) (zk row : Nat) (f : RowParity → RowParity) :
    (s.updParity zk row f).pending = s.pending ∧ (s.updParity zk row f).variant = s.variant ∧ (s.updParity zk row f).step = s.step ∧
    (s.updParity zk row f).out = s.out ∧ (s.updParity zk row f).aon = s.aon ∧ (s.updParity zk row f).evr = s.evr ∧
    (s.updParity zk row f).regs = s.regs ∧ (s.updParity zk row f).power = s.power ∧ (s.updParity zk row f).bank = s.bank ∧
    (s.updParity zk row f).broker = s.broker ∧ (s.updParity zk row f).loops = s.loops ∧ (s.updParity zk row f).lanes = s.lanes ∧
    (s.updParity zk row f).dies = s.dies ∧ (s.updParity zk row f).dieCnt = s.dieCnt ∧ (s.updParity zk row f).blks = s.blks ∧
    (s.updParity zk row f).rgns = s.rgns ∧ (s.updParity zk row f).sets = s.sets ∧ (s.updParity zk row f).nss = s.nss ∧
    (s.updParity zk row f).zones = s.zones ∧ (s.updParity zk row f).media = s.media ∧
    (s.updParity zk row f).parity = Tbl.put {} s.parity (mediaKey zk row) (f (s.rowParity zk row)) ∧ (s.updParity zk row f).tenants = s.tenants ∧
    (s.updParity zk row f).ctrls = s.ctrls ∧ (s.updParity zk row f).sqs = s.sqs ∧ (s.updParity zk row f).cqs = s.cqs ∧
    (s.updParity zk row f).links = s.links ∧ (s.updParity zk row f).work = s.work ∧ (s.updParity zk row f).tmk = s.tmk ∧
    (s.updParity zk row f).cph = s.cph ∧ (s.updParity zk row f).fab = s.fab ∧ (s.updParity zk row f).mem = s.mem ∧
    (s.updParity zk row f).flt = s.flt ∧ (s.updParity zk row f).boot = s.boot ∧ (s.updParity zk row f).store = s.store :=
  ⟨rfl, rfl, rfl, rfl, rfl, rfl, rfl, rfl, rfl, rfl, rfl, rfl, rfl, rfl, rfl, rfl, rfl, rfl, rfl, rfl, rfl, rfl, rfl, rfl, rfl, rfl, rfl, rfl, rfl, rfl, rfl, rfl, rfl, rfl⟩

/-- The parity read back: that of the row written, and of any other row what it was. -/
@[simp] theorem State.rowParity_updParity (s : State) (zk row zk' row' : Nat) (f : RowParity → RowParity) :
    (s.updParity zk row f).rowParity zk' row' = if mediaKey zk' row' = mediaKey zk row then f (s.rowParity zk row) else s.rowParity zk' row' :=
  Tbl.look_put _ _ _ _ _

/-- A write of the seed record touches the two copies of it and nothing else of the boot store. -/
@[simp] theorem State.onSeeds_boot (s : State) (f : SeedCopy → SeedCopy) :
    (s.onSeeds f).boot = { s.boot with seedA := f s.boot.seedA, seedB := f s.boot.seedB } := rfl

end Sys2Proof.Machine
end

