-- ==== Sys2Proof/Laws/Ops.lean ====
section
/-! SUPPORT. What the shared operations of every command can do: raising an event, drawing a free value, posting a completion,
notices, and the gates that stand before host commands. Provers cite these instead of unfolding the operations. -/

namespace Sys2Proof.Machine

/-- An event touches the recorder's arrival queues and the count of dropped records, nothing else (R535). -/
@[simp] theorem State.raise_fields (s : State) (code src a b c d : Nat) :
    (s.raise code src a b c d).pending = s.pending ∧ (s.raise code src a b c d).variant = s.variant ∧
    (s.raise code src a b c d).step = s.step ∧ (s.raise code src a b c d).out = s.out ∧
    (s.raise code src a b c d).regs = s.regs ∧ (s.raise code src a b c d).power = s.power ∧
    (s.raise code src a b c d).bank = s.bank ∧ (s.raise code src a b c d).broker = s.broker ∧
    (s.raise code src a b c d).loops = s.loops ∧ (s.raise code src a b c d).lanes = s.lanes ∧
    (s.raise code src a b c d).dies = s.dies ∧ (s.raise code src a b c d).dieCnt = s.dieCnt ∧
    (s.raise code src a b c d).blks = s.blks ∧ (s.raise code src a b c d).rgns = s.rgns ∧
    (s.raise code src a b c d).sets = s.sets ∧ (s.raise code src a b c d).nss = s.nss ∧
    (s.raise code src a b c d).zones = s.zones ∧ (s.raise code src a b c d).media = s.media ∧ (s.raise code src a b c d).parity = s.parity ∧
    (s.raise code src a b c d).tenants = s.tenants ∧ (s.raise code src a b c d).ctrls = s.ctrls ∧
    (s.raise code src a b c d).sqs = s.sqs ∧ (s.raise code src a b c d).cqs = s.cqs ∧
    (s.raise code src a b c d).links = s.links ∧ (s.raise code src a b c d).work = s.work ∧
    (s.raise code src a b c d).tmk = s.tmk ∧ (s.raise code src a b c d).cph = s.cph ∧
    (s.raise code src a b c d).fab = s.fab ∧ (s.raise code src a b c d).mem = s.mem ∧
    (s.raise code src a b c d).flt = s.flt ∧ (s.raise code src a b c d).boot = s.boot ∧
    (s.raise code src a b c d).store = s.store := by
  unfold State.raise; simp only
  (repeat' split) <;> simp

/-- Of the always-on part an event touches only the count of dropped records. -/
theorem State.raise_aon (s : State) (code src a b c d : Nat) :
    (s.raise code src a b c d).aon = { s.aon with evrDropped := (s.raise code src a b c d).aon.evrDropped } := by
  unfold State.raise; simp only
  (repeat' split) <;> simp

@[simp] theorem State.raise_now (s : State) (code src a b c d : Nat) : (s.raise code src a b c d).now = s.now := by
  unfold State.now; rw [State.raise_aon]

/-- The record that an event makes. -/
def evRec (code src a b c d : Nat) : EvRec :=
  ⟨BitVec.ofNat 16 code, BitVec.ofNat 16 src, BitVec.ofNat 32 a, BitVec.ofNat 32 b, BitVec.ofNat 32 c, BitVec.ofNat 32 d⟩

theorem mem_enqueueArrival (q : List (Nat × EvRec)) (t : Nat) (e : EvRec) : (t, e) ∈ enqueueArrival q t e := by
  induction q with
  | nil => simp [enqueueArrival]
  | cons p q ih =>
    unfold enqueueArrival
    split <;> simp [ih]

theorem mem_enqueueArrival_of_mem (q : List (Nat × EvRec)) (t : Nat) (e : EvRec) {p : Nat × EvRec} (h : p ∈ q) :
    p ∈ enqueueArrival q t e := by
  induction q with
  | nil => cases h
  | cons r q ih =>
    unfold enqueueArrival
    split
    · exact List.mem_cons_of_mem _ h
    · rcases List.mem_cons.1 h with rfl | h
      · simp
      · exact List.mem_cons_of_mem _ (ih h)

/-- With room in the arrival queue, an event of a recorded class stands in it (R535). -/
theorem State.mem_raise (s : State) (code src a b c d : Nat) (hq : s.evr.queue.length < 224)
    (h9 : code / 256 = 9 → s.hasCompression = true) (hA : code / 256 = 10 → s.hasFabric = true) :
    (s.now, evRec code src a b c d) ∈ (s.raise code src a b c d).evr.queue := by
  unfold State.raise
  have hn : ¬((code / 256 = 0x09 ∧ s.hasCompression = false) ∨ (code / 256 = 0x0A ∧ s.hasFabric = false)) := by
    rintro (⟨h, g⟩ | ⟨h, g⟩)
    · rw [h9 h] at g; cases g
    · rw [hA h] at g; cases g
  have hl : s.evr.queue.length < (if isFaultCode code then 256 else 224) := by split <;> omega
  simp only [hn, hl, if_false, if_true]
  exact mem_enqueueArrival _ _ _

/-- A draw advances the counter of free values and nothing else. -/
@[simp] theorem State.draw_snd (s : State) : s.draw.2 = s.onWork fun w => { w with draws := w.draws + 1 } := rfl
@[simp] theorem State.draw_fst (s : State) : s.draw.1 = Config.freeValue s.work.draws := rfl

/-- Dirty-log entries touch the tenant's log, the counter of free values and the recorder (R384). -/
theorem State.logPages_fields (n : Nat) (s : State) (t : Nat) (cq : Bool) :
    (State.logPages n s t cq).pending = s.pending ∧ (State.logPages n s t cq).variant = s.variant ∧
    (State.logPages n s t cq).step = s.step ∧ (State.logPages n s t cq).out = s.out ∧
    (State.logPages n s t cq).regs = s.regs ∧ (State.logPages n s t cq).power = s.power ∧
    (State.logPages n s t cq).bank = s.bank ∧ (State.logPages n s t cq).broker = s.broker ∧
    (State.logPages n s t cq).loops = s.loops ∧ (State.logPages n s t cq).lanes = s.lanes ∧
    (State.logPages n s t cq).dies = s.dies ∧ (State.logPages n s t cq).dieCnt = s.dieCnt ∧
    (State.logPages n s t cq).blks = s.blks ∧ (State.logPages n s t cq).rgns = s.rgns ∧
    (State.logPages n s t cq).sets = s.sets ∧ (State.logPages n s t cq).nss = s.nss ∧
    (State.logPages n s t cq).zones = s.zones ∧ (State.logPages n s t cq).media = s.media ∧ (State.logPages n s t cq).parity = s.parity ∧
    (State.logPages n s t cq).ctrls = s.ctrls ∧ (State.logPages n s t cq).sqs = s.sqs ∧
    (State.logPages n s t cq).cqs = s.cqs ∧ (State.logPages n s t cq).links = s.links ∧
    (State.logPages n s t cq).tmk = s.tmk ∧ (State.logPages n s t cq).cph = s.cph ∧
    (State.logPages n s t cq).fab = s.fab ∧ (State.logPages n s t cq).mem = s.mem ∧
    (State.logPages n s t cq).flt = s.flt ∧ (State.logPages n s t cq).boot = s.boot ∧
    (State.logPages n s t cq).store = s.store := by
  induction n generalizing s with
  | zero => simp [State.logPages]
  | succ n ih =>
    unfold State.logPages
    simp only
    split
    · simp
    · split
      · simp
      · simp only [ih, State.updTenant_eq]; simp

theorem State.logWrites_fields (s : State) (c n : Nat) :
    (s.logWrites c n).pending = s.pending ∧ (s.logWrites c n).variant = s.variant ∧ (s.logWrites c n).step = s.step ∧
    (s.logWrites c n).out = s.out ∧ (s.logWrites c n).regs = s.regs ∧ (s.logWrites c n).power = s.power ∧
    (s.logWrites c n).bank = s.bank ∧ (s.logWrites c n).broker = s.broker ∧ (s.logWrites c n).loops = s.loops ∧
    (s.logWrites c n).lanes = s.lanes ∧ (s.logWrites c n).dies = s.dies ∧ (s.logWrites c n).dieCnt = s.dieCnt ∧
    (s.logWrites c n).blks = s.blks ∧ (s.logWrites c n).rgns = s.rgns ∧ (s.logWrites c n).sets = s.sets ∧
    (s.logWrites c n).nss = s.nss ∧ (s.logWrites c n).zones = s.zones ∧ (s.logWrites c n).media = s.media ∧ (s.logWrites c n).parity = s.parity ∧
    (s.logWrites c n).ctrls = s.ctrls ∧ (s.logWrites c n).sqs = s.sqs ∧ (s.logWrites c n).cqs = s.cqs ∧
    (s.logWrites c n).links = s.links ∧ (s.logWrites c n).tmk = s.tmk ∧ (s.logWrites c n).cph = s.cph ∧
    (s.logWrites c n).fab = s.fab ∧ (s.logWrites c n).mem = s.mem ∧ (s.logWrites c n).flt = s.flt ∧
    (s.logWrites c n).boot = s.boot ∧ (s.logWrites c n).store = s.store := by
  unfold State.logWrites
  split
  · simp only [State.logPages_fields, and_self]
  · simp

theorem State.pumpConn_fields (s : State) (c : Nat) :
    (s.pumpConn c).pending = s.pending ∧ (s.pumpConn c).variant = s.variant ∧ (s.pumpConn c).step = s.step ∧
    (s.pumpConn c).out = s.out ∧ (s.pumpConn c).aon = s.aon ∧ (s.pumpConn c).evr = s.evr ∧
    (s.pumpConn c).regs = s.regs ∧ (s.pumpConn c).power = s.power ∧ (s.pumpConn c).bank = s.bank ∧
    (s.pumpConn c).broker = s.broker ∧ (s.pumpConn c).loops = s.loops ∧ (s.pumpConn c).lanes = s.lanes ∧
    (s.pumpConn c).dies = s.dies ∧ (s.pumpConn c).dieCnt = s.dieCnt ∧ (s.pumpConn c).blks = s.blks ∧
    (s.pumpConn c).rgns = s.rgns ∧ (s.pumpConn c).sets = s.sets ∧ (s.pumpConn c).nss = s.nss ∧
    (s.pumpConn c).zones = s.zones ∧ (s.pumpConn c).media = s.media ∧ (s.pumpConn c).parity = s.parity ∧ (s.pumpConn c).tenants = s.tenants ∧
    (s.pumpConn c).ctrls = s.ctrls ∧ (s.pumpConn c).sqs = s.sqs ∧ (s.pumpConn c).cqs = s.cqs ∧
    (s.pumpConn c).links = s.links ∧ (s.pumpConn c).work = s.work ∧ (s.pumpConn c).tmk = s.tmk ∧
    (s.pumpConn c).cph = s.cph ∧ (s.pumpConn c).mem = s.mem ∧ (s.pumpConn c).flt = s.flt ∧
    (s.pumpConn c).boot = s.boot ∧ (s.pumpConn c).store = s.store := by
  unfold State.pumpConn
  simp only
  split <;> simp

theorem State.respond_fields (s : State) (h : Hdr) (n : Nat) :
    (s.respond h n).pending = s.pending ∧ (s.respond h n).variant = s.variant ∧ (s.respond h n).step = s.step ∧
    (s.respond h n).out = s.out ∧ (s.respond h n).aon = s.aon ∧ (s.respond h n).evr = s.evr ∧
    (s.respond h n).regs = s.regs ∧ (s.respond h n).power = s.power ∧ (s.respond h n).bank = s.bank ∧
    (s.respond h n).broker = s.broker ∧ (s.respond h n).loops = s.loops ∧ (s.respond h n).lanes = s.lanes ∧
    (s.respond h n).dies = s.dies ∧ (s.respond h n).dieCnt = s.dieCnt ∧ (s.respond h n).blks = s.blks ∧
    (s.respond h n).rgns = s.rgns ∧ (s.respond h n).sets = s.sets ∧ (s.respond h n).nss = s.nss ∧
    (s.respond h n).zones = s.zones ∧ (s.respond h n).media = s.media ∧ (s.respond h n).parity = s.parity ∧ (s.respond h n).tenants = s.tenants ∧
    (s.respond h n).ctrls = s.ctrls ∧ (s.respond h n).sqs = s.sqs ∧ (s.respond h n).cqs = s.cqs ∧
    (s.respond h n).links = s.links ∧ (s.respond h n).work = s.work ∧ (s.respond h n).tmk = s.tmk ∧
    (s.respond h n).cph = s.cph ∧ (s.respond h n).mem = s.mem ∧ (s.respond h n).flt = s.flt ∧
    (s.respond h n).boot = s.boot ∧ (s.respond h n).store = s.store := by
  unfold State.respond
  split
  · simp
  · simp only [State.pumpConn_fields, State.updConn_eq]; simp

/-- A completion touches what the block has sent, the dirty log, the connection it goes over and the recorder. -/
@[simp] theorem State.completeWith_fields (s : State) (h : Hdr) (st : Status) (a b : Nat) (d : List FieldVal) :
    (s.completeWith h st a b d).pending = s.pending ∧ (s.completeWith h st a b d).variant = s.variant ∧
    (s.completeWith h st a b d).step = s.step ∧ (s.completeWith h st a b d).regs = s.regs ∧
    (s.completeWith h st a b d).power = s.power ∧ (s.completeWith h st a b d).bank = s.bank ∧
    (s.completeWith h st a b d).broker = s.broker ∧ (s.completeWith h st a b d).loops = s.loops ∧
    (s.completeWith h st a b d).lanes = s.lanes ∧ (s.completeWith h st a b d).dies = s.dies ∧
    (s.completeWith h st a b d).dieCnt = s.dieCnt ∧ (s.completeWith h st a b d).blks = s.blks ∧
    (s.completeWith h st a b d).rgns = s.rgns ∧ (s.completeWith h st a b d).sets = s.sets ∧
    (s.completeWith h st a b d).nss = s.nss ∧ (s.completeWith h st a b d).zones = s.zones ∧
    (s.completeWith h st a b d).media = s.media ∧ (s.completeWith h st a b d).parity = s.parity ∧ (s.completeWith h st a b d).ctrls = s.ctrls ∧
    (s.completeWith h st a b d).sqs = s.sqs ∧ (s.completeWith h st a b d).cqs = s.cqs ∧
    (s.completeWith h st a b d).links = s.links ∧ (s.completeWith h st a b d).tmk = s.tmk ∧
    (s.completeWith h st a b d).cph = s.cph ∧ (s.completeWith h st a b d).mem = s.mem ∧
    (s.completeWith h st a b d).flt = s.flt ∧ (s.completeWith h st a b d).boot = s.boot ∧
    (s.completeWith h st a b d).store = s.store := by
  unfold State.completeWith
  split
  · simp
  · simp only
    split
    · simp [State.postCompletion]
    · simp only [State.respond_fields, State.logWrites_fields]; simp [State.postCompletion]

/-- What the block has sent after a completion: the completion behind everything before it, unless it is discarded. -/
theorem State.completeWith_out (s : State) (h : Hdr) (st : Status) (a b : Nat) (d : List FieldVal) :
    (s.completeWith h st a b d).out = if s.muted h then s.out else (s.postCompletion h st a b d).out := by
  unfold State.completeWith
  split
  · rfl
  · simp only
    split
    · rfl
    · simp only [State.respond_fields, State.logWrites_fields]

@[simp] theorem State.complete_fields (s : State) (h : Hdr) (st : Status) :
    (s.complete h st).pending = s.pending ∧ (s.complete h st).variant = s.variant ∧ (s.complete h st).step = s.step ∧
    (s.complete h st).regs = s.regs ∧ (s.complete h st).power = s.power ∧ (s.complete h st).bank = s.bank ∧
    (s.complete h st).broker = s.broker ∧ (s.complete h st).loops = s.loops ∧ (s.complete h st).lanes = s.lanes ∧
    (s.complete h st).dies = s.dies ∧ (s.complete h st).dieCnt = s.dieCnt ∧ (s.complete h st).blks = s.blks ∧
    (s.complete h st).rgns = s.rgns ∧ (s.complete h st).sets = s.sets ∧ (s.complete h st).nss = s.nss ∧
    (s.complete h st).zones = s.zones ∧ (s.complete h st).media = s.media ∧ (s.complete h st).parity = s.parity ∧ (s.complete h st).ctrls = s.ctrls ∧
    (s.complete h st).sqs = s.sqs ∧ (s.complete h st).cqs = s.cqs ∧ (s.complete h st).links = s.links ∧
    (s.complete h st).tmk = s.tmk ∧ (s.complete h st).cph = s.cph ∧ (s.complete h st).mem = s.mem ∧
    (s.complete h st).flt = s.flt ∧ (s.complete h st).boot = s.boot ∧ (s.complete h st).store = s.store := by
  unfold State.complete; simp

theorem State.complete_out (s : State) (h : Hdr) (st : Status) :
    (s.complete h st).out = if s.muted h then s.out else (s.postCompletion h st 0 0 []).out := s.completeWith_out h st 0 0 []

/-- A fetch moves the head of one submission queue and touches nothing else (R305). -/
@[simp] theorem State.fetchOne_fields (s : State) (h : Hdr) :
    (s.fetchOne h).pending = s.pending ∧ (s.fetchOne h).variant = s.variant ∧ (s.fetchOne h).step = s.step ∧
    (s.fetchOne h).out = s.out ∧ (s.fetchOne h).aon = s.aon ∧ (s.fetchOne h).evr = s.evr ∧
    (s.fetchOne h).regs = s.regs ∧ (s.fetchOne h).power = s.power ∧ (s.fetchOne h).bank = s.bank ∧
    (s.fetchOne h).broker = s.broker ∧ (s.fetchOne h).loops = s.loops ∧ (s.fetchOne h).lanes = s.lanes ∧
    (s.fetchOne h).dies = s.dies ∧ (s.fetchOne h).dieCnt = s.dieCnt ∧ (s.fetchOne h).blks = s.blks ∧
    (s.fetchOne h).rgns = s.rgns ∧ (s.fetchOne h).sets = s.sets ∧ (s.fetchOne h).nss = s.nss ∧
    (s.fetchOne h).zones = s.zones ∧ (s.fetchOne h).media = s.media ∧ (s.fetchOne h).parity = s.parity ∧ (s.fetchOne h).tenants = s.tenants ∧
    (s.fetchOne h).ctrls = s.ctrls ∧ (s.fetchOne h).cqs = s.cqs ∧ (s.fetchOne h).links = s.links ∧
    (s.fetchOne h).work = s.work ∧ (s.fetchOne h).tmk = s.tmk ∧ (s.fetchOne h).cph = s.cph ∧
    (s.fetchOne h).fab = s.fab ∧ (s.fetchOne h).mem = s.mem ∧ (s.fetchOne h).flt = s.flt ∧
    (s.fetchOne h).boot = s.boot ∧ (s.fetchOne h).store = s.store := by
  unfold State.fetchOne
  simp only
  split <;> simp

/-- Who a queue belongs to does not change with a fetch. -/
theorem State.fetchOne_conn (s : State) (h : Hdr) (q : Nat) : ((s.fetchOne h).sq q).conn = (s.sq q).conn := by
  unfold State.fetchOne
  simp only
  split
  · rfl
  · simp only [State.sq_setSq]
    split
    · subst_vars; rfl
    · rfl

@[simp] theorem State.fetchOne_tenantOf (s : State) (h : Hdr) (c : Nat) : (s.fetchOne h).tenantOf c = s.tenantOf c := by
  unfold State.tenantOf State.ctrl; simp only [State.fetchOne_fields]

@[simp] theorem State.fetchOne_muted (s : State) (h g : Hdr) : (s.fetchOne h).muted g = s.muted g := by
  simp [State.muted, State.ctrl, State.conn, State.fetchOne_conn]

/-- A message, a packet or a reply is put behind those sent, and nothing else changes. -/
@[simp] theorem State.sendDown_eq (s : State) (n : Nat) (m : Down) :
    s.sendDown n m = s.onOut fun o => { o with down := o.down ++ [(n, m)] } := rfl
@[simp] theorem State.sendPacket_eq (s : State) (p : Packet) :
    s.sendPacket p = s.onOut fun o => { o with packets := o.packets ++ [p] } := rfl
@[simp] theorem State.reply_eq (s : State) (r : MiReply) : s.reply r = s.onOut fun o => { o with mi := o.mi ++ [r] } := rfl

/-- The gate of an admin command that is taken, of the whole set, permitted and with a good NSID: its own rules run on the state
with the queue's head moved on. -/
theorem State.admin_run (s : State) (r : AdminRule) (h : Hdr) (run : State → State)
    (ht : (if h.mc then s.servesMc else s.fetches h.ctrl) = true) (hb : s.bootSubsetOnly = false)
    (hp : r.permits s h = true) (hd : h.mc = false → (s.ctrl h.ctrl).discovery = false) (hn : r.nsidZero = true → h.nsid = 0) :
    s.admin r h run = run (s.fetchOne h) := by
  have hb' : (s.fetchOne h).bootSubsetOnly = false := by
    rw [← hb]; simp [State.bootSubsetOnly, State.inHold, State.hostPortUp, State.stepComplete, State.link, State.port]
  have hp' : r.permits (s.fetchOne h) h = true := by
    rw [← hp]; unfold AdminRule.permits; rw [State.fetchOne_tenantOf]
  have hd' : h.mc = false → ((s.fetchOne h).ctrl h.ctrl).discovery = false := by
    intro hm; rw [← hd hm]; simp [State.ctrl]
  unfold State.admin
  simp only [ht, hb', hp', Bool.false_and, Bool.not_true, Bool.false_or]
  cases hm : h.mc
  · simp only [hd' hm]
    cases hz : r.nsidZero
    · simp
    · simp [hn hz]
  · cases hz : r.nsidZero
    · simp
    · simp [hn hz]

/-- The gate of an I/O command that is taken outside a hold. -/
theorem State.io_run (s : State) (h : Hdr) (run : State → State) (ht : s.fetches h.ctrl = true) (hs : s.flt.stop = 0)
    (hh : s.inHold = false) : s.io h run = run (s.fetchOne h) := by
  have hh' : (s.fetchOne h).inHold = false := by rw [← hh]; simp [State.inHold]
  unfold State.io
  simp [ht, hs, hh']

/-- `each` over no items, and one item at a time. -/
@[simp] theorem State.each_nil {α : Type} (s : State) (f : α → State → State) : s.each [] f = s := rfl
@[simp] theorem State.each_cons {α : Type} (s : State) (x : α) (l : List α) (f : α → State → State) :
    s.each (x :: l) f = (f x s).each l f := rfl

/-- What every item of `each` keeps, the whole keeps. -/
theorem State.each_keeps {α : Type} (P : State → Prop) (l : List α) (f : α → State → State)
    (step : ∀ x s, P s → P (f x s)) : ∀ s, P s → P (s.each l f) := by
  induction l with
  | nil => intro s h; exact h
  | cons x l ih => intro s h; exact ih _ (step x s h)

end Sys2Proof.Machine
end

