-- ==== Sys2Proof/Machine/Pins.lean ====
section
/-! DEFINITION. What the block drives on its pins beside the levels that State holds (THERMTRIP_N, PWR_ISO_N, PWR_BFI_N, PWR_HOLD), and the
test access it leaves open, each as a function of the state (R398, R409, R488, R556, R557). -/

namespace Sys2Proof.Machine

/-- FAULT_N is low while the chip is in a fault stop or Warm-up is in a hold (R556). -/
def State.faultNLow (s : State) : Bool := s.flt.stop != 0 || s.inHold

/-- What a pin of the block does to its net. -/
inductive Drive where
  | none
  | low
  | high
  | pwm (duty : Nat)
  deriving DecidableEq, Repr

/-- The level that CHIP_GPIO_DATA.OUT gives GPIO `i` (R557). -/
def State.gpioOut (s : State) (i : Nat) : Bool := s.cfg .chipGpioData 0 31 16 / 2 ^ i % 2 == 1

/-- What GPIO `i` drives (R557): an input nothing, a push-pull output its level, an open-drain one only a low, and GPIO 8 to 11 with
their function selected the PWM of loops 4 to 7 whose DEST is 0x5. -/
def State.gpioDrive (s : State) (i : Nat) : Drive :=
  match s.cfg .chipGpioCfg i 7 4 with
  | 1 => if s.gpioOut i then .high else .low
  | 2 => if s.gpioOut i then .none else .low
  | 3 => if 8 ≤ i ∧ i < 12 ∧ s.loopDest (i - 4) = 5 then .pwm (s.loop (i - 4)).out.toNat else .none
  | _ => .none

/-- The duty of PWR_CHG_PWM, in 1/65,536: loop 1's output, 0 while charging does not run (*Fixed loops*, R409). -/
def State.chargeDuty (s : State) : Nat := if s.bank.charging then (s.loop 1).out.toNat else 0

/-- What the transmitter of a lane sends while it has no flit to send: IDLE blocks on a lane that carries flits, electrical idle with its
TX idle, the training blocks of its state otherwise (R108, R111). -/
def State.laneFill (s : State) (n : Nat) : Option (BitVec 64) :=
  let l := s.lane n
  if l.txIdle then none
  else match l.st with
    | .active => some (if l.resuming then tsBlock 4 none l.near l.margin n else blockIdle)
    | .detect | .lock | .recovery => some (tsBlock 1 none l.near l.margin n)
    | .exchange => some (tsBlock 2 none l.near l.margin n)
    | .equalise => some (tsBlock 3 none l.near l.margin n)
    | _ => some blockIdle

/-- JTAG reaches the key-derivation units, the cipher engines and the starter memories until Warm-up step 4 ends (R488). -/
def State.jtagOpen (s : State) : Bool := !s.stepComplete 4

end Sys2Proof.Machine
end

