-- ==== Sys2Proof/Tests/Slice0.lean ====
section
/-! SUPPORT. Tests: for each obligation with hypotheses the concrete states and operands that meet them, clause by clause
(witness_<obligation>, numbered where there are many clauses); ill-formed commands that the well-formedness check refuses
(smoke_…); and worked examples of the spec and of the cipher standards it names (test_…). -/

namespace Sys2Proof.Tests

open Sys2Proof Sys2Proof.Machine

set_option Elab.async false
set_option linter.unusedVariables false
set_option maxRecDepth 100000

/-- A device in Stride with its Warm-up complete: tenants 0 and 1 with their controllers enabled. -/
def wk : State := { State.reset with
  aon := { State.reset.aon with on := true, timeNs := 5000000000, pfdGood := true, hkFirstRound := false }
  power := { State.reset.power with inReset := false, mode := .stride, stepDone := 0x1FFF }
  tenants := [(0, { st := .active, ready := true }), (1, { st := .active, ready := true })]
  ctrls := [(0, { present := true, en := true, rdy := true }), (1, { present := true, tenant := 1, en := true, rdy := true })] }

/-- An admin command of tenant 0, and of tenant 1. -/
def a0 : Hdr := ⟨0, 0, 7, 0, false, false, none⟩
def a1 : Hdr := ⟨1, 0, 7, 0, false, false, none⟩
/-- A command of the management controller. -/
def mc0 : Hdr := ⟨0, 0, 7, 0, true, false, none⟩
/-- The fields that the window has at an offset. -/
def fieldsAt (o : Nat) : List Fld :=
  match locate o with
  | .reg _ _ fs => fs
  | _ => []
/-- Limits with wide floors and shares. -/
def wide : Limits := ⟨100, 16000, 100, 16000, 0, 65535, 10, 4000, 10, 4000, 1, 100, 4, 1000, 4, 1000, 1, 4000, 1, 1, 1, 1, 0, 0, 1, 500, 100, 200⟩
/-- The device with a tenant 0 of wide limits. -/
def wd : State := { wk with tenants := [(0, { st := .active, ready := true, lim := wide, nqn := 5 }), (1, { st := .active, ready := true })] }
/-- A record of the arrival queue: one of a fault, one of none. -/
def plain : EvRec := ⟨0x0101, 0, 0, 0, 0, 0⟩
def faulty : EvRec := ⟨0x0F01, 0, 0, 0, 0, 0⟩
/-- The device whose recorder the manager releases (EVR_CFG.RELEASER = 0). -/
def wr : State := wk.setCfgAt 0x10314 0
/-- The device with one lane, number 3. -/
def wl (l : Lane) : State := { wk with lanes := [(3, l)] }
/-- I/O commands of tenant 0, for the zoned namespace 1, the conventional namespace 2 and the packed namespace 3. -/
def io (nsid : Nat) : Hdr := ⟨0, 1, 7, nsid, false, false, none⟩
/-- An open zone on stripe set 0. -/
def openZ : Zone := { st := .explicitOpen, wp := 2, valid := true, dblk := List.replicate 18 0 }
/-- The device with a queue, one stripe set, a zoned namespace with the given zones, a conventional one and a packed one. -/
def wn (zones : Tbl Zone) : State := { wd with
  sqs := [(1, { depth := 64 })]
  cqs := [(1, { depth := 64 })]
  nss := [(1, { present := true, units := 4, slot := 16 }), (2, { present := true, zoned := false, units := 4, lbas := 1000, slot := 17 }),
    (3, { present := true, packed := true, units := 4, slot := 18 })]
  zones := zones
  sets := [(0, { members := (List.range 18).map fun p => some (128 * p), was := (List.range 18).map fun p => 128 * p })]
  bank := { wd.bank with dmax := 1000000 }
  cph := { wd.cph with keysReady := true, pages := [(1, 1)] } }
/-- The zone of namespace `n` with index 0. -/
def zk0 (n : Nat) : Nat := n * 1048576
/-- A one-LBA command of a namespace's zone 0. -/
def cx (n : Nat) (kind : CtxKind) (phase : Phase) : Ctx :=
  { hdr := io n, tenant := 0, kind := kind, cls := .distance, phase := phase, nsid := n, nlb := 1, zk := zk0 n, places := [some (zk0 n, 0)],
    startNs := 5000000000 }
/-- A state with command context 1. -/
def withCx (s : State) (x : Ctx) : State := { s with work := { s.work with ctxs := [(1, some x)], nextCtx := 2 } }
/-- The state in which a command is tried. -/
def tried (s : State) (h : Hdr) (x : Ctx) : State := (s.fetchOne h).accrue x
/-- A state with one staged row of namespace `n`: row 0 of its zone 0. -/
def withRow (s : State) (n : Nat) : State := { s with work := { s.work with rows := [{ zk := zk0 n, row := 0, tenant := 0, staged := 1 }] } }
/-- An admin command of tenant 0 with an NSID. -/
def ad (nsid : Nat) : Hdr := ⟨0, 0, 7, nsid, false, false, none⟩
/-- A state whose random generator is healthy. -/
def rng (s : State) : State := { s with cph := { s.cph with drbgOk := true } }
/-- The key slot that the next namespace of tenant 0 takes, and the state that leaves. -/
def slotOf (s : State) : Nat × State := (s.takeSlot 0).getD (0, s)
/-- The device with virtual functions 1 to 3, and tenant 1 as given. -/
def wq (x : Tenant) : State := { wd with
  ctrls := [(0, { present := true, en := true, rdy := true, numVfs := 3 }), (1, { present := true, tenant := 1, en := true, rdy := true })]
  tenants := [(0, { st := .active, ready := true, lim := wide }), (1, x)] }
/-- The device with 256 dies populated and tenant 1 without an enabled controller. -/
def wp : State := { ((wd.setCfgAt (Reg.offset .lanePop 0) 0xFFFFFFFF).setCfgAt (Reg.offset .chipRaCfg 0) 0) with
  ctrls := [(0, { present := true, en := true, rdy := true })]
  mem := { wd.mem with classes := [(8, 65536)] }
  store := { wd.store with population := (List.range 32).map fun n => (n, 0xFF) } }
/-- Tenant data without floors. -/
def td : TenantData := ⟨false, false, false, 0, 0, ({} : Tenant).lim, 0, 0, 0⟩
/-- The device with a ledger of five entries, two acknowledged. -/
def wb : State := wk.onBoot fun b => { b with
  seqNew := 5
  seqAck := 2
  ledger := [⟨4, 0, 0, 0, 0, 0, 0, 0, 0⟩, ⟨5, 0, 0, 0, 0, 0, 0, 0, 0⟩] }
/-- A component of version 1 with one epoch range on every mailbox, and the image of four such. -/
def comp (e : Nat) : Component := ⟨1, List.replicate 6 (e, e)⟩
def img (e : Nat) : Image := ⟨1000, true, true, 0, false, false, comp e, comp e, comp e, comp e, 1, [⟨0x11, true, true, 1, 1, 1, 1, 1⟩], []⟩
/-- The device that runs an image from bank 0 and holds another in bank 1. -/
def wi (y : Image) : State := wk.onBoot fun b => { b with
  bank0 := ⟨.valid, 0, some (img 1)⟩
  bank1 := ⟨.valid, 0, some y⟩
  running := some (img 1) }
/-- A roll to bank 1 in a phase, at a stage, running or not. -/
def rl (phase stage : Nat) (running : Bool) : Roll := ⟨1, a0, phase, 0, 0, stage, false, running, false, 0, 0, 0, 0⟩
/-- The device in that roll, with room for a core to load. -/
def wr' (y : Image) (r : Roll) : State := let s := wi y
  { s.onBoot fun b => { b with roll := some r } with tmk := { s.tmk with maintFull := true } }
/-- The device with a connection, a window on a full zone, a page cache and READs that wait. -/
def ww (w : Window) (reads : Tbl (Option WinRead)) : State := let s := wn [(zk0 1, { openZ with st := .full })]
  { s with mem := { s.mem with classes := [(8, 65536)] }, fab := { s.fab with
    conns := [(1, { up := true, tenant := 0, pd := 3, rnrRead := true })], pdOwner := [(3, 1)], windows := [(5, w)], reads := reads } }
/-- A window, and a READ of its first page. -/
def win : Window := { up := true, nsid := 1, pd := 3 }
def wrd : WinRead := { conn := 1, wid := 5, nsid := 1, zone := 0, tenant := 0, va := 0, len := 4096, missing := [0], since := 0 }
def wdata (preload : Bool) : WindowData := ⟨0, 3, false, preload, 1, 100, 5⟩
/-- The device with both Ethernet ports up and connection 1 of tenant 0, whose protection domain 3 is valid. -/
def wf (x : Conn) : State := { wd.setCfgAt (Reg.offset .fabPd 3) 0x80001144 with
  ctrls := [(0, { present := true, en := true, rdy := true }), (256, { present := true, en := true, rdy := true })]
  fab := { wd.fab with
    conns := [(1, x)], nextConn := 2, ports := [(0, { up := true, dist := true }), (1, { up := true, dist := true })]
    pdOwner := [(3, 1), (4, 1)] } }
/-- A connection, and the ports bonded. -/
def cn : Conn := { up := true, pd := 3, rate := 1000000000, posted := 4, srtt8 := 80, qid := 1, ctrl := some 256 }
def bond (s : State) : State := s.setCfgAt (Reg.offset .fabMode 0) 0x80000000
/-- The device with its two DRAM channels, and one that holds a DRAM baton. -/
def wm (a b : Chan) : State := { (List.range 9).foldl (fun s i => s.setCfgAt (Reg.offset .lanePop i) 0x10001) (wn []) with
  lanes := (List.range 18).map fun p => (16 * p, { st := .active })
  mem := { wk.mem with chans := [(0, a), (1, b)] } }
def held0 (s : State) : State := s.onBroker fun b => { b with out := [⟨.dram 0, 10, none, 1, 0, 0⟩] }
/-- The device in Warm-up with the steps of a mask complete. -/
def wu (done : BitVec 13) : State := { wk with power := { wk.power with mode := .warmup, stepDone := done } }
/-- A Warm-up report without findings. -/
def rep : WarmupReport := ⟨0, 0, 0, [], [], [], [], 0, true, true, 0, 0, [], [], []⟩
/-- The device with dirty data. -/
def wd1 : State := withRow (wn [(zk0 1, openZ)]) 1
/-- An entry of a die queue, and an operation with it on die 3 of its lane, 8 µs old. -/
def qe (kind : OpKind) : QEntry := ⟨1, kind, .distance, 0, zk0 1, 0, 1, 0, 0, 0, 0, 0, none, none, false, 0⟩
def opOf (e : QEntry) : Op := ⟨0, e, [], 5000000000, false, false, 0, false, none⟩
/-- A flit whose 9 blocks carry a number's bits on the line, and such flits: NULL flits without and with credits and with a NAK, MSG and RDATA flits,
one of a type and one of a message that no bridge sends. -/
def flitOf (x : Nat) : Flit := ⟨0, (List.range 9).map fun i => (1, BitVec.ofNat 64 (x / 2 ^ (64 * i)))⟩
/-- Limbs of 144 bits, lowest first. -/
def ofLimbs : List Nat → Nat
  | [] => 0
  | x :: xs => x + 2 ^ 144 * ofLimbs xs
def fN : Flit := flitOf (ofLimbs [0x60000a000000001800018000300000000060, 0x9000000001e00018000300001800050000, 0x18001b0001e0003a0001800048000780,
  0x222f2ac8001980033000180005600060000a])
def fC0 : Flit := flitOf (ofLimbs [0x50000f00000000140001400028000000005, 0xd80000000110001400028000140007800,
  0xf00001400168001100027000140006c00044, 0x3a6d9056400154002a800140007d00050000])
def fC1 : Flit := flitOf (ofLimbs [0x2700069000000009c0009c00138000000027, 0x7a80000000bb0009c001380009c0034800,
  0x900009c008f800bb001510009c003d4002ec, 0xe1be9c3bc0095c012b8009c0036f00270006])
def fK : Flit := flitOf (ofLimbs [0x60024a00000007180071800e300000001c60, 0x2a900000006de0071800e30007180125001c,
  0x71807fb006de00c7a007180154801b780, 0x72b185e0076980ed3007180139601c60024a])
def fM : Flit := flitOf (ofLimbs [0x60000a210402105842098000308410000060, 0x9294502105e4209821070c6198841518c3,
  0x25249a944b5acae2107ae71d8a5109ce3f80, 0x6c8a34586291a1073ce588841578c360210e])
def fM9 : Flit := flitOf (ofLimbs [0x7b000a210426105a0209c800308410900060, 0x929452f105c0209ca107286195041588c3,
  0x124ba14498acab11078a71d7651028e3e78, 0x6bb7d97b2295690718e5859415e8c37b210e])
def fR : Flit := flitOf (ofLimbs [0x60000a000c0000d800198000300030000060, 0x9000f0000de00198000f00029800350005, 0xd9800eb001ce000fa0025800388004f80,
  0x7a87237f0181800f3002a800356005600006])
def f2 : Flit := flitOf (ofLimbs [0x60000a000800009800118000300020000060, 0x9000a00009e00118000b00031800250006, 0x91800bb0017e000ba00398002c8007780,
  0x4d1f24120109800b30033800256006600002])
def fX : Flit := flitOf (ofLimbs [0x60000a26440264584c898000309910000060, 0x92fd502645e4c89826470d599899151ab3,
  0x228c9afd4b563ae2647af3dd8bf509e7bf80, 0xce1f1c698411a6473dc08899157ab360264e])
/-- A flit of nothing but line noise, and one cut short. -/
def fB : Flit := flitOf 0
def fE : Flit := ⟨0, []⟩
/-- An ACTIVE lane with credits that is set up. -/
def la : Lane := { st := .active, crdMsg := 4, crdWdata := 200, setUp := true, phyOn := true, txIdle := false }
/-- A sent flit that waits for its ACK. -/
def ua (seq replays : Nat) : Unacked := ⟨seq, .null, replays⟩
/-- The device with die 0 of lane 3, and with an operation on it under tag 0. -/
def dv (d : Die) : State := { wl la with dies := [(24, d)] }
def dop (d : Die) (o : Op) : State := let s := dv d
  { s with work := { s.work with ops := [(opKey 3 0, some o)] } }
/-- A landing under way, with units still to write. -/
def ld (c : LandCause) (us : List LandUnit) : Landing := ⟨c, 0, 0, 0, 0, true, [], us, [], .stride, none⟩
def lu : LandUnit := ⟨zk0 1, 0, 0, 0, false, 24, 0, false, 0, false⟩
/-- A state with zones. -/
def withZ (s : State) (z : Zone) : State := { s with zones := [(zk0 1, z)] }
/-- A state with a landing. -/
def withL (s : State) (l : Landing) : State := s.onPower fun p => { p with landing := some l }
/-- A state with a cipher job, number 1, that runs on block 0. -/
def withJob (s : State) (k : CipherJob) : State := { s.updBlk 0 (fun b => { b with cipRun := some 1 }) with
  work := { s.work with ciphers := [(1, some k)], nextJob := 2 } }
/-- A decode job of an entry for die 0 of lane 3 that holds decoder 1, and the device with it as job 1. -/
def dj (e : QEntry) : DecodeJob := ⟨0, 3, 0, e, 0, false, some 1⟩
def wj (e : QEntry) : State := let s := dv { st := .idle }
  { s with work := { s.work with decodes := [(1, some (dj e))], nextJob := 2 } }
/-- A state with a parity job, number 1, on engine 0. -/
def withPar (s : State) (j : ParityJob) : State := { s with work := { s.work with parities := [(1, some j)], parityRun := [(0, some 1)], nextJob := 2 } }
/-- A reset fence, and a Finish fence. -/
def fz : Fence := ⟨false, some (io 1), false, 0, List.replicate 18 1, 0, [], [], none⟩
def ff : Fence := ⟨true, some (io 1), false, 0, [], 0, [], [], none⟩
/-- A Packed Read at its decompression, whose parcel holds two granules of zeros. -/
def px (n : Nat) : Ctx := { cx 3 .packedRead .compressing with
  granules := n
  engine := some 6
  sizes := [(4, 4), (8, 4)]
  data := [(0, BitVec.ofNat 32896 (3340501009 * 2 ^ 256))] }
/-- A Packed Append at its compression. -/
def pa (n : Nat) : Ctx := { cx 3 .packedAppend .compressing with
  granules := n
  engine := some 6 }
def withBurst (s : State) : State := s.onBroker fun b => { b with out := [⟨.burst 1, 10, none, 3, 0, 0⟩] }
/-- A context as its submission queue entry gives it. -/
def nx (s : State) (n : Nat) (kind : CtxKind) (slba nlb : Nat) : Ctx := (s.fetchOne (io n)).newCtx (io n) kind slba nlb
/-- The state in which that context is tried. -/
def tx (s : State) (n : Nat) (kind : CtxKind) (slba nlb : Nat) : State := tried s (io n) (nx s n kind slba nlb)
/-- The device with the dies and lanes of stripe set 0 in service and one word line of zone 0 on flash. -/
def wl0 : State := { wn [(zk0 1, { openZ with wp := 1024, fine := (List.range 18).map fun p => (p, 1), coarse := (List.range 18).map fun p => (p, 2) })] with
  lanes := (List.range 18).map fun p => (16 * p, la)
  dies := (List.range 18).map fun p => (128 * p, { st := .idle }) }
/-- The device with zone 0 of namespace 1 in a state; with a fence of it. -/
def wz (z : Zone) : State := wn [(zk0 1, z)]
def wzs (st : ZoneSt) : State := wz { openZ with st := st }
def fn (all : Bool) : Fence := ⟨false, some (io 1), all, 0, [], 0, [], [], none⟩
/-- A zone whose re-arm runs, with a row of it; what its reads found. -/
def wre : State := withRow (wz { openZ with rearm := 2 }) 1
def rr : Row := { zk := zk0 1, row := 0, tenant := 0, staged := 1 }
def seenU (s : State) (seen : List SeenFrame) : State := s.each seen fun x s => s.seeFrame (zk0 1) x
def foundF (s : State) (failed : List (Nat × Nat)) (seen : List SeenFrame) : RearmFinding :=
  (seenU s seen).rearmFinding rr (rr.failedAt failed)
/-- The device with all but a few ingress buffers in use. -/
def nob : State := (wn []).onMem fun m => { m with bufs := (List.range 7168).map fun i => (1048576 + i, { used := true }) }

theorem admin {s : State} {r : AdminRule} {h : Hdr}
    (p : h.mc = false ∧ h.ctrl < 256 ∧ s.fetches h.ctrl = true ∧ s.bootSubsetOnly = false ∧ r.permits s h = true ∧
      (s.ctrl h.ctrl).discovery = false ∧ (r.nsidZero = true → h.nsid = 0) ∧ (s.ctrl h.ctrl).drain = none) : s.TakesAdmin r h :=
  ⟨p.1, p.2.1, p.2.2.1, p.2.2.2.1, p.2.2.2.2.1, p.2.2.2.2.2.1, p.2.2.2.2.2.2.1, p.2.2.2.2.2.2.2⟩

theorem takes {s : State} {h : Hdr}
    (p : h.mc = false ∧ h.ctrl < 256 ∧ s.fetches h.ctrl = true ∧ s.flt.stop = 0 ∧ s.inHold = false ∧ (s.ctrl h.ctrl).drain = none) :
    s.TakesIo h :=
  ⟨p.1, p.2.1, p.2.2.1, p.2.2.2.1, p.2.2.2.2.1, p.2.2.2.2.2⟩

/-- What holds of every listed entry and of the entry an unlisted key stands for holds of every entry. -/
theorem look_of_all {α : Type} (P : α → Prop) (d : α) (t : Tbl α) (hd : P d) (ht : ∀ p ∈ t, P p.2) (k : Nat) : P (Tbl.look d t k) := by
  induction t with
  | nil => exact hd
  | cons p ps ih =>
    unfold Tbl.look
    have h := ih fun q hq => ht q (List.mem_cons_of_mem _ hq)
    have h0 := ht p List.mem_cons_self
    repeat' split
    all_goals first | exact h | exact h0

theorem zonesAll {s : State} (P : Zone → Prop) (p : P {} ∧ ∀ z ∈ s.zones, P z.2) : ∀ k, P (s.zone k) := look_of_all P _ _ p.1 p.2

theorem unplacedNone {s : State} (p : ({} : Zone).writing = [] ∧ ∀ z ∈ s.zones, z.2.writing = []) : ∀ k, s.unplaced k = [] := by
  intro k
  unfold State.unplaced
  rw [zonesAll (·.writing = []) p k]
  rfl

theorem tenantsAll {s : State} (P : Tenant → Prop) (p : P {} ∧ ∀ u ∈ s.tenants, P u.2) : ∀ k, P (s.tenant k) := look_of_all P _ _ p.1 p.2

/-- An offset where another register lies than a given one. -/
theorem notReg {l : Loc} {r : Reg} (p : (match l with | .reg q _ _ => q == r | _ => false) = false) : ∀ i fs, l ≠ .reg r i fs := by
  intro i fs h
  subst h
  simp at p

theorem none_of {α : Type} {o : Option α} {P : α → Prop} (h : o = none) : ∀ x, o = some x → P x := by
  intro x hx
  rw [h] at hx
  cases hx

theorem admission {s u : State} {h : Hdr} {x : Ctx} (p : s.TakesIo h) (hu : u = (s.fetchOne h).accrue x)
    (q : (s.fetchOne h).fetchStopped x = false ∧ s.aon.trip = false ∧ u.behindHeld x = false ∧ u.bucketsEmpty x.tenant = false)
    (z : ∀ z ∈ s.zones, z.2.rearm = 0) : s.AtAdmission h x u :=
  ⟨p, hu, q.1, q.2.1, look_of_all (fun z : Zone => z.rearm = 0) _ _ rfl z, q.2.2.1, q.2.2.2⟩

theorem manage {s : State} {h : Hdr} {slba : Nat} {al : Bool} (p : s.TakesIo h)
    (q : s.manageCheck h slba al = none ∧ s.aon.trip = false ∧ (s.tenant (s.tenantOf h.ctrl)).heldCmds = [] ∧
      ((s.fetchOne h).stewardLacks ((s.fetchOne h).writeStewards h (zonePlace h.nsid slba).1)).passes = true)
    (z : ∀ z ∈ s.zones, z.2.rearm = 0) : s.AtManage h slba al :=
  ⟨p, q.1, q.2.1, look_of_all (fun z : Zone => z.rearm = 0) _ _ rfl z, q.2.2.1, q.2.2.2⟩

theorem room {s : State} (p : s.evr.queue.length < 224) : s.roomForEvents := p

/-- States and operands that meet the hypotheses of `StepRunsFrontCommand`, clause by clause. -/
theorem witness_StepRunsFrontCommand :
    (∃ (c : Instr) (rest : List Instr) (s : State), s.pending = c :: rest) ∧
    (∃ (s : State), s.pending = []) :=
  ⟨⟨.quietPoint, [.pfdRise], { wk with pending := [.quietPoint, .pfdRise] }, by decide +kernel⟩,
   ⟨State.reset, by decide +kernel⟩⟩

/-- States and operands that meet the hypotheses of `ResetsOfBothDomains`, clause by clause. -/
theorem witness_ResetsOfBothDomains_1 :
    (∃ (mv : Nat) (s : State), s.aon.on = false) ∧
    (∃ (mv : Nat) (s : State), s.aon.on = true) ∧
    (∃ (s : State), s.aon.on = true) ∧
    (∃ (dual : Bool) (s : State), s.aon.on = true ∧ s.power.inReset = true ∧ (s.power.mode ≠ .off ∨ s.aon.pfdGood = true)) ∧
    (∃ (dual : Bool) (s : State), (s.power.inReset = false ∨ (s.power.mode = .off ∧ s.aon.pfdGood = false))) ∧
    (∃ (s : State), s.released = true ∧ s.power.mode ≠ .homestretch ∧ (s.power.mode = .calm ∨ s.dirtyBytes = 0)) ∧
    (∃ (s : State), s.released = true ∧ s.power.mode ≠ .homestretch ∧ s.power.mode ≠ .calm ∧ s.dirtyBytes ≠ 0) ∧
    (∃ (s : State), (s.released = false ∨ s.power.mode = .homestretch)) :=
  ⟨⟨12000, State.reset, by decide +kernel⟩,
   ⟨12000, wk, by decide +kernel⟩,
   ⟨wk, by decide +kernel⟩,
   ⟨true, wk.onPower fun p => { p with inReset := true }, by decide +kernel⟩,
   ⟨true, wk, by decide +kernel⟩,
   ⟨wk, by decide +kernel⟩,
   ⟨wd1, by decide +kernel⟩,
   ⟨wk.onPower fun p => { p with mode := .homestretch }, by decide +kernel⟩⟩

/-- States and operands that meet the hypotheses of `ResetsOfBothDomains`, clause by clause. -/
theorem witness_ResetsOfBothDomains_2 :
    (∃ (pg : BitVec 4) (s : State), s.running = true ∧ pg ≠ 0xF ∧ (s.power.landing = none ∨ s.power.mode ≠ .homestretch)) ∧
    (∃ (pg : BitVec 4) (l : Landing) (s : State), s.running = true ∧ pg ≠ 0xF ∧ s.power.landing = some l ∧ s.power.mode = .homestretch) ∧
    (∃ (pg : BitVec 4) (s : State), s.aon.on = true ∧ (s.running = false ∨ pg = 0xF)) :=
  ⟨⟨7, wk, by decide +kernel⟩,
   ⟨7, ⟨.homestretch, 0, 0, 0, 0, true, [], [], [], .stride, some []⟩,
     wk.onPower fun p => { p with mode := .homestretch, landing := some ⟨.homestretch, 0, 0, 0, 0, true, [], [], [], .stride, some []⟩ },
     by decide +kernel⟩,
   ⟨0xF, wk, by decide +kernel⟩⟩

/-- States and operands that meet the hypotheses of `InputSupplyAndHomestretch`, clause by clause. -/
theorem witness_InputSupplyAndHomestretch_1 :
    (∃ (mv : Nat) (bank : Nat) (s : State), s.aon.on = true ∧ s.aon.pfdGood = true ∧ mv < s.cfg .pwrPfdCfg 0 19 8 ∧
      (s.aon.trip = true ∨ s.running = false ∨ s.power.mode = .calm ∨ s.power.mode = .off ∨ s.power.mode = .homestretch ∨ (s.power.mode = .warmup ∧
      s.stepComplete 10 = false))) ∧
    (∃ (mv : Nat) (bank : Nat) (s : State), s.aon.on = true ∧ s.aon.pfdGood = true ∧ mv < s.cfg .pwrPfdCfg 0 19 8 ∧ s.aon.trip = false ∧
      s.running = true ∧ (s.power.mode = .stride ∨ s.power.mode = .sprint ∨ s.power.mode = .lull ∨ (s.power.mode = .warmup ∧
      s.stepComplete 10 = true))) ∧
    (∃ (mv : Nat) (bank : Nat) (s : State), (s.aon.on = false ∨ s.aon.pfdGood = false ∨ s.cfg .pwrPfdCfg 0 19 8 ≤ mv)) ∧
    (∃ (s : State), s.aon.on = true ∧ s.aon.pfdGood = false ∧ (s.power.mode ≠ .off ∨ s.power.inReset = false)) ∧
    (∃ (s : State), s.aon.on = true ∧ s.aon.pfdGood = false ∧ s.power.mode = .off ∧ s.power.inReset = true) ∧
    (∃ (s : State), (s.aon.on = false ∨ s.aon.pfdGood = true)) ∧
    (∃ (mv : Nat) (l : Landing) (s : State), s.power.landing = some l ∧ s.power.mode = .homestretch ∧ s.assignLanding.landingDone = true) ∧
    (∃ (mv : Nat) (l : Landing) (s : State), s.power.landing = some l ∧ s.assignLanding.landingDone = false) :=
  ⟨⟨0, 10000, wk.onAon fun a => { a with trip := true }, by decide +kernel⟩,
   ⟨0, 10000, wk, by decide +kernel⟩,
   ⟨0, 0, State.reset, by decide +kernel⟩,
   ⟨wk.onAon fun a => { a with pfdGood := false }, by decide +kernel⟩,
   ⟨(wk.onAon fun a => { a with pfdGood := false }).onPower fun p => { p with mode := .off, inReset := true }, by decide +kernel⟩,
   ⟨wk, by decide +kernel⟩,
   ⟨20000, ⟨.homestretch, 0, 0, 0, 0, true, [], [], [], .stride, some []⟩,
     wk.onPower fun p => { p with mode := .homestretch, landing := some ⟨.homestretch, 0, 0, 0, 0, true, [], [], [], .stride, some []⟩ },
     by decide +kernel⟩,
   ⟨20000, ⟨.homestretch, 0, 0, 0, 0, false, [], [], [], .stride, none⟩,
     wk.onPower fun p => { p with landing := some ⟨.homestretch, 0, 0, 0, 0, false, [], [], [], .stride, none⟩ }, by decide +kernel⟩⟩

/-- States and operands that meet the hypotheses of `InputSupplyAndHomestretch`, clause by clause. -/
theorem witness_InputSupplyAndHomestretch_2 :
    (∃ (mv : Nat) (s : State), s.power.landing = none) ∧
    (∃ (v : Bool) (mv : Nat) (l : Landing) (s : State), s.power.landing = some l ∧ s.power.mode = .homestretch) ∧
    (∃ (v : Bool) (mv : Nat) (s : State), (s.power.landing = none ∨ s.power.mode ≠ .homestretch)) :=
  ⟨⟨20000, wk, by decide +kernel⟩,
   ⟨true, 20000, ⟨.homestretch, 0, 0, 0, 0, false, [], [], [], .stride, none⟩,
     wk.onPower fun p => { p with mode := .homestretch, landing := some ⟨.homestretch, 0, 0, 0, 0, false, [], [], [], .stride, none⟩ },
     by decide +kernel⟩,
   ⟨true, 20000, wk, by decide +kernel⟩⟩

/-- States and operands that meet the hypotheses of `SprintGrantFollowsItsInputs`, clause by clause. -/
theorem witness_SprintGrantFollowsItsInputs :
    (∃ (w : BitVec 32) (s : State), s.servesMc = true) ∧
    (∃ (w : BitVec 32) (s : State), s.servesMc = false) ∧
    (∃ (s : State), s.running = true ∧ s.power.grant = true ∧ s.power.leaseMs ≠ 0) ∧
    (∃ (s : State), (s.running = false ∨ s.power.grant = false ∨ s.power.leaseMs = 0)) ∧
    (∃ (high : Bool) (s : State), s.aon.on = true) ∧
    (∃ (high : Bool) (s : State), s.aon.on = false) :=
  ⟨⟨0x80000000, wk, by decide +kernel⟩,
   ⟨0, State.reset, by decide +kernel⟩,
   ⟨wk.onPower fun p => { p with grant := true, leaseMs := 5 }, by decide +kernel⟩,
   ⟨wk, by decide +kernel⟩,
   ⟨true, wk, by decide +kernel⟩,
   ⟨true, State.reset, by decide +kernel⟩⟩

/-- States and operands that meet the hypotheses of `LowPowerEntriesAndExits`, clause by clause. -/
theorem witness_LowPowerEntriesAndExits_1 :
    (∃ (s : State), (s.power.entry = none ∨ s.running = false)) ∧
    (∃ (e : Entry) (s : State), s.running = true ∧ s.power.entry = some e ∧ e.step = 1 ∧ s.closeIdleParcels.commandsDone = false) ∧
    (∃ (e : Entry) (s : State), s.running = true ∧ s.power.entry = some e ∧ e.step = 1 ∧ s.closeIdleParcels.commandsDone = true ∧
      (e.abortPoints = false ∨ s.closeIdleParcels.aon.wakePending = [])) ∧
    (∃ (e : Entry) (s : State), s.running = true ∧ s.power.entry = some e ∧ e.step = 2 ∧ (e.target = .calm ∧
      (s.work.ops.any fun p => p.2.isSome) = true ∨ e.target ≠ .calm ∧ s.eraseRuns = true)) ∧
    (∃ (e : Entry) (s : State), s.running = true ∧ s.power.entry = some e ∧ e.step = 2 ∧ e.target = .lull ∧ s.eraseRuns = false ∧
      (e.abortPoints = false ∨ s.aon.wakePending = [])) ∧
    (∃ (e : Entry) (s : State), s.running = true ∧ s.power.entry = some e ∧ e.step = 4 ∧ s.lanesParked false = false) ∧
    (∃ (e : Entry) (s : State), s.running = true ∧ s.power.entry = some e ∧ e.step = 5 ∧ (e.abortPoints = false ∨ s.aon.wakePending = [])) ∧
    (∃ (e : Entry) (s : State), s.running = true ∧ s.power.entry = some e ∧ 6 ≤ e.step ∧ s.aon.wakePending = [] ∧
      (e.target = .lull ∨ e.target = .calm)) :=
  ⟨⟨wk, by decide +kernel⟩,
   ⟨⟨.lull, 1, true, 0, 0⟩, withCx (wk.onPower fun p => { p with entry := some ⟨.lull, 1, true, 0, 0⟩ }) (cx 1 .read .waiting), by decide +kernel⟩,
   ⟨⟨.lull, 1, true, 0, 0⟩, (wk.onPower fun p => { p with entry := some ⟨.lull, 1, true, 0, 0⟩ }), by decide +kernel⟩,
   ⟨⟨.calm, 2, true, 0, 0⟩,
     { (wk.onPower fun p => { p with entry := some ⟨.calm, 2, true, 0, 0⟩ }) with work := { wk.work with ops := [(0, some (opOf (qe .erase)))] } },
     by decide +kernel⟩,
   ⟨⟨.lull, 2, true, 0, 0⟩, (wk.onPower fun p => { p with entry := some ⟨.lull, 2, true, 0, 0⟩ }), by decide +kernel⟩,
   ⟨⟨.calm, 4, true, 0, 0⟩, { (wk.onPower fun p => { p with entry := some ⟨.calm, 4, true, 0, 0⟩ }) with lanes := [(3, { st := .active })] },
     by decide +kernel⟩,
   ⟨⟨.lull, 5, true, 0, 0⟩, (wk.onPower fun p => { p with entry := some ⟨.lull, 5, true, 0, 0⟩ }), by decide +kernel⟩,
   ⟨⟨.lull, 6, true, 0, 0⟩, (wk.onPower fun p => { p with entry := some ⟨.lull, 6, true, 0, 0⟩ }), by decide +kernel⟩⟩

/-- States and operands that meet the hypotheses of `LowPowerEntriesAndExits`, clause by clause. -/
theorem witness_LowPowerEntriesAndExits_2 :
    (∃ (e : Entry) (w : Nat × Nat) (ws : List (Nat × Nat)) (s : State), s.running = true ∧ s.power.entry = some e ∧ 6 ≤ e.step ∧
      s.aon.wakePending = w :: ws ∧ e.target = .lull) ∧
    (∃ (e : Entry) (w : Nat × Nat) (ws : List (Nat × Nat)) (s : State), s.running = true ∧ s.power.entry = some e ∧ e.step = 5 ∧
      e.abortPoints = true ∧ s.aon.wakePending = w :: ws ∧ s.power.mode ≠ .lull) ∧
    (∃ (e : Entry) (w : Nat × Nat) (ws : List (Nat × Nat)) (s : State), s.running = true ∧ s.power.entry = some e ∧ e.step = 5 ∧
      e.abortPoints = true ∧ s.aon.wakePending = w :: ws ∧ s.power.mode = .lull) ∧
    (∃ (b : Nat) (s : State), s.aon.on = true ∧ (s.power.mode = .lull ∨ s.power.mode = .calm ∧ s.aon.trip = false) ∧ s.power.entry = none ∧
      s.power.exit = none ∧ s.wakes b s.power.mode = true) ∧
    (∃ (b : Nat) (e : Entry) (s : State), s.aon.on = true ∧ s.power.entry = some e ∧ (s.wakes b e.target = true ∨ s.wakes b s.power.mode = true) ∧
      (e.step ≠ 6 ∨ e.abortPoints = true ∨ s.edgeWake b = false) ∧ (∀ w ∈ s.aon.wakePending, w.1 ≠ b)) ∧
    (∃ (b : Nat) (e : Entry) (s : State), s.aon.on = true ∧ s.power.entry = some e ∧ (s.wakes b e.target = true ∨ s.wakes b s.power.mode = true) ∧
      e.step = 6 ∧ e.abortPoints = false ∧ s.edgeWake b = true) ∧
    (∃ (b : Nat) (s : State), (s.aon.on = false ∨ s.power.entry = none ∧ s.wakes b s.power.mode = false)) ∧
    (∃ (n : Nat) (ok : Bool) (x : Exit) (s : State), s.released = true ∧ s.power.exit = some x ∧ s.exitStepReady x n = true ∧ (x.source = .lull ∧
      n ≠ 4 ∨ x.source = .calm ∧ n ≠ 4 ∧ n ≠ 9)) :=
  ⟨⟨⟨.lull, 6, true, 0, 0⟩, (0, 0xFFFF), [],
    ((wk.onPower fun p => { p with entry := some ⟨.lull, 6, true, 0, 0⟩ }).onAon fun a => { a with wakePending := [(0, 0xFFFF)] }),
    by decide +kernel⟩,
   ⟨⟨.lull, 5, true, 0, 0⟩, (0, 0xFFFF), [],
     ((wk.onPower fun p => { p with entry := some ⟨.lull, 5, true, 0, 0⟩ }).onAon fun a => { a with wakePending := [(0, 0xFFFF)] }),
     by decide +kernel⟩,
   ⟨⟨.calm, 5, true, 0, 0⟩, (0, 0xFFFF), [],
     ((wk.onPower fun p => { p with mode := .lull, entry := some ⟨.calm, 5, true, 0, 0⟩ }).onAon fun a => { a with wakePending := [(0, 0xFFFF)] }),
     by decide +kernel⟩,
   ⟨0, (wk.onPower fun p => { p with mode := .lull }), by decide +kernel⟩,
   ⟨0, ⟨.lull, 3, true, 0, 0⟩, (wk.onPower fun p => { p with entry := some ⟨.lull, 3, true, 0, 0⟩ }), by decide +kernel⟩,
   ⟨4, ⟨.calm, 6, false, 0, 0⟩, ((wk.setCfgAt (Reg.offset .pwrWakeCfg 0) 0xFF).onPower fun p => { p with entry := some ⟨.calm, 6, false, 0, 0⟩ }),
     by decide +kernel⟩,
   ⟨0, wk, by decide +kernel⟩,
   ⟨2, true, ⟨.lull, [1], 0, 0, 0⟩, wk.onPower fun p => { p with mode := .lull, exit := some ⟨.lull, [1], 0, 0, 0⟩ }, by decide +kernel⟩⟩

/-- States and operands that meet the hypotheses of `LowPowerEntriesAndExits`, clause by clause. -/
theorem witness_LowPowerEntriesAndExits_3 :
    (∃ (n : Nat) (ok : Bool) (x : Exit) (s : State), s.released = true ∧ s.power.exit = some x ∧ s.exitStepReady x n = true ∧ (x.source = .lull ∧
      n = 4 ∨ x.source = .calm ∧ n = 9) ∧ (s.power.resume = .stride ∨ s.power.resume = .sprint)) ∧
    (∃ (ok : Bool) (x : Exit) (s : State), s.released = true ∧ s.power.exit = some x ∧ x.source = .calm ∧ s.exitStepReady x 4 = true ∧
      (ok = false ∨ s.store.calmImage = some false)) ∧
    (∃ (x : Exit) (s : State), s.released = true ∧ s.power.exit = some x ∧ x.source = .calm ∧ s.exitStepReady x 4 = true ∧
      s.store.calmImage ≠ some false) ∧
    (∃ (n : Nat) (ok : Bool) (s : State), (s.power.exit = none ∨ ∃ x, s.power.exit = some x ∧ s.exitStepReady x n = false)) ∧
    (∃ (w : MaintWork) (s : State), s.aon.on = true ∧ (s.power.mode = .lull ∨ s.power.mode = .calm ∧ s.aon.trip = false) ∧ s.power.exit = none ∧
      s.power.entry = none ∧ s.aon.maintTimer.isSome = true) ∧
    (∃ (w : MaintWork) (s : State), (s.aon.maintTimer = none ∨ s.power.mode = .stride ∨ s.power.mode = .sprint ∨ s.power.exit.isSome = true)) :=
  ⟨⟨4, true, ⟨.lull, [1, 2, 3], 0, 0, 0⟩, wk.onPower fun p => { p with mode := .lull, exit := some ⟨.lull, [1, 2, 3], 0, 0, 0⟩ }, by decide +kernel⟩,
   ⟨false, ⟨.calm, [1, 2, 3], 0, 0, 0⟩, wk.onPower fun p => { p with mode := .calm, exit := some ⟨.calm, [1, 2, 3], 0, 0, 0⟩ }, by decide +kernel⟩,
   ⟨⟨.calm, [1, 2, 3], 0, 0, 0⟩, wk.onPower fun p => { p with mode := .calm, exit := some ⟨.calm, [1, 2, 3], 0, 0, 0⟩ }, by decide +kernel⟩,
   ⟨1, true, wk, by decide +kernel⟩,
   ⟨.patrol, (wk.onPower fun p => { p with mode := .lull }).onAon fun a => { a with maintTimer := some 9 }, by decide +kernel⟩,
   ⟨.patrol, wk, by decide +kernel⟩⟩

/-- States and operands that meet the hypotheses of `FeaturesOfTenantZeroAndOfControllers`, clause by clause. -/
theorem witness_FeaturesOfTenantZeroAndOfControllers_1 :
    (∃ (h : Hdr) (v : Nat) (s : State), s.TakesAdmin ruleAny h ∧ h.ctrl = 0 ∧ v < 3 ∧ s.changing = false) ∧
    (∃ (h : Hdr) (v : Nat) (s : State), s.TakesAdmin ruleAny h ∧ h.ctrl = 0 ∧ v ≤ 4 ∧ s.changing = true ∧ (v < 3 ∨ v = 3 ∧
      s.power.mode ≠ .lull ∨ v = 4 ∧ s.power.mode ≠ .calm)) ∧
    (∃ (h : Hdr) (v : Nat) (s : State), s.TakesAdmin ruleAny h ∧ h.ctrl = 0 ∧ (v = 3 ∨ v = 4) ∧ s.changing = false ∧ s.entryRefusal (v == 4) = none) ∧
    (∃ (h : Hdr) (v : Nat) (r : Nat) (src : Nat) (s : State), s.TakesAdmin ruleAny h ∧ h.ctrl = 0 ∧ (v = 3 ∨ v = 4) ∧ s.changing = false ∧
      s.entryRefusal (v == 4) = some (r, src)) ∧
    (∃ (h : Hdr) (v : Nat) (s : State), s.TakesAdmin ruleAny h ∧ h.ctrl ≠ 0) ∧
    (∃ (h : Hdr) (v : Nat) (s : State), s.TakesAdmin ruleAny h ∧ h.ctrl = 0 ∧ 4 < v) ∧
    (∃ (h : Hdr) (on : Bool) (ms : Nat) (target : Nat) (s : State), s.TakesAdmin ruleAny h ∧ h.ctrl = 0 ∧ (on = true → target = 3 ∨ target = 4)) ∧
    (∃ (h : Hdr) (ms : Nat) (target : Nat) (s : State), s.TakesAdmin ruleAny h ∧ h.ctrl = 0 ∧ target ≠ 3 ∧ target ≠ 4) :=
  ⟨⟨a0, 1, wk, admin (by decide +kernel), by decide +kernel⟩,
   ⟨a0, 1, wk.onPower fun p => { p with exit := some ⟨.lull, [1], 0, 0, 0⟩ }, admin (by decide +kernel), by decide +kernel⟩,
   ⟨a0, 3, wk, admin (by decide +kernel), by decide +kernel⟩,
   ⟨a0, 3, 7, srcAon, wk.onAon fun a => { a with pfdGood := false }, admin (by decide +kernel), by decide +kernel⟩,
   ⟨a1, 1, wk, admin (by decide +kernel), by decide +kernel⟩,
   ⟨a0, 5, wk, admin (by decide +kernel), by decide +kernel⟩,
   ⟨a0, true, 100, 3, wk, admin (by decide +kernel), by decide +kernel⟩,
   ⟨a0, 100, 2, wk, admin (by decide +kernel), by decide +kernel⟩⟩

/-- States and operands that meet the hypotheses of `FeaturesOfTenantZeroAndOfControllers`, clause by clause. -/
theorem witness_FeaturesOfTenantZeroAndOfControllers_2 :
    (∃ (h : Hdr) (on : Bool) (ms : Nat) (target : Nat) (s : State), s.TakesAdmin ruleAny h ∧ h.ctrl ≠ 0) ∧
    (∃ (ms : Nat) (target : Nat) (s : State), s.running = true ∧ s.power.apst = (true, ms, target) ∧ s.work.ctxs = [] ∧
      (s.fab.reads.any fun r => r.2.isSome) = false ∧ s.changing = false ∧ (s.power.mode = .stride ∨ s.power.mode = .sprint ∨ s.power.mode = .lull ∧
      target = 4) ∧ s.entryRefusal (target == 4) = none) ∧
    (∃ (ms : Nat) (target : Nat) (r : Nat) (src : Nat) (s : State), s.running = true ∧ s.power.apst = (true, ms, target) ∧ s.work.ctxs = [] ∧
      (s.fab.reads.any fun r => r.2.isSome) = false ∧ s.changing = false ∧ (s.power.mode = .stride ∨ s.power.mode = .sprint ∨ s.power.mode = .lull ∧
      target = 4) ∧ s.entryRefusal (target == 4) = some (r, src)) ∧
    (∃ (ms : Nat) (target : Nat) (on : Bool) (s : State), s.power.apst = (on, ms, target) ∧
      (on = false ∨ s.running = false ∨ s.work.ctxs ≠ [] ∨ (s.fab.reads.any fun r => r.2.isSome) = true ∨ s.changing = true ∨ s.power.mode = .warmup ∨ s.power.mode = .calm)) ∧
    (∃ (h : Hdr) (i : Nat) (k : Nat) (u : Bool) (s : State), s.TakesAdmin ruleAny h ∧ h.ctrl = 0 ∧ i ≤ 3) ∧
    (∃ (h : Hdr) (i : Nat) (k : Nat) (u : Bool) (s : State), s.TakesAdmin ruleAny h ∧ h.ctrl = 0 ∧ 3 < i) ∧
    (∃ (h : Hdr) (i : Nat) (k : Nat) (u : Bool) (s : State), s.TakesAdmin ruleAny h ∧ h.ctrl ≠ 0) ∧
    (∃ (h : Hdr) (a : Bool) (s : State), s.TakesAdmin ruleAny h) :=
  ⟨⟨a1, true, 100, 3, wk, admin (by decide +kernel), by decide +kernel⟩,
   ⟨100, 3, wk.onPower fun p => { p with apst := (true, 100, 3) }, by decide +kernel⟩,
   ⟨100, 3, 7, srcAon, (wk.onPower fun p => { p with apst := (true, 100, 3) }).onAon fun a => { a with pfdGood := false }, by decide +kernel⟩,
   ⟨100, 3, false, wk.onPower fun p => { p with apst := (false, 100, 3) }, by decide +kernel⟩,
   ⟨a0, 3, 350, true, wk, admin (by decide +kernel), by decide +kernel⟩,
   ⟨a0, 4, 350, true, wk, admin (by decide +kernel), by decide +kernel⟩,
   ⟨a1, 3, 350, true, wk, admin (by decide +kernel), by decide +kernel⟩,
   ⟨a1, true, wk, admin (by decide +kernel)⟩⟩

/-- States and operands that meet the hypotheses of `HousekeepingRoundsAndTrip`, clause by clause. -/
theorem witness_HousekeepingRoundsAndTrip_1 :
    (∃ (x : HkSample) (s : State), s.aon.on = true ∧ s.adcOff = false) ∧
    (∃ (x : HkSample) (i : Nat) (s : State), s.aon.on = true ∧ s.adcOff = false ∧ i < 11 ∧ s.aon.hkChannel = 104 + i) ∧
    (∃ (x : HkSample) (i : Nat) (s : State), s.aon.on = true ∧ s.adcOff = false ∧ s.power.adcFail = false ∧
      sensorOfChannel s.aon.hkChannel = some i ∧ (s.sensor i).broken = false ∧
      faultOf x.fault (x.value + 2 * signedOf 9 (s.cfg .thmSens i 20 12)) = .none) ∧
    (∃ (x : HkSample) (i : Nat) (s : State), s.aon.on = true ∧ s.adcOff = false ∧ s.power.adcFail = false ∧
      sensorOfChannel s.aon.hkChannel = some i ∧ (s.sensor i).broken = false ∧
      faultOf x.fault (x.value + 2 * signedOf 9 (s.cfg .thmSens i 20 12)) ≠ .none) ∧
    (∃ (x : HkSample) (s : State), s.aon.on = true ∧ s.adcOff = false ∧ sensorOfChannel s.aon.hkChannel = none ∧
      (s.aon.hkChannel < 104 ∨ 115 ≤ s.aon.hkChannel ∧ (x.refOk = true ∨ s.aon.hkChannel < 120))) ∧
    (∃ (x : HkSample) (s : State), (s.adcOff = true ∨ s.aon.on = false)) ∧
    (∃ (ch : Nat) (code : Nat) (s : State), s.aon.on = true ∧ s.aon.hkComplete = true ∧ s.adcOff = false ∧ s.power.adcFail = false ∧
      s.aon.hkBadRef = some (ch, code)) ∧
    (∃ (s : State), s.aon.on = true ∧ s.aon.hkComplete = true ∧ s.adcOff = false ∧ (s.power.adcFail = true ∨ s.aon.hkBadRef = none)) :=
  ⟨⟨⟨50000, .none, 700, true⟩, wk, by decide +kernel⟩,
   ⟨⟨50000, .none, 700, true⟩, 10, wk.onAon fun a => { a with hkChannel := 114 }, by decide +kernel⟩,
   ⟨⟨2000, .none, 700, true⟩, 24, wk.onAon fun a => { a with hkChannel := 72 }, by decide +kernel⟩,
   ⟨⟨2000, .short, 700, true⟩, 24, wk.onAon fun a => { a with hkChannel := 72 }, by decide +kernel⟩,
   ⟨⟨50000, .none, 700, true⟩, wk, by decide +kernel⟩,
   ⟨⟨50000, .none, 700, true⟩, wk.onPower fun p => { p with mode := .calm }, by decide +kernel⟩,
   ⟨3, 700, wk.onAon fun a => { a with hkComplete := true, hkBadRef := some (3, 700) }, by decide +kernel⟩,
   ⟨wk.onAon fun a => { a with hkComplete := true }, by decide +kernel⟩⟩

/-- States and operands that meet the hypotheses of `HousekeepingRoundsAndTrip`, clause by clause. -/
theorem witness_HousekeepingRoundsAndTrip_2 :
    (∃ (s : State), (s.aon.on = false ∨ s.aon.hkComplete = false ∨ s.adcOff = true)) ∧
    (∃ (s : State), s.aon.on = true ∧ s.aon.trip = false) ∧
    (∃ (s : State), (s.aon.trip = true ∨ s.aon.on = false)) :=
  ⟨⟨wk, by decide +kernel⟩,
   ⟨wk, by decide +kernel⟩,
   ⟨wk.onAon fun a => { a with trip := true }, by decide +kernel⟩⟩

/-- States and operands that meet the hypotheses of `AvsBusStepsAreConfirmed`, clause by clause. -/
theorem witness_AvsBusStepsAreConfirmed :
    (∃ (mv : Nat) (r : Bool) (s : State), s.released = true ∧ s.power.avsStep = some (mv, r)) ∧
    (∃ (mv : Nat) (s : State), s.released = true ∧ s.power.avsStep = some (mv, false)) ∧
    (∃ (mv : Nat) (s : State), s.released = true ∧ s.power.avsStep = some (mv, true)) ∧
    (∃ (a : Bool) (s : State), (s.power.avsStep = none ∨ s.released = false)) :=
  ⟨⟨810, false, wk.onPower fun p => { p with avsStep := some (810, false) }, by decide +kernel⟩,
   ⟨810, wk.onPower fun p => { p with avsStep := some (810, false) }, by decide +kernel⟩,
   ⟨810, wk.onPower fun p => { p with avsStep := some (810, true) }, by decide +kernel⟩,
   ⟨true, wk, by decide +kernel⟩⟩

/-- States and operands that meet the hypotheses of `PcieLinksComeAndGo`, clause by clause. -/
theorem witness_PcieLinksComeAndGo :
    (∃ (port : Nat) (rate : Nat) (width : Nat) (f : Bool) (s : State), s.pcieOn = true ∧ s.portExists port = true ∧ (s.link port).up = false) ∧
    (∃ (port : Nat) (rate : Nat) (width : Nat) (f : Bool) (s : State), (s.pcieOn = false ∨ s.portExists port = false ∨ (s.link port).up = true)) ∧
    (∃ (port : Nat) (rate : Nat) (width : Nat) (f : Bool) (s : State), s.pcieOn = true ∧ (s.link port).up = true) ∧
    (∃ (port : Nat) (rate : Nat) (width : Nat) (f : Bool) (s : State), ((s.link port).up = false ∨ s.pcieOn = false)) ∧
    (∃ (port : Nat) (s : State), s.running = true ∧ port < 2) ∧
    (∃ (port : Nat) (s : State), s.running = false) ∧
    (∃ (port : Nat) (s : State), s.released = true ∧ port < 2 ∧ (s.power.mode ≠ .calm ∨ s.aon.trip = false)) ∧
    (∃ (port : Nat) (s : State), s.released = false) :=
  ⟨⟨0, 4, 4, true, wk, by decide +kernel⟩,
   ⟨1, 4, 4, true, wk, by decide +kernel⟩,
   ⟨0, 4, 4, true, { wk with links := [(0, { up := true })] }, by decide +kernel⟩,
   ⟨0, 4, 4, true, wk, by decide +kernel⟩,
   ⟨0, { wk with links := [(0, { up := true })] }, by decide +kernel⟩,
   ⟨0, State.reset, by decide +kernel⟩,
   ⟨0, { wk with power := { wk.power with mode := .lull } }, by decide +kernel⟩,
   ⟨0, State.reset, by decide +kernel⟩⟩

/-- States and operands that meet the hypotheses of `ConfigurationRequestsAnswered`, clause by clause. -/
theorem witness_ConfigurationRequestsAnswered_1 :
    (∃ (port : Nat) (fn : Nat) (r : CfgRequest) (s : State), s.pcieOn = true ∧ s.portExists port = true ∧ (s.link port).up = true ∧
      s.configReady = false) ∧
    (∃ (port : Nat) (fn : Nat) (b : Nat) (s : State), s.pcieOn = true ∧ s.portExists port = true ∧ (s.link port).up = true ∧ s.configReady = true ∧
      fn ≤ s.totalVfs port ∧ s.functionExists (s.slotOf port fn) = true ∧ b < 4) ∧
    (∃ (port : Nat) (fn : Nat) (o : Nat) (s : State), s.pcieOn = true ∧ s.portExists port = true ∧ (s.link port).up = true ∧ s.configReady = true ∧
      fn ≤ s.totalVfs port ∧ s.functionExists (s.slotOf port fn) = true ∧ 4 ≤ o) ∧
    (∃ (port : Nat) (n : Nat) (s : State), s.pcieOn = true ∧ s.portExists port = true ∧ (s.link port).up = true ∧ s.configReady = true ∧
      (s.ctrl (s.slotOf port 0)).numVfs = 0 ∧ s.functionExists (s.slotOf port 0) = true) ∧
    (∃ (port : Nat) (fn : Nat) (n : Nat) (s : State), s.pcieOn = true ∧ s.portExists port = true ∧ (s.link port).up = true ∧ s.configReady = true ∧
      fn ≤ s.totalVfs port ∧ s.functionExists (s.slotOf port fn) = true ∧ (fn ≠ 0 ∨ (s.ctrl (s.slotOf port 0)).numVfs ≠ 0)) ∧
    (∃ (port : Nat) (fn : Nat) (on : Bool) (s : State), s.pcieOn = true ∧ s.portExists port = true ∧ (s.link port).up = true ∧ s.configReady = true ∧
      fn ≤ s.totalVfs port ∧ s.functionExists (s.slotOf port fn) = true) ∧
    (∃ (port : Nat) (s : State), s.pcieOn = true ∧ s.portExists port = true ∧ (s.link port).up = true ∧ s.configReady = true ∧
      s.functionExists (s.slotOf port 0) = true) ∧
    (∃ (port : Nat) (fn : Nat) (s : State), s.pcieOn = true ∧ s.portExists port = true ∧ (s.link port).up = true ∧ s.configReady = true ∧ fn ≠ 0 ∧
      fn ≤ s.totalVfs port ∧ s.functionExists (s.slotOf port fn) = true) :=
  ⟨⟨0, 0, .read 0, { wk with links := [(0, { up := true })], power := { wk.power with stepDone := 0 } }, by decide +kernel⟩,
   ⟨0, 2, 0, { wk with links := [(0, { up := true })], ctrls := [(0, { present := true, en := true, rdy := true, numVfs := 2 })] },
     by decide +kernel⟩,
   ⟨0, 0, 8, { wk with links := [(0, { up := true })] }, by decide +kernel⟩,
   ⟨0, 3, { wk with links := [(0, { up := true })] }, by decide +kernel⟩,
   ⟨0, 0, 3, { wk with links := [(0, { up := true })], ctrls := [(0, { present := true, en := true, rdy := true, numVfs := 2 })] },
     by decide +kernel⟩,
   ⟨0, 0, true, { wk with links := [(0, { up := true })] }, by decide +kernel⟩,
   ⟨0, { wk with links := [(0, { up := true })], ctrls := [(0, { present := true, en := true, rdy := true, numVfs := 2 })] }, by decide +kernel⟩,
   ⟨0, 1, { wk with links := [(0, { up := true })], ctrls := [(0, { present := true, en := true, rdy := true, numVfs := 2 })] }, by decide +kernel⟩⟩

/-- States and operands that meet the hypotheses of `ConfigurationRequestsAnswered`, clause by clause. -/
theorem witness_ConfigurationRequestsAnswered_2 :
    (∃ (port : Nat) (fn : Nat) (r : CfgRequest) (s : State),
      ((s.link port).up = false ∨ s.pcieOn = false ∨ s.portExists port = false ∨ s.configReady = true ∧
      (s.totalVfs port < fn ∨ s.functionExists (s.slotOf port fn) = false))) :=
  ⟨0, 1, .read 0, { wk with links := [(0, { up := true })] }, by decide +kernel⟩

/-- States and operands that meet the hypotheses of `ControllerEnableAndReset`, clause by clause. -/
theorem witness_ControllerEnableAndReset_1 :
    (∃ (c : Nat) (d : Nat) (s : State), s.pcieOn = true ∧ (s.ctrl c).en = false ∧ (s.ctrl c).drain = none ∧ c < 256 ∧ s.functionExists c = true ∧
      2 ≤ d ∧ d ≤ 4096 ∧ s.adminQueueFits c d = true) ∧
    (∃ (c : Nat) (d : Nat) (s : State), s.pcieOn = true ∧ (s.ctrl c).en = false ∧ (s.ctrl c).drain = none ∧ 256 ≤ c ∧ (s.ctrl c).present = true) ∧
    (∃ (c : Nat) (d : Nat) (s : State), (s.pcieOn = false ∨ (s.ctrl c).en = true ∨ (s.ctrl c).drain.isSome = true ∨ c < 256 ∧
      (d < 2 ∨ 4096 < d ∨ s.functionExists c = false) ∨ 256 ≤ c ∧ (s.ctrl c).present = false)) ∧
    (∃ (c : Nat) (d : Nat) (s : State), s.pcieOn = true ∧ (s.ctrl c).en = false ∧ (s.ctrl c).drain = none ∧ c < 256 ∧ s.functionExists c = true ∧
      2 ≤ d ∧ d ≤ 4096 ∧ s.adminQueueFits c d = false) ∧
    (∃ (c : Nat) (s : State), s.running = true ∧ (s.ctrl c).en = true ∧ (s.ctrl c).drain = none) ∧
    (∃ (c : Nat) (n : Nat) (s : State), s.running = true ∧ (s.ctrl c).en = true ∧ (s.ctrl c).drain = some n) ∧
    (∃ (c : Nat) (s : State), ((s.ctrl c).en = false ∨ s.running = false)) ∧
    (∃ (k : Nat) (s : State), s.running = true ∧ s.functionExists k = true ∧ k ≠ 0 ∧ (s.power.dual = true → k ≠ 1) ∧ (s.ctrl k).en = true ∧
      (s.ctrl k).drain = none) :=
  ⟨⟨0, 32, { wd with ctrls := [] }, by decide +kernel⟩,
   ⟨300, 32, { wk with ctrls := [(300, { present := true })] }, by decide +kernel⟩,
   ⟨0, 4097, wk, by decide +kernel⟩,
   ⟨0, 32, { wk with ctrls := [] }, by decide +kernel⟩,
   ⟨0, wk, by decide +kernel⟩,
   ⟨0, 4, { wk with ctrls := [(0, { present := true, en := true, stopped := true, drain := some 4 })] }, by decide +kernel⟩,
   ⟨2, wk, by decide +kernel⟩,
   ⟨1, { wk with ctrls := [(0, { present := true, en := true, rdy := true, numVfs := 2 }), (1, { present := true, en := true, rdy := true })] },
     by decide +kernel⟩⟩

/-- States and operands that meet the hypotheses of `ControllerEnableAndReset`, clause by clause. -/
theorem witness_ControllerEnableAndReset_2 :
    (∃ (k : Nat) (s : State), s.running = true ∧ s.functionExists k = true ∧ k ≠ 0 ∧ (s.power.dual = true → k ≠ 1) ∧ (s.ctrl k).en = false) ∧
    (∃ (k : Nat) (s : State), s.running = true ∧ s.functionExists k = true ∧ (k = 0 ∨ s.power.dual = true ∧ k = 1)) ∧
    (∃ (k : Nat) (s : State), (s.running = false ∨ s.functionExists k = false)) ∧
    (∃ (c : Nat) (n : Nat) (s : State), s.running = true ∧ c < 256 ∧ (s.ctrl c).drain = some n ∧ s.ctrlBusy c = false) ∧
    (∃ (c : Nat) (n : Nat) (s : State), s.running = true ∧ (s.ctrl c).drain = some n ∧ s.ctrlBusy c = false ∧
      (s.tenant (s.tenantOf c)).ending = none ∧ (s.tenant (s.tenantOf c)).st = .resetting) ∧
    (∃ (c : Nat) (s : State), (s.ctrlBusy c = true ∨ (s.ctrl c).drain = none ∨ s.running = false)) :=
  ⟨⟨2, { wk with ctrls := [(0, { present := true, en := true, rdy := true, numVfs := 2 }), (1, { present := true, en := true, rdy := true })] },
    by decide +kernel⟩,
   ⟨0, { wk with ctrls := [(0, { present := true, en := true, rdy := true, numVfs := 2 }), (1, { present := true, en := true, rdy := true })] },
     by decide +kernel⟩,
   ⟨1, wk, by decide +kernel⟩,
   ⟨0, 4, { wk with ctrls := [(0, { present := true, stopped := true, drain := some 4 })], tenants := [(0, { st := .resetting })] },
     by decide +kernel⟩,
   ⟨0, 4, { wk with ctrls := [(0, { present := true, stopped := true, drain := some 4 })], tenants := [(0, { st := .resetting })] },
     by decide +kernel⟩,
   ⟨0, wk, by decide +kernel⟩⟩

/-- States and operands that meet the hypotheses of `DoorbellsMoveTheirQueue`, clause by clause. -/
theorem witness_DoorbellsMoveTheirQueue :
    (∃ (c : Nat) (q : Nat) (v : Nat) (s : State), s.pcieOn = true ∧ c < 256 ∧ (s.ctrl c).en = true ∧ (s.ctrl c).drain = none ∧
      v < (s.sq (queueKey c q)).depth) ∧
    (∃ (c : Nat) (q : Nat) (v : Nat) (s : State), s.pcieOn = true ∧ c < 256 ∧ (s.ctrl c).en = true ∧ (s.ctrl c).drain = none ∧
      v < (s.cq (queueKey c q)).depth) ∧
    (∃ (c : Nat) (q : Nat) (v : Nat) (cq : Bool) (s : State), s.pcieOn = true ∧ c < 256 ∧ (s.ctrl c).en = true ∧ (s.ctrl c).drain = none ∧
      (if cq then (s.cq (queueKey c q)).depth else (s.sq (queueKey c q)).depth) ≤ v ∧ (s.ctrl c).aers = []) ∧
    (∃ (c : Nat) (q : Nat) (v : Nat) (a : Nat) (as : List Nat) (cq : Bool) (s : State), s.pcieOn = true ∧ c < 256 ∧ (s.ctrl c).en = true ∧
      (s.ctrl c).drain = none ∧ (if cq then (s.cq (queueKey c q)).depth else (s.sq (queueKey c q)).depth) ≤ v ∧ (s.ctrl c).aers = a :: as) ∧
    (∃ (c : Nat) (q : Nat) (v : Nat) (cq : Bool) (s : State),
      ((s.ctrl c).en = false ∨ (s.ctrl c).drain.isSome = true ∨ s.pcieOn = false ∨ 256 ≤ c)) :=
  ⟨⟨0, 1, 3, { wk with sqs := [(queueKey 0 1, { depth := 4 })] }, by decide +kernel⟩,
   ⟨0, 1, 3, { wk with cqs := [(queueKey 0 1, { depth := 4 })] }, by decide +kernel⟩,
   ⟨0, 1, 4, false, { wk with sqs := [(queueKey 0 1, { depth := 4 })] }, by decide +kernel⟩,
   ⟨0, 1, 4, 9, [], false,
     { wk with sqs := [(queueKey 0 1, { depth := 4 })], ctrls := [(0, { present := true, en := true, rdy := true, aers := [9] })] },
     by decide +kernel⟩,
   ⟨5, 1, 4, true, wk, by decide +kernel⟩⟩

/-- States and operands that meet the hypotheses of `AbsentUnitRegistersReadZero`, clause by clause. -/
theorem witness_AbsentUnitRegistersReadZero :
    (∃ (o : Nat) (i : Nat) (r : Reg) (fs : List Fld) (s : State), s.windowServed = true ∧ inWindow o 1 = true ∧ locate o = .reg r i fs ∧
      s.absent r = true) ∧
    (∃ (o : Nat) (n : Nat) (k : Nat) (i : Nat) (r : Reg) (fs : List Fld) (s : State), s.windowServed = true ∧ inWindow o n = true ∧ k < n ∧
      locate (o + 4 * k) = .reg r i fs ∧ s.absent r = true) ∧
    (∃ (a : BitVec 32) (b : BitVec 32) (k : Nat) (i : Nat) (r : Reg) (fs : List Fld) (s : State), s.servesMc = true ∧ s.windowServed = true ∧
      bitsOf a 31 28 = 0 ∧ bitsOf b 31 4 = 0 ∧ inWindow (bitsOf a 27 0) (bitsOf b 3 0 + 1) = true ∧ k ≤ bitsOf b 3 0 ∧
      locate (bitsOf a 27 0 + 4 * k) = .reg r i fs ∧ s.absent r = true) ∧
    (∃ (o : Nat) (i : Nat) (r : Reg) (fs : List Fld) (be : BitVec 4) (v : BitVec 32) (s : State), s.windowServed = true ∧ locate o = .reg r i fs ∧
      s.absent r = true) ∧
    (∃ (a : BitVec 32) (v : BitVec 32) (i : Nat) (r : Reg) (fs : List Fld) (s : State), s.servesMc = true ∧ s.windowServed = true ∧
      bitsOf a 31 28 = 0 ∧ inWindow (bitsOf a 27 0) 1 = true ∧ locate (bitsOf a 27 0) = .reg r i fs ∧ s.absent r = true) ∧
    (∃ (d : Nat) (k : Nat) (v : BitVec 32) (s : State), s.absent .fabPd = true) :=
  ⟨⟨Reg.offset .fabMode 0, 0, .fabMode, fieldsAt (Reg.offset .fabMode 0), { wk with variant := 3 }, by decide +kernel⟩,
   ⟨Reg.offset .fabMode 0, 4, 0, 0, .fabMode, fieldsAt (Reg.offset .fabMode 0), { wk with variant := 3 }, by decide +kernel⟩,
   ⟨BitVec.ofNat 32 (Reg.offset .cmpCfg 0), 0, 0, 0, .cmpCfg, fieldsAt (Reg.offset .cmpCfg 0), { wk with variant := 3 }, by decide +kernel⟩,
   ⟨Reg.offset .cmpCfg 0, 0, .cmpCfg, fieldsAt (Reg.offset .cmpCfg 0), 0xF, 7, { wk with variant := 3 }, by decide +kernel⟩,
   ⟨BitVec.ofNat 32 (Reg.offset .cmpCfg 0), 7, 0, .cmpCfg, fieldsAt (Reg.offset .cmpCfg 0), { wk with variant := 3 }, by decide +kernel⟩,
   ⟨5, 4, 0x80000000, { wk with variant := 3 }, by decide +kernel⟩⟩

/-- States and operands that meet the hypotheses of `ManagerWindowAccesses`, clause by clause. -/
theorem witness_ManagerWindowAccesses_1 :
    (∃ (o : Nat) (n : Nat) (s : State), s.windowServed = true ∧ inWindow o n = true ∧ (∀ k, k < n → locate (o + 4 * k) ≠ .unimplemented)) ∧
    (∃ (o : Nat) (s : State), s.windowServed = true ∧ inWindow o 1 = true ∧ locate o = .unimplemented) ∧
    (∃ (o : Nat) (n : Nat) (s : State), (s.windowServed = false ∨ inWindow o n = false)) ∧
    (∃ (o : Nat) (i : Nat) (r : Reg) (fs : List Fld) (be : BitVec 4) (v : BitVec 32) (s : State), s.windowServed = true ∧ inWindow o 1 = true ∧
      locate o = .reg r i fs ∧ s.absent r = false ∧ be ≠ 0xF) ∧
    (∃ (o : Nat) (be : BitVec 4) (v : BitVec 32) (s : State), s.windowServed = true ∧ inWindow o 1 = true ∧ locate o = .unimplemented) ∧
    (∃ (o : Nat) (i : Nat) (r : Reg) (fs : List Fld) (v : BitVec 32) (s : State), s.windowServed = true ∧ inWindow o 1 = true ∧
      locate o = .reg r i fs ∧ s.absent r = false) ∧
    (∃ (i : Nat) (r : Reg) (fs : List Fld) (o : Nat) (v : BitVec 32) (s : State), (∀ j, r ≠ .fabAddr j) ∧ s.windowServed = true ∧
      inWindow o 1 = true ∧ locate o = .reg r i fs ∧ r ∉ [Reg.fabPd, .pwrSprint, .pwrPadRelease, .evrRelease, .evrLgClear, .laneCtrl, .dmcCtrl,
      .loopStat, .chipGpioData] ∧ liveMask fs v = 0) ∧
    (∃ (i : Nat) (r : Reg) (fs : List Fld) (o : Nat) (v : BitVec 32) (s : State), (∀ j, r ≠ .fabAddr j) ∧ s.windowServed = true ∧
      inWindow o 1 = true ∧ locate o = .reg r i fs ∧ s.absent r = false ∧ r ∉ [Reg.fabPd, .pwrSprint, .pwrPadRelease, .evrRelease, .evrLgClear,
      .laneCtrl, .dmcCtrl, .loopStat, .chipGpioData] ∧ liveMask fs v ≠ 0) :=
  ⟨⟨Reg.offset .chipCaps 0, 1, wk, by decide +kernel⟩,
   ⟨0x400000, wk, by decide +kernel⟩,
   ⟨3, 1, wk, by decide +kernel⟩,
   ⟨Reg.offset .chipMediaCfg 0, 0, .chipMediaCfg, fieldsAt (Reg.offset .chipMediaCfg 0), 3, 7, wk, by decide +kernel⟩,
   ⟨0x400000, 3, 7, wk, by decide +kernel⟩,
   ⟨Reg.offset .laneCtrl 0, 0, .laneCtrl, fieldsAt (Reg.offset .laneCtrl 0), 0x80000000, wk, by decide +kernel⟩,
   ⟨0, .pwrCap, fieldsAt (Reg.offset .pwrCap 0), Reg.offset .pwrCap 0, 7, wk, fun _ h => Reg.noConfusion h, by decide +kernel⟩,
   ⟨0, .chipMediaCfg, fieldsAt (Reg.offset .chipMediaCfg 0), Reg.offset .chipMediaCfg 0, 7, wk, fun _ h => Reg.noConfusion h, by decide +kernel⟩⟩

/-- States and operands that meet the hypotheses of `ManagerWindowAccesses`, clause by clause. -/
theorem witness_ManagerWindowAccesses_2 :
    (∃ (i : Nat) (fs : List Fld) (o : Nat) (v : BitVec 32) (s : State), s.windowServed = true ∧ inWindow o 1 = true ∧
      locate o = .reg .pwrSprint i fs) ∧
    (∃ (o : Nat) (be : BitVec 4) (v : BitVec 32) (s : State), (s.windowServed = false ∨ inWindow o 1 = false)) :=
  ⟨⟨0, fieldsAt (Reg.offset .pwrSprint 0), Reg.offset .pwrSprint 0, 0x80000007, wk, by decide +kernel⟩,
   ⟨0, 0xF, 7, State.reset, by decide +kernel⟩⟩

/-- States and operands that meet the hypotheses of `ManagementControllerCommandsAndPads`, clause by clause. -/
theorem witness_ManagementControllerCommandsAndPads_1 :
    (∃ (a : BitVec 32) (b : BitVec 32) (s : State), s.servesMc = true ∧ s.windowServed = true ∧ bitsOf a 31 28 = 0 ∧ bitsOf b 31 4 = 0 ∧
      inWindow (bitsOf a 27 0) (bitsOf b 3 0 + 1) = true) ∧
    (∃ (a : BitVec 32) (b : BitVec 32) (s : State), s.servesMc = true ∧ s.windowServed = true ∧ bitsOf a 31 28 = 0 ∧ bitsOf b 31 4 = 0 ∧
      inWindow (bitsOf a 27 0) (bitsOf b 3 0 + 1) = true ∧ (∀ k, k ≤ bitsOf b 3 0 → locate (bitsOf a 27 0 + 4 * k) ≠ .unimplemented)) ∧
    (∃ (a : BitVec 32) (b : BitVec 32) (s : State), s.servesMc = true ∧ s.windowServed = true ∧
      (bitsOf a 31 28 ≠ 0 ∨ bitsOf b 31 4 ≠ 0 ∨ inWindow (bitsOf a 27 0) (bitsOf b 3 0 + 1) = false)) ∧
    (∃ (a : BitVec 32) (b : BitVec 32) (s : State), (s.servesMc = false ∨ s.windowServed = false)) ∧
    (∃ (a : BitVec 32) (v : BitVec 32) (s : State), s.servesMc = true ∧ s.windowServed = true ∧
      (bitsOf a 31 28 ≠ 0 ∨ inWindow (bitsOf a 27 0) 1 = false)) ∧
    (∃ (a : BitVec 32) (v : BitVec 32) (i : Nat) (fs : List Fld) (s : State), s.servesMc = true ∧ s.windowServed = true ∧ bitsOf a 31 28 = 0 ∧
      inWindow (bitsOf a 27 0) 1 = true ∧ locate (bitsOf a 27 0) = .reg .pwrSprint i fs) ∧
    (∃ (a : BitVec 32) (v : BitVec 32) (i : Nat) (fs : List Fld) (s : State), s.servesMc = true ∧ s.windowServed = true ∧ bitsOf a 31 28 = 0 ∧
      inWindow (bitsOf a 27 0) 1 = true ∧ locate (bitsOf a 27 0) = .reg .evrRelease i fs) ∧
    (∃ (a : BitVec 32) (v : BitVec 32) (i : Nat) (fs : List Fld) (s : State), s.servesMc = true ∧ s.windowServed = true ∧ bitsOf a 31 28 = 0 ∧
      inWindow (bitsOf a 27 0) 1 = true ∧ locate (bitsOf a 27 0) = .reg .evrLgClear i fs ∧ v.getLsbD 0 = true) :=
  ⟨⟨0x400000, 3, wk, by decide +kernel⟩,
   ⟨BitVec.ofNat 32 (Reg.offset .chipCaps 0), 0, wk, by decide +kernel⟩,
   ⟨2, 0, wk, by decide +kernel⟩,
   ⟨2, 0, State.reset, by decide +kernel⟩,
   ⟨0x10000000, 0, wk, by decide +kernel⟩,
   ⟨BitVec.ofNat 32 (Reg.offset .pwrSprint 0), 0x80000003, 0, fieldsAt (Reg.offset .pwrSprint 0), wk, by decide +kernel⟩,
   ⟨BitVec.ofNat 32 (Reg.offset .evrRelease 0), 3, 0, fieldsAt (Reg.offset .evrRelease 0), wk, by decide +kernel⟩,
   ⟨BitVec.ofNat 32 (Reg.offset .evrLgClear 0), 1, 0, fieldsAt (Reg.offset .evrLgClear 0), wk, by decide +kernel⟩⟩

/-- States and operands that meet the hypotheses of `ManagementControllerCommandsAndPads`, clause by clause. -/
theorem witness_ManagementControllerCommandsAndPads_2 :
    (∃ (a : BitVec 32) (v : BitVec 32) (s : State), (∀ i fs, locate (bitsOf a 27 0) ≠ .reg .pwrSprint i fs) ∧ (∀ i fs,
      locate (bitsOf a 27 0) ≠ .reg .evrRelease i fs) ∧ (∀ i fs, locate (bitsOf a 27 0) ≠ .reg .evrLgClear i fs) ∧ s.servesMc = true ∧
      s.windowServed = true ∧ bitsOf a 31 28 = 0 ∧ inWindow (bitsOf a 27 0) 1 = true) ∧
    (∃ (w : Nat) (m : BitVec 32) (s : State), s.running = true ∧ w < 2) ∧
    (∃ (w : Nat) (m : BitVec 32) (s : State), (2 ≤ w ∨ s.running = false)) :=
  ⟨⟨0x400000, 3, wk, notReg (by decide +kernel), notReg (by decide +kernel), notReg (by decide +kernel), by decide +kernel⟩,
   ⟨1, 3, wk, by decide +kernel⟩,
   ⟨2, 3, wk, by decide +kernel⟩⟩

/-- States and operands that meet the hypotheses of `RecorderTakesReleasesAndShows`, clause by clause. -/
theorem witness_RecorderTakesReleasesAndShows_1 :
    (∃ (t0 : Nat) (e : EvRec) (q : List (Nat × EvRec)) (s : State), s.running = true ∧ s.evr.queue = (t0, e) :: q ∧ s.evr.atSource = [] ∧
      s.evr.mode = .recording) ∧
    (∃ (t0 : Nat) (e : EvRec) (x : EvRec) (xs : List EvRec) (q : List (Nat × EvRec)) (s : State), s.running = true ∧ s.evr.queue = (t0, e) :: q ∧
      s.evr.atSource = x :: xs ∧ q.length < 256 ∧ s.evr.mode = .recording) ∧
    (∃ (t0 : Nat) (e : EvRec) (q : List (Nat × EvRec)) (s : State), s.running = true ∧ s.evr.queue = (t0, e) :: q ∧ s.evr.atSource = [] ∧
      s.evr.mode ≠ .recording ∧ isFaultCode e.code.toNat = false) ∧
    (∃ (t0 : Nat) (e : EvRec) (q : List (Nat × EvRec)) (s : State), s.running = true ∧ s.evr.queue = (t0, e) :: q ∧ s.evr.atSource = [] ∧
      s.evr.mode ≠ .recording ∧ isFaultCode e.code.toNat = true ∧ s.aon.lastGasp.length < 7) ∧
    (∃ (t0 : Nat) (e : EvRec) (q : List (Nat × EvRec)) (s : State), s.running = true ∧ s.evr.queue = (t0, e) :: q ∧ s.evr.atSource = [] ∧
      s.evr.mode = .lastGasp ∧ isFaultCode e.code.toNat = true ∧ 8 ≤ s.aon.lastGasp.length) ∧
    (∃ (t0 : Nat) (e : EvRec) (s : State), s.evr.queue = [(t0, e)] ∧ s.evr.mode = .full ∧ isFaultCode e.code.toNat = true ∧
      8 ≤ s.aon.lastGasp.length) ∧
    (∃ (s : State), (s.evr.queue = [] ∨ s.running = false)) ∧
    (∃ (p : Party) (n : Nat) (s : State), s.running = true ∧ s.mayRelease p = true ∧ n < s.aon.evrHead ∧ s.evr.mode ≠ .full) :=
  ⟨⟨5, plain, [], wk.onEvr fun r => { r with queue := [(5, plain)] }, by decide +kernel⟩,
   ⟨5, plain, faulty, [], [], wk.onEvr fun r => { r with queue := [(5, plain)], atSource := [faulty] }, by decide +kernel⟩,
   ⟨5, plain, [], wk.onEvr fun r => { r with queue := [(5, plain)], mode := .full }, by decide +kernel⟩,
   ⟨5, faulty, [], wk.onEvr fun r => { r with queue := [(5, faulty)], mode := .full }, by decide +kernel⟩,
   ⟨5, faulty, [],
     (wk.onAon fun a => { a with lastGasp := List.replicate 8 ⟨0, 0, faulty⟩ }).onEvr fun r => { r with queue := [(5, faulty)], mode := .lastGasp },
     by decide +kernel⟩,
   ⟨5, faulty,
     (wk.onAon fun a => { a with lastGasp := List.replicate 8 ⟨0, 0, faulty⟩ }).onEvr fun r => { r with queue := [(5, faulty)], mode := .full },
     by decide +kernel⟩,
   ⟨wk, by decide +kernel⟩,
   ⟨.manager, 0, wr.onAon fun a => { a with evrHead := 3 }, by decide +kernel⟩⟩

/-- States and operands that meet the hypotheses of `RecorderTakesReleasesAndShows`, clause by clause. -/
theorem witness_RecorderTakesReleasesAndShows_2 :
    (∃ (p : Party) (n : Nat) (r : Record) (rs : List Record) (s : State), s.running = true ∧ s.mayRelease p = true ∧ n < s.aon.evrHead ∧
      s.evr.mode = .full ∧ s.evr.held = r :: rs ∧ r.seq ≤ n ∧ s.evr.held.length = 65536) ∧
    (∃ (p : Party) (n : Nat) (s : State), s.aon.evrHead ≤ n) ∧
    (∃ (p : Party) (n : Nat) (s : State), s.running = true ∧ s.mayRelease p = false) ∧
    (∃ (p : Party) (s : State), s.running = true ∧ s.mayRelease p = true) ∧
    (∃ (p : Party) (s : State), s.running = true ∧ s.mayRelease p = false) ∧
    (∃ (h : Hdr) (seq : Nat) (n : Nat) (o : Nat) (s : State), s.TakesAdmin ruleBoot h ∧ n < 262144) ∧
    (∃ (h : Hdr) (seq : Nat) (s : State), s.TakesAdmin ruleBoot h) ∧
    (∃ (h : Hdr) (n : Nat) (o : Nat) (s : State), s.TakesAdmin ruleBoot h ∧ n < 262144) :=
  ⟨⟨.manager, 1, ⟨1, 0, plain⟩, List.replicate 65535 ⟨2, 0, plain⟩,
    (wr.onAon fun a => { a with evrHead := 3 }).onEvr fun r => { r with mode := .full, held := ⟨1, 0, plain⟩ :: List.replicate 65535 ⟨2, 0, plain⟩ },
    by refine ⟨by decide +kernel, by decide +kernel, by decide +kernel, rfl, rfl, by decide +kernel,
    by show (_ :: List.replicate 65535 _).length = _; rw [List.length_cons, List.length_replicate]⟩⟩,
   ⟨.manager, 1, wk, by decide +kernel⟩,
   ⟨.manager, 0, wk, by decide +kernel⟩,
   ⟨.manager, wr, by decide +kernel⟩,
   ⟨.manager, wk, by decide +kernel⟩,
   ⟨a0, 1, 1023, 0, wk, admin (by decide +kernel), by decide +kernel⟩,
   ⟨a0, 1, wk, admin (by decide +kernel)⟩,
   ⟨a0, 1023, 0, wk, admin (by decide +kernel), by decide +kernel⟩⟩

/-- States and operands that meet the hypotheses of `RecorderTakesReleasesAndShows`, clause by clause. -/
theorem witness_RecorderTakesReleasesAndShows_3 :
    (∃ (h : Hdr) (n : Nat) (o : Nat) (s : State), s.TakesAdmin ruleBoot h ∧ n < 262144) ∧
    (∃ (h : Hdr) (seq : Nat) (ch : Nat) (n : Nat) (o : Nat) (s : State), s.TakesAdmin ruleBoot h ∧ 262144 ≤ n) ∧
    (∃ (h : Hdr) (ch : Nat) (n : Nat) (o : Nat) (s : State), s.TakesAdmin ruleBoot h ∧ n < 262144 ∧ (s.chan (ch % 2)).frozen = true) ∧
    (∃ (h : Hdr) (ch : Nat) (n : Nat) (o : Nat) (s : State), s.TakesAdmin ruleBoot h ∧ (s.chan (ch % 2)).frozen = false) :=
  ⟨⟨a0, 1023, 0, wk, admin (by decide +kernel), by decide +kernel⟩,
   ⟨a0, 1, 0, 262144, 0, wk, admin (by decide +kernel), by decide +kernel⟩,
   ⟨a0, 1, 1023, 0, wk.onMem fun m => { m with chans := [(1, { frozen := true })] }, admin (by decide +kernel), by decide +kernel⟩,
   ⟨a0, 1, 1023, 0, wk, admin (by decide +kernel), by decide +kernel⟩⟩

/-- States and operands that meet the hypotheses of `LoopOutputsStayInLimits`, clause by clause. -/
theorem witness_LoopOutputsStayInLimits :
    (∃ (k : Nat) (x : LoopSample) (s : State), s.running = true ∧ (s.loop k).running = true ∧ (k ≠ 1 ∨ s.bank.charging = true) ∧
      (s.loopLimits k).1 ≤ (s.loopLimits k).2 ∧ (s.loopLimits k).1 ≤ (s.loop k).out ∧ (s.loop k).out ≤ (s.loopLimits k).2) ∧
    (∃ (x : LoopSample) (s : State), s.running = true ∧ (s.loop 1).running = true ∧ s.bank.charging = false) ∧
    (∃ (x : LoopSample) (s : State), s.running = true ∧ (s.loop 0).running = true ∧ s.power.mode ≠ .warmup) ∧
    (∃ (k : Nat) (x : LoopSample) (s : State), ((s.loop k).running = false ∨ s.running = false)) ∧
    (∃ (k : Nat) (s : State), s.running = true ∧ k < 8 ∧ (s.loop k).gust = true ∧ (s.loop k).gustAt ≠ some s.now) ∧
    (∃ (k : Nat) (s : State), ((s.loop k).gust = false ∨ (s.loop k).gustAt = some s.now ∨ 8 ≤ k)) :=
  ⟨⟨3, ⟨100, 1000, 20000, 20000, 100, 0, 0⟩, { wk with loops := [(3, { running := true, out := 10000 })] }, by decide +kernel⟩,
   ⟨⟨100, 1000, 20000, 20000, 100, 0, 0⟩, { wk with loops := [(1, { running := true })] }, by decide +kernel⟩,
   ⟨⟨100, 1000, 20000, 20000, 100, 0, 0⟩, { wk with loops := [(0, { running := true })] }, by decide +kernel⟩,
   ⟨2, ⟨100, 1000, 20000, 20000, 100, 0, 0⟩, wk, by decide +kernel⟩,
   ⟨3, { wk with loops := [(3, { running := true, gust := true })] }, by decide +kernel⟩,
   ⟨3, wk, by decide +kernel⟩⟩

/-- States and operands that meet the hypotheses of `FloorAlarmIsRecorded`, clause by clause. -/
theorem witness_FloorAlarmIsRecorded :
    (∃ (mw : Nat) (s : State), (∀ n, s.bank.floorAt = some n → n + 1000000000 ≤ s.now) ∧ s.running = true ∧ (s.loop 0).running = true ∧
      (s.loop 0).out = s.loopWord .loopOutLo 0 ∧ (s.loop 0).sp < (mw : Int)) ∧
    (∃ (mw : Nat) (n : Nat) (s : State), s.bank.floorAt = some n ∧ s.now < n + 1000000000) ∧
    (∃ (mw : Nat) (s : State),
      (s.running = false ∨ (s.loop 0).running = false ∨ (s.loop 0).out ≠ s.loopWord .loopOutLo 0 ∨ (mw : Int) ≤ (s.loop 0).sp)) :=
  ⟨⟨500, { wk with loops := [(0, { running := true, out := wk.loopWord .loopOutLo 0, sp := 400 })] }, none_of rfl, by decide +kernel⟩,
   ⟨500, 5000000000, wk.onBank fun b => { b with floorAt := some 5000000000 }, by decide +kernel⟩,
   ⟨500, { wk with loops := [(0, { running := true, out := 1 + wk.loopWord .loopOutLo 0, sp := 400 })] }, by decide +kernel⟩⟩

/-- States and operands that meet the hypotheses of `BankGuardsIsolateTheBank`, clause by clause. -/
theorem witness_BankGuardsIsolateTheBank :
    (∃ (mv : Nat) (s : State), s.running = true ∧ s.bank.ceilTrip = false ∧ 420 * s.ceilMj * 1000000 < 2 * s.cCfg * mv * mv) ∧
    (∃ (mv : Nat) (s : State), (2 * s.cCfg * mv * mv ≤ 420 * s.ceilMj * 1000000 ∨ s.bank.ceilTrip = true ∨ s.running = false)) ∧
    (∃ (ma : Nat) (s : State), s.bank.charging = true ∧ s.bank.fault = false ∧ (s.loop 1).out = s.loopWord .loopOutHi 1 ∧
      2 * (ma : Int) < (s.loop 1).sp) ∧
    (∃ (ma : Nat) (s : State),
      (s.bank.charging = false ∨ s.bank.fault = true ∨ (s.loop 1).sp ≤ 2 * (ma : Int) ∨ (s.loop 1).out ≠ s.loopWord .loopOutHi 1)) :=
  ⟨⟨40000, wk, by decide +kernel⟩,
   ⟨0, wk, by decide +kernel⟩,
   ⟨5, { wk.onBank (fun b => { b with charging := true }) with loops := [(1, { running := true, out := wk.loopWord .loopOutHi 1, sp := 400 })] },
     by decide +kernel⟩,
   ⟨5, wk, by decide +kernel⟩⟩

/-- States and operands that meet the hypotheses of `BatonsAreAskedGrantedReturned`, clause by clause. -/
theorem witness_BatonsAreAskedGrantedReturned_1 :
    (∃ (op : HeavyOp) (s : State), (s.hasCompression = true ∨ ∀ c, op ≠ .burst c) ∧ s.running = true ∧ s.broker.knows op = false) ∧
    (∃ (op : HeavyOp) (s : State), (s.broker.knows op = true ∨ s.running = false)) ∧
    (∃ (c : Nat) (s : State), s.hasCompression = false) ∧
    (∃ (op : HeavyOp) (s : State), s.running = true) ∧
    (∃ (op : HeavyOp) (s : State), s.running = false) ∧
    (∃ (s : State), s.running = true) ∧
    (∃ (s : State), (s.broker.closed = true ∨ s.broker.waiting = [] ∨ s.running = false)) ∧
    (∃ (b : Baton) (s : State), (∀ n, b.op ≠ .lane n) ∧ (∀ c, b.op ≠ .burst c) ∧ s.running = true ∧ s.broker.closed = false ∧
      s.broker.waiting = [b] ∧ b.rank = 4 ∧ s.bank.overSince = none ∧ s.broker.outstanding + b.value ≤ s.broker.budget - s.cfg .batonCfg 0 15 0) :=
  ⟨⟨.erase 3 1, wk, Or.inr fun _ h => HeavyOp.noConfusion h, by decide +kernel⟩,
   ⟨.erase 3 1, wk.onBroker fun b => { b with out := [⟨.erase 3 1, 10, none, 4, 0, 0⟩] }, by decide +kernel⟩,
   ⟨1, { wk with variant := 2 }, by decide +kernel⟩,
   ⟨.erase 3 1, wk, by decide +kernel⟩,
   ⟨.erase 3 1, State.reset, by decide +kernel⟩,
   ⟨wk, by decide +kernel⟩,
   ⟨wk.onBroker fun b => { b with closed := true }, by decide +kernel⟩,
   ⟨⟨.erase 3 1, 10, none, 4, 0, 0⟩, wk.onBroker fun b => { b with closed := false, budget := 5000, waiting := [⟨.erase 3 1, 10, none, 4, 0, 0⟩] },
     fun _ h => HeavyOp.noConfusion h, fun _ h => HeavyOp.noConfusion h, by decide +kernel⟩⟩

/-- States and operands that meet the hypotheses of `BatonsAreAskedGrantedReturned`, clause by clause. -/
theorem witness_BatonsAreAskedGrantedReturned_2 :
    (∃ (b : Baton) (s : State), s.running = true ∧ s.broker.closed = false ∧ s.broker.waiting = [b] ∧ b.rank = 4 ∧ s.bank.overSince = none ∧
      s.broker.budget - s.cfg .batonCfg 0 15 0 < s.broker.outstanding + b.value) ∧
    (∃ (b : Baton) (c : Nat) (e : Nat) (s : State), s.running = true ∧ s.broker.closed = false ∧
      s.broker.waiting.find? (fun x => x.rank == 1) = some b ∧ b.op = .softDecode c e ∧ s.broker.outstanding + b.value ≤ s.broker.budget) :=
  ⟨⟨⟨.erase 3 1, 10, none, 4, 0, 0⟩, wk.onBroker fun b => { b with closed := false, budget := 5, waiting := [⟨.erase 3 1, 10, none, 4, 0, 0⟩] },
    by decide +kernel⟩,
   ⟨⟨.softDecode 3 1, 10, none, 1, 0, 0⟩, 3, 1,
     wk.onBroker fun b => { b with closed := false, budget := 5000, waiting := [⟨.softDecode 3 1, 10, none, 1, 0, 0⟩] }, by decide +kernel⟩⟩

/-- States and operands that meet the hypotheses of `FlitsAcceptedOrNaked`, clause by clause. -/
theorem witness_FlitsAcceptedOrNaked_1 :
    (∃ (n : Nat) (f : Flit) (s : State), (s.lane n).carries = true ∧ f.crcOk = false ∧ countBits (f.headers (s.lane n).badSync) 64 < 16 ∧
      (s.lane n).nakSent = false) ∧
    (∃ (n : Nat) (f : Flit) (s : State), (s.lane n).carries = true ∧ f.crcOk = false ∧ countBits (f.headers (s.lane n).badSync) 64 < 16 ∧
      (s.lane n).nakSent = true) ∧
    (∃ (n : Nat) (f : Flit) (s : State), (s.lane n).carries = true ∧ f.crcOk = false ∧ 16 ≤ countBits (f.headers (s.lane n).badSync) 64) ∧
    (∃ (n : Nat) (f : Flit) (s : State), (s.lane n).carries = true ∧ f.crcOk = true ∧ (f.type = 1 ∨ f.type = 3) ∧ f.seq ≠ (s.lane n).rxSeq ∧
      (s.lane n).nakSent = true) ∧
    (∃ (n : Nat) (f : Flit) (s : State), (s.lane n).carries = true ∧ f.crcOk = true ∧ (f.type = 1 ∨ f.type = 3) ∧ f.seq ≠ (s.lane n).rxSeq ∧
      (s.lane n).nakSent = false) ∧
    (∃ (n : Nat) (f : Flit) (s : State), (s.lane n).carries = true ∧ f.crcOk = true ∧ f.type = 1 ∧ f.seq = (s.lane n).rxSeq ∧ (∀ o ∈ f.msgs,
      0x81 ≤ o ∧ o ≤ 0x84) ∧ f.nak = false ∧ f.crdClass = 3 ∧ (s.lane n).outbox = []) ∧
    (∃ (n : Nat) (f : Flit) (s : State), (s.lane n).carries = true ∧ f.crcOk = true ∧ f.type = 3 ∧ f.seq = (s.lane n).rxSeq ∧ f.nak = false ∧
      f.crdClass = 3 ∧ (s.lane n).outbox = []) ∧
    (∃ (n : Nat) (f : Flit) (s : State), (s.lane n).carries = true ∧ f.crcOk = true ∧ f.type = 0 ∧ f.nak = false ∧ f.crdClass = 3 ∧
      (s.lane n).outbox = []) :=
  ⟨⟨3, fB, wl la, by decide +kernel⟩,
   ⟨3, fB, wl { la with nakSent := true }, by decide +kernel⟩,
   ⟨3, fE, wl { la with badSync := 0xFFFF }, by decide +kernel⟩,
   ⟨3, fM9, wl { la with nakSent := true }, by decide +kernel⟩,
   ⟨3, fM9, wl la, by decide +kernel⟩,
   ⟨3, fM, wl la, by decide +kernel⟩,
   ⟨3, fR, wl la, by decide +kernel⟩,
   ⟨3, fN, wl { la with retry := [ua 1 0] }, by decide +kernel⟩⟩

/-- States and operands that meet the hypotheses of `FlitsAcceptedOrNaked`, clause by clause. -/
theorem witness_FlitsAcceptedOrNaked_2 :
    (∃ (n : Nat) (f : Flit) (s : State), (s.lane n).carries = true ∧ f.crcOk = true ∧ f.type = 0 ∧ f.nak = false ∧ (s.lane n).outbox = [] ∧
      f.crdClass = 0 ∧ (s.lane n).crdMsg + f.crdCount ≤ (s.lane n).allotMsg) ∧
    (∃ (n : Nat) (f : Flit) (s : State), (s.lane n).carries = true ∧ f.crcOk = true ∧ f.type = 0 ∧ f.nak = false ∧ (s.lane n).outbox = [] ∧
      f.crdClass = 1 ∧ (s.lane n).crdWdata + f.crdCount ≤ (s.lane n).allotWdata) ∧
    (∃ (n : Nat) (f : Flit) (s : State), (s.lane n).carries = true ∧ f.crcOk = true ∧ f.type = 0 ∧ (s.lane n).advertised = true ∧ (f.crdClass = 0 ∧
      (s.lane n).allotMsg < (s.lane n).crdMsg + f.crdCount ∨ f.crdClass = 1 ∧ (s.lane n).allotWdata < (s.lane n).crdWdata + f.crdCount)) ∧
    (∃ (n : Nat) (f : Flit) (s : State), (s.lane n).carries = true ∧ f.crcOk = true ∧ f.type = 0 ∧ f.nak = true ∧ f.ackValid = true ∧
      f.crdClass = 3 ∧ (s.lane n).outbox = [] ∧ (∀ u ∈ ackRetry (s.lane n).retry f.ackSeq, u.replays < 3)) ∧
    (∃ (n : Nat) (f : Flit) (s : State), (s.lane n).carries = true ∧ f.crcOk = true ∧ f.type ≠ 0 ∧ f.type ≠ 1 ∧ f.type ≠ 3) ∧
    (∃ (n : Nat) (f : Flit) (s : State), (s.lane n).carries = true ∧ f.crcOk = true ∧ f.type = 1 ∧ f.seq = (s.lane n).rxSeq ∧ (∃ o ∈ f.msgs,
      o < 0x81 ∨ 0x84 < o)) ∧
    (∃ (n : Nat) (f : Flit) (s : State), (s.lane n).carries = false) :=
  ⟨⟨3, fC0, wl la, by decide +kernel⟩,
   ⟨3, fC1, wl { la with crdWdata := 137 }, by decide +kernel⟩,
   ⟨3, fC0, wl { la with crdMsg := 14 }, by decide +kernel⟩,
   ⟨3, fK, wl { la with retry := [ua 1 0, ua 2 2] }, by decide +kernel⟩,
   ⟨3, f2, wl la, by decide +kernel⟩,
   ⟨3, fX, wl la, by decide +kernel⟩,
   ⟨3, fN, wl {}, by decide +kernel⟩⟩

/-- States and operands that meet the hypotheses of `LaneRecoveryAndStall`, clause by clause. -/
theorem witness_LaneRecoveryAndStall_1 :
    (∃ (n : Nat) (s : State), (s.lane n).st = .active ∧ (∀ u ∈ (s.lane n).retry, u.replays < 3)) ∧
    (∃ (n : Nat) (s : State), (∀ a, (s.lane n).recoveredAt = some a → a + 1000000 < s.now) ∧ (s.lane n).st = .active ∧ (∃ u ∈ (s.lane n).retry,
      3 ≤ u.replays)) ∧
    (∃ (n : Nat) (a : Nat) (s : State), (s.lane n).st = .active ∧ (∃ u ∈ (s.lane n).retry, 3 ≤ u.replays) ∧ (s.lane n).recoveredAt = some a ∧
      s.now ≤ a + 1000000) ∧
    (∃ (n : Nat) (s : State), (s.lane n).st = .active) ∧
    (∃ (n : Nat) (b : BitVec 64) (s : State), (s.lane n).st = .active ∧ (s.lane n).resuming = false ∧ wireByte b 0 = 0x78 ∧ tsSound b = true ∧
      wireByte b 1 = 1) ∧
    (∃ (n : Nat) (b : BitVec 64) (s : State), (s.lane n).st = .active ∧ (s.lane n).resuming = true ∧ wireByte b 0 = 0x78 ∧ tsSound b = true ∧
      wireByte b 1 = 4) ∧
    (∃ (n : Nat) (b : BitVec 64) (s : State), (s.lane n).st = .active ∧ (s.lane n).resuming = false ∧ controlKnown b = false) ∧
    (∃ (n : Nat) (b : BitVec 64) (s : State), (s.lane n).st = .active ∧ (s.lane n).resuming = false ∧ controlKnown b = true ∧
      (wireByte b 0 ≠ 0x78 ∨ tsSound b = false ∨ wireByte b 1 ≠ 1)) :=
  ⟨⟨3, wl { la with retry := [ua 1 0, ua 2 2] }, by decide +kernel⟩,
   ⟨3, wl { la with retry := [ua 1 3, ua 2 2] }, none_of rfl, by decide +kernel⟩,
   ⟨3, 5000000000, wl { la with retry := [ua 1 3, ua 2 2], recoveredAt := some 5000000000 }, by decide +kernel⟩,
   ⟨3, wl { st := .active }, by decide +kernel⟩,
   ⟨3, tsBlock 1 none 0 0 3, wl la, by decide +kernel⟩,
   ⟨3, tsBlock 4 none 0 0 3, wl { la with resuming := true, retry := [ua 1 0], rxSeq := 5 }, by decide +kernel⟩,
   ⟨3, 0x11, wl la, by decide +kernel⟩,
   ⟨3, 0x1E, wl la, by decide +kernel⟩⟩

/-- States and operands that meet the hypotheses of `LaneRecoveryAndStall`, clause by clause. -/
theorem witness_LaneRecoveryAndStall_2 :
    (∃ (n : Nat) (b : BitVec 64) (s : State), (s.lane n).resuming = true ∧ (wireByte b 0 ≠ 0x78 ∨ tsSound b = false ∨ wireByte b 1 ≠ 4)) ∧
    (∃ (n : Nat) (b : BitVec 64) (s : State), (s.lane n).st ≠ .active) ∧
    (∃ (n : Nat) (s : State), (s.lane n).st = .recovery ∧ (s.lane n).resuming = false ∧ (s.lane n).outbox = []) ∧
    (∃ (n : Nat) (s : State), (s.lane n).st = .recovery ∧ (s.lane n).resuming = true) ∧
    (∃ (n : Nat) (s : State), (s.lane n).st = .recovery) ∧
    (∃ (n : Nat) (ok : Bool) (s : State), (s.lane n).st ≠ .recovery) ∧
    (∃ (n : Nat) (c : Nat) (s : State), (s.lane n).st = .active ∧ (s.lane n).waitsFor c = true) ∧
    (∃ (n : Nat) (c : Nat) (s : State), ((s.lane n).st ≠ .active ∨ (s.lane n).waitsFor c = false)) :=
  ⟨⟨3, 0x1E, wl { la with resuming := true }, by decide +kernel⟩,
   ⟨3, tsBlock 1 none 0 0 3, wl {}, by decide +kernel⟩,
   ⟨3, wl { la with st := .recovery, retry := [ua 1 0] }, by decide +kernel⟩,
   ⟨3, wl { la with st := .recovery, resuming := true }, by decide +kernel⟩,
   ⟨3, wl { la with st := .recovery }, by decide +kernel⟩,
   ⟨3, true, wl la, by decide +kernel⟩,
   ⟨3, 0, wl { la with outbox := [.msgs [.sync 240]], crdMsg := 0 }, by decide +kernel⟩,
   ⟨3, 0, wl la, by decide +kernel⟩⟩

/-- States and operands that meet the hypotheses of `LaneTrainingAndRecalibration`, clause by clause. -/
theorem witness_LaneTrainingAndRecalibration_1 :
    (∃ (n : Nat) (r : TrainResult) (s : State), (s.lane n).outage = some .full ∧ (s.lane n).st ≠ .held ∧ r.wrongMajor = false ∧ r.ok = true) ∧
    (∃ (n : Nat) (r : TrainResult) (s : State), (s.lane n).outage = some .full ∧ (s.lane n).st ≠ .held ∧ r.wrongMajor = true) ∧
    (∃ (n : Nat) (r : TrainResult) (s : State), (s.lane n).outage = some .full ∧ (s.lane n).st ≠ .held ∧ r.wrongMajor = false ∧ r.ok = false ∧
      (s.lane n).attemptsLeft ≠ 0) ∧
    (∃ (n : Nat) (r : TrainResult) (s : State), (s.lane n).outage = some .full ∧ (s.lane n).st ≠ .held ∧ r.wrongMajor = false ∧ r.ok = false ∧
      (s.lane n).attemptsLeft = 0) ∧
    (∃ (n : Nat) (r : TrainResult) (s : State), ((s.lane n).outage ≠ some .full ∨ (s.lane n).st = .held)) ∧
    (∃ (n : Nat) (r : TrainResult) (s : State), (s.lane n).outage = some .recal ∧ (s.lane n).st ≠ .held ∧ r.wrongMajor = false ∧ r.ok = true) ∧
    (∃ (n : Nat) (r : TrainResult) (s : State), (s.lane n).outage = some .wake ∧ (s.lane n).st ≠ .held ∧ r.wrongMajor = false ∧ r.ok = true) ∧
    (∃ (n : Nat) (r : TrainResult) (s : State), ((s.lane n).outage = some .recal ∨ (s.lane n).outage = some .wake) ∧ (s.lane n).st ≠ .held ∧
      r.wrongMajor = true) :=
  ⟨⟨3, ⟨true, true, true, 0x10, [(90, 90)], 0, 0, 500⟩, wl { la with st := .confirm, outage := some .full }, by decide +kernel⟩,
   ⟨3, ⟨true, true, true, 0x20, [(90, 90)], 0, 0, 500⟩, wl { la with st := .exchange, outage := some .full }, by decide +kernel⟩,
   ⟨3, ⟨true, true, true, 0x10, [(90, 90)], 1, 0, 500⟩, wl { la with st := .confirm, outage := some .full, attemptsLeft := 1 }, by decide +kernel⟩,
   ⟨3, ⟨true, true, true, 0x10, [(90, 90)], 1, 0, 500⟩, wl { la with st := .confirm, outage := some .full }, by decide +kernel⟩,
   ⟨3, ⟨true, true, true, 0x10, [(90, 90)], 0, 0, 500⟩, wl { la with st := .held, outage := some .full }, by decide +kernel⟩,
   ⟨3, ⟨true, true, true, 0x10, [(90, 90)], 0, 0, 500⟩, wl { la with st := .lock, outage := some .recal, eqBand := some 1 }, by decide +kernel⟩,
   ⟨3, ⟨true, true, true, 0x10, [(90, 90)], 0, 0, 500⟩, wl { la with st := .lock, outage := some .wake, near := 3 }, by decide +kernel⟩,
   ⟨3, ⟨true, true, true, 0x20, [(90, 90)], 0, 0, 500⟩, wl { la with st := .lock, outage := some .wake }, by decide +kernel⟩⟩

/-- States and operands that meet the hypotheses of `LaneTrainingAndRecalibration`, clause by clause. -/
theorem witness_LaneTrainingAndRecalibration_2 :
    (∃ (n : Nat) (r : TrainResult) (s : State), ((s.lane n).outage = some .recal ∨ (s.lane n).outage = some .wake) ∧ (s.lane n).st ≠ .held ∧
      r.wrongMajor = false ∧ r.ok = false) ∧
    (∃ (n : Nat) (r : TrainResult) (s : State), ((s.lane n).st = .held ∨ ((s.lane n).outage ≠ some .recal ∧ (s.lane n).outage ≠ some .wake))) ∧
    (∃ (n : Nat) (s : State), (s.lane n).st = .active) ∧
    (∃ (n : Nat) (s : State), (s.lane n).st = .active ∧ s.cfg .laneLinkCfg 0 31 16 ≠ 0) ∧
    (∃ (n : Nat) (s : State), (s.lane n).st ≠ .active) ∧
    (∃ (n : Nat) (s : State), s.cfg .laneLinkCfg 0 31 16 = 0) :=
  ⟨⟨3, ⟨true, true, true, 0x10, [(90, 90)], 1, 0, 500⟩, wl { la with st := .lock, outage := some .recal }, by decide +kernel⟩,
   ⟨3, ⟨true, true, true, 0x10, [(90, 90)], 0, 0, 500⟩, wl { la with st := .lock, outage := some .full }, by decide +kernel⟩,
   ⟨3, wl { st := .active }, by decide +kernel⟩,
   ⟨3, wl { st := .active }, by decide +kernel⟩,
   ⟨3, wk, by decide +kernel⟩,
   ⟨3, wk.setCfgAt (Reg.offset .laneLinkCfg 0) 0, by decide +kernel⟩⟩

/-- States and operands that meet the hypotheses of `BridgeConfigurationAlertsParking`, clause by clause. -/
theorem witness_BridgeConfigurationAlertsParking_1 :
    (∃ (n : Nat) (tag : Nat) (die : Nat) (x : Nat) (a : Nat) (c : Nat) (d0 : BitVec 32) (d1 : BitVec 32) (s : State), (s.lane n).st = .active ∧
      Tbl.look none (s.lane n).ctl tag = some (.read 0 2) ∧ x ≠ tag ∧ Tbl.look none (s.lane n).ctl x = some (.read a c)) ∧
    (∃ (n : Nat) (tag : Nat) (die : Nat) (x : Nat) (a : Nat) (c : Nat) (d0 : BitVec 32) (d1 : BitVec 32) (s : State), (s.lane n).st = .active ∧
      Tbl.look none (s.lane n).ctl tag = some (.read 2 2) ∧ x ≠ tag ∧ Tbl.look none (s.lane n).ctl x = some (.read a c)) ∧
    (∃ (n : Nat) (tag : Nat) (die : Nat) (x : Nat) (a : Nat) (c : Nat) (d : Nat) (d0 : BitVec 32) (d1 : BitVec 32) (s : State),
      (s.lane n).st = .active ∧ d < 8 ∧ Tbl.look none (s.lane n).ctl tag = some (.read (0x40 + 8 * d) 2) ∧ x ≠ tag ∧
      Tbl.look none (s.lane n).ctl x = some (.read a c)) ∧
    (∃ (n : Nat) (tag : Nat) (die : Nat) (x : Nat) (a : Nat) (c : Nat) (d : Nat) (d0 : BitVec 32) (d1 : BitVec 32) (s : State),
      (s.lane n).st = .active ∧ d < 8 ∧ Tbl.look none (s.lane n).ctl tag = some (.read (0x42 + 8 * d) 1) ∧ x ≠ tag ∧
      Tbl.look none (s.lane n).ctl x = some (.read a c)) ∧
    (∃ (n : Nat) (tag : Nat) (die : Nat) (d : Nat) (d0 : BitVec 32) (d1 : BitVec 32) (s : State), (s.lane n).st = .active ∧ d < 8 ∧
      (s.lane n).setUp = false ∧ (s.lane n).ctl = [(tag, some (.read (0x42 + 8 * d) 1))] ∧ (s.lane n).ctlWait = [] ∧
      (s.lane n).brokenContract = none) ∧
    (∃ (n : Nat) (tag : Nat) (die : Nat) (d : Nat) (e : Nat) (d0 : BitVec 32) (d1 : BitVec 32) (s : State), (s.lane n).st = .active ∧ d < 8 ∧
      (s.lane n).setUp = false ∧ (s.lane n).ctl = [(tag, some (.read (0x42 + 8 * d) 1))] ∧ (s.lane n).ctlWait = [] ∧
      (s.lane n).brokenContract = some e) ∧
    (∃ (n : Nat) (tag : Nat) (die : Nat) (a : Nat) (c : Nat) (d0 : BitVec 32) (d1 : BitVec 32) (s : State), (s.lane n).st = .active ∧
      Tbl.look none (s.lane n).ctl tag = some (.read a c)) ∧
    (∃ (n : Nat) (tag : Nat) (die : Nat) (bad : Bool) (d0 : BitVec 32) (d1 : BitVec 32) (s : State), ((s.lane n).st ≠ .active ∨ ∀ a c,
      Tbl.look none (s.lane n).ctl tag ≠ some (.read a c))) :=
  ⟨⟨3, 240, 6, 241, 2, 2, 0x54425201, 0x01000000, wl { la with ctl := [(240, some (.read 0 2)), (241, some (.read 2 2))], ctlWait := [.write 8 1] },
    by decide +kernel⟩,
   ⟨3, 240, 6, 241, 2, 2, 0x010F04B0, 0x00901010, wl { la with ctl := [(240, some (.read 2 2)), (241, some (.read 2 2))], ctlWait := [.write 8 1] },
     by decide +kernel⟩,
   ⟨3, 240, 6, 241, 2, 2, 1, 0x98, 0x1234, wl { la with ctl := [(240, some (.read 0x48 2)), (241, some (.read 2 2))], ctlWait := [.write 8 1] },
     by decide +kernel⟩,
   ⟨3, 240, 6, 241, 2, 2, 1, 0x98, 0, wl { la with ctl := [(240, some (.read 0x4A 1)), (241, some (.read 2 2))], ctlWait := [.write 8 1] },
     by decide +kernel⟩,
   ⟨3, 240, 6, 0, 1, 0,
     wl { la with setUp := false, ctl := [(240, some (.read 0x42 1))], brVer := 0x01000000, brCaps := 0x010104B0, dies := 1, far := 2 },
     by decide +kernel⟩,
   ⟨3, 240, 6, 0, 0x0302, 1, 0,
     wl { la with setUp := false, ctl := [(240, some (.read 0x42 1))], brVer := 0x01000000, brCaps := 0x01010000, dies := 1, far := 2 },
     by decide +kernel⟩,
   ⟨3, 240, 6, 0x42, 1, 1, 0, wl { la with setUp := false, ctl := [(240, some (.read 0x42 1))] }, by decide +kernel⟩,
   ⟨3, 240, 6, false, 0, 0, wl {}, by exact Or.inl (by decide +kernel)⟩⟩

/-- States and operands that meet the hypotheses of `BridgeConfigurationAlertsParking`, clause by clause. -/
theorem witness_BridgeConfigurationAlertsParking_2 :
    (∃ (n : Nat) (d : Nat) (c : Nat) (x : Nat) (s : State), (s.lane n).st = .active ∧ (c ≠ 3 ∨ (s.die (dieKey n d)).st ≠ .stalled)) ∧
    (∃ (n : Nat) (d : Nat) (x : Nat) (s : State), (s.lane n).st = .active ∧ (s.die (dieKey n d)).st = .stalled) ∧
    (∃ (n : Nat) (d : Nat) (c : Nat) (x : Nat) (s : State), (s.lane n).st ≠ .active) ∧
    (∃ (n : Nat) (s : State), (s.lane n).st = .active ∧ s.laneOps n = [] ∧ (s.lane n).outbox = [] ∧ (s.lane n).parking = none ∧
      (s.lane n).resuming = false ∧ 0 < (s.lane n).crdMsg ∧ (s.lane n).retry.length < 128) ∧
    (∃ (n : Nat) (s : State), (s.lane n).st = .active ∧ s.laneOps n = [] ∧ (s.lane n).outbox = [] ∧ (s.lane n).parking = none ∧
      (s.lane n).crdMsg = 0) ∧
    (∃ (n : Nat) (s : State), s.populated n = false ∧ (s.lane n).st ≠ .active ∧ (s.lane n).st ≠ .failed ∧ (s.lane n).st ≠ .held ∧
      (s.lane n).st ≠ .parked) ∧
    (∃ (n : Nat) (s : State), ((s.lane n).st = .parked ∨ (s.lane n).st = .failed ∨ (s.lane n).st = .held ∨ ((s.lane n).st ≠ .active ∧
      s.populated n = true) ∨ ((s.lane n).st = .active ∧ (s.laneOps n ≠ [] ∨ (s.lane n).parking ≠ none)))) :=
  ⟨⟨3, 1, 2, 7, wl la, by decide +kernel⟩,
   ⟨3, 1, 7, { wl la with dies := [(25, { st := .stalled })] }, by decide +kernel⟩,
   ⟨3, 1, 3, 9, wk, by decide +kernel⟩,
   ⟨3, wl la, by decide +kernel⟩,
   ⟨3, wl { la with crdMsg := 0 }, by decide +kernel⟩,
   ⟨3, wl { la with st := .down }, by decide +kernel⟩,
   ⟨3, wl {}, by decide +kernel⟩⟩

/-- States and operands that meet the hypotheses of `IdleDieStartsItsRead`, clause by clause. -/
theorem witness_IdleDieStartsItsRead_1 :
    (∃ (n : Nat) (d : Nat) (tag : Nat) (e : QEntry) (s : State), d < 8 ∧ s.pacerUp n = true ∧ s.power.landing = none ∧ s.quietDies = false ∧
      (s.blk (blockOfLane n)).marshalOut = false ∧ (s.offerWork (dieKey n d)).freeTag n = some tag ∧
      ((s.offerWork (dieKey n d)).die (dieKey n d)).st = .idle ∧ (s.offerWork (dieKey n d)).selectEntry (dieKey n d) false = some e ∧
      e.kind.isRead = true ∧ ((s.offerWork (dieKey n d)).blk (blockOfLane n)).marshalOut = false) ∧
    (∃ (n : Nat) (d : Nat) (tag : Nat) (e : QEntry) (p : Nat × Nat × Nat) (s : State), d < 8 ∧ s.pacerUp n = true ∧ s.power.landing = none ∧
      s.quietDies = false ∧ (s.blk (blockOfLane n)).marshalOut = false ∧ s.offerWork (dieKey n d) = s ∧ s.freeTag n = some tag ∧
      (s.die (dieKey n d)).st = .idle ∧ s.selectEntry (dieKey n d) false = some e ∧ e.kind.isRead = true ∧ e.cls = .dash ∧ e.retry = 0 ∧
      e.spans = [p] ∧ (s.lane n).outbox = [] ∧ (s.lane n).resuming = false ∧ 0 < (s.lane n).crdMsg ∧ (s.lane n).retry.length < 128) ∧
    (∃ (n : Nat) (d : Nat) (tag : Nat) (e : QEntry) (s : State), d < 8 ∧ s.pacerUp n = true ∧ s.power.landing = none ∧ s.quietDies = false ∧
      (s.blk (blockOfLane n)).marshalOut = false ∧ (s.offerWork (dieKey n d)).freeTag n = some tag ∧
      ((s.offerWork (dieKey n d)).die (dieKey n d)).st = .idle ∧ (s.offerWork (dieKey n d)).selectEntry (dieKey n d) false = some e ∧
      e.kind.isRead = false ∧ ((s.offerWork (dieKey n d)).blk (blockOfLane n)).marshalOut = false) ∧
    (∃ (n : Nat) (d : Nat) (tag : Nat) (b : Nat) (s : State), d < 8 ∧ s.pacerUp n = true ∧ s.power.landing = none ∧ s.quietDies = false ∧
      (s.blk (blockOfLane n)).marshalOut = false ∧ s.offerWork (dieKey n d) = s ∧ s.freeTag n = some tag ∧ (s.die (dieKey n d)).st = .idle ∧
      s.selectEntry (dieKey n d) false = none ∧ (s.die (dieKey n d)).prefixBand = some b) ∧
    (∃ (n : Nat) (d : Nat) (s : State), d < 8 ∧ s.pacerUp n = true ∧ s.power.landing = none ∧ s.quietDies = false ∧
      (((s.offerWork (dieKey n d)).die (dieKey n d)).st = .idle → ((s.offerWork (dieKey n d)).blk (blockOfLane n)).marshalOut = true ∨ ((s.offerWork (dieKey n d)).selectEntry (dieKey n d) false = none ∧ ((s.offerWork (dieKey n d)).die (dieKey n d)).prefixBand = none)) ∧ ((s.offerWork (dieKey n d)).freeTag n = none ∨ ((s.offerWork (dieKey n d)).die (dieKey n d)).st ∉ [DieSt.progSusp, .eraseSusp, .prog, .erase])) ∧
    (∃ (n : Nat) (d : Nat) (tag : Nat) (e : QEntry) (s : State), d < 8 ∧ s.pacerUp n = true ∧ s.power.landing = none ∧ s.quietDies = false ∧
      s.offerWork (dieKey n d) = s ∧ s.freeTag n = some tag ∧ ((s.die (dieKey n d)).st = .progSusp ∨ (s.die (dieKey n d)).st = .eraseSusp) ∧
      (s.die (dieKey n d)).reading = none ∧ (s.die (dieKey n d)).resuming = false ∧ (s.die (dieKey n d)).readsServed < s.suspReads ∧
      s.selectEntry (dieKey n d) true = some e) ∧
    (∃ (n : Nat) (d : Nat) (tag : Nat) (h : Nat) (s : State), d < 8 ∧ s.pacerUp n = true ∧ s.power.landing = none ∧ s.quietDies = false ∧
      s.offerWork (dieKey n d) = s ∧ s.freeTag n = some tag ∧ ((s.die (dieKey n d)).st = .progSusp ∨ (s.die (dieKey n d)).st = .eraseSusp) ∧
      (s.die (dieKey n d)).reading = none ∧ (s.die (dieKey n d)).resuming = false ∧ (s.die (dieKey n d)).heavy = some h ∧
      (s.suspReads ≤ (s.die (dieKey n d)).readsServed ∨ s.selectEntry (dieKey n d) true = none)) ∧
    (∃ (n : Nat) (d : Nat) (s : State), d < 8 ∧ s.pacerUp n = true ∧ s.power.landing = none ∧ s.quietDies = false ∧ s.offerWork (dieKey n d) = s ∧
      ((s.die (dieKey n d)).st = .progSusp ∨ (s.die (dieKey n d)).st = .eraseSusp) ∧
      ((s.die (dieKey n d)).reading ≠ none ∨ (s.die (dieKey n d)).resuming = true)) :=
  ⟨⟨3, 0, 0, qe .read, dv { st := .idle, queue := [qe .read] }, by decide +kernel⟩,
   ⟨3, 0, 0, { qe .read with cls := .dash }, (0, 0, 1), dv { st := .idle, queue := [{ qe .read with cls := .dash }] }, by decide +kernel⟩,
   ⟨3, 0, 0, { qe .erase with baton := true }, dv { st := .idle, queue := [{ qe .erase with baton := true }] }, by decide +kernel⟩,
   ⟨3, 0, 0, 1, dv { st := .idle, prefixBand := some 1 }, by decide +kernel⟩,
   ⟨3, 0, dv { st := .idle }, by decide +kernel⟩,
   ⟨3, 0, 1, { qe .read with cls := .dash },
     dop { st := .progSusp, heavy := some 0, queue := [{ qe .read with cls := .dash }] } { opOf (qe .coarse) with suspended := true },
     by decide +kernel⟩,
   ⟨3, 0, 1, 0, dop { st := .progSusp, heavy := some 0 } { opOf (qe .coarse) with suspended := true }, by decide +kernel⟩,
   ⟨3, 0, dop { st := .progSusp, heavy := some 0, resuming := true } { opOf (qe .coarse) with suspended := true }, by decide +kernel⟩⟩

/-- States and operands that meet the hypotheses of `IdleDieStartsItsRead`, clause by clause. -/
theorem witness_IdleDieStartsItsRead_2 :
    (∃ (n : Nat) (d : Nat) (tag : Nat) (h : Nat) (e : QEntry) (s : State), d < 8 ∧ s.pacerUp n = true ∧ s.power.landing = none ∧
      s.quietDies = false ∧ s.offerWork (dieKey n d) = s ∧ s.freeTag n = some tag ∧
      ((s.die (dieKey n d)).st = .prog ∨ (s.die (dieKey n d)).st = .erase) ∧
      ((s.die (dieKey n d)).queue.find? (fun x => x.kind.isRead && x.cls == .dash) = some e ∨ ((s.die (dieKey n d)).queue.find? (fun x => x.kind.isRead && x.cls == .dash) = none ∧ (s.die (dieKey n d)).queue.find? (fun x => x.kind.isRead && x.cls == .tempo) = some e)) ∧ (s.die (dieKey n d)).heavy = some h ∧ (s.die (dieKey n d)).suspendAt = none ∧ (s.die (dieKey n d)).reading = none ∧ (s.die (dieKey n d)).resuming = false ∧ s.suspensionsLeft (dieKey n d) = true) ∧
    (∃ (n : Nat) (d : Nat) (s : State), d < 8 ∧ s.pacerUp n = true ∧ s.power.landing = none ∧ s.quietDies = false ∧ s.offerWork (dieKey n d) = s ∧
      ((s.die (dieKey n d)).st = .prog ∨ (s.die (dieKey n d)).st = .erase) ∧ ((∀ e ∈ (s.die (dieKey n d)).queue,
      e.kind.isRead = true → e.cls ≠ .dash ∧
      e.cls ≠ .tempo) ∨ (s.die (dieKey n d)).suspendAt ≠ none ∨ (s.die (dieKey n d)).reading ≠ none ∨ (s.die (dieKey n d)).resuming = true ∨ s.suspensionsLeft (dieKey n d) = false)) ∧
    (∃ (n : Nat) (d : Nat) (tag : Nat) (zk : Nat) (pos : Nat) (src : Nat) (tgt : Nat) (c : Nat) (s : State), d < 8 ∧ s.pacerUp n = true ∧
      s.power.landing = none ∧ s.quietDies = false ∧ s.freeTag n = some tag ∧ (s.die (dieKey n d)).st = .idle ∧
      (s.blk (blockOfLane n)).marshalOut = false ∧ s.offerPasses (dieKey n d) = s ∧ (s.die (dieKey n d)).reloc = some (zk, pos, src, tgt, c) ∧
      s.refillsOn (dieKey n d) = [] ∧ (∀ p ∈ s.nss, p.2.victim = none) ∧ (∀ p ∈ s.sets, ∀ r, p.2.rebuild = some r → r.2.1 ≠ dieKey n d) ∧
      (s.die (dieKey n d)).queue = [] ∧ (s.die (dieKey n d)).copyPages < 4 * Tbl.look 0 (s.zone zk).fine pos ∧
      (s.die (dieKey n d)).copyPages / 4 ≤ (s.die (dieKey n d)).copyCoarse ∧
      s.copyUsed (blockOfLane (dieKey n d / 8)) = (s.die (dieKey n d)).copyHeld ∧ s.copyPending (dieKey n d) zk pos = false ∧
      s.nextCopyPass (dieKey n d) zk pos = none) ∧
    (∃ (n : Nat) (d : Nat) (s : State), s.pacerUp n = false ∧ (s.die (dieKey n d)).queue = []) ∧
    (∃ (n : Nat) (d : Nat) (s : State), s.pacerUp n = false ∧ (s.die (dieKey n d)).queue ≠ [] ∧ (s.lane n).st = .parked ∧ (s.lane n).setUp = true ∧
      (s.lane n).parkedFor = 4 ∧ (s.lane n).wakeWait = false ∧ s.populated n = true ∧ s.aon.trip = false) ∧
    (∃ (n : Nat) (d : Nat) (s : State), s.pacerUp n = false ∧
      ((s.lane n).st ≠ .parked ∨ (s.lane n).setUp = false ∨ (s.lane n).parkedFor ≠ 4 ∨ (s.lane n).wakeWait = true ∨ s.populated n = false ∨ s.aon.trip = true)) ∧
    (∃ (n : Nat) (d : Nat) (tag : Nat) (l : Landing) (e : QEntry) (s : State), d < 8 ∧ s.pacerUp n = true ∧ s.power.landing = some l ∧
      ((s.settleDie (dieKey n d)).assignLanding.freeTag n = some tag) ∧ ((s.settleDie (dieKey n d)).assignLanding.die (dieKey n d)).st = .landing ∧
      ((s.settleDie (dieKey n d)).assignLanding.die (dieKey n d)).heavy = none ∧
      ((s.settleDie (dieKey n d)).assignLanding.die (dieKey n d)).queue.find? (fun x => x.kind == .slc || x.kind == .checkpoint) = some e) ∧
    (∃ (n : Nat) (d : Nat) (l : Landing) (s : State), d < 8 ∧ s.pacerUp n = true ∧ s.power.landing = some l ∧
      ((s.settleDie (dieKey n d)).assignLanding.die (dieKey n d)).st ≠ .progSusp ∧
      (((s.settleDie (dieKey n d)).assignLanding.die (dieKey n d)).st = .landing → (s.settleDie (dieKey n d)).assignLanding.freeTag n = none ∨ ((s.settleDie (dieKey n d)).assignLanding.die (dieKey n d)).heavy ≠ none ∨ ((s.settleDie (dieKey n d)).assignLanding.die (dieKey n d)).queue.find? (fun x => x.kind == .slc || x.kind == .checkpoint) = none)) :=
  ⟨⟨3, 0, 1, 0, { qe .read with cls := .dash }, dop { st := .prog, heavy := some 0, queue := [{ qe .read with cls := .dash }] } (opOf (qe .coarse)),
    by decide +kernel⟩,
   ⟨3, 0, dop { st := .prog, heavy := some 0, queue := [qe .read] } (opOf (qe .coarse)), by decide +kernel⟩,
   ⟨3, 0, 0, zk0 1, 0, 0, 5, 2, withZ (dv { st := .idle, reloc := some (zk0 1, 0, 0, 5, 2) }) { openZ with fine := [(0, 1)], coarse := [(0, 2)] },
     by decide +kernel⟩,
   ⟨3, 0, wl {}, by decide +kernel⟩,
   ⟨3, 0,
     { (wl { st := .parked, setUp := true, parkedFor := 4 }).setCfgAt (Reg.offset .lanePop 0) 0xFFFF with dies := [(24, { st := .idle, queue := [qe .read] })] }, by decide +kernel⟩,
   ⟨3, 0, wl {}, by decide +kernel⟩,
   ⟨3, 0, 0, ld .homestretch [lu], qe .checkpoint, withL (dv { st := .landing, queue := [qe .checkpoint] }) (ld .homestretch [lu]),
     by decide +kernel⟩,
   ⟨3, 0, ld .homestretch [lu], withL (dv { st := .landing }) (ld .homestretch [lu]), by decide +kernel⟩⟩

/-- States and operands that meet the hypotheses of `IdleDieStartsItsRead`, clause by clause. -/
theorem witness_IdleDieStartsItsRead_3 :
    (∃ (n : Nat) (d : Nat) (h : Nat) (l : Landing) (o : Op) (s : State), d < 8 ∧ s.pacerUp n = true ∧ s.power.landing = some l ∧
      ((s.settleDie (dieKey n d)).assignLanding.die (dieKey n d)).st = .progSusp ∧
      ((s.settleDie (dieKey n d)).assignLanding.die (dieKey n d)).heavy = some h ∧
      (s.settleDie (dieKey n d)).assignLanding.opAt (opKey n h) = some o ∧ o.abort = none ∧
      ((s.settleDie (dieKey n d)).assignLanding.die (dieKey n d)).reading = none ∧
      ((s.settleDie (dieKey n d)).assignLanding.die (dieKey n d)).resuming = false) ∧
    (∃ (n : Nat) (d : Nat) (s : State), d < 8 ∧ s.pacerUp n = true ∧ s.power.landing = none ∧ s.quietDies = true ∧
      (s.die (dieKey n d)).st ≠ .progSusp) ∧
    (∃ (n : Nat) (d : Nat) (h : Nat) (o : Op) (s : State), d < 8 ∧ s.pacerUp n = true ∧ s.power.landing = none ∧ s.quietDies = true ∧
      (s.die (dieKey n d)).st = .progSusp ∧ (s.die (dieKey n d)).heavy = some h ∧ s.opAt (opKey n h) = some o ∧ o.abort = none ∧
      (s.die (dieKey n d)).reading = none ∧ (s.die (dieKey n d)).resuming = false) :=
  ⟨⟨3, 0, 0, ld .homestretch [lu], { opOf (qe .coarse) with suspended := true },
    withL (dop { st := .progSusp, heavy := some 0 } { opOf (qe .coarse) with suspended := true }) (ld .homestretch [lu]), by decide +kernel⟩,
   ⟨3, 0, (dv { st := .idle, queue := [qe .read] }).onPower fun p => { p with mode := .lull }, by decide +kernel⟩,
   ⟨3, 0, 0, { opOf (qe .coarse) with suspended := true },
     (dop { st := .progSusp, heavy := some 0 } { opOf (qe .coarse) with suspended := true }).onPower fun p => { p with mode := .lull },
     by decide +kernel⟩⟩

/-- States and operands that meet the hypotheses of `DieResultsEndTheirOperation`, clause by clause. -/
theorem witness_DieResultsEndTheirOperation_1 :
    (∃ (n : Nat) (tag : Nat) (st : Nat) (bu : Nat) (mv : Nat) (r : DoneResult) (o : Op) (s : State), (s.lane n).st = .active ∧ tag < 240 ∧
      s.opAt (opKey n tag) = some o ∧ o.die < 8 ∧ r ≠ .timeout ∧ r ≠ .suspended ∧ r ≠ .resumed) ∧
    (∃ (n : Nat) (tag : Nat) (st : Nat) (bu : Nat) (mv : Nat) (o : Op) (s : State), (s.lane n).st = .active ∧ tag < 240 ∧
      s.opAt (opKey n tag) = some o ∧ o.die < 8 ∧ o.entry.kind = .erase ∧ (s.die (dieKey n o.die)).heavy = some tag ∧
      o.entry.block < s.diePositions (dieKey n o.die) ∧ s.isLandBlock (s.die (dieKey n o.die)) o.entry.block = false) ∧
    (∃ (n : Nat) (tag : Nat) (st : Nat) (bu : Nat) (mv : Nat) (o : Op) (s : State), (s.lane n).st = .active ∧ tag < 240 ∧
      s.opAt (opKey n tag) = some o ∧ o.die < 8 ∧ o.entry.kind.isRead = true ∧ o.failed = false ∧ o.merged = [] ∧ o.entry.frames = 1 ∧
      o.entry.retry < 16) ∧
    (∃ (n : Nat) (tag : Nat) (st : Nat) (bu : Nat) (mv : Nat) (o : Op) (s : State), (s.lane n).st = .active ∧ tag < 240 ∧
      s.opAt (opKey n tag) = some o ∧ o.die < 8 ∧ o.entry.kind.isRead = true ∧ o.failed = true) ∧
    (∃ (n : Nat) (tag : Nat) (st : Nat) (bu : Nat) (mv : Nat) (o : Op) (s : State), (s.lane n).st = .active ∧ tag < 240 ∧
      s.opAt (opKey n tag) = some o ∧ o.die < 8 ∧ (o.entry.kind = .coarse ∨ o.entry.kind = .fine) ∧ (s.zone o.entry.zk).valid = true ∧
      (s.zone o.entry.zk).relocTgt = none ∧ (s.zone o.entry.zk).dblk.getD o.entry.pos 0 = o.entry.block ∧
      o.entry.page = Tbl.look 0 (if o.entry.kind = .coarse then (s.zone o.entry.zk).coarse else (s.zone o.entry.zk).fine) o.entry.pos) ∧
    (∃ (n : Nat) (tag : Nat) (st : Nat) (bu : Nat) (mv : Nat) (o : Op) (l : Landing) (s : State), (s.lane n).st = .active ∧ tag < 240 ∧
      s.opAt (opKey n tag) = some o ∧ o.die < 8 ∧ o.entry.kind = .slc ∧ s.power.landing = some l) ∧
    (∃ (n : Nat) (tag : Nat) (st : Nat) (bu : Nat) (mv : Nat) (o : Op) (s : State), (s.lane n).st = .active ∧ tag < 240 ∧
      s.opAt (opKey n tag) = some o ∧ o.die < 8 ∧ (o.entry.kind = .coarse ∨ o.entry.kind = .fine ∨ o.entry.kind = .erase) ∧
      (s.die (dieKey n o.die)).badPos.length < s.allowance (dieKey n o.die)) ∧
    (∃ (n : Nat) (tag : Nat) (st : Nat) (bu : Nat) (mv : Nat) (o : Op) (s : State), (s.lane n).st = .active ∧ tag < 240 ∧
      s.opAt (opKey n tag) = some o ∧ o.die < 8 ∧ o.entry.kind = .slc) :=
  ⟨⟨3, 0, 0, 9000, 0, .statusFail, opOf (qe .read), dop { st := .read, reading := some 0 } (opOf (qe .read)), by decide +kernel⟩,
   ⟨3, 0, 0, 9000, 0, opOf { qe .erase with block := 5 }, dop { st := .erase, heavy := some 0 } (opOf { qe .erase with block := 5 }),
     by decide +kernel⟩,
   ⟨3, 0, 0, 9000, 0, opOf (qe .read), dop { st := .read, reading := some 0 } (opOf (qe .read)), by decide +kernel⟩,
   ⟨3, 0, 0, 9000, 0, { opOf (qe .read) with failed := true }, dop { st := .read, reading := some 0 } ({ opOf (qe .read) with failed := true }),
     by decide +kernel⟩,
   ⟨3, 0, 0, 9000, 0, opOf (qe .coarse), withZ (dop { st := .prog, heavy := some 0 } (opOf (qe .coarse))) openZ, by decide +kernel⟩,
   ⟨3, 0, 0, 9000, 0, opOf (qe .slc), ld .homestretch [lu], withL (dop { st := .landing, heavy := some 0 } (opOf (qe .slc))) (ld .homestretch [lu]),
     by decide +kernel⟩,
   ⟨3, 0, 0, 9000, 0, opOf { qe .erase with block := 5 }, dop { st := .erase, heavy := some 0 } (opOf { qe .erase with block := 5 }),
     by decide +kernel⟩,
   ⟨3, 0, 0, 9000, 0, opOf (qe .slc), dop { st := .landing, heavy := some 0 } (opOf (qe .slc)), by decide +kernel⟩⟩

/-- States and operands that meet the hypotheses of `DieResultsEndTheirOperation`, clause by clause. -/
theorem witness_DieResultsEndTheirOperation_2 :
    (∃ (n : Nat) (tag : Nat) (st : Nat) (bu : Nat) (mv : Nat) (o : Op) (s : State), (s.lane n).st = .active ∧ tag < 240 ∧
      s.opAt (opKey n tag) = some o ∧ o.die < 8 ∧ o.entry.kind.isRead = true ∧
      ((s.die (dieKey n o.die)).timeouts.filter fun x => decide (s.now ≤ x + 1000000000)).length < 2) ∧
    (∃ (n : Nat) (tag : Nat) (st : Nat) (bu : Nat) (mv : Nat) (o : Op) (s : State), (s.lane n).st = .active ∧ tag < 240 ∧
      s.opAt (opKey n tag) = some o ∧ o.die < 8 ∧ (o.entry.kind = .coarse ∨ o.entry.kind = .fine ∨ o.entry.kind = .erase) ∧
      ((s.die (dieKey n o.die)).timeouts.filter fun x => decide (s.now ≤ x + 1000000000)).length < 2) ∧
    (∃ (n : Nat) (tag : Nat) (st : Nat) (bu : Nat) (mv : Nat) (o : Op) (s : State), (s.lane n).st = .active ∧ tag < 240 ∧
      s.opAt (opKey n tag) = some o ∧ o.die < 8 ∧ 2 ≤ ((s.die (dieKey n o.die)).timeouts.filter fun x => decide (s.now ≤ x + 1000000000)).length) ∧
    (∃ (n : Nat) (tag : Nat) (st : Nat) (bu : Nat) (mv : Nat) (o : Op) (s : State), (s.lane n).st = .active ∧ tag < 240 ∧
      s.opAt (opKey n tag) = some o ∧ o.die < 8) ∧
    (∃ (n : Nat) (tag : Nat) (st : Nat) (bu : Nat) (mv : Nat) (o : Op) (s : State), (s.lane n).st = .active ∧ tag < 240 ∧
      s.opAt (opKey n tag) = some o ∧ o.die < 8) ∧
    (∃ (n : Nat) (tag : Nat) (st : Nat) (bu : Nat) (mv : Nat) (r : DoneResult) (o : Op) (s : State), (s.lane n).st = .active ∧ tag < 240 ∧
      s.opAt (opKey n tag) = some o ∧ o.die < 8 ∧ (r = .badRequest ∨ r = .dieAbsent)) ∧
    (∃ (n : Nat) (tag : Nat) (st : Nat) (bu : Nat) (mv : Nat) (r : DoneResult) (s : State), tag < 240 ∧ s.opAt (opKey n tag) = none) ∧
    (∃ (n : Nat) (tag : Nat) (st : Nat) (bu : Nat) (mv : Nat) (r : DoneResult) (s : State), 240 ≤ tag ∧ Tbl.look none (s.lane n).ctl tag = none) :=
  ⟨⟨3, 0, 0, 9000, 0, opOf (qe .read), dop { st := .read, reading := some 0, timeouts := [4999999000] } (opOf (qe .read)), by decide +kernel⟩,
   ⟨3, 0, 0, 9000, 0, opOf { qe .erase with block := 5 }, dop { st := .erase, heavy := some 0 } (opOf { qe .erase with block := 5 }),
     by decide +kernel⟩,
   ⟨3, 0, 0, 9000, 0, opOf { qe .erase with block := 5 },
     dop { st := .erase, heavy := some 0, timeouts := [4999999000, 4999999500] } (opOf { qe .erase with block := 5 }), by decide +kernel⟩,
   ⟨3, 0, 0, 9000, 0, opOf { qe .erase with block := 5 },
     dop { st := .erase, heavy := some 0, suspendAt := some 7 } (opOf { qe .erase with block := 5 }), by decide +kernel⟩,
   ⟨3, 0, 0, 9000, 0, { opOf { qe .erase with block := 5 } with suspended := true },
     dop { st := .eraseSusp, heavy := some 0, resuming := true, readsServed := 2 } ({ opOf { qe .erase with block := 5 } with suspended := true }),
     by decide +kernel⟩,
   ⟨3, 0, 0, 9000, 0, .badRequest, opOf { qe .erase with block := 5 }, dop { st := .erase, heavy := some 0 } (opOf { qe .erase with block := 5 }),
     by decide +kernel⟩,
   ⟨3, 239, 0, 0, 0, .ok, wk, by decide +kernel⟩,
   ⟨3, 240, 0, 0, 0, .ok, wl la, by decide +kernel⟩⟩

/-- States and operands that meet the hypotheses of `DieResultsEndTheirOperation`, clause by clause. -/
theorem witness_DieResultsEndTheirOperation_3 :
    (∃ (n : Nat) (tag : Nat) (st : Nat) (bu : Nat) (mv : Nat) (r : DoneResult) (s : State), (s.lane n).st ≠ .active) ∧
    (∃ (n : Nat) (tag : Nat) (st : Nat) (bu : Nat) (mv : Nat) (r : DoneResult) (s : State), (s.lane n).st = .active ∧ 240 ≤ tag ∧
      Tbl.look none (s.lane n).ctl tag = some .sync ∧ isRefusal r = false ∧ (s.lane n).syncing = true ∧ (s.lane n).ctlWait = [] ∧ s.laneOps n = [] ∧
      (s.blk (blockOfLane n)).handoff = none) ∧
    (∃ (n : Nat) (tag : Nat) (why : Nat) (st : Nat) (bu : Nat) (mv : Nat) (r : DoneResult) (s : State), (s.lane n).st = .active ∧ 240 ≤ tag ∧
      Tbl.look none (s.lane n).ctl tag = some .park ∧ isRefusal r = false ∧ (s.lane n).ctlWait = [] ∧ (s.lane n).parking = some why) ∧
    (∃ (n : Nat) (tag : Nat) (a : Nat) (v : Nat) (st : Nat) (bu : Nat) (mv : Nat) (r : DoneResult) (s : State), (s.lane n).st = .active ∧ 240 ≤ tag ∧
      Tbl.look none (s.lane n).ctl tag = some (.write a v) ∧ isRefusal r = false ∧ (s.lane n).ctlWait = []) ∧
    (∃ (n : Nat) (tag : Nat) (st : Nat) (bu : Nat) (mv : Nat) (c : Ctl) (r : DoneResult) (s : State), (s.lane n).st = .active ∧ 240 ≤ tag ∧
      Tbl.look none (s.lane n).ctl tag = some c ∧ isRefusal r = true) :=
  ⟨⟨3, 239, 0, 0, 0, .ok, wk, by decide +kernel⟩,
   ⟨3, 240, 0, 0, 0, .ok, wl { la with syncing := true, ctl := [(240, some .sync)] }, by decide +kernel⟩,
   ⟨3, 241, 2, 0, 0, 0, .ok, wl { la with parking := some 2, ctl := [(241, some .park)] }, by decide +kernel⟩,
   ⟨3, 241, 8, 1, 0, 0, 0, .ok, wl { la with ctl := [(241, some (.write 8 1))] }, by decide +kernel⟩,
   ⟨3, 241, 0, 0, 0, .park, .dieAbsent, wl { la with parking := some 2, ctl := [(241, some .park)] }, by decide +kernel⟩⟩

/-- States and operands that meet the hypotheses of `LateAndUnknownOperations`, clause by clause. -/
theorem witness_LateAndUnknownOperations_1 :
    (∃ (n : Nat) (d : Nat) (tag : Nat) (x : Nat) (rc : List (Nat × Nat)) (s : State), (s.lane n).st = .active ∧ (s.lane n).syncing = true ∧
      (∀ p ∈ s.laneOps n, p.2.die ≠ d) ∧ s.opAt (opKey n tag) = none ∧ (s.lane n).resuming = false ∧ (s.lane n).outbox = [] ∧ 0 < (s.lane n).crdMsg ∧
      (s.lane n).retry.length < 128) ∧
    (∃ (n : Nat) (d : Nat) (hd : List (Nat × Nat)) (rc : List (Nat × Nat)) (s : State), (s.lane n).st = .active ∧ (s.lane n).syncing = true ∧
      (∀ p ∈ s.laneOps n, p.2.die ≠ d) ∧ (∀ h ∈ hd, s.opAt (opKey n h.1) ≠ none)) ∧
    (∃ (n : Nat) (d : Nat) (tag : Nat) (o : Op) (s : State), (s.lane n).st = .active ∧ (s.lane n).syncing = true ∧ d < 8 ∧
      (s.laneOps n).filter (fun p => p.2.die == d) = [(tag, o)] ∧ (s.blk (blockOfLane n)).handoff = none) ∧
    (∃ (n : Nat) (d : Nat) (tag : Nat) (c : Nat) (o : Op) (s : State), (s.lane n).st = .active ∧ (s.lane n).syncing = true ∧
      (s.laneOps n).filter (fun p => p.2.die == d) = [(tag, o)]) ∧
    (∃ (n : Nat) (d : Nat) (tag : Nat) (o : Op) (s : State), (s.lane n).st = .active ∧ (s.lane n).syncing = true ∧ d < 8 ∧
      (s.laneOps n).filter (fun p => p.2.die == d) = [(tag, o)] ∧ s.opAt (opKey n tag) = some o ∧ o.suspended = false) ∧
    (∃ (n : Nat) (d : Nat) (tag : Nat) (new : Nat) (o : Op) (s : State), (s.lane n).st = .active ∧ (s.lane n).syncing = true ∧ d < 8 ∧
      (s.laneOps n).filter (fun p => p.2.die == d) = [(tag, o)] ∧ s.opAt (opKey n tag) = some o ∧ o.failed = false ∧ s.freeTag n = some new) ∧
    (∃ (n : Nat) (d : Nat) (tag : Nat) (x : Nat) (o : Op) (s : State), (s.lane n).st = .active ∧ (s.lane n).syncing = true ∧
      (s.laneOps n).filter (fun p => p.2.die == d) = [(tag, o)] ∧ s.opAt (opKey n tag) = some o ∧ x < 2) ∧
    (∃ (n : Nat) (d : Nat) (hd : List (Nat × Nat)) (rc : List (Nat × Nat)) (s : State), ((s.lane n).st ≠ .active ∨ (s.lane n).syncing = false)) :=
  ⟨⟨3, 2, 9, 1, [], wl { la with syncing := true }, by decide +kernel⟩,
   ⟨3, 2, [], [], wl { la with syncing := true }, by decide +kernel⟩,
   ⟨3, 0, 0, opOf (qe .read), let s := dop { st := .read, reading := some 0 } (opOf (qe .read)); { s with lanes := [(3, { la with syncing := true })] }, by decide +kernel⟩,
   ⟨3, 0, 0, 1, opOf (qe .erase), let s := dop { st := .erase, heavy := some 0 } (opOf (qe .erase)); { s with lanes := [(3, { la with syncing := true })] }, by decide +kernel⟩,
   ⟨3, 0, 0, opOf (qe .erase), let s := dop { st := .erase, heavy := some 0, suspendAt := some 8 } (opOf (qe .erase)); { s with lanes := [(3, { la with syncing := true })] }, by decide +kernel⟩,
   ⟨3, 0, 0, 1, opOf (qe .read), let s := dop { st := .read, reading := some 0 } (opOf (qe .read)); { s with lanes := [(3, { la with syncing := true })] }, by decide +kernel⟩,
   ⟨3, 0, 0, 1, opOf (qe .read), let s := dop { st := .read, reading := some 0 } (opOf (qe .read)); { s with lanes := [(3, { la with syncing := true })] }, by decide +kernel⟩,
   ⟨3, 2, [(9, 1)], [], wl la, by decide +kernel⟩⟩

/-- States and operands that meet the hypotheses of `LateAndUnknownOperations`, clause by clause. -/
theorem witness_LateAndUnknownOperations_2 :
    (∃ (n : Nat) (d : Nat) (t0 : Nat) (s : State), (s.die (dieKey n d)).suspendAt = some t0 ∧ (s.die (dieKey n d)).suspendLate = false ∧
      (s.die (dieKey n d)).queue = [] ∧ (s.die (dieKey n d)).reading = none) ∧
    (∃ (n : Nat) (d : Nat) (t0 : Nat) (s : State), (s.die (dieKey n d)).suspendAt = some t0 ∧ (s.die (dieKey n d)).suspendLate = false) ∧
    (∃ (n : Nat) (d : Nat) (s : State), ((s.die (dieKey n d)).suspendAt = none ∨ (s.die (dieKey n d)).suspendLate = true)) ∧
    (∃ (n : Nat) (tag : Nat) (o : Op) (s : State), s.opAt (opKey n tag) = some o ∧ o.entry.kind.isRead = false) ∧
    (∃ (n : Nat) (tag : Nat) (o : Op) (s : State), s.opAt (opKey n tag) = some o ∧ o.entry.kind.isRead = true ∧ o.timedOut = false) ∧
    (∃ (n : Nat) (tag : Nat) (o : Op) (s : State), o.die < 8 ∧ s.opAt (opKey n tag) = some o ∧ o.entry.kind.isRead = true ∧ o.timedOut = true ∧
      (s.lane n).outbox = [] ∧ 0 < (s.lane n).crdMsg ∧ (s.lane n).retry.length < 128 ∧ (s.lane n).carries = true) ∧
    (∃ (n : Nat) (tag : Nat) (s : State), s.opAt (opKey n tag) = none) :=
  ⟨⟨3, 0, 100, dop { st := .erase, heavy := some 0, suspendAt := some 100 } (opOf (qe .erase)), by decide +kernel⟩,
   ⟨3, 0, 100, dop { st := .erase, heavy := some 0, suspendAt := some 100, queue := [qe .read] } (opOf (qe .erase)), by decide +kernel⟩,
   ⟨3, 2, wk, by decide +kernel⟩,
   ⟨3, 0, opOf (qe .erase), dop { st := .erase, heavy := some 0 } (opOf (qe .erase)), by decide +kernel⟩,
   ⟨3, 0, opOf (qe .read), dop { st := .read, reading := some 0 } (opOf (qe .read)), by decide +kernel⟩,
   ⟨3, 0, { opOf (qe .read) with timedOut := true }, dop { st := .read, reading := some 0 } { opOf (qe .read) with timedOut := true },
     by decide +kernel⟩,
   ⟨3, 9, wk, by decide +kernel⟩⟩

/-- States and operands that meet the hypotheses of `WrittenDataReachStaging`, clause by clause. -/
theorem witness_WrittenDataReachStaging_1 :
    (∃ (c : Nat) (data : List Block) (x : Ctx) (s : State), s.ctxAt c = some x ∧ x.phase = .fetching ∧ x.kind ≠ .packedAppend) ∧
    (∃ (c : Nat) (data : List Block) (x : Ctx) (s : State), s.ctxAt c = some x ∧ x.phase = .fetching ∧ x.kind ≠ .packedAppend ∧
      s.muted x.hdr = false) ∧
    (∃ (c : Nat) (data : List Block) (x : Ctx) (s : State), s.ctxAt c = some x ∧ x.phase = .fetching ∧ x.kind = .packedAppend ∧
      s.hasCompression = true) ∧
    (∃ (c : Nat) (data : List Block) (x : Ctx) (s : State), s.ctxAt c = some x ∧ x.phase = .fetching ∧ x.kind = .packedAppend ∧ x.discard = false ∧
      s.muted x.hdr = false ∧ (s.zone x.zk).writing = [c] ∧ (s.zone x.zk).closing = none ∧ (s.zone x.zk).fence = none) ∧
    (∃ (c : Nat) (ok : Bool) (data : List Block) (s : State), (∀ x, s.ctxAt c = some x → x.phase ≠ .fetching)) ∧
    (∃ (b : Nat) (j : Nat) (c : Nat) (zk : Nat) (off : Nat) (i : Nat) (cls : Cls) (x : Ctx) (s : State), s.running = true ∧
      s.cph.engines.getLsbD b = true ∧ (s.blk b).cipRun = some j ∧ s.cipherJobAt j = some ⟨b, c, cls, true, [(zk, off, i)]⟩ ∧ s.ctxAt c = some x ∧
      s.keyOwned (nsOfKey zk) x.tenant = true ∧ x.behind = false) ∧
    (∃ (b : Nat) (j : Nat) (c : Nat) (zk : Nat) (off : Nat) (i : Nat) (cls : Cls) (rest : List (Nat × Nat × Nat)) (x : Ctx) (s : State),
      s.running = true ∧ s.cph.engines.getLsbD b = true ∧ (s.blk b).cipRun = some j ∧ s.cipherJobAt j = some ⟨b, c, cls, true, (zk, off,
      i) :: rest⟩ ∧ s.ctxAt c = some x ∧ s.keyOwned (nsOfKey zk) x.tenant = true ∧ x.behind = true) ∧
    (∃ (b : Nat) (j : Nat) (c : Nat) (zk : Nat) (off : Nat) (i : Nat) (cls : Cls) (x : Ctx) (s : State), s.running = true ∧
      s.cph.engines.getLsbD b = true ∧ (s.blk b).cipRun = some j ∧ s.cipherJobAt j = some ⟨b, c, cls, false, [(zk, off, i)]⟩ ∧ s.ctxAt c = some x ∧
      s.keyOwned (nsOfKey zk) x.tenant = true ∧ x.frozen.find? (fun p => p.1 == i) = none ∧ x.finished + 1 < x.places.length) :=
  ⟨⟨1, [3], cx 1 .write .fetching, withCx (wn [(zk0 1, openZ)]) (cx 1 .write .fetching), by decide +kernel⟩,
   ⟨1, [3], cx 1 .write .fetching, withCx (wn [(zk0 1, openZ)]) (cx 1 .write .fetching), by decide +kernel⟩,
   ⟨1, [3], { cx 3 .packedAppend .fetching with granules := 1 }, withCx (wn [(zk0 3,
     { openZ with writing := [1] })]) ({ cx 3 .packedAppend .fetching with granules := 1 }), by decide +kernel⟩,
   ⟨1, [3], { cx 3 .packedAppend .fetching with granules := 1 }, withCx (wn [(zk0 3,
     { openZ with writing := [1] })]) ({ cx 3 .packedAppend .fetching with granules := 1 }), by decide +kernel⟩,
   ⟨1, true, [3], wk, none_of rfl⟩,
   ⟨0, 1, 1, zk0 1, 0, 0, .distance, cx 1 .write .ciphering, withJob (withCx (wn [(zk0 1, openZ)]) (cx 1 .write .ciphering)) ⟨0, 1, .distance, true,
     [(zk0 1, 0, 0)]⟩, by decide +kernel⟩,
   ⟨0, 1, 1, zk0 1, 0, 0, .distance, [(zk0 1, 1, 1)], { cx 1 .write .ciphering with behind := true }, withJob (withCx (wn [(zk0 1,
     openZ)]) ({ cx 1 .write .ciphering with behind := true })) ⟨0, 1, .distance, true, [(zk0 1, 0, 0), (zk0 1, 1, 1)]⟩, by decide +kernel⟩,
   ⟨0, 9, 1, zk0 1, 0, 0, .distance, { cx 1 .read .reading with places := [some (zk0 1, 0), none] }, let s := withCx (wn [(zk0 1, openZ)]) { cx 1 .read .reading with places := [some (zk0 1, 0), none] }; { s with blks := [(0, { cipRun := some 9 })], work := { s.work with ciphers := [(9, some ⟨0, 1, .distance, false, [(zk0 1, 0, 0)]⟩)] } }, by decide +kernel⟩⟩

/-- States and operands that meet the hypotheses of `WrittenDataReachStaging`, clause by clause. -/
theorem witness_WrittenDataReachStaging_2 :
    (∃ (b : Nat) (j : Nat) (c : Nat) (zk : Nat) (off : Nat) (i : Nat) (cls : Cls) (x : Ctx) (s : State), s.running = true ∧
      s.cph.engines.getLsbD b = true ∧ (s.blk b).cipRun = some j ∧ s.cipherJobAt j = some ⟨b, c, cls, false, [(zk, off, i)]⟩ ∧ s.ctxAt c = some x ∧
      s.keyOwned (nsOfKey zk) x.tenant = true ∧ x.kind = .read ∧ x.places.length ≤ x.finished + 1 ∧ x.discard = false ∧ s.muted x.hdr = false) ∧
    (∃ (b : Nat) (j : Nat) (c : Nat) (zk : Nat) (off : Nat) (i : Nat) (cls : Cls) (enc : Bool) (x : Ctx) (s : State), s.roomForEvents ∧
      s.running = true ∧ s.cph.engines.getLsbD b = true ∧ (s.blk b).cipRun = some j ∧ s.cipherJobAt j = some ⟨b, c, cls, enc, [(zk, off, i)]⟩ ∧
      s.ctxAt c = some x ∧ s.keyOwned (nsOfKey zk) x.tenant = false ∧ x.discard = false ∧ s.muted x.hdr = false) ∧
    (∃ (b : Nat) (j : Nat) (k : CipherJob) (s : State), s.running = true ∧ s.cph.engines.getLsbD b = true ∧ (s.blk b).cipRun = some j ∧
      s.cipherJobAt j = some k ∧ s.ctxAt k.ctx = none) ∧
    (∃ (b : Nat) (j : Nat) (s : State), (s.running = false ∨ s.cph.engines.getLsbD b = false ∨ (s.blk b).cipRun ≠ some j ∨ s.cipherJobAt j = none)) ∧
    (∃ (c : Nat) (x : Ctx) (s : State), (∀ k, (s.zone k).closing = none) ∧ s.ctxAt c = some x ∧ x.phase = .staging ∧
      (x.kind = .write ∨ x.kind = .writeZeroes) ∧ (s.ns x.nsid).zoned = true ∧ x.behind = false ∧ x.discard = false ∧ s.muted x.hdr = false) ∧
    (∃ (c : Nat) (x : Ctx) (s : State), (∀ k, (s.zone k).closing = none) ∧ s.ctxAt c = some x ∧ x.phase = .staging ∧ x.kind = .append ∧
      (s.ns x.nsid).zoned = true ∧ x.behind = false ∧ x.discard = false ∧ s.muted x.hdr = false) ∧
    (∃ (c : Nat) (x : Ctx) (s : State), (∀ k, (s.zone k).closing = none) ∧ s.ctxAt c = some x ∧ x.phase = .staging ∧
      (x.kind = .write ∨ x.kind = .writeZeroes) ∧ (s.ns x.nsid).zoned = false ∧ x.behind = false ∧ x.discard = false ∧ s.muted x.hdr = false) ∧
    (∃ (c : Nat) (x : Ctx) (s : State), s.ctxAt c = some x ∧ x.phase = .staging ∧ x.kind ≠ .parcel ∧ (s.ns x.nsid).zoned = true ∧ x.behind = true) :=
  ⟨⟨0, 1, 1, zk0 1, 0, 0, .distance, cx 1 .read .reading, withJob (withCx (wn [(zk0 1, openZ)]) (cx 1 .read .reading)) ⟨0, 1, .distance, false,
    [(zk0 1, 0, 0)]⟩, by decide +kernel⟩,
   ⟨0, 1, 1, zk0 1, 0, 0, .distance, true, { cx 1 .write .ciphering with tenant := 1 }, withJob (withCx (wn [(zk0 1,
     openZ)]) ({ cx 1 .write .ciphering with tenant := 1 })) ⟨0, 1, .distance, true, [(zk0 1, 0, 0)]⟩, room (by decide +kernel), by decide +kernel⟩,
   ⟨0, 1, ⟨0, 1, .distance, true, [(zk0 1, 0, 0)]⟩, withJob (wn []) ⟨0, 1, .distance, true, [(zk0 1, 0, 0)]⟩, by decide +kernel⟩,
   ⟨0, 1, wn [], by decide +kernel⟩,
   ⟨1, cx 1 .write .staging, withCx (wn [(zk0 1, openZ)]) (cx 1 .write .staging), zonesAll (·.closing = none) (by decide +kernel), by decide +kernel⟩,
   ⟨1, cx 1 .append .staging, withCx (wn [(zk0 1, openZ)]) (cx 1 .append .staging), zonesAll (·.closing = none) (by decide +kernel),
     by decide +kernel⟩,
   ⟨1, cx 2 .write .staging, withCx (wn [(zk0 2, openZ)]) (cx 2 .write .staging), zonesAll (·.closing = none) (by decide +kernel), by decide +kernel⟩,
   ⟨1, { cx 1 .write .staging with behind := true }, withCx (wn [(zk0 1, openZ)]) { cx 1 .write .staging with behind := true }, by decide +kernel⟩⟩

/-- States and operands that meet the hypotheses of `WrittenDataReachStaging`, clause by clause. -/
theorem witness_WrittenDataReachStaging_3 :
    (∃ (c : Nat) (g : Nat) (i : Nat) (k : Nat) (x : Ctx) (m : Ctx) (s : State), (∀ z, (s.zone z).closing = none) ∧ s.ctxAt c = some x ∧
      x.phase = .staging ∧ x.kind = .parcel ∧ (s.ns x.nsid).zoned = true ∧ x.behind = false ∧ x.group = [(g, i, k)] ∧ c ≠ g ∧ s.ctxAt g = some m ∧
      m.discard = false ∧ s.muted m.hdr = false) ∧
    (∃ (c : Nat) (s : State), (∀ x, s.ctxAt c = some x → x.phase ≠ .staging)) :=
  ⟨⟨1, 2, 0, 1, { cx 3 .parcel .staging with group := [(2, 0, 1)] }, { cx 3 .packedAppend .compressing with granules := 1, placed := true }, let s := wn [(zk0 3, { openZ with writing := [1] })]; { s with work := { s.work with ctxs := [(1, some { cx 3 .parcel .staging with group := [(2, 0, 1)] }), (2, some { cx 3 .packedAppend .compressing with granules := 1, placed := true })], nextCtx := 3 } }, zonesAll (·.closing = none) (by decide +kernel), by decide +kernel⟩,
   ⟨1, wk, none_of rfl⟩⟩

/-- States and operands that meet the hypotheses of `DecodesAndParityJobsEnd`, clause by clause. -/
theorem witness_DecodesAndParityJobsEnd_1 :
    (∃ (j : Nat) (d : Nat) (bits : Nat) (x : DecodeJob) (s : State), s.work.decodes = [(j, some x)] ∧ x.decoder = some d ∧ x.entry.ctx = 0 ∧
      x.entry.rebuild = none ∧ x.entry.kind = .patrol ∧ x.entry.retry = 0 ∧ bits < s.cfg .chipMediaCfg 0 15 8) ∧
    (∃ (j : Nat) (d : Nat) (bits : Nat) (x : DecodeJob) (s : State), s.roomForEvents ∧ s.decodeAt j = some x ∧ x.decoder = some d ∧ x.entry.ctx = 0 ∧
      x.entry.rebuild = none ∧ x.entry.kind = .patrol ∧ x.entry.retry = 0 ∧ s.cfg .chipMediaCfg 0 15 8 ≤ bits) ∧
    (∃ (j : Nat) (d : Nat) (bits : Nat) (ok : Bool) (fcrc : Bool) (x : DecodeJob) (s : State), s.decodeAt j = some x ∧ x.decoder = some d ∧
      s.stillWanted x.entry x.off = true ∧ (ok && fcrc) = false ∧ x.entry.rebuild = none ∧ x.entry.cls ≠ .dash ∧ x.entry.kind ≠ .copyRead ∧
      x.entry.retry < (s.ladderSteps (dieKey x.lane x.die) x.entry.cls).1 ∧ x.entry.retry < 16) ∧
    (∃ (j : Nat) (d : Nat) (bits : Nat) (ok : Bool) (fcrc : Bool) (x : DecodeJob) (s : State), s.decodeAt j = some x ∧ x.decoder = some d ∧
      s.stillWanted x.entry x.off = true ∧ (ok && fcrc) = false ∧ x.entry.rebuild = none ∧ x.entry.cls ≠ .dash ∧ x.entry.kind ≠ .copyRead ∧
      x.entry.retry < 16 ∧ (s.ladderSteps (dieKey x.lane x.die) x.entry.cls).1 ≤ x.entry.retry ∧
      (s.ladderSteps (dieKey x.lane x.die) x.entry.cls).2 = true ∧ s.softLimit (blockOfLane (dieKey x.lane x.die / 8)) ≠ 0) ∧
    (∃ (j : Nat) (d : Nat) (bits : Nat) (fcrc : Bool) (x : DecodeJob) (s : State), s.roomForEvents ∧ s.decodeAt j = some x ∧ x.decoder = some d ∧
      s.stillWanted x.entry x.off = true ∧ x.entry.rebuild = none ∧ x.entry.cls ≠ .dash ∧ x.entry.kind ≠ .copyRead ∧ x.entry.retry < 16 ∧
      (s.ladderSteps (dieKey x.lane x.die) x.entry.cls).1 ≤ x.entry.retry ∧ (s.ladderSteps (dieKey x.lane x.die) x.entry.cls).2 = false) ∧
    (∃ (j : Nat) (d : Nat) (bits : Nat) (ok : Bool) (x : DecodeJob) (s : State), s.work.decodes = [(j, some x)] ∧ x.decoder = some d ∧
      s.stillWanted x.entry x.off = false ∧ x.entry.retry ≠ 17) ∧
    (∃ (j : Nat) (d : Nat) (bits : Nat) (src : Nat) (tgt : Nat) (c : Nat) (x : DecodeJob) (s : State), s.work.decodes = [(j, some x)] ∧
      x.decoder = some d ∧ x.entry.ctx = 0 ∧ x.entry.rebuild = none ∧ x.entry.kind = .copyRead ∧ x.entry.retry = 0 ∧
      rowOf x.off = (s.die (dieKey x.lane x.die)).copyPages ∧ (s.die (dieKey x.lane x.die)).reloc = some (x.entry.zk, x.entry.pos, src, tgt, c) ∧
      1 < (s.die (dieKey x.lane x.die)).copyWait) ∧
    (∃ (j : Nat) (d : Nat) (bits : Nat) (fcrc : Bool) (x : DecodeJob) (s : State), s.roomForEvents ∧ s.decodeAt j = some x ∧ x.decoder = some d ∧
      x.entry.ctx = 0 ∧ x.entry.rebuild = none ∧ x.entry.kind = .copyRead) :=
  ⟨⟨9, 2, 5, { block := 0, lane := 3, die := 1, entry := { id := 4, kind := .patrol, cls := .none, zk := zk0 1 }, off := 0, decoder := some 2 },
    { wk with work := { wk.work with decodes := [(9, some { block := 0, lane := 3, die := 1, entry := { id := 4, kind := .patrol, cls := .none, zk := zk0 1 }, off := 0, decoder := some 2 })] } }, by decide +kernel⟩,
   ⟨9, 2, 255, { block := 0, lane := 3, die := 1, entry := { id := 4, kind := .patrol, cls := .none, zk := zk0 1 }, off := 0, decoder := some 2 },
     { wk with work := { wk.work with decodes := [(9, some { block := 0, lane := 3, die := 1, entry := { id := 4, kind := .patrol, cls := .none, zk := zk0 1 }, off := 0, decoder := some 2 })] } }, room (by decide +kernel), by decide +kernel⟩,
   ⟨1, 1, 5, true, false, dj (qe .patrol), wj (qe .patrol), by decide +kernel⟩,
   ⟨1, 1, 5, true, false, dj { qe .patrol with retry := 15 }, (wj { qe .patrol with retry := 15 }).setCfgAt (Reg.offset .chipDieRetry 0) 0x00F04000,
     by decide +kernel⟩,
   ⟨1, 1, 5, true, dj { qe .patrol with retry := 15 }, (wj { qe .patrol with retry := 15 }).setCfgAt (Reg.offset .chipDieRetry 0) 0x00F00000,
     room (by decide +kernel), by decide +kernel⟩,
   ⟨1, 1, 5, true, dj { qe .read with ctx := 7 }, wj { qe .read with ctx := 7 }, by decide +kernel⟩,
   ⟨9, 2, 5, 9, 12, 1,
     { block := 0, lane := 3, die := 1, entry := { id := 4, kind := .copyRead, cls := .distance, zk := zk0 1, pos := 4 }, off := 0, decoder := some 2 }, { wk with dies := [(25, { st := .idle, reloc := some (zk0 1, 4, 9, 12, 1), copyWait := 2 })], work := { wk.work with decodes := [(9, some { block := 0, lane := 3, die := 1, entry := { id := 4, kind := .copyRead, cls := .distance, zk := zk0 1, pos := 4 }, off := 0, decoder := some 2 })] } }, by decide +kernel⟩,
   ⟨9, 2, 5, true,
     { block := 0, lane := 3, die := 1, entry := { id := 4, kind := .copyRead, cls := .distance, zk := zk0 1, pos := 4 }, off := 0, decoder := some 2 }, { wk with dies := [(25, { st := .idle, reloc := some (zk0 1, 4, 9, 12, 1), copyWait := 2 })], work := { wk.work with decodes := [(9, some { block := 0, lane := 3, die := 1, entry := { id := 4, kind := .copyRead, cls := .distance, zk := zk0 1, pos := 4 }, off := 0, decoder := some 2 })] } }, room (by decide +kernel), by decide +kernel⟩⟩

/-- States and operands that meet the hypotheses of `DecodesAndParityJobsEnd`, clause by clause. -/
theorem witness_DecodesAndParityJobsEnd_2 :
    (∃ (b : Nat) (j : Nat) (bits : Nat) (ok : Bool) (fcrc : Bool) (s : State), (∀ x, s.decodeAt j = some x → x.block ≠ b ∨ x.decoder = none)) ∧
    (∃ (j : Nat) (n : Nat) (cls : Cls) (x : Rebuild) (r : Refill) (s : State), s.parityJobAt j = some (.rebuild n cls) ∧
      s.work.parityRun.any (fun p => p.2 == some j) = true ∧ x.off < (s.zone x.zk).filled ∧ (s.ns (nsOfKey x.zk)).victim ≠ some x.zk ∧
      s.rebuildAt n = some x ∧ x.ctx = 0 ∧ (s.zone x.zk).refills = [r] ∧ r.pos = x.pos ∧ r.filled = false ∧ r.offset (s.zone x.zk) = x.off ∧
      r.frames % 16 < 15 ∧ r.frames + 1 < 16 * ceilDiv (s.zone x.zk).filled 256) ∧
    (∃ (j : Nat) (zk : Nat) (row : Nat) (part : Nat) (r : Row) (s : State), s.parityJobAt j = some (.quarter zk row part) ∧
      s.work.parityRun.any (fun p => p.2 == some j) = true ∧ s.stagedRow zk row = some r ∧ part ∉ r.folded ∧ r.folded.length < 3) ∧
    (∃ (j : Nat) (zk : Nat) (row : Nat) (part : Nat) (r : Row) (s : State), s.parityJobAt j = some (.quarter zk row part) ∧
      s.work.parityRun.any (fun p => p.2 == some j) = true ∧ s.stagedRow zk row = some r ∧ part ∉ r.folded ∧ r.folded.length = 3) ∧
    (∃ (j : Nat) (zk : Nat) (row : Nat) (r : Row) (f : Fence) (h : Hdr) (s : State), s.parityJobAt j = some (.final zk row) ∧
      s.work.parityRun.any (fun p => p.2 == some j) = true ∧ s.stagedRow zk row = some r ∧ (s.zone zk).fence = some f ∧ f.finish = true ∧
      (s.zone zk).st = .full ∧ f.hdr = some h ∧ s.muted h = false) ∧
    (∃ (j : Nat) (zk : Nat) (row : Nat) (l : Landing) (s : State), s.work.parities = [(j, some (.topUp zk row))] ∧
      s.work.parityRun.any (fun p => p.2 == some j) = true ∧ s.power.landing = some l) ∧
    (∃ (j : Nat) (n : Nat) (cls : Cls) (s : State), s.parityJobAt j = some (.rebuild n cls) ∧ s.work.parityRun.any (fun p => p.2 == some j) = true ∧
      s.rebuildAt n = none) ∧
    (∃ (j : Nat) (s : State), (s.parityJobAt j = none ∨ s.work.parityRun.any (fun p => p.2 == some j) = false)) :=
  ⟨⟨0, 9, 0, true, true, wk, none_of rfl⟩,
   ⟨1, 0, .distance, ⟨0, .distance, zk0 1, 0, [], [], false, 0⟩, ⟨0, 0, 0, true, false⟩, let s := withPar (wn [(zk0 1, { openZ with refills := [⟨0, 0, 0, true, false⟩] })]) (.rebuild 0 .distance); { s with work := { s.work with rebuilds := [(0, some ⟨0, .distance, zk0 1, 0, [], [], false, 0⟩)] } }, by decide +kernel⟩,
   ⟨1, zk0 1, 0, 1, { zk := zk0 1, row := 0, tenant := 0, staged := 1 }, withPar wd1 (.quarter (zk0 1) 0 1), by decide +kernel⟩,
   ⟨1, zk0 1, 0, 1, { zk := zk0 1, row := 0, tenant := 0, staged := 1, folded := [0, 2, 3], quarters := 3 }, let s := withPar wd1 (.quarter (zk0 1) 0 1); { s with work := { s.work with rows := [{ zk := zk0 1, row := 0, tenant := 0, staged := 1, folded := [0, 2, 3], quarters := 3 }] } }, by decide +kernel⟩,
   ⟨1, zk0 1, 0, { zk := zk0 1, row := 0, tenant := 0, staged := 1 }, ff, io 1, withPar (withRow (wn [(zk0 1,
     { openZ with st := .full, fence := some ff, padFrom := some 2 })]) 1) (.final (zk0 1) 0), by decide +kernel⟩,
   ⟨1, zk0 1, 0, ⟨.homestretch, 0, 0, 0, 0, false, [], [], [], .stride, none⟩, withL (withPar wd1 (.topUp (zk0 1) 0)) ⟨.homestretch, 0, 0, 0, 0,
     false, [], [], [], .stride, none⟩, by decide +kernel⟩,
   ⟨1, 0, .distance, withPar (wn []) (.rebuild 0 .distance), by decide +kernel⟩,
   ⟨1, wk, by decide +kernel⟩⟩

/-- States and operands that meet the hypotheses of `PackedGranulesAndParcels`, clause by clause. -/
theorem witness_PackedGranulesAndParcels_1 :
    (∃ (c : Nat) (len : Nat) (e : Nat) (x : Ctx) (s : State), s.ctxAt c = some x ∧ x.kind = .packedAppend ∧ x.phase = .compressing ∧
      x.engine = some e ∧ x.grans.length + 1 < x.granules ∧ s.broker.holds (.burst c) = true ∧
      (3072 < len ∨ streamVerifies (x.dataAt x.grans.length) len = true)) ∧
    (∃ (c : Nat) (len : Nat) (e : Nat) (m : Bool) (x : Ctx) (s : State), s.roomForEvents ∧ s.ctxAt c = some x ∧ x.kind = .packedAppend ∧
      x.phase = .compressing ∧ x.engine = some e ∧ x.grans.length + 1 < x.granules ∧ s.broker.holds (.burst c) = true ∧ s.hasCompression = true ∧
      (m = true ∨ (len ≤ 3072 ∧ streamVerifies (x.dataAt x.grans.length) len = false)) ∧ (s.rgn (e / 4)).mismatches = [] ∧
      1 < s.cfg .cmpCfg 0 23 20) ∧
    (∃ (c : Nat) (len : Nat) (m : Bool) (s : State), (∀ x,
      s.ctxAt c = some x → x.kind ≠ .packedAppend ∨ x.phase ≠ .compressing ∨ x.engine = none ∨ x.granules ≤ x.grans.length ∨ s.broker.holds (.burst c) = false)) ∧
    (∃ (c : Nat) (e : Nat) (b : Block) (x : Ctx) (s : State), s.ctxAt c = some x ∧ x.kind = .packedRead ∧ x.phase = .compressing ∧
      x.engine = some e ∧ x.grans.length + 1 < x.granules ∧ x.nextGranule = (.ok, b)) ∧
    (∃ (k : Nat) (x : Ctx), x.sizes.getD x.grans.length (0, 1) = (k, 4) ∧
      granuleCrc (x.rawGranule k) = headField (x.dataAt 0) (32 + 4 * (x.first + x.grans.length)) 4) ∧
    (∃ (c : Nat) (e : Nat) (b : Block) (x : Ctx) (s : State), s.ctxAt c = some x ∧ x.kind = .packedRead ∧ x.phase = .compressing ∧
      x.engine = some e ∧ x.granules ≤ x.grans.length + 1 ∧ x.nextGranule = (.ok, b) ∧ x.discard = false ∧ s.muted x.hdr = false) ∧
    (∃ (c : Nat) (e : Nat) (o : GranuleOutcome) (x : Ctx) (s : State), s.roomForEvents ∧ s.ctxAt c = some x ∧ x.kind = .packedRead ∧
      x.phase = .compressing ∧ x.engine = some e ∧ o ≠ .ok ∧ x.discard = false ∧ x.deadline = none ∧ s.muted x.hdr = false ∧
      s.hasCompression = true) ∧
    (∃ (c : Nat) (e : Nat) (x : Ctx) (s : State), s.ctxAt c = some x ∧ x.kind = .packedRead ∧ x.phase = .compressing ∧ x.engine = some e ∧
      x.nextGranule.1 ≠ .ok ∧ x.discard = false ∧ s.muted x.hdr = false) :=
  ⟨⟨1, 3073, 6, pa 2, withBurst (withCx (wn [(zk0 3, { openZ with writing := [1] })]) (pa 2)), by decide +kernel⟩,
   ⟨1, 1500, 6, true, pa 2, withBurst (withCx (wn [(zk0 3, { openZ with writing := [1] })]) (pa 2)), room (by decide +kernel), by decide +kernel⟩,
   ⟨1, 1500, true, wk, none_of rfl⟩,
   ⟨1, 6, 0, px 2, withCx (wn [(zk0 3, { openZ with writing := [1] })]) (px 2), by decide +kernel⟩,
   ⟨4, px 2, by decide +kernel⟩,
   ⟨1, 6, 0, px 1, withCx (wn [(zk0 3, { openZ with writing := [1] })]) (px 1), by decide +kernel⟩,
   ⟨1, 6, .gcrc, px 1, withCx (wn [(zk0 3, { openZ with writing := [1] })]) (px 1), room (by decide +kernel), by decide +kernel⟩,
   ⟨1, 6, { px 1 with data := [] }, withCx (wn [(zk0 3, { openZ with writing := [1] })]) { px 1 with data := [] }, by decide +kernel⟩⟩

/-- States and operands that meet the hypotheses of `PackedGranulesAndParcels`, clause by clause. -/
theorem witness_PackedGranulesAndParcels_2 :
    (∃ (c : Nat) (o : GranuleOutcome) (s : State), (∀ x, s.ctxAt c = some x → x.kind ≠ .packedRead ∨ x.phase ≠ .compressing ∨ x.engine = none)) ∧
    (∃ (n : Nat) (z : Nat) (p : Parcel) (s : State), s.running = true ∧ (s.zone (zoneKey n z)).parcel = some p ∧ s.unplaced (zoneKey n z) = []) ∧
    (∃ (n : Nat) (z : Nat) (s : State), (s.running = false ∨ (s.zone (zoneKey n z)).parcel = none ∨ s.unplaced (zoneKey n z) ≠ [])) :=
  ⟨⟨1, .ok, wk, none_of rfl⟩,
   ⟨3, 0, ⟨[⟨5, 900, 1⟩], [], 0, 0⟩, wn [(zk0 3, { openZ with parcel := some ⟨[⟨5, 900, 1⟩], [], 0, 0⟩ })], by decide +kernel⟩,
   ⟨3, 0, wk, by decide +kernel⟩⟩

/-- States and operands that meet the hypotheses of `WritesAdvanceTheirZone`, clause by clause. -/
theorem witness_WritesAdvanceTheirZone_1 :
    (∃ (h : Hdr) (slba : Nat) (nlb : Nat) (zk : Nat) (s : State) (u : State), s.AtAdmission h ((s.fetchOne h).newCtx h .write slba (nlb + 1)) u ∧
      zk = zoneKey h.nsid (slba / zsze) ∧ (s.fetchOne h).precheck ((s.fetchOne h).newCtx h .write slba (nlb + 1)) = none ∧
      (s.ns h.nsid).zoned = true ∧ (u.tryIo none ((s.fetchOne h).newCtx h .write slba (nlb + 1))).1 = .go ∧ (s.zone zk).fence = none ∧
      (s.zone zk).active = true) ∧
    (∃ (h : Hdr) (slba : Nat) (nlb : Nat) (zk : Nat) (s : State) (u : State), s.AtAdmission h ((s.fetchOne h).newCtx h .append slba (nlb + 1)) u ∧
      zk = zoneKey h.nsid (slba / zsze) ∧ (s.fetchOne h).precheck ((s.fetchOne h).newCtx h .append slba (nlb + 1)) = none ∧
      (s.ns h.nsid).zoned = true ∧ (u.tryIo none ((s.fetchOne h).newCtx h .append slba (nlb + 1))).1 = .go ∧ (s.zone zk).fence = none ∧
      (s.zone zk).active = true) ∧
    (∃ (h : Hdr) (slba : Nat) (nlb : Nat) (zk : Nat) (deac : Bool) (s : State) (u : State),
      s.AtAdmission h ((s.fetchOne h).newCtx h .writeZeroes slba (nlb + 1)) u ∧ zk = zoneKey h.nsid (slba / zsze) ∧
      (s.fetchOne h).precheck ((s.fetchOne h).newCtx h .writeZeroes slba (nlb + 1)) = none ∧ (s.ns h.nsid).zoned = true ∧
      (u.tryIo none ((s.fetchOne h).newCtx h .writeZeroes slba (nlb + 1))).1 = .go ∧ (s.zone zk).fence = none ∧ (s.zone zk).active = true) ∧
    (∃ (h : Hdr) (slba : Nat) (nlb : Nat) (zk : Nat) (s : State) (u : State), s.AtAdmission h ((s.fetchOne h).newCtx h .write slba (nlb + 1)) u ∧
      zk = zoneKey h.nsid (slba / zsze) ∧ (s.fetchOne h).precheck ((s.fetchOne h).newCtx h .write slba (nlb + 1)) = none ∧
      (s.ns h.nsid).zoned = true ∧ (u.tryIo none ((s.fetchOne h).newCtx h .write slba (nlb + 1))).1 = .go ∧ (s.zone zk).fence = none ∧
      (s.zone zk).st = .empty ∧ (s.zone zk).wp = 0) ∧
    (∃ (h : Hdr) (slba : Nat) (nlb : Nat) (zk : Nat) (f : Fence) (s : State) (u : State),
      s.AtAdmission h ((s.fetchOne h).newCtx h .write slba (nlb + 1)) u ∧ zk = zoneKey h.nsid (slba / zsze) ∧
      (s.fetchOne h).precheck ((s.fetchOne h).newCtx h .write slba (nlb + 1)) = none ∧ (s.ns h.nsid).zoned = true ∧
      (u.tryIo none ((s.fetchOne h).newCtx h .write slba (nlb + 1))).1 = .go ∧ (s.zone zk).fence = some f ∧ f.finish = false) ∧
    (∃ (h : Hdr) (slba : Nat) (nlb : Nat) (s : State) (u : State), s.AtAdmission h ((s.fetchOne h).newCtx h .write slba (nlb + 1)) u ∧
      (s.fetchOne h).precheck ((s.fetchOne h).newCtx h .write slba (nlb + 1)) = none ∧ (s.ns h.nsid).zoned = false ∧
      (u.tryIo none ((s.fetchOne h).newCtx h .write slba (nlb + 1))).1 = .go) ∧
    (∃ (h : Hdr) (slba : Nat) (nlb : Nat) (x : Ctx) (s : State) (u : State), s.AtAdmission h x u ∧
      x = { (s.fetchOne h).newCtx h (.discard [(slba, nlb + 1)]) 0 0 with zeros := true } ∧ (s.fetchOne h).precheck x = none ∧
      (u.tryIo none x).1 = .go ∧ (s.ns h.nsid).zoned = false) ∧
    (∃ (h : Hdr) (slba : Nat) (ng : Nat) (zk : Nat) (close : Bool) (s : State) (u : State),
      s.AtAdmission h { (s.fetchOne h).newCtx h .packedAppend slba (ng % 64 + 1) with granules := ng % 64 + 1, close := close } u ∧
      zk = zoneKey h.nsid (slba / zsze) ∧ (s.fetchOne h).packedCheck h slba true = none ∧
      (u.tryPacked none { (s.fetchOne h).newCtx h .packedAppend slba (ng % 64 + 1) with granules := ng % 64 + 1, close := close }).1 = .go ∧
      (s.zone zk).fence = none ∧ (s.zone zk).active = true) :=
  ⟨⟨io 1, 2, 3, zk0 1, (wn [(zk0 1, openZ)]), tx (wn [(zk0 1, openZ)]) 1 .write 2 4,
    admission (takes (by decide +kernel)) rfl (by decide +kernel) (by decide +kernel), by decide +kernel⟩,
   ⟨io 1, 0, 3, zk0 1, (wn [(zk0 1, openZ)]), tx (wn [(zk0 1, openZ)]) 1 .append 0 4,
     admission (takes (by decide +kernel)) rfl (by decide +kernel) (by decide +kernel), by decide +kernel⟩,
   ⟨io 1, 2, 3, zk0 1, false, (wn [(zk0 1, openZ)]), tx (wn [(zk0 1, openZ)]) 1 .writeZeroes 2 4,
     admission (takes (by decide +kernel)) rfl (by decide +kernel) (by decide +kernel), by decide +kernel⟩,
   ⟨io 1, 0, 3, zk0 1, { wl0 with zones := [] }, tx ({ wl0 with zones := [] }) 1 .write 0 4,
     admission (takes (by decide +kernel)) rfl (by decide +kernel) (by decide +kernel), by decide +kernel⟩,
   ⟨io 1, 0, 3, zk0 1, fz, (wn [(zk0 1, { openZ with fence := some fz })]), tx (wn [(zk0 1, { openZ with fence := some fz })]) 1 .write 0 4,
     admission (takes (by decide +kernel)) rfl (by decide +kernel) (by decide +kernel), by decide +kernel⟩,
   ⟨io 2, 10, 3, { wl0 with zones := [] }, tx ({ wl0 with zones := [] }) 2 .write 10 4,
     admission (takes (by decide +kernel)) rfl (by decide +kernel) (by decide +kernel), by decide +kernel⟩,
   ⟨io 2, 10, 3, { nx (wn []) 2 (.discard [(10, 4)]) 0 0 with zeros := true }, wn [],
     tried (wn []) (io 2) { nx (wn []) 2 (.discard [(10, 4)]) 0 0 with zeros := true },
     admission (takes (by decide +kernel)) rfl (by decide +kernel) (by decide +kernel), by decide +kernel⟩,
   ⟨io 3, 0, 63, zk0 3, true, (wn [(zk0 3, openZ)]), tried (wn [(zk0 3,
     openZ)]) (io 3) { nx (wn [(zk0 3, openZ)]) 3 .packedAppend 0 64 with granules := 64, close := true },
     admission (takes (by decide +kernel)) rfl (by decide +kernel) (by decide +kernel), by decide +kernel⟩⟩

/-- States and operands that meet the hypotheses of `WritesAdvanceTheirZone`, clause by clause. -/
theorem witness_WritesAdvanceTheirZone_2 :
    (∃ (h : Hdr) (slba : Nat) (nlb : Nat) (data : List Block) (p : Instr × Ctx) (s : State), s.TakesIo h ∧
      p ∈ (s.fetchOne h).ioContexts h slba nlb data ∧ (s.fetchOne h).fetchStopped p.2 = false ∧ (s.fetchOne h).precheck p.2 = none ∧
      s.aon.trip = true) ∧
    (∃ (h : Hdr) (slba : Nat) (nlb : Nat) (data : List Block) (p : Instr × Ctx) (zs : List Nat) (s : State), s.TakesIo h ∧
      p ∈ (s.fetchOne h).ioContexts h slba nlb data ∧ (s.fetchOne h).fetchStopped p.2 = false ∧ (s.fetchOne h).precheck p.2 = none ∧
      s.aon.trip = false ∧ zs = (s.zonesOf { p.2 with places := s.readPlaces p.2 }).filter (fun zk => (s.zone zk).rearm != 0) ∧ zs ≠ []) ∧
    (∃ (h : Hdr) (a : Nat) (ng : Nat) (close : Bool) (p : Instr × Ctx) (s : State), s.TakesIo h ∧ p ∈ (s.fetchOne h).packedContexts h a ng close ∧
      (s.fetchOne h).fetchStopped p.2 = false ∧ (s.fetchOne h).packedCheck h p.2.slba (p.2.kind == .packedAppend) = none ∧
      (s.aon.trip = true ∨ (s.zone (zoneKey h.nsid (p.2.slba / zsze))).rearm ≠ 0)) :=
  ⟨⟨io 1, 2, 3, [], (.flushCmd (io 1), nx ((wn [(zk0 1, openZ)]).onAon fun a => { a with trip := true }) 1 .flush 0 0), (wn [(zk0 1,
    openZ)]).onAon fun a => { a with trip := true }, takes (by decide +kernel), by decide +kernel⟩,
   ⟨io 1, 2, 3, [], (.writeCmd (io 1) 2 3, nx (wn [(zk0 1, { openZ with rearm := 1 })]) 1 .write 2 4), [zk0 1], wn [(zk0 1,
     { openZ with rearm := 1 })], takes (by decide +kernel), by decide +kernel⟩,
   ⟨io 3, 0, 63, true, (.packedAppend (io 3) 0 63 true,
     { nx (wn [(zk0 3, { openZ with rearm := 1 })]) 3 .packedAppend 0 64 with granules := 64, close := true }), wn [(zk0 3,
     { openZ with rearm := 1 })], takes (by decide +kernel), by decide +kernel⟩⟩

/-- States and operands that meet the hypotheses of `ReadsAreServed`, clause by clause. -/
theorem witness_ReadsAreServed_1 :
    (∃ (h : Hdr) (slba : Nat) (nlb : Nat) (s : State) (u : State), s.AtAdmission h ((s.fetchOne h).newCtx h .read slba (nlb + 1)) u ∧ (∀ k,
      (s.zone k).fence = none) ∧ (s.fetchOne h).precheck ((s.fetchOne h).newCtx h .read slba (nlb + 1)) = none ∧
      (u.tryIo none ((s.fetchOne h).newCtx h .read slba (nlb + 1))).1 = .go ∧ (s.ctrl h.ctrl).dulbe = false ∧ (∀ i,
      i ≤ nlb → s.readPlace h.nsid (slba + i) = none)) ∧
    (∃ (h : Hdr) (slba : Nat) (nlb : Nat) (i : Nat) (s : State) (u : State), s.AtAdmission h ((s.fetchOne h).newCtx h .read slba (nlb + 1)) u ∧ (∀ k,
      (s.zone k).fence = none) ∧ (∀ k, (s.zone k).st ≠ .offline) ∧ (s.fetchOne h).precheck ((s.fetchOne h).newCtx h .read slba (nlb + 1)) = none ∧
      (s.ctrl h.ctrl).dulbe = true ∧ i ≤ nlb ∧ s.readPlace h.nsid (slba + i) = none ∧
      ((s.ns h.nsid).zoned = true → (s.zone (zoneKey h.nsid ((slba + i) / zsze))).wp ≤ (slba + i) % zsze)) ∧
    (∃ (h : Hdr) (slba : Nat) (zk : Nat) (off : Nat) (s : State) (u : State), s.AtAdmission h ((s.fetchOne h).newCtx h .read slba 1) u ∧ (∀ k,
      (s.zone k).fence = none) ∧ (s.fetchOne h).precheck ((s.fetchOne h).newCtx h .read slba 1) = none ∧
      (u.tryIo none ((s.fetchOne h).newCtx h .read slba 1)).1 = .go ∧ s.readPlace h.nsid slba = some (zk, off) ∧ s.isStaged zk off = true) ∧
    (∃ (h : Hdr) (slba : Nat) (zk : Nat) (off : Nat) (s : State) (u : State), s.AtAdmission h ((s.fetchOne h).newCtx h .read slba 1) u ∧ (∀ k,
      (s.zone k).fence = none) ∧ (s.fetchOne h).precheck ((s.fetchOne h).newCtx h .read slba 1) = none ∧
      (u.tryIo none ((s.fetchOne h).newCtx h .read slba 1)).1 = .go ∧ s.readPlace h.nsid slba = some (zk, off) ∧ s.isStaged zk off = false ∧
      s.onItsWay zk off = true) ∧
    (∃ (h : Hdr) (slba : Nat) (zk : Nat) (off : Nat) (k : Nat) (s : State) (u : State), s.AtAdmission h ((s.fetchOne h).newCtx h .read slba 1) u ∧
      (∀ k, (s.zone k).fence = none) ∧ (s.fetchOne h).precheck ((s.fetchOne h).newCtx h .read slba 1) = none ∧
      (u.tryIo none ((s.fetchOne h).newCtx h .read slba 1)).1 = .go ∧ s.readPlace h.nsid slba = some (zk, off) ∧ s.isStaged zk off = false ∧
      s.onItsWay zk off = false ∧ s.memberAt (s.zone zk) (posOfOffset (s.zone zk) off) = some k ∧ u.frameService zk off = .direct ∧
      (u.directLack k (s.classOf h false)).passes = true ∧ u.readBusy k (s.classOf h false) = false) ∧
    (∃ (h : Hdr) (slba : Nat) (nlb : Nat) (data : List Block) (s : State) (u : State),
      s.AtAdmission h { (s.fetchOne h).newCtx h .compare slba (nlb + 1) with expect := data } u ∧ (∀ k, (s.zone k).fence = none) ∧
      (s.fetchOne h).precheck { (s.fetchOne h).newCtx h .compare slba (nlb + 1) with expect := data } = none ∧
      (u.tryIo none { (s.fetchOne h).newCtx h .compare slba (nlb + 1) with expect := data }).1 = .go ∧ (∀ i,
      i ≤ nlb → s.readPlace h.nsid (slba + i) = none) ∧ (∀ i,
      i ≤ nlb → (s.ns h.nsid).zoned = true → (s.zone (zoneKey h.nsid ((slba + i) / zsze))).wp ≤ (slba + i) % zsze)) ∧
    (∃ (h : Hdr) (pga : Nat) (ng : Nat) (zk : Nat) (s : State) (u : State),
      s.AtAdmission h { (s.fetchOne h).newCtx h .packedRead (pga / 64) (ng % 64 + 1) with granules := ng % 64 + 1, first := pga % 64 } u ∧
      zk = zoneKey h.nsid (pga / 64 / zsze) ∧ (s.fetchOne h).packedCheck h (pga / 64) false = none ∧
      (u.tryPacked none { (s.fetchOne h).newCtx h .packedRead (pga / 64) (ng % 64 + 1) with granules := ng % 64 + 1, first := pga % 64 }).1 = .go ∧
      (s.zone zk).fence = none ∧ s.isStaged zk (pga / 64 % zsze) = true) ∧
    (∃ (h : Hdr) (pga : Nat) (ng : Nat) (zk : Nat) (s : State) (u : State),
      s.AtAdmission h { (s.fetchOne h).newCtx h .packedRead (pga / 64) (ng % 64 + 1) with granules := ng % 64 + 1, first := pga % 64 } u ∧
      zk = zoneKey h.nsid (pga / 64 / zsze) ∧ (s.fetchOne h).packedCheck h (pga / 64) false = none ∧ (s.zone zk).fence = none ∧
      (s.zone zk).st ≠ .offline ∧ (s.zone zk).filled ≤ pga / 64 % zsze) :=
  ⟨⟨io 1, 2, 3, (wn [(zk0 1, openZ)]), tx (wn [(zk0 1, openZ)]) 1 .read 2 4,
    admission (takes (by decide +kernel)) rfl (by decide +kernel) (by decide +kernel), zonesAll (·.fence = none) (by decide +kernel),
    by decide +kernel⟩,
   ⟨io 1, 2, 3, 0, { (wn [(zk0 1, openZ)]) with ctrls := [(0, { present := true, en := true, rdy := true, dulbe := true })] },
     tx ({ (wn [(zk0 1, openZ)]) with ctrls := [(0, { present := true, en := true, rdy := true, dulbe := true })] }) 1 .read 2 4,
     admission (takes (by decide +kernel)) rfl (by decide +kernel) (by decide +kernel), zonesAll (·.fence = none) (by decide +kernel),
     zonesAll (·.st ≠ .offline) (by decide +kernel), by decide +kernel⟩,
   ⟨io 1, 0, zk0 1, 0, (withRow (wn [(zk0 1, openZ)]) 1), tx (withRow (wn [(zk0 1, openZ)]) 1) 1 .read 0 1,
     admission (takes (by decide +kernel)) rfl (by decide +kernel) (by decide +kernel), zonesAll (·.fence = none) (by decide +kernel),
     by decide +kernel⟩,
   ⟨io 1, 0, zk0 1, 0, (withCx (wn [(zk0 1, { openZ with writing := [1] })]) { cx 1 .write .ciphering with places := [some (zk0 1, 0)] }),
     tx (withCx (wn [(zk0 1, { openZ with writing := [1] })]) { cx 1 .write .ciphering with places := [some (zk0 1, 0)] }) 1 .read 0 1,
     admission (takes (by decide +kernel)) rfl (by decide +kernel) (by decide +kernel), zonesAll (·.fence = none) (by decide +kernel),
     by decide +kernel⟩,
   ⟨io 1, 0, zk0 1, 0, 256, wl0, tx wl0 1 .read 0 1, admission (takes (by decide +kernel)) rfl (by decide +kernel) (by decide +kernel),
     zonesAll (·.fence = none) (by decide +kernel), by decide +kernel⟩,
   ⟨io 1, 2, 1, [0, 1], (wn [(zk0 1, openZ)]), tried (wn [(zk0 1, openZ)]) (io 1) { nx (wn [(zk0 1, openZ)]) 1 .compare 2 2 with expect := [0, 1] },
     admission (takes (by decide +kernel)) rfl (by decide +kernel) (by decide +kernel), zonesAll (·.fence = none) (by decide +kernel),
     by decide +kernel⟩,
   ⟨io 3, 5, 63, zk0 3, (withRow (wn [(zk0 3, openZ)]) 3), tried (withRow (wn [(zk0 3,
     openZ)]) 3) (io 3) { nx (withRow (wn [(zk0 3, openZ)]) 3) 3 .packedRead 0 64 with granules := 64, first := 5 },
     admission (takes (by decide +kernel)) rfl (by decide +kernel) (by decide +kernel), by decide +kernel⟩,
   ⟨io 3, 128, 0, zk0 3, (wn [(zk0 3, openZ)]), tried (wn [(zk0 3,
     openZ)]) (io 3) { nx (wn [(zk0 3, openZ)]) 3 .packedRead 2 1 with granules := 1, first := 0 },
     admission (takes (by decide +kernel)) rfl (by decide +kernel) (by decide +kernel), by decide +kernel⟩⟩

/-- States and operands that meet the hypotheses of `ReadsAreServed`, clause by clause. -/
theorem witness_ReadsAreServed_2 :
    (∃ (h : Hdr) (slba : Nat) (nlb : Nat) (s : State) (u : State), s.AtAdmission h ((s.fetchOne h).newCtx h .read slba (nlb + 1)) u ∧
      (s.fetchOne h).precheck ((s.fetchOne h).newCtx h .read slba (nlb + 1)) = none ∧ (s.ns h.nsid).zoned = true ∧
      (s.zone (zoneKey h.nsid (slba / zsze))).st = .offline) ∧
    (∃ (h : Hdr) (pga : Nat) (ng : Nat) (s : State) (u : State),
      s.AtAdmission h { (s.fetchOne h).newCtx h .packedRead (pga / 64) (ng % 64 + 1) with granules := ng % 64 + 1, first := pga % 64 } u ∧
      (s.fetchOne h).packedCheck h (pga / 64) false = none ∧ (s.zone (zoneKey h.nsid (pga / 64 / zsze))).st = .offline) ∧
    (∃ (h : Hdr) (slba : Nat) (zk : Nat) (f : Fence) (s : State) (u : State), s.AtAdmission h ((s.fetchOne h).newCtx h .read slba 1) u ∧
      zk = zoneKey h.nsid (slba / zsze) ∧ (s.fetchOne h).precheck ((s.fetchOne h).newCtx h .read slba 1) = none ∧ (s.ns h.nsid).zoned = true ∧
      (u.tryIo none ((s.fetchOne h).newCtx h .read slba 1)).1 = .go ∧ (s.zone zk).fence = some f ∧ f.finish = false) :=
  ⟨⟨io 1, 0, 0, (wn [(zk0 1, { openZ with st := .offline })]), tx (wn [(zk0 1, { openZ with st := .offline })]) 1 .read 0 1,
    admission (takes (by decide +kernel)) rfl (by decide +kernel) (by decide +kernel), by decide +kernel⟩,
   ⟨io 3, 0, 0, (wn [(zk0 3, { openZ with st := .offline })]), tried (wn [(zk0 3,
     { openZ with st := .offline })]) (io 3) { nx (wn [(zk0 3, { openZ with st := .offline })]) 3 .packedRead 0 1 with granules := 1, first := 0 },
     admission (takes (by decide +kernel)) rfl (by decide +kernel) (by decide +kernel), by decide +kernel⟩,
   ⟨io 1, 0, zk0 1, fz, (wn [(zk0 1, { openZ with fence := some fz })]), tx (wn [(zk0 1, { openZ with fence := some fz })]) 1 .read 0 1,
     admission (takes (by decide +kernel)) rfl (by decide +kernel) (by decide +kernel), by decide +kernel⟩⟩

/-- States and operands that meet the hypotheses of `FlushDatasetAndCopy`, clause by clause. -/
theorem witness_FlushDatasetAndCopy :
    (∃ (h : Hdr) (s : State) (u : State), s.AtAdmission h ((s.fetchOne h).newCtx h .flush 0 0) u ∧
      (s.fetchOne h).precheck ((s.fetchOne h).newCtx h .flush 0 0) = none ∧ (u.tryIo none ((s.fetchOne h).newCtx h .flush 0 0)).1 = .go) ∧
    (∃ (h : Hdr) (st : Status) (s : State), s.TakesIo h ∧ (s.fetchOne h).fetchStopped ((s.fetchOne h).newCtx h .flush 0 0) = false ∧
      s.nsRefusal h = some st) ∧
    (∃ (h : Hdr) (rs : List (Nat × Nat)) (x : Ctx) (s : State) (u : State), s.AtAdmission h x u ∧
      x = { (s.fetchOne h).newCtx h (.discard rs) 0 0 with cls := (s.fetchOne h).classOf h true } ∧ (s.fetchOne h).precheck x = none ∧
      (u.tryIo none x).1 = .go ∧ (s.ns h.nsid).zoned = false) ∧
    (∃ (h : Hdr) (rs : List (Nat × Nat)) (x : Ctx) (s : State) (u : State), s.AtAdmission h x u ∧
      x = { (s.fetchOne h).newCtx h (.discard []) 0 0 with cls := (s.fetchOne h).classOf h true } ∧
      (s.fetchOne h).precheck { x with kind := .discard rs } = none ∧ (u.tryIo none x).1 = .go) ∧
    (∃ (h : Hdr) (d : Bool) (rs : List (Nat × Nat)) (st : Status) (x : Ctx) (s : State), s.TakesIo h ∧
      x = { (s.fetchOne h).newCtx h (.discard rs) 0 0 with cls := (s.fetchOne h).classOf h true } ∧ (s.fetchOne h).precheck x = some st) ∧
    (∃ (h : Hdr) (d : Nat) (rs : List (Nat × Nat)) (s : State), s.TakesIo h ∧ s.nsRefusal h = none ∧ (s.ns h.nsid).zoned = true ∧
      (s.ns h.nsid).packed = false) ∧
    (∃ (h : Hdr) (d : Nat) (a : Nat) (n : Nat) (s : State), s.TakesIo h ∧ s.nsRefusal h = none ∧ (s.ns h.nsid).zoned = false ∧
      (s.ns h.nsid).packed = false ∧ h.unsupported = false ∧ s.keyAvailable h.nsid = true ∧ n ≤ 1) ∧
    (∃ (h : Hdr) (a : Nat) (d : Nat) (s : State) (u : State), s.AtAdmission h { (s.fetchOne h).newCtx h .copy a 1 with lbas := [a], target := d } u ∧
      (s.ns h.nsid).zoned = false ∧ (s.fetchOne h).precheck { (s.fetchOne h).newCtx h .copy a 1 with lbas := [a], target := d } = none ∧
      (u.tryIo none { (s.fetchOne h).newCtx h .copy a 1 with lbas := [a], target := d }).1 = .go ∧ a < (s.ns h.nsid).lbas ∧ d < (s.ns h.nsid).lbas ∧
      Tbl.look 0 (s.ns h.nsid).fwd a = 0) :=
  ⟨⟨io 1, (wn [(zk0 1, openZ)]), tx (wn [(zk0 1, openZ)]) 1 .flush 0 0,
    admission (takes (by decide +kernel)) rfl (by decide +kernel) (by decide +kernel), by decide +kernel⟩,
   ⟨io 9, .invalidNamespace, (wn [(zk0 1, openZ)]), takes (by decide +kernel), by decide +kernel⟩,
   ⟨io 2, [(10, 4)], { nx (wn []) 2 (.discard [(10, 4)]) 0 0 with cls := ((wn []).fetchOne (io 2)).classOf (io 2) true }, wn [],
     tried (wn []) (io 2) { nx (wn []) 2 (.discard [(10, 4)]) 0 0 with cls := ((wn []).fetchOne (io 2)).classOf (io 2) true },
     admission (takes (by decide +kernel)) rfl (by decide +kernel) (by decide +kernel), by decide +kernel⟩,
   ⟨io 2, [(10, 4)], { nx (wn []) 2 (.discard []) 0 0 with cls := ((wn []).fetchOne (io 2)).classOf (io 2) true }, wn [],
     tried (wn []) (io 2) { nx (wn []) 2 (.discard []) 0 0 with cls := ((wn []).fetchOne (io 2)).classOf (io 2) true },
     admission (takes (by decide +kernel)) rfl (by decide +kernel) (by decide +kernel), by decide +kernel⟩,
   ⟨io 9, true, [(10, 4)], .invalidNamespace, { nx (wn []) 9 (.discard [(10, 4)]) 0 0 with cls := ((wn []).fetchOne (io 9)).classOf (io 9) true },
     wn [], takes (by decide +kernel), by decide +kernel⟩,
   ⟨io 1, 0, [(0, 1)], wn [], takes (by decide +kernel), by decide +kernel⟩,
   ⟨io 2, 5, 2000, 1, wn [], takes (by decide +kernel), by decide +kernel⟩,
   ⟨io 2, 5, 10, wn [], tried (wn []) (io 2) { nx (wn []) 2 .copy 5 1 with lbas := [5], target := 10 },
     admission (takes (by decide +kernel)) rfl (by decide +kernel) (by decide +kernel), by decide +kernel⟩⟩

/-- States and operands that meet the hypotheses of `DiscardChangesNoZone`, clause by clause. -/
theorem witness_DiscardChangesNoZone :
    (∃ (h : Hdr) (d : Bool) (rs : List (Nat × Nat)) (x : Ctx) (s : State) (u : State), s.AtAdmission h x u ∧
      x = { (s.fetchOne h).newCtx h (.discard (if d then rs else [])) 0 0 with cls := (s.fetchOne h).classOf h true } ∧
      (s.fetchOne h).precheck { x with kind := .discard rs } = none ∧ (u.tryIo none x).1 = .go ∧ (s.ns h.nsid).zoned = true) :=
  ⟨io 1, true, [(10, 4)], { nx (wn []) 1 (.discard [(10, 4)]) 0 0 with cls := ((wn []).fetchOne (io 1)).classOf (io 1) true }, wn [],
    tried (wn []) (io 1) { nx (wn []) 1 (.discard [(10, 4)]) 0 0 with cls := ((wn []).fetchOne (io 1)).classOf (io 1) true },
    admission (takes (by decide +kernel)) rfl (by decide +kernel) (by decide +kernel), by decide +kernel⟩

/-- States and operands that meet the hypotheses of `ZoneActionsFollowTheirTable`, clause by clause. -/
theorem witness_ZoneActionsFollowTheirTable_1 :
    (∃ (h : Hdr) (slba : Nat) (zk : Nat) (s : State), s.AtManage h slba true ∧ zk = zoneKey h.nsid (slba / zsze) ∧ (s.zone zk).busy = false ∧
      (s.zone zk).active = true) ∧
    (∃ (h : Hdr) (slba : Nat) (zk : Nat) (s : State), s.AtManage h slba true ∧ zk = zoneKey h.nsid (slba / zsze) ∧ (s.zone zk).busy = false ∧
      (s.zone zk).st = .empty ∧ (s.stripe (s.placeSet (nsOfKey zk) (zoneOfKey zk))).degraded = false ∧
      s.mayActivate (s.ns (nsOfKey zk)).tenant = true ∧
      (((s.fetchOne h).each ((s.fetchOne h).writeStewards h zk) fun p s => s.bookSteward p.1 p.2).openZone h zk).1 = .go) ∧
    (∃ (h : Hdr) (slba : Nat) (zk : Nat) (s : State), s.AtManage h slba true ∧ zk = zoneKey h.nsid (slba / zsze) ∧ (s.zone zk).busy = false ∧
      (s.zone zk).st = .empty) ∧
    (∃ (h : Hdr) (slba : Nat) (zk : Nat) (s : State), s.AtManage h slba true ∧ zk = zoneKey h.nsid (slba / zsze) ∧ (s.zone zk).busy = false ∧
      ((s.zone zk).st = .implicitOpen ∨ (s.zone zk).st = .explicitOpen) ∧ ((s.zone zk).packed = false ∨ ((s.zone zk).writing = [] ∧
      (s.zone zk).parcel = none))) ∧
    (∃ (h : Hdr) (slba : Nat) (zk : Nat) (s : State), s.AtManage h slba true ∧ zk = zoneKey h.nsid (slba / zsze) ∧ (s.zone zk).busy = false ∧
      ((s.zone zk).st = .implicitOpen ∨ (s.zone zk).st = .explicitOpen) ∧ (s.zone zk).packed = true ∧ (s.zone zk).writing ≠ [] ∧
      (s.zone zk).parcel = none) ∧
    (∃ (h : Hdr) (slba : Nat) (zk : Nat) (s : State), s.AtManage h slba true ∧ zk = zoneKey h.nsid (slba / zsze) ∧ (s.zone zk).busy = false ∧
      (s.zone zk).st = .closed) ∧
    (∃ (h : Hdr) (slba : Nat) (zk : Nat) (s : State), s.AtManage h slba true ∧ zk = zoneKey h.nsid (slba / zsze) ∧ (s.zone zk).busy = false ∧
      (s.zone zk).st = .readOnly) ∧
    (∃ (h : Hdr) (slba : Nat) (zk : Nat) (p : Instr × ZoneAct) (s : State), s.AtManage h slba true ∧ zk = zoneKey h.nsid (slba / zsze) ∧
      p ∈ zoneActions h slba ∧ (s.zone zk).busy = false ∧ (s.zone zk).st = .offline) :=
  ⟨⟨io 1, 0, zk0 1, wzs .closed, manage (takes (by decide +kernel)) (by decide +kernel) (by decide +kernel), by decide +kernel⟩,
   ⟨io 1, 0, zk0 1, { wl0 with zones := [] }, manage (takes (by decide +kernel)) (by decide +kernel) (by decide +kernel), by decide +kernel⟩,
   ⟨io 1, 0, zk0 1, wn [], manage (takes (by decide +kernel)) (by decide +kernel) (by decide +kernel), by decide +kernel⟩,
   ⟨io 1, 0, zk0 1, wz openZ, manage (takes (by decide +kernel)) (by decide +kernel) (by decide +kernel), by decide +kernel⟩,
   ⟨io 3, 0, zk0 3, wn [(zk0 3, { openZ with packed := true, writing := [4] })],
     manage (takes (by decide +kernel)) (by decide +kernel) (by decide +kernel), by decide +kernel⟩,
   ⟨io 1, 0, zk0 1, wzs .closed, manage (takes (by decide +kernel)) (by decide +kernel) (by decide +kernel), by decide +kernel⟩,
   ⟨io 1, 0, zk0 1, wzs .readOnly, manage (takes (by decide +kernel)) (by decide +kernel) (by decide +kernel), by decide +kernel⟩,
   ⟨io 1, 0, zk0 1, (.zoneClose (io 1) 0, .close), wzs .offline, manage (takes (by decide +kernel)) (by decide +kernel) (by decide +kernel),
     by decide +kernel⟩⟩

/-- States and operands that meet the hypotheses of `ZoneActionsFollowTheirTable`, clause by clause. -/
theorem witness_ZoneActionsFollowTheirTable_2 :
    (∃ (h : Hdr) (slba : Nat) (zk : Nat) (p : Instr × ZoneAct) (s : State), s.AtManage h slba true ∧ zk = zoneKey h.nsid (slba / zsze) ∧
      p ∈ zoneActions h slba ∧ (s.zone zk).busy = false ∧ ((p.2 ≠ .offline ∧
      (s.zone zk).st = .readOnly) ∨ ((p.2 = .openZone ∨ p.2 = .close ∨ p.2 = .offline) ∧ (s.zone zk).st = .full) ∨ ((p.2 = .close ∨ p.2 = .offline) ∧
      (s.zone zk).st = .empty) ∨ (p.2 = .offline ∧ (s.zone zk).active = true))) ∧
    (∃ (h : Hdr) (slba : Nat) (p : Instr × ZoneAct) (st : Status) (s : State), s.TakesIo h ∧ p ∈ zoneActions h slba ∧
      s.manageCheck h slba true = some st) ∧
    (∃ (h : Hdr) (slba : Nat) (f : Nat) (n : Nat) (b : Bool) (st : Status) (s : State), s.TakesIo h ∧ s.manageCheck h slba false = some st) ∧
    (∃ (h : Hdr) (st : Status) (s : State), s.TakesIo h ∧ s.manageCheck h 0 false = some st) ∧
    (∃ (h : Hdr) (slba : Nat) (f : Nat) (n : Nat) (b : Bool) (c : Instr) (s : State), s.TakesIo h ∧ c ∈ [Instr.zoneResetAll h,
      .reportZones h slba ⟨f, b⟩ n] ∧ s.manageCheck h 0 false = none ∧ s.manageCheck h slba false = none ∧ s.aon.trip = true) ∧
    (∃ (h : Hdr) (slba : Nat) (zk : Nat) (p : Instr × ZoneAct) (s : State), s.TakesIo h ∧ zk = zoneKey h.nsid (slba / zsze) ∧
      p ∈ zoneActions h slba ∧ s.manageCheck h slba true = none ∧ (s.aon.trip = true ∨ (s.zone zk).rearm ≠ 0)) ∧
    (∃ (h : Hdr) (zs : List Nat) (s : State), s.TakesIo h ∧ s.manageCheck h 0 false = none ∧ s.aon.trip = false ∧
      zs = (s.resettable h.nsid).filter (fun zk => (s.zone zk).rearm != 0) ∧ zs ≠ []) ∧
    (∃ (h : Hdr) (slba : Nat) (zk : Nat) (p : Instr × ZoneAct) (s : State), s.AtManage h slba true ∧ zk = zoneKey h.nsid (slba / zsze) ∧
      p ∈ zoneActions h slba ∧ (s.zone zk).busy = true) :=
  ⟨⟨io 1, 0, zk0 1, (.zoneOpen (io 1) 0, .openZone), wzs .full, manage (takes (by decide +kernel)) (by decide +kernel) (by decide +kernel),
    by decide +kernel⟩,
   ⟨io 1, 5, (.zoneOpen (io 1) 5, .openZone), .invalidField, wz openZ, takes (by decide +kernel), by decide +kernel⟩,
   ⟨io 9, 0, 0, 4, true, .invalidNamespace, wz openZ, takes (by decide +kernel), by decide +kernel⟩,
   ⟨io 9, .invalidNamespace, wz openZ, takes (by decide +kernel), by decide +kernel⟩,
   ⟨io 1, 0, 0, 4, true, .zoneResetAll (io 1), (wz openZ).onAon fun a => { a with trip := true }, takes (by decide +kernel), by decide +kernel⟩,
   ⟨io 1, 0, zk0 1, (.zoneReset (io 1) 0, .reset), (wz openZ).onAon fun a => { a with trip := true }, takes (by decide +kernel), by decide +kernel⟩,
   ⟨io 1, [zk0 1], wz { openZ with rearm := 1 }, takes (by decide +kernel), by decide +kernel⟩,
   ⟨io 1, 0, zk0 1, (.zoneReset (io 1) 0, .reset), wz { openZ with fence := some fz },
     manage (takes (by decide +kernel)) (by decide +kernel) (by decide +kernel), by decide +kernel⟩⟩

/-- States and operands that meet the hypotheses of `ZoneActionsFollowTheirTable`, clause by clause. -/
theorem witness_ZoneActionsFollowTheirTable_3 :
    (∃ (h : Hdr) (slba : Nat) (p : Instr × ZoneAct) (l : Lack) (s : State), s.TakesIo h ∧ (∀ k, (s.zone k).rearm = 0) ∧ p ∈ zoneActions h slba ∧
      s.manageCheck h slba true = none ∧ s.aon.trip = false ∧ (s.tenant (s.tenantOf h.ctrl)).heldCmds = [] ∧
      (s.tenant (s.tenantOf h.ctrl)).compat = false ∧ l = (s.fetchOne h).stewardLacks ((s.fetchOne h).writeStewards h (zonePlace h.nsid slba).1) ∧
      l.passes = false) ∧
    (∃ (h : Hdr) (slba : Nat) (f : Nat) (n : Nat) (b : Bool) (s : State), s.AtManage h slba false) ∧
    (∃ (h : Hdr) (slba : Nat) (s : State), s.TakesIo h ∧ s.nsRefusal h = none) ∧
    (∃ (h : Hdr) (slba : Nat) (st : Status) (s : State), s.TakesIo h ∧ s.nsRefusal h = some st) :=
  ⟨⟨io 1, 0, (.zoneReset (io 1) 0, .reset), let s := { wz openZ with rgns := (List.range 4).map fun g => (g, { busy0 := 6000000000000, busy1 := 6000000000000 }) }; (s.fetchOne (io 1)).stewardLacks ((s.fetchOne (io 1)).writeStewards (io 1) (zk0 1)), { wz openZ with rgns := (List.range 4).map fun g => (g, { busy0 := 6000000000000, busy1 := 6000000000000 }) }, takes (by decide +kernel), zonesAll (·.rearm = 0) (by decide +kernel), by decide +kernel⟩,
   ⟨io 1, 0, 0, 4, true, wz openZ, manage (takes (by decide +kernel)) (by decide +kernel) (by decide +kernel)⟩,
   ⟨io 1, 0, wn [], takes (by decide +kernel), by decide +kernel⟩,
   ⟨io 9, 0, .invalidNamespace, wz openZ, takes (by decide +kernel), by decide +kernel⟩⟩

/-- States and operands that meet the hypotheses of `FinishAndResetFences`, clause by clause. -/
theorem witness_FinishAndResetFences_1 :
    (∃ (h : Hdr) (slba : Nat) (zk : Nat) (s : State), s.AtManage h slba true ∧ zk = zoneKey h.nsid (slba / zsze) ∧ (s.zone zk).busy = false ∧
      ((s.zone zk).active = true ∨ (s.zone zk).st = .empty) ∧ (s.zone zk).writing = [] ∧ (s.zone zk).parcel = none ∧
      ((s.zone zk).wp % 256 = 0 ∨ (s.stagedRow zk (rowOf (s.zone zk).wp)).isNone = true) ∧ (s.zone zk).relocTgt = none) ∧
    (∃ (h : Hdr) (slba : Nat) (zk : Nat) (s : State), s.AtManage h slba true ∧ zk = zoneKey h.nsid (slba / zsze) ∧ (s.zone zk).busy = false ∧
      (s.zone zk).active = true ∧ (s.zone zk).writing = [] ∧ (s.zone zk).parcel = none ∧ (s.zone zk).wp % 256 ≠ 0 ∧
      (s.stagedRow zk (rowOf (s.zone zk).wp)).isSome = true ∧ (s.zone zk).relocTgt = none) ∧
    (∃ (h : Hdr) (slba : Nat) (zk : Nat) (s : State), s.AtManage h slba true ∧ zk = zoneKey h.nsid (slba / zsze) ∧ (s.zone zk).busy = false ∧
      (s.zone zk).active = true ∧ (s.zone zk).writing ≠ [] ∧ (s.zone zk).parcel = none ∧ s.unplaced zk = []) ∧
    (∃ (h : Hdr) (slba : Nat) (zk : Nat) (s : State), s.AtManage h slba true ∧ zk = zoneKey h.nsid (slba / zsze) ∧ (s.zone zk).busy = false ∧
      (s.zone zk).st = .full) ∧
    (∃ (h : Hdr) (slba : Nat) (zk : Nat) (s : State), s.AtManage h slba true ∧ zk = zoneKey h.nsid (slba / zsze) ∧ (s.zone zk).busy = false ∧
      ((s.zone zk).active = true ∨ (s.zone zk).st = .full) ∧ (s.zone zk).parcel = none ∧ s.unplaced zk = []) ∧
    (∃ (h : Hdr) (slba : Nat) (zk : Nat) (s : State), s.AtManage h slba true ∧ zk = zoneKey h.nsid (slba / zsze) ∧ (s.zone zk).busy = false ∧
      (s.zone zk).st = .empty) ∧
    (∃ (h : Hdr) (s : State), s.AtManage h 0 false ∧ (∀ k, (s.zone k).busy = false) ∧ (∀ k, (s.zone k).parcel = none) ∧ (∀ k, s.unplaced k = []) ∧
      (∀ k, s.windowsOf k = []) ∧ s.resettable h.nsid ≠ []) ∧
    (∃ (h : Hdr) (s : State), s.AtManage h 0 false ∧ s.resettable h.nsid = []) :=
  ⟨⟨io 1, 0, zk0 1, wz { openZ with wp := 512 }, manage (takes (by decide +kernel)) (by decide +kernel) (by decide +kernel), by decide +kernel⟩,
   ⟨io 1, 0, zk0 1, wd1, manage (takes (by decide +kernel)) (by decide +kernel) (by decide +kernel), by decide +kernel⟩,
   ⟨io 1, 0, zk0 1, wz { openZ with writing := [4] }, manage (takes (by decide +kernel)) (by decide +kernel) (by decide +kernel), by decide +kernel⟩,
   ⟨io 1, 0, zk0 1, wzs .full, manage (takes (by decide +kernel)) (by decide +kernel) (by decide +kernel), by decide +kernel⟩,
   ⟨io 1, 0, zk0 1, wz openZ, manage (takes (by decide +kernel)) (by decide +kernel) (by decide +kernel), by decide +kernel⟩,
   ⟨io 1, 0, zk0 1, wn [], manage (takes (by decide +kernel)) (by decide +kernel) (by decide +kernel), by decide +kernel⟩,
   ⟨io 1, wz openZ, manage (takes (by decide +kernel)) (by decide +kernel) (by decide +kernel), zonesAll (·.busy = false) (by decide +kernel),
     zonesAll (·.parcel = none) (by decide +kernel), unplacedNone (by decide +kernel), fun _ => rfl, by decide +kernel⟩,
   ⟨io 1, wn [(zk0 3, openZ)], manage (takes (by decide +kernel)) (by decide +kernel) (by decide +kernel), by decide +kernel⟩⟩

/-- States and operands that meet the hypotheses of `FinishAndResetFences`, clause by clause. -/
theorem witness_FinishAndResetFences_2 :
    (∃ (h : Hdr) (n : Nat) (z : Nat) (w : Nat) (zk : Nat) (due : Option Nat) (s : State), zk = zoneKey n z ∧ s.running = true ∧
      (s.zone zk).fence = some ⟨false, some h, false, w, [], 0, [], [], due⟩ ∧ (s.zone zk).writing = [] ∧ (s.zone zk).waiting = [] ∧
      (s.zone zk).st ≠ .offline ∧ (s.zone zk).st ≠ .readOnly ∧ s.muted h = false) ∧
    (∃ (n : Nat) (z : Nat) (zk : Nat) (f : Fence) (s : State), zk = zoneKey n z ∧ s.running = true ∧ (s.zone zk).fence = some f ∧ f.finish = false ∧
      f.behind ≠ [] ∧ (s.zone zk).writing = [] ∧ (s.zone zk).waiting = [] ∧ (s.zone zk).packed = false ∧ (s.zone zk).st ≠ .offline ∧
      (s.zone zk).st ≠ .readOnly) ∧
    (∃ (h : Hdr) (n : Nat) (z : Nat) (w : Nat) (zk : Nat) (due : Option Nat) (s : State), zk = zoneKey n z ∧ s.running = true ∧
      (s.zone zk).fence = some ⟨false, some h, true, w, [], 0, [], [], due⟩ ∧ (s.zone zk).writing = [] ∧ (s.zone zk).waiting = [] ∧
      (s.zone zk).st ≠ .offline ∧ (s.zone zk).st ≠ .readOnly ∧ s.muted h = false ∧ s.work.selectAll = [(h, [zk], [])]) ∧
    (∃ (h : Hdr) (n : Nat) (z : Nat) (w : Nat) (zk : Nat) (k : Nat) (due : Option Nat) (s : State), zk = zoneKey n z ∧ s.running = true ∧
      (s.zone zk).fence = some ⟨false, some h, true, w, [], 0, [], [], due⟩ ∧ (s.zone zk).writing = [] ∧ (s.zone zk).waiting = [] ∧
      (s.zone zk).st ≠ .offline ∧ (s.zone zk).st ≠ .readOnly ∧ k ≠ zk ∧ s.work.selectAll = [(h, [zk, k], [])]) ∧
    (∃ (h : Hdr) (n : Nat) (z : Nat) (zk : Nat) (f : Fence) (s : State), zk = zoneKey n z ∧ s.running = true ∧ (s.zone zk).fence = some f ∧
      f.hdr = some h ∧ f.all = false ∧ f.behind = [] ∧ f.heldReads = [] ∧ f.newDblk = [] ∧ (s.zone zk).writing = [] ∧ (s.zone zk).waiting = [] ∧
      s.muted h = false ∧ ((s.zone zk).st = .offline ∨ (s.zone zk).st = .readOnly)) ∧
    (∃ (n : Nat) (z : Nat) (zk : Nat) (s : State), zk = zoneKey n z ∧ (s.running = false ∨ ((s.zone zk).waiting = [] ∧
      ((s.zone zk).fence = none ∨ (s.zone zk).writing ≠ [])))) :=
  ⟨⟨io 1, 1, 0, 0, zk0 1, none, wz { openZ with fence := some (fn false) }, by decide +kernel⟩,
   ⟨1, 0, zk0 1, { fn false with behind := [4], pendingWp := 3, newDblk := List.replicate 18 1 },
     wz { openZ with fence := some { fn false with behind := [4], pendingWp := 3, newDblk := List.replicate 18 1 } }, by decide +kernel⟩,
   ⟨io 1, 1, 0, 0, zk0 1, none, let s := wz { openZ with fence := some (fn true) }; { s with work := { s.work with selectAll := [(io 1, [zk0 1], [])] } }, by decide +kernel⟩,
   ⟨io 1, 1, 0, 0, zk0 1, zk0 1 + 1, none, let s := wz { openZ with fence := some (fn true) }; { s with work := { s.work with selectAll := [(io 1, [zk0 1, zk0 1 + 1], [])] } }, by decide +kernel⟩,
   ⟨io 1, 1, 0, zk0 1, fn false, wz { openZ with st := .offline, fence := some (fn false) }, by decide +kernel⟩,
   ⟨1, 0, zk0 1, wz { openZ with fence := some (fn false), writing := [4] }, by decide +kernel⟩⟩

/-- States and operands that meet the hypotheses of `ZoneAgesAndRearm`, clause by clause. -/
theorem witness_ZoneAgesAndRearm_1 :
    (∃ (n : Nat) (z : Nat) (zk : Nat) (s : State), zk = zoneKey n z ∧ s.running = true ∧ (s.zone zk).active = true ∧
      s.cfg .chipZonePolicy 0 31 24 ≠ 0) ∧
    (∃ (n : Nat) (z : Nat) (s : State), (s.running = false ∨ s.cfg .chipZonePolicy 0 31 24 = 0 ∨ (s.zone (zoneKey n z)).active = false)) ∧
    (∃ (n : Nat) (z : Nat) (zk : Nat) (s : State), (∀ u, (s.tenant u).logging = false) ∧ s.roomForEvents ∧ zk = zoneKey n z ∧ s.running = true ∧
      (s.zone zk).active = true ∧ (s.zone zk).ru = false ∧ (s.zone zk).fence = none ∧ s.cfg .chipZonePolicy 0 23 16 ≠ 0 ∧ (s.zone zk).writing = [] ∧
      (s.zone zk).parcel = none ∧ ((s.zone zk).wp % 256 = 0 ∨ (s.stagedRow zk (rowOf (s.zone zk).wp)).isNone = true) ∧ (s.zone zk).relocTgt = none) ∧
    (∃ (n : Nat) (z : Nat) (zk : Nat) (s : State), zk = zoneKey n z ∧ s.running = true ∧ (s.zone zk).active = true ∧ (s.zone zk).ru = false ∧
      (s.zone zk).fence = none ∧ s.cfg .chipZonePolicy 0 23 16 ≠ 0 ∧ (s.zone zk).writing ≠ [] ∧ (s.zone zk).parcel = none ∧ s.unplaced zk = []) ∧
    (∃ (n : Nat) (z : Nat) (zk : Nat) (s : State), zk = zoneKey n z ∧
      (s.running = false ∨ s.cfg .chipZonePolicy 0 23 16 = 0 ∨ (s.zone zk).active = false ∨ (s.zone zk).ru = true ∨ (s.zone zk).fence.isSome = true)) ∧
    (∃ (zk : Nat) (s : State), s.running = true ∧ (s.tenant 0).ready = true ∧ s.rearmActive.length < 64 ∧ s.nextRearm = some zk) ∧
    (∃ (s : State), (s.running = false ∨ (s.tenant 0).ready = false ∨ 64 ≤ s.rearmActive.length ∨ s.nextRearm = none)) ∧
    (∃ (n : Nat) (z : Nat) (zk : Nat) (failed : List (Nat × Nat)) (data : List SeenFrame) (parity : List SeenFrame) (s : State), zk = zoneKey n z ∧
      s.running = true ∧ (s.zone zk).rearm = 2 ∧ (∀ r ∈ s.work.rows, r.zk ≠ zk)) :=
  ⟨⟨1, 0, zk0 1, wz openZ, by decide +kernel⟩,
   ⟨1, 0, wn [], by decide +kernel⟩,
   ⟨1, 0, zk0 1, wz { openZ with wp := 256 }, tenantsAll (·.logging = false) (by decide +kernel), room (by decide +kernel), by decide +kernel⟩,
   ⟨1, 0, zk0 1, wz { openZ with writing := [4] }, by decide +kernel⟩,
   ⟨1, 0, zk0 1, wn [], by decide +kernel⟩,
   ⟨zk0 1, wz { openZ with rearm := 1 }, by decide +kernel⟩,
   ⟨{ wk with tenants := [] }, by decide +kernel⟩,
   ⟨1, 0, zk0 1, [], [], [], wz { openZ with rearm := 2 }, by decide +kernel⟩⟩

/-- States and operands that meet the hypotheses of `ZoneAgesAndRearm`, clause by clause. -/
theorem witness_ZoneAgesAndRearm_2 :
    (∃ (n : Nat) (z : Nat) (zk : Nat) (failed : List (Nat × Nat)) (data : List SeenFrame) (parity : List SeenFrame) (mine : List SeenFrame) (r : Row) (f : RearmFinding) (s : State) (u : State), s.roomForEvents ∧ zk = zoneKey n z ∧ s.running = true ∧ (s.zone zk).rearm = 2 ∧ s.work.rows.filter (fun r => r.zk == zk) = [r] ∧ mine = (data ++ parity).filter (fun x => x.row == r.row && decide (x.pos < 18 ∧ x.frame < 16)) ∧ u = s.each mine (fun x s => s.seeFrame zk x) ∧ f = u.rearmFinding r (r.failedAt failed)) ∧
    (∃ (n : Nat) (z : Nat) (zk : Nat) (d : Nat) (failed : List (Nat × Nat)) (data : List SeenFrame) (parity : List SeenFrame) (mine : List SeenFrame) (r : Row) (f : RearmFinding) (s : State) (u : State), zk = zoneKey n z ∧ s.running = true ∧ (s.zone zk).rearm = 2 ∧ s.work.rows.filter (fun r => r.zk == zk) = [r] ∧ mine = (data ++ parity).filter (fun x => x.row == r.row && decide (x.pos < 18 ∧ x.frame < 16)) ∧ u = s.each mine (fun x s => s.seeFrame zk x) ∧ f = u.rearmFinding r (r.failedAt failed) ∧ f.code = 3 ∧ dataAt (s.zone zk).rot f.pos = some d) ∧
    (∃ (n : Nat) (z : Nat) (failed : List (Nat × Nat)) (data : List SeenFrame) (parity : List SeenFrame) (s : State),
      (s.running = false ∨ (s.zone (zoneKey n z)).rearm ≠ 2)) :=
  ⟨⟨1, 0, zk0 1, [], [], [], [], rr, foundF wre [] [], wre, seenU wre [], room (by decide +kernel), by decide +kernel⟩,
   ⟨1, 0, zk0 1, 3, [(0, 5)], [], [], [], rr, foundF wre [(0, 5)] [], wre, seenU wre [], by decide +kernel⟩,
   ⟨1, 0, [], [], [], wz openZ, by decide +kernel⟩⟩

/-- States and operands that meet the hypotheses of `MediaUpkeep`, clause by clause. -/
theorem witness_MediaUpkeep_1 :
    (∃ (l : Nat) (d : Nat) (zk : Nat) (pos : Nat) (r : Nat) (rest : List (Nat × Nat × Nat)) (s : State), s.running = true ∧
      (s.die (dieKey l d)).lost = false ∧ (s.die (dieKey l d)).st ≠ .absent ∧ (∀ e ∈ (s.die (dieKey l d)).queue, e.kind ≠ .patrol) ∧
      s.queueRoom (dieKey l d) = true ∧ (s.die (dieKey l d)).early = (zk, pos, r) :: rest ∧ (s.zone zk).valid = true) ∧
    (∃ (l : Nat) (d : Nat) (zk : Nat) (pos : Nat) (r : Nat) (rest : List (Nat × Nat × Nat)) (s : State), s.running = true ∧
      (s.die (dieKey l d)).lost = false ∧ (s.die (dieKey l d)).st ≠ .absent ∧ (∀ e ∈ (s.die (dieKey l d)).queue, e.kind ≠ .patrol) ∧
      s.queueRoom (dieKey l d) = true ∧ (s.die (dieKey l d)).early = (zk, pos, r) :: rest ∧ (s.zone zk).valid = false) ∧
    (∃ (l : Nat) (d : Nat) (p : Nat × Nat × Nat) (s : State), s.running = true ∧ (s.die (dieKey l d)).lost = false ∧
      (s.die (dieKey l d)).st ≠ .absent ∧ (∀ e ∈ (s.die (dieKey l d)).queue, e.kind ≠ .patrol) ∧ s.queueRoom (dieKey l d) = true ∧
      (s.die (dieKey l d)).early = [] ∧ (s.patrolPages (dieKey l d)).find? (fun p => !s.patrolled p) = some p) ∧
    (∃ (l : Nat) (d : Nat) (n : Nat) (s : State), s.roomForEvents ∧ s.running = true ∧ (s.die (dieKey l d)).lost = false ∧
      (s.die (dieKey l d)).st ≠ .absent ∧ (∀ e ∈ (s.die (dieKey l d)).queue, e.kind ≠ .patrol) ∧ s.queueRoom (dieKey l d) = true ∧
      (s.die (dieKey l d)).early = [] ∧ (s.patrolPages (dieKey l d)).find? (fun p => !s.patrolled p) = none ∧ s.patrolShare = (n, n) ∧ n ≠ 0) ∧
    (∃ (l : Nat) (d : Nat) (s : State),
      (s.running = false ∨ (s.die (dieKey l d)).lost = true ∨ (s.die (dieKey l d)).st = .absent ∨ (∃ e ∈ (s.die (dieKey l d)).queue,
      e.kind = .patrol) ∨ s.queueRoom (dieKey l d) = false)) ∧
    (∃ (n : Nat) (z : Nat) (zk : Nat) (k : Nat) (s : State), (∀ p, 0 < p → p < 18 → s.memberDie (s.zone zk) p ≠ some k) ∧ zk = zoneKey n z ∧
      s.running = true ∧ (s.zone zk).valid = true ∧ (s.zone zk).tFull ≠ 0 ∧ s.cfg .chipMediaCfg 0 7 0 ≠ 0 ∧ (s.zone zk).relocTgt = none ∧
      s.memberDie (s.zone zk) 0 = some k ∧ (s.die k).reloc = none ∧ s.freeBlocks k ≠ 0) ∧
    (∃ (n : Nat) (z : Nat) (s : State),
      (s.running = false ∨ (s.zone (zoneKey n z)).valid = false ∨ (s.zone (zoneKey n z)).tFull = 0 ∨ s.cfg .chipMediaCfg 0 7 0 = 0)) ∧
    (∃ (l : Nat) (d : Nat) (b : Nat) (zk : Nat) (pos : Nat) (s : State), s.roomForEvents ∧ s.running = true ∧
      s.unitOfBlock (dieKey l d) b = some (zk, pos) ∧ 1000 * s.cfg .chipMediaCfg 0 23 16 ≤ s.readCount (dieKey l d) b) :=
  ⟨⟨0, 0, zk0 1, 0, 5, [], { wz openZ with dies := [(0, { st := .idle, early := [(zk0 1, 0, 5)] })] }, by decide +kernel⟩,
   ⟨0, 0, zk0 1, 0, 5, [], { wn [] with dies := [(0, { st := .idle, early := [(zk0 1, 0, 5)] })] }, by decide +kernel⟩,
   ⟨0, 0, (zk0 1, 0, 0), wl0, by decide +kernel⟩,
   ⟨0, 0, 72,
     { wl0 with zones := [(zk0 1, { openZ with wp := 1024, patrolled := (List.range 18).map fun p => (p, 4), fine := (List.range 18).map fun p => (p, 1) })] }, room (by decide +kernel), by decide +kernel⟩,
   ⟨0, 0, { wn [] with dies := [(0, { st := .idle, queue := [qe .patrol] })] }, by decide +kernel⟩,
   ⟨1, 0, zk0 1, 0, { wl0 with zones := [(zk0 1, { openZ with st := .full, tFull := 5, wp := 1024 })] },
     (by intro p h0 h1; revert h0; revert h1; revert p; decide +kernel), by decide +kernel⟩,
   ⟨1, 0, wn [], by decide +kernel⟩,
   ⟨0, 0, 0, zk0 1, 0, { wn [(zk0 1, openZ)] with dies := [(0, { st := .idle })], store := { wk.store with readCounts := [(0, 300000)] } },
     room (by decide +kernel), by decide +kernel⟩⟩

/-- States and operands that meet the hypotheses of `MediaUpkeep`, clause by clause. -/
theorem witness_MediaUpkeep_2 :
    (∃ (l : Nat) (d : Nat) (b : Nat) (zk : Nat) (pos : Nat) (k : Nat) (s : State), s.roomForEvents ∧ s.running = true ∧
      s.unitOfBlock (dieKey l d) b = some (zk, pos) ∧ 2 * (1000 * s.cfg .chipMediaCfg 0 23 16) ≤ s.readCount (dieKey l d) b ∧
      (s.zone zk).relocTgt = none ∧ s.memberDie (s.zone zk) pos = some k ∧ (s.die k).reloc = none ∧ s.freeBlocks k ≠ 0) ∧
    (∃ (l : Nat) (d : Nat) (b : Nat) (limit : Bool) (s : State),
      (s.running = false ∨ s.unitOfBlock (dieKey l d) b = none ∨ s.readCount (dieKey l d) b < 1000 * s.cfg .chipMediaCfg 0 23 16 * (if limit then 2 else 1))) ∧
    (∃ (l : Nat) (d : Nat) (zk : Nat) (pos : Nat) (src : Nat) (tgt : Nat) (c : Nat) (s : State), s.roomForEvents ∧
      (s.die (dieKey l d)).reloc = some (zk, pos, src, tgt, c)) ∧
    (∃ (l : Nat) (d : Nat) (s : State), (s.die (dieKey l d)).reloc = none) ∧
    (∃ (set : Nat) (pos : Nat) (k : Nat) (n : Nat) (since : Nat) (s : State), s.roomForEvents ∧ (s.stripe set).rebuild = some (pos, k, n, since) ∧
      s.unitsOnSet set = []) ∧
    (∃ (set : Nat) (pos : Nat) (k : Nat) (n : Nat) (since : Nat) (zk : Nat) (s : State), (s.stripe set).rebuild = some (pos, k, n, since) ∧
      zk ∈ s.unitsOnSet set ∧ pos < 18) ∧
    (∃ (set : Nat) (s : State), (s.stripe set).rebuild = none) ∧
    (∃ (n : Nat) (zk : Nat) (s : State), s.running = true ∧ (s.ns n).present = true ∧ (s.ns n).zoned = false ∧ (s.ns n).victim = none ∧
      (s.freeUnits n ≤ 2 ∨ ((s.ns n).gcOn = true ∧ s.freeUnits n < 4)) ∧ s.chooseVictim n = some zk) :=
  ⟨⟨0, 0, 0, zk0 1, 0, 0, { wl0 with store := { wl0.store with readCounts := [(0, 700000)] } }, room (by decide +kernel), by decide +kernel⟩,
   ⟨0, 0, 0, true, wn [], by decide +kernel⟩,
   ⟨0, 0, zk0 1, 0, 0, 9, 1,
     { wn [(zk0 1, { openZ with relocating := true, relocTgt := some (0, 9) })] with dies := [(0, { st := .idle, reloc := some (zk0 1, 0, 0, 9, 1) })] }, room (by decide +kernel), by decide +kernel⟩,
   ⟨0, 0, wn [], by decide +kernel⟩,
   ⟨0, 4, 8, 0, 0, { wn [] with sets := [(0, { members := [none], was := [7], rebuild := some (4, 8, 0, 0) })] }, room (by decide +kernel),
     by decide +kernel⟩,
   ⟨0, 0, 9, 1, 0, zk0 1,
     { wl0 with zones := [(zk0 1, { openZ with wp := 1024, refills := [⟨0, 9, 64, true, true⟩], fine := (List.range 18).map fun p => (p, 1) })], sets := [(0, { members := (List.range 18).map fun p => if p = 0 then none else some (128 * p), was := (List.range 18).map fun p => 128 * p, rebuild := some (0, 9, 1, 0) })] }, by decide +kernel⟩,
   ⟨0, wn [], by decide +kernel⟩,
   ⟨2, zk0 2, wn [(zk0 2, { openZ with st := .full, ru := true }), (zk0 2 + 1, { openZ with st := .full, ru := true, validBlocks := 9 })],
     by decide +kernel⟩⟩

/-- States and operands that meet the hypotheses of `MediaUpkeep`, clause by clause. -/
theorem witness_MediaUpkeep_3 :
    (∃ (n : Nat) (s : State),
      (s.running = false ∨ (s.ns n).present = false ∨ (s.ns n).zoned = true ∨ (s.ns n).victim.isSome = true ∨ 4 ≤ s.freeUnits n ∨ (2 < s.freeUnits n ∧ (s.ns n).gcOn = false) ∨ s.chooseVictim n = none)) ∧
    (∃ (n : Nat) (zk : Nat) (s : State), (s.ns n).victim = some zk ∧ s.mappedTo n (zoneOfKey zk) = [] ∧ s.evr.queue.length < 200) ∧
    (∃ (n : Nat) (s : State), (∀ zk, (s.ns n).victim = some zk → s.mappedTo n (zoneOfKey zk) ≠ [])) ∧
    (∃ (l : Nat) (d : Nat) (b : Nat) (s : State), s.running = true ∧ (s.die (dieKey l d)).lost = false ∧ (∀ e ∈ (s.die (dieKey l d)).queue,
      e.kind = .erase → e.block ≠ b) ∧ s.queueRoom (dieKey l d) = true ∧ (∀ o,
      s.heavyOp (dieKey l d) = some o → o.entry.kind = .erase → o.entry.block ≠ b) ∧ s.blockRead (dieKey l d) b = false ∧
      (b ∈ (s.die (dieKey l d)).eraseQueue ∨ (s.isLandBlock (s.die (dieKey l d)) b = true ∧ s.landErasable (dieKey l d) b = true))) ∧
    (∃ (l : Nat) (d : Nat) (b : Nat) (s : State),
      (s.running = false ∨ (s.die (dieKey l d)).lost = true ∨ s.blockRead (dieKey l d) b = true ∨ (∃ e ∈ (s.die (dieKey l d)).queue,
      e.kind = .erase ∧ e.block = b) ∨ (∃ o, s.heavyOp (dieKey l d) = some o ∧ o.entry.kind = .erase ∧
      o.entry.block = b) ∨ s.queueRoom (dieKey l d) = false ∨ (b ∉ (s.die (dieKey l d)).eraseQueue ∧
      (s.isLandBlock (s.die (dieKey l d)) b = false ∨ s.landErasable (dieKey l d) b = false)))) ∧
    (∃ (s : State), s.running = true ∧ (∀ p ∈ s.lanes, p.2.recalWait = false)) ∧
    (∃ (n : Nat) (l : Lane) (s : State) (v : State), s.running = true ∧
      v = { s with tmk := { s.tmk with maintLevel := 10 * (s.cfg .chipRaCfg 0 19 8 : Int), maintFull := true } } ∧ s.lanes = [(n, l)] ∧
      l.recalWait = true ∧ l.st = .active ∧ l.outage = none ∧ s.broker.knows (.lane n) = false ∧ v.recalReady n = true) ∧
    (∃ (s : State), s.running = false) :=
  ⟨⟨2, wn [], by decide +kernel⟩,
   ⟨2, zk0 2,
     { wn [(zk0 2, { openZ with st := .full, ru := true })] with nss := [(2, { present := true, zoned := false, units := 4, lbas := 1000, slot := 17, victim := some (zk0 2) })] }, by decide +kernel⟩,
   ⟨2, wn [], by decide +kernel⟩,
   ⟨0, 0, 5, { wn [] with dies := [(0, { st := .idle, eraseQueue := [3, 5] })] }, by exact ⟨by decide +kernel, by decide +kernel, by decide +kernel,
     by decide +kernel, (fun o h => by cases h), by decide +kernel, Or.inl (by decide +kernel)⟩⟩,
   ⟨0, 0, 0, State.reset, by exact Or.inl (by decide +kernel)⟩,
   ⟨wk, by decide +kernel⟩,
   ⟨3, { la with recalWait := true }, wl { la with recalWait := true },
     { wl { la with recalWait := true } with tmk := { (wl {}).tmk with maintLevel := 10 * ((wl {}).cfg .chipRaCfg 0 19 8 : Int), maintFull := true } }, by decide +kernel⟩,
   ⟨State.reset, by decide +kernel⟩⟩

/-- States and operands that meet the hypotheses of `AlarmsZeroTheKeys`, clause by clause. -/
theorem witness_AlarmsZeroTheKeys :
    (∃ (x : Nat) (s : State), s.running = true ∧ x ≤ 4 ∧ (x = 2 ∨ x = 3 ∨ s.cfgBit .cphAlarmCfg 0 x = true)) ∧
    (∃ (x : Nat) (s : State), s.roomForEvents ∧ s.running = true ∧ x ≤ 4 ∧ (x = 2 ∨ x = 3 ∨ s.cfgBit .cphAlarmCfg 0 x = true) ∧
      s.ctxIds Ctx.needsKey = []) ∧
    (∃ (x : Nat) (s : State), (s.running = false ∨ 4 < x ∨ (x ≠ 2 ∧ x ≠ 3 ∧ s.cfgBit .cphAlarmCfg 0 x = false))) ∧
    (∃ (s : State), s.running = true ∧ s.cph.erasing = true) ∧
    (∃ (s : State), (s.running = false ∨ s.cph.erasing = false)) ∧
    (∃ (x : Nat) (s : State), s.roomForEvents ∧ s.running = true ∧ s.cph.drbgOk = true) ∧
    (∃ (x : Nat) (s : State), (s.running = false ∨ s.cph.drbgOk = false)) :=
  ⟨⟨4, wk.setCfgAt (Reg.offset .cphAlarmCfg 0) 0x1F, by decide +kernel⟩,
   ⟨3, wn [(zk0 1, openZ)], room (by decide +kernel), by decide +kernel⟩,
   ⟨5, wk, by decide +kernel⟩,
   ⟨{ wk with cph := { wk.cph with erasing := true } }, by decide +kernel⟩,
   ⟨wk, by decide +kernel⟩,
   ⟨3, rng wk, room (by decide +kernel), by decide +kernel⟩,
   ⟨3, wk, by decide +kernel⟩⟩

/-- States and operands that meet the hypotheses of `FormatAndSanitizeErase`, clause by clause. -/
theorem witness_FormatAndSanitizeErase_1 :
    (∃ (h : Hdr) (ses : Nat) (nonce : Nat) (s : State), s.TakesAdmin ruleAny h ∧ h.nsid ≠ 0xFFFFFFFF ∧ s.store.sanitize ≠ 2 ∧ ses ≤ 2 ∧
      (s.ns h.nsid).present = true ∧ (s.ns h.nsid).tenant = s.tenantOf h.ctrl ∧ (s.ns h.nsid).fenced = false ∧ (ses = 0 ∨ s.cph.drbgOk = true) ∧
      s.nsBusy h.nsid = false ∧ s.fab.windows = [] ∧ s.fab.reads = [] ∧ s.work.erasures = []) ∧
    (∃ (h : Hdr) (ses : Nat) (nonce : Nat) (s : State), s.TakesAdmin ruleAny h ∧ h.nsid ≠ 0xFFFFFFFF ∧ s.store.sanitize ≠ 2 ∧ ses ≤ 2 ∧
      (s.ns h.nsid).present = true ∧ (s.ns h.nsid).tenant = s.tenantOf h.ctrl ∧ (s.ns h.nsid).fenced = false ∧ (ses = 0 ∨ s.cph.drbgOk = true) ∧
      s.nsBusy h.nsid = true ∧ s.fab.windows = [] ∧ s.fab.reads = [] ∧ s.work.erasures = []) ∧
    (∃ (h : Hdr) (ses : Nat) (nonce : Nat) (s : State), s.TakesAdmin ruleAny h ∧ s.tenantOf h.ctrl = 0 ∧ h.nsid = 0xFFFFFFFF ∧ s.store.sanitize ≠ 2 ∧
      ses ≤ 2 ∧ s.nsOf (fun n => n.tenant == 0) = [] ∧ (ses = 0 ∨ s.cph.drbgOk = true) ∧ s.work.erasures = []) ∧
    (∃ (h : Hdr) (ses : Nat) (nonce : Nat) (s : State), s.TakesAdmin ruleAny h) ∧
    (∃ (h : Hdr) (n : Nat) (nonce : Nat) (x : Ns) (s : State), s.TakesAdmin ruleAny h ∧ s.tenantOf h.ctrl = 0 ∧ s.store.sanitize ≠ 2 ∧
      s.cph.drbgOk = true ∧ s.nss = [(n, x)] ∧ x.present = true ∧ s.nsBusy n = false ∧ s.fab.windows = [] ∧ s.fab.reads = [] ∧ s.work.erasures = []) ∧
    (∃ (h : Hdr) (n : Nat) (nonce : Nat) (x : Ns) (s : State), s.TakesAdmin ruleAny h ∧ s.tenantOf h.ctrl = 0 ∧ s.store.sanitize ≠ 2 ∧
      s.cph.drbgOk = true ∧ s.nss = [(n, x)] ∧ x.present = true ∧ s.nsBusy n = true ∧ s.fab.windows = [] ∧ s.fab.reads = [] ∧ s.work.erasures = []) ∧
    (∃ (h : Hdr) (k : Nat) (nonce : Nat) (d : Die) (s : State), s.TakesAdmin ruleAny h ∧ s.tenantOf h.ctrl = 0 ∧ s.store.sanitize ≠ 2 ∧
      s.cph.drbgOk = true ∧ s.nss = [] ∧ s.work.erasures = [] ∧ s.dies = [(k, d)] ∧ d.lost = false ∧ d.st ≠ .absent ∧ s.sanitizeBlocks k d ≠ []) ∧
    (∃ (h : Hdr) (nonce : Nat) (c : Instr) (s : State), s.TakesAdmin ruleAny h ∧ c ∈ [Instr.sanitizeCryptoErase h nonce,
      .sanitizeBlockErase h nonce]) :=
  ⟨⟨ad 1, 2, 77, rng (wz openZ), admin (by decide +kernel), by decide +kernel⟩,
   ⟨ad 1, 1, 77, (rng (wn [(zk0 1, { openZ with fence := some fz })])), admin (by decide +kernel), by decide +kernel⟩,
   ⟨ad 0xFFFFFFFF, 0, 77, { wn [] with nss := [] }, admin (by decide +kernel), by decide +kernel⟩,
   ⟨ad 1, 1, 77, { wn [] with store := { wk.store with sanitize := 2 } }, admin (by decide +kernel)⟩,
   ⟨ad 0, 1, 77, { present := true, units := 4, slot := 16 }, { rng (wn []) with nss := [(1, { present := true, units := 4, slot := 16 })] },
     admin (by decide +kernel), by decide +kernel⟩,
   ⟨ad 0, 1, 77, { present := true, units := 4, slot := 16 },
     { (rng (wn [(zk0 1, { openZ with fence := some fz })])) with nss := [(1, { present := true, units := 4, slot := 16 })] },
     admin (by decide +kernel), by decide +kernel⟩,
   ⟨ad 0, 0, 77, { st := .idle, nextBlock := 3 }, { rng (wn []) with nss := [], dies := [(0, { st := .idle, nextBlock := 3 })] },
     admin (by decide +kernel), by decide +kernel⟩,
   ⟨ad 0, 77, .sanitizeCryptoErase (ad 0) 77, wn [], admin (by decide +kernel), by decide +kernel⟩⟩

/-- States and operands that meet the hypotheses of `FormatAndSanitizeErase`, clause by clause. -/
theorem witness_FormatAndSanitizeErase_2 :
    (∃ (h : Hdr) (s : State), s.TakesAdmin ruleAny h) :=
  ⟨ad 0, { wn [] with store := { wk.store with sanitize := 3 } }, admin (by decide +kernel)⟩

/-- States and operands that meet the hypotheses of `NamespacesComeAndGo`, clause by clause. -/
theorem witness_NamespacesComeAndGo :
    (∃ (h : Hdr) (spec : NsSpec) (id : Nat) (slot : Nat) (v : State) (s : State), s.TakesAdmin ruleAny h ∧ s.tenantOf h.ctrl = 0 ∧ h.nsid = 0 ∧
      s.specBad spec = false ∧ s.store.sanitize ≠ 2 ∧ s.cph.drbgOk = true ∧ s.nsFits (s.newNs spec) = true ∧
      ((List.range 4096).map (· + 1)).find? (fun i => !(s.ns i).present) = some id ∧ (s.fetchOne h).takeSlot spec.owner = some (slot, v)) ∧
    (∃ (h : Hdr) (spec : NsSpec) (s : State), s.TakesAdmin ruleAny h) ∧
    (∃ (h : Hdr) (s : State), s.TakesAdmin ruleAny h ∧ s.tenantOf h.ctrl = 0 ∧ h.nsid ≠ 0xFFFFFFFF ∧ (s.ns h.nsid).present = true ∧
      (s.ns h.nsid).fenced = false ∧ s.store.sanitize ≠ 2 ∧ s.nsBusy h.nsid = false ∧ s.fab.windows = [] ∧ s.fab.reads = [] ∧ s.work.erasures = []) ∧
    (∃ (h : Hdr) (s : State), s.TakesAdmin ruleAny h ∧ s.tenantOf h.ctrl = 0 ∧ h.nsid ≠ 0xFFFFFFFF ∧ (s.ns h.nsid).present = true ∧
      (s.ns h.nsid).fenced = false ∧ s.store.sanitize ≠ 2 ∧ s.nsBusy h.nsid = true ∧ s.fab.windows = [] ∧ s.fab.reads = [] ∧ s.work.erasures = []) ∧
    (∃ (h : Hdr) (s : State), s.TakesAdmin ruleAny h) ∧
    (∃ (h : Hdr) (cs : List Nat) (s : State), s.TakesAdmin ruleAny h ∧ s.tenantOf h.ctrl = 0 ∧ (s.ns h.nsid).present = true ∧ cs ≠ [] ∧ (∀ c ∈ cs,
      s.servesTenant (s.ns h.nsid).tenant c = true)) ∧
    (∃ (h : Hdr) (cs : List Nat) (s : State), s.TakesAdmin ruleAny h ∧ s.tenantOf h.ctrl = 0 ∧ (s.ns h.nsid).present = true ∧ cs ≠ [] ∧ (∀ c ∈ cs,
      s.servesTenant (s.ns h.nsid).tenant c = true)) ∧
    (∃ (h : Hdr) (cs : List Nat) (b : Bool) (s : State), s.TakesAdmin ruleAny h) :=
  ⟨⟨ad 0, ⟨true, 0, false, 0, 0, 4194304, 5⟩, 4, 19, (slotOf ((rng (wn [])).fetchOne (ad 0))).2, rng (wn []), admin (by decide +kernel),
    by decide +kernel⟩,
   ⟨ad 0, ⟨true, 0, false, 0, 0, 4194304, 5⟩, wn [], admin (by decide +kernel)⟩,
   ⟨ad 1, wn [(zk0 1, openZ)], admin (by decide +kernel), by decide +kernel⟩,
   ⟨ad 1, (rng (wn [(zk0 1, { openZ with fence := some fz })])), admin (by decide +kernel), by decide +kernel⟩,
   ⟨ad 9, wn [], admin (by decide +kernel)⟩,
   ⟨ad 1, [0], wn [], admin (by decide +kernel), by decide +kernel⟩,
   ⟨ad 1, [0], (wn []).updNs 1 fun x => { x with detached := [0] }, admin (by decide +kernel), by decide +kernel⟩,
   ⟨ad 9, [0], true, wn [], admin (by decide +kernel)⟩⟩

/-- States and operands that meet the hypotheses of `QueuesAreMadeAndDeleted`, clause by clause. -/
theorem witness_QueuesAreMadeAndDeleted_1 :
    (∃ (h : Hdr) (q : Nat) (d : Nat) (v : Nat) (s : State), s.TakesAdmin ruleAny h ∧ 1 ≤ q ∧ q ≤ 4095 ∧ (s.cq (queueKey h.ctrl q)).depth = 0 ∧
      2 ≤ d ∧ d ≤ 65536 ∧ v < s.vectors h.ctrl) ∧
    (∃ (h : Hdr) (q : Nat) (d : Nat) (v : Nat) (s : State), s.TakesAdmin ruleAny h) ∧
    (∃ (h : Hdr) (q : Nat) (d : Nat) (p : Nat) (c : Nat) (s : State), s.TakesAdmin ruleAny h ∧ (s.cq (queueKey h.ctrl c)).depth ≠ 0 ∧ c ≠ 0 ∧ 1 ≤ q ∧
      q ≤ 4095 ∧ (s.sq (queueKey h.ctrl q)).depth = 0 ∧ 2 ≤ d ∧ d ≤ 65536 ∧ (s.fetchOne h).queueFits (s.tenantOf h.ctrl) = true ∧
      (s.fetchOne h).contextsFit (s.tenantOf h.ctrl) d = true) ∧
    (∃ (h : Hdr) (q : Nat) (d : Nat) (p : Nat) (c : Nat) (s : State), s.TakesAdmin ruleAny h) ∧
    (∃ (h : Hdr) (q : Nat) (s : State), s.TakesAdmin ruleAny h ∧ q ≠ 0 ∧ (s.sq (queueKey h.ctrl q)).depth ≠ 0 ∧
      s.ctxIds (fun x => x.hdr.ctrl == h.ctrl && x.hdr.sqid == q && !x.hdr.mc) = []) ∧
    (∃ (h : Hdr) (q : Nat) (c : Nat) (x : Ctx) (s : State), s.TakesAdmin ruleAny h ∧ q ≠ 0 ∧ h.sqid ≠ q ∧ (s.sq (queueKey h.ctrl q)).depth ≠ 0 ∧
      s.ctxIds (fun x => x.hdr.ctrl == h.ctrl && x.hdr.sqid == q && !x.hdr.mc) = [c] ∧ s.ctxAt c = some x ∧ x.drains = true) ∧
    (∃ (h : Hdr) (q : Nat) (c : Nat) (x : Ctx) (s : State), s.TakesAdmin ruleAny h ∧ q ≠ 0 ∧ h.sqid ≠ q ∧ (s.sq (queueKey h.ctrl q)).depth ≠ 0 ∧
      s.ctxIds (fun x => x.hdr.ctrl == h.ctrl && x.hdr.sqid == q && !x.hdr.mc) = [c] ∧ s.ctxAt c = some x ∧ x.drains = false ∧ x.discard = false) ∧
    (∃ (h : Hdr) (q : Nat) (s : State), s.TakesAdmin ruleAny h ∧ q ≠ 0 ∧ (s.cq (queueKey h.ctrl q)).depth ≠ 0 ∧ (∀ p ∈ (s.fetchOne h).sqs,
      p.1 / 65536 = h.ctrl → p.1 % 65536 ≠ 0 → p.2.cqid ≠ q)) :=
  ⟨⟨a0, 4095, 65536, 1, wn [], admin (by decide +kernel), by decide +kernel⟩,
   ⟨a0, 0, 64, 1, wn [], admin (by decide +kernel)⟩,
   ⟨a0, 2, 64, 0, 1, wn [], admin (by decide +kernel), by decide +kernel⟩,
   ⟨a0, 2, 64, 0, 0, wn [], admin (by decide +kernel)⟩,
   ⟨a0, 1, wn [], admin (by decide +kernel), by decide +kernel⟩,
   ⟨a0, 1, 1, cx 1 .write .ciphering, withCx (wn []) (cx 1 .write .ciphering), admin (by decide +kernel), by decide +kernel⟩,
   ⟨a0, 1, 1, cx 1 .read .reading, withCx (wn []) (cx 1 .read .reading), admin (by decide +kernel), by decide +kernel⟩,
   ⟨a0, 1, wn [], admin (by decide +kernel), by decide +kernel⟩⟩

/-- States and operands that meet the hypotheses of `QueuesAreMadeAndDeleted`, clause by clause. -/
theorem witness_QueuesAreMadeAndDeleted_2 :
    (∃ (h : Hdr) (q : Nat) (p : Nat × Sq) (s : State), s.TakesAdmin ruleAny h ∧ q ≠ 0 ∧ (s.cq (queueKey h.ctrl q)).depth ≠ 0 ∧
      p ∈ (s.fetchOne h).sqs ∧ p.1 / 65536 = h.ctrl ∧ p.1 % 65536 ≠ 0 ∧ p.2.cqid = q) ∧
    (∃ (h : Hdr) (q : Nat) (b : Bool) (s : State), s.TakesAdmin ruleAny h ∧
      (q = 0 ∨ (if b then (s.cq (queueKey h.ctrl q)).depth else ((s.fetchOne h).sq (queueKey h.ctrl q)).depth) = 0)) ∧
    (∃ (h : Hdr) (c : Nat) (n : Nat) (v : Bool) (s : State), s.TakesAdmin ruleAny h ∧ (∀ u, (s.tenant u).viFloor = 0 ∧
      (s.tenant u).lim.sqFloor = 0) ∧ s.tenantOf h.ctrl = 0 ∧ s.power.dual = false ∧ 1 ≤ c ∧ c ≤ 255 ∧ (s.ctrl c).en = false ∧
      (s.ctrl c).drain = none ∧ n ≤ (if v then 2048 else 4095)) ∧
    (∃ (h : Hdr) (c : Nat) (n : Nat) (v : Bool) (s : State), s.TakesAdmin ruleAny h) :=
  ⟨⟨a0, 1, (1, { depth := 64, cqid := 1 }), { wn [] with sqs := [(1, { depth := 64, cqid := 1 })] }, admin (by decide +kernel), by decide +kernel⟩,
   ⟨a0, 0, true, wn [], admin (by decide +kernel), by decide +kernel⟩,
   ⟨a0, 5, 2048, true, wn [], admin (by decide +kernel), tenantsAll (fun z => z.viFloor = 0 ∧ z.lim.sqFloor = 0) (by decide +kernel),
     by decide +kernel⟩,
   ⟨a0, 256, 4, true, wn [], admin (by decide +kernel)⟩⟩

/-- States and operands that meet the hypotheses of `AdminCommandsAnswer`, clause by clause. -/
theorem witness_AdminCommandsAnswer_1 :
    (∃ (c : Instr) (r : AdminRule) (h : Hdr) (s : State), adminRuleOf c = some (r, h) ∧ (if h.mc then s.servesMc else s.fetches h.ctrl) = false) ∧
    (∃ (c : Instr) (r : AdminRule) (h : Hdr) (s : State), adminRuleOf c = some (r, h) ∧ (if h.mc then s.servesMc else s.fetches h.ctrl) = true ∧
      s.muted h = false) ∧
    (∃ (h : Hdr) (s : State), s.TakesAdmin (ruleIdentify 1) h) ∧
    (∃ (h : Hdr) (cns : Nat) (d : List FieldVal) (s : State) (v : State), s.TakesAdmin (ruleIdentify cns) h ∧
      (s.fetchOne h).identifyData h cns = (some d, v) ∧ (cns ≠ 0 ∨ (h.nsid ≠ 0 ∧ (h.nsid ≤ 4096 ∨ h.nsid = 0xFFFFFFFF)))) ∧
    (∃ (h : Hdr) (cns : Nat) (v : State) (s : State), s.TakesAdmin (ruleIdentify cns) h ∧ (s.fetchOne h).identifyData h cns = (none, v)) ∧
    (∃ (h : Hdr) (s : State), s.TakesAdmin (ruleIdentify 0) h ∧ (h.nsid = 0 ∨ (4096 < h.nsid ∧ h.nsid ≠ 0xFFFFFFFF))) ∧
    (∃ (h : Hdr) (s : State), s.TakesAdmin (ruleIdentify 0x13) h ∧ s.tenantOf h.ctrl ≠ 0) ∧
    (∃ (h : Hdr) (lsi : Nat) (s : State), s.TakesAdmin (ruleLogPage 0xBF) h ∧ (s.attached h.ctrl).contains h.nsid = true ∧
      (s.ns h.nsid).zoned = true) :=
  ⟨⟨.identify a0 1, ruleIdentify 1, a0, wk.onPower fun p => { p with mode := .lull }, by decide +kernel⟩,
   ⟨.identify { a0 with nsid := 0 } 1, ruleIdentify 1, { a0 with nsid := 0 }, wn [], by decide +kernel⟩,
   ⟨a0, wn [], admin (by decide +kernel)⟩,
   ⟨io 1, 2, idList [2, 3], wn [], (wn []).fetchOne (io 1), admin (by decide +kernel), by decide +kernel⟩,
   ⟨ad 0, 0x99, (wn []).fetchOne (ad 0), wn [], admin (by decide +kernel), by decide +kernel⟩,
   ⟨ad 0, wn [], admin (by decide +kernel), by decide +kernel⟩,
   ⟨a1, wn [], admin (by decide +kernel), by decide +kernel⟩,
   ⟨ad 1, 0, (wn []).updNs 1 fun x => { x with changed := [0] }, admin (by decide +kernel), by decide +kernel⟩⟩

/-- States and operands that meet the hypotheses of `AdminCommandsAnswer`, clause by clause. -/
theorem witness_AdminCommandsAnswer_2 :
    (∃ (h : Hdr) (lsi : Nat) (s : State), s.TakesAdmin (ruleLogPage 0x81) h ∧ s.tenantOf h.ctrl = 0) ∧
    (∃ (h : Hdr) (lid : Nat) (lsi : Nat) (d : List FieldVal) (s : State) (v : State), s.TakesAdmin (ruleLogPage lid) h ∧
      (s.fetchOne h).logPage h lid lsi = (some d, v)) ∧
    (∃ (h : Hdr) (lid : Nat) (lsi : Nat) (s : State) (v : State), s.TakesAdmin (ruleLogPage lid) h ∧ (s.fetchOne h).logPage h lid lsi = (none, v)) ∧
    (∃ (h : Hdr) (s : State), s.TakesAdmin ruleSubset h) ∧
    (∃ (h : Hdr) (fid : Nat) (w : Nat) (d : List FieldVal) (s : State) (v : State), s.TakesAdmin ruleSubset h ∧
      (s.fetchOne h).featureDw0 h fid = (some (w, d), v)) ∧
    (∃ (h : Hdr) (fid : Nat) (s : State) (v : State), s.TakesAdmin ruleSubset h ∧ (s.fetchOne h).featureDw0 h fid = (none, v)) ∧
    (∃ (h : Hdr) (cid : Nat) (s : State), s.TakesAdmin ruleSubset h ∧ cid ∈ (s.ctrl h.ctrl).aers) ∧
    (∃ (h : Hdr) (q : Nat) (cid : Nat) (c : Nat) (x : Ctx) (s : State), s.TakesAdmin ruleSubset h ∧ q ≠ 0 ∧ s.ctxNamed h.ctrl q cid = some c ∧
      s.ctxAt c = some x ∧ x.drains = false ∧ x.discard = false) :=
  ⟨⟨ad 0, 0, wn [], admin (by decide +kernel), by decide +kernel⟩,
   ⟨ad 0, 0x81, 0, (wn []).sanitizeLog, wn [], (wn []).fetchOne (ad 0), admin (by decide +kernel), by decide +kernel⟩,
   ⟨ad 0, 0x99, 0, wn [], (wn []).fetchOne (ad 0), admin (by decide +kernel), by decide +kernel⟩,
   ⟨a0, wn [], admin (by decide +kernel)⟩,
   ⟨ad 0, 0x05, 0, [], wn [], (wn []).fetchOne (ad 0), admin (by decide +kernel), by decide +kernel⟩,
   ⟨ad 0, 0x99, wn [], (wn []).fetchOne (ad 0), admin (by decide +kernel), by decide +kernel⟩,
   ⟨a0, 9, { wn [] with ctrls := [(0, { present := true, en := true, rdy := true, aers := [8, 9] })] }, admin (by decide +kernel), by decide +kernel⟩,
   ⟨ad 0, 1, 7, 1, cx 1 .read .waiting, withCx (wn []) (cx 1 .read .waiting), admin (by decide +kernel), by decide +kernel⟩⟩

/-- States and operands that meet the hypotheses of `AdminCommandsAnswer`, clause by clause. -/
theorem witness_AdminCommandsAnswer_3 :
    (∃ (h : Hdr) (q : Nat) (cid : Nat) (c : Nat) (x : Ctx) (s : State), s.TakesAdmin ruleSubset h ∧ q ≠ 0 ∧ s.ctxNamed h.ctrl q cid = some c ∧
      s.ctxAt c = some x ∧ x.drains = true) ∧
    (∃ (h : Hdr) (q : Nat) (cid : Nat) (s : State), s.TakesAdmin ruleSubset h ∧
      (if q = 0 then cid ∉ (s.ctrl h.ctrl).aers else s.ctxNamed h.ctrl q cid = none)) ∧
    (∃ (h : Hdr) (s : State), s.TakesAdmin ruleSubset h ∧ (s.ctrl h.ctrl).aers.length < 16 ∧ (s.ctrl h.ctrl).events = []) ∧
    (∃ (h : Hdr) (n : Notice) (rest : List Notice) (s : State), s.TakesAdmin ruleSubset h ∧ (s.ctrl h.ctrl).aers.length < 16 ∧
      (s.ctrl h.ctrl).events = n :: rest) ∧
    (∃ (h : Hdr) (s : State), s.TakesAdmin ruleSubset h ∧ 16 ≤ (s.ctrl h.ctrl).aers.length) ∧
    (∃ (s : State), s.servesMc = true) ∧
    (∃ (code : Nat) (s : State), s.servesMc = true ∧ spdmServed code = false) ∧
    (∃ (code : Nat) (s : State), s.servesMc = true ∧ spdmServed code = true) :=
  ⟨⟨ad 0, 1, 7, 1, cx 1 .write .ciphering, withCx (wn []) (cx 1 .write .ciphering), admin (by decide +kernel), by decide +kernel⟩,
   ⟨ad 0, 1, 7, wn [], admin (by decide +kernel), by decide +kernel⟩,
   ⟨a0, wn [], admin (by decide +kernel), by decide +kernel⟩,
   ⟨ad 0, .temperatureThreshold, [],
     { wn [] with ctrls := [(0, { present := true, en := true, rdy := true, events := [Notice.temperatureThreshold] })] }, admin (by decide +kernel),
     by decide +kernel⟩,
   ⟨a0, { wn [] with ctrls := [(0, { present := true, en := true, rdy := true, aers := List.range 16 })] }, admin (by decide +kernel),
     by decide +kernel⟩,
   ⟨wk, by decide +kernel⟩,
   ⟨0x99, wk, by decide +kernel⟩,
   ⟨0x81, wk, by decide +kernel⟩⟩

/-- States and operands that meet the hypotheses of `AdminCommandsAnswer`, clause by clause. -/
theorem witness_AdminCommandsAnswer_4 :
    (∃ (ps : Nat) (s : State), s.servesMc = true ∧ 4 < ps) ∧
    (∃ (ps : Nat) (reason : Nat) (s : State) (v : State), s.servesMc = true ∧ ps ≤ 4 ∧ s.selectPs ps 3 = (some reason, v)) ∧
    (∃ (ps : Nat) (s : State) (v : State), s.servesMc = true ∧ ps ≤ 4 ∧ s.selectPs ps 3 = (none, v)) ∧
    (∃ (m : MctpMsg) (s : State), m ∈ [MctpMsg.control, .subsystemHealth, .controllerHealth, .vpd] ∧ s.servesMc = true) ∧
    (∃ (m : MctpMsg) (s : State), m ∈ [MctpMsg.readDataStructure, .configuration] ∧ s.servesMc = true) ∧
    (∃ (p : Nat) (m : MctpMsg) (s : State), s.pcieOn = true ∧ (s.link p).up = true ∧ s.servesMc = true ∧ s.cfgBit .chipMiCfg 0 31 = false) ∧
    (∃ (p : Nat) (m : MctpMsg) (s : State), s.pcieOn = true ∧ (s.link p).up = true ∧ s.servesMc = true ∧ s.cfgBit .chipMiCfg 0 31 = true) ∧
    (∃ (p : Nat) (m : MctpMsg) (s : State), (s.pcieOn = false ∨ (s.link p).up = false ∨ s.servesMc = false)) :=
  ⟨⟨5, wk, by decide +kernel⟩,
   ⟨3, 0, { wk with power := { wk.power with entry := some { target := .calm, step := 1, abortPoints := false, requester := 1, since := 0 } } },
     { wk with power := { wk.power with entry := some { target := .calm, step := 1, abortPoints := false, requester := 1, since := 0 } } },
     by decide +kernel⟩,
   ⟨1, wk, (wk.selectPs 1 3).2, by decide +kernel⟩,
   ⟨.vpd, wk, by decide +kernel⟩,
   ⟨.configuration, wk, by decide +kernel⟩,
   ⟨0, .control, { wk with links := [(0, { up := true })] }, by decide +kernel⟩,
   ⟨0, .setPower 5, { wk with links := [(0, { up := true })] }.setCfgAt (Reg.offset .chipMiCfg 0) 0x80000000, by decide +kernel⟩,
   ⟨0, .vpd, wk, by decide +kernel⟩⟩

/-- States and operands that meet the hypotheses of `AdminCommandsAnswer`, clause by clause. -/
theorem witness_AdminCommandsAnswer_5 :
    (∃ (m : MctpMsg) (s : State), s.power.mode = .calm ∧ s.released = true ∧ s.aon.trip = false) ∧
    (∃ (m : MctpMsg) (s : State), s.power.mode ≠ .calm ∧ s.servesMc = false) :=
  ⟨⟨.control, wk.onPower fun p => { p with mode := .calm }, by decide +kernel⟩,
   ⟨.vpd, { wk with flt := { wk.flt with pairsIn := 0 } }, by decide +kernel⟩⟩

/-- States and operands that meet the hypotheses of `BoundsAndHeldCommands`, clause by clause. -/
theorem witness_BoundsAndHeldCommands_1 :
    (∃ (s : State), s.running = true ∧ s.tmk.computing = true) ∧
    (∃ (s : State), (s.running = false ∨ s.tmk.computing = false)) ∧
    (∃ (h : Hdr) (u : Nat) (s : State), s.TakesAdmin ruleBoundReport h) ∧
    (∃ (h : Hdr) (sel : Bool) (clear : Bool) (u : Nat) (v : Nat) (s : State), ((s.TakesAdmin ruleBoundReport h ∧
      s.tenantOf h.ctrl = 0) ∨ (h.mc = true ∧ s.servesMc = true ∧ h.nsid = 0)) ∧ v = (if sel then u % 256 else 0)) ∧
    (∃ (h : Hdr) (u : Nat) (sel : Bool) (c : Bool) (s : State), s.TakesAdmin ruleBoundReport h ∧ s.tenantOf h.ctrl ≠ 0 ∧ (sel || c) = true) ∧
    (∃ (c : Instr) (h : Hdr) (a : Nat) (n : Nat) (f : Nat) (b : Bool) (data : List Block) (rs : List (Nat × Nat)) (s : State),
      c ∈ ioCommands h a n f b data rs ∧ (s.fetches h.ctrl = false ∨ s.flt.stop ≠ 0)) ∧
    (∃ (c : Instr) (h : Hdr) (a : Nat) (n : Nat) (f : Nat) (b : Bool) (data : List Block) (rs : List (Nat × Nat)) (s : State),
      c ∈ ioCommands h a n f b data rs ∧ s.fetches h.ctrl = true ∧ s.flt.stop = 0 ∧ s.inHold = true ∧ s.muted h = false) ∧
    (∃ (h : Hdr) (slba : Nat) (nlb : Nat) (data : List Block) (p : Instr × Ctx) (s : State), s.TakesIo h ∧
      p ∈ (s.fetchOne h).ioContexts h slba nlb data ∧ (s.fetchOne h).fetchStopped p.2 = true) :=
  ⟨⟨{ wk with tmk := { wk.tmk with computing := true } }, by decide +kernel⟩,
   ⟨wk.onPower fun p => { p with inReset := true }, by decide +kernel⟩,
   ⟨a1, 0, wn [], admin (by decide +kernel)⟩,
   ⟨ad 0, true, true, 1, 1, wn [], Or.inl ⟨admin (by decide +kernel), (by decide +kernel)⟩, by decide +kernel⟩,
   ⟨{ a1 with nsid := 0 }, 0, true, false, wn [], admin (by decide +kernel), by decide +kernel⟩,
   ⟨.readCmd (io 1) 2 3, io 1, 2, 3, 0, false, [], [], wk.onPower fun p => { p with mode := .lull }, by decide +kernel⟩,
   ⟨.zoneReset (io 1) 2, io 1, 2, 3, 0, false, [], [], (wn []).onPower fun p => { p with mode := .warmup, holds := [1] }, by decide +kernel⟩,
   ⟨io 1, 2, 8000, [], (.writeCmd (io 1) 2 8000, nx (wn []) 1 .write 2 8001), wn [], takes (by decide +kernel), by decide +kernel⟩⟩

/-- States and operands that meet the hypotheses of `BoundsAndHeldCommands`, clause by clause. -/
theorem witness_BoundsAndHeldCommands_2 :
    (∃ (h : Hdr) (a : Nat) (ng : Nat) (close : Bool) (p : Instr × Ctx) (s : State), s.TakesIo h ∧ p ∈ (s.fetchOne h).packedContexts h a ng close ∧
      (s.fetchOne h).fetchStopped p.2 = true) ∧
    (∃ (h : Hdr) (slba : Nat) (nlb : Nat) (data : List Block) (st : Status) (p : Instr × Ctx) (s : State), s.TakesIo h ∧
      p ∈ (s.fetchOne h).ioContexts h slba nlb data ∧ (s.fetchOne h).fetchStopped p.2 = false ∧ (s.fetchOne h).precheck p.2 = some st) ∧
    (∃ (h : Hdr) (a : Nat) (ng : Nat) (close : Bool) (st : Status) (p : Instr × Ctx) (s : State), s.TakesIo h ∧
      p ∈ (s.fetchOne h).packedContexts h a ng close ∧ (s.fetchOne h).fetchStopped p.2 = false ∧
      (s.fetchOne h).packedCheck h p.2.slba (p.2.kind == .packedAppend) = some st) ∧
    (∃ (h : Hdr) (slba : Nat) (nlb : Nat) (data : List Block) (st : Status) (p : Instr × Ctx) (s : State) (u : State), s.AtAdmission h p.2 u ∧
      p ∈ (s.fetchOne h).ioContexts h slba nlb data ∧ (s.fetchOne h).precheck p.2 = none ∧ (u.tryIo none p.2).1 = .refuse st) ∧
    (∃ (h : Hdr) (slba : Nat) (nlb : Nat) (us : Nat) (data : List Block) (p : Instr × Ctx) (s : State) (u : State), s.AtAdmission h p.2 u ∧
      p ∈ (s.fetchOne h).ioContexts h slba nlb data ∧ (s.fetchOne h).precheck p.2 = none ∧ (u.tryIo none p.2).1 = .energy us) ∧
    (∃ (h : Hdr) (slba : Nat) (nlb : Nat) (l : Lack) (data : List Block) (p : Instr × Ctx) (s : State) (u : State), s.AtAdmission h p.2 u ∧
      p ∈ (s.fetchOne h).ioContexts h slba nlb data ∧ (s.fetchOne h).precheck p.2 = none ∧
      ((u.tryIo none p.2).1 = .now l ∨ ((u.tryIo none p.2).1 = .later l ∧ (s.tenant p.2.tenant).compat = false))) ∧
    (∃ (h : Hdr) (slba : Nat) (nlb : Nat) (data : List Block) (p : Instr × Ctx) (s : State) (u : State),
      p ∈ (s.fetchOne h).ioContexts h slba nlb data ∧ s.TakesIo h ∧ u = (s.fetchOne h).accrue p.2 ∧ (s.fetchOne h).fetchStopped p.2 = false ∧
      (s.fetchOne h).precheck p.2 = none ∧ s.aon.trip = false ∧ (∀ zk, (s.zone zk).rearm = 0) ∧ (s.tenant p.2.tenant).compat = true ∧
      (((u.stepOne p.2).passes = true ∧ (u.behindHeld p.2 = true ∨ u.bucketsEmpty p.2.tenant = true)) ∨ (u.behindHeld p.2 = false ∧
      u.bucketsEmpty p.2.tenant = false ∧ ∃ l, (u.tryIo none p.2).1 = .later l))) ∧
    (∃ (h : Hdr) (a : Nat) (ng : Nat) (close : Bool) (p : Instr × Ctx) (s : State) (u : State), s.TakesIo h ∧
      p ∈ (s.fetchOne h).packedContexts h a ng close ∧ u = (s.fetchOne h).accrue p.2 ∧ (s.fetchOne h).fetchStopped p.2 = false ∧
      (s.fetchOne h).packedCheck h p.2.slba (p.2.kind == .packedAppend) = none ∧ s.aon.trip = false ∧
      (s.zone (zoneKey h.nsid (p.2.slba / zsze))).rearm = 0 ∧ u.behindHeld p.2 = false ∧ u.bucketsEmpty p.2.tenant = false) :=
  ⟨⟨io 3, 0, 63, true, (.packedAppend (io 3) 0 63 true, { nx (nob) 3 .packedAppend 0 64 with granules := 64, close := true }), nob,
    takes (by decide +kernel), by decide +kernel⟩,
   ⟨io 9, 2, 3, [], .invalidNamespace, (.writeCmd (io 9) 2 3, nx (wn []) 9 .write 2 4), wn [], takes (by decide +kernel), by decide +kernel⟩,
   ⟨io 3, 1, 63, true, .invalidField, (.packedAppend (io 3) 1 63 true, { nx (wn []) 3 .packedAppend 1 64 with granules := 64, close := true }),
     wn [], takes (by decide +kernel), by decide +kernel⟩,
   ⟨io 1, 2, 3, [], .zoneFull, (.writeCmd (io 1) 2 3, nx (wn [(zk0 1, { openZ with st := .full })]) 1 .write 2 4), wn [(zk0 1,
     { openZ with st := .full })], tx (wn [(zk0 1, { openZ with st := .full })]) 1 .write 2 4,
     admission (takes (by decide +kernel)) rfl (by decide +kernel) (by decide +kernel), by decide +kernel⟩,
   ⟨io 1, 2, 3, (tx ({ wn [(zk0 1, openZ)] with bank := { wd.bank with dmax := 0 } }) 1 .write 2 4).energyTryAfter 16384, [], (.writeCmd (io 1) 2 3,
     nx ({ wn [(zk0 1, openZ)] with bank := { wd.bank with dmax := 0 } }) 1 .write 2 4),
     { wn [(zk0 1, openZ)] with bank := { wd.bank with dmax := 0 } },
     tx ({ wn [(zk0 1, openZ)] with bank := { wd.bank with dmax := 0 } }) 1 .write 2 4,
     admission (takes (by decide +kernel)) rfl (by decide +kernel) (by decide +kernel), by decide +kernel⟩,
   ⟨io 1, 2, 3, none, [], (.writeCmd (io 1) 2 3, nx ((wn [(zk0 1, openZ)]).updDie 0 fun d => { d with landDirty := [true, false] }) 1 .write 2 4),
     (wn [(zk0 1, openZ)]).updDie 0 fun d => { d with landDirty := [true, false] }, tx ((wn [(zk0 1,
     openZ)]).updDie 0 fun d => { d with landDirty := [true, false] }) 1 .write 2 4,
     admission (takes (by decide +kernel)) rfl (by decide +kernel) (by decide +kernel), by decide +kernel⟩,
   ⟨io 1, 2, 3, [], (.writeCmd (io 1) 2 3,
     nx ({ (wn [(zk0 1, openZ)]).updDie 0 fun d => { d with landDirty := [true, false] } with tenants := [(0, { st := .active, ready := true, lim := wide, compat := true })] }) 1 .write 2 4), { (wn [(zk0 1, openZ)]).updDie 0 fun d => { d with landDirty := [true, false] } with tenants := [(0, { st := .active, ready := true, lim := wide, compat := true })] }, tx ({ (wn [(zk0 1, openZ)]).updDie 0 fun d => { d with landDirty := [true, false] } with tenants := [(0, { st := .active, ready := true, lim := wide, compat := true })] }) 1 .write 2 4, by refine ⟨?_, ?_, ?_, ?_, ?_, ?_, ?_, ?_, .inr ⟨?_, ?_, none, ?_⟩⟩ <;> first | rfl | (intro zk; exact look_of_all (fun z : Zone => z.rearm = 0) {} _ rfl (by decide +kernel) zk) | decide +kernel | (constructor <;> first | rfl | decide +kernel)⟩,
   ⟨io 3, 0, 63, true, (.packedAppend (io 3) 0 63 true, { nx (wn [(zk0 3, openZ)]) 3 .packedAppend 0 64 with granules := 64, close := true }),
     wn [(zk0 3, openZ)], tried (wn [(zk0 3, openZ)]) (io 3) { nx (wn [(zk0 3, openZ)]) 3 .packedAppend 0 64 with granules := 64, close := true },
     takes (by decide +kernel), by decide +kernel⟩⟩

/-- States and operands that meet the hypotheses of `BoundsAndHeldCommands`, clause by clause. -/
theorem witness_BoundsAndHeldCommands_3 :
    (∃ (u : Nat) (c : Nat) (x : Ctx) (s : State), s.running = true ∧ s.aon.trip = false ∧ s.bucketsEmpty u = false ∧ s.heldFirst u = [c] ∧
      s.ctxAt c = some x ∧ x.kind = .write ∧ s.precheck x = none ∧ (s.ns x.nsid).zoned = true ∧
      (s.tryIo (some c) { x with phase := .reading }).1 = .go ∧ (s.zone (zoneKey x.nsid (x.slba / zsze))).fence = none ∧
      (s.zone (zoneKey x.nsid (x.slba / zsze))).active = true) ∧
    (∃ (u : Nat) (c : Nat) (cs : List Nat) (rest : List Nat) (s : State) (v : State), s.running = true ∧ s.aon.trip = false ∧
      s.bucketsEmpty u = false ∧ s.heldFirst u = cs ++ c :: rest ∧ (∀ d ∈ cs, (s.retryOne d).1 = false) ∧ s.retryOne c = (true, v)) ∧
    (∃ (u : Nat) (s : State), (s.running = false ∨ s.aon.trip = true ∨ s.bucketsEmpty u = true ∨ (∀ c ∈ s.heldFirst u, (s.retryOne c).1 = false))) ∧
    (∃ (u : Nat) (c : Nat) (x : Ctx) (s : State), s.running = true ∧ s.aon.trip = false ∧ s.bucketsEmpty u = false ∧ s.heldFirst u = [c] ∧
      s.ctxAt c = some x ∧ x.discard = false ∧ x.deadline = none ∧ s.muted x.hdr = false) ∧
    (∃ (c : Nat) (x : Ctx) (s : State), s.ctxAt c = some x ∧ x.phase = .held ∧ x.discard = false ∧ x.deadline = none ∧ s.muted x.hdr = false) ∧
    (∃ (c : Nat) (s : State), (∀ x, s.ctxAt c = some x → x.phase ≠ .held)) ∧
    (∃ (u : Nat) (s : State), s.running = true ∧ (s.tenant u).compat = true) ∧
    (∃ (u : Nat) (s : State), (s.running = false ∨ (s.tenant u).compat = false)) :=
  ⟨⟨0, 1, cx 1 .write .held, let s := withCx (wn [(zk0 1, { openZ with wp := 0 })]) (cx 1 .write .held); { s with tenants := [(0, { st := .active, ready := true, lim := wide, compat := true, heldCmds := [1] })] }, by decide +kernel⟩,
   ⟨0, 1, [], [], let s := withCx (wn [(zk0 1, { openZ with wp := 0 })]) (cx 1 .write .held); { s with tenants := [(0, { st := .active, ready := true, lim := wide, compat := true, heldCmds := [1] })] }, ((let s := withCx (wn [(zk0 1, { openZ with wp := 0 })]) (cx 1 .write .held); { s with tenants := [(0, { st := .active, ready := true, lim := wide, compat := true, heldCmds := [1] })] }) |>.retryOne 1).2, by decide +kernel⟩,
   ⟨0, wk.onPower fun p => { p with inReset := true }, by decide +kernel⟩,
   ⟨0, 1, cx 1 .write .held, let s := withCx (wn [(zk0 1, { openZ with wp := 0 })]) (cx 1 .write .held); { s with tenants := [(0, { st := .active, ready := true, lim := wide, compat := true, heldCmds := [1] })] }, by decide +kernel⟩,
   ⟨1, cx 1 .write .held, let s := withCx (wn [(zk0 1, { openZ with wp := 0 })]) (cx 1 .write .held); { s with tenants := [(0, { st := .active, ready := true, lim := wide, compat := true, heldCmds := [1] })] }, by decide +kernel⟩,
   ⟨1, wn [], none_of rfl⟩,
   ⟨0, { wn [] with tenants := [(0, { st := .active, ready := true, lim := wide, compat := true })] }, by decide +kernel⟩,
   ⟨0, wk, by decide +kernel⟩⟩

/-- States and operands that meet the hypotheses of `TenantsAreMadeAndChanged`, clause by clause. -/
theorem witness_TenantsAreMadeAndChanged_1 :
    (∃ (h : Hdr) (u : Nat) (d : TenantData) (s : State), s.TakesAdmin ruleManager h ∧ s.roomForEvents ∧ s.createReason u d = none) ∧
    (∃ (h : Hdr) (u : Nat) (reason : Nat) (field : Nat) (d : TenantData) (s : State), s.TakesAdmin ruleManager h ∧ s.createReason u d = some (reason,
      field)) ∧
    (∃ (h : Hdr) (u : Nat) (d : TenantData) (s : State), s.TakesAdmin ruleManager h ∧ s.slotFree u = false ∧
      floorDiffers d.lim (s.tenant u).lim = none ∧ s.slotBusy u = false) ∧
    (∃ (h : Hdr) (u : Nat) (d : TenantData) (s : State), s.TakesAdmin ruleManager h) ∧
    (∃ (h : Hdr) (u : Nat) (s : State), s.TakesAdmin ruleManager h ∧ s.roomForEvents ∧ s.slotFree u = false ∧ s.nsOf (fun n => n.tenant == u) = [] ∧
      s.fixedSlot u = false ∧ s.slotBusy u = false ∧ s.ctrlsOf u = [] ∧ s.draining u = [] ∧ s.connsWhere (fun c => c.tenant == u) = [] ∧
      s.fab.windows = []) ∧
    (∃ (h : Hdr) (u : Nat) (s : State), s.TakesAdmin ruleManager h ∧ s.nsOf (fun n => n.tenant == u) = [] ∧ s.fixedSlot u = false ∧
      (s.tenant u).st = .active ∧ u < 256 ∧ s.ctrlsOf u = [u] ∧ (s.ctrl u).drain = none ∧ s.ctxIds (fun x => x.hdr.ctrl == u) = []) ∧
    (∃ (h : Hdr) (u : Nat) (s : State), s.TakesAdmin ruleManager h) ∧
    (∃ (h : Hdr) (u : Nat) (s : State), s.TakesAdmin ruleManager h ∧ u < 256 ∧ (s.tenant u).st = .active ∧ s.ctrlsOf u = [u] ∧
      (s.ctrl u).drain = none ∧ s.ctxIds (fun x => x.hdr.ctrl == u) = []) :=
  ⟨⟨a0, 5, td, wp, admin (by decide +kernel), room (by decide +kernel), by decide +kernel⟩,
   ⟨a0, 1, 1, 0, td, wp, admin (by decide +kernel), by decide +kernel⟩,
   ⟨a0, 0, { td with lim := { wide with ctxShare := 50 } }, wp, admin (by decide +kernel), by decide +kernel⟩,
   ⟨a0, 9, td, wp, admin (by decide +kernel)⟩,
   ⟨a0, 1, wp, admin (by decide +kernel), room (by decide +kernel), by decide +kernel⟩,
   ⟨a0, 1,
     { wd with ctrls := [(0, { present := true, en := true, rdy := true, numVfs := 3 }), (1, { present := true, tenant := 1, en := true, rdy := true })] }, admin (by decide +kernel), by decide +kernel⟩,
   ⟨a0, 0, wp, admin (by decide +kernel)⟩,
   ⟨a0, 1, wd, admin (by decide +kernel), by decide +kernel⟩⟩

/-- States and operands that meet the hypotheses of `TenantsAreMadeAndChanged`, clause by clause. -/
theorem witness_TenantsAreMadeAndChanged_2 :
    (∃ (h : Hdr) (u : Nat) (s : State), s.TakesAdmin ruleManager h ∧ s.slotFree u = false ∧ s.slotBusy u = false ∧ s.ctrlsOf u = [] ∧
      s.draining u = []) ∧
    (∃ (h : Hdr) (u : Nat) (s : State), s.TakesAdmin ruleManager h ∧ (s.slotFree u = true ∨ s.slotBusy u = true)) ∧
    (∃ (h : Hdr) (u : Nat) (s : State), s.TakesAdmin ruleShareGet h ∧ (s.tenantOf h.ctrl = 0 ∨ s.tenantOf h.ctrl = u) ∧ s.slotFree u = false) ∧
    (∃ (h : Hdr) (u : Nat) (s : State), s.TakesAdmin ruleShareGet h ∧ (s.tenantOf h.ctrl = 0 ∨ s.tenantOf h.ctrl = u) ∧ s.slotFree u = true) ∧
    (∃ (h : Hdr) (u : Nat) (s : State), s.TakesAdmin ruleShareGet h ∧ s.tenantOf h.ctrl ≠ 0 ∧ s.tenantOf h.ctrl ≠ u) :=
  ⟨⟨a0, 1, wp, admin (by decide +kernel), by decide +kernel⟩,
   ⟨a0, 9, wp, admin (by decide +kernel), by decide +kernel⟩,
   ⟨a0, 1, wp, admin (by decide +kernel), by decide +kernel⟩,
   ⟨a0, 9, wp, admin (by decide +kernel), by decide +kernel⟩,
   ⟨a1, 0, wd, admin (by decide +kernel), by decide +kernel⟩⟩

/-- States and operands that meet the hypotheses of `QuiesceLogsAndMigration`, clause by clause. -/
theorem witness_QuiesceLogsAndMigration_1 :
    (∃ (h : Hdr) (u : Nat) (s : State), s.TakesAdmin ruleTenant0 h ∧ s.logReason u true = 0 ∧ (s.tenant u).logging = false ∧ s.loggers < 8) ∧
    (∃ (h : Hdr) (u : Nat) (s : State), s.TakesAdmin ruleTenant0 h) ∧
    (∃ (h : Hdr) (u : Nat) (s : State), s.TakesAdmin ruleTenant0 h ∧ s.logReason u true = 0 ∧ (s.tenant u).logging = true) ∧
    (∃ (h : Hdr) (u : Nat) (s : State), s.TakesAdmin ruleTenant0 h ∧ s.logReason u true = 0 ∧ (s.tenant u).st = .active ∧
      (s.tenant u).quiesce = none ∧ (s.tenant u).heldCmds = []) ∧
    (∃ (h : Hdr) (u : Nat) (c : Nat) (x : Ctx) (s : State), s.TakesAdmin ruleTenant0 h ∧ s.logReason u true = 0 ∧ (s.tenant u).st = .active ∧
      (s.tenant u).quiesce = none ∧ (s.tenant u).heldCmds = [c] ∧ s.ctxAt c = some x ∧ x.tenant = u ∧ x.discard = false ∧ x.deadline = none ∧
      s.muted x.hdr = false) ∧
    (∃ (h : Hdr) (u : Nat) (since : Nat) (s : State), s.roomForEvents ∧ s.running = true ∧ (s.tenant u).quiesce = some (h, since) ∧
      s.tenantBusy u = false ∧ s.muted h = false) ∧
    (∃ (u : Nat) (s : State), ((s.tenant u).quiesce = none ∨ s.running = false ∨ s.tenantBusy u = true)) ∧
    (∃ (h : Hdr) (u : Nat) (s : State), s.TakesAdmin ruleTenant0 h ∧ s.logReason u true = 0 ∧ (s.tenant u).st = .quiesced) :=
  ⟨⟨a0, 1, wq { st := .active, ready := true }, admin (by decide +kernel), by decide +kernel⟩,
   ⟨a0, 9, wq { st := .active, ready := true }, admin (by decide +kernel)⟩,
   ⟨a0, 1, wq { st := .active, ready := true, logging := true, log := [(4, false)] }, admin (by decide +kernel), by decide +kernel⟩,
   ⟨a0, 1, wq { st := .active, ready := true }, admin (by decide +kernel), by decide +kernel⟩,
   ⟨a0, 1, 1, { cx 1 .read .held with tenant := 1 },
     withCx (wq { st := .active, ready := true, heldCmds := [1] }) { cx 1 .read .held with tenant := 1 }, admin (by decide +kernel),
     by decide +kernel⟩,
   ⟨a0, 1, 100, wq { st := .active, ready := true, quiesce := some (a0, 100) }, room (by decide +kernel), by decide +kernel⟩,
   ⟨1, wq { st := .active, ready := true }, by decide +kernel⟩,
   ⟨a0, 1, wq { st := .quiesced, ready := true }, admin (by decide +kernel), by decide +kernel⟩⟩

/-- States and operands that meet the hypotheses of `QuiesceLogsAndMigration`, clause by clause. -/
theorem witness_QuiesceLogsAndMigration_2 :
    (∃ (h : Hdr) (u : Nat) (n : Nat) (s : State), s.TakesAdmin ruleTenant0 h ∧ n < 262144 ∧ s.slotFree u = false ∧ (s.tenant u).logging = false) ∧
    (∃ (h : Hdr) (u : Nat) (n : Nat) (o : Nat) (s : State), s.TakesAdmin ruleTenant0 h ∧ (262144 ≤ n ∨ o ≠ 0 ∨ s.slotFree u = true)) ∧
    (∃ (h : Hdr) (u : Nat) (n : Nat) (s : State), s.TakesAdmin ruleTenant0 h ∧ s.roomForEvents ∧ n < 262144 ∧ (s.tenant u).st = .quiesced) ∧
    (∃ (h : Hdr) (u : Nat) (n : Nat) (o : Nat) (s : State), s.TakesAdmin ruleTenant0 h ∧ n < 262144 ∧ (s.tenant u).st = .quiesced ∧ o ≠ 0) ∧
    (∃ (h : Hdr) (u : Nat) (n : Nat) (o : Nat) (s : State), s.TakesAdmin ruleTenant0 h ∧ (262144 ≤ n ∨ (s.tenant u).st ≠ .quiesced)) ∧
    (∃ (h : Hdr) (d : Nat) (u : Nat) (n : Nat) (s : State), s.TakesAdmin ruleTenant0 h ∧ s.roomForEvents ∧ s.importBad d u n true = false) ∧
    (∃ (h : Hdr) (d : Nat) (u : Nat) (n : Nat) (ok : Bool) (s : State), s.TakesAdmin ruleTenant0 h ∧ s.importBad d u n ok = true) ∧
    (∃ (h : Hdr) (d : Nat) (u : Nat) (n : Nat) (ok : Bool) (s : State), s.TakesAdmin ruleTenant0 h) :=
  ⟨⟨a0, 1, 262143, wq { st := .active, ready := true }, admin (by decide +kernel), by decide +kernel⟩,
   ⟨a0, 1, 262144, 0, wq { st := .active }, admin (by decide +kernel), by decide +kernel⟩,
   ⟨a0, 1, 0, wq { st := .quiesced, ready := true }, admin (by decide +kernel), room (by decide +kernel), by decide +kernel⟩,
   ⟨a0, 1, 262143, 4, wq { st := .quiesced }, admin (by decide +kernel), by decide +kernel⟩,
   ⟨a0, 1, 262144, 0, wq { st := .quiesced }, admin (by decide +kernel), by decide +kernel⟩,
   ⟨a0, 2, 1, 3, wq { st := .quiesced, ready := true, exports := 3 }, admin (by decide +kernel), room (by decide +kernel), by decide +kernel⟩,
   ⟨a0, 2, 1, 3, false, wq { st := .quiesced, ready := true, exports := 3 }, admin (by decide +kernel), by decide +kernel⟩,
   ⟨a0, 2, 1, 3, false, wq { st := .quiesced, ready := true, exports := 3 }, admin (by decide +kernel)⟩⟩

/-- States and operands that meet the hypotheses of `LedgerAcknowledge`, clause by clause. -/
theorem witness_LedgerAcknowledge :
    (∃ (h : Hdr) (seq : Nat) (s : State), s.TakesBoot h ∧ s.boot.seqNew < seq) ∧
    (∃ (h : Hdr) (seq : Nat) (s : State), s.TakesBoot h ∧ s.roomForEvents ∧ seq ≤ s.boot.seqNew ∧ seq ≤ s.boot.seqAck) ∧
    (∃ (h : Hdr) (seq : Nat) (s : State), s.TakesBoot h ∧ s.roomForEvents ∧ seq ≤ s.boot.seqNew ∧ s.boot.seqAck < seq) :=
  ⟨⟨a0, 6, wb, Or.inl (admin (by decide +kernel)), by decide +kernel⟩,
   ⟨a0, 2, wb, Or.inl (admin (by decide +kernel)), room (by decide +kernel), by decide +kernel⟩,
   ⟨mc0, 3, wb, Or.inr (by decide +kernel), room (by decide +kernel), by decide +kernel⟩⟩

/-- States and operands that meet the hypotheses of `BootStoreKeepsBanksAndLedger`, clause by clause. -/
theorem witness_BootStoreKeepsBanksAndLedger_1 :
    (∃ (n : Nat) (s : State), s.roomForEvents ∧ s.running = true ∧ isLedgerSector n = true ∧ s.ledgerErasing = true) ∧
    (∃ (n : Nat) (s : State), s.running = true ∧ (isLedgerSector n = false ∨ s.ledgerErasing = false)) ∧
    (∃ (n : Nat) (s : State), s.roomForEvents ∧ s.running = true ∧ s.boot.poolLeft ≠ 0) ∧
    (∃ (n : Nat) (how : Nat) (c : Instr) (s : State), (c, how) ∈ [(.bootStoreEraseDone n false, 1), (.bootStoreProgramDone .header n false, 2),
      (.bootStoreProgramDone .seed n false, 2)] ∧ s.running = true ∧ s.boot.poolLeft ≠ 0 ∧ s.evr.queue.length < 223) ∧
    (∃ (n : Nat) (how : Nat) (c : Instr) (s : State), (c, how) ∈ [(.bootStoreEraseDone n false, 1), (.bootStoreProgramDone .header n false, 2),
      (.bootStoreProgramDone .seed n false, 2)] ∧ s.running = true ∧ s.boot.poolLeft = 0) ∧
    (∃ (n : Nat) (ok : Bool) (k : ProgramKind) (s : State), s.running = false) ∧
    (∃ (n : Nat) (e : LedgerEntry) (ok : Bool) (s : State), s.running = true ∧ s.boot.heldEntry = some e ∧ s.boot.erasedAhead = true ∧
      (ok = true ∨ s.boot.poolLeft ≠ 0)) ∧
    (∃ (n : Nat) (e : LedgerEntry) (s : State), s.running = true ∧ s.boot.heldEntry = some e ∧ s.boot.erasedAhead = true ∧ s.boot.poolLeft = 0) :=
  ⟨⟨258, wb.onBoot fun b => { b with erasedAhead := false, heldEntry := some ⟨6, 0, 0, 1, 0, 0, 0, 0, 0⟩ }, room (by decide +kernel),
    by decide +kernel⟩,
   ⟨3, wb, by decide +kernel⟩,
   ⟨129, wb, room (by decide +kernel), by decide +kernel⟩,
   ⟨258, 1, .bootStoreEraseDone 258 false, wb.onBoot fun b => { b with poolLeft := 9 }, by decide +kernel⟩,
   ⟨386, 1, .bootStoreEraseDone 386 false, wb.onBoot fun b => { b with poolLeft := 0 }, by decide +kernel⟩,
   ⟨3, true, .header, State.reset, by decide +kernel⟩,
   ⟨258, ⟨6, 0, 0, 1, 0, 0, 0, 0, 0⟩, true,
     wb.onBoot fun b => { b with poolLeft := 0, heldEntry := some ⟨6, 0, 0, 1, 0, 0, 0, 0, 0⟩, erasedAhead := true }, by decide +kernel⟩,
   ⟨258, ⟨6, 0, 0, 1, 0, 0, 0, 0, 0⟩,
     wb.onBoot fun b => { b with poolLeft := 0, heldEntry := some ⟨6, 0, 0, 1, 0, 0, 0, 0, 0⟩, erasedAhead := true }, by decide +kernel⟩⟩

/-- States and operands that meet the hypotheses of `BootStoreKeepsBanksAndLedger`, clause by clause. -/
theorem witness_BootStoreKeepsBanksAndLedger_2 :
    (∃ (n : Nat) (s : State), (s.boot.heldEntry = none ∨ s.boot.erasedAhead = false)) ∧
    (∃ (n : Nat) (k : Nat) (h : Hdr) (last : Bool) (ok : Bool) (x : Image) (s : State), s.running = true ∧ s.muted h = false ∧
      (ok = true ∨ s.boot.poolLeft ≠ 0) ∧ s.boot.staging.find? (fun p => p.2.1 == k % 2) = some (h, k % 2, last, x) ∧ (s.boot.bank k).st ≠ .staging) ∧
    (∃ (n : Nat) (k : Nat) (h : Hdr) (x : Image) (ok : Bool) (s : State), s.running = true ∧ s.muted h = false ∧ (ok = true ∨ s.boot.poolLeft ≠ 0) ∧
      s.boot.staging.find? (fun p => p.2.1 == k % 2) = some (h, k % 2, false, x) ∧ (s.boot.bank k).st = .staging) ∧
    (∃ (n : Nat) (k : Nat) (h : Hdr) (x : Image) (ok : Bool) (s : State), s.running = true ∧ s.muted h = false ∧ s.evr.queue.length < 222 ∧
      (ok = true ∨ s.boot.poolLeft ≠ 0) ∧ s.boot.staging.find? (fun p => p.2.1 == k % 2) = some (h, k % 2, true, x) ∧ (s.boot.bank k).st = .staging) ∧
    (∃ (n : Nat) (k : Nat) (h : Hdr) (last : Bool) (x : Image) (s : State), s.running = true ∧ s.muted h = false ∧ s.boot.poolLeft = 0 ∧
      bankOfSector n = k % 2 ∧ s.boot.staging.find? (fun p => p.2.1 == k % 2) = some (h, k % 2, last, x)) ∧
    (∃ (n : Nat) (k : Nat) (s : State), s.boot.staging.find? (fun p => p.2.1 == k % 2) = none) ∧
    (∃ (x : Image) (s : State), s.roomForEvents ∧ s.running = true ∧ s.boot.lkgArmed = true ∧ s.boot.running = some x) ∧
    (∃ (s : State), (s.running = false ∨ s.boot.lkgArmed = false ∨ s.boot.running = none)) :=
  ⟨⟨258, wb, by decide +kernel⟩,
   ⟨130, 1, a0, true, true, img 1,
     (wi (img 1)).onBoot fun b => { b with staging := [(a0, 1, true, img 1)], bank1 := ⟨.valid, 0, some (img 1)⟩, poolLeft := 0 }, by decide +kernel⟩,
   ⟨130, 1, a0, img 1, true,
     (wi (img 1)).onBoot fun b => { b with staging := [(a0, 1, false, img 1)], bank1 := ⟨.staging, 0, some (img 1)⟩, poolLeft := 0 },
     by decide +kernel⟩,
   ⟨130, 3, a0, img 1, false,
     (wi (img 1)).onBoot fun b => { b with staging := [(a0, 1, true, img 1)], bank1 := ⟨.staging, 0, some (img 1)⟩, poolLeft := 5 },
     by decide +kernel⟩,
   ⟨130, 1, a0, true, img 1,
     (wi (img 1)).onBoot fun b => { b with staging := [(a0, 1, true, img 1)], bank1 := ⟨.staging, 0, some (img 1)⟩, poolLeft := 0 },
     by decide +kernel⟩,
   ⟨130, 0, wb, by decide +kernel⟩,
   ⟨img 1, (wi (img 1)).onBoot fun b => { b with lkgArmed := true }, room (by decide +kernel), by decide +kernel⟩,
   ⟨wb.onPower fun p => { p with inReset := true }, by decide +kernel⟩⟩

/-- States and operands that meet the hypotheses of `BootStoreKeepsBanksAndLedger`, clause by clause. -/
theorem witness_BootStoreKeepsBanksAndLedger_3 :
    (∃ (h : Hdr) (seq : Nat) (numd : Nat) (ofst : Nat) (s : State), s.TakesBoot h ∧ ledgerTransferBad numd ofst = true) ∧
    (∃ (h : Hdr) (seq : Nat) (numd : Nat) (es : List LedgerEntry) (s : State), s.TakesBoot h ∧ ledgerTransferBad numd 0 = false ∧
      es = (s.boot.ledger.filter (fun x => decide (seq ≤ x.seq))).take ((numd + 1) / 4096)) ∧
    (∃ (h : Hdr) (numd : Nat) (s : State), s.TakesBoot h ∧ ledgerTransferBad numd 0 = false) :=
  ⟨⟨a0, 0, 7, 0, wb, Or.inl (admin (by decide +kernel)), by decide +kernel⟩,
   ⟨a0, 5, 8191, wb.boot.ledger.drop 1, wb, Or.inl (admin (by decide +kernel)), by decide +kernel⟩,
   ⟨a0, 4095, wb, Or.inl (admin (by decide +kernel)), by decide +kernel⟩⟩

/-- States and operands that meet the hypotheses of `ImagesAreStagedAndActivated`, clause by clause. -/
theorem witness_ImagesAreStagedAndActivated_1 :
    (∃ (h : Hdr) (bank : Nat) (numd : Nat) (ofst : Nat) (last : Bool) (x : Image) (s : State), s.TakesBoot h ∧
      (overMdts numd = true ∨ s.bankInUse (bank % 2) = true)) ∧
    (∃ (h : Hdr) (bank : Nat) (numd : Nat) (last : Bool) (x : Image) (s : State), s.TakesBoot h ∧ overMdts numd = false ∧
      s.bankInUse (bank % 2) = false) ∧
    (∃ (h : Hdr) (bank : Nat) (numd : Nat) (ofst : Nat) (last : Bool) (x : Image) (s : State), s.TakesBoot h ∧ overMdts numd = false ∧
      s.bankInUse (bank % 2) = false ∧ ofst ≠ 0 ∧ (s.boot.bank bank).st = .staging) ∧
    (∃ (h : Hdr) (bank : Nat) (numd : Nat) (ofst : Nat) (last : Bool) (x : Image) (s : State), s.TakesBoot h ∧ overMdts numd = false ∧
      s.bankInUse (bank % 2) = false ∧ ofst ≠ 0 ∧ (s.boot.bank bank).st ≠ .staging) ∧
    (∃ (h : Hdr) (bank : Nat) (s : State), s.TakesBoot h ∧ s.activateBusy true = 0 ∧ s.bankCause (bank % 2) = 0 ∧ s.power.holds.contains 3 = false) ∧
    (∃ (h : Hdr) (bank : Nat) (s : State), s.TakesBoot h ∧ s.activateBusy true = 0 ∧ s.bankCause (bank % 2) = 0 ∧ s.power.holds.contains 3 = true) ∧
    (∃ (h : Hdr) (bank : Nat) (s : State), s.TakesBoot h ∧ s.activateBusy true ≠ 0) ∧
    (∃ (h : Hdr) (bank : Nat) (s : State), s.TakesBoot h ∧ s.activateBusy true = 0 ∧ s.bankCause (bank % 2) ≠ 0) :=
  ⟨⟨a0, 0, 1023, 0, true, img 1, wi (img 1), Or.inl (admin (by decide +kernel)), by decide +kernel⟩,
   ⟨a0, 1, 262143, true, img 1, wi (img 1), Or.inl (admin (by decide +kernel)), by decide +kernel⟩,
   ⟨a0, 1, 1023, 1024, false, img 1, (wi (img 1)).onBoot fun b => { b with bank1 := ⟨.staging, 0, some (img 1)⟩ },
     Or.inl (admin (by decide +kernel)), by decide +kernel⟩,
   ⟨a0, 1, 1023, 1024, true, img 1, wi (img 1), Or.inl (admin (by decide +kernel)), by decide +kernel⟩,
   ⟨a0, 1, wi (img 1), Or.inl (admin (by decide +kernel)), by decide +kernel⟩,
   ⟨mc0, 1, (wi (img 1)).onPower fun p => { p with holds := [3] }, Or.inr (by decide +kernel), by decide +kernel⟩,
   ⟨a0, 1, (wi (img 1)).onBoot fun b => { b with applying := true }, Or.inl (admin (by decide +kernel)), by decide +kernel⟩,
   ⟨a0, 1, wi { img 1 with sigsOk := false }, Or.inl (admin (by decide +kernel)), by decide +kernel⟩⟩

/-- States and operands that meet the hypotheses of `ImagesAreStagedAndActivated`, clause by clause. -/
theorem witness_ImagesAreStagedAndActivated_2 :
    (∃ (h : Hdr) (s : State), s.TakesBoot h ∧ s.activateBusy false = 0 ∧ s.bankCause (1 - s.boot.booted) = 0) ∧
    (∃ (h : Hdr) (s : State), s.TakesBoot h ∧ s.activateBusy false ≠ 0) ∧
    (∃ (h : Hdr) (s : State), s.TakesBoot h ∧ s.activateBusy false = 0 ∧ s.bankCause (1 - s.boot.booted) ≠ 0) ∧
    (∃ (h : Hdr) (numd : Nat) (ofst : Nat) (last : Bool) (b : Bundle) (s : State), s.TakesAdmin ruleManager h ∧ overMdts numd = true) ∧
    (∃ (h : Hdr) (numd : Nat) (ofst : Nat) (last : Bool) (b : Bundle) (s : State), s.TakesAdmin ruleManager h ∧ overMdts numd = false ∧
      s.strictLedger = true ∧ s.boot.ledgerFull = true) ∧
    (∃ (h : Hdr) (numd : Nat) (ofst : Nat) (last : Bool) (b : Bundle) (s : State), s.TakesAdmin ruleManager h ∧ overMdts numd = false ∧
      (s.strictLedger = false ∨ s.boot.ledgerFull = false) ∧ ofst ≠ 0 ∧ s.boot.applying = false) ∧
    (∃ (h : Hdr) (numd : Nat) (ofst : Nat) (b : Bundle) (s : State), s.TakesAdmin ruleManager h ∧ overMdts numd = false ∧
      (s.strictLedger = false ∨ s.boot.ledgerFull = false) ∧ (ofst = 0 ∨ s.boot.applying = true)) ∧
    (∃ (h : Hdr) (numd : Nat) (ofst : Nat) (b : Bundle) (s : State), s.TakesAdmin ruleManager h ∧ overMdts numd = false ∧
      (s.strictLedger = false ∨ s.boot.ledgerFull = false) ∧ (ofst = 0 ∨ s.boot.applying = true) ∧
      (b.sigsOk = false ∨ b.records.any (fun r => !r.live) = true)) :=
  ⟨⟨a0, wi (img 1), Or.inl (admin (by decide +kernel)), by decide +kernel⟩,
   ⟨a0, (wi (img 1)).onBoot fun b => { b with applying := true }, Or.inl (admin (by decide +kernel)), by decide +kernel⟩,
   ⟨a0, wi { img 1 with sigsOk := false }, Or.inl (admin (by decide +kernel)), by decide +kernel⟩,
   ⟨a0, 262144, 0, true, ⟨true, []⟩, wi (img 1), admin (by decide +kernel), by decide +kernel⟩,
   ⟨a0, 1023, 0, true, ⟨true, []⟩, wk.onBoot fun b => { b with running := some { img 1 with strict := true }, seqNew := 1000000 },
     admin (by decide +kernel), by decide +kernel⟩,
   ⟨a0, 1023, 1024, true, ⟨true, []⟩, wi (img 1), admin (by decide +kernel), by decide +kernel⟩,
   ⟨a0, 1023, 0, ⟨true, []⟩, wi (img 1), admin (by decide +kernel), by decide +kernel⟩,
   ⟨a0, 1023, 0, ⟨false, []⟩, wi (img 1), admin (by decide +kernel), by decide +kernel⟩⟩

/-- States and operands that meet the hypotheses of `ImagesAreStagedAndActivated`, clause by clause. -/
theorem witness_ImagesAreStagedAndActivated_3 :
    (∃ (h : Hdr) (numd : Nat) (ofst : Nat) (b : Bundle) (r : CfgRecord) (x : Image) (s : State) (u : State), s.TakesAdmin ruleManager h ∧
      s.roomForEvents ∧ overMdts numd = false ∧ (s.strictLedger = false ∨ s.boot.ledgerFull = false) ∧ (ofst = 0 ∨ s.boot.applying = true) ∧
      b.sigsOk = true ∧ b.records.any (fun r => !r.live) = false ∧ u = (s.fetchOne h).onBoot (fun b => { b with applying := false }) ∧
      b.records = [r] ∧ s.boot.running = some x ∧ u.recordCause x.schema r ≠ 0) ∧
    (∃ (h : Hdr) (numd : Nat) (ofst : Nat) (b : Bundle) (s : State), s.TakesAdmin ruleManager h ∧ overMdts numd = false ∧
      (s.strictLedger = false ∨ s.boot.ledgerFull = false) ∧ (ofst = 0 ∨ s.boot.applying = true) ∧ b.sigsOk = true ∧
      b.records.any (fun r => !r.live) = false ∧ ((s.fetchOne h).onBoot fun b => { b with applying := false }).bundleCauses b = []) :=
  ⟨⟨a0, 1023, 0, ⟨true, [⟨true, 9, .writes []⟩]⟩, ⟨true, 9, .writes []⟩, img 1, wi (img 1),
    ((wi (img 1)).fetchOne a0).onBoot fun b => { b with applying := false }, admin (by decide +kernel), room (by decide +kernel), by decide +kernel⟩,
   ⟨a0, 1023, 0, ⟨true, [⟨true, 1, .writes []⟩]⟩, wi (img 1), admin (by decide +kernel), by decide +kernel⟩⟩

/-- States and operands that meet the hypotheses of `LiveRollsRunTheirPhases`, clause by clause. -/
theorem witness_LiveRollsRunTheirPhases_1 :
    (∃ (h : Hdr) (bank : Nat) (y : Image) (s : State), s.TakesBoot h ∧ s.roomForEvents ∧ (s.fetchOne h).liveCause (bank % 2) = 0 ∧
      (s.boot.bank bank).image = some y) ∧
    (∃ (h : Hdr) (bank : Nat) (s : State), s.TakesBoot h ∧ (s.fetchOne h).liveCause (bank % 2) ≠ 0) ∧
    (∃ (ok : Bool) (s : State), s.boot.roll = none) ∧
    (∃ (r : Roll) (s : State), s.boot.roll = some r ∧
      (s.rolling = false ∨ r.running = true ∨ s.rollReady r = false ∨ s.boot.running = none ∨ s.rollTarget r = none)) ∧
    (∃ (r : Roll) (ok : Bool) (s : State), s.boot.roll = some r ∧ (s.rolling = false ∨ r.running = false)) ∧
    (∃ (r : Roll) (x : Image) (y : Image) (c : Handover) (s : State), s.roomForEvents ∧ s.boot.roll = some r ∧ s.rolling = true ∧ r.running = false ∧
      s.rollReady r = true ∧ r.back = false ∧ r.phase ≠ 1 ∧ s.boot.running = some x ∧ s.rollTarget r = some y ∧ clashIn x y r.phase = some c) ∧
    (∃ (r : Roll) (x : Image) (y : Image) (s : State), s.boot.roll = some r ∧ s.rolling = true ∧ r.running = false ∧ s.rollReady r = true ∧
      s.boot.running = some x ∧ s.rollTarget r = some y ∧ (r.back = true ∨ clashIn x y r.phase = none)) ∧
    (∃ (r : Roll) (x : Image) (y : Image) (s : State), s.boot.roll = some r ∧ s.rolling = true ∧ r.running = false ∧ s.rollReady r = true ∧
      s.boot.running = some x ∧ s.rollTarget r = some y ∧ (r.back = true ∨ clashIn x y r.phase = none) ∧ r.phase = 2 ∧
      hasBit (s.blk r.unit).cellFailed 16 = false ∧ s.spareTaken r.unit = false) :=
  ⟨⟨a0, 1, img 1, wi (img 1), Or.inl (admin (by decide +kernel)), room (by decide +kernel), by decide +kernel⟩,
   ⟨a0, 1, wi (img 2), Or.inl (admin (by decide +kernel)), by decide +kernel⟩,
   ⟨true, wk, by decide +kernel⟩,
   ⟨rl 3 0 true, wr' (img 1) (rl 3 0 true), by decide +kernel⟩,
   ⟨rl 3 0 false, true, wr' (img 1) (rl 3 0 false), by decide +kernel⟩,
   ⟨rl 3 0 false, img 1, img 2, ⟨3, 2, 3, (1, 1), (2, 2)⟩, wr' (img 2) (rl 3 0 false), room (by decide +kernel), by decide +kernel⟩,
   ⟨rl 3 0 false, img 1, img 1, wr' (img 1) (rl 3 0 false), by decide +kernel⟩,
   ⟨rl 2 0 false, img 1, img 1, wr' (img 1) (rl 2 0 false), by decide +kernel⟩⟩

/-- States and operands that meet the hypotheses of `LiveRollsRunTheirPhases`, clause by clause. -/
theorem witness_LiveRollsRunTheirPhases_2 :
    (∃ (r : Roll) (x : Image) (y : Image) (s : State), s.roomForEvents ∧ s.boot.roll = some r ∧ s.rolling = true ∧ r.running = false ∧
      s.rollReady r = true ∧ s.boot.running = some x ∧ s.rollTarget r = some y ∧ (r.back = true ∨ clashIn x y r.phase = none) ∧ r.phase = 2) ∧
    (∃ (r : Roll) (s : State), s.boot.roll = some r ∧ s.rolling = true ∧ r.running = true ∧ r.back = false ∧ r.phase = 1) ∧
    (∃ (r : Roll) (s : State), s.roomForEvents ∧ s.boot.roll = some r ∧ s.rolling = true ∧ r.running = true ∧ r.back = false ∧ r.phase = 1 ∧
      s.muted r.hdr = false ∧ s.boot.ledgerFull = false) ∧
    (∃ (r : Roll) (s : State), s.boot.roll = some r ∧ s.rolling = true ∧ r.running = true ∧ r.phase = 2 ∧ r.inPlace = false) ∧
    (∃ (r : Roll) (s : State), s.roomForEvents ∧ s.boot.roll = some r ∧ s.rolling = true ∧ r.running = true ∧ r.phase = 2 ∧ r.inPlace = true ∧
      r.cell < 16) ∧
    (∃ (r : Roll) (s : State), s.boot.roll = some r ∧ s.rolling = true ∧ r.running = true ∧ r.back = false ∧ r.phase = 2 ∧ r.cell ≤ 16 ∧
      hasBit (s.blk r.unit).cellFailed r.cell = false) ∧
    (∃ (r : Roll) (s : State), s.boot.roll = some r ∧ s.rolling = true ∧ r.running = true ∧ r.back = false ∧ r.phase = 3 ∧ r.unit < 31) ∧
    (∃ (r : Roll) (s : State), s.boot.roll = some r ∧ s.rolling = true ∧ r.running = true ∧ r.back = false ∧ r.phase = 4 ∧ r.unit < 7) :=
  ⟨⟨rl 2 0 false, img 1, img 1, (wr' (img 1) (rl 2 0 false)).updBlk 0 fun y => { y with spareLane := 3 }, room (by decide +kernel),
    by decide +kernel⟩,
   ⟨rl 1 0 true, wr' (img 1) (rl 1 0 true), by decide +kernel⟩,
   ⟨rl 1 0 true, wr' (img 1) (rl 1 0 true), room (by decide +kernel), by decide +kernel⟩,
   ⟨{ rl 2 0 true with cell := 16 },
     { ((wr' (img 1) ({ rl 2 0 true with cell := 16 })).updBlk 0 fun y => { y with cellFailed := 1 }) with lanes := [(1, la)] }, by decide +kernel⟩,
   ⟨{ rl 2 1 true with cell := 3, inPlace := true },
     { ((wr' (img 1) ({ rl 2 1 true with cell := 3, inPlace := true })).updBlk 0 fun y => { y with cellFailed := 0x10 }) with lanes := [(3, { la with outage := some .roll })] }, room (by decide +kernel), by decide +kernel⟩,
   ⟨{ rl 2 1 true with cell := 16 }, wr' (img 1) ({ rl 2 1 true with cell := 16 }), by decide +kernel⟩,
   ⟨{ rl 3 0 true with unit := 30 }, wr' (img 1) { rl 3 0 true with unit := 30 }, by decide +kernel⟩,
   ⟨{ rl 4 0 true with unit := 6 }, wr' (img 1) { rl 4 0 true with unit := 6 }, by decide +kernel⟩⟩

/-- States and operands that meet the hypotheses of `LiveRollsRunTheirPhases`, clause by clause. -/
theorem witness_LiveRollsRunTheirPhases_3 :
    (∃ (r : Roll) (p : Nat) (u : Nat) (ok : Bool) (s : State), s.boot.roll = some r ∧ s.rolling = true ∧ r.running = true ∧
      (r.phase = 3 ∨ r.phase = 4 ∨ (r.phase = 5 ∧ (2 ≤ r.stage ∨ ok = false)) ∨ (r.phase = 6 ∧ r.back = true)) ∧ (ok = true ∨ r.back = true) ∧
      rollNext r = some (p, u)) ∧
    (∃ (r : Roll) (s : State), s.boot.roll = some r ∧ s.rolling = true ∧ r.running = true ∧ r.back = false ∧ 3 ≤ r.phase) ∧
    (∃ (r : Roll) (s : State), s.boot.roll = some r ∧ s.rolling = true ∧ r.running = true ∧ r.phase = 5 ∧ r.stage = 0) ∧
    (∃ (r : Roll) (s : State), s.boot.roll = some r ∧ s.rolling = true ∧ r.running = true ∧ r.phase = 5 ∧ r.stage = 1) ∧
    (∃ (r : Roll) (s : State), s.boot.roll = some r ∧ s.rolling = true ∧ r.running = true ∧ r.back = false ∧ r.phase = 5) ∧
    (∃ (r : Roll) (s : State), s.roomForEvents ∧ s.boot.roll = some r ∧ s.rolling = true ∧ r.running = true ∧ r.back = true ∧ r.phase = 2 ∧
      r.unit = 0 ∧ r.inPlace = false ∧ r.cell = 15 ∧ 2 ≤ r.stage ∧ s.muted r.hdr = false ∧ s.boot.ledgerFull = false) ∧
    (∃ (r : Roll) (s : State), s.roomForEvents ∧ s.boot.roll = some r ∧ s.rolling = true ∧ r.running = true ∧ r.back = false ∧ r.phase = 6 ∧
      s.muted r.hdr = false ∧ s.boot.ledgerFull = false) :=
  ⟨⟨rl 3 0 true, 3, 1, true, (wr' (img 1) (rl 3 0 true)).updBlk 0 fun y => { y with marshalOut := true }, by decide +kernel⟩,
   ⟨rl 3 0 true, wr' (img 1) (rl 3 0 true), by decide +kernel⟩,
   ⟨rl 5 0 true, wr' (img 1) (rl 5 0 true), by decide +kernel⟩,
   ⟨rl 5 1 true, wr' (img 1) (rl 5 1 true), by decide +kernel⟩,
   ⟨rl 5 0 true, wr' (img 1) (rl 5 0 true), by decide +kernel⟩,
   ⟨{ rl 2 2 true with cell := 15, back := true, cause := 7 }, wr' (img 1) ({ rl 2 2 true with cell := 15, back := true, cause := 7 }),
     room (by decide +kernel), by decide +kernel⟩,
   ⟨rl 6 0 true, wr' (img 1) (rl 6 0 true), room (by decide +kernel), by decide +kernel⟩⟩

/-- States and operands that meet the hypotheses of `WindowsServeTheirZones`, clause by clause. -/
theorem witness_WindowsServeTheirZones_1 :
    (∃ (h : Hdr) (d : WindowData) (wid : Nat) (s : State), s.TakesAdmin ruleWindow h ∧ s.hasFabric = true ∧ (s.fetchOne h).createRefusal h d = none ∧
      (s.fetchOne h).freeWid 16384 0 = some wid ∧ (s.zone (zoneKey h.nsid (d.zslba / zsze))).rearm = 0 ∧ d.preload = false) ∧
    (∃ (h : Hdr) (d : WindowData) (wid : Nat) (s : State), s.TakesAdmin ruleWindow h ∧ s.hasFabric = true ∧ (s.fetchOne h).createRefusal h d = none ∧
      (s.fetchOne h).freeWid 16384 0 = some wid ∧ (s.zone (zoneKey h.nsid (d.zslba / zsze))).rearm = 0 ∧ d.preload = true) ∧
    (∃ (h : Hdr) (d : WindowData) (wid : Nat) (s : State), s.TakesAdmin ruleWindow h ∧ s.hasFabric = true ∧ (s.fetchOne h).createRefusal h d = none ∧
      (s.fetchOne h).freeWid 16384 0 = some wid ∧ (s.zone (zoneKey h.nsid (d.zslba / zsze))).rearm ≠ 0) ∧
    (∃ (h : Hdr) (d : WindowData) (st : Status) (s : State), s.TakesAdmin ruleWindow h ∧ s.hasFabric = true ∧
      (s.fetchOne h).createRefusal h d = some st) ∧
    (∃ (h : Hdr) (d : WindowData) (w : Nat) (s : State), s.TakesAdmin ruleWindow h ∧ s.hasFabric = false) ∧
    (∃ (h : Hdr) (wid : Nat) (s : State), s.TakesAdmin ruleWindow h ∧ s.hasFabric = true ∧ (s.window wid).up = true ∧
      (s.window wid).tenant = s.tenantOf h.ctrl ∧ (s.window wid).nsid = h.nsid ∧ (s.window wid).preload = none) ∧
    (∃ (h : Hdr) (g : Hdr) (wid : Nat) (s : State), s.TakesAdmin ruleWindow h ∧ s.hasFabric = true ∧ (s.window wid).up = true ∧
      (s.window wid).tenant = s.tenantOf h.ctrl ∧ (s.window wid).nsid = h.nsid ∧ (s.window wid).preload = some g ∧ s.muted g = false) ∧
    (∃ (h : Hdr) (wid : Nat) (s : State), s.TakesAdmin ruleWindow h ∧ s.hasFabric = true ∧
      ((s.window wid).up = false ∨ (s.window wid).tenant ≠ s.tenantOf h.ctrl ∨ (s.window wid).nsid ≠ h.nsid)) :=
  ⟨⟨ad 1, wdata false, 0, ww win [], admin (by decide +kernel), by decide +kernel⟩,
   ⟨ad 1, wdata true, 0, ww win [], admin (by decide +kernel), by decide +kernel⟩,
   ⟨ad 1, wdata false, 0, let s := ww win []; { s with zones := [(zk0 1, { openZ with st := .full, rearm := 1 })] }, admin (by decide +kernel), by decide +kernel⟩,
   ⟨ad 1, { wdata false with pd := 4 }, .invalidField, ww win [], admin (by decide +kernel), by decide +kernel⟩,
   ⟨ad 1, wdata false, 0, { wn [] with variant := 3 }, admin (by decide +kernel), by decide +kernel⟩,
   ⟨ad 1, 5, ww win [], admin (by decide +kernel), by decide +kernel⟩,
   ⟨ad 1, a0, 5, ww { win with preload := some a0 } [], admin (by decide +kernel), by decide +kernel⟩,
   ⟨ad 1, 6, ww win [], admin (by decide +kernel), by decide +kernel⟩⟩

/-- States and operands that meet the hypotheses of `WindowsServeTheirZones`, clause by clause. -/
theorem witness_WindowsServeTheirZones_2 :
    (∃ (h : Hdr) (wid : Nat) (s : State), s.fabricOn = true ∧ (s.window wid).up = true ∧ (s.window wid).preload = some h ∧ s.muted h = false) ∧
    (∃ (wid : Nat) (s : State), (s.fabricOn = false ∨ (s.window wid).up = false ∨ (s.window wid).preload = none)) ∧
    (∃ (c : Nat) (rkey : Nat) (va : Nat) (len : Nat) (w : Bool) (s : State),
      (s.fabricOn = false ∨ (s.conn c).up = false ∨ (s.conn c).error = true ∨ (s.conn c).frozen = true)) ∧
    (∃ (c : Nat) (rkey : Nat) (va : Nat) (len : Nat) (w : Bool) (s : State), s.fabricOn = true ∧ (s.conn c).up = true ∧ (s.conn c).error = false ∧
      (s.conn c).frozen = false ∧ s.holdsIngress = false ∧ s.power.maint ≠ none) ∧
    (∃ (c : Nat) (rkey : Nat) (va : Nat) (len : Nat) (i : Nat) (q : WinRead) (s : State), s.fabricOn = true ∧ (s.conn c).up = true ∧
      (s.conn c).error = false ∧ (s.conn c).frozen = false ∧ s.holdsIngress = false ∧ s.readRefusal c rkey va len false = none ∧
      s.firstRead c = some (i, q) ∧ q.missing ≠ [] ∧ i < s.fab.nextRead) ∧
    (∃ (c : Nat) (rkey : Nat) (va : Nat) (len : Nat) (s : State), s.roomForEvents ∧ s.fabricOn = true ∧ (s.conn c).up = true ∧
      (s.conn c).error = false ∧ (s.conn c).frozen = false ∧ s.holdsIngress = false ∧ s.power.maint = none ∧
      s.readRefusal c rkey va len false = none ∧ (∀ p ∈ pagesOfRange va len, s.cached (rkey % 16384) p = true) ∧ s.fab.reads = [] ∧
      (s.conn c).queued = 0 ∧ s.windowKey (s.window (rkey % 16384)).nsid (s.window (rkey % 16384)).tenant = false ∧ s.hasFabric = true) ∧
    (∃ (c : Nat) (rkey : Nat) (va : Nat) (len : Nat) (cause : Nat) (w : Bool) (s : State), s.roomForEvents ∧ s.fabricOn = true ∧
      (s.conn c).up = true ∧ (s.conn c).error = false ∧ (s.conn c).frozen = false ∧ s.holdsIngress = false ∧ s.power.maint = none ∧
      s.readRefusal c rkey va len w = some cause) ∧
    (∃ (c : Nat) (rkey : Nat) (va : Nat) (len : Nat) (s : State), s.fabricOn = true ∧ (s.conn c).up = true ∧ (s.conn c).error = false ∧
      (s.conn c).frozen = false ∧ s.holdsIngress = false ∧ s.power.maint = none ∧ s.readRefusal c rkey va len false = none ∧
      (pagesOfRange va len).filter (fun p => !s.cached (rkey % 16384) p) ≠ [] ∧ (s.window (rkey % 16384)).rnr = false ∧ s.fab.reads = []) :=
  ⟨⟨a0, 5, ww { win with preload := some a0 } [], by decide +kernel⟩,
   ⟨5, ww win [], by decide +kernel⟩,
   ⟨1, 5, 0, 4096, false, wk, by decide +kernel⟩,
   ⟨1, 5, 0, 4096, false, (ww win []).onPower fun p => { p with maint := some (.lull, .patrol), ps := 3, lastPs := 1 }, by decide +kernel⟩,
   ⟨1, 5, 0, 4096, 1, wrd, let s := ww win [(1, some wrd)]; { s with fab := { s.fab with nextRead := 2 } }, by decide +kernel⟩,
   ⟨1, 5, 0, 4096, (let s := ww win []; { s with fab := { s.fab with cache := [⟨5, 0, 0, false, 0⟩] } }).onCph fun c => { c with alarm := true }, room (by decide +kernel), by decide +kernel⟩,
   ⟨1, 5, 0, 1048577, 3, false, ww win [], room (by decide +kernel), by decide +kernel⟩,
   ⟨1, 5, 0, 1048576, ww win [], by decide +kernel⟩⟩

/-- States and operands that meet the hypotheses of `WindowsServeTheirZones`, clause by clause. -/
theorem witness_WindowsServeTheirZones_3 :
    (∃ (c : Nat) (rkey : Nat) (va : Nat) (len : Nat) (s : State), s.fabricOn = true ∧ (s.conn c).up = true ∧ (s.conn c).error = false ∧
      (s.conn c).frozen = false ∧ s.holdsIngress = false ∧ s.power.maint = none ∧ s.readRefusal c rkey va len false = none ∧
      (pagesOfRange va len).filter (fun p => !s.cached (rkey % 16384) p) ≠ [] ∧ (s.window (rkey % 16384)).rnr = true ∧ (s.conn c).rnrRead = true ∧
      s.fab.reads = []) ∧
    (∃ (c : Nat) (rkey : Nat) (va : Nat) (len : Nat) (s : State), s.fabricOn = true ∧ (s.conn c).up = true ∧ (s.conn c).error = false ∧
      (s.conn c).frozen = false ∧ s.holdsIngress = false ∧ s.power.maint = none ∧ s.readRefusal c rkey va len false = none ∧
      (∀ p ∈ pagesOfRange va len, s.cached (rkey % 16384) p = true) ∧ s.fab.reads = [] ∧ s.cph.alarm = false ∧
      s.windowKey (s.window (rkey % 16384)).nsid (s.window (rkey % 16384)).tenant = true) ∧
    (∃ (c : Nat) (rkey : Nat) (va : Nat) (len : Nat) (w : Bool) (s : State), s.fabricOn = true ∧ (s.conn c).up = true ∧ (s.conn c).error = false ∧
      (s.conn c).frozen = false ∧ s.holdsIngress = true) ∧
    (∃ (wid : Nat) (page : Nat) (ok : Bool) (s : State), (s.running = false ∨ s.fetching wid page = false)) ∧
    (∃ (wid : Nat) (page : Nat) (s : State), s.running = true ∧ s.fetching wid page = true ∧ (s.window wid).up = true ∧ s.cached wid page = false ∧
      s.cacheFits (s.window wid).tenant 1 = true ∧ s.fab.reads = []) ∧
    (∃ (wid : Nat) (page : Nat) (s : State), s.running = true ∧ s.fetching wid page = true ∧ (s.window wid).up = true ∧ s.cached wid page = false ∧
      s.cacheFits (s.window wid).tenant 1 = false ∧ s.fab.reads = []) ∧
    (∃ (h : Hdr) (wid : Nat) (page : Nat) (s : State), s.running = true ∧ s.fetching wid page = true ∧ (s.window wid).up = true ∧
      (s.window wid).preload = some h ∧ s.muted h = false ∧ s.cached wid page = false ∧ s.cacheFits (s.window wid).tenant 1 = true ∧
      s.fab.reads = [] ∧ s.windowPages ≤ (s.fab.cache.filter fun p => p.wid == wid).length + 1) ∧
    (∃ (wid : Nat) (page : Nat) (i : Nat) (r : WinRead) (s : State), s.running = true ∧ s.fetching wid page = true ∧ s.fab.reads = [(i, some r)] ∧
      r.wid = wid ∧ r.missing = [page] ∧ r.old = none ∧ s.windowKey r.nsid r.tenant = true) :=
  ⟨⟨1, 5, 0, 4096, ww { win with rnr := true } [], by decide +kernel⟩,
   ⟨1, 5, 0, 4096, let s := ww win []; { s with fab := { s.fab with cache := [⟨5, 0, 0, false, 0⟩] } }, by decide +kernel⟩,
   ⟨1, 5, 0, 4096, false, { ww win [] with power := { wk.power with mode := .lull } }, by decide +kernel⟩,
   ⟨5, 0, true, ww win [], by decide +kernel⟩,
   ⟨5, 0, let s := ww win []; { s with fab := { s.fab with fetches := [(5, 0)] } }, by decide +kernel⟩,
   ⟨5, 0, let s := ww win []; { s with fab := { s.fab with fetches := [(5, 0)], cache := [] }, mem := { s.mem with classes := [] } }, by decide +kernel⟩,
   ⟨a0, 5, 0, let s := ww { win with preload := some a0 } []; { s with fab := { s.fab with fetches := [(5, 0)], cache := (List.range 15).map fun i => ⟨5, i + 1, 0, true, 0⟩ }, store := { s.store with pages := 4, planes := 1 } }, by decide +kernel⟩,
   ⟨5, 0, 1, wrd, let s := ww win [(1, some wrd)]; { s with fab := { s.fab with fetches := [(5, 0)] } }, by decide +kernel⟩⟩

/-- States and operands that meet the hypotheses of `WindowsServeTheirZones`, clause by clause. -/
theorem witness_WindowsServeTheirZones_4 :
    (∃ (wid : Nat) (page : Nat) (i : Nat) (r : WinRead) (s : State), s.roomForEvents ∧ s.running = true ∧ s.hasFabric = true ∧
      s.fetching wid page = true ∧ s.fab.reads = [(i, some r)] ∧ r.wid = wid ∧ r.missing = [page]) ∧
    (∃ (i : Nat) (r : WinRead) (s : State), s.roomForEvents ∧ s.winReadAt i = some r ∧ s.fabricOn = true ∧ s.power.mode ≠ .lull ∧
      s.power.exit = none) ∧
    (∃ (i : Nat) (s : State), (s.winReadAt i = none ∨ s.fabricOn = false ∨ s.power.mode = .lull ∨ s.power.exit ≠ none)) :=
  ⟨⟨5, 0, 1, wrd, let s := ww win [(1, some wrd)]; { s with fab := { s.fab with fetches := [(5, 0)] } }, room (by decide +kernel), by decide +kernel⟩,
   ⟨1, wrd, ww win [(1, some wrd)], room (by decide +kernel), by decide +kernel⟩,
   ⟨1, ww win [], by decide +kernel⟩⟩

/-- States and operands that meet the hypotheses of `FabricConnectionsAndDomains`, clause by clause. -/
theorem witness_FabricConnectionsAndDomains_1 :
    (∃ (addr : Nat) (port : Nat) (svc : Nat) (reorder : Nat) (mtu : Nat) (d : Nat) (block : Bool) (sr : Bool) (rnr : Bool) (s : State),
      s.fabricOn = true ∧ (s.port port).up = true ∧ s.addrOn addr port = true ∧ s.listenPd addr svc = some d ∧
      (s.connsWhere fun _ => true).length < 65536) ∧
    (∃ (addr : Nat) (port : Nat) (svc : Nat) (reorder : Nat) (mtu : Nat) (block : Bool) (sr : Bool) (rnr : Bool) (s : State), s.fabricOn = true ∧
      (s.port port).up = true ∧ (s.addrOn addr port = false ∨ s.listenPd addr svc = none ∨ 65536 ≤ (s.connsWhere fun _ => true).length)) ∧
    (∃ (addr : Nat) (port : Nat) (svc : Nat) (reorder : Nat) (mtu : Nat) (block : Bool) (sr : Bool) (rnr : Bool) (s : State),
      (s.fabricOn = false ∨ (s.port port).up = false)) ∧
    (∃ (c : Nat) (s : State), s.fabricOn = true ∧ (s.conn c).up = true ∧ ((s.conn c).ctrl = none ∨ (s.conn c).qid ≠ 0)) ∧
    (∃ (c : Nat) (k : Nat) (s : State), s.fabricOn = true ∧ (s.conn c).up = true ∧ (s.conn c).ctrl = some k ∧ (s.conn c).qid = 0 ∧
      (s.ctrl k).drain = none ∧ s.ctxIds (fun x => x.hdr.ctrl == k) = []) ∧
    (∃ (c : Nat) (s : State), (s.fabricOn = false ∨ (s.conn c).up = false)) ∧
    (∃ (c : Nat) (qid : Nat) (depth : Nat) (cid : Nat) (cntlid : Nat) (k : Nat) (s : State), s.fabricOn = true ∧ (s.conn c).up = true ∧
      (s.conn c).error = false ∧ (s.conn c).ctrl = none ∧ s.connectCtrl (s.conn c).tenant qid cntlid = some k ∧ fabricDepthOk qid depth = true ∧
      s.contextsFit (s.conn c).tenant depth = true ∧
      s.poolFits 65536 (fun l => 4 * l.rqpFloor) (fun l => 4 * l.rqpShare) s.pairsUsed (s.conn c).tenant 1 = true ∧
      (s.fabricClass (s.conn c).tenant qid ≠ .dash ∨ s.pinnedConns < s.pinMax) ∧ (s.ctrl k).drain = none) ∧
    (∃ (c : Nat) (qid : Nat) (depth : Nat) (cid : Nat) (cntlid : Nat) (nqn : Nat) (s : State), s.roomForEvents ∧ s.fabricOn = true ∧
      (s.conn c).up = true ∧ (s.conn c).error = false ∧ (s.conn c).ctrl = none ∧ nqn ≠ (s.tenant (s.conn c).tenant).nqn ∧
      (nqn ≠ discoveryNqn ∨ qid ≠ 0)) :=
  ⟨⟨0, 0, 4420, 64, 4096, 3, false, true, true, (wf cn).setCfgAt (Reg.offset (.fabAddr 4) 0) 0x80000000, by decide +kernel⟩,
   ⟨0, 0, 4421, 64, 4096, false, true, true, (wf cn).setCfgAt (Reg.offset (.fabAddr 4) 0) 0x80000000, by decide +kernel⟩,
   ⟨0, 0, 4420, 64, 4096, false, true, true, wk, by decide +kernel⟩,
   ⟨1, wf cn, by decide +kernel⟩,
   ⟨1, 256, wf { cn with qid := 0 }, by decide +kernel⟩,
   ⟨2, wf cn, by decide +kernel⟩,
   ⟨1, 0, 32, 1, 0, 257, wf { up := true, pd := 3 }, by decide +kernel⟩,
   ⟨1, 1, 64, 1, 256, 9, wf { up := true, pd := 3 }, room (by decide +kernel), by decide +kernel⟩⟩

/-- States and operands that meet the hypotheses of `FabricConnectionsAndDomains`, clause by clause. -/
theorem witness_FabricConnectionsAndDomains_2 :
    (∃ (c : Nat) (qid : Nat) (depth : Nat) (cid : Nat) (cntlid : Nat) (k : Nat) (s : State), s.roomForEvents ∧ s.fabricOn = true ∧
      (s.conn c).up = true ∧ (s.conn c).error = false ∧ (s.conn c).ctrl = none ∧ s.connectCtrl (s.conn c).tenant qid cntlid = some k ∧
      fabricDepthOk qid depth = true ∧ s.contextsFit (s.conn c).tenant depth = true ∧
      s.poolFits 65536 (fun l => 4 * l.rqpFloor) (fun l => 4 * l.rqpShare) s.pairsUsed (s.conn c).tenant 1 = true ∧
      s.fabricClass (s.conn c).tenant qid = .dash ∧ s.pinMax ≤ s.pinnedConns) ∧
    (∃ (c : Nat) (qid : Nat) (depth : Nat) (cid : Nat) (cntlid : Nat) (k : Nat) (s : State), s.roomForEvents ∧ s.fabricOn = true ∧
      (s.conn c).up = true ∧ (s.conn c).error = false ∧ (s.conn c).ctrl = none ∧ s.connectCtrl (s.conn c).tenant qid cntlid = some k ∧
      fabricDepthOk qid depth = true ∧ s.contextsFit (s.conn c).tenant depth = false) ∧
    (∃ (c : Nat) (depth : Nat) (cid : Nat) (cntlid : Nat) (k : Nat) (s : State), s.fabricOn = true ∧ (s.conn c).up = true ∧
      (s.conn c).error = false ∧ (s.conn c).ctrl = none ∧ s.connectCtrl (s.conn c).tenant 0 cntlid = some k ∧ fabricDepthOk 0 depth = true ∧
      s.contextsFit (s.conn c).tenant depth = true ∧
      s.poolFits 65536 (fun l => 4 * l.rqpFloor) (fun l => 4 * l.rqpShare) s.pairsUsed (s.conn c).tenant 1 = true ∧ (s.ctrl k).drain = none) ∧
    (∃ (c : Nat) (qid : Nat) (depth : Nat) (cid : Nat) (cntlid : Nat) (s : State), s.fabricOn = true ∧ (s.conn c).up = true ∧
      (s.conn c).error = false ∧ (s.conn c).ctrl = none ∧
      (s.connectCtrl (s.conn c).tenant qid cntlid = none ∨ fabricDepthOk qid depth = false ∨ (s.contextsFit (s.conn c).tenant depth = true ∧
      s.poolFits 65536 (fun l => 4 * l.rqpFloor) (fun l => 4 * l.rqpShare) s.pairsUsed (s.conn c).tenant 1 = false))) ∧
    (∃ (c : Nat) (qid : Nat) (depth : Nat) (cid : Nat) (cntlid : Nat) (nqn : Nat) (s : State),
      (s.fabricOn = false ∨ (s.conn c).up = false ∨ (s.conn c).error = true ∨ (s.conn c).ctrl ≠ none)) ∧
    (∃ (d : Nat) (u : Nat) (v : BitVec 32) (s : State), s.running = true ∧ s.hasFabric = true ∧ d < 4096 ∧ Tbl.look 0 s.fab.pdOwner d = u + 1 ∧
      s.pdInUse d = false ∧ hasBit (mergeWord (s.cfgWord .fabPd d) pdMask v) 31 = true ∧ (∀ e ∈ s.pdsOf u,
      e ≠ d → s.cfgBit .fabPd e 31 = true → s.cfg .fabPd e 15 0 ≠ bitsOf (mergeWord (s.cfgWord .fabPd d) pdMask v) 15 0)) ∧
    (∃ (d : Nat) (v : BitVec 32) (s : State), s.running = true ∧ s.hasFabric = true ∧ d < 4096 ∧ Tbl.look 0 s.fab.pdOwner d = 0) ∧
    (∃ (d : Nat) (u : Nat) (v : BitVec 32) (s : State), s.roomForEvents ∧ s.running = true ∧ s.hasFabric = true ∧ d < 4096 ∧
      Tbl.look 0 s.fab.pdOwner d = u + 1 ∧ s.pdInUse d = true) :=
  ⟨⟨1, 1, 4096, 1, 256, 256, ((wf { up := true, pd := 3 }).setCfgAt (Reg.offset .tntFabclass 0) 0x10000).setCfgAt (Reg.offset .fabTransportCfg 0) 0,
    room (by decide +kernel), by decide +kernel⟩,
   ⟨1, 0, 32, 1, 0, 257, { wf { up := true, pd := 3 } with tenants := [(0, { st := .active, ready := true, nqn := 5 })] }, room (by decide +kernel),
     by decide +kernel⟩,
   ⟨1, 32, 1, 0, 257, wf { up := true, pd := 3 }, by decide +kernel⟩,
   ⟨1, 0, 33, 1, 0, wf { up := true, pd := 3 }, by decide +kernel⟩,
   ⟨1, 0, 32, 1, 0, 5, wf cn, by decide +kernel⟩,
   ⟨4, 0, 0x80001145, wf cn, by decide +kernel⟩,
   ⟨9, 0x80001144, wf cn, by decide +kernel⟩,
   ⟨3, 0, 0x80001144, wf cn, room (by decide +kernel), by decide +kernel⟩⟩

/-- States and operands that meet the hypotheses of `FabricConnectionsAndDomains`, clause by clause. -/
theorem witness_FabricConnectionsAndDomains_3 :
    (∃ (d : Nat) (u : Nat) (e : Nat) (v : BitVec 32) (s : State), s.roomForEvents ∧ s.running = true ∧ s.hasFabric = true ∧ d < 4096 ∧
      Tbl.look 0 s.fab.pdOwner d = u + 1 ∧ s.pdInUse d = false ∧ hasBit (mergeWord (s.cfgWord .fabPd d) pdMask v) 31 = true ∧ e ∈ s.pdsOf u ∧ e ≠ d ∧
      s.cfgBit .fabPd e 31 = true ∧ s.cfg .fabPd e 15 0 = bitsOf (mergeWord (s.cfgWord .fabPd d) pdMask v) 15 0) ∧
    (∃ (d : Nat) (u : Nat) (v : BitVec 32) (s : State), s.running = true ∧ s.hasFabric = true ∧ d < 4096 ∧ Tbl.look 0 s.fab.pdOwner d = u + 1 ∧
      s.pdInUse d = false ∧ hasBit (mergeWord (s.cfgWord .fabPd d) pdMask v) 31 = false) ∧
    (∃ (a : Nat) (v : BitVec 32) (s : State), s.running = true ∧ s.hasFabric = true ∧ a < 512) ∧
    (∃ (a : Nat) (i : Nat) (v : BitVec 32) (s : State), s.running = true ∧ s.hasFabric = true ∧ a < 512 ∧ i < 4 ∧
      s.cfgBit (.fabAddr 4) a 31 = false) ∧
    (∃ (a : Nat) (i : Nat) (v : BitVec 32) (s : State), s.running = true ∧ s.hasFabric = true ∧ a < 512 ∧ i < 4 ∧
      s.cfgBit (.fabAddr 4) a 31 = true) :=
  ⟨⟨4, 0, 3, 0x80001144, wf cn, room (by decide +kernel), by decide +kernel⟩,
   ⟨4, 0, 0, wf cn, by decide +kernel⟩,
   ⟨511, 0x80000000, wf cn, by decide +kernel⟩,
   ⟨511, 3, 5, wf cn, by decide +kernel⟩,
   ⟨511, 3, 5, (wf cn).setCfgAt (Reg.offset (.fabAddr 4) 511) 0x80000000, by decide +kernel⟩⟩

/-- States and operands that meet the hypotheses of `EthernetPortsFailAndReturn`, clause by clause. -/
theorem witness_EthernetPortsFailAndReturn_1 :
    (∃ (p : Nat) (f : PortFault) (s : State), s.fabricOn = true ∧ (s.port p).up = true ∧ s.bonded = true ∧ (s.port (1 - p)).up = true ∧ p < 2 ∧
      s.evr.queue.length < 223) ∧
    (∃ (p : Nat) (f : PortFault) (s : State), s.roomForEvents ∧ s.fabricOn = true ∧ (s.port p).up = true ∧
      (s.bonded = false ∨ (s.port (1 - p)).up = false)) ∧
    (∃ (p : Nat) (f : PortFault) (s : State), (s.fabricOn = false ∨ (s.port p).up = false)) ∧
    (∃ (p : Nat) (s : State), s.roomForEvents ∧ s.fabricOn = true ∧ (s.port p).up = false ∧ s.cfgBit .fabPortCfg p 31 = true) ∧
    (∃ (p : Nat) (s : State), (s.fabricOn = false ∨ (s.port p).up = true ∨ s.cfgBit .fabPortCfg p 31 = false)) ∧
    (∃ (p : Nat) (s : State), (∀ c, (s.conn c).up = true → (s.conn c).qid ≠ 0) ∧ s.roomForEvents ∧ s.fabricOn = true ∧ (s.port p).hold = true ∧
      (s.connsWhere fun c => c.frozen && c.carried == p) ≠ []) ∧
    (∃ (p : Nat) (s : State), s.fabricOn = true ∧ (s.port p).hold = true ∧ (s.connsWhere fun c => c.frozen && c.carried == p) = []) ∧
    (∃ (p : Nat) (s : State), (s.fabricOn = false ∨ (s.port p).hold = false)) :=
  ⟨⟨1, .localFault, bond (wf cn), by decide +kernel⟩,
   ⟨0, .alignment, (wf cn).setCfgAt (Reg.offset .fabMode 0) 0, room (by decide +kernel), by decide +kernel⟩,
   ⟨0, .alignment, wk, by decide +kernel⟩,
   ⟨0, let s := (wf cn).setCfgAt (Reg.offset .fabPortCfg 0) 0x80000000; { s with fab := { s.fab with ports := [] } }, room (by decide +kernel), by decide +kernel⟩,
   ⟨0, wf cn, by decide +kernel⟩,
   ⟨0, let s := wf { cn with frozen := true }; { s with fab := { s.fab with ports := [(0, { hold := true })] } }, look_of_all (fun c : Conn => c.up = true → c.qid ≠ 0) _ _ (by decide) (by decide +kernel), room (by decide +kernel), by decide +kernel⟩,
   ⟨0, let s := wf cn; { s with fab := { s.fab with ports := [(0, { hold := true })] } }, by decide +kernel⟩,
   ⟨0, wf cn, by decide +kernel⟩⟩

/-- States and operands that meet the hypotheses of `EthernetPortsFailAndReturn`, clause by clause. -/
theorem witness_EthernetPortsFailAndReturn_2 :
    (∃ (p : Nat) (b : Bool) (s : State), (s.fabricOn = false ∨ s.bonded = false ∨ (s.port p).up = false ∨ (b = true ∧ (s.port p).dist = true))) ∧
    (∃ (p : Nat) (c : Nat) (s : State), s.fabricOn = true ∧ s.bonded = true ∧ (s.port p).up = true ∧ (s.port p).dist = false ∧
      (s.connsWhere fun c => c.port == p && c.carried != p && !c.error) = [c] ∧ (s.conn c).up = true ∧ (s.conn c).port = p ∧
      ((s.conn c).unacked ≠ [] ∨ (s.conn c).queued ≠ 0)) ∧
    (∃ (p : Nat) (f : EthFrame) (s : State), (s.fabricOn = false ∨ (s.port p).up = false)) ∧
    (∃ (p : Nat) (s : State), s.cfgBit .fabQosCfg 0 14 = true) ∧
    (∃ (p : Nat) (s : State), s.fabricOn = true ∧ s.bonded = true ∧ (s.port p).up = true) ∧
    (∃ (p : Nat) (s : State), s.fabricOn = true ∧ s.bonded = true ∧ (s.port p).up = true ∧ (s.port p).dist = false ∧
      (s.connsWhere fun c => c.port == p && c.carried != p && !c.error) = []) ∧
    (∃ (p : Nat) (c : Nat) (s : State), s.roomForEvents ∧ s.fabricOn = true ∧ s.bonded = true ∧ (s.port p).up = true ∧ (s.port p).dist = false ∧
      (s.connsWhere fun c => c.port == p && c.carried != p && !c.error) = [c] ∧ (s.connsWhere fun c => c.returning) = [] ∧ (s.conn c).up = true ∧
      (s.conn c).port = p ∧ (s.conn c).unacked = [] ∧ (s.conn c).queued = 0) ∧
    (∃ (p : Nat) (b : Bool) (s : State), (s.bonded = false ∨ (s.port p).up = false)) :=
  ⟨⟨0, true, bond (wf cn), by decide +kernel⟩,
   ⟨0, 1, let s := bond (wf { cn with carried := 1, queued := 2 }); { s with fab := { s.fab with ports := [(0, { up := true })] } }, by decide +kernel⟩,
   ⟨1, .pause, wk, by decide +kernel⟩,
   ⟨0, (wf cn).setCfgAt (Reg.offset .fabQosCfg 0) 0x4000, by decide +kernel⟩,
   ⟨0, bond (wf cn), by decide +kernel⟩,
   ⟨0, let s := bond (wf cn); { s with fab := { s.fab with ports := [(0, { up := true })] } }, by decide +kernel⟩,
   ⟨0, 1, let s := bond (wf { cn with carried := 1 }); { s with fab := { s.fab with ports := [(0, { up := true })] } }, room (by decide +kernel), by decide +kernel⟩,
   ⟨0, true, wk, by decide +kernel⟩⟩

/-- States and operands that meet the hypotheses of `EthernetPortsFailAndReturn`, clause by clause. -/
theorem witness_EthernetPortsFailAndReturn_3 :
    (∃ (p : Nat) (s : State), s.fabricOn = true ∧ (s.port p).up = true) ∧
    (∃ (p : Nat) (s : State), s.fabricOn = true ∧ (s.port p).up = true) ∧
    (∃ (p : Nat) (s : State), s.fabricOn = true ∧ s.cfgBit .fabQosCfg 0 14 = true) ∧
    (∃ (p : Nat) (n : Nat) (b : Bool) (s : State), (s.fabricOn = false ∨ s.cfgBit .fabQosCfg 0 14 = false ∨ n ≠ s.cfg .fabQosCfg 0 17 15)) :=
  ⟨⟨0, wf cn, by decide +kernel⟩,
   ⟨0, wf cn, by decide +kernel⟩,
   ⟨0, (wf cn).setCfgAt (Reg.offset .fabQosCfg 0) 0x4000, by decide +kernel⟩,
   ⟨0, 3, true, wf cn, by decide +kernel⟩⟩

/-- States and operands that meet the hypotheses of `TransportIsReliable`, clause by clause. -/
theorem witness_TransportIsReliable_1 :
    (∃ (c : Nat) (s : State), s.fabricOn = true ∧ (s.conn c).up = true ∧ (s.conn c).error = false ∧ (s.conn c).frozen = false ∧ (s.conn c).ooo = [] ∧
      s.power.entry = none ∧ s.power.exit = none ∧ s.power.maint = none ∧ s.power.mode ≠ .lull ∧ (s.conn c).posted ≠ 0) ∧
    (∃ (c : Nat) (s : State), s.fabricOn = true ∧ (s.conn c).up = true ∧ (s.conn c).error = false ∧ (s.conn c).frozen = false ∧ (s.conn c).ooo = []) ∧
    (∃ (c : Nat) (s : State), s.fabricOn = true ∧ (s.conn c).up = true ∧ (s.conn c).error = false ∧ (s.conn c).frozen = false ∧
      (s.conn c).posted = 0 ∧ (s.conn c).qid ≠ 0) ∧
    (∃ (c : Nat) (psn : Nat) (b : Bool) (s : State), s.fabricOn = true ∧ (s.conn c).up = true ∧ (s.conn c).error = false ∧
      (s.conn c).frozen = false ∧ psn ≠ (s.conn c).epsn ∧ psnBefore (s.conn c).epsn psn = true ∧ (s.conn c).sr = false ∧ (s.conn c).gapNak = false) ∧
    (∃ (c : Nat) (psn : Nat) (b : Bool) (s : State), s.fabricOn = true ∧ (s.conn c).up = true ∧ (s.conn c).error = false ∧
      (s.conn c).frozen = false ∧ psn ≠ (s.conn c).epsn ∧ psnBefore (s.conn c).epsn psn = true ∧ (s.conn c).sr = true ∧
      psnAfter (s.conn c).epsn psn ≤ deviceReorder ∧ (s.conn c).ooo = []) ∧
    (∃ (c : Nat) (psn : Nat) (b : Bool) (s : State), s.fabricOn = true ∧ (s.conn c).up = true ∧ (s.conn c).error = false ∧
      (s.conn c).frozen = false ∧ psn ≠ (s.conn c).epsn ∧ psnBefore (s.conn c).epsn psn = false) ∧
    (∃ (c : Nat) (s : State), s.fabricOn = true ∧ (s.conn c).up = true ∧ (s.conn c).error = false ∧ (s.conn c).sr = true ∧ (s.conn c).ooo ≠ []) ∧
    (∃ (c : Nat) (s : State), (s.fabricOn = false ∨ (s.conn c).up = false ∨ (s.conn c).error = true ∨ (s.conn c).sr = false ∨ (s.conn c).ooo = [])) :=
  ⟨⟨1, wf { cn with epsn := 16777215 }, by decide +kernel⟩,
   ⟨1, wf cn, by decide +kernel⟩,
   ⟨1, wf { cn with posted := 0 }, by decide +kernel⟩,
   ⟨1, 5, true, wf cn, by decide +kernel⟩,
   ⟨1, 256, true, wf { cn with sr := true }, by decide +kernel⟩,
   ⟨1, 9, true, wf { cn with epsn := 10 }, by decide +kernel⟩,
   ⟨1, wf { cn with sr := true, ooo := [5] }, by decide +kernel⟩,
   ⟨1, wf cn, by decide +kernel⟩⟩

/-- States and operands that meet the hypotheses of `TransportIsReliable`, clause by clause. -/
theorem witness_TransportIsReliable_2 :
    (∃ (c : Nat) (psn : Nat) (n : Nat) (b : Bool) (s : State), s.fabricOn = true ∧ (s.conn c).up = true ∧ (s.conn c).error = false ∧
      (s.conn c).frozen = false ∧ psn ≠ (s.conn c).epsn ∧ psnBefore (s.conn c).epsn psn = true ∧ (s.conn c).sr = true ∧
      psnAfter (s.conn c).epsn psn ≤ deviceReorder ∧ (s.conn c).ooo ≠ [] ∧ (s.conn c).sinceSack = n) ∧
    (∃ (c : Nat) (psn : Nat) (b : Bool) (s : State), s.fabricOn = true ∧ (s.conn c).up = true ∧ (s.conn c).error = false ∧
      (s.conn c).frozen = false ∧ psn ≠ (s.conn c).epsn ∧ psnBefore (s.conn c).epsn psn = true ∧ ((s.conn c).sr = true ∧
      deviceReorder < psnAfter (s.conn c).epsn psn ∨ (s.conn c).sr = false ∧ (s.conn c).gapNak = true)) ∧
    (∃ (c : Nat) (last : Bool) (s : State), s.fabricOn = true ∧ (s.conn c).up = true ∧ (s.conn c).error = false ∧ (s.conn c).frozen = false ∧
      s.power.entry = none ∧ s.power.exit = none ∧ s.power.maint = none ∧ s.power.mode ≠ .lull ∧ (s.conn c).posted ≠ 0 ∧
      (s.conn c).ooo = [((s.conn c).epsn + 1) % 2 ^ 24]) ∧
    (∃ (c : Nat) (s : State), s.fabricOn = true ∧ (s.conn c).up = true ∧ (s.conn c).error = false ∧ (s.conn c).frozen = false ∧ (s.conn c).ooo = [] ∧
      s.cfgBit .fabQosCfg 0 30 = true ∧ (∀ t0, (s.conn c).cnpAt = some t0 → t0 + 1000 * s.cfg .fabQosCfg 0 13 0 ≤ s.now)) ∧
    (∃ (c : Nat) (psn : Nat) (us : Nat) (s : State), s.fabricOn = true ∧ (s.conn c).up = true ∧ (s.conn c).error = false ∧
      (s.conn c).frozen = false ∧ (s.conn c).unacked = []) ∧
    (∃ (c : Nat) (psn : Nat) (i : Nat) (sack : List Nat) (s : State), s.fabricOn = true ∧ (s.conn c).up = true ∧ (s.conn c).error = false ∧
      (s.conn c).frozen = false ∧ (s.conn c).sr = true ∧ i ∈ sack ∧ (∀ u ∈ (s.conn c).unacked, psnBefore psn u.1 = true) ∧ (s.conn c).retries = 0) ∧
    (∃ (c : Nat) (psn : Nat) (i : Nat) (sack : List Nat) (o : Option Nat) (s : State), i ∈ sack ∧ (s.conn c).retries ≠ 0 ∧
      psnBefore psn (s.conn c).sackFloor = true) ∧
    (∃ (c : Nat) (psn : Nat) (s : State), s.fabricOn = true ∧ (s.conn c).up = true ∧ (s.conn c).error = false ∧ (s.conn c).frozen = false) :=
  ⟨⟨1, 256, 3, true, wf { cn with sr := true, ooo := [5], sinceSack := 3 }, by decide +kernel⟩,
   ⟨1, 257, true, wf { cn with sr := true }, by decide +kernel⟩,
   ⟨1, true, wf { cn with sr := true, epsn := 16777215, ooo := [0] }, by decide +kernel⟩,
   ⟨1, (wf { cn with cnpAt := some 4999999999 }).setCfgAt (Reg.offset .fabQosCfg 0) 0x40000000, by decide +kernel⟩,
   ⟨1, 5, 100, wf cn, by decide +kernel⟩,
   ⟨1, 5, 1, [1, 3], wf { cn with sr := true, unacked := [(6, 4999999999, 1, false), (7, 4999999999, 1, false), (9, 4999999999, 1, true)] },
     by decide +kernel⟩,
   ⟨1, 4, 0, [0], none, wf { cn with sr := true, retries := 1, sackFloor := 5 }, by decide +kernel⟩,
   ⟨1, 5, wf { cn with unacked := [(5, 1, 1, false), (6, 1, 1, false)] }, by decide +kernel⟩⟩

/-- States and operands that meet the hypotheses of `TransportIsReliable`, clause by clause. -/
theorem witness_TransportIsReliable_3 :
    (∃ (c : Nat) (psn : Nat) (s : State), s.fabricOn = true ∧ (s.conn c).up = true ∧ (s.conn c).error = false ∧ (s.conn c).frozen = false ∧
      (s.conn c).queued = 0 ∧ (s.conn c).returning = false ∧ (∀ u ∈ (s.conn c).unacked, psnBefore ((psn + 2 ^ 24 - 1) % 2 ^ 24) u.1 = true) ∧
      ((s.conn c).unacked.filter fun u => !psnBefore u.1 psn) = (s.conn c).unacked) ∧
    (∃ (c : Nat) (u : Nat × Nat × Nat × Bool) (us : List (Nat × Nat × Nat × Bool)) (s : State), s.fabricOn = true ∧ (s.conn c).up = true ∧
      (s.conn c).error = false ∧ (s.conn c).frozen = false ∧ (s.conn c).sr = true ∧ (s.conn c).unacked = u :: us ∧ s.now < u.2.1 + 1000000) ∧
    (∃ (c : Nat) (s : State), ((s.conn c).sr = false ∨ (s.conn c).unacked = [] ∨ (∀ u ∈ (s.conn c).unacked, u.2.1 + 1000000 ≤ s.now))) ∧
    (∃ (c : Nat) (u : Nat × Nat × Nat × Bool) (us : List (Nat × Nat × Nat × Bool)) (s : State), s.fabricOn = true ∧ (s.conn c).up = true ∧
      (s.conn c).error = false ∧ (s.conn c).frozen = false ∧ (s.conn c).unacked = u :: us ∧ (s.conn c).retries < 7) ∧
    (∃ (c : Nat) (u : Nat × Nat × Nat × Bool) (us : List (Nat × Nat × Nat × Bool)) (s : State), s.roomForEvents ∧ s.fabricOn = true ∧
      (s.conn c).up = true ∧ (s.conn c).error = false ∧ (s.conn c).frozen = false ∧ (s.conn c).unacked = u :: us ∧ 7 ≤ (s.conn c).retries ∧
      (s.conn c).qid ≠ 0) ∧
    (∃ (c : Nat) (s : State), (s.conn c).unacked = []) ∧
    (∃ (c : Nat) (s : State), s.fabricOn = true ∧ (s.conn c).up = true ∧ (s.conn c).error = false ∧ (s.conn c).frozen = false) ∧
    (∃ (c : Nat) (s : State), s.fabricOn = true ∧ (s.conn c).up = true ∧ (s.conn c).error = false ∧ s.cfgBit .fabCcCfg 0 31 = true ∧
      (s.conn c).lastDec + 1000 * (s.conn c).srtt ≤ s.now) :=
  ⟨⟨1, 5, wf { cn with unacked := [(5, 1, 1, false), (6, 1, 1, false)] }, by decide +kernel⟩,
   ⟨1, (5, 4999000001, 1, false), [], wf { cn with sr := true, unacked := [(5, 4999000001, 1, false)] }, by decide +kernel⟩,
   ⟨1, wf { cn with sr := true, unacked := [(5, 4999000000, 1, false)] }, by decide +kernel⟩,
   ⟨1, (5, 1, 1, false), [], wf { cn with unacked := [(5, 1, 1, false)], retries := 6 }, by decide +kernel⟩,
   ⟨1, (5, 1, 1, false), [], wf { cn with unacked := [(5, 1, 1, false)], retries := 7 }, room (by decide +kernel), by decide +kernel⟩,
   ⟨1, wf cn, by decide +kernel⟩,
   ⟨1, wf { cn with unacked := [(5, 1, 1, false)] }, by decide +kernel⟩,
   ⟨1, (wf cn).setCfgAt (Reg.offset .fabCcCfg 0) 0x80000000, by decide +kernel⟩⟩

/-- States and operands that meet the hypotheses of `TransportIsReliable`, clause by clause. -/
theorem witness_TransportIsReliable_4 :
    (∃ (c : Nat) (s : State),
      (s.fabricOn = false ∨ (s.conn c).up = false ∨ (s.conn c).error = true ∨ s.cfgBit .fabCcCfg 0 31 = false ∨ s.now < (s.conn c).lastDec + 1000 * (s.conn c).srtt)) ∧
    (∃ (c : Nat) (psn : Nat) (i : Nat) (b : Bool) (d : Bool) (l : List Nat) (o : Option Nat) (s : State),
      (s.fabricOn = false ∨ (s.conn c).up = false ∨ (s.conn c).error = true ∨ (s.conn c).frozen = true)) :=
  ⟨⟨1, (wf cn).setCfgAt (Reg.offset .fabCcCfg 0) 0, by decide +kernel⟩,
   ⟨1, 5, 0, true, true, [0], some 5, wf { cn with frozen := true, sr := true, unacked := [(5, 4999999999, 1, false)] }, by decide +kernel⟩⟩

/-- States and operands that meet the hypotheses of `DramChannelsRefreshFreezeAndRetrain`, clause by clause. -/
theorem witness_DramChannelsRefreshFreezeAndRetrain_1 :
    (∃ (c : Nat) (sub : Nat) (rank : Nat) (s : State), s.roomForEvents ∧ s.running = true ∧ (s.chan c).st = .active ∧
      s.trefiWanted c = (s.chan c).trefi ∧ Tbl.look 0 (s.chan c).nextBank (sub % 2 * 2 + rank % 2) < 4) ∧
    (∃ (c : Nat) (sub : Nat) (rank : Nat) (s : State), s.roomForEvents ∧ s.running = true ∧ (s.chan c).st = .active ∧
      s.trefiWanted c ≠ (s.chan c).trefi) ∧
    (∃ (c : Nat) (sub : Nat) (rank : Nat) (bank : Nat) (s : State), s.running = true ∧ (s.chan c).st = .active ∧ bank < 32) ∧
    (∃ (c : Nat) (sub : Nat) (rank : Nat) (bank : Nat) (s : State), s.roomForEvents ∧ s.running = true ∧ (s.chan c).st = .active ∧
      (s.chan c).raaimt ≠ 0 ∧ (s.chan c).raaimt ≤ Tbl.look 0 (s.chan c).raa (raaKey (sub % 2) (rank % 2) bank)) ∧
    (∃ (c : Nat) (sub : Nat) (rank : Nat) (bank : Nat) (s : State), s.running = true ∧ (s.chan c).st = .active ∧
      (Tbl.look 0 (s.chan c).raa (raaKey (sub % 2) (rank % 2) bank) < (s.chan c).raaimt ∨ (s.chan c).raaimt = 0)) ∧
    (∃ (c : Nat) (code : Nat) (s : State), s.running = true ∧ (s.chan c).st = .active) ∧
    (∃ (c : Nat) (sub : Nat) (rank : Nat) (bank : Nat) (b : Bool) (s : State), (s.running = false ∨ (s.chan c).st ≠ .active)) ∧
    (∃ (s : State), s.running = true ∧ s.power.mode = .lull ∧ s.power.exit = none ∧ s.mem.visit = none) :=
  ⟨⟨0, 1, 1, wm { st := .active, trefi := 1, mr4 := 1, nextBank := [(3, 3)] } { st := .active }, room (by decide +kernel), by decide +kernel⟩,
   ⟨0, 1, 1, wm { st := .active, mr4 := 1 } { st := .active }, room (by decide +kernel), by decide +kernel⟩,
   ⟨0, 1, 1, 31, wm { st := .active } { st := .active }, by decide +kernel⟩,
   ⟨0, 1, 1, 31, wm { st := .active, raaimt := 40, raa := [(127, 40)] } { st := .active }, room (by decide +kernel), by decide +kernel⟩,
   ⟨0, 1, 1, 31, wm { st := .active, raaimt := 40, raa := [(127, 39)] } { st := .active }, by decide +kernel⟩,
   ⟨0, 1, wm { st := .active } { st := .active }, by decide +kernel⟩,
   ⟨0, 1, 1, 31, true, wm { st := .frozen } { st := .active }, by decide +kernel⟩,
   ⟨wk.onPower fun p => { p with mode := .lull }, by decide +kernel⟩⟩

/-- States and operands that meet the hypotheses of `DramChannelsRefreshFreezeAndRetrain`, clause by clause. -/
theorem witness_DramChannelsRefreshFreezeAndRetrain_2 :
    (∃ (s : State), (s.running = false ∨ s.power.mode ≠ .lull ∨ s.mem.visit ≠ none ∨ s.power.exit ≠ none)) ∧
    (∃ (v : Nat) (s : State), s.mem.visit = some v ∧ s.power.mode = .lull ∧ s.evr.queue.length < 223) ∧
    (∃ (s : State), (s.mem.visit = none ∨ s.power.mode ≠ .lull)) ∧
    (∃ (c : Nat) (sub : Nat) (cls : Nat) (line : Nat) (conn : Nat) (src : BitVec 16) (s : State),
      (s.running = false ∨ (s.chan c).st = .frozen ∨ (s.chan c).st = .retired ∨ (s.chan c).st = .selfRefresh)) ∧
    (∃ (c : Nat) (sub : Nat) (cls : Nat) (line : Nat) (conn : Nat) (k : Nat) (h : Hdr) (last : Bool) (x : Image) (src : BitVec 16) (s : State), (∀ u,
      (s.tenant u).logging = false) ∧ s.running = true ∧ (s.chan c).st = .active ∧ (s.chan (1 - c)).st = .active ∧ s.boot.staging = [(h, k, last,
      x)] ∧ s.boot.bundles = [] ∧ c < 2 ∧ s.muted h = false ∧ (s.ctrl 0).aers = []) ∧
    (∃ (c : Nat) (sub : Nat) (line : Nat) (cls : Nat) (conn : Nat) (src : BitVec 16) (s : State), s.running = true ∧ (s.chan c).st = .active ∧
      (s.chan (1 - c)).st ≠ .active ∧ c < 2 ∧ cls ∈ [1, 2, 3, 5]) ∧
    (∃ (c : Nat) (sub : Nat) (line : Nat) (conn : Nat) (src : BitVec 16) (s : State), s.roomForEvents ∧ s.running = true ∧ (s.chan c).st = .active ∧
      (s.chan (1 - c)).st ≠ .active ∧ c < 2) ∧
    (∃ (c : Nat) (sub : Nat) (line : Nat) (conn : Nat) (u : Nat) (src : BitVec 16) (s : State), s.roomForEvents ∧ s.running = true ∧
      (s.chan c).st = .active ∧ (s.chan (1 - c)).st ≠ .active ∧ c < 2 ∧ Tbl.numbers (fun (t : Tenant) => t.logging && !t.overflow) s.tenants = [u]) :=
  ⟨⟨wm { st := .active } { st := .active }, by decide +kernel⟩,
   ⟨7, let s := wm { st := .active } { st := .selfRefresh }; { s with mem := { s.mem with visit := some 7 }, power := { wk.power with mode := .lull } }, by decide +kernel⟩,
   ⟨wk.onPower fun p => { p with mode := .lull }, by decide +kernel⟩,
   ⟨0, 1, 5, 77, 1, 9, wm { st := .frozen } { st := .active }, by decide +kernel⟩,
   ⟨0, 1, 5, 77, 0, 1, a0, true, img 1, 9,
     (wm { st := .active } { st := .active }).onBoot fun b => { b with staging := [(a0, 1, true, img 1)], bank1 := ⟨.staging, 0, some (img 1)⟩ },
     tenantsAll (·.logging = false) (by decide +kernel), by decide +kernel⟩,
   ⟨0, 1, 77, 5, 0, 9, wm { st := .active } { st := .retired }, by decide +kernel⟩,
   ⟨0, 1, 77, 0, 9, (wm { st := .active } { st := .retired }).onStore fun x => { x with calmImage := some true }, room (by decide +kernel),
     by decide +kernel⟩,
   ⟨0, 1, 77, 0, 1, 9,
     { wm { st := .active } { st := .retired } with tenants := [(0, { st := .active }), (1, { st := .active, logging := true, log := [(4, false)] })] }, room (by decide +kernel), by decide +kernel⟩⟩

/-- States and operands that meet the hypotheses of `DramChannelsRefreshFreezeAndRetrain`, clause by clause. -/
theorem witness_DramChannelsRefreshFreezeAndRetrain_3 :
    (∃ (c : Nat) (sub : Nat) (cls : Nat) (line : Nat) (conn : Nat) (src : BitVec 16) (s : State), (∀ u, (s.tenant u).logging = false) ∧
      s.roomForEvents ∧ s.running = true ∧ (s.chan c).st = .active ∧ (s.chan (1 - c)).st = .active ∧ s.bulkHeld = 0 ∧ c < 2) ∧
    (∃ (c : Nat) (sub : Nat) (cls : Nat) (line : Nat) (conn : Nat) (src : BitVec 16) (s : State), s.roomForEvents ∧ s.running = true ∧
      ((s.chan c).st = .retraining ∨ (s.chan c).st = .resync) ∧ c < 2 ∧ (s.chan (1 - c)).st ≠ .retired ∧ s.unitsServe = true ∧ s.lanesServe = true) ∧
    (∃ (c : Nat) (sub : Nat) (line : Nat) (conn : Nat) (src : BitVec 16) (s : State), s.roomForEvents ∧ s.running = true ∧ (s.chan c).st = .active ∧
      (s.chan (1 - c)).st ≠ .active ∧ c < 2 ∧ (s.conn conn).up = true ∧ (s.conn conn).error = false ∧ (s.conn conn).qid ≠ 0) ∧
    (∃ (c : Nat) (sub : Nat) (line : Nat) (conn : Nat) (src : BitVec 16) (s : State), s.running = true ∧ (s.chan c).st = .active ∧
      (s.chan (1 - c)).st ≠ .active ∧ c < 2) ∧
    (∃ (c : Nat) (s : State), s.roomForEvents ∧ s.running = true ∧ (s.chan c).st = .frozen) ∧
    (∃ (c : Nat) (s : State), (s.running = false ∨ (s.chan c).st ≠ .frozen)) ∧
    (∃ (c : Nat) (s : State), (∀ u, (s.tenant u).logging = false) ∧ s.roomForEvents ∧ s.running = true ∧ (s.chan c).st = .active ∧
      (s.chan (1 - c)).st = .active ∧ c < 2 ∧ s.bulkHeld = 0) ∧
    (∃ (c : Nat) (s : State), (s.running = false ∨ (s.chan c).st ≠ .active ∨ (s.chan (1 - c)).st ≠ .active)) :=
  ⟨⟨1, 1, 8, 77, 0, 5, wm { st := .active } { st := .active }, tenantsAll (·.logging = false) (by decide +kernel), room (by decide +kernel),
    by decide +kernel⟩,
   ⟨1, 1, 8, 77, 0, 5, wm { st := .active } { st := .resync }, room (by decide +kernel), by decide +kernel⟩,
   ⟨0, 1, 77, 1, 5, let s := wm { st := .active } { st := .retired }; { s with fab := { s.fab with conns := [(1, cn)] } }, room (by decide +kernel), by decide +kernel⟩,
   ⟨0, 1, 77, 0, 5, wm { st := .active } { st := .retired }, by decide +kernel⟩,
   ⟨0, wm { st := .frozen, frozen := true } { st := .active }, room (by decide +kernel), by decide +kernel⟩,
   ⟨0, wm { st := .active } { st := .active }, by decide +kernel⟩,
   ⟨0, wm { st := .active } { st := .active }, tenantsAll (·.logging = false) (by decide +kernel), room (by decide +kernel), by decide +kernel⟩,
   ⟨0, wm { st := .active } { st := .retired }, by decide +kernel⟩⟩

/-- States and operands that meet the hypotheses of `DramChannelsRefreshFreezeAndRetrain`, clause by clause. -/
theorem witness_DramChannelsRefreshFreezeAndRetrain_4 :
    (∃ (c : Nat) (s : State), s.roomForEvents ∧ s.running = true ∧ (s.chan c).st = .retraining ∧ s.broker.holds (.dram c) = true) ∧
    (∃ (c : Nat) (s : State), s.roomForEvents ∧ s.running = true ∧ (s.chan c).st = .retraining ∧ s.broker.holds (.dram c) = true ∧ c < 2 ∧
      (s.chan (1 - c)).st ≠ .retired ∧ s.unitsServe = true ∧ s.lanesServe = true) ∧
    (∃ (c : Nat) (s : State), s.running = true ∧ (s.chan c).st = .retraining ∧ s.broker.holds (.dram c) = true) ∧
    (∃ (c : Nat) (s : State), s.roomForEvents ∧ s.running = true ∧ (s.chan c).st = .resync) ∧
    (∃ (c : Nat) (s : State), s.roomForEvents ∧ s.running = true ∧ (s.chan c).st = .resync ∧ c < 2 ∧ (s.chan (1 - c)).st ≠ .retired ∧
      s.unitsServe = true ∧ s.lanesServe = true) ∧
    (∃ (c : Nat) (s : State), s.running = true ∧ (s.chan c).st = .resync ∧ c < 2 ∧ (s.chan (1 - c)).st = .retired ∧ s.unitsServe = true ∧
      s.lanesServe = true ∧ s.flt.stop = 0 ∧ s.power.mode = .stride ∧ s.stepComplete 12 = true) ∧
    (∃ (c : Nat) (ok : Bool) (s : State), (s.running = false ∨ ((s.chan c).st ≠ .resync ∧
      ((s.chan c).st ≠ .retraining ∨ s.broker.holds (.dram c) = false)))) :=
  ⟨⟨0, held0 (wm { st := .retraining } { st := .active }), room (by decide +kernel), by decide +kernel⟩,
   ⟨0, held0 (wm { st := .retraining } { st := .active }), room (by decide +kernel), by decide +kernel⟩,
   ⟨0, held0 (wm { st := .retraining } { st := .active }), by decide +kernel⟩,
   ⟨0, wm { st := .resync } { st := .active }, room (by decide +kernel), by decide +kernel⟩,
   ⟨0, wm { st := .resync } { st := .active }, room (by decide +kernel), by decide +kernel⟩,
   ⟨0, wm { st := .resync } { st := .retired }, by decide +kernel⟩,
   ⟨0, true, wm { st := .retraining } { st := .active }, by decide +kernel⟩⟩

/-- States and operands that meet the hypotheses of `OnChipMemoriesAndBuffers`, clause by clause. -/
theorem witness_OnChipMemoriesAndBuffers_1 :
    (∃ (u : Nat) (kind : Nat) (a : Nat) (b : Bool) (s : State), s.running = true ∧ s.evr.queue.length < 223) ∧
    (∃ (k : Nat) (w : Nat) (n : Nat) (z : Nat) (o : Nat) (a : Nat) (b : Bool) (s : State), s.roomForEvents ∧ s.running = true) ∧
    (∃ (k : Nat) (w : Nat) (n : Nat) (z : Nat) (o : Nat) (a : Nat) (b : Bool) (s : State), s.running = true ∧ s.evr.queue.length < 223) ∧
    (∃ (src : BitVec 16) (sub : Nat) (mac : Nat) (row : Nat) (s : State), s.running = true ∧ Tbl.look 0 s.mem.rowsMoved mac < s.sparesAtTest mac ∧
      s.roomForEvents) ∧
    (∃ (src : BitVec 16) (sub : Nat) (mac : Nat) (row : Nat) (s : State), s.running = true ∧ s.sparesAtTest mac ≤ Tbl.look 0 s.mem.rowsMoved mac ∧
      s.roomForEvents) ∧
    (∃ (m : ChipMemory) (a : Nat) (b : Bool) (s : State), s.running = true ∧ s.roomForEvents ∧ (∀ l g r, m ≠ .fabricWord l g r) ∧ (∀ x y o n,
      m ≠ .request x y o n)) ∧
    (∃ (a : Nat) (n : Nat) (b : Bool) (s : State), s.running = true ∧ s.aon.trip = false) ∧
    (∃ (a : Nat) (p : Nat) (b : Bool) (s : State), s.running = true ∧ s.aon.trip = false ∧ p < 2 ∧ s.boot.roll = none ∧
      (p = s.flt.activePair → hasBit s.flt.pairsIn (1 - p) = true)) :=
  ⟨⟨0, 1, 5, false, wk, by decide +kernel⟩,
   ⟨0, 5, 1, 0, 7, 5, true, wk, room (by decide +kernel), by decide +kernel⟩,
   ⟨0, 5, 1, 0, 7, 5, true, wn [(zk0 1, openZ)], by decide +kernel⟩,
   ⟨5, 1, 3, 7, { wk with mem := { wk.mem with bistSpare := 8, rowsMoved := [(3, 7)] } }, by exact ⟨by decide +kernel,
     (show 7 < 8 + Config.spareRows 3 % 1 by omega), by unfold State.roomForEvents; decide +kernel⟩⟩,
   ⟨5, 1, 3, 7, { wk with mem := { wk.mem with bistSpare := 8, rowsMoved := [(3, 8)] } }, by exact ⟨by decide +kernel,
     (show 8 + Config.spareRows 3 % 1 ≤ 8 by omega), by unfold State.roomForEvents; decide +kernel⟩⟩,
   ⟨.keyTable 3, 77, true, wk, by exact ⟨by decide +kernel, by unfold State.roomForEvents; decide +kernel, fun _ _ _ h => ChipMemory.noConfusion h,
     fun _ _ _ _ h => ChipMemory.noConfusion h⟩⟩,
   ⟨77, 3, true, wk, by decide +kernel⟩,
   ⟨77, 0, true, wk, by decide +kernel⟩⟩

/-- States and operands that meet the hypotheses of `OnChipMemoriesAndBuffers`, clause by clause. -/
theorem witness_OnChipMemoriesAndBuffers_2 :
    (∃ (a : Nat) (b : Bool) (s : State), s.running = true ∧ s.evr.mode ≠ .lastGasp) ∧
    (∃ (a : Nat) (sub : Nat) (b : Bool) (src : BitVec 16) (s : State), s.running = true ∧ s.aon.trip = false ∧ coreOfSource src.toNat sub = none ∧
      pairOfSource src.toNat = none ∧ fixedOfSource src.toNat sub = none) ∧
    (∃ (a : Nat) (n : Nat) (b : Bool) (s : State), s.running = true ∧ s.aon.trip = false) ∧
    (∃ (l : Nat) (a : Nat) (sender : BitVec 16) (b : Bool) (s : State), s.roomForEvents ∧ s.running = true) ∧
    (∃ (target : BitVec 16) (req : BitVec 16) (outside : Bool) (b : Bool) (n : Nat) (a : Nat) (s : State), s.roomForEvents ∧ s.running = true) ∧
    (∃ (i : Nat) (outside : Bool) (n : Nat) (s : State), i < 32 ∧ s.sourceOut (srcStaging i) = false ∧ outside = false) ∧
    (∃ (kind : Nat) (ms : Nat) (s : State), s.roomForEvents ∧ s.running = true) ∧
    (∃ (c : BitVec 16) (h : BitVec 32) (taker : BitVec 16) (s : State), s.running = true ∧
      (s.buf (bufKey (h.toNat / 2 ^ 28) (h.toNat / 2 ^ 8 % 2 ^ 20))).used = true ∧
      (s.buf (bufKey (h.toNat / 2 ^ 28) (h.toNat / 2 ^ 8 % 2 ^ 20))).owner = c.toNat ∧
      (s.buf (bufKey (h.toNat / 2 ^ 28) (h.toNat / 2 ^ 8 % 2 ^ 20))).gen = h.toNat % 256) :=
  ⟨⟨77, true, wk, by decide +kernel⟩,
   ⟨77, 1, true, 0x3400, wk, by decide +kernel⟩,
   ⟨77, 3, true, wk, by decide +kernel⟩,
   ⟨5, 7, 6, true, wk, room (by decide +kernel), by decide +kernel⟩,
   ⟨0x1C03, 6, false, true, 16, 7, wk, room (by decide +kernel), by decide +kernel⟩,
   ⟨3, false, 31, wk, by decide +kernel⟩,
   ⟨1, 900, wk, room (by decide +kernel), by decide +kernel⟩,
   ⟨5, 0x10000000, 6, { wk with mem := { wk.mem with bufs := [(1048576, { used := true, owner := 5 })] } }, by decide +kernel⟩⟩

/-- States and operands that meet the hypotheses of `OnChipMemoriesAndBuffers`, clause by clause. -/
theorem witness_OnChipMemoriesAndBuffers_3 :
    (∃ (c : BitVec 16) (h : BitVec 32) (taker : BitVec 16) (s : State), s.running = true ∧
      (s.buf (bufKey (h.toNat / 2 ^ 28) (h.toNat / 2 ^ 8 % 2 ^ 20))).used = true ∧
      (s.buf (bufKey (h.toNat / 2 ^ 28) (h.toNat / 2 ^ 8 % 2 ^ 20))).owner = c.toNat ∧
      (s.buf (bufKey (h.toNat / 2 ^ 28) (h.toNat / 2 ^ 8 % 2 ^ 20))).gen ≠ h.toNat % 256) ∧
    (∃ (c : BitVec 16) (h : BitVec 32) (taker : BitVec 16) (s : State), s.roomForEvents ∧ s.running = true ∧
      coreOfSource c.toNat (Config.freeValue s.work.draws) = none ∧ pairOfSource c.toNat = none ∧
      (s.buf (bufKey (h.toNat / 2 ^ 28) (h.toNat / 2 ^ 8 % 2 ^ 20))).used = true ∧
      (s.buf (bufKey (h.toNat / 2 ^ 28) (h.toNat / 2 ^ 8 % 2 ^ 20))).owner ≠ c.toNat) ∧
    (∃ (c : BitVec 16) (h : BitVec 32) (s : State), s.roomForEvents ∧ s.running = true ∧
      coreOfSource c.toNat (Config.freeValue s.work.draws) = none ∧ pairOfSource c.toNat = none ∧
      (s.buf (bufKey (h.toNat / 2 ^ 28) (h.toNat / 2 ^ 8 % 2 ^ 20))).used = false) ∧
    (∃ (b : Nat) (h : BitVec 32) (s : State), s.running = true ∧ s.aon.trip = false ∧ b < 32 ∧ s.evr.queue.length < 223 ∧
      (s.buf (bufKey (h.toNat / 2 ^ 28) (h.toNat / 2 ^ 8 % 2 ^ 20))).used = false ∧ s.mem.misuseAt = [] ∧ s.cfg .bpmCfg 0 23 16 ≤ 1) ∧
    (∃ (key : Nat) (b : Buf) (s : State), s.roomForEvents ∧ s.running = true ∧ s.mem.bufs = [(key, b)] ∧ b.used = true ∧ key / 1048576 ≠ 3 ∧
      s.sourceOut b.owner = true) ∧
    (∃ (key : Nat) (b : Buf) (s : State), s.roomForEvents ∧ s.running = true ∧ s.mem.bufs = [(key, b)] ∧ b.used = true ∧ key / 1048576 ≠ 3 ∧
      s.sourceOut b.owner = false) ∧
    (∃ (s : State), (∀ p ∈ s.mem.bufs, p.2.used = false)) ∧
    (∃ (key : Nat) (b : Buf) (s : State), s.running = true ∧ s.mem.bufs = [(key, b)] ∧ b.used = true ∧ key / 1048576 = 3) :=
  ⟨⟨5, 0x10000001, 6, { wk with mem := { wk.mem with bufs := [(1048576, { used := true, owner := 5 })] } }, by decide +kernel⟩,
   ⟨0xF000, 0x10000000, 6, { wk with mem := { wk.mem with bufs := [(1048576, { used := true, owner := 5 })] } }, room (by decide +kernel),
     by decide +kernel⟩,
   ⟨0xF000, 0x10000000, wk, room (by decide +kernel), by decide +kernel⟩,
   ⟨3, 0x10000001, (wk.setCfgAt (Reg.offset .bpmCfg 0) 0), by decide +kernel⟩,
   ⟨1048576, { used := true, owner := srcCipher 0 },
     { wk with cph := { wk.cph with engines := 0xFFFFFFFE }, mem := { wk.mem with bufs := [(1048576, { used := true, owner := srcCipher 0 })] } },
     room (by decide +kernel), by decide +kernel⟩,
   ⟨1048576, { used := true, owner := 5, tag := 9, gen := 3 },
     { wk with mem := { wk.mem with bufs := [(1048576, { used := true, owner := 5, tag := 9, gen := 3 })] } }, room (by decide +kernel),
     by decide +kernel⟩,
   ⟨{ wk with mem := { wk.mem with bufs := [(1048576, { used := false, owner := 5, gen := 3 })] } }, by decide +kernel⟩,
   ⟨3145728, { used := true, owner := 5 }, { wk with mem := { wk.mem with bufs := [(3145728, { used := true, owner := 5 })] } }, by decide +kernel⟩⟩

/-- States and operands that meet the hypotheses of `OnChipMemoriesAndBuffers`, clause by clause. -/
theorem witness_OnChipMemoriesAndBuffers_4 :
    (∃ (m : ChipMemory) (src : BitVec 16) (h : BitVec 32) (a : Nat) (n : Nat) (r : Nat) (b : Bool) (s : State), s.running = false) :=
  ⟨.recorder, 5, 0x10000001, 1, 2, 3, true, State.reset, by decide +kernel⟩

/-- States and operands that meet the hypotheses of `WarmupAndQuietPoints`, clause by clause. -/
theorem witness_WarmupAndQuietPoints_1 :
    (∃ (k : Nat) (r : WarmupReport) (s : State), s.lastReady k = false ∧ s.stepReady k = false) ∧
    (∃ (k : Nat) (r : WarmupReport) (s : State), (k = 1 ∨ k = 9) ∧ s.stepReady k = true) ∧
    (∃ (r : WarmupReport) (x : Image) (s : State), s.roomForEvents ∧ s.stepReady 2 = true ∧ (s.boot.bank s.boot.selector).st = .valid ∧
      (s.boot.bank s.boot.selector).image = some x ∧ s.imageCause x = 0) ∧
    (∃ (r : WarmupReport) (s : State), s.stepReady 2 = true ∧ s.boot.bank0.st ≠ .valid ∧ s.boot.bank1.st ≠ .valid ∧ s.boot.running = none) ∧
    (∃ (r : WarmupReport) (s : State), s.stepReady 3 = true ∧ s.boot.ledgerFull = false ∧ s.boot.erasedAhead = true) ∧
    (∃ (r : WarmupReport) (s : State), s.stepReady 3 = true ∧ s.boot.ledgerFull = false ∧ s.boot.erasedAhead = false ∧ s.boot.aheadErasable = true) ∧
    (∃ (r : WarmupReport) (s : State), s.roomForEvents ∧ s.stepReady 11 = true ∧ s.hostPortUp = false) ∧
    (∃ (r : WarmupReport) (s : State), s.stepReady 11 = true ∧ s.hostPortUp = true) :=
  ⟨⟨5, rep, wk, by decide +kernel⟩,
   ⟨1, rep, wu 0, by decide +kernel⟩,
   ⟨rep, img 1, (wu 1).onBoot fun b => { b with bank0 := ⟨.valid, 0, some (img 1)⟩ }, room (by decide +kernel), by decide +kernel⟩,
   ⟨rep, wu 1, by decide +kernel⟩,
   ⟨rep, (wu 3).onBoot fun b => { b with running := some (img 1) }, by decide +kernel⟩,
   ⟨rep, (wu 3).onBoot fun b => { b with running := some (img 1), erasedAhead := false }, by decide +kernel⟩,
   ⟨rep, wu 0x1BFF, room (by decide +kernel), by decide +kernel⟩,
   ⟨rep, { wu 0x1BFF with links := [(0, { up := true })] }, by decide +kernel⟩⟩

/-- States and operands that meet the hypotheses of `WarmupAndQuietPoints`, clause by clause. -/
theorem witness_WarmupAndQuietPoints_2 :
    (∃ (r : WarmupReport) (s : State), s.stepReady 12 = true ∧ s.lastReady 12 = false) ∧
    (∃ (r : WarmupReport) (u : Nat) (s : State), s.lastReady 13 = true ∧ u ≠ 0 ∧ (s.tenant u).st ≠ .free ∧ (s.tenant u).creating = false) ∧
    (∃ (r : WarmupReport) (s : State), s.stepReady 4 = true ∧ s.hasFabric = false) ∧
    (∃ (r : WarmupReport) (s : State), s.roomForEvents ∧ s.stepReady 5 = true ∧ s.unitsServe = true ∧ r.macrosOut = [] ∧ r.badCipher = [] ∧
      r.badKdu = [] ∧ r.badParity = []) ∧
    (∃ (r : WarmupReport) (s : State), s.stepReady 5 = true ∧ s.unitsServe = false ∧ r.macrosOut = [] ∧ r.badCipher = [] ∧ r.badKdu = [] ∧
      r.badParity = [] ∧ r.entropyTest = 0 ∧ s.evr.queue.length < 223) ∧
    (∃ (r : WarmupReport) (s : State), s.roomForEvents ∧ s.stepReady 6 = true ∧ r.dramOk0 = true ∧ r.dramOk1 = true) ∧
    (∃ (r : WarmupReport) (s : State), s.stepReady 6 = true ∧ r.dramOk0 = false ∧ r.dramOk1 = true) ∧
    (∃ (r : WarmupReport) (s : State), s.stepReady 6 = true ∧ r.dramOk0 = false ∧ r.dramOk1 = false) :=
  ⟨⟨rep, let s := wu 0x17FF; { s with cph := { s.cph with keysReady := true } }, by decide +kernel⟩,
   ⟨rep, 1, wu 0x0FFF, by decide +kernel⟩,
   ⟨rep, { wu 7 with variant := 3 }, by decide +kernel⟩,
   ⟨{ rep with entropyTest := 5, minSpare := 9 }, wu 15, room (by decide +kernel), by decide +kernel⟩,
   ⟨rep, let s := wu 15; { s with cph := { s.cph with parityIn := 3 } }, by decide +kernel⟩,
   ⟨rep, let s := wu 0x1F; { s with broker := { s.broker with out := [⟨.dram 0, 10, none, 1, 0, 0⟩, ⟨.dram 1, 10, none, 1, 0, 0⟩] } }, room (by decide +kernel), by decide +kernel⟩,
   ⟨{ rep with dramOk0 := false }, let s := wu 0x1F; { s with broker := { s.broker with out := [⟨.dram 0, 10, none, 1, 0, 0⟩, ⟨.dram 1, 10, none, 1, 0, 0⟩] } }, by decide +kernel⟩,
   ⟨{ rep with dramOk0 := false, dramOk1 := false }, let s := wu 0x1F; { s with broker := { s.broker with out := [⟨.dram 0, 10, none, 1, 0, 0⟩, ⟨.dram 1, 10, none, 1, 0, 0⟩] } }, by decide +kernel⟩⟩

/-- States and operands that meet the hypotheses of `WarmupAndQuietPoints`, clause by clause. -/
theorem witness_WarmupAndQuietPoints_3 :
    (∃ (r : WarmupReport) (s : State), s.stepReady 7 = true) ∧
    (∃ (r : WarmupReport) (s : State), s.stepReady 8 = true) ∧
    (∃ (r : WarmupReport) (s : State), s.stepReady 10 = true) ∧
    (∃ (r : WarmupReport) (s : State), s.stepReady 3 = true ∧ s.boot.ledgerFull = true) ∧
    (∃ (s : State), s.takesQuietPoint = false) ∧
    (∃ (h : Hdr) (b : Bundle) (s : State), s.takesQuietPoint = true ∧ s.boot.bundles = [(h, b)] ∧ b.records = [] ∧ s.regs.live = [] ∧
      s.evr.queue.length < 200) ∧
    (∃ (u : Nat) (s : State), s.takesQuietPoint = true ∧ s.tmk.inForce = true ∧ s.stepComplete 13 = true ∧ (s.tenant u).st = .active ∧
      (s.tenant u).ending = none ∧ s.boot.bundles = []) ∧
    (∃ (x : List BoundSet) (s : State), s.takesQuietPoint = true ∧ s.tmk.next = some x ∧ s.regs.live = [] ∧ s.boot.bundles = []) :=
  ⟨⟨rep, { (wu 0x1F).setCfgAt (Reg.offset .lanePop 0) 0xFFFF with lanes := [(3, {}), (5, la)] }, by decide +kernel⟩,
   ⟨rep,
     { wu 0x7F with sets := wl0.sets, lanes := (List.range 18).map fun p => (16 * p, { la with dies := 1 }), dies := (List.range 18).map fun p => (128 * p, { st := .idle }) }, by decide +kernel⟩,
   ⟨rep, wu 0xFF, by decide +kernel⟩,
   ⟨rep, (wu 3).onBoot fun b => { b with running := some (img 1), seqNew := 1000000 }, by decide +kernel⟩,
   ⟨State.reset, by decide +kernel⟩,
   ⟨a0, ⟨true, []⟩, wk.onBoot fun b => { b with bundles := [(a0, ⟨true, []⟩)] }, by decide +kernel⟩,
   ⟨1, { wk with tenants := [(1, { st := .active })], tmk := { wk.tmk with inForce := true } }, by decide +kernel⟩,
   ⟨[], { wk with tmk := { wk.tmk with next := some [] } }, by decide +kernel⟩⟩

/-- States and operands that meet the hypotheses of `WarmupAndQuietPoints`, clause by clause. -/
theorem witness_WarmupAndQuietPoints_4 :
    (∃ (u : Nat) (s : State), s.takesQuietPoint = true ∧ (s.tenant u).creating = true) ∧
    (∃ (u : Nat) (l : Limits) (s : State), s.takesQuietPoint = true ∧ (s.tenant u).st ≠ .free ∧ (s.tenant u).pending = some l ∧
      s.boot.bundles = []) :=
  ⟨⟨5, { wk with tenants := [(5, { creating := true })] }, by decide +kernel⟩,
   ⟨1, wide, { wk with tenants := [(1, { st := .active, ready := true, pending := some wide })] }, by decide +kernel⟩⟩

/-- States and operands that meet the hypotheses of `FaultsAreContained`, clause by clause. -/
theorem witness_FaultsAreContained_1 :
    (∃ (b : Nat) (k : Nat) (s : State), s.running = true ∧ s.stepComplete 7 = true ∧ s.power.mode ≠ .calm ∧ s.aon.trip = false ∧ k < 16 ∧
      hasBit (s.blk b).cellFailed k = false ∧ hasBit (s.blk b).cellFailed 16 = false ∧ (s.blk b).spareLane = 0x1F ∧ (s.blk b).handoff = none ∧
      (s.blk b).marshalOut = false ∧ s.populated (16 * b + k) = true ∧ (s.lane (16 * b + k)).st = .active) ∧
    (∃ (b : Nat) (s : State), s.running = true ∧ s.stepComplete 7 = true ∧ s.power.mode ≠ .calm ∧ s.aon.trip = false ∧ (s.blk b).marshalOut = false ∧
      (s.blk b).restartedAt = none) ∧
    (∃ (g : Nat) (i : Nat) (s : State), s.roomForEvents ∧ s.running = true ∧ s.stepComplete 7 = true ∧ s.power.mode ≠ .calm ∧ s.aon.trip = false ∧
      i < 2 ∧ (s.rgn g).stewards = 3 ∧ (s.rgn g).restart0 = none ∧ (s.rgn g).restart1 = none) ∧
    (∃ (c : CoreId) (s : State), s.running = true ∧ s.stepComplete 7 = true ∧ s.power.mode ≠ .calm ∧ s.aon.trip = true) ∧
    (∃ (c : CoreId) (s : State), (s.running = false ∨ s.stepComplete 7 = false ∨ s.power.mode = .calm)) ∧
    (∃ (b : Nat) (g : Nat) (i : Nat) (k : Nat) (s : State), s.aon.trip = false) ∧
    (∃ (b : Nat) (k : Nat) (s : State), s.roomForEvents ∧ s.running = true ∧ s.stepComplete 7 = true ∧ s.power.mode ≠ .calm ∧ s.aon.trip = false ∧
      k < 16 ∧ hasBit (s.blk b).cellFailed k = false ∧ s.populated (16 * b + k) = true ∧ (s.lane (16 * b + k)).st ≠ .failed ∧
      (s.lane (16 * b + k)).unserved = false ∧
      ((s.blk b).spareLane ≠ 0x1F ∨ (s.blk b).handoff.isSome = true ∨ hasBit (s.blk b).cellFailed 16 = true)) ∧
    (∃ (b : Nat) (s : State), s.running = true ∧ s.stepComplete 7 = true ∧ s.power.mode ≠ .calm ∧ s.aon.trip = false ∧
      hasBit (s.blk b).cellFailed 16 = false ∧ (s.blk b).handoff = none ∧ (s.blk b).spareLane = 0x1F) :=
  ⟨⟨0, 15, { wk.setCfgAt (Reg.offset .lanePop 0) 0xFFFF with lanes := [(15, { st := .active })] }, by decide +kernel⟩,
   ⟨0, wk, by decide +kernel⟩,
   ⟨0, 1, wk, room (by decide +kernel), by decide +kernel⟩,
   ⟨.marshal 0, wk.onAon fun a => { a with trip := true }, by decide +kernel⟩,
   ⟨.marshal 0, wk.onPower fun p => { p with stepDone := 0 }, by decide +kernel⟩,
   ⟨0, 0, 1, 3, { wk with blks := [(0, { marshalOut := true, cellFailed := 8 })], rgns := [(0, { stewards := 1 })] }, by decide +kernel⟩,
   ⟨0, 3, { wk.setCfgAt (Reg.offset .lanePop 0) 0xFFFF with lanes := [(3, { st := .active })], blks := [(0, { spareLane := 5 })] },
     room (by decide +kernel), by decide +kernel⟩,
   ⟨3, wk, by decide +kernel⟩⟩

/-- States and operands that meet the hypotheses of `FaultsAreContained`, clause by clause. -/
theorem witness_FaultsAreContained_2 :
    (∃ (b : Nat) (n : Nat) (s : State), s.roomForEvents ∧ s.running = true ∧ s.stepComplete 7 = true ∧ s.power.mode ≠ .calm ∧ s.aon.trip = false ∧
      (s.blk b).marshalOut = false ∧ (s.blk b).restartedAt = some n ∧ s.now - n < 60000000000) ∧
    (∃ (g : Nat) (i : Nat) (s : State), s.running = true ∧ s.stepComplete 7 = true ∧ s.stepComplete 10 = true ∧ s.power.mode = .stride ∧
      s.aon.trip = false ∧ i < 2 ∧ hasBit (s.rgn g).stewards i = true ∧ clearBit (s.rgn g).stewards i = 0 ∧ s.flt.stop = 0) ∧
    (∃ (b : Nat) (s : State), s.roomForEvents ∧ s.running = true ∧ s.power.mode ≠ .homestretch ∧ s.aon.trip = false ∧ (s.blk b).marshalOut = true ∧
      (s.blk b).marshalKept = false ∧ (s.blk b).handoff = none) ∧
    (∃ (g : Nat) (s : State), s.roomForEvents ∧ s.running = true ∧ s.power.mode ≠ .homestretch ∧ s.aon.trip = false ∧
      hasBit (s.rgn g).stewards 1 = false ∧ hasBit (s.rgn g).kept 1 = false) ∧
    (∃ (b : Nat) (s : State), ((s.blk b).marshalOut = false ∨ (s.blk b).marshalKept = true)) ∧
    (∃ (g : Nat) (s : State), s.roomForEvents ∧ s.running = true ∧ s.power.mode ≠ .homestretch ∧ s.aon.trip = false ∧
      hasBit (s.rgn g).stewards 0 = false ∧ hasBit (s.rgn g).kept 0 = false) ∧
    (∃ (b : Nat) (n : Nat) (a : Nat) (s : State), s.running = true ∧ s.power.mode ≠ .homestretch ∧ s.aon.trip = false ∧ (s.blk b).marshalOut = true ∧
      (s.blk b).marshalKept = false ∧ (s.blk b).handoff = some (n, a) ∧ (s.lane n).st = .active) ∧
    (∃ (s : State), s.roomForEvents ∧ s.running = true ∧ s.aon.trip = false ∧ s.flt.activePair < 2 ∧
      hasBit s.flt.pairsIn (1 - s.flt.activePair) = true ∧ s.boot.roll = none) :=
  ⟨⟨0, 1000000000, { wk with blks := [(0, { restartedAt := some 1000000000 })] }, room (by decide +kernel), by decide +kernel⟩,
   ⟨0, 1, { wk with rgns := [(0, { stewards := 2 })] }, by decide +kernel⟩,
   ⟨0, { wk with blks := [(0, { marshalOut := true })] }, room (by decide +kernel), by decide +kernel⟩,
   ⟨0, { wk with rgns := [(0, { stewards := 1 })] }, room (by decide +kernel), by decide +kernel⟩,
   ⟨0, wk, by decide +kernel⟩,
   ⟨0, { wk with rgns := [(0, { stewards := 2, failed0 := 1000 })] }, room (by decide +kernel), by decide +kernel⟩,
   ⟨0, 5, 7, { wk with blks := [(0, { marshalOut := true, handoff := some (5, 7) })], lanes := [(5, la)] }, by decide +kernel⟩,
   ⟨wk, room (by decide +kernel), by decide +kernel⟩⟩

/-- States and operands that meet the hypotheses of `FaultsAreContained`, clause by clause. -/
theorem witness_FaultsAreContained_3 :
    (∃ (s : State), s.running = true ∧ s.aon.trip = false ∧ s.flt.activePair < 2 ∧ s.flt.pairsIn ≠ 0 ∧
      hasBit s.flt.pairsIn (1 - s.flt.activePair) = false ∧ s.boot.roll = none) ∧
    (∃ (s : State), s.running = true ∧ s.aon.trip = false ∧ s.flt.activePair < 2 ∧ s.flt.pairsIn ≠ 0 ∧ s.power.mode = .stride ∧
      s.stepComplete 10 = true ∧ hasBit s.flt.pairsIn (1 - s.flt.activePair) = false ∧ s.flt.stop = 0 ∧ s.boot.roll = none) ∧
    (∃ (s : State), s.running = true ∧ s.flt.pairsIn ≠ 0 ∧ s.aon.trip = true) ∧
    (∃ (r : Roll) (s : State), s.running = true ∧ s.aon.trip = false ∧ s.flt.activePair < 2 ∧ hasBit s.flt.pairsIn (1 - s.flt.activePair) = true ∧
      s.boot.roll = some r ∧ r.phase = 5) ∧
    (∃ (s : State), (s.running = false ∨ s.flt.pairsIn = 0)) ∧
    (∃ (s : State), s.roomForEvents ∧ s.running = true ∧ s.flt.activePair < 2 ∧ s.flt.pairsIn ≠ 0 ∧
      hasBit s.flt.pairsIn (1 - s.flt.activePair) = false ∧ hasBit s.flt.pairsKept (1 - s.flt.activePair) = false) ∧
    (∃ (b : Bool) (s : State),
      (s.running = false ∨ s.flt.pairsIn = 0 ∨ hasBit s.flt.pairsIn (1 - s.flt.activePair) = true ∨ hasBit s.flt.pairsKept (1 - s.flt.activePair) = true)) ∧
    (∃ (b : Nat) (s : State), s.roomForEvents ∧ s.running = true ∧ s.aon.trip = false ∧ s.cph.engines.getLsbD b = true) :=
  ⟨⟨{ wk with flt := { wk.flt with pairsIn := 1 } }, by decide +kernel⟩,
   ⟨{ wk with flt := { wk.flt with pairsIn := 1 } }, by decide +kernel⟩,
   ⟨wk.onAon fun a => { a with trip := true }, by decide +kernel⟩,
   ⟨rl 5 1 true, wr' (img 1) (rl 5 1 true), by decide +kernel⟩,
   ⟨{ wk with flt := { wk.flt with pairsIn := 0 } }, by decide +kernel⟩,
   ⟨{ wk with flt := { wk.flt with pairsIn := 1 } }, room (by decide +kernel), by decide +kernel⟩,
   ⟨true, wk, by decide +kernel⟩,
   ⟨0, wk, room (by decide +kernel), by decide +kernel⟩⟩

/-- States and operands that meet the hypotheses of `FaultsAreContained`, clause by clause. -/
theorem witness_FaultsAreContained_4 :
    (∃ (b : Nat) (i : Nat) (s : State), s.roomForEvents ∧ s.running = true ∧ s.aon.trip = false ∧ hasBit (s.blk b).decIn i = true) ∧
    (∃ (i : Nat) (s : State), s.roomForEvents ∧ s.running = true ∧ s.aon.trip = false ∧ i < 8 ∧ hasBit s.cph.parityIn i = true) ∧
    (∃ (g : Nat) (i : Nat) (s : State), s.roomForEvents ∧ s.running = true ∧ s.hasCompression = true ∧ s.aon.trip = false ∧ g < 4 ∧ i < 4 ∧
      hasBit (s.rgn g).cmpIn i = true) ∧
    (∃ (b : Nat) (i : Nat) (g : Nat) (u : FixedUnit) (s : State), s.aon.trip = false ∧ (u = .decoder b i ∧
      hasBit (s.blk b).decIn i = false ∨ u = .cipher b ∧ s.cph.engines.getLsbD b = false ∨ u = .parity i ∧
      hasBit s.cph.parityIn i = false ∨ u = .compress g i ∧ (s.hasCompression = false ∨ hasBit (s.rgn g).cmpIn i = false))) ∧
    (∃ (b : Nat) (g : Nat) (s : State), s.running = true ∧ s.aon.trip = false) ∧
    (∃ (g : Nat) (i : Nat) (s : State), s.running = true ∧ s.hasCompression = true ∧ s.aon.trip = true) ∧
    (∃ (u : FixedUnit) (c : CoreId) (s : State), (∀ g i, u ≠ .compress g i) ∧ s.running = true ∧ s.aon.trip = true) ∧
    (∃ (u : FixedUnit) (i : UnitId) (s : State), s.running = false) :=
  ⟨⟨0, 3, wk, room (by decide +kernel), by decide +kernel⟩,
   ⟨7, wk, room (by decide +kernel), by decide +kernel⟩,
   ⟨0, 3, wk, room (by decide +kernel), by decide +kernel⟩,
   ⟨0, 3, 0, .decoder 0 3, { wk with blks := [(0, { decIn := 7 })] }, by decide +kernel⟩,
   ⟨0, 0, wk, by decide +kernel⟩,
   ⟨0, 3, wk.onAon fun a => { a with trip := true }, by decide +kernel⟩,
   ⟨.cipher 0, .marshal 0, wk.onAon fun a => { a with trip := true }, fun _ _ h => FixedUnit.noConfusion h, by decide +kernel⟩,
   ⟨.cipher 0, .fixed (.cipher 0), State.reset, by decide +kernel⟩⟩

/-- States and operands that meet the hypotheses of `FaultsAreContained`, clause by clause. -/
theorem witness_FaultsAreContained_5 :
    (∃ (n : Nat) (s : State), s.running = true ∧ s.flt.bothLost = some n) ∧
    (∃ (s : State), s.flt.bothLost = none) :=
  ⟨⟨7, { wk with flt := { wk.flt with bothLost := some 7 } }, by decide +kernel⟩,
   ⟨wk, by decide +kernel⟩⟩

/-- States and operands that meet the hypotheses of `LedgerOrderIsKept`, clause by clause. -/
theorem witness_LedgerOrderIsKept :
    (∃ (s : State) (t : State), s.LedgerOrdered ∧ step s = .next t) :=
  ⟨wb, match step wb with | .next t => t | _ => wb, ⟨by decide +kernel, by decide +kernel⟩, rfl⟩


/-! ## Commands that name what does not exist are refused by the well-formedness check -/

/-- A header of tenant 0, a flit and a Warm-up report, well formed. -/
def h0 : Hdr := ⟨0, 1, 7, 1, false, false, none⟩
def okFlit : Flit := ⟨0, []⟩
def noReport : WarmupReport := ⟨0, 0, 0, [], [], [], [], 0, true, true, 0, 0, [], [], []⟩

/-- Each family's command at the last value of its range stands the check. -/
theorem smoke_well_formed : ((Instr.flitReceived 511 okFlit).wellFormed && (Instr.dieOpSelect 511 7).wellFormed &&
    (Instr.laneOpTimeout 511 239).wellFormed && (Instr.bridgeDone 511 255 .ok 0 0 0).wellFormed && (Instr.ethPortUp 1).wellFormed &&
    (Instr.quiesceDone 255).wellFormed && (Instr.warmupStepDone 13 noReport).wellFormed && (Instr.zoneFzrTimeout 1 1048575).wellFormed &&
    (Instr.readCmd h0 18446744073709551615 1).wellFormed && (Instr.fabAddrWrite 511 4 0).wellFormed &&
    (Instr.coreHeartbeatMiss (.pacer 543)).wellFormed && (Instr.wakeEvent 6).wellFormed) = true := by decide +kernel
theorem smoke_lane_512 : (Instr.flitReceived 512 okFlit).wellFormed = false := by decide +kernel
theorem smoke_die_8 : (Instr.dieOpSelect 3 8).wellFormed = false := by decide +kernel
theorem smoke_decode_block_32 : (Instr.decodeComplete 32 0 true true 0).wellFormed = false := by decide +kernel
theorem smoke_cipher_block_32 : (Instr.cipherUnitComplete 32 0).wellFormed = false := by decide +kernel
theorem smoke_op_tag_240 : (Instr.laneOpTimeout 3 240).wellFormed = false := by decide +kernel
theorem smoke_bridge_tag_256 : (Instr.bridgeDone 3 256 .ok 0 0 0).wellFormed = false := by decide +kernel
theorem smoke_bridge_lane : (Instr.bridgeAlert 512 0 1 0).wellFormed = false := by decide +kernel
theorem smoke_port_2 : (Instr.ethPortUp 2).wellFormed = false := by decide +kernel
theorem smoke_pcie_port_2 : (Instr.perstAssert 2).wellFormed = false := by decide +kernel
theorem smoke_dram_channel_2 : (Instr.dramThaw 2).wellFormed = false := by decide +kernel
theorem smoke_slot_256 : (Instr.quiesceDone 256).wellFormed = false := by decide +kernel
theorem smoke_tenant_slot_256 : (Instr.tenantDestroy h0 256).wellFormed = false := by decide +kernel
theorem smoke_loop_8 : (Instr.gustClearWrite 8).wellFormed = false := by decide +kernel
theorem smoke_loop_period_8 : (Instr.loopPeriod 8 ⟨0, 0, 0, 0, 0, 0, 0⟩).wellFormed = false := by decide +kernel
theorem smoke_offset : (Instr.managerRegisterRead 0x10000000 1).wellFormed = false := by decide +kernel
theorem smoke_write_offset : (Instr.registerWrite 0x10000000 0xF 0).wellFormed = false := by decide +kernel
theorem smoke_doorbell_queue : (Instr.doorbellWrite 0 65536 false 0).wellFormed = false := by decide +kernel
theorem smoke_doorbell_value : (Instr.doorbellWrite 0 1 false 65536).wellFormed = false := by decide +kernel
theorem smoke_pacer_544 : (Instr.coreHeartbeatMiss (.pacer 544)).wellFormed = false := by decide +kernel
theorem smoke_marshal_32 : (Instr.coreHeartbeatMiss (.marshal 32)).wellFormed = false := by decide +kernel
theorem smoke_steward_4 : (Instr.coreRestartDone (.steward 4 0)).wellFormed = false := by decide +kernel
theorem smoke_steward_pair : (Instr.coreRestartDone (.steward 0 2)).wellFormed = false := by decide +kernel
theorem smoke_decoder_4 : (Instr.fixedUnitError (.decoder 0 4)).wellFormed = false := by decide +kernel
theorem smoke_cipher_32 : (Instr.fixedUnitError (.cipher 32)).wellFormed = false := by decide +kernel
theorem smoke_parity_8 : (Instr.fixedUnitDeadline (.parity 8)).wellFormed = false := by decide +kernel
theorem smoke_compress_4 : (Instr.fixedUnitDeadline (.compress 0 4)).wellFormed = false := by decide +kernel
theorem smoke_overdue_unit : (Instr.responseOverdue (.fixed (.parity 8))).wellFormed = false := by decide +kernel
theorem smoke_overdue_core : (Instr.responseOverdue (.core (.marshal 32))).wellFormed = false := by decide +kernel
theorem smoke_alarm_5 : (Instr.securityAlarm 5).wellFormed = false := by decide +kernel
theorem smoke_warmup_step_0 : (Instr.warmupStepDone 0 noReport).wellFormed = false := by decide +kernel
theorem smoke_warmup_step_14 : (Instr.warmupStepDone 14 noReport).wellFormed = false := by decide +kernel
theorem smoke_exit_step_14 : (Instr.exitStepDone 14 true).wellFormed = false := by decide +kernel
theorem smoke_zone_index : (Instr.zoneFzrTimeout 1 1048576).wellFormed = false := by decide +kernel
theorem smoke_fence_zone : (Instr.zoneResetFenceClear 1 1048576).wellFormed = false := by decide +kernel
theorem smoke_cid_65536 : (Instr.flushCmd ⟨0, 1, 65536, 1, false, false, none⟩).wellFormed = false := by decide +kernel
theorem smoke_sqid_65536 : (Instr.flushCmd ⟨0, 65536, 7, 1, false, false, none⟩).wellFormed = false := by decide +kernel
theorem smoke_nsid_wide : (Instr.flushCmd ⟨0, 1, 7, 4294967296, false, false, none⟩).wellFormed = false := by decide +kernel
theorem smoke_slba : (Instr.readCmd h0 18446744073709551616 1).wellFormed = false := by decide +kernel
theorem smoke_compare_slba : (Instr.compareCmd h0 18446744073709551616 1 []).wellFormed = false := by decide +kernel
theorem smoke_packed_address : (Instr.packedRead h0 18446744073709551616 1).wellFormed = false := by decide +kernel
theorem smoke_sq_depth : (Instr.createIoSq h0 1 65537 0 1).wellFormed = false := by decide +kernel
theorem smoke_cq_depth : (Instr.createIoCq h0 1 65537 0).wellFormed = false := by decide +kernel
theorem smoke_sq_cqid : (Instr.createIoSq h0 1 64 0 65536).wellFormed = false := by decide +kernel
theorem smoke_delete_queue : (Instr.deleteIoQueue h0 65536 false).wellFormed = false := by decide +kernel
theorem smoke_abort_cid : (Instr.abortCmd h0 1 65536).wellFormed = false := by decide +kernel
theorem smoke_virt_mgmt_ctrl : (Instr.virtMgmt h0 65536 false 0).wellFormed = false := by decide +kernel
theorem smoke_import_source : (Instr.tenantStateImport h0 1 256 true 0 true).wellFormed = false := by decide +kernel
theorem smoke_window_id : (Instr.windowDestroy h0 16384).wellFormed = false := by decide +kernel
theorem smoke_window_fetch_id : (Instr.windowFetchDone 16384 0 true).wellFormed = false := by decide +kernel
theorem smoke_ctrl_65536 : (Instr.ccDisable 65536).wellFormed = false := by decide +kernel
theorem smoke_pad_word_2 : (Instr.padReleaseWrite 2 0).wellFormed = false := by decide +kernel
theorem smoke_pd_4096 : (Instr.fabPdWrite 4096 0).wellFormed = false := by decide +kernel
theorem smoke_address_512 : (Instr.fabAddrWrite 512 0 0).wellFormed = false := by decide +kernel
theorem smoke_address_dword_5 : (Instr.fabAddrWrite 0 5 0).wellFormed = false := by decide +kernel
theorem smoke_baton_lane : (Instr.batonRequest (.lane 512)).wellFormed = false := by decide +kernel
theorem smoke_baton_die : (Instr.batonReturn (.program 3 8)).wellFormed = false := by decide +kernel
theorem smoke_baton_channel : (Instr.batonRequest (.dram 2)).wellFormed = false := by decide +kernel
theorem smoke_gc_nsid_0 : (Instr.gcStart 0).wellFormed = false := by decide +kernel
theorem smoke_wake_bit_7 : (Instr.wakeEvent 7).wellFormed = false := by decide +kernel
theorem smoke_connect_queue : (Instr.fabricsConnect 0 65536 64 7 0 0).wellFormed = false := by decide +kernel
theorem smoke_cm_address : (Instr.rdmaCmRequest 512 0 4420 false true true 0 4096).wellFormed = false := by decide +kernel
theorem smoke_cm_service_port : (Instr.rdmaCmRequest 0 0 65536 false true true 0 4096).wellFormed = false := by decide +kernel
theorem smoke_psn : (Instr.roceNakReceived 0 16777216).wellFormed = false := by decide +kernel
theorem smoke_sector_512 : (Instr.bootStoreEraseDone 512 true).wellFormed = false := by decide +kernel
theorem smoke_release_seq : (Instr.evrReleaseWrite .manager 4294967296).wellFormed = false := by decide +kernel

/-! ## Worked examples of the spec -/

/-- *Indices*: lane 37 is in block 2 and region 0; its active cell is 39, the spare of block 2 is cell 50, and cell 39's
pacer is source 0x0027. -/
theorem test_lane_37 : (blockOfLane 37, regionOfLane 37, 17 * blockOfLane 37 + 37 % 16, srcPacer 39, srcPacer 50) =
    (2, 0, 39, 0x0027, 0x0032) := by decide +kernel
/-- R38's example: a frame of 4,608 bytes is 144 fabric words and takes 149 beats over one boundary, 119.2 ns. -/
theorem test_frame_transfer : (fabricWords 4608, transferBeats 144 1, transferBeats 144 1 * beatPs) = (144, 149, 119200) := by
  decide +kernel
/-- *Finding a port-B tenant*: with VFB = 54, VF 29 of PF1 serves tenant 230 on port 1, VF 54 tenant 255; SQ 17's doorbells. -/
theorem test_port_b_tenant : (slotOfVf true 54 1 29, slotOfVf true 54 1 54, slotOfVf true 54 1 55, portOfSlot true 54 230, portOfSlot true 54 201) =
    (some 230, some 255, none, 1, 0) := by decide +kernel
theorem test_doorbells : (sqDoorbell 17, cqDoorbell 17) = (0x1088, 0x108C) := by decide +kernel
/-- *Ball map*: lane 37 is D19, D20 and E19; row 29 is AK and row 56 is BW. -/
theorem test_balls : (ballRow (lanePairRow 37 false), lanePairColumn 37 false, lanePairColumn 37 true, ballRow (lanePairRow 37 true)) =
    (['D'], 19, 20, ['E']) ∧ ballRow 29 = ['A', 'K'] ∧ ballRow 56 = ['B', 'W'] := by decide +kernel
/-- The dirty-byte limit's example: 40 mF, V_min 10 V, EFF 90 %, E_fixed 9.0 J, e_flush 2 µJ/KiB, CEIL 18 J, MARGIN 0.2 J; a
loop-2 period of 1 ms and a current of 400 mA. -/
def bankExample (mv : Nat) : State :=
  let s := State.reset.setCfgAt (Reg.offset .pwrHuBank 0) (4000 * 65536 + 10000)
  let s := s.setCfgAt (Reg.offset .pwrHuEff 0) (90 * 2 ^ 24)
  let s := s.setCfgAt (Reg.offset .pwrHuFlush 0) (9000 * 65536 + 2000)
  let s := s.setCfgAt (Reg.offset .pwrHuCap 0) (18000 * 65536 + 200)
  let s := s.setCfgAt (Reg.offset .loopCfg 2) 1000
  s.recomputeDmax mv 400
/-- Its step 4: a 4 KiB write at 20.00 V is told to try after 450,491 µs; at 6.74 V D_max is 0. -/
theorem test_try_after : ((bankExample 20000).energyTryAfter 4096, (bankExample 6740).bank.dmax, (bankExample 20000).bankTargetMj) =
    (450491, 0, 17800) := by decide +kernel
/-- Its step 6: D_max reaches 2,610,000 KiB at the target of 29.833 V, which lies within a millivolt of it. -/
theorem test_full_bank : (bankExample 29832).bank.dmax < 2610000 ∧ 2610000 ≤ (bankExample 29833).bank.dmax := by decide +kernel
/-- *Zone reset*, worked example: 2,192 blocks into a zone lies row 8, whose 144 blocks fill 9 stripe units. -/
theorem test_zone_5 : rowOf 2192 = 8 ∧ (2192 - 8 * 256) / 16 = 9 := by decide +kernel
/-- *Tweak*: HMAC-SHA-384 and AES-256 as their standards publish them: SHA-384 of "abc" (FIPS 180-4). -/
theorem test_sha384 : beNat (sha384 [0x61, 0x62, 0x63]) =
    0xcb00753f45a35e8bb5a03d699ac65007272c32ab0eded1631a8b605a43ff5bed8086072ba1e7cc2358baeca134c825a7 := by decide +kernel
/-- AES-256 of FIPS 197, appendix C.3. -/
theorem test_aes256 : ofCols (aesEncrypt (roundKeys (keyCols 0x1f1e1d1c1b1a191817161514131211100f0e0d0c0b0a09080706050403020100))
    (colsOf 0xffeeddccbbaa99887766554433221100)) = 0x8960494b9049fceabf456751cab7a28e := by decide +kernel
/-- Deciphering gives the plain text back. -/
theorem test_aes256_back : ofCols (aesDecrypt (roundKeys (keyCols 0x1f1e1d1c1b1a191817161514131211100f0e0d0c0b0a09080706050403020100))
    (colsOf 0x8960494b9049fceabf456751cab7a28e)) = 0xffeeddccbbaa99887766554433221100 := by decide +kernel

end Sys2Proof.Tests
end

section
/-! Accesses to the management window (R4, R22, R563, R565): what a read of several dwords gives, what a write of one dword does
register by register, and the two statements about them. -/

namespace Sys2Proof.Machine

/-- The counts of accesses do not decide which units are there. -/
@[simp] theorem State.absent_countUnimpl (s : State) (p o : Nat) (r : Reg) : (s.countUnimpl p o).absent r = s.absent r := rfl

/-- An implemented offset reads as its register does, and the read leaves the state alone (R563). -/
theorem State.readDword_of_implemented (s : State) (p : Nat) {o : Nat} (h : locate o ≠ .unimplemented) :
    s.readDword p o = (s.readAt o, s) := by
  unfold State.readDword
  cases hl : locate o with
  | reg r i fs => rfl
  | hole => rfl
  | unimplemented => exact absurd hl h

/-- An unimplemented offset reads 0 and is counted with the party and the offset (R565). -/
theorem State.readDword_of_unimplemented (s : State) (p : Nat) {o : Nat} (h : locate o = .unimplemented) :
    s.readDword p o = (0, s.countUnimpl p o) := by
  simp [State.readDword, State.readAt, h]

/-- A register of an absent unit reads 0 (R4). -/
theorem State.readAt_of_absent {s : State} {o i : Nat} {r : Reg} {fs : List Fld} (hl : locate o = .reg r i fs)
    (ha : s.absent r = true) : s.readAt o = 0 := by
  simp [State.readAt, hl, ha]

/-- No read takes a unit away or brings one. -/
@[simp] theorem State.absent_readDword (s : State) (p o : Nat) (r : Reg) : (s.readDword p o).2.absent r = s.absent r := by
  by_cases h : locate o = .unimplemented
  · simp [s.readDword_of_unimplemented p h]
  · simp [s.readDword_of_implemented p h]

theorem State.readDwords_succ (s : State) (p o n : Nat) :
    s.readDwords p o (n + 1) = (((s.readDword p o).1 :: ((s.readDword p o).2.readDwords p (o + 4) n).1),
      ((s.readDword p o).2.readDwords p (o + 4) n).2) := rfl

theorem State.readDwords_length (p n : Nat) : ∀ (s : State) (o : Nat), (s.readDwords p o n).1.length = n := by
  induction n with
  | zero => intro s o; rfl
  | succ n ih => intro s o; simp [State.readDwords_succ, ih]

/-- A read over implemented offsets gives the dword of each and changes nothing (R563). -/
theorem State.readDwords_of_implemented (s : State) (p n : Nat) : ∀ o, (∀ k, k < n → locate (o + 4 * k) ≠ .unimplemented) →
    s.readDwords p o n = ((List.range n).map fun k => s.readAt (o + 4 * k), s) := by
  induction n with
  | zero => intro o _; rfl
  | succ n ih =>
    intro o h
    have hfirst : locate o ≠ .unimplemented := h 0 n.succ_pos
    have hrest : ∀ k, k < n → locate (o + 4 + 4 * k) ≠ .unimplemented := fun k hk => by
      have hstep : o + 4 + 4 * k = o + 4 * (k + 1) := by omega
      exact hstep ▸ h (k + 1) (by omega)
    simp [State.readDwords_succ, s.readDword_of_implemented p hfirst, ih _ hrest, List.range_succ_eq_map, Nat.mul_add,
      Nat.add_assoc, Nat.add_comm 4]

/-- Among the dwords of a longer read, that of a register of an absent unit is 0 (R4). -/
theorem State.readDwords_absent {r : Reg} {i : Nat} {fs : List Fld} (p n : Nat) : ∀ (s : State) (o k : Nat), k < n →
    locate (o + 4 * k) = .reg r i fs → s.absent r = true → (s.readDwords p o n).1[k]? = some 0 := by
  induction n with
  | zero => intro s o k hk; omega
  | succ n ih =>
    intro s o k hk hl ha
    cases k with
    | zero => simp [State.readDwords_succ, State.readDword, State.readAt_of_absent (o := o) hl ha]
    | succ k =>
      have hstep : o + 4 * (k + 1) = o + 4 + 4 * k := by omega
      simpa [State.readDwords_succ] using ih (s.readDword p o).2 (o + 4) k (by omega) (hstep ▸ hl) (by simpa using ha)

/-! The three commands that reach the window. -/

theorem exec_managerRegisterRead_served {s : State} {o n : Nat} (hw : s.windowServed = true) (hi : inWindow o n = true) :
    exec (.managerRegisterRead o n) s =
      .next ((s.readDwords 1 o n).2.onOut fun x => { x with reads := x.reads ++ [(s.readDwords 1 o n).1] }) := by
  simp [exec, execManagerRegisterRead, hw, hi]

theorem exec_managerRegisterRead_unserved {s : State} {o n : Nat} (h : s.windowServed = false ∨ inWindow o n = false) :
    exec (.managerRegisterRead o n) s = .next s := by
  rcases h with h | h <;> simp [exec, execManagerRegisterRead, h]

theorem exec_registerWrite_served {s : State} {o : Nat} (be : BitVec 4) (v : BitVec 32) (hw : s.windowServed = true)
    (hi : inWindow o 1 = true) : exec (.registerWrite o be v) s = .next (s.writeDword o be v) := by
  simp [exec, execRegisterWrite, hw, hi]

theorem exec_registerWrite_unserved {s : State} {o : Nat} (be : BitVec 4) (v : BitVec 32)
    (h : s.windowServed = false ∨ inWindow o 1 = false) : exec (.registerWrite o be v) s = .next s := by
  rcases h with h | h <;> simp [exec, execRegisterWrite, h]

theorem exec_mcRegisterRead_served {s : State} {a b : BitVec 32} (hm : s.servesMc = true) (hw : s.windowServed = true)
    (ha : bitsOf a 31 28 = 0) (hb : bitsOf b 31 4 = 0) (hi : inWindow (bitsOf a 27 0) (bitsOf b 3 0 + 1) = true) :
    exec (.mcRegisterRead a b) s = .next ((s.readDwords 2 (bitsOf a 27 0) (bitsOf b 3 0 + 1)).2.reply
      (.ok (s.readDwords 2 (bitsOf a 27 0) (bitsOf b 3 0 + 1)).1)) := by
  simp [exec, execMcRegisterRead, hm, hw, ha, hb, hi]

/-- Reads send nothing: what the block has sent is what it had. -/
@[simp] theorem State.readDword_out (s : State) (p o : Nat) : (s.readDword p o).2.out = s.out := by
  by_cases h : locate o = .unimplemented
  · simp [s.readDword_of_unimplemented p h, State.countUnimpl]
  · simp [s.readDword_of_implemented p h]

@[simp] theorem State.readDwords_out (p n : Nat) : ∀ (s : State) (o : Nat), (s.readDwords p o n).2.out = s.out := by
  induction n with
  | zero => intro s o; rfl
  | succ n ih => intro s o; simp [State.readDwords_succ, ih]

/-! One dword written (R563, R565, R567). -/

theorem State.writeDword_of_unimplemented {s : State} {o : Nat} (be : BitVec 4) (v : Word) (hl : locate o = .unimplemented) :
    s.writeDword o be v = s.countUnimpl 1 o := by
  simp [State.writeDword, hl]

/-- A write to a register of an absent unit has no effect, whatever its byte enables (R4). -/
theorem State.writeDword_of_absent {s : State} {o i : Nat} {r : Reg} {fs : List Fld} (be : BitVec 4) (v : Word)
    (hl : locate o = .reg r i fs) (ha : s.absent r = true) : s.writeDword o be v = s := by
  simp [State.writeDword, hl, ha]

theorem State.writeDword_partial {s : State} {o i : Nat} {r : Reg} {fs : List Fld} {be : BitVec 4} (v : Word)
    (hl : locate o = .reg r i fs) (ha : s.absent r = false) (hb : be ≠ 0xF) : s.writeDword o be v = s.countDenied 1 o := by
  simp only [State.writeDword, hl, ha, if_pos hb]
  rfl

theorem State.writeDword_whole {s : State} {o i : Nat} {r : Reg} {fs : List Fld} (v : Word)
    (hl : locate o = .reg r i fs) (ha : s.absent r = false) : s.writeDword o 0xF v = s.writeReg r i fs o v := by
  simp [State.writeDword, hl, ha]

/-- The registers whose write by the manager has a meaning of its own, FAB_ADDR apart. -/
def regsWithOwnWrite : List Reg :=
  [.fabPd, .pwrSprint, .pwrPadRelease, .evrRelease, .evrLgClear, .laneCtrl, .dmcCtrl, .loopStat, .chipGpioData]

/-- At every other register a write concerns the RWLIVE fields that it gives a legal value (R22, R567). -/
theorem State.writeReg_plain {r : Reg} (s : State) (i : Nat) (fs : List Fld) (o : Nat) (v : Word) (hf : ∀ j, r ≠ .fabAddr j)
    (hr : r ∉ regsWithOwnWrite) :
    s.writeReg r i fs o v = if liveMask fs v = 0 then s else s.pend o (liveMask fs v) v := by
  unfold State.writeReg
  split <;> simp_all [regsWithOwnWrite]

/-- The bound sets computed anew concern the timekeeper alone (R222). -/
theorem State.recompute_eq (s : State) : ∃ k, s.recompute = { s with tmk := k } := by
  unfold State.recompute
  split
  · exact ⟨_, rfl⟩
  · exact ⟨s.tmk, rfl⟩

/-- A value that waits for the quiet point stands behind those that wait; besides, the computation of the bound sets may begin anew
(R222, R567). -/
theorem State.pend_eq (s : State) (o : Nat) (m v : Word) : ∃ b k,
    s.pend o m v = { s with regs := { s.regs with live := s.regs.live ++ [⟨o, m, v, b⟩] }, tmk := k } := by
  unfold State.pend
  cases locate o with
  | reg r i fs =>
    refine ⟨r.boundInput && s.tmk.inForce, ?_⟩
    simp only
    split
    · obtain ⟨k, hk⟩ := State.recompute_eq
        (s.onRegs fun x => { x with live := x.live ++ [⟨o, m, v, r.boundInput && s.tmk.inForce⟩] })
      exact ⟨k, hk⟩
    · exact ⟨s.tmk, rfl⟩
  | hole => exact ⟨false, s.tmk, rfl⟩
  | unimplemented => exact ⟨false, s.tmk, rfl⟩

theorem State.running_of_windowServed {s : State} (h : s.windowServed = true) : s.running = true := by
  simp only [State.windowServed, Bool.and_eq_true] at h
  obtain ⟨⟨⟨⟨hrun, -⟩, -⟩, -⟩, -⟩ := h
  exact hrun

/-- The FAB_ rows are there with the Ethernet ports (R4, R7). -/
theorem State.absent_fabPd (s : State) : s.absent .fabPd = !s.hasFabric := by
  simp [State.absent, Reg.isFabric, Reg.isCompression]

/-- The registers that the management controller can write are of no unit that can be absent. -/
theorem State.present_of_mcWritable (s : State) {r : Reg} (h : r ∈ [Reg.pwrSprint, .evrRelease, .evrLgClear]) :
    s.absent r = false := by
  simp only [List.mem_cons, List.not_mem_nil, or_false] at h
  rcases h with rfl | rfl | rfl <;> rfl

/-- A Register Write by the management controller to a register it cannot write is Invalid Parameter (R564). -/
theorem exec_mcRegisterWrite_refused {s : State} {a : BitVec 32} (v : BitVec 32) {r : Reg} {i : Nat} {fs : List Fld}
    (hm : s.servesMc = true) (hw : s.windowServed = true) (ha : bitsOf a 31 28 = 0) (hi : inWindow (bitsOf a 27 0) 1 = true)
    (hl : locate (bitsOf a 27 0) = .reg r i fs) (hr : r ∉ [Reg.pwrSprint, .evrRelease, .evrLgClear]) :
    exec (.mcRegisterWrite a v) s = .next (s.onOut fun o => { o with mi := o.mi ++ [.invalidParameter] }) := by
  simp only [exec, execMcRegisterWrite, hm, hw, ha, hi, hl]
  split <;> simp_all

/-- Settles O13: an absent unit's registers are caught before the register is looked at, in `readAt` and in `writeDword`. -/
theorem absentUnitRegistersReadZero : Obligations.AbsentUnitRegistersReadZero := by
  unfold Obligations.AbsentUnitRegistersReadZero
  refine ⟨?_, ?_, ?_, ?_, ?_, ?_⟩
  · intro o i r fs s hw hi hl ha
    have himp : ∀ k, k < 1 → locate (o + 4 * k) ≠ .unimplemented := by
      intro k hk
      obtain rfl : k = 0 := by omega
      simp [hl]
    rw [exec_managerRegisterRead_served hw hi, s.readDwords_of_implemented 1 1 o himp]
    simp [State.readAt_of_absent (o := o) hl ha]
  · intro o n k i r fs s hw hi hk hl ha
    exact ⟨_, _, exec_managerRegisterRead_served hw hi, by simp, State.readDwords_length 1 n s o,
      State.readDwords_absent 1 n s o k hk hl ha⟩
  · intro a b k i r fs s hm hw ha hb hi hk hl hr
    exact ⟨_, _, exec_mcRegisterRead_served hm hw ha hb hi, by simp,
      State.readDwords_absent 2 (bitsOf b 3 0 + 1) s (bitsOf a 27 0) k (by omega) hl hr⟩
  · intro o i r fs be v s hw hl ha
    cases hi : inWindow o 1 with
    | true => rw [exec_registerWrite_served be v hw hi, State.writeDword_of_absent be v hl ha]
    | false => exact exec_registerWrite_unserved be v (.inr hi)
  · intro a v i r fs s hm hw ha hi hl hr
    refine exec_mcRegisterWrite_refused v hm hw ha hi hl fun hmem => ?_
    simp [s.present_of_mcWritable hmem] at hr
  · intro d k v s ha
    have hf : s.hasFabric = false := by simpa [State.absent_fabPd] using ha
    simp [exec, execFabPdWrite, execFabAddrWrite, hf]

/-- Settles O14: each clause is the command's branch for a served window, followed by what the dword or the register does. -/
theorem managerWindowAccesses : Obligations.ManagerWindowAccesses := by
  unfold Obligations.ManagerWindowAccesses
  refine ⟨?_, ?_, ?_, ?_, ?_, ?_, ?_, ?_, ?_, ?_⟩
  · intro o n s hw hi himp
    rw [exec_managerRegisterRead_served hw hi, s.readDwords_of_implemented 1 n o himp]
  · intro o s hw hi hl
    refine ⟨_, exec_managerRegisterRead_served hw hi, ?_⟩
    simp [State.readDwords, s.readDword_of_unimplemented 1 hl, State.countUnimpl]
  · intro o n s h
    exact exec_managerRegisterRead_unserved h
  · intro o i r fs be v s hw hi hl ha hb
    rw [exec_registerWrite_served be v hw hi, State.writeDword_partial v hl ha hb]
    rfl
  · intro o be v s hw hi hl
    rw [exec_registerWrite_served be v hw hi, State.writeDword_of_unimplemented be v hl]
    rfl
  · intro o i r fs v s hw hi hl ha
    have hrun : s.running = true := State.running_of_windowServed hw
    rw [exec_registerWrite_served 0xF v hw hi, State.writeDword_whole v hl ha]
    refine ⟨?evrRelease, ?evrLgClear, ?laneCtrl, ?dmcCtrl, ?loopStat, ?fabPd, ?chipGpioData, ?pwrPadRelease⟩
    case evrRelease => rintro rfl; rfl
    case evrLgClear =>
      rintro rfl (h0 : hasBit v 0 = true)
      simp [State.writeReg, h0]
    case laneCtrl =>
      rintro rfl (h31 : hasBit v 31 = true)
      simp [State.writeReg, h31, exec, execLaneRecalWrite]
    case dmcCtrl =>
      rintro rfl (h31 : hasBit v 31 = true) (h30 : hasBit v 30 = false)
      simp [State.writeReg, h31, h30, exec, execDramThaw, hrun]
    case loopStat =>
      rintro rfl (h31 : hasBit v 31 = true) h8
      simp [State.writeReg, h31, exec, execGustClearWrite, hrun, h8]
    case fabPd =>
      rintro rfl h4096
      have hf : s.hasFabric = true := by simpa [State.absent_fabPd] using ha
      simp [State.writeReg, exec, execFabPdWrite, hrun, hf, h4096]
    case chipGpioData => rintro rfl; rfl
    case pwrPadRelease => rintro rfl; rfl
  · intro i r fs o v s hw hi hl hf hr hm
    rw [exec_registerWrite_served 0xF v hw hi]
    cases ha : s.absent r with
    | true => rw [State.writeDword_of_absent 0xF v hl ha]
    | false => rw [State.writeDword_whole v hl ha, s.writeReg_plain i fs o v hf hr, if_pos hm]
  · intro i r fs o v s hw hi hl ha hf hr hm
    obtain ⟨b, k, hpend⟩ := s.pend_eq o (liveMask fs v) v
    refine ⟨_, b, exec_registerWrite_served 0xF v hw hi, ?_⟩
    rw [State.writeDword_whole v hl ha, s.writeReg_plain i fs o v hf hr, if_neg hm, hpend]
    exact ⟨rfl, rfl⟩
  · intro i fs o v s hw hi hl
    refine ⟨_, exec_registerWrite_served 0xF v hw hi, ?_⟩
    rw [State.writeDword_whole v hl (s.present_of_mcWritable (by simp))]
    simp [State.writeReg, State.countDenied]
  · intro o be v s h
    exact exec_registerWrite_unserved be v h

end Sys2Proof.Machine
end

section
/-! Resets of the two domains (R551, R552, R553, R569): what a chip domain reset leaves, that a landing for a reset stays one until the reset
comes, what the release leaves, and the statement about the five commands. -/

namespace Sys2Proof.Machine

/-! ### The chip domain reset -/

/-- The end of a fence gives die blocks to erase queues and changes nothing else (R82). -/
theorem State.dropFence_eq (s : State) (zk : Nat) : ∃ ds, s.dropFence zk = { s with dies := ds } := by
  unfold State.dropFence
  split
  · exact ⟨s.dies, rfl⟩
  · refine State.each_keeps (fun t => ∃ ds, t = { s with dies := ds }) _ _ ?_ s ⟨s.dies, rfl⟩
    rintro p t ⟨ds, rfl⟩
    split
    · exact ⟨ds, rfl⟩
    · exact ⟨_, rfl⟩

theorem State.dropFences_eq (s : State) (zks : List Nat) :
    ∃ ds, s.each zks (fun zk s => s.dropFence zk) = { s with dies := ds } := by
  refine State.each_keeps (fun t => ∃ ds, t = { s with dies := ds }) _ _ ?_ s ⟨s.dies, rfl⟩
  rintro zk t ⟨ds, rfl⟩
  exact State.dropFence_eq _ zk

/-- Two states that agree in what a reset keeps are reset alike. -/
theorem ChipWasReset.of_source {s s' t : State} (h : ChipWasReset s t) (hp : s'.power = s.power) (hc : s'.cph = s.cph)
    (hm : s'.media = s.media) : ChipWasReset s' t := by
  unfold ChipWasReset at h ⊢
  rw [hp, hc, hm]
  exact h

/-- What the always-on domain, the recorder, the lanes and the store hold is no part of a reset chip domain. -/
theorem ChipWasReset.of_rest {s t t' : State} (h : ChipWasReset s t)
    (ht : { t' with aon := t.aon, evr := t.evr, lanes := t.lanes, store := t.store } = t) : ChipWasReset s t' := by
  rw [← ht] at h
  exact h

theorem ChipWasReset.raise {s t : State} (h : ChipWasReset s t) (code src a b c d : Nat) :
    ChipWasReset s (t.raise code src a b c d) := by
  simpa [ChipWasReset] using h

theorem State.clearChip_wasReset (s : State) : ChipWasReset s s.clearChip := by
  obtain ⟨ds, hds⟩ := s.dropFences_eq (Tbl.numbers (fun z => z.fence.isSome) s.zones)
  unfold State.clearChip
  rw [hds]
  refine ⟨rfl, rfl, rfl, rfl, rfl, rfl, rfl, rfl, rfl, rfl, rfl, rfl, rfl, rfl, rfl, rfl, rfl, rfl, rfl, rfl, rfl⟩

theorem State.clearChip_aon (s : State) : s.clearChip.aon = s.aon.afterReset := by
  obtain ⟨ds, hds⟩ := s.dropFences_eq (Tbl.numbers (fun z => z.fence.isSome) s.zones)
  unfold State.clearChip
  rw [hds]
  rfl

theorem State.keepTenantWords_eq (s : State) : ∃ st, s.keepTenantWords = { s with store := st } := by
  unfold State.keepTenantWords
  split
  · exact ⟨_, rfl⟩
  · exact ⟨s.store, rfl⟩

/-- A chip domain reset clears the chip of a state that differs from the one before in what the store holds; PWR_HOLD that was high is
recorded as it goes low (R412). -/
theorem State.chipReset_eq (s : State) (landed : Bool) : ∃ st, s.chipReset landed =
    let t := (State.clearChip { s with store := st }).onAon fun a => { a with holdHigh := false }
    if s.aon.holdHigh then t.raise 0x0E18 srcLoopEngine (subParam 2 s.bank.lowMv) 5 0 0 else t := by
  obtain ⟨st, hst⟩ := s.keepTenantWords_eq
  unfold State.chipReset
  rw [hst]
  simp only
  split
  · exact ⟨st, rfl⟩
  · exact ⟨_, rfl⟩

theorem State.chipReset_wasReset (s : State) (landed : Bool) : ChipWasReset s (s.chipReset landed) := by
  obtain ⟨st, heq⟩ := s.chipReset_eq landed
  have hclear : ChipWasReset s ((State.clearChip { s with store := st }).onAon fun a => { a with holdHigh := false }) :=
    ((State.clearChip_wasReset { s with store := st }).of_source rfl rfl rfl).of_rest rfl
  rw [heq]
  simp only
  split
  · exact hclear.raise ..
  · exact hclear

/-- An event changes the recorder and the count of dropped records (R535). -/
theorem State.raise_eq (s : State) (code src a b c d : Nat) : ∃ q n,
    s.raise code src a b c d = { s with evr := q, aon := { s.aon with evrDropped := n } } := by
  unfold State.raise
  simp only
  generalize (if isFaultCode code then 256 else 224) = room
  split
  · exact ⟨s.evr, s.aon.evrDropped, rfl⟩
  · split
    · exact ⟨_, s.aon.evrDropped, rfl⟩
    · split
      · exact ⟨_, s.aon.evrDropped, rfl⟩
      · exact ⟨s.evr, _, rfl⟩

/-- Of the always-on domain a chip domain reset leaves what R569 lists, with PWR_HOLD low; a record without room is counted (R535). -/
theorem State.chipReset_aon (s : State) (landed : Bool) : ∃ n, (s.chipReset landed).aon =
    { s.aon.afterReset with holdHigh := false, evrDropped := n } := by
  obtain ⟨st, heq⟩ := s.chipReset_eq landed
  rw [heq]
  simp only
  split
  · obtain ⟨q, n, hraise⟩ := State.raise_eq ((State.clearChip { s with store := st }).onAon fun a => { a with holdHigh := false })
      0x0E18 srcLoopEngine (subParam 2 s.bank.lowMv) 5 0 0
    exact ⟨n, by rw [hraise]; simp [State.clearChip_aon]⟩
  · exact ⟨s.aon.evrDropped, by simp [State.clearChip_aon, Aon.afterReset]⟩

/-! ### A landing keeps its cause -/

/-- A landing for this cause is under way. -/
def State.LandsFor (c : LandCause) (s : State) : Prop := ∃ l, s.power.landing = some l ∧ l.cause = c

theorem State.LandsFor.of_power {c : LandCause} {s t : State} (h : s.LandsFor c) (hp : t.power = s.power) : t.LandsFor c := by
  unfold State.LandsFor
  rw [hp]
  exact h

theorem State.LandsFor.onLanding {c : LandCause} {s : State} {f : Landing → Landing} (h : s.LandsFor c)
    (hf : ∀ l, (f l).cause = l.cause) : (s.onLanding f).LandsFor c := by
  obtain ⟨l, hl, rfl⟩ := h
  exact ⟨f l, by simp [State.onLanding, hl], hf l⟩

theorem State.LandsFor.each {c : LandCause} {α : Type} {s : State} (h : s.LandsFor c) (xs : List α) {f : α → State → State}
    (hf : ∀ x t, t.LandsFor c → (f x t).LandsFor c) : (s.each xs f).LandsFor c :=
  State.each_keeps (State.LandsFor c) xs f hf s h

/-! The operations of a landing on lanes, dies and engines leave modes and power alone. -/

@[simp] theorem State.sendFlit_power (s : State) (n : Nat) (f : TxFlit) : (s.sendFlit n f).power = s.power := by
  unfold State.sendFlit
  simp only
  split <;> simp

@[simp] theorem State.pumpLane_power (fuel : Nat) : ∀ (s : State) (n : Nat), (s.pumpLane fuel n).power = s.power := by
  induction fuel with
  | zero => intro s n; rfl
  | succ fuel ih =>
    intro s n
    unfold State.pumpLane
    split
    · split
      · rfl
      · simp [ih, State.sendStored]
    · rfl

@[simp] theorem State.postMsgs_power (s : State) (n : Nat) (ms : List Msg) : (s.postMsgs n ms).power = s.power := by
  simp [State.postMsgs, State.post, State.pump, State.updLane_eq]

@[simp] theorem State.settleDie_power (s : State) (k : Nat) : (s.settleDie k).power = s.power := by
  unfold State.settleDie
  simp only
  split <;> simp

@[simp] theorem State.abortOp_power (s : State) (k tag : Nat) (o : Op) (code : Nat) : (s.abortOp k tag o code).power = s.power := by
  simp [State.abortOp]

@[simp] theorem State.enterLanding_power (s : State) (k : Nat) : (s.enterLanding k).power = s.power := by
  unfold State.enterLanding
  simp only [State.settleDie_power]
  split
  · split <;> simp
  · rfl

@[simp] theorem State.wakeLane_power (s : State) (n : Nat) : (s.wakeLane n).power = s.power := by
  unfold State.wakeLane
  split
  · simp [State.sendTs, State.updLane_eq]
  · rfl

@[simp] theorem State.grantParity_power (fuel : Nat) : ∀ s : State, (State.grantParity fuel s).power = s.power := by
  induction fuel with
  | zero => intro s; rfl
  | succ fuel ih =>
    intro s
    unfold State.grantParity
    split
    · simp [ih]
    · rfl

@[simp] theorem State.addParityWork_power (s : State) (j : ParityJob) : (s.addParityWork j).power = s.power := by
  simp [State.addParityWork, State.addParityJob, State.bookParityPs]

@[simp] theorem State.enqueueHeavy_power (s : State) (k : Nat) (e : QEntry) : (s.enqueueHeavy k e).power = s.power := by
  simp [State.enqueueHeavy, State.bookHeavy, State.updDie_eq]

/-- The broker opened or closed changes itself and what it reports to the timekeeper (R396, R397). -/
theorem State.closeBroker_eq (s : State) (b : Bool) : ∃ x k, s.closeBroker b = { s with broker := x, tmk := k } := by
  unfold State.closeBroker
  split
  · exact ⟨s.broker, s.tmk, rfl⟩
  · exact ⟨_, _, rfl⟩

@[simp] theorem State.closeBroker_power (s : State) (b : Bool) : (s.closeBroker b).power = s.power := by
  obtain ⟨x, k, h⟩ := s.closeBroker_eq b
  rw [h]

/-! The steps of a landing change its lists of units, never its cause. -/

theorem State.LandsFor.landUnit {c : LandCause} {s : State} (h : s.LandsFor c) (u : LandUnit) : (s.landUnit u).LandsFor c := by
  unfold State.landUnit
  split
  · exact h
  · exact (h.of_power (State.enqueueHeavy_power ..)).onLanding fun _ => rfl

theorem State.LandsFor.dropLanded {c : LandCause} {s : State} (h : s.LandsFor c) (l : Landing) : (s.dropLanded l).LandsFor c := by
  unfold State.dropLanded
  extract_lets idle dropped
  have hdropped : dropped.LandsFor c := h.each idle fun u t ht => ht.of_power rfl
  exact hdropped.onLanding fun _ => rfl

theorem State.LandsFor.writeJournal {c : LandCause} {s : State} (h : s.LandsFor c) : s.writeJournal.LandsFor c := by
  unfold State.writeJournal
  split
  · exact h
  · split
    · exact h
    · exact (h.each _ fun k t ht => ht.of_power (State.enqueueHeavy_power ..)).onLanding fun _ => rfl

theorem State.LandsFor.assignLanding {c : LandCause} {s : State} (h : s.LandsFor c) : s.assignLanding.LandsFor c := by
  unfold State.assignLanding
  split
  · exact h
  · exact ((h.dropLanded _).each _ fun u t ht => ht.landUnit u).writeJournal

theorem State.LandsFor.listLanding {c : LandCause} {s : State} (h : s.LandsFor c) : s.listLanding.LandsFor c := by
  unfold State.listLanding
  split
  · exact h
  · split
    · exact h
    · refine State.LandsFor.assignLanding ?_
      exact h.onLanding fun _ => rfl

/-- A landing begun for a cause is under way for it. -/
theorem State.startLanding_landsFor (s : State) (c : LandCause) (mv : Nat) : (s.startLanding c mv).LandsFor c := by
  unfold State.startLanding
  extract_lets before l begun dies woken topped
  have hbegun : begun.LandsFor c := ⟨l, by simp [begun], rfl⟩
  have hdies : dies.LandsFor c := hbegun.each _ fun k t ht => ht.of_power (State.enterLanding_power ..)
  have hwoken : woken.LandsFor c := by
    simp only [woken]
    split
    · exact hdies
    · have hpowered : ((dies.powerDomains dies.laneDomains).releasePads dies.laneDomains).LandsFor c := hdies.of_power rfl
      exact hpowered.each _ fun n t ht => ht.of_power (State.wakeLane_power ..)
  have htopped : topped.LandsFor c := hwoken.each _ fun r t ht => ht.of_power (State.addParityWork_power ..)
  split
  · exact htopped.listLanding
  · exact htopped

/-- A landing for a reset goes on, or has ended with the reset (R553). -/
theorem State.settleLanding_of_chipReset {s : State} (h : s.LandsFor .chipReset) :
    s.settleLanding.power.inReset = true ∨ s.settleLanding.LandsFor .chipReset := by
  have hassign := h.assignLanding
  obtain ⟨l, hl, hcause⟩ := h.assignLanding
  unfold State.settleLanding
  simp only
  split
  · exact .inr hassign
  · refine .inl ?_
    rw [hl]
    simp only [hcause]
    obtain ⟨hpower, -⟩ := State.chipReset_wasReset (s.assignLanding.writeDirectory none) true
    rw [hpower]

/-! ### Release from reset -/

/-- A budget set changes the broker and what it reports to the timekeeper (R395, R396). -/
theorem State.setBudget_eq (s : State) (out : Int) : ∃ x k, s.setBudget out = { s with broker := x, tmk := k } := by
  unfold State.setBudget
  simp only
  generalize (if s.power.mode = .warmup ∧ s.stepComplete 8 = false then max out.toNat (s.cfg .batonCfg 0 31 16) else out.toNat) = b
  split
  · exact ⟨s.broker, s.tmk, rfl⟩
  · exact ⟨_, _, rfl⟩

theorem State.markStep_nine (s : State) :
    s.markStep 9 = s.onPower fun p => { p with stepDone := setBit p.stepDone 8 } := by
  simp [State.markStep]

/-- What the always-on domain, the power state and the fault state are when a chip domain leaves reset (R36, R55, R57, R295, R411, R551). -/
theorem State.releaseChip_spec (s : State) (dual : Bool) :
    (s.releaseChip dual).power = { s.power with
      dual := dual, t0 := s.now, inReset := false, mode := .warmup,
      stepDone := if s.aon.hkFirstRound then s.power.stepDone else setBit s.power.stepDone 8,
      holds := (if s.aon.pfdGood then [] else [1]) ++ (if s.aon.trip then [5] else []) } ∧
    (s.releaseChip dual).flt = { s.flt with activePair := if s.boot.lkgValid then s.boot.lkgPair else 0 } ∧
    (s.releaseChip dual).aon.bfiLow = false ∧ (s.releaseChip dual).aon.pg = 0xF := by
  unfold State.releaseChip
  extract_lets w pinned padded released paired stepped held
  have hstepped : stepped = { paired with power := { paired.power with
      stepDone := if s.aon.hkFirstRound then s.power.stepDone else setBit s.power.stepDone 8 } } := by
    have hkeep : paired.aon.hkFirstRound = s.aon.hkFirstRound := rfl
    simp only [stepped, hkeep, State.markStep_nine]
    split <;> rfl
  have hheld : held = { stepped with power := { stepped.power with holds := if s.aon.pfdGood then [] else [1] } } := by
    have hkeep : stepped.aon.pfdGood = s.aon.pfdGood := by rw [hstepped]; rfl
    simp only [held, hkeep]
    rw [hstepped]
    cases s.aon.pfdGood <;> rfl
  have htrip : held.aon.trip = s.aon.trip := by rw [hheld, hstepped]; rfl
  rw [htrip]
  split
  · rw [hheld, hstepped]
    refine ⟨?_, rfl, rfl, rfl⟩
    cases s.aon.pfdGood <;> rfl
  · obtain ⟨x, k, hclose⟩ := held.closeBroker_eq false
    obtain ⟨y, m, hbudget⟩ := (held.closeBroker false).setBudget_eq 0
    rw [hbudget, hclose, hheld, hstepped]
    refine ⟨?_, rfl, rfl, rfl⟩
    simp only [List.append_nil]
    rfl

theorem stepComplete_nine_of_setBit {s : State} {w : BitVec 13} (h : s.power.stepDone = setBit w 8) : s.stepComplete 9 = true := by
  simp [State.stepComplete, h, setBit]

theorem State.on_of_running {s : State} (h : s.running = true) : s.aon.on = true := by
  simp only [State.running, State.released, Bool.and_eq_true] at h
  obtain ⟨⟨hon, -⟩, -⟩ := h
  exact hon

/-! ### The five commands -/

/-- A landing flush cut off: the chip domain is reset, and only AON is powered (R439). -/
theorem State.cutOff_spec (s : State) (l : Landing) (cause mv : Nat) :
    ChipWasReset s (s.cutOff l cause mv) ∧ (s.cutOff l cause mv).aon.domainOn = 1 := by
  unfold State.cutOff
  extract_lets left used pads whole reset powered recorded
  have hreset : ChipWasReset s reset := (State.chipReset_wasReset _ whole).of_source rfl rfl rfl
  have hpowered : ChipWasReset s powered := hreset.of_rest rfl
  refine ⟨(hpowered.raise ..).raise .., ?_⟩
  rw [State.raise_aon]
  simp only [recorded, State.raiseBank]
  rw [State.raise_aon]
  rfl

theorem exec_vauxRemoval {s : State} (hon : s.aon.on = true) : exec .vauxRemoval s =
    .next { s.chipReset false with aon := { vauxOn := s.aon.vauxOn }, evr := {}, lanes := [] } := by
  obtain ⟨n, hn⟩ := s.chipReset_aon false
  have hcount : (s.chipReset false).aon.vauxOn = s.aon.vauxOn := by rw [hn]; rfl
  simp only [exec, execVauxRemoval, if_pos hon, hcount]

theorem exec_chipResetRelease {s : State} (dual : Bool) (hon : s.aon.on = true) (hin : s.power.inReset = true)
    (hmode : s.power.mode ≠ .off ∨ s.aon.pfdGood = true) : exec (.chipResetRelease dual) s = .next (s.releaseChip dual) := by
  have htaken : (s.power.mode != .off || s.aon.pfdGood) = true := by simpa using hmode
  simp [exec, execChipResetRelease, hon, hin, htaken]

/-- A request for a reset with dirty bytes held goes to the landing: one under way takes the reset as its cause, or one begins (R553). -/
theorem exec_chipRstNRequest_landing {s : State} (hrel : s.released = true) (hmode : s.power.mode ≠ .homestretch)
    (hcalm : s.power.mode ≠ .calm) (hdirty : s.dirtyBytes ≠ 0) :
    ∃ u : State, u.LandsFor .chipReset ∧ exec .chipRstNRequest s = .next u.settleLanding := by
  cases hl : s.power.landing with
  | some l =>
    refine ⟨s.onPower fun p => { p with landing := some { l with cause := .chipReset }, entry := none }, ⟨_, rfl, rfl⟩, ?_⟩
    simp [exec, execChipRstNRequest, hrel, hmode, hcalm, hdirty, hl]
  | none =>
    refine ⟨_, s.startLanding_landsFor .chipReset s.bank.lowMv, ?_⟩
    simp [exec, execChipRstNRequest, hrel, hmode, hcalm, hdirty, hl]

/-- A drop of a power-good input with no landing of Homestretch to cut off: the chip domain is reset, PWR_BFI_N and PWR_ISO_N low, the drop
counted (R552). -/
theorem exec_powerGoodDrop_reset {s : State} {pg : BitVec 4} (hrun : s.running = true) (hpg : pg ≠ 0xF)
    (hl : s.power.landing = none ∨ s.power.mode ≠ .homestretch) :
    exec (.powerGoodDrop pg) s = .next (((s.onAon fun a => { a with pg := pg }).chipReset false).onAon fun a =>
      { a with pgDrops := satAdd 8 a.pgDrops 1, bfiLow := true, isoLow := true }) := by
  have hon : s.aon.on = true := State.on_of_running hrun
  have hread : (s.onAon fun a => { a with pg := pg }).running = true := hrun
  have hlow : (pg != 0xF) = true := by simpa using hpg
  simp only [exec, execPowerGoodDrop, hon, hread, hlow, State.onAon_fields, Bool.not_true, Bool.and_true]
  rcases hl with hl | hmode
  · simp [hl]
  · cases s.power.landing with
    | none => simp
    | some l => simp [hmode]

/-- A drop that comes in a landing of Homestretch cuts its flush off (R439, R552). -/
theorem exec_powerGoodDrop_cutOff {s : State} {pg : BitVec 4} {l : Landing} (hrun : s.running = true) (hpg : pg ≠ 0xF)
    (hl : s.power.landing = some l) (hmode : s.power.mode = .homestretch) :
    exec (.powerGoodDrop pg) s = .next ((s.onAon fun a => { a with pg := pg }).cutOff l 2 s.bank.lowMv) := by
  have hon : s.aon.on = true := State.on_of_running hrun
  have hread : (s.onAon fun a => { a with pg := pg }).running = true := hrun
  have hlow : (pg != 0xF) = true := by simpa using hpg
  simp only [exec, execPowerGoodDrop, hon, hread, hlow, State.onAon_fields, hl, hmode, Bool.not_true, Bool.and_true]
  rfl

/-- With all power-good inputs high, or the chip domain not running, the pins are read and nothing happens (R552). -/
theorem exec_powerGoodDrop_pins {s : State} {pg : BitVec 4} (hon : s.aon.on = true) (h : s.running = false ∨ pg = 0xF) :
    exec (.powerGoodDrop pg) s = .next (s.onAon fun a => { a with pg := pg }) := by
  have hread : (s.onAon fun a => { a with pg := pg }).running = s.running := rfl
  have hquiet : (s.running && pg != 0xF) = false := by rcases h with h | rfl <;> simp [*]
  simp only [exec, execPowerGoodDrop, hon, hread, hquiet, Bool.not_true]
  rfl

/-- The AON domain just released, its input judged by a first reading of `mv` (R19, R551). -/
def State.aonStarted (s : State) (mv : Nat) : State :=
  s.onAon fun a => { a with on := true, vauxOn := a.vauxOn + 1, pfdGood := decide (s.cfg .pwrPfdCfg 0 31 20 ≤ mv) }

/-- AON_RESET_RELEASE starts the domain; a first reading between FALL and RISE is recorded (R419, R551). -/
theorem exec_aonResetRelease {s : State} (mv : Nat) (hoff : s.aon.on = false) : exec (.aonResetRelease mv) s =
    .next (if s.cfg .pwrPfdCfg 0 19 8 < mv ∧ mv < s.cfg .pwrPfdCfg 0 31 20 then
      (s.aonStarted mv).raise 0x0E19 srcAon mv (s.cfg .pwrPfdCfg 0 31 20) (s.cfg .pwrPfdCfg 0 19 8) 0
    else s.aonStarted mv) := by
  simp [exec, execAonResetRelease, hoff, State.aonStarted]

/-- Settles O2: each clause is the branch of its command that the hypotheses choose, and what that branch leaves: `chipReset_wasReset`,
`releaseChip_spec`, `cutOff_spec`, or a landing that keeps its cause. -/
theorem resetsOfBothDomains : Obligations.ResetsOfBothDomains := by
  unfold Obligations.ResetsOfBothDomains
  refine ⟨?aonRelease, ?aonOn, ?vauxRemoval, ?chipRelease, ?chipReleased, ?requestReset, ?requestLanding, ?requestIgnored,
    ?dropReset, ?dropCutOff, ?dropPins⟩
  case aonRelease =>
    intro mv s hoff
    refine ⟨_, exec_aonResetRelease mv hoff, ?_⟩
    split
    case isTrue hbetween =>
      have hrecord : s.roomForEvents → Recorded s ((s.aonStarted mv).raise 0x0E19 srcAon mv (s.cfg .pwrPfdCfg 0 31 20)
          (s.cfg .pwrPfdCfg 0 19 8) 0) 0x0E19 srcAon mv (s.cfg .pwrPfdCfg 0 31 20) (s.cfg .pwrPfdCfg 0 19 8) 0 :=
        fun hroom => (s.aonStarted mv).mem_raise 0x0E19 srcAon mv _ _ 0 hroom (fun h => absurd h (by decide)) (fun h => absurd h (by decide))
      obtain ⟨q, n, hraise⟩ := (s.aonStarted mv).raise_eq 0x0E19 srcAon mv (s.cfg .pwrPfdCfg 0 31 20) (s.cfg .pwrPfdCfg 0 19 8) 0
      rw [hraise] at hrecord ⊢
      exact ⟨rfl, rfl, rfl, rfl, fun _ _ hroom => hrecord hroom⟩
    case isFalse hout =>
      exact ⟨rfl, rfl, rfl, rfl, fun hfall hrise => absurd ⟨hfall, hrise⟩ hout⟩
  case aonOn =>
    intro mv s hon
    simp [exec, execAonResetRelease, hon]
  case vauxRemoval =>
    intro s hon
    exact ⟨_, exec_vauxRemoval hon, rfl, rfl, rfl, (s.chipReset_wasReset false).of_rest rfl⟩
  case chipRelease =>
    intro dual s hon hin hmode
    obtain ⟨hpower, hflt, hbfi, hpg⟩ := s.releaseChip_spec dual
    refine ⟨_, exec_chipResetRelease dual hon hin hmode, ?_⟩
    have hstep : s.aon.hkFirstRound = false → (s.releaseChip dual).stepComplete 9 = true := fun hk =>
      stepComplete_nine_of_setBit (w := s.power.stepDone) (by simp [hpower, hk])
    rw [hpower, hflt]
    refine ⟨rfl, rfl, rfl, rfl, hbfi, hpg, hstep, rfl, ?_⟩
    cases s.aon.pfdGood <;> cases s.aon.trip <;> simp
  case chipReleased =>
    intro dual s h
    rcases h with hin | ⟨hoff, hbad⟩
    · simp [exec, execChipResetRelease, hin]
    · simp [exec, execChipResetRelease, hoff, hbad]
  case requestReset =>
    intro s hrel hmode hclean
    obtain ⟨n, hn⟩ := s.chipReset_aon false
    refine ⟨s.chipReset false, ?_, s.chipReset_wasReset false, by rw [hn]⟩
    simp [exec, execChipRstNRequest, hrel, hmode, hclean]
  case requestLanding =>
    intro s hrel hmode hcalm hdirty
    obtain ⟨u, hu, hexec⟩ := exec_chipRstNRequest_landing hrel hmode hcalm hdirty
    exact ⟨_, hexec, State.settleLanding_of_chipReset hu⟩
  case requestIgnored =>
    intro s h
    rcases h with hrel | hmode
    · simp [exec, execChipRstNRequest, hrel]
    · simp [exec, execChipRstNRequest, hmode]
  case dropReset =>
    intro pg s hrun hpg hl
    obtain ⟨n, hn⟩ := (s.onAon fun a => { a with pg := pg }).chipReset_aon false
    have hreset := (s.onAon fun a => { a with pg := pg }).chipReset_wasReset false
    refine ⟨_, exec_powerGoodDrop_reset hrun hpg hl, (hreset.of_source rfl rfl rfl).of_rest rfl, rfl, rfl, ?_, ?_⟩
    · simp [hn, Aon.afterReset]
    · simp [hn]
  case dropCutOff =>
    intro pg l s hrun hpg hl hmode
    obtain ⟨hreset, hdomains⟩ := (s.onAon fun a => { a with pg := pg }).cutOff_spec l 2 s.bank.lowMv
    refine ⟨_, exec_powerGoodDrop_cutOff hrun hpg hl hmode, hreset.of_source rfl rfl rfl, ?_, hdomains⟩
    obtain ⟨hpower, -⟩ := hreset
    simp [hpower, hmode]
  case dropPins =>
    intro pg s hon h
    exact exec_powerGoodDrop_pins hon h

end Sys2Proof.Machine
end

section

/-! O43 is refuted. Its clause of the Abort of an I/O command asks for nothing of the context table, and a table that holds one number
twice is read as its first entry (`Tbl.look`), while the number is found in either (`Tbl.numbers`). -/

namespace Sys2Proof.Machine

/-- A waiting read of controller 0 under this submission queue and CID. -/
def waitingRead (sqid cid : Nat) : Ctx :=
  { hdr := ⟨0, sqid, cid, 1, false, false, none⟩, tenant := 0, kind := .read, cls := .none, phase := .waiting }

/-- Controller 0 of tenant 0 fetches in Stride. Number 5 of its context table stands for the read it is looked up as, submission queue 2 and
CID 7, and behind it for one of submission queue 1 and CID 9. -/
def twiceNumbered : State :=
  { aon := { on := true, domainOn := 2 }, power := { mode := .stride, inReset := false },
    ctrls := [(0, { present := true, en := true, rdy := true })],
    work := { ctxs := [(5, some (waitingRead 2 7)), (5, some (waitingRead 1 9))] } }

/-- The Abort command that is executed in `twiceNumbered`: admin queue, CID 3. -/
def abortHdr : Hdr := ⟨0, 0, 3, 0, false, false, none⟩

theorem twiceNumbered_takesAdmin : twiceNumbered.TakesAdmin ruleSubset abortHdr where
  host := rfl
  pcie := by decide
  fetched := by decide
  whole := by decide
  permitted := by decide
  nvm := by decide
  nsid := by decide
  quiet := by decide

/-- The completions that an outcome's state holds. -/
def completionsOf : Host.Outcome State Fault Refusal → List Completion
  | .next t => t.out.completions
  | _ => []

/-- The abort of submission queue 1, CID 9 ends the read of submission queue 2, CID 7. -/
theorem abort_twiceNumbered :
    (completionsOf (exec (.abortCmd abortHdr 1 9) twiceNumbered)).map (fun c => (c.sqid, c.cid)) = [(2, 7), (0, 3)] := by
  decide +kernel

/-- Refutes O43: where a number stands twice in the context table, Abort finds the second context under it and ends the first, and the completion
with Command Abort Requested carries the submission queue and CID of a command that the Abort did not name (`abort_twiceNumbered`). -/
theorem not_adminCommandsAnswer : ¬ Obligations.AdminCommandsAnswer := by
  unfold Obligations.AdminCommandsAnswer
  rintro ⟨-, -, -, -, -, -, -, -, -, -, -, -, -, -, -, hAbort, -⟩
  obtain ⟨t, a, b, hexec, hout, hsq, -⟩ :=
    hAbort abortHdr 1 9 5 (waitingRead 2 7) twiceNumbered twiceNumbered_takesAdmin (by decide) (by decide) (by decide) rfl rfl
  have hrun := abort_twiceNumbered
  rw [hexec] at hrun
  have hempty : twiceNumbered.out.completions = [] := rfl
  simp [completionsOf, hout, hempty, hsq] at hrun

end Sys2Proof.Machine
end

section
/-! What an operation leaves alone. The parts of the state that the obligations speak of are named once (`Part`), and `Only F s t` says that
from `s` to `t` every part outside the list `F` was kept. An operation of the model then has one lemma that lists the parts it can
touch, and the lemmas compose as the operations do. -/

namespace Sys2Proof.Machine

/-- A tenant without what commands book on it as they run: charge, tokens, credits, counts and log (R189, R208, R381, R384). -/
def Tenant.base (x : Tenant) : Tenant :=
  { x with charge := 0, dashTokens := 0, raLevel := 0, raAt := 0, dashAt := 0, raOver := 0, raEventAt := none, kiops := 0, bw := 0,
           excused := 0, unexcused := 0, declines := 0, worstLate := 0, log := [], overflow := false }

/-- A block without the calendars of its decoders and of its cipher engine (R212, R266). -/
def Blk.base (x : Blk) : Blk := { x with decBusy := 0, cipBusy := 0, cipSusp := [], cipRun := none }

/-- A block without what a relay handoff moves, and without its calendars (R34, R40). -/
def Blk.core (x : Blk) : Blk := { x.base with handoff := none, spareLane := 0, decLast := 0 }

/-- The faults without the stop and the count of handoffs (R531, R541). -/
def Faults.base (x : Faults) : Faults := { x with stop := 0, handoffs := 0 }

/-- The power state without the landing and the entry under way (R432, R438). -/
def Power.base (x : Power) : Power := { x with landing := none, entry := none }

/-- The timekeeper without its counts, the maintenance bucket and the parity calendar (R212, R219, R237). -/
def Timekeeper.base (x : Timekeeper) : Timekeeper :=
  { x with declines := [], excused := [], unexcused := [], breachAt := none, excusedOf := [], maintLevel := 0, maintFull := false, parityBusy := 0 }

/-- The on-chip memory without its buffers and their throttling (R468). -/
def Memory.base (x : Memory) : Memory := { x with bufs := [], throttles := [], throttleAt := [] }

/-- The always-on part without the count of dropped records (R541). -/
def Aon.base (x : Aon) : Aon := { x with evrDropped := 0 }

/-- A part of the state: a field, or a part of one. -/
inductive Part where
  | pending | variant | step | out | completions | mi | down | aon | always | evr | records | recMode | regs | power | powerBase | landCause | bank | broker | loops
  | lanes | dies | dieCnt | blks | blkBase | blkCore | rgns | sets | nss | zones | media | parity | tenants | tenantBase | ctrls | sqs | cqs
  | links | work | ctxs | nextCtx | ops | decodes | ciphers | parities | rebuilds | rows | erasures | selectAll | tmk | tmkBase | cph | fab | windows
  | mem | memBase | flt | fltBase | boot | store | figures
  deriving DecidableEq, Repr

/-- A part is kept from `s` to `t`: it is the same, and of the arrival queue that every record stands in it still. -/
def Part.Kept (s t : State) : Part → Prop
  | .pending => t.pending = s.pending
  | .variant => t.variant = s.variant
  | .step => t.step = s.step
  | .out => t.out = s.out
  | .completions => t.out.completions = s.out.completions
  | .mi => t.out.mi = s.out.mi
  | .down => t.out.down = s.out.down
  | .aon => t.aon = s.aon
  | .always => t.aon.base = s.aon.base
  | .evr => t.evr = s.evr
  | .records => ∀ r ∈ s.evr.queue, r ∈ t.evr.queue
  | .recMode => t.evr.mode = s.evr.mode
  | .regs => t.regs = s.regs
  | .power => t.power = s.power
  | .powerBase => t.power.base = s.power.base
  | .landCause => t.power.landing.map Landing.cause = s.power.landing.map Landing.cause
  | .bank => t.bank = s.bank
  | .broker => t.broker = s.broker
  | .loops => t.loops = s.loops
  | .lanes => t.lanes = s.lanes
  | .dies => t.dies = s.dies
  | .dieCnt => t.dieCnt = s.dieCnt
  | .blks => t.blks = s.blks
  | .blkBase => ∀ n, (t.blk n).base = (s.blk n).base
  | .blkCore => ∀ n, (t.blk n).core = (s.blk n).core
  | .rgns => t.rgns = s.rgns
  | .sets => t.sets = s.sets
  | .nss => t.nss = s.nss
  | .zones => t.zones = s.zones
  | .media => t.media = s.media
  | .parity => t.parity = s.parity
  | .tenants => t.tenants = s.tenants
  | .tenantBase => ∀ n, (t.tenant n).base = (s.tenant n).base
  | .ctrls => t.ctrls = s.ctrls
  | .sqs => t.sqs = s.sqs
  | .cqs => t.cqs = s.cqs
  | .links => t.links = s.links
  | .work => t.work = s.work
  | .ctxs => t.work.ctxs = s.work.ctxs
  | .nextCtx => t.work.nextCtx = s.work.nextCtx
  | .ops => t.work.ops = s.work.ops
  | .decodes => t.work.decodes = s.work.decodes
  | .ciphers => t.work.ciphers = s.work.ciphers
  | .parities => t.work.parities = s.work.parities
  | .rebuilds => t.work.rebuilds = s.work.rebuilds
  | .rows => t.work.rows = s.work.rows
  | .erasures => t.work.erasures = s.work.erasures
  | .selectAll => t.work.selectAll = s.work.selectAll
  | .tmk => t.tmk = s.tmk
  | .tmkBase => t.tmk.base = s.tmk.base
  | .cph => t.cph = s.cph
  | .fab => t.fab = s.fab
  | .windows => t.fab.windows = s.fab.windows
  | .mem => t.mem = s.mem
  | .memBase => t.mem.base = s.mem.base
  | .flt => t.flt = s.flt
  | .fltBase => t.flt.base = s.flt.base
  | .boot => t.boot = s.boot
  | .store => t.store = s.store
  | .figures => t.store.figures = s.store.figures

/-- From `s` to `t` every part outside `F` was kept. -/
def Only (F : List Part) (s t : State) : Prop := ∀ p, p ∉ F → p.Kept s t

theorem Part.Kept.refl (p : Part) (s : State) : p.Kept s s := by
  cases p <;> simp [Part.Kept]

theorem Part.Kept.trans {p : Part} {s t u : State} (h : p.Kept s t) (g : p.Kept t u) : p.Kept s u := by
  cases p
  case records => exact fun r hr => g r (h r hr)
  case blkBase => exact fun n => (g n).trans (h n)
  case blkCore => exact fun n => (g n).trans (h n)
  case tenantBase => exact fun n => (g n).trans (h n)
  all_goals exact Eq.trans g h

namespace Only

variable {F G : List Part} {s t u : State}

theorem refl : Only F s s := fun p _ => Part.Kept.refl p s

theorem mono (h : Only F s t) (hFG : F ⊆ G) : Only G s t := fun p hp => h p fun hF => hp (hFG hF)

theorem trans (h : Only F s t) (g : Only F t u) : Only F s u := fun p hp => (h p hp).trans (g p hp)

/-- One step after another, each with the parts it can touch. -/
theorem andThen (h : Only F s t) (g : Only G t u) : Only (F ++ G) s u :=
  (h.mono (List.subset_append_left F G)).trans (g.mono (List.subset_append_right F G))

/-- A step that is taken in one case only. -/
theorem ite {c : Prop} [Decidable c] (h : Only F s t) : Only F s (if c then t else s) := by
  split
  · exact h
  · exact refl

theorem ites {c : Prop} [Decidable c] (h : Only F s t) (g : Only F s u) : Only F s (if c then t else u) := by
  split
  · exact h
  · exact g

/-- The same step over every item. -/
theorem each {α : Type} {l : List α} {f : α → State → State} (step : ∀ x s, Only F s (f x s)) : Only F s (s.each l f) :=
  State.each_keeps (fun t => Only F s t) l f (fun x _ h => h.trans (step x _)) s refl

end Only

/-- Closes `Only F s t` for a state `t` that is `s` with the parts of `F` written over: each other part is the same by computation. -/
theorem Only.of_kept {F : List Part} {s t : State} (h : ∀ p, p ∈ F ∨ p.Kept s t) : Only F s t := fun p hp => (h p).resolve_left hp

/-! The parts that the updates of the state touch. -/

section
variable (s : State)

theorem onAon_only (f : Aon → Aon) : Only [.aon, .always] s (s.onAon f) :=
  .of_kept fun p => by cases p <;> simp [Part.Kept, State.blk, State.tenant, State.onAon]

theorem onRegs_only (f : Regs → Regs) : Only [.regs] s (s.onRegs f) :=
  .of_kept fun p => by cases p <;> simp [Part.Kept, State.blk, State.tenant, State.onRegs]

theorem onPower_only (f : Power → Power) : Only [.power, .powerBase, .landCause] s (s.onPower f) :=
  .of_kept fun p => by cases p <;> simp [Part.Kept, State.blk, State.tenant, State.onPower]

theorem onBank_only (f : Bank → Bank) : Only [.bank] s (s.onBank f) :=
  .of_kept fun p => by cases p <;> simp [Part.Kept, State.blk, State.tenant, State.onBank]

theorem onBroker_only (f : Broker → Broker) : Only [.broker] s (s.onBroker f) :=
  .of_kept fun p => by cases p <;> simp [Part.Kept, State.blk, State.tenant, State.onBroker]

theorem onWork_only (f : Work → Work) : Only [.work, .ctxs, .nextCtx, .ops, .decodes, .ciphers, .parities, .rebuilds, .rows, .erasures, .selectAll] s (s.onWork f) :=
  .of_kept fun p => by cases p <;> simp [Part.Kept, State.blk, State.tenant, State.onWork]

theorem onTmk_only (f : Timekeeper → Timekeeper) : Only [.tmk, .tmkBase] s (s.onTmk f) :=
  .of_kept fun p => by cases p <;> simp [Part.Kept, State.blk, State.tenant, State.onTmk]

theorem onCph_only (f : Cipher → Cipher) : Only [.cph] s (s.onCph f) :=
  .of_kept fun p => by cases p <;> simp [Part.Kept, State.blk, State.tenant, State.onCph]

theorem onFab_only (f : Fabric → Fabric) : Only [.fab, .windows] s (s.onFab f) :=
  .of_kept fun p => by cases p <;> simp [Part.Kept, State.blk, State.tenant, State.onFab]

theorem onMem_only (f : Memory → Memory) : Only [.mem, .memBase] s (s.onMem f) :=
  .of_kept fun p => by cases p <;> simp [Part.Kept, State.blk, State.tenant, State.onMem]

theorem onFlt_only (f : Faults → Faults) : Only [.flt, .fltBase] s (s.onFlt f) :=
  .of_kept fun p => by cases p <;> simp [Part.Kept, State.blk, State.tenant, State.onFlt]

theorem onBoot_only (f : BootStore → BootStore) : Only [.boot] s (s.onBoot f) :=
  .of_kept fun p => by cases p <;> simp [Part.Kept, State.blk, State.tenant, State.onBoot]

theorem onStore_only (f : Store → Store) : Only [.store, .figures] s (s.onStore f) :=
  .of_kept fun p => by cases p <;> simp [Part.Kept, State.blk, State.tenant, State.onStore]

theorem onStore_base_only (f : Store → Store) (hf : (f s.store).figures = s.store.figures) : Only [.store] s (s.onStore f) :=
  .of_kept fun p => by cases p <;> simp [Part.Kept, State.blk, State.tenant, State.onStore, hf]

theorem setLoop_only (n : Nat) (v : Loop) : Only [.loops] s (s.setLoop n v) :=
  .of_kept fun p => by cases p <;> simp [Part.Kept, State.blk, State.tenant]

theorem setLane_only (n : Nat) (v : Lane) : Only [.lanes] s (s.setLane n v) :=
  .of_kept fun p => by cases p <;> simp [Part.Kept, State.blk, State.tenant]

theorem setDie_only (n : Nat) (v : Die) : Only [.dies] s (s.setDie n v) :=
  .of_kept fun p => by cases p <;> simp [Part.Kept, State.blk, State.tenant]

theorem setCntOf_only (n : Nat) (v : DieCnt) : Only [.dieCnt] s (s.setCntOf n v) :=
  .of_kept fun p => by cases p <;> simp [Part.Kept, State.blk, State.tenant]

theorem setBlk_only (n : Nat) (v : Blk) : Only [.blks, .blkBase, .blkCore] s (s.setBlk n v) :=
  .of_kept fun p => by cases p <;> simp [Part.Kept, State.blk, State.tenant]

theorem setRgn_only (n : Nat) (v : Rgn) : Only [.rgns] s (s.setRgn n v) :=
  .of_kept fun p => by cases p <;> simp [Part.Kept, State.blk, State.tenant]

theorem setStripe_only (n : Nat) (v : StripeSet) : Only [.sets] s (s.setStripe n v) :=
  .of_kept fun p => by cases p <;> simp [Part.Kept, State.blk, State.tenant]

theorem setNs_only (n : Nat) (v : Ns) : Only [.nss] s (s.setNs n v) :=
  .of_kept fun p => by cases p <;> simp [Part.Kept, State.blk, State.tenant]

theorem setZone_only (n : Nat) (v : Zone) : Only [.zones] s (s.setZone n v) :=
  .of_kept fun p => by cases p <;> simp [Part.Kept, State.blk, State.tenant]

theorem setTenant_only (n : Nat) (v : Tenant) : Only [.tenants, .tenantBase] s (s.setTenant n v) :=
  .of_kept fun p => by cases p <;> simp [Part.Kept, State.blk, State.tenant]

theorem setCtrl_only (n : Nat) (v : Ctrl) : Only [.ctrls] s (s.setCtrl n v) :=
  .of_kept fun p => by cases p <;> simp [Part.Kept, State.blk, State.tenant]

theorem setSq_only (n : Nat) (v : Sq) : Only [.sqs] s (s.setSq n v) :=
  .of_kept fun p => by cases p <;> simp [Part.Kept, State.blk, State.tenant]

theorem setConn_only (n : Nat) (v : Conn) : Only [.fab] s (s.setConn n v) :=
  .of_kept fun p => by cases p <;> simp [Part.Kept, State.blk, State.tenant]

theorem setWindow_only (n : Nat) (v : Window) : Only [.fab, .windows] s (s.setWindow n v) :=
  .of_kept fun p => by cases p <;> simp [Part.Kept, State.blk, State.tenant]

theorem setBuf_only (n : Nat) (v : Buf) : Only [.mem] s (s.setBuf n v) :=
  .of_kept fun p => by cases p <;> simp [Part.Kept, State.blk, State.tenant, Memory.base]

theorem setCtx_only (n : Nat) (v : Option Ctx) : Only [.work, .ctxs] s (s.setCtx n v) :=
  .of_kept fun p => by cases p <;> simp [Part.Kept, State.blk, State.tenant]

theorem setOp_only (n : Nat) (v : Option Op) : Only [.work, .ops] s (s.setOp n v) :=
  .of_kept fun p => by cases p <;> simp [Part.Kept, State.blk, State.tenant]

theorem setDecode_only (n : Nat) (v : Option DecodeJob) : Only [.work, .decodes] s (s.setDecode n v) :=
  .of_kept fun p => by cases p <;> simp [Part.Kept, State.blk, State.tenant]

theorem setCipherJob_only (n : Nat) (v : Option CipherJob) : Only [.work, .ciphers] s (s.setCipherJob n v) :=
  .of_kept fun p => by cases p <;> simp [Part.Kept, State.blk, State.tenant]

theorem setParityJob_only (n : Nat) (v : Option ParityJob) : Only [.work, .parities] s (s.setParityJob n v) :=
  .of_kept fun p => by cases p <;> simp [Part.Kept, State.blk, State.tenant]

theorem setRebuild_only (n : Nat) (v : Option Rebuild) : Only [.work, .rebuilds] s (s.setRebuild n v) :=
  .of_kept fun p => by cases p <;> simp [Part.Kept, State.blk, State.tenant]

theorem mapDies_only (f : Nat → Die → Die) : Only [.dies] s (s.mapDies f) :=
  .of_kept fun p => by cases p <;> simp [Part.Kept, State.blk, State.tenant, State.mapDies]

theorem mapZones_only (f : Nat → Zone → Zone) : Only [.zones] s (s.mapZones f) :=
  .of_kept fun p => by cases p <;> simp [Part.Kept, State.blk, State.tenant, State.mapZones]

theorem mapCtrls_only (f : Nat → Ctrl → Ctrl) : Only [.ctrls] s (s.mapCtrls f) :=
  .of_kept fun p => by cases p <;> simp [Part.Kept, State.blk, State.tenant, State.mapCtrls]

theorem storeBlock_only (zk off : Nat) (b : Block) : Only [.media] s (s.storeBlock zk off b) :=
  .of_kept fun p => by cases p <;> simp [Part.Kept, State.blk, State.tenant, State.storeBlock]

theorem updParity_only (zk row : Nat) (f : RowParity → RowParity) : Only [.parity] s (s.updParity zk row f) :=
  .of_kept fun p => by cases p <;> simp [Part.Kept, State.blk, State.tenant]

theorem setCfgAt_only (o : Nat) (w : Word) : Only [.regs] s (s.setCfgAt o w) :=
  .of_kept fun p => by cases p <;> simp [Part.Kept, State.blk, State.tenant, State.setCfgAt, State.onRegs]

theorem postCompletion_only (h : Hdr) (st : Status) (a b : Nat) (d : List FieldVal) : Only [.out, .completions] s (s.postCompletion h st a b d) :=
  .of_kept fun p => by cases p <;> simp [Part.Kept, State.blk, State.tenant, State.postCompletion, State.onOut]

theorem sendDown_only (n : Nat) (m : Down) : Only [.out, .down] s (s.sendDown n m) :=
  .of_kept fun p => by cases p <;> simp [Part.Kept, State.blk, State.tenant, State.onOut]

/-- A record in the arrival queue stands in it still after an event (R535). -/
theorem State.mem_raise_of_mem (code src a b c d : Nat) {r : Nat × EvRec} (hr : r ∈ s.evr.queue) :
    r ∈ (s.raise code src a b c d).evr.queue := by
  unfold State.raise
  by_cases hroom : s.evr.queue.length < (if isFaultCode code then 256 else 224)
  · simp only [hroom, if_true]
    split
    · exact hr
    · exact mem_enqueueArrival_of_mem _ _ _ hr
  · simp only [hroom, if_false]
    (repeat' split) <;> exact hr

theorem State.raise_mode (code src a b c d : Nat) : (s.raise code src a b c d).evr.mode = s.evr.mode := by
  unfold State.raise
  simp only
  (repeat' split) <;> rfl

/-- An event touches the recorder alone, and no record leaves the arrival queue with it (R535). -/
theorem raise_only (code src a b c d : Nat) : Only [.evr, .aon] s (s.raise code src a b c d) := by
  refine .of_kept fun p => ?_
  cases p
  case always => exact .inr (by simp only [Part.Kept]; rw [State.raise_aon]; rfl)
  case recMode => exact .inr (State.raise_mode s code src a b c d)
  case records => exact .inr fun r hr => State.mem_raise_of_mem s code src a b c d hr
  all_goals simp [Part.Kept, State.blk, State.tenant]

theorem setTenant_base_only (n : Nat) (v : Tenant) (h : v.base = (s.tenant n).base) : Only [.tenants] s (s.setTenant n v) := by
  refine .of_kept fun p => ?_
  cases p
  case tenantBase => exact .inr fun m => by rw [State.tenant_setTenant]; split <;> simp_all
  all_goals simp [Part.Kept, State.blk]

theorem setBlk_base_only (n : Nat) (v : Blk) (h : v.base = (s.blk n).base) : Only [.blks] s (s.setBlk n v) := by
  refine .of_kept fun p => ?_
  cases p
  case blkBase => exact .inr fun m => by rw [State.blk_setBlk]; split <;> simp_all
  case blkCore => exact .inr fun m => by rw [State.blk_setBlk]; split <;> simp_all [Blk.core]
  all_goals simp [Part.Kept, State.tenant]

/-- A block whose handoff alone moves, or its calendars. -/
theorem setBlk_core_only (n : Nat) (v : Blk) (h : v.core = (s.blk n).core) : Only [.blks, .blkBase] s (s.setBlk n v) := by
  refine .of_kept fun p => ?_
  cases p
  case blkCore => exact .inr fun m => by rw [State.blk_setBlk]; split <;> simp_all
  all_goals simp [Part.Kept, State.tenant]

theorem onFlt_base_only (f : Faults → Faults) (h : (f s.flt).base = s.flt.base) : Only [.flt] s (s.onFlt f) :=
  .of_kept fun p => by cases p <;> simp [Part.Kept, State.blk, State.tenant, State.onFlt, h]

theorem onTmk_base_only (f : Timekeeper → Timekeeper) (h : (f s.tmk).base = s.tmk.base) : Only [.tmk] s (s.onTmk f) :=
  .of_kept fun p => by cases p <;> simp [Part.Kept, State.blk, State.tenant, State.onTmk, h]

theorem onPower_base_only (f : Power → Power) (h : (f s.power).base = s.power.base) : Only [.power, .landCause] s (s.onPower f) :=
  .of_kept fun p => by cases p <;> simp [Part.Kept, State.blk, State.tenant, State.onPower, h]

theorem onMem_base_only (f : Memory → Memory) (h : (f s.mem).base = s.mem.base) : Only [.mem] s (s.onMem f) :=
  .of_kept fun p => by cases p <;> simp [Part.Kept, State.blk, State.tenant, State.onMem, h]

/-- The work in hand without its numbering and the lists that no part names. -/
def Work.tables (w : Work) : Work :=
  { w with nextEntry := 0, nextJob := 0, draws := 0, nextRow := 0, parityRun := [], rearmHead := [] }

theorem onWork_tables_only (f : Work → Work) (h : (f s.work).tables = s.work.tables) : Only [.work] s (s.onWork f) := by
  simp only [Work.tables, Work.mk.injEq] at h
  exact .of_kept fun p => by cases p <;> simp [Part.Kept, State.blk, State.tenant, State.onWork, h]

theorem draw_only : Only [.work] s s.draw.2 := onWork_tables_only s _ rfl

end

end Sys2Proof.Machine
end

section
/-! The parts that the shared operations of commands can touch: completions, the end of a context, the calendars, the queues of dies,
and the read-arounds. -/

namespace Sys2Proof.Machine

/-- What the posting of a completion can touch: the dirty log and its event among it (R384). -/
def postParts : List Part := [.out, .completions, .evr, .aon, .tenants, .work, .fab]

/-- What the end of a command can touch: its completion, its context, its reads and buffers, the counts of its bound. -/
def endParts : List Part := postParts ++ [.ctxs, .dies, .broker, .mem, .tmk]

/-- What a read-around can touch: the jobs and the die queues, the calendars, and the command that it gives up. -/
def aroundParts : List Part := endParts ++ [.rebuilds, .blks]

section
variable (s : State)

theorem logPages_only (n t : Nat) (cq : Bool) : Only [.evr, .aon, .tenants, .work] s (State.logPages n s t cq) := by
  induction n generalizing s with
  | zero => exact .refl
  | succ n ih =>
    unfold State.logPages
    simp only
    split
    · exact .refl
    split
    · exact ((setTenant_base_only _ _ _ (by rfl)).andThen (raise_only _ _ _ _ _ _ _)).mono (by decide)
    · exact (((draw_only s).andThen (setTenant_base_only _ _ _ (by rfl))).mono (by decide)).trans (ih _)

theorem logWrites_only (c n : Nat) : Only [.evr, .aon, .tenants, .work] s (s.logWrites c n) := by
  unfold State.logWrites
  split
  · exact (logPages_only s _ _ _).trans (logPages_only _ _ _ _)
  · exact .refl

theorem pumpConn_only (c : Nat) : Only [.fab] s (s.pumpConn c) := by
  unfold State.pumpConn
  simp only
  split
  · exact .refl
  · exact setConn_only _ _ _

theorem respond_only (h : Hdr) (n : Nat) : Only [.fab] s (s.respond h n) := by
  unfold State.respond
  split
  · exact .refl
  · exact (setConn_only _ _ _).trans (pumpConn_only _ _)

theorem completeWith_only (h : Hdr) (st : Status) (a b : Nat) (d : List FieldVal) : Only postParts s (s.completeWith h st a b d) := by
  unfold State.completeWith
  simp only
  split
  · exact .refl
  split
  · exact (postCompletion_only _ _ _ _ _ _).mono (by decide)
  · exact (((postCompletion_only _ _ _ _ _ _).andThen (logWrites_only _ _ _)).andThen (respond_only _ _ _)).mono (by decide)

theorem complete_only (h : Hdr) (st : Status) : Only postParts s (s.complete h st) := completeWith_only s h st 0 0 []

theorem pruneSoft_only (c : Nat) : Only [.broker] s (s.pruneSoft c) := by
  unfold State.pruneSoft
  simp only
  split
  · exact .refl
  · exact onBroker_only _ _

theorem withdrawReads_only (c : Nat) : Only [.dies, .broker] s (s.withdrawReads c) :=
  (mapDies_only _ _).andThen (pruneSoft_only _ _)

theorem freeBufsOf_only (c : Nat) : Only [.mem] s (s.freeBufsOf c) := onMem_base_only _ _ (by rfl)

/-- The counts that a missed bound moves (R237). -/
theorem breachCount_only (n : Nat) (f g : Tenant → Tenant) (k : Timekeeper → Timekeeper) (hf : ∀ y, (f y).base = y.base)
    (hg : ∀ y, (g y).base = y.base) (hk : ∀ y, (k y).base = y.base) :
    Only [.tenants, .tmk] s (((s.updTenant n f).onTmk k).updTenant n g) :=
  (((setTenant_base_only _ _ _ (hf _)).andThen (onTmk_base_only _ _ (hk _))).andThen (setTenant_base_only _ _ _ (hg _))).mono (by decide)

theorem breach_only (x : Ctx) (late : Nat) : Only [.tenants, .tmk, .evr, .aon] s (s.breach x late) := by
  have hevent (t : State) (k : Timekeeper → Timekeeper) (hk : ∀ y, (k y).base = y.base) (code src a b c d : Nat) :
      Only [.tenants, .tmk, .evr, .aon] t ((t.onTmk k).raise code src a b c d) :=
    ((onTmk_base_only _ _ (hk _)).andThen (raise_only _ _ _ _ _ _ _)).mono (by decide)
  have hcount (f g : Tenant → Tenant) (k : Timekeeper → Timekeeper) (hf : ∀ y, (f y).base = y.base)
      (hg : ∀ y, (g y).base = y.base) (hk : ∀ y, (k y).base = y.base) :=
    (breachCount_only s x.tenant f g k hf hg hk).mono (G := [.tenants, .tmk, .evr, .aon]) (by decide)
  unfold State.breach
  simp only
  split
  · split
    · exact hcount _ _ _ (fun _ => rfl) (fun _ => rfl) (fun _ => rfl)
    · exact (hcount _ _ _ (by exact fun _ => rfl) (by exact fun _ => rfl) (by exact fun _ => rfl)).trans
        (hevent _ _ (by exact fun _ => rfl) _ _ _ _ _ _)
  · exact (hcount _ _ _ (by exact fun _ => rfl) (by exact fun _ => rfl) (by exact fun _ => rfl)).trans
      (.ite (hevent _ _ (by exact fun _ => rfl) _ _ _ _ _ _))

theorem measure_only (x : Ctx) : Only [.tenants, .tmk, .evr, .aon] s (s.measure x) := by
  unfold State.measure
  split
  · exact .refl
  split
  · exact breach_only _ _ _
  · exact .refl

theorem squash_only (c : Nat) : Only [.work, .ctxs, .dies, .broker, .mem] s (s.squash c) := by
  unfold State.squash
  split
  · exact .refl
  · exact (((setCtx_only _ _ _).andThen (withdrawReads_only _ _)).andThen (freeBufsOf_only _ _)).mono (by decide)

theorem finishWith_only (c : Nat) (st : Status) (a b : Nat) (d : List FieldVal) : Only endParts s (s.finishWith c st a b d) := by
  unfold State.finishWith
  split
  · exact .refl
  · simp only
    have hgone : Only endParts s (((s.setCtx c none).withdrawReads c).freeBufsOf c) :=
      (((setCtx_only _ _ _).andThen (withdrawReads_only _ _)).andThen (freeBufsOf_only _ _)).mono (by decide)
    split
    · exact hgone
    · exact hgone.trans (((measure_only _ _).andThen (completeWith_only _ _ _ _ _ _)).mono (by decide))

theorem finish_only (c : Nat) (st : Status) : Only endParts s (s.finish c st) := finishWith_only s c st 0 0 []

theorem accrueRa_only (t : Nat) : Only [.tenants] s (s.accrueRa t) := setTenant_base_only _ _ _ (by rfl)

theorem accrueDash_only (t : Nat) : Only [.tenants] s (s.accrueDash t) := by
  unfold State.accrueDash
  simp only
  split
  · exact setTenant_base_only _ _ _ (by rfl)
  split
  · exact .refl
  · exact setTenant_base_only _ _ _ (by rfl)

theorem accrue_only (x : Ctx) : Only [.tenants] s (s.accrue x) := by
  unfold State.accrue
  split
  · exact (accrueRa_only _ _).trans (accrueDash_only _ _)
  · exact accrueRa_only _ _

theorem takeTokens_only (x : Ctx) : Only [.tenants] s (s.takeTokens x) := setTenant_base_only _ _ _ (by rfl)

theorem bookSteward_only (g i : Nat) : Only [.rgns] s (s.bookSteward g i) := by
  unfold State.bookSteward
  split <;> exact setRgn_only _ _ _

theorem bookCipher_only (b n : Nat) : Only [.blks] s (s.bookCipher b n) := by
  unfold State.bookCipher
  split
  · exact .refl
  · exact setBlk_base_only _ _ _ (by rfl)

theorem bookDecodePs_only (b n : Nat) : Only [.blks] s (s.bookDecodePs b n) := setBlk_base_only _ _ _ (by rfl)

theorem bookDecode_only (b n : Nat) : Only [.blks] s (s.bookDecode b n) := bookDecodePs_only _ _ _

theorem bookParityPs_only (n : Nat) : Only [.tmk] s (s.bookParityPs n) := onTmk_base_only _ _ (by rfl)

theorem bookParity_only (n : Nat) : Only [.tmk] s (s.bookParity n) := bookParityPs_only _ _

theorem updBuf_only (n : Nat) (f : Buf → Buf) : Only [.mem] s (s.updBuf n f) := setBuf_only _ _ _

theorem takeBufs_only (n pool owner tag : Nat) : Only [.mem] s (State.takeBufs n s pool owner tag) := by
  induction n generalizing s with
  | zero => exact .refl
  | succ n ih => exact (updBuf_only s _ _).trans (ih _)

theorem noteThrottle_only (pool before : Nat) : Only [.mem, .work, .evr, .aon] s (s.noteThrottle pool before) := by
  have hcount (f : Memory → Memory) (hf : (f s.mem).base = s.mem.base) : Only [.mem, .work, .evr, .aon] s (s.onMem f) :=
    (onMem_base_only s f hf).mono (by decide)
  unfold State.noteThrottle
  split
  · exact .refl
  · simp only
    split
    · exact hcount _ rfl
    · exact (hcount _ rfl).trans
        (((draw_only _).andThen ((onMem_base_only _ _ (by rfl)).andThen (raise_only _ _ _ _ _ _ _))).mono (by decide))

theorem openCtx_only (x : Ctx) : Only [.mem, .work, .evr, .aon, .ctxs, .nextCtx] s (s.openCtx x).2 := by
  have hput (f : Work → Work) (hf : ∀ w, ({ f w with nextCtx := 0 } : Work) = { w with nextCtx := 0 }) (n : Nat) (v : Option Ctx) :
      Only [.work, .ctxs, .nextCtx] s ((s.onWork f).setCtx n v) := by
    refine Only.trans (t := s.onWork f) (.of_kept fun p => ?_) ((setCtx_only _ _ _).mono (by decide))
    have h := hf s.work
    simp only [Work.mk.injEq] at h
    cases p <;> simp [Part.Kept, State.blk, State.tenant, State.onWork, h]
  unfold State.openCtx
  simp only
  split
  · exact (hput (fun w => { w with nextCtx := s.work.nextCtx + 1 }) (fun _ => rfl) _ _).mono (by decide)
  · exact (((hput (fun w => { w with nextCtx := s.work.nextCtx + 1 }) (fun _ => rfl) _ _).andThen (takeBufs_only _ _ _ _ _)).andThen
      (noteThrottle_only _ _ _)).mono (by decide)

theorem placeCtx_only (held : Option Nat) (x : Ctx) : Only [.mem, .work, .evr, .aon, .ctxs, .nextCtx] s (s.placeCtx held x).2 := by
  unfold State.placeCtx
  split
  · exact (setCtx_only _ _ _).mono (by decide)
  · exact openCtx_only _ _

theorem updCtx_only (n : Nat) (f : Ctx → Ctx) : Only [.work, .ctxs] s (s.updCtx n f) := by
  unfold State.updCtx
  split
  · exact .refl
  · exact setCtx_only _ _ _

theorem tellBusy_only (k c : Nat) (cls : Cls) : Only [.work, .ctxs] s (s.tellBusy k c cls) := updCtx_only _ _ _

theorem scheduleCipher_only (b : Nat) : Only [.blks] s (s.scheduleCipher b) := by
  unfold State.scheduleCipher
  simp only
  (repeat' split) <;> first | exact .refl | exact setBlk_base_only _ _ _ (by rfl)

theorem addCipherJob_only (b c : Nat) (cls : Cls) (enc : Bool) (us : List (Nat × Nat × Nat)) :
    Only [.work, .ciphers, .blks] s (s.addCipherJob b c cls enc us) := by
  unfold State.addCipherJob
  split
  · exact .refl
  · exact (((onWork_tables_only _ _ (by rfl)).andThen (setCipherJob_only _ _ _)).andThen (scheduleCipher_only _ _)).mono (by decide)

theorem addUnits_only (c : Nat) (cls : Cls) (enc : Bool) (us : List (Nat × Nat × Nat)) :
    Only [.work, .ciphers, .blks] s (s.addUnits c cls enc us) :=
  .each fun _ _ => addCipherJob_only _ _ _ _ _ _

theorem serveStaged_only (c : Nat) (is : List Nat) : Only [.work, .ctxs, .ciphers, .blks] s (s.serveStaged c is) := by
  unfold State.serveStaged
  split
  · exact .refl
  split
  · exact .refl
  · exact ((setCtx_only _ _ _).andThen (addUnits_only _ _ _ _ _)).mono (by decide)

theorem cipherWrite_only (c : Nat) : Only [.work, .ctxs, .ciphers, .blks] s (s.cipherWrite c) := by
  unfold State.cipherWrite
  split
  · exact .refl
  · exact ((setCtx_only _ _ _).andThen (addUnits_only _ _ _ _ _)).mono (by decide)

theorem enqueueRead_only (k : Nat) (e : QEntry) : Only [.work, .dies] s (s.enqueueRead k e) :=
  (((onWork_tables_only _ _ (by rfl)).andThen (setDie_only _ _ _)).andThen (setDie_only _ _ _)).mono (by decide)

theorem chargeReactive_only (t : Nat) : Only [.tenants, .evr, .aon] s (s.chargeReactive t) := by
  have haccrue := (accrueRa_only s t).mono (G := [.tenants, .evr, .aon]) (by decide)
  have htake (u : State) (v : Tenant) (hv : v.base = (u.tenant t).base) : Only [.tenants, .evr, .aon] u (u.setTenant t v) :=
    (setTenant_base_only u t v hv).mono (by decide)
  unfold State.chargeReactive
  simp only
  split
  · exact haccrue.trans (htake _ _ rfl)
  · exact haccrue.trans (.ites ((htake _ _ (by rfl)).trans ((raise_only _ _ _ _ _ _ _).mono (by decide))) (htake _ _ (by rfl)))

theorem chargeRebuild_only (t : Nat) (v : Service) : Only [.tenants, .evr, .aon, .tmk] s (s.chargeRebuild t v) := by
  unfold State.chargeRebuild
  split
  · exact (onTmk_base_only _ _ (by rfl)).mono (by decide)
  · exact (chargeReactive_only _ _).mono (by decide)
  all_goals exact .refl

theorem rebuildImpossible_only (z : Zone) (zk : Nat) (ps : List Nat) : Only [.evr, .aon] s (s.rebuildImpossible z zk ps) :=
  raise_only _ _ _ _ _ _ _

theorem enqueueSource_only (n : Nat) (r : Rebuild) (pos : Nat) : Only [.blks, .work, .dies] s (s.enqueueSource n r pos) := by
  unfold State.enqueueSource
  simp only
  split
  · exact .refl
  · exact ((bookDecode_only _ _ _).andThen (enqueueRead_only _ _ _)).mono (by decide)

theorem giveUpFrame_only (c zk off : Nat) : Only endParts s (s.giveUpFrame c zk off) := by
  unfold State.giveUpFrame
  split
  · exact .refl
  · exact finish_only _ _ _

theorem sourceFailed_only (n pos : Nat) : Only aroundParts s (s.sourceFailed n pos) := by
  unfold State.sourceFailed
  split
  · exact .refl
  · simp only
    split
    · exact (((setRebuild_only _ _ _).andThen (rebuildImpossible_only _ _ _ _)).andThen (giveUpFrame_only _ _ _ _)).mono (by decide)
    · exact ((setRebuild_only _ _ _).andThen (enqueueSource_only _ _ _ _)).mono (by decide)

theorem offerSource_only (n pos : Nat) : Only aroundParts s (s.offerSource n pos) := by
  unfold State.offerSource
  split
  · exact .refl
  split
  · exact sourceFailed_only _ _ _
  · exact (enqueueSource_only _ _ _ _).mono (by decide)

theorem startRebuild_only (c : Nat) (cls : Cls) (t zk off pos : Nat) (v : Service) :
    Only aroundParts s (s.startRebuild c cls t zk off pos v) := by
  unfold State.startRebuild
  simp only
  split
  · exact (rebuildImpossible_only _ _ _ _).mono (by decide)
  · exact ((((chargeRebuild_only _ _ _).andThen (onWork_tables_only _ _ (by rfl))).andThen (setRebuild_only _ _ _)).mono (by decide)).trans
      (.each fun _ _ => offerSource_only _ _ _)

theorem startRebuild_giveUp_only (c : Nat) (cls : Cls) (t zk off pos : Nat) (v : Service) (c' zk' off' : Nat) :
    Only aroundParts s ((s.startRebuild c cls t zk off pos v).giveUpFrame c' zk' off') :=
  (startRebuild_only _ _ _ _ _ _ _ _).trans ((giveUpFrame_only _ _ _ _).mono (by decide))

theorem aroundEntry_only (e : QEntry) (v : Service) : Only aroundParts s (s.aroundEntry e v) := by
  unfold State.aroundEntry
  split
  · exact sourceFailed_only _ _ _
  · exact .refl
  · refine .each fun o t => ?_
    split
    · exact .refl
    · exact startRebuild_giveUp_only _ _ _ _ _ _ _ _ _ _ _

theorem sendRead_only (k : Nat) (e : QEntry) : Only aroundParts s (s.sendRead k e) := by
  unfold State.sendRead
  simp only
  split
  · exact (((tellBusy_only _ _ _ _).andThen (Only.ite (enqueueRead_only _ _ _))).mono (by decide)).trans (aroundEntry_only _ _ _)
  · exact (enqueueRead_only _ _ _).mono (by decide)

theorem dispatchRead_only (t : Nat) (p : ReadPlan) : Only aroundParts s (s.dispatchRead t p) := by
  have htokens : Only aroundParts s (if p.tokens = 0 then s else
      (s.accrueRa t).updTenant t fun x => { x with raLevel := x.raLevel - p.tokens }) := by
    split
    · exact .refl
    · exact ((accrueRa_only _ _).andThen (setTenant_base_only _ _ _ (by rfl))).mono (by decide)
  have hdirect (e : QEntry) (u : State) : Only aroundParts u (match u.memberAt (u.zone e.zk) e.pos with
      | none => u
      | some k => ((u.bookDecode (blockOfLane (k / 8)) e.frames).bookCipher (blockOfLane (k / 8)) e.frames).sendRead k e) := by
    split
    · exact .refl
    · exact (((bookDecode_only _ _ _).andThen (bookCipher_only _ _ _)).mono (by decide)).trans (sendRead_only _ _ _)
  unfold State.dispatchRead
  refine htokens.trans ((Only.each hdirect).trans (.each fun w u => ?_))
  simp only
  refine Only.trans ?_ (.each fun o u => startRebuild_giveUp_only _ _ _ _ _ _ _ _ _ _ _)
  have hbook (b : Nat) : Only aroundParts u ((u.bookParity w.1.frames).bookCipher b w.1.frames) :=
    ((bookParity_only _ _).andThen (bookCipher_only _ _ _)).mono (by decide)
  split
  · split
    · exact (hbook _).trans (((bookDecode_only _ _ _).andThen (enqueueRead_only _ _ _)).mono (by decide))
    · exact hbook _
  · exact hbook _

/-- What the service of a read can touch. -/
def readParts : List Part := aroundParts ++ [.ciphers]

theorem beginRead_only (c : Nat) (is : List Nat) (p : ReadPlan) : Only readParts s (s.beginRead c is p) := by
  unfold State.beginRead
  split
  · exact .refl
  · exact (((setCtx_only _ _ _).andThen (serveStaged_only _ _ _)).andThen (dispatchRead_only _ _ _)).mono (by decide)

theorem readMore_only (c : Nat) (is : List Nat) : Only readParts s (s.readMore c is) := by
  unfold State.readMore
  split
  · exact .refl
  · exact beginRead_only _ _ _ _

theorem giveEngine_only (c : Nat) : Only [.work, .ctxs] s (s.giveEngine c) := by
  unfold State.giveEngine
  (repeat' split) <;> first | exact .refl | exact setCtx_only _ _ _

theorem assignEngines_only : Only [.work, .ctxs] s s.assignEngines := .each fun _ _ => giveEngine_only _ _

theorem packedReady_only (c : Nat) : Only [.work, .ctxs] s (s.packedReady c) := (updCtx_only _ _ _).trans (assignEngines_only _)

theorem packedHeader_only (c : Nat) (x : Ctx) : Only readParts s (s.packedHeader c x) := by
  unfold State.packedHeader
  split
  · exact (finish_only _ _ _).mono (by decide)
  · exact ((finish_only _ _ _).andThen (raise_only _ _ _ _ _ _ _)).mono (by decide)
  · split
    · exact (finish_only _ _ _).mono (by decide)
    · simp only
      split
      · exact ((setCtx_only _ _ _).andThen (packedReady_only _ _)).mono (by decide)
      · exact ((setCtx_only _ _ _).mono (by decide)).trans (readMore_only _ _ _)

theorem readEnd_only (c : Nat) : Only readParts s (s.readEnd c) := by
  unfold State.readEnd
  split
  · exact .refl
  · simp only
    split
    · exact (finish_only _ _ _).mono (by decide)
    · exact ((setCtx_only _ _ _).andThen (cipherWrite_only _ _)).mono (by decide)
    · split
      · exact packedHeader_only _ _ _
      · exact (packedReady_only _ _).mono (by decide)
    · exact (finishWith_only _ _ _ _ _ _).mono (by decide)

theorem serveRead_only (c : Nat) (p : ReadPlan) : Only readParts s (s.serveRead c p) := by
  unfold State.serveRead
  split
  · exact .refl
  · simp only
    split
    · exact ((setCtx_only _ _ _).mono (by decide)).trans (readEnd_only _ _)
    · exact ((setCtx_only _ _ _).mono (by decide)).trans (beginRead_only _ _ _ _)

end

end Sys2Proof.Machine
end

section
/-! What is posted: the completion of a command, of a context that ends, of a decline. -/

namespace Sys2Proof.Machine

/-- The completion of a command with a status, two dwords and data, as the block posts it in state `s` (R306). -/
def State.completionOf (s : State) (h : Hdr) (st : Status) (a b : Nat) (d : List FieldVal) : Completion :=
  { ctrl := h.ctrl, sqid := h.sqid, cid := h.cid, mc := h.mc, sct := st.sct, sc := st.sc, dnr := st.dnr,
    crd := st.crd (s.ctrl h.ctrl).acre, dw0 := a, dw1 := b, data := d }

/-- Whether a completion is discarded depends on the controller and on the connection only. -/
theorem muted_congr {s t : State} (h : Hdr) (hc : t.ctrls = s.ctrls) (hq : t.sqs = s.sqs) (hf : t.fab = s.fab) : t.muted h = s.muted h := by
  simp [State.muted, State.ctrl, State.sq, State.conn, hc, hq, hf]

theorem completeWith_completions {s : State} {h : Hdr} (hm : s.muted h = false) (st : Status) (a b : Nat) (d : List FieldVal) :
    (s.completeWith h st a b d).out.completions = s.out.completions ++ [s.completionOf h st a b d] := by
  rw [State.completeWith_out, hm]
  rfl

/-- One completion of the command was posted behind those before it. -/
theorem Posted.of_completions {s t : State} {h : Hdr} {st : Status} {a b : Nat} {d : List FieldVal} {u : State}
    (ht : t.out.completions = s.out.completions ++ [u.completionOf h st a b d]) : Posted s t h st a b :=
  ⟨_, ht, rfl, rfl, rfl, rfl, rfl, rfl, rfl⟩

theorem completeWith_posted {s u : State} {h : Hdr} (hm : u.muted h = false) (ho : u.out.completions = s.out.completions)
    (st : Status) (a b : Nat) (d : List FieldVal) : Posted s (u.completeWith h st a b d) h st a b :=
  .of_completions (u := u) (by rw [completeWith_completions hm, ho])

theorem complete_posted {s u : State} {h : Hdr} (hm : u.muted h = false) (ho : u.out.completions = s.out.completions) (st : Status) :
    Posted s (u.complete h st) h st 0 0 := completeWith_posted hm ho st 0 0 []

/-- The state in which the completion of an ended context is posted: the context is gone, with its reads and buffers, and its bound
is counted. -/
def State.ended (s : State) (c : Nat) (x : Ctx) : State := (((s.setCtx c none).withdrawReads c).freeBufsOf c).measure x

theorem ended_only (s : State) (c : Nat) (x : Ctx) :
    Only [.work, .ctxs, .dies, .broker, .mem, .tenants, .tmk, .evr, .aon] s (s.ended c x) :=
  ((((setCtx_only _ _ _).andThen (withdrawReads_only _ _)).andThen (freeBufsOf_only _ _)).andThen (measure_only _ _)).mono (by decide)

theorem ended_muted (s : State) (c : Nat) (x : Ctx) (h : Hdr) : (s.ended c x).muted h = s.muted h :=
  have hkeep := ended_only s c x
  muted_congr h (hkeep .ctrls (by decide)) (hkeep .sqs (by decide)) (hkeep .fab (by decide))

theorem finishWith_eq {s : State} {c : Nat} {x : Ctx} (hx : s.ctxAt c = some x) (hd : x.discard = false) (st : Status) (a b : Nat)
    (d : List FieldVal) : s.finishWith c st a b d = (s.ended c x).completeWith x.hdr st a b d := by
  unfold State.finishWith
  simp [hx, hd, State.ended]

theorem finishWith_completions {s : State} {c : Nat} {x : Ctx} (hx : s.ctxAt c = some x) (hd : x.discard = false)
    (hm : s.muted x.hdr = false) (st : Status) (a b : Nat) (d : List FieldVal) :
    (s.finishWith c st a b d).out.completions = s.out.completions ++ [s.completionOf x.hdr st a b d] := by
  have hkeep := ended_only s c x
  have hctrls : (s.ended c x).ctrls = s.ctrls := hkeep .ctrls (by decide)
  have hout : (s.ended c x).out.completions = s.out.completions := hkeep .completions (by decide)
  rw [finishWith_eq hx hd, completeWith_completions (by rw [ended_muted, hm]), hout]
  simp [State.completionOf, State.ctrl, hctrls]

theorem finishWith_posted {s u : State} {c : Nat} {x : Ctx} (hx : u.ctxAt c = some x) (hd : x.discard = false)
    (hm : u.muted x.hdr = false) (ho : u.out.completions = s.out.completions) (st : Status) (a b : Nat) (d : List FieldVal) :
    Posted s (u.finishWith c st a b d) x.hdr st a b :=
  .of_completions (u := u) (by rw [finishWith_completions hx hd hm, ho])

theorem finish_posted {s u : State} {c : Nat} {x : Ctx} (hx : u.ctxAt c = some x) (hd : x.discard = false)
    (hm : u.muted x.hdr = false) (ho : u.out.completions = s.out.completions) (st : Status) :
    Posted s (u.finish c st) x.hdr st 0 0 := finishWith_posted hx hd hm ho st 0 0 []

/-- The completion of a command leaves the contexts alone. -/
theorem completeWith_ctxs (s : State) (h : Hdr) (st : Status) (a b : Nat) (d : List FieldVal) :
    (s.completeWith h st a b d).work.ctxs = s.work.ctxs := completeWith_only s h st a b d .ctxs (by decide)

/-- A context that has ended is gone, and no other one is. -/
theorem finishWith_ctxAt (s : State) (c n : Nat) (st : Status) (a b : Nat) (d : List FieldVal) :
    (s.finishWith c st a b d).ctxAt n = if n = c then none else s.ctxAt n := by
  have hgone (u : State) (hu : u.work.ctxs = (s.setCtx c none).work.ctxs) : u.ctxAt n = if n = c then none else s.ctxAt n := by
    rw [← State.ctxAt_setCtx]; simp only [State.ctxAt, hu]
  unfold State.finishWith
  split
  case h_1 hnone => split <;> simp_all
  case h_2 x hx =>
    have hend : (((s.setCtx c none).withdrawReads c).freeBufsOf c).work.ctxs = (s.setCtx c none).work.ctxs :=
      ((withdrawReads_only _ _).andThen (freeBufsOf_only _ _)) .ctxs (by decide)
    simp only
    split
    · exact hgone _ hend
    · refine hgone _ ((completeWith_ctxs _ _ _ _ _ _).trans (Eq.trans ?_ hend))
      exact measure_only _ _ .ctxs (by decide)

theorem finish_ctxAt (s : State) (c n : Nat) (st : Status) : (s.finish c st).ctxAt n = if n = c then none else s.ctxAt n :=
  finishWith_ctxAt s c n st 0 0 []

/-- What a decline can touch: its completion and the counts of declines (R219). -/
theorem decline_only (s : State) (h : Hdr) (t : Nat) (cls : Cls) (us : Nat) : Only (postParts ++ [.tmk]) s (s.decline h t cls us) := by
  unfold State.decline
  refine Only.trans ?_ ((completeWith_only _ _ _ _ _ _).mono (by decide))
  exact ((onTmk_base_only _ _ (by rfl)).andThen (setTenant_base_only _ _ _ (by rfl))).mono (by decide)

theorem decline_posted {s u : State} {h : Hdr} (hm : u.muted h = false) (ho : u.out.completions = s.out.completions)
    (t : Nat) (cls : Cls) (us : Nat) : Posted s (u.decline h t cls us) h .boundUnavailable (min longestWaitUs (max 1 us)) 0 := by
  unfold State.decline
  apply completeWith_posted
  · rw [← hm]
    exact muted_congr h rfl rfl rfl
  · exact ho

/-- A context opened has the next number, and no other context changes. -/
theorem openCtx_ctxAt (s : State) (x : Ctx) (n : Nat) : (s.openCtx x).2.ctxAt n = if n = s.work.nextCtx then some x else s.ctxAt n := by
  have hput : ((s.onWork fun w => { w with nextCtx := s.work.nextCtx + 1 }).setCtx s.work.nextCtx (some x)).ctxAt n =
      if n = s.work.nextCtx then some x else s.ctxAt n := State.ctxAt_setCtx _ _ _ _
  unfold State.openCtx
  simp only
  split
  · exact hput
  · refine Eq.trans ?_ hput
    simp only [State.ctxAt]
    congr 1
    exact ((takeBufs_only _ _ _ _ _).andThen (noteThrottle_only _ _ _)) .ctxs (by decide)

theorem openCtx_fst (s : State) (x : Ctx) : (s.openCtx x).1 = s.work.nextCtx := rfl

end Sys2Proof.Machine
end

section
/-! O32: how a read, a Compare and a Packed Read that reach admission are served (R48, R74, R77, R80, R188, R213, R253). -/

namespace Sys2Proof.Machine

theorem fetchOne_only (s : State) (h : Hdr) : Only [.sqs] s (s.fetchOne h) := by
  unfold State.fetchOne
  simp only
  split
  · exact .refl
  · exact setSq_only _ _ _

/-- The class of a queue does not change with a fetch. -/
theorem fetchOne_classOf (s : State) (h g : Hdr) (slow : Bool) : (s.fetchOne h).classOf g slow = s.classOf g slow := by
  have hcls (q : Nat) : ((s.fetchOne h).sq q).cls = (s.sq q).cls := by
    unfold State.fetchOne
    simp only
    split
    · rfl
    · simp only [State.sq_setSq]
      split
      · subst_vars; rfl
      · rfl
  simp only [State.classOf, hcls]

/-- The completion of a PCIe command is discarded only while its controller drains (R378). -/
theorem muted_of_noDrain {t : State} {h : Hdr} (hc : h.ctrl < 256) (hd : (t.ctrl h.ctrl).drain = none) : t.muted h = false := by
  simp [State.muted, hd, hc]

theorem State.TakesIo.unmuted {s t : State} {h : Hdr} (ht : s.TakesIo h) (hctrls : t.ctrls = s.ctrls) : t.muted h = false :=
  muted_of_noDrain ht.pcie (by rw [State.ctrl, hctrls]; exact ht.quiet)

/-- A command of an I/O submission queue that is taken runs its own rules on the state with the queue's head moved on (R305). -/
theorem State.TakesIo.run {s : State} {h : Hdr} (ht : s.TakesIo h) (run : State → State) : s.io h run = run (s.fetchOne h) :=
  State.io_run s h run ht.fetched ht.noStop ht.noHold

theorem exec_ioContexts {s : State} {h : Hdr} {slba nlb : Nat} {data : List Block} {p : Instr × Ctx} (ht : s.TakesIo h)
    (hp : p ∈ (s.fetchOne h).ioContexts h slba nlb data) : exec p.1 s = .next ((s.fetchOne h).submit p.2) := by
  simp only [State.ioContexts, List.mem_cons, List.not_mem_nil, or_false] at hp
  rcases hp with rfl | rfl | rfl | rfl | rfl | rfl <;> exact congrArg _ (ht.run _)

theorem exec_packedContexts {s : State} {h : Hdr} {a ng : Nat} {close : Bool} {p : Instr × Ctx} (ht : s.TakesIo h)
    (hp : p ∈ (s.fetchOne h).packedContexts h a ng close) : exec p.1 s = .next ((s.fetchOne h).submitPacked p.2) := by
  simp only [State.packedContexts, List.mem_cons, List.not_mem_nil, or_false] at hp
  rcases hp with rfl | rfl <;> exact congrArg _ (ht.run _)

section
variable {s u : State} {h : Hdr} {x : Ctx}

theorem State.AtAdmission.only (ha : s.AtAdmission h x u) : Only [.sqs, .tenants] s u := by
  rw [ha.tried]
  exact (fetchOne_only _ _).andThen (accrue_only _ _)

theorem State.AtAdmission.submit (ha : s.AtAdmission h x u) (hc : (s.fetchOne h).precheck x = none) :
    (s.fetchOne h).submit x = settleVerdict x (u.tryIo none x) := by
  have harmed (zk : Nat) : ((s.fetchOne h).zone zk).rearm = 0 := by simpa [State.zone] using ha.armed zk
  unfold State.submit
  simp [ha.pool, hc, ha.cool, harmed, ← ha.tried, ha.first, ha.tokens]

theorem State.AtAdmission.submitPacked (ha : s.AtAdmission h x u) (hc : (s.fetchOne h).packedCheck x.hdr x.slba (x.kind == .packedAppend) = none) :
    (s.fetchOne h).submitPacked x = settleVerdict x (u.tryPacked none x) := by
  have harmed (zk : Nat) : ((s.fetchOne h).zone zk).rearm = 0 := by simpa [State.zone] using ha.armed zk
  unfold State.submitPacked
  simp [ha.pool, hc, ha.cool, harmed, ← ha.tried, ha.first, ha.tokens]

end

/-- A read with the places of its LBAs (R213). -/
def State.located (s : State) (x : Ctx) : Ctx := { x with places := s.readPlaces x }

/-- The plan that a located read is tried with (R213-R217). -/
def State.planOf (s : State) (x : Ctx) : ReadPlan :=
  s.planRead x.tenant (readEntries s s.work.nextCtx x.cls (s.splitRead x (List.range x.places.length)).2.2)

/-- The state in which a read is admitted: its tokens taken, its steward booked, its context opened (R208, R212). -/
def State.admitted (s : State) (x y : Ctx) : State :=
  (((s.takeTokens x).bookSteward (s.homeOf x.hdr).1 (s.homeOf x.hdr).2).openCtx y).2

/-- The context of a read as it is opened: reading, with its deadline. -/
def State.openedRead (s : State) (x : Ctx) : Ctx := s.withDeadline { x with phase := .reading } false

/-- The context of an admitted read has the next number. -/
theorem admitted_fst (s : State) (x y : Ctx) (a b : Nat) : (((s.takeTokens x).bookSteward a b).openCtx y).1 = s.work.nextCtx :=
  ((takeTokens_only s x).andThen (bookSteward_only _ a b)) .nextCtx (by decide)

/-- A read that goes with no fence over its zones is served from the places it has (R213, step 5). -/
theorem tryRead_go {s : State} {x : Ctx} (hgo : (s.tryRead none x).1 = .go) (hfence : s.fencedZones (s.located x) = []) :
    (s.tryRead none x).2 = (s.admitted (s.located x) (s.openedRead (s.located x))).serveRead s.work.nextCtx (s.planOf (s.located x)) := by
  revert hgo
  unfold State.tryRead
  rw [← State.located]
  generalize s.located x = y at *
  simp only [hfence, if_true]
  (repeat' split) <;> intro hgo <;>
    simp_all only [State.admitted, State.openedRead, State.planOf, State.placeCtx, admitted_fst, Option.getD_none, reduceCtorEq]

theorem tryRead_go_fenced {s : State} {x : Ctx} {zk : Nat} {zks : List Nat} (hgo : (s.tryRead none x).1 = .go)
    (hfence : s.fencedZones (s.located x) = zk :: zks) :
    (s.tryRead none x).2 = (s.admitted (s.located x) (s.openedRead (s.located x))).updZone zk
      fun z => { z with fence := z.fence.map fun f => { f with heldReads := f.heldReads ++ [s.work.nextCtx] } } := by
  revert hgo
  unfold State.tryRead
  rw [← State.located]
  generalize s.located x = y at *
  simp only [hfence]
  (repeat' split) <;> intro hgo <;>
    simp_all only [State.admitted, State.openedRead, State.placeCtx, admitted_fst, reduceCtorEq]

/-- What the admission of a read can touch before the read is served. -/
def readOpenParts : List Part := [.sqs, .tenants, .rgns, .mem, .work, .evr, .aon, .ctxs, .nextCtx]

theorem admitted_only (s : State) (x y : Ctx) : Only readOpenParts s (s.admitted x y) :=
  (((takeTokens_only _ _).andThen (bookSteward_only _ _ _)).andThen (openCtx_only _ _)).mono (by decide)

theorem admitted_ctxAt (s : State) (x y : Ctx) (n : Nat) : (s.admitted x y).ctxAt n = if n = s.work.nextCtx then some y else s.ctxAt n := by
  have hbooked := (takeTokens_only s x).andThen (bookSteward_only _ (s.homeOf x.hdr).1 (s.homeOf x.hdr).2)
  have hnext : ((s.takeTokens x).bookSteward (s.homeOf x.hdr).1 (s.homeOf x.hdr).2).work.nextCtx = s.work.nextCtx :=
    hbooked .nextCtx (by decide)
  have hctxs : ((s.takeTokens x).bookSteward (s.homeOf x.hdr).1 (s.homeOf x.hdr).2).work.ctxs = s.work.ctxs := hbooked .ctxs (by decide)
  unfold State.admitted
  rw [openCtx_ctxAt, hnext]
  simp only [State.ctxAt, hctxs]

theorem readPlace_congr {s t : State} (hn : t.nss = s.nss) (hz : t.zones = s.zones) (nsid lba : Nat) :
    t.readPlace nsid lba = s.readPlace nsid lba := by
  have hns : t.ns nsid = s.ns nsid := by simp only [State.ns, hn]
  have hzone (k : Nat) : t.zone k = s.zone k := by simp only [State.zone, hz]
  unfold State.readPlace
  simp only
  rw [hns, hzone]

theorem unwritten_congr {s t : State} (hn : t.nss = s.nss) (hz : t.zones = s.zones) (nsid lba : Nat) :
    t.unwritten nsid lba = s.unwritten nsid lba := by
  have hns : t.ns nsid = s.ns nsid := by simp only [State.ns, hn]
  have hzone (k : Nat) : t.zone k = s.zone k := by simp only [State.zone, hz]
  unfold State.unwritten
  simp only
  rw [hns, hzone]

/-- An LBA of a zoned namespace at or above the write pointer, and any of a conventional one, reads as zeros (R74). -/
theorem unwritten_eq_zero {s : State} {nsid lba : Nat}
    (h : (s.ns nsid).zoned = true → (s.zone (zoneKey nsid (lba / zsze))).wp ≤ lba % zsze) : s.unwritten nsid lba = 0 := by
  unfold State.unwritten
  simp only
  split
  case isFalse => rfl
  case isTrue hbelow =>
    simp only [Bool.and_eq_true, decide_eq_true_eq] at hbelow
    obtain ⟨hzoned, -, hlt⟩ := hbelow
    have := h hzoned
    omega

theorem fencedZones_eq_nil {s : State} (hf : ∀ k, (s.zone k).fence = none) (x : Ctx) : s.fencedZones x = [] := by
  simp [State.fencedZones, hf]

theorem readPlaces_of_none {s : State} {x : Ctx} (hl : x.lbas = []) (hp : ∀ i, i < x.nlb → s.readPlace x.nsid (x.slba + i) = none) :
    s.readPlaces x = List.replicate x.nlb none := by
  unfold State.readPlaces
  rw [if_pos hl, List.eq_replicate_iff]
  exact ⟨by simp, by simpa using hp⟩

/-- A read-type context is tried as a read. -/
theorem tryIo_of_read {x : Ctx} (hk : x.kind = .read ∨ x.kind = .compare) (u : State) (held : Option Nat) : u.tryIo held x = u.tryRead held x := by
  unfold State.tryIo
  rcases hk with hk | hk <;> rw [hk]

/-- No LBA of the read has a place: its data are those of unwritten LBAs, and it ends (R74). -/
theorem serveRead_unplaced {s : State} {c n : Nat} {y : Ctx} (plan : ReadPlan) (hy : s.ctxAt c = some y) (hp : y.places = List.replicate n none) :
    s.serveRead c plan = (s.setCtx c (some { y with
      data := (List.range n).map fun i => (i, s.unwritten y.nsid (y.lbaOf i)), got := List.range n, finished := n })).readEnd c := by
  have hall : ((List.range y.places.length).filter fun i => (y.places.getD i none).isNone) = List.range n := by
    rw [hp, List.length_replicate, List.filter_eq_self]
    intro i hi
    simp [List.mem_range.1 hi]
  unfold State.serveRead
  rw [hy]
  simp only [State.withUnwritten, hall]
  simp [hp]

section
variable {s u : State} {h : Hdr} {x : Ctx}

theorem State.AtAdmission.zones_eq (ha : s.AtAdmission h x u) : u.zones = s.zones := ha.only .zones (by decide)
theorem State.AtAdmission.nss_eq (ha : s.AtAdmission h x u) : u.nss = s.nss := ha.only .nss (by decide)

theorem State.AtAdmission.zoned {n : Nat} (ha : s.AtAdmission h x u) (hz : (s.ns n).zoned = true) : (u.ns n).zoned = true := by
  rw [State.ns, ha.nss_eq]; exact hz

theorem State.AtAdmission.noFence (ha : s.AtAdmission h x u) (hf : ∀ k, (s.zone k).fence = none) (k : Nat) : (u.zone k).fence = none := by
  rw [State.zone, ha.zones_eq]; exact hf k

/-- A read-type command that goes with no fence in the way is admitted and served. -/
theorem submit_read (ha : s.AtAdmission h x u) (hpre : (s.fetchOne h).precheck x = none) (hk : x.kind = .read ∨ x.kind = .compare)
    (hgo : (u.tryIo none x).1 = .go) (hf : ∀ k, (s.zone k).fence = none) :
    (s.fetchOne h).submit x = (u.admitted (u.located x) (u.openedRead (u.located x))).serveRead s.work.nextCtx (u.planOf (u.located x)) := by
  have hnext : u.work.nextCtx = s.work.nextCtx := ha.only .nextCtx (by decide)
  rw [ha.submit hpre]
  unfold settleVerdict
  rw [hgo]
  rw [tryIo_of_read hk] at hgo ⊢
  rw [← hnext]
  exact tryRead_go hgo (fencedZones_eq_nil (ha.noFence hf) _)

/-- The state and the context with which a read-type command of unplaced LBAs ends. -/
theorem submit_unplaced (ha : s.AtAdmission h x u) (hpre : (s.fetchOne h).precheck x = none) (hk : x.kind = .read ∨ x.kind = .compare)
    (hgo : (u.tryIo none x).1 = .go) (hf : ∀ k, (s.zone k).fence = none) (hl : x.lbas = [])
    (hp : ∀ i, i < x.nlb → s.readPlace x.nsid (x.slba + i) = none) :
    ∃ v y, (s.fetchOne h).submit x = v.readEnd s.work.nextCtx ∧ Only readOpenParts s v ∧ v.ctxAt s.work.nextCtx = some y ∧
      y.hdr = x.hdr ∧ y.kind = x.kind ∧ y.discard = x.discard ∧ y.expect = x.expect ∧ y.places.length = x.nlb ∧
      y.data = (List.range x.nlb).map fun i => (i, s.unwritten x.nsid (x.slba + i)) := by
  have hnext : u.work.nextCtx = s.work.nextCtx := ha.only .nextCtx (by decide)
  have hplaces : u.readPlaces x = List.replicate x.nlb none :=
    readPlaces_of_none hl fun i hi => by rw [readPlace_congr ha.nss_eq ha.zones_eq]; exact hp i hi
  have hopen : Only readOpenParts s (u.admitted (u.located x) (u.openedRead (u.located x))) :=
    (ha.only.mono (by decide)).trans (admitted_only _ _ _)
  have hctx : (u.admitted (u.located x) (u.openedRead (u.located x))).ctxAt s.work.nextCtx = some (u.openedRead (u.located x)) := by
    rw [admitted_ctxAt, if_pos hnext.symm]
  rw [submit_read ha hpre hk hgo hf, serveRead_unplaced (n := x.nlb) _ hctx (by exact hplaces)]
  refine ⟨_, _, rfl, hopen.trans ((setCtx_only _ _ _).mono (by decide)), (State.ctxAt_setCtx _ _ _ _).trans (if_pos rfl), rfl, rfl, rfl, rfl, ?_, ?_⟩
  · simp [State.openedRead, State.withDeadline, State.located, hplaces]
  · refine List.map_congr_left fun i _ => ?_
    have hlba : (u.openedRead (u.located x)).lbaOf i = x.slba + i := by
      simp [Ctx.lbaOf, State.openedRead, State.withDeadline, State.located, hl]
    rw [hlba, unwritten_congr (hopen .nss (by decide)) (hopen .zones (by decide))]
    rfl

end

/-- The end of a read whose LBAs have all come (R48). -/
theorem readEnd_read {s : State} {c : Nat} {y : Ctx} (hy : s.ctxAt c = some y) (hk : y.kind = .read) :
    s.readEnd c = s.finishWith c .success 0 0 (blockFields (s.ns y.nsid).lbaf y.data) := by
  unfold State.readEnd
  rw [hy]
  simp [hk]

/-- The end of a Compare: its data are compared LBA by LBA, over the bytes of a stored block (R48). -/
theorem readEnd_compare {s : State} {c : Nat} {y : Ctx} (hy : s.ctxAt c = some y) (hk : y.kind = .compare) :
    ∃ n, 32768 ≤ n ∧ s.readEnd c = s.finish c (if (List.range y.places.length).all fun i =>
      (y.dataAt i).toNat % 2 ^ n == (y.expect.getD i 0).toNat % 2 ^ n then .success else .compareFailure) := by
  refine ⟨8 * (4096 + mdBytes (s.ns y.nsid).lbaf), by omega, ?_⟩
  unfold State.readEnd
  rw [hy]
  simp only [hk]

theorem readCmd_mem (s : State) (h : Hdr) (slba nlb : Nat) :
    ((.readCmd h slba nlb, s.newCtx h .read slba (nlb + 1)) : Instr × Ctx) ∈ s.ioContexts h slba nlb [] := by simp [State.ioContexts]

theorem compareCmd_mem (s : State) (h : Hdr) (slba nlb : Nat) (data : List Block) :
    ((.compareCmd h slba nlb data, { s.newCtx h .compare slba (nlb + 1) with expect := data }) : Instr × Ctx) ∈ s.ioContexts h slba nlb data := by
  simp [State.ioContexts]

theorem packedRead_mem (s : State) (h : Hdr) (pga ng : Nat) :
    ((.packedRead h pga ng, { s.newCtx h .packedRead (pga / 64) (ng % 64 + 1) with granules := ng % 64 + 1, first := pga % 64 }) : Instr × Ctx) ∈
      s.packedContexts h pga ng false := by simp [State.packedContexts]

/-- What a read of unplaced LBAs can touch. -/
def unplacedParts : List Part := readOpenParts ++ endParts

/-- Data of no LBA but zeros are zero at every index. -/
theorem Ctx.dataAt_eq_zero {y : Ctx} (hz : ∀ p ∈ y.data, p.2 = 0) (i : Nat) : y.dataAt i = 0 := by
  unfold Ctx.dataAt
  cases hfind : y.data.find? fun p => p.1 == i with
  | none => rfl
  | some p => exact hz p (List.mem_of_find?_eq_some hfind)

section
variable {s u : State} {h : Hdr}

theorem exec_read_unplaced {slba nlb : Nat} (ha : s.AtAdmission h ((s.fetchOne h).newCtx h .read slba (nlb + 1)) u)
    (hpre : (s.fetchOne h).precheck ((s.fetchOne h).newCtx h .read slba (nlb + 1)) = none)
    (hgo : (u.tryIo none ((s.fetchOne h).newCtx h .read slba (nlb + 1))).1 = .go) (hf : ∀ k, (s.zone k).fence = none)
    (hp : ∀ i, i ≤ nlb → s.readPlace h.nsid (slba + i) = none) :
    ∃ t v, ∃ l, exec (.readCmd h slba nlb) s = .next t ∧ Only unplacedParts s t ∧
      t.out.completions = s.out.completions ++ [State.completionOf v h .success 0 0
        (blockFields l ((List.range (nlb + 1)).map fun i => (i, s.unwritten h.nsid (slba + i))))] := by
  obtain ⟨v, y, hsub, hv, hy, hhdr, hkind, hdisc, -, -, hdata⟩ :=
    submit_unplaced ha hpre (.inl rfl) hgo hf rfl fun i hi => hp i (Nat.lt_succ_iff.1 hi)
  have hmuted : v.muted y.hdr = false := by rw [hhdr]; exact ha.takes.unmuted (hv .ctrls (by decide))
  have hout : v.out.completions = s.out.completions := hv .completions (by decide)
  refine ⟨_, v, (v.ns y.nsid).lbaf, exec_ioContexts ha.takes (readCmd_mem _ _ _ _), ?_, ?_⟩
  · rw [hsub, readEnd_read hy hkind]
    exact (hv.andThen (finishWith_only _ _ _ _ _ _)).mono (by decide)
  · rw [hsub, readEnd_read hy hkind, finishWith_completions hy hdisc hmuted, hout, hdata, hhdr]
    rfl

theorem exec_compare_unplaced {slba nlb : Nat} {data : List Block}
    (ha : s.AtAdmission h { (s.fetchOne h).newCtx h .compare slba (nlb + 1) with expect := data } u)
    (hpre : (s.fetchOne h).precheck { (s.fetchOne h).newCtx h .compare slba (nlb + 1) with expect := data } = none)
    (hgo : (u.tryIo none { (s.fetchOne h).newCtx h .compare slba (nlb + 1) with expect := data }).1 = .go)
    (hf : ∀ k, (s.zone k).fence = none) (hp : ∀ i, i ≤ nlb → s.readPlace h.nsid (slba + i) = none)
    (hzero : ∀ i, i ≤ nlb → s.unwritten h.nsid (slba + i) = 0) :
    ∃ t n, 32768 ≤ n ∧ exec (.compareCmd h slba nlb data) s = .next t ∧ Only unplacedParts s t ∧
      Posted s t h (if (List.range (nlb + 1)).all fun i => 0 == (data.getD i 0).toNat % 2 ^ n then .success else .compareFailure) 0 0 := by
  obtain ⟨v, y, hsub, hv, hy, hhdr, hkind, hdisc, hexp, hlen, hdata⟩ :=
    submit_unplaced ha hpre (.inr rfl) hgo hf rfl fun i hi => hp i (Nat.lt_succ_iff.1 hi)
  have hmuted : v.muted y.hdr = false := by rw [hhdr]; exact ha.takes.unmuted (hv .ctrls (by decide))
  have hat (i n : Nat) : (y.dataAt i).toNat % 2 ^ n = 0 := by
    rw [Ctx.dataAt_eq_zero (y := y) (fun p hp => ?_) i, show (0 : Block).toNat = 0 from BitVec.toNat_zero, Nat.zero_mod]
    rw [hdata, List.mem_map] at hp
    obtain ⟨j, hj, rfl⟩ := hp
    exact hzero j (Nat.lt_succ_iff.1 (List.mem_range.1 hj))
  obtain ⟨n, hn, hend⟩ := readEnd_compare hy hkind
  have hlen' : y.places.length = nlb + 1 := hlen
  have hexp' : y.expect = data := hexp
  have hhdr' : y.hdr = h := hhdr
  simp only [hlen', hexp', hat] at hend
  refine ⟨_, n, hn, exec_ioContexts ha.takes (compareCmd_mem _ _ _ _ _), ?_, ?_⟩
  · rw [hsub, hend]
    exact (hv.andThen (finish_only _ _ _)).mono (by decide)
  · rw [hsub, hend]
    exact hhdr' ▸ finish_posted hy hdisc hmuted (hv .completions (by decide)) _

end

/-- A read of one placed LBA begins: nothing of it has come (R48). -/
theorem serveRead_placed {s : State} {c : Nat} {y : Ctx} {p : Nat × Nat} (plan : ReadPlan) (hy : s.ctxAt c = some y) (hp : y.places = [some p]) :
    s.serveRead c plan = (s.setCtx c (some { y with data := [], got := [], finished := 0 })).beginRead c [0] plan := by
  unfold State.serveRead
  rw [hy]
  simp [State.withUnwritten, hp, List.range_succ]

/-- A plan without entries dispatches nothing. -/
theorem dispatchRead_nil (s : State) (t : Nat) : s.dispatchRead t {} = s := rfl

theorem beginRead_eq {s : State} {c : Nat} {y : Ctx} (hy : s.ctxAt c = some y) (is : List Nat) (plan : ReadPlan) :
    s.beginRead c is plan = ((s.setCtx c (some { y with waits := y.waits ++ (s.splitRead y is).2.1 })).serveStaged c
      (s.splitRead y is).1).dispatchRead y.tenant plan := by
  unfold State.beginRead
  rw [hy]

/-- Where the one LBA of a read is served from. -/
theorem splitRead_one {x : Ctx} {p : Nat × Nat} (s : State) (hp : x.places = [some p]) :
    s.splitRead x [0] = (if s.isStaged p.1 p.2 then [0] else [], if !s.isStaged p.1 p.2 && s.onItsWay p.1 p.2 then [0] else [],
      if !s.isStaged p.1 p.2 && !s.onItsWay p.1 p.2 then [p] else []) := by
  simp [State.splitRead, hp, List.filter_cons]

theorem serveStaged_nil (s : State) (c : Nat) : s.serveStaged c [] = s := by
  unfold State.serveStaged
  split
  · rfl
  · simp

/-- The units of a command given to the cipher engines leave its context alone. -/
theorem addUnits_ctxAt (s : State) (c n : Nat) (cls : Cls) (enc : Bool) (us : List (Nat × Nat × Nat)) : (s.addUnits c cls enc us).ctxAt n = s.ctxAt n := by
  have hctxs : (s.addUnits c cls enc us).work.ctxs = s.work.ctxs := addUnits_only s c cls enc us .ctxs (by decide)
  simp only [State.ctxAt, hctxs]

theorem serveStaged_ctxAt {s : State} {c : Nat} {y : Ctx} {i : Nat} {is : List Nat} (hy : s.ctxAt c = some y) :
    (s.serveStaged c (i :: is)).ctxAt c = some { y with got := y.got ++ i :: is, waits := y.waits.filter fun j => !(i :: is).contains j } := by
  unfold State.serveStaged
  rw [hy]
  simp only [reduceCtorEq, if_false]
  rw [addUnits_ctxAt, State.ctxAt_setCtx, if_pos rfl]

section
variable {s : State} {c : Nat} {y : Ctx} {p : Nat × Nat}

/-- A read of one LBA that is staged goes to the cipher engine, and to no die (R188). -/
theorem serveRead_staged (hy : s.ctxAt c = some y) (hp : y.places = [some p]) (hst : s.isStaged p.1 p.2 = true) :
    ∃ ws, (s.serveRead c {}).ctxAt c = some { y with data := [], got := [0], finished := 0, waits := ws } ∧
      Only [.work, .ctxs, .ciphers, .blks] s (s.serveRead c {}) := by
  have hset (z : Ctx) : (s.setCtx c (some z)).ctxAt c = some z := (State.ctxAt_setCtx _ _ _ _).trans (if_pos rfl)
  have hst' (z : Ctx) : (s.setCtx c (some z)).isStaged p.1 p.2 = true := hst
  rw [serveRead_placed _ hy hp, beginRead_eq (hset _), splitRead_one _ (by exact hp), dispatchRead_nil]
  simp only [hst', if_true]
  rw [serveStaged_ctxAt ((State.ctxAt_setCtx _ _ _ _).trans (if_pos rfl))]
  exact ⟨_, rfl, ((setCtx_only _ _ _).andThen ((setCtx_only _ _ _).andThen (serveStaged_only _ _ _))).mono (by decide)⟩

/-- An LBA on its way to staging is so with the read of it opened or not. -/
theorem onItsWay_setCtx {z : Ctx} {zk off : Nat} (hway : s.onItsWay zk off = true) (hz : some (zk, off) ∈ z.places) (hph : z.phase ≠ .done) :
    (s.setCtx c (some z)).onItsWay zk off = true := by
  unfold State.onItsWay at *
  rw [List.any_eq_true] at *
  obtain ⟨d, hd, hany⟩ := hway
  refine ⟨d, hd, ?_⟩
  rw [State.ctxAt_setCtx]
  split
  · simp [hz, hph]
  · exact hany

/-- A read of one LBA that is on its way to staging waits for it, and goes to no die (R188). -/
theorem serveRead_awaited (hy : s.ctxAt c = some y) (hp : y.places = [some p]) (hst : s.isStaged p.1 p.2 = false)
    (hway : s.onItsWay p.1 p.2 = true) (hph : y.phase ≠ .done) :
    (s.serveRead c {}).ctxAt c = some { y with data := [], got := [], finished := 0, waits := y.waits ++ [0] } ∧
      Only [.work, .ctxs] s (s.serveRead c {}) := by
  have hset (z : Ctx) : (s.setCtx c (some z)).ctxAt c = some z := (State.ctxAt_setCtx _ _ _ _).trans (if_pos rfl)
  have hst' (z : Ctx) : (s.setCtx c (some z)).isStaged p.1 p.2 = false := hst
  have hway' : (s.setCtx c (some { y with data := [], got := [], finished := 0 })).onItsWay p.1 p.2 = true :=
    onItsWay_setCtx hway (by simp [hp]) hph
  rw [serveRead_placed _ hy hp, beginRead_eq (hset _), splitRead_one _ (by exact hp), dispatchRead_nil]
  simp only [hst', hway', Bool.not_false, Bool.true_and, if_true, Bool.false_eq_true, if_false, serveStaged_nil]
  exact ⟨(State.ctxAt_setCtx _ _ _ _).trans (if_pos rfl), (setCtx_only _ _ _).trans (setCtx_only _ _ _)⟩

end

/-- What the dispatch of a direct read can touch before the read is queued. -/
def bookedParts : List Part := readOpenParts ++ [.blks]

/-- Whether a die reports a read busy depends on the dies, their lanes and what runs on them, on the configuration, on the timekeeper and on the
time (R150). -/
theorem readBusy_congr {s t : State} (h : Only bookedParts s t) (k : Nat) (cls : Cls) : t.readBusy k cls = s.readBusy k cls := by
  have hdies : t.dies = s.dies := h .dies (by decide)
  have hlanes : t.lanes = s.lanes := h .lanes (by decide)
  have hops : t.work.ops = s.work.ops := h .ops (by decide)
  have hregs : t.regs = s.regs := h .regs (by decide)
  have htmk : t.tmk = s.tmk := h .tmk (by decide)
  have hstore : t.store = s.store := h .store (by decide)
  have haon : t.aon.base = s.aon.base := h .always (by decide)
  have htime : t.aon.timeNs = s.aon.timeNs := (congrArg Aon.timeNs haon :)
  have hband : t.aon.band = s.aon.band := (congrArg Aon.band haon :)
  have ht : t = { t with
      dies := s.dies, lanes := s.lanes, regs := s.regs, tmk := s.tmk, store := s.store, work := { t.work with ops := s.work.ops },
      aon := { t.aon with timeNs := s.aon.timeNs, band := s.aon.band } } := by
    rw [← hdies, ← hlanes, ← hops, ← hregs, ← htmk, ← hstore, ← htime, ← hband]
  rw [ht]
  rfl
/-- The die queue entry that reads one frame of a command (R64). -/
def State.frameEntry (s : State) (c : Nat) (cls : Cls) (p : Nat × Nat) : QEntry :=
  { id := 0, kind := .read, cls := cls, ctx := c, zk := p.1, off := p.2, pos := posOfOffset (s.zone p.1) p.2,
    block := blockOfRow (s.zone p.1) (posOfOffset (s.zone p.1) p.2) (rowOf p.2), page := rowOf p.2 }

/-- The plan of a read of one LBA whose die can start it in time: its die reads it (R213). -/
theorem planOf_direct {s : State} {x : Ctx} {p : Nat × Nat} {k : Nat} (hp : x.places = [some p]) (hst : s.isStaged p.1 p.2 = false)
    (hway : s.onItsWay p.1 p.2 = false) (hk : s.memberAt (s.zone p.1) (posOfOffset (s.zone p.1) p.2) = some k)
    (hsvc : s.frameService p.1 p.2 = .direct) (hlack : (s.directLack k x.cls).passes = true) :
    s.planOf x = { direct := [s.frameEntry s.work.nextCtx x.cls p] } := by
  have hone : List.range x.places.length = [0] := by simp [hp, List.range_succ]
  have hentries : readEntries s s.work.nextCtx x.cls [p] = [s.frameEntry s.work.nextCtx x.cls p] := rfl
  unfold State.planOf
  rw [hone, splitRead_one s hp, hst, hway]
  simp only [Bool.not_false, Bool.and_self, if_true, hentries, State.planRead, List.foldl_cons, List.foldl_nil, State.planEntry, State.frameEntry,
    hsvc, hk, hlack, List.nil_append]

/-- A plan of one direct entry for a die that is not busy queues the read there, and books its decoder and its engine (R212). -/
theorem dispatchRead_direct {s : State} {t k : Nat} {e : QEntry} (hk : s.memberAt (s.zone e.zk) e.pos = some k) (hbusy : s.readBusy k e.cls = false) :
    s.dispatchRead t { direct := [e] } =
      ((s.bookDecode (blockOfLane (k / 8)) e.frames).bookCipher (blockOfLane (k / 8)) e.frames).enqueueRead k e := by
  have hbooked : Only bookedParts s ((s.bookDecode (blockOfLane (k / 8)) e.frames).bookCipher (blockOfLane (k / 8)) e.frames) :=
    ((bookDecode_only _ _ _).andThen (bookCipher_only _ _ _)).mono (by decide)
  unfold State.dispatchRead
  simp only [if_true, State.each_cons, State.each_nil, hk, State.sendRead, readBusy_congr hbooked, hbusy, Bool.false_eq_true, if_false]

theorem die_enqueueRead (s : State) (k : Nat) (e : QEntry) :
    ((s.enqueueRead k e).die k).queue = (s.die k).queue ++ [{ e with id := s.work.nextEntry, atNs := s.now }] := by
  unfold State.enqueueRead State.bookRead
  simp only [State.updDie_eq, State.die_setDie, if_pos]
  rfl

theorem die_enqueueRead_ne (s : State) {k j : Nat} (hj : j ≠ k) (e : QEntry) : (s.enqueueRead k e).die j = s.die j := by
  unfold State.enqueueRead State.bookRead
  simp only [State.updDie_eq, State.die_setDie, if_neg hj]
  rfl

/-- A read of one LBA on flash whose die is not busy is queued there (R48, step 1). -/
theorem serveRead_direct {s : State} {c k : Nat} {y : Ctx} {p : Nat × Nat} {e : QEntry} (hy : s.ctxAt c = some y) (hp : y.places = [some p])
    (hst : s.isStaged p.1 p.2 = false) (hk : s.memberAt (s.zone e.zk) e.pos = some k) (hbusy : s.readBusy k e.cls = false) :
    ∃ ws v, (s.serveRead c { direct := [e] }) = v.enqueueRead k e ∧ Only bookedParts s v ∧
      v.ctxAt c = some { y with data := [], got := [], finished := 0, waits := ws } := by
  have hset (z : Ctx) : (s.setCtx c (some z)).ctxAt c = some z := (State.ctxAt_setCtx _ _ _ _).trans (if_pos rfl)
  have hst' (z : Ctx) : (s.setCtx c (some z)).isStaged p.1 p.2 = false := hst
  have hopen (z z' : Ctx) : Only bookedParts s ((s.setCtx c (some z)).setCtx c (some z')) :=
    ((setCtx_only _ _ _).trans (setCtx_only _ _ _)).mono (by decide)
  have hbook (u : State) (b n : Nat) : Only [.blks] u ((u.bookDecode b n).bookCipher b n) := (bookDecode_only _ _ _).trans (bookCipher_only _ _ _)
  rw [serveRead_placed _ hy hp, beginRead_eq (hset _), splitRead_one _ (by exact hp)]
  simp only [hst', Bool.false_eq_true, if_false, serveStaged_nil]
  rw [dispatchRead_direct (by exact hk) (by rw [readBusy_congr (hopen _ _)]; exact hbusy)]
  exact ⟨_, _, rfl, (hopen _ _).trans ((hbook _ _ _).mono (by decide)),
    (congrArg (fun l => Tbl.look none l c) (hbook _ _ _ .ctxs (by decide))).trans ((State.ctxAt_setCtx _ _ _ _).trans (if_pos rfl))⟩

/-- A read with no LBA to be read from flash has an empty plan. -/
theorem planOf_unread {s : State} {x : Ctx} {p : Nat × Nat} (hp : x.places = [some p])
    (hhere : s.isStaged p.1 p.2 = true ∨ s.onItsWay p.1 p.2 = true) : s.planOf x = {} := by
  have hone : List.range x.places.length = [0] := by simp [hp, List.range_succ]
  have hnone : (if !s.isStaged p.1 p.2 && !s.onItsWay p.1 p.2 then [p] else []) = [] := by
    rcases hhere with hhere | hhere <;> simp [hhere]
  unfold State.planOf
  rw [hone, splitRead_one s hp, hnone]
  rfl

/-- A read of an Offline zone is refused (R80). -/
theorem tryRead_offline {s : State} {x : Ctx} {zk : Nat} (held : Option Nat) (hmem : zk ∈ s.zonesOf (s.located x))
    (hoff : (s.zone zk).st = .offline) : s.tryRead held x = (.refuse .zoneOffline, s) := by
  have hany : ((s.zonesOf (s.located x)).any fun zk => (s.zone zk).st == .offline) = true :=
    List.any_eq_true.2 ⟨zk, hmem, by simp [hoff]⟩
  unfold State.tryRead
  rw [← State.located]
  simp only [hany, if_true]

/-- A read with a status against it, such as DULBE, is refused with it (R74). -/
theorem tryRead_status {s : State} {x : Ctx} {st : Status} (held : Option Nat) (hoff : ∀ k, (s.zone k).st ≠ .offline)
    (hf : ∀ k, (s.zone k).fence = none) (hst : s.readStatus (s.located x) = some st) : s.tryRead held x = (.refuse st, s) := by
  have hany : ((s.zonesOf (s.located x)).any fun zk => (s.zone zk).st == .offline) = false := by simp [hoff]
  unfold State.tryRead
  rw [← State.located]
  simp [hany, fencedZones_eq_nil hf, hst]

theorem zonesOf_one {s : State} {x : Ctx} (hz : (s.ns x.nsid).zoned = true) (hn : x.nlb = 1) (hk : x.kind = .read) :
    s.zonesOf x = [zoneKey x.nsid (x.slba / zsze)] := by
  simp [State.zonesOf, hz, zonesTouched, hn, hk, CtxKind.discarded]
  rfl

theorem mem_zonesOf {s : State} {x : Ctx} (hz : (s.ns x.nsid).zoned = true) (hn : 0 < x.nlb) :
    zoneKey x.nsid (x.slba / zsze) ∈ s.zonesOf x := by
  unfold State.zonesOf
  simp only [hz, if_true]
  rw [List.mem_eraseDups]
  refine List.mem_append_left _ (List.mem_map.2 ⟨0, ?_, by simp⟩)
  simp [Nat.pos_iff_ne_zero.1 hn]

section
variable {s u : State} {h : Hdr} {x : Ctx}

theorem State.AtAdmission.isStaged_eq (ha : s.AtAdmission h x u) (zk off : Nat) : u.isStaged zk off = s.isStaged zk off := by
  have hrows : u.work.rows = s.work.rows := ha.only .rows (by decide)
  simp only [State.isStaged, State.stagedRow, hrows]

theorem State.AtAdmission.onItsWay_eq (ha : s.AtAdmission h x u) (zk off : Nat) : u.onItsWay zk off = s.onItsWay zk off := by
  have hctxs : u.work.ctxs = s.work.ctxs := ha.only .ctxs (by decide)
  simp only [State.onItsWay, State.zone, State.ctxAt, ha.zones_eq, hctxs]

theorem State.AtAdmission.memberAt_eq (ha : s.AtAdmission h x u) (z : Zone) (pos : Nat) : u.memberAt z pos = s.memberAt z pos := by
  have hsets : u.sets = s.sets := ha.only .sets (by decide)
  simp only [State.memberAt, State.memberDie, State.stripe, hsets]

/-- The refusal of a command at admission is posted, and nothing else of it happens. -/
theorem refused (ha : s.AtAdmission h x u) (hx : x.hdr = h) (st : Status) {v : Verdict × State} (hv : v = (.refuse st, u)) :
    Posted s (settleVerdict x v) h st 0 0 ∧ (settleVerdict x v).zones = s.zones ∧ (settleVerdict x v).media = s.media := by
  have hkeep : Only (readOpenParts ++ endParts) s (u.complete x.hdr st) := (ha.only.andThen (complete_only _ _ _)).mono (by decide)
  rw [hv]
  refine ⟨?_, hkeep .zones (by decide), hkeep .media (by decide)⟩
  rw [← hx]
  exact complete_posted (by rw [hx]; exact ha.takes.unmuted (ha.only .ctrls (by decide))) (ha.only .completions (by decide)) st

end

section
variable {s u : State} {h : Hdr} {slba : Nat} {p : Nat × Nat}

/-- A read of one placed LBA that goes: the state and the context it is served in. -/
theorem submit_one (ha : s.AtAdmission h ((s.fetchOne h).newCtx h .read slba 1) u)
    (hpre : (s.fetchOne h).precheck ((s.fetchOne h).newCtx h .read slba 1) = none)
    (hgo : (u.tryIo none ((s.fetchOne h).newCtx h .read slba 1)).1 = .go) (hf : ∀ k, (s.zone k).fence = none)
    (hp : s.readPlace h.nsid slba = some p) :
    ∃ v x y, exec (.readCmd h slba 0) s = .next (v.serveRead s.work.nextCtx (u.planOf x)) ∧ Only readOpenParts s v ∧
      v.ctxAt s.work.nextCtx = some y ∧ x.places = [some p] ∧ x.cls = (s.fetchOne h).classOf h false ∧ y.places = [some p] ∧ y.kind = .read ∧
      y.phase = .reading ∧ y.waits = [] ∧ Only readOpenParts u v ∧ (∀ n, n ≠ s.work.nextCtx → v.ctxAt n = s.ctxAt n) := by
  have hnext : u.work.nextCtx = s.work.nextCtx := ha.only .nextCtx (by decide)
  have hctxs : u.work.ctxs = s.work.ctxs := ha.only .ctxs (by decide)
  have hplaces : u.readPlaces ((s.fetchOne h).newCtx h .read slba 1) = [some p] := by
    have hone : u.readPlace h.nsid slba = some p := by rw [readPlace_congr ha.nss_eq ha.zones_eq, hp]
    simp [State.readPlaces, State.newCtx, hone]
  refine ⟨_, u.located ((s.fetchOne h).newCtx h .read slba 1), u.openedRead (u.located ((s.fetchOne h).newCtx h .read slba 1)),
    (exec_ioContexts ha.takes (readCmd_mem _ _ _ _)).trans (congrArg _ (submit_read ha hpre (.inl rfl) hgo hf)),
    (ha.only.mono (by decide)).trans (admitted_only _ _ _), ?_, hplaces, rfl, hplaces, rfl, rfl, rfl, admitted_only _ _ _, ?_⟩
  · rw [admitted_ctxAt, if_pos hnext.symm]
  · intro n hn
    rw [admitted_ctxAt, if_neg (by rw [hnext]; exact hn), State.ctxAt, hctxs, State.ctxAt]

end

section
variable {s u : State} {h : Hdr} {slba zk off : Nat}

theorem exec_read_staged (ha : s.AtAdmission h ((s.fetchOne h).newCtx h .read slba 1) u)
    (hpre : (s.fetchOne h).precheck ((s.fetchOne h).newCtx h .read slba 1) = none)
    (hgo : (u.tryIo none ((s.fetchOne h).newCtx h .read slba 1)).1 = .go) (hf : ∀ k, (s.zone k).fence = none)
    (hp : s.readPlace h.nsid slba = some (zk, off)) (hst : s.isStaged zk off = true) :
    ∃ t y, exec (.readCmd h slba 0) s = .next t ∧ t.ctxAt s.work.nextCtx = some y ∧ y.got = [0] ∧ y.places = [some (zk, off)] ∧ y.data = [] ∧
      t.zones = s.zones ∧ t.media = s.media ∧ t.out = s.out ∧ t.dies = s.dies := by
  obtain ⟨v, x, y, hexec, hv, hy, hxp, -, hyp, -, -, -, huv, -⟩ := submit_one ha hpre hgo hf hp
  have hrows : v.work.rows = s.work.rows := hv .rows (by decide)
  have hst' : v.isStaged zk off = true := by simpa only [State.isStaged, State.stagedRow, hrows] using hst
  rw [planOf_unread hxp (.inl (by rw [ha.isStaged_eq]; exact hst))] at hexec
  obtain ⟨ws, hctx, hserve⟩ := serveRead_staged hy hyp hst'
  have hkeep := (hv.andThen hserve).mono (G := readOpenParts ++ [.ciphers, .blks]) (by decide)
  exact ⟨_, _, hexec, hctx, rfl, hyp, rfl, hkeep .zones (by decide), hkeep .media (by decide), hkeep .out (by decide), hkeep .dies (by decide)⟩

theorem exec_read_awaited (ha : s.AtAdmission h ((s.fetchOne h).newCtx h .read slba 1) u)
    (hpre : (s.fetchOne h).precheck ((s.fetchOne h).newCtx h .read slba 1) = none)
    (hgo : (u.tryIo none ((s.fetchOne h).newCtx h .read slba 1)).1 = .go) (hf : ∀ k, (s.zone k).fence = none)
    (hp : s.readPlace h.nsid slba = some (zk, off)) (hst : s.isStaged zk off = false) (hway : s.onItsWay zk off = true) :
    ∃ t y, exec (.readCmd h slba 0) s = .next t ∧ t.ctxAt s.work.nextCtx = some y ∧ y.waits = [0] ∧ y.got = [] ∧ y.places = [some (zk, off)] ∧
      t.zones = s.zones ∧ t.media = s.media ∧ t.out = s.out ∧ t.dies = s.dies := by
  obtain ⟨v, x, y, hexec, hv, hy, hxp, -, hyp, -, hphase, hwaits, huv, hctxs⟩ := submit_one ha hpre hgo hf hp
  have hrows : v.work.rows = s.work.rows := hv .rows (by decide)
  have hzones : v.zones = s.zones := hv .zones (by decide)
  have hst' : v.isStaged zk off = false := by simpa only [State.isStaged, State.stagedRow, hrows] using hst
  have hway' : v.onItsWay zk off = true := by
    have := onItsWay_setCtx (c := s.work.nextCtx) (z := y) hway (by simp [hyp]) (by simp [hphase])
    have hat (n : Nat) : v.ctxAt n = (s.setCtx s.work.nextCtx (some y)).ctxAt n := by
      rw [State.ctxAt_setCtx]
      split
      · subst_vars; exact hy
      · rename_i hn; exact hctxs n hn
    simpa only [State.onItsWay, State.zone, hzones, hat, State.setCtx_fields] using this
  rw [planOf_unread hxp (.inr (by rw [ha.onItsWay_eq]; exact hway))] at hexec
  obtain ⟨hctx, hserve⟩ := serveRead_awaited hy hyp hst' hway' (by simp [hphase])
  have hkeep := (hv.andThen hserve).mono (G := readOpenParts) (by decide)
  exact ⟨_, _, hexec, hctx, by simp [hwaits], rfl, hyp, hkeep .zones (by decide), hkeep .media (by decide), hkeep .out (by decide),
    hkeep .dies (by decide)⟩

theorem exec_read_direct {k : Nat} (ha : s.AtAdmission h ((s.fetchOne h).newCtx h .read slba 1) u)
    (hpre : (s.fetchOne h).precheck ((s.fetchOne h).newCtx h .read slba 1) = none)
    (hgo : (u.tryIo none ((s.fetchOne h).newCtx h .read slba 1)).1 = .go) (hf : ∀ k, (s.zone k).fence = none)
    (hp : s.readPlace h.nsid slba = some (zk, off)) (hst : s.isStaged zk off = false) (hway : s.onItsWay zk off = false)
    (hk : s.memberAt (s.zone zk) (posOfOffset (s.zone zk) off) = some k) (hsvc : u.frameService zk off = .direct)
    (hlack : (u.directLack k (s.classOf h false)).passes = true) (hbusy : u.readBusy k (s.classOf h false) = false) :
    ∃ t y e, exec (.readCmd h slba 0) s = .next t ∧ t.ctxAt s.work.nextCtx = some y ∧ y.kind = .read ∧ y.phase = .reading ∧
      y.places = [some (zk, off)] ∧ y.got = [] ∧ y.data = [] ∧ (t.die k).queue = (s.die k).queue ++ [e] ∧ e.kind = .read ∧
      e.ctx = s.work.nextCtx ∧ e.zk = zk ∧ e.off = off ∧ e.frames = 1 ∧ e.page = rowOf off ∧ (∀ j, j ≠ k → t.die j = s.die j) ∧
      t.zones = s.zones ∧ t.media = s.media ∧ t.out = s.out := by
  obtain ⟨v, x, y, hexec, hv, hy, hxp, hcls, hyp, hkind, hphase, -, huv, -⟩ := submit_one ha hpre hgo hf hp
  have hclass := fetchOne_classOf s h h false
  have hrows : v.work.rows = s.work.rows := hv .rows (by decide)
  have hzones : v.zones = s.zones := hv .zones (by decide)
  have hsets : v.sets = s.sets := hv .sets (by decide)
  have hdies : v.dies = s.dies := hv .dies (by decide)
  have hnext : u.work.nextCtx = s.work.nextCtx := ha.only .nextCtx (by decide)
  have huzone : u.zone zk = s.zone zk := by simp only [State.zone, ha.zones_eq]
  have hst' : v.isStaged zk off = false := by simpa only [State.isStaged, State.stagedRow, hrows] using hst
  have hmember : v.memberAt (v.zone zk) (posOfOffset (v.zone zk) off) = some k := by
    simpa only [State.memberAt, State.memberDie, State.stripe, State.zone, hzones, hsets] using hk
  rw [hclass] at hcls
  rw [planOf_direct hxp (by rw [ha.isStaged_eq]; exact hst) (by rw [ha.onItsWay_eq]; exact hway) (by rw [huzone, ha.memberAt_eq]; exact hk)
    hsvc (by rw [hcls]; exact hlack)] at hexec
  obtain ⟨ws, w, hserve, hw, hctx⟩ := serveRead_direct (e := u.frameEntry u.work.nextCtx x.cls (zk, off)) hy hyp hst'
    (by simpa only [State.frameEntry, State.zone, hzones, ha.zones_eq] using hmember)
    (by rw [readBusy_congr (huv.mono (by decide)), show (u.frameEntry _ _ _).cls = _ from rfl, hcls]; exact hbusy)
  rw [hserve] at hexec
  have hkeep := ((hv.andThen hw).andThen (enqueueRead_only w k (u.frameEntry u.work.nextCtx x.cls (zk, off)))).mono (G := bookedParts ++ [.dies]) (by decide)
  have hwdies : w.dies = s.dies := Eq.trans (hw .dies (by decide)) hdies
  have hdie (j : Nat) : w.die j = s.die j := by simp only [State.die, hwdies]
  refine ⟨_, { y with data := [], got := [], finished := 0, waits := ws }, _, hexec, ?_, hkind, hphase, hyp, rfl, rfl, (die_enqueueRead w k _).trans (by rw [hdie]), rfl, hnext, rfl, rfl, rfl, rfl,
    fun j hj => (die_enqueueRead_ne w hj _).trans (hdie j), hkeep .zones (by decide), hkeep .media (by decide), hkeep .out (by decide)⟩
  exact (congrArg (fun l => Tbl.look none l s.work.nextCtx) (enqueueRead_only w k _ .ctxs (by decide))).trans hctx

end

section
variable {s u : State} {h : Hdr}

theorem exec_read_dulbe {slba nlb i : Nat} (ha : s.AtAdmission h ((s.fetchOne h).newCtx h .read slba (nlb + 1)) u)
    (hpre : (s.fetchOne h).precheck ((s.fetchOne h).newCtx h .read slba (nlb + 1)) = none) (hd : (s.ctrl h.ctrl).dulbe = true)
    (hf : ∀ k, (s.zone k).fence = none) (hoff : ∀ k, (s.zone k).st ≠ .offline) (hi : i ≤ nlb) (hp : s.readPlace h.nsid (slba + i) = none)
    (hwp : (s.ns h.nsid).zoned = true → (s.zone (zoneKey h.nsid ((slba + i) / zsze))).wp ≤ (slba + i) % zsze) :
    ∃ t, exec (.readCmd h slba nlb) s = .next t ∧ Posted s t h .unwritten 0 0 ∧ t.zones = s.zones ∧ t.media = s.media := by
  have hctrls : u.ctrls = s.ctrls := ha.only .ctrls (by decide)
  have hzone (k : Nat) : u.zone k = s.zone k := by simp only [State.zone, ha.zones_eq]
  have hns (n : Nat) : u.ns n = s.ns n := by simp only [State.ns, ha.nss_eq]
  have hstatus : u.readStatus (u.located ((s.fetchOne h).newCtx h .read slba (nlb + 1))) = some .unwritten := by
    have hplace : u.readPlace h.nsid (slba + i) = none := by rw [readPlace_congr ha.nss_eq ha.zones_eq, hp]
    have habove : (u.ns h.nsid).zoned = false ∨ (u.zone (zoneKey h.nsid ((slba + i) / zsze))).wp ≤ (slba + i) % zsze := by
      rw [hzone, hns]
      cases hz : (s.ns h.nsid).zoned with
      | false => exact .inl rfl
      | true => exact .inr (hwp hz)
    unfold State.readStatus
    rw [if_pos]
    simp only [State.located, State.newCtx, State.readPlaces, State.ctrl, hctrls, Ctx.lbaOf, if_true, Bool.and_eq_true, List.any_eq_true,
      List.mem_range, List.length_map, List.length_range]
    exact ⟨⟨hd, rfl⟩, i, by omega, by simpa [Nat.lt_succ_iff.2 hi, hplace] using habove⟩
  obtain ⟨hposted, hzones, hmedia⟩ := refused ha rfl .unwritten ((tryIo_of_read (.inl rfl) u none).trans
    (tryRead_status none (fun k => by rw [hzone]; exact hoff k) (ha.noFence hf) hstatus))
  exact ⟨_, (exec_ioContexts ha.takes (readCmd_mem _ _ _ _)).trans (congrArg _ (ha.submit hpre)), hposted, hzones, hmedia⟩

theorem exec_read_offline {slba nlb : Nat} (ha : s.AtAdmission h ((s.fetchOne h).newCtx h .read slba (nlb + 1)) u)
    (hpre : (s.fetchOne h).precheck ((s.fetchOne h).newCtx h .read slba (nlb + 1)) = none) (hz : (s.ns h.nsid).zoned = true)
    (hoff : (s.zone (zoneKey h.nsid (slba / zsze))).st = .offline) :
    ∃ t, exec (.readCmd h slba nlb) s = .next t ∧ Posted s t h .zoneOffline 0 0 ∧ t.zones = s.zones ∧ t.media = s.media := by
  have hmem : zoneKey h.nsid (slba / zsze) ∈ u.zonesOf (u.located ((s.fetchOne h).newCtx h .read slba (nlb + 1))) :=
    mem_zonesOf (x := u.located ((s.fetchOne h).newCtx h .read slba (nlb + 1))) (by exact ha.zoned hz) (Nat.succ_pos nlb)
  obtain ⟨hposted, hzones, hmedia⟩ := refused ha rfl .zoneOffline ((tryIo_of_read (.inl rfl) u none).trans
    (tryRead_offline none hmem (by simpa only [State.zone, ha.zones_eq] using hoff)))
  exact ⟨_, (exec_ioContexts ha.takes (readCmd_mem _ _ _ _)).trans (congrArg _ (ha.submit hpre)), hposted, hzones, hmedia⟩

theorem exec_read_fenced {slba zk : Nat} {f : Fence} (ha : s.AtAdmission h ((s.fetchOne h).newCtx h .read slba 1) u)
    (hzk : zk = zoneKey h.nsid (slba / zsze)) (hpre : (s.fetchOne h).precheck ((s.fetchOne h).newCtx h .read slba 1) = none)
    (hz : (s.ns h.nsid).zoned = true) (hgo : (u.tryIo none ((s.fetchOne h).newCtx h .read slba 1)).1 = .go)
    (hf : (s.zone zk).fence = some f) (hff : f.finish = false) :
    ∃ t y, exec (.readCmd h slba 0) s = .next t ∧ (t.zone zk).fence = some { f with heldReads := f.heldReads ++ [s.work.nextCtx] } ∧
      t.ctxAt s.work.nextCtx = some y ∧ y.phase = .reading ∧ (∀ k, k ≠ zk → t.zone k = s.zone k) ∧ t.media = s.media ∧ t.out = s.out := by
  have hzone (k : Nat) : u.zone k = s.zone k := by simp only [State.zone, ha.zones_eq]
  have hnext : u.work.nextCtx = s.work.nextCtx := ha.only .nextCtx (by decide)
  have hfenced : u.fencedZones (u.located ((s.fetchOne h).newCtx h .read slba 1)) = [zk] := by
    unfold State.fencedZones
    rw [zonesOf_one (by exact ha.zoned hz) rfl rfl]
    change [zoneKey h.nsid (slba / zsze)].filter _ = [zk]
    rw [← hzk]
    simp [hzone, hf, hff]
  have hrun : (s.fetchOne h).submit ((s.fetchOne h).newCtx h .read slba 1) = (u.tryRead none ((s.fetchOne h).newCtx h .read slba 1)).2 := by
    rw [ha.submit hpre]
    unfold settleVerdict
    rw [hgo]
    rfl
  rw [tryIo_of_read (.inl rfl)] at hgo
  rw [tryRead_go_fenced hgo hfenced] at hrun
  have hopen := admitted_only u (u.located ((s.fetchOne h).newCtx h .read slba 1)) (u.openedRead (u.located ((s.fetchOne h).newCtx h .read slba 1)))
  have hvzone (k : Nat) : (u.admitted (u.located ((s.fetchOne h).newCtx h .read slba 1))
      (u.openedRead (u.located ((s.fetchOne h).newCtx h .read slba 1)))).zone k = s.zone k := by
    rw [State.zone, show State.zones _ = _ from hopen .zones (by decide)]
    exact hzone k
  have hkeep (z : Zone) := ((ha.only.andThen hopen).andThen (setZone_only _ zk z)).mono (G := readOpenParts ++ [.zones]) (by decide)
  refine ⟨_, _, (exec_ioContexts ha.takes (readCmd_mem _ _ _ _)).trans (congrArg _ hrun), ?_, (admitted_ctxAt _ _ _ _).trans (if_pos hnext.symm), rfl,
    fun k hk => ?_, hkeep _ .media (by decide), hkeep _ .out (by decide)⟩
  · rw [State.updZone_eq, State.zone_setZone, if_pos rfl, hvzone, hf, hnext]
    rfl
  · rw [State.updZone_eq, State.zone_setZone, if_neg hk, hvzone]

end

/-- The context with which a Packed Read is tried (R253). -/
def State.unpackCtx (s : State) (h : Hdr) (pga ng : Nat) : Ctx :=
  { s.newCtx h .packedRead (pga / 64) (ng % 64 + 1) with granules := ng % 64 + 1, first := pga % 64 }

/-- A Packed Read with the place of its header LBA. -/
def Ctx.atHeader (x : Ctx) : Ctx :=
  { x with zk := (zonePlace x.nsid x.slba).1, off := (zonePlace x.nsid x.slba).2, places := [some (zonePlace x.nsid x.slba)] }

theorem bookEngine_only (s : State) (g n ps : Nat) : Only [.rgns] s (s.bookEngine g n ps) := by
  unfold State.bookEngine
  split
  · exact .refl
  · exact setRgn_only _ _ _

/-- A Packed Read that goes with no fence over its zone and its header staged is served from staging. -/
theorem tryUnpack_go_staged {s : State} {x : Ctx} (hgo : (s.tryUnpack none x).1 = .go)
    (hf : (s.zone (zonePlace x.nsid x.slba).1).fence = none)
    (hst : s.isStaged (zonePlace x.nsid x.slba).1 (zonePlace x.nsid x.slba).2 = true) :
    ∃ v d, (s.tryUnpack none x).2 = v.serveRead s.work.nextCtx {} ∧ Only (readOpenParts) s v ∧
      v.ctxAt s.work.nextCtx = some { x.atHeader with deadline := d } := by
  have hplan : s.planRead x.tenant (readEntries s ((none : Option Nat).getD s.work.nextCtx) x.cls (s.splitRead x.atHeader [0]).2.2) = {} := by
    rw [splitRead_one s rfl, hst]
    rfl
  have hbooked := ((takeTokens_only s x.atHeader).andThen (bookSteward_only _ (s.homeOf x.hdr).1 (s.homeOf x.hdr).2)).andThen
    (bookEngine_only _ (s.homeOf x.hdr).1 x.granules 512000)
  revert hgo
  unfold State.tryUnpack
  simp only [hf, Option.any_none, Bool.false_eq_true, if_false, Bool.not_false, Bool.true_and]
  rw [← Ctx.atHeader, hplan]
  (repeat' split) <;> intro hgo
  case isFalse.isFalse.isFalse.isFalse =>
    have hnext : Work.nextCtx _ = s.work.nextCtx := hbooked .nextCtx (by decide)
    exact ⟨_, _, congrArg (fun c => State.serveRead _ c _) hnext, (hbooked.andThen (openCtx_only _ _)).mono (by decide),
      (openCtx_ctxAt _ _ _).trans (if_pos hnext.symm)⟩
  all_goals cases hgo

section
variable {s u : State} {h : Hdr} {pga ng : Nat}

theorem exec_packedRead_offline (ha : s.AtAdmission h ((s.fetchOne h).unpackCtx h pga ng) u)
    (hpre : (s.fetchOne h).packedCheck h (pga / 64) false = none) (hoff : (s.zone (zoneKey h.nsid (pga / 64 / zsze))).st = .offline) :
    ∃ t, exec (.packedRead h pga ng) s = .next t ∧ Posted s t h .zoneOffline 0 0 ∧ t.zones = s.zones ∧ t.media = s.media := by
  have hzone (k : Nat) : u.zone k = s.zone k := by simp only [State.zone, ha.zones_eq]
  have htry : u.tryPacked none ((s.fetchOne h).unpackCtx h pga ng) = (.refuse .zoneOffline, u) := by
    have hoff' : (u.zone (zonePlace h.nsid (pga / 64)).1).st = .offline := by rw [hzone]; exact hoff
    simp [State.tryPacked, State.tryUnpack, State.unpackCtx, State.newCtx, hoff']
  obtain ⟨hposted, hzones, hmedia⟩ := refused ha rfl .zoneOffline htry
  exact ⟨_, (exec_packedContexts ha.takes (packedRead_mem _ _ _ _)).trans (congrArg _ (ha.submitPacked hpre)), hposted, hzones, hmedia⟩

theorem exec_packedRead_beyond (ha : s.AtAdmission h ((s.fetchOne h).unpackCtx h pga ng) u)
    (hpre : (s.fetchOne h).packedCheck h (pga / 64) false = none) (hf : (s.zone (zoneKey h.nsid (pga / 64 / zsze))).fence = none)
    (hoff : (s.zone (zoneKey h.nsid (pga / 64 / zsze))).st ≠ .offline)
    (hfill : (s.zone (zoneKey h.nsid (pga / 64 / zsze))).filled ≤ pga / 64 % zsze) :
    ∃ t, exec (.packedRead h pga ng) s = .next t ∧ Posted s t h .invalidField 0 0 ∧ t.zones = s.zones ∧ t.media = s.media := by
  have hzone : u.zone (zonePlace h.nsid (pga / 64)).1 = s.zone (zoneKey h.nsid (pga / 64 / zsze)) := by simp only [State.zone, ha.zones_eq]; rfl
  have htry : u.tryPacked none ((s.fetchOne h).unpackCtx h pga ng) = (.refuse .invalidField, u) := by
    have hbeyond : (s.zone (zoneKey h.nsid (pga / 64 / zsze))).filled ≤ (zonePlace h.nsid (pga / 64)).2 := hfill
    simp [State.tryPacked, State.tryUnpack, State.unpackCtx, State.newCtx, hzone, hoff, hf, hbeyond]
  obtain ⟨hposted, hzones, hmedia⟩ := refused ha rfl .invalidField htry
  exact ⟨_, (exec_packedContexts ha.takes (packedRead_mem _ _ _ _)).trans (congrArg _ (ha.submitPacked hpre)), hposted, hzones, hmedia⟩

theorem exec_packedRead_staged (ha : s.AtAdmission h ((s.fetchOne h).unpackCtx h pga ng) u)
    (hpre : (s.fetchOne h).packedCheck h (pga / 64) false = none) (hgo : (u.tryPacked none ((s.fetchOne h).unpackCtx h pga ng)).1 = .go)
    (hf : (s.zone (zoneKey h.nsid (pga / 64 / zsze))).fence = none)
    (hst : s.isStaged (zoneKey h.nsid (pga / 64 / zsze)) (pga / 64 % zsze) = true) :
    ∃ t y, exec (.packedRead h pga ng) s = .next t ∧ t.ctxAt s.work.nextCtx = some y ∧ y.kind = .packedRead ∧ y.granules = ng % 64 + 1 ∧
      y.first = pga % 64 ∧ y.got = [0] ∧ t.zones = s.zones ∧ t.media = s.media ∧ t.out = s.out ∧ t.dies = s.dies := by
  have hnext : u.work.nextCtx = s.work.nextCtx := ha.only .nextCtx (by decide)
  have hrun := ha.submitPacked hpre
  unfold settleVerdict at hrun
  rw [hgo] at hrun
  obtain ⟨v, d, hserve, hv, hctx⟩ := tryUnpack_go_staged (x := (s.fetchOne h).unpackCtx h pga ng) (s := u) hgo
    (by rw [State.zone, ha.zones_eq]; exact hf) ((ha.isStaged_eq _ _).trans hst)
  have hrows : v.work.rows = u.work.rows := hv .rows (by decide)
  have hst' : v.isStaged (zoneKey h.nsid (pga / 64 / zsze)) (pga / 64 % zsze) = true := by
    rw [← hst, ← ha.isStaged_eq]; simp only [State.isStaged, State.stagedRow, hrows]
  rw [hnext] at hserve hctx
  obtain ⟨ws, hgot, hcipher⟩ := serveRead_staged hctx rfl hst'
  have hkeep := ((ha.only.andThen hv).andThen hcipher).mono (G := readOpenParts ++ [.ciphers, .blks]) (by decide)
  refine ⟨_, _, (exec_packedContexts ha.takes (packedRead_mem _ _ _ _)).trans (congrArg _ (hrun.trans hserve)), hgot, rfl, rfl, rfl, rfl,
    hkeep .zones (by decide), hkeep .media (by decide), hkeep .out (by decide), hkeep .dies (by decide)⟩

end

/-- The bytes of a nonzero block do not vanish in a longer comparison. -/
theorem mod_pow_ne_zero {v m n : Nat} (hmn : m ≤ n) (hv : v % 2 ^ m ≠ 0) : v % 2 ^ n ≠ 0 := by
  intro h
  exact hv (Nat.mod_eq_zero_of_dvd ((pow_dvd_pow 2 hmn).trans (Nat.dvd_of_mod_eq_zero h)))

/-- Settles O32, clause by clause: each is the run of one command that reaches admission. -/
theorem readsAreServed : Obligations.ReadsAreServed := by
  unfold Obligations.ReadsAreServed
  refine ⟨?unplaced, ?dulbe, ?staged, ?awaited, ?direct, ?compare, ?packed, ?beyond, ?offline, ?packedOffline, ?fenced⟩
  case unplaced =>
    intro h slba nlb s u ha hpre hgo _ hf hp
    obtain ⟨t, v, l, hexec, hkeep, hout⟩ := exec_read_unplaced ha hpre hgo hf hp
    refine ⟨t, _, hexec, hout, rfl, rfl, rfl, rfl, rfl, by simp [State.completionOf, blockFields], hkeep .zones (by decide), hkeep .media (by decide), ?_⟩
    intro hwp f hfmem
    simp only [State.completionOf, blockFields, List.map_map, List.mem_map, List.mem_range] at hfmem
    obtain ⟨i, hi, rfl⟩ := hfmem
    simp only [Function.comp_apply, unwritten_eq_zero (hwp i (Nat.lt_succ_iff.1 hi)), show (0 : Block).toNat = 0 from BitVec.toNat_zero, Nat.zero_mod]
  case dulbe =>
    intro h slba nlb i s u ha hpre hd hf hoff hi hp hwp
    exact exec_read_dulbe ha hpre hd hf hoff hi hp hwp
  case staged =>
    intro h slba zk off s u ha hpre hgo hf hp hst
    exact exec_read_staged ha hpre hgo hf hp hst
  case awaited =>
    intro h slba zk off s u ha hpre hgo hf hp hst hway
    exact exec_read_awaited ha hpre hgo hf hp hst hway
  case direct =>
    intro h slba zk off k s u ha hpre hgo hf hp hst hway hk hsvc hlack hbusy
    exact exec_read_direct ha hpre hgo hf hp hst hway hk hsvc hlack hbusy
  case compare =>
    intro h slba nlb data s u ha hpre hgo hf hp hwp
    obtain ⟨t, n, hn, hexec, hkeep, hposted⟩ := exec_compare_unplaced ha hpre hgo hf hp fun i hi => unwritten_eq_zero (hwp i hi)
    refine ⟨t, hexec, fun hzero => ?_, fun ⟨i, hi, hne⟩ => ?_, hkeep .zones (by decide), hkeep .media (by decide)⟩
    · rwa [if_pos] at hposted
      rw [List.all_eq_true]
      intro i hi
      rw [hzero i (Nat.lt_succ_iff.1 (List.mem_range.1 hi)), show (0 : Block).toNat = 0 from BitVec.toNat_zero, Nat.zero_mod]
      rfl
    · rwa [if_neg] at hposted
      rw [List.all_eq_true]
      intro hall
      have hsame := hall i (List.mem_range.2 (Nat.lt_succ_iff.2 hi))
      exact mod_pow_ne_zero hn hne (beq_iff_eq.1 hsame).symm
  case packed =>
    rintro h pga ng zk s u rfl ha hpre hgo hf hst
    exact exec_packedRead_staged ha hpre hgo hf hst
  case beyond =>
    rintro h pga ng zk s u rfl ha hpre hf hoff hfill
    exact exec_packedRead_beyond ha hpre hf hoff hfill
  case offline =>
    intro h slba nlb s u ha hpre hz hoff
    exact exec_read_offline ha hpre hz hoff
  case packedOffline =>
    intro h pga ng s u ha hpre hoff
    exact exec_packedRead_offline ha hpre hoff
  case fenced =>
    intro h slba zk f s u hzk ha hpre hz hgo hf hff
    exact exec_read_fenced ha hzk hpre hz hgo hf hff

end Sys2Proof.Machine
end

section
/-! O44: bound sets, bound reports, and commands that are refused, declined or held at admission (R213, R219, R222, R228, R380-R382). -/

namespace Sys2Proof.Machine

theorem issueRotation_only (s : State) (set : Nat) : Only [.sets] s (s.issueRotation set) := setStripe_only _ _ _

theorem unitLack_only (s : State) (nsid : Nat) : Only [.work] s (s.unitLack nsid).2 := by
  unfold State.unitLack
  split
  · exact draw_only _
  · exact .refl

/-- What a command that does not go at its trial can have changed: a rotation issued, a free value drawn, its stewards booked. -/
def triedParts : List Part := [.sets, .work, .rgns]

/-- The outcome of a trial: the command goes, or next to nothing of the state has changed. -/
def Tried (s : State) (r : Verdict × State) : Prop := r.1 ≠ .go → Only triedParts s r.2

namespace Tried
variable {s : State} {v : Verdict} {a b : Verdict × State}

theorem go (t : State) : Tried s (.go, t) := fun h => absurd rfl h

theorem stay : Tried s (v, s) := fun _ => .refl

theorem of_only {t : State} (h : Only triedParts s t) : Tried s (v, t) := fun _ => h

theorem ite {c : Prop} [Decidable c] (ha : Tried s a) (hb : Tried s b) : Tried s (if c then a else b) := by
  split
  · exact ha
  · exact hb

end Tried

section
variable (s : State) (held : Option Nat) (x : Ctx)

theorem tryRead_tried : Tried s (s.tryRead held x) := by
  unfold State.tryRead
  refine .ite .stay ?_
  split
  · exact .stay
  · refine .ite .stay (.ite .stay ?_)
    split <;> exact .go _

theorem tryLight_tried : Tried s (s.tryLight held x) := by
  unfold State.tryLight
  exact .ite .stay (.ite .stay (.go _))

theorem tryCopy_tried : Tried s (s.tryCopy held x) := by
  unfold State.tryCopy
  refine .ite .stay (.ite .stay (.ite .stay (.ite (.of_only ((unitLack_only _ _).mono (by decide))) (.ite .stay ?_))))
  simp only
  split
  · exact .go _
  · exact .stay

theorem tryConventional_tried : Tried s (s.tryConventional held x) := by
  unfold State.tryConventional
  exact .ite .stay (.ite .stay (.ite .stay (.ite (.of_only ((unitLack_only _ _).mono (by decide))) (.ite .stay (.go _)))))

theorem tryZoned_tried : Tried s (s.tryZoned held x) := by
  unfold State.tryZoned
  refine .ite .stay (.ite .stay (.ite .stay (.ite .stay ?_)))
  simp only
  split
  · exact .of_only (.ite ((issueRotation_only _ _).mono (by decide)))
  · exact .go _

theorem tryAppend_tried : Tried s (s.tryAppend held x) := by
  unfold State.tryAppend
  refine .ite .stay (.ite .stay (.ite .stay ?_))
  simp only
  split
  · exact .of_only (.ite ((issueRotation_only _ _).mono (by decide)))
  · exact .go _

theorem tryUnpack_tried : Tried s (s.tryUnpack held x) := by
  unfold State.tryUnpack
  exact .ite .stay (.ite .stay (.ite .stay (.ite .stay (.ite (.go _) (.go _)))))

theorem tryIo_tried : Tried s (s.tryIo held x) := by
  unfold State.tryIo
  split
  · exact tryLight_tried _ _ _
  · exact tryLight_tried _ _ _
  · exact tryRead_tried _ _ _
  · exact tryRead_tried _ _ _
  · exact tryCopy_tried _ _ _
  · exact .ite (tryZoned_tried _ _ _) (tryConventional_tried _ _ _)

theorem tryPacked_tried : Tried s (s.tryPacked held x) := .ite (tryAppend_tried _ _ _) (tryUnpack_tried _ _ _)

theorem openZone_tried (h : Hdr) (zk : Nat) : Tried s (s.openZone h zk) := by
  unfold State.openZone
  simp only
  split
  case h_7 =>
    refine .ite .stay ?_
    split
    · exact .of_only ((issueRotation_only _ _).mono (by decide))
    · exact .go _
  all_goals first | exact .stay | exact .go _

theorem closeZone_tried (h : Hdr) (due : Option Nat) (zk : Nat) : Tried s (s.closeZone h due zk) := by
  unfold State.closeZone
  simp only
  split
  case h_6 | h_7 => exact .ite (.go _) (.go _)
  all_goals first | exact .stay | exact .go _

theorem zoneAct_tried (act : ZoneAct) (h : Hdr) (due : Option Nat) (zk : Nat) : Tried s (s.zoneAct act h due zk) := by
  unfold State.zoneAct
  split
  · exact openZone_tried _ _ _
  · exact closeZone_tried _ _ _ _
  · unfold State.finishZone; split <;> first | exact .stay | exact .go _
  · unfold State.resetZone; split <;> first | exact .stay | exact .go _
  · exact .ite (.go _) (.go _)
  · unfold State.offlineZone; split <;> first | exact .stay | exact .go _

theorem tryManage_tried : Tried s (s.tryManage x) := by
  have hbook : Only triedParts s (s.each (s.writeStewards x.hdr (zonePlace x.nsid x.slba).1) fun p s => s.bookSteward p.1 p.2) :=
    .each fun _ _ => (bookSteward_only _ _ _).mono (by decide)
  unfold State.tryManage
  refine .ite .stay ?_
  simp only
  split
  · exact .go _
  · split
    · exact .go _
    · exact fun h => hbook.trans (zoneAct_tried _ _ _ _ _ h)
  · exact .go _

theorem tryHeld_tried (c : Nat) : Tried s (s.tryHeld c x) := by
  unfold State.tryHeld
  split
  · exact tryPacked_tried _ _ _
  · exact tryPacked_tried _ _ _
  · split
    · exact .go _
    · exact tryManage_tried _ _
  · split
    · exact .go _
    · exact tryManage_tried _ _
  · exact tryIo_tried _ _ _

end

/-- An event of a class that every variant records stands in the queue when there is room (R535). -/
theorem recorded_raise {s u : State} (hroom : u.evr.queue.length < 224) (hnow : u.now = s.now) {code : Nat}
    (hcode : code / 256 ≠ 9 ∧ code / 256 ≠ 10) (src a b c d : Nat) : Recorded s (u.raise code src a b c d) code src a b c d := by
  unfold Recorded
  rw [← hnow]
  exact State.mem_raise u code src a b c d hroom (fun h => absurd h hcode.1) fun h => absurd h hcode.2

/-- Bound sets (R222). -/
theorem exec_boundSetComputeDone {s : State} (hrun : s.running = true) (hcomp : s.tmk.computing = true) :
    exec .boundSetComputeDone s = .next ((s.onTmk fun k =>
      { k with computing := false, next := some s.withPendingBounds.computeSets }).raiseComputed s.withPendingBounds.computeSets) := by
  change Host.Outcome.next (if s.running && s.tmk.computing then _ else s) = _
  rw [hrun, hcomp]
  rfl

theorem exec_boundSetComputeDone_idle {s : State} (h : s.running = false ∨ s.tmk.computing = false) : exec .boundSetComputeDone s = .next s := by
  change Host.Outcome.next (if s.running && s.tmk.computing then _ else s) = _
  rcases h with h | h <;> simp [h]

theorem raiseComputed_only (s : State) (sets : List BoundSet) : Only [.evr, .aon] s (s.raiseComputed sets) := by
  unfold State.raiseComputed
  split
  · exact .refl
  · exact raise_only _ _ _ _ _ _ _

/-- The gate of an admin command that is taken: left out by no hold, permitted and with a good NSID, its own rules run (R314, R531). -/
theorem State.admin_taken {s : State} {r : AdminRule} {h : Hdr} (run : State → State)
    (ht : (if h.mc then s.servesMc else s.fetches h.ctrl) = true) (hb : s.bootSubsetOnly = false ∨ r.bootSubset = true)
    (hp : r.permits s h = true) (hd : h.mc = false → (s.ctrl h.ctrl).discovery = false) (hn : r.nsidZero = true → h.nsid = 0) :
    s.admin r h run = run (s.fetchOne h) := by
  have hb' : ((s.fetchOne h).bootSubsetOnly && !r.bootSubset) = false := by
    have heq : (s.fetchOne h).bootSubsetOnly = s.bootSubsetOnly := by
      simp [State.bootSubsetOnly, State.inHold, State.hostPortUp, State.stepComplete, State.link, State.port]
    rw [heq]
    rcases hb with hb | hb <;> simp [hb]
  have hp' : r.permits (s.fetchOne h) h = true := by
    rw [← hp]; unfold AdminRule.permits; rw [State.fetchOne_tenantOf]
  have hd' : (!h.mc && ((s.fetchOne h).ctrl h.ctrl).discovery) = false := by
    cases hm : h.mc with
    | true => rfl
    | false => simpa [State.ctrl] using hd hm
  have hn' : (r.nsidZero && h.nsid != 0) = false := by
    cases hz : r.nsidZero with
    | true => simp [hn hz]
    | false => rfl
  unfold State.admin
  simp [ht, hb', hp', hd', hn']

theorem State.TakesAdmin.run {s : State} {r : AdminRule} {h : Hdr} (ht : s.TakesAdmin r h) (run : State → State) :
    s.admin r h run = run (s.fetchOne h) :=
  State.admin_taken run (by simpa [ht.host] using ht.fetched) (.inl ht.whole) ht.permitted (fun _ => ht.nvm) ht.nsid

theorem State.TakesAdmin.unmuted {s t : State} {r : AdminRule} {h : Hdr} (ht : s.TakesAdmin r h) (hctrls : t.ctrls = s.ctrls) :
    t.muted h = false :=
  muted_of_noDrain ht.pcie (by rw [State.ctrl, hctrls]; exact ht.quiet)

theorem muted_of_mc {h : Hdr} (hm : h.mc = true) (t : State) : t.muted h = false := by simp [State.muted, hm]

theorem boundReport_congr {s t : State} (h1 : t.tenants = s.tenants) (h2 : t.tmk = s.tmk) (h3 : t.regs = s.regs) (n : Nat) :
    t.boundReport n = s.boundReport n := by
  have ht : t = { t with tenants := s.tenants, tmk := s.tmk, regs := s.regs } := by rw [← h1, ← h2, ← h3]
  rw [ht]
  rfl

/-- The counts of a tenant that a bound report reads, cleared (R228). -/
def Tenant.cleared (x : Tenant) : Tenant := { x with excused := 0, unexcused := 0, declines := 0, worstLate := 0 }

/-- What a completion leaves of the tenants: all but the dirty log (R384). -/
theorem logPages_tenant (n : Nat) (s : State) (t : Nat) (cq : Bool) (u : Nat) :
    ∃ l o, (State.logPages n s t cq).tenant u = { s.tenant u with log := l, overflow := o } := by
  induction n generalizing s with
  | zero => exact ⟨_, _, rfl⟩
  | succ n ih =>
    unfold State.logPages
    simp only
    split
    · exact ⟨_, _, rfl⟩
    split
    · have hset (v : State) (code src a b c d : Nat) : (v.raise code src a b c d).tenant u = v.tenant u := by simp [State.tenant]
      rw [hset, State.tenant_setTenant]
      split
      · subst_vars; exact ⟨_, _, rfl⟩
      · exact ⟨_, _, rfl⟩
    · obtain ⟨l, o, heq⟩ := ih (((s.draw).2.updTenant t fun x => { x with log := x.log ++ [((s.draw).1 % 2 ^ 52, cq)] }))
      refine ⟨l, o, heq.trans ?_⟩
      rw [State.updTenant_eq, State.tenant_setTenant]
      split
      · subst_vars; rfl
      · rfl

theorem completeWith_tenant (s : State) (h : Hdr) (st : Status) (a b : Nat) (d : List FieldVal) (u : Nat) :
    ∃ l o, (s.completeWith h st a b d).tenant u = { s.tenant u with log := l, overflow := o } := by
  unfold State.completeWith
  split
  · exact ⟨_, _, rfl⟩
  simp only
  split
  · exact ⟨_, _, rfl⟩
  · have hresp (v : State) (n : Nat) : (v.respond h n).tenant u = v.tenant u := by simp [State.tenant, State.respond_fields]
    rw [hresp]
    unfold State.logWrites
    split
    · obtain ⟨l, o, heq⟩ := logPages_tenant 1 (State.logPages (ceilDiv (dataExtent d) 4096) (s.postCompletion h st a b d) h.ctrl false) h.ctrl true u
      obtain ⟨l', o', heq'⟩ := logPages_tenant (ceilDiv (dataExtent d) 4096) (s.postCompletion h st a b d) h.ctrl false u
      exact ⟨l, o, by rw [heq, heq']; rfl⟩
    · exact ⟨_, _, rfl⟩

/-- The state with the counts of a tenant cleared, where that is asked. -/
def State.cleared (s : State) (clear : Bool) (u : Nat) : State := if clear then s.updTenant u Tenant.cleared else s

theorem cleared_only (s : State) (clear : Bool) (u : Nat) : Only [.tenants] s (s.cleared clear u) :=
  .ite (setTenant_base_only _ _ _ rfl)

/-- A bound report that is taken and allowed completes with the report of the tenant that it names (R228). -/
theorem exec_boundReport {s : State} {h : Hdr} (sel clear : Bool) (u : Nat)
    (hrun : ∀ run, s.admin ruleBoundReport h run = run (s.fetchOne h))
    (hallow : ((sel || clear) && !h.mc && (if h.mc then 0 else s.tenantOf h.ctrl) != 0) = false) :
    exec (.boundReport h sel u clear) s = .next (((s.fetchOne h).cleared clear (if sel then u % 256 else if h.mc then 0 else s.tenantOf h.ctrl)).completeWith
      h .success 0 0 (s.boundReport (if sel then u % 256 else if h.mc then 0 else s.tenantOf h.ctrl))) := by
  have hreport (n : Nat) : (s.fetchOne h).boundReport n = s.boundReport n := boundReport_congr (by simp) (by simp) (by simp) n
  refine congrArg Host.Outcome.next ((hrun _).trans ?_)
  simp only [State.fetchOne_tenantOf, hallow, hreport]
  rfl

theorem boundReport_answers {s : State} {h : Hdr} (clear : Bool) (v : Nat) (hm : ∀ t : State, t.ctrls = s.ctrls → t.muted h = false) :
    ∃ c, (((s.fetchOne h).cleared clear v).completeWith h .success 0 0 (s.boundReport v)).out.completions = s.out.completions ++ [c] ∧
      c.cid = h.cid ∧ c.sct = 0 ∧ c.sc = 0 ∧ c.data = s.boundReport v := by
  have hkeep := (fetchOne_only s h).andThen (cleared_only _ clear v)
  refine ⟨((s.fetchOne h).cleared clear v).completionOf h .success 0 0 (s.boundReport v), ?_, rfl, rfl, rfl, rfl⟩
  rw [completeWith_completions (hm _ (hkeep .ctrls (by decide))), show Outputs.completions _ = _ from hkeep .completions (by decide)]

theorem boundReport_tenant {s : State} {h : Hdr} (clear : Bool) (v : Nat) (d : List FieldVal) :
    ∃ l o, ((((s.fetchOne h).cleared clear v).completeWith h .success 0 0 d).tenant v) =
      { (if clear then (s.tenant v).cleared else s.tenant v) with log := l, overflow := o } := by
  have hcleared : ((s.fetchOne h).cleared clear v).tenant v = if clear then (s.tenant v).cleared else s.tenant v := by
    have hfetch : (s.fetchOne h).tenant v = s.tenant v := by simp [State.tenant]
    unfold State.cleared
    split
    · rw [State.updTenant_eq, State.tenant_setTenant, if_pos rfl, hfetch]
    · exact hfetch
  obtain ⟨l, o, heq⟩ := completeWith_tenant ((s.fetchOne h).cleared clear v) h .success 0 0 d v
  exact ⟨l, o, by rw [heq, hcleared]⟩

/-- Every command of an I/O submission queue stands behind the gate of its queue (R57, R305). -/
theorem exec_ioCommands {c : Instr} {h : Hdr} {a n f : Nat} {b : Bool} {data : List Block} {rs : List (Nat × Nat)}
    (hc : c ∈ ioCommands h a n f b data rs) : ∃ run, ∀ s, exec c s = .next (s.io h run) := by
  simp only [ioCommands, List.mem_cons, List.not_mem_nil, or_false] at hc
  rcases hc with rfl | rfl | rfl | rfl | rfl | rfl | rfl | rfl | rfl | rfl | rfl | rfl | rfl | rfl | rfl | rfl | rfl | rfl <;>
    exact ⟨_, fun _ => rfl⟩

theorem io_notFetched {s : State} {h : Hdr} (run : State → State) (hs : s.fetches h.ctrl = false ∨ s.flt.stop ≠ 0) : s.io h run = s := by
  unfold State.io
  rcases hs with hs | hs <;> simp [hs]

theorem io_hold {s : State} {h : Hdr} (run : State → State) (hf : s.fetches h.ctrl = true) (hs : s.flt.stop = 0) (hh : s.inHold = true) :
    s.io h run = (s.fetchOne h).complete h .notReady := by
  have hh' : (s.fetchOne h).inHold = true := by rw [← hh]; simp [State.inHold]
  unfold State.io
  simp [hf, hs, hh']

theorem submit_stopped {s : State} {x : Ctx} (h : s.fetchStopped x = true) : s.submit x = s := by
  unfold State.submit
  rw [if_pos h]

theorem submitPacked_stopped {s : State} {x : Ctx} (h : s.fetchStopped x = true) : s.submitPacked x = s := by
  unfold State.submitPacked
  rw [if_pos h]

theorem submit_wrong {s : State} {x : Ctx} {st : Status} (h : s.fetchStopped x = false) (hc : s.precheck x = some st) :
    s.submit x = s.complete x.hdr st := by
  unfold State.submit
  simp [h, hc]

theorem submitPacked_wrong {s : State} {x : Ctx} {st : Status} (h : s.fetchStopped x = false)
    (hc : s.packedCheck x.hdr x.slba (x.kind == .packedAppend) = some st) : s.submitPacked x = s.complete x.hdr st := by
  unfold State.submitPacked
  simp [h, hc]

theorem ioContexts_hdr {s : State} {h : Hdr} {slba nlb : Nat} {data : List Block} {p : Instr × Ctx} (hp : p ∈ s.ioContexts h slba nlb data) :
    p.2.hdr = h := by
  simp only [State.ioContexts, List.mem_cons, List.not_mem_nil, or_false] at hp
  rcases hp with rfl | rfl | rfl | rfl | rfl | rfl <;> rfl

theorem packedContexts_hdr {s : State} {h : Hdr} {a ng : Nat} {close : Bool} {p : Instr × Ctx} (hp : p ∈ s.packedContexts h a ng close) :
    p.2.hdr = h ∧ p.2.slba / zsze * zsze + p.2.slba % zsze = p.2.slba ∧ p.2.nsid = h.nsid := by
  simp only [State.packedContexts, List.mem_cons, List.not_mem_nil, or_false] at hp
  rcases hp with rfl | rfl <;> exact ⟨rfl, Nat.div_add_mod' _ _, rfl⟩

/-- What a command that ends or waits at its admission can have changed. -/
def admitParts : List Part := [.sqs, .tenants] ++ triedParts ++ postParts ++ [.tmk]

section
variable {s u : State} {h : Hdr} {x : Ctx} {r : Verdict × State}

/-- What follows a verdict that refuses or declines (R219). -/
theorem settle_posts (ht : s.TakesIo h) (hu : Only [.sqs, .tenants] s u) (hr : Tried u r) (hx : x.hdr = h) :
    (∀ st, r.1 = .refuse st → Posted s (settleVerdict x r) h st 0 0 ∧ Only admitParts s (settleVerdict x r)) ∧
    (∀ us, r.1 = .energy us → Posted s (settleVerdict x r) h .energyLow (min 1000000 (max 1 us)) 0 ∧ Only admitParts s (settleVerdict x r)) ∧
    (∀ l, (r.1 = .now l ∨ (r.1 = .later l ∧ (s.tenant x.tenant).compat = false)) →
      Posted s (settleVerdict x r) h .boundUnavailable (min 1000000 (max 1 l.tryUs)) 0 ∧ Only admitParts s (settleVerdict x r)) := by
  have hkept (hne : r.1 ≠ .go) : Only ([.sqs, .tenants] ++ triedParts) s r.2 := hu.andThen (hr hne)
  have hmuted (hne : r.1 ≠ .go) : r.2.muted h = false := ht.unmuted (hkept hne .ctrls (by decide))
  have hout (hne : r.1 ≠ .go) : r.2.out.completions = s.out.completions := hkept hne .completions (by decide)
  subst hx
  refine ⟨fun st hv => ?_, fun us hv => ?_, fun l hv => ?_⟩
  · have hne : r.1 ≠ .go := by simp [hv]
    unfold settleVerdict
    rw [hv]
    exact ⟨complete_posted (hmuted hne) (hout hne) _, ((hkept hne).andThen (complete_only _ _ _)).mono (by decide)⟩
  · have hne : r.1 ≠ .go := by simp [hv]
    unfold settleVerdict
    rw [hv]
    exact ⟨completeWith_posted (hmuted hne) (hout hne) _ _ _ _, ((hkept hne).andThen (completeWith_only _ _ _ _ _ _)).mono (by decide)⟩
  · have hne : r.1 ≠ .go := by rcases hv with hv | hv <;> simp [hv]
    have hdecline : settleVerdict x r = r.2.decline x.hdr x.tenant x.cls l.tryUs := by
      unfold settleVerdict
      rcases hv with hv | ⟨hv, hcompat⟩ <;> rw [hv]
      have hbase : (r.2.tenant x.tenant).base = (s.tenant x.tenant).base := hkept hne .tenantBase (by decide) x.tenant
      have hc : (r.2.tenant x.tenant).compat = false := (congrArg Tenant.compat hbase :).trans hcompat
      simp only [State.declineOrHold, hc, Bool.false_eq_true, if_false]
    rw [hdecline]
    exact ⟨decline_posted (hmuted hne) (hout hne) _ _ _, ((hkept hne).andThen (decline_only _ _ _ _ _)).mono (by decide)⟩

/-- What a command that is held can have changed. -/
def holdParts : List Part := [.sqs, .tenants, .tenantBase] ++ triedParts ++ [.mem, .evr, .aon, .ctxs, .nextCtx]

/-- A command held in compatibility mode waits in its tenant's list under the next number (R380). -/
theorem declineOrHold_holds (hu : Only ([.sqs, .tenants] ++ triedParts) s u) (hc : (s.tenant x.tenant).compat = true) (l : Lack) :
    (u.declineOrHold x l).ctxAt s.work.nextCtx = some { x with phase := .held, heldAt := s.now, deadline := none } ∧
    ((u.declineOrHold x l).tenant x.tenant).heldCmds = (s.tenant x.tenant).heldCmds ++ [s.work.nextCtx] ∧ Only holdParts s (u.declineOrHold x l) := by
  have hbase : (u.tenant x.tenant).base = (s.tenant x.tenant).base := hu .tenantBase (by decide) x.tenant
  have hcompat : (u.tenant x.tenant).compat = true := (congrArg Tenant.compat hbase :).trans hc
  have hnext : u.work.nextCtx = s.work.nextCtx := hu .nextCtx (by decide)
  have hnow : u.now = s.now := (congrArg Aon.timeNs (hu .always (by decide)) :)
  have hopen := openCtx_only u { x with phase := .held, heldAt := u.now, deadline := none }
  have htenant : ((u.openCtx { x with phase := .held, heldAt := u.now, deadline := none }).2.tenant x.tenant) = u.tenant x.tenant := by
    simp only [State.tenant, show State.tenants _ = _ from hopen .tenants (by decide)]
  unfold State.declineOrHold
  simp only [hcompat, if_true, openCtx_fst, hnext]
  refine ⟨?_, ?_, ((hu.andThen hopen).andThen (setTenant_only _ _ _)).mono (by decide)⟩
  · rw [← hnow]
    exact (openCtx_ctxAt _ _ _).trans (if_pos hnext.symm)
  · rw [State.updTenant_eq, State.tenant_setTenant, if_pos rfl, htenant, show (u.tenant x.tenant).heldCmds = _ from (congrArg Tenant.heldCmds hbase :)]
    rfl

end

section
variable (s : State)

theorem takeBlock_only (k : Nat) : Only [.dies] s (s.takeBlock k).2 := by
  unfold State.takeBlock
  simp only
  split <;> exact setDie_only _ _ _

theorem takeBlocks_only (ms : List (Option Nat)) : Only [.dies] s (s.takeBlocks ms).2 := by
  induction ms generalizing s with
  | nil => exact .refl
  | cons m ms ih =>
    cases m with
    | none => exact ih s
    | some k => exact (takeBlock_only s k).trans (ih _)

theorem commitZone_only (zk : Nat) (z : Zone) : Only [.store, .zones] s (s.commitZone zk z) :=
  (onStore_base_only _ _ (by rfl)).andThen (setZone_only _ _ _)

theorem activate_only (zk set rot : Nat) (ru : Bool) (st : ZoneSt) : Only [.dies, .store, .zones] s (s.activate zk set rot ru st) :=
  ((takeBlocks_only _ _).andThen ((onStore_base_only _ _ (by rfl)).andThen (commitZone_only _ _ _))).mono (by decide)

theorem advanceZone_only (zk c n : Nat) : Only [.zones] s (s.advanceZone zk c n) := setZone_only _ _ _

/-- What the trial of a packed command can touch. -/
def packedTryParts : List Part := readOpenParts ++ readParts ++ [.sets, .store, .zones]

/-- The state of an outcome that depends on a condition. -/
theorem Only.ite_snd {α : Type} {F : List Part} {s : State} {c : Prop} [Decidable c] {a b : α × State} (ha : Only F s a.2) (hb : Only F s b.2) :
    Only F s (if c then a else b).2 := by
  split
  · exact ha
  · exact hb

theorem bookings_only (l : List (Nat × Nat)) (m : List (Nat × Nat)) (g n ps : Nat) :
    Only [.rgns, .blks] s (((s.each l fun p s => s.bookSteward p.1 p.2).each m fun n s => s.bookCipher n.1 (n.2 / 4096)).bookEngine g n ps) := by
  refine Only.trans (Only.trans (.each fun p t => ?_) (.each fun p t => ?_)) ((bookEngine_only _ _ _ _).mono (by decide))
  · exact (bookSteward_only _ _ _).mono (by decide)
  · exact (bookCipher_only _ _ _).mono (by decide)

theorem tryAppend_only (held : Option Nat) (x : Ctx) : Only packedTryParts s (s.tryAppend held x).2 := by
  unfold State.tryAppend
  refine .ite_snd .refl (.ite_snd .refl (.ite_snd .refl ?_))
  have hissue (set : Nat) : Only packedTryParts s (s.issueRotation set) := (issueRotation_only _ _).mono (by decide)
  simp only
  split <;> dsimp only
  · exact .ite (hissue _)
  · refine Only.trans ?issued (Only.trans (.ites .refl (.ites ?behind ((activate_only _ _ _ _ _ _).mono (by decide))))
      ((((takeTokens_only _ x).andThen (bookings_only _ _ _ _ _ _)).andThen ((placeCtx_only _ _ _).andThen (advanceZone_only _ _ _ _))).mono
        (by decide)))
    case issued => exact .ite (hissue _)
    case behind => exact ((takeBlocks_only _ _).andThen (setZone_only _ _ _)).mono (by decide)

theorem tryUnpack_only (held : Option Nat) (x : Ctx) : Only packedTryParts s (s.tryUnpack held x).2 := by
  have hopen (y z : Ctx) (g i n ps : Nat) : Only packedTryParts s ((((s.takeTokens y).bookSteward g i).bookEngine g n ps).placeCtx held z).2 :=
    ((((takeTokens_only _ _).andThen (bookSteward_only _ _ _)).andThen (bookEngine_only _ _ _ _)).andThen (placeCtx_only _ _ _)).mono (by decide)
  unfold State.tryUnpack
  refine .ite_snd .refl (.ite_snd .refl (.ite_snd .refl (.ite_snd .refl (.ite_snd ?_ ?_))))
  · exact (hopen _ _ _ _ _ _).trans ((setZone_only _ _ _).mono (by decide))
  · exact (hopen _ _ _ _ _ _).trans ((serveRead_only _ _ _).mono (by decide))

theorem tryPacked_only (held : Option Nat) (x : Ctx) : Only packedTryParts s (s.tryPacked held x).2 :=
  .ite_snd (tryAppend_only _ _ _) (tryUnpack_only _ _ _)

end

/-- A held command that does not go leaves the state as it was. -/
theorem retryOne_false {s : State} {c : Nat} (h : (s.retryOne c).1 = false) : s.retryOne c = (false, s) := by
  revert h
  unfold State.retryOne
  split
  · exact fun _ => rfl
  split
  · exact fun h => nomatch h
  split <;> first | exact fun _ => rfl | exact fun h => nomatch h

/-- One held command after another is tried until one goes (R380). -/
def State.retryStep (s : State) (a : Bool × State) (c : Nat) : Bool × State := if a.1 then a else s.retryOne c

theorem retryFold_skip (s : State) (l : List Nat) (h : ∀ c ∈ l, (s.retryOne c).1 = false) : l.foldl s.retryStep (false, s) = (false, s) := by
  induction l with
  | nil => rfl
  | cons c l ih =>
    have hc : s.retryStep (false, s) c = (false, s) := retryOne_false (h c (List.mem_cons_self ..))
    rw [List.foldl_cons, hc]
    exact ih fun d hd => h d (List.mem_cons_of_mem _ hd)

theorem retryFold_done (s v : State) (l : List Nat) : l.foldl s.retryStep (true, v) = (true, v) := by
  induction l with
  | nil => rfl
  | cons c l ih => exact ih

theorem exec_heldCommandRetry (u : Nat) (s : State) : exec (.heldCommandRetry u) s =
    .next (if !s.running || s.aon.trip || s.bucketsEmpty u then s else ((s.heldFirst u).foldl s.retryStep (false, s)).2) := rfl

section
variable {s v : State} {u c : Nat} {x : Ctx}

theorem exec_heldCommandRetry_run (hr : s.running = true) (ht : s.aon.trip = false) (hb : s.bucketsEmpty u = false) :
    exec (.heldCommandRetry u) s = .next ((s.heldFirst u).foldl s.retryStep (false, s)).2 := by
  rw [exec_heldCommandRetry]
  simp [hr, ht, hb]

theorem exec_heldCommandRetry_first {cs rest : List Nat} (hr : s.running = true) (ht : s.aon.trip = false) (hb : s.bucketsEmpty u = false)
    (hl : s.heldFirst u = cs ++ c :: rest) (hcs : ∀ d ∈ cs, (s.retryOne d).1 = false) (hc : s.retryOne c = (true, v)) :
    exec (.heldCommandRetry u) s = .next v := by
  have hstep : s.retryStep (false, s) c = (true, v) := hc
  rw [exec_heldCommandRetry_run hr ht hb, hl, List.foldl_append, retryFold_skip s cs hcs, List.foldl_cons, hstep, retryFold_done]

theorem exec_heldCommandRetry_one (hr : s.running = true) (ht : s.aon.trip = false) (hb : s.bucketsEmpty u = false)
    (hl : s.heldFirst u = [c]) : exec (.heldCommandRetry u) s = .next (s.retryOne c).2 := by
  rw [exec_heldCommandRetry_run hr ht hb, hl]
  rfl

/-- The tenant's list without the command. -/
theorem unhold_only (s : State) (x : Ctx) (c : Nat) : Only [.tenants, .tenantBase] s (s.unhold x c) := setTenant_only _ _ _

theorem not_mem_unhold (s : State) (x : Ctx) (c : Nat) : c ∉ ((s.unhold x c).tenant x.tenant).heldCmds := by
  unfold State.unhold
  rw [State.updTenant_eq, State.tenant_setTenant, if_pos rfl]
  simp

/-- Whether a command is held is kept by all that keeps the tenants' base. -/
theorem heldCmds_of_only {F : List Part} {s t : State} (h : Only F s t) (hF : Part.tenantBase ∉ F) (u : Nat) :
    (t.tenant u).heldCmds = (s.tenant u).heldCmds := (congrArg Tenant.heldCmds (h .tenantBase hF u) :)

/-- What the end of a held command can have changed. -/
def unheldParts : List Part := [.tenantBase] ++ triedParts ++ endParts

/-- A held command that is refused ends (R380). -/
theorem unhold_finish (hx : s.ctxAt c = some x) (hd : x.discard = false) (hm : s.muted x.hdr = false) {t : State} (ht : Only triedParts s t)
    (st : Status) (a b : Nat) :
    Posted s ((t.unhold x c).finishWith c st a b []) x.hdr st a b ∧ ((t.unhold x c).finishWith c st a b []).ctxAt c = none ∧
    c ∉ (((t.unhold x c).finishWith c st a b []).tenant x.tenant).heldCmds ∧
    Only unheldParts s ((t.unhold x c).finishWith c st a b []) := by
  have hu : Only (triedParts ++ [.tenants, .tenantBase]) s (t.unhold x c) := ht.andThen (unhold_only _ _ _)
  have hctxs : (t.unhold x c).work.ctxs = s.work.ctxs := hu .ctxs (by decide)
  have hctx : (t.unhold x c).ctxAt c = some x := by rw [← hx, State.ctxAt, hctxs, State.ctxAt]
  have hmuted : (t.unhold x c).muted x.hdr = false :=
    (muted_congr _ (hu .ctrls (by decide)) (hu .sqs (by decide)) (hu .fab (by decide))).trans hm
  refine ⟨finishWith_posted hctx hd hmuted (hu .completions (by decide)) _ _ _ _, ?_, ?_, (hu.andThen (finishWith_only _ _ _ _ _ _)).mono (by decide)⟩
  · rw [finishWith_ctxAt, if_pos rfl]
  · rw [heldCmds_of_only (finishWith_only _ _ _ _ _ _) (by decide)]
    exact not_mem_unhold _ _ _

/-- A held command whose bound cannot be met is declined (R219). -/
theorem unhold_decline (hx : s.ctxAt c = some x) (hm : s.muted x.hdr = false) {t : State} (ht : Only triedParts s t) (us : Nat) :
    Posted s (((t.unhold x c).squash c).decline x.hdr x.tenant x.cls us) x.hdr .boundUnavailable (min 1000000 (max 1 us)) 0 ∧
    (((t.unhold x c).squash c).decline x.hdr x.tenant x.cls us).ctxAt c = none ∧
    c ∉ ((((t.unhold x c).squash c).decline x.hdr x.tenant x.cls us).tenant x.tenant).heldCmds ∧
    Only unheldParts s (((t.unhold x c).squash c).decline x.hdr x.tenant x.cls us) := by
  have hu : Only (triedParts ++ [.tenants, .tenantBase]) s (t.unhold x c) := ht.andThen (unhold_only _ _ _)
  have hctxs : (t.unhold x c).work.ctxs = s.work.ctxs := hu .ctxs (by decide)
  have hctx : (t.unhold x c).ctxAt c = some x := by rw [← hx, State.ctxAt, hctxs, State.ctxAt]
  have hq := hu.andThen (squash_only (t.unhold x c) c)
  have hmuted : ((t.unhold x c).squash c).muted x.hdr = false :=
    (muted_congr _ (hq .ctrls (by decide)) (hq .sqs (by decide)) (hq .fab (by decide))).trans hm
  have hgone : ((t.unhold x c).squash c).ctxAt c = none := by
    unfold State.squash
    rw [hctx]
    have hkept := (withdrawReads_only ((t.unhold x c).setCtx c none) c).andThen (freeBufsOf_only _ c)
    simp only [State.ctxAt, show Work.ctxs _ = _ from hkept .ctxs (by decide)]
    exact (State.ctxAt_setCtx _ _ _ _).trans (if_pos rfl)
  refine ⟨decline_posted hmuted (hq .completions (by decide)) _ _ _, ?_, ?_, (hq.andThen (decline_only _ _ _ _ _)).mono (by decide)⟩
  · rw [State.ctxAt, show Work.ctxs _ = _ from decline_only _ _ _ _ _ .ctxs (by decide)]
    exact hgone
  · rw [heldCmds_of_only (decline_only _ _ _ _ _) (by decide), heldCmds_of_only (squash_only _ _) (by decide)]
    exact not_mem_unhold _ _ _

end

section
variable {s : State} {c : Nat} {x : Ctx}

/-- What the acceptance of a held write can touch before its zone advances. -/
def acceptParts : List Part := [.tenants, .rgns, .blks, .work, .ctxs]

theorem acceptWrite_held (s : State) (c : Nat) (x : Ctx) (zk : Nat) (need : List (Nat × Nat)) :
    (s.acceptWrite (some c) x zk need).1 = c ∧ Only acceptParts s (s.acceptWrite (some c) x zk need).2 ∧
    ∃ y, (s.acceptWrite (some c) x zk need).2.ctxAt c = some y ∧ y.phase = .fetching ∧ y.kind = x.kind ∧ y.deadline = none := by
  have hbooked (t : State) : Only [.rgns, .blks] t ((t.each (t.writeStewards x.hdr zk) fun p s => s.bookSteward p.1 p.2).each need
      fun n s => s.bookCipher n.1 (n.2 / 4096)) :=
    Only.trans (.each fun p t => (bookSteward_only _ _ _).mono (by decide)) (.each fun p t => (bookCipher_only _ _ _).mono (by decide))
  exact ⟨rfl, (((takeTokens_only _ _).andThen (hbooked _)).andThen (setCtx_only _ _ _)).mono (by decide),
    _, (State.ctxAt_setCtx _ _ _ _).trans (if_pos rfl), rfl, rfl, rfl⟩

theorem keeperView_active (hf : (s.zone k).fence = none) (ha : (s.zone k).active = true) :
    s.keeperView (s.zone k) = ((s.zone k).st, (s.zone k).wp) ∧ (s.zone k).st ≠ .empty := by
  have hst : (s.zone k).st = .implicitOpen ∨ (s.zone k).st = .explicitOpen ∨ (s.zone k).st = .closed := by
    simpa [Zone.active, or_assoc] using ha
  unfold State.keeperView
  rcases hst with hst | hst | hst <;> simp [hst, hf]

/-- A held write to an open zone that goes is accepted, and the zone's write pointer advances (R70). -/
theorem tryZoned_go_held (hgo : (s.tryZoned (some c) x).1 = .go) (hk : x.kind = .write) (hf : (s.zone (zonePlace x.nsid x.slba).1).fence = none)
    (ha : (s.zone (zonePlace x.nsid x.slba).1).active = true) :
    ∃ v y, (s.tryZoned (some c) x).2 = (v.advanceZone (zonePlace x.nsid x.slba).1 c x.nlb).startWrite c ∧ Only acceptParts s v ∧
      v.ctxAt c = some y ∧ y.phase = .fetching ∧ y.kind = .write ∧ y.deadline = none := by
  obtain ⟨hview, hne⟩ := keeperView_active hf ha
  revert hgo
  unfold State.tryZoned
  simp only [hview, hne, hf, hk, reduceCtorEq, ne_eq, not_false_eq_true, if_true, if_false, Option.isSome_none, false_and]
  split
  · exact fun h => nomatch h
  split
  · exact fun h => nomatch h
  split
  · exact fun h => nomatch h
  split
  · exact fun h => nomatch h
  split
  · exact fun h => nomatch h
  · intro _
    obtain ⟨hfst, hkeep, y, hy, hphase, hkind, hdl⟩ := acceptWrite_held s c _ _ _
    exact ⟨_, y, rfl, hkeep, hy, hphase, hkind, hdl⟩

theorem startWrite_write {y : Ctx} (hy : s.ctxAt c = some y) (hk : y.kind = .write) : s.startWrite c = s := by
  unfold State.startWrite
  rw [hy]
  simp [hk]

/-- The write pointer of a zone that a write of `n` LBAs advances (R70). -/
theorem advanceZone_wp {zk n : Nat} (hf : (s.zone zk).fence = none) : ((s.advanceZone zk c n).zone zk).wp = (s.zone zk).wp + n := by
  unfold State.advanceZone
  rw [State.updZone_eq, State.zone_setZone, if_pos rfl]
  simp only [hf]

theorem exec_held_write {u : Nat} (hr : s.running = true) (ht : s.aon.trip = false) (hb : s.bucketsEmpty u = false)
    (hl : s.heldFirst u = [c]) (hx : s.ctxAt c = some x) (hk : x.kind = .write) (hpre : s.precheck x = none) (hz : (s.ns x.nsid).zoned = true)
    (hgo : (s.tryIo (some c) { x with phase := .reading }).1 = .go) (hf : (s.zone (zoneKey x.nsid (x.slba / zsze))).fence = none)
    (ha : (s.zone (zoneKey x.nsid (x.slba / zsze))).active = true) :
    ∃ t y, exec (.heldCommandRetry u) s = .next t ∧ t.ctxAt c = some y ∧ y.phase = .fetching ∧ y.deadline = none ∧
      c ∉ (t.tenant x.tenant).heldCmds ∧
      (t.zone (zoneKey x.nsid (x.slba / zsze))).wp = (s.zone (zoneKey x.nsid (x.slba / zsze))).wp + x.nlb ∧ t.media = s.media ∧ t.out = s.out := by
  have htry : s.tryHeld c x = s.tryZoned (some c) { x with phase := .reading } := by
    unfold State.tryHeld State.tryIo
    simp only [hk, hz, if_true]
  have hcheck : s.heldCheck x = none := by
    unfold State.heldCheck
    simp only [hk, hpre]
  have hgo' : (s.tryZoned (some c) { x with phase := .reading }).1 = .go := by
    unfold State.tryIo at hgo
    simpa only [hk, hz, if_true] using hgo
  obtain ⟨v, y, htried, hkeep, hy, hphase, hkind, hdl⟩ := tryZoned_go_held hgo' hk hf ha
  rw [startWrite_write (y := y) (by exact hy) hkind] at htried
  have hretry : s.retryOne c = (true, (v.advanceZone (zoneKey x.nsid (x.slba / zsze)) c x.nlb).unhold x c) := by
    have hpair : s.tryZoned (some c) { x with phase := .reading } = (.go, v.advanceZone (zoneKey x.nsid (x.slba / zsze)) c x.nlb) :=
      Prod.ext hgo' htried
    unfold State.retryOne
    simp only [hx, hcheck, htry, hpair]
  have hvzone : v.zone (zoneKey x.nsid (x.slba / zsze)) = s.zone (zoneKey x.nsid (x.slba / zsze)) := by
    rw [State.zone, show State.zones _ = _ from hkeep .zones (by decide), State.zone]
  have hall := ((hkeep.andThen (advanceZone_only v (zoneKey x.nsid (x.slba / zsze)) c x.nlb)).andThen (unhold_only _ x c))
  refine ⟨_, y, (exec_heldCommandRetry_one hr ht hb hl).trans (congrArg (fun r : Bool × State => Host.Outcome.next r.2) hretry), hy, hphase, hdl, not_mem_unhold _ _ _, ?_,
    hall .media (by decide), hall .out (by decide)⟩
  exact (advanceZone_wp (s := v) (by rw [hvzone]; exact hf)).trans (by rw [hvzone])

/-- The end of a held command that has no bound raises nothing while no dirty log is kept (R382, R384). -/
theorem finish_quiet (hx : s.ctxAt c = some x) (hdl : x.deadline = none) (hlog : (s.tenant x.hdr.ctrl).logging = false) (st : Status) :
    (s.finish c st).evr = s.evr ∧ (s.finish c st).now = s.now := by
  have hend : (((s.setCtx c none).withdrawReads c).freeBufsOf c).measure x = ((s.setCtx c none).withdrawReads c).freeBufsOf c := by
    unfold State.measure
    rw [hdl]
  have hgone := ((setCtx_only s c none).andThen (withdrawReads_only _ c)).andThen (freeBufsOf_only _ c)
  have hlogs (t : State) (h : (t.tenant x.hdr.ctrl).logging = false) (n : Nat) : t.logWrites x.hdr.ctrl n = t := by
    unfold State.logWrites
    rw [if_neg (by simp [h])]
  have hpost (t : State) (h : (t.tenant x.hdr.ctrl).logging = false) : (t.completeWith x.hdr st 0 0 []).evr = t.evr ∧
      (t.completeWith x.hdr st 0 0 []).now = t.now := by
    unfold State.completeWith
    split
    · exact ⟨rfl, rfl⟩
    simp only
    split
    · exact ⟨rfl, rfl⟩
    · rw [hlogs (t.postCompletion x.hdr st 0 0 []) h]
      have hresp := respond_only (t.postCompletion x.hdr st 0 0 []) x.hdr (dataExtent [])
      exact ⟨hresp .evr (by decide), congrArg Aon.timeNs (hresp .aon (by decide))⟩
  have htenant : ((((s.setCtx c none).withdrawReads c).freeBufsOf c).tenant x.hdr.ctrl).logging = false := by
    simp only [State.tenant, show State.tenants _ = _ from hgone .tenants (by decide)]
    exact hlog
  have hkept : (((s.setCtx c none).withdrawReads c).freeBufsOf c).evr = s.evr ∧ (((s.setCtx c none).withdrawReads c).freeBufsOf c).now = s.now :=
    ⟨hgone .evr (by decide), congrArg Aon.timeNs (hgone .aon (by decide))⟩
  unfold State.finish State.finishWith
  rw [hx]
  simp only [hend]
  split
  · exact hkept
  · exact ⟨(hpost _ htenant).1.trans hkept.1, (hpost _ htenant).2.trans hkept.2⟩

end

end Sys2Proof.Machine
end

section
/-! O44, clause by clause: the outcomes at admission, of a held command, and of the compatibility timers. -/

namespace Sys2Proof.Machine

section
variable {s u : State} {h : Hdr}

theorem exec_io_fetchStopped {slba nlb : Nat} {data : List Block} {p : Instr × Ctx} (ht : s.TakesIo h)
    (hp : p ∈ (s.fetchOne h).ioContexts h slba nlb data) (hstop : (s.fetchOne h).fetchStopped p.2 = true) : exec p.1 s = .next (s.fetchOne h) := by
  rw [exec_ioContexts ht hp, submit_stopped hstop]

theorem exec_packed_fetchStopped {a ng : Nat} {close : Bool} {p : Instr × Ctx} (ht : s.TakesIo h)
    (hp : p ∈ (s.fetchOne h).packedContexts h a ng close) (hstop : (s.fetchOne h).fetchStopped p.2 = true) :
    exec p.1 s = .next (s.fetchOne h) := by
  rw [exec_packedContexts ht hp, submitPacked_stopped hstop]

/-- The refusal of a command that was taken from its queue. -/
theorem fetchOne_complete (ht : s.TakesIo h) (st : Status) :
    Posted s ((s.fetchOne h).complete h st) h st 0 0 ∧ Only (.sqs :: postParts) s ((s.fetchOne h).complete h st) := by
  have hfetch := fetchOne_only s h
  exact ⟨complete_posted (ht.unmuted (hfetch .ctrls (by decide))) (hfetch .completions (by decide)) _,
    (hfetch.andThen (complete_only _ _ _)).mono (by decide)⟩

/-- The head of the queue moves on; what decides over the completion stays. -/
theorem fetchOne_muted (s : State) (h : Hdr) : (s.fetchOne h).muted h = s.muted h := by
  unfold State.fetchOne
  simp only
  split
  · rfl
  · simp only [State.muted, State.ctrl, State.conn, State.sq_setSq, if_true]
    rfl

theorem exec_io_hold {c : Instr} {a n f : Nat} {b : Bool} {data : List Block} {rs : List (Nat × Nat)} (hc : c ∈ ioCommands h a n f b data rs)
    (hf : s.fetches h.ctrl = true) (hs : s.flt.stop = 0) (hh : s.inHold = true) (hm : s.muted h = false) :
    ∃ t, exec c s = .next t ∧ Posted s t h .notReady 0 0 ∧ Only (.sqs :: postParts) s t := by
  obtain ⟨run, hrun⟩ := exec_ioCommands hc
  have hfetch := fetchOne_only s h
  have hmuted : (s.fetchOne h).muted h = false := (fetchOne_muted s h).trans hm
  exact ⟨_, (hrun s).trans (congrArg _ (io_hold run hf hs hh)), complete_posted hmuted (hfetch .completions (by decide)) _,
    (hfetch.andThen (complete_only _ _ _)).mono (by decide)⟩

/-- The outcomes of a read or write that reaches its trial and does not go (R213). -/
theorem exec_io_settled {slba nlb : Nat} {data : List Block} {p : Instr × Ctx} (hp : p ∈ (s.fetchOne h).ioContexts h slba nlb data)
    (ha : s.AtAdmission h p.2 u) (hpre : (s.fetchOne h).precheck p.2 = none) : exec p.1 s = .next (settleVerdict p.2 (u.tryIo none p.2)) := by
  rw [exec_ioContexts ha.takes hp, ha.submit hpre]

/-- A command of a compatibility tenant that cannot go yet is held (R380). -/
theorem submit_holds {x : Ctx} (hu : u = (s.fetchOne h).accrue x) (hstop : (s.fetchOne h).fetchStopped x = false)
    (hpre : (s.fetchOne h).precheck x = none) (hcool : s.aon.trip = false) (harmed : ∀ zk, (s.zone zk).rearm = 0)
    (hwhy : ((u.stepOne x).passes = true ∧ (u.behindHeld x = true ∨ u.bucketsEmpty x.tenant = true)) ∨
      (u.behindHeld x = false ∧ u.bucketsEmpty x.tenant = false ∧ ∃ l, (u.tryIo none x).1 = .later l)) :
    ∃ (v : State) (l : Lack), (s.fetchOne h).submit x = v.declineOrHold x l ∧ Only ([.sqs, .tenants] ++ triedParts) s v := by
  have hkept : Only [.sqs, .tenants] s u := by rw [hu]; exact (fetchOne_only _ _).andThen (accrue_only _ _)
  have harmed' (zk : Nat) : ((s.fetchOne h).zone zk).rearm = 0 := by simpa [State.zone] using harmed zk
  rcases hwhy with ⟨hpass, hwait⟩ | ⟨hfirst, htokens, l, hlater⟩
  · refine ⟨u, none, ?_, hkept.mono (by decide)⟩
    have hcond : (((u.stepOne x).passes && (u.behindHeld x || u.bucketsEmpty x.tenant)) = true) := by
      rcases hwait with hwait | hwait <;> simp [hpass, hwait]
    unfold State.submit
    simp [hstop, hpre, hcool, harmed', ← hu, hcond]
  · refine ⟨(u.tryIo none x).2, l, ?_, hkept.andThen (tryIo_tried _ _ _ (by simp [hlater]))⟩
    unfold State.submit settleVerdict
    simp [hstop, hpre, hcool, harmed', ← hu, hfirst, htokens, hlater]

theorem exec_packed_settled {a ng : Nat} {close : Bool} {p : Instr × Ctx} (hp : p ∈ (s.fetchOne h).packedContexts h a ng close)
    (ht : s.TakesIo h) (hu : u = (s.fetchOne h).accrue p.2) (hstop : (s.fetchOne h).fetchStopped p.2 = false)
    (hpre : (s.fetchOne h).packedCheck h p.2.slba (p.2.kind == .packedAppend) = none) (hcool : s.aon.trip = false)
    (harmed : (s.zone (zoneKey h.nsid (p.2.slba / zsze))).rearm = 0) (hfirst : u.behindHeld p.2 = false)
    (htokens : u.bucketsEmpty p.2.tenant = false) : exec p.1 s = .next (settleVerdict p.2 (u.tryPacked none p.2)) := by
  obtain ⟨hhdr, -, hns⟩ := packedContexts_hdr hp
  have harmed' : ((s.fetchOne h).zone (zonePlace p.2.nsid p.2.slba).1).rearm = 0 := by
    change ((s.fetchOne h).zone (zoneKey p.2.nsid (p.2.slba / zsze))).rearm = 0
    rw [hns]
    simpa [State.zone] using harmed
  rw [exec_packedContexts ht hp]
  unfold State.submitPacked
  simp [hstop, hhdr, hpre, hcool, harmed', ← hu, hfirst, htokens]

theorem settleVerdict_only (x : Ctx) (r : Verdict × State) : Only ([.tmk, .tenantBase, .mem, .ctxs, .nextCtx] ++ postParts) r.2 (settleVerdict x r) := by
  unfold settleVerdict
  split
  · exact (complete_only _ _ _).mono (by decide)
  · exact (completeWith_only _ _ _ _ _ _).mono (by decide)
  · exact (decline_only _ _ _ _ _).mono (by decide)
  · unfold State.declineOrHold
    split
    · exact ((openCtx_only _ _).andThen (setTenant_only _ _ _)).mono (by decide)
    · exact (decline_only _ _ _ _ _).mono (by decide)
  · exact .refl

end

section
variable {s : State} {c : Nat} {x : Ctx}

/-- What becomes of the only held command of a turn (R380). -/
theorem retryOne_outcomes (hx : s.ctxAt c = some x) (hd : x.discard = false) (hm : s.muted x.hdr = false) :
    (∀ st, s.heldCheck x = some st → Posted s (s.retryOne c).2 x.hdr st 0 0 ∧ (s.retryOne c).2.ctxAt c = none ∧
      c ∉ ((s.retryOne c).2.tenant x.tenant).heldCmds ∧ (s.retryOne c).2.zones = s.zones ∧ (s.retryOne c).2.media = s.media) ∧
    (∀ st, s.heldCheck x = none → (s.tryHeld c x).1 = .refuse st → Posted s (s.retryOne c).2 x.hdr st 0 0 ∧ (s.retryOne c).2.ctxAt c = none ∧
      c ∉ ((s.retryOne c).2.tenant x.tenant).heldCmds ∧ (s.retryOne c).2.media = s.media) ∧
    (∀ us, s.heldCheck x = none → (s.tryHeld c x).1 = .energy us → Posted s (s.retryOne c).2 x.hdr .energyLow (min 1000000 (max 1 us)) 0 ∧
      (s.retryOne c).2.ctxAt c = none ∧ c ∉ ((s.retryOne c).2.tenant x.tenant).heldCmds ∧ (s.retryOne c).2.media = s.media) ∧
    (∀ l, s.heldCheck x = none → (s.tryHeld c x).1 = .now l → Posted s (s.retryOne c).2 x.hdr .boundUnavailable (min 1000000 (max 1 l.tryUs)) 0 ∧
      (s.retryOne c).2.ctxAt c = none ∧ c ∉ ((s.retryOne c).2.tenant x.tenant).heldCmds ∧ (s.retryOne c).2.media = s.media) ∧
    (∀ l, s.heldCheck x = none → (s.tryHeld c x).1 = .later l → (s.retryOne c).2 = s) ∧
    (∀ v, s.heldCheck x = none → s.tryHeld c x = (.go, v) → (s.retryOne c).2 = v.unhold x c) := by
  have htried (hne : (s.tryHeld c x).1 ≠ .go) : Only triedParts s (s.tryHeld c x).2 := tryHeld_tried s x c hne
  refine ⟨fun st hst => ?_, fun st hok hv => ?_, fun us hok hv => ?_, fun l hok hv => ?_, fun l hok hv => ?_, fun v hok hv => ?_⟩
  · have heq : (s.retryOne c).2 = (s.unhold x c).finishWith c st 0 0 [] := by
      unfold State.retryOne
      simp only [hx, hst]
      rfl
    rw [heq]
    obtain ⟨hpost, hgone, hlist, hkeep⟩ := unhold_finish hx hd hm (t := s) .refl st 0 0
    exact ⟨hpost, hgone, hlist, hkeep .zones (by decide), hkeep .media (by decide)⟩
  · have heq : (s.retryOne c).2 = ((s.tryHeld c x).2.unhold x c).finishWith c st 0 0 [] := by
      rw [show s.tryHeld c x = (.refuse st, (s.tryHeld c x).2) from Prod.ext hv rfl]
      unfold State.retryOne
      rw [hx]
      simp only [hok]
      rw [show s.tryHeld c x = (.refuse st, (s.tryHeld c x).2) from Prod.ext hv rfl]
      rfl
    rw [heq]
    obtain ⟨hpost, hgone, hlist, hkeep⟩ := unhold_finish hx hd hm (htried (by simp [hv])) st 0 0
    exact ⟨hpost, hgone, hlist, hkeep .media (by decide)⟩
  · have heq : (s.retryOne c).2 = ((s.tryHeld c x).2.unhold x c).finishWith c .energyLow (min longestWaitUs (max 1 us)) 0 [] := by
      unfold State.retryOne
      rw [hx]
      simp only [hok]
      rw [show s.tryHeld c x = (.energy us, (s.tryHeld c x).2) from Prod.ext hv rfl]
    rw [heq]
    obtain ⟨hpost, hgone, hlist, hkeep⟩ := unhold_finish hx hd hm (htried (by simp [hv])) .energyLow (min longestWaitUs (max 1 us)) 0
    exact ⟨hpost, hgone, hlist, hkeep .media (by decide)⟩
  · have heq : (s.retryOne c).2 = (((s.tryHeld c x).2.unhold x c).squash c).decline x.hdr x.tenant x.cls l.tryUs := by
      unfold State.retryOne
      rw [hx]
      simp only [hok]
      rw [show s.tryHeld c x = (.now l, (s.tryHeld c x).2) from Prod.ext hv rfl]
    rw [heq]
    obtain ⟨hpost, hgone, hlist, hkeep⟩ := unhold_decline hx hm (htried (by simp [hv])) l.tryUs
    exact ⟨hpost, hgone, hlist, hkeep .media (by decide)⟩
  · unfold State.retryOne
    rw [hx]
    simp only [hok]
    rw [show s.tryHeld c x = (.later l, (s.tryHeld c x).2) from Prod.ext hv rfl]
  · unfold State.retryOne
    rw [hx]
    simp only [hok, hv]

/-- Whether the event of an expired hold is due again (R382). -/
def State.holdEventDue (s : State) (u : Nat) : Bool := !((s.tenant u).holdEventAt.any fun e => decide (s.now < e + 1000000000))

/-- No time within `k` before `n` (stated for any `k`, so that no numeral is computed with). -/
theorem not_any_lt_add_iff (o : Option Nat) (n k : Nat) :
    (!(o.any fun e => decide (n < e + k))) = true ↔ ∀ e, o = some e → e + k ≤ n := by
  cases o <;> simp

theorem holdEventDue_iff (s : State) (u : Nat) :
    s.holdEventDue u = true ↔ ∀ e, (s.tenant u).holdEventAt = some e → e + 1000000000 ≤ s.now :=
  not_any_lt_add_iff _ _ _

/-- The event of an expired hold, at most once in a second (R382). -/
def State.holdEvent (s : State) (u : Nat) : State :=
  if s.holdEventDue u then (s.setTenant u { s.tenant u with holdEventAt := some s.now }).raise 0x0B07 s.srcStarters u 1
    (max 1 (s.cfg .tntHold u 15 0)) 0
  else s

theorem holdEvent_only (s : State) (u : Nat) : Only [.tenants, .tenantBase, .evr, .aon] s (s.holdEvent u) :=
  .ite ((setTenant_only _ _ _).andThen (raise_only _ _ _ _ _ _ _))

theorem holdEvent_tenant (s : State) (u : Nat) : (s.holdEvent u).tenant u =
    if s.holdEventDue u then { s.tenant u with holdEventAt := some s.now } else s.tenant u := by
  unfold State.holdEvent
  split
  · have hraise (v : State) (code src a b c d : Nat) : (v.raise code src a b c d).tenant u = v.tenant u := by simp [State.tenant]
    rw [hraise, State.tenant_setTenant, if_pos rfl]
  · rfl

theorem holdEvent_recorded {v : State} {u : Nat} (hdue : v.holdEventDue u = true) (hroom : v.roomForEvents) (hnow : v.now = s.now) :
    Recorded s (v.holdEvent u) 0x0B07 v.srcStarters u 1 (max 1 (v.cfg .tntHold u 15 0)) 0 := by
  unfold State.holdEvent
  rw [if_pos hdue]
  exact recorded_raise (by exact hroom) (by exact hnow) (by decide) _ _ _ _ _

theorem exec_compatHoldExpiry (hx : s.ctxAt c = some x) (hp : x.phase = .held) :
    exec (.compatHoldExpiry c) s = .next (((s.unhold x c).finish c .interrupted).holdEvent x.tenant) := by
  unfold State.holdEvent State.holdEventDue
  change Host.Outcome.next (match s.ctxAt c with | none => s | some x => _) = _
  rw [hx]
  simp only [hp, ne_eq, not_true_eq_false, if_false]
  congr 1
  split <;> simp_all

theorem exec_compatHoldExpiry_idle (h : ∀ x, s.ctxAt c = some x → x.phase ≠ .held) : exec (.compatHoldExpiry c) s = .next s := by
  change Host.Outcome.next (match s.ctxAt c with | none => s | some x => _) = _
  split
  · rfl
  · rename_i x hx
    rw [if_pos (h x hx)]

end

end Sys2Proof.Machine
end

section
/-! O44 settled. -/

namespace Sys2Proof.Machine

theorem cfg_congr {s t : State} (h : t.regs = s.regs) (r : Reg) (i hi lo : Nat) : t.cfg r i hi lo = s.cfg r i hi lo := by
  simp only [State.cfg, State.cfgWord, h]

theorem srcStarters_congr {s t : State} (h : t.flt = s.flt) : t.srcStarters = s.srcStarters := by
  simp only [State.srcStarters, h]

/-- The expiry of a hold ends the command and takes it off its tenant's list; its event comes when it is due (R382). -/
theorem compatHoldExpiry_ends {s : State} {c : Nat} {x : Ctx} (hx : s.ctxAt c = some x) (hp : x.phase = .held) (hd : x.discard = false)
    (hdl : x.deadline = none) (hm : s.muted x.hdr = false) :
    ∃ t, exec (.compatHoldExpiry c) s = .next t ∧ Posted s t x.hdr .interrupted 0 0 ∧ t.ctxAt c = none ∧ c ∉ (t.tenant x.tenant).heldCmds ∧
      t.zones = s.zones ∧ t.media = s.media ∧
      (∀ e, (s.tenant x.tenant).holdEventAt = some e → s.now < e + 1000000000 → (t.tenant x.tenant).holdEventAt = some e) ∧
      ((∀ e, (s.tenant x.tenant).holdEventAt = some e → e + 1000000000 ≤ s.now) → (t.tenant x.tenant).holdEventAt = some s.now ∧
        ((∀ u, (s.tenant u).logging = false) → s.roomForEvents →
          Recorded s t 0x0B07 s.srcStarters x.tenant 1 (max 1 (s.cfg .tntHold x.tenant 15 0)) 0)) := by
  obtain ⟨hpost, hgone, hlist, hkeep⟩ := unhold_finish hx hd hm (t := s) .refl .interrupted 0 0
  have hunhold := unhold_only s x c
  have hquiet (hlog : ∀ u, (s.tenant u).logging = false) : ((s.unhold x c).finish c .interrupted).evr = s.evr := by
    have hctx : (s.unhold x c).ctxAt c = some x := by
      rw [State.ctxAt, show Work.ctxs _ = _ from hunhold .ctxs (by decide)]
      exact hx
    have hlog' : ((s.unhold x c).tenant x.hdr.ctrl).logging = false := by
      unfold State.unhold
      rw [State.updTenant_eq, State.tenant_setTenant]
      split <;> exact hlog _
    exact (finish_quiet hctx hdl hlog' _).1.trans (hunhold .evr (by decide))
  have hevent : (((s.unhold x c).finish c .interrupted).tenant x.tenant).holdEventAt = (s.tenant x.tenant).holdEventAt := by
    have hbase := finishWith_only (s.unhold x c) c .interrupted 0 0 [] .tenantBase (by decide) x.tenant
    refine ((congrArg Tenant.holdEventAt hbase :)).trans ?_
    unfold State.unhold
    rw [State.updTenant_eq, State.tenant_setTenant, if_pos rfl]
    rfl
  rw [exec_compatHoldExpiry hx hp]
  change Posted s ((s.unhold x c).finish c .interrupted) x.hdr .interrupted 0 0 at hpost
  generalize hv : (s.unhold x c).finish c .interrupted = v at *
  change (s.unhold x c).finishWith c .interrupted 0 0 [] = v at hv
  rw [hv] at hgone hlist hkeep
  have hnow : v.now = s.now := (congrArg Aon.timeNs (hkeep .always (by decide)) :)
  have hdue : v.holdEventDue x.tenant = s.holdEventDue x.tenant := by
    simp only [State.holdEventDue, hevent, hnow]
  have hafter := holdEvent_only v x.tenant
  have hall := hkeep.andThen hafter
  have htenant := holdEvent_tenant v x.tenant
  obtain ⟨comp, hout, hrest⟩ := hpost
  refine ⟨_, rfl, ⟨comp, Eq.trans (hafter .completions (by decide)) hout, hrest⟩, ?_, ?_, hall .zones (by decide), hall .media (by decide), ?_, ?_⟩
  · rw [State.ctxAt, show Work.ctxs _ = _ from hafter .ctxs (by decide)]
    exact hgone
  · rw [htenant]
    split <;> exact hlist
  · intro e he hlt
    have hnot : ¬ v.holdEventDue x.tenant = true := fun hd' => Nat.not_le.2 hlt ((holdEventDue_iff s _).1 (hdue ▸ hd') e he)
    rw [htenant, if_neg hnot, hevent, he]
  · intro hold
    have hd' : v.holdEventDue x.tenant = true := hdue.trans ((holdEventDue_iff s _).2 hold)
    refine ⟨by rw [htenant, if_pos hd', hnow], fun hlog hroom => ?_⟩
    have hrec := holdEvent_recorded (s := s) hd' (by unfold State.roomForEvents; rw [hquiet hlog]; exact hroom) hnow
    rwa [srcStarters_congr (hkeep .flt (by decide)), cfg_congr (hkeep .regs (by decide))] at hrec

theorem exec_compatBucketRefill {s : State} {u : Nat} (hr : s.running = true) (hc : (s.tenant u).compat = true) :
    exec (.compatBucketRefill u) s = .next (s.fillCompat u) := by
  change Host.Outcome.next (if s.running && (s.tenant u).compat then s.fillCompat u else s) = _
  rw [hr, hc]
  rfl

theorem exec_compatBucketRefill_idle {s : State} {u : Nat} (h : s.running = false ∨ (s.tenant u).compat = false) :
    exec (.compatBucketRefill u) s = .next s := by
  change Host.Outcome.next (if s.running && (s.tenant u).compat then s.fillCompat u else s) = _
  rcases h with h | h <;> simp [h]

/-- What a bound report changes besides its completion: at most the counts of the tenant that it names (R228). -/
theorem cleared_tmk (s : State) (h : Hdr) (clear : Bool) (v : Nat) (d : List FieldVal) :
    (((s.fetchOne h).cleared clear v).completeWith h .success 0 0 d).tmk = s.tmk :=
  (((fetchOne_only s h).andThen (cleared_only _ clear v)).andThen (completeWith_only _ _ _ _ _ _)) .tmk (by decide)

/-- Settles O44. -/
theorem boundsAndHeldCommands : Obligations.BoundsAndHeldCommands := by
  unfold Obligations.BoundsAndHeldCommands
  refine ⟨?computed, ?notComputing, ?ownReport, ?anyReport, ?deniedReport, ?notFetched, ?hold, ?noRoom, ?noRoomPacked, ?wrong, ?wrongPacked,
    ?refused, ?energy, ?declined, ?held, ?packed, ?heldWrite, ?firstHeld, ?noneHeld, ?oneHeld, ?expired, ?notHeld, ?refilled, ?notRefilled⟩
  case computed =>
    intro s hrun hcomp
    have hset := onTmk_only s fun k => { k with computing := false, next := some s.withPendingBounds.computeSets }
    have hkeep := hset.andThen (raiseComputed_only _ s.withPendingBounds.computeSets)
    refine ⟨_, exec_boundSetComputeDone hrun hcomp, raiseComputed_only _ _ .tmk (by decide), hkeep .regs (by decide), hkeep .tenants (by decide),
      hkeep .out (by decide), fun b hb hroom => ?_⟩
    unfold State.raiseComputed
    have hband : (s.onTmk fun k => { k with computing := false, next := some s.withPendingBounds.computeSets }).aon.band = s.aon.band := rfl
    rw [hband, hb]
    exact recorded_raise (by exact hroom) rfl (by decide) _ _ _ _ _
  case notComputing => exact fun s h => exec_boundSetComputeDone_idle h
  case ownReport =>
    intro h u s ht
    have hhost := ht.host
    obtain ⟨c, hc, hcid, hsct, hsc, hdata⟩ := boundReport_answers (s := s) (h := h) false (s.tenantOf h.ctrl) fun t => ht.unmuted
    refine ⟨_, c, exec_boundReport false false u (ht.run ·) (by simp), ?_⟩
    simp only [hhost, Bool.false_eq_true, if_false]
    exact ⟨hc, hcid, hsct, hsc, hdata, cleared_tmk _ _ _ _ _⟩
  case anyReport =>
    intro h sel clear u v s hwho hv
    have hrun (run : State → State) : s.admin ruleBoundReport h run = run (s.fetchOne h) := by
      rcases hwho with ⟨ht, -⟩ | ⟨hmc, hserves, hnsid⟩
      · exact ht.run run
      · exact State.admin_taken run (by simpa [hmc] using hserves) (.inr rfl) (by simp [AdminRule.permits, ruleBoundReport, hmc]) (by simp [hmc])
          fun _ => hnsid
    have hunmuted (t : State) (hctrls : t.ctrls = s.ctrls) : t.muted h = false := by
      rcases hwho with ⟨ht, -⟩ | ⟨hmc, -⟩
      · exact ht.unmuted hctrls
      · exact muted_of_mc hmc t
    have hown : (if h.mc then 0 else s.tenantOf h.ctrl) = 0 := by
      rcases hwho with ⟨-, hzero⟩ | ⟨hmc, -⟩
      · simp [hzero]
      · simp [hmc]
    have hexec := exec_boundReport (s := s) (h := h) sel clear u hrun (by simp [hown])
    rw [hown, ← hv] at hexec
    obtain ⟨c, hc, hcid, hsct, hsc, hdata⟩ := boundReport_answers clear v hunmuted
    obtain ⟨l, o, htenant⟩ := boundReport_tenant (s := s) (h := h) clear v (s.boundReport v)
    refine ⟨_, c, hexec, hc, hcid, hsct, hsc, hdata, ?_⟩
    rw [htenant]
    cases clear <;> exact ⟨rfl, rfl, rfl, rfl, rfl, cleared_tmk _ _ _ _ _⟩
  case deniedReport =>
    intro h u sel c s ht hne hask
    have hfetch := fetchOne_only s h
    have heq : exec (.boundReport h sel u c) s = .next ((s.fetchOne h).complete h .invalidField) := by
      refine congrArg Host.Outcome.next ((ht.run _).trans ?_)
      simp [hask, ht.host, hne]
    exact ⟨_, heq, complete_posted (ht.unmuted (hfetch .ctrls (by decide))) (hfetch .completions (by decide)) _,
      (hfetch.andThen (complete_only _ _ _)) .tmk (by decide)⟩
  case notFetched =>
    intro c h a n f b data rs s hc hs
    obtain ⟨run, hrun⟩ := exec_ioCommands hc
    rw [hrun, io_notFetched run hs]
  case hold =>
    intro c h a n f b data rs s hc hf hs hh hm
    obtain ⟨t, hexec, hpost, hkeep⟩ := exec_io_hold hc hf hs hh hm
    exact ⟨t, hexec, hpost, hkeep .zones (by decide), hkeep .media (by decide), hkeep .nss (by decide)⟩
  case noRoom => exact fun h slba nlb data p s hp ht hstop => exec_io_fetchStopped ht hp hstop
  case noRoomPacked => exact fun h a ng close p s hp ht hstop => exec_packed_fetchStopped ht hp hstop
  case wrong =>
    intro h slba nlb data st p s hp ht hstop hpre
    obtain ⟨hpost, hkeep⟩ := fetchOne_complete ht st
    refine ⟨_, ?_, hpost, hkeep .zones (by decide), hkeep .media (by decide), hkeep .nss (by decide)⟩
    rw [exec_ioContexts ht hp, submit_wrong hstop hpre, ioContexts_hdr hp]
  case wrongPacked =>
    intro h a ng close st p s hp ht hstop hpre
    obtain ⟨hpost, hkeep⟩ := fetchOne_complete ht st
    obtain ⟨hhdr, -, -⟩ := packedContexts_hdr hp
    refine ⟨_, ?_, hpost, hkeep .zones (by decide), hkeep .media (by decide), hkeep .nss (by decide)⟩
    rw [exec_packedContexts ht hp, submitPacked_wrong hstop (by rw [hhdr]; exact hpre), hhdr]
  case refused =>
    intro h slba nlb data st p s u hp ha hpre hv
    obtain ⟨hpost, hkeep⟩ := (settle_posts ha.takes ha.only (tryIo_tried u none p.2) (ioContexts_hdr hp)).1 st hv
    exact ⟨_, exec_io_settled hp ha hpre, hpost, hkeep .media (by decide), hkeep .nss (by decide)⟩
  case energy =>
    intro h slba nlb us data p s u hp ha hpre hv
    obtain ⟨hpost, hkeep⟩ := (settle_posts ha.takes ha.only (tryIo_tried u none p.2) (ioContexts_hdr hp)).2.1 us hv
    exact ⟨_, exec_io_settled hp ha hpre, hpost, hkeep .zones (by decide), hkeep .media (by decide), hkeep .nss (by decide)⟩
  case declined =>
    intro h slba nlb l data p s u hp ha hpre hv
    obtain ⟨hpost, hkeep⟩ := (settle_posts ha.takes ha.only (tryIo_tried u none p.2) (ioContexts_hdr hp)).2.2 l hv
    exact ⟨_, exec_io_settled hp ha hpre, hpost, hkeep .zones (by decide), hkeep .media (by decide), hkeep .nss (by decide)⟩
  case held =>
    intro h slba nlb data p s u hp ht hu hstop hpre hcool harmed hc hwhy
    obtain ⟨v, l, hsub, hkept⟩ := submit_holds hu hstop hpre hcool harmed hwhy
    obtain ⟨hctx, hlist, hkeep⟩ := declineOrHold_holds hkept hc l
    refine ⟨_, (exec_ioContexts ht hp).trans (congrArg _ hsub), hctx, hlist, hkeep .out (by decide), hkeep .zones (by decide),
      hkeep .media (by decide), hkeep .nss (by decide)⟩
  case packed =>
    intro h a ng close p s u hp ht hu hstop hpre hcool harmed hfirst htokens
    have hkept : Only [.sqs, .tenants] s u := by rw [hu]; exact (fetchOne_only _ _).andThen (accrue_only _ _)
    have hall := (hkept.andThen (tryPacked_only u none p.2)).andThen (settleVerdict_only p.2 (u.tryPacked none p.2))
    have hposts := settle_posts ht hkept (tryPacked_tried u none p.2) (packedContexts_hdr hp).1
    obtain ⟨hrefuse, henergy, hdecline⟩ := hposts
    refine ⟨_, exec_packed_settled hp ht hu hstop hpre hcool harmed hfirst htokens, hall .media (by decide), hall .nss (by decide),
      fun st hv => (hrefuse st hv).1, fun us hv => (henergy us hv).1, fun l hv => (hdecline l hv).1, fun l hv hc => ?_⟩
    have hsettle : settleVerdict p.2 (u.tryPacked none p.2) = (u.tryPacked none p.2).2.declineOrHold p.2 l := by
      unfold settleVerdict
      rw [hv]
    obtain ⟨-, hlist, hkeep⟩ := declineOrHold_holds (x := p.2) (hkept.andThen (tryPacked_tried u none p.2 (by simp [hv]))) hc l
    rw [hsettle]
    exact ⟨hlist, hkeep .out (by decide)⟩
  case heldWrite =>
    intro u c x s hr ht hb hl hx hk hpre hz hgo hf ha
    exact exec_held_write hr ht hb hl hx hk hpre hz hgo hf ha
  case firstHeld => exact fun u c cs rest s v hr ht hb hl hcs hc => exec_heldCommandRetry_first hr ht hb hl hcs hc
  case noneHeld =>
    intro u s h
    rw [exec_heldCommandRetry]
    rcases h with h | h | h | h
    · simp [h]
    · simp [h]
    · simp [h]
    · rw [retryFold_skip s _ h, ite_self]
  case oneHeld =>
    intro u c x s hr ht hb hl hx hd hdl hm
    exact ⟨_, exec_heldCommandRetry_one hr ht hb hl, retryOne_outcomes hx hd hm⟩
  case expired => exact fun c x s hx hp hd hdl hm => compatHoldExpiry_ends hx hp hd hdl hm
  case notHeld => exact fun c s h => exec_compatHoldExpiry_idle h
  case refilled =>
    intro u s hr hc
    have hother (n : Nat) : (s.fillCompat u).tenant n = if n = u then
        { s.tenant u with kiops := s.cfg .tntCompat u 31 16, bw := s.cfg .tntCompat u 15 8 * 1000000 } else s.tenant n := by
      unfold State.fillCompat
      rw [State.updTenant_eq, State.tenant_setTenant]
    refine ⟨_, exec_compatBucketRefill hr hc, ?_, ?_, fun v hv => ?_, rfl, rfl⟩
    · rw [hother, if_pos rfl]
    · rw [hother, if_pos rfl]
    · rw [hother, if_neg hv]
  case notRefilled => exact fun u s h => exec_compatBucketRefill_idle h

end Sys2Proof.Machine
end

section

/-! O11 is refuted. Its clause of the end of the drain of a PCIe controller leaves open that a tenant destruction waits for that drain: the
destruction closes the tenant's connections, and a connection whose admin queue is that controller's starts its drain again (R374, R378). -/

namespace Sys2Proof.Machine

/-- The Tenant Share Set command that destroys tenant 5 and waits for the drain of its controllers. -/
def destroyHdr : Hdr := ⟨0, 0, 3, 0, false, false, none⟩

/-- Tenant 5 is being destroyed, and its PCIe controller 5 drains with nothing left of it. A connection of the tenant carries the admin queue
of controller 5. -/
def destroyedWhileConnected : State :=
  { aon := { on := true, domainOn := 2 }, power := { mode := .stride, inReset := false },
    ctrls := [(5, { present := true, drain := some 0 })], tenants := [(5, { st := .resetting, ending := some (destroyHdr, true) })],
    fab := { conns := [(1, { up := true, tenant := 5, ctrl := some 5, qid := 0 })] } }

/-- The drain that a controller is in after a command. -/
def drainAfter (c : Nat) : Host.Outcome State Fault Refusal → Option Nat
  | .next t => (t.ctrl c).drain
  | _ => none

/-- The drain of controller 5 ends, and the end of the destruction starts it again. -/
theorem resetDrainDone_destroyedWhileConnected : drainAfter 5 (exec (.resetDrainDone 5) destroyedWhileConnected) = some 0 := by
  decide +kernel

/-- Refutes O11: the end of a drain that a destruction waits for does not leave the controller outside a drain where a connection of the
tenant carries its admin queue (`resetDrainDone_destroyedWhileConnected`). -/
theorem not_controllerEnableAndReset : ¬ Obligations.ControllerEnableAndReset := by
  unfold Obligations.ControllerEnableAndReset
  rintro ⟨-, -, -, -, -, -, -, -, -, -, -, hEnd, -⟩
  obtain ⟨t, hexec, -, -, hdrain, -⟩ := hEnd 5 0 destroyedWhileConnected (by decide) (by decide) (by decide) (by decide)
  have hagain := resetDrainDone_destroyedWhileConnected
  rw [hexec] at hagain
  simp [drainAfter, hdrain] at hagain

end Sys2Proof.Machine
end

section
/-! A write's data as they arrive from the host and pass the cipher engine (R203, R249, R266, R270). -/

namespace Sys2Proof.Machine

section
variable {s : State} {c n : Nat} {x : Ctx}

theorem ctxAt_congr {s t : State} (h : t.work.ctxs = s.work.ctxs) (n : Nat) : t.ctxAt n = s.ctxAt n := by
  simp only [State.ctxAt, h]

theorem updCtx_ctxAt (hx : s.ctxAt c = some x) (f : Ctx → Ctx) (n : Nat) :
    (s.updCtx c f).ctxAt n = if n = c then some (f x) else s.ctxAt n := by
  simp only [State.updCtx, hx, State.ctxAt_setCtx]

theorem hostAllowance_only (s : State) (c : Nat) (x : Ctx) :
    Only [.work, .ctxs, .tenants, .tenantBase, .evr, .aon] s (s.hostAllowance c x) := by
  unfold State.hostAllowance
  simp only
  refine Only.ites .refl (Only.ites ?_ ?_)
  · exact (setCtx_only _ _ _).mono (by decide)
  · exact ((setCtx_only _ _ _).andThen ((setTenant_only _ _ _).andThen (raise_only _ _ _ _ _ _ _))).mono (by decide)

/-- The host's allowance moves the deadline of the command and nothing else of it (R239). -/
theorem hostAllowance_ctxAt (hx : s.ctxAt c = some x) : ∃ d, (s.hostAllowance c x).ctxAt c = some { x with deadline := d } := by
  unfold State.hostAllowance
  simp only
  generalize (if s.overRdma x.hdr then s.cfg .tmkHostCfg 0 31 16 else s.cfg .tmkHostCfg 0 15 0) = allow
  split
  · exact ⟨x.deadline, hx⟩
  refine ⟨x.deadline.map (· + (s.now - x.startNs - allow * 1000)), ?_⟩
  have hset (v : Ctx) : (s.setCtx c (some v)).ctxAt c = some v := (State.ctxAt_setCtx _ _ _ _).trans (if_pos rfl)
  split
  · exact hset _
  · exact (ctxAt_congr (((setTenant_only _ _ _).andThen (raise_only _ _ _ _ _ _ _)) .ctxs (by decide)) c).trans (hset _)

theorem cipherWrite_ctxAt (hx : s.ctxAt c = some x) : (s.cipherWrite c).ctxAt c = some { x with phase := .ciphering } := by
  simp only [State.cipherWrite, hx]
  exact (addUnits_ctxAt _ _ _ _ _ _).trans ((State.ctxAt_setCtx _ _ _ _).trans (if_pos rfl))

/-- What a requested baton can touch: the broker knows it. -/
theorem requestBaton_only (s : State) (op : HeavyOp) : Only [.broker] s (s.requestBaton op) := by
  unfold State.requestBaton
  exact Only.ites .refl (onBroker_only _ _)

theorem requestBaton_knows (h : s.hasCompression = true) (c : Nat) : (s.requestBaton (.burst c)).broker.knows (.burst c) = true := by
  unfold State.requestBaton
  simp only [h, Bool.not_true, Bool.false_or]
  split
  case isTrue hk => exact hk
  case isFalse hk => simp [State.onBroker, Broker.knows]

/-- The blocks that a command keeps of its data: the first bytes of each, to the width of the format (R203). -/
def fetchedData (width n : Nat) (data : List Block) : List (Nat × Block) :=
  (List.range n).map fun i => (i, BitVec.ofNat 32896 ((data.getD i 0).toNat % 2 ^ width))

theorem map_getD_range {α : Type} (n : Nat) (f : Nat → α) (d : α) :
    ((List.range n).map fun i => (i, ((List.range n).map f).getD i d)) = (List.range n).map fun i => (i, f i) := by
  refine List.map_congr_left fun i hi => ?_
  simp [List.getD_eq_getElem?_getD, List.mem_range.mp hi]

theorem fetchedData_eq (width n : Nat) (data : List Block) : fetchedData width n data = (List.range n).map fun i =>
    (i, ((List.range n).map fun i => BitVec.ofNat 32896 ((data.getD i 0).toNat % 2 ^ width)).getD i 0) :=
  (map_getD_range n _ 0).symm

/-- The data of a write are kept and go to the cipher engines. -/
theorem exec_hostDataArrival_write (hx : s.ctxAt c = some x) (hp : x.phase = .fetching) (hk : x.kind ≠ .packedAppend) (data : List Block) :
    exec (.hostDataArrival c true data) s = .next (((s.hostAllowance c x).updCtx c fun y =>
      { y with data := fetchedData (8 * (4096 + mdBytes (((s.hostAllowance c x).ns x.nsid).lbaf))) x.places.length data
               discard := y.discard || false }).cipherWrite c) := by
  simp [exec, execHostDataArrival, hx, hp, hk, fetchedData_eq, -Nat.reducePow]

/-- A burst keeps its granules and waits for its baton. -/
theorem exec_hostDataArrival_packed (hx : s.ctxAt c = some x) (hp : x.phase = .fetching) (hk : x.kind = .packedAppend) (data : List Block) :
    exec (.hostDataArrival c true data) s = .next ((((s.hostAllowance c x).updCtx c fun y =>
      { y with data := fetchedData (8 * 4096) x.granules data, discard := y.discard || false }).updCtx c fun y =>
      { y with phase := .compressing }).requestBaton (.burst c)) := by
  simp [exec, execHostDataArrival, hx, hp, hk, fetchedData_eq, -Nat.reducePow]

/-- The blocks that stand for data that did not arrive: as many as the command has LBAs, drawn new (log entry 76). -/
def State.lostData (s : State) (x : Ctx) : List Block :=
  (s.freeBlocksFor x.places.length).1.map fun b => BitVec.ofNat 32896 (b.toNat % 2 ^ (8 * (4096 + mdBytes (s.ns x.nsid).lbaf)))

theorem exec_hostDataArrival_idle (h : ∀ x, s.ctxAt c = some x → x.phase ≠ .fetching) (ok : Bool) (data : List Block) :
    exec (.hostDataArrival c ok data) s = .next s := by
  simp only [exec, execHostDataArrival]
  split
  · rfl
  case h_2 x hx => rw [if_pos (h x hx)]

/-- A write whose fetch failed completes with the error; what stands for its data goes on. -/
theorem exec_hostDataArrival_failed (hx : s.ctxAt c = some x) (hp : x.phase = .fetching) (hk : x.kind ≠ .packedAppend) (data : List Block) :
    exec (.hostDataArrival c false data) s = .next (((((s.hostAllowance c x).freeBlocksFor x.places.length).2.complete x.hdr .transferError).updCtx c
      fun y => { y with data := (List.range x.places.length).map fun i => (i, ((s.hostAllowance c x).lostData x).getD i 0)
                        discard := y.discard || true }).cipherWrite c) := by
  simp [exec, execHostDataArrival, hx, hp, hk, State.lostData]

/-- A Packed Append whose fetch failed leaves its zone and ends. -/
theorem exec_hostDataArrival_packedFailed (hx : s.ctxAt c = some x) (hp : x.phase = .fetching) (hk : x.kind = .packedAppend) (data : List Block) :
    exec (.hostDataArrival c false data) s =
      .next ((((s.hostAllowance c x).leaveZone x.zk c).finish c .transferError).place x.zk) := by
  simp [exec, execHostDataArrival, hx, hp, hk]

theorem lbaf_of_only {F : List Part} {s t : State} (h : Only F s t) (hF : Part.nss ∉ F) (n : Nat) : (t.ns n).lbaf = (s.ns n).lbaf := by
  have hn : t.nss = s.nss := h .nss hF
  simp only [State.ns, hn]

theorem hasCompression_congr {s t : State} (h : t.variant = s.variant) : t.hasCompression = s.hasCompression := by
  simp only [State.hasCompression, State.units, h]

/-- What the data of a command can touch when they arrive. -/
def arrivalParts : List Part := [.work, .ctxs, .tenants, .tenantBase, .evr, .aon, .ciphers, .blks, .broker]

theorem hostDataArrival_write (hx : s.ctxAt c = some x) (hp : x.phase = .fetching) (hk : x.kind ≠ .packedAppend) (data : List Block) :
    ∃ t y, exec (.hostDataArrival c true data) s = .next t ∧ Only arrivalParts s t ∧ t.ctxAt c = some y ∧
      { y with deadline := x.deadline } =
        { x with phase := .ciphering, data := fetchedData (8 * (4096 + mdBytes (s.ns x.nsid).lbaf)) x.places.length data } := by
  obtain ⟨d, hd⟩ := hostAllowance_ctxAt hx
  have hkeep := hostAllowance_only s c x
  refine ⟨_, _, exec_hostDataArrival_write hx hp hk data, (hkeep.andThen ((updCtx_only _ _ _).andThen (cipherWrite_only _ _))).mono (by decide),
    cipherWrite_ctxAt ((updCtx_ctxAt hd _ _).trans (if_pos rfl)), ?_⟩
  simp [lbaf_of_only hkeep (by decide)]

theorem hostDataArrival_packed (hx : s.ctxAt c = some x) (hp : x.phase = .fetching) (hk : x.kind = .packedAppend) (hc : s.hasCompression = true)
    (data : List Block) : ∃ t y, exec (.hostDataArrival c true data) s = .next t ∧ Only arrivalParts s t ∧ t.ctxAt c = some y ∧
      y.phase = .compressing ∧ y.data = fetchedData (8 * 4096) x.granules data ∧ t.broker.knows (.burst c) = true := by
  obtain ⟨d, hd⟩ := hostAllowance_ctxAt hx
  have hkeep : Only arrivalParts s _ := ((hostAllowance_only s c x).andThen ((updCtx_only _ c fun y =>
    { y with data := fetchedData (8 * 4096) x.granules data, discard := y.discard || false }).andThen
      (updCtx_only _ c fun y => { y with phase := .compressing }))).mono (by decide)
  have hy := (updCtx_ctxAt ((updCtx_ctxAt hd fun y =>
    { y with data := fetchedData (8 * 4096) x.granules data, discard := y.discard || false }) c |>.trans (if_pos rfl))
      (fun y => { y with phase := .compressing }) c).trans (if_pos rfl)
  refine ⟨_, _, exec_hostDataArrival_packed hx hp hk data, hkeep.trans ((requestBaton_only _ _).mono (by decide)),
    (ctxAt_congr (requestBaton_only _ _ .ctxs (by decide)) c).trans hy, rfl, rfl, requestBaton_knows (Eq.trans (hasCompression_congr ?_) hc) c⟩
  exact hkeep .variant (by decide)

/-- What the data of a command that were not fetched can touch. -/
def lostParts : List Part := arrivalParts ++ postParts

/-- What was posted before a step that posts nothing is posted after it. -/
theorem Posted.of_eq {s t u : State} {h : Hdr} {st : Status} {a b : Nat} (hp : Posted s t h st a b)
    (hu : u.out.completions = t.out.completions) : Posted s u h st a b := by
  unfold Posted at hp ⊢
  rw [hu]
  exact hp

theorem hostDataArrival_failed (hx : s.ctxAt c = some x) (hp : x.phase = .fetching) (hk : x.kind ≠ .packedAppend)
    (hm : s.muted x.hdr = false) (data : List Block) :
    ∃ t y, exec (.hostDataArrival c false data) s = .next t ∧ Only lostParts s t ∧ Posted s t x.hdr .transferError 0 0 ∧
      t.ctxAt c = some y ∧ y.phase = .ciphering ∧ y.discard = true ∧ y.data.length = x.places.length := by
  obtain ⟨d, hd⟩ := hostAllowance_ctxAt hx
  have hdraw : Only arrivalParts s ((s.hostAllowance c x).freeBlocksFor x.places.length).2 :=
    ((hostAllowance_only s c x).andThen (onWork_tables_only _ _ (by rfl))).mono (by decide)
  have hend : Only lostParts s _ := (hdraw.mono (by decide)).trans ((complete_only _ x.hdr .transferError).mono (by decide))
  have hctx := (ctxAt_congr (complete_only ((s.hostAllowance c x).freeBlocksFor x.places.length).2 x.hdr .transferError .ctxs (by decide)) c).trans hd
  have hpost := complete_posted (s := s) ((muted_congr x.hdr (hdraw .ctrls (by decide)) (hdraw .sqs (by decide)) (hdraw .fab (by decide))).trans hm)
    (hdraw .completions (by decide)) .transferError
  refine ⟨_, _, exec_hostDataArrival_failed hx hp hk data,
    hend.trans (((updCtx_only _ _ _).andThen (cipherWrite_only _ _)).mono (by decide)),
    hpost.of_eq (((updCtx_only _ _ _).andThen (cipherWrite_only _ _)) .completions (by decide)),
    cipherWrite_ctxAt ((updCtx_ctxAt hctx _ _).trans (if_pos rfl)), rfl, ?_, ?_⟩
  · simp
  · simp

/-- What a Packed Append whose data were not fetched can touch. -/
def failedParts : List Part := lostParts ++ endParts ++ [.zones]

/-- A command leaves a zone that no Close waits in: it is one less of those that write there. -/
theorem leaveZone_open {zk : Nat} (hz : (s.zone zk).closing = none) (c : Nat) :
    s.leaveZone zk c = s.updZone zk fun z => { z with writing := z.writing.filter (· != c) } := by
  simp [State.leaveZone, State.updZone, hz]

theorem place_idle {zk : Nat} (hw : (s.zone zk).writing = []) (hc : (s.zone zk).closing = none) (hf : (s.zone zk).fence = none) :
    s.place zk = s := by
  have hu : s.unplaced zk = [] := by simp [State.unplaced, hw]
  simp [State.place, hu, State.placeNext, State.settleParcel, hc, hf]

theorem hostDataArrival_packedFailed (hx : s.ctxAt c = some x) (hp : x.phase = .fetching) (hk : x.kind = .packedAppend) (hd : x.discard = false)
    (hm : s.muted x.hdr = false) (hw : (s.zone x.zk).writing = [c]) (hc : (s.zone x.zk).closing = none) (hf : (s.zone x.zk).fence = none)
    (data : List Block) : ∃ t, exec (.hostDataArrival c false data) s = .next t ∧ Only failedParts s t ∧ Posted s t x.hdr .transferError 0 0 ∧
      t.ctxAt c = none ∧ t.zone x.zk = { s.zone x.zk with writing := [] } := by
  obtain ⟨d, hctx⟩ := hostAllowance_ctxAt hx
  have hkeep := hostAllowance_only s c x
  have hzones : (s.hostAllowance c x).zones = s.zones := hkeep .zones (by decide)
  have hzone : (s.hostAllowance c x).zone x.zk = s.zone x.zk := by simp only [State.zone, hzones]
  have hleave := leaveZone_open (by rw [hzone, hc]) c (s := s.hostAllowance c x) (zk := x.zk)
  generalize hu : (s.hostAllowance c x).leaveZone x.zk c = u at *
  have hleft : u.zone x.zk = { s.zone x.zk with writing := [] } := by
    rw [hleave, State.updZone_eq, State.zone_setZone, if_pos rfl, hzone, hw]
    simp
  have huOnly : Only failedParts s u := by
    rw [hleave]
    exact (hkeep.andThen (setZone_only _ _ _)).mono (by decide)
  have huctx : u.ctxAt c = some { x with deadline := d } := by rw [hleave]; exact hctx
  have hmuted : u.muted x.hdr = false := (muted_congr x.hdr (huOnly .ctrls (by decide)) (huOnly .sqs (by decide)) (by
    rw [hleave]; exact hkeep .fab (by decide))).trans hm
  have hout : u.out.completions = s.out.completions := by rw [hleave]; exact hkeep .completions (by decide)
  have hpost : Posted s (u.finish c .transferError) x.hdr .transferError 0 0 := finish_posted huctx hd hmuted hout .transferError
  have hfin := finish_only u c .transferError
  have hend : (u.finish c .transferError).zone x.zk = { s.zone x.zk with writing := [] } := by
    have hz : (u.finish c .transferError).zones = u.zones := hfin .zones (by decide)
    rw [← hleft]
    simp only [State.zone, hz]
  have hplace : (u.finish c .transferError).place x.zk = u.finish c .transferError := place_idle (by rw [hend]) (by rw [hend, hc]) (by rw [hend, hf])
  refine ⟨_, (exec_hostDataArrival_packedFailed hx hp hk data).trans (by rw [hu, hplace]), huOnly.trans (hfin.mono (by decide)), hpost, ?_, hend⟩
  rw [finish_ctxAt, if_pos rfl]

end

/-- An entry that a map leaves in the table is there mapped. -/
theorem Tbl.look_mapAll {α : Type} [DecidableEq α] {d : α} {f : Nat → α → α} {t : Tbl α} {k : Nat} (h : f k (Tbl.look d t k) ≠ d) (hd : f k d = d) :
    Tbl.look d (Tbl.mapAll d f t) k = f k (Tbl.look d t k) := by
  induction t with
  | nil => simp [Tbl.look, hd] at h
  | cons e t ih =>
    obtain ⟨m, v⟩ := e
    by_cases hm : m = k
    · subst hm
      simp only [Tbl.look, if_true] at h ⊢
      simp [Tbl.mapAll, h, Tbl.look]
    · simp only [Tbl.look, if_neg hm] at h ⊢
      unfold Tbl.mapAll
      split
      · exact ih h
      · simp [Tbl.look, hm, ih h]

theorem Tbl.mem_numbers {α : Type} {d : α} {p : α → Bool} {t : Tbl α} {k : Nat} (hd : p d = false) (h : p (Tbl.look d t k) = true) :
    k ∈ Tbl.numbers p t := by
  induction t with
  | nil => simp [Tbl.look, hd] at h
  | cons e t ih =>
    obtain ⟨m, v⟩ := e
    by_cases hm : m = k
    · subst hm
      simp only [Tbl.look, if_true] at h
      simp [Tbl.numbers, h]
    · simp only [Tbl.look, if_neg hm] at h
      unfold Tbl.numbers
      split
      · exact List.mem_cons_of_mem _ (ih h)
      · exact ih h

theorem cipherJobAt_congr {s t : State} (h : t.work.ciphers = s.work.ciphers) (j : Nat) : t.cipherJobAt j = s.cipherJobAt j := by
  simp only [State.cipherJobAt, h]

/-- What a cipher job that ends can touch. -/
def jobParts : List Part := [.work, .ciphers, .blks]

theorem dropCipherJob_only (s : State) (j : Nat) : Only jobParts s (s.dropCipherJob j) := by
  unfold State.dropCipherJob
  split
  · exact .refl
  · exact ((setCipherJob_only _ _ _).andThen ((setBlk_base_only _ _ _ (by rfl)).andThen (scheduleCipher_only _ _))).mono (by decide)

theorem dropCipherJob_at (s : State) (j n : Nat) : (s.dropCipherJob j).cipherJobAt n = if n = j then none else s.cipherJobAt n := by
  unfold State.dropCipherJob
  split
  case h_1 h => by_cases hn : n = j <;> simp [hn, h]
  case h_2 k h =>
    refine (cipherJobAt_congr ?_ n).trans (State.cipherJobAt_setCipherJob s j n none)
    exact ((setBlk_base_only _ _ _ (by rfl)).andThen (scheduleCipher_only _ _)) .ciphers (by decide)

theorem dropJobsOf_only (s : State) (c : Nat) : Only jobParts s (s.dropJobsOf c) := .each fun _ _ => dropCipherJob_only _ _

/-- No job of the command is left. -/
theorem dropJobsOf_at {s : State} {j : Nat} {k : CipherJob} (h : s.cipherJobAt j = some k) : (s.dropJobsOf k.ctx).cipherJobAt j = none := by
  have hmem : j ∈ Tbl.numbers (fun o => o.any fun (i : CipherJob) => i.ctx == k.ctx) s.work.ciphers :=
    Tbl.mem_numbers (d := none) rfl (by simp [show Tbl.look none s.work.ciphers j = some k from h])
  have hgone (l : List Nat) (t : State) (ht : t.cipherJobAt j = none) : (t.each l fun j s => s.dropCipherJob j).cipherJobAt j = none :=
    State.each_keeps (fun u => u.cipherJobAt j = none) l _ (fun i u hu => by simp [dropCipherJob_at, hu]) t ht
  have hall (l : List Nat) (t : State) (hl : j ∈ l) : (t.each l fun j s => s.dropCipherJob j).cipherJobAt j = none := by
    induction l generalizing t with
    | nil => simp at hl
    | cons i l ih =>
      rw [State.each_cons]
      rcases List.mem_cons.mp hl with rfl | hl
      · exact hgone l _ (by simp [dropCipherJob_at])
      · exact ih _ hl
  exact hall _ s hmem

theorem keepOld_only (s : State) (zk off : Nat) : Only [.work, .ctxs] s (s.keepOld zk off) := by
  unfold State.keepOld
  refine Only.ites .refl (.of_kept fun p => ?_)
  cases p <;> simp [Part.Kept, State.blk, State.tenant, State.onWork]

/-- The block that is written over is kept with the reads of it that are under way: no context changes but for the blocks kept with it. -/
theorem keepOld_ctxAt {s : State} {c : Nat} {x : Ctx} (hx : s.ctxAt c = some x) (zk off : Nat) :
    ∃ l, (s.keepOld zk off).ctxAt c = some { x with frozen := l } := by
  unfold State.keepOld
  simp only
  split
  · exact ⟨x.frozen, hx⟩
  simp only [State.ctxAt, State.onWork] at hx ⊢
  rw [Tbl.look_mapAll (by simp [hx]) (by rfl), hx]
  simp only [Option.map_some]
  split
  · exact ⟨_, rfl⟩
  · exact ⟨x.frozen, rfl⟩

theorem nsKey_congr {s t : State} (hc : t.cph = s.cph) (hn : t.nss = s.nss) (n : Nat) : t.nsKey n = s.nsKey n := by
  simp only [State.nsKey, State.ns, hc, hn]

/-- The job after its unit: gone with the last one, otherwise with the units that are left. -/
def State.unitDone (s : State) (j : Nat) (k : CipherJob) (rest : List (Nat × Nat × Nat)) : State :=
  if rest = [] then s.dropCipherJob j else s.setCipherJob j (some { k with units := rest })

section
variable {s : State} {b j c zk off i : Nat} {cls : Cls} {rest : List (Nat × Nat × Nat)} {x : Ctx}

theorem unitDone_only (s : State) (j : Nat) (k : CipherJob) : Only jobParts s (s.unitDone j k rest) :=
  .ites (dropCipherJob_only s j) ((setCipherJob_only s j _).mono (by decide))

theorem unitDone_at (s : State) (j : Nat) (k : CipherJob) :
    (s.unitDone j k rest).cipherJobAt j = if rest = [] then none else some { k with units := rest } := by
  unfold State.unitDone
  split
  · simp [dropCipherJob_at]
  · simp

theorem exec_cipherUnitComplete (hr : s.running = true) (he : s.cph.engines.getLsbD b = true) :
    exec (.cipherUnitComplete b j) s = .next (s.cipherUnit b j) := by
  simp [exec, execCipherUnitComplete, hr, he]

theorem exec_cipherUnitComplete_idle
    (h : s.running = false ∨ s.cph.engines.getLsbD b = false ∨ (s.blk b).cipRun ≠ some j ∨ s.cipherJobAt j = none) :
    exec (.cipherUnitComplete b j) s = .next s := by
  have hunit (h : (s.blk b).cipRun ≠ some j ∨ s.cipherJobAt j = none) : s.cipherUnit b j = s := by
    unfold State.cipherUnit
    split
    case h_1 r k hrun hjob =>
      rcases h with h | h
      · rw [if_pos (fun heq => h (by rw [hrun, heq]))]
      · simp [hjob] at h
    case h_2 => rfl
  change Host.Outcome.next (if _ then _ else _) = _
  split
  case isTrue hs =>
    rw [Bool.and_eq_true] at hs
    rcases h with h | h | h
    · simp [h] at hs
    · simp [h] at hs
    · rw [hunit h]
  case isFalse => rfl

/-- A job whose command is gone is dropped. -/
theorem cipherUnit_gone {k : CipherJob} (hrun : (s.blk b).cipRun = some j) (hj : s.cipherJobAt j = some k) (hc : s.ctxAt k.ctx = none) :
    s.cipherUnit b j = s.dropCipherJob j := by
  unfold State.cipherUnit
  simp [hrun, hj, hc]

/-- A key page of another tenant stops the job and its command (R266). -/
theorem cipherUnit_foreign {enc : Bool} (hrun : (s.blk b).cipRun = some j) (hj : s.cipherJobAt j = some ⟨b, c, cls, enc, (zk, off, i) :: rest⟩)
    (hx : s.ctxAt c = some x) (hkey : s.keyOwned (nsOfKey zk) x.tenant = false) :
    s.cipherUnit b j = ((s.raise 0x0807 (srcCipher b) (s.ns (nsOfKey zk)).slot x.tenant
      (Tbl.look 0 s.cph.pages ((s.ns (nsOfKey zk)).slot / 16) - 1) (x.hdr.sqid % 65536 * 65536 + x.hdr.cid % 65536)).dropJobsOf c).finish c
        .internalError := by
  unfold State.cipherUnit
  simp [hrun, hj, hx, hkey]

theorem cipherUnit_encrypt (hrun : (s.blk b).cipRun = some j) (hj : s.cipherJobAt j = some ⟨b, c, cls, true, (zk, off, i) :: rest⟩)
    (hx : s.ctxAt c = some x) (hkey : s.keyOwned (nsOfKey zk) x.tenant = true) :
    s.cipherUnit b j = ((s.unitDone j ⟨b, c, cls, true, (zk, off, i) :: rest⟩ rest).encryptUnit c x zk off i).scheduleCipher b := by
  unfold State.cipherUnit
  simp [hrun, hj, hx, hkey, State.unitDone]

theorem cipherUnit_decrypt (hrun : (s.blk b).cipRun = some j) (hj : s.cipherJobAt j = some ⟨b, c, cls, false, (zk, off, i) :: rest⟩)
    (hx : s.ctxAt c = some x) (hkey : s.keyOwned (nsOfKey zk) x.tenant = true) :
    s.cipherUnit b j = ((s.unitDone j ⟨b, c, cls, false, (zk, off, i) :: rest⟩ rest).decryptUnit c x zk off i).scheduleCipher b := by
  unfold State.cipherUnit
  simp [hrun, hj, hx, hkey, State.unitDone]

/-- A unit enciphered for the media (R270). -/
theorem encryptUnit_stores (hx : s.ctxAt c = some x) (hb : x.behind = false) : ∃ l,
    Only [.work, .ctxs, .media] s (s.encryptUnit c x zk off i) ∧
      (s.encryptUnit c x zk off i).media =
        Tbl.put 0 s.media (mediaKey zk off) (xtsFrame true (s.nsKey (nsOfKey zk)) (x.lbaOf i) (x.dataAt i)) ∧
      (s.encryptUnit c x zk off i).ctxAt c = some { x with
        frozen := l, finished := x.finished + 1, phase := if x.places.length ≤ x.finished + 1 then .staging else x.phase } := by
  obtain ⟨l, hl⟩ := keepOld_ctxAt hx zk off
  generalize hw : xtsFrame true (s.nsKey (nsOfKey zk)) (x.lbaOf i) (x.dataAt i) = w
  have heq : s.encryptUnit c x zk off i = ((s.keepOld zk off).storeBlock zk off w).updCtx c fun x =>
      { x with finished := x.finished + 1, phase := if x.places.length ≤ x.finished + 1 then .staging else x.phase } := by
    unfold State.encryptUnit
    simp only [hb, hw, if_false, Bool.false_eq_true]
  have hkeep := keepOld_only s zk off
  rw [heq]
  generalize s.keepOld zk off = u at hl hkeep ⊢
  have hstore : (u.storeBlock zk off w).ctxAt c = some { x with frozen := l } :=
    (ctxAt_congr (storeBlock_only u zk off w .ctxs (by decide)) c).trans hl
  have hmedia : u.media = s.media := hkeep .media (by decide)
  refine ⟨l, (hkeep.andThen ((storeBlock_only _ _ _ _).andThen (updCtx_only _ _ _))).mono (by decide), ?_, ?_⟩
  · rw [← hmedia]
    exact updCtx_only (u.storeBlock zk off w) c _ .media (by decide)
  · exact (updCtx_ctxAt hstore _ c).trans (if_pos rfl)

/-- A unit enciphered behind a reset stays with the command (R80). -/
theorem encryptUnit_keeps (hx : s.ctxAt c = some x) (hb : x.behind = true) :
    Only [.work, .ctxs] s (s.encryptUnit c x zk off i) ∧ (s.encryptUnit c x zk off i).ctxAt c = some { x with
      frozen := x.frozen ++ [(i, xtsFrame true (s.nsKey (nsOfKey zk)) (x.lbaOf i) (x.dataAt i))], finished := x.finished + 1
      phase := if x.places.length ≤ x.finished + 1 then .staging else x.phase } := by
  generalize hw : xtsFrame true (s.nsKey (nsOfKey zk)) (x.lbaOf i) (x.dataAt i) = w
  have heq : s.encryptUnit c x zk off i = (s.updCtx c fun x => { x with frozen := x.frozen ++ [(i, w)] }).updCtx c fun x =>
      { x with finished := x.finished + 1, phase := if x.places.length ≤ x.finished + 1 then .staging else x.phase } := by
    unfold State.encryptUnit
    simp only [hb, hw, if_true]
  rw [heq]
  refine ⟨(updCtx_only _ _ _).trans (updCtx_only _ _ _), ?_⟩
  exact (updCtx_ctxAt ((updCtx_ctxAt hx _ c).trans (if_pos rfl)) _ c).trans (if_pos rfl)

/-- A unit deciphered for the command (R270): it reads the stored block unless one was kept for it. -/
theorem decryptUnit_eq (hf : x.frozen.find? (fun p => p.1 == i) = none) : s.decryptUnit c x zk off i =
    if x.places.length ≤ x.finished + 1 then (s.setCtx c (some { x with
      data := x.data ++ [(i, xtsFrame false (s.nsKey (nsOfKey zk)) (x.lbaOf i) (s.stored zk off))], finished := x.finished + 1 })).readEnd c
    else s.setCtx c (some { x with
      data := x.data ++ [(i, xtsFrame false (s.nsKey (nsOfKey zk)) (x.lbaOf i) (s.stored zk off))], finished := x.finished + 1 }) := by
  unfold State.decryptUnit
  simp only [hf, Option.map_none, Option.getD_none]

end

end Sys2Proof.Machine
end

section
/-! A write's data in staging: its LBAs are dirty, it leaves its zones and is acknowledged (R50, R51, R251, R278). -/

namespace Sys2Proof.Machine

/-- A step over every item reaches for each item what the step reaches for it and what no other step undoes. -/
theorem State.each_reaches {α : Type} {P : α → State → Prop} {f : α → State → State} (reach : ∀ x s, P x (f x s))
    (keep : ∀ x y s, P x s → P x (f y s)) (l : List α) (s : State) : ∀ x ∈ l, P x (s.each l f) := by
  induction l generalizing s with
  | nil => simp
  | cons y l ih =>
    intro x hx
    rw [State.each_cons]
    rcases List.mem_cons.mp hx with rfl | hx
    · exact State.each_keeps (P x) l f (fun z t ht => keep x z t ht) _ (reach x s)
    · exact ih _ x hx

theorem getLsbD_setBit {n : Nat} (w : BitVec n) (i j : Nat) : (setBit w i).getLsbD j = (w.getLsbD j || decide (j < n ∧ i = j)) := by
  simp only [setBit, BitVec.getLsbD_or, BitVec.getLsbD_ofNat, Nat.testBit_two_pow, Bool.decide_and]

/-! The rows in staging. -/

theorem updRow_only (s : State) (zk row : Nat) (f : Row → Row) : Only [.work, .rows] s (s.updRow zk row f) := by
  refine .of_kept fun p => ?_
  cases p <;> simp [Part.Kept, State.blk, State.tenant, State.updRow, State.onWork]

theorem stagedRow_congr {s t : State} (h : t.work.rows = s.work.rows) (zk row : Nat) : t.stagedRow zk row = s.stagedRow zk row := by
  simp only [State.stagedRow, h]

theorem isStaged_congr {s t : State} (h : t.work.rows = s.work.rows) (zk off : Nat) : t.isStaged zk off = s.isStaged zk off := by
  simp only [State.isStaged, stagedRow_congr h]

/-- A map of the rows that keeps their places maps the row of each place. -/
theorem find_row_map (rows : List Row) (g : Row → Row) (hg : ∀ r, (g r).zk = r.zk ∧ (g r).row = r.row) (zk row : Nat) :
    (rows.map g).find? (fun r => r.zk == zk && r.row == row) = (rows.find? fun r => r.zk == zk && r.row == row).map g := by
  rw [List.find?_map]
  have hcomp : ((fun r : Row => r.zk == zk && r.row == row) ∘ g) = fun r => r.zk == zk && r.row == row := by
    funext r
    simp [(hg r).1, (hg r).2]
  rw [hcomp]

theorem stagedRow_updRow {s : State} {f : Row → Row} (hf : ∀ r, (f r).zk = r.zk ∧ (f r).row = r.row) (zk row zk' row' : Nat) :
    (s.updRow zk row f).stagedRow zk' row' = (s.stagedRow zk' row').map fun r => if r.zk = zk ∧ r.row = row then f r else r := by
  refine find_row_map s.work.rows (fun r => if r.zk = zk ∧ r.row = row then f r else r) (fun r => ?_) zk' row'
  split
  · exact hf r
  · exact ⟨rfl, rfl⟩

/-- Every LBA that is dirty in `s` is dirty in `t`. -/
def State.KeepsStaged (s t : State) : Prop := ∀ zk off, s.isStaged zk off = true → t.isStaged zk off = true

theorem State.KeepsStaged.of_rows {s t : State} (h : t.work.rows = s.work.rows) : s.KeepsStaged t := fun zk off hs => by
  rw [isStaged_congr h, hs]

theorem State.KeepsStaged.trans {s t u : State} (h : s.KeepsStaged t) (g : t.KeepsStaged u) : s.KeepsStaged u := fun zk off hs => g zk off (h zk off hs)

theorem stagedRow_place {s : State} {zk row : Nat} {r : Row} (h : s.stagedRow zk row = some r) : r.zk = zk ∧ r.row = row := by
  have hp := List.find?_some h
  simpa using hp

/-- The row of an LBA, made when there is none. -/
def State.withRow (s : State) (tenant zk off : Nat) : State :=
  match s.stagedRow zk (rowOf off) with
  | some _ => s
  | none => (s.updParity zk (rowOf off) fun _ => { epoch := s.store.epoch }).onWork fun w => { w with nextRow := w.nextRow + 1, rows := w.rows ++
      [({ zk := zk, row := rowOf off, tenant := tenant, order := w.nextRow, epoch := s.store.epoch } : Row)] }

theorem stageLba_eq (s : State) (tenant zk off : Nat) :
    s.stageLba tenant zk off = (s.withRow tenant zk off).updRow zk (rowOf off) fun r => { r with staged := setBit r.staged (off % 256) } := rfl

theorem withRow_only (s : State) (tenant zk off : Nat) : Only [.work, .rows, .parity] s (s.withRow tenant zk off) := by
  unfold State.withRow
  split
  · exact .refl
  · refine Only.trans ((updParity_only s zk (rowOf off) fun _ => { epoch := s.store.epoch }).mono (by decide)) (.of_kept fun p => ?_)
    cases p <;> simp [Part.Kept, State.blk, State.tenant, State.onWork]

theorem withRow_stagedRow (s : State) (tenant zk off : Nat) :
    (∃ r, (s.withRow tenant zk off).stagedRow zk (rowOf off) = some r) ∧
      ∀ zk' row' r, s.stagedRow zk' row' = some r → (s.withRow tenant zk off).stagedRow zk' row' = some r := by
  unfold State.withRow
  split
  case h_1 r h => exact ⟨⟨r, h⟩, fun _ _ _ hr => hr⟩
  case h_2 h =>
    have hrows : ((s.updParity zk (rowOf off) fun _ => { epoch := s.store.epoch }).work.rows) = s.work.rows :=
      updParity_only s zk (rowOf off) _ .rows (by decide)
    unfold State.stagedRow at h ⊢
    simp only [State.onWork_fields, hrows, List.find?_append]
    refine ⟨?_, fun zk' row' r hr => ?_⟩
    · rw [h]
      simp
    · rw [hr]
      simp

theorem stageLba_only (s : State) (tenant zk off : Nat) : Only [.work, .rows, .parity] s (s.stageLba tenant zk off) :=
  (withRow_only s tenant zk off).trans ((updRow_only _ _ _ _).mono (by decide))

/-- An LBA staged is dirty, and none that was dirty is clean (R50). -/
theorem stageLba_staged (s : State) (tenant zk off : Nat) :
    (s.stageLba tenant zk off).isStaged zk off = true ∧ s.KeepsStaged (s.stageLba tenant zk off) := by
  obtain ⟨⟨r, hr⟩, hkeep⟩ := withRow_stagedRow s tenant zk off
  have hrow := stagedRow_updRow (s := s.withRow tenant zk off) (f := fun r => { r with staged := setBit r.staged (off % 256) })
    (fun _ => ⟨rfl, rfl⟩) zk (rowOf off)
  refine ⟨?_, fun zk' off' hs => ?_⟩
  · rw [stageLba_eq, State.isStaged, hrow, hr]
    have hlt : off % 256 < 256 := Nat.mod_lt _ (by decide)
    simp [stagedRow_place hr, getLsbD_setBit, hlt]
  · unfold State.isStaged at hs ⊢
    obtain ⟨r', hr', hbit⟩ := (Option.any_eq_true _ _).mp hs
    rw [stageLba_eq, hrow, hkeep _ _ _ hr']
    simp only [Option.map_some, Option.any_some]
    split
    · simp [getLsbD_setBit, hbit]
    · exact hbit

/-- All LBAs of a write staged (R50). -/
def State.stageAll (s : State) (tenant : Nat) (ps : List (Nat × Nat)) : State := s.each ps fun p s => s.stageLba tenant p.1 p.2

theorem stageAll_only (s : State) (tenant : Nat) (ps : List (Nat × Nat)) : Only [.work, .rows, .parity] s (s.stageAll tenant ps) :=
  .each fun _ _ => stageLba_only _ _ _ _

theorem stageAll_staged (s : State) (tenant : Nat) (ps : List (Nat × Nat)) : ∀ p ∈ ps, (s.stageAll tenant ps).isStaged p.1 p.2 = true :=
  State.each_reaches (P := fun (p : Nat × Nat) s => s.isStaged p.1 p.2 = true) (f := fun p s => s.stageLba tenant p.1 p.2)
    (fun p s => (stageLba_staged s tenant p.1 p.2).1) (fun _ q s h => (stageLba_staged s tenant q.1 q.2).2 _ _ h) ps s

/-! After the acknowledgement: the dirty count, the quarters that are full, the reads that wait. -/

theorem uncoverRows_only (s : State) : Only [.work, .rows] s s.uncoverRows := by
  unfold State.uncoverRows
  refine Only.ite (.of_kept fun p => ?_)
  cases p <;> simp [Part.Kept, State.blk, State.tenant, State.onWork]

theorem uncoverRows_staged (s : State) : s.KeepsStaged s.uncoverRows := by
  intro zk off hs
  unfold State.uncoverRows
  split
  · have hrow : (s.onWork fun w => { w with rows := w.rows.map fun r => { r with covered := false } }).stagedRow zk (rowOf off) =
        (s.stagedRow zk (rowOf off)).map fun r => { r with covered := false } :=
      find_row_map s.work.rows (fun r => { r with covered := false }) (fun _ => ⟨rfl, rfl⟩) _ _
    rw [State.isStaged, hrow, Option.any_map]
    exact hs
  · exact hs

theorem compareDirty_only (s : State) : Only [.bank, .evr, .aon, .work, .rows] s s.compareDirty := by
  have hraise (f : Bank → Bank) (a b d e : Nat) : Only [.bank, .evr, .aon, .work, .rows] s ((s.onBank f).raiseBank a b d e) :=
    ((onBank_only _ _).andThen (raise_only _ _ _ _ _ _ _)).mono (by decide)
  unfold State.compareDirty
  split
  · split
    · exact .refl
    · exact hraise _ _ _ _ _
  · split
    · exact (uncoverRows_only _).mono (by decide)
    · exact (hraise _ _ _ _ _).trans ((uncoverRows_only _).mono (by decide))

theorem compareDirty_staged (s : State) : s.KeepsStaged s.compareDirty := by
  have hraise (f : Bank → Bank) (a b d e : Nat) : s.KeepsStaged ((s.onBank f).raiseBank a b d e) :=
    .of_rows (((onBank_only _ _).andThen (raise_only _ _ _ _ _ _ _)) .rows (by decide))
  unfold State.compareDirty
  split
  · split
    · exact fun _ _ h => h
    · exact hraise _ _ _ _ _
  · split
    · exact uncoverRows_staged _
    · exact (hraise _ _ _ _ _).trans (uncoverRows_staged _)

theorem grantParity_only (n : Nat) (s : State) : Only [.work] s (State.grantParity n s) := by
  induction n generalizing s with
  | zero => exact .refl
  | succ n ih =>
    unfold State.grantParity
    split
    · exact (onWork_tables_only _ _ (by rfl)).trans (ih _)
    · exact .refl

theorem addParityJob_only (s : State) (j : ParityJob) : Only [.work, .parities] s (s.addParityJob j) :=
  ((onWork_tables_only _ _ (by rfl)).andThen ((setParityJob_only _ _ _).andThen (grantParity_only _ _))).mono (by decide)

theorem addParityWork_only (s : State) (j : ParityJob) : Only [.tmk, .work, .parities] s (s.addParityWork j) :=
  ((bookParityPs_only _ _).andThen (addParityJob_only _ _)).mono (by decide)

theorem startQuarters_only (s : State) (zk row : Nat) : Only [.tmk, .work, .parities] s (s.startQuarters zk row) := by
  unfold State.startQuarters
  split
  · exact .refl
  · exact .each fun _ _ => addParityWork_only _ _

theorem serveWaiting_only (s : State) : Only [.work, .ctxs, .ciphers, .blks] s s.serveWaiting := by
  refine .each fun c s => ?_
  split
  · exact .refl
  · exact serveStaged_only _ _ _

/-- A read that waits is served where it is; no command comes or goes with it. -/
theorem serveStaged_none {s : State} {n : Nat} (hn : s.ctxAt n = none) (c : Nat) (is : List Nat) : (s.serveStaged c is).ctxAt n = none := by
  unfold State.serveStaged
  split
  · exact hn
  case h_2 x hx =>
    split
    · exact hn
    · refine (addUnits_ctxAt _ _ _ _ _ _).trans ((State.ctxAt_setCtx _ _ _ _).trans ?_)
      rw [if_neg (fun h => by rw [h, hx] at hn; cases hn), hn]

theorem serveWaiting_none {s : State} {n : Nat} (hn : s.ctxAt n = none) : s.serveWaiting.ctxAt n = none := by
  refine State.each_keeps (fun u => u.ctxAt n = none) _ _ (fun c u hu => ?_) s hn
  split
  · exact hu
  · exact serveStaged_none hu _ _

/-- What follows the acknowledgement of a write (R50, R178). -/
def State.restaged (s : State) (rows : List (Nat × Nat)) : State := (s.compareDirty.each rows fun p s => s.startQuarters p.1 p.2).serveWaiting

def restageParts : List Part := [.bank, .evr, .aon, .work, .rows, .tmk, .parities, .ctxs, .ciphers, .blks]

theorem restaged_only (s : State) (rows : List (Nat × Nat)) : Only restageParts s (s.restaged rows) :=
  ((compareDirty_only s).andThen ((Only.each fun _ _ => startQuarters_only _ _ _).andThen (serveWaiting_only _))).mono (by decide)

theorem restaged_staged (s : State) (rows : List (Nat × Nat)) : s.KeepsStaged (s.restaged rows) :=
  (compareDirty_staged s).trans (.of_rows (((Only.each fun _ _ => startQuarters_only _ _ _).andThen (serveWaiting_only _)) .rows (by decide)))

theorem restaged_none {s : State} {n : Nat} (hn : s.ctxAt n = none) (rows : List (Nat × Nat)) : (s.restaged rows).ctxAt n = none := by
  refine serveWaiting_none (Eq.trans (ctxAt_congr ?_ n) hn)
  exact ((compareDirty_only s).andThen (Only.each fun _ _ => startQuarters_only _ _ _)) .ctxs (by decide)

/-! The acknowledgement: the write leaves its zones, a conventional one enters the forward map (R48, R51). -/

/-- No zone has a Close that waits. -/
def State.noClose (s : State) : Prop := ∀ k, (s.zone k).closing = none

theorem State.noClose.congr {s t : State} (h : s.noClose) (hz : t.zones = s.zones) : t.noClose := fun k => by
  simp only [State.zone, hz]
  exact h k

theorem updZone_noClose {s : State} (h : s.noClose) (zk : Nat) {f : Zone → Zone} (hf : ∀ z, (f z).closing = z.closing) : (s.updZone zk f).noClose := by
  intro k
  rw [State.updZone_eq, State.zone_setZone]
  split
  · rw [hf, h]
  · exact h k

theorem leaveZone_noClose {s : State} (h : s.noClose) (zk c : Nat) : (s.leaveZone zk c).noClose := by
  rw [leaveZone_open (h zk)]
  exact updZone_noClose h zk (fun _ => rfl)

theorem leaveZone_open_only {s : State} (h : s.noClose) (zk c : Nat) : Only [.zones] s (s.leaveZone zk c) := by
  rw [leaveZone_open (h zk)]
  exact setZone_only _ _ _

theorem leaveZone_writing {s : State} (h : s.noClose) (zk c : Nat) :
    c ∉ ((s.leaveZone zk c).zone zk).writing ∧ ∀ k, c ∉ (s.zone k).writing → c ∉ ((s.leaveZone zk c).zone k).writing := by
  rw [leaveZone_open (h zk), State.updZone_eq]
  refine ⟨by simp, fun k hk => ?_⟩
  rw [State.zone_setZone]
  split
  case isTrue heq => simp
  case isFalse => exact hk

/-- The command leaves every zone of the list. -/
def State.leaveZones (s : State) (zks : List Nat) (c : Nat) : State := s.each zks fun zk s => s.leaveZone zk c

theorem leaveZones_left {s : State} (h : s.noClose) (zks : List Nat) (c : Nat) :
    (s.leaveZones zks c).noClose ∧ Only [.zones] s (s.leaveZones zks c) ∧
      (∀ k, c ∉ (s.zone k).writing → c ∉ ((s.leaveZones zks c).zone k).writing) ∧ ∀ zk ∈ zks, c ∉ ((s.leaveZones zks c).zone zk).writing := by
  unfold State.leaveZones
  induction zks generalizing s with
  | nil => exact ⟨h, .refl, fun _ hk => hk, by simp⟩
  | cons zk zks ih =>
    rw [State.each_cons]
    obtain ⟨hgone, hkept⟩ := leaveZone_writing h zk c
    obtain ⟨hopen, honly, hstay, hleft⟩ := ih (leaveZone_noClose h zk c)
    refine ⟨hopen, (leaveZone_open_only h zk c).trans honly, fun k hk => hstay k (hkept k hk), fun k hk => ?_⟩
    rcases List.mem_cons.mp hk with rfl | hk
    · exact hstay k hgone
    · exact hleft k hk

theorem mapFrame_only (s : State) (nsid lba frame : Nat) : Only [.zones, .nss] s (s.mapFrame nsid lba frame) := by
  have hzone (u : State) (c : Prop) [Decidable c] (zk : Nat) (f : Zone → Zone) : Only [.zones, .nss] u (if c then u else u.updZone zk f) :=
    .ites .refl ((setZone_only _ _ _).mono (by decide))
  unfold State.mapFrame
  exact (hzone _ _ _ _).trans ((hzone _ _ _ _).trans ((setNs_only _ _ _).mono (by decide)))

theorem mapFrame_noClose {s : State} (h : s.noClose) (nsid lba frame : Nat) : (s.mapFrame nsid lba frame).noClose := by
  have hzone {u : State} (hu : u.noClose) (c : Prop) [Decidable c] (zk : Nat) (f : Zone → Zone) (hf : ∀ z, (f z).closing = z.closing) :
      (if c then u else u.updZone zk f).noClose := by
    split
    · exact hu
    · exact updZone_noClose hu zk hf
  unfold State.mapFrame
  exact (hzone (hzone h _ _ _ (by exact fun _ => rfl)) _ _ _ (by exact fun _ => rfl)).congr rfl

/-- The forward map after one entry of it was written (R278). -/
theorem mapFrame_fwd (s : State) (nsid lba frame l : Nat) :
    Tbl.look 0 ((s.mapFrame nsid lba frame).ns nsid).fwd l = if l = lba then frame else Tbl.look 0 (s.ns nsid).fwd l := by
  have hzone (u : State) (c : Prop) [Decidable c] (zk : Nat) (f : Zone → Zone) : (if c then u else u.updZone zk f).ns nsid = u.ns nsid := by
    split <;> rfl
  unfold State.mapFrame
  simp only
  rw [State.updNs_eq, State.ns_setNs, if_pos rfl]
  simp only
  rw [Tbl.look_put, hzone, hzone]

/-- The LBAs of a conventional write enter the forward map (R278). -/
def State.mapFrames (s : State) (x : Ctx) : State :=
  s.each (List.range x.places.length) fun i s =>
    match x.places.getD i none with
    | none => s
    | some p => s.mapFrame x.nsid (x.slba + i) (zoneOfKey p.1 * 2 ^ 20 + p.2 + 1)

theorem mapFrames_only (s : State) (x : Ctx) : Only [.zones, .nss] s (s.mapFrames x) := by
  refine .each fun i s => ?_
  split
  · exact .refl
  · exact mapFrame_only _ _ _ _

theorem mapFrames_noClose {s : State} (h : s.noClose) (x : Ctx) : (s.mapFrames x).noClose := by
  refine State.each_keeps State.noClose _ _ (fun i u hu => ?_) s h
  split
  · exact hu
  · exact mapFrame_noClose hu _ _ _

/-- Entry `i` of the forward map is the frame of the `i`th place, where there is one. -/
def State.mapped (s : State) (x : Ctx) (i : Nat) : Prop :=
  ∀ p, x.places.getD i none = some p → Tbl.look 0 (s.ns x.nsid).fwd (x.slba + i) = zoneOfKey p.1 * 2 ^ 20 + p.2 + 1

theorem mapFrames_mapped (s : State) (x : Ctx) (i : Nat) : (s.mapFrames x).mapped x i := by
  by_cases hi : i < x.places.length
  · refine State.each_reaches (P := fun i s => s.mapped x i) (fun j u => ?_) (fun j k u hu => ?_) _ s i (List.mem_range.mpr hi)
    · intro p hp
      simp only [hp, mapFrame_fwd, if_true]
    · intro p hp
      split
      · exact hu p hp
      case h_2 q hq =>
        rw [mapFrame_fwd]
        split
        case isTrue heq =>
          have hjk : k = j := by omega
          rw [hjk, hp] at hq
          cases hq
          rfl
        case isFalse => exact hu p hp
  · intro p hp
    rw [List.getD_eq_default _ _ (by omega)] at hp
    cases hp

section
variable {s : State} {c : Nat} {x : Ctx}

/-- The zones of a command, each once. -/
def Ctx.placeZones (x : Ctx) : List Nat := (x.places.filterMap fun p => p.map (·.1)).eraseDups

/-- The rows of a command, each once. -/
def Ctx.placeRows (x : Ctx) : List (Nat × Nat) := ((x.places.filterMap fun p => p).map fun p => (p.1, rowOf p.2)).eraseDups

theorem mem_placeZones {zk off : Nat} (h : some (zk, off) ∈ x.places) : zk ∈ x.placeZones := by
  rw [Ctx.placeZones, List.mem_eraseDups, List.mem_filterMap]
  exact ⟨_, h, rfl⟩

theorem staged_eq (hb : x.behind = false) : s.staged c x =
    ((s.stageAll x.tenant (x.places.filterMap fun p => p)).ackWrite c x).restaged x.placeRows := by
  unfold State.staged
  simp only [hb, if_false, Bool.false_eq_true]
  rfl

theorem staged_behind (hb : x.behind = true) (hz : (s.ns x.nsid).zoned = true) (hk : x.kind ≠ .parcel) :
    s.staged c x = (s.setCtx c (some { x with phase := .done })).compareDirty := by
  unfold State.staged State.ackWrite
  simp [hb, hz, hk]

theorem ackWrite_zoned (hz : (s.ns x.nsid).zoned = true) (hk : x.kind ≠ .parcel) (hb : x.behind = false) : s.ackWrite c x =
    if x.kind = .append then (s.leaveZones x.placeZones c).finishWith c .success (x.slba % 2 ^ 32) (x.slba / 2 ^ 32) []
    else (s.leaveZones x.placeZones c).finish c .success := by
  unfold State.ackWrite
  simp only [hz, hk, hb, if_true, if_false, Bool.false_eq_true]
  rfl

theorem ackWrite_conventional (hz : (s.ns x.nsid).zoned = false) (hk : x.kind = .write ∨ x.kind = .writeZeroes) (hb : x.behind = false) :
    s.ackWrite c x = ((s.mapFrames x).leaveZones x.placeZones c).finish c .success := by
  have hparcel : x.kind ≠ .parcel := by rcases hk with h | h <;> simp [h]
  have happend : x.kind ≠ .append := by rcases hk with h | h <;> simp [h]
  unfold State.ackWrite
  simp only [hz, hparcel, happend, hb, if_false, Bool.false_eq_true]
  rfl

theorem ackWrite_parcel (hz : (s.ns x.nsid).zoned = true) (hk : x.kind = .parcel) :
    s.ackWrite c x = ((s.setCtx c none).leaveZone x.zk c).ackParcel x := by
  unfold State.ackWrite
  simp only [hz, hk, if_true]

theorem ackParcel_one {g i k : Nat} {m : Ctx} (hg : x.group = [(g, i, k)]) (hm : s.ctxAt g = some m) : s.ackParcel x =
    if k < m.granules then (s.leaveZone x.zk g).finishWith g .packedSpace k (x.off + x.places.length) []
    else (s.leaveZone x.zk g).finishWith g .success ((x.slba * 64 + i) % 2 ^ 32) ((x.slba * 64 + i) / 2 ^ 32) [] := by
  simp only [State.ackParcel, hg, State.each_cons, State.each_nil, hm]

theorem exec_stagingWritten (hx : s.ctxAt c = some x) (hp : x.phase = .staging) : exec (.stagingWritten c) s = .next (s.staged c x) := by
  simp [exec, execStagingWritten, hx, hp]

theorem exec_stagingWritten_idle (h : ∀ x, s.ctxAt c = some x → x.phase ≠ Phase.staging) : exec (.stagingWritten c) s = .next s := by
  simp only [exec, execStagingWritten]
  split
  · rfl
  case h_2 x hx => rw [if_neg (h x hx)]

/-- What the acknowledgement of a write can touch. -/
def ackParts : List Part := endParts ++ [.zones, .nss, .rows, .parity]

/-- A staged command: its LBAs are dirty, and all else that its acknowledgement reads is as it was. -/
theorem stageAll_ready (hb : s.noClose) (x : Ctx) :
    (s.stageAll x.tenant (x.places.filterMap fun p => p)).noClose ∧
      (∀ n, (s.stageAll x.tenant (x.places.filterMap fun p => p)).ctxAt n = s.ctxAt n) ∧
      (∀ h, (s.stageAll x.tenant (x.places.filterMap fun p => p)).muted h = s.muted h) ∧
      ∀ zk off, some (zk, off) ∈ x.places → (s.stageAll x.tenant (x.places.filterMap fun p => p)).isStaged zk off = true := by
  have hkeep := stageAll_only s x.tenant (x.places.filterMap fun p => p)
  refine ⟨hb.congr (hkeep .zones (by decide)), ctxAt_congr (hkeep .ctxs (by decide)), fun h =>
    muted_congr h (hkeep .ctrls (by decide)) (hkeep .sqs (by decide)) (hkeep .fab (by decide)), fun zk off h => ?_⟩
  exact stageAll_staged s x.tenant _ (zk, off) (by simpa using h)

/-- A command that has left its zones and ends with a status. -/
theorem left_finishWith {u : State} (hu : u.noClose) (hc : u.ctxAt c = some x) (hd : x.discard = false) (hm : u.muted x.hdr = false)
    (zks : List Nat) (st : Status) (a b : Nat) (d : List FieldVal) :
    Posted u ((u.leaveZones zks c).finishWith c st a b d) x.hdr st a b ∧ ((u.leaveZones zks c).finishWith c st a b d).ctxAt c = none ∧
      Only ackParts u ((u.leaveZones zks c).finishWith c st a b d) ∧
      ((u.leaveZones zks c).finishWith c st a b d).nss = u.nss ∧ ((u.leaveZones zks c).finishWith c st a b d).work.rows = u.work.rows ∧
      ∀ zk ∈ zks, c ∉ (((u.leaveZones zks c).finishWith c st a b d).zone zk).writing := by
  obtain ⟨-, hleave, -, hleft⟩ := leaveZones_left hu zks c
  have hfin := finishWith_only (u.leaveZones zks c) c st a b d
  refine ⟨finishWith_posted ((ctxAt_congr (hleave .ctxs (by decide)) c).trans hc) hd
    ((muted_congr _ (hleave .ctrls (by decide)) (hleave .sqs (by decide)) (hleave .fab (by decide))).trans hm) (hleave .completions (by decide)) st a b d,
    ?_, (hleave.andThen hfin).mono (by decide), (hleave.andThen hfin) .nss (by decide), (hleave.andThen hfin) .rows (by decide), fun zk hzk => ?_⟩
  · rw [finishWith_ctxAt, if_pos rfl]
  · have hz : ((u.leaveZones zks c).finishWith c st a b d).zones = (u.leaveZones zks c).zones := hfin .zones (by decide)
    simp only [State.zone, hz]
    exact hleft zk hzk

/-- A write staged and acknowledged (R50, R51). -/
structure Acknowledged (s t : State) (c : Nat) (x : Ctx) (a b : Nat) : Prop where
  staged : ∀ zk off, some (zk, off) ∈ x.places → t.isStaged zk off = true
  left : ∀ zk off, some (zk, off) ∈ x.places → c ∉ (t.zone zk).writing
  posted : Posted s t x.hdr .success a b
  gone : t.ctxAt c = none
  media : t.media = s.media

theorem staged_acknowledged {u : State} {a b : Nat} (hx : s.ctxAt c = some x) (hb : x.behind = false) (hd : x.discard = false)
    (hm : s.muted x.hdr = false) (hclose : s.noClose) (hu : u.noClose) (hkeep : Only [.zones, .nss] (s.stageAll x.tenant (x.places.filterMap fun p => p)) u)
    (hack : (s.stageAll x.tenant (x.places.filterMap fun p => p)).ackWrite c x = (u.leaveZones x.placeZones c).finishWith c .success a b []) :
    Acknowledged s (s.staged c x) c x a b ∧ (s.staged c x).nss = u.nss := by
  obtain ⟨hclosed, hctx, hmuted, hdirty⟩ := stageAll_ready hclose x
  have hstage := stageAll_only s x.tenant (x.places.filterMap fun p => p)
  obtain ⟨hpost, hgone, honly, hnss, hrows, hleft⟩ := left_finishWith hu ((ctxAt_congr (hkeep .ctxs (by decide)) c).trans ((hctx c).trans hx)) hd
    ((muted_congr x.hdr (hkeep .ctrls (by decide)) (hkeep .sqs (by decide)) (hkeep .fab (by decide))).trans ((hmuted _).trans hm))
    x.placeZones .success a b []
  rw [staged_eq hb, hack]
  generalize hv : (u.leaveZones x.placeZones c).finishWith c .success a b [] = v at *
  have hre := restaged_only v x.placeRows
  have hzones : (v.restaged x.placeRows).zones = v.zones := hre .zones (by decide)
  refine ⟨⟨fun zk off h => ?_, fun zk off h => ?_, ?_, restaged_none hgone _, ?_⟩, Eq.trans (hre .nss (by decide)) hnss⟩
  · refine restaged_staged v _ zk off ?_
    rw [isStaged_congr (hrows.trans (hkeep .rows (by decide)))]
    exact hdirty zk off h
  · simp only [State.zone, hzones]
    exact hleft zk (mem_placeZones h)
  · obtain ⟨e, he, hfields⟩ := hpost
    have hout : u.out.completions = s.out.completions := Eq.trans (hkeep .completions (by decide)) (hstage .completions (by decide))
    refine Posted.of_eq ⟨e, ?_, hfields⟩ (hre .completions (by decide))
    rw [he, hout]
  · exact Eq.trans (hre .media (by decide)) (Eq.trans (honly .media (by decide)) (Eq.trans (hkeep .media (by decide)) (hstage .media (by decide))))

end

end Sys2Proof.Machine
end

section
/-! Host data are enciphered, staged and acknowledged: the clauses of O28. -/

namespace Sys2Proof.Machine

section
variable {s : State} {b j c zk off i : Nat} {cls : Cls} {rest : List (Nat × Nat × Nat)} {x : Ctx}

theorem unitDone_ctxAt (s : State) (j : Nat) (k : CipherJob) (n : Nat) : (s.unitDone j k rest).ctxAt n = s.ctxAt n :=
  ctxAt_congr (unitDone_only s j k .ctxs (by decide)) n

theorem unitDone_nsKey (s : State) (j : Nat) (k : CipherJob) (n : Nat) : (s.unitDone j k rest).nsKey n = s.nsKey n :=
  nsKey_congr (unitDone_only s j k .cph (by decide)) (unitDone_only s j k .nss (by decide)) n

theorem stored_congr {s t : State} (h : t.media = s.media) (zk off : Nat) : t.stored zk off = s.stored zk off := by
  simp only [State.stored, h]

/-- The last unit of a write's job, stored under its key and its LBA. -/
theorem cipherUnitComplete_stores (hr : s.running = true) (he : s.cph.engines.getLsbD b = true) (hrun : (s.blk b).cipRun = some j)
    (hj : s.cipherJobAt j = some ⟨b, c, cls, true, [(zk, off, i)]⟩) (hx : s.ctxAt c = some x) (hkey : s.keyOwned (nsOfKey zk) x.tenant = true)
    (hb : x.behind = false) : ∃ t y, exec (.cipherUnitComplete b j) s = .next t ∧
      t.stored zk off = xtsFrame true (s.nsKey (nsOfKey zk)) (x.lbaOf i) (x.dataAt i) ∧
      (∀ k, k ≠ mediaKey zk off → Tbl.look 0 t.media k = Tbl.look 0 s.media k) ∧ t.cipherJobAt j = none ∧ t.ctxAt c = some y ∧
      y.finished = x.finished + 1 ∧ (x.places.length ≤ x.finished + 1 → y.phase = .staging) ∧ t.zones = s.zones ∧ t.out = s.out := by
  have hdone := unitDone_only (rest := []) s j ⟨b, c, cls, true, [(zk, off, i)]⟩
  have hmedia : (s.unitDone j ⟨b, c, cls, true, [(zk, off, i)]⟩ []).media = s.media := hdone .media (by decide)
  obtain ⟨l, honly, hput, hctx⟩ := encryptUnit_stores (i := i) (zk := zk) (off := off) ((unitDone_ctxAt (rest := []) s j _ c).trans hx) hb
  have hall := honly.andThen (scheduleCipher_only ((s.unitDone j ⟨b, c, cls, true, [(zk, off, i)]⟩ []).encryptUnit c x zk off i) b)
  have hsched := scheduleCipher_only ((s.unitDone j ⟨b, c, cls, true, [(zk, off, i)]⟩ []).encryptUnit c x zk off i) b
  rw [unitDone_nsKey, hmedia] at hput
  generalize xtsFrame true (s.nsKey (nsOfKey zk)) (x.lbaOf i) (x.dataAt i) = w at hput ⊢
  have hstored : (((s.unitDone j ⟨b, c, cls, true, [(zk, off, i)]⟩ []).encryptUnit c x zk off i).scheduleCipher b).media =
      Tbl.put 0 s.media (mediaKey zk off) w := Eq.trans (hsched .media (by decide)) hput
  refine ⟨_, _, (exec_cipherUnitComplete hr he).trans (congrArg _ (cipherUnit_encrypt hrun hj hx hkey)), ?_, fun k hk => ?_, ?_,
    (ctxAt_congr (hsched .ctxs (by decide)) c).trans hctx, rfl, fun hlast => if_pos hlast, (hdone.andThen hall) .zones (by decide),
    (hdone.andThen hall) .out (by decide)⟩
  · rw [State.stored, hstored, Tbl.look_put_same]
  · rw [hstored, Tbl.look_put_ne _ _ _ hk]
  · exact (cipherJobAt_congr (hall .ciphers (by decide)) j).trans (unitDone_at (rest := []) s j _)

/-- A unit of a write behind a reset stays with the command. -/
theorem cipherUnitComplete_keeps (hr : s.running = true) (he : s.cph.engines.getLsbD b = true) (hrun : (s.blk b).cipRun = some j)
    (hj : s.cipherJobAt j = some ⟨b, c, cls, true, (zk, off, i) :: rest⟩) (hx : s.ctxAt c = some x)
    (hkey : s.keyOwned (nsOfKey zk) x.tenant = true) (hb : x.behind = true) : ∃ t y, exec (.cipherUnitComplete b j) s = .next t ∧ t.ctxAt c = some y ∧
      y.frozen = x.frozen ++ [(i, xtsFrame true (s.nsKey (nsOfKey zk)) (x.lbaOf i) (x.dataAt i))] ∧ y.finished = x.finished + 1 ∧
      t.cipherJobAt j = (if rest = [] then none else some ⟨b, c, cls, true, rest⟩) ∧ t.media = s.media ∧ t.zones = s.zones ∧ t.out = s.out := by
  have hdone := unitDone_only (rest := rest) s j ⟨b, c, cls, true, (zk, off, i) :: rest⟩
  obtain ⟨honly, hctx⟩ := encryptUnit_keeps (i := i) (zk := zk) (off := off) ((unitDone_ctxAt (rest := rest) s j _ c).trans hx) hb
  have hall := honly.andThen (scheduleCipher_only ((s.unitDone j ⟨b, c, cls, true, (zk, off, i) :: rest⟩ rest).encryptUnit c x zk off i) b)
  have hsched := scheduleCipher_only ((s.unitDone j ⟨b, c, cls, true, (zk, off, i) :: rest⟩ rest).encryptUnit c x zk off i) b
  rw [unitDone_nsKey] at hctx
  exact ⟨_, _, (exec_cipherUnitComplete hr he).trans (congrArg _ (cipherUnit_encrypt hrun hj hx hkey)),
    (ctxAt_congr (hsched .ctxs (by decide)) c).trans hctx, rfl, rfl, (cipherJobAt_congr (hall .ciphers (by decide)) j).trans (unitDone_at s j _),
    (hdone.andThen hall) .media (by decide), (hdone.andThen hall) .zones (by decide), (hdone.andThen hall) .out (by decide)⟩

/-- A unit of a read deciphered for it, as the unit's engine leaves it. -/
theorem cipherUnit_plain (hrun : (s.blk b).cipRun = some j) (hj : s.cipherJobAt j = some ⟨b, c, cls, false, [(zk, off, i)]⟩) (hx : s.ctxAt c = some x)
    (hkey : s.keyOwned (nsOfKey zk) x.tenant = true) (u : State) (hu : u = s.unitDone j ⟨b, c, cls, false, [(zk, off, i)]⟩ []) :
    s.cipherUnit b j = (u.decryptUnit c x zk off i).scheduleCipher b ∧ Only jobParts s u ∧ u.cipherJobAt j = none ∧
      u.nsKey (nsOfKey zk) = s.nsKey (nsOfKey zk) ∧ u.stored zk off = s.stored zk off := by
  have hdone := unitDone_only (rest := []) s j ⟨b, c, cls, false, [(zk, off, i)]⟩
  rw [hu]
  exact ⟨cipherUnit_decrypt hrun hj hx hkey, hdone, unitDone_at (rest := []) s j _, unitDone_nsKey s j _ _, stored_congr (hdone .media (by decide)) _ _⟩

theorem cipherUnitComplete_plain (hr : s.running = true) (he : s.cph.engines.getLsbD b = true) (hrun : (s.blk b).cipRun = some j)
    (hj : s.cipherJobAt j = some ⟨b, c, cls, false, [(zk, off, i)]⟩) (hx : s.ctxAt c = some x) (hkey : s.keyOwned (nsOfKey zk) x.tenant = true)
    (hf : x.frozen.find? (fun p => p.1 == i) = none) (hlast : x.finished + 1 < x.places.length) : ∃ t, exec (.cipherUnitComplete b j) s = .next t ∧
      t.ctxAt c = some { x with
        finished := x.finished + 1
        data := x.data ++ [(i, xtsFrame false (s.nsKey (nsOfKey zk)) (x.lbaOf i) (s.stored zk off))] } ∧
      t.cipherJobAt j = none ∧ t.media = s.media ∧ t.zones = s.zones ∧ t.out = s.out := by
  obtain ⟨hunit, honly, hjob, hnskey, hstored⟩ := cipherUnit_plain hrun hj hx hkey _ rfl
  have hplain := decryptUnit_eq (s := s.unitDone j ⟨b, c, cls, false, [(zk, off, i)]⟩ []) (c := c) (zk := zk) (off := off) hf
  rw [if_neg (by omega), hnskey, hstored] at hplain
  rw [hplain] at hunit
  generalize s.unitDone j ⟨b, c, cls, false, [(zk, off, i)]⟩ [] = u at *
  generalize xtsFrame false (s.nsKey (nsOfKey zk)) (x.lbaOf i) (s.stored zk off) = w at *
  have hset := setCtx_only u c (some { x with data := x.data ++ [(i, w)], finished := x.finished + 1 })
  have hsched := scheduleCipher_only (u.setCtx c (some { x with data := x.data ++ [(i, w)], finished := x.finished + 1 })) b
  have hall := honly.andThen (hset.andThen hsched)
  refine ⟨_, (exec_cipherUnitComplete hr he).trans (congrArg _ hunit), ?_,
    (cipherJobAt_congr ((hset.andThen hsched) .ciphers (by decide)) j).trans hjob, hall .media (by decide), hall .zones (by decide), hall .out (by decide)⟩
  exact (ctxAt_congr (hsched .ctxs (by decide)) c).trans ((State.ctxAt_setCtx _ _ _ _).trans (if_pos rfl))

theorem cipherUnitComplete_readEnds (hr : s.running = true) (he : s.cph.engines.getLsbD b = true) (hrun : (s.blk b).cipRun = some j)
    (hj : s.cipherJobAt j = some ⟨b, c, cls, false, [(zk, off, i)]⟩) (hx : s.ctxAt c = some x) (hkey : s.keyOwned (nsOfKey zk) x.tenant = true)
    (hk : x.kind = .read) (hlast : x.places.length ≤ x.finished + 1) (hd : x.discard = false) (hm : s.muted x.hdr = false) :
    ∃ t, exec (.cipherUnitComplete b j) s = .next t ∧
      Posted s t x.hdr .success 0 0 ∧ t.ctxAt c = none ∧ t.cipherJobAt j = none ∧ t.media = s.media ∧ t.zones = s.zones := by
  obtain ⟨hunit, honly, hjob, -, -⟩ := cipherUnit_plain hrun hj hx hkey _ rfl
  generalize s.unitDone j ⟨b, c, cls, false, [(zk, off, i)]⟩ [] = u at *
  obtain ⟨d, hplain⟩ : ∃ d, u.decryptUnit c x zk off i = (u.setCtx c (some { x with data := d, finished := x.finished + 1 })).readEnd c :=
    ⟨_, if_pos hlast⟩
  have hctx : (u.setCtx c (some { x with data := d, finished := x.finished + 1 })).ctxAt c = some { x with data := d, finished := x.finished + 1 } :=
    (State.ctxAt_setCtx _ _ _ _).trans (if_pos rfl)
  rw [hplain, readEnd_read hctx hk] at hunit
  generalize blockFields _ _ = fs at hunit
  have hset := honly.andThen (setCtx_only u c (some { x with data := d, finished := x.finished + 1 }))
  have hfin := finishWith_only (u.setCtx c (some { x with data := d, finished := x.finished + 1 })) c .success 0 0 fs
  have hsched := scheduleCipher_only ((u.setCtx c (some { x with data := d, finished := x.finished + 1 })).finishWith c .success 0 0 fs) b
  have hpost := finishWith_posted (s := s) hctx hd ((muted_congr x.hdr (hset .ctrls (by decide)) (hset .sqs (by decide)) (hset .fab (by decide))).trans hm)
    (hset .completions (by decide)) .success 0 0 fs
  refine ⟨_, (exec_cipherUnitComplete hr he).trans (congrArg _ hunit), hpost.of_eq (hsched .completions (by decide)), ?_,
    (cipherJobAt_congr (((setCtx_only _ _ _).andThen (hfin.andThen hsched)) .ciphers (by decide)) j).trans hjob,
    (hset.andThen (hfin.andThen hsched)) .media (by decide), (hset.andThen (hfin.andThen hsched)) .zones (by decide)⟩
  exact (ctxAt_congr (hsched .ctxs (by decide)) c).trans ((finishWith_ctxAt _ _ _ _ _ _ _).trans (if_pos rfl))

theorem cipherUnitComplete_foreign {enc : Bool} (hr : s.running = true) (he : s.cph.engines.getLsbD b = true) (hrun : (s.blk b).cipRun = some j)
    (hj : s.cipherJobAt j = some ⟨b, c, cls, enc, [(zk, off, i)]⟩) (hx : s.ctxAt c = some x) (hkey : s.keyOwned (nsOfKey zk) x.tenant = false)
    (hd : x.discard = false) (hm : s.muted x.hdr = false) (hroom : s.roomForEvents) : ∃ t,
    exec (.cipherUnitComplete b j) s = .next t ∧ Posted s t x.hdr .internalError 0 0 ∧ t.ctxAt c = none ∧ t.cipherJobAt j = none ∧
      t.media = s.media ∧ Recorded s t 0x0807 (srcCipher b) (s.ns (nsOfKey zk)).slot x.tenant
        (Tbl.look 0 s.cph.pages ((s.ns (nsOfKey zk)).slot / 16) - 1) (x.hdr.sqid % 65536 * 65536 + x.hdr.cid % 65536) := by
  have hrec := recorded_raise (s := s) hroom rfl (code := 0x0807) (by decide) (srcCipher b) (s.ns (nsOfKey zk)).slot x.tenant
    (Tbl.look 0 s.cph.pages ((s.ns (nsOfKey zk)).slot / 16) - 1) (x.hdr.sqid % 65536 * 65536 + x.hdr.cid % 65536)
  have hunit := cipherUnit_foreign hrun hj hx hkey
  have hraise := raise_only s 0x0807 (srcCipher b) (s.ns (nsOfKey zk)).slot x.tenant
    (Tbl.look 0 s.cph.pages ((s.ns (nsOfKey zk)).slot / 16) - 1) (x.hdr.sqid % 65536 * 65536 + x.hdr.cid % 65536)
  generalize s.raise 0x0807 _ _ _ _ _ = u at *
  have hjob : u.cipherJobAt j = some ⟨b, c, cls, enc, [(zk, off, i)]⟩ := (cipherJobAt_congr (hraise .ciphers (by decide)) j).trans hj
  have hdrop := hraise.andThen (dropJobsOf_only u c)
  have hfin := finish_only (u.dropJobsOf c) c .internalError
  refine ⟨_, (exec_cipherUnitComplete hr he).trans (congrArg _ hunit), finish_posted ((ctxAt_congr (hdrop .ctxs (by decide)) c).trans hx) hd
    ((muted_congr x.hdr (hdrop .ctrls (by decide)) (hdrop .sqs (by decide)) (hdrop .fab (by decide))).trans hm) (hdrop .completions (by decide)) _,
    (finish_ctxAt _ _ _ _).trans (if_pos rfl), (cipherJobAt_congr (hfin .ciphers (by decide)) j).trans (dropJobsOf_at hjob),
    (hdrop.andThen hfin) .media (by decide), ((dropJobsOf_only u c).andThen hfin) .records (by decide) _ hrec⟩

/-- A parcel whose copies are written acknowledges the Packed Append that it holds (R251). -/
theorem staged_parcel {g k : Nat} {m : Ctx} (hk : x.kind = .parcel) (hz : (s.ns x.nsid).zoned = true) (hb : x.behind = false)
    (hg : x.group = [(g, i, k)]) (hne : c ≠ g) (hm : s.ctxAt g = some m) (hd : m.discard = false) (hmute : s.muted m.hdr = false)
    (hclose : s.noClose) : (∀ zk off, some (zk, off) ∈ x.places → (s.staged c x).isStaged zk off = true) ∧ (s.staged c x).ctxAt c = none ∧
      (s.staged c x).ctxAt g = none ∧
      (m.granules ≤ k → Posted s (s.staged c x) m.hdr .success ((x.slba * 64 + i) % 2 ^ 32) ((x.slba * 64 + i) / 2 ^ 32)) ∧
      (k < m.granules → Posted s (s.staged c x) m.hdr .packedSpace k (x.off + x.places.length)) := by
  obtain ⟨hclosed, hctx, hmuted, hdirty⟩ := stageAll_ready hclose x
  have hstage := stageAll_only s x.tenant (x.places.filterMap fun p => p)
  have hzoned : ((s.stageAll x.tenant (x.places.filterMap fun p => p)).ns x.nsid).zoned = true := by
    have hn : (s.stageAll x.tenant (x.places.filterMap fun p => p)).nss = s.nss := hstage .nss (by decide)
    simp only [State.ns, hn]
    exact hz
  rw [staged_eq hb, ackWrite_parcel hzoned hk]
  generalize s.stageAll x.tenant (x.places.filterMap fun p => p) = u at *
  have hgone : (u.setCtx c none).noClose := hclosed.congr rfl
  have hleave := (setCtx_only u c none).andThen (leaveZone_open_only hgone x.zk c)
  have hleft := leaveZone_noClose hgone x.zk c
  have hctxc : ((u.setCtx c none).leaveZone x.zk c).ctxAt c = none :=
    (ctxAt_congr (leaveZone_open_only hgone x.zk c .ctxs (by decide)) c).trans ((State.ctxAt_setCtx _ _ _ _).trans (if_pos rfl))
  have hctxg : ((u.setCtx c none).leaveZone x.zk c).ctxAt g = some m :=
    (ctxAt_congr (leaveZone_open_only hgone x.zk c .ctxs (by decide)) g).trans
      ((State.ctxAt_setCtx _ _ _ _).trans ((if_neg (Ne.symm hne)).trans ((hctx g).trans hm)))
  rw [ackParcel_one hg hctxg]
  generalize (u.setCtx c none).leaveZone x.zk c = v at *
  have hleave2 := hleave.andThen (leaveZone_open_only hleft x.zk g)
  have hw : Only [.zones] v (v.leaveZone x.zk g) := leaveZone_open_only hleft x.zk g
  generalize v.leaveZone x.zk g = w at *
  have hall := hstage.andThen hleave2
  have hwg : w.ctxAt g = some m := (ctxAt_congr (hw .ctxs (by decide)) g).trans hctxg
  have hwc : w.ctxAt c = none := (ctxAt_congr (hw .ctxs (by decide)) c).trans hctxc
  have hwm : w.muted m.hdr = false := (muted_congr _ (hleave2 .ctrls (by decide)) (hleave2 .sqs (by decide)) (hleave2 .fab (by decide))).trans ((hmuted _).trans hmute)
  have hend (st : Status) (a b : Nat) :
      (∀ zk off, some (zk, off) ∈ x.places → ((w.finishWith g st a b []).restaged x.placeRows).isStaged zk off = true) ∧
        ((w.finishWith g st a b []).restaged x.placeRows).ctxAt c = none ∧ ((w.finishWith g st a b []).restaged x.placeRows).ctxAt g = none ∧
        Posted s ((w.finishWith g st a b []).restaged x.placeRows) m.hdr st a b := by
    refine ⟨fun zk off h => restaged_staged _ _ _ _ ?_, restaged_none ?_ _, restaged_none ?_ _, ?_⟩
    · rw [isStaged_congr ((hleave2.andThen (finishWith_only w g st a b [])) .rows (by decide))]
      exact hdirty zk off h
    · rw [finishWith_ctxAt, if_neg hne, hwc]
    · rw [finishWith_ctxAt, if_pos rfl]
    · exact (finishWith_posted hwg hd hwm (hall .completions (by decide)) st a b []).of_eq (restaged_only _ _ .completions (by decide))
  split
  case isTrue hlt =>
    obtain ⟨hdirty, hc, hg, hpost⟩ := hend .packedSpace k (x.off + x.places.length)
    exact ⟨hdirty, hc, hg, fun h => absurd hlt (by omega), fun _ => hpost⟩
  case isFalse hge =>
    obtain ⟨hdirty, hc, hg, hpost⟩ := hend .success ((x.slba * 64 + i) % 2 ^ 32) ((x.slba * 64 + i) / 2 ^ 32)
    exact ⟨hdirty, hc, hg, fun _ => hpost, fun h => absurd h hge⟩

/-- A zoned write staged and acknowledged. -/
theorem staged_zoned {a b : Nat} (hx : s.ctxAt c = some x) (hz : (s.ns x.nsid).zoned = true) (hb : x.behind = false) (hd : x.discard = false)
    (hm : s.muted x.hdr = false) (hclose : s.noClose)
    (hk : (x.kind = .append ∧ a = x.slba % 2 ^ 32 ∧ b = x.slba / 2 ^ 32) ∨ ((x.kind = .write ∨ x.kind = .writeZeroes) ∧ a = 0 ∧ b = 0)) :
    Acknowledged s (s.staged c x) c x a b := by
  have hstage := stageAll_only s x.tenant (x.places.filterMap fun p => p)
  have hzoned : ((s.stageAll x.tenant (x.places.filterMap fun p => p)).ns x.nsid).zoned = true := by
    have hn : (s.stageAll x.tenant (x.places.filterMap fun p => p)).nss = s.nss := hstage .nss (by decide)
    simp only [State.ns, hn]
    exact hz
  refine (staged_acknowledged hx hb hd hm hclose (stageAll_ready hclose x).1 .refl ?_).1
  rcases hk with ⟨hk, rfl, rfl⟩ | ⟨hk, rfl, rfl⟩
  · rw [ackWrite_zoned hzoned (by simp [hk]) hb, if_pos hk]
  · have hparcel : x.kind ≠ .parcel := by rcases hk with h | h <;> simp [h]
    have happend : x.kind ≠ .append := by rcases hk with h | h <;> simp [h]
    rw [ackWrite_zoned hzoned hparcel hb, if_neg happend]
    rfl

/-- A conventional write staged and acknowledged; it has entered the forward map. -/
theorem staged_conventional (hx : s.ctxAt c = some x) (hz : (s.ns x.nsid).zoned = false) (hb : x.behind = false) (hd : x.discard = false)
    (hm : s.muted x.hdr = false) (hclose : s.noClose) (hk : x.kind = .write ∨ x.kind = .writeZeroes) :
    Acknowledged s (s.staged c x) c x 0 0 ∧ ∀ i, (s.staged c x).mapped x i := by
  have hstage := stageAll_only s x.tenant (x.places.filterMap fun p => p)
  have hzoned : ((s.stageAll x.tenant (x.places.filterMap fun p => p)).ns x.nsid).zoned = false := by
    have hn : (s.stageAll x.tenant (x.places.filterMap fun p => p)).nss = s.nss := hstage .nss (by decide)
    simp only [State.ns, hn]
    exact hz
  obtain ⟨hack, hnss⟩ := staged_acknowledged hx hb hd hm hclose (mapFrames_noClose (stageAll_ready hclose x).1 x) (mapFrames_only _ x)
    (ackWrite_conventional hzoned hk hb)
  refine ⟨hack, fun i p hp => ?_⟩
  simp only [State.ns, hnss]
  exact mapFrames_mapped _ x i p hp

end

/-- Settles O28: each command's path from its data to its acknowledgement, one part of it per lemma. -/
theorem writtenDataReachStaging : Obligations.WrittenDataReachStaging := by
  unfold Obligations.WrittenDataReachStaging
  refine ⟨?_, ?_, ?_, ?_, ?_, ?_, ?_, ?_, ?_, ?_, ?_, ?_, ?_, ?_, ?_, ?_, ?_, ?_⟩
  · intro c data x s hx hp hk
    obtain ⟨t, y, ht, honly, hy, hyx⟩ := hostDataArrival_write hx hp hk data
    exact ⟨t, y, ht, hy, hyx, honly .media (by decide), honly .zones (by decide), honly .nss (by decide), honly .out (by decide), honly .power (by decide)⟩
  · intro c data x s hx hp hk hm
    obtain ⟨t, y, ht, honly, hpost, hy, hphase, hdiscard, hlen⟩ := hostDataArrival_failed hx hp hk hm data
    exact ⟨t, y, ht, hpost, hy, hphase, hdiscard, hlen, honly .media (by decide), honly .zones (by decide)⟩
  · intro c data x s hx hp hk hc
    obtain ⟨t, y, ht, honly, hy, hphase, hdata, hknows⟩ := hostDataArrival_packed hx hp hk hc data
    refine ⟨t, y, ht, hy, hphase, hdata.trans ?_, hknows, honly .media (by decide), honly .zones (by decide), honly .out (by decide)⟩
    rw [fetchedData, show 8 * 4096 = 32768 from rfl]
  · intro c data x s hx hp hk hd hm hw hc hf
    obtain ⟨t, ht, honly, hpost, hgone, hzone⟩ := hostDataArrival_packedFailed hx hp hk hd hm hw hc hf data
    exact ⟨t, ht, hpost, hgone, by rw [hzone], by rw [hzone], honly .media (by decide)⟩
  · exact fun c ok data s h => exec_hostDataArrival_idle h ok data
  · intro b j c zk off i cls x s hr he hrun hj hx hkey hb
    exact cipherUnitComplete_stores hr he hrun hj hx hkey hb
  · intro b j c zk off i cls rest x s hr he hrun hj hx hkey hb
    exact cipherUnitComplete_keeps hr he hrun hj hx hkey hb
  · intro b j c zk off i cls x s hr he hrun hj hx hkey hf hlast
    exact cipherUnitComplete_plain hr he hrun hj hx hkey hf hlast
  · intro b j c zk off i cls x s hr he hrun hj hx hkey hk hlast hd hm
    exact cipherUnitComplete_readEnds hr he hrun hj hx hkey hk hlast hd hm
  · intro b j c zk off i cls enc x s hr he hrun hj hx hkey hd hm hroom
    exact cipherUnitComplete_foreign hr he hrun hj hx hkey hd hm hroom
  · intro b j k s hr he hrun hj hc
    have honly := dropCipherJob_only s j
    exact ⟨_, (exec_cipherUnitComplete hr he).trans (congrArg _ (cipherUnit_gone hrun hj hc)), by simp [dropCipherJob_at],
      honly .media (by decide), honly .out (by decide)⟩
  · exact fun b j s h => exec_cipherUnitComplete_idle h
  · intro c x s hx hp hk hz hb hd hm hclose
    have hack := staged_zoned hx hz hb hd hm hclose (.inr ⟨hk, rfl, rfl⟩)
    exact ⟨_, exec_stagingWritten hx hp, fun zk off h => ⟨hack.staged zk off h, hack.left zk off h⟩, hack.posted, hack.gone, hack.media⟩
  · intro c x s hx hp hk hz hb hd hm hclose
    have hack := staged_zoned hx hz hb hd hm hclose (.inl ⟨hk, rfl, rfl⟩)
    exact ⟨_, exec_stagingWritten hx hp, hack.staged, hack.posted, hack.gone, hack.media⟩
  · intro c x s hx hp hk hz hb hd hm hclose
    obtain ⟨hack, hmapped⟩ := staged_conventional hx hz hb hd hm hclose hk
    exact ⟨_, exec_stagingWritten hx hp, hack.staged, hmapped, hack.posted, hack.gone, hack.media⟩
  · intro c x s hx hp hk hz hb
    have hset := setCtx_only s c (some { x with phase := .done })
    have hdirty := compareDirty_only (s.setCtx c (some { x with phase := .done }))
    refine ⟨_, (exec_stagingWritten hx hp).trans (congrArg _ (staged_behind hb hz hk)),
      (ctxAt_congr (hdirty .ctxs (by decide)) c).trans ((State.ctxAt_setCtx _ _ _ _).trans (if_pos rfl)),
      (hset.andThen hdirty) .completions (by decide), (hset.andThen hdirty) .media (by decide), (hset.andThen hdirty) .zones (by decide)⟩
  · intro c g i k x m s hx hp hk hz hb hg hne hm hd hmute hclose
    exact ⟨_, exec_stagingWritten hx hp, staged_parcel hk hz hb hg hne hm hd hmute hclose⟩
  · exact fun c s h => exec_stagingWritten_idle h

end Sys2Proof.Machine
end

section
/-! What the loss of a die or of a lane can touch (R199-R201, R34): its reads that go around, its relocation, its stripe sets and their zones. -/

namespace Sys2Proof.Machine

/-- What the loss of a die or of a lane can touch. -/
def lossParts : List Part := aroundParts ++ [.bank, .sets, .nss, .zones, .ctrls, .ops, .rows, .store, .windows]

/-- A step taken, and after it another in one case only. -/
theorem Only.thenIf {F : List Part} {s t u : State} {c : Prop} [Decidable c] (h : Only F s t) (g : Only F t u) :
    Only F s (if c then u else t) := .ites (h.trans g) h

/-- A step taken, and after it another unless in one case. -/
theorem Only.thenUnless {F : List Part} {s t u : State} {c : Prop} [Decidable c] (h : Only F s t) (g : Only F t u) :
    Only F s (if c then t else u) := .ites h (h.trans g)

section
variable (s : State)

theorem updWork_rows_only (f : Work → Work) (h : ({ f s.work with rows := [] } : Work).tables = ({ s.work with rows := [] } : Work).tables) :
    Only [.work, .rows] s (s.onWork f) := by
  simp only [Work.tables, Work.mk.injEq] at h
  exact .of_kept fun p => by cases p <;> simp [Part.Kept, State.blk, State.tenant, State.onWork, h]

theorem notices_only (n : Nat) (x : Notice) : Only [.out] s (s.onOut fun o => { o with notices := o.notices ++ [(n, x)] }) :=
  .of_kept fun p => by cases p <;> simp [Part.Kept, State.blk, State.tenant, State.onOut]

theorem aroundLane_only (n : Nat) (v : Service) : Only aroundParts s (s.aroundLane n v) := .each fun _ _ => aroundEntry_only _ _ _

theorem sendTs_only (n kind : Nat) : Only [.out, .down] s (s.sendTs n kind) := sendDown_only _ _ _

theorem resumeLane_only (n : Nat) : Only [.out, .down, .lanes] s (s.resumeLane n) :=
  ((setLane_only _ _ _).andThen (sendTs_only _ _ _)).mono (by decide)

theorem startTraining_only (n : Nat) : Only [.out, .down, .lanes] s (s.startTraining n) :=
  ((setLane_only _ _ _).andThen (sendTs_only _ _ _)).mono (by decide)

theorem unbook_only (k e : Nat) : Only [.dies] s (s.unbook k e) := setDie_only _ _ _

theorem endOp_only (k tag : Nat) (o : Op) : Only [.work, .ops, .dies] s (s.endOp k tag o) :=
  ((setOp_only _ _ _).andThen ((Only.each fun _ _ => unbook_only _ _ _).andThen (setDie_only _ _ _))).mono (by decide)

theorem settleDie_only (k : Nat) : Only [.dies] s (s.settleDie k) := by
  unfold State.settleDie
  simp only
  split
  · exact .refl
  · exact setDie_only _ _ _

theorem unsend_only (k tag : Nat) (o : Op) : Only [.work, .ops, .dies] s (s.unsend k tag o) :=
  ((endOp_only _ _ _ _).andThen ((setDie_only _ _ _).andThen (settleDie_only _ _))).mono (by decide)

theorem unknownOp_only (n tag : Nat) (o : Op) : Only [.work, .ops, .dies] s (s.unknownOp n tag o) := by
  unfold State.unknownOp
  exact .ites .refl (unsend_only _ _ _ _)

theorem raisePhy_only (code n a b c : Nat) : Only [.evr, .aon] s (s.raisePhy code n a b c) := raise_only _ _ _ _ _ _ _

theorem raisePort_only (code n a b c : Nat) : Only [.evr, .aon] s (s.raisePort code n a b c) := by
  unfold State.raisePort
  exact .ites (raisePhy_only _ _ _ _ _ _) (raise_only _ _ _ _ _ _ _)

theorem noteFailure_only (source : Nat) (cs : List Nat) : Only [.work, .ctxs, .tmk, .tmkBase] s (s.noteFailure source cs) :=
  ((Only.each fun _ _ => updCtx_only _ _ _).andThen (onTmk_only _ _)).mono (by decide)

theorem returnBaton_only (op : HeavyOp) : Only [.broker] s (s.returnBaton op) := onBroker_only _ _

theorem dropCopies_only (k b : Nat) : Only [.dies, .broker] s (s.dropCopies k b) := by
  unfold State.dropCopies
  simp only
  refine .thenIf (((setDie_only _ _ _).mono (by decide)).trans (.each fun _ _ => ?_)) ((returnBaton_only _ _).mono (by decide))
  exact (unbook_only _ _ _).mono (by decide)

theorem commitMap_only (zk : Nat) (f : Zone → Zone) : Only [.store, .zones] s (s.commitMap zk f) := commitZone_only _ _ _

theorem raiseMember_only (code k zk a b c : Nat) : Only [.evr, .aon] s (s.raiseMember code k zk a b c) := raise_only _ _ _ _ _ _ _

theorem releaseBlock_only (k b : Nat) : Only [.dies] s (s.releaseBlock k b) := setDie_only _ _ _

theorem endRelocation_only (k cause : Nat) (retired : Bool) : Only lossParts s (s.endRelocation k cause retired) := by
  unfold State.endRelocation
  split
  · exact .refl
  · refine Only.trans (.thenUnless ?_ ((releaseBlock_only _ _ _).mono (by decide))) ((raiseMember_only _ _ _ _ _ _ _).mono (by decide))
    exact ((dropCopies_only _ _ _).andThen ((setDie_only _ _ _).andThen (commitMap_only _ _ _))).mono (by decide)

theorem releaseRows_only : Only lossParts s s.releaseRows := by
  unfold State.releaseRows
  exact .ites (((updWork_rows_only _ _ (by rfl)).andThen (compareDirty_only _)).mono (by decide)) .refl

theorem raiseZone_only (code zk a b : Nat) : Only [.evr, .aon] s (s.raiseZone code zk a b) := raise_only _ _ _ _ _ _ _

theorem tellCtrl_only (c : Nat) (n : Notice) : Only lossParts s (s.tellCtrl c n) := by
  unfold State.tellCtrl
  simp only
  split
  · exact (setCtrl_only _ _ _).mono (by decide)
  · exact ((draw_only s).andThen ((setCtrl_only _ _ _).andThen (completeWith_only _ _ _ _ _ _))).mono (by decide)

theorem notify_only (u : Nat) (n : Notice) : Only lossParts s (s.notify u n) :=
  ((notices_only s u n).mono (by decide)).trans (.each fun _ _ => tellCtrl_only _ _ _)

theorem zoneChanged_only (zk : Nat) : Only lossParts s (s.zoneChanged zk) :=
  ((setNs_only s _ _).mono (by decide)).trans (notify_only _ _ _)

theorem releaseMembers_only (z : Zone) (l : List Nat) : Only [.dies] s (s.each l fun p s =>
    match s.memberAt z p with
    | none => s
    | some k => s.releaseBlock k (z.dblk.getD p 0)) := by
  refine .each fun p u => ?_
  split
  · exact .refl
  · exact releaseBlock_only _ _ _

theorem releaseUnit_only (zk : Nat) : Only [.dies] s (s.releaseUnit zk) := by
  have hmembers := releaseMembers_only s (s.zone zk) (List.range (s.zone zk).dblk.length)
  unfold State.releaseUnit
  simp only
  split
  · exact hmembers
  split
  · exact hmembers
  · exact hmembers.trans ((releaseBlock_only _ _ _).trans (setDie_only _ _ _))

theorem keepReads_only (zk : Nat) : Only [.fab, .windows] s (s.keepReads zk) := onFab_only _ _

theorem dropWindow_only (w : Nat) : Only [.fab, .windows] s (s.dropWindow w) := (setWindow_only _ _ _).trans (onFab_only _ _)

theorem raiseRdma_only (code a b c d : Nat) : Only [.evr, .aon] s (s.raiseRdma code a b c d) := raise_only _ _ _ _ _ _ _

theorem revokeWindows_only (zk cause : Nat) : Only lossParts s (s.revokeWindows zk cause) := by
  unfold State.revokeWindows
  simp only
  split
  · exact (keepReads_only _ _).mono (by decide)
  · refine Only.trans (Only.trans ((keepReads_only _ _).mono (by decide)) (.each fun w u => ?_)) ((raiseRdma_only _ _ _ _ _ _).mono (by decide))
    split
    · exact ((dropWindow_only _ _).andThen (completeWith_only _ _ _ _ _ _)).mono (by decide)
    · exact (dropWindow_only _ _).mono (by decide)

theorem degradeZone_only (losses zk : Nat) : Only lossParts s (s.degradeZone losses zk) := by
  unfold State.degradeZone
  simp only
  split
  · exact .refl
  split
  · refine .ites .refl (Only.trans ?_ ((zoneChanged_only _ _).trans ((raiseZone_only _ _ _ _ _).mono (by decide))))
    exact (setZone_only _ _ _).mono (by decide)
  · refine Only.trans ?_ ((zoneChanged_only _ _).trans ((raiseZone_only _ _ _ _ _).mono (by decide)))
    refine Only.trans ?_ ((commitZone_only _ _ _).mono (by decide))
    refine Only.trans ?_ (((updWork_rows_only _ _ (by rfl)).andThen (compareDirty_only _)).mono (by decide))
    exact (revokeWindows_only _ _ _).trans ((releaseUnit_only _ _).mono (by decide))

theorem startStripeRebuild_only (set pos k : Nat) : Only lossParts s (s.startStripeRebuild set pos k) := by
  unfold State.startStripeRebuild
  simp only
  split
  · exact (raise_only _ _ _ _ _ _ _).mono (by decide)
  · exact ((setStripe_only _ _ _).andThen ((onStore_base_only _ _ (by rfl)).andThen (raise_only _ _ _ _ _ _ _))).mono (by decide)

theorem loseMember_only (set k cause : Nat) : Only lossParts s (s.loseMember set k cause) := by
  unfold State.loseMember
  simp only
  have hlost (v : StripeSet) (code src a b c d n : Nat) (zks : List Nat) :
      Only lossParts s (((s.setStripe set v).releaseRows.raise code src a b c d).each zks fun zk s => s.degradeZone n zk) := by
    refine Only.trans ?_ (.each fun _ _ => degradeZone_only _ _ _)
    exact ((setStripe_only _ _ _).mono (by decide)).trans ((releaseRows_only _).trans ((raise_only _ _ _ _ _ _ _).mono (by decide)))
  split
  · exact hlost _ _ _ _ _ _ _ _ _
  · exact (hlost _ _ _ _ _ _ _ _ _).trans (startStripeRebuild_only _ _ _ _)

theorem dropDieOps_only (k : Nat) (v : Service) : Only lossParts s (s.dropDieOps k v) := by
  unfold State.dropDieOps
  simp only
  refine Only.trans (Only.trans ?_ (.each fun _ _ => (setOp_only _ _ _).mono (by decide))) (.each fun p u => ?_)
  · exact ((returnBaton_only _ _).trans (returnBaton_only _ _)).mono (by decide)
  split
  · exact .refl
  · exact .ites .refl (.each fun _ _ => (aroundEntry_only _ _ _).mono (by decide))

theorem loseDie_only (k cause : Nat) : Only lossParts s (s.loseDie k cause) := by
  unfold State.loseDie
  simp only
  split
  · exact .refl
  refine Only.trans ?_ (Only.trans (.each fun _ _ => (aroundEntry_only _ _ _).mono (by decide)) (dropDieOps_only _ _ _))
  refine Only.trans ?_ (.each fun n u => ?_)
  · refine Only.trans ?_ (((mapZones_only _ _).mono (by decide)).trans (releaseRows_only _))
    refine Only.trans ?_ (Only.trans ((onStore_base_only _ _ (by rfl)).mono (by decide)) (.each fun _ _ => loseMember_only _ _ _ _))
    exact .thenIf ((setDie_only _ _ _).mono (by decide)) (((setDie_only _ _ _).mono (by decide)).trans (endRelocation_only _ _ _ _))
  · split
    · exact .refl
    · exact ((setStripe_only u n _).mono (by decide)).trans (startStripeRebuild_only _ _ _ _)

theorem retireLane_only (n cause : Nat) : Only lossParts s (s.retireLane n cause) :=
  (Only.each fun _ _ => loseDie_only _ _ _).trans ((raise_only _ _ _ _ _ _ _).mono (by decide))

theorem failLane_only (n cause : Nat) : Only (.lanes :: lossParts) s (s.failLane n cause) :=
  (((setLane_only _ _ _).andThen (returnBaton_only _ _)).mono (by decide)).trans
    (((retireLane_only _ _ _).mono (by decide)).trans ((raisePhy_only _ _ _ _ _ _).mono (by decide)))

theorem syncDone_only (n : Nat) : Only [.lanes, .work, .ops, .dies, .blks, .blkBase, .flt, .evr, .aon] s (s.syncDone n) := by
  unfold State.syncDone
  simp only
  have hsettled (v : Lane) (l : List (Nat × Op)) : Only [.lanes, .work, .ops, .dies, .blks, .blkBase, .flt, .evr, .aon] s
      ((s.setLane n v).each l fun p s => s.unknownOp n p.1 p.2) :=
    ((setLane_only _ _ _).mono (by decide)).trans (.each fun _ _ => (unknownOp_only _ _ _ _).mono (by decide))
  split
  · refine .thenUnless (hsettled _ _) (Only.trans ?_ (((raisePort_only _ _ _ _ _ _).trans (raise_only _ _ _ _ _ _ _)).mono (by decide)))
    exact ((setBlk_core_only _ _ _ (by rfl)).andThen ((setLane_only _ _ _).andThen (onFlt_base_only _ _ (by rfl)))).mono (by decide)
  · exact hsettled _ _

end

end Sys2Proof.Machine
end

section
/-! What a fault stop and its landing can touch (R438, R439, R531). -/

namespace Sys2Proof.Machine

/-- What a landing can touch, from its start to its end. -/
def landParts : List Part :=
  [.power, .landCause, .broker, .tmk, .tmkBase, .dies, .work, .ops, .parities, .lanes, .out, .down, .aon, .always, .evr, .store, .figures]

/-- What a fault stop can touch. -/
def stopParts : List Part := landParts ++ [.flt, .ctrls]

section
variable (s : State)

theorem pumpLane_only (fuel n : Nat) : Only [.lanes, .out, .down] s (s.pumpLane fuel n) := by
  induction fuel generalizing s with
  | zero => exact .refl
  | succ fuel ih =>
    have hflit (u : State) (f : TxFlit) : Only [.lanes, .out, .down] u (u.sendFlit n f) := by
      unfold State.sendFlit
      simp only
      split
      · exact ((setLane_only _ _ _).andThen (sendDown_only _ _ _)).mono (by decide)
      · exact ((setLane_only _ _ _).andThen ((sendDown_only _ _ _).andThen (sendDown_only _ _ _))).mono (by decide)
    unfold State.pumpLane
    split
    · split
      · exact .refl
      · exact ((setLane_only _ _ _).mono (by decide)).trans ((hflit _ _).trans (ih _))
    · exact .refl

theorem post_only (n : Nat) (ms : List Msg) (die : Nat) (data : List (DataIn × Nat)) : Only [.lanes, .out, .down] s (s.post n ms die data) :=
  ((setLane_only _ _ _).mono (by decide)).trans (pumpLane_only _ _ _)

theorem abortOp_only (k tag : Nat) (o : Op) (code : Nat) : Only [.work, .ops, .lanes, .out, .down, .dies] s (s.abortOp k tag o code) :=
  ((setOp_only _ _ _).andThen ((post_only _ _ _ _ _).andThen (settleDie_only _ _))).mono (by decide)

theorem enterLanding_only (k : Nat) : Only [.work, .ops, .lanes, .out, .down, .dies] s (s.enterLanding k) := by
  unfold State.enterLanding
  refine Only.trans ?_ ((settleDie_only _ _).mono (by decide))
  split
  · exact .ites (abortOp_only _ _ _ _ _) .refl
  · exact .refl

theorem closeBroker_only (b : Bool) : Only [.broker, .tmk, .tmkBase] s (s.closeBroker b) := by
  unfold State.closeBroker State.reportWait
  exact .ites .refl (((onBroker_only _ _).andThen ((onBroker_only _ _).andThen (onTmk_only _ _))).mono (by decide))

theorem wakeLane_only (n : Nat) : Only [.lanes, .out, .down] s (s.wakeLane n) := by
  unfold State.wakeLane
  exact .ites (((setLane_only _ _ _).andThen (sendTs_only _ _ _)).mono (by decide)) .refl

/-- A step of the landing that keeps its cause touches the power state's landing alone. -/
theorem onLanding_only (f : Landing → Landing) (hf : ∀ l, (f l).cause = l.cause) : Only [.power] s (s.onLanding f) := by
  have hbase := onPower_base_only s (fun p => { p with landing := p.landing.map f }) rfl
  have hcause : Part.landCause.Kept s (s.onLanding f) := by
    change ((s.power.landing.map f).map Landing.cause) = _
    rw [Option.map_map]
    exact Option.map_congr fun l _ => hf l
  intro p hp
  by_cases h : p = .landCause
  · rw [h]
    exact hcause
  · exact hbase p (by simp_all)

theorem dropLanded_only (l : Landing) : Only [.power, .dies] s (s.dropLanded l) := by
  unfold State.dropLanded
  simp only
  refine Only.trans (.each fun _ _ => ?_) ((onLanding_only _ _ (by exact fun _ => rfl)).mono (by decide))
  exact (setDie_only _ _ _).mono (by decide)

theorem bookHeavy_only (k : Nat) (kind : OpKind) (e : Nat) : Only [.dies] s (s.bookHeavy k kind e) := setDie_only _ _ _

theorem enqueueHeavy_only (k : Nat) (e : QEntry) : Only [.work, .dies] s (s.enqueueHeavy k e) :=
  ((onWork_tables_only _ _ (by rfl)).andThen ((bookHeavy_only _ _ _ _).andThen (setDie_only _ _ _))).mono (by decide)

theorem writeJournal_only : Only [.power, .work, .dies] s s.writeJournal := by
  unfold State.writeJournal
  split
  · exact .refl
  · simp only
    refine .ites .refl (Only.trans (.each fun _ _ => ?_) ((onLanding_only _ _ (by exact fun _ => rfl)).mono (by decide)))
    exact (enqueueHeavy_only _ _ _).mono (by decide)

theorem landUnit_only (u : LandUnit) : Only [.power, .work, .dies] s (s.landUnit u) := by
  unfold State.landUnit
  split
  · exact .refl
  · exact ((enqueueHeavy_only _ _ _).andThen (onLanding_only _ _ (by exact fun _ => rfl))).mono (by decide)

theorem assignLanding_only : Only [.power, .work, .dies] s s.assignLanding := by
  unfold State.assignLanding
  split
  · exact .refl
  · exact ((dropLanded_only _ _).mono (by decide)).trans ((Only.each fun _ _ => landUnit_only _ _).trans (writeJournal_only _))

theorem listLanding_only : Only [.power, .work, .dies] s s.listLanding := by
  unfold State.listLanding
  split
  · exact .refl
  · exact .ites .refl (((onLanding_only _ _ (by exact fun _ => rfl)).mono (by decide)).trans (assignLanding_only _))

theorem writeDirectory_only (f : Option (Nat × Nat × Nat)) : Only [.store, .figures] s (s.writeDirectory f) := by
  unfold State.writeDirectory
  split
  · exact .refl
  · exact onStore_only _ _

theorem keepRecords_only : Only [.store] s s.keepRecords := onStore_base_only _ _ (by rfl)

/-- A landing that is not for a reset settles: with its last unit the directory is written, the device stays as it is (R439, R531). -/
theorem settleLanding_only (h : s.power.landing.map Landing.cause ≠ some .chipReset) : Only landParts s s.settleLanding := by
  have hassign := assignLanding_only s
  have hcause : s.assignLanding.power.landing.map Landing.cause ≠ some .chipReset := fun hc =>
    h ((hassign .landCause (by decide) : s.assignLanding.power.landing.map Landing.cause = _).symm.trans hc)
  unfold State.settleLanding
  generalize s.assignLanding = u at *
  have hu : Only landParts s u := hassign.mono (by decide)
  simp only
  split
  · exact hu
  split
  · exact hu
  case h_2 l hl =>
    split
    case h_1 hl2 => exact absurd (by rw [hl, Option.map_some, hl2]) hcause
    case h_2 =>
      refine hu.trans (Only.trans ?_ ((onPower_base_only _ _ (by rfl)).mono (by decide)))
      exact ((writeDirectory_only _ _).andThen ((keepRecords_only _).andThen (raise_only _ _ _ _ _ _ _))).mono (by decide)
    all_goals exact hu

/-- What the start of a landing can touch once its record stands. -/
def landStartParts : List Part :=
  [.power, .broker, .tmk, .tmkBase, .dies, .work, .ops, .parities, .lanes, .out, .down, .aon, .always]

/-- A landing as it begins (R438). -/
def State.newLanding (s : State) (cause : LandCause) (mv : Nat) : Landing :=
  { cause := cause, since := s.now, eBank := s.eBankAt mv, dirtyKib := s.dirtyKib, pred := ceilDiv (s.predicted s.dirtyKib) 1000000,
    toppedUp := false, waiting := [], toWrite := [], written := (match s.power.landing with | some l => l.written | none => []),
    mode := s.power.mode }

/-- The state in which the record of the landing stands. -/
def State.landing0 (s : State) (cause : LandCause) (mv : Nat) : State :=
  s.onPower fun p => { p with landing := some (s.newLanding cause mv) }

theorem startLanding_from (cause : LandCause) (mv : Nat) : Only landStartParts (s.landing0 cause mv) (s.startLanding cause mv) := by
  have hlist (u v : State) (h : Only landStartParts u v) : Only landStartParts u (if v.incompleteRows = [] then v.listLanding else v) :=
    .thenIf h ((listLanding_only _).mono (by decide))
  have hwake (u v : State) (ns : List Nat) (w : BitVec 64) {c : Prop} [Decidable c] (h : Only landStartParts u v) :
      Only landStartParts u (if c then v else ((v.powerDomains w).releasePads w).each ns fun n s => s.wakeLane n) := by
    refine .thenUnless h (Only.trans ?_ (.each fun _ _ => (wakeLane_only _ _).mono (by decide)))
    exact ((onAon_only _ _).andThen (onAon_only _ _)).mono (by decide)
  have hbegin (u : State) (ks : List Nat) : Only landStartParts u ((u.closeBroker true).each ks fun k s => s.enterLanding k) :=
    ((closeBroker_only _ _).mono (by decide)).trans (.each fun _ _ => (enterLanding_only _ _).mono (by decide))
  unfold State.startLanding
  exact hlist _ _ (Only.trans (hwake _ _ _ _ (hbegin _ _)) (.each fun _ _ => (addParityWork_only _ _).mono (by decide)))

theorem startLanding_only (cause : LandCause) (mv : Nat) : Only landParts s (s.startLanding cause mv) :=
  ((onPower_base_only s (fun p => { p with landing := some (s.newLanding cause mv) }) (by rfl)).mono (by decide)).trans
    ((startLanding_from s cause mv).mono (by decide))

theorem startLanding_cause (cause : LandCause) (mv : Nat) : (s.startLanding cause mv).power.landing.map Landing.cause = some cause :=
  startLanding_from s cause mv .landCause (by decide)

/-- The state in which a fault stop's landing is settled (R531). -/
def State.stopped (s : State) (cause : Nat) : State :=
  ((s.onFlt fun f => { f with stop := cause }).mapCtrls fun _ c => { c with cfs := true }).onPower fun p => { p with entry := none }

theorem stopped_only (cause : Nat) : Only stopParts s (s.stopped cause) :=
  ((onFlt_base_only _ _ (by rfl)).andThen ((mapCtrls_only _ _).andThen (onPower_base_only _ _ (by rfl)))).mono (by decide)

/-- A fault stop once it has begun: its landing changes the faults no more (R531). -/
theorem faultStop_begun {cause : Nat} (h : ¬(s.flt.stop ≠ 0 ∨ s.power.mode = .homestretch ∨ s.running = false)) :
    Only landParts (s.stopped cause) (s.faultStop cause) := by
  have hlanding (u : State) (l : Landing) :
      Only landParts u ((u.onPower fun p => { p with landing := some { l with cause := .faultStop } }).settleLanding) :=
    ((onPower_base_only _ _ (by rfl)).mono (by decide)).trans (settleLanding_only _ (by simp [State.onPower]))
  unfold State.faultStop
  rw [if_neg h]
  refine .ites ((raise_only _ _ _ _ _ _ _).mono (by decide)) ?_
  split
  · exact .ites .refl (hlanding _ _)
  · exact (startLanding_only _ _ _).trans (settleLanding_only _ (by rw [startLanding_cause]; simp))

theorem faultStop_only (cause : Nat) : Only stopParts s (s.faultStop cause) := by
  by_cases h : s.flt.stop ≠ 0 ∨ s.power.mode = .homestretch ∨ s.running = false
  · unfold State.faultStop
    rw [if_pos h]
    exact .refl
  · exact (stopped_only s cause).trans ((faultStop_begun s h).mono (by decide))

/-- The cause of a fault stop that begins is the one given (R531). -/
theorem faultStop_stop {cause : Nat} (hs : s.flt.stop = 0) (hm : s.power.mode ≠ .homestretch) (hr : s.running = true) :
    (s.faultStop cause).flt.stop = cause := by
  have h := faultStop_begun s (cause := cause) (by simp [hs, hm, hr]) .flt (by decide)
  exact congrArg Faults.stop h

theorem raiseMissing_only (a b : Nat) : Only [.evr, .aon] s (s.raiseMissing a b) := raise_only _ _ _ _ _ _ _

theorem checkService_only : Only stopParts s s.checkService := by
  unfold State.checkService
  exact .ites .refl (((raiseMissing_only _ _ _).mono (by decide)).trans (faultStop_only _ _))

end

end Sys2Proof.Machine
end

section
/-! The responses to faults (R34-R36, R523-R531): what each puts out of service at once, and what its response can touch after that. -/

namespace Sys2Proof.Machine

/-- What the response to a pacer that fails can touch once its cell is fenced. -/
def pacerParts : List Part := lossParts ++ [.lanes, .down, .blkBase, .flt, .tmkBase]

/-- What the response to a marshal that fails can touch once its block is out. -/
def marshalParts : List Part := aroundParts ++ [.tmkBase]

section
variable (s : State)

theorem unserve_only (n cause : Nat) : Only (.lanes :: .blkBase :: lossParts) s (s.unserve n cause) := by
  unfold State.unserve
  refine .ites .refl (Only.trans ?_ ((failLane_only _ _ _).mono (by decide)))
  exact ((setBlk_core_only _ _ _ (by rfl)).andThen ((setLane_only _ _ _).andThen (raise_only _ _ _ _ _ _ _))).mono (by decide)

theorem moveToSpare_only (n : Nat) :
    Only [.lanes, .out, .down, .work, .ops, .dies, .blks, .blkBase, .flt, .evr, .aon] s (s.moveToSpare n) := by
  unfold State.moveToSpare
  refine .ites ((resumeLane_only _ _).mono (by decide)) (.ites ?_ (.ites ?_ ((syncDone_only _ _).mono (by decide))))
  · exact ((setLane_only _ _ _).andThen (sendTs_only _ _ _)).mono (by decide)
  · exact ((startTraining_only _ _).andThen (setLane_only _ _ _)).mono (by decide)

/-- A pacer's cell fenced: what every response to its failure begins with (R525). -/
def State.cellOut (s : State) (cell : Nat) : State :=
  (s.updBlk (cell / 17) fun y => { y with cellFailed := setBit y.cellFailed (cell % 17) }).unitFailed (srcPacer cell)

theorem pacerFails_known {cell : Nat} (h : hasBit (s.blk (cell / 17)).cellFailed (cell % 17) = true) : s.pacerFails cell = s := by
  unfold State.pacerFails
  exact if_pos h

theorem pacerFails_from {cell : Nat} (h : hasBit (s.blk (cell / 17)).cellFailed (cell % 17) = false) :
    Only pacerParts (s.cellOut cell) (s.pacerFails cell) := by
  have hnoted (u : State) (src n cause : Nat) (cs : List Nat) : Only pacerParts u ((u.noteFailure src cs).unserve n cause) :=
    ((noteFailure_only _ _ _).mono (by decide)).trans ((unserve_only _ _ _).mono (by decide))
  have hunserve (u : State) (n cause : Nat) : Only pacerParts u (u.unserve n cause) := (unserve_only _ _ _).mono (by decide)
  have hmove (u : State) (b n src t0 : Nat) (cs : List Nat) :
      Only pacerParts u (((u.noteFailure src cs).updBlk b fun y => { y with handoff := some (n, t0) }).aroundLane n .maint) :=
    ((noteFailure_only _ _ _).andThen ((setBlk_core_only _ _ _ (by rfl)).andThen (aroundLane_only _ _ _))).mono (by decide)
  unfold State.pacerFails State.cellOut
  rw [if_neg (by simp [h])]
  simp only
  generalize (s.updBlk (cell / 17) fun y => { y with cellFailed := setBit y.cellFailed (cell % 17) }).unitFailed (srcPacer cell) = u
  split
  · split
    · exact hunserve _ _ _
    · exact .ites .refl (hnoted _ _ _ _ _)
  · refine .ites .refl (.ites (hnoted _ _ _ _ _) (.ites (hnoted _ _ _ _ _) (.thenUnless (hmove _ _ _ _ _ _) ?_)))
    exact (moveToSpare_only _ _).mono (by decide)

/-- A marshal out of service, as every response to its failure begins (R524). -/
def State.marshalDown (s : State) (b : Nat) : State :=
  (s.updBlk b fun y => { y with
    marshalOut := true, marshalAt := s.now, marshalKept := (recentRestart s.now (s.blk b).restartedAt).isSome }).unitFailed (srcMarshal b)

/-- The reads of a block that go around its marshal, with its failure noted (R524). -/
def State.aroundBlock (s : State) (b : Nat) : State :=
  (s.noteFailure (srcMarshal b) ((lanesOfBlock b).flatMap s.ctxsOnLane)).each (lanesOfBlock b) fun n s => s.aroundLane n .reactive

theorem aroundBlock_only (b : Nat) : Only marshalParts s (s.aroundBlock b) :=
  ((noteFailure_only _ _ _).mono (by decide)).trans (.each fun _ _ => (aroundLane_only _ _ _).mono (by decide))

theorem marshalFails_eq {b : Nat} (h : (s.blk b).marshalOut = false) : s.marshalFails b =
    match recentRestart s.now (s.blk b).restartedAt with
    | some secs => ((s.marshalDown b).aroundBlock b).keepOut (srcRegionCollector (regionOfBlock b)) (srcMarshal b) secs
    | none => (s.marshalDown b).aroundBlock b := by
  unfold State.marshalFails
  rw [if_neg (by simp [h])]
  rfl

theorem marshalFails_known {b : Nat} (h : (s.blk b).marshalOut = true) : s.marshalFails b = s := by
  unfold State.marshalFails
  exact if_pos h

theorem marshalFails_from {b : Nat} (h : (s.blk b).marshalOut = false) : Only marshalParts (s.marshalDown b) (s.marshalFails b) := by
  rw [marshalFails_eq s h]
  split
  · exact (aroundBlock_only _ _).trans ((raise_only _ _ _ _ _ _ _).mono (by decide))
  · exact aroundBlock_only _ _

/-- A steward out of service, as every response to its failure begins (R35). -/
def State.stewardDown (s : State) (g i : Nat) : State :=
  (s.updRgn g fun y => { y with
    stewards := clearBit y.stewards i, failed0 := if i = 0 then s.now else y.failed0, failed1 := if i = 0 then y.failed1 else s.now,
    kept := if (recentRestart s.now (if i = 0 then (s.rgn g).restart0 else (s.rgn g).restart1)).isSome then setBit y.kept i else y.kept }).unitFailed
    (srcSteward g)

/-- The steward's second failure within 60 s recorded, if it is one (R526). -/
def State.stewardKept (s : State) (g i : Nat) : State :=
  match recentRestart s.now (if i = 0 then (s.rgn g).restart0 else (s.rgn g).restart1) with
  | some secs => (s.stewardDown g i).keepOut (srcRegionCollector g) (srcSteward g) secs
  | none => s.stewardDown g i

theorem stewardKept_only (g i : Nat) : Only [.evr, .aon] (s.stewardDown g i) (s.stewardKept g i) := by
  unfold State.stewardKept
  split
  · exact raise_only _ _ _ _ _ _ _
  · exact .refl

theorem stewardFails_eq {g i : Nat} (h : hasBit (s.rgn g).stewards i = true) : s.stewardFails g i =
    if ((s.stewardKept g i).rgn g).stewards = 0 then (s.stewardKept g i).faultStop 1
    else (s.stewardKept g i).draw.2.raise 0x0F03 (srcRegionCollector g) (subParam i g) (s.stewardKept g i).draw.1
      ((s.stewardKept g i).draw.2.queuesOf g i) 0 := by
  unfold State.stewardFails
  rw [if_neg (by simp [h])]
  rfl

theorem stewardFails_known {g i : Nat} (h : hasBit (s.rgn g).stewards i = false) : s.stewardFails g i = s := by
  unfold State.stewardFails
  exact if_pos h

theorem stewardFails_from {g i : Nat} (h : hasBit (s.rgn g).stewards i = true) : Only stopParts (s.stewardDown g i) (s.stewardFails g i) := by
  rw [stewardFails_eq s h]
  refine Only.trans ((stewardKept_only s g i).mono (by decide)) (.ites (faultStop_only _ _) ?_)
  exact ((draw_only _).andThen (raise_only _ _ _ _ _ _ _)).mono (by decide)

end

end Sys2Proof.Machine
end

section
/-! Live rolls (R496-R503): how the roll moves on, ends and stops, and what its steps touch. -/

namespace Sys2Proof.Machine

theorem hasBit_setBit {n : Nat} (w : BitVec n) (i j : Nat) : hasBit (setBit w i) j = (hasBit w j || decide (j < n ∧ i = j)) :=
  getLsbD_setBit w i j

theorem hasBit_clearBit {n : Nat} (w : BitVec n) (i j : Nat) : hasBit (clearBit w i) j = (hasBit w j && decide (i ≠ j)) := by
  simp only [hasBit, clearBit, BitVec.getLsbD_and, BitVec.getLsbD_not, BitVec.getLsbD_ofNat, Nat.testBit_two_pow]
  by_cases hj : j < n
  · simp [hj]
  · simp [BitVec.getLsbD_of_ge w j (by omega)]

theorem lane_congr {s t : State} (h : t.lanes = s.lanes) (n : Nat) : t.lane n = s.lane n := by simp only [State.lane, h]

theorem blk_congr {s t : State} (h : t.blks = s.blks) (n : Nat) : t.blk n = s.blk n := by simp only [State.blk, h]

theorem rgn_congr {s t : State} (h : t.rgns = s.rgns) (n : Nat) : t.rgn n = s.rgn n := by simp only [State.rgn, h]

theorem State.TakesBoot.run {s : State} {h : Hdr} (ht : s.TakesBoot h) (run : State → State) : s.admin ruleBoot h run = run (s.fetchOne h) := by
  rcases ht with ht | ⟨hmc, hserves, hns⟩
  · exact ht.run run
  · exact State.admin_taken run (by simpa [hmc] using hserves) (.inr rfl) (by simp [AdminRule.permits, hmc, ruleBoot])
      (fun hf => absurd hmc (by simp [hf])) (fun _ => hns)

theorem State.TakesBoot.unmuted {s t : State} {h : Hdr} (ht : s.TakesBoot h) (hctrls : t.ctrls = s.ctrls) : t.muted h = false := by
  rcases ht with ht | ⟨hmc, -, -⟩
  · exact ht.unmuted hctrls
  · exact muted_of_mc hmc t

section
variable {s : State} {r q : Roll}

theorem onRoll_only (s : State) (f : Roll → Roll) : Only [.boot] s (s.onRoll f) := onBoot_only _ _

theorem onRoll_roll (hq : s.boot.roll = some q) (f : Roll → Roll) : (s.onRoll f).boot.roll = some (f q) := by
  change s.boot.roll.map f = _
  rw [hq]
  rfl

theorem roll_congr {s t : State} (h : t.boot = s.boot) (hq : s.boot.roll = some q) : t.boot.roll = some q := by rw [h, hq]

theorem rollLaneBack_only (s : State) (n : Nat) : Only [.lanes] s (s.rollLaneBack n) := setLane_only _ _ _

theorem rollLaneBack_lane (s : State) (n : Nat) : ((s.rollLaneBack n).lane n).outage ≠ some .roll := by
  unfold State.rollLaneBack
  rw [State.updLane_eq, State.lane_setLane, if_pos rfl]
  dsimp only
  split <;> simp_all

theorem rollLaneOut_only (s : State) (n : Nat) : Only (.lanes :: aroundParts) s (s.rollLaneOut n) := by
  unfold State.rollLaneOut
  exact .ites (((setLane_only _ _ _).andThen (aroundLane_only _ _ _)).mono (by decide)) .refl

/-- A lane in direct service is out for the roll's step; no lane changes otherwise (R497). -/
theorem rollLaneOut_lane (s : State) (n m : Nat) :
    (s.rollLaneOut n).lane m = if m = n ∧ (s.lane n).st = .active then { s.lane n with outage := some .roll } else s.lane m := by
  unfold State.rollLaneOut
  by_cases ha : (s.lane n).st = .active
  · rw [if_pos ha]
    refine (lane_congr (aroundLane_only _ _ _ .lanes (by decide)) m).trans ((State.lane_setLane s n m _).trans ?_)
    simp [ha]
  · simp [ha]

theorem rollLaneOut_out {n : Nat} (ha : (s.lane n).st = .active) : ((s.rollLaneOut n).lane n).outage = some .roll := by
  rw [rollLaneOut_lane, if_pos ⟨rfl, ha⟩]

/-- A lane at the cell that a planned handoff moves it to, its PHY not yet resumed (R499). -/
def State.laneMoved (s : State) (n : Nat) (spare : Bool) : State :=
  ((s.rollLaneBack n).updBlk (blockOfLane n) fun y => { y with spareLane := if spare then n % 16 else 0x1F }).updLane n
    fun l => { l with spare := spare }

theorem rollMove_eq (s : State) (n : Nat) (spare : Bool) : s.rollMove n spare =
    if ((s.laneMoved n spare).lane n).st = .active then (s.laneMoved n spare).resumeLane n
    else if ((s.laneMoved n spare).lane n).st = .recovery then (s.laneMoved n spare).updLane n fun l => { l with resuming := true }
    else s.laneMoved n spare := rfl

theorem laneMoved_only (s : State) (n : Nat) (spare : Bool) : Only [.lanes, .blks, .blkBase] s (s.laneMoved n spare) :=
  ((rollLaneBack_only _ _).andThen ((setBlk_core_only _ _ _ (by rfl)).andThen (setLane_only _ _ _))).mono (by decide)

theorem laneMoved_blk (s : State) (n : Nat) (spare : Bool) :
    (s.laneMoved n spare).blk (blockOfLane n) = { s.blk (blockOfLane n) with spareLane := if spare then n % 16 else 0x1F } :=
  (State.blk_setBlk (s.rollLaneBack n) (blockOfLane n) (blockOfLane n)
    { s.blk (blockOfLane n) with spareLane := if spare then n % 16 else 0x1F }).trans (if_pos rfl)

theorem laneMoved_lane (s : State) (n : Nat) (spare : Bool) : (s.laneMoved n spare).lane n = { (s.rollLaneBack n).lane n with spare := spare } :=
  (State.lane_setLane ((s.rollLaneBack n).updBlk (blockOfLane n) fun y => { y with spareLane := if spare then n % 16 else 0x1F }) n n
    { (s.rollLaneBack n).lane n with spare := spare }).trans (if_pos rfl)

/-- The PHY at its new cell: of the lane only that it is resuming (R135). -/
theorem rollMove_from (s : State) (n : Nat) (spare : Bool) : Only [.lanes, .out, .down] (s.laneMoved n spare) (s.rollMove n spare) := by
  rw [rollMove_eq]
  exact .ites ((resumeLane_only _ _).mono (by decide)) (.ites ((setLane_only _ _ _).mono (by decide)) .refl)

theorem rollMove_only (s : State) (n : Nat) (spare : Bool) : Only [.lanes, .out, .down, .blks, .blkBase] s (s.rollMove n spare) :=
  ((laneMoved_only _ _ _).andThen (rollMove_from _ _ _)).mono (by decide)

theorem rollMove_blk (s : State) (n : Nat) (spare : Bool) :
    (s.rollMove n spare).blk (blockOfLane n) = { s.blk (blockOfLane n) with spareLane := if spare then n % 16 else 0x1F } :=
  (blk_congr (rollMove_from s n spare .blks (by decide)) _).trans (laneMoved_blk s n spare)

theorem rollMove_lane (s : State) (n : Nat) (spare : Bool) :
    ((s.rollMove n spare).lane n).spare = spare ∧ ((s.rollMove n spare).lane n).outage ≠ some .roll := by
  have hset (v : State) : ((v.updLane n fun l => { l with resuming := true }).lane n).spare = (v.lane n).spare ∧
      ((v.updLane n fun l => { l with resuming := true }).lane n).outage = (v.lane n).outage := by
    rw [State.updLane_eq, State.lane_setLane, if_pos rfl]
    exact ⟨rfl, rfl⟩
  have hresume (v : State) : (v.resumeLane n).lane n = (v.updLane n fun l => { l with resuming := true }).lane n :=
    lane_congr (sendTs_only _ _ _ .lanes (by decide)) n
  have hmoved : ((s.laneMoved n spare).lane n).spare = spare ∧ ((s.laneMoved n spare).lane n).outage ≠ some .roll := by
    rw [laneMoved_lane]
    exact ⟨rfl, rollLaneBack_lane s n⟩
  rw [rollMove_eq]
  generalize s.laneMoved n spare = v at hmoved ⊢
  split
  · rwa [hresume, (hset v).1, (hset v).2]
  split
  · rwa [(hset v).1, (hset v).2]
  · exact hmoved

/-! The roll moves on, ends or stops. -/

/-- The roll at the phase and unit given (R497). -/
def State.rollAt (s : State) (r : Roll) (p u : Nat) : Roll :=
  { r with
    phase := p, unit := u, cell := 0, stage := 0, inPlace := false, running := if p = 5 then s.flt.pairsIn == 3 else decide (p = 6)
    stepAt := s.now, reached := if r.back then r.reached else p }

theorem advanceRoll_next {p u : Nat} (hq : s.boot.roll = some q) (hn : rollNext q = some (p, u)) :
    s.advanceRoll.boot.roll = some (s.rollAt q p u) ∧ Only [.boot] s s.advanceRoll := by
  unfold State.advanceRoll
  simp only [hq, hn]
  exact ⟨onRoll_roll hq _, onRoll_only _ _⟩

theorem advanceRoll_end (hq : s.boot.roll = some q) (hn : rollNext q = none) : s.advanceRoll = s.endRoll q := by
  unfold State.advanceRoll
  simp only [hq, hn]

/-- The roll as it turns back (R498). -/
def Roll.turned (r : Roll) (cause : Nat) : Roll :=
  { r with back := true, cause := cause, running := false, stage := 0, inPlace := false, reached := r.phase }

theorem stopRoll_turns {cause : Nat} (hq : s.boot.roll = some q) (hb : q.back = false) (hp : q.phase ≠ 1) :
    (s.stopRoll cause).boot.roll = some (q.turned cause) ∧ Only [.boot] s (s.stopRoll cause) := by
  unfold State.stopRoll
  simp only [hq, hb, hp, if_false, Bool.false_eq_true]
  exact ⟨rfl, onBoot_only _ _⟩

theorem stopRoll_first {cause : Nat} (hq : s.boot.roll = some q) (hb : q.back = false) (hp : q.phase = 1) :
    s.stopRoll cause = s.endRoll (q.turned cause) := by
  unfold State.stopRoll Roll.turned
  simp only [hq, hb, hp, if_true, if_false, Bool.false_eq_true]

theorem stopRoll_back {cause : Nat} (hq : s.boot.roll = some q) (hb : q.back = true) : s.stopRoll cause = s.advanceRoll := by
  unfold State.stopRoll
  simp only [hq, hb, if_true]

/-- The entry that a roll's end appends, where one is free (R491). -/
theorem appendEntry_free (reason : Nat) (hf : s.boot.ledgerFull = false) : s.appendEntry reason = s.storeEntry (s.newEntry reason) := by
  unfold State.appendEntry
  simp [hf]

theorem newEntry_seq (s : State) (reason : Nat) : (s.newEntry reason).seq = s.boot.seqNew + 1 := rfl

/-- A roll that ends turned back: an entry of reason 0x4, event 0x0C0B, and the command fails with its cause (R498). -/
theorem endRoll_back (hb : r.back = true) (hm : s.muted r.hdr = false) (hf : s.boot.ledgerFull = false) (hroom : s.roomForEvents) :
    (s.endRoll r).boot.roll = none ∧ (s.endRoll r).boot.seqNew = s.boot.seqNew + 1 ∧ (s.endRoll r).boot.selector = s.boot.selector ∧
      (s.endRoll r).boot.running = s.boot.running ∧
      Recorded s (s.endRoll r) 0x0C0B s.srcStarters 2 r.reached ((s.now - r.since) / 1000000) r.cause ∧
      Posted s (s.endRoll r) r.hdr (if 0x10 ≤ r.cause then .sequenceError else .invalidFirmwareImage) r.cause 0 := by
  have heq : s.endRoll r = ((((s.onBoot fun b => { b with roll := none }).storeEntry
      ((s.onBoot fun b => { b with roll := none }).newEntry 4))).raise 0x0C0B s.srcStarters 2 r.reached ((s.now - r.since) / 1000000) r.cause).activateFails
        r.hdr r.cause := by
    unfold State.endRoll
    simp only [hb, if_true]
    rw [appendEntry_free 4 (by exact hf)]
    rfl
  have hseq : ((s.onBoot fun b => { b with roll := none }).newEntry 4).seq = s.boot.seqNew + 1 := rfl
  rw [heq]
  generalize (s.onBoot fun b => { b with roll := none }).newEntry 4 = e at hseq ⊢
  have hstored : Only [.boot] s ((s.onBoot fun b => { b with roll := none }).storeEntry e) := (onBoot_only _ _).trans (onBoot_only _ _)
  have hboot : ((s.onBoot fun b => { b with roll := none }).storeEntry e).boot.roll = none ∧
      ((s.onBoot fun b => { b with roll := none }).storeEntry e).boot.seqNew = max s.boot.seqNew e.seq ∧
      ((s.onBoot fun b => { b with roll := none }).storeEntry e).boot.selector = s.boot.selector ∧
      ((s.onBoot fun b => { b with roll := none }).storeEntry e).boot.running = s.boot.running := ⟨rfl, rfl, rfl, rfl⟩
  generalize (s.onBoot fun b => { b with roll := none }).storeEntry e = u at hstored hboot ⊢
  obtain ⟨hroll, hnew, hsel, hrun⟩ := hboot
  have hevr : u.evr = s.evr := hstored .evr (by decide)
  have hraise := raise_only u 0x0C0B s.srcStarters 2 r.reached ((s.now - r.since) / 1000000) r.cause
  have hrec := recorded_raise (s := s) (u := u) (by rw [hevr]; exact hroom) (congrArg Aon.timeNs (hstored .aon (by decide))) (code := 0x0C0B) (by decide)
    s.srcStarters 2 r.reached ((s.now - r.since) / 1000000) r.cause
  generalize u.raise 0x0C0B s.srcStarters 2 r.reached ((s.now - r.since) / 1000000) r.cause = v at hraise hrec ⊢
  have hall := hstored.andThen hraise
  have hend : Only postParts v (v.activateFails r.hdr r.cause) := completeWith_only _ _ _ _ _ _
  have hb : (v.activateFails r.hdr r.cause).boot = u.boot := Eq.trans (hend .boot (by decide)) (hraise .boot (by decide))
  refine ⟨by rw [hb, hroll], by rw [hb, hnew, hseq]; omega, by rw [hb, hsel], by rw [hb, hrun], hend .records (by decide) _ hrec, ?_⟩
  exact completeWith_posted ((muted_congr _ (hall .ctrls (by decide)) (hall .sqs (by decide)) (hall .fab (by decide))).trans hm)
    (hall .completions (by decide)) _ _ _ _

end

end Sys2Proof.Machine
end

section
/-! Live rolls: start, steps, rollback and end: the clauses of O50. -/

namespace Sys2Proof.Machine

section
variable {s : State} {r q : Roll}

/-- The state in which a roll is over and its bank is the booted one (R497). -/
def State.rolledTo (s : State) (r : Roll) : State :=
  s.onBoot fun b => { b with
    roll := none, booted := r.bank, running := (s.boot.bank r.bank).image, rolls := satAdd 16 b.rolls 1, lkgArmed := true, selector := r.bank
    headerWrites := b.headerWrites + 1 }

theorem onBoot_onBoot (s : State) (f g : BootStore → BootStore) : (s.onBoot f).onBoot g = s.onBoot fun b => g (f b) := rfl

theorem endRoll_eq_complete (hb : r.back = false) : s.endRoll r =
    (((s.rolledTo r).appendEntry 2).raise 0x0C0B s.srcStarters 1 6 ((s.now - r.since) / 1000000) 0).complete r.hdr .success := by
  have hto : (((s.onBoot fun b => { b with roll := none }).onBoot fun b => { b with
      booted := r.bank, running := ((s.onBoot fun b => { b with roll := none }).boot.bank r.bank).image, rolls := satAdd 16 b.rolls 1
      lkgArmed := true }).selectBank r.bank) = s.rolledTo r := by
    have hbank : ((s.onBoot fun b => { b with roll := none }).boot.bank r.bank).image = (s.boot.bank r.bank).image := rfl
    rw [hbank]
    unfold State.selectBank State.writeHeader State.rolledTo
    generalize (s.boot.bank r.bank).image = x
    rw [onBoot_onBoot, onBoot_onBoot, onBoot_onBoot]
  have hsrc : (s.rolledTo r).srcStarters = s.srcStarters := rfl
  unfold State.endRoll
  rw [if_neg (by simp [hb]), hto]
  simp only [hsrc]

/-- A roll that ends complete: the selector is at the new bank, an entry of reason 0x2, event 0x0C0B, and success (R497, R503). -/
theorem endRoll_complete (hb : r.back = false) (hm : s.muted r.hdr = false) (hf : s.boot.ledgerFull = false) (hroom : s.roomForEvents) :
    (s.endRoll r).boot.roll = none ∧ (s.endRoll r).boot.booted = r.bank ∧ (s.endRoll r).boot.selector = r.bank ∧
      (s.endRoll r).boot.running = (s.boot.bank r.bank).image ∧ (s.endRoll r).boot.lkgArmed = true ∧
      (s.endRoll r).boot.seqNew = s.boot.seqNew + 1 ∧
      Recorded s (s.endRoll r) 0x0C0B s.srcStarters 1 6 ((s.now - r.since) / 1000000) 0 ∧ Posted s (s.endRoll r) r.hdr .success 0 0 := by
  have hfull : (s.rolledTo r).boot.ledgerFull = false := hf
  have hwOnly : Only [.boot] s (s.rolledTo r) := onBoot_only _ _
  have hwBoot : (s.rolledTo r).boot.roll = none ∧ (s.rolledTo r).boot.booted = r.bank ∧ (s.rolledTo r).boot.selector = r.bank ∧
      (s.rolledTo r).boot.running = (s.boot.bank r.bank).image ∧ (s.rolledTo r).boot.lkgArmed = true ∧
      (s.rolledTo r).boot.seqNew = s.boot.seqNew := ⟨rfl, rfl, rfl, rfl, rfl, rfl⟩
  rw [endRoll_eq_complete hb, appendEntry_free 2 hfull]
  generalize s.rolledTo r = w at hwOnly hwBoot ⊢
  have hseq := newEntry_seq w 2
  generalize w.newEntry 2 = e at hseq ⊢
  have hstored : Only [.boot] s (w.storeEntry e) := hwOnly.trans (onBoot_only _ _)
  have hboot : (w.storeEntry e).boot.roll = w.boot.roll ∧ (w.storeEntry e).boot.booted = w.boot.booted ∧
      (w.storeEntry e).boot.selector = w.boot.selector ∧ (w.storeEntry e).boot.running = w.boot.running ∧
      (w.storeEntry e).boot.lkgArmed = w.boot.lkgArmed ∧ (w.storeEntry e).boot.seqNew = max w.boot.seqNew e.seq := ⟨rfl, rfl, rfl, rfl, rfl, rfl⟩
  generalize w.storeEntry e = u at hstored hboot ⊢
  obtain ⟨hroll, hbooted, hsel, hrun, harmed, hnew⟩ := hwBoot
  obtain ⟨hroll', hbooted', hsel', hrun', harmed', hnew'⟩ := hboot
  have hevr : u.evr = s.evr := hstored .evr (by decide)
  have hraise := raise_only u 0x0C0B s.srcStarters 1 6 ((s.now - r.since) / 1000000) 0
  have hrec := recorded_raise (s := s) (u := u) (by rw [hevr]; exact hroom) (congrArg Aon.timeNs (hstored .aon (by decide))) (code := 0x0C0B) (by decide)
    s.srcStarters 1 6 ((s.now - r.since) / 1000000) 0
  generalize u.raise 0x0C0B s.srcStarters 1 6 ((s.now - r.since) / 1000000) 0 = v at hraise hrec ⊢
  have hall := hstored.andThen hraise
  have hend : Only postParts v (v.complete r.hdr .success) := complete_only _ _ _
  have hb : (v.complete r.hdr .success).boot = u.boot := Eq.trans (hend .boot (by decide)) (hraise .boot (by decide))
  refine ⟨by rw [hb, hroll', hroll], by rw [hb, hbooted', hbooted], by rw [hb, hsel', hsel], by rw [hb, hrun', hrun], by rw [hb, harmed', harmed],
    by rw [hb, hnew', hnew, hseq, hnew]; omega, hend .records (by decide) _ hrec, ?_⟩
  exact complete_posted ((muted_congr _ (hall .ctrls (by decide)) (hall .sqs (by decide)) (hall .fab (by decide))).trans hm)
    (hall .completions (by decide)) _

/-! ROLL_STEP_START. -/

theorem exec_rollStepStart {x y : Image} (hr : s.boot.roll = some r) (hroll : s.rolling = true) (hrun : r.running = false) (hready : s.rollReady r = true)
    (hx : s.boot.running = some x) (hy : s.rollTarget r = some y) (hc : r.back = true ∨ clashIn x y r.phase = none) :
    exec .rollStepStart s = .next (s.beginStep r) := by
  have hclash : (if r.back then none else clashIn x y r.phase) = none := by
    rcases hc with hc | hc <;> simp [hc]
  simp [exec, execRollStepStart, hr, hroll, hrun, hready, hx, hy, hclash]

theorem exec_rollStepStart_clash {x y : Image} {c : Handover} (hr : s.boot.roll = some r) (hroll : s.rolling = true) (hrun : r.running = false)
    (hready : s.rollReady r = true) (hx : s.boot.running = some x) (hy : s.rollTarget r = some y) (hb : r.back = false)
    (hc : clashIn x y r.phase = some c) : exec .rollStepStart s =
      .next ((s.raise 0x0C0C s.srcStarters c.mailbox c.cls (c.met.1 + 256 * c.met.2) (c.new.1 + 256 * c.new.2)).stopRoll 5) := by
  simp [exec, execRollStepStart, hr, hroll, hrun, hready, hx, hy, hb, hc]

theorem exec_rollStepStart_idle (hr : s.boot.roll = some r) (h : s.rolling = false ∨ r.running = true ∨ s.rollReady r = false ∨
    s.boot.running = none ∨ s.rollTarget r = none) : exec .rollStepStart s = .next s := by
  simp only [exec, execRollStepStart, hr]
  split
  · rfl
  case isFalse hgo =>
    split
    case h_1 hx hy => rcases h with h | h | h | h | h <;> simp_all
    case h_2 => rfl

/-- The state in which a step has begun (R497). -/
def State.stepBegun (s : State) : State := s.onRoll fun r => { r with running := true, stepAt := s.now }

theorem stepBegun_roll (hr : s.boot.roll = some r) : s.stepBegun.boot.roll = some { r with running := true, stepAt := s.now } := onRoll_roll hr _

theorem beginStep_eq (s : State) (r : Roll) : s.beginStep r =
    match r.phase with
    | 2 =>
      if hasBit (s.stepBegun.blk r.unit).cellFailed 16 then (s.stepBegun.onRoll fun r => { r with inPlace := true }).rollCell r.unit 0
      else if s.stepBegun.spareTaken r.unit then s.stepBegun.loadInPlace r.unit 16 (16 * r.unit + (s.stepBegun.blk r.unit).spareLane)
      else s.stepBegun.onRoll fun r => { r with cell := 16, stage := 1 }
    | 3 =>
      if (s.stepBegun.blk r.unit).marshalOut then s.stepBegun.advanceRoll
      else s.stepBegun.each (lanesOfBlock r.unit) (fun n s => s.aroundLane n .maint) |>.updBlk r.unit fun y => { y with marshalOut := true }
    | 4 =>
      if hasBit (s.stepBegun.rgn (r.unit / 2)).stewards (r.unit % 2) then
        s.stepBegun.updRgn (r.unit / 2) fun y => { y with stewards := clearBit y.stewards (r.unit % 2) }
      else s.stepBegun.advanceRoll
    | _ => s.stepBegun := rfl

/-- A load in place: its event, its lane out, and the roll at the cell (R499). -/
theorem loadInPlace_done (hr : s.boot.roll = some q) (hroom : s.roomForEvents) (b k n : Nat) :
    Recorded s (s.loadInPlace b k n) 0x0C0A s.srcStarters b k 0 0 ∧
      (s.loadInPlace b k n).boot.roll = some { q with cell := k, stage := 1, inPlace := true, stepAt := s.now } ∧
      (∀ m, (s.loadInPlace b k n).lane m = if m = n ∧ (s.lane n).st = .active then { s.lane n with outage := some .roll } else s.lane m) := by
  have hset := onRoll_only s (fun r => { r with cell := k, stage := 1, inPlace := true, stepAt := s.now })
  have hroll := onRoll_roll hr (fun r => { r with cell := k, stage := 1, inPlace := true, stepAt := s.now })
  unfold State.loadInPlace
  generalize s.onRoll (fun r => { r with cell := k, stage := 1, inPlace := true, stepAt := s.now }) = u at hset hroll ⊢
  have hevr : u.evr = s.evr := hset .evr (by decide)
  have hrec := recorded_raise (s := s) (u := u) (by rw [hevr]; exact hroom) (congrArg Aon.timeNs (hset .aon (by decide))) (code := 0x0C0A) (by decide)
    s.srcStarters b k 0 0
  have hraise := raise_only u 0x0C0A s.srcStarters b k 0 0
  generalize u.raise 0x0C0A s.srcStarters b k 0 0 = v at hraise hrec ⊢
  have hlane (m : Nat) : v.lane m = s.lane m := lane_congr ((hset.andThen hraise) .lanes (by decide)) m
  have hout := rollLaneOut_only v n
  refine ⟨hout .records (by decide) _ hrec, roll_congr (Eq.trans (hout .boot (by decide)) (hraise .boot (by decide))) hroll, fun m => ?_⟩
  rw [rollLaneOut_lane, hlane, hlane]

/-- A load in place moves the roll whether or not its event finds room. -/
theorem loadInPlace_roll (hr : s.boot.roll = some q) (b k n : Nat) :
    (s.loadInPlace b k n).boot.roll = some { q with cell := k, stage := 1, inPlace := true, stepAt := s.now } := by
  have hset := onRoll_roll hr (fun r => { r with cell := k, stage := 1, inPlace := true, stepAt := s.now })
  exact roll_congr (Eq.trans (rollLaneOut_only _ _ .boot (by decide)) (raise_only _ _ _ _ _ _ _ .boot (by decide))) hset

/-- What a cell's turn in the pacer phase can touch. -/
def cellParts : List Part := (.lanes :: aroundParts) ++ [.boot]

theorem loadInPlace_only (s : State) (b k n : Nat) : Only cellParts s (s.loadInPlace b k n) :=
  ((onRoll_only _ _).andThen ((raise_only _ _ _ _ _ _ _).andThen (rollLaneOut_only _ _))).mono (by decide)

theorem rollCellFrom_congr {s t : State} {b : Nat} (h : ∀ k, k < 16 → hasBit (t.blk b).cellFailed k = hasBit (s.blk b).cellFailed k) (fuel k : Nat) :
    t.rollCellFrom b fuel k = s.rollCellFrom b fuel k := by
  induction fuel generalizing k with
  | zero => rfl
  | succ fuel ih =>
    unfold State.rollCellFrom
    split
    · rfl
    · rw [h k (by omega), ih]

/-- A cell that fails changes nothing for those after it. -/
theorem rollCellFrom_after {s t : State} {b i : Nat} (h : ∀ k, i ≠ k → hasBit (t.blk b).cellFailed k = hasBit (s.blk b).cellFailed k) (fuel k : Nat)
    (hk : i < k) : t.rollCellFrom b fuel k = s.rollCellFrom b fuel k := by
  induction fuel generalizing k with
  | zero => rfl
  | succ fuel ih =>
    unfold State.rollCellFrom
    split
    · rfl
    · rw [h k (by omega), ih (k + 1) (by omega)]

theorem rollCellFrom_ge {b fuel k n : Nat} (h : s.rollCellFrom b fuel k = some n) : k ≤ n := by
  induction fuel generalizing k with
  | zero => cases h
  | succ fuel ih =>
    unfold State.rollCellFrom at h
    split at h
    · cases h
    split at h
    · exact Nat.le_of_succ_le (ih h)
    · exact Nat.le_of_eq (Option.some.inj h)

theorem rollCell_place {b k n : Nat} (hn : s.rollCellFrom b 17 k = some n) (h : s.boot.roll.any (·.inPlace) = true ∨ s.spareTaken b = true) :
    s.rollCell b k = s.loadInPlace b n (16 * b + n) := by
  unfold State.rollCell
  simp only [hn]
  rw [if_pos (by rcases h with h | h <;> simp [h])]

theorem rollCell_move {b k n : Nat} (hn : s.rollCellFrom b 17 k = some n) (hp : s.boot.roll.any (·.inPlace) = false) (ht : s.spareTaken b = false) :
    s.rollCell b k = (s.onRoll fun r => { r with cell := n, stage := 0, stepAt := s.now }).rollLaneOut (16 * b + n) := by
  unfold State.rollCell
  simp [hn, hp, ht]

theorem rollCell_end {b k : Nat} (hn : s.rollCellFrom b 17 k = none) : s.rollCell b k = s.advanceRoll := by
  unfold State.rollCell
  simp only [hn]

end

end Sys2Proof.Machine
end

section
/-! ROLL_STEP_START and ROLL_STEP_DONE, phase by phase (R497-R502). -/

namespace Sys2Proof.Machine

section
variable {s : State} {r q : Roll}

theorem stepBegun_blk (s : State) (b : Nat) : s.stepBegun.blk b = s.blk b := rfl

theorem stepBegun_rgn (s : State) (g : Nat) : s.stepBegun.rgn g = s.rgn g := rfl

theorem marshalOut_of_core {x y : Blk} (h : x.core = y.core) : x.marshalOut = y.marshalOut :=
  have hf := congrArg Blk.marshalOut h
  hf

theorem cellFailed_of_core {x y : Blk} (h : x.core = y.core) : x.cellFailed = y.cellFailed :=
  have hf := congrArg Blk.cellFailed h
  hf

theorem spareLane_of_base {x y : Blk} (h : x.base = y.base) : x.spareLane = y.spareLane :=
  have hf := congrArg Blk.spareLane h
  hf

theorem lastSrc_of_base {x y : Faults} (h : x.base = y.base) : x.lastSrc = y.lastSrc :=
  have hf := congrArg Faults.lastSrc h
  hf

theorem rgn_unitFailed (u : State) (src g : Nat) : (u.unitFailed src).rgn g = u.rgn g := rfl

theorem blk_unitFailed (u : State) (src b : Nat) : (u.unitFailed src).blk b = u.blk b := rfl

theorem stewardDown_stewards (u : State) (g i : Nat) : ((u.stewardDown g i).rgn g).stewards = clearBit (u.rgn g).stewards i := by
  unfold State.stewardDown
  rw [rgn_unitFailed, State.updRgn_eq, State.rgn_setRgn, if_pos rfl]

theorem marshalDown_out (u : State) (b : Nat) : ((u.marshalDown b).blk b).marshalOut = true := by
  unfold State.marshalDown
  rw [blk_unitFailed, State.updBlk_eq, State.blk_setBlk, if_pos rfl]

/-- The marshal's step takes its block out, its reads around it first (R500). -/
theorem beginStep_marshal (hr : s.boot.roll = some r) (hp : r.phase = 3) (hm : (s.blk r.unit).marshalOut = false) :
    ((s.beginStep r).blk r.unit).marshalOut = true ∧ (s.beginStep r).boot.roll = some { r with running := true, stepAt := s.now } := by
  have heq : s.beginStep r = (s.stepBegun.each (lanesOfBlock r.unit) fun n s => s.aroundLane n .maint).updBlk r.unit
      fun y => { y with marshalOut := true } := by
    rw [beginStep_eq, hp]
    exact if_neg (by rw [stepBegun_blk, hm]; decide)
  have heach : Only aroundParts s.stepBegun (s.stepBegun.each (lanesOfBlock r.unit) fun n s => s.aroundLane n .maint) :=
    .each fun _ _ => aroundLane_only _ _ _
  have hroll := roll_congr (heach .boot (by decide)) (stepBegun_roll hr)
  rw [heq]
  generalize s.stepBegun.each (lanesOfBlock r.unit) (fun n s => s.aroundLane n .maint) = u at hroll ⊢
  refine ⟨?_, hroll⟩
  rw [State.updBlk_eq, State.blk_setBlk, if_pos rfl]

/-- The steward's step takes it out (R501). -/
theorem beginStep_steward (hr : s.boot.roll = some r) (hp : r.phase = 4) (hm : hasBit (s.rgn (r.unit / 2)).stewards (r.unit % 2) = true) :
    ((s.beginStep r).rgn (r.unit / 2)).stewards = clearBit (s.rgn (r.unit / 2)).stewards (r.unit % 2) ∧ (s.beginStep r).blks = s.blks ∧
      (s.beginStep r).boot.roll = some { r with running := true, stepAt := s.now } := by
  have heq : s.beginStep r = s.stepBegun.updRgn (r.unit / 2) fun y => { y with stewards := clearBit y.stewards (r.unit % 2) } := by
    rw [beginStep_eq, hp]
    exact if_pos (by rw [stepBegun_rgn, hm])
  have hroll := stepBegun_roll hr
  have hrgn := stepBegun_rgn s (r.unit / 2)
  have hblks : s.stepBegun.blks = s.blks := rfl
  rw [heq]
  generalize s.stepBegun = u at hroll hrgn hblks ⊢
  refine ⟨?_, hblks, hroll⟩
  rw [State.updRgn_eq, State.rgn_setRgn, if_pos rfl, hrgn]

theorem beginStep_late (hr : s.boot.roll = some r) (hp : 5 ≤ r.phase) :
    (s.beginStep r).blks = s.blks ∧ (s.beginStep r).rgns = s.rgns ∧ (s.beginStep r).flt = s.flt ∧
      (s.beginStep r).boot.roll = some { r with running := true, stepAt := s.now } := by
  have heq : s.beginStep r = s.stepBegun := by
    rw [beginStep_eq]
    split
    all_goals first | omega | rfl
  rw [heq]
  exact ⟨rfl, rfl, rfl, stepBegun_roll hr⟩

/-- A unit out of service is passed over (R499-R501). -/
theorem beginStep_passes {p u : Nat} (hr : s.boot.roll = some r) (hn : rollNext r = some (p, u))
    (h : (r.phase = 3 ∧ (s.blk r.unit).marshalOut = true) ∨ (r.phase = 4 ∧ hasBit (s.rgn (r.unit / 2)).stewards (r.unit % 2) = false)) :
    (s.beginStep r).blks = s.blks ∧ (s.beginStep r).rgns = s.rgns ∧ (s.beginStep r).boot.roll = some (s.rollAt r p u) := by
  have heq : s.beginStep r = s.stepBegun.advanceRoll := by
    rw [beginStep_eq]
    rcases h with ⟨hp, hm⟩ | ⟨hp, hm⟩
    · simp only [hp, stepBegun_blk, hm, if_true]
    · simp only [hp, stepBegun_rgn, hm, if_false, Bool.false_eq_true]
  have hbegun : Only [.boot] s s.stepBegun := onRoll_only _ _
  obtain ⟨hroll, honly⟩ := advanceRoll_next (stepBegun_roll hr) (p := p) (u := u) hn
  rw [heq]
  exact ⟨(hbegun.trans honly) .blks (by decide), (hbegun.trans honly) .rgns (by decide), hroll⟩

theorem stepBegun_spareTaken (s : State) (b : Nat) : s.stepBegun.spareTaken b = s.spareTaken b := rfl

/-- The pacer phase of a block begins with its spare, where that is free (R499). -/
theorem beginStep_spare (hp : r.phase = 2) (hc : hasBit (s.blk r.unit).cellFailed 16 = false)
    (ht : s.spareTaken r.unit = false) : s.beginStep r = s.stepBegun.onRoll fun r => { r with cell := 16, stage := 1 } := by
  rw [beginStep_eq]
  simp only [hp, stepBegun_blk, hc, stepBegun_spareTaken, ht, if_false, Bool.false_eq_true]

theorem beginStep_inPlace (hp : r.phase = 2) (hc : hasBit (s.blk r.unit).cellFailed 16 = false) (ht : s.spareTaken r.unit = true) :
    s.beginStep r = s.stepBegun.loadInPlace r.unit 16 (16 * r.unit + (s.blk r.unit).spareLane) := by
  rw [beginStep_eq]
  simp only [hp, stepBegun_blk, hc, stepBegun_spareTaken, ht, if_true, if_false, Bool.false_eq_true]

/-- With its spare cell lost a block's cells load in place from the first (R499). -/
theorem beginStep_lost {k : Nat} (hr : s.boot.roll = some r) (hp : r.phase = 2) (hc : hasBit (s.blk r.unit).cellFailed 16 = true)
    (hk : s.rollCellFrom r.unit 17 0 = some k) :
    s.beginStep r = (s.stepBegun.onRoll fun r => { r with inPlace := true }).loadInPlace r.unit k (16 * r.unit + k) := by
  have hfrom : (s.stepBegun.onRoll fun r => { r with inPlace := true }).rollCellFrom r.unit 17 0 = some k :=
    (rollCellFrom_congr (fun _ _ => rfl) 17 0).trans hk
  rw [beginStep_eq]
  simp only [hp, stepBegun_blk, hc, if_true]
  exact rollCell_place hfrom (.inl (by rw [onRoll_roll (stepBegun_roll hr)]; rfl))

/-! ROLL_STEP_DONE. -/

section
variable {ok : Bool} (hr : s.boot.roll = some r) (hroll : s.rolling = true) (hrun : r.running = true)
include hr hroll hrun

theorem exec_rollStepDone_first (hp : r.phase = 1) : exec (.rollStepDone ok) s = .next (if ok then s.advanceRoll else s.stopRoll 7) := by
  simp [exec, execRollStepDone, hr, hroll, hrun, hp]

theorem exec_rollStepDone_pacers (hp : r.phase = 2) : exec (.rollStepDone ok) s = .next (if ok then s.rollCellDone r else s.rollCellFails r) := by
  simp [exec, execRollStepDone, hr, hroll, hrun, hp]

theorem exec_rollStepDone_starters (hp : r.phase = 5) : exec (.rollStepDone ok) s = .next (if ok then
    (if r.stage = 0 then s.onRoll fun r => { r with stage := 1, stepAt := s.now }
    else if r.stage = 1 then (s.onFlt fun f => { f with activePair := 1 - f.activePair }).onRoll fun r => { r with stage := 2, stepAt := s.now }
    else s.advanceRoll) else s.stopRoll 7) := by
  cases ok
  · simp [exec, execRollStepDone, hr, hroll, hrun, hp]
  · simp only [exec, execRollStepDone, hr, hroll, hrun, hp]
    match hs : r.stage with
    | 0 => simp
    | 1 => simp
    | n + 2 => simp

/-- A step of phases 3 to 6 that ends well: its unit is back, and the roll moves on. -/
theorem exec_rollStepDone_well (hp : r.phase = 3 ∨ r.phase = 4 ∨ (r.phase = 5 ∧ 2 ≤ r.stage) ∨ r.phase = 6) : ∃ u : State,
    exec (.rollStepDone true) s = .next u.advanceRoll ∧ Only [.blks, .blkBase, .blkCore, .rgns] s u ∧
      (r.phase = 3 → (u.blk r.unit).marshalOut = false) ∧
      (r.phase = 4 → (u.rgn (r.unit / 2)).stewards = setBit (s.rgn (r.unit / 2)).stewards (r.unit % 2)) := by
  rcases hp with hp | hp | ⟨hp, hstage⟩ | hp
  · refine ⟨s.updBlk r.unit fun y => { y with marshalOut := false }, by simp [exec, execRollStepDone, hr, hroll, hrun, hp],
      (setBlk_only _ _ _).mono (by decide), fun _ => ?_, fun h => absurd h (by omega)⟩
    rw [State.updBlk_eq, State.blk_setBlk, if_pos rfl]
  · refine ⟨s.updRgn (r.unit / 2) fun y => { y with stewards := setBit y.stewards (r.unit % 2) },
      by simp [exec, execRollStepDone, hr, hroll, hrun, hp], (setRgn_only _ _ _).mono (by decide), fun h => absurd h (by omega), fun _ => ?_⟩
    rw [State.updRgn_eq, State.rgn_setRgn, if_pos rfl]
  · refine ⟨s, ?_, .refl, fun h => absurd h (by omega), fun h => absurd h (by omega)⟩
    rw [exec_rollStepDone_starters hr hroll hrun hp, if_pos rfl, if_neg (by omega), if_neg (by omega)]
  · exact ⟨s, by simp [exec, execRollStepDone, hr, hroll, hrun, hp], .refl, fun h => absurd h (by omega), fun h => absurd h (by omega)⟩

/-- A step of phases 3 and later that a fault ends: its unit has failed, and the roll stops (R498). -/
theorem exec_rollStepDone_fault (hp : 3 ≤ r.phase) : ∃ u : State, exec (.rollStepDone false) s = .next (u.stopRoll 7) ∧ u.boot = s.boot ∧
    (r.phase ≠ 3 → r.phase ≠ 4 → u = s) ∧
    (r.phase = 3 → (u.blk r.unit).marshalOut = true ∧ u.flt.lastSrc = srcMarshal r.unit) ∧
    (r.phase = 4 → hasBit (u.rgn (r.unit / 2)).stewards (r.unit % 2) = false ∧ u.flt.lastSrc = srcSteward (r.unit / 2)) := by
  by_cases h3 : r.phase = 3
  · have hrun3 : exec (.rollStepDone false) s = .next (((s.updBlk r.unit fun y => { y with marshalOut := false }).marshalFails r.unit).stopRoll 7) := by
      simp [exec, execRollStepDone, hr, hroll, hrun, h3]
    have hboot : (s.updBlk r.unit fun y => { y with marshalOut := false }).boot = s.boot := rfl
    have hback : ((s.updBlk r.unit fun y => { y with marshalOut := false }).blk r.unit).marshalOut = false := by
      rw [State.updBlk_eq, State.blk_setBlk, if_pos rfl]
    rw [hrun3]
    generalize (s.updBlk r.unit fun y => { y with marshalOut := false }) = u at hboot hback ⊢
    have hfrom := marshalFails_from u hback
    refine ⟨_, rfl, Eq.trans (hfrom .boot (by decide)) hboot, fun h _ => absurd h3 h, fun _ => ⟨?_, ?_⟩, fun h => absurd h (by omega)⟩
    · exact (marshalOut_of_core (hfrom .blkCore (by decide) r.unit)).trans (marshalDown_out u r.unit)
    · exact (congrArg Faults.lastSrc (hfrom .flt (by decide))).trans rfl
  by_cases h4 : r.phase = 4
  · have hrun4 : exec (.rollStepDone false) s = .next (((s.updRgn (r.unit / 2) fun y => { y with stewards := setBit y.stewards (r.unit % 2) }).stewardFails
        (r.unit / 2) (r.unit % 2)).stopRoll 7) := by
      simp [exec, execRollStepDone, hr, hroll, hrun, h4]
    have hboot : (s.updRgn (r.unit / 2) fun y => { y with stewards := setBit y.stewards (r.unit % 2) }).boot = s.boot := rfl
    have hin : hasBit ((s.updRgn (r.unit / 2) fun y => { y with stewards := setBit y.stewards (r.unit % 2) }).rgn (r.unit / 2)).stewards (r.unit % 2) = true := by
      rw [State.updRgn_eq, State.rgn_setRgn, if_pos rfl]
      simp only [hasBit_setBit]
      simp
      omega
    rw [hrun4]
    generalize (s.updRgn (r.unit / 2) fun y => { y with stewards := setBit y.stewards (r.unit % 2) }) = u at hboot hin ⊢
    have hfrom := stewardFails_from u hin
    refine ⟨_, rfl, Eq.trans (hfrom .boot (by decide)) hboot, fun _ h => absurd h4 h, fun h => absurd h (by omega), fun _ => ⟨?_, ?_⟩⟩
    · rw [rgn_congr (hfrom .rgns (by decide)), stewardDown_stewards, hasBit_clearBit]
      simp
    · exact (lastSrc_of_base (hfrom .fltBase (by decide))).trans rfl
  refine ⟨s, ?_, rfl, fun _ _ => rfl, fun h => absurd h h3, fun h => absurd h h4⟩
  simp only [exec, execRollStepDone, hr, hroll, hrun]
  split
  case isTrue h => simp at h
  case isFalse =>
    split
    all_goals first | omega | rfl

end

end

end Sys2Proof.Machine
end

section
/-! The pacer phase of a live roll, cell by cell (R499, R529). -/

namespace Sys2Proof.Machine

section
variable {s t u v : State} {r q : Roll}

theorem storeRead_only (s : State) (n : Nat) : Only [.boot] s (s.storeRead n) := by
  unfold State.storeRead
  exact .ites (onBoot_only _ _) (onBoot_only _ _)

theorem storeRead_boot (s : State) (n : Nat) : (s.storeRead n).boot.selector = s.boot.selector ∧ (s.storeRead n).boot.running = s.boot.running := by
  by_cases h : s.storeErasing = true
  · simp [State.storeRead, State.onBoot, h]
  · simp [State.storeRead, State.onBoot, h]

/-- The roll that IMAGE_ACTIVATE_LIVE starts, in phase 1 (R496, R497). -/
def State.rollBegins (s : State) (h : Hdr) (k : Nat) : Roll :=
  { bank := k, hdr := h, phase := 1, unit := 0, cell := 0, stage := 0, inPlace := false, running := true, back := false, cause := 0, reached := 1,
    since := s.now, stepAt := s.now }

theorem exec_imageActivateLive {h : Hdr} {bank : Nat} {y : Image} (ht : s.TakesBoot h) (hc : (s.fetchOne h).liveCause (bank % 2) = 0)
    (hy : ((s.fetchOne h).boot.bank (bank % 2)).image = some y) : exec (.imageActivateLive h bank) s =
      .next ((((s.fetchOne h).storeRead y.length).onBoot fun b => { b with roll := some (((s.fetchOne h).storeRead y.length).rollBegins h (bank % 2)) }).raise
        0x0C09 ((s.fetchOne h).storeRead y.length).srcStarters (bank % 2) y.starter.version y.pacer.version 0) := by
  simp only [exec, execImageActivateLive]
  rw [ht.run]
  simp only [hc, hy, ne_eq, not_true_eq_false, if_false]
  rfl

theorem exec_imageActivateLive_fails {h : Hdr} {bank : Nat} (ht : s.TakesBoot h) (hc : (s.fetchOne h).liveCause (bank % 2) ≠ 0) :
    exec (.imageActivateLive h bank) s = .next ((s.fetchOne h).activateFails h ((s.fetchOne h).liveCause (bank % 2))) := by
  simp only [exec, execImageActivateLive]
  rw [ht.run]
  simp only [hc, ne_eq, not_false_eq_true, if_true]

/-- A block's cell is fenced from `u` to `t`, the roll kept: its bit is set and no other (R525). -/
structure State.CellLost (u t : State) (b c : Nat) : Prop where
  boot : t.boot = u.boot
  failed : hasBit (t.blk b).cellFailed c = true
  others : ∀ k, c ≠ k → hasBit (t.blk b).cellFailed k = hasBit (u.blk b).cellFailed k
  source : t.flt.lastSrc = srcPacer (17 * b + c)

theorem cellOut_lost (u : State) (b c : Nat) (hc : c ≤ 16) : u.CellLost (u.cellOut (17 * b + c)) b c := by
  have hdiv : (17 * b + c) / 17 = b := by omega
  have hmod : (17 * b + c) % 17 = c := by omega
  have hblk : ((u.cellOut (17 * b + c)).blk b).cellFailed = setBit (u.blk b).cellFailed c := by
    unfold State.cellOut
    rw [blk_unitFailed, hdiv, hmod, State.updBlk_eq, State.blk_setBlk, if_pos rfl]
  refine ⟨rfl, ?_, fun k hk => ?_, rfl⟩
  · rw [hblk, hasBit_setBit]
    simp
    omega
  · rw [hblk, hasBit_setBit]
    simp [hk]

theorem State.CellLost.keeps {b c : Nat} {F : List Part} (h : u.CellLost t b c) (hF : Only F t v) (hboot : Part.boot ∉ F) (hblk : Part.blkCore ∉ F)
    (hflt : Part.fltBase ∉ F) : u.CellLost v b c := by
  have hcell : (v.blk b).cellFailed = (t.blk b).cellFailed := cellFailed_of_core (hF .blkCore hblk b)
  have hb : v.boot = t.boot := hF .boot hboot
  have hsrc : v.flt.lastSrc = t.flt.lastSrc := lastSrc_of_base (hF .fltBase hflt)
  exact ⟨hb.trans h.boot, by rw [hcell, h.failed], fun k hk => by rw [hcell, h.others k hk], hsrc.trans h.source⟩

/-- A pacer's failure fences its cell (R525). -/
theorem pacerFails_lost {b c : Nat} (hc : c ≤ 16) (h : hasBit (u.blk b).cellFailed c = false) : u.CellLost (u.pacerFails (17 * b + c)) b c := by
  have hdiv : (17 * b + c) / 17 = b := by omega
  have hmod : (17 * b + c) % 17 = c := by omega
  exact (cellOut_lost u b c hc).keeps (pacerFails_from u (by rw [hdiv, hmod, h])) (by decide) (by decide) (by decide)

theorem rollNext_pacers (hp : q.phase = 2) (hb : q.back = false) : ∃ p n, rollNext q = some (p, n) := by
  unfold rollNext
  simp only [hb, hp, if_false, if_true, Bool.false_eq_true]
  split
  · exact ⟨_, _, rfl⟩
  · exact ⟨_, _, rfl⟩

/-- A block that loads in place goes to its next cell, or its phase ends (R499). -/
theorem rollCell_goes (b k : Nat) (hq : u.boot.roll = some q) (hp : q.phase = 2) (hb : q.back = false) (hin : q.inPlace = true) : ∃ q',
    (u.rollCell b k).boot.roll = some q' ∧ q'.back = false ∧ Only cellParts u (u.rollCell b k) ∧
      ∀ n, u.rollCellFrom b 17 k = some n → q' = { q with cell := n, stage := 1, inPlace := true, stepAt := u.now } := by
  match hn : u.rollCellFrom b 17 k with
  | some n =>
    rw [rollCell_place hn (.inl (by rw [hq]; exact hin))]
    exact ⟨_, loadInPlace_roll hq b n _, hb, loadInPlace_only _ _ _ _, fun m hm => by cases hm; rfl⟩
  | none =>
    obtain ⟨p, m, hnext⟩ := rollNext_pacers hp hb
    obtain ⟨hroll, honly⟩ := advanceRoll_next hq hnext
    rw [rollCell_end hn]
    exact ⟨_, hroll, hb, honly.mono (by decide), fun m hm => nomatch hm⟩

section
variable (hr : s.boot.roll = some r) (hb : r.back = false) (hp : r.phase = 2) (hc : r.cell ≤ 16)
  (hcell : hasBit (s.blk r.unit).cellFailed r.cell = false)
include hc hcell

/-- A cell that fails beside the block's spare is fenced, and the rest of the block is to load in place (R529). -/
theorem rollCellFails_carries (hin : r.inPlace = false) : ∃ t, (s.onRoll fun r => { r with inPlace := true }).CellLost t r.unit r.cell ∧
    s.rollCellFails r = t.rollCell r.unit (if r.cell = 16 then 0 else r.cell + 1) := by
  have hsame : ((s.onRoll fun r => { r with inPlace := true }).blk r.unit).cellFailed = (s.blk r.unit).cellFailed := rfl
  unfold State.rollCellFails
  simp only [hin, if_false, Bool.false_eq_true]
  generalize hu : s.onRoll (fun r => { r with inPlace := true }) = u at hsame ⊢
  by_cases h16 : r.cell = 16
  · simp only [h16, if_true]
    exact ⟨_, pacerFails_lost (by omega) (by rw [hsame, ← h16, hcell]), rfl⟩
  simp only [h16, if_false]
  split
  · have hback := rollLaneBack_only u (16 * r.unit + r.cell)
    have hsame' := (congrArg Blk.cellFailed (blk_congr (hback .blks (by decide)) r.unit)).trans hsame
    have hlost := pacerFails_lost (u := u.rollLaneBack (16 * r.unit + r.cell)) hc (by rw [hsame', hcell])
    refine ⟨_, ⟨hlost.boot.trans (hback .boot (by decide)), hlost.failed, fun k hk => ?_, hlost.source⟩, rfl⟩
    rw [hlost.others k hk, blk_congr (hback .blks (by decide))]
  · have hlost := cellOut_lost u r.unit r.cell hc
    have heq : u.cellOut (17 * r.unit + r.cell) = (u.updBlk r.unit fun y => { y with cellFailed := setBit y.cellFailed r.cell }).unitFailed
        (srcPacer (17 * r.unit + r.cell)) := by
      unfold State.cellOut
      rw [show (17 * r.unit + r.cell) / 17 = r.unit by omega, show (17 * r.unit + r.cell) % 17 = r.cell by omega]
    exact ⟨_, (heq ▸ hlost).keeps (rollLaneBack_only _ _) (by decide) (by decide) (by decide), rfl⟩

include hr hb hp

/-- A cell that fails as it loads in place turns the roll back (R498). -/
theorem rollCellFails_turns (hin : r.inPlace = true) : ∃ q, (s.rollCellFails r).boot.roll = some q ∧ q.back = true ∧ q.cause = 7 ∧ q.running = false ∧
    q.unit = r.unit ∧ hasBit ((s.rollCellFails r).blk r.unit).cellFailed r.cell = true ∧
    (s.rollCellFails r).flt.lastSrc = srcPacer (17 * r.unit + r.cell) := by
  have heq : s.rollCellFails r = ((s.rollLaneBack (16 * r.unit + if r.cell = 16 then (s.blk r.unit).spareLane else r.cell)).pacerFails
      (17 * r.unit + r.cell)).stopRoll 7 := by
    unfold State.rollCellFails
    simp only [hin, if_true]
  have hback := rollLaneBack_only s (16 * r.unit + if r.cell = 16 then (s.blk r.unit).spareLane else r.cell)
  rw [heq]
  generalize s.rollLaneBack (16 * r.unit + if r.cell = 16 then (s.blk r.unit).spareLane else r.cell) = u at hback ⊢
  have hlost := pacerFails_lost hc (show hasBit (u.blk r.unit).cellFailed r.cell = false by rw [blk_congr (hback .blks (by decide)), hcell])
  have hroll := roll_congr (hlost.boot.trans (hback .boot (by decide))) hr
  generalize u.pacerFails (17 * r.unit + r.cell) = v at hlost hroll ⊢
  obtain ⟨hturn, honly⟩ := stopRoll_turns (cause := 7) hroll hb (by omega)
  refine ⟨_, hturn, rfl, rfl, rfl, rfl, ?_, ?_⟩
  · rw [blk_congr (honly .blks (by decide)), hlost.failed]
  · exact (congrArg Faults.lastSrc (honly .flt (by decide))).trans hlost.source

/-- After such a cell the roll goes on, in place, at the next one that is in service (R529). -/
theorem rollCellFails_goes (hin : r.inPlace = false) : ∃ q, (s.rollCellFails r).boot.roll = some q ∧ q.back = false ∧
    hasBit ((s.rollCellFails r).blk r.unit).cellFailed r.cell = true ∧ (s.rollCellFails r).flt.lastSrc = srcPacer (17 * r.unit + r.cell) ∧
    ∀ n, s.rollCellFrom r.unit 17 (if r.cell = 16 then 0 else r.cell + 1) = some n → q.inPlace = true ∧ q.cell = n ∧ q.stage = 1 ∧ q.unit = r.unit := by
  obtain ⟨t, hlost, heq⟩ := rollCellFails_carries hc hcell hin
  have hroll := roll_congr hlost.boot (onRoll_roll hr fun r => { r with inPlace := true })
  obtain ⟨q, hq, hqb, honly, hplace⟩ := rollCell_goes r.unit (if r.cell = 16 then 0 else r.cell + 1) hroll hp hb rfl
  have hfrom : t.rollCellFrom r.unit 17 (if r.cell = 16 then 0 else r.cell + 1) = s.rollCellFrom r.unit 17 (if r.cell = 16 then 0 else r.cell + 1) := by
    split
    · exact rollCellFrom_congr (fun k hk => hlost.others k (by omega)) _ _
    · exact rollCellFrom_after (i := r.cell) hlost.others _ _ (by omega)
  rw [heq]
  refine ⟨q, hq, hqb, ?_, ?_, fun n hn => ?_⟩
  · rw [cellFailed_of_core (honly .blkCore (by decide) _), hlost.failed]
  · exact (lastSrc_of_base (honly .fltBase (by decide))).trans hlost.source
  · cases hplace n (hfrom.trans hn)
    exact ⟨rfl, rfl, rfl, rfl⟩

end

/-! A step of the pacer phase that ends well. -/

/-- A lane of a block, at its local cell. -/
theorem blockOfLane_at {b k : Nat} (hk : k < 16) : blockOfLane (16 * b + k) = b := by
  simp only [blockOfLane]
  omega

section
variable (hr : s.boot.roll = some r)
include hr

theorem rollCellDone_spare {k : Nat} (hin : r.inPlace = false) (hc : r.cell = 16) (ht : s.spareTaken r.unit = false)
    (hk : s.rollCellFrom r.unit 17 0 = some k) :
    ((s.lane (16 * r.unit + k)).st = .active → ((s.rollCellDone r).lane (16 * r.unit + k)).outage = some .roll) ∧
      (s.rollCellDone r).boot.roll = some { r with cell := k, stage := 0, stepAt := s.now } := by
  have heq : s.rollCellDone r = (s.onRoll fun r => { r with cell := k, stage := 0, stepAt := s.now }).rollLaneOut (16 * r.unit + k) := by
    unfold State.rollCellDone
    simp only [hc, if_true, hin, if_false, Bool.false_eq_true]
    exact rollCell_move hk (by rw [hr]; exact hin) ht
  have hset := onRoll_roll hr fun r => { r with cell := k, stage := 0, stepAt := s.now }
  rw [heq]
  exact ⟨fun ha => rollLaneOut_out ha, roll_congr (rollLaneOut_only _ _ .boot (by decide)) hset⟩

theorem rollCellDone_toSpare (hin : r.inPlace = false) (hc : r.cell < 16) (hst : r.stage = 0) :
    ((s.rollCellDone r).blk r.unit).spareLane = r.cell ∧ ((s.rollCellDone r).lane (16 * r.unit + r.cell)).spare = true ∧
      ((s.rollCellDone r).lane (16 * r.unit + r.cell)).outage ≠ some .roll ∧
      (s.rollCellDone r).boot.roll = some { r with stage := 1, stepAt := s.now } := by
  have heq : s.rollCellDone r = (s.rollMove (16 * r.unit + r.cell) true).onRoll fun r => { r with stage := 1, stepAt := s.now } := by
    unfold State.rollCellDone
    simp only [show ¬ r.cell = 16 by omega, hin, hst, if_false, Bool.false_eq_true]
  have hroll := roll_congr (rollMove_only s (16 * r.unit + r.cell) true .boot (by decide)) hr
  have hblk := rollMove_blk s (16 * r.unit + r.cell) true
  rw [blockOfLane_at hc] at hblk
  obtain ⟨hspare, hout⟩ := rollMove_lane s (16 * r.unit + r.cell) true
  rw [if_pos rfl, show (16 * r.unit + r.cell) % 16 = r.cell by omega] at hblk
  rw [heq]
  generalize s.rollMove (16 * r.unit + r.cell) true = u at hroll hblk hspare hout ⊢
  exact ⟨congrArg Blk.spareLane hblk, hspare, hout, onRoll_roll hroll _⟩

theorem rollCellDone_loaded (hin : r.inPlace = false) (hc : r.cell < 16) (hst : r.stage = 1) :
    ((s.lane (16 * r.unit + r.cell)).st = .active → ((s.rollCellDone r).lane (16 * r.unit + r.cell)).outage = some .roll) ∧
      (s.rollCellDone r).boot.roll = some { r with stage := 2, stepAt := s.now } := by
  have heq : s.rollCellDone r = (s.onRoll fun r => { r with stage := 2, stepAt := s.now }).rollLaneOut (16 * r.unit + r.cell) := by
    unfold State.rollCellDone
    simp only [show ¬ r.cell = 16 by omega, hin, hst, if_false, Bool.false_eq_true]
  have hset := onRoll_roll hr fun r => { r with stage := 2, stepAt := s.now }
  rw [heq]
  exact ⟨fun ha => rollLaneOut_out ha, roll_congr (rollLaneOut_only _ _ .boot (by decide)) hset⟩

/-- The lane is back at its own cell, and the block's phase goes on with the cell after it (R499). -/
theorem rollCellDone_home (hin : r.inPlace = false) (hc : r.cell < 16) (hst : 2 ≤ r.stage) :
    s.rollCellDone r = (s.rollMove (16 * r.unit + r.cell) false).rollCell r.unit (r.cell + 1) ∧
      ((s.rollMove (16 * r.unit + r.cell) false).blk r.unit) = { s.blk r.unit with spareLane := 0x1F } ∧
      (s.rollMove (16 * r.unit + r.cell) false).boot.roll = some r ∧
      (s.rollMove (16 * r.unit + r.cell) false).rollCellFrom r.unit 17 (r.cell + 1) = s.rollCellFrom r.unit 17 (r.cell + 1) := by
  have hblk := rollMove_blk s (16 * r.unit + r.cell) false
  rw [blockOfLane_at hc] at hblk
  have hcells := congrArg Blk.cellFailed hblk
  refine ⟨?_, hblk, roll_congr (rollMove_only s (16 * r.unit + r.cell) false .boot (by decide)) hr, rollCellFrom_congr (fun k _ => ?_) _ _⟩
  · unfold State.rollCellDone
    simp only [show ¬ r.cell = 16 by omega, hin, if_false, Bool.false_eq_true]
    split
    · omega
    · omega
    · rfl
  · rw [hcells]

theorem rollCellDone_nextMove {k : Nat} (hin : r.inPlace = false) (hc : r.cell < 16) (hst : 2 ≤ r.stage) (hh : (s.blk r.unit).handoff = none)
    (h16 : hasBit (s.blk r.unit).cellFailed 16 = false) (hk : s.rollCellFrom r.unit 17 (r.cell + 1) = some k) :
    ((s.rollCellDone r).blk r.unit).spareLane = 0x1F ∧ ((s.rollCellDone r).lane (16 * r.unit + r.cell)).spare = false ∧
      (s.rollCellDone r).boot.roll = some { r with cell := k, stage := 0, stepAt := s.now } := by
  obtain ⟨heq, hblk, hroll, hfrom⟩ := rollCellDone_home hr hin hc hst
  have hnow : (s.rollMove (16 * r.unit + r.cell) false).now = s.now := congrArg Aon.timeNs (rollMove_only s (16 * r.unit + r.cell) false .aon (by decide))
  have hspare := (rollMove_lane s (16 * r.unit + r.cell) false).1
  have hge := rollCellFrom_ge hk
  rw [heq]
  generalize s.rollMove (16 * r.unit + r.cell) false = u at hblk hroll hfrom hnow hspare ⊢
  have hset := onRoll_roll hroll fun r => { r with cell := k, stage := 0, stepAt := u.now }
  rw [rollCell_move (hfrom.trans hk) (by rw [hroll]; exact hin) (by simp [State.spareTaken, hblk, hh, h16])]
  have hout := rollLaneOut_only (u.onRoll fun r => { r with cell := k, stage := 0, stepAt := u.now }) (16 * r.unit + k)
  refine ⟨?_, ?_, ?_⟩
  · have hcore := (blk_congr (s := u) (t := u.onRoll fun r => { r with cell := k, stage := 0, stepAt := u.now }) rfl r.unit).trans hblk
    exact (spareLane_of_base (hout .blkBase (by decide) r.unit)).trans (congrArg Blk.spareLane hcore)
  · rw [rollLaneOut_lane, if_neg (by omega)]
    exact hspare
  · rw [← hnow]
    exact roll_congr (hout .boot (by decide)) hset

theorem rollCellDone_lastMove {p n : Nat} (hin : r.inPlace = false) (hc : r.cell < 16) (hst : 2 ≤ r.stage)
    (hk : s.rollCellFrom r.unit 17 (r.cell + 1) = none) (hn : rollNext r = some (p, n)) :
    ((s.rollCellDone r).blk r.unit).spareLane = 0x1F ∧ (s.rollCellDone r).boot.roll =
      some ((s.rollMove (16 * r.unit + r.cell) false).rollAt r p n) := by
  obtain ⟨heq, hblk, hroll, hfrom⟩ := rollCellDone_home hr hin hc hst
  rw [heq, rollCell_end (hfrom.trans hk)]
  obtain ⟨hnext, honly⟩ := advanceRoll_next hroll hn
  exact ⟨by rw [blk_congr (honly .blks (by decide)), hblk], hnext⟩

theorem rollCellDone_inPlace {k : Nat} (hin : r.inPlace = true) (hc : r.cell < 16) (hk : s.rollCellFrom r.unit 17 (r.cell + 1) = some k)
    (hroom : s.roomForEvents) : Recorded s (s.rollCellDone r) 0x0C0A s.srcStarters r.unit k 0 0 ∧
      ((s.rollCellDone r).lane (16 * r.unit + r.cell)).outage ≠ some .roll ∧
      (s.rollCellDone r).boot.roll = some { r with cell := k, stage := 1, stepAt := s.now } := by
  have heq : s.rollCellDone r = (s.rollLaneBack (16 * r.unit + r.cell)).rollCell r.unit (r.cell + 1) := by
    unfold State.rollCellDone
    simp only [show ¬ r.cell = 16 by omega, hin, if_false, if_true]
  have hback := rollLaneBack_only s (16 * r.unit + r.cell)
  have hlane := rollLaneBack_lane s (16 * r.unit + r.cell)
  have hsrc : (s.rollLaneBack (16 * r.unit + r.cell)).srcStarters = s.srcStarters := srcStarters_congr (hback .flt (by decide))
  have hnow : (s.rollLaneBack (16 * r.unit + r.cell)).now = s.now := congrArg Aon.timeNs (hback .aon (by decide))
  have hge := rollCellFrom_ge hk
  rw [heq]
  generalize s.rollLaneBack (16 * r.unit + r.cell) = u at hback hlane hsrc hnow ⊢
  have hroll := roll_congr (hback .boot (by decide)) hr
  have hevr : u.evr = s.evr := hback .evr (by decide)
  have hfrom : u.rollCellFrom r.unit 17 (r.cell + 1) = s.rollCellFrom r.unit 17 (r.cell + 1) :=
    rollCellFrom_congr (fun k _ => by rw [blk_congr (hback .blks (by decide))]) _ _
  rw [rollCell_place (hfrom.trans hk) (.inl (by rw [hroll]; exact hin))]
  obtain ⟨hrec, hnext, hlanes⟩ := loadInPlace_done hroll (by unfold State.roomForEvents; rw [hevr]; exact hroom) r.unit k (16 * r.unit + k)
  refine ⟨?_, ?_, ?_⟩
  · unfold Recorded at hrec ⊢
    rw [← hnow, ← hsrc]
    exact hrec
  · rw [hlanes, if_neg (by omega)]
    exact hlane
  · rw [hnext, hnow, ← hin]

theorem rollCellDone_lastInPlace {p n : Nat} (hin : r.inPlace = true) (hc : r.cell < 16) (hk : s.rollCellFrom r.unit 17 (r.cell + 1) = none)
    (hn : rollNext r = some (p, n)) : ((s.rollCellDone r).lane (16 * r.unit + r.cell)).outage ≠ some .roll ∧
      (s.rollCellDone r).boot.roll = some ((s.rollLaneBack (16 * r.unit + r.cell)).rollAt r p n) := by
  have heq : s.rollCellDone r = (s.rollLaneBack (16 * r.unit + r.cell)).rollCell r.unit (r.cell + 1) := by
    unfold State.rollCellDone
    simp only [show ¬ r.cell = 16 by omega, hin, if_false, if_true]
  have hback := rollLaneBack_only s (16 * r.unit + r.cell)
  have hfrom : (s.rollLaneBack (16 * r.unit + r.cell)).rollCellFrom r.unit 17 (r.cell + 1) = s.rollCellFrom r.unit 17 (r.cell + 1) :=
    rollCellFrom_congr (fun k _ => by rw [blk_congr (hback .blks (by decide))]) _ _
  obtain ⟨hnext, honly⟩ := advanceRoll_next (roll_congr (hback .boot (by decide)) hr) hn
  rw [heq, rollCell_end (hfrom.trans hk)]
  refine ⟨?_, hnext⟩
  rw [lane_congr (honly .lanes (by decide))]
  exact rollLaneBack_lane s _

end

end

end Sys2Proof.Machine
end

section
/-! Live rolls: the clauses of O50 that combine a command's cases, and O50 itself. -/

namespace Sys2Proof.Machine

section
variable {s : State} {r q : Roll}

/-- After a block comes a block, or the first marshal (R497, R498). -/
theorem rollNext_block {p u : Nat} (hp : r.phase = 2) (hn : rollNext r = some (p, u)) : p = 2 ∨ p = 3 := by
  unfold rollNext at hn
  match hb : r.back, hu : r.unit with
  | true, 0 => simp [hb, hp, hu] at hn
  | true, n + 1 =>
    simp only [hb, hp, hu, if_true, Option.some.injEq, Prod.mk.injEq] at hn
    exact .inl hn.1.symm
  | false, n =>
    simp only [hb, hp, hu, if_true, if_false, Bool.false_eq_true] at hn
    have hfst := congrArg Prod.fst (Option.some.inj hn)
    split at hfst
    · exact .inl hfst.symm
    · exact .inr hfst.symm

/-- Steps of the phases of blocks, marshals and stewards wait for their start (R497). -/
theorem rollAt_waits {p u : Nat} (hp : p = 2 ∨ p = 3) : (s.rollAt r p u).running = false := by
  rcases hp with rfl | rfl <;> rfl

theorem imageActivateLive_starts {h : Hdr} {bank : Nat} {y : Image} (ht : s.TakesBoot h) (hc : (s.fetchOne h).liveCause (bank % 2) = 0)
    (hy : (s.boot.bank bank).image = some y) (hroom : s.roomForEvents) : ∃ t r, exec (.imageActivateLive h bank) s = .next t ∧ t.boot.roll = some r ∧
      r.bank = bank % 2 ∧ r.hdr = h ∧ r.phase = 1 ∧ r.running = true ∧ r.back = false ∧ t.boot.selector = s.boot.selector ∧
      t.boot.running = s.boot.running ∧ Recorded s t 0x0C09 s.srcStarters (bank % 2) y.starter.version y.pacer.version 0 ∧ t.out = s.out := by
  have hfetch := fetchOne_only s h
  have hbank : ((s.fetchOne h).boot.bank (bank % 2)).image = some y := by
    rw [show (s.fetchOne h).boot = s.boot from hfetch .boot (by decide)]
    simpa [BootStore.bank] using hy
  have hread := storeRead_only (s.fetchOne h) y.length
  obtain ⟨hsel, hrun⟩ := storeRead_boot (s.fetchOne h) y.length
  have hexec := exec_imageActivateLive ht hc hbank
  generalize (s.fetchOne h).storeRead y.length = u at hread hsel hrun hexec
  have hbegin := onBoot_only u fun b => { b with roll := some (u.rollBegins h (bank % 2)) }
  have hboot : (u.onBoot fun b => { b with roll := some (u.rollBegins h (bank % 2)) }).boot =
      { u.boot with roll := some (u.rollBegins h (bank % 2)) } := rfl
  have hkept := (hfetch.andThen hread).andThen hbegin
  have hsrc : u.srcStarters = s.srcStarters := srcStarters_congr ((hfetch.andThen hread) .flt (by decide))
  have hevr : (u.onBoot fun b => { b with roll := some (u.rollBegins h (bank % 2)) }).evr = s.evr := hkept .evr (by decide)
  have hout : (u.onBoot fun b => { b with roll := some (u.rollBegins h (bank % 2)) }).out = s.out := hkept .out (by decide)
  have hnow : (u.onBoot fun b => { b with roll := some (u.rollBegins h (bank % 2)) }).now = s.now := congrArg Aon.timeNs (hkept .aon (by decide))
  have hs : (s.fetchOne h).boot = s.boot := hfetch .boot (by decide)
  rw [hs] at hsel hrun
  generalize (u.onBoot fun b => { b with roll := some (u.rollBegins h (bank % 2)) }) = v at hexec hboot hevr hout hnow
  have hraise := raise_only v 0x0C09 u.srcStarters (bank % 2) y.starter.version y.pacer.version 0
  have hb : (v.raise 0x0C09 u.srcStarters (bank % 2) y.starter.version y.pacer.version 0).boot = v.boot := hraise .boot (by decide)
  refine ⟨_, u.rollBegins h (bank % 2), hexec, by rw [hb, hboot], rfl, rfl, rfl, rfl, rfl, by rw [hb, hboot, ← hsel], by rw [hb, hboot, ← hrun], ?_,
    Eq.trans (hraise .out (by decide)) hout⟩
  rw [hsrc]
  exact recorded_raise (by rw [hevr]; exact hroom) hnow (by decide) _ _ _ _ _

theorem imageActivateLive_fails {h : Hdr} {bank : Nat} (ht : s.TakesBoot h) (hc : (s.fetchOne h).liveCause (bank % 2) ≠ 0) : ∃ t,
    exec (.imageActivateLive h bank) s = .next t ∧
      Posted s t h (if 0x10 ≤ (s.fetchOne h).liveCause (bank % 2) then .sequenceError else .invalidFirmwareImage)
        ((s.fetchOne h).liveCause (bank % 2)) 0 ∧ t.boot = s.boot := by
  have hfetch := fetchOne_only s h
  refine ⟨_, exec_imageActivateLive_fails ht hc, ?_, ?_⟩
  · exact completeWith_posted (ht.unmuted (hfetch .ctrls (by decide))) (hfetch .completions (by decide)) _ _ _ _
  · exact Eq.trans (completeWith_only _ _ _ _ _ _ .boot (by decide)) (hfetch .boot (by decide))

theorem rollStep_none (hr : s.boot.roll = none) (ok : Bool) : exec .rollStepStart s = .next s ∧ exec (.rollStepDone ok) s = .next s := by
  simp [exec, execRollStepStart, execRollStepDone, hr]

theorem rollStepDone_idle (hr : s.boot.roll = some r) (ok : Bool) (h : s.rolling = false ∨ r.running = false) : exec (.rollStepDone ok) s = .next s := by
  rcases h with h | h <;> simp [exec, execRollStepDone, hr, h]

theorem beginStep_places {k : Nat} (hr : s.boot.roll = some r) (hp : r.phase = 2) (hroom : s.roomForEvents) :
    (hasBit (s.blk r.unit).cellFailed 16 = false → s.spareTaken r.unit = true → Recorded s (s.beginStep r) 0x0C0A s.srcStarters r.unit 16 0 0 ∧
        (s.beginStep r).boot.roll = some { r with running := true, stepAt := s.now, cell := 16, stage := 1, inPlace := true }) ∧
      (hasBit (s.blk r.unit).cellFailed 16 = true → s.rollCellFrom r.unit 17 0 = some k → Recorded s (s.beginStep r) 0x0C0A s.srcStarters r.unit k 0 0 ∧
        ((s.lane (16 * r.unit + k)).st = .active → ((s.beginStep r).lane (16 * r.unit + k)).outage = some .roll) ∧
        (s.beginStep r).boot.roll = some { r with running := true, stepAt := s.now, cell := k, stage := 1, inPlace := true }) := by
  have hbegun := stepBegun_roll hr
  refine ⟨fun hc ht => ?_, fun hc hk => ?_⟩
  · rw [beginStep_inPlace hp hc ht]
    obtain ⟨hrec, hroll, -⟩ := loadInPlace_done hbegun (by exact hroom) r.unit 16 (16 * r.unit + (s.blk r.unit).spareLane)
    exact ⟨hrec, hroll⟩
  · rw [beginStep_lost hr hp hc hk]
    have hset := onRoll_roll hbegun fun r => { r with inPlace := true }
    obtain ⟨hrec, hroll, hlanes⟩ := loadInPlace_done hset (by exact hroom) r.unit k (16 * r.unit + k)
    refine ⟨hrec, fun ha => ?_, hroll⟩
    rw [hlanes, if_pos ⟨rfl, ha⟩]

theorem rollStepStart_clashes {x y : Image} {c : Handover} (hr : s.boot.roll = some r) (hroll : s.rolling = true) (hrun : r.running = false)
    (hready : s.rollReady r = true) (hb : r.back = false) (hp : r.phase ≠ 1) (hx : s.boot.running = some x) (hy : s.rollTarget r = some y)
    (hc : clashIn x y r.phase = some c) (hroom : s.roomForEvents) : ∃ t q,
    exec .rollStepStart s = .next t ∧ t.boot.roll = some q ∧ q.back = true ∧ q.cause = 5 ∧ q.running = false ∧ q.unit = r.unit ∧
      Recorded s t 0x0C0C s.srcStarters c.mailbox c.cls (c.met.1 + 256 * c.met.2) (c.new.1 + 256 * c.new.2) ∧ t.blks = s.blks ∧ t.rgns = s.rgns := by
  have hrec := recorded_raise (s := s) (u := s) hroom rfl (code := 0x0C0C) (by decide) s.srcStarters c.mailbox c.cls (c.met.1 + 256 * c.met.2)
    (c.new.1 + 256 * c.new.2)
  have hraise := raise_only s 0x0C0C s.srcStarters c.mailbox c.cls (c.met.1 + 256 * c.met.2) (c.new.1 + 256 * c.new.2)
  obtain ⟨hturn, honly⟩ := stopRoll_turns (cause := 5) (roll_congr (hraise .boot (by decide)) hr) hb hp
  exact ⟨_, _, exec_rollStepStart_clash hr hroll hrun hready hx hy hb hc, hturn, rfl, rfl, rfl, rfl, honly .records (by decide) _ hrec,
    (hraise.andThen honly) .blks (by decide), (hraise.andThen honly) .rgns (by decide)⟩

section
variable (hr : s.boot.roll = some r) (hroll : s.rolling = true) (hrun : r.running = true)
include hr hroll hrun

theorem rollStepDone_firstFails (hb : r.back = false) (hp : r.phase = 1) (hm : s.muted r.hdr = false) (hf : s.boot.ledgerFull = false)
    (hroom : s.roomForEvents) : ∃ t, exec (.rollStepDone false) s = .next t ∧ t.boot.roll = none ∧ t.boot.seqNew = s.boot.seqNew + 1 ∧
      t.boot.selector = s.boot.selector ∧ Recorded s t 0x0C0B s.srcStarters 2 1 ((s.now - r.since) / 1000000) 7 ∧
      Posted s t r.hdr .invalidFirmwareImage 7 0 := by
  obtain ⟨hnone, hseq, hsel, -, hrec, hpost⟩ := endRoll_back (r := r.turned 7) rfl hm hf hroom
  refine ⟨_, ?_, hnone, hseq, hsel, ?_, hpost⟩
  · rw [exec_rollStepDone_first hr hroll hrun hp, if_neg (by decide), stopRoll_first hr hb hp]
  · rw [show (1 : Nat) = (r.turned 7).reached from hp.symm]
    exact hrec

/-- A unit's step that ends well brings the roll to what comes next (R497). -/
theorem rollStepDone_moves {p u : Nat} (hp : r.phase = 3 ∨ r.phase = 4 ∨ (r.phase = 5 ∧ 2 ≤ r.stage) ∨ r.phase = 6) (hn : rollNext r = some (p, u)) : ∃ t,
    exec (.rollStepDone true) s = .next t ∧ t.boot.roll = some (s.rollAt r p u) ∧ (r.phase = 3 → (t.blk r.unit).marshalOut = false) ∧
      (r.phase = 4 → (t.rgn (r.unit / 2)).stewards = setBit (s.rgn (r.unit / 2)).stewards (r.unit % 2)) := by
  obtain ⟨v, hexec, honly, hblk, hrgn⟩ := exec_rollStepDone_well hr hroll hrun hp
  obtain ⟨hnext, hboot⟩ := advanceRoll_next (roll_congr (honly .boot (by decide)) hr) hn
  have hat : v.rollAt r p u = s.rollAt r p u := by
    have hflt : v.flt = s.flt := honly .flt (by decide)
    have hnow : v.now = s.now := congrArg Aon.timeNs (honly .aon (by decide))
    simp only [State.rollAt, hflt, hnow]
  refine ⟨_, hexec, by rw [hnext, hat], fun h => ?_, fun h => ?_⟩
  · rw [blk_congr (hboot .blks (by decide)), hblk h]
  · rw [rgn_congr (hboot .rgns (by decide)), hrgn h]

/-- A fault in a step of a roll that is turned back: its unit's step is over all the same (R498). -/
theorem rollStepDone_faultBack {p u : Nat} (hb : r.back = true) (hp : 3 ≤ r.phase) (hn : rollNext r = some (p, u)) : ∃ t q,
    exec (.rollStepDone false) s = .next t ∧ t.boot.roll = some q ∧ q.phase = p ∧ q.unit = u ∧ q.cell = 0 ∧ q.stage = 0 ∧ q.back = r.back ∧
      q.cause = r.cause := by
  obtain ⟨v, hexec, hboot, -⟩ := exec_rollStepDone_fault hr hroll hrun hp
  obtain ⟨hnext, -⟩ := advanceRoll_next (roll_congr hboot hr) hn
  rw [stopRoll_back (roll_congr hboot hr) hb] at hexec
  exact ⟨_, _, hexec, hnext, rfl, rfl, rfl, rfl, rfl, rfl⟩

/-- A fault in a step of phases 3 to 6 turns the roll back (R498). -/
theorem rollStepDone_faultTurns (hb : r.back = false) (hp : 3 ≤ r.phase) : ∃ t, exec (.rollStepDone false) s = .next t ∧
    t.boot.roll = some (r.turned 7) ∧ (r.phase = 3 → (t.blk r.unit).marshalOut = true ∧ t.flt.lastSrc = srcMarshal r.unit) ∧
    (r.phase = 4 → hasBit (t.rgn (r.unit / 2)).stewards (r.unit % 2) = false ∧ t.flt.lastSrc = srcSteward (r.unit / 2)) ∧
    (r.phase = 5 → t.flt = s.flt ∧ t.out = s.out) := by
  obtain ⟨v, hexec, hboot, hsame, hblk, hrgn⟩ := exec_rollStepDone_fault hr hroll hrun hp
  obtain ⟨hturn, honly⟩ := stopRoll_turns (cause := 7) (roll_congr hboot hr) hb (by omega)
  have hflt : (v.stopRoll 7).flt = v.flt := honly .flt (by decide)
  refine ⟨_, hexec, hturn, fun h => ?_, fun h => ?_, fun h => ?_⟩
  · rw [blk_congr (honly .blks (by decide)), hflt]
    exact hblk h
  · rw [rgn_congr (honly .rgns (by decide)), hflt]
    exact hrgn h
  · have hv := hsame (by omega) (by omega)
    rw [← hv]
    exact ⟨hflt, honly .out (by decide)⟩

theorem rollStepDone_backEnds (hb : r.back = true) (hp : r.phase = 2) (hu : r.unit = 0) (hin : r.inPlace = false) (hc : r.cell = 15) (hst : 2 ≤ r.stage)
    (hm : s.muted r.hdr = false) (hf : s.boot.ledgerFull = false) (hroom : s.roomForEvents) : ∃ t,
    exec (.rollStepDone true) s = .next t ∧ t.boot.roll = none ∧ t.boot.seqNew = s.boot.seqNew + 1 ∧ t.boot.selector = s.boot.selector ∧
      t.boot.running = s.boot.running ∧ Recorded s t 0x0C0B s.srcStarters 2 r.reached ((s.now - r.since) / 1000000) r.cause ∧
      Posted s t r.hdr (if 0x10 ≤ r.cause then .sequenceError else .invalidFirmwareImage) r.cause 0 := by
  obtain ⟨heq, -, hv, -⟩ := rollCellDone_home hr hin (by omega) hst
  have hmoved := rollMove_only s (16 * r.unit + r.cell) false
  have hexec : exec (.rollStepDone true) s = .next (s.rollCellDone r) := exec_rollStepDone_pacers hr hroll hrun hp
  rw [heq] at hexec
  generalize s.rollMove (16 * r.unit + r.cell) false = v at hv hmoved hexec
  have hlast : v.rollCellFrom r.unit 17 (r.cell + 1) = none := by
    unfold State.rollCellFrom
    rw [if_pos (by omega)]
  have hnext : rollNext r = none := by
    simp [rollNext, hb, hp, hu]
  have hboot : v.boot = s.boot := hmoved .boot (by decide)
  have hevr : v.evr = s.evr := hmoved .evr (by decide)
  have hnow : v.now = s.now := congrArg Aon.timeNs (hmoved .aon (by decide))
  have hsrc : v.srcStarters = s.srcStarters := srcStarters_congr (hmoved .flt (by decide))
  have hcompl : v.out.completions = s.out.completions := hmoved .completions (by decide)
  obtain ⟨hnone, hseq, hsel, hrun', hrec, hpost⟩ := endRoll_back (s := v) hb
    ((muted_congr _ (hmoved .ctrls (by decide)) (hmoved .sqs (by decide)) (hmoved .fab (by decide))).trans hm) (by rw [hboot, hf])
    (by unfold State.roomForEvents; rw [hevr]; exact hroom)
  rw [rollCell_end hlast, advanceRoll_end hv hnext] at hexec
  rw [hboot] at hseq hsel hrun'
  refine ⟨_, hexec, hnone, hseq, hsel, hrun', ?_, ?_⟩
  · unfold Recorded at hrec ⊢
    rw [← hnow, ← hsrc]
    exact hrec
  · unfold Posted at hpost ⊢
    rw [← hcompl]
    exact hpost

theorem rollStepDone_completes (hb : r.back = false) (hp : r.phase = 6) : exec (.rollStepDone true) s = .next (s.endRoll r) := by
  have hnext : rollNext r = none := by
    simp [rollNext, hb, hp]
  simp only [exec, execRollStepDone, hr, hroll, hrun, hp]
  simp [advanceRoll_end hr hnext]

end

end

/-- Settles O50: every command of a live roll by the lemma of its phase; what a faulted unit leaves is what its own failure's response leaves. -/
theorem liveRollsRunTheirPhases : Obligations.LiveRollsRunTheirPhases := by
  unfold Obligations.LiveRollsRunTheirPhases
  refine ⟨fun h bank y s ht hc hy hroom => imageActivateLive_starts ht hc hy hroom, fun h bank s ht hc => imageActivateLive_fails ht hc,
    fun ok s hr => rollStep_none hr ok, fun r s hr h => exec_rollStepStart_idle hr h, fun r ok s hr h => rollStepDone_idle hr ok h,
    fun r x y c s hr hroll hrun hready hb hp hx hy hc hroom => rollStepStart_clashes hr hroll hrun hready hb hp hx hy hc hroom,
    ?_, ?_, ?_, ?_, fun r s hr hroll hrun hb hp hm hf hroom => rollStepDone_firstFails hr hroll hrun hb hp hm hf hroom, ?_, ?_, ?_, ?_, ?_, ?_, ?_, ?_, ?_, ?_,
    fun r s hr hroll hrun hb hp hu hin hc hst hm hf hroom => rollStepDone_backEnds hr hroll hrun hb hp hu hin hc hst hm hf hroom, ?_⟩
  case refine_1 =>
    intro r x y s hr hroll hrun hready hx hy hc
    exact ⟨_, exec_rollStepStart hr hroll hrun hready hx hy hc, fun hp hm => beginStep_marshal hr hp hm, fun hp hm => beginStep_steward hr hp hm,
      fun hp => beginStep_late hr hp, fun p u hn h => beginStep_passes hr hn h⟩
  case refine_2 =>
    intro r x y s hr hroll hrun hready hx hy hc hp hcell ht
    refine ⟨_, exec_rollStepStart hr hroll hrun hready hx hy hc, ?_⟩
    rw [beginStep_spare hp hcell ht]
    exact ⟨onRoll_roll (stepBegun_roll hr) _, rfl, rfl⟩
  case refine_3 =>
    intro r x y s hr hroll hrun hready hx hy hc hp hroom
    exact ⟨_, exec_rollStepStart hr hroll hrun hready hx hy hc, (beginStep_places (k := 0) hr hp hroom).1, fun k => (beginStep_places hr hp hroom).2⟩
  case refine_4 =>
    intro r s hr hroll hrun hb hp
    have hn : rollNext r = some (2, 0) := by simp [rollNext, hb, hp]
    obtain ⟨hnext, honly⟩ := advanceRoll_next hr hn
    refine ⟨_, exec_rollStepDone_first hr hroll hrun hp, ?_, honly .out (by decide)⟩
    rw [if_pos rfl, hnext]
    simp [State.rollAt, hb]
  case refine_5 =>
    intro r s hr hroll hrun hp hin
    refine ⟨_, exec_rollStepDone_pacers hr hroll hrun hp, fun k hc ht hk => rollCellDone_spare hr hin hc ht hk,
      fun hc hst => rollCellDone_toSpare hr hin hc hst, fun hc hst => rollCellDone_loaded hr hin hc hst,
      fun k hc hst hh h16 hk => rollCellDone_nextMove hr hin hc hst hh h16 hk, fun p u hc hst hk hn => ?_⟩
    obtain ⟨hspare, hnext⟩ := rollCellDone_lastMove hr hin hc hst hk hn
    exact ⟨hspare, _, hnext, rfl, rfl, rollAt_waits (rollNext_block hp hn), rfl⟩
  case refine_6 =>
    intro r s hr hroll hrun hp hin hc hroom
    refine ⟨_, exec_rollStepDone_pacers hr hroll hrun hp, fun k hk => rollCellDone_inPlace hr hin hc hk hroom, fun p u hk hn => ?_⟩
    obtain ⟨hlane, hnext⟩ := rollCellDone_lastInPlace hr hin hc hk hn
    exact ⟨hlane, _, hnext, rfl, rfl, rollAt_waits (rollNext_block hp hn), rfl⟩
  case refine_7 =>
    intro r s hr hroll hrun hb hp hc hcell
    match hin : r.inPlace with
    | true =>
      obtain ⟨q, hq, hback, hcause, hstop, hunit, hfailed, hsrc⟩ := rollCellFails_turns hr hb hp hc hcell hin
      exact ⟨_, q, exec_rollStepDone_pacers hr hroll hrun hp, hq, hfailed, hsrc, fun _ => ⟨hback, hcause, hstop, hunit⟩, fun h => by simp at h⟩
    | false =>
      obtain ⟨q, hq, hback, hfailed, hsrc, hnext⟩ := rollCellFails_goes hr hb hp hc hcell hin
      exact ⟨_, q, exec_rollStepDone_pacers hr hroll hrun hp, hq, hfailed, hsrc, fun h => by simp at h, fun _ => ⟨hback, hnext⟩⟩
  case refine_8 =>
    intro r s hr hroll hrun hb hp hu
    have hn : rollNext r = some (3, r.unit + 1) := by simp [rollNext, hb, hp, hu]
    obtain ⟨t, hexec, hnext, hblk, -⟩ := rollStepDone_moves hr hroll hrun (.inl hp) hn
    exact ⟨t, _, hexec, hnext, rfl, rfl, by simp [State.rollAt], hblk hp⟩
  case refine_9 =>
    intro r s hr hroll hrun hb hp hu
    have hn : rollNext r = some (4, r.unit + 1) := by simp [rollNext, hb, hp, hu]
    obtain ⟨t, hexec, hnext, -, hrgn⟩ := rollStepDone_moves hr hroll hrun (.inr (.inl hp)) hn
    refine ⟨t, _, hexec, hnext, rfl, rfl, ?_⟩
    rw [hrgn hp, hasBit_setBit]
    simp
    omega
  case refine_10 =>
    intro r p u ok s hr hroll hrun hp hok hn
    match ok with
    | true =>
      obtain ⟨t, hexec, hnext, hblk, hrgn⟩ := rollStepDone_moves hr hroll hrun
        (hp.imp_right (Or.imp_right (Or.imp (fun h => ⟨h.1, h.2.resolve_right (by decide)⟩) (·.1)))) hn
      exact ⟨t, _, hexec, hnext, rfl, rfl, rfl, rfl, rfl, rfl, fun _ => rfl, fun h _ => hblk h, fun h _ => hrgn h⟩
    | false =>
      obtain ⟨t, q, hexec, hq, hphase, hunit, hcell, hstage, hback, hcause⟩ := rollStepDone_faultBack hr hroll hrun (hok.resolve_left (by decide))
        (by omega) hn
      exact ⟨t, q, hexec, hq, hphase, hunit, hcell, hstage, hback, hcause, nofun, nofun, nofun⟩
  case refine_11 =>
    intro r s hr hroll hrun hb hp
    obtain ⟨t, hexec, hturn, hblk, hrgn, -⟩ := rollStepDone_faultTurns hr hroll hrun hb hp
    exact ⟨t, _, hexec, hturn, rfl, rfl, rfl, rfl, rfl, rfl, hblk, hrgn⟩
  case refine_12 =>
    intro r s hr hroll hrun hp hst
    refine ⟨s.onRoll fun r => { r with stage := 1, stepAt := s.now }, (exec_rollStepDone_starters hr hroll hrun hp).trans ?_, rfl, rfl, onRoll_roll hr _⟩
    rw [if_pos rfl, if_pos hst]
  case refine_13 =>
    intro r s hr hroll hrun hp hst
    refine ⟨(s.onFlt fun f => { f with activePair := 1 - f.activePair }).onRoll fun r => { r with stage := 2, stepAt := s.now }, _,
      (exec_rollStepDone_starters hr hroll hrun hp).trans ?_, rfl, onRoll_roll (s := s.onFlt _) hr _, rfl, rfl⟩
    rw [if_pos rfl, if_neg (by omega), if_pos hst]
  case refine_14 =>
    intro r s hr hroll hrun hb hp
    obtain ⟨t, hexec, hturn, -, -, hkept⟩ := rollStepDone_faultTurns hr hroll hrun hb (by omega)
    obtain ⟨hflt, hout⟩ := hkept hp
    exact ⟨t, _, hexec, hturn, rfl, rfl, rfl, hflt, hout⟩
  case refine_15 =>
    intro r s hr hroll hrun hb hp hm hf hroom
    exact ⟨_, rollStepDone_completes hr hroll hrun hb hp, endRoll_complete hb hm hf hroom⟩

end Sys2Proof.Machine
end

section
/-! Fixed-function units that fail, and the starter pairs (R36, R162, R179, R261, R268, R523, R527): what each puts out of service at once, and what
its response can touch after that. -/

namespace Sys2Proof.Machine

/-- What can change of the work in hand. -/
def workParts : List Part := [.work, .ctxs, .nextCtx, .ops, .decodes, .ciphers, .parities, .rebuilds, .rows, .erasures, .selectAll]

/-- What the response to a fixed-function unit that fails can touch once the unit is out. -/
def unitParts : List Part := lossParts ++ workParts ++ [.blkBase, .tenantBase]

section
variable (s : State)

theorem raiseDie_only (code n d a b c : Nat) : Only [.evr, .aon] s (s.raiseDie code n d a b c) := raise_only _ _ _ _ _ _ _

theorem raiseEngine_only (code e a b c : Nat) : Only [.evr, .aon] s (s.raiseEngine code e a b c) := raise_only _ _ _ _ _ _ _

theorem raiseShort_only (unit left kind : Nat) : Only [.evr, .aon] s (s.raiseShort unit left kind) := raise_only _ _ _ _ _ _ _

theorem startRelocation_only (zk pos cause : Nat) : Only [.dies, .store, .zones, .evr, .aon] s (s.startRelocation zk pos cause) := by
  unfold State.startRelocation
  dsimp only
  split
  · exact .refl
  · refine .ites (.ites .refl ((setDie_only _ _ _).mono (by decide))) ?_
    exact ((takeBlock_only _ _).andThen ((setDie_only _ _ _).andThen ((commitZone_only _ _ _).andThen (raiseMember_only _ _ _ _ _ _ _)))).mono (by decide)

theorem ladderFailed_only (k : Nat) (e : QEntry) (off cause : Nat) : Only unitParts s (s.ladderFailed k e off cause) := by
  unfold State.ladderFailed
  have hraise := raiseDie_only s 0x0403 (k / 8) (k % 8) e.cls.code cause e.page
  generalize s.raiseDie 0x0403 (k / 8) (k % 8) e.cls.code cause e.page = u at hraise ⊢
  have haround : Only unitParts u (if e.ctx ≠ 0 then u.aroundEntry { e with off := off, frames := 1 } .reactive
      else if u.rebuildPending 0 e.zk off then u else u.startRebuild 0 .distance 0 e.zk off e.pos .direct) :=
    .ites ((aroundEntry_only _ _ _).mono (by decide)) (.ites .refl ((startRebuild_only _ _ _ _ _ _ _ _).mono (by decide)))
  exact (hraise.mono (by decide)).trans (haround.trans
    (((raiseMember_only _ _ _ _ _ _ _).andThen (startRelocation_only _ _ _ _)).mono (by decide)))

theorem softEnds_only (k : Nat) (e : QEntry) (cause : Nat) : Only unitParts s (s.softEnds k e cause) :=
  (((returnBaton_only _ _).andThen (setDie_only _ _ _)).mono (by decide)).trans (ladderFailed_only _ _ _ _ _)

theorem endSoftDecodes_only (b : Nat) : Only unitParts s (s.endSoftDecodes b) :=
  .each fun _ _ => ((setDecode_only _ _ _).mono (by decide)).trans (softEnds_only _ _ _ _)

theorem grantDecoders_only (n b : Nat) : Only [.work, .decodes, .blks, .blkBase] s (State.grantDecoders n s b) := by
  induction n generalizing s with
  | zero => exact .refl
  | succ n ih =>
    unfold State.grantDecoders
    split
    · split
      · exact .refl
      · exact (((setDecode_only _ _ _).andThen (setBlk_core_only _ _ _ (by rfl))).mono (by decide)).trans (ih _)
    · exact .refl

theorem moveCipherJobs_only (b : Nat) : Only (.blks :: workParts) s (s.moveCipherJobs b) := by
  unfold State.moveCipherJobs
  have hidle : Only [.blks] s (s.updBlk b fun k => { k with cipRun := none, cipSusp := [] }) := setBlk_base_only _ _ _ (by rfl)
  dsimp only
  split
  · exact hidle.mono (by decide)
  · exact (hidle.andThen ((onWork_only _ _).andThen (scheduleCipher_only _ _))).mono (by decide)

theorem closeParcel_only (zk : Nat) : Only unitParts s (s.closeParcel zk) := by
  unfold State.closeParcel
  dsimp only
  split
  · exact .refl
  · exact ((openCtx_only _ _).andThen ((setZone_only _ _ _).andThen ((setTenant_only _ _ _).andThen (cipherWrite_only _ _)))).mono (by decide)

end

end Sys2Proof.Machine
end

section
/-! Room in the arrival queue for a fault record while the reads of a lane go around it (R237, R535). The events that going around raises are no fault
records, but for 0x0D04, which comes at most once in a millisecond; so of the 32 entries kept for fault records one is taken at most. -/

namespace Sys2Proof.Machine

/-- No fault record has entered the arrival queue, or the one of a missed bound has, and not another until a millisecond is over. -/
def State.FaultRoom (s : State) : Prop :=
  s.evr.queue.length ≤ 224 ∨ s.evr.queue.length ≤ 225 ∧ ∃ t, s.tmk.breachAt = some t ∧ s.now < t + 1000000

namespace State.FaultRoom

variable {F : List Part} {s t : State}

theorem of_room (h : s.roomForEvents) : s.FaultRoom := .inl (Nat.le_of_lt h)

theorem of_eq (h : s.FaultRoom) (hevr : t.evr = s.evr) (hb : t.tmk.breachAt = s.tmk.breachAt) (hnow : t.now = s.now) : t.FaultRoom := by
  unfold State.FaultRoom
  rw [hevr, hb, hnow]
  exact h

theorem keeps (h : s.FaultRoom) (hF : Only F s t) (hevr : Part.evr ∉ F) (htmk : Part.tmk ∉ F) (haon : Part.aon ∉ F) : t.FaultRoom :=
  h.of_eq (hF .evr hevr) (congrArg Timekeeper.breachAt (hF .tmk htmk)) (congrArg Aon.timeNs (hF .aon haon))

theorem each {α : Type} {l : List α} {f : α → State → State} (step : ∀ x u, State.FaultRoom u → (f x u).FaultRoom) (h : s.FaultRoom) :
    (s.each l f).FaultRoom :=
  State.each_keeps State.FaultRoom l f (fun x u hu => step x u hu) s h

end State.FaultRoom

theorem length_enqueueArrival (q : List (Nat × EvRec)) (t : Nat) (e : EvRec) : (enqueueArrival q t e).length = q.length + 1 := by
  induction q with
  | nil => rfl
  | cons p q ih =>
    unfold enqueueArrival
    split
    · rfl
    · exact congrArg (· + 1) ih

/-- An event adds one record at most, and below its limit only. -/
theorem length_raise (s : State) (code src a b c d : Nat) : (s.raise code src a b c d).evr.queue.length = s.evr.queue.length ∨
    s.evr.queue.length < (if isFaultCode code then 256 else 224) ∧ (s.raise code src a b c d).evr.queue.length = s.evr.queue.length + 1 := by
  unfold State.raise
  dsimp only
  generalize (if isFaultCode code then 256 else 224) = room
  split
  · exact .inl rfl
  split
  · exact .inr ⟨‹_›, length_enqueueArrival _ _ _⟩
  split
  · exact .inl rfl
  · exact .inl rfl

section
variable {s : State}

theorem raise_faultRoom (h : s.FaultRoom) {code : Nat} (hcode : isFaultCode code = false) (src a b c d : Nat) :
    (s.raise code src a b c d).FaultRoom := by
  have hlen := length_raise s code src a b c d
  have htmk : (s.raise code src a b c d).tmk = s.tmk := raise_only s code src a b c d .tmk (by decide)
  unfold State.FaultRoom at h ⊢
  rw [hcode] at hlen
  rw [htmk, State.raise_now]
  rcases hlen with hsame | ⟨hlt, hone⟩
  · rw [hsame]
    exact h
  · exact .inl (by simp only [Bool.false_eq_true, if_false] at hlt; omega)

/-- Event 0x0D04 of a missed bound: no other came in the last millisecond. -/
theorem raise_breach_faultRoom (h : s.FaultRoom) (hdue : ∀ t, s.tmk.breachAt = some t → t + 1000000 ≤ s.now) (src a b c d : Nat) :
    ((s.onTmk fun k => { k with breachAt := some s.now }).raise 0x0D04 src a b c d).FaultRoom := by
  have hle : s.evr.queue.length ≤ 224 := by
    rcases h with h | ⟨-, t, ht, hnow⟩
    · exact h
    · exact absurd hnow (Nat.not_lt.mpr (hdue t ht))
  have hmarked : (s.onTmk fun k => { k with breachAt := some s.now }).tmk.breachAt = some s.now := rfl
  have hnow : (s.onTmk fun k => { k with breachAt := some s.now }).now = s.now := rfl
  have hq : (s.onTmk fun k => { k with breachAt := some s.now }).evr.queue.length = s.evr.queue.length := rfl
  generalize (s.onTmk fun k => { k with breachAt := some s.now }) = u at hmarked hnow hq ⊢
  have htmk : (u.raise 0x0D04 src a b c d).tmk = u.tmk := raise_only u 0x0D04 src a b c d .tmk (by decide)
  refine .inr ⟨?_, s.now, by rw [htmk, hmarked], by rw [State.raise_now, hnow]; omega⟩
  rcases length_raise u 0x0D04 src a b c d with hsame | ⟨-, hone⟩ <;> omega

theorem logPages_faultRoom (n t : Nat) (cq : Bool) (h : s.FaultRoom) : (State.logPages n s t cq).FaultRoom := by
  induction n generalizing s with
  | zero => exact h
  | succ n ih =>
    unfold State.logPages
    dsimp only
    split
    · exact h
    split
    · exact raise_faultRoom (h.keeps (setTenant_only _ _ _) (by decide) (by decide) (by decide)) (by decide) _ _ _ _ _
    · exact ih (h.keeps ((draw_only s).andThen (setTenant_only _ _ _)) (by decide) (by decide) (by decide))

theorem logWrites_faultRoom (c n : Nat) (h : s.FaultRoom) : (s.logWrites c n).FaultRoom := by
  unfold State.logWrites
  split
  · exact logPages_faultRoom _ _ _ (logPages_faultRoom _ _ _ h)
  · exact h

theorem completeWith_faultRoom (g : Hdr) (st : Status) (a b : Nat) (d : List FieldVal) (h : s.FaultRoom) : (s.completeWith g st a b d).FaultRoom := by
  unfold State.completeWith
  dsimp only
  split
  · exact h
  have hpost := h.keeps (postCompletion_only s g st a b d) (by decide) (by decide) (by decide)
  split
  · exact hpost
  · exact (logWrites_faultRoom _ _ hpost).keeps (respond_only _ _ _) (by decide) (by decide) (by decide)

theorem breach_faultRoom (x : Ctx) (late : Nat) (h : s.FaultRoom) : (s.breach x late).FaultRoom := by
  have hset (u : State) (n : Nat) (f : Tenant → Tenant) (hu : u.FaultRoom) : (u.updTenant n f).FaultRoom :=
    hu.keeps (setTenant_only _ _ _) (by decide) (by decide) (by decide)
  have htmk (u : State) (f : Timekeeper → Timekeeper) (hf : (f u.tmk).breachAt = u.tmk.breachAt) (hu : u.FaultRoom) : (u.onTmk f).FaultRoom :=
    hu.of_eq rfl hf rfl
  unfold State.breach
  dsimp only
  split
  · split
    · exact hset _ _ _ (htmk _ _ (by rfl) (hset _ _ _ h))
    · exact raise_faultRoom (htmk _ _ (by rfl) (hset _ _ _ (htmk _ _ (by rfl) (hset _ _ _ h)))) (by decide) _ _ _ _ _
  · have hcounted := hset ((s.updTenant x.tenant fun t => { t with worstLate := max t.worstLate late }).onTmk fun k =>
        { k with unexcused := Tbl.put 0 k.unexcused x.cls.code (satAdd 16 (Tbl.look 0 k.unexcused x.cls.code) 1) }) x.tenant
      (fun t => { t with unexcused := satAdd 32 t.unexcused 1 }) (htmk _ _ (by rfl) (hset _ _ _ h))
    split
    case h_1 hnone =>
      rw [if_pos rfl]
      exact raise_breach_faultRoom hcounted (fun t ht => nomatch hnone.symm.trans ht) _ _ _ _ _
    case h_2 t hsome =>
      split
      case isTrue hdue =>
        refine raise_breach_faultRoom hcounted (fun t' ht => ?_) _ _ _ _ _
        cases hsome.symm.trans ht
        exact of_decide_eq_true hdue
      case isFalse => exact hcounted

theorem measure_faultRoom (x : Ctx) (h : s.FaultRoom) : (s.measure x).FaultRoom := by
  unfold State.measure
  split
  · exact h
  split
  · exact breach_faultRoom _ _ h
  · exact h

theorem finish_faultRoom (c : Nat) (st : Status) (h : s.FaultRoom) : (s.finish c st).FaultRoom := by
  unfold State.finish State.finishWith
  split
  · exact h
  · have hgone := h.keeps (((setCtx_only s c none).andThen (withdrawReads_only _ c)).andThen (freeBufsOf_only _ c)) (by decide) (by decide) (by decide)
    dsimp only
    split
    · exact hgone
    · exact completeWith_faultRoom _ _ _ _ _ (measure_faultRoom _ hgone)

theorem giveUpFrame_faultRoom (c zk off : Nat) (h : s.FaultRoom) : (s.giveUpFrame c zk off).FaultRoom := by
  unfold State.giveUpFrame
  split
  · exact h
  · exact finish_faultRoom _ _ h

theorem chargeReactive_faultRoom (t : Nat) (h : s.FaultRoom) : (s.chargeReactive t).FaultRoom := by
  have hset (u : State) (v : Tenant) (hu : u.FaultRoom) : (u.setTenant t v).FaultRoom :=
    hu.keeps (setTenant_only _ _ _) (by decide) (by decide) (by decide)
  have haccrued := h.keeps (accrueRa_only s t) (by decide) (by decide) (by decide)
  unfold State.chargeReactive
  dsimp only
  split
  · exact hset _ _ haccrued
  split
  · exact raise_faultRoom (hset _ _ haccrued) (by decide) _ _ _ _ _
  · exact hset _ _ haccrued

theorem chargeRebuild_faultRoom (t : Nat) (v : Service) (h : s.FaultRoom) : (s.chargeRebuild t v).FaultRoom := by
  unfold State.chargeRebuild
  split
  · exact h.of_eq rfl rfl rfl
  · exact chargeReactive_faultRoom _ h
  all_goals exact h

theorem enqueueSource_faultRoom (n : Nat) (r : Rebuild) (pos : Nat) (h : s.FaultRoom) : (s.enqueueSource n r pos).FaultRoom :=
  h.keeps (enqueueSource_only _ _ _ _) (by decide) (by decide) (by decide)

theorem sourceFailed_faultRoom (n pos : Nat) (h : s.FaultRoom) : (s.sourceFailed n pos).FaultRoom := by
  have hset (v : Option Rebuild) : (s.setRebuild n v).FaultRoom := h.keeps (setRebuild_only _ _ _) (by decide) (by decide) (by decide)
  unfold State.sourceFailed
  dsimp only
  split
  · exact h
  split
  · exact giveUpFrame_faultRoom _ _ _ (raise_faultRoom (hset _) (by decide) _ _ _ _ _)
  · exact enqueueSource_faultRoom _ _ _ (hset _)

theorem offerSource_faultRoom (n pos : Nat) (h : s.FaultRoom) : (s.offerSource n pos).FaultRoom := by
  unfold State.offerSource
  split
  · exact h
  split
  · exact sourceFailed_faultRoom _ _ h
  · exact enqueueSource_faultRoom _ _ _ h

theorem startRebuild_faultRoom (c : Nat) (cls : Cls) (t zk off pos : Nat) (v : Service) (h : s.FaultRoom) :
    (s.startRebuild c cls t zk off pos v).FaultRoom := by
  unfold State.startRebuild
  dsimp only
  split
  · exact raise_faultRoom h (by decide) _ _ _ _ _
  · refine .each (fun p u hu => offerSource_faultRoom _ _ hu) ?_
    exact (chargeRebuild_faultRoom t v h).keeps ((onWork_only _ _).andThen (setRebuild_only _ _ _)) (by decide) (by decide) (by decide)

theorem aroundEntry_faultRoom (e : QEntry) (v : Service) (h : s.FaultRoom) : (s.aroundEntry e v).FaultRoom := by
  unfold State.aroundEntry
  split
  · exact sourceFailed_faultRoom _ _ h
  · exact h
  · refine .each (fun o u hu => ?_) h
    split
    · exact hu
    · exact giveUpFrame_faultRoom _ _ _ (startRebuild_faultRoom _ _ _ _ _ _ _ hu)

theorem aroundLane_faultRoom (n : Nat) (v : Service) (h : s.FaultRoom) : (s.aroundLane n v).FaultRoom :=
  .each (fun _ _ hu => aroundEntry_faultRoom _ _ hu) h

theorem noteFailure_faultRoom (source : Nat) (cs : List Nat) (h : s.FaultRoom) : (s.noteFailure source cs).FaultRoom :=
  (h.keeps (Only.each (F := [.work, .ctxs]) fun _ _ => updCtx_only _ _ _) (by decide) (by decide) (by decide)).of_eq rfl rfl rfl

theorem aroundBlock_faultRoom (b : Nat) (h : s.FaultRoom) : (s.aroundBlock b).FaultRoom :=
  .each (fun _ _ hu => aroundLane_faultRoom _ _ hu) (noteFailure_faultRoom _ _ h)

/-- A fault record finds its entry. -/
theorem recorded_fault {u : State} (h : u.FaultRoom) (hnow : u.now = s.now) {code : Nat} (hcode : isFaultCode code = true)
    (hclass : code / 256 ≠ 9 ∧ code / 256 ≠ 10) (src a b c d : Nat) : Recorded s (u.raise code src a b c d) code src a b c d := by
  have hlt : u.evr.queue.length < 256 := by
    rcases h with h | ⟨h, -⟩ <;> omega
  have hraise : (u.raise code src a b c d).evr.queue = enqueueArrival u.evr.queue u.now (evRec code src a b c d) := by
    unfold State.raise
    dsimp only
    rw [if_neg (by rintro (⟨hc, -⟩ | ⟨hc, -⟩); exacts [hclass.1 hc, hclass.2 hc]), if_pos (by rw [hcode]; exact hlt)]
    rfl
  unfold Recorded
  rw [hraise, ← hnow]
  exact mem_enqueueArrival _ _ _

end

end Sys2Proof.Machine
end

section
/-! Fixed-function units that fail: out of service, with their events (R162, R179, R261, R268, R523). -/

namespace Sys2Proof.Machine

theorem decIn_of_core {x y : Blk} (h : x.core = y.core) : x.decIn = y.decIn :=
  have hf := congrArg Blk.decIn h
  hf

theorem other_of_base {x y : Faults} (h : x.base = y.base) : x.other = y.other :=
  have hf := congrArg Faults.other h
  hf

section
variable {s t u : State}

/-- A raise on a state whose arrival queue and clock are still those of `s`. -/
theorem recorded_raise_of {F : List Part} (hroom : s.roomForEvents) (hu : Only F s u) (hevr : Part.evr ∉ F) (haon : Part.aon ∉ F) {code : Nat}
    (hcode : code / 256 ≠ 9 ∧ code / 256 ≠ 10) (src a b c d : Nat) : Recorded s (u.raise code src a b c d) code src a b c d := by
  have hq : u.evr = s.evr := hu .evr hevr
  exact recorded_raise (by rw [hq]; exact hroom) (congrArg Aon.timeNs (hu .aon haon)) hcode _ _ _ _ _

/-! Decoders. -/

/-- A decoder out of service, its event not yet raised (R162). -/
def State.decoderOut (s : State) (b i : Nat) : State := (s.updBlk b fun y => { y with decIn := clearBit y.decIn i }).otherFailed (srcDecoder b)

theorem decoderOut_decIn (s : State) (b i : Nat) : ((s.decoderOut b i).blk b).decIn = clearBit (s.blk b).decIn i := by
  have hblk : (s.decoderOut b i).blk b = (s.updBlk b fun y => { y with decIn := clearBit y.decIn i }).blk b := rfl
  rw [hblk, State.updBlk_eq, State.blk_setBlk, if_pos rfl]

theorem decoderOut_only (s : State) (b i : Nat) : Only [.blks, .blkBase, .blkCore, .flt, .fltBase] s (s.decoderOut b i) :=
  ((setBlk_only _ _ _).andThen ((onFlt_only _ _).andThen (onFlt_only _ _))).mono (by decide)

theorem decoderFails_from {b i : Nat} (h : hasBit (s.blk b).decIn i = true) : ∃ n,
    Only unitParts ((s.decoderOut b i).raise 0x0411 (srcMarshal b) 0 i n 0) (s.decoderFails b i) := by
  have hshort (v : State) (left : Nat) : Only unitParts v (if left = 2 then v.raiseShort (srcBlockCollector b) left 1 else v) :=
    .ite ((raiseShort_only _ _ _ _).mono (by decide))
  have hlast (v : State) (left : Nat) : Only unitParts v (State.grantDecoders 4 (if left ≤ 1 then v.endSoftDecodes b else v) b) :=
    (Only.ite (endSoftDecodes_only _ _)).trans ((grantDecoders_only _ _ _).mono (by decide))
  refine ⟨countBits ((s.decoderOut b i).blk b).decIn 4, ?_⟩
  unfold State.decoderFails
  rw [if_neg (by simp [h])]
  exact (hshort _ _).trans (((onWork_only _ _).mono (by decide)).trans (hlast _ _))

theorem decoderFails_out {b i : Nat} (h : hasBit (s.blk b).decIn i = true) (hroom : s.roomForEvents) :
    hasBit ((s.decoderFails b i).blk b).decIn i = false ∧ ∃ n, Recorded s (s.decoderFails b i) 0x0411 (srcMarshal b) 0 i n 0 := by
  obtain ⟨n, hfrom⟩ := decoderFails_from h
  have hrec := recorded_raise_of hroom (decoderOut_only s b i) (by decide) (by decide) (code := 0x0411) (by decide) (srcMarshal b) 0 i n 0
  refine ⟨?_, n, hfrom .records (by decide) _ hrec⟩
  rw [decIn_of_core (hfrom .blkCore (by decide) b), blk_congr (raise_only _ _ _ _ _ _ _ .blks (by decide)), decoderOut_decIn, hasBit_clearBit]
  simp

/-! Cipher engines. -/

/-- A cipher engine out of service, its event not yet raised (R268). -/
def State.cipherOut (s : State) (b : Nat) : State := (s.onCph fun c => { c with engines := clearBit c.engines b }).otherFailed (srcCipher b)

theorem cipherOut_only (s : State) (b : Nat) : Only [.cph, .flt, .fltBase] s (s.cipherOut b) :=
  ((onCph_only _ _).andThen ((onFlt_only _ _).andThen (onFlt_only _ _))).mono (by decide)

theorem endPartner_engines (s : State) (b : Nat) : (s.endPartner b).cph.engines = s.cph.engines ∧ Only [.cph, .evr, .aon] s (s.endPartner b) := by
  have hraise (v : State) (a c d e f g : Nat) : (v.raise a c d e f g).cph = v.cph := raise_only v a c d e f g .cph (by decide)
  unfold State.endPartner
  split
  · exact ⟨by rw [hraise]; rfl, ((onCph_only _ _).andThen (raise_only _ _ _ _ _ _ _)).mono (by decide)⟩
  · exact ⟨rfl, .refl⟩

/-- The partner engine takes the block of an engine that has failed, if it is in service (R268). -/
def State.partnerServes (s : State) (b : Nat) : State :=
  if s.cph.engines.getLsbD (partnerBlock b) then
    ((s.onCph fun c => { c with partner := setBit c.partner b }).updBlk b fun y => { y with cipPartnerAt := s.now }).raise
      0x0805 (srcCipher b) 0 (partnerBlock b) 0 0
  else s

theorem partnerServes_cph (s : State) (b : Nat) : (s.partnerServes b).cph =
    if s.cph.engines.getLsbD (partnerBlock b) then { s.cph with partner := setBit s.cph.partner b } else s.cph := by
  unfold State.partnerServes
  split
  · exact raise_only _ _ _ _ _ _ _ .cph (by decide)
  · rfl

theorem partnerServes_only (s : State) (b : Nat) : Only [.cph, .blks, .blkBase, .blkCore, .evr, .aon] s (s.partnerServes b) := by
  unfold State.partnerServes
  exact .ite (((onCph_only _ _).andThen ((setBlk_only _ _ _).andThen (raise_only _ _ _ _ _ _ _))).mono (by decide))

theorem cipherFails_from {b cause : Nat} (h : s.cph.engines.getLsbD b = true) :
    Only (.blks :: .evr :: .aon :: workParts)
      ((((s.cipherOut b).raise 0x0804 (srcCipher b) 0 cause 0 0).endPartner (partnerBlock b)).partnerServes b) (s.cipherFails b cause) := by
  have hshort (v : State) : Only (.blks :: .evr :: .aon :: workParts) v
      (if v.cipherShort b then (v.raiseShort (srcBlockCollector b) 0 3).raiseShort (srcBlockCollector (partnerBlock b)) 0 3 else v) :=
    .ite (((raiseShort_only _ _ _ _).trans (raiseShort_only _ _ _ _)).mono (by decide))
  unfold State.cipherFails
  rw [if_neg (by simp [h])]
  exact (hshort _).trans ((moveCipherJobs_only _ _).mono (by decide))

theorem partnerBlock_ne (b : Nat) : b ≠ partnerBlock b := by
  intro h
  have hx := congrArg (fun n => b ^^^ n) h
  simp [partnerBlock] at hx

theorem cipherFails_cph {b cause : Nat} (h : s.cph.engines.getLsbD b = true) : (s.cipherFails b cause).cph.engines.getLsbD b = false ∧
    (s.cph.engines.getLsbD (partnerBlock b) = true → (s.cipherFails b cause).cph.partner.getLsbD b = true) := by
  have hfrom := cipherFails_from (cause := cause) h
  have hb : b < 32 := by
    by_contra hb
    simp [BitVec.getLsbD_of_ge _ b (Nat.not_lt.mp hb)] at h
  have hengines : ((s.cipherOut b).raise 0x0804 (srcCipher b) 0 cause 0 0).cph.engines = clearBit s.cph.engines b :=
    congrArg Cipher.engines (raise_only (s.cipherOut b) 0x0804 (srcCipher b) 0 cause 0 0 .cph (by decide))
  generalize (s.cipherOut b).raise 0x0804 (srcCipher b) 0 cause 0 0 = u at hengines hfrom
  obtain ⟨hend, -⟩ := endPartner_engines u (partnerBlock b)
  have hcph := Eq.trans (hfrom .cph (by decide)) (partnerServes_cph (u.endPartner (partnerBlock b)) b)
  rw [hend, hengines] at hcph
  refine ⟨?_, fun hp => ?_⟩
  · have heng : (s.cipherFails b cause).cph.engines = clearBit s.cph.engines b := by
      rw [hcph]
      split
      · exact hend.trans hengines
      · exact hend.trans hengines
    rw [heng]
    exact (hasBit_clearBit s.cph.engines b b).trans (by simp)
  · have hup : (clearBit s.cph.engines b).getLsbD (partnerBlock b) = true :=
      (hasBit_clearBit s.cph.engines b (partnerBlock b)).trans (by simp [hasBit, hp, partnerBlock_ne])
    rw [hcph, if_pos hup]
    exact (hasBit_setBit _ b b).trans (by simp [hb])

theorem cipherFails_recorded {b cause : Nat} (h : s.cph.engines.getLsbD b = true) (hroom : s.roomForEvents) :
    Recorded s (s.cipherFails b cause) 0x0804 (srcCipher b) 0 cause 0 0 := by
  have hrec := recorded_raise_of hroom (cipherOut_only s b) (by decide) (by decide) (code := 0x0804) (by decide) (srcCipher b) 0 cause 0 0
  have hall := (endPartner_engines ((s.cipherOut b).raise 0x0804 (srcCipher b) 0 cause 0 0) (partnerBlock b)).2.andThen
    ((partnerServes_only _ b).andThen (cipherFails_from h))
  exact hall .records (by decide) _ hrec

/-! Stripe parity engines. -/

/-- A parity engine out of service, its event not yet raised (R179). -/
def State.parityOut (s : State) (i : Nat) : State := (s.onCph fun c => { c with parityIn := clearBit c.parityIn i }).otherFailed (srcParity i)

theorem parityOut_only (s : State) (i : Nat) : Only [.cph, .flt, .fltBase] s (s.parityOut i) :=
  ((onCph_only _ _).andThen ((onFlt_only _ _).andThen (onFlt_only _ _))).mono (by decide)

theorem parityFails_from {i : Nat} (h : hasBit s.cph.parityIn i = true) :
    Only stopParts ((s.parityOut i).raise 0x0495 (srcParity i) i (countBits (clearBit s.cph.parityIn i) 8) 0 0) (s.parityFails i) := by
  have hshort (v : State) (left : Nat) : Only stopParts v (if left = 2 then v.raiseShort srcChipCollector left 2 else v) :=
    .ite ((raiseShort_only _ _ _ _).mono (by decide))
  unfold State.parityFails
  rw [if_neg (by simp [h])]
  exact (hshort _ _).trans ((((onWork_tables_only _ _ (by rfl)).andThen (grantParity_only _ _)).mono (by decide)).trans (checkService_only _))

theorem parityFails_parityIn {i : Nat} (h : hasBit s.cph.parityIn i = true) : hasBit (s.parityFails i).cph.parityIn i = false ∧
    (s.parityFails i).flt.other = satAdd 8 s.flt.other 1 := by
  have hfrom := parityFails_from h
  have hcph : ((s.parityOut i).raise 0x0495 (srcParity i) i (countBits (clearBit s.cph.parityIn i) 8) 0 0).cph.parityIn = clearBit s.cph.parityIn i :=
    congrArg Cipher.parityIn (raise_only (s.parityOut i) _ _ _ _ _ _ .cph (by decide))
  have hother : ((s.parityOut i).raise 0x0495 (srcParity i) i (countBits (clearBit s.cph.parityIn i) 8) 0 0).flt.other = satAdd 8 s.flt.other 1 :=
    congrArg Faults.other (raise_only (s.parityOut i) _ _ _ _ _ _ .flt (by decide))
  generalize (s.parityOut i).raise 0x0495 (srcParity i) i (countBits (clearBit s.cph.parityIn i) 8) 0 0 = u at hfrom hcph hother
  refine ⟨?_, (other_of_base (hfrom .fltBase (by decide))).trans hother⟩
  rw [show (s.parityFails i).cph = u.cph from hfrom .cph (by decide), hcph, hasBit_clearBit]
  simp

theorem parityFails_recorded {i : Nat} (h : hasBit s.cph.parityIn i = true) (hroom : s.roomForEvents) :
    Recorded s (s.parityFails i) 0x0495 (srcParity i) i (countBits (clearBit s.cph.parityIn i) 8) 0 0 :=
  parityFails_from h .records (by decide) _ (recorded_raise_of hroom (parityOut_only s i) (by decide) (by decide) (by decide) _ _ _ _ _)

/-! Compression engines. -/

/-- A compression engine out of service, its event not yet raised (R261). -/
def State.engineFenced (s : State) (e : Nat) : State := s.updRgn (e / 4) fun r => { r with cmpIn := clearBit r.cmpIn (e % 4) }

/-- The partner's units serve a region without an engine (R261). -/
def State.partnerCompresses (s : State) (e : Nat) : State :=
  if (s.rgn (e / 4)).cmpIn = 0 ∧ s.engineRegion (e / 4) = some (partnerRegion (e / 4)) then
    (s.updRgn (e / 4) fun r => { r with cmpPartner := true, cmpPartnerAt := s.now }).raiseEngine 0x0903 e (partnerRegion (e / 4)) 0 0 else s

theorem partnerCompresses_cmpIn (s : State) (e : Nat) : ((s.partnerCompresses e).rgn (e / 4)).cmpIn = (s.rgn (e / 4)).cmpIn ∧
    Only [.rgns, .evr, .aon] s (s.partnerCompresses e) := by
  unfold State.partnerCompresses
  split
  · refine ⟨?_, ((setRgn_only _ _ _).andThen (raiseEngine_only _ _ _ _ _ _)).mono (by decide)⟩
    rw [rgn_congr (raiseEngine_only _ _ _ _ _ _ .rgns (by decide)), State.updRgn_eq, State.rgn_setRgn, if_pos rfl]
  · exact ⟨rfl, .refl⟩

theorem engineOut_from {e cause : Nat} (h : hasBit (s.rgn (e / 4)).cmpIn (e % 4) = true) :
    Only unitParts ((((s.engineFenced e).raiseEngine 0x0902 e (countBits ((s.engineFenced e).rgn (e / 4)).cmpIn 4) cause 0).unitFailed
      (srcCompress (e / 4))).partnerCompresses e) (s.engineOut e cause) := by
  unfold State.engineOut
  rw [if_neg (by simp [h])]
  have hidle (v : State) (l : List Nat) : Only unitParts v (v.each l fun c s => s.updCtx c fun x => { x with engine := none, grans := [] }) :=
    .each fun _ _ => (updCtx_only _ _ _).mono (by decide)
  exact (hidle _ _).trans ((Only.each fun _ _ => closeParcel_only _ _).trans ((assignEngines_only _).mono (by decide)))

theorem compressFails_out {g i : Nat} (hc : s.hasCompression = true) (hi : i < 4) (h : hasBit (s.rgn g).cmpIn i = true) (hroom : s.roomForEvents) :
    hasBit ((s.compressFails g i).rgn g).cmpIn i = false ∧
      Recorded s (s.compressFails g i) 0x0902 (srcCompress g) (subParam i 0) (countBits (clearBit (s.rgn g).cmpIn i) 4) 2 0 := by
  have hdiv : (4 * g + i) / 4 = g := by omega
  have hmod : (4 * g + i) % 4 = i := by omega
  have hfrom := engineOut_from (s := s) (e := 4 * g + i) (cause := 2) (by rw [hdiv, hmod, h])
  have hcmp : ((s.engineFenced (4 * g + i)).rgn g).cmpIn = clearBit (s.rgn g).cmpIn i := by
    unfold State.engineFenced
    rw [hdiv, hmod, State.updRgn_eq, State.rgn_setRgn, if_pos rfl]
  have hkept : Only [.rgns] s (s.engineFenced (4 * g + i)) := setRgn_only _ _ _
  generalize s.engineFenced (4 * g + i) = u at hfrom hcmp hkept
  rw [hdiv, hcmp] at hfrom
  have hrec : Recorded s (u.raiseEngine 0x0902 (4 * g + i) (countBits (clearBit (s.rgn g).cmpIn i) 4) 2 0) 0x0902 (srcCompress g) (subParam i 0)
      (countBits (clearBit (s.rgn g).cmpIn i) 4) 2 0 := by
    have hnow : u.now = s.now := congrArg Aon.timeNs (hkept .aon (by decide))
    have hq : u.evr = s.evr := hkept .evr (by decide)
    unfold State.raiseEngine Recorded
    rw [hdiv, hmod, ← hnow]
    exact State.mem_raise u 0x0902 _ _ _ _ _ (by rw [hq]; exact hroom) (fun _ => (hasCompression_congr (hkept .variant (by decide))).trans hc)
      fun h10 => absurd h10 (by decide)
  have hrgn := rgn_congr (raiseEngine_only u 0x0902 (4 * g + i) (countBits (clearBit (s.rgn g).cmpIn i) 4) 2 0 .rgns (by decide)) g
  generalize u.raiseEngine 0x0902 (4 * g + i) (countBits (clearBit (s.rgn g).cmpIn i) 4) 2 0 = v at hfrom hrec hrgn
  obtain ⟨hin, honly⟩ := partnerCompresses_cmpIn (v.unitFailed (srcCompress g)) (4 * g + i)
  rw [hdiv, rgn_unitFailed, hrgn, hcmp] at hin
  have heq : s.compressFails g i = (s.engineOut (4 * g + i) 2).onFlt fun f => { f with other := satAdd 8 f.other 1 } := by
    unfold State.compressFails
    rw [if_pos h]
  have hlast := hfrom.andThen (onFlt_only (s.engineOut (4 * g + i) 2) fun f => { f with other := satAdd 8 f.other 1 })
  have hall := (onFlt_only v fun f => { f with lastSrc := srcCompress g, degraded := true }).andThen (honly.andThen hlast)
  rw [heq]
  refine ⟨?_, hall .records (by decide) _ hrec⟩
  rw [rgn_congr (hlast .rgns (by decide)), hin, hasBit_clearBit]
  simp

end

end Sys2Proof.Machine
end

section
/-! Cores and starter pairs that fail (R34-R36, R524-R531): the clauses of O58 about them. -/

namespace Sys2Proof.Machine

theorem handoff_of_base {x y : Blk} (h : x.base = y.base) : x.handoff = y.handoff :=
  have hf := congrArg Blk.handoff h
  hf

theorem now_of_base {s t : State} (h : t.aon.base = s.aon.base) : t.now = s.now :=
  have hf := congrArg Aon.timeNs h
  hf

theorem degraded_of_base {x y : Faults} (h : x.base = y.base) : x.degraded = y.degraded :=
  have hf := congrArg Faults.degraded h
  hf

section
variable {s t u : State}

theorem exec_coreHeartbeatMiss (c : CoreId) (hr : s.running = true) (h7 : s.stepComplete 7 = true) (hm : s.power.mode ≠ .calm) :
    exec (.coreHeartbeatMiss c) s = .next (s.coreFails c) := by
  simp [exec, execCoreHeartbeatMiss, hr, h7, hm]

theorem exec_coreHeartbeatMiss_idle (c : CoreId) (h : s.running = false ∨ s.stepComplete 7 = false ∨ s.power.mode = .calm) :
    exec (.coreHeartbeatMiss c) s = .next s := by
  rcases h with h | h | h <;> simp [exec, execCoreHeartbeatMiss, h]

/-- A core that is out of service already fails no more. -/
theorem exec_coreHeartbeatMiss_known {c : CoreId} (h : s.coreFails c = s) : exec (.coreHeartbeatMiss c) s = .next s := by
  simp [exec, execCoreHeartbeatMiss, h]

/-- Under a thermal trip a core's failure is recorded only (R529). -/
theorem coreFails_trip (c : CoreId) (ht : s.aon.trip = true) : ∃ src, s.coreFails c = s.recordedOnly src := by
  unfold State.coreFails
  cases c with
  | pacer n => exact ⟨_, if_pos ht⟩
  | marshal b => exact ⟨_, if_pos ht⟩
  | steward g i => exact ⟨_, if_pos ht⟩

theorem coreFails_pacer (n : Nat) (ht : s.aon.trip = false) : s.coreFails (.pacer n) = s.pacerFails n := by simp [State.coreFails, ht]

theorem coreFails_marshal (b : Nat) (ht : s.aon.trip = false) : s.coreFails (.marshal b) = s.marshalFails b := by simp [State.coreFails, ht]

theorem coreFails_steward (g i : Nat) (ht : s.aon.trip = false) : s.coreFails (.steward g i) = s.stewardFails g i := by simp [State.coreFails, ht]

/-! Pacers. -/

theorem pacerFails_degraded {cell : Nat} (h : hasBit (s.blk (cell / 17)).cellFailed (cell % 17) = false) : (s.pacerFails cell).flt.degraded = true :=
  degraded_of_base (pacerFails_from s h .fltBase (by decide))

theorem cellOut_only (s : State) (cell : Nat) : Only [.blks, .blkBase, .blkCore, .flt, .fltBase] s (s.cellOut cell) :=
  ((setBlk_only _ _ _).andThen (onFlt_only _ _)).mono (by decide)

/-- A failed pacer of a lane, its failure noted by the commands with reads there (R525). -/
def State.cellNoted (s : State) (b k : Nat) : State :=
  (s.cellOut (17 * b + k)).noteFailure (srcPacer (17 * b + k)) ((s.cellOut (17 * b + k)).ctxsOnLane (16 * b + k))

theorem cellNoted_only (s : State) (b k : Nat) :
    Only [.blks, .blkBase, .blkCore, .flt, .fltBase, .work, .ctxs, .tmk, .tmkBase] s (s.cellNoted b k) :=
  ((cellOut_only _ _).andThen (noteFailure_only _ _ _)).mono (by decide)

/-- The spare is to take a failed pacer's lane: the handoff begins, and the lane's reads go around it (R525). -/
def State.handedOff (s : State) (b k : Nat) : State :=
  ((s.cellNoted b k).updBlk b fun y => { y with handoff := some (16 * b + k, (s.cellNoted b k).now) }).aroundLane (16 * b + k) .maint

theorem handedOff_handoff (s : State) (b k : Nat) : ((s.handedOff b k).blk b).handoff = some (16 * b + k, s.now) := by
  have hnow : (s.cellNoted b k).now = s.now := congrArg Aon.timeNs (cellNoted_only s b k .aon (by decide))
  unfold State.handedOff
  rw [hnow]
  generalize s.cellNoted b k = u
  have hset : ((u.updBlk b fun y => { y with handoff := some (16 * b + k, s.now) }).blk b).handoff = some (16 * b + k, s.now) := by
    rw [State.updBlk_eq, State.blk_setBlk, if_pos rfl]
  exact (handoff_of_base (aroundLane_only _ _ _ .blkBase (by decide) b)).trans hset

theorem handedOff_lanes (s : State) (b k : Nat) : (s.handedOff b k).lanes = s.lanes := by
  unfold State.handedOff
  have hnoted := cellNoted_only s b k
  generalize s.cellNoted b k = u at hnoted ⊢
  exact (hnoted.andThen ((setBlk_only _ _ _).andThen (aroundLane_only _ _ _))) .lanes (by decide)

/-- A pacer that serves its lane itself: what follows its fence and the note of it (R34, R525). -/
theorem pacerFails_lane {b k : Nat} (hk : k < 16) (hc : hasBit (s.blk b).cellFailed k = false) (hp : s.populated (16 * b + k) = true)
    (hl : (s.lane (16 * b + k)).st ≠ .failed) : s.pacerFails (17 * b + k) =
      if (s.blk b).spareLane ≠ 0x1F ∨ (s.blk b).handoff.isSome then (s.cellNoted b k).unserve (16 * b + k) 1
      else if hasBit (s.blk b).cellFailed 16 then (s.cellNoted b k).unserve (16 * b + k) 2
      else if (s.blk b).marshalOut then s.handedOff b k else (s.handedOff b k).moveToSpare (16 * b + k) := by
  have hdiv : (17 * b + k) / 17 = b := by omega
  have hmod : (17 * b + k) % 17 = k := by omega
  have hpop : (s.cellOut (17 * b + k)).populated (16 * b + k) = true := hp
  have hlane : ((s.cellOut (17 * b + k)).lane (16 * b + k)).st ≠ .failed := hl
  unfold State.handedOff State.cellNoted
  unfold State.cellOut at hpop hlane ⊢
  unfold State.pacerFails
  simp only [hdiv, hmod] at hpop hlane ⊢
  rw [if_neg (by simp [hc]), if_neg (by omega)]
  simp only [show ¬ k = 16 by omega, if_false]
  rw [if_neg (by simp [hpop, hlane])]

theorem pacerFails_hands {b k : Nat} (hk : k < 16) (hc : hasBit (s.blk b).cellFailed k = false) (h16 : hasBit (s.blk b).cellFailed 16 = false)
    (hsp : (s.blk b).spareLane = 0x1F) (hh : (s.blk b).handoff = none) (hm : (s.blk b).marshalOut = false) (hp : s.populated (16 * b + k) = true)
    (hl : (s.lane (16 * b + k)).st = .active) : s.pacerFails (17 * b + k) = (s.handedOff b k).resumeLane (16 * b + k) := by
  have hact : ((s.handedOff b k).lane (16 * b + k)).st = .active := by rw [lane_congr (handedOff_lanes s b k), hl]
  rw [pacerFails_lane hk hc hp (by simp [hl]), if_neg (by simp [hsp, hh]), if_neg (by simp [h16]), if_neg (by simp [hm])]
  unfold State.moveToSpare
  exact if_pos hact

theorem pacerMiss_handoff {b k : Nat} (hk : k < 16) (hc : hasBit (s.blk b).cellFailed k = false) (h16 : hasBit (s.blk b).cellFailed 16 = false)
    (hsp : (s.blk b).spareLane = 0x1F) (hh : (s.blk b).handoff = none) (hm : (s.blk b).marshalOut = false) (hp : s.populated (16 * b + k) = true)
    (hl : (s.lane (16 * b + k)).st = .active) : hasBit ((s.pacerFails (17 * b + k)).blk b).cellFailed k = true ∧
      ((s.pacerFails (17 * b + k)).blk b).handoff = some (16 * b + k, s.now) ∧ (s.pacerFails (17 * b + k)).flt.degraded = true := by
  have hlost := pacerFails_lost (u := s) (by omega) hc
  refine ⟨hlost.failed, ?_, pacerFails_degraded (by rw [show (17 * b + k) / 17 = b by omega, show (17 * b + k) % 17 = k by omega, hc])⟩
  rw [pacerFails_hands hk hc h16 hsp hh hm hp hl, blk_congr (resumeLane_only _ _ .blks (by decide))]
  exact handedOff_handoff s b k

/-- A lane that fails is failed, and what is told of its service stays (R143). -/
theorem failLane_lane (u : State) (n cause : Nat) : ((u.failLane n cause).lane n).st = .failed ∧ ((u.failLane n cause).lane n).unserved = (u.lane n).unserved := by
  unfold State.failLane
  rw [lane_congr (raisePhy_only _ _ _ _ _ _ .lanes (by decide)), lane_congr (retireLane_only _ _ _ .lanes (by decide)),
    lane_congr (returnBaton_only _ _ .lanes (by decide)), State.updLane_eq, State.lane_setLane, if_pos rfl]
  exact ⟨rfl, rfl⟩

/-- The lane without a cell, its event not yet raised (R34). -/
def State.cellGone (s : State) (n : Nat) : State :=
  (s.updBlk (blockOfLane n) fun k => { k with handoff := none }).updLane n fun l => { l with unserved := true, spare := false }

theorem unserve_lane {n cause : Nat} (h : (u.lane n).unserved = false) (hroom : s.roomForEvents) (hevr : u.evr = s.evr) (hnow : u.now = s.now) :
    ((u.unserve n cause).lane n).unserved = true ∧ ((u.unserve n cause).lane n).st = .failed ∧
      Recorded s (u.unserve n cause) 0x0F02 (srcBlockCollector (blockOfLane n)) n cause 0 0 := by
  have heq : u.unserve n cause = ((u.cellGone n).raise 0x0F02 (srcBlockCollector (blockOfLane n)) n cause 0 0).failLane n 0x0F02 := by
    unfold State.unserve
    rw [if_neg (by simp [h])]
    rfl
  have hgone : ((u.cellGone n).lane n).unserved = true := by
    unfold State.cellGone
    rw [State.updLane_eq, State.lane_setLane, if_pos rfl]
  have hrec : Recorded s ((u.cellGone n).raise 0x0F02 (srcBlockCollector (blockOfLane n)) n cause 0 0) 0x0F02 (srcBlockCollector (blockOfLane n)) n cause 0 0 :=
    recorded_raise (u := u.cellGone n) (by rw [show (u.cellGone n).evr = s.evr from hevr]; exact hroom) hnow (by decide) _ _ _ _ _
  have hraise := raise_only (u.cellGone n) 0x0F02 (srcBlockCollector (blockOfLane n)) n cause 0 0
  rw [heq]
  generalize (u.cellGone n).raise 0x0F02 (srcBlockCollector (blockOfLane n)) n cause 0 0 = v at hrec hraise
  obtain ⟨hst, hun⟩ := failLane_lane v n 0x0F02
  exact ⟨by rw [hun, lane_congr (hraise .lanes (by decide)), hgone], hst, failLane_only v n 0x0F02 .records (by decide) _ hrec⟩

/-- A second cell of a block, or a first one whose spare is lost, leaves its lane unserved (R34, R529). -/
theorem pacerMiss_unserves {b k : Nat} (hk : k < 16) (hc : hasBit (s.blk b).cellFailed k = false) (hp : s.populated (16 * b + k) = true)
    (hl : (s.lane (16 * b + k)).st ≠ .failed) (hu : (s.lane (16 * b + k)).unserved = false)
    (h : (s.blk b).spareLane ≠ 0x1F ∨ (s.blk b).handoff.isSome = true ∨ hasBit (s.blk b).cellFailed 16 = true) (hroom : s.roomForEvents) :
    ((s.pacerFails (17 * b + k)).lane (16 * b + k)).unserved = true ∧ ((s.pacerFails (17 * b + k)).lane (16 * b + k)).st = .failed ∧
      Recorded s (s.pacerFails (17 * b + k)) 0x0F02 (srcBlockCollector b) (16 * b + k)
        (if (s.blk b).spareLane ≠ 0x1F ∨ (s.blk b).handoff.isSome then 1 else 2) 0 0 := by
  have heq : s.pacerFails (17 * b + k) = (s.cellNoted b k).unserve (16 * b + k) (if (s.blk b).spareLane ≠ 0x1F ∨ (s.blk b).handoff.isSome then 1 else 2) := by
    rw [pacerFails_lane hk hc hp hl]
    by_cases hsp : (s.blk b).spareLane ≠ 0x1F ∨ (s.blk b).handoff.isSome = true
    · rw [if_pos hsp, if_pos hsp]
    · rw [if_neg hsp, if_neg hsp, if_pos (h.elim (fun h => absurd (.inl h) hsp) fun h => h.resolve_left fun h => hsp (.inr h))]
  have hkept := cellNoted_only s b k
  obtain ⟨hun, hst, hrec⟩ := unserve_lane (s := s) (u := s.cellNoted b k) (n := 16 * b + k)
    (cause := if (s.blk b).spareLane ≠ 0x1F ∨ (s.blk b).handoff.isSome then 1 else 2)
    ((congrArg Lane.unserved (lane_congr (hkept .lanes (by decide)) _)).trans hu) hroom (hkept .evr (by decide))
    (congrArg Aon.timeNs (hkept .aon (by decide)))
  rw [blockOfLane_at hk] at hrec
  rw [heq]
  exact ⟨hun, hst, hrec⟩

/-- A spare that no lane needs is fenced, and nothing else changes (R525). -/
theorem pacerMiss_spare {b : Nat} (hc : hasBit (s.blk b).cellFailed 16 = false) (hh : (s.blk b).handoff = none) (hsp : (s.blk b).spareLane = 0x1F) :
    s.pacerFails (17 * b + 16) = s.cellOut (17 * b + 16) := by
  have hdiv : (17 * b + 16) / 17 = b := by omega
  have hmod : (17 * b + 16) % 17 = 16 := by omega
  unfold State.pacerFails State.cellOut
  simp only [hdiv, hmod, hc, hh, hsp, if_true, if_false, Bool.false_eq_true]

/-! Marshals. -/

theorem marshalDown_blk (s : State) (b : Nat) : ((s.marshalDown b).blk b).core = { (s.blk b).core with
    marshalOut := true, marshalAt := s.now, marshalKept := (recentRestart s.now (s.blk b).restartedAt).isSome } := by
  unfold State.marshalDown
  rw [blk_unitFailed, State.updBlk_eq, State.blk_setBlk, if_pos rfl]
  rfl

theorem marshalMiss_out {b : Nat} (h : (s.blk b).marshalOut = false) : ((s.marshalFails b).blk b).marshalOut = true ∧
    ((s.marshalFails b).blk b).marshalAt = s.now ∧ ((s.marshalFails b).blk b).marshalKept = (recentRestart s.now (s.blk b).restartedAt).isSome ∧
    (s.marshalFails b).flt.degraded = true := by
  have hfrom := marshalFails_from s h
  have hcore := Eq.trans (hfrom .blkCore (by decide) b) (marshalDown_blk s b)
  have hout := congrArg Blk.marshalOut hcore
  have hat := congrArg Blk.marshalAt hcore
  have hkept := congrArg Blk.marshalKept hcore
  exact ⟨hout, hat, hkept, congrArg Faults.degraded (hfrom .flt (by decide))⟩

/-- A marshal's second failure within 60 s: kept out, with event 0x0F06 (R526). -/
theorem marshalMiss_again {b n : Nat} (h : (s.blk b).marshalOut = false) (hn : (s.blk b).restartedAt = some n) (hlt : s.now - n < 60000000000)
    (hroom : s.roomForEvents) : ((s.marshalFails b).blk b).marshalKept = true ∧
      Recorded s (s.marshalFails b) 0x0F06 (srcRegionCollector (regionOfBlock b)) (srcMarshal b) ((s.now - n) / 1000000000) 0 0 := by
  have hrecent : recentRestart s.now (s.blk b).restartedAt = some ((s.now - n) / 1000000000) := by
    rw [hn]
    exact if_pos hlt
  refine ⟨by rw [(marshalMiss_out h).2.2.1, hrecent]; rfl, ?_⟩
  have hdown : Only [.blks, .blkBase, .blkCore, .flt, .fltBase] s (s.marshalDown b) := ((setBlk_only _ _ _).andThen (onFlt_only _ _)).mono (by decide)
  have hstart : (s.marshalDown b).FaultRoom := (State.FaultRoom.of_room hroom).keeps hdown (by decide) (by decide) (by decide)
  have hnow : ((s.marshalDown b).aroundBlock b).now = s.now :=
    now_of_base ((hdown.andThen (aroundBlock_only _ _)) .always (by decide))
  rw [marshalFails_eq s h, hrecent]
  exact recorded_fault (aroundBlock_faultRoom b hstart) hnow (by decide) (by decide) _ _ _ _ _

end

end Sys2Proof.Machine
end

section
/-! Stewards, restarts, starter pairs and fixed-function units (R35, R36, R523, R526-R531): the clauses of O58 about them. -/

namespace Sys2Proof.Machine

section
variable {s t u : State}

/-! Stewards. -/

theorem stewardDown_flt (s : State) (g i : Nat) : (s.stewardDown g i).flt.stop = s.flt.stop := rfl

theorem stewardDown_only (s : State) (g i : Nat) : Only [.rgns, .flt, .fltBase] s (s.stewardDown g i) :=
  ((setRgn_only _ _ _).andThen (onFlt_only _ _)).mono (by decide)

theorem stewardMiss_out {g i : Nat} (h : hasBit (s.rgn g).stewards i = true) : (s.stewardFails g i).rgn g = (s.stewardDown g i).rgn g ∧
    ((s.stewardFails g i).rgn g).stewards = clearBit (s.rgn g).stewards i := by
  have hrgn := rgn_congr (stewardFails_from s h .rgns (by decide)) g
  exact ⟨hrgn, by rw [hrgn, stewardDown_stewards]⟩

theorem pair_in {i : Nat} (hi : i < 2) : hasBit (3 : BitVec 2) i = true := by
  match i, hi with
  | 0, _ => decide
  | 1, _ => decide

theorem clearBit_pair {i : Nat} (hi : i < 2) : hasBit (clearBit (3 : BitVec 2) i) i = false ∧ hasBit (clearBit (3 : BitVec 2) i) (1 - i) = true ∧
    clearBit (3 : BitVec 2) i ≠ 0 := by
  match i, hi with
  | 0, _ => decide
  | 1, _ => decide

/-- The partner takes a failed steward's queues, with event 0x0F03 (R35). -/
theorem stewardMiss_partner {g i : Nat} (hi : i < 2) (h : (s.rgn g).stewards = 3) (h0 : (s.rgn g).restart0 = none) (h1 : (s.rgn g).restart1 = none)
    (hroom : s.roomForEvents) : ∃ v, (s.stewardFails g i).flt.stop = s.flt.stop ∧
      Recorded s (s.stewardFails g i) 0x0F03 (srcRegionCollector g) (subParam i g) v (s.queuesOf g i) 0 := by
  have hin : hasBit (s.rgn g).stewards i = true := by rw [h, pair_in hi]
  have hnone : recentRestart s.now (if i = 0 then (s.rgn g).restart0 else (s.rgn g).restart1) = none := by
    rw [h0, h1, ite_self]
    rfl
  have hkept : s.stewardKept g i = s.stewardDown g i := by
    unfold State.stewardKept
    rw [hnone]
  have hleft : ((s.stewardDown g i).rgn g).stewards ≠ 0 := by
    rw [stewardDown_stewards, h]
    exact (clearBit_pair hi).2.2
  have hdown := stewardDown_only s g i
  have hqueues : (s.stewardDown g i).draw.2.queuesOf g i = s.queuesOf g i := rfl
  have hflt := stewardDown_flt s g i
  rw [stewardFails_eq s hin, hkept, if_neg hleft, hqueues]
  generalize s.stewardDown g i = w at hdown hflt ⊢
  have hdraw := hdown.andThen (draw_only w)
  refine ⟨w.draw.1, ?_, recorded_raise_of hroom hdraw (by decide) (by decide) (by decide) _ _ _ _ _⟩
  rw [← hflt]
  exact congrArg Faults.stop (((draw_only w).andThen (raise_only _ _ _ _ _ _ _)) .flt (by decide))

/-- A region without a steward stops the device (R531). -/
theorem stewardMiss_stops {g i : Nat} (hr : s.running = true) (hm : s.power.mode = .stride) (h : hasBit (s.rgn g).stewards i = true)
    (hz : clearBit (s.rgn g).stewards i = 0) (hs : s.flt.stop = 0) : (s.stewardFails g i).flt.stop = 1 := by
  have hdown := stewardDown_only s g i
  have hkept := stewardKept_only s g i
  have hrgn : ((s.stewardKept g i).rgn g).stewards = 0 := by
    rw [rgn_congr (hkept .rgns (by decide)), stewardDown_stewards, hz]
  have hstop : (s.stewardKept g i).flt.stop = 0 := (congrArg Faults.stop (hkept .flt (by decide))).trans hs
  have hpower : (s.stewardKept g i).power = s.power := (hdown.andThen hkept) .power (by decide)
  have haon : (s.stewardKept g i).aon.base = s.aon.base := (hdown.andThen hkept) .always (by decide)
  have hdomain : (s.stewardKept g i).aon.domainOn = s.aon.domainOn := by
    have hf := congrArg Aon.domainOn haon
    exact hf
  have hrel : (s.stewardKept g i).released = s.released := by
    have hon := congrArg Aon.on haon
    have hon' : (s.stewardKept g i).aon.on = s.aon.on := hon
    simp only [State.released, hpower, hon']
  rw [stewardFails_eq s h, if_pos hrgn]
  refine faultStop_stop _ hstop (by rw [hpower, hm]; decide) ?_
  rw [← hr]
  simp only [State.running, hrel, hdomain]

/-! Restarts (R526). -/

/-- A unit given back, its event not yet raised. -/
theorem restarted_eq (s : State) (collector source since : Nat) : s.restarted collector source since =
    (s.onFlt fun f => { f with restarts := satAdd 8 f.restarts 1 }).raise 0x0F04 collector source (usSince s.now since) 0 0 := rfl

theorem restarted_only (s : State) (collector source since : Nat) : Only [.flt, .fltBase, .evr, .aon] s (s.restarted collector source since) :=
  (onFlt_only _ _).andThen (raise_only _ _ _ _ _ _ _)

theorem restarted_restarts (s : State) (collector source since : Nat) :
    (s.restarted collector source since).flt.restarts = satAdd 8 s.flt.restarts 1 :=
  congrArg Faults.restarts (raise_only _ _ _ _ _ _ _ .flt (by decide) :
    ((s.onFlt fun f => { f with restarts := satAdd 8 f.restarts 1 }).raise 0x0F04 collector source (usSince s.now since) 0 0).flt = _)

theorem restarted_recorded {F : List Part} (hroom : s.roomForEvents) (hu : Only F s u) (hevr : Part.evr ∉ F) (haon : Part.aon ∉ F)
    (collector source since : Nat) : Recorded s (u.restarted collector source since) 0x0F04 collector source (usSince s.now since) 0 0 := by
  have hnow : u.now = s.now := congrArg Aon.timeNs (hu .aon haon)
  rw [restarted_eq, hnow]
  exact recorded_raise_of hroom (hu.andThen (onFlt_only u _)) (by simp [hevr]) (by simp [haon]) (by decide) _ _ _ _ _

/-- A marshal that takes back its block (R526). -/
def State.marshalBack (s : State) (b : Nat) : State := s.updBlk b fun y => { y with marshalOut := false, restartedAt := some s.now }

theorem exec_coreRestartDone_marshal {b : Nat} (hr : s.running = true) (hm : s.power.mode ≠ .homestretch) (ht : s.aon.trip = false)
    (ho : (s.blk b).marshalOut = true) (hk : (s.blk b).marshalKept = false) : exec (.coreRestartDone (.marshal b)) s =
      .next (match (s.blk b).handoff with
        | some (n, _) => ((s.marshalBack b).restarted (srcRegionCollector (regionOfBlock b)) (srcMarshal b) (s.blk b).marshalAt).moveToSpare n
        | none => (s.marshalBack b).restarted (srcRegionCollector (regionOfBlock b)) (srcMarshal b) (s.blk b).marshalAt) := by
  simp only [exec, execCoreRestartDone]
  rw [if_neg (by simp [hr, hm, ht]), if_neg (by simp [ho, hk])]
  rfl

theorem marshalBack_only (s : State) (b : Nat) : Only [.blks, .blkBase, .blkCore] s (s.marshalBack b) := setBlk_only _ _ _

theorem marshalBack_blk (s : State) (b : Nat) : ((s.marshalBack b).blk b).marshalOut = false ∧ ((s.marshalBack b).blk b).restartedAt = some s.now := by
  unfold State.marshalBack
  rw [State.updBlk_eq, State.blk_setBlk, if_pos rfl]
  exact ⟨rfl, rfl⟩

theorem marshalRestart_back {b : Nat} (hr : s.running = true) (hm : s.power.mode ≠ .homestretch) (ht : s.aon.trip = false)
    (ho : (s.blk b).marshalOut = true) (hk : (s.blk b).marshalKept = false) (hh : (s.blk b).handoff = none) (hroom : s.roomForEvents) : ∃ t,
    exec (.coreRestartDone (.marshal b)) s = .next t ∧ (t.blk b).marshalOut = false ∧ (t.blk b).restartedAt = some s.now ∧
      t.flt.restarts = satAdd 8 s.flt.restarts 1 ∧
      Recorded s t 0x0F04 (srcRegionCollector (regionOfBlock b)) (srcMarshal b) (usSince s.now (s.blk b).marshalAt) 0 0 := by
  have hexec := exec_coreRestartDone_marshal hr hm ht ho hk
  rw [hh] at hexec
  have hblk := blk_congr (restarted_only (s.marshalBack b) (srcRegionCollector (regionOfBlock b)) (srcMarshal b) (s.blk b).marshalAt .blks (by decide)) b
  obtain ⟨hout, hat⟩ := marshalBack_blk s b
  refine ⟨_, hexec, by rw [hblk, hout], by rw [hblk, hat], ?_, restarted_recorded hroom (marshalBack_only s b) (by decide) (by decide) _ _ _⟩
  rw [restarted_restarts]
  rfl

/-- A handoff held for a marshal goes on when it is back (R529). -/
theorem marshalRestart_moves {b n a : Nat} (hr : s.running = true) (hm : s.power.mode ≠ .homestretch) (ht : s.aon.trip = false)
    (ho : (s.blk b).marshalOut = true) (hk : (s.blk b).marshalKept = false) (hh : (s.blk b).handoff = some (n, a)) (hl : (s.lane n).st = .active) : ∃ t,
    exec (.coreRestartDone (.marshal b)) s = .next t ∧ (t.blk b).marshalOut = false ∧ (t.lane n).resuming = true := by
  have hexec := exec_coreRestartDone_marshal hr hm ht ho hk
  rw [hh] at hexec
  have hkept := (marshalBack_only s b).andThen (restarted_only (s.marshalBack b) (srcRegionCollector (regionOfBlock b)) (srcMarshal b) (s.blk b).marshalAt)
  have hblk := blk_congr (restarted_only (s.marshalBack b) (srcRegionCollector (regionOfBlock b)) (srcMarshal b) (s.blk b).marshalAt .blks (by decide)) b
  rw [← blk_congr rfl] at hblk
  obtain ⟨hout, -⟩ := marshalBack_blk s b
  refine ⟨_, hexec, ?_⟩
  generalize (s.marshalBack b).restarted (srcRegionCollector (regionOfBlock b)) (srcMarshal b) (s.blk b).marshalAt = v at hkept hblk ⊢
  have hact : (v.lane n).st = .active := by rw [lane_congr (hkept .lanes (by decide)), hl]
  have hmove : v.moveToSpare n = v.resumeLane n := by
    unfold State.moveToSpare
    exact if_pos hact
  have hresume : (v.resumeLane n).lane n = (v.updLane n fun l => { l with resuming := true }).lane n :=
    lane_congr (sendTs_only _ _ _ .lanes (by decide)) n
  dsimp only
  rw [hmove, hresume, State.updLane_eq, State.lane_setLane, if_pos rfl, blk_congr (resumeLane_only _ _ .blks (by decide)), hblk]
  exact ⟨hout, rfl⟩

theorem exec_coreRestartDone_idle (c : CoreId) (h : s.running = false ∨ s.power.mode = .homestretch ∨ s.aon.trip = true) :
    exec (.coreRestartDone c) s = .next s := by
  simp only [exec, execCoreRestartDone]
  rw [if_pos (by rcases h with h | h | h <;> simp [h])]

theorem exec_coreRestartDone_pacer (c : Nat) (s : State) : exec (.coreRestartDone (.pacer c)) s = .next s := by
  simp [exec, execCoreRestartDone]

theorem exec_coreRestartDone_marshalKept {b : Nat} (h : (s.blk b).marshalOut = false ∨ (s.blk b).marshalKept = true) :
    exec (.coreRestartDone (.marshal b)) s = .next s := by
  simp only [exec, execCoreRestartDone]
  split
  · rfl
  · rw [if_pos (by rcases h with h | h <;> simp [h])]

theorem exec_coreRestartDone_stewardKept {g i : Nat} (h : hasBit (s.rgn g).stewards i = true ∨ hasBit (s.rgn g).kept i = true) :
    exec (.coreRestartDone (.steward g i)) s = .next s := by
  simp only [exec, execCoreRestartDone]
  split
  · rfl
  · rw [if_pos (by rcases h with h | h <;> simp [h])]

/-- A steward that takes back its queues (R526). -/
def State.stewardBack (s : State) (g i : Nat) : State :=
  s.updRgn g fun y => { y with stewards := setBit y.stewards i, restart0 := if i = 0 then some s.now else y.restart0,
                               restart1 := if i = 0 then y.restart1 else some s.now }

theorem stewardBack_rgn (s : State) (g i : Nat) : (s.stewardBack g i).rgn g = { s.rgn g with
    stewards := setBit (s.rgn g).stewards i, restart0 := if i = 0 then some s.now else (s.rgn g).restart0
    restart1 := if i = 0 then (s.rgn g).restart1 else some s.now } := by
  unfold State.stewardBack
  rw [State.updRgn_eq, State.rgn_setRgn, if_pos rfl]

theorem stewardRestart_back {g i : Nat} (hr : s.running = true) (hm : s.power.mode ≠ .homestretch) (ht : s.aon.trip = false)
    (ho : hasBit (s.rgn g).stewards i = false) (hk : hasBit (s.rgn g).kept i = false) (hroom : s.roomForEvents) : ∃ t,
    exec (.coreRestartDone (.steward g i)) s = .next t ∧ t.rgn g = (s.stewardBack g i).rgn g ∧
      Recorded s t 0x0F04 (srcRegionCollector g) (srcSteward g) (usSince s.now (if i = 0 then (s.rgn g).failed0 else (s.rgn g).failed1)) 0 0 := by
  refine ⟨(s.stewardBack g i).restarted (srcRegionCollector g) (srcSteward g) (if i = 0 then (s.rgn g).failed0 else (s.rgn g).failed1), ?_,
    rgn_congr (restarted_only _ _ _ _ .rgns (by decide)) g,
    restarted_recorded hroom (F := [.rgns]) (setRgn_only _ _ _) (by decide) (by decide) _ _ _⟩
  simp only [exec, execCoreRestartDone]
  rw [if_neg (by simp [hr, hm, ht]), if_neg (by simp [ho, hk])]
  rfl

/-! Starter pairs (R36, R527-R531). -/

/-- The active pair out of service (R527). -/
def State.pairOut (s : State) : State :=
  (s.onFlt fun f => { f with
    pairsIn := clearBit f.pairsIn s.flt.activePair, pairsFailed := setBit f.pairsFailed s.flt.activePair
    pairsKept := if hasBit f.pairsFailed s.flt.activePair then setBit f.pairsKept s.flt.activePair else f.pairsKept }).unitFailed
    (srcStarter (2 * s.flt.activePair))

theorem pairOut_only (s : State) : Only [.flt, .fltBase] s s.pairOut := (onFlt_only _ _).trans (onFlt_only _ _)

theorem pairOut_pairsIn (s : State) : s.pairOut.flt.pairsIn = clearBit s.flt.pairsIn s.flt.activePair ∧ s.pairOut.flt.activePair = s.flt.activePair ∧
    s.pairOut.flt.takeovers = s.flt.takeovers ∧ s.pairOut.flt.stop = s.flt.stop := ⟨rfl, rfl, rfl, rfl⟩

theorem takeOver_eq (s : State) : s.takeOver =
    if hasBit s.pairOut.flt.pairsIn (1 - s.flt.activePair) = false then s.pairOut.losePairs
    else (s.pairOut.draw.2.onFlt fun f => { f with
      activePair := 1 - s.flt.activePair, takeovers := satAdd 8 f.takeovers 1, takeover := some s.pairOut.draw.2.now }).raise
      0x0F05 srcChipCollector s.flt.activePair (1 - s.flt.activePair) s.pairOut.draw.1 s.pairOut.draw.2.adminInProgress := rfl

/-- The standby's bit is not the active pair's. -/
theorem standby_in (w : BitVec 2) {p : Nat} (hp : p < 2) : hasBit (clearBit w p) (1 - p) = hasBit w (1 - p) := by
  rw [hasBit_clearBit]
  simp
  omega

/-- The standby's takeover: it is the active pair, and the failed one is out (R36, R527). -/
theorem takeOver_standby (hp : s.flt.activePair < 2) (hb : hasBit s.flt.pairsIn (1 - s.flt.activePair) = true) :
    s.takeOver.flt.activePair = 1 - s.flt.activePair ∧ hasBit s.takeOver.flt.pairsIn s.flt.activePair = false ∧
      s.takeOver.flt.takeovers = satAdd 8 s.flt.takeovers 1 ∧ s.takeOver.flt.takeover = some s.now ∧ s.takeOver.boot = s.boot ∧
      (s.roomForEvents → Recorded s s.takeOver 0x0F05 srcChipCollector s.flt.activePair (1 - s.flt.activePair) s.pairOut.draw.1 s.adminInProgress) := by
  have hout := pairOut_only s
  obtain ⟨hpairs, -, htaken, -⟩ := pairOut_pairsIn s
  have hadmin : s.pairOut.draw.2.adminInProgress = s.adminInProgress := rfl
  have hnow : s.pairOut.draw.2.now = s.now := rfl
  rw [takeOver_eq, if_neg (by rw [hpairs, standby_in _ hp, hb]; decide), hadmin, hnow]
  have hdrawn : Only [.flt, .fltBase, .work] s s.pairOut.draw.2 := (hout.andThen (draw_only _)).mono (by decide)
  have hflt : s.pairOut.draw.2.flt = s.pairOut.flt := draw_only s.pairOut .flt (by decide)
  generalize s.pairOut.draw.1 = v
  generalize s.pairOut.draw.2 = w at hdrawn hflt ⊢
  have hset := onFlt_only w fun f => { f with activePair := 1 - s.flt.activePair, takeovers := satAdd 8 f.takeovers 1, takeover := some s.now }
  have hval : (w.onFlt fun f => { f with activePair := 1 - s.flt.activePair, takeovers := satAdd 8 f.takeovers 1, takeover := some s.now }).flt =
    { w.flt with activePair := 1 - s.flt.activePair, takeovers := satAdd 8 w.flt.takeovers 1, takeover := some s.now } := rfl
  generalize (w.onFlt fun f => { f with activePair := 1 - s.flt.activePair, takeovers := satAdd 8 f.takeovers 1, takeover := some s.now }) = x at hset hval ⊢
  have hraise := raise_only x 0x0F05 srcChipCollector s.flt.activePair (1 - s.flt.activePair) v s.adminInProgress
  have hxflt := Eq.trans (hraise .flt (by decide)) hval
  have hall := hdrawn.andThen hset
  rw [hxflt]
  refine ⟨rfl, ?_, ?_, rfl, (hall.andThen hraise) .boot (by decide), fun hroom => recorded_raise_of hroom hall (by decide) (by decide) (by decide) _ _ _ _ _⟩
  · change hasBit w.flt.pairsIn s.flt.activePair = false
    rw [hflt, hpairs, hasBit_clearBit]
    simp
  · change satAdd 8 w.flt.takeovers 1 = _
    rw [hflt, htaken]

/-- Without a standby both pairs are lost (R531). -/
theorem takeOver_lost (hp : s.flt.activePair < 2) (hb : hasBit s.flt.pairsIn (1 - s.flt.activePair) = false) :
    s.takeOver = s.pairOut.losePairs ∧ s.takeOver.flt.bothLost = some s.now ∧ s.takeOver.flt.activePair = s.flt.activePair ∧
      s.takeOver.flt.takeovers = s.flt.takeovers ∧ s.takeOver.boot = s.boot := by
  obtain ⟨hpairs, hactive, htaken, -⟩ := pairOut_pairsIn s
  have heq : s.takeOver = s.pairOut.losePairs := by
    rw [takeOver_eq, if_pos (by rw [hpairs, standby_in _ hp, hb])]
  have hstop := faultStop_only (s.pairOut.onFlt fun f => { f with bothLost := some s.pairOut.now }) 2
  have hbase : s.pairOut.losePairs.flt.base = (s.pairOut.onFlt fun f => { f with bothLost := some s.pairOut.now }).flt.base := hstop .fltBase (by decide)
  have hlost := congrArg Faults.bothLost hbase
  have hact := congrArg Faults.activePair hbase
  have hcount := congrArg Faults.takeovers hbase
  have hboot : s.pairOut.losePairs.boot = s.boot := hstop .boot (by decide)
  rw [heq]
  exact ⟨rfl, hlost, hact, hcount, hboot⟩

theorem losePairs_stops (hr : s.running = true) (hm : s.power.mode = .stride) (hs : s.flt.stop = 0) : s.pairOut.losePairs.flt.stop = 2 := by
  unfold State.losePairs
  have hmode : (s.pairOut.onFlt fun f => { f with bothLost := some s.pairOut.now }).power.mode = s.power.mode := rfl
  refine faultStop_stop _ hs ?_ hr
  rw [hmode, hm]
  decide

theorem rollTakeover_none (h : s.boot.roll = none) : s.rollTakeover = s := by
  unfold State.rollTakeover
  rw [h]

/-- A takeover in the starter phase of a roll (R502). -/
theorem rollTakeover_phase {r : Roll} (h : s.boot.roll = some r) (hp : r.phase = 5) : s.rollTakeover.flt = s.flt ∧
    (r.stage = 1 → s.rollTakeover.boot.roll = some { r with stage := 2 }) ∧
    (r.stage ≠ 1 → s.rollTakeover.boot.roll = some { r with stage := 0, running := false }) := by
  by_cases hs : r.stage = 1
  · have heq : s.rollTakeover = s.onBoot fun b => { b with roll := some { r with stage := 2 } } := by
      unfold State.rollTakeover
      simp only [h, hp, hs, ne_eq, not_true_eq_false, if_false, if_true]
    rw [heq]
    exact ⟨rfl, fun _ => rfl, fun hn => absurd hs hn⟩
  · have heq : s.rollTakeover = s.onBoot fun b => { b with roll := some { r with stage := 0, running := false } } := by
      unfold State.rollTakeover
      simp only [h, hp, hs, ne_eq, not_true_eq_false, if_false]
    rw [heq]
    exact ⟨rfl, fun hn => absurd hn hs, fun _ => rfl⟩

theorem exec_starterMismatch (hr : s.running = true) (hp : s.flt.pairsIn ≠ 0) (ht : s.aon.trip = false) :
    exec .starterMismatch s = .next s.takeOver.rollTakeover := by
  simp only [exec, execStarterMismatch]
  rw [if_neg (by simpa [hr] using hp), if_neg (by simp [ht])]

theorem exec_starterMismatch_idle (h : s.running = false ∨ s.flt.pairsIn = 0) : exec .starterMismatch s = .next s := by
  rcases h with h | h <;> simp [exec, execStarterMismatch, h]

theorem pairsIn_ne {p : Nat} (hb : hasBit s.flt.pairsIn p = true) : s.flt.pairsIn ≠ 0 := by
  intro h
  rw [h] at hb
  simp [hasBit] at hb

/-! Fixed-function units (R523). -/

theorem exec_fixedUnit (u : FixedUnit) (hr : s.running = true) : exec (.fixedUnitError u) s = .next (s.fixedFails u) ∧
    exec (.fixedUnitDeadline u) s = .next (s.fixedFails u) ∧ exec (.responseOverdue (.fixed u)) s = .next (s.fixedFails u) := by
  simp [exec, execFixedUnitError, execFixedUnitDeadline, execResponseOverdue, hr]

theorem exec_fixedUnit_known (u : FixedUnit) (h : s.fixedFails u = s) : exec (.fixedUnitError u) s = .next s ∧
    exec (.fixedUnitDeadline u) s = .next s ∧ exec (.responseOverdue (.fixed u)) s = .next s := by
  simp [exec, execFixedUnitError, execFixedUnitDeadline, execResponseOverdue, h]

theorem exec_responseOverdue_core (c : CoreId) (hr : s.running = true) : exec (.responseOverdue (.core c)) s = .next (s.coreFails c) := by
  simp [exec, execResponseOverdue, hr]

/-- Under a thermal trip a fixed-function unit's failure is recorded only (R529). -/
theorem fixedFails_trip (u : FixedUnit) (hc : (∃ g i, u = .compress g i) → s.hasCompression = true) (ht : s.aon.trip = true) :
    ∃ src, s.fixedFails u = s.recordedOnly src := by
  unfold State.fixedFails
  cases u with
  | decoder b i => exact ⟨_, if_pos ht⟩
  | cipher b => exact ⟨_, if_pos ht⟩
  | parity i => exact ⟨_, if_pos ht⟩
  | compress g i => exact ⟨_, (if_neg (by simp [hc ⟨g, i, rfl⟩])).trans (if_pos ht)⟩

/-- A unit that is out of service already fails no more. -/
theorem fixedFails_known {b i g : Nat} {u : FixedUnit} (ht : s.aon.trip = false) (h : u = .decoder b i ∧ hasBit (s.blk b).decIn i = false ∨
    u = .cipher b ∧ s.cph.engines.getLsbD b = false ∨ u = .parity i ∧ hasBit s.cph.parityIn i = false ∨
    u = .compress g i ∧ (s.hasCompression = false ∨ hasBit (s.rgn g).cmpIn i = false)) : s.fixedFails u = s := by
  rcases h with ⟨rfl, h⟩ | ⟨rfl, h⟩ | ⟨rfl, h⟩ | ⟨rfl, h⟩
  · simp [State.fixedFails, State.decoderFails, ht, h]
  · simp [State.fixedFails, State.cipherFails, ht, h]
  · simp [State.fixedFails, State.parityFails, ht, h]
  · rcases h with h | h <;> simp [State.fixedFails, State.compressFails, ht, h]

/-! The reset that ends the loss of both pairs (R531). -/

theorem clearChip_fields (s : State) : s.clearChip.power.inReset = true ∧ s.clearChip.regs = {} ∧ s.clearChip.flt = {} ∧
    s.clearChip.boot.running = none := ⟨rfl, rfl, rfl, rfl⟩

theorem chipReset_fields (s : State) (landed : Bool) : (s.chipReset landed).power.inReset = true ∧ (s.chipReset landed).regs = {} ∧
    (s.chipReset landed).flt = {} ∧ (s.chipReset landed).boot.running = none := by
  have haon (u : State) (b : Bool) (mv : Nat) : Only [.aon, .always, .evr] u (if b then (u.onAon fun a => { a with holdHigh := false }).raise 0x0E18 srcLoopEngine
      (subParam 2 mv) 5 0 0 else u.onAon fun a => { a with holdHigh := false }) :=
    .ites (((onAon_only _ _).andThen (raise_only _ _ _ _ _ _ _)).mono (by decide)) ((onAon_only _ _).mono (by decide))
  unfold State.chipReset
  generalize s.keepTenantWords = w
  dsimp only
  generalize (if (landed || w.landedAlready || !w.stepComplete 10) = true then w else w.abandonStaging) = v
  obtain ⟨hin, hregs, hflt, hrun⟩ := clearChip_fields v
  have hkept := haon v.clearChip v.aon.holdHigh v.bank.lowMv
  generalize v.clearChip = x at hin hregs hflt hrun hkept ⊢
  refine ⟨?_, Eq.trans (hkept .regs (by decide)) hregs, Eq.trans (hkept .flt (by decide)) hflt, ?_⟩
  · exact (congrArg Power.inReset (hkept .power (by decide))).trans hin
  · exact (congrArg BootStore.running (hkept .boot (by decide))).trans hrun

end

end Sys2Proof.Machine
end

section
/-! O58, clause by clause. -/

namespace Sys2Proof.Machine

section
variable {s : State}

theorem standbyPairReturn_back (hr : s.running = true) (hp : s.flt.pairsIn ≠ 0)
    (hb : hasBit s.flt.pairsIn (1 - s.flt.activePair) = false) (hk : hasBit s.flt.pairsKept (1 - s.flt.activePair) = false) (hroom : s.roomForEvents) :
    ∃ t u, exec (.standbyPairReturn true) s = .next t ∧ hasBit t.flt.pairsIn (1 - s.flt.activePair) = true ∧ t.flt.activePair = s.flt.activePair ∧
      Recorded s t 0x0F0C srcChipCollector (1 - s.flt.activePair) ((s.now - s.flt.takeover.getD s.now) / 1000000) 0 0 ∧
    exec (.standbyPairReturn false) s = .next u ∧ hasBit u.flt.pairsKept (1 - s.flt.activePair) = true ∧ u.flt.pairsIn = s.flt.pairsIn := by
  have hidle : (!s.running || s.flt.pairsIn == 0 || hasBit s.flt.pairsIn (1 - s.flt.activePair) || hasBit s.flt.pairsKept (1 - s.flt.activePair)) = false := by
    simpa [hr, hb, hk] using hp
  have hflt : ((s.onFlt fun f => { f with pairsIn := setBit f.pairsIn (1 - s.flt.activePair) }).raise 0x0F0C srcChipCollector (1 - s.flt.activePair)
      ((s.now - s.flt.takeover.getD s.now) / 1000000) 0 0).flt = { s.flt with pairsIn := setBit s.flt.pairsIn (1 - s.flt.activePair) } :=
    raise_only _ _ _ _ _ _ _ .flt (by decide)
  refine ⟨(s.onFlt fun f => { f with pairsIn := setBit f.pairsIn (1 - s.flt.activePair) }).raise 0x0F0C srcChipCollector (1 - s.flt.activePair)
      ((s.now - s.flt.takeover.getD s.now) / 1000000) 0 0, s.onFlt fun f => { f with pairsKept := setBit f.pairsKept (1 - s.flt.activePair) },
    ?_, ?_, ?_, recorded_raise_of hroom (onFlt_only s _) (by decide) (by decide) (by decide) _ _ _ _ _, ?_, ?_, rfl⟩
  · simp only [exec, execStandbyPairReturn]
    rw [if_neg (by rw [hidle]; decide), if_pos trivial]
  · rw [hflt]
    exact (hasBit_setBit _ _ _).trans (by simp)
  · rw [hflt]
  · simp only [exec, execStandbyPairReturn]
    rw [if_neg (by rw [hidle]; decide), if_neg (by decide)]
  · exact (hasBit_setBit _ _ _).trans (by simp)

theorem standbyPairReturn_idle (b : Bool) (h : s.running = false ∨ s.flt.pairsIn = 0 ∨ hasBit s.flt.pairsIn (1 - s.flt.activePair) = true ∨
    hasBit s.flt.pairsKept (1 - s.flt.activePair) = true) : exec (.standbyPairReturn b) s = .next s := by
  simp only [exec, execStandbyPairReturn]
  rw [if_pos (by rcases h with h | h | h | h <;> simp [h])]

/-! After its failure a core is out, whether or not it was before. -/

theorem marshal_out_after (b : Nat) (ht : s.aon.trip = false) : ((s.coreFails (.marshal b)).blk b).marshalOut = true := by
  rw [coreFails_marshal _ ht]
  match hm : (s.blk b).marshalOut with
  | true => rw [marshalFails_known s hm, hm]
  | false => exact (marshalMiss_out hm).1

theorem steward_out_after (g i : Nat) (ht : s.aon.trip = false) : hasBit ((s.coreFails (.steward g i)).rgn g).stewards i = false := by
  rw [coreFails_steward _ _ ht]
  match hm : hasBit (s.rgn g).stewards i with
  | false => rw [stewardFails_known s hm, hm]
  | true =>
    rw [(stewardMiss_out hm).2, hasBit_clearBit]
    simp

theorem cell_out_after (n : Nat) (ht : s.aon.trip = false) : hasBit ((s.coreFails (.pacer n)).blk (n / 17)).cellFailed (n % 17) = true := by
  rw [coreFails_pacer _ ht]
  match hm : hasBit (s.blk (n / 17)).cellFailed (n % 17) with
  | true => rw [pacerFails_known s hm, hm]
  | false =>
    have hlost := pacerFails_lost (u := s) (b := n / 17) (by omega) hm
    rw [Nat.div_add_mod] at hlost
    exact hlost.failed

/-- After a response that is overdue the core is out, whether or not it was before (R530). -/
theorem responseOverdue_cores (b g : Nat) (hr : s.running = true) (ht : s.aon.trip = false) :
    ∃ t v w, exec (.responseOverdue (.core (.marshal b))) s = .next t ∧ (t.blk b).marshalOut = true ∧
      exec (.responseOverdue (.core (.steward g 1))) s = .next v ∧ hasBit (v.rgn g).stewards 1 = false ∧
      exec (.responseOverdue (.core (.pacer (17 * b + 3)))) s = .next w ∧ hasBit (w.blk b).cellFailed 3 = true := by
  refine ⟨_, _, _, exec_responseOverdue_core _ hr, ?_, exec_responseOverdue_core _ hr, ?_, exec_responseOverdue_core _ hr, ?_⟩
  · exact marshal_out_after b ht
  · exact steward_out_after g 1 ht
  · have hcell := cell_out_after (17 * b + 3) ht
    rwa [show (17 * b + 3) / 17 = b by omega, show (17 * b + 3) % 17 = 3 by omega] at hcell

theorem cell_known {b k : Nat} (hk : k < 17) (hc : hasBit (s.blk b).cellFailed k = true) (ht : s.aon.trip = false) :
    s.coreFails (.pacer (17 * b + k)) = s := by
  rw [coreFails_pacer _ ht]
  exact pacerFails_known s (by rw [show (17 * b + k) / 17 = b by omega, show (17 * b + k) % 17 = k by omega, hc])

end

/-- Settles O58: each fault by the lemma of its unit; a unit is out of service in the state in which its response begins, and the response leaves that alone. -/
theorem faultsAreContained : Obligations.FaultsAreContained := by
  unfold Obligations.FaultsAreContained
  refine ⟨?_, ?_, ?_, ?_, fun c s h => exec_coreHeartbeatMiss_idle c h, ?_, ?_, ?_, ?_, ?_,
    fun b s hr hm ht ho hk hh hroom => marshalRestart_back hr hm ht ho hk hh hroom, ?_, fun b s h => exec_coreRestartDone_marshalKept h,
    fun g i c s => ⟨fun h => exec_coreRestartDone_stewardKept h, fun h => exec_coreRestartDone_idle c h⟩, ?_,
    fun b n a s hr hm ht ho hk hh hl => marshalRestart_moves hr hm ht ho hk hh hl, fun c s => exec_coreRestartDone_pacer c s, ?_, ?_, ?_, ?_, ?_,
    fun s h => exec_starterMismatch_idle h, fun s hr _ hp hb hk hroom => standbyPairReturn_back hr hp hb hk hroom,
    fun b s h => standbyPairReturn_idle b h, ?_, ?_, ?_, ?_, fun b i g u s ht h => exec_fixedUnit_known u (fixedFails_known ht h),
    fun b g s hr ht => responseOverdue_cores b g hr ht, ?_, ?_, ?_, ?_, ?_⟩
  case refine_1 =>
    intro b k s hr h7 hm ht hk hc h16 hsp hh ho hp hl
    refine ⟨_, exec_coreHeartbeatMiss _ hr h7 hm, ?_⟩
    rw [coreFails_pacer _ ht]
    exact pacerMiss_handoff hk hc h16 hsp hh ho hp hl
  case refine_2 =>
    intro b s hr h7 hm ht ho hn
    obtain ⟨hout, hat, hkept, hdeg⟩ := marshalMiss_out ho
    refine ⟨_, exec_coreHeartbeatMiss _ hr h7 hm, ?_⟩
    rw [coreFails_marshal _ ht]
    exact ⟨hout, hat, by rw [hkept, hn]; rfl, hdeg⟩
  case refine_3 =>
    intro g i s hr h7 hm ht hi h h0 h1 hroom
    obtain ⟨v, hstop, hrec⟩ := stewardMiss_partner hi h h0 h1 hroom
    obtain ⟨hout, hother, -⟩ := clearBit_pair hi
    have hin : hasBit (s.rgn g).stewards i = true := by rw [h, pair_in hi]
    have hleft := (stewardMiss_out hin).2
    rw [h] at hleft
    refine ⟨_, v, exec_coreHeartbeatMiss _ hr h7 hm, ?_⟩
    rw [coreFails_steward _ _ ht, hleft]
    exact ⟨hout, hother, hstop, hrec⟩
  case refine_4 =>
    intro c s hr h7 hm ht
    obtain ⟨src, heq⟩ := coreFails_trip c ht
    refine ⟨_, exec_coreHeartbeatMiss _ hr h7 hm, ?_⟩
    rw [heq]
    exact ⟨rfl, rfl, rfl, rfl⟩
  case refine_5 =>
    intro b g i k s ht
    exact ⟨fun h => exec_coreHeartbeatMiss_known ((coreFails_marshal b ht).trans (marshalFails_known s h)),
      fun h => exec_coreHeartbeatMiss_known ((coreFails_steward g i ht).trans (stewardFails_known s h)),
      fun hk h => exec_coreHeartbeatMiss_known (cell_known hk h ht)⟩
  case refine_6 =>
    intro b k s hr h7 hm ht hk hc hp hl hu h hroom
    obtain ⟨hun, hst, hrec⟩ := pacerMiss_unserves hk hc hp hl hu h hroom
    refine ⟨_, exec_coreHeartbeatMiss _ hr h7 hm, ?_⟩
    rw [coreFails_pacer _ ht]
    exact ⟨(pacerFails_lost (by omega) hc).failed, hun, hst, hrec⟩
  case refine_7 =>
    intro b s hr h7 hm ht hc hh hsp
    refine ⟨_, exec_coreHeartbeatMiss _ hr h7 hm, ?_⟩
    rw [coreFails_pacer _ ht, pacerMiss_spare hc hh hsp]
    exact ⟨(cellOut_lost s b 16 (by omega)).failed, rfl, rfl⟩
  case refine_8 =>
    intro b n s hr h7 hm ht ho hn hlt hroom
    obtain ⟨hkept, hrec⟩ := marshalMiss_again ho hn hlt hroom
    refine ⟨_, exec_coreHeartbeatMiss _ hr h7 hm, ?_⟩
    rw [coreFails_marshal _ ht]
    exact ⟨(marshalMiss_out ho).1, hkept, hrec⟩
  case refine_9 =>
    intro g i s hr h7 h10 hm ht hi h hz hs
    refine ⟨_, exec_coreHeartbeatMiss _ hr h7 (by rw [hm]; decide), ?_⟩
    rw [coreFails_steward _ _ ht]
    exact ⟨by rw [(stewardMiss_out h).2, hz], stewardMiss_stops hr hm h hz hs⟩
  case refine_10 =>
    intro g s hr hm ht ho hk hroom
    obtain ⟨t, hexec, hrgn, hrec⟩ := stewardRestart_back hr hm ht ho hk hroom
    rw [stewardBack_rgn] at hrgn
    refine ⟨t, hexec, ?_, by rw [hrgn]; rfl, by rw [hrgn]; rfl, hrec⟩
    rw [hrgn]
    exact (hasBit_setBit _ 1 1).trans (by simp)
  case refine_11 =>
    intro g s hr hm ht ho hk hroom
    obtain ⟨t, hexec, hrgn, hrec⟩ := stewardRestart_back hr hm ht ho hk hroom
    rw [stewardBack_rgn] at hrgn
    refine ⟨t, hexec, ?_, by rw [hrgn]; rfl, by rw [hrgn]; rfl, hrec⟩
    rw [hrgn]
    exact (hasBit_setBit _ 0 0).trans (by simp)
  case refine_12 =>
    intro s hr ht ha hb hroll hroom
    obtain ⟨hact, hin, htaken, hat, hboot, hrec⟩ := takeOver_standby ha hb
    refine ⟨_, s.pairOut.draw.1, exec_starterMismatch hr (pairsIn_ne hb) ht, ?_⟩
    rw [rollTakeover_none (by rw [hboot, hroll])]
    exact ⟨hact, hin, htaken, hat, hrec hroom⟩
  case refine_13 =>
    intro s hr ht ha hp hb hroll
    obtain ⟨-, hlost, hact, htaken, hboot⟩ := takeOver_lost ha hb
    refine ⟨_, exec_starterMismatch hr hp ht, ?_⟩
    rw [rollTakeover_none (by rw [hboot, hroll])]
    exact ⟨hlost, hact, htaken⟩
  case refine_14 =>
    intro s hr ht ha hp hm h10 hb hs hroll
    obtain ⟨heq, -, -, -, hboot⟩ := takeOver_lost ha hb
    refine ⟨_, exec_starterMismatch hr hp ht, ?_⟩
    rw [rollTakeover_none (by rw [hboot, hroll]), heq]
    exact losePairs_stops hr hm hs
  case refine_15 =>
    intro s hr hp ht
    refine ⟨s.recordedOnly s.srcStarters, ?_, rfl, rfl, rfl⟩
    simp only [exec, execStarterMismatch]
    rw [if_neg (by simpa [hr] using hp), if_pos ht]
  case refine_16 =>
    intro r s hr ht ha hb hroll hphase
    obtain ⟨hact, -, -, -, hboot, -⟩ := takeOver_standby ha hb
    obtain ⟨hflt, hone, hother⟩ := rollTakeover_phase (s := s.takeOver) (roll_congr hboot hroll) hphase
    exact ⟨_, exec_starterMismatch hr (pairsIn_ne hb) ht, by rw [hflt, hact], hone, hother⟩
  case refine_17 =>
    intro b s hr ht h hroom
    obtain ⟨herr, hlate, hover⟩ := exec_fixedUnit (.cipher b) hr
    have heq : s.fixedFails (.cipher b) = s.cipherFails b 2 := by simp [State.fixedFails, ht]
    rw [heq] at herr hlate hover
    obtain ⟨hout, hpartner⟩ := cipherFails_cph (cause := 2) h
    exact ⟨_, herr, hlate, hover, hout, hpartner, cipherFails_recorded h hroom⟩
  case refine_18 =>
    intro b i s hr ht h hroom
    obtain ⟨herr, hlate, hover⟩ := exec_fixedUnit (.decoder b i) hr
    have heq : s.fixedFails (.decoder b i) = s.decoderFails b i := by simp [State.fixedFails, ht]
    obtain ⟨hout, n, hrec⟩ := decoderFails_out h hroom
    rw [heq] at herr hlate hover
    exact ⟨_, n, herr, hlate, hover, hout, hrec⟩
  case refine_19 =>
    intro i s hr ht hi h hroom
    obtain ⟨herr, hlate, hover⟩ := exec_fixedUnit (.parity i) hr
    have heq : s.fixedFails (.parity i) = s.parityFails i := by simp [State.fixedFails, ht]
    rw [heq] at herr hlate hover
    obtain ⟨hout, hother⟩ := parityFails_parityIn h
    exact ⟨_, herr, hlate, hover, hout, hother, parityFails_recorded h hroom⟩
  case refine_20 =>
    intro g i s hr hc ht hg hi h hroom
    obtain ⟨herr, hlate, hover⟩ := exec_fixedUnit (.compress g i) hr
    have heq : s.fixedFails (.compress g i) = s.compressFails g i := by simp [State.fixedFails, ht, hc]
    rw [heq] at herr hlate hover
    exact ⟨_, herr, hlate, hover, compressFails_out hc hi h hroom⟩
  case refine_21 =>
    intro g i s hr hc ht
    obtain ⟨herr, hlate, hover⟩ := exec_fixedUnit (.compress g i) hr
    obtain ⟨src, heq⟩ := fixedFails_trip (.compress g i) (fun _ => hc) ht
    rw [heq] at herr hlate hover
    exact ⟨_, herr, hlate, hover, rfl, rfl, rfl⟩
  case refine_22 =>
    intro u c s hr hu ht
    obtain ⟨herr, hlate, hover⟩ := exec_fixedUnit u hr
    obtain ⟨src, heq⟩ := fixedFails_trip u (fun ⟨g, i, h⟩ => absurd h (hu g i)) ht
    obtain ⟨src', heq'⟩ := coreFails_trip c ht
    rw [heq] at herr hlate hover
    exact ⟨_, herr, hlate, hover, rfl, rfl, rfl, rfl, _, exec_responseOverdue_core c hr, by rw [heq']; rfl⟩
  case refine_23 =>
    intro u i s hr
    simp [exec, execFixedUnitError, execFixedUnitDeadline, execResponseOverdue, execBothPairsLostReset, hr]
  case refine_24 =>
    intro n s hr hn
    refine ⟨s.chipReset s.power.landing.isNone, by simp [exec, execBothPairsLostReset, hr, hn], chipReset_fields _ _⟩
  case refine_25 =>
    intro s hn
    simp [exec, execBothPairsLostReset, hn]

end Sys2Proof.Machine
end

section
/-! On-chip memories that fail (R39, R461-R467, R540): what the effect of each row of *Memory out of service* can touch. -/

namespace Sys2Proof.Machine

/-- What the response to any fault can touch: not the records in the arrival queue, and of the memories only their buffers. -/
def faultParts : List Part :=
  lossParts ++ workParts ++ stopParts ++ [.blks, .blkBase, .blkCore, .fltBase, .rgns, .cph, .boot, .tenantBase]

/-- What the effect of a memory's error can touch. -/
def memoryParts : List Part := faultParts ++ [.recMode]

section
variable (s : State)

theorem unitFailed_only (src : Nat) : Only [.flt, .fltBase] s (s.unitFailed src) := onFlt_only _ _

theorem pacerFails_only (cell : Nat) : Only faultParts s (s.pacerFails cell) := by
  match h : hasBit (s.blk (cell / 17)).cellFailed (cell % 17) with
  | true => rw [pacerFails_known s h]; exact .refl
  | false => exact ((cellOut_only _ _).mono (by decide)).trans ((pacerFails_from s h).mono (by decide))

theorem marshalFails_only (b : Nat) : Only faultParts s (s.marshalFails b) := by
  match h : (s.blk b).marshalOut with
  | true => rw [marshalFails_known s h]; exact .refl
  | false => exact (((setBlk_only _ _ _).andThen (onFlt_only _ _)).mono (by decide)).trans ((marshalFails_from s h).mono (by decide))

theorem stewardFails_only (g i : Nat) : Only faultParts s (s.stewardFails g i) := by
  match h : hasBit (s.rgn g).stewards i with
  | false => rw [stewardFails_known s h]; exact .refl
  | true => exact ((stewardDown_only _ _ _).mono (by decide)).trans ((stewardFails_from s h).mono (by decide))

theorem coreFails_only (c : CoreId) : Only faultParts s (s.coreFails c) := by
  have htrip (src : Nat) : Only faultParts s (s.recordedOnly src) := (unitFailed_only _ _).mono (by decide)
  unfold State.coreFails
  cases c with
  | pacer cell => exact .ites (htrip _) (pacerFails_only _ _)
  | marshal b => exact .ites (htrip _) (marshalFails_only _ _)
  | steward g i => exact .ites (htrip _) (stewardFails_only _ _ _)

theorem decoderFails_only (b i : Nat) : Only faultParts s (s.decoderFails b i) := by
  match h : hasBit (s.blk b).decIn i with
  | false =>
    unfold State.decoderFails
    rw [if_pos h]
    exact .refl
  | true =>
    obtain ⟨n, hfrom⟩ := decoderFails_from h
    exact (((decoderOut_only _ _ _).andThen (raise_only _ _ _ _ _ _ _)).mono (by decide)).trans (hfrom.mono (by decide))

theorem cipherFails_only (b cause : Nat) : Only faultParts s (s.cipherFails b cause) := by
  match h : s.cph.engines.getLsbD b with
  | false =>
    unfold State.cipherFails
    rw [if_pos h]
    exact .refl
  | true =>
    refine Only.trans ?_ ((cipherFails_from h).mono (by decide))
    refine Only.trans ?_ ((partnerServes_only _ _).mono (by decide))
    refine Only.trans ?_ ((endPartner_engines _ _).2.mono (by decide))
    exact ((cipherOut_only _ _).andThen (raise_only _ _ _ _ _ _ _)).mono (by decide)

theorem parityFails_only (i : Nat) : Only faultParts s (s.parityFails i) := by
  match h : hasBit s.cph.parityIn i with
  | false =>
    unfold State.parityFails
    rw [if_pos h]
    exact .refl
  | true => exact (((parityOut_only _ _).andThen (raise_only _ _ _ _ _ _ _)).mono (by decide)).trans ((parityFails_from h).mono (by decide))

theorem engineOut_only (e cause : Nat) : Only faultParts s (s.engineOut e cause) := by
  match h : hasBit (s.rgn (e / 4)).cmpIn (e % 4) with
  | false =>
    unfold State.engineOut
    rw [if_pos h]
    exact .refl
  | true =>
    refine Only.trans ?_ ((engineOut_from h).mono (by decide))
    refine Only.trans ?_ ((partnerCompresses_cmpIn _ _).2.mono (by decide))
    exact ((setRgn_only _ _ _).andThen ((raiseEngine_only _ _ _ _ _ _).andThen (unitFailed_only _ _))).mono (by decide)

theorem compressFails_only (g i : Nat) : Only faultParts s (s.compressFails g i) := by
  unfold State.compressFails
  exact .ite ((engineOut_only _ _ _).trans ((onFlt_only _ _).mono (by decide)))

theorem fixedFails_only (u : FixedUnit) : Only faultParts s (s.fixedFails u) := by
  have htrip (src : Nat) : Only faultParts s (s.recordedOnly src) := (unitFailed_only _ _).mono (by decide)
  unfold State.fixedFails
  cases u with
  | decoder b i => exact .ites (htrip _) (decoderFails_only _ _ _)
  | cipher b => exact .ites (htrip _) (cipherFails_only _ _ _)
  | parity i => exact .ites (htrip _) (parityFails_only _ _)
  | compress g i => exact .ites .refl (.ites (htrip _) (compressFails_only _ _ _))

theorem losePairs_only : Only faultParts s s.losePairs := ((onFlt_only _ _).mono (by decide)).trans ((faultStop_only _ _).mono (by decide))

theorem takeOver_only : Only faultParts s s.takeOver := by
  rw [takeOver_eq]
  refine Only.trans ((pairOut_only _).mono (by decide)) (.ites (losePairs_only _) ?_)
  exact ((draw_only _).andThen ((onFlt_only _ _).andThen (raise_only _ _ _ _ _ _ _))).mono (by decide)

theorem rollTakeover_only : Only [.boot] s s.rollTakeover := by
  unfold State.rollTakeover
  split
  · exact .refl
  · exact .ites .refl (.ites (onBoot_only _ _) (onBoot_only _ _))

theorem pairFails_only (p : Nat) : Only faultParts s (s.pairFails p) := by
  unfold State.pairFails
  refine .ites ((unitFailed_only _ _).mono (by decide)) (.ites ((takeOver_only _).trans ((rollTakeover_only _).mono (by decide))) (.ite ?_))
  exact ((onFlt_only _ _).trans (onFlt_only _ _)).mono (by decide)

theorem otherFailed_only (src : Nat) : Only [.flt, .fltBase] s (s.otherFailed src) := (onFlt_only _ _).trans (onFlt_only _ _)

theorem sharedFails_only (src sub : Nat) : Only faultParts s (s.sharedFails src sub) := by
  unfold State.sharedFails
  split
  · exact pairFails_only _ _
  · exact coreFails_only _ _
  · exact fixedFails_only _ _
  · exact (otherFailed_only _ _).mono (by decide)

theorem tenantFault_only (t kind : Nat) : Only [.ctrls, .evr, .aon] s (s.tenantFault t kind) := (mapCtrls_only _ _).andThen (raise_only _ _ _ _ _ _ _)

theorem recorderMode_only (f : Recorder → Recorder) (hq : (f s.evr).queue = s.evr.queue) : Only [.evr, .recMode] s (s.onEvr f) := by
  refine .of_kept fun p => ?_
  cases p
  case records => exact .inr fun r hr => by rw [show (s.onEvr f).evr.queue = s.evr.queue from hq]; exact hr
  all_goals simp [Part.Kept, State.blk, State.tenant, State.onEvr]

theorem recordLastGasp_only (e : EvRec) : Only [.aon, .always, .evr] s (s.recordLastGasp e) := by
  have hset : Only [.aon, .always, .evr] s ((s.onAon fun a => { a with lastGasp := a.lastGasp ++ [s.stamp e] }).advanceHead) := by
    unfold State.advanceHead
    exact (onAon_only _ _).mono (by decide) |>.trans ((onAon_only _ _).mono (by decide))
  exact .ites (hset.trans ((raise_only _ _ _ _ _ _ _).mono (by decide))) hset

theorem recordDropped_only : Only [.aon, .always, .evr] s s.recordDropped := by
  have hcount (u : State) (f : Recorder → Recorder) (hq : (f u.evr).queue = u.evr.queue) (hm : (f u.evr).mode = u.evr.mode) :
      Only [.evr] u (u.onEvr f) := fun p hp => by
    cases p
    case recMode => exact hm
    case evr => simp at hp
    all_goals exact recorderMode_only u f hq _ (by decide)
  exact (onAon_only _ _).andThen (hcount _ _ rfl rfl)

/-- The recorder's fault is itself recorded in the last-gasp bank, if that has room. -/
theorem recorderMemoryFault_from {addr how : Nat} (h : s.evr.mode ≠ .lastGasp) :
    Only (.always :: lossParts) (s.onEvr fun v => { v with mode := .lastGasp }) (s.recorderMemoryFault addr how) := by
  unfold State.recorderMemoryFault
  rw [if_neg h]
  have htold := notify_only (s.onEvr fun v => { v with mode := .lastGasp }) 0 .persistentInternalError
  generalize (s.onEvr fun v => { v with mode := .lastGasp }).notify 0 .persistentInternalError = u at htold ⊢
  exact (htold.mono (by decide)).trans (.ites ((recordLastGasp_only _ _).mono (by decide)) ((recordDropped_only _).mono (by decide)))

theorem recorderMemoryFault_mode {addr how : Nat} (h : s.evr.mode ≠ .lastGasp) : (s.recorderMemoryFault addr how).evr.mode = .lastGasp :=
  recorderMemoryFault_from s h .recMode (by decide)

theorem recorderMemoryFault_only (addr how : Nat) : Only memoryParts s (s.recorderMemoryFault addr how) := by
  by_cases h : s.evr.mode = .lastGasp
  · unfold State.recorderMemoryFault
    rw [if_pos h]
    exact .refl
  · exact ((recorderMode_only s _ rfl).mono (by decide)).trans ((recorderMemoryFault_from s h).mono (by decide))

theorem memoryFails_only (m : ChipMemory) (addr : Nat) : Only memoryParts s (s.memoryFails m addr) := by
  unfold State.memoryFails
  cases m with
  | pacer cell => exact (coreFails_only _ _).mono (by decide)
  | marshal b => exact (coreFails_only _ _).mono (by decide)
  | steward g i => exact (coreFails_only _ _).mono (by decide)
  | starterPair p => exact (pairFails_only _ _).mono (by decide)
  | staging b word bad nsid zone off => exact .ites ((commitMap_only _ _ _).mono (by decide)) ((raise_only _ _ _ _ _ _ _).mono (by decide))
  | keyTable b => exact (cipherFails_only _ _ _).mono (by decide)
  | tenantState t kind => exact (tenantFault_only _ _ _).mono (by decide)
  | recorder => exact recorderMemoryFault_only _ _ _
  | shared src sub => exact (sharedFails_only _ _ _).mono (by decide)
  | fabricWord l g r => exact .refl
  | request x y o n => exact .refl

end

end Sys2Proof.Machine
end

section
/-! Errors of on-chip memories, fabric words and requests, spare rows (R39, R461-R467): the clauses of O56 about them. -/

namespace Sys2Proof.Machine

theorem trip_of_base {x y : Aon} (h : x.base = y.base) : x.trip = y.trip :=
  have hf := congrArg Aon.trip h
  hf

theorem eccUe_of_base {x y : Memory} (h : x.base = y.base) : x.eccUe = y.eccUe :=
  have hf := congrArg Memory.eccUe h
  hf

section
variable {s : State} {m : ChipMemory} {a : Nat} {b : Bool}

/-- An uncorrectable error counted and recorded, its effect still to come (R463). -/
def State.errorTold (s : State) (m : ChipMemory) (a : Nat) (b : Bool) : State :=
  (s.onMem fun k => { k with eccUe := satAdd 8 k.eccUe 1 }).raise 0x0604 (ChipMemory.place s m).1 (subParam (ChipMemory.place s m).2.2 a)
    (if b then 2 else 1) (ChipMemory.place s m).2.1 0

theorem exec_onchipUncorrectable (hr : s.running = true) (hw : ∀ l g r, m ≠ .fabricWord l g r) (hq : ∀ x y o n, m ≠ .request x y o n) :
    exec (.onchipUncorrectable m a b) s = .next ((s.errorTold m a b).memoryFails m a) := by
  have hrun : (!s.running) = false := by simp [hr]
  have hexec : exec (.onchipUncorrectable m a b) s = execOnchipUncorrectable m a b s := rfl
  rw [hexec]
  unfold execOnchipUncorrectable
  rw [hrun]
  cases m with
  | fabricWord l g r => exact absurd rfl (hw l g r)
  | request x y o n => exact absurd rfl (hq x y o n)
  | _ => rfl

theorem errorTold_only (s : State) (m : ChipMemory) (a : Nat) (b : Bool) : Only [.mem, .memBase, .evr, .aon] s (s.errorTold m a b) :=
  (onMem_only _ _).andThen (raise_only _ _ _ _ _ _ _)

theorem errorTold_eccUe (s : State) (m : ChipMemory) (a : Nat) (b : Bool) : (s.errorTold m a b).mem.eccUe = satAdd 8 s.mem.eccUe 1 :=
  congrArg Memory.eccUe (raise_only _ _ _ _ _ _ _ .mem (by decide) : (s.errorTold m a b).mem = { s.mem with eccUe := satAdd 8 s.mem.eccUe 1 })

theorem errorTold_recorded (hroom : s.roomForEvents) : Recorded s (s.errorTold m a b) 0x0604 (ChipMemory.place s m).1
    (subParam (ChipMemory.place s m).2.2 a) (if b then 2 else 1) (ChipMemory.place s m).2.1 0 :=
  recorded_raise_of hroom (onMem_only s _) (by decide) (by decide) (by decide) _ _ _ _ _

/-- The event of an error takes one entry of the arrival queue at most. -/
theorem errorTold_room (hroom : s.evr.queue.length < 223) : (s.errorTold m a b).roomForEvents := by
  have hlen := length_raise (s.onMem fun k => { k with eccUe := satAdd 8 k.eccUe 1 }) 0x0604 (ChipMemory.place s m).1
    (subParam (ChipMemory.place s m).2.2 a) (if b then 2 else 1) (ChipMemory.place s m).2.1 0
  rw [show (s.onMem fun k => { k with eccUe := satAdd 8 k.eccUe 1 }).evr = s.evr from rfl] at hlen
  unfold State.roomForEvents State.errorTold
  omega

/-- Whatever the memory, the error is counted and its event recorded (R463). -/
theorem memoryFails_counted : ((s.errorTold m a b).memoryFails m a).mem.eccUe = satAdd 8 s.mem.eccUe 1 ∧ (s.roomForEvents →
    Recorded s ((s.errorTold m a b).memoryFails m a) 0x0604 (ChipMemory.place s m).1 (subParam (ChipMemory.place s m).2.2 a) (if b then 2 else 1)
      (ChipMemory.place s m).2.1 0) := by
  have honly := memoryFails_only (s.errorTold m a b) m a
  exact ⟨(eccUe_of_base (honly .memBase (by decide))).trans (errorTold_eccUe s m a b),
    fun hroom => honly .records (by decide) _ (errorTold_recorded hroom)⟩

theorem subParam_first (a : Nat) : subParam 0 a = a % 2 ^ 24 := by
  simp [subParam]

/-- CFS on every enabled controller of the tenant (R377). -/
theorem tenantFault_cfs (s : State) (u kind c : Nat) (hen : (s.ctrl c).en = true) (ht : s.tenantOf c = u) : ((s.tenantFault u kind).ctrl c).cfs = true := by
  have hctrls : (s.tenantFault u kind).ctrls = (s.mapCtrls fun c k => if k.en && s.tenantOf c == u then { k with cfs := true } else k).ctrls :=
    raise_only _ _ _ _ _ _ _ .ctrls (by decide)
  have hval : (fun c k => if k.en && s.tenantOf c == u then { k with cfs := true } else k : Nat → Ctrl → Ctrl) c (s.ctrl c) = { s.ctrl c with cfs := true } := by
    simp [hen, ht]
  have hmap := Tbl.look_mapAll (d := ({} : Ctrl)) (f := fun c k => if k.en && s.tenantOf c == u then { k with cfs := true } else k) (t := s.ctrls) (k := c)
    (by
      intro h
      have hcfs := congrArg Ctrl.cfs (hval.symm.trans h)
      simp at hcfs)
    (by simp)
  have hlook : (s.tenantFault u kind).ctrl c = { s.ctrl c with cfs := true } := by
    unfold State.ctrl at hval ⊢
    rw [hctrls]
    exact hmap.trans hval
  rw [hlook]

theorem commitMap_zone (s : State) (zk : Nat) (f : Zone → Zone) : (s.commitMap zk f).zone zk = { f (s.zone zk) with epoch := s.store.epoch + 1 } := by
  unfold State.commitMap State.commitZone
  rw [State.zone_setZone, if_pos rfl]

/-! Spare rows (R465). -/

/-- The corrections that brought a row to its limit, counted. -/
def State.corrected (s : State) : State := s.onMem fun m => { m with eccCe := satAdd 16 m.eccCe (max 1 (s.cfg .eccCfg 0 15 8)) }

theorem exec_rowCeLimit_moves {src : BitVec 16} {sub mac row : Nat} (hr : s.running = true) (hu : Tbl.look 0 s.mem.rowsMoved mac < s.sparesAtTest mac) :
    exec (.rowCeLimit ⟨src, sub⟩ mac row) s = .next ((s.corrected.onMem fun m => { m with
      moves := satAdd 8 m.moves 1, rowsMoved := Tbl.put 0 m.rowsMoved mac (Tbl.look 0 s.mem.rowsMoved mac + 1) }).raise 0x0606 src.toNat
      (subParam sub mac) row (s.sparesAtTest mac - Tbl.look 0 s.mem.rowsMoved mac - 1) 0) := by
  simp only [exec, execRowCeLimit]
  rw [if_neg (by simp [hr])]
  exact congrArg Host.Outcome.next (if_pos hu)

theorem exec_rowCeLimit_stays {src : BitVec 16} {sub mac row : Nat} (hr : s.running = true) (hu : s.sparesAtTest mac ≤ Tbl.look 0 s.mem.rowsMoved mac) :
    exec (.rowCeLimit ⟨src, sub⟩ mac row) s = .next (s.corrected.raise 0x0607 src.toNat (subParam sub mac) row 0 0) := by
  simp only [exec, execRowCeLimit]
  rw [if_neg (by simp [hr])]
  exact congrArg Host.Outcome.next (if_neg (Nat.not_lt.mpr hu))

theorem rowCeLimit_moves {src : BitVec 16} {sub mac row : Nat} (hr : s.running = true) (hu : Tbl.look 0 s.mem.rowsMoved mac < s.sparesAtTest mac)
    (hroom : s.roomForEvents) : ∃ t, exec (.rowCeLimit ⟨src, sub⟩ mac row) s = .next t ∧
      Tbl.look 0 t.mem.rowsMoved mac = Tbl.look 0 s.mem.rowsMoved mac + 1 ∧ t.mem.moves = satAdd 8 s.mem.moves 1 ∧
      t.mem.eccCe = satAdd 16 s.mem.eccCe (max 1 (s.cfg .eccCfg 0 15 8)) ∧
      Recorded s t 0x0606 src.toNat (subParam sub mac) row (s.sparesAtTest mac - Tbl.look 0 s.mem.rowsMoved mac - 1) 0 := by
  have hmem : ((s.corrected.onMem fun m => { m with
      moves := satAdd 8 m.moves 1, rowsMoved := Tbl.put 0 m.rowsMoved mac (Tbl.look 0 s.mem.rowsMoved mac + 1) }).raise 0x0606 src.toNat
      (subParam sub mac) row (s.sparesAtTest mac - Tbl.look 0 s.mem.rowsMoved mac - 1) 0).mem = { s.mem with
      eccCe := satAdd 16 s.mem.eccCe (max 1 (s.cfg .eccCfg 0 15 8)), moves := satAdd 8 s.mem.moves 1
      rowsMoved := Tbl.put 0 s.mem.rowsMoved mac (Tbl.look 0 s.mem.rowsMoved mac + 1) } := raise_only _ _ _ _ _ _ _ .mem (by decide)
  refine ⟨_, exec_rowCeLimit_moves hr hu, ?_, ?_, ?_,
    recorded_raise_of hroom ((onMem_only s _).trans (onMem_only s.corrected _)) (by decide) (by decide) (by decide) _ _ _ _ _⟩
  · exact (congrArg (fun k : Memory => Tbl.look 0 k.rowsMoved mac) hmem).trans (Tbl.look_put_same 0 s.mem.rowsMoved mac (Tbl.look 0 s.mem.rowsMoved mac + 1))
  · rw [hmem]
  · rw [hmem]

theorem rowCeLimit_stays {src : BitVec 16} {sub mac row : Nat} (hr : s.running = true) (hu : s.sparesAtTest mac ≤ Tbl.look 0 s.mem.rowsMoved mac)
    (hroom : s.roomForEvents) : ∃ t, exec (.rowCeLimit ⟨src, sub⟩ mac row) s = .next t ∧ t.mem.rowsMoved = s.mem.rowsMoved ∧ t.mem.moves = s.mem.moves ∧
      Recorded s t 0x0607 src.toNat (subParam sub mac) row 0 0 := by
  have hmem : (s.corrected.raise 0x0607 src.toNat (subParam sub mac) row 0 0).mem = { s.mem with
      eccCe := satAdd 16 s.mem.eccCe (max 1 (s.cfg .eccCfg 0 15 8)) } := raise_only _ _ _ _ _ _ _ .mem (by decide)
  exact ⟨_, exec_rowCeLimit_stays hr hu, by rw [hmem], by rw [hmem],
    recorded_raise_of hroom (onMem_only s _) (by decide) (by decide) (by decide) _ _ _ _ _⟩

/-! The units of whole memories (R463). -/

theorem engine_out_after (s : State) (n cause : Nat) : (s.cipherFails n cause).cph.engines.getLsbD n = false := by
  match h : s.cph.engines.getLsbD n with
  | true => exact (cipherFails_cph h).1
  | false =>
    unfold State.cipherFails
    rw [if_pos h, h]

/-- The error of a memory puts its unit out of service, whether or not it was before. -/
theorem memoryFails_units (hr : s.running = true) (ht : s.aon.trip = false) (n : Nat) : ∃ t u v w,
    exec (.onchipUncorrectable (.marshal n) a b) s = .next t ∧ (t.blk n).marshalOut = true ∧
    exec (.onchipUncorrectable (.keyTable n) a b) s = .next u ∧ u.cph.engines.getLsbD n = false ∧
    exec (.onchipUncorrectable (.pacer n) a b) s = .next v ∧ hasBit (v.blk (n / 17)).cellFailed (n % 17) = true ∧
    exec (.onchipUncorrectable (.steward (n / 2) (n % 2)) a b) s = .next w ∧ hasBit (w.rgn (n / 2)).stewards (n % 2) = false := by
  have htrip (m : ChipMemory) : (s.errorTold m a b).aon.trip = false :=
    (trip_of_base (((onMem_only s _).andThen (raise_only _ _ _ _ _ _ _)) .always (by decide))).trans ht
  refine ⟨_, _, _, _, exec_onchipUncorrectable hr nofun nofun, ?_, exec_onchipUncorrectable hr nofun nofun, ?_,
    exec_onchipUncorrectable hr nofun nofun, ?_, exec_onchipUncorrectable hr nofun nofun, ?_⟩
  · exact marshal_out_after n (htrip _)
  · exact engine_out_after _ n 2
  · exact cell_out_after n (htrip _)
  · exact steward_out_after (n / 2) (n % 2) (htrip _)

end

end Sys2Proof.Machine
end

section
/-! Buffer ownership and its audit (R468-R471), units named by their source (R46, R463), and O56 itself. -/

namespace Sys2Proof.Machine

section
variable {s : State}

/-! Units named by their source identifiers. -/

theorem coreOfSource_marshal {n : Nat} (hn : n < 32) (v : Nat) : coreOfSource (srcMarshal n) v = some (.marshal n) := by
  unfold coreOfSource srcMarshal srcId
  rw [if_neg (by omega)]
  simp only [show (0 * 4096 + 1 * 1024 + n) / 1024 % 4 = 1 by omega, show (0 * 4096 + 1 * 1024 + n) % 1024 = n by omega]
  rw [if_pos hn]

theorem pairOfSource_none {src : Nat} (h : src / 4096 ≠ 0 ∨ src / 1024 ≠ 3) : pairOfSource src = none := by
  unfold pairOfSource srcStarter srcId
  rw [if_neg (by omega), if_neg (by omega)]

theorem fixedOfSource_parity {n : Nat} (hn : n < 8) (v : Nat) : fixedOfSource (srcParity n) v = some (.parity n) := by
  unfold fixedOfSource srcDecoder srcCipher srcCompress srcParity srcId
  dsimp only
  rw [if_neg (by omega), if_neg (by omega), if_neg (by omega), if_pos (by omega), show (4 * 4096 + 3 * 1024 + n) % 1024 = n by omega]

theorem coreOfSource_parity (n v : Nat) : coreOfSource (srcParity n) v = none := by
  unfold coreOfSource srcParity srcId
  rw [if_pos (by omega)]

theorem toNat_source {x : Nat} (h : x < 65536) : (BitVec.ofNat 16 x).toNat = x := by
  rw [BitVec.toNat_ofNat]
  exact Nat.mod_eq_of_lt h

theorem sharedFails_marshal {n sub : Nat} (hn : n < 32) : s.sharedFails (srcMarshal n) sub = s.coreFails (.marshal n) := by
  unfold State.sharedFails
  rw [coreOfSource_marshal hn, pairOfSource_none (.inr (by simp only [srcMarshal, srcId]; omega))]

theorem sharedFails_parity {n sub : Nat} (hn : n < 8) : s.sharedFails (srcParity n) sub = s.fixedFails (.parity n) := by
  unfold State.sharedFails
  rw [coreOfSource_parity, pairOfSource_none (.inl (by simp only [srcParity, srcId]; omega)), fixedOfSource_parity hn]

theorem sharedFails_other {src sub : Nat} (hc : coreOfSource src sub = none) (hp : pairOfSource src = none) (hf : fixedOfSource src sub = none) :
    s.sharedFails src sub = s.otherFailed src := by
  unfold State.sharedFails
  rw [hc, hp, hf]

theorem parity_out_after (n : Nat) (ht : s.aon.trip = false) : hasBit (s.fixedFails (.parity n)).cph.parityIn n = false := by
  have heq : s.fixedFails (.parity n) = s.parityFails n := by simp [State.fixedFails, ht]
  rw [heq]
  match h : hasBit s.cph.parityIn n with
  | true => exact (parityFails_parityIn h).1
  | false =>
    unfold State.parityFails
    rw [if_pos h, h]

/-- A starter pair that fails is out, and where it was the active one the standby takes over (R463, R527). -/
theorem pairFails_out {p : Nat} (ht : s.aon.trip = false) (hp : p < 2) (hroll : s.boot.roll = none)
    (hb : p = s.flt.activePair → hasBit s.flt.pairsIn (1 - p) = true) : hasBit (s.pairFails p).flt.pairsIn p = false ∧
      (s.flt.activePair = p → (s.pairFails p).flt.activePair = 1 - p) ∧
      (s.flt.activePair ≠ p → (s.pairFails p).flt.activePair = s.flt.activePair) := by
  unfold State.pairFails
  rw [if_neg (by simp [ht])]
  by_cases ha : s.flt.activePair = p
  · rw [if_pos ha]
    subst ha
    obtain ⟨hact, hout, -, -, hboot, -⟩ := takeOver_standby hp (hb rfl)
    rw [rollTakeover_none (by rw [hboot, hroll])]
    exact ⟨hout, fun _ => hact, fun h => absurd rfl h⟩
  rw [if_neg ha]
  match hin : hasBit s.flt.pairsIn p with
  | true =>
    refine ⟨?_, fun h => absurd h ha, fun _ => rfl⟩
    exact (hasBit_clearBit s.flt.pairsIn p p).trans (by simp)
  | false => exact ⟨hin, fun h => absurd h ha, fun _ => rfl⟩

/-! Buffers given and freed. -/

/-- The buffer that a handle names. -/
def State.bufOf (s : State) (handle : BitVec 32) : Buf := s.buf (bufKey (handle.toNat / 2 ^ 28) (handle.toNat / 2 ^ 8 % 2 ^ 20))

theorem exec_bufferGive (c : BitVec 16) (h : BitVec 32) (taker : BitVec 16) (hr : s.running = true) : exec (.bufferGive c h taker) s =
    .next (s.bufferOp c.toNat h.toNat true fun key s => s.updBuf key fun b => { b with owner := taker.toNat }) := by
  simp only [exec, execBufferGive, hr, if_true]

theorem exec_bufferFree (c : BitVec 16) (h : BitVec 32) (hr : s.running = true) : exec (.bufferFree c h) s =
    .next (s.bufferOp c.toNat h.toNat false fun key s => s.updBuf key Buf.free) := by
  simp only [exec, execBufferFree, hr, if_true]

section
variable {c : Nat} {h : BitVec 32} {give : Bool} {run : Nat → State → State}

theorem bufferOp_run (hu : (s.bufOf h).used = true) (ho : (s.bufOf h).owner = c) (hg : (s.bufOf h).gen = h.toNat % 256) :
    s.bufferOp c h.toNat give run = run (bufKey (h.toNat / 2 ^ 28) (h.toNat / 2 ^ 8 % 2 ^ 20)) s := by
  unfold State.bufOf at hu ho hg
  unfold State.bufferOp
  simp only [hu, ho, hg, Bool.not_true, Bool.false_eq_true, if_false, ne_eq, not_true_eq_false]

theorem bufferOp_stale (hu : (s.bufOf h).used = true) (ho : (s.bufOf h).owner = c) (hg : (s.bufOf h).gen ≠ h.toNat % 256) :
    s.bufferOp c h.toNat give run = s.onMem fun m => { m with stale := satAdd 8 m.stale 1 } := by
  unfold State.bufOf at hu ho hg
  unfold State.bufferOp
  simp only [hu, ho, Bool.not_true, Bool.false_eq_true, if_false, ne_eq, not_true_eq_false]
  rw [if_pos hg]

/-- A misuse counted for its source (R469). -/
def State.misused (s : State) (c : Nat) : State := s.onMem fun m => m.countMisuse c

theorem bufferOp_foreign (hu : (s.bufOf h).used = true) (ho : (s.bufOf h).owner ≠ c) : s.bufferOp c h.toNat give run =
    ((s.misused c).raise 0x0703 c h.toNat (s.bufOf h).owner ((s.misused c).mem.misusesOf c) (if give then 2 else 1)).misuseLimit c := by
  unfold State.bufOf at hu ho ⊢
  unfold State.bufferOp
  simp only [hu, Bool.not_true, Bool.false_eq_true, if_false]
  rw [if_pos ho]
  rfl

theorem bufferOp_double (hu : (s.bufOf h).used = false) : s.bufferOp c h.toNat give run =
    ((s.misused c).raise 0x0702 c h.toNat 0 ((s.misused c).mem.misusesOf c) 0).misuseLimit c := by
  unfold State.bufOf at hu
  unfold State.bufferOp
  simp only [hu, Bool.not_false, if_true]
  rfl

end

theorem misused_only (s : State) (c : Nat) : Only [.mem, .memBase] s (s.misused c) := onMem_only _ _

theorem misused_bufs (s : State) (c : Nat) : (s.misused c).mem.bufs = s.mem.bufs := by
  have hcount (m : Memory) : (m.countMisuse c).bufs = m.bufs := by
    unfold Memory.countMisuse
    split
    · rfl
    split <;> rfl
  exact hcount s.mem

theorem misused_misuseAt (s : State) (c : Nat) : (s.misused c).mem.misuseAt = s.mem.misuseAt := by
  have hcount (m : Memory) : (m.countMisuse c).misuseAt = m.misuseAt := by
    unfold Memory.countMisuse
    split
    · rfl
    split <;> rfl
  exact hcount s.mem

/-- A source that is no core and no starter pair is not failed for its misuses (R470). -/
theorem misuseLimit_other {src : Nat} (hc : coreOfSource src (Config.freeValue s.work.draws) = none) (hp : pairOfSource src = none) :
    s.misuseLimit src = s.draw.2 := by
  unfold State.misuseLimit
  have hdraw : s.draw.1 = Config.freeValue s.work.draws := rfl
  dsimp only
  rw [hdraw, hc, hp]
  rfl

/-- A refused give or free by such a source: its event, and nothing of the buffers (R469). -/
theorem misuse_recorded {c : Nat} (hc : coreOfSource c (Config.freeValue s.work.draws) = none) (hp : pairOfSource c = none) (hroom : s.roomForEvents)
    {code : Nat} (hcode : code / 256 ≠ 9 ∧ code / 256 ≠ 10) (x y z w : Nat) :
    (((s.misused c).raise code c x y z w).misuseLimit c).mem.bufs = s.mem.bufs ∧
      Recorded s (((s.misused c).raise code c x y z w).misuseLimit c) code c x y z w := by
  have hmis := misused_only s c
  have hraise := raise_only (s.misused c) code c x y z w
  have hrec := recorded_raise_of hroom hmis (by decide) (by decide) hcode c x y z w
  have hwork : ((s.misused c).raise code c x y z w).work = s.work := (hmis.andThen hraise) .work (by decide)
  have hbufs : ((s.misused c).raise code c x y z w).mem.bufs = s.mem.bufs :=
    (congrArg Memory.bufs (hraise .mem (by decide))).trans (misused_bufs s c)
  rw [misuseLimit_other (by rw [hwork]; exact hc) hp]
  generalize (s.misused c).raise code c x y z w = u at hrec hbufs ⊢
  exact ⟨(congrArg Memory.bufs (draw_only u .mem (by decide))).trans hbufs, draw_only u .records (by decide) _ hrec⟩

/-- A core at its limit: the one misuse that it is allowed, noted with its time (R470). -/
def State.misuseNoted (s : State) (src : Nat) : State :=
  s.draw.2.onMem fun m => { m with misuseAt := (m.misuseAt.filter fun p => decide (s.draw.2.now - p.2 < 1000000000)) ++ [(src, s.draw.2.now)] }

theorem misuseNoted_only (s : State) (src : Nat) : Only [.work, .mem, .memBase] s (s.misuseNoted src) := (draw_only _).andThen (onMem_only _ _)

theorem misuseLimit_core {src : Nat} {core : CoreId} (hc : ∀ v, coreOfSource src v = some core) (hp : pairOfSource src = none)
    (hm : s.mem.misuseAt = []) (hl : s.cfg .bpmCfg 0 23 16 ≤ 1) : s.misuseLimit src =
      (((s.misuseNoted src).raise 0x0706 src src 1 0 0).onMem fun m => { m with misuseAt := m.misuseAt.filter fun p => p.1 != src }).coreFails core := by
  have hnoted : (s.misuseNoted src).mem.misuseAt = [(src, s.draw.2.now)] := by
    change ((s.draw.2.mem.misuseAt.filter _) ++ _) = _
    rw [show s.draw.2.mem = s.mem from rfl, hm]
    rfl
  have hcount : ((s.misuseNoted src).mem.misuseAt.filter fun p => p.1 == src).length = 1 := by
    rw [hnoted]
    simp
  have hlim : max 1 ((s.misuseNoted src).cfg .bpmCfg 0 23 16) = 1 := by
    rw [cfg_congr (misuseNoted_only s src .regs (by decide))]
    omega
  unfold State.misuseLimit
  dsimp only
  rw [hc, hp]
  unfold State.misuseNoted at hcount hlim ⊢
  simp only [Option.isNone_some, Option.isNone_none, Bool.false_and, Bool.false_eq_true, if_false, hcount, hlim, Nat.lt_irrefl]

/-- A marshal that misuses a buffer past its limit is failed (R470). -/
theorem misuse_fails {b : Nat} {h : BitVec 32} (hr : s.running = true) (ht : s.aon.trip = false) (hb : b < 32) (hroom : s.evr.queue.length < 223)
    (hu : (s.bufOf h).used = false) (hm : s.mem.misuseAt = []) (hl : s.cfg .bpmCfg 0 23 16 ≤ 1) : ∃ t,
    exec (.bufferFree (BitVec.ofNat 16 (srcMarshal b)) h) s = .next t ∧ Recorded s t 0x0706 (srcMarshal b) (srcMarshal b) 1 0 0 ∧
      (t.blk b).marshalOut = true := by
  have hsrc : (BitVec.ofNat 16 (srcMarshal b)).toNat = srcMarshal b := toNat_source (by simp only [srcMarshal, srcId]; omega)
  have hpair : pairOfSource (srcMarshal b) = none := pairOfSource_none (.inr (by simp only [srcMarshal, srcId]; omega))
  have hexec := exec_bufferFree (BitVec.ofNat 16 (srcMarshal b)) h hr
  rw [hsrc, bufferOp_double hu] at hexec
  have hfirst := (misused_only s (srcMarshal b)).andThen (raise_only (s.misused (srcMarshal b)) 0x0702 (srcMarshal b) h.toNat 0
    ((s.misused (srcMarshal b)).mem.misusesOf (srcMarshal b)) 0)
  have hlen := length_raise (s.misused (srcMarshal b)) 0x0702 (srcMarshal b) h.toNat 0 ((s.misused (srcMarshal b)).mem.misusesOf (srcMarshal b)) 0
  rw [show (s.misused (srcMarshal b)).evr = s.evr from rfl] at hlen
  have hat : ((s.misused (srcMarshal b)).raise 0x0702 (srcMarshal b) h.toNat 0 ((s.misused (srcMarshal b)).mem.misusesOf (srcMarshal b)) 0).mem.misuseAt = [] :=
    (congrArg Memory.misuseAt (raise_only _ _ _ _ _ _ _ .mem (by decide))).trans ((misused_misuseAt s (srcMarshal b)).trans hm)
  generalize (s.misused (srcMarshal b)).raise 0x0702 (srcMarshal b) h.toNat 0 ((s.misused (srcMarshal b)).mem.misusesOf (srcMarshal b)) 0 = u at hexec hfirst hlen hat
  rw [misuseLimit_core (fun v => coreOfSource_marshal hb v) hpair hat (by rw [cfg_congr (hfirst .regs (by decide))]; exact hl)] at hexec
  have hnoted := misuseNoted_only u (srcMarshal b)
  have hq : (u.misuseNoted (srcMarshal b)).evr = u.evr := hnoted .evr (by decide)
  have hrec : Recorded s ((u.misuseNoted (srcMarshal b)).raise 0x0706 (srcMarshal b) (srcMarshal b) 1 0 0) 0x0706 (srcMarshal b) (srcMarshal b) 1 0 0 :=
    recorded_raise (by rw [hq]; omega) (now_of_base ((hfirst.andThen hnoted) .always (by decide))) (by decide) _ _ _ _ _
  have hdone := ((hfirst.andThen hnoted).andThen (raise_only (u.misuseNoted (srcMarshal b)) 0x0706 (srcMarshal b) (srcMarshal b) 1 0 0)).andThen
    (onMem_only _ fun m => { m with misuseAt := m.misuseAt.filter fun p => p.1 != srcMarshal b })
  have hlast : Only [.mem, .memBase] ((u.misuseNoted (srcMarshal b)).raise 0x0706 (srcMarshal b) (srcMarshal b) 1 0 0)
      (((u.misuseNoted (srcMarshal b)).raise 0x0706 (srcMarshal b) (srcMarshal b) 1 0 0).onMem fun m =>
        { m with misuseAt := m.misuseAt.filter fun p => p.1 != srcMarshal b }) := onMem_only _ _
  generalize (((u.misuseNoted (srcMarshal b)).raise 0x0706 (srcMarshal b) (srcMarshal b) 1 0 0).onMem fun m =>
        { m with misuseAt := m.misuseAt.filter fun p => p.1 != srcMarshal b }) = w at hexec hdone hlast
  refine ⟨_, hexec, ?_, marshal_out_after b ((trip_of_base (hdone .always (by decide))).trans ht)⟩
  exact (hlast.andThen (coreFails_only w (.marshal b))) .records (by decide) _ hrec

/-! The audit (R471). -/

theorem exec_bufferAudit_one {key : Nat} {b : Buf} (hr : s.running = true) (hbufs : s.mem.bufs = [(key, b)]) (hu : b.used = true) :
    exec .bufferAudit s = .next (s.auditBuf key b) := by
  simp [exec, execBufferAudit, hr, hbufs, hu, State.each]

theorem exec_bufferAudit_none (h : ∀ p ∈ s.mem.bufs, p.2.used = false) : exec .bufferAudit s = .next s := by
  have hnone : (s.mem.bufs.filter fun p => p.2.used) = [] := List.filter_eq_nil_iff.mpr fun p hp => by simp [h p hp]
  simp only [exec, execBufferAudit, hnone]
  simp [State.each]

/-- A buffer reclaimed: it is free, and counted as a leak. -/
def State.reclaimed (s : State) (key : Nat) : State := (s.draw.2.updBuf key Buf.free).onMem fun m => { m with leaks := satAdd 16 m.leaks 1 }

theorem reclaimed_only (s : State) (key : Nat) : Only [.work, .mem, .memBase] s (s.reclaimed key) :=
  ((draw_only _).andThen ((updBuf_only _ _ _).andThen (onMem_only _ _))).mono (by decide)

theorem reclaimed_buf {key : Nat} {b : Buf} (hbufs : s.mem.bufs = [(key, b)]) : (s.reclaimed key).buf key = b.free ∧
    (s.reclaimed key).mem.leaks = satAdd 16 s.mem.leaks 1 := by
  have hbuf : s.draw.2.buf key = b := by
    unfold State.buf
    rw [show s.draw.2.mem.bufs = s.mem.bufs from rfl, hbufs]
    simp [Tbl.look]
  have hset : (s.reclaimed key).buf key = (s.draw.2.updBuf key Buf.free).buf key := rfl
  rw [hset, State.updBuf_eq, State.buf_setBuf, if_pos rfl, hbuf]
  exact ⟨rfl, rfl⟩

section
variable {key cause : Nat} {b : Buf}

theorem auditBuf_reclaims (h3 : key / 1048576 ≠ 3) (hc : (if s.sourceOut b.owner then 1 else if (s.ctxAt b.tag).isNone then 2 else 0) = cause)
    (h0 : cause ≠ 0) : s.auditBuf key b = (s.reclaimed key).raise 0x0704 s.draw.1 (key / 1048576 * 2 ^ 28 + key % 1048576 * 2 ^ 8 + b.gen) b.owner cause
      ((s.now - b.atNs) / 1000000) := by
  have hc' : (if s.draw.2.sourceOut b.owner then 1 else if (s.draw.2.ctxAt b.tag).isNone then 2 else 0) = cause := hc
  unfold State.auditBuf
  dsimp only
  rw [hc', if_neg h3, if_pos h0]
  rfl

theorem auditBuf_reclaimed (hbufs : s.mem.bufs = [(key, b)]) (h3 : key / 1048576 ≠ 3)
    (hc : (if s.sourceOut b.owner then 1 else if (s.ctxAt b.tag).isNone then 2 else 0) = cause) (h0 : cause ≠ 0) (hroom : s.roomForEvents) :
    (s.auditBuf key b).buf key = b.free ∧ (s.auditBuf key b).mem.leaks = satAdd 16 s.mem.leaks 1 ∧
      Recorded s (s.auditBuf key b) 0x0704 s.draw.1 (key / 1048576 * 2 ^ 28 + key % 1048576 * 2 ^ 8 + b.gen) b.owner cause ((s.now - b.atNs) / 1000000) := by
  obtain ⟨hbuf, hleaks⟩ := reclaimed_buf hbufs
  have hrec := recorded_raise_of hroom (reclaimed_only s key) (by decide) (by decide) (code := 0x0704) (by decide) s.draw.1
    (key / 1048576 * 2 ^ 28 + key % 1048576 * 2 ^ 8 + b.gen) b.owner cause ((s.now - b.atNs) / 1000000)
  have hmem : ((s.reclaimed key).raise 0x0704 s.draw.1 (key / 1048576 * 2 ^ 28 + key % 1048576 * 2 ^ 8 + b.gen) b.owner cause
      ((s.now - b.atNs) / 1000000)).mem = (s.reclaimed key).mem := raise_only _ _ _ _ _ _ _ .mem (by decide)
  rw [auditBuf_reclaims h3 hc h0]
  refine ⟨?_, by rw [hmem, hleaks], hrec⟩
  unfold State.buf at hbuf ⊢
  rw [hmem, hbuf]

/-- A buffer that is held rightly stays; past its pool's limit it is reported. -/
theorem auditBuf_held (h3 : key / 1048576 ≠ 3) (ho : s.sourceOut b.owner = false) (ht : s.ctxAt b.tag ≠ none) (hroom : s.roomForEvents) :
    (s.auditBuf key b).mem = s.mem ∧ (holdLimitMs (key / 1048576) ≠ 0 → holdLimitMs (key / 1048576) < (s.now - b.atNs) / 1000000 →
      Recorded s (s.auditBuf key b) 0x0705 s.draw.1 (key / 1048576 * 2 ^ 28 + key % 1048576 * 2 ^ 8 + b.gen) b.owner b.tag ((s.now - b.atNs) / 1000000)) := by
  have hout : s.draw.2.sourceOut b.owner = false := ho
  have htag : (s.draw.2.ctxAt b.tag).isNone = false := by
    have hsome : (s.ctxAt b.tag).isNone = false := by
      rw [Option.isNone_eq_false_iff]
      exact Option.isSome_iff_ne_none.mpr ht
    exact hsome
  have hdraw : Only [.work] s s.draw.2 := draw_only s
  have heq : s.auditBuf key b = if holdLimitMs (key / 1048576) ≠ 0 ∧ holdLimitMs (key / 1048576) < (s.now - b.atNs) / 1000000 then
      s.draw.2.raise 0x0705 s.draw.1 (key / 1048576 * 2 ^ 28 + key % 1048576 * 2 ^ 8 + b.gen) b.owner b.tag ((s.now - b.atNs) / 1000000) else s.draw.2 := by
    unfold State.auditBuf
    dsimp only
    rw [hout, htag, if_neg h3]
    rfl
  rw [heq]
  generalize s.draw.1 = v
  generalize s.draw.2 = u at hdraw ⊢
  refine ⟨?_, fun h0 hlt => ?_⟩
  · have honly : Only [.work, .evr, .aon] s (if holdLimitMs (key / 1048576) ≠ 0 ∧ holdLimitMs (key / 1048576) < (s.now - b.atNs) / 1000000 then
        u.raise 0x0705 v (key / 1048576 * 2 ^ 28 + key % 1048576 * 2 ^ 8 + b.gen) b.owner b.tag ((s.now - b.atNs) / 1000000) else u) :=
      .thenIf (hdraw.mono (by decide)) ((raise_only _ _ _ _ _ _ _).mono (by decide))
    exact honly .mem (by decide)
  · rw [if_pos ⟨h0, hlt⟩]
    exact recorded_raise_of hroom hdraw (by decide) (by decide) (by decide) _ _ _ _ _

theorem auditBuf_stage (h3 : key / 1048576 = 3) : (s.auditBuf key b).mem = s.mem ∧ (s.auditBuf key b).evr = s.evr := by
  unfold State.auditBuf
  dsimp only
  rw [if_pos h3]
  exact ⟨rfl, rfl⟩

end

end

end Sys2Proof.Machine
end

section
/-! O56, clause by clause. -/

namespace Sys2Proof.Machine

section
variable {s : State}

/-- The reads of a source's faults go by what an error's event leaves alone. -/
theorem errorTold_keeps (s : State) (m : ChipMemory) (a : Nat) (b : Bool) : (s.errorTold m a b).flt = s.flt ∧ (s.errorTold m a b).boot = s.boot ∧
    (s.errorTold m a b).zones = s.zones ∧ (s.errorTold m a b).evr.mode = s.evr.mode ∧ (s.errorTold m a b).aon.trip = s.aon.trip ∧
    (s.errorTold m a b).ctrls = s.ctrls := by
  have h := errorTold_only s m a b
  exact ⟨h .flt (by decide), h .boot (by decide), h .zones (by decide), h .recMode (by decide),
    trip_of_base (((onMem_only _ _).andThen (raise_only _ _ _ _ _ _ _)) .always (by decide)), h .ctrls (by decide)⟩

theorem tenantState_fails {u kind a : Nat} {b : Bool} (hr : s.running = true) (hroom : s.evr.queue.length < 223) : ∃ t,
    exec (.onchipUncorrectable (.tenantState u kind) a b) s = .next t ∧ t.mem.eccUe = satAdd 8 s.mem.eccUe 1 ∧
      (∀ c, (s.ctrl c).en = true → s.tenantOf c = u → (t.ctrl c).cfs = true) ∧
      Recorded s t 0x0604 s.srcStarters (a % 2 ^ 24) (if b then 2 else 1) 8 0 ∧ Recorded s t 0x0B0C s.srcStarters u s.srcStarters kind 0 := by
  obtain ⟨hue, hrec⟩ := memoryFails_counted (s := s) (m := .tenantState u kind) (a := a) (b := b)
  have hfirst := hrec (by unfold State.roomForEvents; omega)
  obtain ⟨hflt, -, -, -, -, hctrls⟩ := errorTold_keeps s (.tenantState u kind) a b
  have htold := errorTold_room (m := .tenantState u kind) (a := a) (b := b) hroom
  have hkept := errorTold_only s (.tenantState u kind) a b
  have hnow : (s.errorTold (.tenantState u kind) a b).now = s.now :=
    now_of_base (((onMem_only _ _).andThen (raise_only _ _ _ _ _ _ _)) .always (by decide))
  refine ⟨_, exec_onchipUncorrectable hr nofun nofun, hue, fun c hen ht => ?_, ?_, ?_⟩
  · refine tenantFault_cfs _ u kind c ?_ ?_
    · simpa only [State.ctrl, hctrls] using hen
    · simpa only [State.tenantOf, State.ctrl, hctrls] using ht
  · rw [← subParam_first]
    exact hfirst
  · have hsrc : (s.errorTold (.tenantState u kind) a b).srcStarters = s.srcStarters := srcStarters_congr hflt
    have hraise := recorded_raise (s := s) (u := (s.errorTold (.tenantState u kind) a b).mapCtrls fun c k =>
      if k.en && (s.errorTold (.tenantState u kind) a b).tenantOf c == u then { k with cfs := true } else k) (by exact htold) hnow (code := 0x0B0C) (by decide)
      s.srcStarters u s.srcStarters kind 0
    rw [← hsrc] at hraise ⊢
    exact hraise

/-- A bad staging word (R463): its blocks are lost where the partner's copy is bad too, and else read from it. -/
theorem memoryFails_staging (u : State) (k w n z o a : Nat) (bad : Bool) : u.memoryFails (.staging k w bad n z o) a =
    match bad with
    | true => u.commitMap (zoneKey n z) fun z => { z with lost := z.lost ++ [(o, 1)], lostData := true }
    | false => u.raise 0x0605 (srcStaging k) (w % 2 ^ 24) (partnerBlock k) 0 0 := by
  cases bad
  · rfl
  · rfl

theorem memoryFails_starterPair (u : State) (p a : Nat) : u.memoryFails (.starterPair p) a = u.pairFails (p % 2) := rfl

theorem staging_lost {k w n z o a : Nat} {b : Bool} (hr : s.running = true) (hroom : s.roomForEvents) : ∃ t,
    exec (.onchipUncorrectable (.staging k w true n z o) a b) s = .next t ∧ (o, 1) ∈ (t.zone (zoneKey n z)).lost ∧
      (t.zone (zoneKey n z)).lostData = true ∧ t.mem.eccUe = satAdd 8 s.mem.eccUe 1 ∧
      Recorded s t 0x0604 (srcStaging k) (a % 2 ^ 24) (if b then 2 else 1) 5 0 := by
  obtain ⟨hue, hrec⟩ := memoryFails_counted (s := s) (m := .staging k w true n z o) (a := a) (b := b)
  have hzone := commitMap_zone (s.errorTold (.staging k w true n z o) a b) (zoneKey n z) fun z => { z with lost := z.lost ++ [(o, 1)], lostData := true }
  have heq : (s.errorTold (.staging k w true n z o) a b).memoryFails (.staging k w true n z o) a =
      (s.errorTold (.staging k w true n z o) a b).commitMap (zoneKey n z) fun z => { z with lost := z.lost ++ [(o, 1)], lostData := true } := memoryFails_staging _ k w n z o a true
  refine ⟨_, exec_onchipUncorrectable hr nofun nofun, ?_, ?_, hue, ?_⟩
  · rw [heq, hzone]
    exact List.mem_append_right _ (List.mem_singleton.mpr rfl)
  · rw [heq, hzone]
  · rw [← subParam_first]
    exact hrec hroom

theorem staging_copied {k w n z o a : Nat} {b : Bool} (hr : s.running = true) (hroom : s.evr.queue.length < 223) : ∃ t,
    exec (.onchipUncorrectable (.staging k w false n z o) a b) s = .next t ∧ t.zones = s.zones ∧
      Recorded s t 0x0604 (srcStaging k) (a % 2 ^ 24) (if b then 2 else 1) 5 0 ∧
      Recorded s t 0x0605 (srcStaging k) (w % 2 ^ 24) (partnerBlock k) 0 0 := by
  obtain ⟨-, hrec⟩ := memoryFails_counted (s := s) (m := .staging k w false n z o) (a := a) (b := b)
  have hfirst := hrec (by unfold State.roomForEvents; omega)
  have heq : (s.errorTold (.staging k w false n z o) a b).memoryFails (.staging k w false n z o) a =
      (s.errorTold (.staging k w false n z o) a b).raise 0x0605 (srcStaging k) (w % 2 ^ 24) (partnerBlock k) 0 0 := memoryFails_staging _ k w n z o a false
  have hnow : (s.errorTold (.staging k w false n z o) a b).now = s.now :=
    now_of_base (((onMem_only _ _).andThen (raise_only _ _ _ _ _ _ _)) .always (by decide))
  refine ⟨_, exec_onchipUncorrectable hr nofun nofun, ?_, ?_, ?_⟩
  · rw [heq]
    exact ((errorTold_only _ _ _ _).andThen (raise_only _ _ _ _ _ _ _)) .zones (by decide)
  · rw [← subParam_first]
    exact hfirst
  · rw [heq]
    exact recorded_raise (errorTold_room hroom) hnow (by decide) _ _ _ _ _

theorem request_answered {target req : BitVec 16} {outside b : Bool} {n a : Nat} (hr : s.running = true) (hroom : s.roomForEvents) : ∃ t,
    exec (.onchipUncorrectable (.request target req outside n) a b) s = .next t ∧ t.mem = s.mem ∧ t.zones = s.zones ∧ t.work = s.work ∧
      (s.busErrorCode target.toNat outside n = 0 → t = s) ∧
      (s.busErrorCode target.toNat outside n ≠ 0 →
        Recorded s t 0x0609 target.toNat (s.busErrorCode target.toNat outside n) req.toNat a 0) := by
  have hexec : exec (.onchipUncorrectable (.request target req outside n) a b) s =
      .next (s.fabricRequest target.toNat req.toNat outside n a) := by
    simp [exec, execOnchipUncorrectable, hr]
  refine ⟨_, hexec, ?_⟩
  unfold State.fabricRequest
  match s.busErrorCode target.toNat outside n with
  | 0 => exact ⟨rfl, rfl, rfl, fun _ => rfl, fun h => absurd rfl h⟩
  | k + 1 =>
    have honly := raise_only s 0x0609 target.toNat (k + 1) req.toNat a 0
    exact ⟨honly .mem (by decide), honly .zones (by decide), honly .work (by decide), fun h => absurd h (by omega),
      fun _ => recorded_raise hroom rfl (by decide) _ _ _ _ _⟩

theorem busErrorCode_staging {i : Nat} {outside : Bool} (n : Nat) (hi : i < 32) (hs : s.sourceOut (srcStaging i) = false) (ho : outside = false) :
    s.busErrorCode (srcStaging i) outside n = if n < 32 then 4 else 0 := by
  have hidx : srcStaging i % 1024 = i := by simp only [srcStaging, srcId]; omega
  have hcount : s.unitCount (srcStaging i / 1024 % 4) (srcStaging i / 4096) = 32 := by
    rw [show srcStaging i / 1024 % 4 = 1 by simp only [srcStaging, srcId]; omega, show srcStaging i / 4096 = 3 by simp only [srcStaging, srcId]; omega]
    rfl
  unfold State.busErrorCode
  rw [hcount, hidx, if_neg (by omega), hs, ho]
  simp

theorem notRunning_idle (m : ChipMemory) (src : BitVec 16) (h : BitVec 32) (a n r : Nat) (b : Bool) (hr : s.running = false) :
    exec (.onchipUncorrectable m a b) s = .next s ∧ exec (.rowCeLimit ⟨src, n⟩ a r) s = .next s ∧ exec (.scrubPassLate n r) s = .next s ∧
      exec (.bufferGive src h src) s = .next s ∧ exec (.bufferFree src h) s = .next s ∧ exec .bufferAudit s = .next s := by
  simp [exec, execOnchipUncorrectable, execRowCeLimit, execScrubPassLate, execBufferGive, execBufferFree, execBufferAudit, hr]

end

/-- Settles O56: an error is counted and recorded before its effect, which keeps both; buffers move only in the hands of their owners. -/
theorem onChipMemoriesAndBuffers : Obligations.OnChipMemoriesAndBuffers := by
  unfold Obligations.OnChipMemoriesAndBuffers
  refine ⟨fun u kind a b s hr hroom => tenantState_fails hr hroom, fun k w n z o a b s hr hroom => staging_lost hr hroom,
    fun k w n z o a b s hr hroom => staging_copied hr hroom, fun src sub mac row s hr hu hroom => rowCeLimit_moves hr hu hroom,
    fun src sub mac row s hr hu hroom => rowCeLimit_stays hr hu hroom, ?_, fun a n b s hr ht => memoryFails_units hr ht n, ?_, ?_, ?_, ?_, ?_, ?_,
    fun target req outside b n a s hr hroom => request_answered hr hroom, fun i outside n s hi hs ho => busErrorCode_staging n hi hs ho, ?_, ?_, ?_, ?_, ?_,
    fun b h s hr ht hb hroom hu hm hl => misuse_fails hr ht hb hroom hu hm hl, ?_, ?_, fun s h => exec_bufferAudit_none h, ?_,
    fun m src h a n r b s hr => notRunning_idle m src h a n r b hr⟩
  case refine_1 =>
    intro m a b s hr hroom hw hq
    obtain ⟨hue, hrec⟩ := memoryFails_counted (s := s) (m := m) (a := a) (b := b)
    exact ⟨_, exec_onchipUncorrectable hr hw hq, hue, hrec hroom⟩
  case refine_2 =>
    intro a p b s hr ht hp hroll hb
    obtain ⟨hflt, hboot, -, -, htrip, -⟩ := errorTold_keeps s (.starterPair p) a b
    have hout := pairFails_out (s := s.errorTold (.starterPair p) a b) (p := p) (by rw [htrip, ht]) hp (by rw [hboot, hroll]) (by rw [hflt]; exact hb)
    have heq : (s.errorTold (.starterPair p) a b).memoryFails (.starterPair p) a = (s.errorTold (.starterPair p) a b).pairFails p := by
      rw [memoryFails_starterPair, Nat.mod_eq_of_lt hp]
    rw [hflt] at hout
    refine ⟨_, exec_onchipUncorrectable hr nofun nofun, ?_⟩
    rw [heq]
    exact hout
  case refine_3 =>
    intro a b s hr hm
    obtain ⟨-, -, -, hmode, -, -⟩ := errorTold_keeps s .recorder a b
    exact ⟨_, exec_onchipUncorrectable hr nofun nofun, recorderMemoryFault_mode _ (by rw [hmode]; exact hm)⟩
  case refine_4 =>
    intro a sub b src s hr ht hc hp hf
    obtain ⟨hflt, -⟩ := errorTold_keeps s (.shared src sub) a b
    have heq : (s.errorTold (.shared src sub) a b).memoryFails (.shared src sub) a = (s.errorTold (.shared src sub) a b).otherFailed src.toNat :=
      sharedFails_other hc hp hf
    refine ⟨_, exec_onchipUncorrectable hr nofun nofun, ?_⟩
    rw [heq, ← hflt]
    exact ⟨rfl, rfl⟩
  case refine_5 =>
    intro a n b s hr ht
    have htrip (m : ChipMemory) : (s.errorTold m a b).aon.trip = false := by
      obtain ⟨-, -, -, -, htrip, -⟩ := errorTold_keeps s m a b
      rw [htrip, ht]
    refine ⟨_, _, fun hn => ⟨exec_onchipUncorrectable hr nofun nofun, ?_⟩, fun hn => ⟨exec_onchipUncorrectable hr nofun nofun, ?_⟩⟩
    · change (((State.errorTold s _ a b).sharedFails (BitVec.ofNat 16 (srcMarshal n)).toNat 0).blk n).marshalOut = true
      rw [toNat_source (by simp only [srcMarshal, srcId]; omega), sharedFails_marshal hn]
      exact marshal_out_after n (htrip _)
    · change hasBit ((State.errorTold s _ a b).sharedFails (BitVec.ofNat 16 (srcParity n)).toNat 0).cph.parityIn n = false
      rw [toNat_source (by simp only [srcParity, srcId]; omega), sharedFails_parity hn]
      exact parity_out_after n (htrip _)
  case refine_6 =>
    intro l a sender b s
    simp [exec, execOnchipUncorrectable, State.fabricCrc]
  case refine_7 =>
    intro l a sender b s hr hroom
    have hexec : exec (.onchipUncorrectable (.fabricWord l sender true) a b) s = .next (s.raise 0x0608 sender.toNat (l % 2 ^ 24) sender.toNat 0 0) := by
      simp [exec, execOnchipUncorrectable, State.fabricCrc, hr]
    have honly := raise_only s 0x0608 sender.toNat (l % 2 ^ 24) sender.toNat 0 0
    exact ⟨_, hexec, recorded_raise hroom rfl (by decide) _ _ _ _ _, honly .mem (by decide), honly .out (by decide)⟩
  case refine_8 =>
    intro kind ms s hr hroom
    have honly := raise_only s 0x060A srcScrubber (kind % 2 ^ 24) ms 0 0
    exact ⟨_, by simp only [exec, execScrubPassLate, hr, if_true], recorded_raise hroom rfl (by decide) _ _ _ _ _, honly .mem (by decide),
      honly .out (by decide)⟩
  case refine_9 =>
    intro c h taker s hr hu ho hg
    have hgive := exec_bufferGive c h taker hr
    have hfree := exec_bufferFree c h hr
    rw [bufferOp_run hu ho hg] at hgive hfree
    refine ⟨_, _, hgive, ?_, rfl, hfree, ?_, ?_, rfl⟩
    · rw [State.updBuf_eq, State.buf_setBuf, if_pos rfl]
    · rw [State.updBuf_eq, State.buf_setBuf, if_pos rfl]
      rfl
    · rw [State.updBuf_eq, State.buf_setBuf, if_pos rfl, ← hg]
      rfl
  case refine_10 =>
    intro c h taker s hr hu ho hg
    refine ⟨_, exec_bufferGive c h taker hr, ?_⟩
    rw [exec_bufferFree c h hr, bufferOp_stale hu ho hg, bufferOp_stale hu ho hg]
    exact ⟨rfl, rfl, rfl, rfl⟩
  case refine_11 =>
    intro c h taker s hr hroom hc hp hu ho
    have hexec := exec_bufferGive c h taker hr
    have hexec' := exec_bufferFree c h hr
    rw [bufferOp_foreign hu ho] at hexec hexec'
    obtain ⟨hgive, hgiven⟩ := misuse_recorded hc hp hroom (code := 0x0703) (by decide) h.toNat (s.bufOf h).owner
      ((s.misused c.toNat).mem.misusesOf c.toNat) 2
    obtain ⟨hfree, hfreed⟩ := misuse_recorded hc hp hroom (code := 0x0703) (by decide) h.toNat (s.bufOf h).owner
      ((s.misused c.toNat).mem.misusesOf c.toNat) 1
    exact ⟨_, _, _, hexec, hgive, hgiven, hexec', hfree, hfreed⟩
  case refine_12 =>
    intro c h s hr hroom hc hp hu
    refine ⟨_, (s.misused c.toNat).mem.misusesOf c.toNat, exec_bufferFree c h hr, ?_⟩
    rw [exec_bufferGive c h c hr, bufferOp_double hu, bufferOp_double hu]
    obtain ⟨hbufs, hrec⟩ := misuse_recorded hc hp hroom (code := 0x0702) (by decide) h.toNat 0 ((s.misused c.toNat).mem.misusesOf c.toNat) 0
    exact ⟨hbufs, hrec, rfl⟩
  case refine_13 =>
    intro key b s hr hbufs hu h3 ho hroom
    exact ⟨_, _, _, exec_bufferAudit_one hr hbufs hu, auditBuf_reclaimed hbufs h3 (if_pos ho) (by decide) hroom⟩
  case refine_14 =>
    intro key b s hr hbufs hu h3 ho hroom
    refine ⟨_, s.draw.1, exec_bufferAudit_one hr hbufs hu, fun htag => ?_, fun htag => auditBuf_held h3 ho htag hroom⟩
    exact auditBuf_reclaimed hbufs h3 (by rw [ho, htag]; rfl) (by decide) hroom
  case refine_15 =>
    intro key b s hr hbufs hu h3
    exact ⟨_, exec_bufferAudit_one hr hbufs hu, auditBuf_stage h3⟩

end Sys2Proof.Machine
end

section
/-! The Warm-up steps as O57 speaks of them (R55-R57): when a step runs, the bit and the holds it leaves, and the first three steps. -/

namespace Sys2Proof.Machine

section
variable {s t u : State} {k : Nat} {r : WarmupReport}

/-! Steps that run. -/

theorem stepReady_facts (h : s.stepReady k = true) : s.power.mode = .warmup ∧ (1 ≤ k ∧ k ≤ 13) ∧ s.stepComplete k = false := by
  simp only [State.stepReady, Bool.and_eq_true, beq_iff_eq, decide_eq_true_eq, Bool.not_eq_true'] at h
  obtain ⟨⟨⟨⟨⟨⟨⟨-, hmode⟩, hk⟩, hopen⟩, -⟩, -⟩, -⟩, -⟩ := h
  exact ⟨hmode, hk, hopen⟩

theorem lastReady_of_ne (hk : k ≠ 13) : s.lastReady k = false := by simp [State.lastReady, hk]

theorem exec_warmupStepDone (h : s.stepReady k = true) (hk : k ≠ 13) : exec (.warmupStepDone k r) s = .next (s.warmupStep k r) := by
  simp [exec, execWarmupStepDone, lastReady_of_ne hk, h]

/-! Its bit in CHIP_WARMUP. -/

theorem stepComplete_congr (h : t.power.stepDone = s.power.stepDone) (k : Nat) : t.stepComplete k = s.stepComplete k := by
  simp only [State.stepComplete, h]

theorem markStep_power (s : State) (k : Nat) : (s.markStep k).power.stepDone = setBit s.power.stepDone (k - 1) ∧
    (s.markStep k).power.mode = s.power.mode ∧ (s.markStep k).power.holds = s.power.holds ∧ (s.markStep k).power.t0 = s.power.t0 := by
  unfold State.markStep
  dsimp only
  split <;> exact ⟨rfl, rfl, rfl, rfl⟩

theorem markStep_only (s : State) (k : Nat) : Only [.power, .powerBase, .landCause] s (s.markStep k) :=
  (onPower_only _ _).trans (.ite (onPower_only _ _))

theorem stepComplete_markStep (s : State) (hk : 1 ≤ k ∧ k ≤ 13) : (s.markStep k).stepComplete k = true := by
  have h := hasBit_setBit s.power.stepDone (k - 1) (k - 1)
  rw [hasBit] at h
  rw [State.stepComplete, (markStep_power s k).1, h]
  simp only [Bool.or_eq_true, decide_eq_true_eq]
  exact .inr ⟨by omega, trivial⟩

/-- A step that leaves the power state as its completion made it is complete. -/
theorem stepComplete_of_marked (hk : 1 ≤ k ∧ k ≤ 13) (h : t.power.stepDone = (s.markStep k).power.stepDone) : t.stepComplete k = true :=
  (stepComplete_congr h k).trans (stepComplete_markStep s hk)

/-! Holds. -/

theorem addHold_only (s : State) (c : Nat) : Only [.power, .powerBase, .landCause] s (s.addHold c) := onPower_only _ _

theorem addHold_stepDone (s : State) (c : Nat) : (s.addHold c).power.stepDone = s.power.stepDone := rfl

theorem mem_holds_addHold (s : State) (c d : Nat) : d ∈ (s.addHold c).power.holds ↔ d ∈ s.power.holds ∨ d = c := by
  simp only [State.addHold, State.onPower_fields]
  split
  · rename_i h
    exact ⟨.inl, fun hd => hd.elim id fun hc => hc ▸ (by simpa using h)⟩
  · simp

theorem shown_hold (s : State) (c : Nat) : c ∈ (s.addHold c).power.holds := (mem_holds_addHold s c c).2 (.inr rfl)

theorem shortAt_only (s : State) (item step : Nat) : Only [.power, .powerBase, .landCause, .evr, .aon] s (s.shortAt item step) :=
  ((raise_only _ _ _ _ _ _ _).andThen (addHold_only _ _)).mono (by decide)

theorem shortAt_holds (s : State) (item step : Nat) : 4 ∈ (s.shortAt item step).power.holds :=
  shown_hold _ 4

theorem shortAt_power (s : State) (item step : Nat) : (s.shortAt item step).power.stepDone = s.power.stepDone ∧
    (s.shortAt item step).power.mode = s.power.mode := by
  simp [State.shortAt, State.addHold, State.raiseMissing]

/-! Steps 1 and 9. -/

theorem avsNext_power (s : State) : s.avsNext.power.stepDone = s.power.stepDone ∧ s.avsNext.power.mode = s.power.mode := by
  unfold State.avsNext
  dsimp only
  split <;> exact ⟨rfl, rfl⟩

theorem avsNext_only (s : State) : Only [.power, .powerBase, .landCause] s s.avsNext := .ites .refl (onPower_only _ _)

theorem avsRetarget_power (s : State) : s.avsRetarget.power.stepDone = s.power.stepDone ∧ s.avsRetarget.power.mode = s.power.mode := by
  unfold State.avsRetarget
  split
  · exact ⟨rfl, rfl⟩
  · split
    · exact avsNext_power _
    · exact avsNext_power _

theorem avsRetarget_only (s : State) : Only [.power, .powerBase, .landCause, .work] s s.avsRetarget :=
  .ites .refl (.ites (((onPower_only _ _).trans (avsNext_only _)).mono (by decide))
    (((draw_only s).andThen ((onPower_only _ _).trans (avsNext_only _))).mono (by decide)))

/-- The bank-independent steps 1 and 9 (R55). -/
theorem warmupStep_plain (r : WarmupReport) (hk : k = 1 ∨ k = 9) : (s.warmupStep k r).power.stepDone = (s.markStep k).power.stepDone ∧
    (s.warmupStep k r).power.mode = s.power.mode ∧ Only [.power, .powerBase, .landCause, .work] s (s.warmupStep k r) := by
  rcases hk with rfl | rfl
  · obtain ⟨hdone, hmode⟩ := avsRetarget_power (s.markStep 1)
    exact ⟨hdone, hmode.trans (markStep_power s 1).2.1, ((markStep_only s 1).andThen (avsRetarget_only _)).mono (by decide)⟩
  · exact ⟨rfl, (markStep_power s 9).2.1, (markStep_only s 9).mono (by decide)⟩

/-! Step 2. -/

theorem boot_raise (s : State) (code src a b c d : Nat) : (s.raise code src a b c d).boot = s.boot := raise_only s _ _ _ _ _ _ .boot (by decide)

theorem power_raise (s : State) (code src a b c d : Nat) : (s.raise code src a b c d).power = s.power := raise_only s _ _ _ _ _ _ .power (by decide)

theorem storeRead_held (s : State) (n : Nat) : (s.storeRead n).boot.ledgerFull = s.boot.ledgerFull := by
  unfold State.storeRead
  dsimp only
  split <;> rfl

/-- The bank that the header names is taken when its image is sound (R482). -/
theorem chooseBank_named {x : Image} (hst : (s.boot.bank s.boot.selector).st = .valid) (him : (s.boot.bank s.boot.selector).image = some x)
    (hc : s.imageCause x = 0) : s.chooseBank = ((s.storeRead x.length).onBoot fun b => { b with booted := s.boot.selector, running := some x }).raise
      0x0C01 s.srcStarters s.boot.selector x.svn x.starter.version ((s.now - s.power.t0) / 1000000) := by
  have htry : s.tryBanks [s.boot.selector, 1 - s.boot.selector] = (some (s.boot.selector, x), s) := by
    unfold State.tryBanks
    simp only [hst, him, hc, if_true]
  unfold State.chooseBank
  rw [htry]

theorem tryBanks_none {s : State} {l : List Nat} (h : ∀ k, (s.boot.bank k).st ≠ .valid) : s.tryBanks l = (none, s) := by
  induction l with
  | nil => rfl
  | cons k ks ih =>
    unfold State.tryBanks
    split
    · rename_i hst _
      exact absurd hst (h k)
    · exact ih

theorem warmup2_named {x : Image} (hst : (s.boot.bank s.boot.selector).st = .valid) (him : (s.boot.bank s.boot.selector).image = some x)
    (hc : s.imageCause x = 0) (hroom : s.roomForEvents) : s.warmup2.power.stepDone = (s.markStep 2).power.stepDone ∧
    s.warmup2.boot.running = some x ∧ s.warmup2.boot.booted = s.boot.selector ∧
    (2 ∈ s.warmup2.power.holds ↔ 2 ∈ s.power.holds ∨ (x.strict = true ∧ s.boot.ledgerFull = true)) ∧
    Recorded s s.warmup2 0x0C01 s.srcStarters s.boot.selector x.svn x.starter.version ((s.now - s.power.t0) / 1000000) := by
  obtain ⟨hdone, -, hholds, ht0⟩ := markStep_power s 2
  have hmark := markStep_only s 2
  have hnow : (s.markStep 2).now = s.now := now_of_base (hmark .always (by decide))
  have hboot : (s.markStep 2).boot = s.boot := hmark .boot (by decide)
  have hstep : (s.markStep 2).step = s.step := hmark .step (by decide)
  have hchoice := chooseBank_named (s := s.markStep 2) (x := x) (by rw [hboot]; exact hst) (by rw [hboot]; exact him)
    (by rw [← hc]; simp only [State.imageCause, hboot, hstep])
  rw [srcStarters_congr (hmark .flt (by decide)), hboot, hnow, ht0] at hchoice
  have hpre : Only [.power, .powerBase, .landCause, .boot] s (((s.markStep 2).storeRead x.length).onBoot fun b =>
      { b with booted := s.boot.selector, running := some x }) :=
    (hmark.andThen ((storeRead_only _ _).andThen (onBoot_only _ _))).mono (by decide)
  have hrec := recorded_raise_of hroom hpre (by decide) (by decide) (code := 0x0C01) ⟨by decide, by decide⟩ s.srcStarters s.boot.selector x.svn
    x.starter.version ((s.now - s.power.t0) / 1000000)
  have hfull : (((s.markStep 2).storeRead x.length).onBoot fun b => { b with booted := s.boot.selector, running := some x }).boot.ledgerFull =
      s.boot.ledgerFull := (storeRead_held _ _).trans (congrArg BootStore.ledgerFull hboot)
  have hpower : (((s.markStep 2).storeRead x.length).onBoot fun b => { b with booted := s.boot.selector, running := some x }).power =
      (s.markStep 2).power := storeRead_only _ _ .power (by decide)
  have heq : s.warmup2 = if (s.markStep 2).chooseBank.strictLedger && (s.markStep 2).chooseBank.boot.ledgerFull then (s.markStep 2).chooseBank.addHold 2
    else (s.markStep 2).chooseBank := rfl
  rw [hchoice] at heq
  have hstrict : ((((s.markStep 2).storeRead x.length).onBoot fun b => { b with booted := s.boot.selector, running := some x }).raise 0x0C01
      s.srcStarters s.boot.selector x.svn x.starter.version ((s.now - s.power.t0) / 1000000)).strictLedger = x.strict := by
    simp [State.strictLedger]
  rw [hstrict, boot_raise, hfull] at heq
  rw [heq]
  split
  · rename_i hc
    refine ⟨?_, ?_, ?_, ?_, hrec⟩
    · rw [addHold_stepDone, power_raise, hpower]
    · simp [State.addHold]
    · simp [State.addHold]
    · exact iff_of_true (shown_hold _ 2) (.inr (by simpa using hc))
  · rename_i hc
    refine ⟨?_, ?_, ?_, ?_, hrec⟩
    · rw [power_raise, hpower]
    · simp
    · simp
    · rw [power_raise, hpower, hholds]
      simpa using fun h1 h2 => absurd (by simp [h1, h2]) hc

/-- With no valid bank step 2 holds with cause 0x03 (R57, R482). -/
theorem warmup2_none (h0 : s.boot.bank0.st ≠ .valid) (h1 : s.boot.bank1.st ≠ .valid) (hrun : s.boot.running = none) :
    3 ∈ s.warmup2.power.holds ∧ Only [.power, .powerBase, .landCause] s s.warmup2 := by
  have hmark := markStep_only s 2
  have hboot : (s.markStep 2).boot = s.boot := hmark .boot (by decide)
  have hbank (k : Nat) : ((s.markStep 2).boot.bank k).st ≠ .valid := by
    rw [hboot, BootStore.bank]
    split
    · exact h0
    · exact h1
  have hchoice : (s.markStep 2).chooseBank = (s.markStep 2).onPower fun p => { p with holds := p.holds ++ [3] } := by
    unfold State.chooseBank
    rw [tryBanks_none hbank]
  have hnot : (s.markStep 2).chooseBank.strictLedger = false := by
    rw [hchoice]
    simp [State.strictLedger, hboot, hrun]
  have heq : s.warmup2 = (s.markStep 2).onPower fun p => { p with holds := p.holds ++ [3] } := by
    unfold State.warmup2
    dsimp only
    rw [hnot, Bool.false_and, if_neg Bool.false_ne_true, hchoice]
  rw [heq]
  exact ⟨List.mem_append_right _ (.head _), hmark.trans (onPower_only _ _)⟩

/-! Step 3. -/

/-- The boot's entry appended to a ledger whose next sector is erased (R490). -/
theorem appendBootEntry_stored (hf : s.boot.ledgerFull = false) (he : s.boot.erasedAhead = true) :
    s.appendBootEntry = s.storeEntry (s.newEntry 1) := by
  unfold State.appendBootEntry
  simp [hf, he]

/-- The boot's entry held until its sector is erased (R490). -/
theorem appendBootEntry_held (hf : s.boot.ledgerFull = false) (he : s.boot.erasedAhead = false) (ha : s.boot.aheadErasable = true) :
    s.appendBootEntry = s.onBoot fun b => { b with heldEntry := some (s.newEntry 1) } := by
  unfold State.appendBootEntry
  simp [hf, he, ha]

/-- A full ledger misses the boot's entry (R491). -/
theorem appendBootEntry_missed (hf : s.boot.ledgerFull = true) : s.appendBootEntry = s.missEntry := by
  unfold State.appendBootEntry
  simp [hf]

theorem missEntry_boot (s : State) : s.missEntry.boot.ledger = s.boot.ledger ∧ s.missEntry.boot.heldEntry = s.boot.heldEntry ∧
    s.missEntry.power = s.power := by
  unfold State.missEntry
  dsimp only
  rw [boot_raise, power_raise]
  exact ⟨rfl, rfl, rfl⟩

theorem newEntry_boot (s : State) : (s.newEntry 1).reason = 1 ∧ (s.newEntry 1).bootSeq = (s.newEntry 1).seq := ⟨rfl, rfl⟩

theorem storeEntry_boot (s : State) (e : LedgerEntry) : (s.storeEntry e).boot.ledger = s.boot.ledger ++ [e] ∧
    (s.storeEntry e).boot.seqNew = max s.boot.seqNew e.seq ∧ (s.storeEntry e).boot.heldEntry = s.boot.heldEntry ∧
    (s.storeEntry e).power = s.power := ⟨rfl, rfl, rfl, rfl⟩

end

end Sys2Proof.Machine
end

section
/-! Warm-up steps 4, 6 and 7 (R403, R428, R449-R451, R532): the fixed loops, DRAM training and its verdicts, and the lanes' request for training. -/

namespace Sys2Proof.Machine

section
variable {s t u : State} {k : Nat} {r : WarmupReport}

theorem chan_congr (h : t.mem = s.mem) (n : Nat) : t.chan n = s.chan n := by simp only [State.chan, h]

theorem loop_congr (h : t.loops = s.loops) (n : Nat) : t.loop n = s.loop n := by simp only [State.loop, h]

/-! Batons asked for. -/

/-- A request of the broker that no burst makes is asked for once (R392). -/
theorem requestBaton_plain {op : HeavyOp} (h : ∀ c, op ≠ .burst c) (s : State) : ∃ q : Baton, q.op = op ∧
    s.requestBaton op = if s.broker.knows op then s else s.onBroker fun b => { b with waiting := b.waiting ++ [q] } := by
  cases op with
  | burst c => exact absurd rfl (h c)
  | lane n => exact ⟨_, rfl, rfl⟩
  | program n d => exact ⟨_, rfl, rfl⟩
  | erase n d => exact ⟨_, rfl, rfl⟩
  | softDecode b i => exact ⟨_, rfl, rfl⟩
  | dram c => exact ⟨_, rfl, rfl⟩

theorem requestBaton_asked {op : HeavyOp} (h : ∀ c, op ≠ .burst c) (s : State) : (s.requestBaton op).broker.knows op = true := by
  obtain ⟨q, hq, heq⟩ := requestBaton_plain h s
  rw [heq]
  split
  case isTrue hk => exact hk
  case isFalse hk => simp [State.onBroker, Broker.knows, hq]

theorem requestBaton_keeps {op : HeavyOp} (h : s.broker.knows op = true) {op' : HeavyOp} (h' : ∀ c, op' ≠ .burst c) :
    (s.requestBaton op').broker.knows op = true := by
  obtain ⟨q, -, heq⟩ := requestBaton_plain h' s
  rw [heq]
  split
  · exact h
  · simp only [Broker.knows, Bool.or_eq_true, List.any_append, State.onBroker] at h ⊢
    exact h.imp_right .inl

/-! Loops that run. -/

/-- A loop that runs goes on running from `s` to `t`. -/
def LoopsKept (s t : State) : Prop := ∀ j, (s.loop j).running = true → (t.loop j).running = true

theorem LoopsKept.trans (h : LoopsKept s t) (g : LoopsKept t u) : LoopsKept s u := fun j hj => g j (h j hj)

theorem LoopsKept.of_loops (h : t.loops = s.loops) : LoopsKept s t := fun j hj => (congrArg Loop.running (loop_congr h j)).trans hj

theorem LoopsKept.updLoop (s : State) (n : Nat) {f : Loop → Loop} (hf : ∀ l, l.running = true → (f l).running = true) :
    LoopsKept s (s.updLoop n f) := by
  intro j hj
  rw [State.updLoop_eq, State.loop_setLoop]
  split
  · rename_i h
    exact hf _ (h ▸ hj)
  · exact hj

theorem applyLoop_loops (s : State) (k : Nat) : LoopsKept s (s.applyLoop k) := by
  unfold State.applyLoop
  dsimp only
  split
  · obtain ⟨x, m, h⟩ := s.setBudget_eq (s.loop k).out
    exact .of_loops (by rw [h])
  · exact .updLoop _ _ fun _ h => h
  · exact .updLoop _ _ fun _ h => h
  · exact .of_loops rfl

theorem applyLoop_only (s : State) (k : Nat) : Only [.loops, .broker, .tmk, .tmkBase] s (s.applyLoop k) := by
  unfold State.applyLoop
  dsimp only
  split
  · obtain ⟨x, m, h⟩ := s.setBudget_eq (s.loop k).out
    rw [h]
    exact .of_kept fun p => by cases p <;> simp [Part.Kept, State.blk, State.tenant]
  · exact (setLoop_only _ _ _).mono (by decide)
  · exact (setLoop_only _ _ _).mono (by decide)
  · exact .refl

theorem startLoop_loops (s : State) (k : Nat) : LoopsKept s (s.startLoop k) := .updLoop _ _ fun _ _ => rfl

theorem startLoop_running (s : State) (k : Nat) : ((s.startLoop k).loop k).running = true := by
  unfold State.startLoop
  rw [State.updLoop_eq, State.loop_setLoop, if_pos rfl]

/-- A loop that starts runs, and those that ran run on (R403). -/
theorem startedLoop (s : State) (k : Nat) : (((s.startLoop k).applyLoop k).loop k).running = true ∧ LoopsKept s ((s.startLoop k).applyLoop k) :=
  ⟨applyLoop_loops _ k k (startLoop_running s k), (startLoop_loops s k).trans (applyLoop_loops _ k)⟩

theorem startFixedLoops_running (s : State) (hk : k < 4) : (s.startFixedLoops.loop k).running = true := by
  simp only [State.startFixedLoops, State.each_cons, State.each_nil]
  generalize h0 : (s.startLoop 0).applyLoop 0 = s0
  generalize h1 : (s0.startLoop 1).applyLoop 1 = s1
  generalize h2 : (s1.startLoop 2).applyLoop 2 = s2
  obtain ⟨r0, -⟩ := h0 ▸ startedLoop s 0
  obtain ⟨r1, k1⟩ := h1 ▸ startedLoop s0 1
  obtain ⟨r2, k2⟩ := h2 ▸ startedLoop s1 2
  obtain ⟨r3, k3⟩ := startedLoop s2 3
  match k, hk with
  | 0, _ => exact k3 0 (k2 0 (k1 0 r0))
  | 1, _ => exact k3 1 (k2 1 r1)
  | 2, _ => exact k3 2 r2
  | 3, _ => exact r3

theorem startFixedLoops_only (s : State) : Only [.loops, .broker, .tmk, .tmkBase] s s.startFixedLoops :=
  .each fun k v => ((setLoop_only v k _).mono (by decide)).trans (applyLoop_only _ _)

/-! Step 4. -/

theorem divideDram_only (s : State) : Only [.mem, .memBase, .evr, .aon] s s.divideDram := by
  unfold State.divideDram
  dsimp only
  exact Only.thenIf ((onMem_only _ _).mono (by decide)) ((raise_only _ _ _ _ _ _ _).mono (by decide))

theorem powerDomains_only (s : State) (w : BitVec 64) : Only [.aon, .always] s (s.powerDomains w) := onAon_only _ _

theorem releasePads_only (s : State) (w : BitVec 64) : Only [.aon, .always] s (s.releasePads w) := onAon_only _ _

/-- What the start of charging or its end can touch (R409). -/
def chargeParts : List Part := [.bank, .aon, .always, .evr, .loops]

theorem raiseBank_only (s : State) (code a b c : Nat) : Only [.evr, .aon] s (s.raiseBank code a b c) := raise_only _ _ _ _ _ _ _

theorem driveIso_only (s : State) : Only [.aon, .always] s s.driveIso := onAon_only _ _

theorem refreshCharging_only (s : State) : Only chargeParts s s.refreshCharging := by
  unfold State.refreshCharging
  split
  · exact .refl
  · split
    · exact Only.trans (Only.trans ((onBank_only _ _).andThen (onAon_only _ _) |>.mono (by decide)) ((raiseBank_only _ _ _ _ _).mono (by decide)))
        ((driveIso_only _).mono (by decide))
    · exact Only.trans ((onBank_only _ _).andThen (setLoop_only _ _ _) |>.mono (by decide)) ((driveIso_only _).mono (by decide))

theorem refreshCharging_loops (s : State) : LoopsKept s s.refreshCharging := by
  unfold State.refreshCharging
  split
  · exact .of_loops rfl
  · split
    · refine .of_loops ?_
      rw [driveIso_only _ .loops (by decide), raiseBank_only _ _ _ _ _ .loops (by decide)]
      rfl
    · have hbank : LoopsKept s (s.onBank fun b => { b with charging := false, since := none }) := .of_loops rfl
      refine hbank.trans (LoopsKept.trans (LoopsKept.updLoop _ 1 ?_) (.of_loops (driveIso_only _ .loops (by decide))))
      exact fun _ h => h

/-- A channel in training that asks for its baton (R451). -/
def State.trainChan (s : State) (c : Nat) : State := (s.updChan c fun x => { x with st := .training, since := s.now }).requestBaton (.dram c)

theorem setChan_only (s : State) (c : Nat) (v : Chan) : Only [.mem, .memBase] s (s.setChan c v) := onMem_only _ _

theorem trainChan_only (s : State) (c : Nat) : Only [.mem, .memBase, .broker] s (s.trainChan c) :=
  ((setChan_only _ _ _).andThen (requestBaton_only _ _)).mono (by decide)

theorem trainChan_chan (s : State) (c d : Nat) : ((s.trainChan c).chan d).st = if d = c then .training else (s.chan d).st := by
  unfold State.trainChan
  rw [chan_congr (requestBaton_only _ _ .mem (by decide)), State.updChan_eq, State.chan_setChan]
  split <;> rfl

theorem trainChan_asks (s : State) (c : Nat) : (s.trainChan c).broker.knows (.dram c) = true := requestBaton_asked (fun _ => by simp) _

theorem trainChan_keeps {op : HeavyOp} (h : s.broker.knows op = true) (c : Nat) : (s.trainChan c).broker.knows op = true :=
  requestBaton_keeps (s := s.updChan c fun x => { x with st := .training, since := s.now }) h fun _ => by simp

theorem startDram_eq (s : State) : s.startDram = (((s.powerDomains (domainBit 40)).releasePads (domainBit 40)).trainChan 0).trainChan 1 := rfl

theorem startDram_trains (s : State) : (s.startDram.chan 0).st = .training ∧ (s.startDram.chan 1).st = .training ∧
    s.startDram.broker.knows (.dram 0) = true ∧ s.startDram.broker.knows (.dram 1) = true := by
  rw [startDram_eq]
  refine ⟨?_, ?_, trainChan_keeps (trainChan_asks _ 0) 1, trainChan_asks _ 1⟩
  · rw [trainChan_chan, if_neg (by decide), trainChan_chan, if_pos rfl]
  · rw [trainChan_chan, if_pos rfl]

theorem startDram_only (s : State) : Only [.aon, .always, .mem, .memBase, .broker] s s.startDram := by
  rw [startDram_eq]
  exact (((powerDomains_only _ _).andThen (releasePads_only _ _)).andThen ((trainChan_only _ _).andThen (trainChan_only _ _))).mono (by decide)

/-- Step 4 from the state in which its records are loaded: its bit, loops 0 to 3, DRAM divided and in training, and charging (R403, R409, R449). -/
theorem warmup4_from (s : State) : ∃ (v : State) (w : BitVec 64), s.warmup4 =
    (((((v.markStep 4).startFixedLoops.divideDram).powerDomains w).releasePads w).startDram).refreshCharging := ⟨_, _, rfl⟩

theorem warmup4_starts (s : State) : s.warmup4.stepComplete 4 = true ∧ (s.warmup4.chan 0).st = .training ∧ (s.warmup4.chan 1).st = .training ∧
    s.warmup4.broker.knows (.dram 0) = true ∧ s.warmup4.broker.knows (.dram 1) = true ∧ ∀ k, k < 4 → (s.warmup4.loop k).running = true := by
  obtain ⟨v, w, h⟩ := warmup4_from s
  have hloops (j : Nat) (hj : j < 4) := startFixedLoops_running (v.markStep 4) hj
  have hfixed := startFixedLoops_only (v.markStep 4)
  rw [h]
  generalize hv : (v.markStep 4).startFixedLoops = x at hloops hfixed ⊢
  have hpads : Only [.mem, .memBase, .evr, .aon, .always] x ((x.divideDram.powerDomains w).releasePads w) :=
    ((divideDram_only _).andThen ((powerDomains_only _ _).andThen (releasePads_only _ _))).mono (by decide)
  generalize (x.divideDram.powerDomains w).releasePads w = y at hpads ⊢
  have hstart := startDram_only y
  obtain ⟨c0, c1, b0, b1⟩ := startDram_trains y
  generalize y.startDram = z at hstart c0 c1 b0 b1 ⊢
  have hcharge := refreshCharging_only z
  have hmem : z.refreshCharging.mem = z.mem := hcharge .mem (by decide)
  have hbroker : z.refreshCharging.broker = z.broker := hcharge .broker (by decide)
  have hpower : z.refreshCharging.power = (v.markStep 4).power :=
    (((hfixed.andThen hpads).andThen hstart).andThen hcharge) .power (by decide)
  have hrun : LoopsKept x z.refreshCharging :=
    (LoopsKept.of_loops (hpads .loops (by decide))).trans ((LoopsKept.of_loops (hstart .loops (by decide))).trans (refreshCharging_loops z))
  exact ⟨stepComplete_of_marked (by decide) (congrArg Power.stepDone hpower), by rw [chan_congr hmem, c0], by rw [chan_congr hmem, c1],
    by rw [hbroker, b0], by rw [hbroker, b1], fun j hj => hrun j (hloops j hj)⟩

/-! Step 6. -/

/-- The channel after its training: in service with the counters of the report, or retired (R451). -/
def Chan.trained (x : Chan) (ok : Bool) (r : WarmupReport) : Chan :=
  if ok then { x with st := .active, raaimt := r.raaimt, raammt := r.raammt } else { x with st := .retired }

theorem dramTrained_ok (s : State) (c : Nat) (r : WarmupReport) : s.dramTrained c true r =
    ((s.returnBaton (.dram c)).updChan c fun x => x.trained true r).raise 0x0501 (srcDram c) (subParam 0 (usSince s.now (s.chan c).since))
      s.aon.band 0 0 := rfl

theorem dramTrained_bad (s : State) (c : Nat) (r : WarmupReport) : ∃ v, s.dramTrained c false r =
    (((s.returnBaton (.dram c)).draw.2.updChan c fun x => x.trained false r).unitFailed (srcDram c)).raise 0x0502 (srcDram c) (subParam 0 v)
      0 0 0 := ⟨_, rfl⟩

/-- What the end of a channel's training can touch. -/
def trainedParts : List Part := [.broker, .mem, .memBase, .evr, .aon, .flt, .fltBase, .work]

/-- A channel's training touches its own entry, and before it its baton. -/
theorem dramTrained_from (s : State) (c : Nat) (ok : Bool) (r : WarmupReport) : ∃ v, Only [.broker, .work] s v ∧
    v.broker = (s.returnBaton (.dram c)).broker ∧
    Only [.evr, .aon, .flt, .fltBase] (v.updChan c fun x => x.trained ok r) (s.dramTrained c ok r) := by
  cases ok
  · obtain ⟨p, h⟩ := dramTrained_bad s c r
    rw [h]
    exact ⟨(s.returnBaton (.dram c)).draw.2, (returnBaton_only _ _).andThen (draw_only _), rfl,
      ((unitFailed_only _ _).andThen (raise_only _ _ _ _ _ _ _)).mono (by decide)⟩
  · rw [dramTrained_ok]
    exact ⟨s.returnBaton (.dram c), (returnBaton_only _ _).mono (by decide), rfl, (raise_only _ _ _ _ _ _ _).mono (by decide)⟩

theorem dramTrained_only (s : State) (c : Nat) (ok : Bool) (r : WarmupReport) : Only trainedParts s (s.dramTrained c ok r) := by
  obtain ⟨v, hv, -, h⟩ := dramTrained_from s c ok r
  exact ((hv.andThen (setChan_only _ _ _)).andThen h).mono (by decide)

theorem dramTrained_broker (s : State) (c : Nat) (ok : Bool) (r : WarmupReport) :
    (s.dramTrained c ok r).broker = (s.returnBaton (.dram c)).broker := by
  obtain ⟨v, -, hv, h⟩ := dramTrained_from s c ok r
  exact Eq.trans (h .broker (by decide)) hv

theorem dramTrained_chan (s : State) (c d : Nat) (ok : Bool) (r : WarmupReport) : (s.dramTrained c ok r).chan d =
    if d = c then (s.chan c).trained ok r else s.chan d := by
  obtain ⟨v, hv, -, h⟩ := dramTrained_from s c ok r
  have hmem : v.mem = s.mem := hv .mem (by decide)
  rw [chan_congr (h .mem (by decide)), State.updChan_eq, State.chan_setChan, chan_congr hmem, chan_congr hmem]

theorem trained_st (x : Chan) (ok : Bool) (r : WarmupReport) : (x.trained ok r).st = if ok then .active else .retired := by
  cases ok <;> rfl

theorem dramTrained_recorded (c : Nat) (r : WarmupReport) (hroom : s.roomForEvents) : Recorded s (s.dramTrained c true r) 0x0501 (srcDram c)
    (subParam 0 (usSince s.now (s.chan c).since)) s.aon.band 0 0 := by
  have h : Only [.broker, .mem, .memBase] s
      ((s.returnBaton (.dram c)).updChan c fun x => x.trained true r) :=
    ((returnBaton_only _ _).andThen (setChan_only _ _ _)).mono (by decide)
  rw [dramTrained_ok]
  exact recorded_raise_of hroom h (by decide) (by decide) ⟨by decide, by decide⟩ _ _ _ _ _

theorem returnBaton_holds (s : State) (op : HeavyOp) : (s.returnBaton op).broker.holds op = false := by
  simp [State.returnBaton, Broker.holds, State.onBroker]

theorem returnBaton_drops {op : HeavyOp} (h : s.broker.holds op = false) (op' : HeavyOp) : (s.returnBaton op').broker.holds op = false := by
  simp only [State.returnBaton, Broker.holds, State.onBroker, List.any_eq_false, List.mem_filter] at h ⊢
  exact fun x hx => h x hx.1

/-- Both channels' verdicts taken (R451). -/
def State.dramJudged (s : State) (r : WarmupReport) : State := (s.dramTrained 0 r.dramOk0 r).dramTrained 1 r.dramOk1 r

theorem dramJudged_st (s : State) (r : WarmupReport) : ((s.dramJudged r).chan 0).st = (if r.dramOk0 then .active else .retired) ∧
    ((s.dramJudged r).chan 1).st = if r.dramOk1 then .active else .retired := by
  unfold State.dramJudged
  rw [dramTrained_chan _ 1 0, dramTrained_chan s 0 0, dramTrained_chan _ 1 1, if_neg (by decide), if_pos rfl, if_pos rfl]
  exact ⟨trained_st _ _ _, trained_st _ _ _⟩

theorem warmup6_serves (h : r.dramOk1 = true) : s.warmup6 r = (s.dramJudged r).markStep 6 := by
  have hserves : (s.dramJudged r).dramServes = true := by
    rw [State.dramServes, (dramJudged_st s r).2, h]
    simp
  exact if_pos hserves

theorem warmup6_short (h0 : r.dramOk0 = false) (h1 : r.dramOk1 = false) : s.warmup6 r = (s.dramJudged r).shortAt 5 6 := by
  have hserves : (s.dramJudged r).dramServes = false := by
    obtain ⟨c0, c1⟩ := dramJudged_st s r
    rw [State.dramServes, c0, c1, h0, h1]
    rfl
  exact if_neg fun h => Bool.false_ne_true (hserves.symm.trans h)

theorem dramJudged_only (s : State) (r : WarmupReport) : Only trainedParts s (s.dramJudged r) :=
  (dramTrained_only _ _ _ _).trans (dramTrained_only _ _ _ _)

/-! Step 7. -/

/-- A parked lane asks for its training (R111). -/
def askTraining (n : Nat) (s : State) : State :=
  if (s.lane n).st = .parked then (s.updLane n fun l => { l with trainWait := true }).requestBaton (.lane n) else s

theorem askTraining_only (n : Nat) (s : State) : Only [.lanes, .broker] s (askTraining n s) :=
  .ite ((setLane_only _ _ _).andThen (requestBaton_only _ _))

theorem askTraining_lane (m n : Nat) (s : State) : (askTraining m s).lane n =
    if n = m ∧ (s.lane m).st = .parked then { s.lane m with trainWait := true } else s.lane n := by
  unfold askTraining
  split
  · rename_i hp
    rw [lane_congr (requestBaton_only _ _ .lanes (by decide)), State.updLane_eq, State.lane_setLane]
    simp only [hp, and_true]
  · rename_i hp
    rw [if_neg fun hm => hp hm.2]

/-- Lane `n` waits for its training and has asked for its baton. -/
def State.TrainAsked (s : State) (n : Nat) : Prop := (s.lane n).trainWait = true ∧ s.broker.knows (.lane n) = true

theorem askTraining_keeps {n : Nat} (h : s.TrainAsked n) (m : Nat) : (askTraining m s).TrainAsked n := by
  constructor
  · rw [askTraining_lane]
    split
    · rfl
    · exact h.1
  · unfold askTraining
    split
    · exact requestBaton_keeps (s := s.updLane m fun l => { l with trainWait := true }) h.2 fun _ => by simp
    · exact h.2

theorem askTraining_asked {n : Nat} (h : (s.lane n).st = .parked) : (askTraining n s).TrainAsked n := by
  constructor
  · rw [askTraining_lane, if_pos ⟨rfl, h⟩]
  · unfold askTraining
    rw [if_pos h]
    exact requestBaton_asked (fun _ => by simp) _

theorem askTraining_parked {n : Nat} (h : (s.lane n).st = .parked) (m : Nat) : ((askTraining m s).lane n).st = .parked := by
  rw [askTraining_lane]
  split
  · rename_i hm
    exact hm.2
  · exact h

/-- Every parked lane of the list has asked. -/
theorem each_askTraining {n : Nat} {l : List Nat} : ∀ s : State, (s.TrainAsked n ∨ n ∈ l ∧ (s.lane n).st = .parked) →
    (s.each l askTraining).TrainAsked n := by
  induction l with
  | nil => exact fun s h => h.elim id fun h => absurd h.1 (by simp)
  | cons m l ih =>
    intro s h
    rw [State.each_cons]
    refine ih _ ?_
    rcases h with h | ⟨hn, hp⟩
    · exact .inl (askTraining_keeps h m)
    · rcases List.mem_cons.1 hn with rfl | hn
      · exact .inl (askTraining_asked hp)
      · exact .inr ⟨hn, askTraining_parked hp m⟩

/-- Step 7 complete, with the lane PHYs of the populated blocks on (R428). -/
def State.lanesPowered (s : State) : State := ((s.markStep 7).powerDomains s.populatedDomains).releasePads s.populatedDomains

theorem lanesPowered_from (s : State) : Only [.aon, .always] (s.markStep 7) s.lanesPowered := (powerDomains_only _ _).trans (releasePads_only _ _)

theorem lanesPowered_populated (s : State) (n : Nat) : s.lanesPowered.populated n = s.populated n := by
  have hregs : s.lanesPowered.regs = s.regs := ((markStep_only s 7).andThen (lanesPowered_from s)) .regs (by decide)
  simp only [State.populated, State.cfgBit, cfg_congr hregs]

theorem warmup7_eq (s : State) : s.warmup7 = s.lanesPowered.each ((List.range 512).filter s.lanesPowered.populated) askTraining := by
  unfold State.warmup7
  dsimp only
  have hask : askTraining = fun n s => if (s.lane n).st = .parked then (s.updLane n fun l => { l with trainWait := true }).requestBaton (.lane n)
    else s := rfl
  rw [hask]
  rfl

theorem warmup7_asks (s : State) : s.warmup7.stepComplete 7 = true ∧
    ∀ n, n < 512 → s.populated n = true → (s.lane n).st = .parked → s.warmup7.TrainAsked n := by
  have hfrom : Only [.power, .powerBase, .landCause, .aon, .always] s s.lanesPowered := (markStep_only _ _).andThen (lanesPowered_from s)
  have hall := Only.each (l := (List.range 512).filter s.lanesPowered.populated) (s := s.lanesPowered) askTraining_only
  rw [warmup7_eq]
  refine ⟨stepComplete_of_marked (s := s) (by decide) ?_, fun n hn hp hst => each_askTraining _ (.inr ⟨?_, ?_⟩)⟩
  · rw [hall .power (by decide), lanesPowered_from s .power (by decide)]
  · exact List.mem_filter.2 ⟨List.mem_range.2 hn, (lanesPowered_populated s n).trans hp⟩
  · rw [lane_congr (hfrom .lanes (by decide)), hst]

end

end Sys2Proof.Machine
end

section
/-! Warm-up steps 5 and 11 to 13 (R56, R222, R280, R423, R462, R532): the self-test and its keys, the bound sets, and the tenants that become ready. -/

namespace Sys2Proof.Machine

section
variable {s t u : State} {k : Nat} {r : WarmupReport}

/-! Step 5. -/

theorem onSeeds_only (s : State) (f : SeedCopy → SeedCopy) : Only [.boot] s (s.onSeeds f) := onBoot_only _ _

theorem readSeeds_only (s : State) : Only [.boot, .nss] s s.readSeeds := by
  unfold State.readSeeds
  refine Only.trans (.ite ((onSeeds_only _ _).mono (by decide))) (.each fun n v => ?_)
  split
  · exact (setNs_only _ _ _).mono (by decide)
  · exact ((setNs_only _ _ _).andThen (onSeeds_only _ _)).mono (by decide)

/-- From `s` to `t` the verdict on the entropy source and the media root key stand (R271, R291). -/
def RootKept (s t : State) : Prop := t.cph.drbgOk = s.cph.drbgOk ∧ t.cph.mrk = s.cph.mrk

theorem RootKept.of_cph (h : t.cph = s.cph) : RootKept s t := by rw [RootKept, h]; exact ⟨rfl, rfl⟩

theorem RootKept.trans (h : RootKept s t) (g : RootKept t u) : RootKept s u := ⟨g.1.trans h.1, g.2.trans h.2⟩

theorem RootKept.each {α : Type} {l : List α} {f : α → State → State} (step : ∀ x s, RootKept s (f x s)) : RootKept s (s.each l f) :=
  State.each_keeps (fun t => RootKept s t) l f (fun x _ h => h.trans (step x _)) s ⟨rfl, rfl⟩

/-- The key of a namespace loaded, or the namespace attached without one (R276, R280). -/
def keyOrNone (n : Nat) (s : State) : State :=
  if (s.ns n).seedOk then s.loadKey n
  else (s.updNs n fun x => { x with noKey := true }).raise 0x0808 s.srcStarters n (s.ns n).slot 1 0

theorem loadKey_only (s : State) (n : Nat) : Only [.cph] s (s.loadKey n) := onCph_only _ _

theorem keyOrNone_only (n : Nat) (s : State) : Only [.cph, .nss, .evr, .aon] s (keyOrNone n s) :=
  .ites ((loadKey_only _ _).mono (by decide)) (((setNs_only _ _ _).andThen (raise_only _ _ _ _ _ _ _)).mono (by decide))

theorem loadKey_root (s : State) (n : Nat) : RootKept s (s.loadKey n) := by
  have h (f : Cipher → Tbl (BitVec 512)) : RootKept s (s.onCph fun c => { c with keys := f c }) := ⟨rfl, rfl⟩
  exact h _

theorem keyOrNone_root (n : Nat) (s : State) : RootKept s (keyOrNone n s) := by
  unfold keyOrNone
  split
  · exact loadKey_root _ _
  · exact .of_cph (((setNs_only _ _ _).andThen (raise_only _ _ _ _ _ _ _)) .cph (by decide))

/-- The keys derived where the alarm is clear and the seed record stands (R276, R280, R285). -/
theorem loadKeys_loads (ha : s.cph.alarm = false) (hv : s.seedsVoid = false) : ∃ (l : List Nat) (q : Nat) (b : Bool), s.loadKeys =
    ((s.each (s.nsOf fun _ => true) keyOrNone).each l fun g s => s.raise 0x0801 (srcKdu g) q (8 * q) 0 0).onCph fun c =>
      { c with keysReady := b } := by
  have hkey : keyOrNone = fun n s => if (s.ns n).seedOk then s.loadKey n
      else (s.updNs n fun x => { x with noKey := true }).raise 0x0808 s.srcStarters n (s.ns n).slot 1 0 := rfl
  unfold State.loadKeys
  rw [if_neg (by simp [ha]), if_neg (by simp [hv]), hkey]
  exact ⟨_, _, _, rfl⟩

theorem loadKeys_kept (s : State) : Only [.cph, .nss, .evr, .aon] s s.loadKeys ∧ RootKept s s.loadKeys := by
  cases ha : s.cph.alarm with
  | true =>
    have h : s.loadKeys = s := if_pos ha
    rw [h]
    exact ⟨.refl, rfl, rfl⟩
  | false =>
    cases hv : s.seedsVoid with
    | true =>
      have h : s.loadKeys = s := by
        unfold State.loadKeys
        rw [if_neg (by simp [ha]), if_pos hv]
      rw [h]
      exact ⟨.refl, rfl, rfl⟩
    | false =>
      obtain ⟨l, q, b, h⟩ := loadKeys_loads ha hv
      have hload := Only.each (l := s.nsOf fun _ => true) (s := s) keyOrNone_only
      have hroot := RootKept.each (l := s.nsOf fun _ => true) (s := s) keyOrNone_root
      have htell (v : State) : Only [.evr, .aon] v (v.each l fun g s => s.raise 0x0801 (srcKdu g) q (8 * q) 0 0) :=
        .each fun _ _ => raise_only _ _ _ _ _ _ _
      rw [h]
      exact ⟨((hload.andThen (htell _)).andThen (onCph_only _ _)).mono (by decide),
        (hroot.trans (.of_cph (htell _ .cph (by decide)))).trans ⟨rfl, rfl⟩⟩

/-- The self-test reported, before a unit that it failed is taken out (R462). -/
def State.selfTested (s : State) (r : WarmupReport) : State :=
  (s.onMem fun m => { m with bistDone := true, bistRows := r.rowsRepaired, bistSpare := min 8 r.minSpare, bistOut := r.macrosOut.length }).raise
    0x0601 srcScrubber r.macrosTested r.rowsRepaired (min 8 r.minSpare) r.macrosOut.length

/-- The known-answer test of the entropy source taken, with its event (R271, R291). -/
def State.rootTested (s : State) (r : WarmupReport) : State :=
  let s := s.onCph fun c => { c with drbgOk := r.entropyTest == 0, mrk := !c.alarm }
  if r.entropyTest = 0 then s else s.raise 0x0809 s.srcStarters r.entropyTest 0 0 0

theorem selfTested_only (s : State) (r : WarmupReport) : Only [.mem, .memBase, .evr, .aon] s (s.selfTested r) :=
  (onMem_only _ _).andThen (raise_only _ _ _ _ _ _ _)

theorem rootTested_only (s : State) (r : WarmupReport) : Only [.cph, .evr, .aon] s (s.rootTested r) :=
  .thenUnless ((onCph_only _ _).mono (by decide)) ((raise_only _ _ _ _ _ _ _).mono (by decide))

theorem rootTested_cph (s : State) (r : WarmupReport) :
    (s.rootTested r).cph = { s.cph with drbgOk := r.entropyTest == 0, mrk := !s.cph.alarm } := by
  unfold State.rootTested
  dsimp only
  split
  · rfl
  · exact raise_only _ _ _ _ _ _ _ .cph (by decide)

/-- Step 5 where the self-test leaves every unit in service. -/
theorem warmup5_eq (hm : r.macrosOut = []) (hc : r.badCipher = []) (hk : r.badKdu = []) (hp : r.badParity = []) :
    s.warmup5 r = if s.unitsServe then (((s.selfTested r).rootTested r).readSeeds.loadKeys).markStep 5
      else ((s.selfTested r).rootTested r).shortAt 4 5 := by
  have hserve : ((s.selfTested r).rootTested r).unitsServe = s.unitsServe := by
    have hcph : (s.selfTested r).cph = s.cph := selfTested_only s r .cph (by decide)
    simp only [State.unitsServe, rootTested_cph, hcph]
  rw [← hserve]
  unfold State.warmup5
  simp only [hm, hc, hk, hp, State.each_nil]
  unfold State.selfTested
  rw [hm]
  rfl

theorem selfTested_recorded (r : WarmupReport) (hm : r.macrosOut = []) (hroom : s.roomForEvents) :
    Recorded s (s.selfTested r) 0x0601 srcScrubber r.macrosTested r.rowsRepaired (min 8 r.minSpare) 0 := by
  unfold State.selfTested
  rw [hm]
  exact recorded_raise_of hroom (onMem_only _ _) (by decide) (by decide) ⟨by decide, by decide⟩ _ _ _ _ _

theorem selfTested_mem (s : State) (r : WarmupReport) : (s.selfTested r).mem.bistDone = true ∧ (s.selfTested r).mem.bistRows = r.rowsRepaired := by
  have h : (s.selfTested r).mem = { s.mem with
      bistDone := true, bistRows := r.rowsRepaired, bistSpare := min 8 r.minSpare, bistOut := r.macrosOut.length } :=
    raise_only _ _ _ _ _ _ _ .mem (by decide)
  rw [h]
  exact ⟨rfl, rfl⟩

theorem warmup5_serves (hs : s.unitsServe = true) (hm : r.macrosOut = []) (hc : r.badCipher = []) (hk : r.badKdu = []) (hp : r.badParity = [])
    (hroom : s.roomForEvents) : (s.warmup5 r).stepComplete 5 = true ∧ (s.warmup5 r).mem.bistDone = true ∧
      (s.warmup5 r).mem.bistRows = r.rowsRepaired ∧ (s.warmup5 r).cph.drbgOk = (r.entropyTest == 0) ∧ (s.warmup5 r).cph.mrk = !s.cph.alarm ∧
      Recorded s (s.warmup5 r) 0x0601 srcScrubber r.macrosTested r.rowsRepaired (min 8 r.minSpare) 0 := by
  rw [warmup5_eq hm hc hk hp, if_pos hs]
  have hrec := selfTested_recorded r hm hroom
  obtain ⟨hdone, hrows⟩ := selfTested_mem s r
  have hcph := rootTested_cph (s.selfTested r) r
  rw [selfTested_only s r .cph (by decide)] at hcph
  have hroot := rootTested_only (s.selfTested r) r
  generalize (s.selfTested r).rootTested r = v at hcph hroot ⊢
  obtain ⟨hload, hkept⟩ := loadKeys_kept v.readSeeds
  have hfrom : Only [.power, .powerBase, .landCause, .cph, .nss, .evr, .aon, .boot] (s.selfTested r) (v.readSeeds.loadKeys.markStep 5) :=
    ((hroot.andThen (readSeeds_only v)).andThen (hload.andThen (markStep_only _ 5))).mono (by decide)
  have hmem : (v.readSeeds.loadKeys.markStep 5).mem = (s.selfTested r).mem := hfrom .mem (by decide)
  have hkeys : RootKept v (v.readSeeds.loadKeys.markStep 5) :=
    (RootKept.of_cph (readSeeds_only v .cph (by decide))).trans (hkept.trans (.of_cph (markStep_only _ 5 .cph (by decide))))
  refine ⟨stepComplete_markStep _ (by decide), by rw [hmem, hdone], by rw [hmem, hrows], ?_, ?_, hfrom .records (by decide) _ hrec⟩
  · rw [hkeys.1, hcph]
  · rw [hkeys.2, hcph]

theorem warmup5_short (hs : s.unitsServe = false) (hm : r.macrosOut = []) (hc : r.badCipher = []) (hk : r.badKdu = []) (hp : r.badParity = [])
    (he : r.entropyTest = 0) (hroom : s.evr.queue.length < 223) : (s.warmup5 r).power.stepDone = s.power.stepDone ∧
      4 ∈ (s.warmup5 r).power.holds ∧ Recorded s (s.warmup5 r) 0x0F08 srcChipCollector 4 5 0 0 := by
  rw [warmup5_eq hm hc hk hp, if_neg (by simp [hs])]
  have hroot : (s.selfTested r).rootTested r = (s.selfTested r).onCph fun c => { c with drbgOk := r.entropyTest == 0, mrk := !c.alarm } := if_pos he
  rw [hroot]
  have hfrom : Only [.mem, .memBase, .evr, .aon, .cph] s ((s.selfTested r).onCph fun c => { c with drbgOk := r.entropyTest == 0, mrk := !c.alarm }) :=
    ((selfTested_only s r).andThen (onCph_only _ _)).mono (by decide)
  have hlen : (s.selfTested r).evr.queue.length < 224 := by
    rcases length_raise (s.onMem _) 0x0601 srcScrubber r.macrosTested r.rowsRepaired (min 8 r.minSpare) r.macrosOut.length with h | ⟨-, h⟩
    · exact h.trans_lt (Nat.lt_succ_of_lt hroom)
    · exact h.trans_lt (Nat.succ_lt_succ hroom)
  generalize hw : (s.selfTested r).onCph (fun c => { c with drbgOk := r.entropyTest == 0, mrk := !c.alarm }) = w at hfrom ⊢
  have hlen' : w.evr.queue.length < 224 := hw ▸ hlen
  refine ⟨(shortAt_power w 4 5).1.trans (congrArg Power.stepDone (hfrom .power (by decide))), shortAt_holds _ _ _, ?_⟩
  exact recorded_raise hlen' (now_of_base (hfrom .always (by decide))) ⟨by decide, by decide⟩ _ _ _ _ _

/-! Step 11. -/

theorem warmup11_up (h : s.hostPortUp = true) : s.warmup11 = (((s.markStep 11).onTmk fun k =>
    { k with sets := s.computeSets, inForce := !s.aon.trip, band := s.aon.band }).raiseComputed s.computeSets) := by
  unfold State.warmup11
  rw [if_neg (by simp [h])]

/-! Steps 12 and 13: tenants that become ready. -/

theorem readyTenant_only (s : State) (n : Nat) : Only [.tenants, .tenantBase, .ctrls] s (s.readyTenant n) :=
  (setTenant_only _ _ _).andThen (mapCtrls_only _ _)

theorem readyTenant_tenant (s : State) (n m : Nat) : (s.readyTenant n).tenant m = if m = n then { s.tenant n with ready := true } else s.tenant m := by
  have h : (s.readyTenant n).tenant m = (s.updTenant n fun x => { x with ready := true }).tenant m := rfl
  rw [h, State.updTenant_eq, State.tenant_setTenant]

theorem readyTenant_ready {m : Nat} (h : (s.tenant m).ready = true ∨ m = n) : ((s.readyTenant n).tenant m).ready = true := by
  rw [readyTenant_tenant]
  split
  · rfl
  · rename_i hne
    exact h.resolve_right hne

theorem each_readyTenant {m : Nat} {l : List Nat} : ∀ s : State, ((s.tenant m).ready = true ∨ m ∈ l) →
    ((s.each l fun n s => s.readyTenant n).tenant m).ready = true := by
  induction l with
  | nil => exact fun s h => h.elim id fun h => absurd h (by simp)
  | cons n l ih =>
    intro s h
    rw [State.each_cons]
    refine ih _ ?_
    rcases h with h | h
    · exact .inl (readyTenant_ready (.inl h))
    · rcases List.mem_cons.1 h with rfl | h
      · exact .inl (readyTenant_ready (.inr rfl))
      · exact .inr h

theorem warmup13_readies {n : Nat} (h0 : n ≠ 0) (hst : (s.tenant n).st ≠ .free) (hc : (s.tenant n).creating = false) :
    s.warmup13.stepComplete 13 = true ∧ (s.warmup13.tenant n).ready = true := by
  have hmark : (s.markStep 13).tenants = s.tenants := markStep_only s 13 .tenants (by decide)
  have heq : s.warmup13 = (s.markStep 13).each ((Tbl.numbers (fun t => t.st != .free && !t.creating) (s.markStep 13).tenants).filter (· != 0))
    fun t s => s.readyTenant t := rfl
  rw [heq]
  refine ⟨stepComplete_of_marked (s := s) (by decide) (congrArg Power.stepDone ?_), each_readyTenant _ (.inr (List.mem_filter.2 ⟨?_, by simpa using h0⟩))⟩
  · exact Only.each (fun n v => readyTenant_only v n) .power (by decide)
  · rw [hmark]
    exact Tbl.mem_numbers (d := {}) rfl (by simp [show Tbl.look {} s.tenants n = s.tenant n from rfl, hst, hc])

/-! The change of mode (R423). -/

/-- What a change of mode can touch. -/
def modeParts : List Part := chargeParts ++ [.power, .powerBase, .landCause, .work]

theorem capChanged_only (s : State) (n : Nat) : Only [.power, .powerBase, .landCause, .loops] s (s.capChanged n) := by
  unfold State.capChanged
  dsimp only
  split
  · exact .refl
  · exact ((onPower_only _ _).andThen ((setLoop_only _ _ _).andThen (setLoop_only _ _ _))).mono (by decide)

theorem capChanged_power (s : State) (n : Nat) : (s.capChanged n).power.stepDone = s.power.stepDone ∧ (s.capChanged n).power.mode = s.power.mode := by
  unfold State.capChanged
  dsimp only
  split <;> exact ⟨rfl, rfl⟩

theorem changeMode_only (s : State) (m : Mode) (cause us : Nat) : Only modeParts s (s.changeMode m cause us) := by
  unfold State.changeMode
  dsimp only
  refine Only.trans ?_ ((avsRetarget_only _).mono (by decide))
  refine Only.trans ?_ ((refreshCharging_only _).mono (by decide))
  exact ((onPower_only _ _).andThen ((capChanged_only _ _).andThen (raise_only _ _ _ _ _ _ _))).mono (by decide)

theorem changeMode_power (s : State) (m : Mode) (cause us : Nat) : (s.changeMode m cause us).power.mode = m ∧
    (s.changeMode m cause us).power.stepDone = s.power.stepDone := by
  unfold State.changeMode
  dsimp only
  obtain ⟨hcdone, hcmode⟩ := capChanged_power (s.onPower fun p => { p with mode := m }) s.modeCap
  generalize (s.onPower fun p => { p with mode := m }).capChanged s.modeCap = v at hcdone hcmode ⊢
  obtain ⟨hadone, hamode⟩ := avsRetarget_power (v.raise 0x0101 v.srcStarters s.power.mode.code m.code cause us).refreshCharging
  have hpower : (v.raise 0x0101 v.srcStarters s.power.mode.code m.code cause us).refreshCharging.power = v.power :=
    ((raise_only _ _ _ _ _ _ _).andThen (refreshCharging_only _)) .power (by decide)
  rw [hpower] at hadone hamode
  exact ⟨hamode.trans hcmode, hadone.trans hcdone⟩

theorem settleSprint_only (s : State) (cause : Nat) : Only modeParts s (s.settleSprint cause) :=
  .ites (changeMode_only _ _ _ _) (.ite (changeMode_only _ _ _ _))

theorem settleSprint_stepDone (s : State) (cause : Nat) : (s.settleSprint cause).power.stepDone = s.power.stepDone := by
  unfold State.settleSprint
  split
  · exact (changeMode_power _ _ _ _).2
  · split
    · exact (changeMode_power _ _ _ _).2
    · rfl

theorem settleSprint_mode (cause : Nat) (h : s.power.mode = .stride) : (s.settleSprint cause).power.mode = .stride ∨
    (s.settleSprint cause).power.mode = .sprint := by
  unfold State.settleSprint
  split
  · exact .inr (changeMode_power _ _ _ _).1
  · split
    · exact .inl (changeMode_power _ _ _ _).1
    · exact .inl h

/-- The device in Stride, or in Sprint at once (R423, R426). -/
def State.toStride (s : State) (us : Nat) : State := (s.changeMode .stride 5 us).settleSprint 1

theorem toStride_only (s : State) (us : Nat) : Only modeParts s (s.toStride us) := (changeMode_only _ _ _ _).trans (settleSprint_only _ _)

theorem toStride_stepDone (s : State) (us : Nat) : (s.toStride us).power.stepDone = s.power.stepDone :=
  (settleSprint_stepDone _ 1).trans (changeMode_power _ _ _ _).2

theorem toStride_mode (s : State) (us : Nat) : (s.toStride us).power.mode = .stride ∨ (s.toStride us).power.mode = .sprint :=
  settleSprint_mode 1 (changeMode_power _ _ _ _).1

theorem warmup12_eq (s : State) : s.warmup12 = (((s.markStep 12).readyTenant 0).toStride (usSince s.now s.power.t0)).onBoot
    fun b => { b with lkgArmed := true } := by
  unfold State.warmup12 State.toStride
  rfl

theorem tenant_congr (h : t.tenants = s.tenants) (n : Nat) : t.tenant n = s.tenant n := by simp only [State.tenant, h]

theorem warmup12_readies (s : State) : s.warmup12.stepComplete 12 = true ∧ (s.warmup12.power.mode = .stride ∨ s.warmup12.power.mode = .sprint) ∧
    (s.warmup12.tenant 0).ready = true ∧ s.warmup12.boot.lkgArmed = true := by
  have hready : (((s.markStep 12).readyTenant 0).tenant 0).ready = true := readyTenant_ready (.inr rfl)
  have hpower : ((s.markStep 12).readyTenant 0).power = (s.markStep 12).power := readyTenant_only _ 0 .power (by decide)
  rw [warmup12_eq]
  generalize (s.markStep 12).readyTenant 0 = v at hready hpower ⊢
  generalize usSince s.now s.power.t0 = us
  have hkeep : Only (modeParts ++ [.boot]) v ((v.toStride us).onBoot fun b => { b with lkgArmed := true }) :=
    (toStride_only v us).andThen (onBoot_only _ _)
  have htenants : ((v.toStride us).onBoot fun b => { b with lkgArmed := true }).tenants = v.tenants := hkeep .tenants (by decide)
  have htenant := tenant_congr htenants 0
  exact ⟨stepComplete_of_marked (s := s) (by decide) ((toStride_stepDone v us).trans (congrArg Power.stepDone hpower)), toStride_mode v us,
    by rw [htenant, hready], rfl⟩

end

end Sys2Proof.Machine
end

section
/-! Warm-up step 8 (R144, R171, R198-R202, R532): what the check of the dies can touch, and the stripe set that has to serve. -/

namespace Sys2Proof.Machine

section
variable {s t u : State} {k : Nat} {r : WarmupReport}

theorem refuseDie_only (s : State) (k cause : Nat) : Only lossParts s (s.refuseDie k cause) :=
  (loseDie_only _ _ _).trans ((setDie_only _ _ _).mono (by decide))

theorem refusePage_only (s : State) (k cause : Nat) : Only lossParts s (s.refusePage k cause) :=
  ((raiseDie_only _ _ _ _ _ _ _).mono (by decide)).trans (refuseDie_only _ _ _)

theorem scanDie_only (s : State) (k : Nat) (marks : List Nat) : Only lossParts s (s.scanDie k marks) := by
  have hjudge (v : State) (a bad : Nat) : Only lossParts v (if a < bad ∧ !(v.die k).lost then v.refuseDie k 0x0492
      else if a = bad + 4 then v.raise 0x0493 v.srcStarters k 4 0 0 else v) :=
    .ites (refuseDie_only _ _ _) (.ite ((raise_only _ _ _ _ _ _ _).mono (by decide)))
  unfold State.scanDie
  refine Only.trans ?_ (hjudge _ _ _)
  exact ((setDie_only _ _ _).andThen (raise_only _ _ _ _ _ _ _)).mono (by decide)

theorem numberSets_only (s : State) (l : List (Option Nat × StripeSet)) : Only [.sets, .zones] s (s.numberSets l) := by
  have hsets (x : Tbl StripeSet) : Only [.sets] s { s with sets := x } :=
    .of_kept fun p => by cases p <;> simp [Part.Kept, State.blk, State.tenant]
  exact (hsets _).andThen (mapZones_only _ _)

theorem formStripes_only (s : State) : Only [.sets, .zones, .store] s s.formStripes := by
  unfold State.formStripes
  dsimp only
  refine .ites .refl ?_
  exact ((numberSets_only _ _).andThen (onStore_base_only _ _ (by rfl))).mono (by decide)

theorem dissolveStripes_only (s : State) : Only [.sets] s s.dissolveStripes :=
  .ites .refl (.each fun _ _ => setStripe_only _ _ _)

theorem returnDie_only (s : State) (k : Nat) : Only [.dies, .store] s (s.returnDie k) :=
  (setDie_only _ _ _).andThen (onStore_base_only _ _ (by rfl))

theorem retryRebuild_only (s : State) (n : Nat) : Only lossParts s (s.retryRebuild n) := by
  unfold State.retryRebuild
  dsimp only
  split
  · exact .ite (startStripeRebuild_only _ _ _ _)
  · exact .refl

/-- The dies judged, the stripe sets formed and the lost dies that pass returned: step 8 before its verdict (R171, R198-R202). -/
def State.diesJudged (s : State) (r : WarmupReport) : State :=
  let there := s.diesThere
  let good := there.filter fun k => s.pageCause r k == 0
  let s := s.each (there.filter fun k => !good.contains k && !(s.die k).lost) fun k s => s.refusePage k (s.pageCause r k)
  let scan := good.filter fun k => !(s.die k).scanned
  let s := s.each (scan.filter fun k => decide (24 < (factoryMarks r k).length)) fun k s => s.scanDie k (factoryMarks r k)
  let s := s.dissolveStripes.formStripes
  let s := s.each (scan.filter fun k => decide ((factoryMarks r k).length ≤ 24)) fun k s => s.scanDie k (factoryMarks r k)
  let s := s.each (good.filter fun k => (s.die k).lost && decide ((s.die k).badPos.length ≤ s.allowance k) && (s.die k).st != .absent) fun k s =>
    s.returnDie k
  s.each (s.sets.map (·.1)) fun i s => s.retryRebuild i

theorem warmup8_eq (s : State) (r : WarmupReport) : s.warmup8 r =
    if (s.diesJudged r).lanesServe then ((s.diesJudged r).markStep 8).setBudget (((s.diesJudged r).markStep 8).loop 0).out
    else (s.diesJudged r).shortAt 7 8 := by
  unfold State.warmup8 State.diesJudged
  rfl

theorem diesJudged_only (s : State) (r : WarmupReport) : Only lossParts s (s.diesJudged r) := by
  unfold State.diesJudged
  refine Only.trans ?_ (.each fun _ _ => retryRebuild_only _ _)
  refine Only.trans ?_ (.each fun _ _ => (returnDie_only _ _).mono (by decide))
  refine Only.trans ?_ (.each fun _ _ => scanDie_only _ _ _)
  refine Only.trans ?_ ((formStripes_only _).mono (by decide))
  refine Only.trans ?_ ((dissolveStripes_only _).mono (by decide))
  exact Only.trans (.each fun _ _ => refusePage_only _ _ _) (.each fun _ _ => scanDie_only _ _ _)

theorem lanesServe_congr (hsets : t.sets = s.sets) (hdies : t.dies = s.dies) (hlanes : t.lanes = s.lanes) (hblks : t.blks = s.blks)
    (hrgns : t.rgns = s.rgns) (hregs : t.regs = s.regs) : t.lanesServe = s.lanesServe := by
  simp only [State.lanesServe, State.setServes, State.laneServes, State.populated, State.cfgBit, State.die, State.lane, State.blk, State.rgn,
    hsets, hdies, hlanes, hblks, hrgns, cfg_congr hregs]

/-- What the verdict of a step can touch: not the stripe sets, nor what they stand on. -/
def verdictParts : List Part := [.power, .powerBase, .landCause, .evr, .aon, .broker, .tmk, .tmkBase]

theorem lanesServe_of_verdict (h : Only verdictParts s t) : t.lanesServe = s.lanesServe :=
  lanesServe_congr (h .sets (by decide)) (h .dies (by decide)) (h .lanes (by decide)) (h .blks (by decide)) (h .rgns (by decide))
    (h .regs (by decide))

theorem setBudget_only (s : State) (out : Int) : Only [.broker, .tmk, .tmkBase] s (s.setBudget out) := by
  obtain ⟨x, m, h⟩ := s.setBudget_eq out
  rw [h]
  exact .of_kept fun p => by cases p <;> simp [Part.Kept, State.blk, State.tenant]

/-- Step 8 completes exactly when a stripe set serves, and holds with cause 0x04 when none does (R171, R532). -/
theorem warmup8_verdict (hmode : s.power.mode = .warmup) (hopen : s.stepComplete 8 = false) : (s.warmup8 r).power.mode = .warmup ∧
    (s.warmup8 r).stepComplete 8 = (s.warmup8 r).lanesServe ∧ ((s.warmup8 r).lanesServe = false → 4 ∈ (s.warmup8 r).power.holds) := by
  have hpower : (s.diesJudged r).power = s.power := diesJudged_only s r .power (by decide)
  rw [warmup8_eq]
  generalize s.diesJudged r = v at hpower ⊢
  cases hserve : v.lanesServe with
  | true =>
    rw [if_pos rfl]
    have hbudget := setBudget_only (v.markStep 8) ((v.markStep 8).loop 0).out
    have hserves := lanesServe_of_verdict (((markStep_only v 8).andThen hbudget).mono (by decide))
    have hp : ((v.markStep 8).setBudget ((v.markStep 8).loop 0).out).power = (v.markStep 8).power := hbudget .power (by decide)
    have hserved := hserves.trans hserve
    refine ⟨?_, ?_, fun h => absurd (h.symm.trans hserved) Bool.false_ne_true⟩
    · rw [hp, (markStep_power v 8).2.1, hpower, hmode]
    · rw [hserved]
      exact stepComplete_of_marked (s := v) (by decide) (congrArg Power.stepDone hp)
  | false =>
    rw [if_neg Bool.false_ne_true]
    have hserves := lanesServe_of_verdict ((shortAt_only v 7 8).mono (by decide))
    obtain ⟨hdone, hm⟩ := shortAt_power v 7 8
    refine ⟨by rw [hm, hpower, hmode], ?_, fun _ => shortAt_holds _ _ _⟩
    rw [stepComplete_congr hdone, stepComplete_congr (congrArg Power.stepDone hpower), hopen, hserves, hserve]

end

end Sys2Proof.Machine
end

section
/-! Warm-up step 10 (R87, R184, R185, R194, R285, R361, R417, R439): the restore leaves the tenants and the energy figures as its first two
parts make them. -/

namespace Sys2Proof.Machine

/-- What the restore can touch once the figures are reported: not what a tenant is, nor the figures. -/
def restoreParts : List Part := lossParts ++ workParts ++ [.regs, .dieCnt, .boot, .cph]

section
variable {s t u : State} {k : Nat} {r : WarmupReport}

/-! Zones emptied. -/

theorem dropParityJob_only (s : State) (n : Nat) : Only restoreParts s (s.dropParityJob n) := by
  unfold State.dropParityJob
  refine Only.trans ?_ ((grantParity_only _ _).mono (by decide))
  exact ((setParityJob_only _ _ _).andThen (onWork_only _ _)).mono (by decide)

theorem askBatons_only (s : State) (k : Nat) : Only [.broker] s (s.askBatons k) := by
  have hask (v : State) (c : Bool) (op : HeavyOp) : Only [.broker] v (if c then v.requestBaton op else v) := .ite (requestBaton_only _ _)
  unfold State.askBatons
  refine Only.trans ?_ (hask _ _ _)
  exact hask _ _ _

theorem dropPasses_only (s : State) (zk : Nat) : Only [.dies, .broker] s (s.dropPasses zk) := by
  have hend (v : State) (k : Nat) (c : Bool) (op : HeavyOp) : Only [.dies, .broker] v (if c then v else (v.returnBaton op).askBatons k) :=
    .ites .refl (((returnBaton_only _ _).trans (askBatons_only _ _)).mono (by decide))
  unfold State.dropPasses
  refine .each fun k v => ?_
  refine Only.trans ?_ (hend _ _ _ _)
  exact Only.trans ((setDie_only _ _ _).mono (by decide)) (.each fun _ _ => (unbook_only _ _ _).mono (by decide))

theorem cancelRelocation_only (s : State) (zk : Nat) : Only lossParts s (s.cancelRelocation zk) := by
  unfold State.cancelRelocation
  refine Only.trans ?_ ((mapDies_only _ _).mono (by decide))
  split
  · exact .refl
  · split
    · exact .refl
    · exact endRelocation_only _ _ _ _

theorem cutUnit_only (s : State) (zk : Nat) : Only restoreParts s (s.cutUnit zk) := by
  unfold State.cutUnit
  refine Only.trans ?_ ((compareDirty_only _).mono (by decide))
  refine Only.trans ?_ ((releaseUnit_only _ _).mono (by decide))
  refine Only.trans ?_ ((cancelRelocation_only _ _).mono (by decide))
  refine Only.trans ?_ ((dropPasses_only _ _).mono (by decide))
  exact Only.trans ((onWork_only _ _).mono (by decide)) (.each fun _ _ => dropParityJob_only _ _)

theorem emptyNs_only (s : State) (n : Nat) : Only restoreParts s (s.emptyNs n) := by
  unfold State.emptyNs
  refine Only.trans ?_ ((setNs_only _ _ _).mono (by decide))
  exact .each fun _ _ => (cutUnit_only _ _).trans ((setZone_only _ _ _).mono (by decide))

/-! Keys. -/

theorem checkNonce_only (s : State) (n : Nat) : Only restoreParts s (s.checkNonce n) :=
  .ites .refl (Only.trans ((draw_only _).mono (by decide)) (((setNs_only _ _ _).andThen (raise_only _ _ _ _ _ _ _)).mono (by decide)))

theorem newKey_only (s : State) (n nonce : Nat) : Only restoreParts s (s.newKey n nonce) := by
  have hload (v : State) : Only restoreParts v (if v.cph.alarm then v else v.loadKey n) := .ites .refl ((loadKey_only _ _).mono (by decide))
  unfold State.newKey
  refine Only.trans ?_ (hload _)
  refine Only.trans ?_ ((onSeeds_only _ _).mono (by decide))
  exact Only.trans ((setNs_only _ _ _).mono (by decide)) (checkNonce_only _ _)

theorem eraseNs_only (s : State) (n nonce cause : Nat) (crypto : Bool) : Only restoreParts s (s.eraseNs n nonce cause crypto) := by
  unfold State.eraseNs
  exact .ites (emptyNs_only _ _) (((emptyNs_only _ _).trans (newKey_only _ _ _)).trans ((raise_only _ _ _ _ _ _ _).mono (by decide)))

theorem restoreSeeds_only (s : State) : Only restoreParts s s.restoreSeeds := by
  unfold State.restoreSeeds
  refine .ites .refl (Only.trans (.each fun n v => ?_) ((onCph_only _ _).mono (by decide)))
  exact Only.trans ((draw_only _).mono (by decide)) (eraseNs_only _ _ _ _ _)

/-! The landing area. -/

theorem queuePass_only (s : State) (zk pos : Nat) : Only [.work, .dies, .broker] s (s.queuePass zk pos) := by
  unfold State.queuePass
  dsimp only
  split
  · exact .refl
  · refine .ites .refl ?_
    split
    · exact .refl
    · exact ((enqueueHeavy_only _ _ _).andThen (askBatons_only _ _)).mono (by decide)

theorem queuePasses_only (s : State) (zk : Nat) : Only [.work, .dies, .broker] s (s.queuePasses zk) := .each fun _ _ => queuePass_only _ _ _

theorem restoreLanding_only (s : State) (since : Nat) : Only restoreParts s (s.restoreLanding since) := by
  unfold State.restoreLanding
  refine Only.trans ?_ (.each fun _ _ => (queuePasses_only _ _).mono (by decide))
  refine Only.trans ?_ ((raise_only _ _ _ _ _ _ _).mono (by decide))
  refine Only.trans ?_ ((compareDirty_only _).mono (by decide))
  exact ((onWork_only _ _).andThen (mapDies_only _ _)).mono (by decide)

theorem restoreFailures_only (s : State) (bad : List LandUnit) : Only [.evr, .aon] s (s.restoreFailures bad) :=
  .each fun _ _ => raiseDie_only _ _ _ _ _ _ _

theorem retireBlock_only (s : State) (k block cause : Nat) : Only restoreParts s (s.retireBlock k block cause).2 := by
  have htell (v : State) (c : Prop) [Decidable c] (src : Nat) : Only restoreParts v (if c then v.raise 0x0493 src k 4 0 0 else v) :=
    .ite ((raise_only _ _ _ _ _ _ _).mono (by decide))
  unfold State.retireBlock
  dsimp only
  split
  · exact ((raiseDie_only _ _ _ _ _ _ _).mono (by decide)).trans ((loseDie_only _ _ _).mono (by decide))
  · refine Only.trans ?_ (htell _ _ _)
    refine Only.trans ?_ ((raise_only _ _ _ _ _ _ _).mono (by decide))
    exact ((setDie_only _ _ _).andThen ((takeBlock_only _ _).andThen (setCntOf_only _ _ _))).mono (by decide)

/-- One block of a die's landing area retired, and the area moved (R184). -/
def State.retireLand (s : State) (k : Nat) (p : Bool × Nat) : State :=
  if (s.die k).lost then s
  else match s.retireBlock k (s.landPosition (s.die k) p.1) p.2 with
    | (none, s) => s
    | (some r, s) => s.moveLand k p.1 r

theorem retireLand_only (s : State) (k : Nat) (p : Bool × Nat) : Only restoreParts s (s.retireLand k p) := by
  have h := retireBlock_only s k (s.landPosition (s.die k) p.1) p.2
  unfold State.retireLand
  generalize s.retireBlock k (s.landPosition (s.die k) p.1) p.2 = y at h ⊢
  obtain ⟨o, v⟩ := y
  refine .ites .refl ?_
  cases o with
  | none => exact h
  | some b => exact h.trans ((setDie_only _ _ _).mono (by decide))

theorem retireLandBlocks_only (s : State) (k : Nat) : Only restoreParts s (s.retireLandBlocks k) := by
  have heq : s.retireLandBlocks k = (s.updDie k fun d => { d with landBad := [] }).each (s.die k).landBad fun p s => s.retireLand k p := rfl
  rw [heq]
  exact Only.trans ((setDie_only _ _ _).mono (by decide)) (.each fun _ _ => retireLand_only _ _ _)

/-! Losses. -/

theorem fillRows_only (s : State) (zk : Nat) (lost : List (Nat × Nat)) : Only workParts s (s.fillRows zk lost) :=
  .each fun _ _ => .ites (onWork_only _ _) (onWork_only _ _)

theorem takeLosses_only (s : State) : Only restoreParts s s.takeLosses := by
  unfold State.takeLosses
  refine .ites .refl ?_
  refine Only.trans ?_ ((compareDirty_only _).mono (by decide))
  refine Only.trans ?_ ((raise_only _ _ _ _ _ _ _).mono (by decide))
  refine Only.trans ?_ ((onStore_base_only _ _ (by rfl)).mono (by decide))
  exact .each fun _ _ => ((commitMap_only _ _ _).mono (by decide)).trans ((fillRows_only _ _ _).mono (by decide))

theorem restartRelocation_only (s : State) (k cause : Nat) (retired : Bool) : Only lossParts s (s.restartRelocation k cause retired) := by
  unfold State.restartRelocation
  split
  · exact .refl
  · exact (endRelocation_only _ _ _ _).trans ((startRelocation_only _ _ _ _).mono (by decide))

/-! The first two parts of the step. -/

theorem givePages_only (s : State) (n : Nat) : Only [.cph] s (s.givePages n) := .each fun _ _ => onCph_only _ _

theorem givePds_only (s : State) (n : Nat) : Only [.fab, .windows] s (s.givePds n) := .each fun _ _ => onFab_only _ _

/-- A tenant of the first Warm-up (R361). -/
def firstTenant (n : Nat) (s : State) : State :=
  if (s.tenant n).st ≠ .free then s else ((s.updTenant n fun x => { x with st := .active }).givePages n).givePds n

theorem firstTenant_keeps {m : Nat} (h : (s.tenant m).st ≠ .free ∨ m = n) : ((firstTenant n s).tenant m).st ≠ .free := by
  unfold firstTenant
  split
  · rename_i hn
    exact h.elim id fun hm => hm ▸ hn
  · have hgive : (((s.updTenant n fun x => { x with st := .active }).givePages n).givePds n).tenants =
        (s.updTenant n fun x => { x with st := .active }).tenants := ((givePages_only _ _).andThen (givePds_only _ _)) .tenants (by decide)
    rw [tenant_congr hgive, State.updTenant_eq, State.tenant_setTenant]
    split
    · simp
    · rename_i hne
      exact h.resolve_right hne

theorem firstTenants_zero (s : State) : (s.firstTenants.tenant 0).st ≠ .free := by
  have heq : s.firstTenants = s.each (if s.power.dual then [0, 1] else [0]) firstTenant := rfl
  rw [heq]
  split
  · exact firstTenant_keeps (.inl (firstTenant_keeps (.inr rfl)))
  · exact firstTenant_keeps (.inr rfl)

theorem reportEnergy_none (s : State) : s.reportEnergy.aon.hsFigures = none ∧ s.reportEnergy.store.figures = none ∧
    s.reportEnergy.tenants = s.tenants := by
  have htell (u p c kib : Nat) : Only [.bank, .evr, .aon] s ((s.onBank fun b => { b with used := u, pred := p }).raise 0x0E1A srcLoopEngine u p c kib) :=
    (onBank_only _ _).andThen (raise_only _ _ _ _ _ _ _)
  unfold State.reportEnergy
  refine ⟨rfl, rfl, ?_⟩
  change State.tenants (match s.aon.hsFigures, s.store.figures with
    | some (used, pred, kib, cut), _ => _
    | none, some (used, pred, kib) => _
    | none, none => if s.store.lostEpoch then _ else s) = s.tenants
  split
  · exact htell _ _ _ _ .tenants (by decide)
  · exact htell _ _ _ _ .tenants (by decide)
  · split
    · exact htell _ _ _ _ .tenants (by decide)
    · rfl

/-! The step. -/

/-- What the checkpoint and the landing area give back (R87, R184, R194, R285, R439). -/
def State.restored (s : State) (r : WarmupReport) : State :=
  let s := s.each s.heldSlots fun t s => (s.accrueRa t).accrueDash t
  let s := s.each s.store.tenantWords fun p s => s.setCfgAt p.1 (p.2.getD (resetWord p.1))
  let bad := r.restoreBad.filterMap fun i => s.store.directory[i]?
  let s := (s.restoreLanding s.power.readyAt).restoreFailures bad
  let s := (s.each (s.dies.map fun p => p.1) fun k s => s.retireLandBlocks k).takeLosses
  let s := s.each (Tbl.numbers (fun d => d.reloc.isSome) s.dies) fun k s => s.restartRelocation k 4 false
  let s := (s.restoreAges.restoreSeeds.markRearm).each bad fun u s => s.updZone u.zk fun z => { z with rearm := max 1 z.rearm }
  s.mapZones fun _ z => { z with patrolled := [] }

theorem warmup10_eq (s : State) (r : WarmupReport) : ∃ since, s.warmup10 r = ((s.firstTenants.reportEnergy.restored r).onStore fun t =>
    { t with patrolSince := since, patrolPasses := 0, patrolProgress := 0, calmImage := none }).markStep 10 := by
  unfold State.warmup10 State.restored
  exact ⟨_, rfl⟩

theorem restored_only (s : State) (r : WarmupReport) : Only restoreParts s (s.restored r) := by
  unfold State.restored
  refine Only.trans ?_ ((mapZones_only _ _).mono (by decide))
  refine Only.trans ?_ (.each fun _ _ => (setZone_only _ _ _).mono (by decide))
  refine Only.trans ?_ ((mapZones_only _ _).mono (by decide))
  refine Only.trans ?_ (restoreSeeds_only _)
  refine Only.trans ?_ ((mapZones_only _ _).mono (by decide))
  refine Only.trans ?_ (.each fun _ _ => (restartRelocation_only _ _ _ _).mono (by decide))
  refine Only.trans ?_ (takeLosses_only _)
  refine Only.trans ?_ (.each fun _ _ => retireLandBlocks_only _ _)
  refine Only.trans ?_ ((restoreFailures_only _ _).mono (by decide))
  refine Only.trans ?_ (restoreLanding_only _ _)
  refine Only.trans ?_ (.each fun _ _ => (setCfgAt_only _ _ _).mono (by decide))
  exact .each fun _ _ => ((accrueRa_only _ _).trans (accrueDash_only _ _)).mono (by decide)

theorem hsFigures_of_base {x y : Aon} (h : x.base = y.base) : x.hsFigures = y.hsFigures :=
  have hf := congrArg Aon.hsFigures h
  hf

theorem tenantSt_of_base {x y : Tenant} (h : x.base = y.base) : x.st = y.st :=
  have hf := congrArg Tenant.st h
  hf

theorem warmup10_restores (s : State) (r : WarmupReport) : (s.warmup10 r).stepComplete 10 = true ∧ ((s.warmup10 r).tenant 0).st ≠ .free ∧
    (s.warmup10 r).aon.hsFigures = none ∧ (s.warmup10 r).store.figures = none ∧ (s.warmup10 r).store.patrolPasses = 0 := by
  obtain ⟨since, heq⟩ := warmup10_eq s r
  obtain ⟨hhs, hfig, htenants⟩ := reportEnergy_none s.firstTenants
  have hzero : (s.firstTenants.reportEnergy.tenant 0).st ≠ .free := by
    rw [tenant_congr htenants]
    exact firstTenants_zero s
  have hkeep := restored_only s.firstTenants.reportEnergy r
  rw [heq]
  generalize s.firstTenants.reportEnergy = v at hhs hfig hzero hkeep ⊢
  generalize v.restored r = w at hkeep ⊢
  have hall : Only (restoreParts ++ [.power, .powerBase, .landCause]) v ((w.onStore fun t =>
      { t with patrolSince := since, patrolPasses := 0, patrolProgress := 0, calmImage := none }).markStep 10) :=
    (hkeep.trans ((onStore_base_only _ _ (by rfl)).mono (by decide))).andThen (markStep_only _ _)
  have hstore : ((w.onStore fun t =>
      { t with patrolSince := since, patrolPasses := 0, patrolProgress := 0, calmImage := none }).markStep 10).store =
      { w.store with patrolSince := since, patrolPasses := 0, patrolProgress := 0, calmImage := none } := markStep_only _ 10 .store (by decide)
  exact ⟨stepComplete_markStep _ (by decide), fun h => hzero ((tenantSt_of_base (hall .tenantBase (by decide) 0)).symm.trans h),
    (hsFigures_of_base (hall .always (by decide))).trans hhs, Eq.trans (hall .figures (by decide)) hfig, by rw [hstore]⟩

end

end Sys2Proof.Machine
end

section
/-! The quiet point (R24, R222, R369, R372, R373, R486, R567): what each of its parts touches, and what it makes of a tenant. -/

namespace Sys2Proof.Machine

section
variable {s t u : State} {n m : Nat}

/-- One entry of a list takes `P` to `Q`, and no other undoes either. -/
theorem State.each_turns {l : List Nat} {f : Nat → State → State} {P Q : State → Prop} (hm : m ∈ l) (hP : ∀ n s, n ≠ m → P s → P (f n s))
    (hPQ : ∀ s, P s → Q (f m s)) (hQ : ∀ n s, Q s → Q (f n s)) (s : State) (h : P s) : Q (s.each l f) := by
  induction l generalizing s with
  | nil => exact absurd hm (by simp)
  | cons n l ih =>
    rw [State.each_cons]
    by_cases hn : n = m
    · exact State.each_keeps Q l f (fun x v hv => hQ x v hv) _ (hn ▸ hPQ s h)
    · exact ih ((List.mem_cons.1 hm).resolve_left fun hm' => hn hm'.symm) _ (hP n s hn h)

/-! Pending values. -/

/-- What the pending values put in force can touch. -/
def liveParts : List Part := [.regs, .tenants, .evr, .aon, .loops]

theorem applyBits_only (s : State) (w : LiveWrite) (x : Word) : Only [.regs] s (s.applyBits w x) := setCfgAt_only _ _ _

theorem applyLive_only (s : State) (w : LiveWrite) : Only liveParts s (s.applyLive w) := by
  have hbits (v : State) (x : Word) : Only liveParts v (v.applyBits w x) := (applyBits_only _ _ _).mono (by decide)
  have hraise (v : State) (code src a b c d : Nat) : Only liveParts v (v.raise code src a b c d) := (raise_only _ _ _ _ _ _ _).mono (by decide)
  have hra (v : State) (n : Nat) : Only liveParts v (v.accrueRa n) := (accrueRa_only _ _).mono (by decide)
  have hdash (v : State) (n : Nat) : Only liveParts v (v.accrueDash n) := (accrueDash_only _ _).mono (by decide)
  unfold State.applyLive
  dsimp only
  split
  · exact .ites ((hra _ _).trans ((hbits _ _).trans ((hraise _ _ _ _ _ _ _).trans (hraise _ _ _ _ _ _ _)))) ((hra _ _).trans (hbits _ _))
  · exact .ites ((hdash _ _).trans ((hbits _ _).trans (hraise _ _ _ _ _ _ _))) ((hdash _ _).trans (hbits _ _))
  · exact .ites .refl (hbits _ _)
  · exact hbits _ _
  · exact (hbits _ _).trans ((setLoop_only _ _ _).mono (by decide))
  · exact hbits _ _

theorem applyPending_only (s : State) : Only liveParts s s.applyPending :=
  Only.trans ((onRegs_only _ _).mono (by decide)) (.each fun _ _ => applyLive_only _ _)

/-! Bound sets. -/

theorem applySets_only (s : State) : Only [.tmk, .tmkBase] s s.applySets := by
  unfold State.applySets
  split
  · exact .refl
  · exact onTmk_only _ _

theorem applySets_inForce (s : State) : s.applySets.tmk.inForce = s.tmk.inForce := by
  unfold State.applySets
  split <;> rfl

theorem applySets_sets {x : List BoundSet} (h : s.tmk.next = some x) : s.applySets.tmk.sets = x ∧ s.applySets.tmk.next = none := by
  unfold State.applySets
  rw [h]
  exact ⟨rfl, rfl⟩

/-! Bundles. -/

theorem appendEntry_only (s : State) (reason : Nat) : Only [.boot, .evr, .aon] s (s.appendEntry reason) :=
  .ites (((onBoot_only _ _).andThen ((onBoot_only _ _).andThen (raise_only _ _ _ _ _ _ _))).mono (by decide)) ((onBoot_only _ _).mono (by decide))

theorem appendEntry_bundles (s : State) (reason : Nat) : (s.appendEntry reason).boot.bundles = s.boot.bundles := by
  unfold State.appendEntry
  split
  · unfold State.missEntry
    dsimp only
    rw [boot_raise]
    rfl
  · rfl

theorem appendEntry_room (reason : Nat) (h : s.evr.queue.length < 200) : (s.appendEntry reason).evr.queue.length < 224 := by
  unfold State.appendEntry
  split
  · unfold State.missEntry
    dsimp only
    generalize hv : (s.onBoot fun b => { b with missed := b.missed + 1 }).writeHeader = v
    have hevr : v.evr = s.evr := hv ▸ rfl
    rcases length_raise v 0x0C03 v.srcStarters v.boot.missed (bit v.strictLedger) 0 0 with hl | ⟨-, hl⟩
    · rw [hl, hevr]
      omega
    · rw [hl, hevr]
      omega
  · exact Nat.lt_trans h (by decide)

/-- A bundle applied: its records, its ledger entry, event 0x0C07 and its completion (R485). -/
def applyBundle (x : Hdr × Bundle) (s : State) : State :=
  let s := s.each (x.2.records.filter fun r => !isWrites r) fun r s => s.applyRecord r
  ((s.appendEntry 3).raise 0x0C07 s.srcStarters x.2.records.length (s.now % 2 ^ 32) 0 0).complete x.1 .success

theorem applyBundles_eq (s : State) : s.applyBundles = (s.onBoot fun b => { b with bundles := [] }).each s.boot.bundles applyBundle := rfl

theorem applyBundles_none (h : s.boot.bundles = []) : s.applyBundles = s.onBoot fun b => { b with bundles := [] } := by
  rw [applyBundles_eq, h]
  rfl

/-- What the end of a bundle without records can touch. -/
def bundleParts : List Part := postParts ++ [.boot]

theorem applyBundle_empty {x : Hdr × Bundle} (h : x.2.records = []) (hroom : s.evr.queue.length < 200) :
    (applyBundle x s).boot.bundles = s.boot.bundles ∧ Recorded s (applyBundle x s) 0x0C07 s.srcStarters 0 (s.now % 2 ^ 32) 0 0 ∧
      Only bundleParts s (applyBundle x s) := by
  have heq : applyBundle x s = ((s.appendEntry 3).raise 0x0C07 s.srcStarters 0 (s.now % 2 ^ 32) 0 0).complete x.1 .success := by
    unfold applyBundle
    rw [h]
    rfl
  have happend := appendEntry_only s 3
  have hrec := recorded_raise (s := s) (appendEntry_room 3 hroom) (now_of_base (happend .always (by decide))) (code := 0x0C07)
    ⟨by decide, by decide⟩ s.srcStarters 0 (s.now % 2 ^ 32) 0 0
  have hdone := complete_only ((s.appendEntry 3).raise 0x0C07 s.srcStarters 0 (s.now % 2 ^ 32) 0 0) x.1 .success
  rw [heq]
  refine ⟨?_, hdone .records (by decide) _ hrec, ?_⟩
  · rw [hdone .boot (by decide), boot_raise, appendEntry_bundles]
  · exact Only.trans (Only.trans (happend.mono (by decide)) ((raise_only _ _ _ _ _ _ _).mono (by decide))) (hdone.mono (by decide))

/-! Shares. -/

/-- A tenant once its new shares are in force (R373). -/
def Tenant.shared (x : Tenant) : Tenant :=
  match x.pending with
  | none => x
  | some l => { x with lim := { l with holdMs := x.lim.holdMs }, pending := none }

/-- What the notices of a change of shares can touch (R83, R373). -/
def shareParts : List Part := lossParts ++ [.fab, .windows]

theorem applyShares_from (old : State) (n : Nat) (s : State) : Only shareParts (s.setTenant n (s.tenant n).shared) (State.applyShares old n s) ∨
    (s.tenant n).shared = s.tenant n ∧ State.applyShares old n s = s := by
  have htell (v : State) (c : Prop) [Decidable c] (l : List Nat) : Only shareParts v (if c then v
      else v.each l fun k s => s.notify n (.namespaceAttribute k)) :=
    .ites .refl (.each fun _ _ => (notify_only _ _ _).mono (by decide))
  unfold State.applyShares Tenant.shared
  cases hp : (s.tenant n).pending with
  | none => exact .inr ⟨rfl, rfl⟩
  | some l =>
    refine .inl (Only.trans ?_ (htell _ _ _))
    refine Only.trans ?_ ((raise_only _ _ _ _ _ _ _).mono (by decide))
    exact (givePds_only _ _).mono (by decide)

theorem applyShares_tenant (old : State) (n : Nat) (s : State) (m : Nat) : ((State.applyShares old n s).tenant m).base =
    (if m = n then (s.tenant m).shared else s.tenant m).base := by
  rcases applyShares_from old n s with h | ⟨hsame, h⟩
  · rw [h .tenantBase (by decide) m, State.tenant_setTenant]
    split
    · rename_i hm
      rw [hm]
    · rfl
  · rw [h]
    split
    · rename_i hm
      rw [hm, hsame]
    · rfl

theorem applyShares_only (old : State) (n : Nat) (s : State) : Only (shareParts ++ [.tenantBase]) s (State.applyShares old n s) := by
  rcases applyShares_from old n s with h | ⟨-, h⟩
  · exact ((setTenant_only _ _ _).mono (by decide)).trans (h.mono (by decide))
  · rw [h]
    exact .refl

/-! Key pages, created tenants, and tenants that become ready. -/

theorem returnPages_only (n : Nat) (s : State) : Only [.cph] s (State.returnPages n s) := .each fun _ _ => onCph_only _ _

/-- A tenant once it is created (R372). -/
def Tenant.activated (x : Tenant) : Tenant := if x.creating then { x with st := .active, creating := false } else x

theorem fillCompat_only (s : State) (n : Nat) : Only [.tenants] s (s.fillCompat n) := setTenant_base_only _ _ _ (by rfl)

theorem activateTenant_tenant (n : Nat) (s : State) (m : Nat) : ((State.activateTenant n s).tenant m).base =
    (if m = n then (s.tenant m).activated else s.tenant m).base := by
  unfold State.activateTenant Tenant.activated
  split
  · rename_i hc
    rw [fillCompat_only _ _ .tenantBase (by decide) m, State.updTenant_eq, State.tenant_setTenant]
    split
    · rename_i hm
      rw [hm, if_pos hc]
    · rfl
  · rename_i hc
    split
    · rename_i hm
      rw [hm, if_neg hc]
    · rfl

theorem activateTenant_only (n : Nat) (s : State) : Only [.tenants, .tenantBase] s (State.activateTenant n s) :=
  .ite ((setTenant_only _ _ _).trans ((fillCompat_only _ _).mono (by decide)))

/-- A tenant that the quiet point finds active once Warm-up has gone through the tenants (R56, R372). -/
def State.LateFor (s : State) (n : Nat) : Prop :=
  s.tmk.inForce = true ∧ s.stepComplete 13 = true ∧ (s.tenant n).st = .active ∧ (s.tenant n).ending = none

theorem readyLate_only (n : Nat) (s : State) : Only [.tenants, .tenantBase, .ctrls] s (State.readyLate n s) := .ite (readyTenant_only _ _)

theorem readyLate_tenant (n : Nat) (s : State) (m : Nat) : (State.readyLate n s).tenant m = s.tenant m ∨
    (State.readyLate n s).tenant m = { s.tenant m with ready := true } := by
  unfold State.readyLate
  dsimp only
  split
  · rw [readyTenant_tenant]
    split
    · rename_i hm
      exact .inr (by rw [hm])
    · exact .inl rfl
  · exact .inl rfl

theorem readyLate_late (h : s.LateFor m) (n : Nat) : (State.readyLate n s).LateFor m := by
  obtain ⟨hin, h13, hst, hend⟩ := h
  have hkeep := readyLate_only n s
  have htmk : (State.readyLate n s).tmk = s.tmk := hkeep .tmk (by decide)
  have hpower : (State.readyLate n s).power = s.power := hkeep .power (by decide)
  refine ⟨by rw [htmk, hin], by rw [stepComplete_congr (congrArg Power.stepDone hpower), h13], ?_⟩
  rcases readyLate_tenant n s m with h | h
  · rw [h]
    exact ⟨hst, hend⟩
  · rw [h]
    exact ⟨hst, hend⟩

theorem readyLate_readied (h : (s.tenant m).ready = true) (n : Nat) : ((State.readyLate n s).tenant m).ready = true := by
  rcases readyLate_tenant n s m with h' | h'
  · rw [h', h]
  · rw [h']

theorem readyLate_readies (h : s.LateFor n) : ((State.readyLate n s).tenant n).ready = true := by
  obtain ⟨hin, h13, hst, hend⟩ := h
  cases hr : (s.tenant n).ready with
  | true => exact readyLate_readied hr n
  | false =>
    have heq : State.readyLate n s = s.readyTenant n := if_pos (by simp [hin, h13, hst, hend, hr])
    rw [heq]
    exact readyTenant_ready (.inr rfl)

end

end Sys2Proof.Machine
end

section
/-! The quiet point as a whole (R222, R372, R373, R485, R486): its stages, and what becomes of a bundle, of bound sets and of a tenant. -/

namespace Sys2Proof.Machine

section
variable {s t u : State} {n m : Nat}

/-! A tenant's standing. -/

theorem standing_of_base {x y : Tenant} (h : x.base = y.base) : x.st = y.st ∧ x.ending = y.ending ∧ x.creating = y.creating ∧
    x.pending = y.pending ∧ x.lim = y.lim := by
  have hst := congrArg Tenant.st h
  have hend := congrArg Tenant.ending h
  have hcr := congrArg Tenant.creating h
  have hp := congrArg Tenant.pending h
  have hl := congrArg Tenant.lim h
  exact ⟨hst, hend, hcr, hp, hl⟩

/-- A property of a tenant that no booking of a command changes. -/
def Standing (P : Tenant → Prop) : Prop := ∀ x y : Tenant, x.base = y.base → P y → P x

theorem standing_active : Standing fun x => x.st = .active ∧ x.ending = none := by
  intro x y h hy
  obtain ⟨hst, hend, -⟩ := standing_of_base h
  exact ⟨hst.trans hy.1, hend.trans hy.2⟩

theorem standing_creating : Standing fun x => x.creating = true := by
  intro x y h hy
  obtain ⟨-, -, hcr, -⟩ := standing_of_base h
  exact hcr.trans hy

theorem standing_created : Standing fun x => x.st = .active ∧ x.creating = false := by
  intro x y h hy
  obtain ⟨hst, -, hcr, -⟩ := standing_of_base h
  exact ⟨hst.trans hy.1, hcr.trans hy.2⟩

theorem standing_limits (p : Option Limits) (l : Limits) : Standing fun x => x.pending = p ∧ x.lim = l := by
  intro x y h hy
  obtain ⟨-, -, -, hp, hl⟩ := standing_of_base h
  exact ⟨hp.trans hy.1, hl.trans hy.2⟩

theorem shared_standing (x : Tenant) : x.shared.st = x.st ∧ x.shared.ending = x.ending ∧ x.shared.creating = x.creating := by
  unfold Tenant.shared
  split <;> exact ⟨rfl, rfl, rfl⟩

theorem activated_standing (x : Tenant) : x.activated.ending = x.ending ∧ x.activated.pending = x.pending ∧ x.activated.lim = x.lim ∧
    (x.st = .active → x.activated.st = .active) := by
  unfold Tenant.activated
  split
  · exact ⟨rfl, rfl, rfl, fun _ => rfl⟩
  · exact ⟨rfl, rfl, rfl, id⟩

theorem mem_heldSlots (h : (s.tenant n).st ≠ .free ∨ (s.tenant n).creating = true) : n ∈ s.heldSlots := by
  refine Tbl.mem_numbers (d := {}) rfl ?_
  change ((s.tenant n).st != .free || (s.tenant n).creating) = true
  simpa using h

/-! The stages. -/

/-- Pending values, bound sets and bundles applied. -/
def State.quietApplied (s : State) : State := s.applyPending.applySets.applyBundles

/-- New shares put in force (R373). -/
def State.sharesApplied (s old : State) : State := s.each s.heldSlots fun t s => State.applyShares old t s

/-- Key pages given back (R369). -/
def State.pagesReturned (s : State) : State := s.each s.heldSlots State.returnPages

/-- Created tenants active (R372). -/
def State.tenantsActivated (s : State) : State := s.each s.heldSlots State.activateTenant

/-- Active tenants ready (R56). -/
def State.tenantsReadied (s : State) : State := s.each s.heldSlots State.readyLate

theorem quietPoint_eq (s : State) : s.quietPoint = ((s.quietApplied.sharesApplied s).pagesReturned).tenantsActivated.tenantsReadied := rfl

theorem exec_quietPoint (h : s.takesQuietPoint = true) : exec .quietPoint s = .next s.quietPoint := by
  simp [exec, execQuietPoint, h]

theorem sharesApplied_only (s old : State) : Only (shareParts ++ [.tenantBase]) s (s.sharesApplied old) := .each fun _ _ => applyShares_only _ _ _

theorem pagesReturned_only (s : State) : Only [.cph] s s.pagesReturned := .each returnPages_only

theorem tenantsActivated_only (s : State) : Only [.tenants, .tenantBase] s s.tenantsActivated := .each activateTenant_only

theorem tenantsReadied_only (s : State) : Only [.tenants, .tenantBase, .ctrls] s s.tenantsReadied := .each readyLate_only

/-- What the quiet point can touch once bundles are applied. -/
def tenantParts : List Part := shareParts ++ [.tenantBase, .cph]

theorem quietPoint_from (s : State) : Only tenantParts s.quietApplied s.quietPoint := by
  rw [quietPoint_eq]
  refine Only.trans ?_ ((tenantsReadied_only _).mono (by decide))
  refine Only.trans ?_ ((tenantsActivated_only _).mono (by decide))
  exact Only.trans ((sharesApplied_only _ _).mono (by decide)) ((pagesReturned_only _).mono (by decide))

theorem sharesApplied_keeps {P : Tenant → Prop} (hP : Standing P) (hs : ∀ x, P x → P x.shared) (old : State) (h : P (s.tenant n)) :
    P ((s.sharesApplied old).tenant n) := by
  refine State.each_keeps (fun v => P (v.tenant n)) _ _ (fun k v hv => hP _ _ (applyShares_tenant old k v n) ?_) s h
  split
  · exact hs _ hv
  · exact hv

theorem pagesReturned_tenant (s : State) (n : Nat) : s.pagesReturned.tenant n = s.tenant n :=
  tenant_congr (pagesReturned_only s .tenants (by decide)) n

theorem tenantsActivated_keeps {P : Tenant → Prop} (hP : Standing P) (ha : ∀ x, P x → P x.activated) (h : P (s.tenant n)) :
    P (s.tenantsActivated.tenant n) := by
  refine State.each_keeps (fun v => P (v.tenant n)) _ _ (fun k v hv => hP _ _ (activateTenant_tenant k v n) ?_) s h
  split
  · exact ha _ hv
  · exact hv

theorem tenantsReadied_keeps {P : Tenant → Prop} (hr : ∀ x, P x → P { x with ready := true }) (h : P (s.tenant n)) :
    P (s.tenantsReadied.tenant n) := by
  refine State.each_keeps (fun v => P (v.tenant n)) _ _ (fun k v hv => ?_) s h
  rcases readyLate_tenant k v n with h' | h'
  · rw [h']
    exact hv
  · rw [h']
    exact hr _ hv

/-- A created tenant is active after its stage (R372). -/
theorem tenantsActivated_created (h : (s.tenant n).creating = true) :
    (s.tenantsActivated.tenant n).st = .active ∧ (s.tenantsActivated.tenant n).creating = false := by
  refine State.each_turns (m := n) (P := fun v => (v.tenant n).creating = true)
    (Q := fun v => (v.tenant n).st = .active ∧ (v.tenant n).creating = false) (mem_heldSlots (.inr h)) ?_ ?_ ?_ s h
  · intro k v hne hv
    exact standing_creating _ _ (activateTenant_tenant k v n) (by rw [if_neg fun hk => hne hk.symm]; exact hv)
  · intro v hv
    refine standing_created _ _ (activateTenant_tenant n v n) ?_
    rw [if_pos rfl, Tenant.activated, if_pos hv]
    exact ⟨rfl, rfl⟩
  · intro k v hv
    refine standing_created _ _ (activateTenant_tenant k v n) ?_
    split
    · rw [Tenant.activated, if_neg (by rw [hv.2]; exact Bool.false_ne_true)]
      exact hv
    · exact hv

/-- New limits are in force after their stage, with the old hold time (R373). -/
theorem sharesApplied_limits {l : Limits} (old : State) (hst : (s.tenant n).st ≠ .free) (hp : (s.tenant n).pending = some l) :
    ((s.sharesApplied old).tenant n).pending = none ∧
      ((s.sharesApplied old).tenant n).lim = { l with holdMs := (s.tenant n).lim.holdMs } := by
  refine State.each_turns (m := n) (P := fun v => (v.tenant n).pending = some l ∧ (v.tenant n).lim = (s.tenant n).lim)
    (Q := fun v => (v.tenant n).pending = none ∧ (v.tenant n).lim = { l with holdMs := (s.tenant n).lim.holdMs }) (mem_heldSlots (.inl hst)) ?_ ?_ ?_
    s ⟨hp, rfl⟩
  · intro k v hne hv
    exact standing_limits _ _ _ _ (applyShares_tenant old k v n) (by rw [if_neg fun hk => hne hk.symm]; exact hv)
  · intro v hv
    refine standing_limits _ _ _ _ (applyShares_tenant old n v n) ?_
    rw [if_pos rfl, Tenant.shared, hv.1]
    exact ⟨rfl, by rw [hv.2]⟩
  · intro k v hv
    refine standing_limits _ _ _ _ (applyShares_tenant old k v n) ?_
    split
    · rw [Tenant.shared, hv.1]
      exact hv
    · exact hv

/-- An active tenant is ready after the last stage (R56, R372). -/
theorem tenantsReadied_ready (h : s.LateFor n) : (s.tenantsReadied.tenant n).ready = true := by
  have hst : (s.tenant n).st ≠ .free := by
    rw [h.2.2.1]
    simp
  exact State.each_turns (m := n) (P := fun v => v.LateFor n) (Q := fun v => (v.tenant n).ready = true) (mem_heldSlots (.inl hst))
    (fun k v _ hv => readyLate_late hv k) (fun v hv => readyLate_readies hv) (fun k v hv => readyLate_readied hv k) s h

/-! Without a bundle. -/

/-- What pending values and bound sets can touch. -/
def setParts : List Part := liveParts ++ [.tmk, .tmkBase]

theorem setsApplied_only (s : State) : Only setParts s s.applyPending.applySets :=
  ((applyPending_only s).mono (by decide)).trans ((applySets_only _).mono (by decide))

theorem quietApplied_none (h : s.boot.bundles = []) :
    s.quietApplied = s.applyPending.applySets.onBoot fun b => { b with bundles := [] } :=
  applyBundles_none (by rw [setsApplied_only s .boot (by decide), h])

theorem quietApplied_only (h : s.boot.bundles = []) : Only (setParts ++ [.boot]) s s.quietApplied := by
  rw [quietApplied_none h]
  exact (setsApplied_only s).andThen (onBoot_only _ _)

theorem quietApplied_tmk (h : s.boot.bundles = []) : s.quietApplied.tmk = s.applyPending.applySets.tmk := by
  rw [quietApplied_none h]
  rfl

theorem inForce_of_base {x y : Timekeeper} (h : x.base = y.base) : x.inForce = y.inForce :=
  have hf := congrArg Timekeeper.inForce h
  hf

theorem sets_of_base {x y : Timekeeper} (h : x.base = y.base) : x.sets = y.sets ∧ x.next = y.next :=
  have hs := congrArg Timekeeper.sets h
  have hn := congrArg Timekeeper.next h
  ⟨hs, hn⟩

theorem quietPoint_readies (hin : s.tmk.inForce = true) (h13 : s.stepComplete 13 = true) (hst : (s.tenant n).st = .active)
    (hend : (s.tenant n).ending = none) (hb : s.boot.bundles = []) : (s.quietPoint.tenant n).ready = true := by
  have hone := quietApplied_only hb
  have htmk : s.quietApplied.tmk.inForce = true := by
    rw [quietApplied_tmk hb, applySets_inForce, applyPending_only s .tmk (by decide), hin]
  have hstands : (s.quietApplied.tenant n).st = .active ∧ (s.quietApplied.tenant n).ending = none :=
    standing_active _ _ (hone .tenantBase (by decide) n) ⟨hst, hend⟩
  have hshared := sharesApplied_keeps standing_active (fun x hx => by
    obtain ⟨h1, h2, -⟩ := shared_standing x
    exact ⟨h1.trans hx.1, h2.trans hx.2⟩) s hstands
  rw [← pagesReturned_tenant] at hshared
  have hactive := tenantsActivated_keeps standing_active (fun x hx => by
    obtain ⟨h1, -, -, h2⟩ := activated_standing x
    exact ⟨h2 hx.1, h1.trans hx.2⟩) hshared
  have hkeep : Only tenantParts s.quietApplied (s.quietApplied.sharesApplied s).pagesReturned.tenantsActivated :=
    Only.trans (Only.trans ((sharesApplied_only _ _).mono (by decide)) ((pagesReturned_only _).mono (by decide)))
      ((tenantsActivated_only _).mono (by decide))
  have hpower : (s.quietApplied.sharesApplied s).pagesReturned.tenantsActivated.power = s.power :=
    Eq.trans (hkeep .power (by decide)) (hone .power (by decide))
  rw [quietPoint_eq]
  exact tenantsReadied_ready ⟨(inForce_of_base (hkeep .tmkBase (by decide))).trans htmk,
    (stepComplete_congr (congrArg Power.stepDone hpower) 13).trans h13, hactive⟩

theorem quietPoint_sets {x : List BoundSet} (hx : s.tmk.next = some x) (hb : s.boot.bundles = []) :
    s.quietPoint.tmk.sets = x ∧ s.quietPoint.tmk.next = none := by
  obtain ⟨hsets, hnext⟩ := sets_of_base (quietPoint_from s .tmkBase (by decide))
  have hpending : s.applyPending.tmk.next = some x := by rw [applyPending_only s .tmk (by decide), hx]
  obtain ⟨h1, h2⟩ := applySets_sets hpending
  rw [quietApplied_tmk hb] at hsets hnext
  exact ⟨hsets.trans h1, hnext.trans h2⟩

theorem quietPoint_limits {l : Limits} (hst : (s.tenant n).st ≠ .free) (hp : (s.tenant n).pending = some l) (hb : s.boot.bundles = []) :
    (s.quietPoint.tenant n).pending = none ∧ (s.quietPoint.tenant n).lim = { l with holdMs := (s.tenant n).lim.holdMs } := by
  obtain ⟨hst', -, -, hp', hl'⟩ := standing_of_base (quietApplied_only hb .tenantBase (by decide) n)
  have hshared := sharesApplied_limits s (fun h => hst (hst'.symm.trans h)) (hp'.trans hp)
  rw [hl', ← pagesReturned_tenant] at hshared
  have hactive := tenantsActivated_keeps (standing_limits _ _) (fun x hx => by
    obtain ⟨-, h1, h2, -⟩ := activated_standing x
    exact ⟨h1.trans hx.1, h2.trans hx.2⟩) hshared
  rw [quietPoint_eq]
  exact tenantsReadied_keeps (P := fun x => x.pending = none ∧ x.lim = { l with holdMs := (s.tenant n).lim.holdMs }) (fun _ hx => hx) hactive

/-! With bundles. -/

/-- A tenant that is being created still is. -/
def CreatingKept (s t : State) : Prop := ∀ n, (s.tenant n).creating = true → (t.tenant n).creating = true

theorem CreatingKept.of_base (h : ∀ n, (t.tenant n).base = (s.tenant n).base) : CreatingKept s t := fun n hn => standing_creating _ _ (h n) hn

theorem CreatingKept.trans (h : CreatingKept s t) (g : CreatingKept t u) : CreatingKept s u := fun n hn => g n (h n hn)

theorem CreatingKept.each {α : Type} {l : List α} {f : α → State → State} (step : ∀ x s, CreatingKept s (f x s)) : CreatingKept s (s.each l f) :=
  State.each_keeps (fun t => CreatingKept s t) l f (fun x _ h => h.trans (step x _)) s fun _ h => h

theorem writeTriples_only (s : State) (ws : List RegTriple) : Only [.regs] s (s.writeTriples ws) := .each fun _ _ => setCfgAt_only _ _ _

theorem recompute_only (s : State) : Only [.tmk, .tmkBase] s s.recompute := .ite (onTmk_only _ _)

theorem pend_only (s : State) (o : Nat) (a v : Word) : Only [.regs, .tmk, .tmkBase] s (s.pend o a v) := by
  unfold State.pend
  exact .thenIf ((onRegs_only _ _).mono (by decide)) ((recompute_only _).mono (by decide))

theorem applyRecord_creating (s : State) (r : CfgRecord) : CreatingKept s (s.applyRecord r) := by
  have hput (ws : List RegTriple) : Only [.regs, .tmk, .tmkBase] s
      (if r.live then s.each (s.presentWrites ws) fun t s => s.pend t.offset t.mask t.value else s.writeTriples ws) :=
    .ites (.each fun _ _ => pend_only _ _ _ _) ((writeTriples_only _ _).mono (by decide))
  unfold State.applyRecord
  dsimp only
  split
  · exact .of_base (hput _ .tenantBase (by decide))
  · exact .of_base (hput _ .tenantBase (by decide))
  · exact .of_base (onStore_only _ _ .tenantBase (by decide))
  · exact .of_base (onStore_only _ _ .tenantBase (by decide))
  · split
    · intro n hn
      rw [State.updTenant_eq, State.tenant_setTenant]
      split
      · rename_i h
        exact h ▸ hn
      · exact hn
    · exact fun _ h => h
  · exact fun _ h => h

theorem applyBundle_creating (x : Hdr × Bundle) (s : State) : CreatingKept s (applyBundle x s) := by
  have hend (v : State) : Only bundleParts v (((v.appendEntry 3).raise 0x0C07 v.srcStarters x.2.records.length (v.now % 2 ^ 32) 0 0).complete
      x.1 .success) := by
    refine Only.trans ?_ ((complete_only _ _ _).mono (by decide))
    exact ((appendEntry_only _ _).andThen (raise_only _ _ _ _ _ _ _)).mono (by decide)
  exact CreatingKept.trans (.each fun r v => applyRecord_creating v r) (.of_base (hend _ .tenantBase (by decide)))

theorem quietApplied_creating (s : State) : CreatingKept s s.quietApplied := by
  refine CreatingKept.trans (.of_base (setsApplied_only s .tenantBase (by decide))) ?_
  refine CreatingKept.trans (.of_base (onBoot_only _ (fun b => { b with bundles := [] }) .tenantBase (by decide))) ?_
  exact .each applyBundle_creating

theorem quietPoint_creates (h : (s.tenant n).creating = true) : (s.quietPoint.tenant n).st = .active ∧ (s.quietPoint.tenant n).creating = false := by
  have hshared := sharesApplied_keeps standing_creating (fun x hx => (shared_standing x).2.2.trans hx) s (quietApplied_creating s n h)
  rw [← pagesReturned_tenant] at hshared
  rw [quietPoint_eq]
  exact tenantsReadied_keeps (P := fun x => x.st = .active ∧ x.creating = false) (fun _ hx => hx) (tenantsActivated_created hshared)

/-- A bundle without records: event 0x0C07, and no bundle is left (R485). -/
theorem quietPoint_bundle {h : Hdr} {b : Bundle} (hb : s.boot.bundles = [(h, b)]) (hrec : b.records = []) (hlive : s.regs.live = [])
    (hroom : s.evr.queue.length < 200) : s.quietPoint.boot.bundles = [] ∧
      Recorded s s.quietPoint 0x0C07 s.srcStarters 0 (s.now % 2 ^ 32) 0 0 := by
  have hpending : Only [.regs] s s.applyPending := by
    unfold State.applyPending
    rw [hlive]
    dsimp only [List.filter_nil, State.each_nil]
    exact onRegs_only _ _
  have hsets : Only [.regs, .tmk, .tmkBase] s s.applyPending.applySets := hpending.andThen (applySets_only _)
  have heq : s.quietApplied = applyBundle (h, b) (s.applyPending.applySets.onBoot fun b => { b with bundles := [] }) := by
    rw [State.quietApplied, applyBundles_eq, hsets .boot (by decide), hb]
    rfl
  have hfrom : Only [.regs, .tmk, .tmkBase, .boot] s (s.applyPending.applySets.onBoot fun b => { b with bundles := [] }) :=
    hsets.andThen (onBoot_only _ _)
  have hnone : (s.applyPending.applySets.onBoot fun b => { b with bundles := [] }).boot.bundles = [] := rfl
  generalize s.applyPending.applySets.onBoot (fun b => { b with bundles := [] }) = v at heq hfrom hnone
  have hevr : v.evr = s.evr := hfrom .evr (by decide)
  have hnow : v.now = s.now := now_of_base (hfrom .always (by decide))
  obtain ⟨hleft, hrecd, -⟩ := applyBundle_empty (x := (h, b)) (s := v) hrec (by rw [hevr]; exact hroom)
  rw [srcStarters_congr (hfrom .flt (by decide)), hnow] at hrecd
  rw [← heq] at hleft hrecd
  unfold Recorded at hrecd
  rw [hnow] at hrecd
  exact ⟨by rw [quietPoint_from s .boot (by decide), hleft, hnone], quietPoint_from s .records (by decide) _ hrecd⟩

end

end Sys2Proof.Machine
end

section
/-! Warm-up and quiet points: O57, clause by clause. -/

namespace Sys2Proof.Machine

section
variable {s t : State} {k : Nat} {r : WarmupReport}

theorem warmupStepDone_idle (hl : s.lastReady k = false) (h : s.stepReady k = false) : exec (.warmupStepDone k r) s = .next s := by
  simp [exec, execWarmupStepDone, hl, h]

theorem warmupStepDone_plain (hk : k = 1 ∨ k = 9) (h : s.stepReady k = true) : ∃ t, exec (.warmupStepDone k r) s = .next t ∧
    t.stepComplete k = true ∧ t.power.mode = .warmup ∧ t.out = s.out ∧ t.boot = s.boot := by
  obtain ⟨hmode, hrange, -⟩ := stepReady_facts h
  obtain ⟨hdone, hm, hkeep⟩ := warmupStep_plain (s := s) r hk
  exact ⟨_, exec_warmupStepDone h (by omega), stepComplete_of_marked hrange hdone, hm.trans hmode, hkeep .out (by decide), hkeep .boot (by decide)⟩

theorem warmupStepDone_bank {x : Image} (h : s.stepReady 2 = true) (hst : (s.boot.bank s.boot.selector).st = .valid)
    (him : (s.boot.bank s.boot.selector).image = some x) (hc : s.imageCause x = 0) (hroom : s.roomForEvents) :
    ∃ t, exec (.warmupStepDone 2 r) s = .next t ∧ t.stepComplete 2 = true ∧ t.boot.running = some x ∧ t.boot.booted = s.boot.selector ∧
      (2 ∈ t.power.holds ↔ 2 ∈ s.power.holds ∨ (x.strict = true ∧ s.boot.ledgerFull = true)) ∧
      Recorded s t 0x0C01 s.srcStarters s.boot.selector x.svn x.starter.version ((s.now - s.power.t0) / 1000000) := by
  obtain ⟨hdone, hrest⟩ := warmup2_named hst him hc hroom
  exact ⟨_, exec_warmupStepDone h (by decide), stepComplete_of_marked (by decide) hdone, hrest⟩

theorem warmupStepDone_noBank (h : s.stepReady 2 = true) (h0 : s.boot.bank0.st ≠ .valid) (h1 : s.boot.bank1.st ≠ .valid)
    (hrun : s.boot.running = none) : ∃ t, exec (.warmupStepDone 2 r) s = .next t ∧ 3 ∈ t.power.holds ∧ t.boot = s.boot ∧ t.evr = s.evr := by
  obtain ⟨hhold, hkeep⟩ := warmup2_none h0 h1 hrun
  exact ⟨_, exec_warmupStepDone h (by decide), hhold, hkeep .boot (by decide), hkeep .evr (by decide)⟩

/-! Step 3. -/

theorem marked_boot (s : State) (k : Nat) : (s.markStep k).boot = s.boot := markStep_only s k .boot (by decide)

theorem warmupStepDone_entry (h : s.stepReady 3 = true) (hf : s.boot.ledgerFull = false) (he : s.boot.erasedAhead = true) :
    ∃ t, exec (.warmupStepDone 3 r) s = .next t ∧ t.stepComplete 3 = true ∧ t.boot.seqNew = s.boot.seqNew + 1 ∧
      (∃ e, t.boot.ledger = s.boot.ledger ++ [e] ∧ e.seq = s.boot.seqNew + 1 ∧ e.reason = 1 ∧ e.bootSeq = e.seq) ∧
      t.boot.heldEntry = s.boot.heldEntry := by
  have hboot := marked_boot s 3
  have heq : (s.markStep 3).appendBootEntry = (s.markStep 3).storeEntry ((s.markStep 3).newEntry 1) :=
    appendBootEntry_stored (by rw [hboot, hf]) (by rw [hboot, he])
  have hseq : ((s.markStep 3).newEntry 1).seq = s.boot.seqNew + 1 := by rw [newEntry_seq, hboot]
  obtain ⟨hledger, hnew, hheld, hpower⟩ := storeEntry_boot (s.markStep 3) ((s.markStep 3).newEntry 1)
  obtain ⟨hreason, hbootSeq⟩ := newEntry_boot (s.markStep 3)
  rw [hboot, hseq] at hnew
  rw [hboot] at hledger hheld
  refine ⟨_, exec_warmupStepDone h (by decide), ?_⟩
  rw [show s.warmupStep 3 r = _ from heq]
  exact ⟨stepComplete_of_marked (by decide) (congrArg Power.stepDone hpower), hnew.trans (by omega), ⟨_, hledger, hseq, hreason, hbootSeq⟩, hheld⟩

theorem warmupStepDone_heldEntry (h : s.stepReady 3 = true) (hf : s.boot.ledgerFull = false) (he : s.boot.erasedAhead = false)
    (ha : s.boot.aheadErasable = true) : ∃ t, exec (.warmupStepDone 3 r) s = .next t ∧ t.stepComplete 3 = true ∧ t.boot.ledger = s.boot.ledger ∧
      ∃ e, t.boot.heldEntry = some e ∧ e.seq = s.boot.seqNew + 1 := by
  have hboot := marked_boot s 3
  have heq : (s.markStep 3).appendBootEntry = (s.markStep 3).onBoot fun b => { b with heldEntry := some ((s.markStep 3).newEntry 1) } :=
    appendBootEntry_held (by rw [hboot, hf]) (by rw [hboot, he]) (by rw [hboot, ha])
  refine ⟨_, exec_warmupStepDone h (by decide), ?_⟩
  rw [show s.warmupStep 3 r = _ from heq]
  exact ⟨stepComplete_markStep s (by decide), (congrArg BootStore.ledger hboot : (s.markStep 3).boot.ledger = s.boot.ledger), _, rfl, by rw [newEntry_seq, hboot]⟩

theorem warmupStepDone_missedEntry (h : s.stepReady 3 = true) (hf : s.boot.ledgerFull = true) : ∃ t,
    exec (.warmupStepDone 3 r) s = .next t ∧ t.stepComplete 3 = true ∧ t.boot.ledger = s.boot.ledger ∧ t.boot.heldEntry = s.boot.heldEntry := by
  have hboot := marked_boot s 3
  have heq : (s.markStep 3).appendBootEntry = (s.markStep 3).missEntry := appendBootEntry_missed (by rw [hboot, hf])
  obtain ⟨hledger, hheld, hpower⟩ := missEntry_boot (s.markStep 3)
  rw [hboot] at hledger hheld
  refine ⟨_, exec_warmupStepDone h (by decide), ?_⟩
  rw [show s.warmupStep 3 r = _ from heq]
  exact ⟨stepComplete_of_marked (by decide) (congrArg Power.stepDone hpower), hledger, hheld⟩

/-! Steps 4 to 8 and 10. -/

theorem warmupStepDone_dram (h : s.stepReady 4 = true) : ∃ t, exec (.warmupStepDone 4 r) s = .next t ∧
    t.stepComplete 4 = true ∧ (t.chan 0).st = .training ∧ (t.chan 1).st = .training ∧ t.broker.knows (.dram 0) = true ∧
      t.broker.knows (.dram 1) = true ∧ (∀ k, k < 4 → (t.loop k).running = true) :=
  ⟨_, exec_warmupStepDone h (by decide), warmup4_starts s⟩

theorem warmupStepDone_selfTest (h : s.stepReady 5 = true) (hs : s.unitsServe = false) (hm : r.macrosOut = []) (hc : r.badCipher = [])
    (hk : r.badKdu = []) (hp : r.badParity = []) (he : r.entropyTest = 0) (hroom : s.evr.queue.length < 223) : ∃ t,
    exec (.warmupStepDone 5 r) s = .next t ∧ t.stepComplete 5 = false ∧ 4 ∈ t.power.holds ∧ Recorded s t 0x0F08 srcChipCollector 4 5 0 0 := by
  obtain ⟨-, -, hopen⟩ := stepReady_facts h
  obtain ⟨hdone, hrest⟩ := warmup5_short hs hm hc hk hp he hroom
  exact ⟨_, exec_warmupStepDone h (by decide), (stepComplete_congr hdone 5).trans hopen, hrest⟩

theorem warmupStepDone_trained (h : s.stepReady 6 = true) (h0 : r.dramOk0 = true) (h1 : r.dramOk1 = true) (hroom : s.roomForEvents) : ∃ t,
    exec (.warmupStepDone 6 r) s = .next t ∧ t.stepComplete 6 = true ∧ (t.chan 0).st = .active ∧ (t.chan 1).st = .active ∧
      (t.chan 0).raaimt = r.raaimt ∧ t.broker.holds (.dram 0) = false ∧
      Recorded s t 0x0501 (srcDram 0) (subParam 0 (usSince s.now (s.chan 0).since)) s.aon.band 0 0 := by
  obtain ⟨c0, c1⟩ := dramJudged_st s r
  rw [h0, if_pos rfl] at c0
  rw [h1, if_pos rfl] at c1
  have hmark := markStep_only (s.dramJudged r) 6
  have hmem : ((s.dramJudged r).markStep 6).mem = (s.dramJudged r).mem := hmark .mem (by decide)
  have hbroker : ((s.dramJudged r).markStep 6).broker = (s.dramJudged r).broker := hmark .broker (by decide)
  have hraa : ((s.dramJudged r).chan 0).raaimt = r.raaimt := by
    rw [State.dramJudged, dramTrained_chan, if_neg (by decide), dramTrained_chan, if_pos rfl, h0]
    rfl
  have hholds : (s.dramJudged r).broker.holds (.dram 0) = false := by
    rw [State.dramJudged, dramTrained_broker]
    refine returnBaton_drops ?_ _
    rw [dramTrained_broker]
    exact returnBaton_holds _ _
  have hrec := dramTrained_recorded 0 r hroom
  rw [← h0] at hrec
  refine ⟨_, exec_warmupStepDone h (by decide), ?_⟩
  rw [show s.warmupStep 6 r = _ from warmup6_serves h1]
  exact ⟨stepComplete_markStep _ (by decide), by rw [chan_congr hmem, c0], by rw [chan_congr hmem, c1], by rw [chan_congr hmem, hraa],
    by rw [hbroker, hholds], hmark .records (by decide) _ (dramTrained_only _ 1 _ r .records (by decide) _ hrec)⟩

theorem warmupStepDone_oneChannel (h : s.stepReady 6 = true) (h0 : r.dramOk0 = false) (h1 : r.dramOk1 = true) : ∃ t,
    exec (.warmupStepDone 6 r) s = .next t ∧ t.stepComplete 6 = true ∧ (t.chan 0).st = .retired ∧ (t.chan 1).st = .active := by
  obtain ⟨c0, c1⟩ := dramJudged_st s r
  rw [h0, if_neg Bool.false_ne_true] at c0
  rw [h1, if_pos rfl] at c1
  have hmem : ((s.dramJudged r).markStep 6).mem = (s.dramJudged r).mem := markStep_only (s.dramJudged r) 6 .mem (by decide)
  refine ⟨_, exec_warmupStepDone h (by decide), ?_⟩
  rw [show s.warmupStep 6 r = _ from warmup6_serves h1]
  exact ⟨stepComplete_markStep _ (by decide), by rw [chan_congr hmem, c0], by rw [chan_congr hmem, c1]⟩

theorem warmupStepDone_noChannel (h : s.stepReady 6 = true) (h0 : r.dramOk0 = false) (h1 : r.dramOk1 = false) : ∃ t,
    exec (.warmupStepDone 6 r) s = .next t ∧ t.stepComplete 6 = false ∧ 4 ∈ t.power.holds ∧ (t.chan 0).st = .retired ∧ (t.chan 1).st = .retired := by
  obtain ⟨-, -, hopen⟩ := stepReady_facts h
  obtain ⟨c0, c1⟩ := dramJudged_st s r
  rw [h0, if_neg Bool.false_ne_true] at c0
  rw [h1, if_neg Bool.false_ne_true] at c1
  have hpower : (s.dramJudged r).power = s.power := dramJudged_only s r .power (by decide)
  have hmem : ((s.dramJudged r).shortAt 5 6).mem = (s.dramJudged r).mem := shortAt_only _ 5 6 .mem (by decide)
  have hdone : ((s.dramJudged r).shortAt 5 6).power.stepDone = s.power.stepDone := (shortAt_power _ 5 6).1.trans (congrArg Power.stepDone hpower)
  refine ⟨_, exec_warmupStepDone h (by decide), ?_⟩
  rw [show s.warmupStep 6 r = _ from warmup6_short h0 h1]
  exact ⟨(stepComplete_congr hdone 6).trans hopen, shortAt_holds _ _ _, by rw [chan_congr hmem, c0], by rw [chan_congr hmem, c1]⟩

theorem warmupStepDone_stripes (h : s.stepReady 8 = true) : ∃ t, exec (.warmupStepDone 8 r) s = .next t ∧ t.power.mode = .warmup ∧
    (t.stepComplete 8 = t.lanesServe) ∧ (t.lanesServe = false → 4 ∈ t.power.holds) := by
  obtain ⟨hmode, -, hopen⟩ := stepReady_facts h
  exact ⟨_, exec_warmupStepDone h (by decide), warmup8_verdict hmode hopen⟩

/-! Steps 11 and 13. -/

theorem warmupStepDone_noPort (h : s.stepReady 11 = true) (hup : s.hostPortUp = false) (hroom : s.roomForEvents) : ∃ t,
    exec (.warmupStepDone 11 r) s = .next t ∧ t.stepComplete 11 = false ∧ 4 ∈ t.power.holds ∧ Recorded s t 0x0F08 srcChipCollector 6 11 0 0 := by
  obtain ⟨-, -, hopen⟩ := stepReady_facts h
  have heq : s.warmupStep 11 r = s.shortAt 6 11 := if_pos (by simp [hup])
  refine ⟨_, exec_warmupStepDone h (by decide), ?_⟩
  rw [heq]
  exact ⟨(stepComplete_congr (shortAt_power s 6 11).1 11).trans hopen, shortAt_holds _ _ _, recorded_raise hroom rfl ⟨by decide, by decide⟩ _ _ _ _ _⟩

theorem warmupStepDone_port (h : s.stepReady 11 = true) (hup : s.hostPortUp = true) : ∃ t, exec (.warmupStepDone 11 r) s = .next t ∧
    t.stepComplete 11 = true ∧ t.tmk.sets = s.computeSets ∧ t.tmk.inForce = !s.aon.trip := by
  refine ⟨_, exec_warmupStepDone h (by decide), ?_⟩
  rw [show s.warmupStep 11 r = _ from warmup11_up hup]
  have hkeep := raiseComputed_only ((s.markStep 11).onTmk fun k => { k with sets := s.computeSets, inForce := !s.aon.trip, band := s.aon.band })
    s.computeSets
  generalize (((s.markStep 11).onTmk fun k => { k with sets := s.computeSets, inForce := !s.aon.trip, band := s.aon.band }).raiseComputed
    s.computeSets) = v at hkeep ⊢
  have htmk := hkeep .tmk (by decide)
  have hpower := hkeep .power (by decide)
  simp only [Part.Kept] at htmk hpower
  exact ⟨stepComplete_of_marked (s := s) (by decide) (congrArg Power.stepDone hpower), by rw [htmk]; rfl, by rw [htmk]; rfl⟩

theorem warmupStepDone_last {u : Nat} (h : s.lastReady 13 = true) (h0 : u ≠ 0) (hst : (s.tenant u).st ≠ .free)
    (hc : (s.tenant u).creating = false) : ∃ t, exec (.warmupStepDone 13 r) s = .next t ∧ t.stepComplete 13 = true ∧ (t.tenant u).ready = true := by
  refine ⟨s.warmup13, ?_, warmup13_readies h0 hst hc⟩
  simp [exec, execWarmupStepDone, h]

end

/-- Settles O57: each step of Warm-up leaves its bit, its holds and its events as its own work makes them, and the quiet point takes every tenant
through its stages. -/
theorem warmupAndQuietPoints : Obligations.WarmupAndQuietPoints := by
  unfold Obligations.WarmupAndQuietPoints
  refine ⟨fun _ _ _ hl h => warmupStepDone_idle hl h, fun _ _ _ hk h => warmupStepDone_plain hk h,
    fun _ _ _ h hst him hc hroom => warmupStepDone_bank h hst him hc hroom, fun _ _ h h0 h1 hrun => warmupStepDone_noBank h h0 h1 hrun,
    fun _ _ h hf he => warmupStepDone_entry h hf he, fun _ _ h hf he ha => warmupStepDone_heldEntry h hf he ha,
    fun _ _ h hup hroom => warmupStepDone_noPort h hup hroom, fun _ _ h hup => warmupStepDone_port h hup,
    fun _ s h _ => ⟨_, exec_warmupStepDone h (by decide), warmup12_readies s⟩,
    fun _ _ _ h h0 hst hc => warmupStepDone_last h h0 hst hc, fun _ _ h _ => warmupStepDone_dram h,
    fun _ _ h hs hm hc hk hp hroom => ⟨_, exec_warmupStepDone h (by decide), warmup5_serves hs hm hc hk hp hroom⟩,
    fun _ _ h hs hm hc hk hp he hroom => warmupStepDone_selfTest h hs hm hc hk hp he hroom,
    fun _ _ h h0 h1 hroom => warmupStepDone_trained h h0 h1 hroom, fun _ _ h h0 h1 => warmupStepDone_oneChannel h h0 h1,
    fun _ _ h h0 h1 => warmupStepDone_noChannel h h0 h1, fun _ s h => ⟨_, exec_warmupStepDone h (by decide), warmup7_asks s⟩,
    fun _ _ h => warmupStepDone_stripes h, fun r s h => ⟨_, exec_warmupStepDone h (by decide), warmup10_restores s r⟩,
    fun _ _ h hf => warmupStepDone_missedEntry h hf, ?_, fun _ _ _ hq hb hrec hlive hroom => ⟨_, exec_quietPoint hq, quietPoint_bundle hb hrec hlive hroom⟩,
    fun _ _ hq hin h13 hst hend hb => ⟨_, exec_quietPoint hq, quietPoint_readies hin h13 hst hend hb⟩,
    fun _ _ hq hx _ hb => ⟨_, exec_quietPoint hq, quietPoint_sets hx hb⟩, fun _ _ hq hc => ⟨_, exec_quietPoint hq, quietPoint_creates hc⟩,
    fun _ _ _ hq hst hp hb => ⟨_, exec_quietPoint hq, quietPoint_limits hst hp hb⟩⟩
  intro s h
  simp [exec, execQuietPoint, h]

end Sys2Proof.Machine
end

section
/-! O29, O35, O36, O38, O40 and O51 are refuted. Their clauses hold for any state, also for one that no run of the block reaches, and each has one
clause that such a state does not keep. What the six counterexamples share. -/

namespace Sys2Proof.Machine

/-- The always-on part and the power state of a device that runs in Stride. -/
def strideAon : Aon := { on := true, domainOn := 2 }
def stridePower : Power := { mode := .stride, inReset := false }

/-- The controllers of a device with one, which fetches. -/
def fetchingCtrls : Tbl Ctrl := [(0, { present := true, en := true, rdy := true })]

/-- A zone in the state that an outcome leaves. -/
def zoneAfter (zk : Nat) : Host.Outcome State Fault Refusal → Zone
  | .next t => t.zone zk
  | _ => {}

/-- A Packed Append whose one granule is compressed and which is not placed in a parcel yet (R248). -/
def compressedAppend (h : Hdr) : Ctx :=
  { hdr := h, tenant := 0, kind := .packedAppend, cls := .tempo, phase := .waiting, nsid := 1, zk := zoneKey 1 0, granules := 1,
    grans := [⟨0, 4096, 4⟩], close := true }

end Sys2Proof.Machine
end

section
/-! O35 is refuted. Its clause of Close Zone at a packed zone with accepted Packed Appends leaves open how far these have come. One that is
compressed is placed as the Close takes effect; with no room left it ends, and with it the Close (R248, R251, R255). -/

namespace Sys2Proof.Machine

/-- The Close Zone command that is executed in `appendWithoutRoom`, and the Packed Append accepted before it. -/
def closeHdr : Hdr := ⟨0, 1, 4, 1, false, false, none⟩
def appendHdr : Hdr := ⟨0, 1, 3, 1, false, false, none⟩

/-- Zone 0 of the packed namespace 1 is open with its write pointer at the zone's end. The one Packed Append accepted there is compressed and
waits for its place. -/
def appendWithoutRoom : State :=
  { aon := strideAon, power := stridePower, ctrls := fetchingCtrls, tenants := [(0, { st := .active, ready := true })],
    nss := [(1, { present := true, packed := true, units := 1 })],
    zones := [(zoneKey 1 0, { st := .implicitOpen, valid := true, packed := true, wp := zsze, writing := [7] })],
    work := { ctxs := [(7, some (compressedAppend appendHdr))] } }

theorem appendWithoutRoom_takesIo : appendWithoutRoom.TakesIo closeHdr where
  host := rfl
  pcie := by decide
  fetched := by decide
  noStop := rfl
  noHold := by decide
  quiet := by decide

theorem appendWithoutRoom_atManage : appendWithoutRoom.AtManage closeHdr 0 true where
  takes := appendWithoutRoom_takesIo
  clean := by decide +kernel
  cool := rfl
  armed zk := by
    simp only [State.zone, appendWithoutRoom, Tbl.look]
    split <;> rfl
  first := by decide
  room := by decide +kernel

/-- The Packed Append ends for want of output space, and the Close does not wait. -/
theorem close_appendWithoutRoom : (zoneAfter (zoneKey 1 0) (exec (.zoneClose closeHdr 0) appendWithoutRoom)).closing = none := by
  decide +kernel

/-- Refutes O35: Close Zone at a packed zone with an accepted Packed Append does not wait where that command is compressed already and finds no
room in the zone (`close_appendWithoutRoom`). -/
theorem not_zoneActionsFollowTheirTable : ¬ Obligations.ZoneActionsFollowTheirTable := by
  unfold Obligations.ZoneActionsFollowTheirTable
  rintro ⟨-, -, -, -, hClose, -⟩
  obtain ⟨t, hexec, hclosing, -⟩ := hClose closeHdr 0 (zoneKey 1 0) appendWithoutRoom (by decide) appendWithoutRoom_atManage (by decide)
    (.inl (by decide)) (by decide) (by decide) (by decide)
  have hrun := close_appendWithoutRoom
  rw [hexec] at hrun
  simp [zoneAfter, hclosing] at hrun

end Sys2Proof.Machine
end

section
/-! O36 is refuted. Its clause of the reset with writes accepted behind it asks that the zone is not packed and leaves open which commands these
writes are. A compressed Packed Append among them is placed as the reset takes effect, and its parcel advances the write pointer (R76, R249). -/

namespace Sys2Proof.Machine

/-- The fence of the Reset Zone command, with one write accepted behind it. -/
def resetFence : Fence :=
  { finish := false, hdr := some closeHdr, all := false, pendingWp := 1, newDblk := [], newRot := 0, behind := [7], heldReads := [] }

/-- Zone 0 of namespace 1 is full and waits for its reset, behind which a Packed Append is accepted and compressed. -/
def appendBehindReset : State :=
  { aon := strideAon, power := stridePower, nss := [(1, { present := true, packed := true })],
    zones := [(zoneKey 1 0, { st := .full, valid := true, fence := some resetFence })],
    work := { ctxs := [(7, some { compressedAppend appendHdr with behind := true })] } }

/-- The reset takes effect, and the parcel of two LBAs takes the write pointer past the pending one. -/
theorem fenceClear_appendBehindReset : (zoneAfter (zoneKey 1 0) (exec (.zoneResetFenceClear 1 0) appendBehindReset)).wp = 3 := by
  decide +kernel

/-- Refutes O36: after a reset the write pointer is not the pending one where a compressed Packed Append was accepted behind the reset of a zone
that is not marked packed (`fenceClear_appendBehindReset`). -/
theorem not_finishAndResetFences : ¬ Obligations.FinishAndResetFences := by
  unfold Obligations.FinishAndResetFences
  rintro ⟨-, -, -, -, -, -, -, -, -, hBehind, -⟩
  obtain ⟨t, hexec, hwp, -⟩ := hBehind 1 0 (zoneKey 1 0) resetFence appendBehindReset rfl (by decide) (by decide) rfl (by decide) (by decide)
    (by decide) (by decide) (by decide) (by decide)
  have hrun := fenceClear_appendBehindReset
  rw [hexec] at hrun
  simp [zoneAfter, hwp, resetFence] at hrun

end Sys2Proof.Machine
end

section
/-! O38 is refuted. Its clause of the end of a patrol pass asks for nothing of the zone table. An entry that the new pass leaves at its reset
contents goes from the table (`Tbl.mapAll`), and where its number stands twice the second entry is looked up from then on. -/

namespace Sys2Proof.Machine

/-- One die in service with one stripe set on it. Number 5 of the zone table stands for a unit of which nothing but its four patrolled pages is
set, and behind it for a unit with four programmed pages on the die. -/
def unitTwiceNumbered : State :=
  { aon := strideAon, power := stridePower, dies := [(0, { st := .idle })], sets := [(0, { members := [some 0], was := [0] })],
    zones := [(5, { patrolled := [(0, 4)] }), (5, { valid := true, fine := [(0, 1)] })] }

theorem unitTwiceNumbered_roomForEvents : unitTwiceNumbered.roomForEvents := by
  unfold State.roomForEvents
  decide

/-- After the pass the second unit stands under number 5. -/
theorem patrol_unitTwiceNumbered : (zoneAfter 5 (exec (.patrolReadStart 0 0) unitTwiceNumbered)).valid = true := by
  decide +kernel

/-- Refutes O38: the end of a patrol pass changes more of a unit than what was patrolled of it, where its number stands twice in the zone table
(`patrol_unitTwiceNumbered`). -/
theorem not_mediaUpkeep : ¬ Obligations.MediaUpkeep := by
  unfold Obligations.MediaUpkeep
  rintro ⟨-, -, -, hPass, -⟩
  obtain ⟨t, hexec, hzone, -⟩ := hPass 0 0 4 unitTwiceNumbered (by decide) (by decide) (by decide) (by decide) (by decide) (by decide)
    (by decide +kernel) (by decide +kernel) (by decide) unitTwiceNumbered_roomForEvents
  have hrun := patrol_unitTwiceNumbered
  rw [hexec] at hrun
  have hfirst : (unitTwiceNumbered.zone 5).valid = false := by decide
  simp [zoneAfter, hzone, hfirst] at hrun

end Sys2Proof.Machine
end

section
/-! O40 is refuted. Its clause of a Format with nothing at work asks for nothing of the relocations. That of a member of an emptied zone ends, and
the zone that its die holds for it gets a checkpoint commit (R192, R194): where this is another zone of the namespace, that one is not left as
after reset. -/

namespace Sys2Proof.Machine

/-- The Format NVM command that is executed in `strayRelocation`. -/
def formatHdr : Hdr := ⟨0, 0, 3, 1, false, false, none⟩

/-- Zone 1 of namespace 1 relocates its member 0, and the die of this member holds the relocation for zone 0. -/
def strayRelocation : State :=
  { aon := strideAon, power := stridePower, ctrls := fetchingCtrls, nss := [(1, { present := true })],
    sets := [(0, { members := [some 0], was := [0] })], dies := [(0, { reloc := some (zoneKey 1 0, 0, 0, 3, 1) })],
    zones := [(zoneKey 1 1, { relocTgt := some (0, 3) })] }

theorem strayRelocation_takesAdmin : strayRelocation.TakesAdmin ruleAny formatHdr where
  host := rfl
  pcie := by decide
  fetched := by decide
  whole := by decide
  permitted := by decide
  nvm := by decide
  nsid := by decide
  quiet := by decide

/-- Zone 0 holds the epoch of a checkpoint commit after the Format. -/
theorem format_strayRelocation : (zoneAfter (zoneKey 1 0) (exec (.formatNvm formatHdr 0 0) strayRelocation)).epoch = 1 := by
  decide +kernel

/-- Refutes O40: a Format with nothing at work does not leave every zone of the namespace as after reset where a die holds the relocation of one
zone for another (`format_strayRelocation`). -/
theorem not_formatAndSanitizeErase : ¬ Obligations.FormatAndSanitizeErase := by
  unfold Obligations.FormatAndSanitizeErase
  rintro ⟨hFormat, -⟩
  obtain ⟨t, hexec, -, hempty, -⟩ := hFormat formatHdr 0 0 strayRelocation strayRelocation_takesAdmin (by decide) (by decide) (by decide)
    (by decide) (by decide) (by decide) (.inl rfl) (by decide +kernel) rfl rfl rfl
  have hrun := format_strayRelocation
  rw [hexec] at hrun
  simp [zoneAfter, hempty _ (show nsOfKey (zoneKey 1 0) = formatHdr.nsid by decide)] at hrun

end Sys2Proof.Machine
end

section
/-! O51 is refuted. Its clause of a READ behind an earlier one of its connection asks for nothing of the order of the table of READs. A new entry
stands before the first greater number (`Tbl.insert`), and the READs of a connection are answered in the order of the table. -/

namespace Sys2Proof.Machine

/-- A READ of the first page of window 5 that waits on a connection. -/
def readWaitingOn (conn : Nat) : WinRead :=
  { conn := conn, wid := 5, nsid := 1, zone := 0, tenant := 0, va := 0, len := 65536, missing := [0], since := 0 }

/-- Connection 1 is up, and window 5. READ 1 waits on connection 1, and stands in the table behind READ 100 of connection 2; the next READ has
number 50. -/
def readsOutOfOrder : State :=
  { aon := strideAon, power := stridePower,
    fab := { conns := [(1, { up := true })], windows := [(5, { up := true, nsid := 1 })], nextRead := 50,
             reads := [(100, some (readWaitingOn 2)), (1, some (readWaitingOn 1))] } }

/-- A READ in the state that an outcome leaves. -/
def readAfter (i : Nat) : Host.Outcome State Fault Refusal → Option WinRead
  | .next t => t.winReadAt i
  | _ => none

/-- A READ of no bytes on connection 1 is answered before READ 1. -/
theorem read_readsOutOfOrder : readAfter 50 (exec (.rdmaReadRequest 1 5 0 0 false) readsOutOfOrder) = none := by
  decide +kernel

/-- Refutes O51: a READ does not wait for an earlier one of its connection where the table of READs is not in the order of their numbers
(`read_readsOutOfOrder`). -/
theorem not_windowsServeTheirZones : ¬ Obligations.WindowsServeTheirZones := by
  unfold Obligations.WindowsServeTheirZones
  rintro ⟨-, -, -, -, -, -, -, -, -, -, -, -, hOrder, -⟩
  obtain ⟨t, r, hexec, hread, -⟩ := hOrder 1 5 0 0 1 (readWaitingOn 1) readsOutOfOrder (by decide) (by decide) (by decide) (by decide)
    (by decide) (by decide +kernel) (by decide) (by decide) (by decide)
  have hrun := read_readsOutOfOrder
  rw [hexec] at hrun
  change t.winReadAt 50 = none at hrun
  have hnext : readsOutOfOrder.fab.nextRead = 50 := rfl
  rw [hnext, hrun] at hread
  cases hread

end Sys2Proof.Machine
end

section
/-! O29 is refuted. Its clause of a frame rebuilt for the device asks for no place of the member that is filled. A refill whose position is none
of the 18 gives its content to a place past the units of its row, and at a zone filled up to there that place reads as padding (R80, R201). -/

namespace Sys2Proof.Machine

/-- The rebuild of the frame at offset 256 for position 20. -/
def strayRebuild : Rebuild := ⟨0, .distance, 0, 256, [], [], false, 20⟩

/-- Unit 0 is filled up to its third row and refills position 20, whose first frame a parity engine has just rebuilt. P of its second row is no
padding at frame index 0. -/
def refillOfNoMember : State :=
  { zones := [(0, { wp := 512, refills := [{ pos := 20, die := 0 }] })], parity := [(mediaKey 0 1, { p := [(0, ~~~padFrame)] })],
    work := { rebuilds := [(1, some strayRebuild)], parities := [(1, some (.rebuild 1 .distance))], parityRun := [(0, some 1)] } }

/-- P over units that are all zeros. -/
theorem parityP_of_zero {unit : Nat → Block} {ds : List Nat} (h : ∀ d ∈ ds, unit d = 0) : parityP ds unit = 0 := by
  induction ds with
  | nil => rfl
  | cons d ds ih =>
    have hfirst : (0 : Block) ^^^ unit d = 0 := by simp [h d (by simp)]
    change ds.foldl (fun b e => b ^^^ unit e) (0 ^^^ unit d) = 0
    rw [hfirst]
    exact ih fun e he => h e (by simp [he])

/-- The data units of the second row are all zeros. -/
theorem dataContent_refillOfNoMember {d : Nat} (hd : d < 16) : refillOfNoMember.dataContent 0 1 d 0 = 0 := by
  have hfilled : (refillOfNoMember.zone 0).filled = 512 := by decide
  unfold State.dataContent
  dsimp only
  rw [if_neg (by omega)]
  rfl

/-- What is rebuilt is P of the row. -/
theorem rebuiltContent_refillOfNoMember : refillOfNoMember.rebuiltContent 0 1 20 0 [20] = ~~~padFrame := by
  have hpartial : refillOfNoMember.partialP 0 1 0 [16] = 0 := parityP_of_zero fun d hd =>
    dataContent_refillOfNoMember (List.mem_range.mp (List.mem_of_mem_filter hd))
  have hrecovered : refillOfNoMember.rebuiltContent 0 1 20 0 [20] = ~~~padFrame ^^^ refillOfNoMember.partialP 0 1 0 [16] := rfl
  rw [hrecovered, hpartial]
  exact BitVec.xor_zero

/-- The rebuild done, the unit is filled as before. -/
theorem parityJobComplete_refillOfNoMember : (zoneAfter 0 (exec (.parityJobComplete 1) refillOfNoMember)).filled = 512 ∧
    (zoneAfter 0 (exec (.parityJobComplete 1) refillOfNoMember)).rot = 0 := by
  decide +kernel

/-- Refutes O29: a frame rebuilt for a refill of position 20 stands in no place of its row, and what is read there at a unit filled up to the next
row is padding, not the content rebuilt (`rebuiltContent_refillOfNoMember`). -/
theorem not_decodesAndParityJobsEnd : ¬ Obligations.DecodesAndParityJobsEnd := by
  unfold Obligations.DecodesAndParityJobsEnd
  rintro ⟨-, -, -, -, -, -, -, -, -, hRebuilt, -⟩
  obtain ⟨t, hexec, -, hcontent, -⟩ := hRebuilt 1 1 .distance strayRebuild { pos := 20, die := 0 } refillOfNoMember rfl (by decide) (by decide)
    (by decide) rfl rfl rfl rfl rfl (by decide) (by decide) (by decide)
  obtain ⟨hfilled, hrot⟩ := parityJobComplete_refillOfNoMember
  rw [hexec] at hfilled hrot
  change (t.zone 0).filled = 512 at hfilled
  change (t.zone 0).rot = 0 at hrot
  have hpad : t.content 0 1 20 0 = padFrame := by
    have hplace : dataAt (t.zone 0).rot 20 = some 16 := by rw [hrot]; decide
    unfold State.content State.dataContent
    rw [hplace]
    exact if_pos (by omega)
  have hsame : padFrame = ~~~padFrame := hpad.symm.trans (hcontent.trans rebuiltContent_refillOfNoMember)
  have hbit := congrArg (BitVec.getLsbD · 0) hsame
  simp at hbit

end Sys2Proof.Machine
end

section
/-! The commands that complete as they are admitted: Flush, Dataset Management and a deallocating Write Zeroes (R58, R100, R101, R207, R213). -/

namespace Sys2Proof.Machine

/-- A light command that goes: its token is taken and its steward booked (R208, R215). -/
def State.lightBooked (s : State) (x : Ctx) : State := (s.takeTokens x).bookSteward (s.homeOf x.hdr).1 (s.homeOf x.hdr).2

/-- The ranges of a command deallocated in order (R100). -/
def State.discards (s : State) (nsid : Nat) (rs : List (Nat × Nat)) : State := s.each rs fun r s => s.deallocate nsid r.1 r.2

theorem lightBooked_only (s : State) (x : Ctx) : Only [.tenants, .rgns] s (s.lightBooked x) :=
  (takeTokens_only _ _).andThen (bookSteward_only _ _ _)

theorem deallocate_only (s : State) (nsid a n : Nat) : Only [.zones, .nss] s (s.deallocate nsid a n) :=
  .each fun _ _ => mapFrame_only _ _ _ _

theorem discards_only (s : State) (nsid : Nat) (rs : List (Nat × Nat)) : Only [.zones, .nss] s (s.discards nsid rs) :=
  .each fun _ _ => deallocate_only _ _ _ _

theorem mapFrame_ns_ne (s : State) {nsid n : Nat} (hn : n ≠ nsid) (lba frame : Nat) : (s.mapFrame nsid lba frame).ns n = s.ns n := by
  have hzone (u : State) (c : Prop) [Decidable c] (zk : Nat) (f : Zone → Zone) : (if c then u else u.updZone zk f).ns n = u.ns n := by
    split <;> rfl
  unfold State.mapFrame
  simp only
  rw [State.updNs_eq, State.ns_setNs, if_neg hn, hzone, hzone]

theorem discards_ns_ne (s : State) {nsid n : Nat} (hn : n ≠ nsid) (rs : List (Nat × Nat)) : (s.discards nsid rs).ns n = s.ns n := by
  refine State.each_keeps (fun t => t.ns n = s.ns n) _ _ (fun r t ht => ?_) s rfl
  exact State.each_keeps (fun u => u.ns n = s.ns n) _ _ (fun a u hu => (mapFrame_ns_ne u hn a 0).trans hu) t ht

/-- LBAs unmapped one after another. -/
theorem unmap_fwd (s : State) (nsid l : Nat) (ls : List Nat) :
    Tbl.look 0 ((s.each ls fun a s => s.mapFrame nsid a 0).ns nsid).fwd l = if l ∈ ls then 0 else Tbl.look 0 (s.ns nsid).fwd l := by
  induction ls generalizing s with
  | nil => simp
  | cons a ls ih =>
    rw [State.each_cons, ih, mapFrame_fwd]
    by_cases hmem : l ∈ ls <;> by_cases hl : l = a <;> simp [hmem, hl]

/-- An unlisted number of a table holds the reset contents. -/
theorem Tbl.look_of_not_mem {α : Type} {d : α} {t : Tbl α} {n : Nat} (h : n ∉ t.map (·.1)) : Tbl.look d t n = d := by
  induction t with
  | nil => rfl
  | cons p t ih =>
    simp only [List.map_cons, List.mem_cons, not_or] at h
    obtain ⟨hne, hmem⟩ := h
    exact (if_neg (Ne.symm hne)).trans (ih hmem)

/-- The forward map after a range was deallocated: none of its LBAs has a frame, and every other one keeps its own (R100). -/
theorem deallocate_fwd (s : State) (nsid a n l : Nat) :
    Tbl.look 0 ((s.deallocate nsid a n).ns nsid).fwd l = if a ≤ l ∧ l < a + n then 0 else Tbl.look 0 (s.ns nsid).fwd l := by
  unfold State.deallocate
  simp only
  rw [unmap_fwd]
  by_cases hr : a ≤ l ∧ l < a + n
  · by_cases hl : l ∈ (s.ns nsid).fwd.map (·.1)
    · rw [if_pos (List.mem_filter.2 ⟨hl, by simpa using hr⟩), if_pos hr]
    · rw [Tbl.look_of_not_mem hl, ite_self, ite_self]
  · rw [if_neg (fun hmem => hr (by simpa using (List.mem_filter.1 hmem).2)), if_neg hr]

theorem discards_fwd (s : State) (nsid l : Nat) (rs : List (Nat × Nat)) : Tbl.look 0 ((s.discards nsid rs).ns nsid).fwd l =
    if ∃ r ∈ rs, r.1 ≤ l ∧ l < r.1 + r.2 then 0 else Tbl.look 0 (s.ns nsid).fwd l := by
  induction rs generalizing s with
  | nil => simp [State.discards]
  | cons r rs ih =>
    have hstep : s.discards nsid (r :: rs) = (s.deallocate nsid r.1 r.2).discards nsid rs := State.each_cons _ _ _ _
    rw [hstep, ih, deallocate_fwd]
    by_cases htail : ∃ q ∈ rs, q.1 ≤ l ∧ l < q.1 + q.2
    · rw [if_pos htail, if_pos (htail.imp fun q hq => ⟨List.mem_cons_of_mem _ hq.1, hq.2⟩)]
    · rw [if_neg htail]
      refine if_congr ⟨fun hr => ⟨r, List.mem_cons_self .., hr⟩, ?_⟩ rfl rfl
      rintro ⟨q, hq, hin⟩
      rcases List.mem_cons.1 hq with rfl | hq
      · exact hin
      · exact absurd ⟨q, hq, hin⟩ htail

/-- What a light command changes before its completion (R100, R101). -/
def State.lightDone (s : State) (x : Ctx) : State :=
  if (s.ns x.nsid).zoned then s.lightBooked x else (s.lightBooked x).discards x.nsid x.kind.discarded

theorem tryLight_go {s : State} {x : Ctx} (hgo : (s.tryLight none x).1 = .go) :
    (s.tryLight none x).2 = (s.lightDone x).complete x.hdr .success := by
  have hns : (s.lightBooked x).ns x.nsid = s.ns x.nsid := by
    simp only [State.ns, show State.nss _ = _ from lightBooked_only s x .nss (by decide)]
  revert hgo
  unfold State.tryLight
  simp only
  split
  · exact fun h => nomatch h
  split
  · exact fun h => nomatch h
  · intro _
    unfold State.lightDone State.discards
    rw [← hns]
    rfl

/-- What a light command can touch. -/
def lightParts : List Part := [.sqs, .tenants, .rgns] ++ postParts

section
variable {s u : State} {h : Hdr} {x : Ctx}

/-- A light command that is tried and goes completes with success in the state that it leaves (R58, R100, R101). -/
theorem light_settled (ha : s.AtAdmission h x u) (hx : x.hdr = h) (hk : u.tryIo none x = u.tryLight none x)
    (hgo : (u.tryIo none x).1 = .go) :
    settleVerdict x (u.tryIo none x) = (u.lightDone x).complete h .success ∧
      Posted s ((u.lightDone x).complete h .success) h .success 0 0 := by
  have hdone : Only [.tenants, .rgns, .zones, .nss] u (u.lightDone x) :=
    .ites ((lightBooked_only _ _).mono (by decide)) (((lightBooked_only _ _).andThen (discards_only _ _ _)).mono (by decide))
  have hkeep := ha.only.andThen hdone
  refine ⟨?_, complete_posted (ha.takes.unmuted (hkeep .ctrls (by decide))) (hkeep .completions (by decide)) _⟩
  unfold settleVerdict
  rw [hgo, hk, tryLight_go (by rw [← hk]; exact hgo), hx]

/-- Where no LBA is deallocated, a light command leaves zones, namespaces and dies alone. -/
theorem light_only (ha : s.AtAdmission h x u) (hnone : (s.ns x.nsid).zoned = true ∨ x.kind.discarded = []) (st : Status) :
    Only lightParts s ((u.lightDone x).complete h st) := by
  have hns : u.ns x.nsid = s.ns x.nsid := by simp only [State.ns, ha.nss_eq]
  have hdone : u.lightDone x = u.lightBooked x := by
    unfold State.lightDone
    rw [hns]
    rcases hnone with hz | hd
    · rw [if_pos hz]
    · rw [hd]
      exact ite_self _
  rw [hdone]
  exact ((ha.only.andThen (lightBooked_only _ _)).andThen (complete_only _ _ _)).mono (by decide)

/-- The namespaces after a light command of a conventional one. -/
theorem light_ns (ha : s.AtAdmission h x u) (hz : (s.ns x.nsid).zoned = false) (st : Status) :
    (∀ l, Tbl.look 0 (((u.lightDone x).complete h st).ns x.nsid).fwd l =
      if ∃ r ∈ x.kind.discarded, r.1 ≤ l ∧ l < r.1 + r.2 then 0 else Tbl.look 0 (s.ns x.nsid).fwd l) ∧
    (∀ n, n ≠ x.nsid → ((u.lightDone x).complete h st).ns n = s.ns n) ∧ ((u.lightDone x).complete h st).media = s.media := by
  have hns (n : Nat) : u.ns n = s.ns n := by simp only [State.ns, ha.nss_eq]
  have hdone : u.lightDone x = (u.lightBooked x).discards x.nsid x.kind.discarded := if_neg (by rw [hns, hz]; decide)
  have hbooked (n : Nat) : (u.lightBooked x).ns n = s.ns n := by
    rw [← hns]
    simp only [State.ns, show State.nss _ = _ from lightBooked_only u x .nss (by decide)]
  have hposted (n : Nat) : ((u.lightDone x).complete h st).ns n = (u.lightDone x).ns n := by
    simp only [State.ns, show State.nss _ = _ from complete_only (u.lightDone x) h st .nss (by decide)]
  have hmedia : Only ([.sqs, .tenants, .rgns, .zones, .nss] ++ postParts) s ((u.lightDone x).complete h st) := by
    rw [hdone]
    exact (((ha.only.andThen (lightBooked_only _ _)).andThen (discards_only _ _ _)).andThen (complete_only _ _ _)).mono (by decide)
  refine ⟨fun l => ?_, fun n hn => ?_, hmedia .media (by decide)⟩
  · rw [hposted, hdone, discards_fwd, hbooked]
  · rw [hposted, hdone, discards_ns_ne _ hn, hbooked]

end

/-- A Dataset Management that is not wrong with its ranges is not wrong without them. -/
theorem precheck_noRanges {s : State} {x : Ctx} {rs : List (Nat × Nat)} (h : s.precheck { x with kind := .discard rs } = none) :
    s.precheck { x with kind := .discard [] } = none := by
  have hwrite (rs : List (Nat × Nat)) : (CtxKind.discard rs == .write) = false := rfl
  have hzeroes (rs : List (Nat × Nat)) : (CtxKind.discard rs == .writeZeroes) = false := rfl
  have happend (rs : List (Nat × Nat)) : (CtxKind.discard rs == .append) = false := rfl
  have hread (rs : List (Nat × Nat)) : (CtxKind.discard rs != .read) = true := rfl
  revert h
  unfold State.precheck
  simp only [CtxKind.isDiscard, hwrite, hzeroes, happend, hread]
  cases s.nsRefusal x.hdr with
  | some st => exact fun h => nomatch h
  | none =>
    simp only [reduceCtorEq, false_and, if_false, List.any_nil, Bool.false_eq_true]
    split
    · exact fun h => nomatch h
    split
    · exact fun h => nomatch h
    split
    · exact fun h => nomatch h
    · exact fun _ => rfl

/-- The context that a Dataset Management is tried with: the ranges it names, and none unless it is to deallocate (R100, R207). -/
def State.datasetCtx (s : State) (h : Hdr) (rs : List (Nat × Nat)) : Ctx :=
  { s.newCtx h (.discard rs) 0 0 with cls := s.classOf h true }

theorem exec_datasetMgmt {s : State} {h : Hdr} (ht : s.TakesIo h) (d : Bool) (rs : List (Nat × Nat)) :
    exec (.datasetMgmtCmd h d rs) s = .next (match (s.fetchOne h).precheck ((s.fetchOne h).datasetCtx h rs) with
      | some st => (s.fetchOne h).complete h st
      | none => (s.fetchOne h).submit ((s.fetchOne h).datasetCtx h (if d then rs else []))) := congrArg _ (ht.run _)

/-- A Dataset Management that is admitted: its one verdict is that of a light command (R101, R207). -/
theorem exec_datasetMgmt_admitted {s u : State} {h : Hdr} {d : Bool} {rs : List (Nat × Nat)}
    (ha : s.AtAdmission h ((s.fetchOne h).datasetCtx h (if d then rs else [])) u)
    (hpre : (s.fetchOne h).precheck ((s.fetchOne h).datasetCtx h rs) = none) :
    exec (.datasetMgmtCmd h d rs) s = .next (settleVerdict ((s.fetchOne h).datasetCtx h (if d then rs else []))
      (u.tryIo none ((s.fetchOne h).datasetCtx h (if d then rs else [])))) := by
  have hpre' : (s.fetchOne h).precheck ((s.fetchOne h).datasetCtx h (if d then rs else [])) = none := by
    cases d
    · exact precheck_noRanges (x := (s.fetchOne h).datasetCtx h []) hpre
    · exact hpre
  rw [exec_datasetMgmt ha.takes, hpre]
  exact congrArg _ (ha.submit hpre')

/-- Settles O34. -/
theorem discardChangesNoZone : Obligations.DiscardChangesNoZone := by
  unfold Obligations.DiscardChangesNoZone
  rintro h d rs x s u rfl ha hpre hgo hz
  obtain ⟨hsettled, hposted⟩ := light_settled ha rfl rfl hgo
  have hkeep := light_only ha (.inl hz) .success
  have hzones := hkeep .zones (by decide)
  have hmedia := hkeep .media (by decide)
  have hnss := hkeep .nss (by decide)
  refine ⟨_, (exec_datasetMgmt_admitted ha hpre).trans (congrArg _ hsettled), hposted, hzones, hmedia, hnss, hkeep .dies (by decide),
    hkeep .sets (by decide), hkeep .store (by decide), hkeep .rows (by decide), hkeep .mem (by decide), fun nsid lba => readPlace_congr hnss hzones _ _,
    fun zk off => ?_⟩
  simp only [State.stored, show State.media _ = _ from hmedia]

end Sys2Proof.Machine
end

section
/-! Frames taken in reclaim units (R99, R203, R205). -/

namespace Sys2Proof.Machine

/-- A namespace without the record of its open reclaim units (R99). -/
def Ns.unopened (x : Ns) : Ns := { x with opened := [] }

/-- From `s` to `t` reclaim units of namespace `nsid` can have been opened and their write pointers advanced, and no more (R99, R205). -/
def UnitsTaken (nsid : Nat) (s t : State) : Prop :=
  Only [.zones, .sets, .dies, .store, .nss] s t ∧ (∀ n, (t.ns n).unopened = (s.ns n).unopened) ∧ ∀ n, n ≠ nsid → t.ns n = s.ns n

namespace UnitsTaken
variable {nsid : Nat} {s t u : State}

theorem refl : UnitsTaken nsid s s := ⟨.refl, fun _ => rfl, fun _ _ => rfl⟩

theorem trans (h : UnitsTaken nsid s t) (g : UnitsTaken nsid t u) : UnitsTaken nsid s u :=
  ⟨h.1.trans g.1, fun n => (g.2.1 n).trans (h.2.1 n), fun n hn => (g.2.2 n hn).trans (h.2.2 n hn)⟩

/-- A step that does not touch the namespaces. -/
theorem of_only (h : Only [.zones, .sets, .dies, .store] s t) : UnitsTaken nsid s t := by
  have hns (n : Nat) : t.ns n = s.ns n := by simp only [State.ns, show State.nss _ = _ from h .nss (by decide)]
  exact ⟨h.mono (by decide), fun n => by rw [hns], fun n _ => hns n⟩

theorem only (h : UnitsTaken nsid s t) : Only [.zones, .sets, .dies, .store, .nss] s t := h.1
theorem ns_ne (h : UnitsTaken nsid s t) {n : Nat} (hn : n ≠ nsid) : t.ns n = s.ns n := h.2.2 n hn
theorem zoned (h : UnitsTaken nsid s t) (n : Nat) : (t.ns n).zoned = (s.ns n).zoned := (congrArg Ns.zoned (h.2.1 n) :)
theorem fwd (h : UnitsTaken nsid s t) (n : Nat) : (t.ns n).fwd = (s.ns n).fwd := (congrArg Ns.fwd (h.2.1 n) :)

end UnitsTaken

theorem unitLeft_taken (s : State) (nsid key : Nat) : UnitsTaken nsid s (s.unitLeft nsid key) := by
  unfold State.unitLeft
  split
  · exact .refl
  · exact .of_only (.ite ((onStore_base_only _ _ (by rfl)).mono (by decide)))

theorem updNs_opened_taken (s : State) (nsid : Nat) (o : Tbl Nat) : UnitsTaken nsid s (s.updNs nsid fun n => { n with opened := o }) := by
  have hns (n : Nat) : (s.updNs nsid fun n => { n with opened := o }).ns n = if n = nsid then { s.ns nsid with opened := o } else s.ns n := by
    rw [State.updNs_eq, State.ns_setNs]
  refine ⟨(setNs_only _ _ _).mono (by decide), fun n => ?_, fun n hn => by rw [hns, if_neg hn]⟩
  rw [hns]
  split
  · subst_vars; rfl
  · rfl

theorem openUnit_taken (s : State) (nsid handle : Nat) (on : Option Nat) : UnitsTaken nsid s (s.openUnit nsid handle on).2 := by
  unfold State.openUnit
  simp only
  split
  · exact .refl
  split
  · exact .refl
  split
  · exact .refl
  · exact (UnitsTaken.of_only (((issueRotation_only _ _).andThen (activate_only _ _ _ _ _ _)).mono (by decide))).trans
      (updNs_opened_taken _ _ _)

/-- The reclaim unit that the next frame of a placement is taken in: the open one, or one that is opened for it (R99, R205). -/
def State.unitFor (s : State) (nsid handle : Nat) (on : Option Nat) : Option Nat × State :=
  match s.openedUnit nsid handle on with
  | some zk => (some zk, s)
  | none => (s.unitLeft nsid handle).openUnit nsid handle on

theorem unitFor_taken (s : State) (nsid handle : Nat) (on : Option Nat) : UnitsTaken nsid s (s.unitFor nsid handle on).2 := by
  unfold State.unitFor
  split
  · exact .refl
  · exact (unitLeft_taken s nsid handle).trans (openUnit_taken _ _ _ _)

/-- The reclaim unit with its next frame taken (R205). -/
def State.frameTaken (s : State) (zk : Nat) : State :=
  s.updZone zk fun z =>
    { z with wp := (s.zone zk).wp + 1, lastWrite := s.now, st := if (s.zone zk).wp + 1 = s.zcap then .full else .implicitOpen }

theorem takeFrames_succ (n : Nat) (s : State) (nsid handle : Nat) (on : Option Nat) :
    State.takeFrames (n + 1) s nsid handle on = match s.unitFor nsid handle on with
      | (none, t) => ([], t)
      | (some zk, t) => ((zk, (t.zone zk).wp) :: (State.takeFrames n (t.frameTaken zk) nsid handle on).1,
          (State.takeFrames n (t.frameTaken zk) nsid handle on).2) := by
  rw [State.takeFrames, State.unitFor]
  cases s.openedUnit nsid handle on with
  | some zk => rfl
  | none =>
    simp only
    rcases (s.unitLeft nsid handle).openUnit nsid handle on with ⟨_ | zk, t⟩ <;> rfl

theorem takeFrames_taken (n : Nat) (s : State) (nsid handle : Nat) (on : Option Nat) : UnitsTaken nsid s (State.takeFrames n s nsid handle on).2 := by
  induction n generalizing s with
  | zero => exact .refl
  | succ n ih =>
    have hunit := unitFor_taken s nsid handle on
    rw [takeFrames_succ]
    generalize s.unitFor nsid handle on = p at hunit ⊢
    obtain ⟨_ | zk, t⟩ := p
    · exact hunit
    · exact (hunit.trans (.of_only ((setZone_only _ _ _).mono (by decide)))).trans (ih _)

end Sys2Proof.Machine
end

section
/-! O33: Flush, Dataset Management and Copy (R58, R100, R203, R207, R213). -/

namespace Sys2Proof.Machine

/-- What the trial of a Copy can touch: it takes frames, books engines, and is served as a read (R58, R203). -/
def copyParts : List Part := readOpenParts ++ readParts ++ [.zones, .sets, .store, .nss]

theorem tryRead_only (s : State) (held : Option Nat) (x : Ctx) : Only copyParts s (s.tryRead held x).2 := by
  unfold State.tryRead
  refine .ite_snd .refl ?_
  split
  · exact .refl
  refine .ite_snd .refl (.ite_snd .refl ?_)
  have hopen (y z : Ctx) (g i : Nat) : Only copyParts s (((s.takeTokens y).bookSteward g i).placeCtx held z).2 :=
    (((takeTokens_only _ _).andThen (bookSteward_only _ _ _)).andThen (placeCtx_only _ _ _)).mono (by decide)
  split
  · exact (hopen _ _ _ _).trans ((serveRead_only _ _ _).mono (by decide))
  · exact (hopen _ _ _ _).trans ((setZone_only _ _ _).mono (by decide))

/-- The state in which a Copy is tried as a read: its frames taken, their engines booked, and it stands among their writers (R203). -/
def State.copyTaken (s : State) (x : Ctx) (c : Nat) : State :=
  let taken := s.takeFrames x.nlb x.nsid (s.placementOf x.nsid x.hdr.dspec).1 (s.placementOf x.nsid x.hdr.dspec).2
  (taken.2.each (taken.2.bytesOfFrames taken.1) fun n t => t.bookCipher n.1 (n.2 / 4096)).each ((taken.1.map (·.1)).eraseDups) fun zk t =>
    t.updZone zk fun z => { z with writing := z.writing ++ [c] }

theorem copyTaken_taken (s : State) (x : Ctx) (c : Nat) : Only [.zones, .sets, .dies, .store, .nss, .blks] s (s.copyTaken x c) ∧
    ∀ n, ((s.copyTaken x c).ns n).unopened = (s.ns n).unopened := by
  have htaken := takeFrames_taken x.nlb s x.nsid (s.placementOf x.nsid x.hdr.dspec).1 (s.placementOf x.nsid x.hdr.dspec).2
  have hbooked (t : State) (l : List (Nat × Nat)) (zks : List Nat) : Only [.zones, .blks] t ((t.each l fun n t => t.bookCipher n.1 (n.2 / 4096)).each zks
      fun zk t => t.updZone zk fun z => { z with writing := z.writing ++ [c] }) :=
    Only.trans (.each fun _ _ => (bookCipher_only _ _ _).mono (by decide)) (.each fun _ _ => (setZone_only _ _ _).mono (by decide))
  refine ⟨(htaken.only.andThen (hbooked _ _ _)).mono (by decide), fun n => (congrArg Ns.unopened ?_).trans (htaken.2.1 n)⟩
  unfold State.copyTaken
  simp only [State.ns]
  exact congrArg (fun l => Tbl.look {} l n) (hbooked _ _ _ .nss (by decide))

/-- The verdict of a Copy from that of its read: one that does not go leaves the state as it was. -/
def State.copyVerdict (s : State) : Verdict × State → Verdict × State
  | (.go, t) => (.go, t)
  | (v, _) => (v, s)

theorem copyVerdict_go {s : State} {r : Verdict × State} (h : (s.copyVerdict r).1 = .go) : (s.copyVerdict r).2 = r.2 ∧ r.1 = .go := by
  obtain ⟨v, t⟩ := r
  cases v <;> first | exact ⟨rfl, rfl⟩ | exact nomatch h

/-- A Copy that goes is one whose frames are there and that goes as a read (R58, R203). -/
theorem tryCopy_go {s : State} {x : Ctx} (hgo : (s.tryCopy none x).1 = .go) : ∃ c fs,
    (s.tryCopy none x).2 = ((s.copyTaken x c).tryRead none { x with dest := fs }).2 ∧
      ((s.copyTaken x c).tryRead none { x with dest := fs }).1 = .go := by
  have hstop {α : Type} {v : Verdict} {t : α} {p : Prop} (hv : v ≠ .go) : (v, t).1 = .go → p := fun h => absurd h hv
  revert hgo
  unfold State.tryCopy
  simp only
  split
  · exact hstop (by simp)
  split
  · exact hstop (by simp)
  split
  · exact hstop (by simp)
  split
  · exact hstop (by simp)
  split
  · exact hstop (by simp)
  · exact fun hgo => ⟨_, _, copyVerdict_go hgo⟩

/-- The end of a Copy's reads: it goes on as a write of what it read to the places taken for it (R58). -/
theorem readEnd_copy {s : State} {c : Nat} {y : Ctx} (hy : s.ctxAt c = some y) (hk : y.kind = .copy) :
    s.readEnd c = (s.setCtx c (some { y with kind := .write, slba := y.target, lbas := [], places := y.dest, finished := 0 })).cipherWrite c := by
  unfold State.readEnd
  rw [hy]
  simp only [hk]

/-- A read-type trial of one LBA without data on a conventional namespace that goes: its context is opened, and it ends with zeros (R100, R203). -/
theorem tryRead_go_unmapped {s : State} {x : Ctx} {a : Nat} (hgo : (s.tryRead none x).1 = .go) (hl : x.lbas = [a])
    (hz : (s.ns x.nsid).zoned = false) (hfwd : Tbl.look 0 (s.ns x.nsid).fwd a = 0) :
    ∃ v y, (s.tryRead none x).2 = v.readEnd s.work.nextCtx ∧ Only readOpenParts s v ∧ v.ctxAt s.work.nextCtx = some y ∧ y.kind = x.kind ∧
      y.target = x.target ∧ y.data = [(0, 0)] := by
  have hplace : s.readPlace x.nsid a = none := by
    unfold State.readPlace
    rw [hz, hfwd]
    rfl
  have hplaces : s.readPlaces x = [none] := by
    unfold State.readPlaces
    rw [hl]
    simp [hplace]
  have hfence : s.fencedZones (s.located x) = [] := by
    have hzones : s.zonesOf (s.located x) = [] := by
      unfold State.zonesOf
      rw [if_neg (by simpa [State.located] using hz)]
      simp [State.located, hplaces]
    unfold State.fencedZones
    rw [hzones]
    rfl
  have hopen := admitted_only s (s.located x) (s.openedRead (s.located x))
  have hctx : (s.admitted (s.located x) (s.openedRead (s.located x))).ctxAt s.work.nextCtx = some (s.openedRead (s.located x)) := by
    rw [admitted_ctxAt, if_pos rfl]
  rw [tryRead_go hgo hfence, serveRead_unplaced (n := 1) _ hctx (by exact hplaces)]
  refine ⟨_, _, rfl, hopen.trans ((setCtx_only _ _ _).mono (by decide)), (State.ctxAt_setCtx _ _ _ _).trans (if_pos rfl), rfl, rfl, ?_⟩
  have hzero : (s.admitted (s.located x) (s.openedRead (s.located x))).unwritten x.nsid
      ((s.openedRead (s.located x)).lbaOf 0) = 0 := by
    refine unwritten_eq_zero fun hzoned => ?_
    simp only [State.ns, show State.nss _ = _ from hopen .nss (by decide)] at hzoned
    exact absurd hzoned (by rw [← State.ns, hz]; decide)
  exact congrArg (fun b => [(0, b)]) hzero

/-- The LBAs that the ranges of a Copy name, in order (R58). -/
def copyLbas (rs : List (Nat × Nat)) : List Nat := rs.flatMap fun r => (List.range (min r.2 257)).map fun i => r.1 + i

/-- The context with which a Copy is tried. -/
def State.copyCtx (s : State) (h : Hdr) (d slba : Nat) (lbas : List Nat) : Ctx :=
  { s.newCtx h .copy slba lbas.length with lbas := lbas, target := d }

theorem exec_copy {s : State} {h : Hdr} (ht : s.TakesIo h) (d : Nat) (rs : List (Nat × Nat)) :
    exec (.copyCmd h d rs) s = .next (match (s.fetchOne h).precheck ((s.fetchOne h).copyCtx h d 0 (copyLbas rs)) with
      | some st => (s.fetchOne h).complete h st
      | none =>
        if copyLbas rs = [] then (s.fetchOne h).complete h .success
        else if ((s.fetchOne h).ns h.nsid).lbas < d + (copyLbas rs).length ∨
            (copyLbas rs).any (fun a => decide (((s.fetchOne h).ns h.nsid).lbas ≤ a)) then (s.fetchOne h).complete h .lbaOutOfRange
        else (s.fetchOne h).submit ((s.fetchOne h).copyCtx h d ((copyLbas rs).headD 0) (copyLbas rs))) := congrArg _ (ht.run _)

/-- The fetch of a command changes no more than a queue. -/
theorem fetchOne_eq (s : State) (h : Hdr) : ∃ q, s.fetchOne h = { s with sqs := q } := by
  unfold State.fetchOne
  simp only
  split
  · exact ⟨_, rfl⟩
  · exact ⟨_, rfl⟩

theorem fetchOne_nsRefusal (s : State) (h g : Hdr) : (s.fetchOne h).nsRefusal g = s.nsRefusal g := by
  obtain ⟨q, hq⟩ := fetchOne_eq s h
  rw [hq]
  rfl

theorem fetchOne_ns (s : State) (h : Hdr) (n : Nat) : (s.fetchOne h).ns n = s.ns n := by
  simp only [State.ns, show State.nss _ = _ from fetchOne_only s h .nss (by decide)]

theorem fetchOne_keyAvailable (s : State) (h : Hdr) (n : Nat) : (s.fetchOne h).keyAvailable n = s.keyAvailable n := by
  obtain ⟨q, hq⟩ := fetchOne_eq s h
  rw [hq]
  rfl

/-- A namespace that does not take commands refuses any of them (R56, R90, R364). -/
theorem precheck_refused {s : State} {x : Ctx} {st : Status} (h : s.nsRefusal x.hdr = some st) : s.precheck x = some st := by
  unfold State.precheck
  rw [h]

/-- What is wrong with a Copy whose namespace takes commands and is not packed (R58, R284, R230). -/
theorem precheck_copy {s : State} {x : Ctx} (hns : s.nsRefusal x.hdr = none) (hp : (s.ns x.nsid).packed = false) (hk : x.kind = .copy) :
    s.precheck x = if x.hdr.unsupported then some .invalidField else if (s.ns x.nsid).zoned then some .invalidField
      else if !s.keyAvailable x.nsid then some .keyUnavailable
      else if 256 < x.nlb ∨ (x.cls = .dash ∧ 1 < x.nlb) then some .invalidField else none := by
  unfold State.precheck
  simp only [hns, hk, hp, Bool.false_and]
  simp

/-- What a Copy can touch between its admission and its acceptance. -/
def copyEndParts : List Part := copyParts ++ admitParts ++ holdParts

theorem tryCopy_only (s : State) (x : Ctx) : Only copyEndParts s (s.tryCopy none x).2 := by
  by_cases hgo : (s.tryCopy none x).1 = .go
  · obtain ⟨c, fs, heq, -⟩ := tryCopy_go hgo
    rw [heq]
    exact ((copyTaken_taken s x c).1.andThen (tryRead_only _ _ _)).mono (by decide)
  · exact (tryCopy_tried s none x hgo).mono (by decide)

theorem submit_copy_only (s : State) {x : Ctx} (hk : x.kind = .copy) : Only copyEndParts s (s.submit x) := by
  have htry (u : State) : u.tryIo none x = u.tryCopy none x := by
    unfold State.tryIo
    rw [hk]
  unfold State.submit
  split
  · exact .refl
  split
  · exact (complete_only _ _ _).mono (by decide)
  split
  · exact (decline_only _ _ _ _ _).mono (by decide)
  simp only
  split
  · exact ((onWork_tables_only _ _ (by rfl)).andThen (decline_only _ _ _ _ _)).mono (by decide)
  have haccrue := (accrue_only s x).mono (G := copyEndParts) (by decide)
  split
  · refine haccrue.trans ?_
    unfold State.declineOrHold
    split
    · exact ((openCtx_only _ _).andThen (setTenant_only _ _ _)).mono (by decide)
    · exact (decline_only _ _ _ _ _).mono (by decide)
  · rw [htry]
    exact haccrue.trans ((tryCopy_only _ _).trans ((settleVerdict_only _ _).mono (by decide)))

/-- What a Copy of LBAs without data touches until it stands as a write. -/
def copyOpenParts : List Part := readOpenParts ++ [.zones, .sets, .dies, .store, .nss, .blks, .ciphers]

/-- A Copy of one LBA without data that goes: it stands as a write of zeros to the target LBA (R58, R100, R203). -/
theorem submit_copy_unmapped {s u : State} {h : Hdr} {a d : Nat} (ha : s.AtAdmission h ((s.fetchOne h).copyCtx h d a [a]) u)
    (hz : (s.ns h.nsid).zoned = false) (hpre : (s.fetchOne h).precheck ((s.fetchOne h).copyCtx h d a [a]) = none)
    (hgo : (u.tryIo none ((s.fetchOne h).copyCtx h d a [a])).1 = .go) (hfwd : Tbl.look 0 (s.ns h.nsid).fwd a = 0) :
    ∃ y, ((s.fetchOne h).submit ((s.fetchOne h).copyCtx h d a [a])).ctxAt s.work.nextCtx = some y ∧ y.kind = .write ∧ y.phase = .ciphering ∧
      y.slba = d ∧ y.data = [(0, 0)] ∧ Only copyOpenParts s ((s.fetchOne h).submit ((s.fetchOne h).copyCtx h d a [a])) := by
  have hns : u.ns h.nsid = s.ns h.nsid := by simp only [State.ns, ha.nss_eq]
  have hsubmit := ha.submit hpre
  unfold settleVerdict at hsubmit
  rw [hgo] at hsubmit
  change _ = (u.tryCopy none ((s.fetchOne h).copyCtx h d a [a])).2 at hsubmit
  change (u.tryCopy none ((s.fetchOne h).copyCtx h d a [a])).1 = .go at hgo
  obtain ⟨c, fs, hcopy, hread⟩ := tryCopy_go hgo
  obtain ⟨htaken, hopened⟩ := copyTaken_taken u ((s.fetchOne h).copyCtx h d a [a]) c
  generalize hv : u.copyTaken ((s.fetchOne h).copyCtx h d a [a]) c = v at hcopy hread htaken hopened
  have hnext : v.work.nextCtx = s.work.nextCtx := Eq.trans (htaken .nextCtx (by decide)) (ha.only .nextCtx (by decide))
  have hvz : (v.ns h.nsid).zoned = false := (congrArg Ns.zoned (hopened h.nsid) :).trans (by rw [hns]; exact hz)
  have hvfwd : Tbl.look 0 (v.ns h.nsid).fwd a = 0 := by
    rw [show (v.ns h.nsid).fwd = _ from (congrArg Ns.fwd (hopened h.nsid) :), hns]
    exact hfwd
  obtain ⟨w, y, hend, hw, hy, hk, htarget, hdata⟩ :=
    tryRead_go_unmapped (x := { (s.fetchOne h).copyCtx h d a [a] with dest := fs }) hread rfl hvz hvfwd
  rw [hnext] at hend hy
  rw [hsubmit, hcopy, hend, readEnd_copy hy hk]
  refine ⟨_, cipherWrite_ctxAt ((State.ctxAt_setCtx _ _ _ _).trans (if_pos rfl)), rfl, rfl, htarget, hdata, ?_⟩
  exact ((((ha.only.andThen htaken).andThen hw).andThen (setCtx_only _ _ _)).andThen (cipherWrite_only _ _)).mono (by decide)

theorem flushCmd_mem (s : State) (h : Hdr) : ((.flushCmd h, s.newCtx h .flush 0 0) : Instr × Ctx) ∈ s.ioContexts h 0 0 [] := by
  simp [State.ioContexts]

/-- Settles O33, clause by clause: Flush and Dataset Management are light commands, a Copy of one LBA without data a read of zeros. -/
theorem flushDatasetAndCopy : Obligations.FlushDatasetAndCopy := by
  unfold Obligations.FlushDatasetAndCopy
  refine ⟨?flush, ?flushRefused, ?deallocate, ?keep, ?wrong, ?copyZoned, ?copyRange, ?copy⟩
  case flush =>
    intro h s u ha hpre hgo
    obtain ⟨hsettled, hposted⟩ := light_settled ha rfl rfl hgo
    have hkeep := light_only ha (.inr rfl) .success
    exact ⟨_, (exec_io_settled (flushCmd_mem _ _) ha hpre).trans (congrArg _ hsettled), hposted,
      hkeep .zones (by decide), hkeep .nss (by decide), hkeep .media (by decide), hkeep .rows (by decide)⟩
  case flushRefused =>
    intro h st s ht hstop hns
    obtain ⟨hposted, hkeep⟩ := fetchOne_complete ht st
    refine ⟨_, ?_, hposted, hkeep .zones (by decide), hkeep .media (by decide)⟩
    rw [exec_ioContexts ht (flushCmd_mem _ _),
      submit_wrong hstop (precheck_refused ((fetchOne_nsRefusal s h h).trans hns))]
    rfl
  case deallocate =>
    rintro h rs x s u rfl ha hpre hgo hz
    obtain ⟨hsettled, hposted⟩ := light_settled ha rfl rfl hgo
    obtain ⟨hfwd, hother, hmedia⟩ := light_ns ha hz .success
    refine ⟨_, (exec_datasetMgmt_admitted (d := true) ha hpre).trans (congrArg _ hsettled), hposted, fun a hin => (hfwd a).trans (if_pos hin),
      fun a hout => (hfwd a).trans (if_neg ?_), hother, hmedia⟩
    rintro ⟨r, hr, hlo, hhi⟩
    have := hout r hr
    omega
  case keep =>
    rintro h rs x s u rfl ha hpre hgo
    obtain ⟨hsettled, hposted⟩ := light_settled ha rfl rfl hgo
    have hkeep := light_only ha (.inr rfl) .success
    exact ⟨_, (exec_datasetMgmt_admitted (d := false) ha hpre).trans (congrArg _ hsettled), hposted, hkeep .nss (by decide), hkeep .zones (by decide),
      hkeep .media (by decide)⟩
  case wrong =>
    rintro h d rs st x s rfl ht hpre
    obtain ⟨hposted, hkeep⟩ := fetchOne_complete ht st
    refine ⟨_, ?_, hposted, hkeep .nss (by decide), hkeep .zones (by decide), hkeep .media (by decide)⟩
    rw [exec_datasetMgmt ht, State.datasetCtx, hpre]
  case copyZoned =>
    intro h d rs s ht hns hz hp
    obtain ⟨hposted, hkeep⟩ := fetchOne_complete ht .invalidField
    have hpre : (s.fetchOne h).precheck ((s.fetchOne h).copyCtx h d 0 (copyLbas rs)) = some .invalidField := by
      rw [precheck_copy ((fetchOne_nsRefusal s h h).trans hns) ((congrArg Ns.packed (fetchOne_ns s h _)).trans hp) rfl]
      rw [show Ctx.nsid _ = h.nsid from rfl, fetchOne_ns, if_pos hz, ite_self]
    refine ⟨_, ?_, hposted, hkeep .zones (by decide), hkeep .media (by decide)⟩
    rw [exec_copy ht, hpre]
  case copyRange =>
    intro h d a n s ht hns hz hp hsup hkey hn
    have hlen : (copyLbas [(a, n)]).length = n := by simp [copyLbas]; omega
    have hpre : (s.fetchOne h).precheck ((s.fetchOne h).copyCtx h d 0 (copyLbas [(a, n)])) = none := by
      have hnlb : ((s.fetchOne h).copyCtx h d 0 (copyLbas [(a, n)])).nlb = n := hlen
      rw [precheck_copy ((fetchOne_nsRefusal s h h).trans hns) ((congrArg Ns.packed (fetchOne_ns s h _)).trans hp) rfl,
        if_neg (by rw [show Ctx.hdr _ = h from rfl, hsup]; decide),
        if_neg (by rw [show Ctx.nsid _ = h.nsid from rfl, fetchOne_ns, hz]; decide),
        if_neg (by rw [show Ctx.nsid _ = h.nsid from rfl, fetchOne_keyAvailable, hkey]; decide), if_neg (by rw [hnlb]; omega)]
    have hexec := exec_copy ht d [(a, n)]
    rw [hpre] at hexec
    obtain ⟨hok, hkeep⟩ := fetchOne_complete ht .success
    obtain ⟨hbad, hkeep'⟩ := fetchOne_complete ht .lbaOutOfRange
    obtain rfl | rfl : n = 0 ∨ n = 1 := by omega
    · exact ⟨_, hexec, fun _ => hok, fun h1 => absurd h1 (by decide), hkeep .media (by decide)⟩
    · have hone : copyLbas [(a, 1)] = [a] := rfl
      simp only [hone, List.any_cons, List.any_nil, Bool.or_false, decide_eq_true_eq, reduceCtorEq, if_false, List.length_singleton, fetchOne_ns] at hexec
      by_cases hrange : (s.ns h.nsid).lbas < d + 1 ∨ (s.ns h.nsid).lbas ≤ a
      · rw [if_pos hrange] at hexec
        exact ⟨_, hexec, fun h0 => absurd h0 (by decide), fun _ _ => hbad, hkeep' .media (by decide)⟩
      · rw [if_neg hrange] at hexec
        refine ⟨_, hexec, fun h0 => absurd h0 (by decide), fun _ hout => absurd hout (by omega), ?_⟩
        exact ((fetchOne_only s h).andThen (submit_copy_only _ rfl)) .media (by decide)
  case copy =>
    intro h a d s u ha hz hpre hgo hla hld hfwd
    obtain ⟨y, hy, hk, hph, hslba, hdata, hkeep⟩ := submit_copy_unmapped ha hz hpre hgo hfwd
    refine ⟨_, y, ?_, hy, hk, hph, hslba, hdata, hkeep .media (by decide), hkeep .completions (by decide)⟩
    have hone : copyLbas [(a, 1)] = [a] := rfl
    have hpre' : (s.fetchOne h).precheck ((s.fetchOne h).copyCtx h d 0 [a]) = none := hpre
    rw [exec_copy ha.takes, hone, hpre']
    simp only [List.any_cons, List.any_nil, Bool.or_false, decide_eq_true_eq, reduceCtorEq, if_false, List.length_singleton, fetchOne_ns]
    rw [if_neg (by omega)]
    rfl

end Sys2Proof.Machine
end

section
/-! Writes at the zone keeper (R66, R70, R73, R75, R76): what a write-type command that goes has found, and the state it is accepted in. -/

namespace Sys2Proof.Machine

/-- What the zone keeper found of a write-type command that it does not refuse (R66, R68, R91). -/
theorem keeperCheck_eq_none {s : State} {t zk n : Nat} {off : Option Nat} (h : s.keeperCheck t zk off n = none) :
    (s.keeperView (s.zone zk)).1 ≠ .offline ∧ (s.keeperView (s.zone zk)).1 ≠ .readOnly ∧
      (∀ o, off = some o → o = (s.keeperView (s.zone zk)).2) ∧ (s.keeperView (s.zone zk)).2 + n ≤ s.zcap := by
  revert h
  unfold State.keeperCheck
  simp only
  split
  · exact fun h => nomatch h
  split
  · exact fun h => nomatch h
  split
  · exact fun h => nomatch h
  split
  · exact fun h => nomatch h
  split
  · exact fun h => nomatch h
  · rename_i hoffline hreadOnly _ hoff hroom
    refine fun _ => ⟨hoffline, hreadOnly, ?_, Nat.not_lt.1 hroom⟩
    rintro o rfl
    simpa using hoff

section
variable (s : State) (x : Ctx)

/-- The key of the zone that a write-type command names. -/
def Ctx.zoneNamed (x : Ctx) : Nat := (zonePlace x.nsid x.slba).1

/-- The offset in its zone that a write-type command is written at: an append at the write pointer (R73). -/
def State.writeOff : Nat := if x.kind = .append then (s.keeperView (s.zone x.zoneNamed)).2 else x.slba % zsze

/-- A write-type command with the places it is given at its zone's keeper. -/
def State.writeCtx : Ctx :=
  { x with
    places := (((List.range x.nlb).map fun i => s.writeOff x + i).filter fun o => decide (o < s.zcap)).map fun o => some (x.zoneNamed, o)
    slba := x.slba / zsze * zsze + s.writeOff x
    behind := (s.zone x.zoneNamed).fence.isSome }

/-- The stripe set that an Empty zone is placed on. -/
def State.setNamed : Nat := s.placeSet x.nsid (zoneOfKey x.zoneNamed)

/-- The state in which the zone keeper accepts a write-type command: an Empty zone is activated, behind a reset it gets its next die blocks
(R70, R75, R173). -/
def State.readied : State :=
  let t := s.issueRotation (s.setNamed x)
  if (s.keeperView (s.zone x.zoneNamed)).1 ≠ .empty then s
  else if (s.zone x.zoneNamed).fence.isSome then
    (t.takeBlocks (t.stripe (s.setNamed x)).members).2.updZone x.zoneNamed fun z => { z with fence := z.fence.map fun f =>
      { f with newDblk := (t.takeBlocks (t.stripe (s.setNamed x)).members).1, newRot := s.nextRotation (s.setNamed x) } }
  else t.activate x.zoneNamed (s.setNamed x) (s.nextRotation (s.setNamed x)) false .implicitOpen

theorem readied_only : Only [.sets, .dies, .store, .zones] s (s.readied x) := by
  unfold State.readied
  simp only
  refine .ites .refl (.ites ?_ ?_)
  · exact (((issueRotation_only _ _).andThen (takeBlocks_only _ _)).andThen (setZone_only _ _ _)).mono (by decide)
  · exact ((issueRotation_only _ _).andThen (activate_only _ _ _ _ _ _)).mono (by decide)

end

/-- A write-type command of a zoned namespace that goes: its zone's keeper finds nothing wrong, and it is accepted in the readied state (R70). -/
theorem tryZoned_go {s : State} {x : Ctx} (hgo : (s.tryZoned none x).1 = .go) :
    s.keeperCheck x.tenant x.zoneNamed (if x.kind = .append then none else some (s.writeOff x)) x.nlb = none ∧ ∃ need,
      (s.tryZoned none x).2 = (((s.readied x).acceptWrite none (s.writeCtx x) x.zoneNamed need).2.advanceZone x.zoneNamed
        ((s.readied x).acceptWrite none (s.writeCtx x) x.zoneNamed need).1 x.nlb).startWrite
          ((s.readied x).acceptWrite none (s.writeCtx x) x.zoneNamed need).1 := by
  have hstop {v : Verdict} {t : State} {p : Prop} (hv : v ≠ .go) : (v, t).1 = .go → p := fun h => absurd h hv
  revert hgo
  unfold State.tryZoned State.readied
  rw [← Ctx.zoneNamed]
  dsimp only
  generalize s.bytesByBlock _ _ = need
  generalize (s.writeLack x x.zoneNamed need).both _ = lack
  generalize hcheck : s.keeperCheck x.tenant x.zoneNamed _ x.nlb = check
  by_cases hstep : (s.stepOne x).passes = false
  · rw [if_pos hstep]
    exact hstop (by simp)
  rw [if_neg hstep]
  by_cases hshort : s.energyShort (4096 * x.nlb) = true
  · rw [if_pos hshort]
    exact hstop (by simp)
  rw [if_neg hshort]
  by_cases hfull : s.landingFull = true
  · rw [if_pos hfull]
    exact hstop (by simp)
  rw [if_neg hfull]
  by_cases hlack : lack.passes = false
  · rw [if_pos hlack]
    exact hstop (by simp)
  rw [if_neg hlack]
  cases check with
  | some st => exact hstop (by simp)
  | none =>
    refine fun _ => ⟨hcheck, need, ?_⟩
    by_cases hst : (s.keeperView (s.zone x.zoneNamed)).1 = .empty
    · rw [if_pos hst, if_pos hst, if_pos hst, if_neg (not_not.2 hst), if_neg (not_not.2 hst)]
      rfl
    · rw [if_neg hst, if_neg hst, if_neg hst, if_pos hst, if_pos hst]
      rfl

/-- What the acceptance of a new write touches before its zone advances. -/
def newWriteParts : List Part := [.tenants, .rgns, .blks, .mem, .work, .evr, .aon, .ctxs, .nextCtx]

/-- A new write accepted gets the next number, and its data are fetched (R48, R70). -/
theorem acceptWrite_new (s : State) (x : Ctx) (zk : Nat) (need : List (Nat × Nat)) :
    (s.acceptWrite none x zk need).1 = s.work.nextCtx ∧ Only newWriteParts s (s.acceptWrite none x zk need).2 ∧
    ∃ o d, (s.acceptWrite none x zk need).2.ctxAt s.work.nextCtx = some { x with phase := .fetching, zk := zk, off := o, deadline := d } := by
  have hbooked : Only [.tenants, .rgns, .blks] s (((s.takeTokens x).each ((s.takeTokens x).writeStewards x.hdr zk) fun p s => s.bookSteward p.1 p.2).each
      need fun n s => s.bookCipher n.1 (n.2 / 4096)) :=
    ((takeTokens_only _ _).mono (by decide)).trans (Only.trans (.each fun p t => (bookSteward_only _ _ _).mono (by decide))
      (.each fun p t => (bookCipher_only _ _ _).mono (by decide)))
  have hnext : Work.nextCtx _ = s.work.nextCtx := hbooked .nextCtx (by decide)
  exact ⟨hnext, (hbooked.andThen (openCtx_only _ _)).mono (by decide), _, _, (openCtx_ctxAt _ _ _).trans (if_pos hnext.symm)⟩

/-- The data of a write that is not a Write Zeroes come from the host. -/
theorem startWrite_fetched {s : State} {c : Nat} {y : Ctx} (hy : s.ctxAt c = some y) (hk : y.kind ≠ .writeZeroes) : s.startWrite c = s := by
  unfold State.startWrite
  rw [hy]
  simp [hk]

/-- Those of a Write Zeroes go to the cipher engines at once (R58). -/
theorem startWrite_zeroes {s : State} {c : Nat} {y : Ctx} (hy : s.ctxAt c = some y) (hk : y.kind = .writeZeroes) :
    (s.startWrite c).ctxAt c = some { y with zeros := true, phase := .ciphering } ∧ Only [.work, .ctxs, .ciphers, .blks] s (s.startWrite c) := by
  unfold State.startWrite
  rw [hy]
  simp only [hk, if_true]
  exact ⟨cipherWrite_ctxAt ((State.ctxAt_setCtx _ _ _ _).trans (if_pos rfl)), ((setCtx_only _ _ _).andThen (cipherWrite_only _ _)).mono (by decide)⟩

/-- The zone of a write accepted with no fence over it (R66, R70). -/
theorem advanceZone_unfenced {s : State} {zk : Nat} (hf : (s.zone zk).fence = none) (c n : Nat) :
    (s.advanceZone zk c n).zone zk = { s.zone zk with
      wp := (s.zone zk).wp + n, writing := (s.zone zk).writing ++ [c], lastWrite := s.now, fzr := false, ageHours := 0,
      st := if (s.zone zk).wp + n = s.zcap then .full else if (s.zone zk).st = .closed then .implicitOpen else (s.zone zk).st } := by
  unfold State.advanceZone
  rw [State.updZone_eq, State.zone_setZone, if_pos rfl]
  simp only [hf]

/-- The zone of a write accepted behind a reset (R75, R76). -/
theorem advanceZone_fenced {s : State} {zk : Nat} {f : Fence} (hf : (s.zone zk).fence = some f) (c n : Nat) :
    (s.advanceZone zk c n).zone zk = { s.zone zk with
      fence := some { f with pendingWp := f.pendingWp + n, behind := f.behind ++ [c] }, lastWrite := s.now } := by
  unfold State.advanceZone
  rw [State.updZone_eq, State.zone_setZone, if_pos rfl]
  simp only [hf]

theorem advanceZone_ne (s : State) {zk k : Nat} (hk : k ≠ zk) (c n : Nat) : (s.advanceZone zk c n).zone k = s.zone k := by
  unfold State.advanceZone
  rw [State.updZone_eq, State.zone_setZone, if_neg hk]

/-- Where the zone is not Empty to its keeper, nothing has to be readied. -/
theorem readied_of_ne {s : State} {x : Ctx} (h : (s.keeperView (s.zone x.zoneNamed)).1 ≠ .empty) : s.readied x = s := if_pos h

/-- What a write touches from its submission to the advance of its zone. -/
def writeParts : List Part := [.sqs, .sets, .dies, .store, .zones, .ciphers] ++ newWriteParts

/-- A write-type command of a zoned namespace that goes: the context and the state of its acceptance (R70). -/
theorem write_accepted {s u : State} {h : Hdr} {x : Ctx} (ha : s.AtAdmission h x u) (hpre : (s.fetchOne h).precheck x = none)
    (hk : x.kind = .write ∨ x.kind = .append ∨ x.kind = .writeZeroes) (hz : (s.ns x.nsid).zoned = true) (hgo : (u.tryIo none x).1 = .go) :
    u.keeperCheck x.tenant x.zoneNamed (if x.kind = .append then none else some (u.writeOff x)) x.nlb = none ∧ ∃ v o d,
      (s.fetchOne h).submit x = (v.advanceZone x.zoneNamed s.work.nextCtx x.nlb).startWrite s.work.nextCtx ∧
      Only newWriteParts (u.readied x) v ∧
      v.ctxAt s.work.nextCtx = some { u.writeCtx x with phase := .fetching, zk := x.zoneNamed, off := o, deadline := d } := by
  have htry : u.tryIo none x = u.tryZoned none x := by
    have hzu : (u.ns x.nsid).zoned = true := ha.zoned hz
    unfold State.tryIo
    rcases hk with hk | hk | hk <;> simp only [hk, hzu, if_true]
  rw [ha.submit hpre]
  unfold settleVerdict
  rw [hgo]
  rw [htry] at hgo ⊢
  obtain ⟨hcheck, need, heq⟩ := tryZoned_go hgo
  obtain ⟨hnum, hkeep, o, d, hctx⟩ := acceptWrite_new (u.readied x) (u.writeCtx x) x.zoneNamed need
  have hnext : (u.readied x).work.nextCtx = s.work.nextCtx := Eq.trans (readied_only u x .nextCtx (by decide)) (ha.only .nextCtx (by decide))
  rw [hnext] at hnum hctx
  rw [hnum] at heq
  exact ⟨hcheck, _, o, d, heq, hkeep, hctx⟩

end Sys2Proof.Machine
end

section
/-! O31: the writes of a zoned namespace that are accepted (R66, R70, R73, R75, R76). -/

namespace Sys2Proof.Machine

section
variable {s u : State} {h : Hdr} {x : Ctx}

theorem State.AtAdmission.zone_eq (ha : s.AtAdmission h x u) (k : Nat) : u.zone k = s.zone k := by simp only [State.zone, ha.zones_eq]

/-- A write's start leaves its zone alone. -/
theorem startWrite_only (s : State) (c : Nat) : Only [.work, .ctxs, .ciphers, .blks] s (s.startWrite c) := by
  unfold State.startWrite
  split
  · exact .refl
  · exact .ite (((setCtx_only _ _ _).andThen (cipherWrite_only _ _)).mono (by decide))

/-- The context of a write that is accepted, before its data come: with its places and its deadline (R48, R70). -/
def Ctx.accepted (y : Ctx) (zk o : Nat) (d : Option Nat) : Ctx := { y with phase := .fetching, zk := zk, off := o, deadline := d }

/-- The context of a write as it is started: the data of a Write Zeroes are there (R58). -/
def Ctx.started (y : Ctx) : Ctx := if y.kind = .writeZeroes then { y with zeros := true, phase := .ciphering } else y

theorem startWrite_ctxAt {s : State} {c : Nat} {y : Ctx} (hy : s.ctxAt c = some y) : (s.startWrite c).ctxAt c = some y.started := by
  unfold Ctx.started
  split
  · rename_i hk
    exact (startWrite_zeroes hy hk).1
  · rename_i hk
    rw [startWrite_fetched hy hk, hy]

/-- The places of a write that fits in its zone. -/
theorem writeCtx_places {s : State} {x : Ctx} (hfit : s.writeOff x + x.nlb ≤ s.zcap) :
    (s.writeCtx x).places = (List.range x.nlb).map fun i => some (x.zoneNamed, s.writeOff x + i) := by
  have hall : (((List.range x.nlb).map fun i => s.writeOff x + i).filter fun o => decide (o < s.zcap)) =
      (List.range x.nlb).map fun i => s.writeOff x + i := by
    rw [List.filter_eq_self]
    intro o ho
    obtain ⟨i, hi, rfl⟩ := List.mem_map.1 ho
    have := List.mem_range.1 hi
    exact decide_eq_true (by omega)
  change List.map _ (List.filter _ _) = _
  rw [hall, List.map_map]
  rfl

/-- What a write touches from its submission on, its zone among it. -/
def writtenParts : List Part := [.sqs, .sets, .dies, .store, .zones, .ciphers] ++ newWriteParts

/-- An accepted write: its context stands, its zone alone has advanced, and nothing is stored or completed. -/
theorem write_advanced (ha : s.AtAdmission h x u) (hpre : (s.fetchOne h).precheck x = none)
    (hk : x.kind = .write ∨ x.kind = .append ∨ x.kind = .writeZeroes) (hz : (s.ns x.nsid).zoned = true) (hgo : (u.tryIo none x).1 = .go) :
    ∃ (v : State) (o : Nat) (d : Option Nat),
      ((s.fetchOne h).submit x).zones = (v.advanceZone x.zoneNamed s.work.nextCtx x.nlb).zones ∧ v.zones = (u.readied x).zones ∧
      ((s.fetchOne h).submit x).ctxAt s.work.nextCtx = some ((u.writeCtx x).accepted x.zoneNamed o d).started ∧
      Only writtenParts s ((s.fetchOne h).submit x) := by
  obtain ⟨-, v, o, d, hsub, hv, hctx⟩ := write_accepted ha hpre hk hz hgo
  have hstart := startWrite_only (v.advanceZone x.zoneNamed s.work.nextCtx x.nlb) s.work.nextCtx
  have hctx' : (v.advanceZone x.zoneNamed s.work.nextCtx x.nlb).ctxAt s.work.nextCtx = some ((u.writeCtx x).accepted x.zoneNamed o d) := by
    rw [State.ctxAt, show Work.ctxs _ = _ from advanceZone_only v _ _ _ .ctxs (by decide)]
    exact hctx
  have hopen := ((ha.only.andThen (readied_only u x)).andThen hv).mono (G := writtenParts) (by decide)
  refine ⟨v, o, d, ?_, hv .zones (by decide), ?_, ?_⟩
  · rw [hsub]
    exact hstart .zones (by decide)
  · rw [hsub]
    exact startWrite_ctxAt hctx'
  · rw [hsub]
    exact hopen.trans (((advanceZone_only _ _ _ _).andThen hstart).mono (by decide))

end

section
variable {s u : State} {h : Hdr} {x : Ctx}

/-- A zone of a state is that of another one with the same zones. -/
theorem zone_congr {s t : State} (hz : t.zones = s.zones) (k : Nat) : t.zone k = s.zone k := by simp only [State.zone, hz]

/-- The zone keeper's view of a zone with no fence over it. -/
theorem keeperView_unfenced {s : State} {z : Zone} (hf : z.fence = none) : s.keeperView z = (z.st, z.wp) := by
  unfold State.keeperView
  rw [hf]
  exact ite_self _

theorem Zone.active_ne_empty {z : Zone} (ha : z.active = true) : z.st ≠ .empty := by
  intro he
  simp [Zone.active, he] at ha

/-- Where a write to an open zone that goes is placed, and what its zone is then (R70, R73). -/
theorem write_active (ha : s.AtAdmission h x u) (hpre : (s.fetchOne h).precheck x = none)
    (hk : x.kind = .write ∨ x.kind = .append ∨ x.kind = .writeZeroes) (hz : (s.ns x.nsid).zoned = true) (hgo : (u.tryIo none x).1 = .go)
    (hf : (s.zone x.zoneNamed).fence = none) (hact : (s.zone x.zoneNamed).active = true) :
    ∃ o d, (((s.fetchOne h).submit x).zone x.zoneNamed).wp = (s.zone x.zoneNamed).wp + x.nlb ∧
      (((s.fetchOne h).submit x).zone x.zoneNamed).writing = (s.zone x.zoneNamed).writing ++ [s.work.nextCtx] ∧
      ((s.fetchOne h).submit x).ctxAt s.work.nextCtx = some ((u.writeCtx x).accepted x.zoneNamed o d).started ∧
      (u.writeCtx x).places = (List.range x.nlb).map (fun i => some (x.zoneNamed, u.writeOff x + i)) ∧
      u.writeOff x = (if x.kind = .append then (s.zone x.zoneNamed).wp else x.slba % zsze) ∧
      (∀ k, k ≠ x.zoneNamed → ((s.fetchOne h).submit x).zone k = s.zone k) ∧ Only writtenParts s ((s.fetchOne h).submit x) := by
  have huz := ha.zone_eq x.zoneNamed
  have hview : u.keeperView (u.zone x.zoneNamed) = ((s.zone x.zoneNamed).st, (s.zone x.zoneNamed).wp) := by
    rw [huz, keeperView_unfenced hf]
  obtain ⟨hcheck, -⟩ := write_accepted ha hpre hk hz hgo
  obtain ⟨-, -, hoff, hfit⟩ := keeperCheck_eq_none hcheck
  rw [hview] at hoff hfit
  have hready : u.readied x = u := readied_of_ne (by rw [hview]; exact Zone.active_ne_empty hact)
  obtain ⟨v, o, d, hzones, hvz, hctx, hkeep⟩ := write_advanced ha hpre hk hz hgo
  rw [hready] at hvz
  have hvzone (k : Nat) : v.zone k = s.zone k := (zone_congr hvz k).trans (ha.zone_eq k)
  have hwritten : u.writeOff x = if x.kind = .append then (s.zone x.zoneNamed).wp else x.slba % zsze := by
    unfold State.writeOff
    rw [hview]
  have hat : u.writeOff x = (s.zone x.zoneNamed).wp := by
    by_cases happ : x.kind = .append
    · rw [hwritten, if_pos happ]
    · exact hoff _ (if_neg happ)
  have hadv := advanceZone_unfenced (s := v) (zk := x.zoneNamed) (by rw [hvzone]; exact hf) s.work.nextCtx x.nlb
  rw [hvzone] at hadv
  refine ⟨o, d, ?_, ?_, hctx, writeCtx_places (by rw [hat]; exact hfit), hwritten, fun k hne => ?_, hkeep⟩
  · rw [zone_congr hzones, hadv]
  · rw [zone_congr hzones, hadv]
  · rw [zone_congr hzones, advanceZone_ne _ hne, hvzone]

/-- Die blocks taken depend on the stripe sets only by the dies that hold the checkpoint (R197). -/
theorem takeBlocks_sets (s : State) (l : Tbl StripeSet) (hl : ∀ n, (Tbl.look {} l n).was = (s.stripe n).was) (ms : List (Option Nat)) :
    State.takeBlocks { s with sets := l } ms = ((s.takeBlocks ms).1, { (s.takeBlocks ms).2 with sets := l }) := by
  induction ms generalizing s with
  | nil => rfl
  | cons m ms ih =>
    cases m with
    | none =>
      simp only [State.takeBlocks]
      rw [ih s hl]
    | some k =>
      have hfresh : State.freshPositions { s with sets := l } k = s.freshPositions k := by
        have hcheckpoint : State.checkpointDie { s with sets := l } k = s.checkpointDie k := by
          unfold State.checkpointDie
          rw [← hl 0, ← hl 1]
          rfl
        unfold State.freshPositions State.diePositions
        rw [hcheckpoint]
        rfl
      have hone : State.takeBlock { s with sets := l } k = ((s.takeBlock k).1, { (s.takeBlock k).2 with sets := l }) := by
        have hdie : State.die { s with sets := l } k = s.die k := rfl
        unfold State.takeBlock
        simp only
        rw [hdie, hfresh]
        cases (s.die k).erasedBlocks <;> rfl
      have hsets (n : Nat) : ((s.takeBlock k).2.stripe n) = s.stripe n := by
        simp only [State.stripe, show State.sets _ = _ from takeBlock_only s k .sets (by decide)]
      simp only [State.takeBlocks]
      rw [hone]
      simp only
      rw [ih _ fun n => (hl n).trans (by rw [hsets])]

theorem issueRotation_members (s : State) (set n : Nat) : ((s.issueRotation set).stripe n).members = (s.stripe n).members := by
  unfold State.issueRotation
  rw [State.updStripe_eq, State.stripe_setStripe]
  split
  · subst_vars; rfl
  · rfl

theorem issueRotation_takeBlocks (s : State) (set : Nat) (ms : List (Option Nat)) :
    ((s.issueRotation set).takeBlocks ms).1 = (s.takeBlocks ms).1 := by
  have hwas (n : Nat) : ((s.issueRotation set).stripe n).was = (s.stripe n).was := by
    unfold State.issueRotation
    rw [State.updStripe_eq, State.stripe_setStripe]
    split
    · subst_vars; rfl
    · rfl
  have htaken := takeBlocks_sets s (s.issueRotation set).sets hwas ms
  exact (congrArg Prod.fst htaken :)

/-- A zone as its activation leaves it (R61, R173). -/
theorem activate_zone (s : State) (zk set rot : Nat) (ru : Bool) (st : ZoneSt) :
    ∃ z, (s.activate zk set rot ru st).zone zk = z ∧ z.set = set ∧ z.rot = rot ∧ z.st = st ∧ z.wp = 0 ∧ z.valid = true ∧ z.fence = none ∧
      z.dblk = (s.takeBlocks (s.stripe set).members).1 := by
  refine ⟨_, rfl, ?_⟩
  have hzone (t : State) (z : Zone) : (t.commitZone zk z).zone zk = { z with epoch := t.store.epoch + 1 } := by
    unfold State.commitZone
    rw [State.zone_setZone, if_pos rfl]
  unfold State.activate
  simp only
  rw [hzone]
  exact ⟨rfl, rfl, rfl, rfl, rfl, rfl, rfl⟩

theorem activate_zone_ne (s : State) {zk k : Nat} (hk : k ≠ zk) (set rot : Nat) (ru : Bool) (st : ZoneSt) :
    (s.activate zk set rot ru st).zone k = s.zone k := by
  have hzone (t : State) (z : Zone) : (t.commitZone zk z).zone k = t.zone k := by
    unfold State.commitZone
    rw [State.zone_setZone, if_neg hk]
    rfl
  unfold State.activate
  simp only
  rw [hzone]
  exact zone_congr (takeBlocks_only s _ .zones (by decide)) k

/-- The first write of an Empty zone activates it (R61, R70, R173). -/
theorem write_empty (ha : s.AtAdmission h x u) (hpre : (s.fetchOne h).precheck x = none)
    (hk : x.kind = .write ∨ x.kind = .append ∨ x.kind = .writeZeroes) (hz : (s.ns x.nsid).zoned = true) (hgo : (u.tryIo none x).1 = .go)
    (hf : (s.zone x.zoneNamed).fence = none) (hst : (s.zone x.zoneNamed).st = .empty) :
    ∃ z, ((s.fetchOne h).submit x).zone x.zoneNamed = z ∧ z.valid = true ∧ z.wp = x.nlb ∧ z.set = u.setNamed x ∧
      z.rot = u.nextRotation (u.setNamed x) ∧ z.dblk = (u.takeBlocks (u.stripe (u.setNamed x)).members).1 ∧
      (∀ k, k ≠ x.zoneNamed → ((s.fetchOne h).submit x).zone k = s.zone k) ∧ Only writtenParts s ((s.fetchOne h).submit x) := by
  have huz := ha.zone_eq x.zoneNamed
  have hready : u.readied x = (u.issueRotation (u.setNamed x)).activate x.zoneNamed (u.setNamed x) (u.nextRotation (u.setNamed x)) false
      .implicitOpen := by
    unfold State.readied
    simp only
    rw [huz, keeperView_unfenced hf, if_neg (not_not.2 hst), if_neg (by rw [hf]; decide)]
  obtain ⟨v, o, d, hzones, hvz, -, hkeep⟩ := write_advanced ha hpre hk hz hgo
  rw [hready] at hvz
  obtain ⟨z, hzeq, hset, hrot, hzst, hwp, hvalid, hzf, hdblk⟩ := activate_zone (u.issueRotation (u.setNamed x)) x.zoneNamed (u.setNamed x)
    (u.nextRotation (u.setNamed x)) false .implicitOpen
  have hvzone : v.zone x.zoneNamed = z := (zone_congr hvz _).trans hzeq
  have hadv := advanceZone_unfenced (s := v) (zk := x.zoneNamed) (by rw [hvzone]; exact hzf) s.work.nextCtx x.nlb
  rw [hvzone] at hadv
  rw [issueRotation_members, issueRotation_takeBlocks] at hdblk
  refine ⟨_, (zone_congr hzones _).trans hadv, hvalid, (congrArg (· + x.nlb) hwp).trans (Nat.zero_add _), hset, hrot, hdblk, fun k hne => ?_, hkeep⟩
  rw [zone_congr hzones, advanceZone_ne _ hne, zone_congr hvz, activate_zone_ne _ hne, ← ha.zone_eq]
  rfl

/-- Behind a reset a readied zone has its next die blocks, and keeps the rest of its fence (R75, R76). -/
theorem readied_fenced {f : Fence} (hf : (u.zone x.zoneNamed).fence = some f) :
    ∃ b r, (u.readied x).zone x.zoneNamed = { u.zone x.zoneNamed with fence := some { f with newDblk := b, newRot := r } } ∧
      ∀ k, k ≠ x.zoneNamed → (u.readied x).zone k = u.zone k := by
  unfold State.readied
  simp only
  split
  · exact ⟨f.newDblk, f.newRot, congrArg (fun o => { u.zone x.zoneNamed with fence := o }) hf, fun _ _ => rfl⟩
  · rw [if_pos (by rw [hf]; rfl)]
    have htaken (k : Nat) : (((u.issueRotation (u.setNamed x)).takeBlocks
        ((u.issueRotation (u.setNamed x)).stripe (u.setNamed x)).members).2).zone k = u.zone k :=
      zone_congr (((issueRotation_only _ _).andThen (takeBlocks_only _ _)) .zones (by decide)) k
    refine ⟨((u.issueRotation (u.setNamed x)).takeBlocks ((u.issueRotation (u.setNamed x)).stripe (u.setNamed x)).members).1,
      u.nextRotation (u.setNamed x), ?_, fun k hk => ?_⟩
    · rw [State.updZone_eq, State.zone_setZone, if_pos rfl, htaken, hf]
      rfl
    · rw [State.updZone_eq, State.zone_setZone, if_neg hk, htaken]

/-- A write behind a reset advances the pending write pointer, and leaves the zone itself alone until the reset takes effect (R75, R76). -/
theorem write_behind {f : Fence} (ha : s.AtAdmission h x u) (hpre : (s.fetchOne h).precheck x = none)
    (hk : x.kind = .write ∨ x.kind = .append ∨ x.kind = .writeZeroes) (hz : (s.ns x.nsid).zoned = true) (hgo : (u.tryIo none x).1 = .go)
    (hf : (s.zone x.zoneNamed).fence = some f) :
    ∃ b r n o d, ((s.fetchOne h).submit x).zone x.zoneNamed = { s.zone x.zoneNamed with
        fence := some { f with newDblk := b, newRot := r, pendingWp := f.pendingWp + x.nlb, behind := f.behind ++ [s.work.nextCtx] }, lastWrite := n } ∧
      ((s.fetchOne h).submit x).ctxAt s.work.nextCtx = some ((u.writeCtx x).accepted x.zoneNamed o d).started ∧ (u.writeCtx x).behind = true ∧
      (∀ k, k ≠ x.zoneNamed → ((s.fetchOne h).submit x).zone k = s.zone k) ∧ Only writtenParts s ((s.fetchOne h).submit x) := by
  have huf : (u.zone x.zoneNamed).fence = some f := by rw [ha.zone_eq]; exact hf
  obtain ⟨b, r, hready, hother⟩ := readied_fenced huf
  obtain ⟨v, o, d, hzones, hvz, hctx, hkeep⟩ := write_advanced ha hpre hk hz hgo
  have hvzone : v.zone x.zoneNamed = { s.zone x.zoneNamed with fence := some { f with newDblk := b, newRot := r } } := by
    rw [zone_congr hvz, hready, ha.zone_eq]
  have hadv := advanceZone_fenced (congrArg Zone.fence hvzone) s.work.nextCtx x.nlb
  rw [hvzone] at hadv
  refine ⟨b, r, v.now, o, d, (zone_congr hzones _).trans hadv, hctx, ?_, fun k hne => ?_, hkeep⟩
  · exact congrArg Option.isSome huf
  · rw [zone_congr hzones, advanceZone_ne _ hne, zone_congr hvz, hother k hne, ha.zone_eq]

end

end Sys2Proof.Machine
end

section
/-! O31: writes of a conventional namespace, Packed Appends, and the commands that are declined (R89, R98, R203, R247, R517). -/

namespace Sys2Proof.Machine

/-- The frames that a write of a conventional namespace takes for its placement, and the state with them taken (R203, R205). -/
def State.framesFor (s : State) (x : Ctx) : List (Nat × Nat) × State :=
  s.takeFrames x.nlb x.nsid (s.placementOf x.nsid x.hdr.dspec).1 (s.placementOf x.nsid x.hdr.dspec).2

/-- The units of the frames count the command among their writers. -/
def State.countWriter (s : State) (frames : List (Nat × Nat)) (c : Nat) : State :=
  s.each ((frames.map (·.1)).eraseDups) fun zk t => t.updZone zk fun z => { z with writing := z.writing ++ [c] }

theorem countWriter_only (s : State) (frames : List (Nat × Nat)) (c : Nat) : Only [.zones] s (s.countWriter frames c) :=
  .each fun _ _ => setZone_only _ _ _

/-- A write of a conventional namespace that goes is accepted with the frames taken for it (R98, R203). -/
theorem tryConventional_go {s : State} {x : Ctx} (hgo : (s.tryConventional none x).1 = .go) : ∃ zk need,
    (s.tryConventional none x).2 =
      (((s.framesFor x).2.acceptWrite none { x with places := (s.framesFor x).1.map some } zk need).2.countWriter (s.framesFor x).1
        ((s.framesFor x).2.acceptWrite none { x with places := (s.framesFor x).1.map some } zk need).1).startWrite
        ((s.framesFor x).2.acceptWrite none { x with places := (s.framesFor x).1.map some } zk need).1 := by
  have hstop {v : Verdict} {t : State} {p : Prop} (hv : v ≠ .go) : (v, t).1 = .go → p := fun h => absurd h hv
  revert hgo
  unfold State.tryConventional
  dsimp only
  rw [show s.takeFrames x.nlb x.nsid (s.placementOf x.nsid x.hdr.dspec).1 (s.placementOf x.nsid x.hdr.dspec).2 = s.framesFor x from rfl]
  split
  · exact hstop (by simp)
  split
  · exact hstop (by simp)
  split
  · exact hstop (by simp)
  split
  · exact hstop (by simp)
  split
  · exact hstop (by simp)
  · exact fun _ => ⟨_, _, rfl⟩

section
variable {s u : State} {h : Hdr} {x : Ctx}

/-- A write to a conventional namespace that goes: its context has the places of its frames (R203). -/
theorem write_conventional (ha : s.AtAdmission h x u) (hpre : (s.fetchOne h).precheck x = none) (hk : x.kind = .write)
    (hz : (s.ns x.nsid).zoned = false) (hgo : (u.tryIo none x).1 = .go) :
    ∃ y, ((s.fetchOne h).submit x).ctxAt s.work.nextCtx = some y ∧ y.kind = .write ∧ y.phase = .fetching ∧
      y.places = (u.framesFor x).1.map some ∧ (∀ n, (((s.fetchOne h).submit x).ns n).fwd = (s.ns n).fwd) ∧
      (∀ n, n ≠ x.nsid → ((s.fetchOne h).submit x).ns n = s.ns n) ∧ Only (.nss :: writtenParts) s ((s.fetchOne h).submit x) := by
  have hzu : (u.ns x.nsid).zoned = false := by rw [State.ns, ha.nss_eq]; exact hz
  have htry : u.tryIo none x = u.tryConventional none x := by
    unfold State.tryIo
    simp only [hk, hzu, Bool.false_eq_true, if_false]
  rw [ha.submit hpre]
  unfold settleVerdict
  rw [hgo]
  rw [htry] at hgo ⊢
  obtain ⟨zk, need, heq⟩ := tryConventional_go hgo
  have htaken : UnitsTaken x.nsid u (u.framesFor x).2 := takeFrames_taken _ _ _ _ _
  obtain ⟨hnum, hkeep, o, d, hctx⟩ := acceptWrite_new (u.framesFor x).2 { x with places := (u.framesFor x).1.map some } zk need
  have hnext : (u.framesFor x).2.work.nextCtx = s.work.nextCtx := Eq.trans (htaken.only .nextCtx (by decide)) (ha.only .nextCtx (by decide))
  rw [hnext] at hnum hctx
  rw [hnum] at heq
  generalize hv : ((u.framesFor x).2.acceptWrite none { x with places := (u.framesFor x).1.map some } zk need).2 = v at heq hkeep hctx
  have hcount := countWriter_only v (u.framesFor x).1 s.work.nextCtx
  have hctx' : (v.countWriter (u.framesFor x).1 s.work.nextCtx).ctxAt s.work.nextCtx =
      some { x with phase := .fetching, zk := zk, off := o, deadline := d, places := (u.framesFor x).1.map some } := by
    rw [State.ctxAt, show Work.ctxs _ = _ from hcount .ctxs (by decide)]
    exact hctx
  rw [startWrite_fetched hctx' (by simp [hk])] at heq
  have hafter := hkeep.andThen hcount
  have hns (n : Nat) : (v.countWriter (u.framesFor x).1 s.work.nextCtx).ns n = (u.framesFor x).2.ns n := by
    simp only [State.ns, show State.nss _ = _ from hafter .nss (by decide)]
  have hus (n : Nat) : u.ns n = s.ns n := by simp only [State.ns, ha.nss_eq]
  dsimp only
  rw [heq]
  refine ⟨_, hctx', hk, rfl, rfl, fun n => ?_, fun n hn => ?_, ((ha.only.andThen htaken.only).andThen hafter).mono (by decide)⟩
  · rw [hns, htaken.fwd, hus]
  · rw [hns, htaken.ns_ne hn, hus]

/-- A Packed Append to an open zone that goes: it stands among the zone's writers, whose write pointer stays (R247, R249). -/
theorem tryAppend_go {s : State} {x : Ctx} (hgo : (s.tryAppend none x).1 = .go) (hf : (s.zone x.zoneNamed).fence = none)
    (hact : (s.zone x.zoneNamed).active = true) : ∃ v d,
    (s.tryAppend none x).2 = v.advanceZone x.zoneNamed s.work.nextCtx 0 ∧ Only newWriteParts s v ∧
      v.ctxAt s.work.nextCtx = some { x with phase := .fetching, zk := x.zoneNamed, behind := false, deadline := d } := by
  have hstop {v : Verdict} {t : State} {p : Prop} (hv : v ≠ .go) : (v, t).1 = .go → p := fun h => absurd h hv
  have hview : (s.keeperView (s.zone x.zoneNamed)).1 ≠ .empty := by
    rw [keeperView_unfenced hf]
    exact Zone.active_ne_empty hact
  revert hgo
  unfold State.tryAppend
  rw [← Ctx.zoneNamed]
  dsimp only
  generalize s.bytesByBlock _ _ = need
  generalize ((s.writeLack _ x.zoneNamed need).both _).both _ = lack
  generalize hcheck : s.keeperCheck x.tenant x.zoneNamed none 0 = check
  by_cases hshort : s.energyShort (4096 * (x.granules + 1)) = true
  · rw [if_pos hshort]
    exact hstop (by simp)
  rw [if_neg hshort]
  by_cases hfull : s.landingFull = true
  · rw [if_pos hfull]
    exact hstop (by simp)
  rw [if_neg hfull]
  by_cases hlack : lack.passes = false
  · rw [if_pos hlack]
    exact hstop (by simp)
  rw [if_neg hlack]
  cases check with
  | some st => exact hstop (by simp)
  | none =>
    intro _
    rw [if_neg hview, if_pos hview, hf]
    have hbooked := ((takeTokens_only s x).andThen (bookings_only (s.takeTokens x) ((s.takeTokens x).writeStewards x.hdr x.zoneNamed) need
      (s.homeOf x.hdr).1 x.granules 1024000)).mono (G := [.tenants, .rgns, .blks]) (by decide)
    have hnext : Work.nextCtx _ = s.work.nextCtx := hbooked .nextCtx (by decide)
    exact ⟨_, _, congrArg (fun c => State.advanceZone _ x.zoneNamed c 0) hnext, (hbooked.andThen (openCtx_only _ _)).mono (by decide),
      (openCtx_ctxAt _ _ _).trans (if_pos hnext.symm)⟩

theorem append_active (ha : s.AtAdmission h x u) (hpre : (s.fetchOne h).packedCheck x.hdr x.slba (x.kind == .packedAppend) = none)
    (hk : x.kind = .packedAppend) (hgo : (u.tryPacked none x).1 = .go)
    (hf : (s.zone x.zoneNamed).fence = none) (hact : (s.zone x.zoneNamed).active = true) :
    ∃ d, (((s.fetchOne h).submitPacked x).zone x.zoneNamed).wp = (s.zone x.zoneNamed).wp ∧
      (((s.fetchOne h).submitPacked x).zone x.zoneNamed).writing = (s.zone x.zoneNamed).writing ++ [s.work.nextCtx] ∧
      ((s.fetchOne h).submitPacked x).ctxAt s.work.nextCtx =
        some { x with phase := .fetching, zk := x.zoneNamed, behind := false, deadline := d } ∧
      (∀ k, k ≠ x.zoneNamed → ((s.fetchOne h).submitPacked x).zone k = s.zone k) ∧ Only writtenParts s ((s.fetchOne h).submitPacked x) := by
  have hnext : u.work.nextCtx = s.work.nextCtx := ha.only .nextCtx (by decide)
  have htry : u.tryPacked none x = u.tryAppend none x := if_pos hk
  rw [ha.submitPacked hpre]
  unfold settleVerdict
  rw [hgo]
  rw [htry] at hgo ⊢
  obtain ⟨v, d, heq, hv, hctx⟩ := tryAppend_go hgo (by rw [ha.zone_eq]; exact hf) (by rw [ha.zone_eq]; exact hact)
  rw [hnext] at heq hctx
  have hvzone (k : Nat) : v.zone k = s.zone k := (zone_congr (hv .zones (by decide)) k).trans (ha.zone_eq k)
  have hadv := advanceZone_unfenced (s := v) (zk := x.zoneNamed) (by rw [hvzone]; exact hf) s.work.nextCtx 0
  rw [hvzone] at hadv
  dsimp only
  rw [heq]
  refine ⟨d, ?_, ?_, ?_, fun k hne => ?_, ((ha.only.andThen hv).andThen (advanceZone_only _ _ _ _)).mono (by decide)⟩
  · rw [hadv, Nat.add_zero]
  · rw [hadv]
  · rw [State.ctxAt, show Work.ctxs _ = _ from advanceZone_only v _ _ _ .ctxs (by decide)]
    exact hctx
  · rw [advanceZone_ne _ hne, hvzone]

end

/-- The dirty log draws page numbers and leaves the re-arm queue alone. -/
theorem logPages_rearmHead (n : Nat) (s : State) (t : Nat) (cq : Bool) : (State.logPages n s t cq).work.rearmHead = s.work.rearmHead := by
  induction n generalizing s with
  | zero => rfl
  | succ n ih =>
    unfold State.logPages
    simp only
    split
    · rfl
    split
    · simp
    · exact (ih _).trans rfl

theorem completeWith_rearmHead (s : State) (h : Hdr) (st : Status) (a b : Nat) (d : List FieldVal) :
    (s.completeWith h st a b d).work.rearmHead = s.work.rearmHead := by
  have hlogs (t : State) (c n : Nat) : (t.logWrites c n).work.rearmHead = t.work.rearmHead := by
    unfold State.logWrites
    split
    · exact (logPages_rearmHead _ _ _ _).trans (logPages_rearmHead _ _ _ _)
    · rfl
  unfold State.completeWith
  split
  · rfl
  simp only
  split
  · rfl
  · exact (congrArg Work.rearmHead (respond_only _ _ _ .work (by decide)) :).trans ((hlogs _ _ _).trans rfl)

/-- A maximum of times of which each is cut at a limit. -/
theorem foldl_max_bounds (l : List Nat) (f : Nat → Nat) (m lo hi : Nat) (hlo : lo ≤ m) (hm : m ≤ hi) :
    lo ≤ l.foldl (fun m t => max m (min hi (f t))) m ∧ l.foldl (fun m t => max m (min hi (f t))) m ≤ hi := by
  induction l generalizing m with
  | nil => exact ⟨hlo, hm⟩
  | cons t l ih => exact ih _ (le_max_of_le_left hlo) (max_le hm (min_le_left _ _))

/-- What a decline for zones not re-armed can touch. -/
def unarmedParts : List Part := [.sqs, .tmk] ++ postParts

/-- A command that addresses zones not re-armed is declined, and they go to the head of the re-arm queue (R89). -/
theorem declineUnarmed_posts {s u : State} {h : Hdr} (hm : u.muted h = false) (hu : Only [.sqs] s u) (t : Nat) (cls : Cls) (zs : List Nat) :
    ∃ us, 1 ≤ us ∧ us ≤ 2400 ∧ Posted s (u.declineUnarmed h t cls zs) h .boundUnavailable us 0 ∧
      (u.declineUnarmed h t cls zs).work.rearmHead.take zs.length = zs ∧ Only unarmedParts s (u.declineUnarmed h t cls zs) := by
  unfold State.declineUnarmed
  have hqueue := onWork_tables_only u (fun w => { w with rearmHead := zs ++ w.rearmHead.filter fun z => !zs.contains z }) rfl
  generalize hv : (u.onWork fun w => { w with rearmHead := zs ++ w.rearmHead.filter fun z => !zs.contains z }) = v at hqueue
  have hopen := hu.andThen hqueue
  obtain ⟨hlow, hhigh⟩ := foldl_max_bounds (zs.map v.rearmLeft) (fun t => ceilDiv t 1000000) 1 1 2400 (le_refl _) (by decide)
  have hposted := decline_posted (s := s) (u := v) (h := h)
    ((muted_congr h (hqueue .ctrls (by decide)) (hqueue .sqs (by decide)) (hqueue .fab (by decide))).trans hm) (hopen .completions (by decide)) t cls
    ((zs.map v.rearmLeft).foldl (fun m t => max m (min 2400 (ceilDiv t 1000000))) 1)
  have hcut (us : Nat) (h1 : 1 ≤ us) (h2 : us ≤ 2400) : min longestWaitUs (max 1 us) = us := by
    rw [max_eq_right h1]
    exact min_eq_right (h2.trans (by decide))
  rw [hcut _ hlow hhigh] at hposted
  refine ⟨_, hlow, hhigh, hposted, ?_, (hopen.andThen (decline_only _ _ _ _ _)).mono (by decide)⟩
  have hhead : (v.decline h t cls ((zs.map v.rearmLeft).foldl (fun m t => max m (min 2400 (ceilDiv t 1000000))) 1)).work.rearmHead =
      v.work.rearmHead := by
    unfold State.decline
    exact completeWith_rearmHead _ _ _ _ _ _
  dsimp only
  rw [hhead, ← hv]
  exact List.take_left

/-- A latched trip declines a command with the longest try-after (R517). -/
theorem decline_trip {s u : State} {h : Hdr} (hm : u.muted h = false) (hu : Only [.sqs] s u) (t : Nat) (cls : Cls) :
    Posted s (u.decline h t cls longestWaitUs) h .boundUnavailable 1000000 0 ∧ Only unarmedParts s (u.decline h t cls longestWaitUs) :=
  ⟨decline_posted hm (hu .completions (by decide)) t cls longestWaitUs, (hu.andThen (decline_only _ _ _ _ _)).mono (by decide)⟩

end Sys2Proof.Machine
end

section
/-! O31 settled. -/

namespace Sys2Proof.Machine

/-- A Zone Append that is not wrong names the start of its zone (R73). -/
theorem append_aligned {s : State} {x : Ctx} (hk : x.kind = .append) (h : s.precheck x = none) : x.slba % zsze = 0 := by
  by_contra hne
  revert h
  unfold State.precheck
  simp only [hk, reduceCtorEq, false_and, if_false]
  split
  · exact fun h => nomatch h
  split
  · exact fun h => nomatch h
  split
  · exact fun h => nomatch h
  split
  · exact fun h => nomatch h
  split
  · exact fun h => nomatch h
  split
  · exact fun h => nomatch h
  · rw [if_pos ⟨trivial, hne⟩]
    exact fun h => nomatch h

theorem writeCmd_mem (s : State) (h : Hdr) (slba nlb : Nat) :
    ((.writeCmd h slba nlb, s.newCtx h .write slba (nlb + 1)) : Instr × Ctx) ∈ s.ioContexts h slba nlb [] := by simp [State.ioContexts]

theorem zoneAppendCmd_mem (s : State) (h : Hdr) (slba nlb : Nat) :
    ((.zoneAppendCmd h slba nlb, s.newCtx h .append slba (nlb + 1)) : Instr × Ctx) ∈ s.ioContexts h slba nlb [] := by simp [State.ioContexts]

theorem packedAppend_mem (s : State) (h : Hdr) (slba ng : Nat) (close : Bool) :
    ((.packedAppend h slba ng close, { s.newCtx h .packedAppend slba (ng % 64 + 1) with granules := ng % 64 + 1, close := close }) : Instr × Ctx) ∈
      s.packedContexts h slba ng close := by simp [State.packedContexts]

/-- A Write Zeroes of a zoned namespace is a write, with DEAC or without (R58, R100). -/
theorem exec_writeZeroes_zoned {s : State} {h : Hdr} (ht : s.TakesIo h) (slba nlb : Nat) (deac : Bool) (hz : (s.ns h.nsid).zoned = true) :
    exec (.writeZeroesCmd h slba nlb deac) s = .next ((s.fetchOne h).submit ((s.fetchOne h).newCtx h .writeZeroes slba (nlb + 1))) := by
  refine congrArg Host.Outcome.next ((ht.run _).trans (if_neg ?_))
  rw [fetchOne_ns, hz]
  simp

/-- One of a conventional namespace with DEAC deallocates (R100). -/
theorem exec_writeZeroes_deallocate {s : State} {h : Hdr} (ht : s.TakesIo h) (slba nlb : Nat) (hz : (s.ns h.nsid).zoned = false) :
    exec (.writeZeroesCmd h slba nlb true) s =
      .next ((s.fetchOne h).submit { (s.fetchOne h).newCtx h (.discard [(slba, nlb + 1)]) 0 0 with zeros := true }) := by
  refine congrArg Host.Outcome.next ((ht.run _).trans (if_pos ?_))
  rw [fetchOne_ns, hz]
  rfl

section
variable {s : State} {h : Hdr}

/-- The zones that a command meets do not depend on its queue. -/
theorem fetchOne_zonesOf (s : State) (h : Hdr) (x : Ctx) :
    (((s.fetchOne h).zonesOf { x with places := (s.fetchOne h).readPlaces x }).filter fun zk => ((s.fetchOne h).zone zk).rearm != 0) =
      (s.zonesOf { x with places := s.readPlaces x }).filter fun zk => (s.zone zk).rearm != 0 := by
  obtain ⟨q, hq⟩ := fetchOne_eq s h
  rw [hq]
  rfl

theorem submit_trip {x : Ctx} (hstop : (s.fetchOne h).fetchStopped x = false) (hpre : (s.fetchOne h).precheck x = none) (htrip : s.aon.trip = true) :
    (s.fetchOne h).submit x = (s.fetchOne h).decline x.hdr x.tenant x.cls longestWaitUs := by
  have htrip' : (s.fetchOne h).aon.trip = true := by rw [show State.aon _ = _ from fetchOne_only s h .aon (by decide)]; exact htrip
  unfold State.submit
  rw [if_neg (by rw [hstop]; decide), hpre]
  exact if_pos htrip'

theorem submit_unarmed {x : Ctx} {zs : List Nat} (hstop : (s.fetchOne h).fetchStopped x = false) (hpre : (s.fetchOne h).precheck x = none)
    (htrip : s.aon.trip = false) (hzs : zs = (s.zonesOf { x with places := s.readPlaces x }).filter fun zk => (s.zone zk).rearm != 0)
    (hne : zs ≠ []) : (s.fetchOne h).submit x = (s.fetchOne h).declineRearm x zs := by
  have htrip' : (s.fetchOne h).aon.trip = false := by rw [show State.aon _ = _ from fetchOne_only s h .aon (by decide)]; exact htrip
  unfold State.submit
  rw [if_neg (by rw [hstop]; decide), hpre]
  simp only
  rw [if_neg (by rw [htrip']; decide), fetchOne_zonesOf, ← hzs, if_pos hne]

theorem submitPacked_trip {x : Ctx} (hstop : (s.fetchOne h).fetchStopped x = false)
    (hpre : (s.fetchOne h).packedCheck x.hdr x.slba (x.kind == .packedAppend) = none) (htrip : s.aon.trip = true) :
    (s.fetchOne h).submitPacked x = (s.fetchOne h).decline x.hdr x.tenant x.cls longestWaitUs := by
  have htrip' : (s.fetchOne h).aon.trip = true := by rw [show State.aon _ = _ from fetchOne_only s h .aon (by decide)]; exact htrip
  unfold State.submitPacked
  rw [if_neg (by rw [hstop]; decide), hpre]
  exact if_pos htrip'

theorem submitPacked_unarmed {x : Ctx} (hstop : (s.fetchOne h).fetchStopped x = false)
    (hpre : (s.fetchOne h).packedCheck x.hdr x.slba (x.kind == .packedAppend) = none) (htrip : s.aon.trip = false)
    (hr : (s.zone x.zoneNamed).rearm ≠ 0) : (s.fetchOne h).submitPacked x = (s.fetchOne h).declineRearm x [x.zoneNamed] := by
  have htrip' : (s.fetchOne h).aon.trip = false := by rw [show State.aon _ = _ from fetchOne_only s h .aon (by decide)]; exact htrip
  have hr' : ((s.fetchOne h).zone x.zoneNamed).rearm ≠ 0 := by rw [zone_congr (fetchOne_only s h .zones (by decide))]; exact hr
  unfold State.submitPacked
  rw [if_neg (by rw [hstop]; decide), hpre]
  simp only
  rw [if_neg (by rw [htrip']; decide)]
  exact if_pos hr'

end

/-- Settles O31, clause by clause: the acceptance of a write at its zone's keeper, and the declines before it. -/
theorem writesAdvanceTheirZone : Obligations.WritesAdvanceTheirZone := by
  unfold Obligations.WritesAdvanceTheirZone
  refine ⟨?write, ?append, ?zeroes, ?empty, ?behind, ?conventional, ?deallocate, ?packed, ?trip, ?unarmed, ?packedDeclined⟩
  case write =>
    rintro h slba nlb zk s u rfl ha hpre hz hgo hf hact
    obtain ⟨o, d, hwp, hwriting, hctx, hplaces, hoff, hother, hkeep⟩ := write_active ha hpre (.inl rfl) hz hgo hf hact
    refine ⟨_, _, exec_ioContexts ha.takes (writeCmd_mem _ _ _ _), hwp, hwriting, hctx, rfl, rfl, ?_, hother, hkeep .media (by decide),
      hkeep .out (by decide)⟩
    exact hplaces.trans (by rw [hoff]; rfl)
  case append =>
    rintro h slba nlb zk s u rfl ha hpre hz hgo hf hact
    obtain ⟨o, d, hwp, -, hctx, -, hoff, hother, hkeep⟩ := write_active ha hpre (.inr (.inl rfl)) hz hgo hf hact
    refine ⟨_, _, exec_ioContexts ha.takes (zoneAppendCmd_mem _ _ _ _), hwp, hctx, rfl, rfl, ?_, hother, hkeep .media (by decide),
      hkeep .out (by decide)⟩
    have haligned : slba % zsze = 0 := append_aligned rfl hpre
    have hstart : slba / zsze * zsze = slba := by
      have hsplit := Nat.div_add_mod' slba zsze
      rwa [haligned, Nat.add_zero] at hsplit
    change slba / zsze * zsze + u.writeOff _ = _
    rw [hoff, hstart]
    rfl
  case zeroes =>
    rintro h slba nlb zk deac s u rfl ha hpre hz hgo hf hact
    obtain ⟨o, d, hwp, -, hctx, -, -, hother, hkeep⟩ := write_active ha hpre (.inr (.inr rfl)) hz hgo hf hact
    exact ⟨_, _, exec_writeZeroes_zoned ha.takes slba nlb deac hz, hwp, hctx, rfl, rfl, rfl, hother, hkeep .media (by decide),
      hkeep .out (by decide)⟩
  case empty =>
    rintro h slba nlb zk s u rfl ha hpre hz hgo hf hst hwp0
    obtain ⟨z, hzone, hvalid, hwp, hset, hrot, hdblk, hother, hkeep⟩ := write_empty ha hpre (.inl rfl) hz hgo hf hst
    subst hzone
    exact ⟨_, exec_ioContexts ha.takes (writeCmd_mem _ _ _ _), hvalid, hwp, hset, hrot, hdblk, hother, hkeep .media (by decide),
      hkeep .out (by decide)⟩
  case behind =>
    rintro h slba nlb zk f s u rfl ha hpre hz hgo hf -
    obtain ⟨b, r, n, o, d, hzone, hctx, hbehind, hother, hkeep⟩ := write_behind ha hpre (.inl rfl) hz hgo hf
    refine ⟨_, _, _, exec_ioContexts ha.takes (writeCmd_mem _ _ _ _), congrArg Zone.fence hzone, rfl, rfl, rfl, (congrArg Zone.wp hzone :),
      (congrArg Zone.st hzone :), (congrArg Zone.writing hzone :), hctx, hbehind, rfl, hother, hkeep .media (by decide), hkeep .out (by decide)⟩
  case conventional =>
    intro h slba nlb s u ha hpre hz hgo
    obtain ⟨y, hctx, hk, hph, hplaces, hfwd, hother, hkeep⟩ := write_conventional ha hpre rfl hz hgo
    exact ⟨_, y, exec_ioContexts ha.takes (writeCmd_mem _ _ _ _), hctx, hk, hph, hplaces, hfwd _, hother, hkeep .media (by decide),
      hkeep .completions (by decide)⟩
  case deallocate =>
    rintro h slba nlb x s u rfl ha hpre hgo hz
    obtain ⟨hsettled, hposted⟩ := light_settled ha rfl rfl hgo
    obtain ⟨hfwd, hother, hmedia⟩ := light_ns ha hz .success
    have hin (l : Nat) : (∃ r ∈ [(slba, nlb + 1)], r.1 ≤ l ∧ l < r.1 + r.2) ↔ slba ≤ l ∧ l ≤ slba + nlb := by
      simp only [List.mem_singleton, exists_eq_left]
      omega
    refine ⟨_, (exec_writeZeroes_deallocate ha.takes slba nlb hz).trans (congrArg _ ((ha.submit hpre).trans hsettled)), hposted,
      fun a hlo hhi => (hfwd a).trans (if_pos ((hin a).2 ⟨hlo, hhi⟩)), fun a hout => (hfwd a).trans (if_neg fun h => ?_), hother, hmedia⟩
    have := (hin a).1 h
    omega
  case packed =>
    rintro h slba ng zk close s u rfl ha hpre hgo hf hact
    obtain ⟨d, hwp, hwriting, hctx, hother, hkeep⟩ := append_active ha hpre rfl hgo hf hact
    exact ⟨_, _, exec_packedContexts ha.takes (packedAppend_mem _ _ _ _ _), hwp, hwriting, hctx, rfl, rfl, rfl, rfl, hother,
      hkeep .media (by decide), hkeep .out (by decide)⟩
  case trip =>
    intro h slba nlb data p s hp ht hstop hpre htrip
    have hfetch := fetchOne_only s h
    obtain ⟨hposted, hkeep⟩ := decline_trip (ht.unmuted (hfetch .ctrls (by decide))) hfetch p.2.tenant p.2.cls
    refine ⟨_, ?_, hposted, hkeep .zones (by decide), hkeep .media (by decide)⟩
    rw [exec_ioContexts ht hp, submit_trip hstop hpre htrip, ioContexts_hdr hp]
  case unarmed =>
    intro h slba nlb data p zs s hp ht hstop hpre htrip hzs hne
    have hfetch := fetchOne_only s h
    obtain ⟨us, hlo, hhi, hposted, hhead, hkeep⟩ :=
      declineUnarmed_posts (ht.unmuted (hfetch .ctrls (by decide))) hfetch p.2.tenant p.2.cls zs
    refine ⟨_, us, ?_, hlo, hhi, hposted, hhead, hkeep .zones (by decide), hkeep .media (by decide)⟩
    rw [exec_ioContexts ht hp, submit_unarmed hstop hpre htrip hzs hne, State.declineRearm, ioContexts_hdr hp]
  case packedDeclined =>
    intro h a ng close p s hp ht hstop hpre hwhy
    obtain ⟨hhdr, -, hns⟩ := packedContexts_hdr hp
    have hfetch := fetchOne_only s h
    have hmuted := ht.unmuted (t := s.fetchOne h) (hfetch .ctrls (by decide))
    have hpre' : (s.fetchOne h).packedCheck p.2.hdr p.2.slba (p.2.kind == .packedAppend) = none := by rw [hhdr]; exact hpre
    have hzk : p.2.zoneNamed = zoneKey h.nsid (p.2.slba / zsze) := by rw [← hns]; rfl
    cases htrip : s.aon.trip with
    | true =>
      obtain ⟨hposted, hkeep⟩ := decline_trip hmuted hfetch p.2.tenant p.2.cls
      refine ⟨_, 1000000, ?_, by decide, fun _ => rfl, fun h => (nomatch h), hposted, hkeep .zones (by decide), hkeep .media (by decide)⟩
      rw [exec_packedContexts ht hp, submitPacked_trip hstop hpre' htrip, hhdr]
    | false =>
      have hr : (s.zone p.2.zoneNamed).rearm ≠ 0 := by
        rw [hzk]
        exact hwhy.resolve_left (by rw [htrip]; decide)
      obtain ⟨us, hlo, hhi, hposted, hhead, hkeep⟩ := declineUnarmed_posts hmuted hfetch p.2.tenant p.2.cls [p.2.zoneNamed]
      refine ⟨_, us, ?_, hlo, fun h => (nomatch h), fun _ => ⟨hhi, ?_⟩, hposted, hkeep .zones (by decide), hkeep .media (by decide)⟩
      · rw [exec_packedContexts ht hp, submitPacked_unarmed hstop hpre' htrip hr, State.declineRearm, hhdr]
      · have hfirst := congrArg List.head? hhead
        rw [List.head?_take] at hfirst
        rw [← hzk]
        exact hfirst

end Sys2Proof.Machine
end

section
/-! O37: what the owner of a zone is told of a transition that the device makes (R67, R306). -/

namespace Sys2Proof.Machine

/-- No tenant keeps a dirty log (R384). -/
def State.unlogged (s : State) : Prop := ∀ u, (s.tenant u).logging = false

theorem unlogged_of_only {F : List Part} {s t : State} (h : Only F s t) (hF : Part.tenantBase ∉ F) (hs : s.unlogged) : t.unlogged :=
  fun u => (congrArg Tenant.logging (h .tenantBase hF u) :).trans (hs u)

/-- A completion is neither a notice, nor, with no dirty log kept, an event (R306, R384). -/
theorem completeWith_quiet {s : State} (hlog : s.unlogged) (h : Hdr) (st : Status) (a b : Nat) (d : List FieldVal) :
    (s.completeWith h st a b d).out.notices = s.out.notices ∧ (s.completeWith h st a b d).evr = s.evr := by
  constructor
  · rw [State.completeWith_out]
    split <;> rfl
  · have hlogs (t : State) (ht : t.unlogged) (c n : Nat) : t.logWrites c n = t := by
      unfold State.logWrites
      rw [if_neg (by simp [ht c])]
    have hpost : (s.postCompletion h st a b d).unlogged := unlogged_of_only (postCompletion_only _ _ _ _ _ _) (by decide) hlog
    unfold State.completeWith
    split
    · rfl
    simp only
    split
    · rfl
    · rw [hlogs _ hpost]
      exact respond_only _ _ _ .evr (by decide)

/-- What a notice touches. -/
def noticeParts : List Part := .ctrls :: postParts

theorem tellCtrl_notice (s : State) (c : Nat) (n : Notice) : Only noticeParts s (s.tellCtrl c n) ∧
    (s.unlogged → (s.tellCtrl c n).out.notices = s.out.notices ∧ (s.tellCtrl c n).evr = s.evr) := by
  unfold State.tellCtrl
  simp only
  split
  · exact ⟨(setCtrl_only _ _ _).mono (by decide), fun _ => ⟨rfl, rfl⟩⟩
  · refine ⟨((draw_only s).andThen ((setCtrl_only _ _ _).andThen (completeWith_only _ _ _ _ _ _))).mono (by decide), fun hlog => ?_⟩
    exact completeWith_quiet (unlogged_of_only ((draw_only s).andThen (setCtrl_only _ _ _)) (by decide) hlog) _ _ _ _ _

/-- A notice stands behind those before it, and raises no event while no dirty log is kept (R306). -/
theorem notify_notice (s : State) (u : Nat) (n : Notice) : Only noticeParts s (s.notify u n) ∧
    (s.unlogged → (s.notify u n).out.notices = s.out.notices ++ [(u, n)] ∧ (s.notify u n).evr = s.evr) := by
  unfold State.notify
  generalize ht : (s.onOut fun o => { o with notices := o.notices ++ [(u, n)] }) = t
  have hfirst : Only noticeParts s t := by rw [← ht]; exact (notices_only s u n).mono (by decide)
  have hnotices : t.out.notices = s.out.notices ++ [(u, n)] := by rw [← ht]; rfl
  have hevr : t.evr = s.evr := by rw [← ht]; rfl
  have htold := State.each_keeps (fun v => Only noticeParts t v ∧ (t.unlogged → v.out.notices = t.out.notices ∧ v.evr = t.evr))
    (t.toldCtrls u n) (fun c s => s.tellCtrl c n) (fun c v hv => ?_) t ⟨.refl, fun _ => ⟨rfl, rfl⟩⟩
  · obtain ⟨honly, hquiet⟩ := htold
    refine ⟨hfirst.trans honly, fun hlog => ?_⟩
    obtain ⟨hn, he⟩ := hquiet (unlogged_of_only hfirst (by decide) hlog)
    exact ⟨hn.trans hnotices, he.trans hevr⟩
  · obtain ⟨hv, hvquiet⟩ := hv
    obtain ⟨hc, hcquiet⟩ := tellCtrl_notice v c n
    refine ⟨hv.trans hc, fun hlog => ?_⟩
    obtain ⟨hn, he⟩ := hvquiet hlog
    obtain ⟨hn', he'⟩ := hcquiet (unlogged_of_only hv (by decide) hlog)
    exact ⟨hn'.trans hn, he'.trans he⟩

/-- A namespace with a zone in its Changed Zone List (R67). -/
def Ns.listing (x : Ns) (z : Nat) : Ns := { x with changed := if x.changed.contains z then x.changed else x.changed ++ [z] }

theorem Ns.mem_listing (x : Ns) (z : Nat) : z ∈ (x.listing z).changed := by
  unfold Ns.listing
  dsimp only
  split
  · rename_i hin
    exact List.contains_iff_mem.1 hin
  · exact List.mem_append_right _ (List.mem_singleton.2 rfl)

theorem zoneChanged_eq (s : State) (zk : Nat) : s.zoneChanged zk =
    (s.setNs (nsOfKey zk) ((s.ns (nsOfKey zk)).listing (zoneOfKey zk))).notify (s.ns (nsOfKey zk)).tenant
      (.zoneDescriptorChanged (nsOfKey zk)) := rfl

/-- A namespace of a state is that of another one with the same namespaces. -/
theorem ns_congr {s t : State} (h : t.nss = s.nss) (n : Nat) : t.ns n = s.ns n := by simp only [State.ns, h]

/-- A transition of the device's own: the zone stands in the Changed Zone List, and its owner gets the notice (R67). -/
theorem zoneChanged_notice (s : State) (zk : Nat) : Only (.nss :: noticeParts) s (s.zoneChanged zk) ∧
    zoneOfKey zk ∈ ((s.zoneChanged zk).ns (nsOfKey zk)).changed ∧ (∀ n, ((s.zoneChanged zk).ns n).region = (s.ns n).region) ∧
    (s.unlogged → (s.zoneChanged zk).out.notices = s.out.notices ++ [((s.ns (nsOfKey zk)).tenant, .zoneDescriptorChanged (nsOfKey zk))] ∧
      (s.zoneChanged zk).evr = s.evr) := by
  rw [zoneChanged_eq]
  generalize ht : s.setNs (nsOfKey zk) ((s.ns (nsOfKey zk)).listing (zoneOfKey zk)) = t
  have hlisted : Only [.nss] s t := by rw [← ht]; exact setNs_only _ _ _
  have hns (n : Nat) : t.ns n = if n = nsOfKey zk then (s.ns (nsOfKey zk)).listing (zoneOfKey zk) else s.ns n := by
    rw [← ht, State.ns_setNs]
  obtain ⟨honly, hquiet⟩ := notify_notice t (s.ns (nsOfKey zk)).tenant (.zoneDescriptorChanged (nsOfKey zk))
  have hkept (n : Nat) : (t.notify (s.ns (nsOfKey zk)).tenant (.zoneDescriptorChanged (nsOfKey zk))).ns n = t.ns n :=
    ns_congr (honly .nss (by decide)) n
  refine ⟨hlisted.andThen honly, ?_, fun n => ?_, fun hlog => ?_⟩
  · rw [hkept, hns, if_pos rfl]
    exact Ns.mem_listing _ _
  · rw [hkept, hns]
    split
    · subst_vars; rfl
    · rfl
  · obtain ⟨hn, he⟩ := hquiet (unlogged_of_only hlisted (by decide) hlog)
    refine ⟨hn.trans ?_, he.trans (hlisted .evr (by decide))⟩
    rw [show t.out = s.out from hlisted .out (by decide)]

end Sys2Proof.Machine
end

section
/-! O37: zone age timers (R80, R86). -/

namespace Sys2Proof.Machine

/-- The fence that the device sets over a zone past its excursion limit (R86). -/
def excursionFence : Fence := ⟨true, none, false, 0, [], 0, [], [], none⟩

/-- With no parcel open and no append to be placed, a zone's placements are up to date (R248, R255). -/
theorem place_of_none {s : State} {zk : Nat} (hp : (s.zone zk).parcel = none) (hu : s.unplaced zk = []) : s.place zk = s := by
  have hclose : s.closeParcel zk = s := by
    unfold State.closeParcel
    simp only [hp]
  unfold State.place
  rw [hu]
  change s.settleParcel zk = s
  unfold State.settleParcel
  simp only
  rw [hclose, ite_self]

/-- A zone under the excursion fence, with nothing of it to be placed. -/
theorem setFence_excursion {s : State} {zk : Nat} (hp : (s.zone zk).parcel = none) (hu : s.unplaced zk = []) :
    s.setFence zk true none false none = s.setZone zk { s.zone zk with fence := some excursionFence } := by
  have hzone : (s.setZone zk { s.zone zk with fence := some excursionFence }).zone zk = { s.zone zk with fence := some excursionFence } := by
    rw [State.zone_setZone, if_pos rfl]
  have hunplaced : (s.setZone zk { s.zone zk with fence := some excursionFence }).unplaced zk = s.unplaced zk := by
    unfold State.unplaced
    rw [hzone]
    rfl
  have hparcel : ((s.setZone zk { s.zone zk with fence := some excursionFence }).zone zk).parcel = none := by rw [hzone]; exact hp
  exact place_of_none hparcel (hunplaced.trans hu)

theorem exec_zoneAeTimeout {s : State} {n z : Nat} (hr : s.running = true) (hact : (s.zone (zoneKey n z)).active = true)
    (hru : (s.zone (zoneKey n z)).ru = false) (hf : (s.zone (zoneKey n z)).fence = none) (hc : s.cfg .chipZonePolicy 0 23 16 ≠ 0)
    (hp : (s.zone (zoneKey n z)).parcel = none) (hu : s.unplaced (zoneKey n z) = []) :
    exec (.zoneAeTimeout n z) s =
      .next ((s.setZone (zoneKey n z) { s.zone (zoneKey n z) with fence := some excursionFence }).passFence (zoneKey n z)) := by
  rw [← setFence_excursion hp hu]
  exact congrArg Host.Outcome.next (if_pos (by simp [hr, hact, hru, hf, hc]))

theorem Zone.active_cases {z : Zone} (h : z.active = true) : z.st = .implicitOpen ∨ z.st = .explicitOpen ∨ z.st = .closed := by
  simpa [Zone.active, or_assoc] using h

/-- A fence does not pass while a write accepted before it is not acknowledged (R75, R80). -/
theorem passFence_waits {s : State} {zk : Nat} (hw : (s.zone zk).writing ≠ []) : s.passFence zk = s := by
  unfold State.passFence
  simp only
  split
  · exact absurd (by assumption) hw
  · rfl

/-- The excursion fence passes: the finish takes effect (R86). -/
theorem passFence_excursion {s : State} {zk : Nat} (hact : (s.zone zk).active = true) (hf : (s.zone zk).fence = some excursionFence)
    (hw : (s.zone zk).writing = []) : s.passFence zk = s.finishNow zk excursionFence := by
  unfold State.passFence
  simp only [hf, hw]
  rcases Zone.active_cases hact with hst | hst | hst <;> simp [hst, excursionFence]

/-- The relocations that a die's members want, but those of one unit. -/
def State.dropWants (s : State) (zk : Nat) : State := s.mapDies fun _ d => { d with relocWant := d.relocWant.filter fun w => w.1 != zk }

theorem cancelRelocation_of_none {s : State} {zk : Nat} (h : (s.zone zk).relocTgt = none) : s.cancelRelocation zk = s.dropWants zk := by
  unfold State.cancelRelocation
  simp only [h]
  rfl

/-- The zone as its finish by the device leaves it (R80, R86). -/
def Zone.excursed (z : Zone) (cap : Nat) : Zone :=
  { z with st := .full, fzr := false, zfc := true, wp := cap, padFrom := some z.wp, fence := none }

/-- A finish whose row needs no padding ends with its fence (R80). -/
theorem finishPadded_excursion {s : State} {zk : Nat} (hf : (s.zone zk).fence = some excursionFence) (hst : (s.zone zk).st = .full) :
    s.finishPadded zk = s.setZone zk { s.zone zk with fence := none } := by
  unfold State.finishPadded
  rw [hf]
  exact if_pos ⟨rfl, hst⟩

/-- What an excursion's finish touches. -/
def excursionParts : List Part := [.dies, .zones, .nss, .broker] ++ noticeParts

/-- The device finishes a zone at its excursion limit, marks it, and tells its owner (R67, R80, R86). -/
theorem finishNow_excursion {s : State} {zk : Nat} (hf : (s.zone zk).fence = some excursionFence) (hreloc : (s.zone zk).relocTgt = none)
    (hrow : (s.zone zk).wp % 256 = 0 ∨ (s.stagedRow zk (rowOf (s.zone zk).wp)).isNone = true) (hlog : s.unlogged) (hroom : s.roomForEvents) :
    (s.finishNow zk excursionFence).zone zk = (s.zone zk).excursed s.zcap ∧
    zoneOfKey zk ∈ ((s.finishNow zk excursionFence).ns (nsOfKey zk)).changed ∧
    (s.finishNow zk excursionFence).out.notices = s.out.notices ++ [((s.ns (nsOfKey zk)).tenant, .zoneDescriptorChanged (nsOfKey zk))] ∧
    Recorded s (s.finishNow zk excursionFence) 0x0483 (s.keeperOf zk) (subParam (zoneOfKey zk % 2) (nsOfKey zk)) (zoneOfKey zk)
      (max (s.cfg .chipZonePolicy 0 23 16) (s.ageHours (s.zone zk))) 0 ∧ (s.finishNow zk excursionFence).media = s.media := by
  have hdropped : Only [.dies] s (s.dropWants zk) := mapDies_only _ _
  have hzone : (s.dropWants zk).zone zk = s.zone zk := zone_congr (hdropped .zones (by decide)) zk
  have hcap : (s.dropWants zk).zcap = s.zcap := rfl
  have hrow' : ¬((s.zone zk).wp % 256 ≠ 0 ∧ (s.stagedRow zk (rowOf (s.zone zk).wp)).isSome = true) := by
    rintro ⟨hne, hsome⟩
    rcases hrow with hrow | hrow
    · exact hne hrow
    · rw [Option.isNone_iff_eq_none] at hrow
      rw [hrow] at hsome
      exact nomatch hsome
  unfold State.finishNow
  simp only
  rw [cancelRelocation_of_none hreloc, hzone]
  generalize ht : ((s.dropWants zk).setZone zk { s.zone zk with
    st := .full, fzr := false, zfc := (s.zone zk).zfc || excursionFence.hdr.isNone, wp := (s.dropWants zk).zcap, padFrom := some (s.zone zk).wp }) = t
  have htkeep : Only [.dies, .zones] s t := by rw [← ht]; exact hdropped.andThen (setZone_only _ _ _)
  have htzone : t.zone zk = { s.zone zk with st := .full, fzr := false, zfc := true, wp := s.zcap, padFrom := some (s.zone zk).wp } := by
    rw [← ht, State.zone_setZone, if_pos rfl, hcap]
    simp [excursionFence]
  have htlog : t.unlogged := unlogged_of_only htkeep (by decide) hlog
  obtain ⟨hchanged, hlisted, hregion, hquiet⟩ := zoneChanged_notice t zk
  obtain ⟨hnotices, hevr⟩ := hquiet htlog
  rw [if_neg (show ¬excursionFence.hdr.isSome = true by decide)]
  generalize hv : t.zoneChanged zk = v at hchanged hlisted hregion hnotices hevr ⊢
  have hraise := raiseZone_only v 0x0483 zk (max (t.cfg .chipZonePolicy 0 23 16) (t.ageHours (s.zone zk))) 0
  generalize hw : v.raiseZone 0x0483 zk (max (t.cfg .chipZonePolicy 0 23 16) (t.ageHours (s.zone zk))) 0 = w at hraise ⊢
  have hwkeep := (htkeep.andThen hchanged).andThen hraise
  have hwzone : w.zone zk = t.zone zk := zone_congr (Eq.trans (hraise .zones (by decide)) (hchanged .zones (by decide))) zk
  have hwrow : w.stagedRow zk (rowOf (s.zone zk).wp) = s.stagedRow zk (rowOf (s.zone zk).wp) := by
    simp only [State.stagedRow, show Work.rows _ = _ from hwkeep .rows (by decide)]
  have hrecorded : Recorded s w 0x0483 (s.keeperOf zk) (subParam (zoneOfKey zk % 2) (nsOfKey zk)) (zoneOfKey zk)
      (max (s.cfg .chipZonePolicy 0 23 16) (s.ageHours (s.zone zk))) 0 := by
    have hvevr : v.evr = s.evr := hevr.trans (htkeep .evr (by decide))
    have htregs : t.regs = s.regs := htkeep .regs (by decide)
    have htnow : t.now = s.now := congrArg Aon.timeNs (htkeep .aon (by decide))
    have htns (n : Nat) : t.ns n = s.ns n := ns_congr (htkeep .nss (by decide)) n
    have hvnow : v.now = s.now := (congrArg Aon.timeNs ((htkeep.andThen hchanged) .always (by decide)) :)
    have hage : t.ageHours (s.zone zk) = s.ageHours (s.zone zk) := by simp only [State.ageHours, htnow]
    have hkeeper : v.keeperOf zk = s.keeperOf zk := by simp only [State.keeperOf, hregion, htns]
    rw [← hw, hage, cfg_congr htregs]
    unfold State.raiseZone
    rw [hkeeper]
    exact recorded_raise (by rw [hvevr]; exact hroom) hvnow (by decide) _ _ _ _ _
  have hpadded : w.finishPadded zk = w.setZone zk { w.zone zk with fence := none } :=
    finishPadded_excursion (by rw [hwzone, htzone]; exact hf) (by rw [hwzone, htzone])
  have hfinal := queuePasses_only (w.setZone zk { w.zone zk with fence := none }) zk
  have hend := (setZone_only w zk { w.zone zk with fence := none }).andThen hfinal
  rw [if_neg (by rw [hwrow]; exact hrow'), hpadded]
  refine ⟨?_, ?_, ?_, ?_, (hwkeep.andThen hend) .media (by decide)⟩
  · rw [zone_congr (hfinal .zones (by decide)), State.zone_setZone, if_pos rfl, hwzone, htzone]
    rfl
  · rw [ns_congr ((hraise.andThen hend) .nss (by decide))]
    exact hlisted
  · rw [show State.out _ = _ from hend .out (by decide), show State.out _ = _ from hraise .out (by decide), hnotices,
      show t.out = s.out from htkeep .out (by decide), ns_congr (htkeep .nss (by decide))]
  · exact hend .records (by decide) _ hrecorded

end Sys2Proof.Machine
end

section
/-! O37: the re-arm of zones after Warm-up (R88, R89, R185). -/

namespace Sys2Proof.Machine

/-- Frames put in their places touch the stored units and the parity. -/
theorem placeContent_only (s : State) (zk row pos j : Nat) (b : Block) : Only [.media, .parity] s (s.placeContent zk row pos j b) := by
  unfold State.placeContent
  split
  · exact (storeBlock_only _ _ _ _).mono (by decide)
  · exact (updParity_only _ _ _ _).mono (by decide)

theorem seeFrames_only (s : State) (zk : Nat) (l : List SeenFrame) : Only [.media, .parity] s (s.each l fun f s => s.seeFrame zk f) :=
  .each fun _ _ => placeContent_only _ _ _ _ _ _

/-- Offsets below one another keep their places apart. -/
theorem mediaKey_inj {zk a b : Nat} : mediaKey zk a = mediaKey zk b ↔ a = b := by
  unfold mediaKey
  omega

/-- The units of a run of offsets stored one after another. -/
theorem stored_each_range (s : State) (zk base n : Nat) (g : Nat → Block) (off : Nat) :
    (s.each (List.range n) fun j s => s.storeBlock zk (base + j) (g j)).stored zk off =
      if base ≤ off ∧ off < base + n then g (off - base) else s.stored zk off := by
  induction n with
  | zero => rw [if_neg (by omega)]; rfl
  | succ n ih =>
    have hstep : (s.each (List.range (n + 1)) fun j s => s.storeBlock zk (base + j) (g j)) =
        (s.each (List.range n) fun j s => s.storeBlock zk (base + j) (g j)).storeBlock zk (base + n) (g n) := by
      rw [List.range_succ]
      exact List.foldl_append ..
    have hput (t : State) : (t.storeBlock zk (base + n) (g n)).stored zk off = if off = base + n then g n else t.stored zk off := by
      refine (Tbl.look_put _ _ _ _ _).trans (if_congr mediaKey_inj rfl rfl)
    rw [hstep, hput, ih]
    by_cases hlast : off = base + n
    · subst hlast
      rw [if_pos rfl, if_pos (by omega), Nat.add_sub_cancel_left]
    · rw [if_neg hlast]
      exact if_congr (by omega) rfl rfl

/-- A table filled from the numbers below `n`. -/
theorem look_foldl_put_range (g : Nat → Block) (n j : Nat) :
    Tbl.look 0 ((List.range n).foldl (fun t j => Tbl.put 0 t j (g j)) []) j = if j < n then g j else 0 := by
  induction n with
  | zero => rfl
  | succ n ih =>
    rw [List.range_succ, List.foldl_append]
    refine (Tbl.look_put _ _ _ _ _).trans ?_
    rw [ih]
    by_cases hj : j = n
    · rw [if_pos hj, if_pos (by omega), hj]
    · rw [if_neg hj]
      exact if_congr (by omega) rfl rfl

/-- The parity written over the data members of a row (R174). -/
theorem rowParity_writeParity (s : State) (zk row : Nat) (ds : List Nat) (unit : Nat → Nat → Block) {j : Nat} (hj : j < 16) :
    Tbl.look 0 ((s.writeParity zk row ds unit).rowParity zk row).p j = parityP ds (fun d => unit d j) ∧
    Tbl.look 0 ((s.writeParity zk row ds unit).rowParity zk row).q j = parityQ ds (fun d => unit d j) := by
  unfold State.writeParity
  rw [State.rowParity_updParity, if_pos rfl]
  exact ⟨(look_foldl_put_range (fun j => parityP ds fun d => unit d j) 16 j).trans (if_pos hj),
    (look_foldl_put_range (fun j => parityQ ds fun d => unit d j) 16 j).trans (if_pos hj)⟩

theorem writeParity_only (s : State) (zk row : Nat) (ds : List Nat) (unit : Nat → Nat → Block) : Only [.parity] s (s.writeParity zk row ds unit) :=
  updParity_only _ _ _ _

/-- A zone with LBAs of it marked lost (R185). -/
def Zone.losing (z : Zone) (units : List (Nat × Nat)) : Zone := { z with lostData := true, lost := z.lost ++ units }

/-- The LBAs that a finding of lost units names (R185). -/
def State.lostUnits (s : State) (r : Row) (f : RearmFinding) : List (Nat × Nat) :=
  f.gone.filterMap fun p => (dataAt (s.zone r.zk).rot p).map fun d => (256 * r.row + 16 * d, 16)

/-- A data unit of a row corrected from P (R174, R185). -/
def State.correctUnit (s : State) (r : Row) (d : Nat) : State :=
  s.each (List.range 16) fun j t => t.storeBlock r.zk (256 * r.row + 16 * d + j)
    (s.rearmUnit r d j ^^^ Tbl.look 0 (s.rowParity r.zk r.row).p j ^^^ parityP (List.range 16) fun e => s.rearmUnit r e j)

/-- A row repaired as its finding says, before the event (*Re-arm outcomes*). -/
def State.repaired (s : State) (r : Row) (f : RearmFinding) : State :=
  match f.code with
  | 1 | 2 => s.writeParity r.zk r.row (List.range 16) (s.rearmUnit r)
  | 3 => match dataAt (s.zone r.zk).rot f.pos with
    | none => s.writeParity r.zk r.row (List.range 16) (s.rearmUnit r)
    | some d => s.correctUnit r d
  | 4 => s.commitMap r.zk fun z => z.losing (s.lostUnits r f)
  | _ => s

theorem rearmRepair_eq (s : State) (r : Row) (f : RearmFinding) : s.rearmRepair r f = if f.code = 0 then s.repaired r f
    else (s.repaired r f).raise 0x0491 (s.repaired r f).srcStarters (Config.mapIndex r.zk % 2 ^ 18) f.code r.row f.pos := rfl

section
variable {s : State} {r : Row} {f : RearmFinding}

theorem repaired_zero (h : f.code = 0) : s.repaired r f = s := by
  unfold State.repaired
  simp only [h]

theorem repaired_parity (h : f.code = 1 ∨ f.code = 2) : s.repaired r f = s.writeParity r.zk r.row (List.range 16) (s.rearmUnit r) := by
  unfold State.repaired
  rcases h with h | h <;> simp only [h]

theorem repaired_data {d : Nat} (h : f.code = 3) (hd : dataAt (s.zone r.zk).rot f.pos = some d) : s.repaired r f = s.correctUnit r d := by
  unfold State.repaired
  simp only [h, hd]

theorem repaired_lost (h : f.code = 4) : s.repaired r f = s.commitMap r.zk fun z => z.losing (s.lostUnits r f) := by
  unfold State.repaired
  simp only [h]

/-- A repair that marks nothing lost touches the stored units and the parity. -/
theorem repaired_only (h : f.code ≠ 4) : Only [.media, .parity] s (s.repaired r f) := by
  have hwrite : Only [.media, .parity] s (s.writeParity r.zk r.row (List.range 16) (s.rearmUnit r)) := (writeParity_only _ _ _ _ _).mono (by decide)
  unfold State.repaired
  split
  · exact hwrite
  · exact hwrite
  · split
    · exact hwrite
    · exact .each fun _ _ => (storeBlock_only _ _ _ _).mono (by decide)
  · rename_i hcode
    exact absurd hcode h
  · exact .refl

/-- A repair touches at most the stored units, the parity, and the map entry of its zone. -/
theorem repaired_parts : Only [.media, .parity, .store, .zones] s (s.repaired r f) ∧ ∀ k, k ≠ r.zk → (s.repaired r f).zone k = s.zone k := by
  by_cases h : f.code = 4
  · rw [repaired_lost h]
    refine ⟨(commitMap_only _ _ _).mono (by decide), fun k hk => ?_⟩
    unfold State.commitMap State.commitZone
    rw [State.zone_setZone, if_neg hk]
    rfl
  · exact ⟨(repaired_only h).mono (by decide), fun k _ => zone_congr (repaired_only h .zones (by decide)) k⟩

end

/-- The rows of a zone that are in work (R88). -/
def State.rowsIn (s : State) (zk : Nat) : List Row := s.work.rows.filter fun r => r.zk == zk

/-- The frames of a row that reading found other than they were left (R185). -/
def Row.framesSeen (r : Row) (l : List SeenFrame) : List SeenFrame := l.filter fun x => x.row == r.row && decide (x.pos < 18 ∧ x.frame < 16)

/-- The state in which a row is compared: each frame seen stands in its place (R185). -/
def State.rowSeen (s : State) (zk : Nat) (r : Row) (l : List SeenFrame) : State := s.each (r.framesSeen l) fun x s => s.seeFrame zk x

/-- A zone that is ready again (R88). -/
def Zone.rearmed (z : Zone) : Zone := { z with rearm := 0 }

theorem exec_zoneRearmDone {s : State} {n z : Nat} {failed : List (Nat × Nat)} {data parity : List SeenFrame} (hr : s.running = true)
    (ha : (s.zone (zoneKey n z)).rearm = 2) : exec (.zoneRearmDone n z failed data parity) s =
      .next ((s.each (s.rowsIn (zoneKey n z)) fun r s => s.rearmRow r failed (data ++ parity)).commitMap (zoneKey n z) Zone.rearmed) :=
  congrArg Host.Outcome.next (if_neg (by simp [hr, ha]))

theorem commitMap_zone_ne (s : State) {zk k : Nat} (hk : k ≠ zk) (f : Zone → Zone) : (s.commitMap zk f).zone k = s.zone k := by
  unfold State.commitMap State.commitZone
  rw [State.zone_setZone, if_neg hk]
  rfl

section
variable {s : State} {n z : Nat} {failed : List (Nat × Nat)} {data parity : List SeenFrame} {r : Row}

/-- The re-arm of a zone with one row in work: its frames as they were seen, the repair of the row, and the zone is ready (R88, R185). -/
theorem exec_zoneRearmDone_row (hr : s.running = true) (ha : (s.zone (zoneKey n z)).rearm = 2) (hrows : s.rowsIn (zoneKey n z) = [r]) :
    r.zk = zoneKey n z ∧ exec (.zoneRearmDone n z failed data parity) s =
      .next (((s.rowSeen (zoneKey n z) r (data ++ parity)).rearmRepair r
        ((s.rowSeen (zoneKey n z) r (data ++ parity)).rearmFinding r (r.failedAt failed))).commitMap (zoneKey n z) Zone.rearmed) := by
  have hzk : r.zk = zoneKey n z := by
    have hmem : r ∈ s.rowsIn (zoneKey n z) := by rw [hrows]; exact List.mem_singleton.2 rfl
    exact beq_iff_eq.1 (List.mem_filter.1 hmem).2
  refine ⟨hzk, ?_⟩
  rw [exec_zoneRearmDone hr ha, hrows, State.each_cons, State.each_nil, ← hzk]
  rfl

/-- The zone that a repaired row leaves ready. -/
theorem rearmed_zone {u : State} {f : RearmFinding} {zk : Nat} (hzk : r.zk = zk) :
    (((u.rearmRepair r f).commitMap zk Zone.rearmed).zone zk).rearm = 0 ∧
    (∀ k, k ≠ zk → ((u.rearmRepair r f).commitMap zk Zone.rearmed).zone k = u.zone k) ∧
    (((u.rearmRepair r f).commitMap zk Zone.rearmed).zone zk).lost = ((u.repaired r f).zone zk).lost ∧
    (((u.rearmRepair r f).commitMap zk Zone.rearmed).zone zk).lostData = ((u.repaired r f).zone zk).lostData := by
  have hkept : Only [.evr, .aon] (u.repaired r f) (u.rearmRepair r f) := by
    rw [rearmRepair_eq]
    exact .ites .refl (raise_only _ _ _ _ _ _ _)
  have hzone (k : Nat) : (u.rearmRepair r f).zone k = (u.repaired r f).zone k := zone_congr (hkept .zones (by decide)) k
  obtain ⟨-, hother⟩ := repaired_parts (s := u) (r := r) (f := f)
  refine ⟨?_, fun k hk => ?_, ?_, ?_⟩
  · rw [commitMap_zone]
    rfl
  · rw [commitMap_zone_ne _ hk, hzone, hother k (by rw [hzk]; exact hk)]
  · rw [commitMap_zone, hzone]
    rfl
  · rw [commitMap_zone, hzone]
    rfl

/-- What a repair and the end of a re-arm touch after the row was repaired. -/
theorem rearmed_only (u : State) (f : RearmFinding) (zk : Nat) :
    Only [.evr, .aon, .store, .zones] (u.repaired r f) ((u.rearmRepair r f).commitMap zk Zone.rearmed) := by
  rw [rearmRepair_eq]
  exact (Only.ites (F := [.evr, .aon]) .refl (raise_only _ _ _ _ _ _ _)).andThen (commitMap_only _ _ _)

/-- A finding is reported once its row is repaired (R185). -/
theorem rearmed_recorded {u : State} {f : RearmFinding} {zk : Nat} (hseen : Only [.media, .parity] s u) (hroom : s.roomForEvents) (h : f.code ≠ 0) :
    Recorded s ((u.rearmRepair r f).commitMap zk Zone.rearmed) 0x0491 s.srcStarters (Config.mapIndex r.zk % 2 ^ 18) f.code r.row f.pos := by
  have hkept := hseen.andThen (repaired_parts (s := u) (r := r) (f := f)).1
  have hevr : (u.repaired r f).evr = s.evr := hkept .evr (by decide)
  have hnow : (u.repaired r f).now = s.now := congrArg Aon.timeNs (hkept .aon (by decide))
  have hsrc : (u.repaired r f).srcStarters = s.srcStarters := srcStarters_congr (hkept .flt (by decide))
  have hrec : Recorded s (u.rearmRepair r f) 0x0491 s.srcStarters (Config.mapIndex r.zk % 2 ^ 18) f.code r.row f.pos := by
    rw [rearmRepair_eq, if_neg h, hsrc]
    exact recorded_raise (by rw [hevr]; exact hroom) hnow (by decide) _ _ _ _ _
  exact commitMap_only _ _ _ .records (by decide) _ hrec

end

theorem exec_zoneFzrTimeout (s : State) (n z : Nat) : exec (.zoneFzrTimeout n z) s =
    .next (if s.running && (s.zone (zoneKey n z)).active && s.cfg .chipZonePolicy 0 31 24 != 0
      then s.setZone (zoneKey n z) { s.zone (zoneKey n z) with fzr := true } else s) := rfl

theorem exec_zoneAeTimeout_idle {s : State} {n z : Nat} (h : s.running = false ∨ s.cfg .chipZonePolicy 0 23 16 = 0 ∨
    (s.zone (zoneKey n z)).active = false ∨ (s.zone (zoneKey n z)).ru = true ∨ (s.zone (zoneKey n z)).fence.isSome = true) :
    exec (.zoneAeTimeout n z) s = .next s := by
  refine congrArg Host.Outcome.next (if_neg ?_)
  rcases h with h | h | h | h | h <;> simp [h]
  intro _ _ _ hnone
  simp [hnone] at h

/-- The next zone to re-arm is started: no other zone changes, and it leaves the head of the queue (R88, R89). -/
theorem exec_zoneRearmStart {s : State} {zk : Nat} (hr : s.running = true) (ht : (s.tenant 0).ready = true) (hl : s.rearmActive.length < 64)
    (hn : s.nextRearm = some zk) : exec .zoneRearmStart s = .next ((s.setZone zk { s.zone zk with rearm := 2, rearmAt := s.now }).onWork fun w =>
      { w with rearmHead := w.rearmHead.filter (· != zk) }) := by
  refine congrArg Host.Outcome.next ((if_neg ?_).trans ?_)
  · simp [hr, ht, hl]
  · rw [hn]
    rfl

theorem exec_zoneRearmStart_idle {s : State}
    (h : s.running = false ∨ (s.tenant 0).ready = false ∨ 64 ≤ s.rearmActive.length ∨ s.nextRearm = none) : exec .zoneRearmStart s = .next s := by
  by_cases hstop : (!s.running || !(s.tenant 0).ready || decide (64 ≤ s.rearmActive.length)) = true
  · exact congrArg Host.Outcome.next (if_pos hstop)
  · refine congrArg Host.Outcome.next ((if_neg hstop).trans ?_)
    rcases h with h | h | h | h
    · simp [h] at hstop
    · simp [h] at hstop
    · simp [h] at hstop
    · rw [h]

/-- Settles O37, clause by clause. -/
theorem zoneAgesAndRearm : Obligations.ZoneAgesAndRearm := by
  unfold Obligations.ZoneAgesAndRearm
  refine ⟨?recommended, ?notRecommended, ?excursion, ?fenced, ?noExcursion, ?started, ?notStarted, ?noRows, ?row, ?corrected, ?notRearmed⟩
  case recommended =>
    rintro n z zk s rfl hr hact hc
    have hset := setZone_only s (zoneKey n z) { s.zone (zoneKey n z) with fzr := true }
    refine ⟨_, (exec_zoneFzrTimeout s n z).trans (congrArg _ (if_pos (by simp [hr, hact, hc]))), ?_, fun k hk => ?_, hset .out (by decide),
      hset .media (by decide)⟩
    · rw [State.zone_setZone, if_pos rfl]
    · rw [State.zone_setZone, if_neg hk]
  case notRecommended =>
    intro n z s h
    rw [exec_zoneFzrTimeout, if_neg (by rcases h with h | h | h <;> simp [h])]
  case excursion =>
    rintro n z zk s rfl hr hact hru hf hc hw hp hrow hreloc hlog hroom
    have hunplaced : s.unplaced (zoneKey n z) = [] := by unfold State.unplaced; rw [hw]; rfl
    generalize hv : s.setZone (zoneKey n z) { s.zone (zoneKey n z) with fence := some excursionFence } = v
    have hvkeep : Only [.zones] s v := by rw [← hv]; exact setZone_only _ _ _
    have hvzone : v.zone (zoneKey n z) = { s.zone (zoneKey n z) with fence := some excursionFence } := by
      rw [← hv, State.zone_setZone, if_pos rfl]
    have hexec := exec_zoneAeTimeout hr hact hru hf hc hp hunplaced
    rw [hv, passFence_excursion (by rw [hvzone]; exact hact) (by rw [hvzone]) (by rw [hvzone]; exact hw)] at hexec
    have hevr : v.evr = s.evr := hvkeep .evr (by decide)
    have haon : v.aon = s.aon := hvkeep .aon (by decide)
    obtain ⟨hzone, hlisted, hnotice, hrec, hmedia⟩ := finishNow_excursion (s := v) (zk := zoneKey n z) (by rw [hvzone])
      (by rw [hvzone]; exact hreloc)
      (by rw [hvzone]; simpa only [State.stagedRow, show Work.rows _ = _ from hvkeep .rows (by decide)] using hrow)
      (unlogged_of_only hvkeep (by decide) hlog) (by unfold State.roomForEvents; rw [hevr]; exact hroom)
    rw [hvzone] at hzone
    rw [ns_congr (hvkeep .nss (by decide)), show v.out = s.out from hvkeep .out (by decide)] at hnotice
    have hage : v.ageHours (v.zone (zoneKey n z)) = s.ageHours (s.zone (zoneKey n z)) := by
      rw [hvzone]
      simp only [State.ageHours, State.now, haon]
    rw [hage, cfg_congr (hvkeep .regs (by decide))] at hrec
    have hkeeper : v.keeperOf (zoneKey n z) = s.keeperOf (zoneKey n z) := by
      simp only [State.keeperOf, ns_congr (hvkeep .nss (by decide))]
    have hnow : v.now = s.now := congrArg Aon.timeNs haon
    refine ⟨_, hexec, ?_, ?_, ?_, ?_, hlisted, hnotice, ?_, hmedia.trans (hvkeep .media (by decide))⟩
    · rw [hzone]; rfl
    · rw [hzone]; rfl
    · rw [hzone]; rfl
    · rw [hzone, ← hv]; rfl
    · unfold Recorded at hrec ⊢
      rw [← hnow, ← hkeeper]
      exact hrec
  case fenced =>
    rintro n z zk s rfl hr hact hru hf hc hw hp hu
    have hset := setZone_only s (zoneKey n z) { s.zone (zoneKey n z) with fence := some excursionFence }
    have hzone : (s.setZone (zoneKey n z) { s.zone (zoneKey n z) with fence := some excursionFence }).zone (zoneKey n z) =
        { s.zone (zoneKey n z) with fence := some excursionFence } := by rw [State.zone_setZone, if_pos rfl]
    refine ⟨_, (exec_zoneAeTimeout hr hact hru hf hc hp hu).trans (congrArg _ (passFence_waits (by rw [hzone]; exact hw))), hzone, fun k hk => ?_,
      hset .out (by decide), hset .media (by decide)⟩
    rw [State.zone_setZone, if_neg hk]
  case noExcursion =>
    rintro n z zk s rfl h
    exact exec_zoneAeTimeout_idle h
  case started =>
    intro zk s hr ht hl hn
    have hkeep := (setZone_only s zk { s.zone zk with rearm := 2, rearmAt := s.now }).andThen
      (onWork_tables_only _ (fun w => { w with rearmHead := w.rearmHead.filter (· != zk) }) rfl)
    have hzone (k : Nat) : ((s.setZone zk { s.zone zk with rearm := 2, rearmAt := s.now }).onWork fun w =>
        { w with rearmHead := w.rearmHead.filter (· != zk) }).zone k = if k = zk then { s.zone zk with rearm := 2, rearmAt := s.now } else s.zone k :=
      State.zone_setZone _ _ _ _
    refine ⟨_, exec_zoneRearmStart hr ht hl hn, ?_, fun k hk => ?_, fun hmem => ?_, hkeep .media (by decide), hkeep .out (by decide)⟩
    · rw [hzone, if_pos rfl]
    · rw [hzone, if_neg hk]
    · have hne := (List.mem_filter.1 hmem).2
      simp at hne
  case notStarted => exact fun s h => exec_zoneRearmStart_idle h
  case noRows =>
    rintro n z zk failed data parity s rfl hr ha hrows
    have hnone : s.rowsIn (zoneKey n z) = [] := List.filter_eq_nil_iff.2 fun r hr => by simpa using hrows r hr
    have hkeep := commitMap_only s (zoneKey n z) Zone.rearmed
    refine ⟨_, ?_, commitMap_zone _ _ _, fun k hk => commitMap_zone_ne _ hk _, hkeep .evr (by decide), hkeep .media (by decide),
      hkeep .out (by decide)⟩
    rw [exec_zoneRearmDone hr ha, hnone, State.each_nil]
  case row =>
    rintro n z zk failed data parity mine r f s u rfl hr ha hrows rfl hu hf hroom
    obtain ⟨hzk, hexec⟩ := exec_zoneRearmDone_row (failed := failed) (data := data) (parity := parity) hr ha hrows
    change u = s.rowSeen (zoneKey n z) r (data ++ parity) at hu
    have hseen : Only [.media, .parity] s u := by rw [hu]; exact seeFrames_only _ _ _
    rw [← hu, ← hf] at hexec
    have huzone (k : Nat) : u.zone k = s.zone k := zone_congr (hseen .zones (by decide)) k
    obtain ⟨hrearm, hother, hlost, hlostData⟩ := rearmed_zone (u := u) (f := f) hzk
    have hafter := rearmed_only (r := r) u f (zoneKey n z)
    have hmedia : ((u.rearmRepair r f).commitMap (zoneKey n z) Zone.rearmed).media = (u.repaired r f).media := hafter .media (by decide)
    have hparity : ((u.rearmRepair r f).commitMap (zoneKey n z) Zone.rearmed).parity = (u.repaired r f).parity := hafter .parity (by decide)
    refine ⟨_, hexec, hrearm, fun k hk => (hother k hk).trans (huzone k),
      ((hseen.andThen repaired_parts.1).andThen hafter) .out (by decide), fun h => ?zero, fun h => ?event, fun h => ?parity, fun h => ?gone, fun h => ?kept⟩
    case zero =>
      have hevr : ((u.rearmRepair r f).commitMap (zoneKey n z) Zone.rearmed).evr = u.evr := by
        rw [rearmRepair_eq, if_pos h, repaired_zero h]
        exact commitMap_only u _ _ .evr (by decide)
      rw [hmedia, hparity, repaired_zero h]
      exact ⟨hevr.trans (hseen .evr (by decide)), rfl, rfl⟩
    case event =>
      have hrec := rearmed_recorded (r := r) (zk := zoneKey n z) hseen hroom h
      rwa [hzk] at hrec
    case parity =>
      have hrow : ((u.rearmRepair r f).commitMap (zoneKey n z) Zone.rearmed).rowParity (zoneKey n z) r.row =
          (u.writeParity (zoneKey n z) r.row (List.range 16) (u.rearmUnit r)).rowParity (zoneKey n z) r.row := by
        rw [State.rowParity, hparity, repaired_parity h, hzk]
        rfl
      rw [hmedia, hrow, repaired_parity h]
      exact ⟨writeParity_only _ _ _ _ _ .media (by decide), fun j hj => rowParity_writeParity _ _ _ _ _ hj⟩
    case gone =>
      have hzone : (u.repaired r f).zone (zoneKey n z) =
          { (s.zone (zoneKey n z)).losing (u.lostUnits r f) with epoch := u.store.epoch + 1 } := by
        rw [repaired_lost h, hzk, commitMap_zone, huzone]
      refine ⟨?_, ?_, ?_⟩
      · rw [hlostData, hzone]
        rfl
      · rw [hmedia, repaired_lost h]
        exact commitMap_only _ _ _ .media (by decide)
      · rw [hlost, hzone]
        change _ ++ u.lostUnits r f = _
        unfold State.lostUnits
        rw [hzk, huzone]
    case kept =>
      have hzone : (u.repaired r f).zone (zoneKey n z) = s.zone (zoneKey n z) :=
        (zone_congr (repaired_only h .zones (by decide)) _).trans (huzone _)
      rw [hlost, hlostData, hzone]
      exact ⟨rfl, rfl⟩
  case corrected =>
    rintro n z zk d failed data parity mine r f s u rfl hr ha hrows rfl hu hf h hd
    obtain ⟨hzk, hexec⟩ := exec_zoneRearmDone_row (failed := failed) (data := data) (parity := parity) hr ha hrows
    change u = s.rowSeen (zoneKey n z) r (data ++ parity) at hu
    have hseen : Only [.media, .parity] s u := by rw [hu]; exact seeFrames_only _ _ _
    rw [← hu, ← hf] at hexec
    have hd' : dataAt (u.zone r.zk).rot f.pos = some d := by rw [hzk, zone_congr (hseen .zones (by decide))]; exact hd
    refine ⟨_, hexec, (rearmed_zone hzk).1, fun j hj => ?_⟩
    have hmedia : ((u.rearmRepair r f).commitMap (zoneKey n z) Zone.rearmed).media = (u.correctUnit r d).media :=
      Eq.trans (rearmed_only (r := r) u f (zoneKey n z) .media (by decide)) (by rw [repaired_data h hd'])
    have hunit := stored_each_range u r.zk (256 * r.row + 16 * d) 16 (fun j => u.rearmUnit r d j ^^^ Tbl.look 0 (u.rowParity r.zk r.row).p j ^^^
      parityP (List.range 16) fun e => u.rearmUnit r e j) (256 * r.row + 16 * d + j)
    rw [if_pos (by omega), Nat.add_sub_cancel_left] at hunit
    rw [State.stored, hmedia, ← hzk]
    exact hunit
  case notRearmed =>
    intro n z failed data parity s h
    exact congrArg Host.Outcome.next (if_pos (by rcases h with h | h <;> simp [h]))

end Sys2Proof.Machine
end
